-- ==== Sys2Proof/Word.lean ====
section
/-! DEFINITION. Words of the block: register dwords, bytes, and bit fields numbered as the
manual numbers them ([msb:lsb], both ends included, bit 0 least significant: R5). -/

set_option Elab.async false

namespace Sys2Proof

/-- A 32-bit register dword (R483: registers are reached as dwords). -/
abbrev Word := BitVec 32

/-- A byte, the smallest addressable unit of the barn, the hayloft and the cellar. -/
abbrev Byte := BitVec 8

/-- The field `[hi:lo]` of a number, as a number (R5). -/
def nbits (x hi lo : Nat) : Nat := (x >>> lo) % 2 ^ (hi + 1 - lo)

/-- The field `[hi:lo]` of a bit vector, as a number (R5). -/
def bits {n : Nat} (x : BitVec n) (hi lo : Nat) : Nat := nbits x.toNat hi lo

/-- Bit `k` of a bit vector. -/
def bit {n : Nat} (x : BitVec n) (k : Nat) : Bool := x.getLsbD k

/-- `x` with the field `[hi:lo]` replaced by `v`. -/
def setBits {n : Nat} (x : BitVec n) (hi lo v : Nat) : BitVec n :=
  BitVec.ofNat n (x.toNat - bits x hi lo * 2 ^ lo + (v % 2 ^ (hi + 1 - lo)) * 2 ^ lo)

/-- A number as a dword, modulo 2^32. -/
def w32 (x : Nat) : Word := BitVec.ofNat 32 x

/-- The low dword of a number. -/
def lo32 (x : Nat) : Word := BitVec.ofNat 32 x

/-- The second dword `[63:32]` of a number. -/
def hi32 (x : Nat) : Word := BitVec.ofNat 32 (x >>> 32)

/-- A Boolean as a bit. -/
def b2n (b : Bool) : Nat := if b then 1 else 0

/-- Bytes read as one little-endian number (R5). -/
def leNat : List Byte → Nat
  | [] => 0
  | b :: bs => b.toNat + 256 * leNat bs

/-- A number as `n` little-endian bytes (R5). -/
def leBytes : Nat → Nat → List Byte
  | 0, _ => []
  | n + 1, x => BitVec.ofNat 8 x :: leBytes n (x / 256)

/-- Division rounded up. -/
def ceilDiv (a b : Nat) : Nat := (a + b - 1) / b

/-- `a` is newer than `b` in an `n`-bit wrapping field (R48). -/
def newer (a b n : Nat) : Bool :=
  let d := (a + 2 ^ n - b % 2 ^ n) % 2 ^ n
  d != 0 && d < 2 ^ (n - 1)

/-- The increment of a wrapping field of `n` bits that skips 0 (Table 2-11). -/
def incSkip0 (a n : Nat) : Nat := if (a + 1) % 2 ^ n = 0 then 1 else (a + 1) % 2 ^ n

/-- A signed number in `n` bits of two's complement. -/
def ofInt (n : Nat) (x : Int) : BitVec n := BitVec.ofInt n x

end Sys2Proof
end

