-- ==== Sys2Proof/Config.lean ====
section
/-! DEFINITION. What one specimen of the part fixes, and the values the manual leaves open. Every
constant without a body is open: no proof can see its value. -/

set_option Elab.async false

namespace Sys2Proof.Config

/-- Free values: what the n-th open value is, of any width (log entry 5). -/
opaque free : Nat → Nat

/-- An open byte: contents that became undefined the k-th time, at an address (log entry 5). -/
opaque openByte : Nat → Nat → Nat

/-- Fused values (R386): the device serial number. DESIGN CHOICE (log entry 3). -/
opaque serial : BitVec 64

/-- Fused at manufacture or before this run: MODE_CHANGES, DBG_EPOCH, ARB (log entry 3). -/
opaque modeChanges : BitVec 8
opaque dbgEpoch : BitVec 5
opaque arb : BitVec 7

/-- Fused owner key hash and PROVISIONED (log entry 3). -/
opaque ownerPkHash : BitVec 384
opaque provisioned : Bool

/-- DBG_NONCE as drawn at the first reset (log entry 4). -/
opaque firstNonce : BitVec 128

/-- AES-256 (FIPS 197) on a block under a key, and its inverse (log entry 11). -/
opaque aes256 : Nat → Nat → BitVec 128
opaque aes256Inv : Nat → Nat → BitVec 128

/-- SHA-384 of a byte string; a P-384 ECDSA signature (r, s) of a message verifies under the public
key (X, Y); HMAC-SHA-384 (log entry 11). -/
opaque sha384 : List (BitVec 8) → BitVec 384
opaque ecdsaOk : Nat → Nat → Nat → Nat → List (BitVec 8) → Bool
opaque hmac384 : Nat → List (BitVec 8) → BitVec 384

/-- AES-256-GCM under the device key (Table 15-10): ciphertext of a plaintext under an IV and additional data, the tag,
and the plaintext of a ciphertext (log entry 11). -/
opaque gcmEnc : Nat → List (BitVec 8) → List (BitVec 8) → List (BitVec 8)
opaque gcmTag : Nat → List (BitVec 8) → List (BitVec 8) → BitVec 128
opaque gcmDec : Nat → List (BitVec 8) → List (BitVec 8) → List (BitVec 8)

end Sys2Proof.Config
end

