-- ==== Sys2Proof/Machine/Codes.lean ====
section
/-! DEFINITION. Check codes: CRC-64/XZ (R58), CRC-32C (R446, R426), the CRC-32 of IEEE 802.3
(R70, R71), and the hash of R91. -/

set_option Elab.async false

namespace Sys2Proof.Machine
open Sys2Proof

/-- One bit of a reflected CRC of `w` bits with the reflected polynomial `poly`. -/
def crcBit {w : Nat} (poly c : BitVec w) : BitVec w :=
  if c.getLsbD 0 then (c >>> 1) ^^^ poly else c >>> 1

/-- Eight bits. -/
def crcByte {w : Nat} (poly c : BitVec w) (b : Byte) : BitVec w :=
  let c := c ^^^ (b.setWidth w)
  let f := crcBit poly
  f (f (f (f (f (f (f (f c)))))))

/-- A reflected CRC with all-ones initial value and final XOR. -/
def crcRefl {w : Nat} (poly : BitVec w) (bs : List Byte) : BitVec w :=
  bs.foldl (crcByte poly) (BitVec.allOnes w) ^^^ BitVec.allOnes w

/-- CRC-64/XZ: ECMA-182 polynomial 0x42F0E1EBA9EA3693, reflected (R58). -/
def crc64 (bs : List Byte) : BitVec 64 := crcRefl 0xC96C5795D7870F42#64 bs

/-- CRC-32C (Castagnoli), reflected. -/
def crc32c (bs : List Byte) : BitVec 32 := crcRefl 0x82F63B78#32 bs

/-- CRC-32 of IEEE 802.3, reflected. -/
def crc32 (bs : List Byte) : BitVec 32 := crcRefl 0xEDB88320#32 bs

/-- The forwarding hash (R91). -/
def hash16 (k seed : Nat) : Nat :=
  let x := (k % 2 ^ 64) ^^^ (seed % 2 ^ 64)
  nbits x 15 0 ^^^ nbits x 31 16 ^^^ nbits x 47 32 ^^^ nbits x 63 48

/-- An index into `n` choices by multiplication (R91). -/
def pick (h n : Nat) : Nat := (h * n) >>> 16

end Sys2Proof.Machine
end

