-- ==== Sys2Proof/Machine/RegTable.lean ====
section
/-! DEFINITION. The register space: which page an address lies in (Tables 19-1, 19-5, 19-6), the
registers of every page with their access types, reset values and implemented bits (Tables 2-5 to
19-9), and the 64-bit counters. Addresses are byte addresses in the 64 MiB register space. The VF
pages (Table 16-3) are given addresses above that space, 64 KiB per VF: the model's own layout. -/

set_option Elab.async false

namespace Sys2Proof.Machine

/-- The kinds of pages that carry the common header (Tables 19-5 and 19-6), and the VF page. -/
inductive PageKind where
  | ident
  | pwr
  | save
  | bwin
  | time
  | sec
  | fuse
  | hostp
  | chain
  | fault
  | obs
  | port
  | octet
  | swcore
  | ttu
  | home
  | ext
  | carv
  | sheaf
  | exd
  | dom
  | tile
  | kvpool
  | kvseq
  | tier
  | gran
  | job
  | vf
  deriving DecidableEq, Repr

/-- The access types of Table 19-4. -/
inductive Access where
  | rw | ro | w1c | w1s | wo | rwl | rws | cnt
  deriving DecidableEq, Repr

/-- One row of a register table: offset in the page, stride and count of an array, access type,
reset value and implemented bits. -/
structure RegDesc where
  off : Nat
  stride : Nat
  count : Nat
  acc : Access
  reset : Nat
  mask : Nat
  deriving DecidableEq, Repr

/-- Address of instance 0 of a block's page (Tables 19-5 and 19-6). -/
def pageBase : PageKind → Nat
  | .ident => 0x0
  | .pwr => 0x2000
  | .save => 0x3000
  | .bwin => 0x4000
  | .time => 0x5000
  | .sec => 0x7000
  | .fuse => 0x8000
  | .hostp => 0x9000
  | .chain => 0xB000
  | .fault => 0xC000
  | .obs => 0xD000
  | .port => 0x100000
  | .octet => 0x300000
  | .swcore => 0x400000
  | .ttu => 0x402000
  | .home => 0x404000
  | .ext => 0x406000
  | .carv => 0x408000
  | .sheaf => 0x40A000
  | .exd => 0x40C000
  | .dom => 0x410000
  | .tile => 0x500000
  | .kvpool => 0x510000
  | .kvseq => 0x520000
  | .tier => 0x600000
  | .gran => 0x700000
  | .job => 0x800000
  | .vf => 0x4000000

/-- Instances of a block that the map provides (CAPS, Table 19-2). -/
def pageCount : PageKind → Nat
  | .ident => 1
  | .pwr => 1
  | .save => 1
  | .bwin => 1
  | .time => 1
  | .sec => 1
  | .fuse => 1
  | .hostp => 1
  | .chain => 1
  | .fault => 1
  | .obs => 1
  | .port => 512
  | .octet => 64
  | .swcore => 2
  | .ttu => 2
  | .home => 2
  | .ext => 1
  | .carv => 2
  | .sheaf => 2
  | .exd => 1
  | .dom => 16
  | .tile => 8
  | .kvpool => 16
  | .kvseq => 1
  | .tier => 1
  | .gran => 1
  | .job => 1024
  | .vf => 1025

/-- Distance between the pages of two instances. -/
def pageStride : PageKind → Nat
  | .vf => 0x10000
  | _ => 0x1000

/-- Address of register offset `off` on page `i` of a block. -/
def adr (k : PageKind) (i off : Nat) : Nat := pageBase k + pageStride k * i + off

/-- Every page kind. -/
def PageKind.all : List PageKind :=
  [.ident, .pwr, .save, .bwin, .time, .sec, .fuse, .hostp, .chain, .fault, .obs, .port, .octet, .swcore, .ttu, .home, .ext, .carv, .sheaf, .exd, .dom, .tile, .kvpool, .kvseq, .tier, .gran, .job, .vf]

/-- The page an address lies in, its instance, and the offset in it (R483). -/
def pageAt (a : Nat) : Option (PageKind × Nat × Nat) :=
  PageKind.all.findSome? fun k =>
    let d := a - pageBase k
    if a < pageBase k then none
    else if d / pageStride k < pageCount k ∧ d % pageStride k < 0x1000 then
      some (k, d / pageStride k, d % pageStride k)
    else none

/-- Block-specific registers of the IDENT page. -/
def regs_ident : List RegDesc := [
  ⟨0x100, 0, 1, .ro, 0x8512, 0xFFFF⟩,
  ⟨0x110, 0, 1, .w1c, 0, 0x80000000⟩
]

/-- Block-specific registers of the PWR page. -/
def regs_pwr : List RegDesc := [
  ⟨0x100, 0, 1, .wo, 0, 0x8F00001F⟩,
  ⟨0x104, 0, 1, .ro, 0, 0x8000000F⟩,
  ⟨0x108, 0, 1, .ro, 0xFFFFFFFF, 0xFFFFFFFF⟩,
  ⟨0x10C, 0, 1, .ro, 0, 0xEF000300⟩,
  ⟨0x110, 0, 1, .ro, 0, 0xFFFFFFFF⟩,
  ⟨0x114, 0, 1, .rwl, 0x1, 0x1⟩,
  ⟨0x118, 0, 1, .rw, 0x2AF8, 0xFFFF⟩
]

/-- Block-specific registers of the SAVE page. -/
def regs_save : List RegDesc := [
  ⟨0x100, 0, 1, .ro, 0, 0xF0000700⟩,
  ⟨0x108, 0, 1, .ro, 0, 0xFFFFFFFF⟩,
  ⟨0x10C, 0, 1, .ro, 0, 0xFFFFFFFF⟩,
  ⟨0x110, 0, 1, .ro, 0, 0xFFFFFFFF⟩,
  ⟨0x114, 0, 1, .ro, 0, 0xFFFFFFFF⟩,
  ⟨0x118, 0, 1, .ro, 0, 0x1⟩,
  ⟨0x120, 0, 1, .rw, 0, 0x1FFFFFF⟩,
  ⟨0x124, 0, 1, .ro, 0, 0xFFFFFFFF⟩,
  ⟨0x128, 0, 1, .ro, 0, 0xFFFFFFFF⟩
]

/-- Block-specific registers of the BWIN page. -/
def regs_bwin : List RegDesc := [
  ⟨0x100, 0, 1, .rw, 0, 0xFFFFFFFF⟩,
  ⟨0x104, 0, 1, .rw, 0, 0xFFFFFFFF⟩,
  ⟨0x108, 0, 1, .wo, 0, 0x810001FF⟩,
  ⟨0x10C, 0, 1, .ro, 0, 0x8000010F⟩,
  ⟨0x200, 4, 64, .rw, 0, 0xFFFFFFFF⟩
]

/-- Block-specific registers of the TIME page. -/
def regs_time : List RegDesc := [
  ⟨0x100, 0, 1, .ro, 0, 0xFFFFFFFF⟩,
  ⟨0x104, 0, 1, .ro, 0, 0xFFFFFFFF⟩,
  ⟨0x108, 0, 1, .ro, 0, 0xFFFF⟩,
  ⟨0x110, 0, 1, .rw, 0, 0xFFFFFFFF⟩,
  ⟨0x114, 0, 1, .rw, 0, 0xFFFFFFFF⟩,
  ⟨0x118, 0, 1, .rw, 0xA0000000, 0xFFFFFFFF⟩,
  ⟨0x11C, 0, 1, .rw, 0x6402, 0xFF03⟩,
  ⟨0x120, 0, 1, .rwl, 0xFF, 0x1FF⟩,
  ⟨0x124, 0, 1, .rwl, 0x3, 0xF⟩,
  ⟨0x128, 0, 1, .rwl, 0x20, 0x3FF⟩,
  ⟨0x12C, 0, 1, .rwl, 0x64, 0xFFFFF⟩,
  ⟨0x130, 0, 1, .ro, 0, 0xFFFFFFFF⟩,
  ⟨0x134, 0, 1, .ro, 0, 0xFFFFFFFF⟩,
  ⟨0x138, 0, 1, .ro, 0, 0xFFFFFFE7⟩,
  ⟨0x13C, 0, 1, .ro, 0, 0xFFFFFFFF⟩,
  ⟨0x140, 0, 1, .ro, 0, 0xFFFFFFFF⟩,
  ⟨0x144, 0, 1, .ro, 0, 0xFFFFFFFF⟩,
  ⟨0x148, 0, 1, .ro, 0, 0xFFFFFFFF⟩,
  ⟨0x14C, 0, 1, .ro, 0, 0xFFFFFFFF⟩
]

/-- Block-specific registers of the SEC page. -/
def regs_sec : List RegDesc := [
  ⟨0x100, 0, 1, .wo, 0, 0x8F000000⟩,
  ⟨0x104, 0, 1, .ro, 0, 0x83030F0F⟩,
  ⟨0x108, 0, 1, .ro, 0, 0x7F⟩,
  ⟨0x10C, 0, 1, .ro, 0, 0x3FF⟩,
  ⟨0x110, 4, 12, .ro, 0, 0xFFFFFFFF⟩,
  ⟨0x140, 4, 4, .ro, 0, 0xFFFFFFFF⟩,
  ⟨0x150, 0, 1, .ro, 0, 0x1FF⟩,
  ⟨0x154, 0, 1, .ro, 0, 0x7FF⟩,
  ⟨0x158, 0, 1, .rws, 0, 0x1⟩,
  ⟨0x200, 4, 64, .rw, 0, 0xFFFFFFFF⟩,
  ⟨0x400, 16, 64, .rw, 0, 0xFFFFF001⟩,
  ⟨0x404, 16, 64, .rw, 0, 0xFFFFFFFF⟩,
  ⟨0x408, 16, 64, .rw, 0, 0xFFFFF000⟩,
  ⟨0x40C, 16, 64, .rw, 0, 0xFFFFFFFF⟩
]

/-- Block-specific registers of the FUSE page. -/
def regs_fuse : List RegDesc := [
  ⟨0x100, 0, 1, .cnt, 0, 0xFF⟩,
  ⟨0x104, 0, 1, .cnt, 0, 0x1F⟩,
  ⟨0x108, 0, 1, .cnt, 0, 0x7F⟩,
  ⟨0x110, 0, 1, .ro, 0, 0xFFFFFFFF⟩,
  ⟨0x114, 0, 1, .ro, 0, 0xFFFFFFFF⟩,
  ⟨0x120, 4, 12, .rw, 0, 0xFFFFFFFF⟩,
  ⟨0x150, 0, 1, .wo, 0, 0x1⟩,
  ⟨0x154, 0, 1, .ro, 0, 0x1⟩
]

/-- Block-specific registers of the HOSTP page. -/
def regs_hostp : List RegDesc := [
  ⟨0x100, 0, 1, .rwl, 0, 0xFFFF⟩,
  ⟨0x104, 0, 1, .ro, 0x100, 0xFFF⟩,
  ⟨0x108, 0, 1, .ro, 0x100, 0xFFF⟩,
  ⟨0x10C, 0, 1, .ro, 0, 0xFFF⟩
]

/-- Block-specific registers of the CHAIN page. -/
def regs_chain : List RegDesc := [
  ⟨0x100, 0, 1, .rw, 0, 0x1⟩,
  ⟨0x104, 0, 1, .wo, 0, 0x1⟩,
  ⟨0x108, 0, 1, .rwl, 0xFF, 0x100FF⟩,
  ⟨0x10C, 0, 1, .ro, 0, 0xEF3F7F7F⟩,
  ⟨0x110, 0, 1, .ro, 0, 0xFFFFFFFF⟩,
  ⟨0x114, 0, 1, .ro, 0, 0xFFFFFFFF⟩,
  ⟨0x118, 0, 1, .rw, 0x64, 0xFFFF⟩,
  ⟨0x11C, 0, 1, .rw, 0x64, 0xFFFFF⟩,
  ⟨0x120, 0, 1, .rw, 0x3E8, 0xFFFF⟩,
  ⟨0x124, 0, 1, .ro, 0, 0x3F0001⟩,
  ⟨0x400, 8, 64, .ro, 0, 0xFFFFFFFF⟩,
  ⟨0x404, 8, 64, .ro, 0, 0xFFFFFFFF⟩
]

/-- Block-specific registers of the FAULT page. -/
def regs_fault : List RegDesc := [
  ⟨0x100, 0, 1, .rwl, 0, 0x3⟩,
  ⟨0x104, 0, 1, .ro, 0, 0x80000000⟩,
  ⟨0x108, 0, 1, .ro, 0, 0x83FFF01F⟩,
  ⟨0x10C, 0, 1, .ro, 0, 0xFFFFFFFF⟩,
  ⟨0x110, 0, 1, .wo, 0, 0x8F00003F⟩,
  ⟨0x114, 0, 1, .ro, 0, 0x8000000F⟩,
  ⟨0x118, 0, 1, .ro, 0, 0xFFFFFFFF⟩,
  ⟨0x11C, 0, 1, .ro, 0, 0xFFFFFFFF⟩,
  ⟨0x120, 0, 1, .ro, 0, 0xFFFFFFFF⟩,
  ⟨0x124, 0, 1, .ro, 0, 0xFFFFFFFF⟩,
  ⟨0x128, 0, 1, .rw, 0, 0xFFFFFFFF⟩,
  ⟨0x12C, 0, 1, .rw, 0x40, 0xFFFF⟩,
  ⟨0x130, 0, 1, .rwl, 0, 0xFFFFFFFF⟩,
  ⟨0x134, 0, 1, .rwl, 0, 0xFFFFFFFF⟩,
  ⟨0x138, 0, 1, .rw, 0, 0x8000001F⟩,
  ⟨0x13C, 0, 1, .ro, 0, 0x1FFFF⟩,
  ⟨0x140, 0, 1, .rw, 0, 0x1FFFF⟩,
  ⟨0x148, 0, 1, .rwl, 0x800003E8, 0x800FFFFF⟩,
  ⟨0x14C, 0, 1, .rw, 0, 0x1FFE⟩,
  ⟨0x150, 0, 1, .ro, 0, 0xFFFFFFFF⟩,
  ⟨0x154, 0, 1, .ro, 0, 0xFFFFFFFF⟩,
  ⟨0x158, 0, 1, .ro, 0, 0x80001FFE⟩,
  ⟨0x160, 4, 32, .w1c, 0, 0xFFFFFFFF⟩,
  ⟨0x240, 0, 1, .ro, 0, 0xFFFFFFFF⟩,
  ⟨0x244, 0, 1, .ro, 0, 0xFFFFFFFF⟩
]

/-- Block-specific registers of the OBS page. -/
def regs_obs : List RegDesc := [
  ⟨0x100, 0, 1, .rwl, 0, 0xFFFFFFFF⟩,
  ⟨0x104, 0, 1, .rwl, 0, 0xFFFFFFFF⟩,
  ⟨0x108, 0, 1, .rw, 0, 0xC000001F⟩,
  ⟨0x10C, 0, 1, .wo, 0, 0x1⟩,
  ⟨0x110, 0, 1, .ro, 0, 0x1FFFFFF⟩,
  ⟨0x114, 0, 1, .rw, 0, 0x1FFFFFF⟩,
  ⟨0x118, 0, 1, .ro, 0, 0x1⟩,
  ⟨0x11C, 0, 1, .rw, 0, 0x8F1FFDFF⟩,
  ⟨0x120, 0, 1, .rwl, 0, 0xFFFFFFFF⟩,
  ⟨0x124, 0, 1, .rwl, 0, 0xFFFFFFFF⟩,
  ⟨0x128, 0, 1, .rw, 0, 0x8000001F⟩,
  ⟨0x12C, 0, 1, .ro, 0, 0x1FFFFFF⟩,
  ⟨0x130, 0, 1, .rw, 0, 0x1FFFFFF⟩,
  ⟨0x134, 0, 1, .ro, 0, 0x8000003F⟩,
  ⟨0x200, 16, 64, .rw, 0, 0xE0FFF9FF⟩,
  ⟨0x204, 16, 64, .rw, 0, 0x800FFFFF⟩,
  ⟨0x208, 16, 64, .ro, 0, 0xFFFFFFFF⟩,
  ⟨0x20C, 16, 64, .ro, 0, 0xFFFFFFFF⟩,
  ⟨0x600, 32, 64, .rw, 0, 0xFFFFFFFF⟩,
  ⟨0x604, 32, 64, .rw, 0, 0x1FFFFFF⟩,
  ⟨0x608, 32, 64, .rw, 0, 0xFFFFFFFF⟩,
  ⟨0x60C, 32, 64, .rw, 0, 0x1FFFFFF⟩,
  ⟨0x610, 32, 64, .rw, 0, 0xFFEFFFFF⟩,
  ⟨0x618, 32, 64, .ro, 0, 0xFFFFFFFF⟩,
  ⟨0x61C, 32, 64, .ro, 0, 0xFFFFFFFF⟩
]

/-- Block-specific registers of the PORT page. -/
def regs_port : List RegDesc := [
  ⟨0x100, 0, 1, .rw, 0, 0x8000000D⟩,
  ⟨0x104, 0, 1, .ro, 0, 0xFFC00000⟩,
  ⟨0x110, 0, 1, .ro, 0, 0xFFFFFFFF⟩,
  ⟨0x114, 0, 1, .ro, 0, 0xFFFFFFFF⟩,
  ⟨0x118, 0, 1, .ro, 0, 0x1FF⟩,
  ⟨0x120, 0, 1, .rw, 0x43322200, 0xFFFFFFFF⟩,
  ⟨0x124, 0, 1, .rw, 0x654, 0xFFF⟩,
  ⟨0x128, 0, 1, .rw, 0x76543210, 0xFFFFFFFF⟩,
  ⟨0x200, 0, 1, .rw, 0x400, 0x1FFFF⟩,
  ⟨0x204, 4, 5, .rw, 0x200020, 0xFFFFFFFF⟩,
  ⟨0x218, 0, 1, .rw, 0x20, 0xFFFF⟩,
  ⟨0x220, 0, 1, .ro, 0, 0x1FFFF⟩,
  ⟨0x400, 0, 1, .rw, 0x500, 0xC0FF0701⟩,
  ⟨0x404, 0, 1, .ro, 0, 0x3FF00F3⟩,
  ⟨0x408, 0, 1, .rw, 0, 0xFFFFFFFF⟩,
  ⟨0x410, 0, 1, .rw, 0, 0xFFFFFFFF⟩,
  ⟨0x414, 0, 1, .rw, 0, 0xFFFFFFFF⟩,
  ⟨0x418, 0, 1, .rw, 0, 0x3FF⟩,
  ⟨0x420, 0, 1, .rw, 0, 0xFFFFFFFF⟩,
  ⟨0x424, 0, 1, .rw, 0, 0xFFFFFFFF⟩,
  ⟨0x428, 0, 1, .rw, 0, 0x7FF⟩,
  ⟨0x430, 0, 1, .ro, 0, 0xFFFFFFFF⟩,
  ⟨0x434, 0, 1, .ro, 0, 0xFFFFFFFF⟩,
  ⟨0x438, 0, 1, .cnt, 0, 0xFFFFFFFF⟩,
  ⟨0x500, 0, 1, .rw, 0x2400, 0x3FFF⟩,
  ⟨0x504, 0, 1, .rw, 0, 0xFF07⟩,
  ⟨0x510, 4, 8, .rw, 0x8000600, 0xFFFFFFFF⟩,
  ⟨0x530, 4, 8, .rw, 0xB48, 0xFFFF⟩,
  ⟨0x550, 0, 1, .rw, 0x7FFFFFFF, 0xFFFFFFFF⟩,
  ⟨0x554, 0, 1, .rw, 0x64, 0xFFFF⟩,
  ⟨0x558, 0, 1, .ro, 0, 0xFFFF⟩,
  ⟨0x600, 0, 1, .ro, 0, 0xF000000F⟩,
  ⟨0x604, 0, 1, .rw, 0, 0xC00FFFFC⟩,
  ⟨0x608, 0, 1, .rw, 0, 0xFFFFFFFF⟩,
  ⟨0x60C, 0, 1, .ro, 0, 0xE⟩,
  ⟨0x610, 0, 1, .rw, 0, 0xFFFFFFFF⟩,
  ⟨0x614, 0, 1, .rw, 0, 0xFFFFFFFF⟩,
  ⟨0x618, 0, 1, .rw, 0, 0xFFFFFFFF⟩,
  ⟨0x61C, 0, 1, .rw, 0, 0xFFFFFFFF⟩,
  ⟨0x620, 0, 1, .ro, 0, 0xFFFFFFFF⟩,
  ⟨0x640, 32, 4, .rw, 0, 0xFFFFFF⟩,
  ⟨0x644, 32, 4, .rw, 0, 0x1FFFFFF⟩,
  ⟨0x648, 32, 4, .rw, 0, 0xFFF⟩,
  ⟨0x700, 0, 1, .rw, 0, 0xFF0300⟩,
  ⟨0x704, 0, 1, .rw, 0x64, 0xFFFF⟩,
  ⟨0x708, 0, 1, .rw, 0x1, 0xFFF⟩,
  ⟨0x70C, 0, 1, .rw, 0, 0xFFFFFFFF⟩,
  ⟨0x710, 4, 8, .rw, 0x1, 0xFF⟩,
  ⟨0x730, 0, 1, .rw, 0, 0x1⟩,
  ⟨0x740, 16, 9, .rw, 0x400000, 0xFFFFFFFF⟩,
  ⟨0x744, 16, 9, .ro, 0x4000, 0xFFFFFFFF⟩,
  ⟨0x748, 16, 9, .rw, 0x1, 0x3⟩,
  ⟨0x8E0, 4, 8, .ro, 0, 0xFFFFF⟩,
  ⟨0x900, 0, 1, .rw, 0, 0x3F⟩
]

/-- Block-specific registers of the OCTET page. -/
def regs_octet : List RegDesc := [
  ⟨0x100, 0, 1, .rw, 0, 0x3⟩,
  ⟨0x104, 0, 1, .rw, 0x4, 0xFFFFFF⟩,
  ⟨0x108, 0, 1, .wo, 0, 0x1⟩,
  ⟨0x10C, 0, 1, .ro, 0x100, 0x10F⟩,
  ⟨0x110, 0, 1, .rw, 0x6, 0xF⟩,
  ⟨0x114, 0, 1, .ro, 0, 0xFFFFFF⟩
]

/-- Block-specific registers of the SWCORE page. -/
def regs_swcore : List RegDesc := [
  ⟨0x100, 0, 1, .rw, 0, 0xFFFFFFFF⟩,
  ⟨0x104, 0, 1, .rw, 0, 0xFFFFFFFF⟩,
  ⟨0x108, 0, 1, .rw, 0xFA, 0xFFFFF⟩,
  ⟨0x10C, 0, 1, .rw, 0x208, 0x7FF⟩,
  ⟨0x110, 4, 32, .rw, 0x4000, 0xFFFFF⟩,
  ⟨0x190, 0, 1, .rw, 0x20000, 0xFFFFF⟩,
  ⟨0x194, 0, 1, .ro, 0xA0000, 0xFFFFF⟩,
  ⟨0x198, 0, 1, .ro, 0, 0xFFFFF⟩,
  ⟨0x19C, 0, 1, .ro, 0, 0xFFFFF⟩,
  ⟨0x1A0, 0, 1, .rw, 0x64, 0x800FFFFF⟩
]

/-- Block-specific registers of the TTU page. -/
def regs_ttu : List RegDesc := [
  ⟨0x100, 0, 1, .rw, 0x64, 0xFFFFF⟩,
  ⟨0x104, 0, 1, .ro, 0x8000, 0xFFFF⟩,
  ⟨0x108, 0, 1, .ro, 0, 0xFFFF⟩
]

/-- Block-specific registers of the HOME page. -/
def regs_home : List RegDesc := [
  ⟨0x100, 0, 1, .ro, 0x2000, 0x3FFF⟩,
  ⟨0x104, 0, 1, .ro, 0x400, 0x7FF⟩
]

/-- Block-specific registers of the EXT page. -/
def regs_ext : List RegDesc := [
  ⟨0x100, 0, 1, .wo, 0, 0x8000000F⟩,
  ⟨0x104, 0, 1, .ro, 0, 0x8000000F⟩,
  ⟨0x110, 4, 8, .rw, 0, 0xFFFFFFFF⟩,
  ⟨0x130, 0, 1, .ro, 0, 0xFFFFFFFF⟩,
  ⟨0x134, 0, 1, .ro, 0, 0xFFFFFFFF⟩,
  ⟨0x140, 0, 1, .ro, 0, 0xC0000001⟩,
  ⟨0x144, 0, 1, .ro, 0, 0xFFFF0000⟩,
  ⟨0x148, 0, 1, .ro, 0, 0x7FFFF⟩,
  ⟨0x14C, 0, 1, .ro, 0, 0x1FFFF⟩,
  ⟨0x150, 0, 1, .rwl, 0, 0xFFFFFFFF⟩,
  ⟨0x154, 0, 1, .rwl, 0, 0xFFFFFFFF⟩,
  ⟨0x158, 0, 1, .rw, 0x5F5E100, 0xFFFFFFFF⟩,
  ⟨0x15C, 0, 1, .rw, 0x3E8, 0xFFFFF⟩,
  ⟨0x160, 0, 1, .ro, 0, 0xF003FFFF⟩,
  ⟨0x164, 0, 1, .ro, 0, 0xFFFFFFFF⟩
]

/-- Block-specific registers of the CARV page. -/
def regs_carv : List RegDesc := [
  ⟨0x100, 0, 1, .rw, 0, 0x1⟩,
  ⟨0x104, 0, 1, .rwl, 0, 0xFFFF⟩,
  ⟨0x108, 0, 1, .rwl, 0xB856, 0xFFFF⟩,
  ⟨0x10C, 0, 1, .rwl, 0, 0xFFFFFFFF⟩,
  ⟨0x110, 4, 4, .rwl, 0, 0xFFFFFFFF⟩,
  ⟨0x120, 0, 1, .rwl, 0, 0xFFFFFFFF⟩,
  ⟨0x124, 0, 1, .rwl, 0, 0xFFFF⟩,
  ⟨0x128, 0, 1, .rw, 0x2400, 0x3FFF⟩,
  ⟨0x12C, 0, 1, .rw, 0x640010, 0xFFFF00FF⟩,
  ⟨0x130, 0, 1, .rwl, 0, 0xFFFFFFFF⟩,
  ⟨0x134, 0, 1, .rwl, 0, 0xFFFFFFFF⟩,
  ⟨0x138, 0, 1, .wo, 0, 0x8F00FFFF⟩,
  ⟨0x13C, 0, 1, .rw, 0, 0xFFFF⟩,
  ⟨0x140, 0, 1, .ro, 0, 0x8000000F⟩,
  ⟨0x150, 4, 4, .ro, 0, 0x1FFF0000⟩
]

/-- Block-specific registers of the SHEAF page. -/
def regs_sheaf : List RegDesc := [
  ⟨0x100, 0, 1, .wo, 0, 0x8F000FFF⟩,
  ⟨0x104, 0, 1, .ro, 0, 0x8000000F⟩,
  ⟨0x108, 0, 1, .rw, 0, 0xFFFFFFFF⟩,
  ⟨0x10C, 0, 1, .rw, 0, 0xFFFFFFFF⟩,
  ⟨0x110, 0, 1, .ro, 0, 0xFFF⟩,
  ⟨0x114, 0, 1, .ro, 0, 0x80003FFF⟩,
  ⟨0x118, 0, 1, .ro, 0, 0xF0000FFF⟩,
  ⟨0x11C, 0, 1, .ro, 0, 0xFFFF⟩
]

/-- Block-specific registers of the EXD page. -/
def regs_exd : List RegDesc := [
  ⟨0x100, 0, 1, .wo, 0, 0x8F0000FF⟩,
  ⟨0x104, 0, 1, .ro, 0, 0x8000000F⟩,
  ⟨0x108, 0, 1, .rw, 0, 0xFFF0FFF⟩,
  ⟨0x10C, 0, 1, .ro, 0, 0x1FF⟩,
  ⟨0x110, 0, 1, .ro, 0, 0x7FFFFF⟩,
  ⟨0x114, 0, 1, .ro, 0, 0x7FFFFF⟩,
  ⟨0x118, 0, 1, .ro, 0, 0xFFF07FFF⟩,
  ⟨0x11C, 0, 1, .ro, 0, 0xFFFF⟩
]

/-- Block-specific registers of the DOM page. -/
def regs_dom : List RegDesc := [
  ⟨0x100, 0, 1, .wo, 0, 0x3⟩,
  ⟨0x104, 0, 1, .ro, 0, 0xF07⟩,
  ⟨0x108, 0, 1, .rw, 0, 0xFFFFF⟩,
  ⟨0x10C, 0, 1, .rw, 0xA, 0x11F⟩,
  ⟨0x110, 0, 1, .rw, 0, 0xFFFFFFFF⟩,
  ⟨0x114, 0, 1, .rw, 0, 0xFFFFFFFF⟩,
  ⟨0x118, 0, 1, .rw, 0x400, 0xF07⟩,
  ⟨0x11C, 0, 1, .rw, 0x400, 0x3FFF⟩,
  ⟨0x120, 0, 1, .rw, 0x32, 0xFFFFF⟩,
  ⟨0x124, 0, 1, .ro, 0, 0x3FFF⟩,
  ⟨0x128, 0, 1, .ro, 0, 0xF00007FF⟩,
  ⟨0x12C, 0, 1, .ro, 0, 0xFFFFFFF⟩
]

/-- Block-specific registers of the TILE page. -/
def regs_tile : List RegDesc := [
  ⟨0x100, 0, 1, .rw, 0, 0x1⟩,
  ⟨0x104, 0, 1, .ro, 0, 0x8000000F⟩,
  ⟨0x108, 0, 1, .wo, 0, 0x80000003⟩,
  ⟨0x10C, 0, 1, .rw, 0, 0x3FFFFFFF⟩,
  ⟨0x110, 0, 1, .ro, 0, 0x8000000F⟩,
  ⟨0x114, 0, 1, .ro, 0x300, 0x3FF⟩,
  ⟨0x118, 0, 1, .ro, 0, 0x1FFF⟩,
  ⟨0x11C, 0, 1, .ro, 0x10001000, 0x1FFF1FFF⟩,
  ⟨0x120, 0, 1, .ro, 0x10001000, 0x1FFF1FFF⟩,
  ⟨0x128, 0, 1, .rw, 0, 0xFFFFFFFF⟩,
  ⟨0x12C, 0, 1, .rw, 0, 0xFFFFFFFF⟩,
  ⟨0x130, 0, 1, .ro, 0, 0x8000000F⟩,
  ⟨0x134, 0, 1, .ro, 0, 0x3FF00FF⟩,
  ⟨0x300, 0, 1, .rw, 0x400, 0x7FF⟩
]

/-- Block-specific registers of the KVPOOL page. -/
def regs_kvpool : List RegDesc := [
  ⟨0x100, 0, 1, .wo, 0, 0x3⟩,
  ⟨0x104, 0, 1, .ro, 0, 0xF03⟩,
  ⟨0x108, 0, 1, .rw, 0, 0xFFFFF⟩,
  ⟨0x10C, 0, 1, .rw, 0, 0xFF0F1F07⟩,
  ⟨0x110, 0, 1, .rw, 0, 0x7000100⟩,
  ⟨0x114, 0, 1, .ro, 0, 0xFFFFFF⟩,
  ⟨0x118, 0, 1, .rw, 0, 0xFFFFFFFF⟩,
  ⟨0x11C, 0, 1, .rw, 0, 0xFFFFF⟩,
  ⟨0x120, 0, 1, .rw, 0, 0x1FFFFFFF⟩,
  ⟨0x124, 0, 1, .rw, 0, 0x3FFFF⟩,
  ⟨0x128, 0, 1, .rw, 0, 0x3FFFF⟩,
  ⟨0x130, 0, 1, .rw, 0, 0xFFFFFFFF⟩,
  ⟨0x134, 0, 1, .rw, 0, 0xFFFFFFFF⟩,
  ⟨0x138, 0, 1, .rw, 0, 0xFFFFFFFF⟩,
  ⟨0x13C, 0, 1, .rw, 0, 0xFFFFFFFF⟩,
  ⟨0x140, 0, 1, .rw, 0, 0x1FFFFFF⟩,
  ⟨0x148, 0, 1, .rw, 0, 0xFFFFFFFF⟩,
  ⟨0x14C, 0, 1, .rw, 0, 0xFFFFF⟩,
  ⟨0x150, 0, 1, .rw, 0, 0x1FFFFFFF⟩,
  ⟨0x158, 0, 1, .rw, 0, 0xFFFFFFFF⟩,
  ⟨0x15C, 0, 1, .rw, 0, 0xFFFFFFFF⟩,
  ⟨0x160, 0, 1, .rw, 0, 0x1FFFFFFF⟩,
  ⟨0x164, 0, 1, .rw, 0, 0x1FFFFFFF⟩,
  ⟨0x168, 0, 1, .rw, 0, 0xFFFFFFFF⟩,
  ⟨0x16C, 0, 1, .rw, 0, 0xFFFFFFFF⟩,
  ⟨0x170, 0, 1, .rw, 0, 0xFFF⟩,
  ⟨0x174, 0, 1, .ro, 0, 0xFFF⟩,
  ⟨0x178, 0, 1, .ro, 0, 0x1FFFFFFF⟩,
  ⟨0x17C, 0, 1, .ro, 0, 0x1FFFFFFF⟩,
  ⟨0x180, 0, 1, .ro, 0, 0x1FFFFFFF⟩,
  ⟨0x184, 0, 1, .ro, 0, 0x1FFFFFF⟩,
  ⟨0x188, 0, 1, .ro, 0, 0x1FFFFFFF⟩
]

/-- Block-specific registers of the KVSEQ page. -/
def regs_kvseq : List RegDesc := [
  ⟨0x100, 0, 1, .wo, 0, 0x8F03FFFF⟩,
  ⟨0x104, 0, 1, .ro, 0, 0x8000000F⟩,
  ⟨0x108, 0, 1, .rw, 0, 0xF7FFFFF⟩,
  ⟨0x110, 0, 1, .rwl, 0, 0xFFFFFFFF⟩,
  ⟨0x114, 0, 1, .rwl, 0, 0xFFFFFFFF⟩,
  ⟨0x118, 0, 1, .ro, 0, 0x7FFFF⟩,
  ⟨0x11C, 0, 1, .ro, 0, 0x80000001⟩
]

/-- Block-specific registers of the TIER page. -/
def regs_tier : List RegDesc := [
  ⟨0x100, 0, 1, .rw, 0, 0x1⟩,
  ⟨0x104, 0, 1, .ro, 0, 0x8000000F⟩,
  ⟨0x108, 0, 1, .rw, 0xA, 0x1F⟩,
  ⟨0x110, 0, 1, .rw, 0, 0xFFFFFFFF⟩,
  ⟨0x114, 0, 1, .rw, 0, 0xFFFFFFFF⟩,
  ⟨0x118, 0, 1, .rw, 0, 0xFFFFFFFF⟩,
  ⟨0x11C, 0, 1, .rw, 0, 0xFFFFFFFF⟩,
  ⟨0x120, 0, 1, .wo, 0, 0x8000000F⟩,
  ⟨0x124, 0, 1, .ro, 0, 0x8000000F⟩,
  ⟨0x128, 0, 1, .rw, 0, 0xFFFFFFFF⟩,
  ⟨0x12C, 0, 1, .rw, 0, 0xFFFFF⟩,
  ⟨0x130, 0, 1, .rw, 0, 0xFFFFFF⟩,
  ⟨0x134, 0, 1, .ro, 0, 0xFFFFFF⟩,
  ⟨0x138, 0, 1, .ro, 0, 0xFFFFFF⟩,
  ⟨0x13C, 0, 1, .rw, 0x400, 0x3FFF⟩,
  ⟨0x140, 0, 1, .rw, 0, 0x1FFF⟩,
  ⟨0x144, 0, 1, .ro, 0, 0x7FFFFF⟩,
  ⟨0x148, 0, 1, .ro, 0, 0x7FFFFF⟩,
  ⟨0x14C, 0, 1, .ro, 0, 0x7FFFFF⟩,
  ⟨0x150, 0, 1, .ro, 0, 0xFFFFFFFF⟩,
  ⟨0x400, 4, 256, .rw, 0, 0xF3⟩
]

/-- Block-specific registers of the GRAN page. -/
def regs_gran : List RegDesc := [
  ⟨0x100, 0, 1, .rw, 0, 0x3⟩,
  ⟨0x104, 0, 1, .ro, 0, 0xF07⟩,
  ⟨0x108, 0, 1, .rw, 0, 0x30F0F07⟩,
  ⟨0x10C, 0, 1, .rw, 0, 0x7FFFFF⟩,
  ⟨0x110, 0, 1, .rw, 0, 0xFFFFFFFF⟩,
  ⟨0x114, 0, 1, .rw, 0, 0xFFFFF⟩,
  ⟨0x118, 0, 1, .rw, 0, 0xFFFFFFFF⟩,
  ⟨0x11C, 0, 1, .rw, 0, 0xFFFFFFFF⟩,
  ⟨0x120, 0, 1, .rw, 0, 0xFFFFFFFF⟩,
  ⟨0x124, 0, 1, .rw, 0, 0xFFFFFFFF⟩,
  ⟨0x128, 0, 1, .rw, 0, 0xFFFFFFFF⟩,
  ⟨0x12C, 0, 1, .rw, 0x100008, 0xFFFFFFFF⟩,
  ⟨0x130, 0, 1, .rw, 0x20, 0xFFFF⟩,
  ⟨0x134, 0, 1, .rw, 0x200, 0xFFFF⟩,
  ⟨0x138, 0, 1, .rw, 0xF4240, 0x1FFFFF⟩,
  ⟨0x13C, 0, 1, .rw, 0x4008, 0xFF0F⟩,
  ⟨0x140, 0, 1, .rw, 0x4000, 0xFFFFF⟩,
  ⟨0x148, 0, 1, .ro, 0, 0x7FFFFFFF⟩,
  ⟨0x14C, 0, 1, .ro, 0, 0xFFFF⟩,
  ⟨0x150, 0, 1, .ro, 0, 0x7FFFFF⟩
]

/-- Block-specific registers of the JOB page. -/
def regs_job : List RegDesc := [
  ⟨0x100, 0, 1, .rw, 0, 0xFFFFF⟩,
  ⟨0x104, 0, 1, .wo, 0, 0x103⟩,
  ⟨0x108, 0, 1, .ro, 0, 0xF13⟩,
  ⟨0x110, 0, 1, .rw, 0, 0xFFFFFFFF⟩,
  ⟨0x114, 0, 1, .rw, 0, 0xFFFFFFFF⟩,
  ⟨0x118, 0, 1, .rw, 0, 0xFFFFFFFF⟩,
  ⟨0x11C, 0, 1, .rw, 0, 0x1FFFFFF⟩,
  ⟨0x120, 0, 1, .rw, 0, 0x1FFFFFF⟩,
  ⟨0x124, 0, 1, .rw, 0, 0x1F⟩,
  ⟨0x128, 0, 1, .rw, 0, 0xFFFFFFFF⟩,
  ⟨0x12C, 0, 1, .rw, 0, 0xFFFFFFFF⟩,
  ⟨0x130, 0, 1, .rw, 0x1000, 0x1FFFF⟩,
  ⟨0x134, 0, 1, .ro, 0, 0x1FFFF⟩,
  ⟨0x138, 0, 1, .rw, 0x400, 0xFFFFF⟩,
  ⟨0x13C, 0, 1, .ro, 0, 0xFFFFF⟩,
  ⟨0x140, 0, 1, .rw, 0, 0xFFFFFFFF⟩,
  ⟨0x144, 0, 1, .rw, 0, 0x1FFFFFF⟩,
  ⟨0x148, 0, 1, .rw, 0, 0x1FFFFFF⟩,
  ⟨0x150, 4, 4, .ro, 0, 0xFFFF0000⟩,
  ⟨0x180, 0, 1, .rw, 0, 0xFFFF7FFF⟩,
  ⟨0x184, 0, 1, .rw, 0, 0x1FFF00FF⟩,
  ⟨0x188, 0, 1, .rw, 0, 0xFFFFF001⟩,
  ⟨0x18C, 0, 1, .rw, 0, 0x1FFFFFF⟩
]

/-- Block-specific registers of the VF page. -/
def regs_vf : List RegDesc := [
  ⟨0x100, 0, 1, .ro, 0, 0x800003FF⟩,
  ⟨0x104, 0, 1, .wo, 0, 0x80000000⟩,
  ⟨0x108, 0, 1, .ro, 0, 0x8000000F⟩,
  ⟨0x110, 0, 1, .rw, 0, 0x3FFF⟩,
  ⟨0x118, 0, 1, .ro, 0, 0xFFFFFFFF⟩,
  ⟨0x11C, 0, 1, .ro, 0, 0xFFFFFFFF⟩,
  ⟨0x120, 0, 1, .rw, 0, 0xFFFFFFFF⟩,
  ⟨0x124, 0, 1, .wo, 0, 0xFFFFFFFF⟩,
  ⟨0x128, 0, 1, .ro, 0, 0xF⟩,
  ⟨0x130, 4, 6, .rw, 0, 0x80003FFF⟩,
  ⟨0x200, 4, 32, .rw, 0, 0xFFFFFFFF⟩
]

/-- The common page header (Table 19-2); STATUS, LOCK, CTRL, ERR and INT behave as R484, R487 and
R457 state. -/
def headerRegs : List RegDesc := [
  ⟨0x010, 0, 1, .rw, 1, 1⟩, ⟨0x020, 0, 1, .w1c, 0, 0xFFFFFFFF⟩, ⟨0x024, 0, 1, .rw, 0, 0xFFFFFFFF⟩,
  ⟨0x028, 0, 1, .rw, 0, 0xFFFFFFFF⟩, ⟨0x02C, 0, 1, .ro, 0, 0x8000001F⟩,
  ⟨0x030, 4, 4, .ro, 0, 0xFFFFFFFF⟩, ⟨0x040, 0, 1, .w1c, 0, 0xFFFFFFFF⟩,
  ⟨0x044, 0, 1, .rw, 0, 0xFFFFFFFF⟩, ⟨0x048, 0, 1, .rw, 0, 0x3F⟩, ⟨0x050, 0, 1, .w1s, 0, 1⟩]

/-- The block-specific registers of a page. -/
def pageRegs : PageKind → List RegDesc
  | .ident => regs_ident
  | .pwr => regs_pwr
  | .save => regs_save
  | .bwin => regs_bwin
  | .time => regs_time
  | .sec => regs_sec
  | .fuse => regs_fuse
  | .hostp => regs_hostp
  | .chain => regs_chain
  | .fault => regs_fault
  | .obs => regs_obs
  | .port => regs_port
  | .octet => regs_octet
  | .swcore => regs_swcore
  | .ttu => regs_ttu
  | .home => regs_home
  | .ext => regs_ext
  | .carv => regs_carv
  | .sheaf => regs_sheaf
  | .exd => regs_exd
  | .dom => regs_dom
  | .tile => regs_tile
  | .kvpool => regs_kvpool
  | .kvseq => regs_kvseq
  | .tier => regs_tier
  | .gran => regs_gran
  | .job => regs_job
  | .vf => regs_vf

/-- The offsets of the 64-bit counters of a page: offset, stride, count. -/
def pageCnts : PageKind → List (Nat × Nat × Nat)
  | .ident => [(0x120, 0, 1), (0x128, 0, 1)]
  | .pwr => [(0x60, 0, 1), (0x68, 0, 1)]
  | .save => [(0x140, 0, 1)]
  | .bwin => []
  | .time => []
  | .sec => [(0x160, 0, 1), (0x168, 0, 1), (0x170, 0, 1), (0x178, 0, 1), (0x180, 0, 1)]
  | .fuse => []
  | .hostp => [(0x120, 0, 1), (0x128, 0, 1), (0x130, 0, 1), (0x138, 0, 1), (0x140, 0, 1), (0x148, 0, 1), (0x150, 0, 1), (0x158, 0, 1), (0x160, 0, 1), (0x168, 0, 1)]
  | .chain => [(0x130, 0, 1), (0x138, 0, 1), (0x140, 0, 1), (0x148, 0, 1), (0x150, 0, 1), (0x158, 0, 1)]
  | .fault => [(0x200, 0, 1), (0x208, 0, 1), (0x210, 0, 1), (0x218, 0, 1), (0x220, 0, 1), (0x228, 0, 1), (0x230, 0, 1), (0x238, 0, 1)]
  | .obs => [(0x140, 0, 1), (0x148, 0, 1), (0x150, 0, 1), (0x158, 0, 1)]
  | .port => [(0x60, 0, 1), (0x68, 0, 1), (0x70, 0, 1), (0x78, 0, 1), (0x300, 0, 1), (0x308, 0, 1), (0x310, 0, 1), (0x318, 0, 1), (0x320, 0, 1), (0x328, 0, 1), (0x330, 0, 1), (0x338, 0, 1), (0x340, 0, 1), (0x348, 0, 1), (0x350, 0, 1), (0x358, 0, 1), (0x360, 0, 1), (0x368, 0, 1), (0x370, 0, 1), (0x378, 0, 1), (0x380, 0, 1), (0x388, 0, 1), (0x390, 0, 1), (0x398, 0, 1), (0x3A0, 0, 1), (0x3A8, 0, 1), (0x3B0, 0, 1), (0x800, 24, 9), (0x808, 24, 9), (0x810, 24, 9), (0x908, 0, 1)]
  | .octet => []
  | .swcore => [(0x1B0, 0, 1), (0x1B8, 0, 1), (0x1C0, 0, 1), (0x1C8, 0, 1), (0x1D0, 0, 1), (0x1D8, 0, 1), (0x1E0, 0, 1), (0x1E8, 0, 1), (0x1F0, 0, 1), (0x1F8, 0, 1)]
  | .ttu => [(0x110, 0, 1), (0x118, 0, 1), (0x120, 0, 1), (0x128, 0, 1)]
  | .home => [(0x110, 0, 1), (0x118, 0, 1), (0x120, 0, 1), (0x128, 0, 1)]
  | .ext => [(0x170, 0, 1), (0x178, 0, 1), (0x180, 0, 1), (0x188, 0, 1), (0x190, 0, 1)]
  | .carv => [(0x160, 0, 1), (0x168, 0, 1), (0x170, 0, 1), (0x178, 0, 1), (0x180, 0, 1), (0x188, 0, 1), (0x190, 0, 1), (0x198, 0, 1), (0x1A0, 0, 1), (0x1A8, 0, 1), (0x1B0, 0, 1), (0x1B8, 0, 1), (0x1C0, 0, 1), (0x1C8, 0, 1)]
  | .sheaf => [(0x140, 0, 1), (0x148, 0, 1), (0x150, 0, 1), (0x158, 0, 1), (0x160, 0, 1), (0x168, 0, 1), (0x170, 0, 1), (0x178, 0, 1), (0x180, 0, 1), (0x188, 0, 1), (0x190, 0, 1)]
  | .exd => [(0x140, 0, 1), (0x148, 0, 1), (0x150, 0, 1), (0x158, 0, 1), (0x160, 0, 1), (0x168, 0, 1), (0x170, 0, 1), (0x178, 0, 1), (0x180, 0, 1), (0x188, 0, 1), (0x190, 0, 1), (0x198, 0, 1)]
  | .dom => [(0x130, 0, 1), (0x138, 0, 1), (0x140, 0, 1), (0x148, 0, 1), (0x150, 0, 1), (0x158, 0, 1)]
  | .tile => [(0x200, 0, 1), (0x208, 0, 1), (0x210, 0, 1), (0x218, 0, 1), (0x220, 0, 1), (0x228, 0, 1), (0x230, 0, 1), (0x238, 0, 1), (0x240, 0, 1), (0x248, 0, 1), (0x250, 0, 1), (0x258, 0, 1), (0x260, 0, 1), (0x268, 0, 1), (0x310, 0, 1), (0x318, 0, 1), (0x320, 0, 1), (0x328, 0, 1), (0x330, 0, 1), (0x338, 0, 1), (0x340, 0, 1), (0x348, 0, 1)]
  | .kvpool => [(0x190, 0, 1), (0x198, 0, 1), (0x1A0, 0, 1), (0x1A8, 0, 1), (0x1B0, 0, 1), (0x1B8, 0, 1), (0x1C0, 0, 1), (0x1C8, 0, 1), (0x1D0, 0, 1), (0x1D8, 0, 1), (0x1E0, 0, 1), (0x1E8, 0, 1), (0x1F0, 0, 1)]
  | .kvseq => []
  | .tier => [(0x160, 0, 1), (0x168, 0, 1), (0x170, 0, 1), (0x178, 0, 1), (0x180, 0, 1), (0x188, 0, 1), (0x190, 0, 1), (0x198, 0, 1)]
  | .gran => [(0x160, 0, 1), (0x168, 0, 1), (0x170, 0, 1), (0x178, 0, 1), (0x180, 0, 1), (0x188, 0, 1), (0x190, 0, 1), (0x198, 0, 1), (0x1A0, 0, 1), (0x1A8, 0, 1), (0x1B0, 0, 1)]
  | .job => [(0x160, 0, 1), (0x168, 0, 1), (0x170, 0, 1), (0x1A0, 0, 1), (0x1A8, 0, 1), (0x1B0, 0, 1), (0x1B8, 0, 1), (0x1C0, 0, 1), (0x1C8, 0, 1), (0x1D0, 0, 1), (0x1D8, 0, 1)]
  | .vf => []

/-- Whether offset `o` is an element of an array of `count` at `off` with `stride`. -/
def inArr (o off stride count : Nat) : Bool :=
  if count ≤ 1 then o == off
  else decide (off ≤ o) && (o - off) % stride == 0 && decide ((o - off) / stride < count)

/-- The register at an offset of a page. -/
def regDesc (k : PageKind) (off : Nat) : Option RegDesc :=
  (headerRegs ++ pageRegs k).find? fun d => inArr off d.off d.stride d.count

/-- Whether a 64-bit counter lies at this offset (its LO dword). -/
def isCnt (k : PageKind) (off : Nat) : Bool :=
  (pageCnts k).any fun c => inArr off c.1 c.2.1 c.2.2

/-- The LO offsets of the RW pairs of a page, whose HI write commits both (R490). -/
def rwPairs : PageKind → List (Nat × Nat × Nat)
  | .ident => []
  | .pwr => []
  | .save => []
  | .bwin => [(0x100, 0, 1)]
  | .time => [(0x110, 0, 1)]
  | .sec => [(0x400, 16, 64), (0x408, 16, 64)]
  | .fuse => []
  | .hostp => []
  | .chain => []
  | .fault => [(0x130, 0, 1)]
  | .obs => [(0x100, 0, 1), (0x120, 0, 1), (0x600, 32, 64), (0x608, 32, 64)]
  | .port => [(0x410, 0, 1), (0x420, 0, 1), (0x120, 0, 1), (0x610, 0, 1), (0x618, 0, 1)]
  | .octet => []
  | .swcore => [(0x100, 0, 1)]
  | .ttu => []
  | .home => []
  | .ext => [(0x150, 0, 1)]
  | .carv => [(0x120, 0, 1), (0x130, 0, 1)]
  | .sheaf => [(0x108, 0, 1)]
  | .exd => []
  | .dom => [(0x110, 0, 1)]
  | .tile => [(0x128, 0, 1)]
  | .kvpool => [(0x118, 0, 1), (0x130, 0, 1), (0x138, 0, 1), (0x148, 0, 1), (0x158, 0, 1), (0x168, 0, 1)]
  | .kvseq => [(0x110, 0, 1)]
  | .tier => [(0x110, 0, 1), (0x118, 0, 1), (0x128, 0, 1)]
  | .gran => [(0x110, 0, 1), (0x118, 0, 1), (0x120, 0, 1)]
  | .job => [(0x110, 0, 1), (0x118, 0, 1), (0x128, 0, 1), (0x140, 0, 1), (0x188, 0, 1)]
  | .vf => [(0x120, 0, 1)]

/-- The LO offsets of the RO pairs of a page, whose LO read latches HI (R490). -/
def roPairs : PageKind → List (Nat × Nat × Nat)
  | .ident => []
  | .pwr => []
  | .save => [(0x108, 0, 1), (0x110, 0, 1)]
  | .bwin => []
  | .time => [(0x100, 0, 1), (0x130, 0, 1), (0x140, 0, 1), (0x148, 0, 1)]
  | .sec => []
  | .fuse => [(0x110, 0, 1)]
  | .hostp => []
  | .chain => [(0x110, 0, 1), (0x400, 8, 64)]
  | .fault => [(0x118, 0, 1), (0x120, 0, 1), (0x150, 0, 1), (0x240, 0, 1)]
  | .obs => [(0x208, 16, 64), (0x618, 32, 64)]
  | .port => [(0x430, 0, 1), (0x110, 0, 1)]
  | .octet => []
  | .swcore => []
  | .ttu => []
  | .home => []
  | .ext => [(0x130, 0, 1)]
  | .carv => []
  | .sheaf => []
  | .exd => []
  | .dom => []
  | .tile => []
  | .kvpool => []
  | .kvseq => []
  | .tier => []
  | .gran => []
  | .job => []
  | .vf => [(0x118, 0, 1)]

namespace Adr

/-- Header offset. -/
abbrev H_CTRL : Nat := 0x10
/-- Header offset. -/
abbrev H_ERR_STATUS : Nat := 0x20
/-- Header offset. -/
abbrev H_ERR_MASK : Nat := 0x24
/-- Header offset. -/
abbrev H_ERR_SEVERITY : Nat := 0x28
/-- Header offset. -/
abbrev H_ERR_FIRST : Nat := 0x2C
/-- Header offset. -/
abbrev H_ERR_CAPTURE : Nat := 0x30
/-- Header offset. -/
abbrev H_INT_STATUS : Nat := 0x40
/-- Header offset. -/
abbrev H_INT_ENABLE : Nat := 0x44
/-- Header offset. -/
abbrev H_INT_VECTOR : Nat := 0x48
/-- Header offset. -/
abbrev H_LOCK : Nat := 0x50
abbrev IDENT_PART : Nat := 0x100
abbrev IDENT_REFUSE_CAPTURE : Nat := 0x110
abbrev IDENT_LOCK_REFUSED : Nat := 0x120
abbrev IDENT_UNMAPPED_WRITES : Nat := 0x128
abbrev PWR_CMD : Nat := 0x2100
abbrev PWR_CMD_STATUS : Nat := 0x2104
abbrev PWR_DOM_STATE : Nat := 0x2108
abbrev PWR_STATUS : Nat := 0x210C
abbrev PWR_VHOLD : Nat := 0x2110
abbrev PWR_SAVE_CFG : Nat := 0x2114
abbrev PWR_VHOLD_WARN : Nat := 0x2118
abbrev PWR_COLD_RESETS : Nat := 0x2060
abbrev PWR_PF_EVENTS : Nat := 0x2068
abbrev SAVE_BOOT_RESULT : Nat := 0x3100
abbrev SAVE_SEQ_LO : Nat := 0x3108
abbrev SAVE_SEQ_HI : Nat := 0x310C
abbrev SAVE_ARM_SEQ_LO : Nat := 0x3110
abbrev SAVE_ARM_SEQ_HI : Nat := 0x3114
abbrev SAVE_ARM_STATE : Nat := 0x3118
abbrev SAVE_RD_ADDR : Nat := 0x3120
abbrev SAVE_RD_DATA : Nat := 0x3124
abbrev SAVE_LAST_SAVE : Nat := 0x3128
abbrev SAVE_CELLAR_CORR : Nat := 0x3140
abbrev BWIN_ADDR_LO : Nat := 0x4100
abbrev BWIN_ADDR_HI : Nat := 0x4104
abbrev BWIN_CMD : Nat := 0x4108
abbrev BWIN_STATUS : Nat := 0x410C
abbrev BWIN_DATA (i : Nat) : Nat := 0x4200 + 4 * i
abbrev TIME_NOW_LO : Nat := 0x5100
abbrev TIME_NOW_HI : Nat := 0x5104
abbrev TIME_NOW_FRAC : Nat := 0x5108
abbrev TIME_SET_LO : Nat := 0x5110
abbrev TIME_SET_HI : Nat := 0x5114
abbrev TIME_INCR : Nat := 0x5118
abbrev TIME_CTRL : Nat := 0x511C
abbrev TIME_GM_CFG : Nat := 0x5120
abbrev TIME_SRC_CFG : Nat := 0x5124
abbrev TIME_BEACON_CFG : Nat := 0x5128
abbrev TIME_STEP_LIMIT : Nat := 0x512C
abbrev TIME_GM_SERIAL_LO : Nat := 0x5130
abbrev TIME_GM_SERIAL_HI : Nat := 0x5134
abbrev TIME_SYNC_STATUS : Nat := 0x5138
abbrev TIME_OFFSET : Nat := 0x513C
abbrev TIME_LAST_STEP_LO : Nat := 0x5140
abbrev TIME_LAST_STEP_HI : Nat := 0x5144
abbrev TIME_PPS_CAPT_LO : Nat := 0x5148
abbrev TIME_PPS_CAPT_HI : Nat := 0x514C
abbrev SEC_CMD : Nat := 0x7100
abbrev SEC_STATUS : Nat := 0x7104
abbrev SEC_IMAGE_SVN : Nat := 0x7108
abbrev SEC_SCRUB_PROGRESS : Nat := 0x710C
abbrev SEC_IMAGE_DIGEST (i : Nat) : Nat := 0x7110 + 4 * i
abbrev SEC_DBG_NONCE (i : Nat) : Nat := 0x7140 + 4 * i
abbrev SEC_GROUPS_LOADED : Nat := 0x7150
abbrev SEC_BINDINGS : Nat := 0x7154
abbrev SEC_DIAG_CTRL : Nat := 0x7158
abbrev SEC_DBG_TOKEN (i : Nat) : Nat := 0x7200 + 4 * i
abbrev SEC_BB_BASE_LO (i : Nat) : Nat := 0x7400 + 16 * i
abbrev SEC_BB_BASE_HI (i : Nat) : Nat := 0x7404 + 16 * i
abbrev SEC_BB_LIMIT_LO (i : Nat) : Nat := 0x7408 + 16 * i
abbrev SEC_BB_LIMIT_HI (i : Nat) : Nat := 0x740C + 16 * i
abbrev SEC_BARN_WIN_REFUSED : Nat := 0x7160
abbrev SEC_HOST_SEALED_REFUSED : Nat := 0x7168
abbrev SEC_LINK_KEY_MISS : Nat := 0x7170
abbrev SEC_TOKENS_REFUSED : Nat := 0x7178
abbrev SEC_RWS_REFUSED : Nat := 0x7180
abbrev FUSE_MODE_CHANGES : Nat := 0x8100
abbrev FUSE_DBG_EPOCH : Nat := 0x8104
abbrev FUSE_ARB : Nat := 0x8108
abbrev FUSE_SERIAL_LO : Nat := 0x8110
abbrev FUSE_SERIAL_HI : Nat := 0x8114
abbrev FUSE_OWNER_PK_HASH (i : Nat) : Nat := 0x8120 + 4 * i
abbrev FUSE_PROVISION : Nat := 0x8150
abbrev FUSE_FUSE_STATUS : Nat := 0x8154
abbrev HOSTP_HOST_EID : Nat := 0x9100
abbrev HOSTP_TAG_LIMIT : Nat := 0x9104
abbrev HOSTP_TAG_FREE : Nat := 0x9108
abbrev HOSTP_TAG_QUAR : Nat := 0x910C
abbrev HOSTP_HOST_READS : Nat := 0x9120
abbrev HOSTP_HOST_WRITES : Nat := 0x9128
abbrev HOSTP_HOST_ATOMICS : Nat := 0x9130
abbrev HOSTP_LATE_CPL : Nat := 0x9138
abbrev HOSTP_UNEXP_CPL : Nat := 0x9140
abbrev HOSTP_CPL_TIMEOUTS : Nat := 0x9148
abbrev HOSTP_ACCESS_OFF : Nat := 0x9150
abbrev HOSTP_HOST_UR : Nat := 0x9158
abbrev HOSTP_MMIO_BAD : Nat := 0x9160
abbrev HOSTP_MSI_SENT : Nat := 0x9168
abbrev CHAIN_CTRL : Nat := 0xB100
abbrev CHAIN_CMD : Nat := 0xB104
abbrev CHAIN_CFG : Nat := 0xB108
abbrev CHAIN_STATUS : Nat := 0xB10C
abbrev CHAIN_LEAD_SERIAL_LO : Nat := 0xB110
abbrev CHAIN_LEAD_SERIAL_HI : Nat := 0xB114
abbrev CHAIN_BEACON_INTERVAL : Nat := 0xB118
abbrev CHAIN_RSP_TIMEOUT : Nat := 0xB11C
abbrev CHAIN_HOST_LOSS : Nat := 0xB120
abbrev CHAIN_BREAK_CAPTURE : Nat := 0xB124
abbrev CHAIN_POS_SERIAL_LO (i : Nat) : Nat := 0xB400 + 8 * i
abbrev CHAIN_POS_SERIAL_HI (i : Nat) : Nat := 0xB404 + 8 * i
abbrev CHAIN_FRAMES_FWD : Nat := 0xB130
abbrev CHAIN_CHAIN_CRC : Nat := 0xB138
abbrev CHAIN_CHAIN_TIMEOUTS : Nat := 0xB140
abbrev CHAIN_CHAIN_NOPOS : Nat := 0xB148
abbrev CHAIN_ENUMERATIONS : Nat := 0xB150
abbrev CHAIN_COLLISIONS : Nat := 0xB158
abbrev FAULT_CFG : Nat := 0xC100
abbrev FAULT_STATUS : Nat := 0xC104
abbrev FAULT_DEVFATAL_CAPTURE0 : Nat := 0xC108
abbrev FAULT_DEVFATAL_CAPTURE1 : Nat := 0xC10C
abbrev FAULT_FENCE_CMD : Nat := 0xC110
abbrev FAULT_FENCE_STATUS : Nat := 0xC114
abbrev FAULT_FENCED_LOGICAL_LO : Nat := 0xC118
abbrev FAULT_FENCED_LOGICAL_HI : Nat := 0xC11C
abbrev FAULT_FENCED_ELEC_LO : Nat := 0xC120
abbrev FAULT_FENCED_ELEC_HI : Nat := 0xC124
abbrev FAULT_FM_EID : Nat := 0xC128
abbrev FAULT_EV_PKT_LIMIT : Nat := 0xC12C
abbrev FAULT_EVQ_BASE_LO : Nat := 0xC130
abbrev FAULT_EVQ_BASE_HI : Nat := 0xC134
abbrev FAULT_EVQ_CFG : Nat := 0xC138
abbrev FAULT_EVQ_PROD : Nat := 0xC13C
abbrev FAULT_EVQ_CONS : Nat := 0xC140
abbrev FAULT_AUDIT_CFG : Nat := 0xC148
abbrev FAULT_AUDIT_MASK : Nat := 0xC14C
abbrev FAULT_AUDIT_EPOCH_LO : Nat := 0xC150
abbrev FAULT_AUDIT_EPOCH_HI : Nat := 0xC154
abbrev FAULT_AUDIT_STATUS : Nat := 0xC158
abbrev FAULT_JOB_FATAL (i : Nat) : Nat := 0xC160 + 4 * i
abbrev FAULT_LOG_SEQ_LO : Nat := 0xC240
abbrev FAULT_LOG_SEQ_HI : Nat := 0xC244
abbrev FAULT_EVENTS : Nat := 0xC200
abbrev FAULT_EVQ_DROP : Nat := 0xC208
abbrev FAULT_EV_PKT_DROP : Nat := 0xC210
abbrev FAULT_AUDITS : Nat := 0xC218
abbrev FAULT_AUDIT_SKIPPED : Nat := 0xC220
abbrev FAULT_AUDIT_MISMATCHES : Nat := 0xC228
abbrev FAULT_MGMT_BAD : Nat := 0xC230
abbrev FAULT_LOG_OVERWRITTEN : Nat := 0xC238
abbrev OBS_TRACE_BASE_LO : Nat := 0xD100
abbrev OBS_TRACE_BASE_HI : Nat := 0xD104
abbrev OBS_TRACE_CFG : Nat := 0xD108
abbrev OBS_TRACE_CTRL : Nat := 0xD10C
abbrev OBS_TRACE_PROD : Nat := 0xD110
abbrev OBS_TRACE_CONS : Nat := 0xD114
abbrev OBS_TRACE_STATUS : Nat := 0xD118
abbrev OBS_PKT_TRACE_CFG : Nat := 0xD11C
abbrev OBS_SAMPLE_BASE_LO : Nat := 0xD120
abbrev OBS_SAMPLE_BASE_HI : Nat := 0xD124
abbrev OBS_SAMPLE_RING_CFG : Nat := 0xD128
abbrev OBS_SAMPLE_PROD : Nat := 0xD12C
abbrev OBS_SAMPLE_CONS : Nat := 0xD130
abbrev OBS_WATCH_CAPTURE : Nat := 0xD134
abbrev OBS_GCTR_SEL (i : Nat) : Nat := 0xD200 + 16 * i
abbrev OBS_GCTR_FJID (i : Nat) : Nat := 0xD204 + 16 * i
abbrev OBS_GCTR_VALUE_LO (i : Nat) : Nat := 0xD208 + 16 * i
abbrev OBS_GCTR_VALUE_HI (i : Nat) : Nat := 0xD20C + 16 * i
abbrev OBS_WP_BASE_LO (i : Nat) : Nat := 0xD600 + 32 * i
abbrev OBS_WP_BASE_HI (i : Nat) : Nat := 0xD604 + 32 * i
abbrev OBS_WP_LIMIT_LO (i : Nat) : Nat := 0xD608 + 32 * i
abbrev OBS_WP_LIMIT_HI (i : Nat) : Nat := 0xD60C + 32 * i
abbrev OBS_WP_CTRL (i : Nat) : Nat := 0xD610 + 32 * i
abbrev OBS_WP_COUNT_LO (i : Nat) : Nat := 0xD618 + 32 * i
abbrev OBS_WP_COUNT_HI (i : Nat) : Nat := 0xD61C + 32 * i
abbrev OBS_TRACE_RECORDS : Nat := 0xD140
abbrev OBS_TRACE_DROP : Nat := 0xD148
abbrev OBS_SAMPLE_RECORDS : Nat := 0xD150
abbrev OBS_WATCH_HITS : Nat := 0xD158
abbrev PORT_TT_CTRL (n : Nat) : Nat := 0x100000 + 0x1000 * n + 0x400
abbrev PORT_TT_STATUS (n : Nat) : Nat := 0x100000 + 0x1000 * n + 0x404
abbrev PORT_TT_CYCLE (n : Nat) : Nat := 0x100000 + 0x1000 * n + 0x408
abbrev PORT_TT_BASE_LO (n : Nat) : Nat := 0x100000 + 0x1000 * n + 0x410
abbrev PORT_TT_BASE_HI (n : Nat) : Nat := 0x100000 + 0x1000 * n + 0x414
abbrev PORT_TT_ADDR (n : Nat) : Nat := 0x100000 + 0x1000 * n + 0x418
abbrev PORT_TT_DATA_LO (n : Nat) : Nat := 0x100000 + 0x1000 * n + 0x420
abbrev PORT_TT_DATA_HI (n : Nat) : Nat := 0x100000 + 0x1000 * n + 0x424
abbrev PORT_TT_LEN (n : Nat) : Nat := 0x100000 + 0x1000 * n + 0x428
abbrev PORT_TT_SWITCH_LO (n : Nat) : Nat := 0x100000 + 0x1000 * n + 0x430
abbrev PORT_TT_SWITCH_HI (n : Nat) : Nat := 0x100000 + 0x1000 * n + 0x434
abbrev PORT_TT_OVERRUN (n : Nat) : Nat := 0x100000 + 0x1000 * n + 0x438
abbrev PORT_PORT_CTRL (n : Nat) : Nat := 0x100000 + 0x1000 * n + 0x100
abbrev PORT_PORT_STATUS (n : Nat) : Nat := 0x100000 + 0x1000 * n + 0x104
abbrev PORT_PARTNER_SERIAL_LO (n : Nat) : Nat := 0x100000 + 0x1000 * n + 0x110
abbrev PORT_PARTNER_SERIAL_HI (n : Nat) : Nat := 0x100000 + 0x1000 * n + 0x114
abbrev PORT_PARTNER_PORT (n : Nat) : Nat := 0x100000 + 0x1000 * n + 0x118
abbrev PORT_TC_MAP_LO (n : Nat) : Nat := 0x100000 + 0x1000 * n + 0x120
abbrev PORT_TC_MAP_HI (n : Nat) : Nat := 0x100000 + 0x1000 * n + 0x124
abbrev PORT_PCP_MAP (n : Nat) : Nat := 0x100000 + 0x1000 * n + 0x128
abbrev PORT_CREDIT_LIMIT (n : Nat) : Nat := 0x100000 + 0x1000 * n + 0x200
abbrev PORT_CREDIT_RSV (n : Nat) (i : Nat) : Nat := 0x100000 + 0x1000 * n + 0x204 + 4 * i
abbrev PORT_CREDIT_RSV5 (n : Nat) : Nat := 0x100000 + 0x1000 * n + 0x218
abbrev PORT_CREDIT_TX_SHARED (n : Nat) : Nat := 0x100000 + 0x1000 * n + 0x220
abbrev PORT_ETH_MTU (n : Nat) : Nat := 0x100000 + 0x1000 * n + 0x500
abbrev PORT_ETH_CFG (n : Nat) : Nat := 0x100000 + 0x1000 * n + 0x504
abbrev PORT_PFC_TH (n : Nat) (i : Nat) : Nat := 0x100000 + 0x1000 * n + 0x510 + 4 * i
abbrev PORT_PFC_HEADROOM (n : Nat) (i : Nat) : Nat := 0x100000 + 0x1000 * n + 0x530 + 4 * i
abbrev PORT_PFC_QUANTA (n : Nat) : Nat := 0x100000 + 0x1000 * n + 0x550
abbrev PORT_PFC_WD (n : Nat) : Nat := 0x100000 + 0x1000 * n + 0x554
abbrev PORT_PFC_STATUS (n : Nat) : Nat := 0x100000 + 0x1000 * n + 0x558
abbrev PORT_CXL_STATUS (n : Nat) : Nat := 0x100000 + 0x1000 * n + 0x600
abbrev PORT_CXL_CFG_ADDR (n : Nat) : Nat := 0x100000 + 0x1000 * n + 0x604
abbrev PORT_CXL_CFG_DATA (n : Nat) : Nat := 0x100000 + 0x1000 * n + 0x608
abbrev PORT_CXL_CFG_STATUS (n : Nat) : Nat := 0x100000 + 0x1000 * n + 0x60C
abbrev PORT_CXL_MADDR_LO (n : Nat) : Nat := 0x100000 + 0x1000 * n + 0x610
abbrev PORT_CXL_MADDR_HI (n : Nat) : Nat := 0x100000 + 0x1000 * n + 0x614
abbrev PORT_CXL_MSI_ADDR_LO (n : Nat) : Nat := 0x100000 + 0x1000 * n + 0x618
abbrev PORT_CXL_MSI_ADDR_HI (n : Nat) : Nat := 0x100000 + 0x1000 * n + 0x61C
abbrev PORT_CXL_MSI_DATA (n : Nat) : Nat := 0x100000 + 0x1000 * n + 0x620
abbrev PORT_HDM_BASE (n : Nat) (i : Nat) : Nat := 0x100000 + 0x1000 * n + 0x640 + 32 * i
abbrev PORT_HDM_SIZE (n : Nat) (i : Nat) : Nat := 0x100000 + 0x1000 * n + 0x644 + 32 * i
abbrev PORT_HDM_CTRL (n : Nat) (i : Nat) : Nat := 0x100000 + 0x1000 * n + 0x648 + 32 * i
abbrev PORT_QOS_CFG (n : Nat) : Nat := 0x100000 + 0x1000 * n + 0x700
abbrev PORT_STARVE_CFG (n : Nat) : Nat := 0x100000 + 0x1000 * n + 0x704
abbrev PORT_ETH_PVID (n : Nat) : Nat := 0x100000 + 0x1000 * n + 0x708
abbrev PORT_DWRR_WEIGHT (n : Nat) (i : Nat) : Nat := 0x100000 + 0x1000 * n + 0x710 + 4 * i
abbrev PORT_SHAPER_CFG (n : Nat) (i : Nat) : Nat := 0x100000 + 0x1000 * n + 0x740 + 16 * i
abbrev PORT_SHAPER_TOKENS (n : Nat) (i : Nat) : Nat := 0x100000 + 0x1000 * n + 0x744 + 16 * i
abbrev PORT_SHAPER_CTRL (n : Nat) (i : Nat) : Nat := 0x100000 + 0x1000 * n + 0x748 + 16 * i
abbrev PORT_DEPTH (n : Nat) (i : Nat) : Nat := 0x100000 + 0x1000 * n + 0x8E0 + 4 * i
abbrev PORT_EDGE_EID (n : Nat) : Nat := 0x100000 + 0x1000 * n + 0x70C
abbrev PORT_TARGET_STATE (n : Nat) : Nat := 0x100000 + 0x1000 * n + 0x730
abbrev PORT_FENCE (n : Nat) : Nat := 0x100000 + 0x1000 * n + 0x900
abbrev PORT_RX_BYTES (n : Nat) : Nat := 0x100000 + 0x1000 * n + 0x60
abbrev PORT_TX_BYTES (n : Nat) : Nat := 0x100000 + 0x1000 * n + 0x68
abbrev PORT_RX_PKTS (n : Nat) : Nat := 0x100000 + 0x1000 * n + 0x70
abbrev PORT_TX_PKTS (n : Nat) : Nat := 0x100000 + 0x1000 * n + 0x78
abbrev PORT_RX_FLITS (n : Nat) : Nat := 0x100000 + 0x1000 * n + 0x300
abbrev PORT_RX_GIANT (n : Nat) : Nat := 0x100000 + 0x1000 * n + 0x360
abbrev PORT_TX_FLITS (n : Nat) : Nat := 0x100000 + 0x1000 * n + 0x308
abbrev PORT_RX_FCS_ERR (n : Nat) : Nat := 0x100000 + 0x1000 * n + 0x368
abbrev PORT_CRC_ERR (n : Nat) : Nat := 0x100000 + 0x1000 * n + 0x310
abbrev PORT_TX_STOMP (n : Nat) : Nat := 0x100000 + 0x1000 * n + 0x370
abbrev PORT_FEC_CORR (n : Nat) : Nat := 0x100000 + 0x1000 * n + 0x318
abbrev PORT_PFC_RX (n : Nat) : Nat := 0x100000 + 0x1000 * n + 0x378
abbrev PORT_FEC_UNCORR (n : Nat) : Nat := 0x100000 + 0x1000 * n + 0x320
abbrev PORT_PFC_TX (n : Nat) : Nat := 0x100000 + 0x1000 * n + 0x380
abbrev PORT_NAK_RX (n : Nat) : Nat := 0x100000 + 0x1000 * n + 0x328
abbrev PORT_PAUSE_DROP (n : Nat) : Nat := 0x100000 + 0x1000 * n + 0x388
abbrev PORT_RETRAINS (n : Nat) : Nat := 0x100000 + 0x1000 * n + 0x330
abbrev PORT_PFC_WD_FIRE (n : Nat) : Nat := 0x100000 + 0x1000 * n + 0x390
abbrev PORT_LINK_DOWNS (n : Nat) : Nat := 0x100000 + 0x1000 * n + 0x338
abbrev PORT_PFC_WD_DROP (n : Nat) : Nat := 0x100000 + 0x1000 * n + 0x398
abbrev PORT_PKT_MALFORMED (n : Nat) : Nat := 0x100000 + 0x1000 * n + 0x340
abbrev PORT_CXL_POISON_RX (n : Nat) : Nat := 0x100000 + 0x1000 * n + 0x3A0
abbrev PORT_CREDIT_STALL (n : Nat) : Nat := 0x100000 + 0x1000 * n + 0x348
abbrev PORT_HOP_EXCEEDED (n : Nat) : Nat := 0x100000 + 0x1000 * n + 0x3A8
abbrev PORT_RX_FRAMES (n : Nat) : Nat := 0x100000 + 0x1000 * n + 0x350
abbrev PORT_HEADROOM_DROP (n : Nat) : Nat := 0x100000 + 0x1000 * n + 0x3B0
abbrev PORT_RX_RUNT (n : Nat) : Nat := 0x100000 + 0x1000 * n + 0x358
abbrev PORT_SHAPER_EARNED (n : Nat) (i : Nat) : Nat := 0x100000 + 0x1000 * n + 0x800 + 24 * i
abbrev PORT_SHAPER_SPENT (n : Nat) (i : Nat) : Nat := 0x100000 + 0x1000 * n + 0x808 + 24 * i
abbrev PORT_SHAPER_CLIPPED (n : Nat) (i : Nat) : Nat := 0x100000 + 0x1000 * n + 0x810 + 24 * i
abbrev PORT_FENCE_DROP (n : Nat) : Nat := 0x100000 + 0x1000 * n + 0x908
abbrev OCTET_MODE (n : Nat) : Nat := 0x300000 + 0x1000 * n + 0x100
abbrev OCTET_LAYOUT (n : Nat) : Nat := 0x300000 + 0x1000 * n + 0x104
abbrev OCTET_CTRL (n : Nat) : Nat := 0x300000 + 0x1000 * n + 0x108
abbrev OCTET_OCT_STATUS (n : Nat) : Nat := 0x300000 + 0x1000 * n + 0x10C
abbrev OCTET_LL_BER_TH (n : Nat) : Nat := 0x300000 + 0x1000 * n + 0x110
abbrev OCTET_LANE_STATUS (n : Nat) : Nat := 0x300000 + 0x1000 * n + 0x114
abbrev SWCORE_HASH_SEED_LO (n : Nat) : Nat := 0x400000 + 0x1000 * n + 0x100
abbrev SWCORE_HASH_SEED_HI (n : Nat) : Nat := 0x400000 + 0x1000 * n + 0x104
abbrev SWCORE_FLOWLET_GAP (n : Nat) : Nat := 0x400000 + 0x1000 * n + 0x108
abbrev SWCORE_SPRAY_MASK (n : Nat) : Nat := 0x400000 + 0x1000 * n + 0x10C
abbrev SWCORE_OCT_BUDGET (n : Nat) (i : Nat) : Nat := 0x400000 + 0x1000 * n + 0x110 + 4 * i
abbrev SWCORE_ENGINE_CELLS (n : Nat) : Nat := 0x400000 + 0x1000 * n + 0x190
abbrev SWCORE_BUF_FREE (n : Nat) : Nat := 0x400000 + 0x1000 * n + 0x194
abbrev SWCORE_ENGINE_USED (n : Nat) : Nat := 0x400000 + 0x1000 * n + 0x198
abbrev SWCORE_UNALLOCATED (n : Nat) : Nat := 0x400000 + 0x1000 * n + 0x19C
abbrev SWCORE_SAMPLE_CFG (n : Nat) : Nat := 0x400000 + 0x1000 * n + 0x1A0
abbrev SWCORE_FWD_MISS (n : Nat) : Nat := 0x400000 + 0x1000 * n + 0x1B0
abbrev SWCORE_FWD_ENTRY_BAD (n : Nat) : Nat := 0x400000 + 0x1000 * n + 0x1B8
abbrev SWCORE_FWD_NO_PATH (n : Nat) : Nat := 0x400000 + 0x1000 * n + 0x1C0
abbrev SWCORE_SET_BAD (n : Nat) : Nat := 0x400000 + 0x1000 * n + 0x1C8
abbrev SWCORE_SET_CLASS (n : Nat) : Nat := 0x400000 + 0x1000 * n + 0x1D0
abbrev SWCORE_ETH_MISS (n : Nat) : Nat := 0x400000 + 0x1000 * n + 0x1D8
abbrev SWCORE_FLOWLET_MOVES (n : Nat) : Nat := 0x400000 + 0x1000 * n + 0x1E0
abbrev SWCORE_STARVE_PROMOTE (n : Nat) : Nat := 0x400000 + 0x1000 * n + 0x1E8
abbrev SWCORE_SAMPLE_DROP (n : Nat) : Nat := 0x400000 + 0x1000 * n + 0x1F0
abbrev SWCORE_SHAPER_RESETS (n : Nat) : Nat := 0x400000 + 0x1000 * n + 0x1F8
abbrev TTU_TIMEOUT (n : Nat) : Nat := 0x402000 + 0x1000 * n + 0x100
abbrev TTU_TAG_FREE (n : Nat) : Nat := 0x402000 + 0x1000 * n + 0x104
abbrev TTU_TAG_QUAR (n : Nat) : Nat := 0x402000 + 0x1000 * n + 0x108
abbrev TTU_STALE_RSP (n : Nat) : Nat := 0x402000 + 0x1000 * n + 0x110
abbrev TTU_POISON_SEEN (n : Nat) : Nat := 0x402000 + 0x1000 * n + 0x118
abbrev TTU_NO_ROUTE_SENT (n : Nat) : Nat := 0x402000 + 0x1000 * n + 0x120
abbrev TTU_EDGE_SPOOF (n : Nat) : Nat := 0x402000 + 0x1000 * n + 0x128
abbrev HOME_TRK_FREE (n : Nat) : Nat := 0x404000 + 0x1000 * n + 0x100
abbrev HOME_RECALL_FREE (n : Nat) : Nat := 0x404000 + 0x1000 * n + 0x104
abbrev HOME_DIR_HITS (n : Nat) : Nat := 0x404000 + 0x1000 * n + 0x110
abbrev HOME_DIR_MISSES (n : Nat) : Nat := 0x404000 + 0x1000 * n + 0x118
abbrev HOME_COH_PROTO (n : Nat) : Nat := 0x404000 + 0x1000 * n + 0x120
abbrev HOME_LATE_DROPS (n : Nat) : Nat := 0x404000 + 0x1000 * n + 0x128
abbrev EXT_CMD : Nat := 0x406100
abbrev EXT_CMD_STATUS : Nat := 0x406104
abbrev EXT_ARG (i : Nat) : Nat := 0x406110 + 4 * i
abbrev EXT_OUT_LO : Nat := 0x406130
abbrev EXT_OUT_HI : Nat := 0x406134
abbrev EXT_DRAIN : Nat := 0x406140
abbrev EXT_DRAIN_INFL : Nat := 0x406144
abbrev EXT_EXT_USED : Nat := 0x406148
abbrev EXT_LEASE_USED : Nat := 0x40614C
abbrev EXT_LEASE_SEED_LO : Nat := 0x406150
abbrev EXT_LEASE_SEED_HI : Nat := 0x406154
abbrev EXT_MAX_LEASE : Nat := 0x406158
abbrev EXT_SWEEP_INTERVAL : Nat := 0x40615C
abbrev EXT_EVT_CAPTURE0 : Nat := 0x406160
abbrev EXT_EVT_CAPTURE1 : Nat := 0x406164
abbrev EXT_FENCES : Nat := 0x406170
abbrev EXT_LEASE_EXPIRIES : Nat := 0x406178
abbrev EXT_COW_COPIES : Nat := 0x406180
abbrev EXT_SWEEPS : Nat := 0x406188
abbrev EXT_CMD_IGNORED : Nat := 0x406190
abbrev CARV_CTRL (n : Nat) : Nat := 0x408000 + 0x1000 * n + 0x100
abbrev CARV_LOCAL_EID (n : Nat) : Nat := 0x408000 + 0x1000 * n + 0x104
abbrev CARV_UDP_PORT (n : Nat) : Nat := 0x408000 + 0x1000 * n + 0x108
abbrev CARV_IPV4_ADDR (n : Nat) : Nat := 0x408000 + 0x1000 * n + 0x10C
abbrev CARV_IPV6_ADDR (n : Nat) (i : Nat) : Nat := 0x408000 + 0x1000 * n + 0x110 + 4 * i
abbrev CARV_MAC_LO (n : Nat) : Nat := 0x408000 + 0x1000 * n + 0x120
abbrev CARV_MAC_HI (n : Nat) : Nat := 0x408000 + 0x1000 * n + 0x124
abbrev CARV_MAX_FRAME (n : Nat) : Nat := 0x408000 + 0x1000 * n + 0x128
abbrev CARV_ACK_CFG (n : Nat) : Nat := 0x408000 + 0x1000 * n + 0x12C
abbrev CARV_SO_BASE_LO (n : Nat) : Nat := 0x408000 + 0x1000 * n + 0x130
abbrev CARV_SO_BASE_HI (n : Nat) : Nat := 0x408000 + 0x1000 * n + 0x134
abbrev CARV_CMD (n : Nat) : Nat := 0x408000 + 0x1000 * n + 0x138
abbrev CARV_CMD_ARG (n : Nat) : Nat := 0x408000 + 0x1000 * n + 0x13C
abbrev CARV_CMD_STATUS (n : Nat) : Nat := 0x408000 + 0x1000 * n + 0x140
abbrev CARV_VIOL_CAPTURE (n : Nat) (i : Nat) : Nat := 0x408000 + 0x1000 * n + 0x150 + 4 * i
abbrev CARV_RETRANSMITS (n : Nat) : Nat := 0x408000 + 0x1000 * n + 0x160
abbrev CARV_TIMEOUTS (n : Nat) : Nat := 0x408000 + 0x1000 * n + 0x168
abbrev CARV_OOO_DROP (n : Nat) : Nat := 0x408000 + 0x1000 * n + 0x170
abbrev CARV_DUP_DROP (n : Nat) : Nat := 0x408000 + 0x1000 * n + 0x178
abbrev CARV_WINDOW_DROP (n : Nat) : Nat := 0x408000 + 0x1000 * n + 0x180
abbrev CARV_STALE_INC (n : Nat) : Nat := 0x408000 + 0x1000 * n + 0x188
abbrev CARV_PKT_BAD (n : Nat) : Nat := 0x408000 + 0x1000 * n + 0x190
abbrev CARV_ETH_BAD (n : Nat) : Nat := 0x408000 + 0x1000 * n + 0x198
abbrev CARV_POST_REJECT (n : Nat) : Nat := 0x408000 + 0x1000 * n + 0x1A0
abbrev CARV_LATE_DROPS (n : Nat) : Nat := 0x408000 + 0x1000 * n + 0x1A8
abbrev CARV_SO_FIRED (n : Nat) : Nat := 0x408000 + 0x1000 * n + 0x1B0
abbrev CARV_SO_FAILED (n : Nat) : Nat := 0x408000 + 0x1000 * n + 0x1B8
abbrev CARV_SO_CANCELLED (n : Nat) : Nat := 0x408000 + 0x1000 * n + 0x1C0
abbrev CARV_VIOLATIONS (n : Nat) : Nat := 0x408000 + 0x1000 * n + 0x1C8
abbrev SHEAF_CMD (n : Nat) : Nat := 0x40A000 + 0x1000 * n + 0x100
abbrev SHEAF_CMD_STATUS (n : Nat) : Nat := 0x40A000 + 0x1000 * n + 0x104
abbrev SHEAF_ARG_OP_LO (n : Nat) : Nat := 0x40A000 + 0x1000 * n + 0x108
abbrev SHEAF_ARG_OP_HI (n : Nat) : Nat := 0x40A000 + 0x1000 * n + 0x10C
abbrev SHEAF_USED (n : Nat) : Nat := 0x40A000 + 0x1000 * n + 0x110
abbrev SHEAF_CTR_EVENT (n : Nat) : Nat := 0x40A000 + 0x1000 * n + 0x114
abbrev SHEAF_ABORT_CAPTURE0 (n : Nat) : Nat := 0x40A000 + 0x1000 * n + 0x118
abbrev SHEAF_ABORT_CAPTURE1 (n : Nat) : Nat := 0x40A000 + 0x1000 * n + 0x11C
abbrev SHEAF_OPS_DONE (n : Nat) : Nat := 0x40A000 + 0x1000 * n + 0x140
abbrev SHEAF_ABORTS (n : Nat) : Nat := 0x40A000 + 0x1000 * n + 0x148
abbrev SHEAF_UP_PKTS (n : Nat) : Nat := 0x40A000 + 0x1000 * n + 0x150
abbrev SHEAF_DOWN_PKTS (n : Nat) : Nat := 0x40A000 + 0x1000 * n + 0x158
abbrev SHEAF_BYTES_RAW (n : Nat) : Nat := 0x40A000 + 0x1000 * n + 0x160
abbrev SHEAF_BYTES_WIRE (n : Nat) : Nat := 0x40A000 + 0x1000 * n + 0x168
abbrev SHEAF_MISSED_WINDOWS (n : Nat) : Nat := 0x40A000 + 0x1000 * n + 0x170
abbrev SHEAF_SHEAF_DROP (n : Nat) : Nat := 0x40A000 + 0x1000 * n + 0x178
abbrev SHEAF_SRC_BAD (n : Nat) : Nat := 0x40A000 + 0x1000 * n + 0x180
abbrev SHEAF_CTR_EVENT_DROP (n : Nat) : Nat := 0x40A000 + 0x1000 * n + 0x188
abbrev SHEAF_CTR_REFUSED (n : Nat) : Nat := 0x40A000 + 0x1000 * n + 0x190
abbrev EXD_CMD : Nat := 0x40C100
abbrev EXD_CMD_STATUS : Nat := 0x40C104
abbrev EXD_CMD_ARG : Nat := 0x40C108
abbrev EXD_LAYERS_USED : Nat := 0x40C10C
abbrev EXD_CMB_FREE0 : Nat := 0x40C110
abbrev EXD_CMB_FREE1 : Nat := 0x40C114
abbrev EXD_CMB_CAPTURE0 : Nat := 0x40C118
abbrev EXD_CMB_CAPTURE1 : Nat := 0x40C11C
abbrev EXD_TOKENS : Nat := 0x40C140
abbrev EXD_TOKENS_REFUSED : Nat := 0x40C148
abbrev EXD_COPIES : Nat := 0x40C150
abbrev EXD_COPY_FAIL : Nat := 0x40C158
abbrev EXD_OVERFLOW_DROP : Nat := 0x40C160
abbrev EXD_SPILLS : Nat := 0x40C168
abbrev EXD_COMBINES : Nat := 0x40C170
abbrev EXD_CMB_PARTIAL : Nat := 0x40C178
abbrev EXD_CMB_TIMEOUTS : Nat := 0x40C180
abbrev EXD_CMB_STALE : Nat := 0x40C188
abbrev EXD_RESULT_FAIL : Nat := 0x40C190
abbrev EXD_MAP_MISSES : Nat := 0x40C198
abbrev DOM_CTRL (n : Nat) : Nat := 0x410000 + 0x1000 * n + 0x100
abbrev DOM_STATUS (n : Nat) : Nat := 0x410000 + 0x1000 * n + 0x104
abbrev DOM_FJID (n : Nat) : Nat := 0x410000 + 0x1000 * n + 0x108
abbrev DOM_DIR_CFG (n : Nat) : Nat := 0x410000 + 0x1000 * n + 0x10C
abbrev DOM_DIR_BASE_LO (n : Nat) : Nat := 0x410000 + 0x1000 * n + 0x110
abbrev DOM_DIR_BASE_HI (n : Nat) : Nat := 0x410000 + 0x1000 * n + 0x114
abbrev DOM_PRED_CFG (n : Nat) : Nat := 0x410000 + 0x1000 * n + 0x118
abbrev DOM_TRK_LIMIT (n : Nat) : Nat := 0x410000 + 0x1000 * n + 0x11C
abbrev DOM_SNOOP_TIMEOUT (n : Nat) : Nat := 0x410000 + 0x1000 * n + 0x120
abbrev DOM_TRK_USED (n : Nat) : Nat := 0x410000 + 0x1000 * n + 0x124
abbrev DOM_DOWN_CAUSE (n : Nat) : Nat := 0x410000 + 0x1000 * n + 0x128
abbrev DOM_ENTRIES (n : Nat) : Nat := 0x410000 + 0x1000 * n + 0x12C
abbrev DOM_CREQS (n : Nat) : Nat := 0x410000 + 0x1000 * n + 0x130
abbrev DOM_SNOOPS (n : Nat) : Nat := 0x410000 + 0x1000 * n + 0x138
abbrev DOM_RECALLS (n : Nat) : Nat := 0x410000 + 0x1000 * n + 0x140
abbrev DOM_FAR_ATOMICS (n : Nat) : Nat := 0x410000 + 0x1000 * n + 0x148
abbrev DOM_NEAR_ATOMICS (n : Nat) : Nat := 0x410000 + 0x1000 * n + 0x150
abbrev DOM_LINES_POISONED (n : Nat) : Nat := 0x410000 + 0x1000 * n + 0x158
abbrev TILE_CTRL (n : Nat) : Nat := 0x500000 + 0x1000 * n + 0x100
abbrev TILE_STATUS (n : Nat) : Nat := 0x500000 + 0x1000 * n + 0x104
abbrev TILE_HL_CMD (n : Nat) : Nat := 0x500000 + 0x1000 * n + 0x108
abbrev TILE_HL_ARG (n : Nat) : Nat := 0x500000 + 0x1000 * n + 0x10C
abbrev TILE_HL_STATUS (n : Nat) : Nat := 0x500000 + 0x1000 * n + 0x110
abbrev TILE_HL_FREE (n : Nat) : Nat := 0x500000 + 0x1000 * n + 0x114
abbrev TILE_DQ_USED (n : Nat) : Nat := 0x500000 + 0x1000 * n + 0x118
abbrev TILE_BINDER_FREE01 (n : Nat) : Nat := 0x500000 + 0x1000 * n + 0x11C
abbrev TILE_BINDER_FREE23 (n : Nat) : Nat := 0x500000 + 0x1000 * n + 0x120
abbrev TILE_HOST_SUBMIT_LO (n : Nat) : Nat := 0x500000 + 0x1000 * n + 0x128
abbrev TILE_HOST_SUBMIT_HI (n : Nat) : Nat := 0x500000 + 0x1000 * n + 0x12C
abbrev TILE_HOST_SUBMIT_STATUS (n : Nat) : Nat := 0x500000 + 0x1000 * n + 0x130
abbrev TILE_DESC_CAPTURE (n : Nat) : Nat := 0x500000 + 0x1000 * n + 0x134
abbrev TILE_GW_CFG (n : Nat) : Nat := 0x500000 + 0x1000 * n + 0x300
abbrev TILE_DESC_DONE (n : Nat) : Nat := 0x500000 + 0x1000 * n + 0x200
abbrev TILE_DESC_MALFORMED (n : Nat) : Nat := 0x500000 + 0x1000 * n + 0x208
abbrev TILE_MILL_BUSY (n : Nat) : Nat := 0x500000 + 0x1000 * n + 0x210
abbrev TILE_MILL_STALL_PRESS (n : Nat) : Nat := 0x500000 + 0x1000 * n + 0x218
abbrev TILE_MILL_STALL_FEED (n : Nat) : Nat := 0x500000 + 0x1000 * n + 0x220
abbrev TILE_BINDER_NAN (n : Nat) : Nat := 0x500000 + 0x1000 * n + 0x228
abbrev TILE_BINDER_OVERFLOW (n : Nat) : Nat := 0x500000 + 0x1000 * n + 0x230
abbrev TILE_BINDER_SPECIAL (n : Nat) : Nat := 0x500000 + 0x1000 * n + 0x238
abbrev TILE_MX_RANGE (n : Nat) : Nat := 0x500000 + 0x1000 * n + 0x240
abbrev TILE_PRESS_ESC_BLOCKS (n : Nat) : Nat := 0x500000 + 0x1000 * n + 0x248
abbrev TILE_PRESS_CRC_ERR (n : Nat) : Nat := 0x500000 + 0x1000 * n + 0x250
abbrev TILE_HL_CORR (n : Nat) : Nat := 0x500000 + 0x1000 * n + 0x258
abbrev TILE_POISON_OUT (n : Nat) : Nat := 0x500000 + 0x1000 * n + 0x260
abbrev TILE_CPL_FAIL (n : Nat) : Nat := 0x500000 + 0x1000 * n + 0x268
abbrev TILE_GL_REQUESTS (n : Nat) : Nat := 0x500000 + 0x1000 * n + 0x310
abbrev TILE_GL_COALESCED (n : Nat) : Nat := 0x500000 + 0x1000 * n + 0x318
abbrev TILE_GL_OUT_FULL (n : Nat) : Nat := 0x500000 + 0x1000 * n + 0x320
abbrev TILE_IDX_OOB (n : Nat) : Nat := 0x500000 + 0x1000 * n + 0x328
abbrev TILE_OUT_TRUNC (n : Nat) : Nat := 0x500000 + 0x1000 * n + 0x330
abbrev TILE_SA_PASSES (n : Nat) : Nat := 0x500000 + 0x1000 * n + 0x338
abbrev TILE_SORT_FAULT (n : Nat) : Nat := 0x500000 + 0x1000 * n + 0x340
abbrev TILE_WN_STALL (n : Nat) : Nat := 0x500000 + 0x1000 * n + 0x348
abbrev KVPOOL_CTRL (n : Nat) : Nat := 0x510000 + 0x1000 * n + 0x100
abbrev KVPOOL_STATUS (n : Nat) : Nat := 0x510000 + 0x1000 * n + 0x104
abbrev KVPOOL_FJID (n : Nat) : Nat := 0x510000 + 0x1000 * n + 0x108
abbrev KVPOOL_GEOM (n : Nat) : Nat := 0x510000 + 0x1000 * n + 0x10C
abbrev KVPOOL_CFG (n : Nat) : Nat := 0x510000 + 0x1000 * n + 0x110
abbrev KVPOOL_PAGE_BYTES (n : Nat) : Nat := 0x510000 + 0x1000 * n + 0x114
abbrev KVPOOL_PAGE_PPA_LO (n : Nat) : Nat := 0x510000 + 0x1000 * n + 0x118
abbrev KVPOOL_PAGE_PPA_HI (n : Nat) : Nat := 0x510000 + 0x1000 * n + 0x11C
abbrev KVPOOL_PAGES (n : Nat) : Nat := 0x510000 + 0x1000 * n + 0x120
abbrev KVPOOL_EXTENT (n : Nat) : Nat := 0x510000 + 0x1000 * n + 0x124
abbrev KVPOOL_SWAP_EXTENT (n : Nat) : Nat := 0x510000 + 0x1000 * n + 0x128
abbrev KVPOOL_HDR_BASE_LO (n : Nat) : Nat := 0x510000 + 0x1000 * n + 0x130
abbrev KVPOOL_HDR_BASE_HI (n : Nat) : Nat := 0x510000 + 0x1000 * n + 0x134
abbrev KVPOOL_TBL_BASE_LO (n : Nat) : Nat := 0x510000 + 0x1000 * n + 0x138
abbrev KVPOOL_TBL_BASE_HI (n : Nat) : Nat := 0x510000 + 0x1000 * n + 0x13C
abbrev KVPOOL_TBL_COUNT (n : Nat) : Nat := 0x510000 + 0x1000 * n + 0x140
abbrev KVPOOL_SWAP_PPA_LO (n : Nat) : Nat := 0x510000 + 0x1000 * n + 0x148
abbrev KVPOOL_SWAP_PPA_HI (n : Nat) : Nat := 0x510000 + 0x1000 * n + 0x14C
abbrev KVPOOL_SWAP_SLOTS (n : Nat) : Nat := 0x510000 + 0x1000 * n + 0x150
abbrev KVPOOL_SWAP_LINK_LO (n : Nat) : Nat := 0x510000 + 0x1000 * n + 0x158
abbrev KVPOOL_SWAP_LINK_HI (n : Nat) : Nat := 0x510000 + 0x1000 * n + 0x15C
abbrev KVPOOL_LOW (n : Nat) : Nat := 0x510000 + 0x1000 * n + 0x160
abbrev KVPOOL_HIGH (n : Nat) : Nat := 0x510000 + 0x1000 * n + 0x164
abbrev KVPOOL_VICTIM_BASE_LO (n : Nat) : Nat := 0x510000 + 0x1000 * n + 0x168
abbrev KVPOOL_VICTIM_BASE_HI (n : Nat) : Nat := 0x510000 + 0x1000 * n + 0x16C
abbrev KVPOOL_VICTIM_PROD (n : Nat) : Nat := 0x510000 + 0x1000 * n + 0x170
abbrev KVPOOL_VICTIM_CONS (n : Nat) : Nat := 0x510000 + 0x1000 * n + 0x174
abbrev KVPOOL_FREE_PAGES (n : Nat) : Nat := 0x510000 + 0x1000 * n + 0x178
abbrev KVPOOL_LIVE_PAGES (n : Nat) : Nat := 0x510000 + 0x1000 * n + 0x17C
abbrev KVPOOL_DEFERRED_PAGES (n : Nat) : Nat := 0x510000 + 0x1000 * n + 0x180
abbrev KVPOOL_FREE_TBL (n : Nat) : Nat := 0x510000 + 0x1000 * n + 0x184
abbrev KVPOOL_FREE_SWAP (n : Nat) : Nat := 0x510000 + 0x1000 * n + 0x188
abbrev KVPOOL_REFS (n : Nat) : Nat := 0x510000 + 0x1000 * n + 0x190
abbrev KVPOOL_PTE_REFS (n : Nat) : Nat := 0x510000 + 0x1000 * n + 0x198
abbrev KVPOOL_TOKENS_APPENDED (n : Nat) : Nat := 0x510000 + 0x1000 * n + 0x1A0
abbrev KVPOOL_COW_COPIES (n : Nat) : Nat := 0x510000 + 0x1000 * n + 0x1A8
abbrev KVPOOL_SAT_COPIES (n : Nat) : Nat := 0x510000 + 0x1000 * n + 0x1B0
abbrev KVPOOL_FORKS (n : Nat) : Nat := 0x510000 + 0x1000 * n + 0x1B8
abbrev KVPOOL_PREEMPTS (n : Nat) : Nat := 0x510000 + 0x1000 * n + 0x1C0
abbrev KVPOOL_RESUMES (n : Nat) : Nat := 0x510000 + 0x1000 * n + 0x1C8
abbrev KVPOOL_SWAP_OUT (n : Nat) : Nat := 0x510000 + 0x1000 * n + 0x1D0
abbrev KVPOOL_SWAP_IN (n : Nat) : Nat := 0x510000 + 0x1000 * n + 0x1D8
abbrev KVPOOL_STALE_PAGE (n : Nat) : Nat := 0x510000 + 0x1000 * n + 0x1E0
abbrev KVPOOL_VICTIM_SKIPPED (n : Nat) : Nat := 0x510000 + 0x1000 * n + 0x1E8
abbrev KVPOOL_DECODES (n : Nat) : Nat := 0x510000 + 0x1000 * n + 0x1F0
abbrev KVSEQ_CMD : Nat := 0x520100
abbrev KVSEQ_CMD_STATUS : Nat := 0x520104
abbrev KVSEQ_CMD_ARG : Nat := 0x520108
abbrev KVSEQ_SEQ_BASE_LO : Nat := 0x520110
abbrev KVSEQ_SEQ_BASE_HI : Nat := 0x520114
abbrev KVSEQ_SEQ_USED : Nat := 0x520118
abbrev KVSEQ_EPOCH : Nat := 0x52011C
abbrev TIER_CTRL : Nat := 0x600100
abbrev TIER_STATUS : Nat := 0x600104
abbrev TIER_CFG : Nat := 0x600108
abbrev TIER_CACHE_BASE_LO : Nat := 0x600110
abbrev TIER_CACHE_BASE_HI : Nat := 0x600114
abbrev TIER_FTAB_BASE_LO : Nat := 0x600118
abbrev TIER_FTAB_BASE_HI : Nat := 0x60011C
abbrev TIER_CMD : Nat := 0x600120
abbrev TIER_CMD_STATUS : Nat := 0x600124
abbrev TIER_ARG_PPA_LO : Nat := 0x600128
abbrev TIER_ARG_PPA_HI : Nat := 0x60012C
abbrev TIER_ARG_UNITS : Nat := 0x600130
abbrev TIER_CMD_PROGRESS : Nat := 0x600134
abbrev TIER_CMD_SKIPPED : Nat := 0x600138
abbrev TIER_TAG_LIMIT : Nat := 0x60013C
abbrev TIER_MIG_RATE : Nat := 0x600140
abbrev TIER_FRAMES_USED : Nat := 0x600144
abbrev TIER_FRAMES_PINNED : Nat := 0x600148
abbrev TIER_FRAMES_STUCK : Nat := 0x60014C
abbrev TIER_TAGS_USED : Nat := 0x600150
abbrev TIER_POLICY (i : Nat) : Nat := 0x600400 + 4 * i
abbrev TIER_HITS : Nat := 0x600160
abbrev TIER_MISSES : Nat := 0x600168
abbrev TIER_FILL_BYTES : Nat := 0x600170
abbrev TIER_WB_BYTES : Nat := 0x600178
abbrev TIER_RECORD_MISSES : Nat := 0x600180
abbrev TIER_ALLOC_BYPASS : Nat := 0x600188
abbrev TIER_GRAN_TIMEOUTS : Nat := 0x600190
abbrev TIER_CMD_IGNORED : Nat := 0x600198
abbrev GRAN_CTRL : Nat := 0x700100
abbrev GRAN_STATUS : Nat := 0x700104
abbrev GRAN_GEOM : Nat := 0x700108
abbrev GRAN_BLOCKS : Nat := 0x70010C
abbrev GRAN_PPA_BASE_LO : Nat := 0x700110
abbrev GRAN_PPA_BASE_HI : Nat := 0x700114
abbrev GRAN_MAP_BASE_LO : Nat := 0x700118
abbrev GRAN_MAP_BASE_HI : Nat := 0x70011C
abbrev GRAN_BLK_BASE_LO : Nat := 0x700120
abbrev GRAN_BLK_BASE_HI : Nat := 0x700124
abbrev GRAN_LOGICAL_UNITS : Nat := 0x700128
abbrev GRAN_GC_CFG : Nat := 0x70012C
abbrev GRAN_SPARE_MIN : Nat := 0x700130
abbrev GRAN_WL_DELTA : Nat := 0x700134
abbrev GRAN_RD_LIMIT : Nat := 0x700138
abbrev GRAN_LDPC_CFG : Nat := 0x70013C
abbrev GRAN_CKPT_INTERVAL : Nat := 0x700140
abbrev GRAN_MAPPED_UNITS : Nat := 0x700148
abbrev GRAN_FREE_MIN : Nat := 0x70014C
abbrev GRAN_BAD_BLOCKS : Nat := 0x700150
abbrev GRAN_HOST_READ_UNITS : Nat := 0x700160
abbrev GRAN_HOST_WRITE_UNITS : Nat := 0x700168
abbrev GRAN_NAND_PROG_UNITS : Nat := 0x700170
abbrev GRAN_GC_RELOCS : Nat := 0x700178
abbrev GRAN_WL_RELOCS : Nat := 0x700180
abbrev GRAN_RD_RELOCS : Nat := 0x700188
abbrev GRAN_LDPC_CORR : Nat := 0x700190
abbrev GRAN_LDPC_UNCORR : Nat := 0x700198
abbrev GRAN_READ_RETRIES : Nat := 0x7001A0
abbrev GRAN_PROG_FAILS : Nat := 0x7001A8
abbrev GRAN_ERASE_FAILS : Nat := 0x7001B0
abbrev JOB_FJID (n : Nat) : Nat := 0x800000 + 0x1000 * n + 0x100
abbrev JOB_CTRL (n : Nat) : Nat := 0x800000 + 0x1000 * n + 0x104
abbrev JOB_STATUS (n : Nat) : Nat := 0x800000 + 0x1000 * n + 0x108
abbrev JOB_MAN_BASE_LO (n : Nat) : Nat := 0x800000 + 0x1000 * n + 0x110
abbrev JOB_MAN_BASE_HI (n : Nat) : Nat := 0x800000 + 0x1000 * n + 0x114
abbrev JOB_MAN_FVA_LO (n : Nat) : Nat := 0x800000 + 0x1000 * n + 0x118
abbrev JOB_MAN_FVA_HI (n : Nat) : Nat := 0x800000 + 0x1000 * n + 0x11C
abbrev JOB_MAN_LEN (n : Nat) : Nat := 0x800000 + 0x1000 * n + 0x120
abbrev JOB_MAN_CFG (n : Nat) : Nat := 0x800000 + 0x1000 * n + 0x124
abbrev JOB_MEMBER_BASE_LO (n : Nat) : Nat := 0x800000 + 0x1000 * n + 0x128
abbrev JOB_MEMBER_BASE_HI (n : Nat) : Nat := 0x800000 + 0x1000 * n + 0x12C
abbrev JOB_TAG_LIMIT (n : Nat) : Nat := 0x800000 + 0x1000 * n + 0x130
abbrev JOB_TAG_USED (n : Nat) : Nat := 0x800000 + 0x1000 * n + 0x134
abbrev JOB_QUEUE_LIMIT (n : Nat) : Nat := 0x800000 + 0x1000 * n + 0x138
abbrev JOB_QUEUE_USED (n : Nat) : Nat := 0x800000 + 0x1000 * n + 0x13C
abbrev JOB_INVAL_FVA_LO (n : Nat) : Nat := 0x800000 + 0x1000 * n + 0x140
abbrev JOB_INVAL_FVA_HI (n : Nat) : Nat := 0x800000 + 0x1000 * n + 0x144
abbrev JOB_INVAL_LEN (n : Nat) : Nat := 0x800000 + 0x1000 * n + 0x148
abbrev JOB_VIOL_CAPTURE (n : Nat) (i : Nat) : Nat := 0x800000 + 0x1000 * n + 0x150 + 4 * i
abbrev JOB_TILE_CFG (n : Nat) : Nat := 0x800000 + 0x1000 * n + 0x184
abbrev JOB_DQ_FVA_LO (n : Nat) : Nat := 0x800000 + 0x1000 * n + 0x188
abbrev JOB_DQ_FVA_HI (n : Nat) : Nat := 0x800000 + 0x1000 * n + 0x18C
abbrev JOB_SO_RANGE (n : Nat) : Nat := 0x800000 + 0x1000 * n + 0x180
abbrev JOB_REQUESTS (n : Nat) : Nat := 0x800000 + 0x1000 * n + 0x160
abbrev JOB_VIOLATIONS (n : Nat) : Nat := 0x800000 + 0x1000 * n + 0x168
abbrev JOB_BUSY_COUNT (n : Nat) : Nat := 0x800000 + 0x1000 * n + 0x170
abbrev JOB_READ_BYTES (n : Nat) : Nat := 0x800000 + 0x1000 * n + 0x1A0
abbrev JOB_WRITE_BYTES (n : Nat) : Nat := 0x800000 + 0x1000 * n + 0x1A8
abbrev JOB_ATOMICS (n : Nat) : Nat := 0x800000 + 0x1000 * n + 0x1B0
abbrev JOB_TILE_CYCLES (n : Nat) : Nat := 0x800000 + 0x1000 * n + 0x1B8
abbrev JOB_DESC_DONE (n : Nat) : Nat := 0x800000 + 0x1000 * n + 0x1C0
abbrev JOB_CARV_TX_BYTES (n : Nat) : Nat := 0x800000 + 0x1000 * n + 0x1C8
abbrev JOB_CARV_RX_BYTES (n : Nat) : Nat := 0x800000 + 0x1000 * n + 0x1D0
abbrev JOB_SHEAF_BYTES (n : Nat) : Nat := 0x800000 + 0x1000 * n + 0x1D8
abbrev VF_SLOT (n : Nat) : Nat := 0x4000000 + 0x10000 * n + 0x100
abbrev VF_SUBMIT (n : Nat) : Nat := 0x4000000 + 0x10000 * n + 0x104
abbrev VF_SUBMIT_STATUS (n : Nat) : Nat := 0x4000000 + 0x10000 * n + 0x108
abbrev VF_CTR_SEL (n : Nat) : Nat := 0x4000000 + 0x10000 * n + 0x110
abbrev VF_CTR_VALUE_LO (n : Nat) : Nat := 0x4000000 + 0x10000 * n + 0x118
abbrev VF_CTR_VALUE_HI (n : Nat) : Nat := 0x4000000 + 0x10000 * n + 0x11C
abbrev VF_CTR_ADD_LO (n : Nat) : Nat := 0x4000000 + 0x10000 * n + 0x120
abbrev VF_CTR_ADD_HI (n : Nat) : Nat := 0x4000000 + 0x10000 * n + 0x124
abbrev VF_CTR_RESULT (n : Nat) : Nat := 0x4000000 + 0x10000 * n + 0x128
abbrev VF_CTR_VEC (n : Nat) (i : Nat) : Nat := 0x4000000 + 0x10000 * n + 0x130 + 4 * i
abbrev VF_DESC (n : Nat) (i : Nat) : Nat := 0x4000000 + 0x10000 * n + 0x200 + 4 * i

end Adr

end Sys2Proof.Machine
end

