-- ==== Sys2Proof/Machine/ErrTable.lean ====
section
/-! DEFINITION. The errors of the block: the page, the bit of its ERR_STATUS and the class of every
error the chapters name (R458; Tables 2-7 to 18-14). -/

set_option Elab.async false

namespace Sys2Proof.Machine

/-- The error classes of Table 18-1, in the order of the CLASS field of Table 18-2. -/
inductive ErrClass where
  | corrected | deferred | jobFatal | domainFatal | deviceFatal
  deriving DecidableEq, Repr

/-- An error: its page, its bit of ERR_STATUS, its class. -/
structure Err where
  page : PageKind
  bit : Nat
  cls : ErrClass
  deriving DecidableEq, Repr

namespace Err

/-- Table 2-7. -/
def time_REF_LOST : Err := ⟨.time, 0, .corrected⟩
/-- Table 2-7. -/
def time_PPS_LOST : Err := ⟨.time, 1, .corrected⟩
/-- Table 2-7. -/
def time_GM_COLLISION : Err := ⟨.time, 2, .corrected⟩
/-- Table 2-7. -/
def time_SERIAL_DUP : Err := ⟨.time, 3, .domainFatal⟩
/-- Table 2-7. -/
def time_STEP_TAKEN : Err := ⟨.time, 4, .corrected⟩
/-- Table 2-7. -/
def time_STEP_REFUSED : Err := ⟨.time, 5, .corrected⟩
/-- Table 2-7. -/
def time_TIME_DIVERGED : Err := ⟨.time, 6, .domainFatal⟩
/-- Table 2-7. -/
def time_BEACON_DUP : Err := ⟨.time, 7, .corrected⟩
/-- Table 3-14. -/
def port_LINK_DOWN : Err := ⟨.port, 0, .corrected⟩
/-- Table 3-14. -/
def port_PARAM_MISMATCH : Err := ⟨.port, 1, .corrected⟩
/-- Table 3-14. -/
def port_LOOPBACK : Err := ⟨.port, 2, .corrected⟩
/-- Table 3-14. -/
def port_RETRAIN : Err := ⟨.port, 3, .corrected⟩
/-- Table 3-14. -/
def port_PKT_MALFORMED : Err := ⟨.port, 4, .corrected⟩
/-- Table 3-14. -/
def port_CREDIT_OVERRUN : Err := ⟨.port, 5, .domainFatal⟩
/-- Table 3-14. -/
def port_CREDIT_UNDERRUN : Err := ⟨.port, 6, .domainFatal⟩
/-- Table 3-14. -/
def port_PFC_WATCHDOG : Err := ⟨.port, 7, .corrected⟩
/-- Table 3-14. -/
def port_CXL_TRAIN : Err := ⟨.port, 8, .corrected⟩
/-- Table 3-14. -/
def port_CXL_POISON : Err := ⟨.port, 9, .deferred⟩
/-- Table 3-14. -/
def port_CXL_LINK_FATAL : Err := ⟨.port, 10, .domainFatal⟩
/-- Table 3-14. -/
def port_CTRL_MALFORMED : Err := ⟨.port, 11, .corrected⟩
/-- Table 4-11. -/
def swcore_FWD_ENTRY_BAD : Err := ⟨.swcore, 0, .corrected⟩
/-- Table 4-11. -/
def swcore_SET_BAD : Err := ⟨.swcore, 1, .corrected⟩
/-- Table 4-11. -/
def swcore_FWD_NO_PATH : Err := ⟨.swcore, 2, .corrected⟩
/-- Table 4-11. -/
def swcore_BUF_TALLY : Err := ⟨.swcore, 3, .deviceFatal⟩
/-- Table 4-11. -/
def swcore_SHAPER_TALLY : Err := ⟨.swcore, 4, .corrected⟩
/-- Table 4-11. -/
def swcore_ALLOC_REFUSED : Err := ⟨.swcore, 5, .corrected⟩
/-- Table 5-15. -/
def ttu_VIOLATION : Err := ⟨.ttu, 0, .jobFatal⟩
/-- Table 5-15. -/
def ttu_TARGET_TIMEOUT : Err := ⟨.ttu, 1, .domainFatal⟩
/-- Table 5-15. -/
def ttu_PPA_UNDECODED : Err := ⟨.ttu, 2, .jobFatal⟩
/-- Table 5-15. -/
def ttu_MANIFEST_BAD : Err := ⟨.ttu, 3, .jobFatal⟩
/-- Table 5-15. -/
def ttu_TAG_TALLY : Err := ⟨.ttu, 4, .deviceFatal⟩
/-- Table 5-15. -/
def ttu_STALE_RSP : Err := ⟨.ttu, 5, .corrected⟩
/-- Table 5-15. -/
def ttu_POISON_SEEN : Err := ⟨.ttu, 6, .deferred⟩
/-- Table 5-15. -/
def ttu_EDGE_SPOOF : Err := ⟨.ttu, 7, .corrected⟩
/-- Table 6-12. -/
def home_DOMAIN_DOWN : Err := ⟨.home, 0, .domainFatal⟩
/-- Table 6-12. -/
def home_COH_PROTO : Err := ⟨.home, 1, .corrected⟩
/-- Table 6-12. -/
def home_DIR_CORR : Err := ⟨.home, 2, .corrected⟩
/-- Table 6-12. -/
def home_DIR_UNCORR : Err := ⟨.home, 3, .domainFatal⟩
/-- Table 6-12. -/
def home_COH_TALLY : Err := ⟨.home, 4, .deviceFatal⟩
/-- Table 7-11. -/
def ext_EXT_TALLY : Err := ⟨.ext, 0, .deviceFatal⟩
/-- Table 7-11. -/
def ext_SNAP_TALLY : Err := ⟨.ext, 1, .domainFatal⟩
/-- Table 7-11. -/
def ext_SNAP_NO_SPACE : Err := ⟨.ext, 2, .corrected⟩
/-- Table 7-11. -/
def ext_SNAP_MAP_UNCORR : Err := ⟨.ext, 3, .deferred⟩
/-- Table 8-13. -/
def tier_WB_FAIL : Err := ⟨.tier, 0, .domainFatal⟩
/-- Table 8-13. -/
def tier_TIER_TALLY : Err := ⟨.tier, 1, .deviceFatal⟩
/-- Table 8-13. -/
def tier_RECORD_UNCORR : Err := ⟨.tier, 2, .deferred⟩
/-- Table 8-13. -/
def gran_LDPC_CORR : Err := ⟨.gran, 0, .corrected⟩
/-- Table 8-13. -/
def gran_GRAN_UNCORR : Err := ⟨.gran, 1, .deferred⟩
/-- Table 8-13. -/
def gran_PROG_FAIL : Err := ⟨.gran, 2, .corrected⟩
/-- Table 8-13. -/
def gran_ERASE_FAIL : Err := ⟨.gran, 3, .corrected⟩
/-- Table 8-13. -/
def gran_SPARE_LOW : Err := ⟨.gran, 4, .domainFatal⟩
/-- Table 8-13. -/
def gran_GRAN_TALLY : Err := ⟨.gran, 5, .domainFatal⟩
/-- Table 8-13. -/
def gran_META_UNCORR : Err := ⟨.gran, 6, .domainFatal⟩
/-- Table 8-13. -/
def gran_MAP_UNCORR : Err := ⟨.gran, 7, .deferred⟩
/-- Table 9-14. -/
def carv_LEG_FAILED : Err := ⟨.carv, 0, .jobFatal⟩
/-- Table 9-14. -/
def carv_REMOTE_VIOLATION : Err := ⟨.carv, 1, .jobFatal⟩
/-- Table 9-14. -/
def carv_WQ_OVERFLOW : Err := ⟨.carv, 2, .jobFatal⟩
/-- Table 9-14. -/
def carv_WQE_MALFORMED : Err := ⟨.carv, 3, .jobFatal⟩
/-- Table 9-14. -/
def carv_SO_FAILED : Err := ⟨.carv, 4, .corrected⟩
/-- Table 9-14. -/
def carv_CARV_TALLY : Err := ⟨.carv, 5, .deviceFatal⟩
/-- Table 9-14. -/
def carv_POST_REJECT : Err := ⟨.carv, 6, .corrected⟩
/-- Table 9-14. -/
def carv_ETH_BAD : Err := ⟨.carv, 7, .corrected⟩
/-- Table 10-17. -/
def tile_DESC_MALFORMED : Err := ⟨.tile, 0, .corrected⟩
/-- Table 10-17. -/
def tile_HL_CORR : Err := ⟨.tile, 1, .corrected⟩
/-- Table 10-17. -/
def tile_HL_UNCORR : Err := ⟨.tile, 2, .deferred⟩
/-- Table 10-17. -/
def tile_PRESS_CRC : Err := ⟨.tile, 3, .deferred⟩
/-- Table 10-17. -/
def tile_CPL_FAIL : Err := ⟨.tile, 4, .jobFatal⟩
/-- Table 10-17. -/
def tile_TILE_TALLY : Err := ⟨.tile, 5, .deviceFatal⟩
/-- Table 10-17. -/
def tile_MX_RANGE : Err := ⟨.tile, 6, .corrected⟩
/-- Table 11-15. -/
def sheaf_SHEAF_ABORT : Err := ⟨.sheaf, 0, .jobFatal⟩
/-- Table 11-15. -/
def sheaf_SRC_BAD : Err := ⟨.sheaf, 1, .corrected⟩
/-- Table 11-15. -/
def sheaf_CTR_REFUSED : Err := ⟨.sheaf, 2, .jobFatal⟩
/-- Table 11-15. -/
def sheaf_CTR_EVENT_DROP : Err := ⟨.sheaf, 3, .corrected⟩
/-- Table 11-15. -/
def sheaf_SHEAF_TALLY : Err := ⟨.sheaf, 4, .deviceFatal⟩
/-- Table 13-13. -/
def kvpool_POOL_EMPTY : Err := ⟨.kvpool, 0, .corrected⟩
/-- Table 13-13. -/
def kvpool_STALE_PAGE : Err := ⟨.kvpool, 1, .corrected⟩
/-- Table 13-13. -/
def kvpool_SWAP_FAIL : Err := ⟨.kvpool, 2, .corrected⟩
/-- Table 13-13. -/
def kvpool_SWAP_READ_FAIL : Err := ⟨.kvpool, 3, .jobFatal⟩
/-- Table 13-13. -/
def kvpool_REF_SAT : Err := ⟨.kvpool, 4, .corrected⟩
/-- Table 13-13. -/
def kvpool_KV_META_UNCORR : Err := ⟨.kvpool, 5, .domainFatal⟩
/-- Table 13-13. -/
def kvpool_KV_TALLY : Err := ⟨.kvpool, 6, .domainFatal⟩
/-- Table 13-13. -/
def kvpool_VICTIM_SKIP : Err := ⟨.kvpool, 7, .corrected⟩
/-- Table 14-9. -/
def exd_CMB_TIMEOUT : Err := ⟨.exd, 0, .jobFatal⟩
/-- Table 14-9. -/
def exd_RESULT_FAIL : Err := ⟨.exd, 1, .jobFatal⟩
/-- Table 14-9. -/
def exd_COPY_FAIL : Err := ⟨.exd, 2, .corrected⟩
/-- Table 14-9. -/
def exd_CMB_STALE : Err := ⟨.exd, 3, .corrected⟩
/-- Table 14-9. -/
def exd_EXD_TALLY : Err := ⟨.exd, 4, .deviceFatal⟩
/-- Table 14-9. -/
def exd_MAP_UNCORR : Err := ⟨.exd, 5, .domainFatal⟩
/-- Table 15-12. -/
def sec_IMAGE_BAD : Err := ⟨.sec, 0, .corrected⟩
/-- Table 15-12. -/
def sec_FUSE_EXHAUSTED : Err := ⟨.sec, 1, .corrected⟩
/-- Table 15-12. -/
def sec_FUSE_FAULT : Err := ⟨.sec, 2, .deviceFatal⟩
/-- Table 15-12. -/
def sec_TOKEN_BAD : Err := ⟨.sec, 3, .corrected⟩
/-- Table 15-12. -/
def sec_KEY_CLEARED : Err := ⟨.sec, 4, .jobFatal⟩
/-- Table 15-12. -/
def sec_LINK_KEY_MISS : Err := ⟨.sec, 5, .corrected⟩
/-- Table 15-12. -/
def sec_BARN_WIN_REFUSED : Err := ⟨.sec, 6, .corrected⟩
/-- Table 15-12. -/
def sec_HOST_SEALED_REFUSED : Err := ⟨.sec, 7, .jobFatal⟩
/-- Table 16-12. -/
def hostp_HOST_ACCESS_OFF : Err := ⟨.hostp, 0, .jobFatal⟩
/-- Table 16-12. -/
def hostp_CPL_TIMEOUT : Err := ⟨.hostp, 1, .corrected⟩
/-- Table 16-12. -/
def hostp_HOST_UR : Err := ⟨.hostp, 2, .jobFatal⟩
/-- Table 16-12. -/
def hostp_HOST_TALLY : Err := ⟨.hostp, 3, .deviceFatal⟩
/-- Table 16-12. -/
def hostp_MMIO_BAD : Err := ⟨.hostp, 4, .corrected⟩
/-- Table 16-12. -/
def chain_CHAIN_COLLISION : Err := ⟨.chain, 0, .corrected⟩
/-- Table 16-12. -/
def chain_CHAIN_BREAK : Err := ⟨.chain, 1, .corrected⟩
/-- Table 16-12. -/
def chain_CHAIN_OVERFLOW : Err := ⟨.chain, 2, .corrected⟩
/-- Table 16-12. -/
def chain_CHAIN_TIMEOUT : Err := ⟨.chain, 3, .corrected⟩
/-- Table 16-12. -/
def chain_CHAIN_WR_FAIL : Err := ⟨.chain, 4, .corrected⟩
/-- Table 16-12. -/
def chain_CHAIN_RENUMBER : Err := ⟨.chain, 5, .corrected⟩
/-- Table 16-12. -/
def chain_CHAIN_ENUM_TIMEOUT : Err := ⟨.chain, 6, .corrected⟩
/-- Table 17-12. -/
def pwr_CLK_LOST : Err := ⟨.pwr, 0, .deviceFatal⟩
/-- Table 17-12. -/
def pwr_VHOLD_LOW : Err := ⟨.pwr, 1, .corrected⟩
/-- Table 17-12. -/
def pwr_DOMAIN_REFUSED : Err := ⟨.pwr, 2, .corrected⟩
/-- Table 17-12. -/
def save_SAVE_TORN : Err := ⟨.save, 0, .corrected⟩
/-- Table 17-12. -/
def save_CELLAR_CORR : Err := ⟨.save, 1, .corrected⟩
/-- Table 17-12. -/
def save_CELLAR_UNCORR : Err := ⟨.save, 2, .deferred⟩
/-- Table 18-14. -/
def fault_EVQ_OVERFLOW : Err := ⟨.fault, 0, .corrected⟩
/-- Table 18-14. -/
def fault_PARTNER_FENCED : Err := ⟨.fault, 1, .corrected⟩
/-- Table 18-14. -/
def fault_MGMT_BAD : Err := ⟨.fault, 2, .corrected⟩
/-- Table 18-14. -/
def fault_AUDIT_SKIPPED : Err := ⟨.fault, 3, .corrected⟩

end Err

/-- ERR_SEVERITY at reset: 1 for job-fatal, domain-fatal and device-fatal bits (R457). -/
def sevReset : PageKind → Nat
  | .time => 0x48
  | .port => 0x460
  | .swcore => 0x8
  | .ttu => 0x1F
  | .home => 0x19
  | .ext => 0x3
  | .tier => 0x3
  | .gran => 0x70
  | .carv => 0x2F
  | .tile => 0x30
  | .sheaf => 0x15
  | .kvpool => 0x68
  | .exd => 0x33
  | .sec => 0x94
  | .hostp => 0xD
  | .pwr => 0x1
  | _ => 0

/-- The device-fatal bits of a page, whose ERR_SEVERITY bit reads 1 and ignores writes (R457). -/
def devFatalMask : PageKind → Nat
  | .swcore => 0x8
  | .ttu => 0x10
  | .home => 0x10
  | .ext => 0x1
  | .tier => 0x2
  | .carv => 0x20
  | .tile => 0x20
  | .sheaf => 0x10
  | .exd => 0x10
  | .sec => 0x4
  | .hostp => 0x8
  | .pwr => 0x1
  | _ => 0

end Sys2Proof.Machine
end

