-- ==== Sys2Proof/Machine/Tbl.lean ====
section
/-! DEFINITION. Sparse tables: lists of key and value pairs in one canonical form, keys strictly
rising and no entry equal to what an unlisted key reads as. -/

set_option Elab.async false

namespace Sys2Proof.Machine

/-- A table of `α` by number. A key that is not listed reads as `default`. -/
abbrev Tbl (α : Type) := List (Nat × α)

/-- Read the table at a key. -/
def Tbl.get {α : Type} [Inhabited α] : Tbl α → Nat → α
  | [], _ => default
  | (a, v) :: t, k => if a = k then v else Tbl.get t k

/-- Put `v` at `k`, in order, without regard to the default. -/
def Tbl.ins {α : Type} : Tbl α → Nat → α → Tbl α
  | [], k, v => [(k, v)]
  | (a, u) :: t, k, v =>
    if k < a then (k, v) :: (a, u) :: t
    else if k = a then (k, v) :: t
    else (a, u) :: Tbl.ins t k v

/-- Remove the entry at `k`. -/
def Tbl.del {α : Type} : Tbl α → Nat → Tbl α
  | [], _ => []
  | (a, u) :: t, k =>
    if k < a then (a, u) :: t
    else if k = a then t
    else (a, u) :: Tbl.del t k

/-- Write the table at a key; writing the default removes the entry. -/
def Tbl.set {α : Type} [Inhabited α] [DecidableEq α] (t : Tbl α) (k : Nat) (v : α) : Tbl α :=
  if v = default then t.del k else t.ins k v

/-- Change the entry at a key. -/
def Tbl.modify {α : Type} [Inhabited α] [DecidableEq α] (t : Tbl α) (k : Nat) (f : α → α) : Tbl α :=
  t.set k (f (t.get k))

/-- Keys strictly rising, all above `lo` when it is given. -/
def Tbl.sorted {α : Type} : Option Nat → Tbl α → Bool
  | _, [] => true
  | none, (a, _) :: t => Tbl.sorted (some a) t
  | some l, (a, _) :: t => decide (l < a) && Tbl.sorted (some a) t

/-- No listed value is the default. -/
def Tbl.lean {α : Type} [Inhabited α] [DecidableEq α] : Tbl α → Bool
  | [] => true
  | (_, v) :: t => decide (v ≠ default) && Tbl.lean t

/-- The canonical form of a table. -/
def Tbl.wf {α : Type} [Inhabited α] [DecidableEq α] (t : Tbl α) : Bool :=
  Tbl.sorted none t && t.lean

/-- Drop the entries whose key lies in `[a, b)`. -/
def Tbl.clear {α : Type} (t : Tbl α) (a b : Nat) : Tbl α :=
  t.filter fun e => !(decide (a ≤ e.1) && decide (e.1 < b))

/-- Keep the entries whose key satisfies `p`. -/
def Tbl.keep {α : Type} (t : Tbl α) (p : Nat → α → Bool) : Tbl α :=
  t.filter fun e => p e.1 e.2

/-- Apply `f` to every listed entry, dropping those that become the default. -/
def Tbl.map {α : Type} [Inhabited α] [DecidableEq α] (t : Tbl α) (f : Nat → α → α) : Tbl α :=
  (List.map (fun e => (e.1, f e.1 e.2)) t).filter fun e => decide (e.2 ≠ default)

/-- How many listed entries satisfy `p`. -/
def Tbl.countP {α : Type} (t : Tbl α) (p : Nat → α → Bool) : Nat :=
  (t.filter fun e => p e.1 e.2).length

/-- The first listed entry that satisfies `p`. -/
def Tbl.find {α : Type} (t : Tbl α) (p : Nat → α → Bool) : Option (Nat × α) :=
  List.find? (fun e => p e.1 e.2) t

/-- The least number below `n` for which `p` holds. -/
def leastBelow (n : Nat) (p : Nat → Bool) : Option Nat := (List.range n).find? p

end Sys2Proof.Machine
end

