-- ==== Sys2Proof/Types.lean ====
section
/-! DEFINITION. What the outside world brings with a command: packets, frames, messages of the
protocols the block speaks, and who sends a register access. -/

set_option Elab.async false

namespace Sys2Proof

/-- The four sources of register accesses (R488), in the order of REFUSE_CAPTURE.SOURCE
(Table 19-8). -/
inductive Source where
  | host | chain | loader | jtag
  deriving DecidableEq, Repr

/-- An Avber packet: the 16-byte common header of Table 3-9 and the bytes from byte 16 on. -/
structure Packet where
  hdr : BitVec 128
  body : List Byte
  deriving DecidableEq, Repr, Inhabited

/-- An IEEE 802.1AS message as R32 and Table 2-1 use it. The message formats are those of IEEE
802.1AS; the fields here are the ones the manual names or needs. -/
inductive Gptp where
  /-- Announce: priority1, clockIdentity, steps removed. -/
  | announce (prio1 : Nat) (clockId : Nat) (steps : Nat)
  /-- One-step Sync with its origin time, in 2^-16 ns. -/
  | syncOneStep (origin : Nat)
  /-- Two-step Sync; the origin time follows. -/
  | sync
  | followUp (origin : Nat)
  | pdelayReq
  /-- Peer delay response: receive time of the request. -/
  | pdelayResp (t2 : Nat)
  /-- Peer delay response follow-up: transmit time of the response. -/
  | pdelayRespFollowUp (t3 : Nat)
  deriving DecidableEq, Repr

/-- How a link training ended (R76). -/
inductive TrainResult where
  | up64 | up32 | failed
  deriving DecidableEq, Repr

/-- How the device behind a CXL port lost the port (R80). -/
inductive CxlFatal where
  | viral | uncorrectable | linkLoss
  deriving DecidableEq, Repr

/-- The frames that arrive in a NAND, CXL or PCIe completion: status of a completion. -/
inductive CplStatus where
  | success | unsupported | retry | abort
  deriving DecidableEq, Repr

/-- A PCIe configuration write, by the field it changes (R411, R420 to R423). -/
inductive CfgWrite where
  | bme (on : Bool)
  | msixEnable (on : Bool)
  | atomicEnable (on : Bool)
  | maxPayload (bytes : Nat)
  | maxRead (bytes : Nat)
  /-- Tag size enabled: 0 for 8, 1 for 10, 2 for 14 bits. -/
  | tagSize (code : Nat)
  | cplTimeout (ms : Nat)
  | numVfs (n : Nat)
  | vfEnable (on : Bool)
  | other
  deriving DecidableEq, Repr

end Sys2Proof
end

