-- ==== Sys2Proof/Machine/Packet.lean ====
section
/-! DEFINITION. Avber packets: the common header of Table 3-9, the request and response extensions
of Tables 5-2 and 5-5, the coherence extension of Table 6-3, building and measuring packets. -/

set_option Elab.async false

namespace Sys2Proof

/-- Fields of the common header (Table 3-9). -/
def Packet.cls (p : Packet) : Nat := bits p.hdr 3 0
def Packet.len (p : Packet) : Nat := bits p.hdr 16 4
def Packet.poison (p : Packet) : Bool := bit p.hdr 17
def Packet.hops (p : Packet) : Nat := bits p.hdr 21 18
def Packet.rsv (p : Packet) : Nat := bits p.hdr 31 22
def Packet.spec (p : Packet) : Nat := bits p.hdr 63 32
def Packet.src (p : Packet) : Nat := bits p.hdr 79 64
def Packet.dst (p : Packet) : Nat := bits p.hdr 95 80
def Packet.stamp (p : Packet) : Nat := bits p.hdr 127 96

/-- The packet with another DST_EID, HOPS or TIMESTAMP. -/
def Packet.setDst (p : Packet) (d : Nat) : Packet := { p with hdr := setBits p.hdr 95 80 d }
def Packet.setHops (p : Packet) (h : Nat) : Packet := { p with hdr := setBits p.hdr 21 18 h }
def Packet.setReqTag (p : Packet) (t : Nat) : Packet := { p with hdr := setBits p.hdr 63 48 t }
def Packet.setStamp (p : Packet) (t : Nat) : Packet := { p with hdr := setBits p.hdr 127 96 t }

/-- The number of `n` bytes at byte `off` of the packet (off at least 16), little-endian (R5). -/
def Packet.num (p : Packet) (off n : Nat) : Nat := leNat ((p.body.drop (off - 16)).take n)

/-- The bytes of the packet from `off` on, `n` of them. -/
def Packet.bytes (p : Packet) (off n : Nat) : List Byte := (p.body.drop (off - 16)).take n

/-- The 128-bit extension in bytes 16 to 31. -/
def Packet.ext (p : Packet) : Nat := p.num 16 16

/-- The field `[hi:lo]` of the extension. -/
def Packet.xf (p : Packet) (hi lo : Nat) : Nat := nbits p.ext hi lo

/-- The header and body as bytes. -/
def Packet.wire (p : Packet) : List Byte := leBytes 16 p.hdr.toNat ++ p.body

/-- A packet from bytes, header first. -/
def Packet.ofBytes (b : List Byte) : Packet :=
  { hdr := BitVec.ofNat 128 (leNat (b.take 16)), body := b.drop 16 }

/-- Cells that a packet of `len` bytes takes (R65). -/
def cellsOf (len : Nat) : Nat := ceilDiv len 256

/-- Slots that a packet of `len` bytes takes (R60). -/
def slotsOf (len : Nat) : Nat := ceilDiv len 16

/-- Build a packet; LEN follows from the body (Table 3-9). -/
def mkPkt (cls spec src dst stamp : Nat) (poison : Bool) (body : List Byte) : Packet :=
  { hdr := BitVec.ofNat 128
      (cls + (16 + body.length) * 2 ^ 4 + b2n poison * 2 ^ 17 + (spec % 2 ^ 32) * 2 ^ 32
        + (src % 2 ^ 16) * 2 ^ 64 + (dst % 2 ^ 16) * 2 ^ 80 + (stamp % 2 ^ 32) * 2 ^ 96)
    body := body }

/-- The ranks of Table 3-10; reserved classes have none. -/
def classRank : Nat → Nat
  | 0 => 0 | 1 => 0 | 2 => 1 | 3 => 1 | 4 => 1 | 5 => 2 | 6 => 3 | 7 => 4 | 8 => 4 | 9 => 5 | 10 => 5
  | _ => 15

/-- Header rules of R62: LEN, class and reserved field. -/
def Packet.badHdr (p : Packet) : Bool :=
  decide (p.len < 32) || decide (4144 < p.len) || decide (10 < p.cls) || p.rsv != 0

/-- Fields of the request extension (Table 5-2). -/
def Packet.fva (p : Packet) : Nat := p.xf 127 71
def Packet.fjid (p : Packet) : Nat := p.xf 70 51
def Packet.op (p : Packet) : Nat := p.xf 50 47
def Packet.atop (p : Packet) : Nat := p.xf 46 43
def Packet.size (p : Packet) : Nat := p.xf 42 30
def Packet.phys (p : Packet) : Bool := p.xf 29 29 == 1
def Packet.ordered (p : Packet) : Bool := p.xf 28 28 == 1
def Packet.ppa (p : Packet) : Nat := p.xf 122 71
def Packet.reqTag (p : Packet) : Nat := nbits p.spec 31 16
def Packet.orderId (p : Packet) : Nat := nbits p.spec 15 0

/-- Fields of the response extension (Table 5-5). -/
def Packet.rspStatus (p : Packet) : Nat := p.xf 63 60
def Packet.poisonMap (p : Packet) : Nat := p.xf 127 64
def Packet.rspSize (p : Packet) : Nat := p.xf 59 47

/-- The address by which a set is looked up (R88, R92): that of an MREQ or a CREQ. -/
def Packet.reqAddr (p : Packet) : Nat := p.xf 127 71

/-- The sheaf a SHEAF packet names (Table 11-4). -/
def Packet.sheafId (p : Packet) : Nat := nbits p.spec 31 20

/-- The caravan extension (bytes 16 to 63), its field `[hi:lo]`, and KIND (Table 9-1). -/
def Packet.cf (p : Packet) (hi lo : Nat) : Nat := nbits (p.num 16 48) hi lo
def Packet.carvKind (p : Packet) : Nat := p.cf 271 268

/-- A request's write data by offset (R114): a byte that is not written is none. -/
def Packet.wbyte (p : Packet) (i : Nat) : Option Byte :=
  if p.op = 1 then p.body[16 + i]?
  else if p.op = 2 then (if (p.num 32 8).testBit i then p.body[24 + i]? else none)
  else none

/-- The operands of an atomic: the first, and the second of a CAS. -/
def Packet.atomA (p : Packet) : Nat := p.num 32 p.size
def Packet.atomB (p : Packet) : Nat := p.num (32 + p.size) p.size

/-- The byte enables of a masked write. -/
def Packet.mask (p : Packet) : Nat := p.num 32 8

end Sys2Proof
end

