-- ==== Sys2Proof/Syntax.lean ====
section
/-! DEFINITION. The commands of the block: one constructor for each row of the table of operations
and events, in its order. The table gives a row no operands; the operands are what the outside world
brings with the event (log entry 12). -/

set_option Elab.async false

namespace Sys2Proof

/-- The commands. -/
inductive Instr where
  /-- REG_WRITE (R485) -/
  | regWrite (src : Source) (t : Bool) (addr : Nat) (data : List Byte)
  /-- TABLE_WINDOW_WRITE (R491) -/
  | tableWindowWrite (src : Source) (addr : Nat) (val : Word)
  /-- COUNTER_LO_READ (R490) -/
  | counterLoRead (src : Source) (t : Bool) (addr count : Nat)
  /-- LOCK_WRITE (R487) -/
  | lockWrite (src : Source) (addr : Nat) (val : Word)
  /-- ERR_CLEAR (R484) -/
  | errClear (src : Source) (addr : Nat) (val : Word)
  /-- TIME_NOW_READ (R28) -/
  | timeNowRead (src : Source)
  /-- TIME_SET_WRITE (R36) -/
  | timeSetWrite (src : Source) (val : Word)
  /-- TIME_SET_EFFECT (R36) -/
  | timeSetEffect
  /-- GM_CFG_WRITE (R33) -/
  | gmCfgWrite (src : Source) (val : Word)
  /-- SYNC_BEACON_SEND (R29) -/
  | syncBeaconSend (p : Nat)
  /-- SYNC_RX (R33) -/
  | syncRx (p : Nat) (pkt : Packet)
  /-- DELAY_REQ_RX (R29) -/
  | delayReqRx (p : Nat) (pkt : Packet)
  /-- DELAY_RSP_RX (R30) -/
  | delayRspRx (p : Nat) (pkt : Packet)
  /-- GPTP_MESSAGE_RX (R32) -/
  | gptpMessageRx (p : Nat) (msg : Gptp)
  /-- UPSTREAM_SILENT (R33) -/
  | upstreamSilent
  /-- LISTEN_CLAIM_TIMER_END (R33) -/
  | listenClaimTimerEnd
  /-- BACKOFF_TIMER_END (R33) -/
  | backoffTimerEnd
  /-- PPS_IN_EDGE (R34) -/
  | ppsInEdge
  /-- PPS_LOST (R34) -/
  | ppsLost
  /-- PPS_OUT_RISE (R34) -/
  | ppsOutRise
  /-- REF_LOST (R34) -/
  | refLost
  /-- TT_DATA_HI_WRITE (R42) -/
  | ttDataHiWrite (src : Source) (p : Nat) (val : Word)
  /-- TT_COMMIT (R42) -/
  | ttCommit (src : Source) (p : Nat) (val : Word)
  /-- TT_CANCEL (R43) -/
  | ttCancel (src : Source) (p : Nat) (val : Word)
  /-- TT_SWITCH (R42) -/
  | ttSwitch (p : Nat)
  /-- TT_ENTRY_BOUNDARY (R41) -/
  | ttEntryBoundary (p : Nat)
  /-- OCTET_APPLY (R51) -/
  | octetApply (src : Source) (n : Nat) (val : Word)
  /-- PORT_ENABLE (R53) -/
  | portEnable (src : Source) (p : Nat) (val : Word)
  /-- PORT_DISABLE (R53) -/
  | portDisable (src : Source) (p : Nat) (val : Word)
  /-- PORT_RETRAIN (R53) -/
  | portRetrain (src : Source) (p : Nat) (val : Word)
  /-- SIGNAL_DETECT (R53) -/
  | signalDetect (p : Nat)
  /-- SIGNAL_LOST (R53) -/
  | signalLost (p : Nat) (lane : Nat)
  /-- EQUALISATION_DONE (R53) -/
  | equalisationDone (p : Nat) (errors : List Nat) (received : Nat)
  /-- PORT_TIMER_EXPIRE (R53) -/
  | portTimerExpire (p : Nat)
  /-- PARAM_SEND (R53) -/
  | paramSend (p : Nat)
  /-- CREDIT_ADV_SEND (R53) -/
  | creditAdvSend (p : Nat)
  /-- PARAM_RX (R55) -/
  | paramRx (p : Nat) (rec : List Byte)
  /-- CREDIT_ADV_RX (R53) -/
  | creditAdvRx (p : Nat) (rec : List Byte)
  /-- RETRAIN_REQ_RX (R54) -/
  | retrainReqRx (p : Nat) (rec : List Byte)
  /-- DATA_FLIT_RX (R62) -/
  | dataFlitRx (p : Nat) (flit : List Byte)
  /-- IDLE_FLIT_RX (R57) -/
  | idleFlitRx (p : Nat) (flit : List Byte)
  /-- FLIT_TX (R59) -/
  | flitTx (p : Nat)
  /-- ETH_FRAME_RX (R70) -/
  | ethFrameRx (p : Nat) (frame : List Byte) (cut : Bool)
  /-- PFC_FRAME_RX (R72) -/
  | pfcFrameRx (p : Nat) (frame : List Byte)
  /-- PFC_PAUSE_EXPIRE (R72) -/
  | pfcPauseExpire (p : Nat) (prio : Nat)
  /-- PFC_SEND (R73) -/
  | pfcSend (p : Nat)
  /-- PFC_REFRESH (R73) -/
  | pfcRefresh (p : Nat) (tc : Nat)
  /-- PFC_WATCHDOG (R75) -/
  | pfcWatchdog (p : Nat) (tc : Nat)
  /-- CXL_TRAIN (R76) -/
  | cxlTrain (p : Nat) (result : TrainResult)
  /-- CXL_MEMDATA_RX (R76) -/
  | cxlMemdataRx (p : Nat) (tag : Nat) (data : List Byte) (poisoned : Bool) (devLoad : Nat)
  /-- CXL_DEVICE_REQUEST (R76) -/
  | cxlDeviceRequest (p : Nat)
  /-- CXL_MSI_WRITE (R79) -/
  | cxlMsiWrite (p : Nat) (addr : Nat) (data : Word)
  /-- CXL_CFG_GO (R79) -/
  | cxlCfgGo (src : Source) (p : Nat) (val : Word)
  /-- CXL_CFG_COMPLETION (R79) -/
  | cxlCfgCompletion (p : Nat) (status : CplStatus) (data : Word)
  /-- CXL_CFG_TIMEOUT (R79) -/
  | cxlCfgTimeout (p : Nat)
  /-- CXL_LINK_FATAL (R80) -/
  | cxlLinkFatal (p : Nat) (cause : CxlFatal)
  /-- HDM_ENABLE (R78) -/
  | hdmEnable (src : Source) (p : Nat) (i : Nat) (val : Word)
  /-- PACKET_RX (R84) -/
  | packetRx (p : Nat) (pkt : Packet)
  /-- EGRESS_GRANT (R101) -/
  | egressGrant (p : Nat)
  /-- PACKET_TX_DONE (R96) -/
  | packetTxDone (p : Nat)
  /-- STARVE_PROMOTE (R103) -/
  | starvePromote (p : Nat) (id : Nat)
  /-- SHAPER_CFG_WRITE (R106) -/
  | shaperCfgWrite (src : Source) (p : Nat) (i : Nat) (val : Word)
  /-- SHAPER_RESET (R106) -/
  | shaperReset (src : Source) (p : Nat) (i : Nat) (val : Word)
  /-- QUEUE_SAMPLE (R108) -/
  | queueSample (die : Nat)
  /-- MREQ_RX (R121) -/
  | mreqRx (p : Nat) (pkt : Packet)
  /-- MREQ_ISSUE (R131) -/
  | mreqIssue (id : Nat)
  /-- TARGET_RSP_RX (R124) -/
  | targetRspRx (p : Nat) (pkt : Packet)
  /-- BARN_ACCESS_DONE (R127) -/
  | barnAccessDone (tag : Nat)
  /-- RESPONSE_CELL_WAIT_END (R516) -/
  | responseCellWaitEnd
  /-- TARGET_TIMEOUT (R134) -/
  | targetTimeout (p : Nat)
  /-- TARGET_DEAD_CLEAR (R134) -/
  | targetDeadClear (src : Source) (p : Nat) (val : Word)
  /-- JOB_ACTIVATE (R135) -/
  | jobActivate (src : Source) (j : Nat)
  /-- JOB_STOP (R135) -/
  | jobStop (src : Source) (j : Nat)
  /-- JOB_RELEASE (R135) -/
  | jobRelease (src : Source) (j : Nat)
  /-- JOB_DRAINED (R135) -/
  | jobDrained (j : Nat)
  /-- JOB_INVAL (R125) -/
  | jobInval (src : Source) (j : Nat) (val : Word)
  /-- INVAL_DONE (R125) -/
  | invalDone (j : Nat)
  /-- CREQ_RX (R152) -/
  | creqRx (p : Nat) (pkt : Packet)
  /-- TRACKER_START (R153) -/
  | trackerStart (id : Nat)
  /-- SNP_RESP_RX (R154) -/
  | snpRespRx (p : Nat) (pkt : Packet)
  /-- CDAT_HOME_RX (R154) -/
  | cdatHomeRx (p : Nat) (pkt : Packet)
  /-- COMP_ACK_RX (R153) -/
  | compAckRx (p : Nat) (pkt : Packet)
  /-- SNOOP_TIMEOUT (R159) -/
  | snoopTimeout (t : Nat)
  /-- AGENT_DEAD_WRITE (R143) -/
  | agentDeadWrite (src : Source) (k : Nat) (a : Nat)
  /-- DOM_ENABLE (R160) -/
  | domEnable (src : Source) (k : Nat)
  /-- DOM_FLUSH (R160) -/
  | domFlush (src : Source) (k : Nat)
  /-- DOM_RESET (R160) -/
  | domReset (src : Source) (k : Nat)
  /-- DOM_SWEEP_DONE (R160) -/
  | domSweepDone (k : Nat)
  /-- EXT_CREATE (R172) -/
  | extCreate (src : Source)
  /-- EXT_FENCE (R172) -/
  | extFence (src : Source)
  /-- EXT_RECLAIM (R172) -/
  | extReclaim (src : Source)
  /-- LEASE_GRANT (R169) -/
  | leaseGrant (src : Source)
  /-- LEASE_RENEW (R169) -/
  | leaseRenew (src : Source)
  /-- LEASE_RELEASE (R169) -/
  | leaseRelease (src : Source)
  /-- SNAP_CREATE (R176) -/
  | snapCreate (src : Source) (recCount : Nat)
  /-- SNAP_INIT_DONE (R176) -/
  | snapInitDone (r : Nat)
  /-- SNAP_OPEN (R180) -/
  | snapOpen (src : Source)
  /-- VIEW_ATTACH (R180) -/
  | viewAttach (src : Source)
  /-- VIEW_DETACH (R180) -/
  | viewDetach (src : Source)
  /-- SNAP_CLOSE (R180) -/
  | snapClose (src : Source)
  /-- SNAP_DESTROY (R176) -/
  | snapDestroy (src : Source)
  /-- DRAIN_START (R171) -/
  | drainStart
  /-- DRAIN_END (R171) -/
  | drainEnd
  /-- LEASE_EXPIRY (R170) -/
  | leaseExpiry (k : Nat)
  /-- SNAP_SWEEP_START (R181) -/
  | snapSweepStart (r : Nat)
  /-- SNAP_SWEEP_END (R181) -/
  | snapSweepEnd (r : Nat)
  /-- TIER_ENABLE (R213) -/
  | tierEnable (src : Source)
  /-- TIER_DISABLE (R213) -/
  | tierDisable (src : Source)
  /-- TIER_STAGE (R198) -/
  | tierStage (src : Source)
  /-- TIER_STAGE_PIN (R198) -/
  | tierStagePin (src : Source)
  /-- TIER_UNPIN (R198) -/
  | tierUnpin (src : Source)
  /-- TIER_FLUSH (R198) -/
  | tierFlush (src : Source)
  /-- TIER_EVICT (R198) -/
  | tierEvict (src : Source)
  /-- TIER_DISCARD (R198) -/
  | tierDiscard (src : Source)
  /-- TIER_TRIM (R198) -/
  | tierTrim (src : Source)
  /-- TIER_CMD_DONE (R198) -/
  | tierCmdDone
  /-- FILL_DONE (R195) -/
  | fillDone (f : Nat) (sec : Nat)
  /-- WRITEBACK_DONE (R195) -/
  | writebackDone (f : Nat) (sec : Nat)
  /-- GRAN_REQ_TIMEOUT (R194) -/
  | granReqTimeout (tag : Nat)
  /-- GRAN_ENABLE (R211) -/
  | granEnable (src : Source)
  /-- GRAN_DISABLE (R211) -/
  | granDisable (src : Source)
  /-- GRAN_FORMAT (R207) -/
  | granFormat (src : Source) (bad : List Nat) (spare : Nat)
  /-- GRAN_WORK_DONE (R211) -/
  | granWorkDone (map late blks : List (Nat × Nat)) (metaFail : Bool)
  /-- NAND_READ_DONE (R208) -/
  | nandReadDone (pun : Nat) (sec : Nat) (ok : Bool) (corr : Nat) (data : List Byte) (poison : Nat)
  /-- NAND_PROGRAM_DONE (R204) -/
  | nandProgramDone (pun : Nat) (ok : Bool)
  /-- NAND_ERASE_DONE (R204) -/
  | nandEraseDone (bn : Nat) (ok : Bool)
  /-- GC_ROUND (R205) -/
  | gcRound (c : Nat)
  /-- WL_RELOCATE (R206) -/
  | wlRelocate (c : Nat)
  /-- JOURNAL_PROGRAM (R209) -/
  | journalProgram
  /-- CHECKPOINT_WRITE (R209) -/
  | checkpointWrite
  /-- GRAN_WALK_END (R212) -/
  | granWalkEnd
  /-- LEG_OPEN (R225) -/
  | legOpen (src : Source) (d : Nat) (l : Nat)
  /-- LEG_CLOSE (R225) -/
  | legClose (src : Source) (d : Nat) (l : Nat)
  /-- WQ_ENABLE (R226) -/
  | wqEnable (src : Source) (d : Nat) (q : Nat)
  /-- WQ_DISABLE (R237) -/
  | wqDisable (src : Source) (d : Nat) (q : Nat)
  /-- WQ_POST (R227) -/
  | wqPost (src : Source) (d : Nat) (q : Nat)
  /-- SO_ARM (R233) -/
  | soArm (src : Source) (d : Nat) (k : Nat)
  /-- SO_CANCEL (R233) -/
  | soCancel (src : Source) (d : Nat) (k : Nat)
  /-- LEG_OPEN_RESEND (R225) -/
  | legOpenResend (l : Nat)
  /-- LEG_RTO (R224) -/
  | legRto (l : Nat)
  /-- ACK_DELAY_EXPIRE (R224) -/
  | ackDelayExpire (l : Nat)
  /-- CARV_DATA_RX (R224) -/
  | carvDataRx (p : Nat) (pkt : Packet)
  /-- CARV_READ_REQ_RX (R229) -/
  | carvReadReqRx (p : Nat) (pkt : Packet)
  /-- CARV_READ_DATA_RX (R229) -/
  | carvReadDataRx (p : Nat) (pkt : Packet)
  /-- CARV_RESULT_RX (R229) -/
  | carvResultRx (p : Nat) (pkt : Packet)
  /-- CARV_ACK_RX (R224) -/
  | carvAckRx (p : Nat) (pkt : Packet)
  /-- CARV_NAK_RX (R224) -/
  | carvNakRx (p : Nat) (pkt : Packet)
  /-- CARV_OPEN_RX (R225) -/
  | carvOpenRx (p : Nat) (pkt : Packet)
  /-- CARV_OPEN_ACK_RX (R225) -/
  | carvOpenAckRx (p : Nat) (pkt : Packet)
  /-- CARV_CLOSE_RX (R225) -/
  | carvCloseRx (p : Nat) (pkt : Packet)
  /-- POST_WQE_RX (R227) -/
  | postWqeRx (p : Nat) (pkt : Packet)
  /-- POST_SO_RX (R233) -/
  | postSoRx (p : Nat) (pkt : Packet)
  /-- WQE_ISSUE (R228) -/
  | wqeIssue (q : Nat)
  /-- CARV_MEM_RSP (R229) -/
  | carvMemRsp (p : Nat) (pkt : Packet)
  /-- SO_ACTION (R233) -/
  | soAction (d : Nat)
  /-- DESC_WRITE (R243) -/
  | descWrite (p : Nat) (pkt : Packet)
  /-- HOST_SUBMIT (R243) -/
  | hostSubmit (src : Source) (t : Nat) (val : Word)
  /-- DESC_START (R248) -/
  | descStart (t : Nat)
  /-- TILE_FABRIC_RSP (R247) -/
  | tileFabricRsp (p : Nat) (pkt : Packet)
  /-- DESC_END (R251) -/
  | descEnd (id : Nat)
  /-- DESC_CPL_RSP (R251) -/
  | descCplRsp (p : Nat) (pkt : Packet)
  /-- HL_ASSIGN (R242) -/
  | hlAssign (src : Source) (t : Nat)
  /-- HL_ASSIGN_DONE (R242) -/
  | hlAssignDone (t : Nat)
  /-- HL_RELEASE (R242) -/
  | hlRelease (src : Source) (t : Nat)
  /-- TILE_ENABLE (R267) -/
  | tileEnable (src : Source) (t : Nat)
  /-- TILE_DISABLE (R267) -/
  | tileDisable (src : Source) (t : Nat)
  /-- SHEAF_ENABLE (R284) -/
  | sheafEnable (src : Source) (d : Nat) (k : Nat)
  /-- SHEAF_DISABLE (R284) -/
  | sheafDisable (src : Source) (d : Nat) (k : Nat)
  /-- SHEAF_ABORT_CMD (R284) -/
  | sheafAbortCmd (src : Source) (d : Nat) (k : Nat)
  /-- SHEAF_RESET (R284) -/
  | sheafReset (src : Source) (d : Nat) (k : Nat)
  /-- SHEAF_UP_RX (R282) -/
  | sheafUpRx (p : Nat) (pkt : Packet)
  /-- SHEAF_DOWN_RX (R281) -/
  | sheafDownRx (p : Nat) (pkt : Packet)
  /-- SHEAF_ABORT_RX (R294) -/
  | sheafAbortRx (p : Nat) (pkt : Packet)
  /-- SHEAF_PHASE_TIMEOUT (R293) -/
  | sheafPhaseTimeout (k : Nat)
  /-- SHEAF_LINK_LOSS (R293) -/
  | sheafLinkLoss (p : Nat)
  /-- CTR_VALUE_WRITE (R288) -/
  | ctrValueWrite (src : Source) (c : Nat) (val : Word)
  /-- CTR_THRESH_WRITE (R287) -/
  | ctrThreshWrite (src : Source) (c : Nat) (val : Word)
  /-- CTR_ADD (R288) -/
  | ctrAdd (src : Source) (c : Nat) (val : Word)
  /-- CTR_CFG_WRITE (R288) -/
  | ctrCfgWrite (src : Source) (c : Nat) (val : Word)
  /-- CTR_EVENT_READ (R288) -/
  | ctrEventRead (src : Source) (d : Nat)
  /-- KV_POOL_ENABLE (R335) -/
  | kvPoolEnable (src : Source) (p : Nat)
  /-- KV_POOL_DISABLE (R335) -/
  | kvPoolDisable (src : Source) (p : Nat)
  /-- KV_POOL_RESET (R335) -/
  | kvPoolReset (src : Source) (p : Nat)
  /-- KV_POOL_INIT_DONE (R335) -/
  | kvPoolInitDone (p : Nat)
  /-- KV_SEQ_CREATE (R348) -/
  | kvSeqCreate (src : Source) (q : Nat)
  /-- KV_SEQ_DESTROY (R348) -/
  | kvSeqDestroy (src : Source) (q : Nat)
  /-- KV_SEQ_PREEMPT (R346) -/
  | kvSeqPreempt (src : Source) (q : Nat)
  /-- KV_SEQ_RESUME (R346) -/
  | kvSeqResume (src : Source) (q : Nat)
  /-- KV_SEQ_WORK_DONE (R348) -/
  | kvSeqWorkDone (q : Nat)
  /-- KV_APPEND (R339) -/
  | kvAppend (id : Nat)
  /-- KV_FORK (R342) -/
  | kvFork (id : Nat)
  /-- KV_CLEAR (R343) -/
  | kvClear (id : Nat)
  /-- KV_EPOCH_FLIP (R344) -/
  | kvEpochFlip
  /-- KV_EPOCH_END (R344) -/
  | kvEpochEnd
  /-- KV_AUTO_PREEMPT (R347) -/
  | kvAutoPreempt (p : Nat)
  /-- EXD_ENABLE (R365) -/
  | exdEnable (src : Source) (l : Nat)
  /-- EXD_DISABLE (R365) -/
  | exdDisable (src : Source) (l : Nat)
  /-- EXPERT_SYNC (R367) -/
  | expertSync (src : Source) (l : Nat)
  /-- TOKEN_WRITE (R368) -/
  | tokenWrite (p : Nat) (pkt : Packet)
  /-- TOKEN_DECIDE (R370) -/
  | tokenDecide (d : Nat)
  /-- EXD_WRITE_RSP (R371) -/
  | exdWriteRsp (p : Nat) (pkt : Packet)
  /-- EXPERT_OUTPUT_WRITE (R373) -/
  | expertOutputWrite (p : Nat) (pkt : Packet)
  /-- CMB_TIMEOUT (R374) -/
  | cmbTimeout (l e : Nat)
  /-- CMB_COMBINE (R375) -/
  | cmbCombine (l e : Nat)
  /-- CMB_QUAR_END (R374) -/
  | cmbQuarEnd (l e : Nat)
  /-- MODE_SEALED (R390) -/
  | modeSealed (src : Source)
  /-- MODE_SHARED (R390) -/
  | modeShared (src : Source)
  /-- SCRUB_DONE (R390) -/
  | scrubDone
  /-- DBG_APPLY (R405) -/
  | dbgApply (src : Source)
  /-- DBG_END (R405) -/
  | dbgEnd (src : Source)
  /-- DBG_EPOCH_ADVANCE (R405) -/
  | dbgEpochAdvance (src : Source)
  /-- PROVISION_BURN (R386) -/
  | provisionBurn (src : Source) (val : Word)
  /-- FUSE_PROGRAM_DONE (R386) -/
  | fuseProgramDone (ok : Bool)
  /-- IMAGE_LOAD (R388) -/
  | imageLoad (a b : List Byte) (fuseOk : Bool)
  /-- GET_VERSION (R391) -/
  | getVersion
  /-- GET_CAPABILITIES (R391) -/
  | getCapabilities
  /-- NEGOTIATE_ALGORITHMS (R391) -/
  | negotiateAlgorithms
  /-- GET_DIGESTS (R391) -/
  | getDigests
  /-- GET_CERTIFICATE (R391) -/
  | getCertificate
  /-- CHALLENGE (R391) -/
  | challenge
  /-- GET_MEASUREMENTS (R392) -/
  | getMeasurements (index : Nat)
  /-- KEY_EXCHANGE (R391) -/
  | keyExchange
  /-- FINISH (R393) -/
  | finish (sid : Nat) (root : Option Nat)
  /-- KEY_UPDATE (R391) -/
  | keyUpdate (sid : Nat)
  /-- HEARTBEAT (R391) -/
  | heartbeat (sid : Nat)
  /-- END_SESSION (R391) -/
  | endSession (sid : Nat)
  /-- KEY_LOAD (R394) -/
  | keyLoad (sid group key : Nat)
  /-- KEY_BIND (R394) -/
  | keyBind (sid group fjid digest proof : Nat)
  /-- KEY_UNBIND (R394) -/
  | keyUnbind (sid group fjid proof : Nat)
  /-- KEY_CLEAR (R395) -/
  | keyClear (sid group proof : Nat)
  /-- LINK_KEY (R394) -/
  | linkKey (sid port tx rx : Nat)
  /-- IDE_KM_QUERY (R403) -/
  | ideKmQuery (sid : Nat)
  /-- IDE_KM_KEY_PROG (R403) -/
  | ideKmKeyProg (sid stream set dir sub key : Nat)
  /-- IDE_KM_K_SET_GO (R403) -/
  | ideKmKSetGo (sid stream set dir sub : Nat)
  /-- IDE_KM_K_SET_STOP (R403) -/
  | ideKmKSetStop (sid stream set dir sub : Nat)
  /-- LOCK_INTERFACE (R403) -/
  | lockInterface (sid vf : Nat)
  /-- GET_DEVICE_INTERFACE_REPORT (R403) -/
  | getDeviceInterfaceReport (sid vf : Nat)
  /-- GET_DEVICE_INTERFACE_STATE (R403) -/
  | getDeviceInterfaceState (sid vf : Nat)
  /-- START_INTERFACE (R403) -/
  | startInterface (sid vf nonce : Nat)
  /-- STOP_INTERFACE (R403) -/
  | stopInterface (sid vf : Nat)
  /-- JTAG_IDCODE (R404) -/
  | jtagIdcode
  /-- JTAG_BYPASS (R404) -/
  | jtagBypass
  /-- JTAG_DBG_TOKEN (R405) -/
  | jtagDbgToken (token : List Byte)
  /-- JTAG_SAMPLE_PRELOAD (R404) -/
  | jtagSamplePreload
  /-- JTAG_EXTEST (R404) -/
  | jtagExtest
  /-- JTAG_EXTEST_PULSE (R404) -/
  | jtagExtestPulse
  /-- JTAG_EXTEST_TRAIN (R404) -/
  | jtagExtestTrain
  /-- JTAG_INTERNAL_SCAN (R404) -/
  | jtagInternalScan
  /-- BARN_WINDOW_READ (R497) -/
  | barnWindowRead (addr n : Nat)
  /-- BARN_WINDOW_WRITE (R497) -/
  | barnWindowWrite (addr : Nat) (data : List Byte)
  /-- BWIN_READ (R498) -/
  | bwinRead (src : Source) (val : Word)
  /-- BWIN_WRITE (R498) -/
  | bwinWrite (src : Source) (val : Word)
  /-- SAVE_RD_DATA_READ (R453) -/
  | saveRdDataRead (src : Source)
  /-- VF_SUBMIT (R415) -/
  | vfSubmit (f : Nat) (t : Bool) (val : Word)
  /-- VF_CTR_ADD (R415) -/
  | vfCtrAdd (f : Nat) (t : Bool) (val : Word)
  /-- CONFIG_WRITE (R411) -/
  | configWrite (f : Nat) (w : CfgWrite)
  /-- BME_CLEAR (R423) -/
  | bmeClear (f : Nat)
  /-- VF_FLR (R425) -/
  | vfFlr (f : Nat)
  /-- PF_FLR (R425) -/
  | pfFlr
  /-- HOST_PORT_RESET (R439) -/
  | hostPortReset
  /-- HOST_REQUEST (R419) -/
  | hostRequest (p : Nat) (pkt : Packet)
  /-- HOST_COMPLETION (R421) -/
  | hostCompletion (tag : Nat) (status : CplStatus) (data : List Byte) (poison : Bool)
  /-- HOST_CPL_TIMEOUT (R421) -/
  | hostCplTimeout (tag : Nat)
  /-- CHAIN_ENABLE (R427) -/
  | chainEnable (src : Source)
  /-- CHAIN_DISABLE (R427) -/
  | chainDisable (src : Source)
  /-- CHAIN_RESTART (R427) -/
  | chainRestart (src : Source)
  /-- CHAIN_CLAIM_RX (R427) -/
  | chainClaimRx (portB : Bool) (frame : List Byte)
  /-- CHAIN_BEACON_RX (R427) -/
  | chainBeaconRx (portB : Bool) (frame : List Byte)
  /-- CHAIN_ENUM_RX (R428) -/
  | chainEnumRx (portB : Bool) (frame : List Byte)
  /-- CHAIN_ENUM_END_RX (R428) -/
  | chainEnumEndRx (portB : Bool) (frame : List Byte)
  /-- CHAIN_READ_RX (R429) -/
  | chainReadRx (portB ring : Bool) (frame : List Byte)
  /-- CHAIN_WRITE_RX (R429) -/
  | chainWriteRx (portB ring : Bool) (frame : List Byte)
  /-- CHAIN_READ_RSP_RX (R429) -/
  | chainReadRspRx (portB : Bool) (frame : List Byte)
  /-- CHAIN_WRITE_RSP_RX (R429) -/
  | chainWriteRspRx (portB : Bool) (frame : List Byte)
  /-- CHAIN_EVENT_RX (R430) -/
  | chainEventRx (portB : Bool) (frame : List Byte)
  /-- CHAIN_WINDOW_READ (R429) -/
  | chainWindowRead (off count : Nat)
  /-- CHAIN_WINDOW_WRITE (R429) -/
  | chainWindowWrite (off : Nat) (data : List Byte)
  /-- CHAIN_RSP_TIMEOUT (R429) -/
  | chainRspTimeout (tag : Nat)
  /-- CHAIN_LISTEN_TIMER (R427) -/
  | chainListenTimer
  /-- CHAIN_CLAIM_TIMER (R427) -/
  | chainClaimTimer
  /-- CHAIN_BACKOFF_TIMER (R427) -/
  | chainBackoffTimer
  /-- CHAIN_ENUM_TIMEOUT (R427) -/
  | chainEnumTimeout
  /-- CHAIN_BEACON_SEND (R427) -/
  | chainBeaconSend
  /-- CHAIN_BEACON_LOSS (R427) -/
  | chainBeaconLoss
  /-- CHAIN_RING_BROKEN (R430) -/
  | chainRingBroken
  /-- CHAIN_HOST_LOSS (R427) -/
  | chainHostLoss
  /-- CHAIN_PORT_DOWN (R430) -/
  | chainPortDown (portB : Bool)
  /-- CHAIN_PORT_RESTORE (R430) -/
  | chainPortRestore (portB : Bool)
  /-- DOMAIN_OFF (R436) -/
  | domainOff (src : Source) (d : Nat)
  /-- DOMAIN_ON (R436) -/
  | domainOn (src : Source) (d : Nat)
  /-- DOMAIN_ON_DONE (R436) -/
  | domainOnDone
  /-- WARM_RESET (R439) -/
  | warmReset (src : Source)
  /-- COLD_RESET (R439) -/
  | coldReset (src : Source) (bad : List Nat)
  /-- RST_N_ASSERT (R439) -/
  | rstNAssert (bad : List Nat)
  /-- SUPPLY_RISE (R506) -/
  | supplyRise (bad : List Nat)
  /-- STARTUP_DONE (R438) -/
  | startupDone
  /-- CREFCLK_LOST (R438) -/
  | crefclkLost
  /-- PWR_FAIL_ASSERT (R444) -/
  | pwrFailAssert
  /-- SAVE_WRITE_DONE (R446) -/
  | saveWriteDone (ok : Bool)
  /-- PWR_FAIL_RELEASE (R441) -/
  | pwrFailRelease (bad : List Nat)
  /-- VHOLD_SAMPLE (R442) -/
  | vholdSample (mv : Nat)
  /-- VHOLD_LOW (R442) -/
  | vholdLow
  /-- BROWN_OUT (R507) -/
  | brownOut (fed low : Bool)
  /-- THERM_TRIP (R513) -/
  | thermTrip
  /-- FENCE_LOGICAL (R466) -/
  | fenceLogical (src : Source) (g : Nat)
  /-- FENCE_ELECTRICAL (R465) -/
  | fenceElectrical (src : Source) (g : Nat)
  /-- FENCE_RELEASE (R466) -/
  | fenceRelease (src : Source) (g : Nat)
  /-- FENCE_NOTICE_RX (R462) -/
  | fenceNoticeRx (p : Nat) (pkt : Packet)
  /-- AUDIT_EPOCH (R469) -/
  | auditEpoch
  /-- AUDIT_COMPLETE (R470) -/
  | auditComplete (broken : List (Nat × Nat × Nat × Nat))
  /-- GCTR_SEL_WRITE (R473) -/
  | gctrSelWrite (src : Source) (i : Nat) (val : Word)
  /-- WP_CTRL_WRITE (R479) -/
  | wpCtrlWrite (src : Source) (w : Nat) (val : Word)
  /-- TRACE_UNFREEZE (R476) -/
  | traceUnfreeze (src : Source) (val : Word)
  /-- KV_WALK_END (R358) -/
  | kvWalkEnd
  /-- RST_N_RELEASE (R506) -/
  | rstNRelease
  /-- HOST_LINK_UP (R411) -/
  | hostLinkUp
  /-- GPTP_MESSAGE_SEND (R32) -/
  | gptpMessageSend (p : Nat)
  deriving DecidableEq, Repr

end Sys2Proof
end

