-- ==== Sys2Proof/Machine/State.lean ====
section
/-! DEFINITION. The state of the block: plain data, one structure per unit, and the state right
after a cold reset, before start-up. What a key of a table that is not listed reads as is the
type's default, and every default is the reset value of the entry it stands for. -/

set_option Elab.async false

namespace Sys2Proof.Machine

/-! ### Hub: registers and staging (R483 to R494) -/

/-- Registers that hold software-visible dwords, 64-bit counters, table windows and staging. -/
structure Hub where
  /-- Registers by address; `none` is the reset value of the register. -/
  regs : Tbl (Option Word) := []
  /-- 64-bit counters by the address of their LO dword. -/
  cnts : Tbl (BitVec 64) := []
  /-- RW table windows (Table 19-7), dwords by address. -/
  tabs : Tbl Word := []
  /-- Dwords whose copy on a die is at its reset value, though the other die's copy is not: 2 × address + die
  (R494). -/
  blank : Tbl Bool := []
  /-- Staged LO words of RW pairs, by source and address (R490). -/
  stageLo : Tbl (Option Word) := []
  /-- Latched HI words of RO pairs, by source and address (R490). -/
  latchHi : Tbl (Option Word) := []
  /-- Table staging by source (R491): address of the entry and its staged dwords. -/
  stageTab : Tbl (Option (Nat × List (Nat × Word))) := []
  /-- A register write has been refused since the configuration loader began its present write (R388). -/
  refused : Bool := false
  deriving DecidableEq, Repr, Inhabited

/-! ### Fabric time (chapter 2) -/

/-- States of the grandmaster election (Table 2-4). -/
inductive GmState where
  | listen | claim | gm | follow | backoff
  deriving DecidableEq, Repr, Inhabited

/-- The time unit's view of one port. Times are in 2^-16 ns. -/
structure PortTime where
  lastSync : Option Nat := none
  lastReq : Option Nat := none
  lastRsp : Option Nat := none
  seqSync : Nat := 0
  seqReq : Nat := 0
  t1 : Option Nat := none
  t2 : Option Nat := none
  t3 : Option Nat := none
  delay : Option Int := none
  /-- Time from this port is ignored until reset (SERIAL_DUP). -/
  ignored : Bool := false
  /-- gPTP: the receive time of a two-step Sync, and of a peer delay request and response. -/
  gSync : Option Nat := none
  gReq : Option Nat := none
  gResp : Option (Nat × Nat) := none
  deriving DecidableEq, Repr, Inhabited

/-- A port's timetable (R40 to R43). -/
structure Timetable where
  oper : List (BitVec 64) := []
  cycle : Nat := 0
  base : Nat := 0
  idx : Nat := 0
  shadow : Tbl (BitVec 64) := []
  /-- The pending switch time T. -/
  pend : Option Nat := none
  /-- When the entry `idx` ends. -/
  ends : Nat := 0
  /-- Fabric time has stepped: entry `idx` stays in force until `ends` (R37); its window counts as missed
  already. -/
  held : Bool := false
  judged : Bool := false
  deriving DecidableEq, Repr, Inhabited

structure TimeUnit where
  /-- Fabric time in units of 2^-32 ns (R25, R26). -/
  now : BitVec 96 := 0
  /-- The pending set: value in ns and the time at which it is due (R36). -/
  set : Option (Nat × Nat) := none
  gm : GmState := .listen
  /-- Best grandmaster pair recorded since LISTEN was last entered. -/
  best : Option (Nat × Nat) := none
  upstream : Nat := 0
  steps : Nat := 0
  holdover : Bool := false
  locked : Bool := false
  /-- Consecutive intervals with a small offset (R31). -/
  good : Nat := 0
  refLost : Bool := false
  ppsLost : Bool := false
  /-- PPS_OUT is high until this time in ns. -/
  ppsOut : Option Nat := none
  /-- The whole second at which PPS_OUT rose last. -/
  ppsSec : Nat := 0
  ports : Tbl PortTime := []
  tt : Tbl Timetable := []
  deriving DecidableEq, Repr, Inhabited

/-! ### Lanes, ports and framing (chapter 3) -/

/-- States of a port (Table 3-3), in the order of PORT_STATUS.STATE. -/
inductive LinkState where
  | off | detect | equalise | param | credit | active | retrain | fenced
  deriving DecidableEq, Repr, Inhabited

/-- A packet being sent: 16-byte slots in order, with the mark of a packet's first slot. -/
structure Slot where
  first : Bool := false
  data : List Byte := []
  deriving DecidableEq, Repr, Inhabited

/-- A transmitted flit kept for replay (R63). -/
structure Kept where
  seq : Nat := 0
  bytes : List Byte := []
  deriving DecidableEq, Repr, Inhabited

/-- PFC state of one traffic class or priority (R72 to R75). -/
structure PfcState where
  /-- Pause in force on this priority (Ikion paused by the partner). -/
  paused : Bool := false
  /-- The partner is paused by the Ikion on this priority. -/
  sent : Bool := false
  deriving DecidableEq, Repr, Inhabited

/-- A packet granted and not yet done: its buffer id, its length, traffic class and queue. -/
structure Sending where
  id : Nat := 0
  len : Nat := 0
  tc : Nat := 0
  ctl : Bool := false
  cls : Nat := 0
  sid : Nat := 0
  deriving DecidableEq, Repr, Inhabited

/-- One port. -/
structure Port where
  st : LinkState := .off
  halt : Bool := false
  /-- FEC in force: 0 none, 1 low-latency, 2 RS(544,514). -/
  fec : Nat := 0
  /-- DATA flits sent and accepted since the entry to ACTIVE; the low 12 bits are the sequence
  number of the next flit (R53, R400). -/
  txS : Nat := 0
  rxS : Nat := 0
  /-- A gap is open: DATA flits are discarded until the expected one arrives (R63). -/
  gap : Bool := false
  /-- A DATA flit has been accepted, so there is an ACK to carry. -/
  acked : Bool := false
  /-- When the NAK of the open gap was last sent (R63). -/
  nakAt : Option Nat := none
  replay : List Kept := []
  /-- Flits still to be resent after a NAK or a retrain. -/
  resend : List Kept := []
  /-- The last NAK received and how often it came in a row (R54). -/
  nakSeq : Nat := 0
  nakRun : Nat := 0
  /-- Advertisement recorded from the partner: RSV per class and SHARED. -/
  adv : Option (List Nat × Nat) := none
  seen : Bool := false
  /-- Own reservations and shared cells, read at the entry to CREDIT (R66). -/
  rsv : List Nat := []
  shared : Nat := 0
  /-- The partner's reservations and shared cells, loaded at the entry to ACTIVE. -/
  prsv : List Nat := []
  pshared : Nat := 0
  /-- Cells sent per class and not yet returned. -/
  outc : Tbl Nat := []
  /-- Cells of each class (Avber) or traffic class (Ethernet) held by packets of this port. -/
  occ : Tbl Nat := []
  /-- Freed cells not yet returned, oldest first (R59). -/
  waiting : List (Nat × Nat) := []
  /-- The packet in progress: bytes so far and slots owed (R62). -/
  rx : Option (List Byte × Nat) := none
  resync : Bool := false
  /-- Received packets waiting for lookup, with the id of their cells. -/
  inbox : List (Nat × Packet) := []
  /-- Counts the exits from ACTIVE and RETRAIN; cells taken before one return no credits. -/
  epoch : Nat := 0
  /-- Slots granted and not yet sent. -/
  tx : List Slot := []
  /-- Packets being sent, oldest first. -/
  sending : List Sending := []
  pfc : Tbl PfcState := []
  /-- Traffic classes in which pauses are ignored, and until when (R75). -/
  wdIgnore : List (Nat × Nat) := []
  /-- CXL.mem requests outstanding, by tag. -/
  cxlOut : List Nat := []
  /-- An access-window request is outstanding. -/
  cxlCfg : Bool := false
  /-- The unused link key pair stored for the port, TX and RX, and the pair in use (R400). -/
  linkKey : Option (Nat × Nat) := none
  keyUsed : Option (Nat × Nat) := none
  deriving DecidableEq, Repr, Inhabited

structure LinkUnit where
  ports : Tbl Port := []
  /-- The applied layout of an octet: mode and LAYOUT; `none` is the reset layout. -/
  layout : Tbl (Option (Nat × Nat)) := []
  deriving DecidableEq, Repr, Inhabited

/-! ### The switch (chapter 4) -/

/-- Where a buffered packet came from: a port, or one of the Ikion's own units. -/
inductive Ingress where
  | port (p : Nat)
  | own (die : Nat)
  deriving DecidableEq, Repr, Inhabited

/-- What is buffered: an Avber packet or an Ethernet frame. -/
inductive Load where
  | pkt (p : Packet)
  | frame (bytes : List Byte)
  deriving DecidableEq, Repr, Inhabited

/-- A packet in the buffer of a die (R96): its cells, and how many copies are pending. -/
structure Stored where
  from_ : Ingress := .own 0
  die : Nat := 0
  cls : Nat := 0
  cells : Nat := 0
  copies : Nat := 0
  epoch : Nat := 0
  deriving DecidableEq, Repr, Inhabited

/-- A packet waiting in a virtual output queue or in a control queue (R100). Items of one queue
stand in order of arrival. -/
structure Queued where
  id : Nat := 0
  egress : Nat := 0
  ctl : Bool := false
  cls : Nat := 0
  tc : Nat := 0
  load : Load := .frame []
  /-- Fabric time in ns at which it arrived, and at which it became an eligible head. -/
  at_ : Nat := 0
  urgent : Bool := false
  /-- The sheaf of this node that sent it (R286). -/
  sheaf : Option Nat := none
  deriving DecidableEq, Repr, Inhabited

/-- A token bucket that has left its reset state (R105). The balance is in 1/128 bytes. -/
structure Shaper where
  bal : Int := 0
  /-- Sums since the last audit snapshot, in 1/128 bytes (R107). -/
  start : Int := 0
  earned : Nat := 0
  spent : Nat := 0
  clipped : Nat := 0
  dreset : Int := 0
  deriving DecidableEq, Repr, Inhabited

/-- A flowlet entry (R94). -/
structure Flowlet where
  group : Nat := 0
  member : Nat := 0
  at_ : Nat := 0
  deriving DecidableEq, Repr, Inhabited

structure SwitchUnit where
  /-- Buffered packets by id. -/
  stored : Tbl Stored := []
  /-- Packets delivered to the Ikion's own units and not yet consumed: id, port, packet. -/
  local_ : List (Nat × Ingress × Packet) := []
  queues : List Queued := []
  /-- Packets of own units that wait for engine cells, oldest first: die, egress port if it is fixed,
  sheaf if one sent it, packet (R98). -/
  stalled : List (Nat × Option Nat × Option Nat × Packet) := []
  /-- Free cells and cells held by own units, by die, counted down from the reset value. -/
  held : Tbl Nat := []
  engine : Tbl Nat := []
  flowlets : Tbl (Option Flowlet) := []
  /-- Shapers by 16 × port + s; `none` is the reset state (balance BURST × 256). -/
  shapers : Tbl (Option Shaper) := []
  /-- DWRR deficit by 8 × port + tc, the class visited last by port, and the age pointer. -/
  deficit : Tbl Nat := []
  rr : Tbl Nat := []
  rot : Tbl Nat := []
  /-- Longest wait granted since the last sample, by 8 × port + tc. -/
  maxDelay : Tbl Nat := []
  deriving DecidableEq, Repr, Inhabited

/-! ### Faults, audits and observation (chapter 18) -/

/-- State of a fence group (Table 18-3). -/
inductive FenceState where
  | open_ | logical | electrical
  deriving DecidableEq, Repr, Inhabited

/-- One entry of the audit log (Table 18-7). -/
structure LogEntry where
  time : Nat := 0
  seq : Nat := 0
  kind : Nat := 0
  page : Nat := 0
  a : Nat := 0
  b : Nat := 0
  c : Nat := 0
  deriving DecidableEq, Repr, Inhabited

structure FaultUnit where
  devFatal : Bool := false
  groups : Tbl FenceState := []
  /-- Next event sequence number; a record was dropped since the last one written. -/
  evSeq : Nat := 0
  lost : Bool := false
  /-- FAULT_EVENT copies sent in the current millisecond: the millisecond and two counts. -/
  evMs : Nat := 0
  evSent0 : Nat := 0
  evSent1 : Nat := 0
  /-- An audit is running; the mismatches its snapshot shows: audit ID, instance, value due and found. -/
  running : Bool := false
  found : List (Nat × Nat × Nat × Nat) := []
  logSeq : Nat := 0
  /-- When the last audit boundary was judged (ns of fabric time). -/
  auditAt : Nat := 0
  /-- Units that a tally audit has stopped, by 2 × audit ID + die (Table 18-6). -/
  stop : Tbl Bool := []
  /-- Ring slot of the audit log to its entry. -/
  log : Tbl LogEntry := []
  deriving DecidableEq, Repr, Inhabited

structure ObsUnit where
  frozen : Bool := false
  /-- Eligible packets seen per class by the packet trace source. -/
  seen : Tbl Nat := []
  deriving DecidableEq, Repr, Inhabited

/-! ### Memory -/

/-- The barn: bytes by address, and the poison mark of each 64-byte line (R137). A byte that is not
listed reads as the background: 0 after the first reset and after a scrub (log entry 1), an open value
once contents have become undefined (`bg` names it). -/
structure MemUnit where
  barn : Tbl (Option Byte) := []
  bg : Option Nat := none
  poison : Tbl Bool := []
  deriving DecidableEq, Repr, Inhabited

/-! ### Extents, leases and snapshots (chapter 7) -/

/-- Extent states (Table 7-1), in the order of STATE. -/
inductive ExtSt where
  | free | owned | fencing | fenced
  deriving DecidableEq, Repr, Inhabited

/-- An extent entry (Table 7-1). -/
structure Extent where
  st : ExtSt := .free
  handover : Bool := false
  owner : Nat := 0
  next : Nat := 0
  base : Nat := 0
  size : Nat := 0
  epoch : Nat := 0
  leases : Nat := 0
  regions : Nat := 0
  fenceTime : Nat := 0
  deriving DecidableEq, Repr, Inhabited

/-- A lease record (Table 7-3). -/
structure Lease where
  valid : Bool := false
  rw : Bool := false
  expired : Bool := false
  holder : Nat := 0
  ext : Nat := 0
  epoch : Nat := 0
  expiry : Nat := 0
  granted : Nat := 0
  deriving DecidableEq, Repr, Inhabited

/-- Region states (Table 7-6). -/
inductive RegionSt where
  | free | init | ready | destroying
  deriving DecidableEq, Repr, Inhabited

/-- A snapshot region (Table 7-6). Version slots, block heads and records lie in the barn (R175). -/
structure Region where
  st : RegionSt := .free
  view : Bool := false
  ext : Nat := 0
  spare : Nat := 0
  baseRegion : Nat := 0
  shift : Nat := 0
  live : Nat := 0
  views : Nat := 0
  head : Nat := 0
  newest : Nat := 0
  floor : Nat := 0
  viewVer : Nat := 0
  mapBase : Nat := 0
  recBase : Nat := 0
  recCount : Nat := 0
  recFree : Nat := 0
  freeHead : Nat := 0
  /-- SNAP_TALLY was raised: every request fails with STALE (R183). -/
  bad : Bool := false
  /-- Slots that entered RECLAIMING and wait for a sweep; when the first entered; slots of the
  sweep in progress (R181). -/
  waiting : List Nat := []
  since : Nat := 0
  sweeping : Option (List Nat) := none
  deriving DecidableEq, Repr, Inhabited

/-- What a drain completes (R171). -/
inductive DrainItem where
  | fence (e : Nat)
  | open_ (r slot : Nat)
  | close (r slot : Nat)
  | destroy (r : Nat)
  deriving DecidableEq, Repr, Inhabited

structure ExtUnit where
  exts : Tbl Extent := []
  leases : Tbl Lease := []
  regions : Tbl Region := []
  /-- The drain generation, items waiting for the next drain, and those of the drain that runs. -/
  g : Bool := false
  pend : List DrainItem := []
  drain : Option (List DrainItem) := none
  deriving DecidableEq, Repr, Inhabited

/-! ### Tiers (chapter 8) -/

/-- Sector states (Table 8-1), in order. -/
inductive Sector where
  | invalid | filling | clean | dirty | writing
  deriving DecidableEq, Repr, Inhabited

/-- A frame of the tier cache (Table 8-1). -/
structure Frame where
  valid : Bool := false
  pin : Bool := false
  stuck : Bool := false
  gran : Bool := false
  range : Nat := 0
  unit : Nat := 0
  sect : Tbl Sector := []
  lastUse : Nat := 0
  /-- The frame is to be freed once its writebacks end. -/
  evict : Bool := false
  deriving DecidableEq, Repr, Inhabited

/-- Granary states (Table 8-10), in the order of STATUS.STATE. -/
inductive GranSt where
  | off | formatting | restoring | ready | readOnly | failed
  deriving DecidableEq, Repr, Inhabited

/-- A unit program in progress or waiting for a place: the frame it writes back, or the unit it
relocates; `pun` is none while no block is open. -/
structure Prog where
  lu : Nat := 0
  pun : Option Nat := none
  frame : Option Nat := none
  old : Option Nat := none
  data : List Byte := []
  poison : Nat := 0
  deriving DecidableEq, Repr, Inhabited

/-- A sector read in progress: for a frame, or for a relocation; `level` is the retry level. -/
structure NandRead where
  lu : Nat := 0
  pun : Nat := 0
  sec : Nat := 0
  frame : Option Nat := none
  level : Nat := 0
  deriving DecidableEq, Repr, Inhabited

/-- A unit being relocated: its sectors read so far. -/
structure Reloc where
  lu : Nat := 0
  pun : Nat := 0
  got : Tbl (Option (List Byte)) := []
  poison : Nat := 0
  deriving DecidableEq, Repr, Inhabited

/-- The granary (R200 to R214). The map and the block table lie in the barn. -/
structure GranUnit where
  st : GranSt := .off
  /-- Open blocks by 2 × (16 × die + channel) + (0 host, 1 relocation): block + 1 and next unit. -/
  opens : Tbl (Nat × Nat) := []
  rot : Tbl Nat := []
  seq : Nat := 0
  progs : List Prog := []
  reads : List NandRead := []
  relocs : List Reloc := []
  /-- Blocks to erase, and whether the erase has been issued. -/
  erases : List (Nat × Bool) := []
  /-- Journal records that wait, with the time of the oldest; pages since the checkpoint. -/
  journal : List (Nat × Nat) := []
  jtime : Nat := 0
  jpages : Nat := 0
  /-- A full scan is needed at the next restore. -/
  scan : Bool := false
  /-- Blocks being emptied for an erase, and channels on which garbage collection runs (R205). -/
  emptying : List Nat := []
  gc : Tbl Bool := []
  deriving DecidableEq, Repr, Inhabited

/-- A tier command in progress (R198). -/
structure TierCmd where
  op : Nat := 0
  entry : Nat := 0
  first : Nat := 0
  units : Nat := 0
  next : Nat := 0
  result : Nat := 0
  deriving DecidableEq, Repr, Inhabited

structure TierUnit where
  frames : Tbl Frame := []
  gran : GranUnit := {}
  cmd : Option TierCmd := none
  deriving DecidableEq, Repr, Inhabited

/-! ### Target translation units and jobs (chapter 5) -/

/-- JOB[s].STATUS.STATE (Table 5-11). -/
inductive JobSt where
  | free | active | draining | drained
  deriving DecidableEq, Repr, Inhabited

/-- Which own unit issued a fabric request (R130), with what its response belongs to. -/
inductive Owner where
  | none_
  /-- The caravan engine: leg, message slot, message name, offset, length. -/
  | carvSrc (leg msg uid off len : Nat)
  | carvRead (leg msg uid off len : Nat)
  | carvDst (leg msg uid off len : Nat)
  | carvLoc (leg msg uid off len : Nat)
  /-- The read of a payload that is resent: leg, sequence, run of resends. -/
  | carvAgain (leg seq run : Nat)
  | carvCqe (q : Nat)
  /-- An access of a run: run, step and number of the access; the write of a completion record: tile, slot,
  FJID, counter. -/
  | tile (run step idx : Nat)
  | tileCpl (tile slot fjid : Nat) (ctr : Option Nat)
  /-- A copy of a token, by name; the result of a combine entry: layer, entry, name (chapter 14). -/
  | exdCopy (id : Nat)
  | exdRes (layer ent uid : Nat)
  deriving DecidableEq, Repr, Inhabited

/-- A fabric request of an own unit that waits for its tag (R131). -/
structure UnitReq where
  id : Nat := 0
  die : Nat := 0
  slot : Option Nat := none
  owner : Owner := .none_
  pkt : Packet := default
  deriving DecidableEq, Repr, Inhabited

/-- A transaction tag that is not free (R130). -/
structure Tag where
  quar : Bool := false
  /-- Target port; 512 is the barn, 513 the fabric (a request of an own unit), 514 the host. -/
  target : Nat := 512
  /-- The request and the part that hold it; a request of an own unit has its owner instead. -/
  req : Nat := 0
  part : Nat := 0
  owner : Owner := .none_
  /-- The job slot it counts in, and the tier engine's count. -/
  slot : Option Nat := none
  tier : Bool := false
  /-- The drain generation it counts in (R171). -/
  gen : Option Bool := none
  /-- Fabric time in ns of the issue. -/
  at_ : Nat := 0
  /-- The target's port has left ACTIVE and RETRAIN since the issue (R134). -/
  left : Bool := false
  deriving DecidableEq, Repr, Inhabited

/-- A run of a request's bytes: offset in the request, length, PPA, and the extent. -/
structure Seg where
  off : Nat := 0
  len : Nat := 0
  ppa : Nat := 0
  ext : Nat := 0
  /-- It reads as poisoned: a head or record of its snapshot block cannot be read (Table 7-11). -/
  bad : Bool := false
  deriving DecidableEq, Repr, Inhabited

/-- Where a part of a request is served (R124, Table 8-2). -/
inductive Target where
  /-- In a frame of the tier cache. -/
  | tier
  /-- In a frame, and written through to a target afterwards (READ_ALLOC). -/
  | thru (p : Nat) (cxl : Bool)
  | avber (p : Nat)
  | cxl (p : Nat)
  deriving DecidableEq, Repr, Inhabited

/-- How far a part is. -/
inductive PartSt where
  | waiting | issued | done
  deriving DecidableEq, Repr, Inhabited

/-- A part of a request (R124). -/
structure Part where
  segs : List Seg := []
  tgt : Target := .tier
  st : PartSt := .waiting
  tag : Nat := 0
  /-- The data is poisoned (writes). -/
  poison : Bool := false
  /-- A locked read and write (R126, R396), and whether its write has been issued. -/
  rmw : Bool := false
  second : Bool := false
  status : Nat := 0
  data : List Byte := []
  /-- Offsets in the request of poisoned lines' chunks, as a bit map. -/
  pmap : Nat := 0
  /-- CXL lines answered, by line number of the part, with their poison. -/
  lines : Tbl (Option (List Byte × Bool)) := []
  deriving DecidableEq, Repr, Inhabited

/-- For whom the receiving side works on a request. -/
inductive ReqKind where
  /-- An MREQ: it is answered with an MRSP. -/
  | mreq
  /-- A fill or a writeback of sectors of a frame. -/
  | fill (f sec n : Nat)
  | wb (f sec n : Nat)
  /-- The copy of a block before a write (R177): the request that waits, region, block, record; first
  the read, then the write. -/
  | copyRead (parent r blk rec : Nat)
  | copyWrite (parent r blk rec : Nat)
  /-- A memory access of a home tracker. -/
  | home (trk : Nat)
  /-- A physical access of an own unit (R334); `raw` moves ciphertext as it is (R396). -/
  | own (o : Owner) (raw : Bool)
  deriving DecidableEq, Repr, Inhabited

/-- A request at the receiving side. Requests are named in order of arrival. -/
structure Req where
  die : Nat := 0
  kind : ReqKind := .mreq
  pkt : Packet := default
  from_ : Ingress := .own 0
  slot : Option Nat := none
  /-- The buffer id of the MREQ's cells while some part has not been issued (R516). -/
  cells : Option Nat := none
  segs : List Seg := []
  exts : List Nat := []
  /-- Snapshot blocks a write goes through: region and block (R177). -/
  blocks : List (Nat × Nat) := []
  parts : List Part := []
  formed : Bool := false
  /-- A block copy runs for it. -/
  copying : Bool := false
  deriving DecidableEq, Repr, Inhabited

structure TtuUnit where
  /-- State of each job slot, and its REJECT. -/
  jobs : Tbl JobSt := []
  /-- Tags that are not free, by number. -/
  tags : Tbl (Option Tag) := []
  reqs : Tbl (Option Req) := []
  /-- Requests of own units that wait for a tag, oldest first. -/
  waiting : List UnitReq := []
  /-- Cached manifest entries and set membership bits (R125). -/
  mans : Tbl (Option Nat) := []
  members : Tbl Bool := []
  /-- Invalidations in progress by slot: the requests awaited. -/
  inval : Tbl (Option (List Nat)) := []
  deriving DecidableEq, Repr, Inhabited

/-! ### Security (chapter 15) -/

/-- SEC.STATUS.MODE_STATE. -/
inductive SecMode where
  | shared | sealing | sealed | unsealing
  deriving DecidableEq, Repr, Inhabited

/-- A fuse operation that programs now (R386). -/
inductive FuseOp where
  | mode (toSealed : Bool)
  | epoch
  | provision
  deriving DecidableEq, Repr, Inhabited

/-- An SPDM session (R391, R393). -/
structure Session where
  /-- FINISH has established it. -/
  up : Bool := false
  owner : Bool := false
  /-- Key updates made. -/
  keyGen : Nat := 0
  deriving DecidableEq, Repr, Inhabited

/-- An IDE stream (R403): keys by 12 × key set + 6 × direction (1 receive) + sub-stream, and the key set in use by
6 × direction + sub-stream, plus one. -/
structure IdeStream where
  keys : Tbl (Option Nat) := []
  use_ : Tbl Nat := []
  deriving DecidableEq, Repr, Inhabited

/-- The JTAG instruction in force (Table 15-8). -/
inductive Jtag where
  | bypass | idcode | dbgToken | samplePreload | extest | extestPulse | extestTrain | internalScan
  deriving DecidableEq, Repr, Inhabited

structure SecUnit where
  mode : SecMode := .shared
  dbg : Nat := 0
  /-- Keys of the 256 key groups (64 bytes as a number); bindings by FJID: group and digest (R394). -/
  keys : Tbl (Option Nat) := []
  binds : Tbl (Option (Nat × Nat)) := []
  /-- A command runs (STATUS.BUSY), the fuse operation it waits for, and a debug command that waits for the
  CRYPTO domain (Table 15-10). -/
  busy : Bool := false
  fuse : Option FuseOp := none
  waitOp : Option Nat := none
  /-- The loaded image permits SEALED; its KS_ROOT. -/
  sealedOk : Bool := false
  ksRoot : Nat := 0
  /-- Domains that were off at a scrub and are zeroed at power-on (R390). -/
  owed : Tbl Bool := []
  /-- SPDM: how far the negotiation is; the four sessions. -/
  negotiated : Nat := 0
  sessions : Tbl (Option Session) := []
  /-- IDE streams: 0 the link stream, 1 to 8 selective streams. -/
  ide : Tbl IdeStream := []
  jtag : Jtag := .bypass
  deriving DecidableEq, Repr, Inhabited

/-! ### Host port and chain (chapter 16) -/

/-- One MSI-X table entry; the vector control mask is set at reset, so `unmasked` is held. -/
structure MsixVec where
  addr : Nat := 0
  data : Word := 0
  unmasked : Bool := false
  pending : Bool := false
  deriving DecidableEq, Repr, Inhabited

/-- TDISP states of a VF (R403). -/
inductive Tdisp where
  | unlocked | locked | run | error
  deriving DecidableEq, Repr, Inhabited

/-- One PCIe function: 0 the PF, f the VF f (R411, R414). -/
structure Fn where
  bme : Bool := false
  msixEn : Bool := false
  vecs : Tbl MsixVec := []
  tdisp : Tdisp := .unlocked
  /-- The nonce that LOCK_INTERFACE gave. -/
  nonce : Nat := 0
  deriving DecidableEq, Repr, Inhabited

/-- A host request (R419 to R421). -/
structure HostReq where
  die : Nat := 0
  slot : Nat := 0
  fn : Nat := 0
  /-- It goes out with T = 1 (R403). -/
  t : Bool := false
  pkt : Packet := default
  cells : Option Nat := none
  /-- The die transaction tag it holds. -/
  tag : Option Nat := none
  /-- Memory Reads or the AtomicOp still to be sent: offset and length; those outstanding. -/
  todo : List (Nat × Nat) := []
  open_ : Nat := 0
  status : Nat := 0
  data : Tbl (Option (List Byte)) := []
  pmap : Nat := 0
  deriving DecidableEq, Repr, Inhabited

/-- A host tag that is not free: its function, its request, what it still awaits. -/
structure HTag where
  fn : Nat := 0
  req : Nat := 0
  off : Nat := 0
  len : Nat := 0
  quar : Bool := false
  /-- The function has been reset since. -/
  reset : Bool := false
  at_ : Nat := 0
  deriving DecidableEq, Repr, Inhabited

structure HostUnit where
  linkUp : Bool := false
  fns : Tbl Fn := []
  vfEnable : Bool := false
  numVfs : Nat := 0
  /-- Device Control of the PF, at the defaults of PCI Express: payload and read sizes in bytes, tag size
  code, completion timeout in ms, AtomicOp Requester Enable. -/
  mps : Nat := 128
  mrrs : Nat := 512
  tagSize : Nat := 0
  cplMs : Nat := 50
  atomicEn : Bool := false
  /-- Host requests in issue order by name; host tags. -/
  reqs : Tbl (Option HostReq) := []
  tags : Tbl (Option HTag) := []
  deriving DecidableEq, Repr, Inhabited

/-- States of the chain unit (Table 16-8), in the order of CHAIN.STATUS.STATE. -/
inductive ChainState where
  | off | listen | claim | backoff | enumerating | lead | follower
  deriving DecidableEq, Repr, Inhabited

/-- An access to a chain position (R429): by the host, a read or a write of dwords. -/
structure ChainAcc where
  pos : Nat := 0
  addr : Nat := 0
  /-- Dwords to read; the dwords of a write. -/
  count : Nat := 0
  write : Option (List Word) := none
  /-- A read of POS_SERIAL after an enumeration. -/
  serial : Bool := false
  at_ : Nat := 0
  deriving DecidableEq, Repr, Inhabited

structure ChainUnit where
  st : ChainState := .off
  pos : Nat := 0
  placed : Bool := false
  /-- The lead lies out of port B: the port through which the position came. -/
  leadB : Bool := false
  ring : Bool := false
  upA : Bool := false
  upB : Bool := false
  count : Nat := 0
  split : Nat := 0
  /-- LISTEN: a better CLAIM was heard. -/
  heard : Bool := false
  /-- Placed by an enumeration of whose lead no BEACON has been heard yet (R428). -/
  fresh : Bool := false
  /-- Enumerating in line mode on the A side: the split of the B side. -/
  sideA : Option Nat := none
  /-- When the lead's beacon was last heard; at the lead, its own. -/
  beaconAt : Nat := 0
  /-- When the host link went down at the lead. -/
  hostDown : Option Nat := none
  /-- Accesses by tag, and those that wait for a tag or for the enumeration, oldest first. -/
  accs : Tbl (Option ChainAcc) := []
  waiting : List ChainAcc := []
  deriving DecidableEq, Repr, Inhabited

/-! ### Power (chapter 17) -/

/-- PWR.STATUS.PSTATE (Table 17-2). -/
inductive PState where
  | starting | run | reduced | saving | saved | halted
  deriving DecidableEq, Repr, Inhabited

/-- A save set that is being written (R444 to R446): its slot, its bytes by offset, its header's number, and
VHOLD at the filter. -/
structure SaveJob where
  slot : Nat := 0
  seq : Nat := 0
  header : List Byte := []
  /-- Sections 1 to 6 as stored, contiguous from offset 4,096. -/
  body : List Byte := []
  check : Nat := 0
  startNs : Nat := 0
  deriving DecidableEq, Repr, Inhabited

structure PwrUnit where
  pstate : PState := .starting
  /-- Domains 1 to 31 that are off. -/
  off : Tbl Bool := []
  /-- A cold reset waits for the configuration loader (R388, R438). -/
  image : Bool := true
  /-- STATUS.LAST_RESET (Table 17-10). -/
  lastReset : Nat := 0
  /-- RST_N is low. -/
  rstLow : Bool := false
  /-- PWR_FAIL_N is asserted, as filtered. -/
  pwrFail : Bool := false
  /-- CREFCLK is in range. -/
  cref : Bool := false
  /-- A DOMAIN_ON command in progress. -/
  turning : Option Nat := none
  /-- VHOLD in mV, its least value since the last read, and since when it has been below VHOLD_WARN. -/
  vhold : Nat := 0
  vholdMin : Option Nat := none
  lowSince : Option Nat := none
  /-- THERM_TRIP_N is asserted. -/
  trip : Bool := false
  save : Option SaveJob := none
  /-- The supplies are out of range (R506, R507). -/
  railsLow : Bool := false
  /-- A warm reset is in progress (R439). -/
  warm : Bool := false
  /-- Slots of the cellar that could not be read at the boot (R452). -/
  uncorr : Tbl Bool := []
  /-- The cellar's bytes (R446, R447). -/
  cellar : Tbl Byte := []
  /-- The newest valid save set has been replayed by the granary (R453). -/
  replayed : Bool := false
  deriving DecidableEq, Repr, Inhabited

/-! ### The coherent home (chapter 6) -/

/-- Domain states (Table 6-9), in the order of STATE. -/
inductive DomSt where
  | off | init | active | flushing | downWalk | down
  deriving DecidableEq, Repr, Inhabited

/-- DSTATE of a directory entry (Table 6-6), in order. -/
inductive DState where
  | i | s | x | o
  deriving DecidableEq, Repr, Inhabited

/-- A directory entry (Table 6-6): SHARERS as the 16 pointers in place, or as a group vector. -/
structure DirEntry where
  line : Nat := 0
  busy : Bool := false
  st : DState := .i
  coarse : Bool := false
  pred : Nat := 0
  owner : Nat := 0
  last : Nat := 0
  ptrs : Tbl (Option Nat) := []
  groups : Nat := 0
  deriving DecidableEq, Repr, Inhabited

/-- Snoops of Table 6-3, in the order of SNP. -/
inductive Snp where
  | shared | unique | inv | cur
  deriving DecidableEq, Repr, Inhabited

/-- A snoop sent: what has answered it. -/
structure Snoop where
  agent : Nat := 0
  snp : Snp := .inv
  /-- RESULT, DATA_HOME and FWD of the SNP_RESP. -/
  resp : Option (Nat × Bool × Bool) := none
  /-- Data to the home: bytes, DIRTY, poison. -/
  data : Option (List Byte × Bool × Bool) := none
  deriving DecidableEq, Repr, Inhabited

/-- What a tracker has still to do (Table 6-7). -/
inductive Stage where
  /-- Snoop agents and wait for every answer. -/
  | snoop (agents : List Nat) (k : Snp)
  /-- Write the dirty data collected to memory. -/
  | flush
  | read
  /-- Grant from the home: S 1, E 2, M 3; without data. -/
  | grant (g : Nat) (nodata : Bool)
  /-- A grant from the home only if the owner did not forward. -/
  | grantIf (g : Nat)
  /-- The far atomic or the MREQ's own access. -/
  | perform
  /-- Answer an MREQ with the data read or collected. -/
  | answerRead
  /-- CRSP with RSP code. -/
  | crsp (rsp : Nat)
  /-- COMP_ACK ends it. -/
  | ack
  deriving DecidableEq, Repr, Inhabited

/-- A request to the home: an MREQ, with one part a line, or a CREQ. -/
structure HGroup where
  pkt : Packet := default
  die : Nat := 0
  dom : Nat := 0
  slot : Nat := 0
  cells : Option Nat := none
  creq : Bool := false
  /-- Lines not finished, lines without a tracker, merged status, data by line. -/
  left : Nat := 0
  unstarted : Nat := 0
  status : Nat := 0
  parts : List (Nat × List Byte × Nat) := []
  deriving DecidableEq, Repr, Inhabited

/-- One line of a request, or a recall of FLUSH (no group), that waits for a tracker. -/
structure HReq where
  group : Option Nat := none
  dom : Nat := 0
  line : Nat := 0
  seg : Seg := {}
  deriving DecidableEq, Repr, Inhabited

/-- A tracker (R152). -/
structure Tracker where
  die : Nat := 0
  dom : Nat := 0
  group : Option Nat := none
  line : Nat := 0
  seg : Seg := {}
  /-- It waits for the tracker of its line, or for a way of its set. -/
  waits : Bool := false
  todo : List Stage := []
  snoops : List Snoop := []
  since : Nat := 0
  /-- The directory entry as it will be written; whether it is kept. -/
  ent : DirEntry := {}
  keep : Bool := false
  /-- Dirty data collected, with poison; data for the answer. -/
  dirty : Option (List Byte × Bool) := none
  data : Option (List Byte × Bool) := none
  /-- The owner forwarded. -/
  fwd : Bool := false
  /-- It holds a recall entry; the victim being recalled, by directory place. -/
  recalls : Bool := false
  victim : Option Nat := none
  /-- The memory access in progress. -/
  mem : Option Nat := none
  deriving DecidableEq, Repr, Inhabited

structure HomeUnit where
  doms : Tbl DomSt := []
  /-- Directory entries by 2^27 × domain + 16 × set + way. -/
  dir : Tbl (Option DirEntry) := []
  groups : Tbl (Option HGroup) := []
  /-- Requests that wait for a tracker, by name, in order of arrival. -/
  waiting : Tbl (Option HReq) := []
  /-- Trackers by number, 8192 × die + n. -/
  trks : Tbl (Option Tracker) := []
  deriving DecidableEq, Repr, Inhabited

/-! ### Sheaf counters and standing orders (R233, R287, R288) -/

/-- A sheaf counter (Table 11-8). -/
structure Ctr where
  value : BitVec 64 := 0
  thresh : BitVec 64 := 0
  add : Word := 0
  trig : Bool := false
  met : Bool := false
  owned : Bool := false
  owner : Nat := 0
  deriving DecidableEq, Repr, Inhabited

/-- A standing order that is not EMPTY (Table 9-11); its body stays in the barn. -/
structure Order where
  triggered : Bool := false
  action : Nat := 0
  rearm : Bool := false
  ctr : Nat := 0
  target : Nat := 0
  fjid : Nat := 0
  thresh : BitVec 64 := 0
  step : BitVec 64 := 0
  firedAt : Nat := 0
  deriving DecidableEq, Repr, Inhabited

structure CtrUnit where
  ctrs : Tbl Ctr := []
  /-- Counter events of each die, oldest first (R288). -/
  events0 : List Nat := []
  events1 : List Nat := []
  orders : Tbl (Option Order) := []
  /-- Triggered orders whose action waits, oldest first. -/
  trig : List Nat := []
  deriving DecidableEq, Repr, Inhabited

/-! ### The caravan engine (chapter 9) -/

/-- Leg states (Table 9-4). -/
inductive LegSt where
  | closed | opening | open_ | error
  deriving DecidableEq, Repr, Inhabited

/-- A sequenced packet of a leg: its extension without acknowledgement and sequence, its payload while it
waits, where the payload is read again (EID, FJID, FVA, length), and the poison of the payload. -/
structure CarvPkt where
  ext : Nat := 0
  data : List Byte := []
  poison : Bool := false
  src : Option (Nat × Nat × Nat × Nat) := none
  deriving DecidableEq, Repr, Inhabited

/-- An initiator slot (R229). -/
structure InitMsg where
  uid : Nat := 0
  q : Nat := 0
  wqe : Nat := 0
  fjid : Nat := 0
  /-- WRITE: bytes sent; READ: bytes written in order. -/
  got : Nat := 0
  /-- READ: writes in progress by offset, those that ended, and whether the last packet has come. -/
  open_ : Nat := 0
  last : Bool := false
  status : Nat := 0
  mstatus : Nat := 0
  /-- The request has completed with FLUSHED; the slot waits for the peer's end (R235). -/
  flushed : Bool := false
  /-- Lengths of the writes that ended OK, by offset. -/
  ok : Tbl Nat := []
  deriving DecidableEq, Repr, Inhabited

/-- A responder slot (R229). -/
structure RespMsg where
  uid : Nat := 0
  fjid : Nat := 0
  eid : Nat := 0
  rctr : Option Nat := none
  open_ : Nat := 0
  last : Bool := false
  status : Nat := 0
  mstatus : Nat := 0
  /-- READ: FVA and length of the range. -/
  fva : Nat := 0
  len : Nat := 0
  deriving DecidableEq, Repr, Inhabited

/-- A leg (Table 9-4): what its RO fields and its engine hold. -/
structure Leg where
  st : LegSt := .closed
  inc : Nat := 0
  remote : Nat := 0
  txNext : Nat := 0
  txUna : Nat := 0
  rxNext : Nat := 0
  /-- Outstanding packets, oldest first: the sequence of the first is TX_UNA. -/
  ring : List CarvPkt := []
  /-- Packets that wait for the window. -/
  txq : List CarvPkt := []
  /-- Packets still to be resent, with their sequences; the run of resends. -/
  again : List (Nat × CarvPkt) := []
  run : Nat := 0
  reading : Bool := false
  /-- When TX_UNA last advanced, or OPEN was sent; consecutive timeouts. -/
  since : Nat := 0
  timeouts : Nat := 0
  /-- Packets accepted and not acknowledged, and when the first came. -/
  unacked : Nat := 0
  ackAt : Nat := 0
  nakAt : Option Nat := none
  init : Tbl (Option InitMsg) := []
  resp : Tbl (Option RespMsg) := []
  deriving DecidableEq, Repr, Inhabited

/-- Work queue states (Table 9-6). -/
inductive WqSt where
  | disabled | active | error
  deriving DecidableEq, Repr, Inhabited

/-- A work queue (Table 9-6): what its RO fields and its engine hold. -/
structure Wq where
  st : WqSt := .disabled
  prod : Nat := 0
  cons : Nat := 0
  cqNext : Nat := 0
  /-- Requests posted and not completed; issued and not completed. -/
  posted : Nat := 0
  issued : Nat := 0
  /-- Disabled as soon as its issued requests have ended. -/
  leaving : Bool := false
  deriving DecidableEq, Repr, Inhabited

structure CarvUnit where
  legs : Tbl Leg := []
  wqs : Tbl Wq := []
  deriving DecidableEq, Repr, Inhabited

/-! ### Harvest tiles (chapters 10, 12) -/

/-- The answer to an access of an operator: bytes with their poison, numbers, or a status with MSTATUS. -/
inductive Res where
  | data (bs : List (Byte × Bool))
  | nums (ns : List Nat)
  | fail (status mstatus : Nat)
  deriving DecidableEq, Repr, Inhabited

/-- What an operator has done: elements written, flags of the completion record, counts by counter. -/
structure Acc where
  elems : Nat := 0
  poison : Bool := false
  range : Bool := false
  cnts : List (Nat × Nat) := []
  deriving DecidableEq, Repr, Inhabited

/-- What a run works on: a descriptor, or a sequence's swap-out, resume or teardown (R346, R348). -/
inductive RunKind where
  | desc
  | swapOut | resume | destroy
  deriving DecidableEq, Repr, Inhabited

/-- A running descriptor, or a piece of the page manager's own work. -/
structure Run where
  kind : RunKind := .desc
  tile : Nat := 0
  slot : Option Nat := none
  fjid : Nat := 0
  /-- The 1,024 bits of the descriptor; of the page manager's work the sequence. -/
  desc : Nat := 0
  pool : Nat := 0
  tStart : Nat := 0
  /-- Answers to the accesses of the steps that are over, and to those of the present step. -/
  log : List (List Res) := []
  cur : Tbl (Option Res) := []
  /-- Accesses of the present step handed out, and which are outstanding with the Gleaner that holds them. -/
  next : Nat := 0
  open_ : Tbl (Option Nat) := []
  stopping : Bool := false
  glLimit : Nat := 1024
  /-- The reclaim epoch taken, of an ATTN_DECODE (R344), and the sequence it reads. -/
  epoch : Option Bool := none
  reads : Option Nat := none
  /-- It waits for the page manager; it has passed. -/
  gate : Bool := false
  acc : Acc := {}
  /-- Its outcome: STATUS and MSTATUS. -/
  fin : Option (Nat × Nat) := none
  deriving DecidableEq, Repr, Inhabited

/-- A queued descriptor. -/
structure Desc where
  id : Nat := 0
  tile : Nat := 0
  slot : Nat := 0
  desc : Nat := 0
  deriving DecidableEq, Repr, Inhabited

structure TileUnit where
  /-- Hayloft bytes by 2^26 × tile + offset, and poison marks of 64-byte lines by 2^20 × tile + line. -/
  hl : Tbl Byte := []
  poison : Tbl Bool := []
  /-- Valid windows by 1024 × tile + slot: BASE and SIZE; the ASSIGN in progress of a tile. -/
  wins : Tbl (Option (Nat × Nat)) := []
  hlCmd : Tbl (Option (Nat × Nat × Nat)) := []
  /-- Queued descriptors, oldest first; running ones; the slot granted last by tile. -/
  queue : List Desc := []
  runs : Tbl (Option Run) := []
  rr : Tbl Nat := []
  /-- Slots granted by 4 × tile + Binder; internal descriptors of sheaves and expert combine by tile. -/
  binders : Tbl Nat := []
  internal : Tbl Nat := []
  /-- TILE_TALLY was raised: the floor starts no descriptor. -/
  held : Tbl Bool := []
  deriving DecidableEq, Repr, Inhabited

/-! ### Key-value pools (chapter 13) -/

/-- Pool states (Table 13-2), in the order of STATE. -/
inductive PoolSt where
  | off | init | ready | failed
  deriving DecidableEq, Repr, Inhabited

/-- A KV pool: what its RO registers and its lists hold. Headers, tables and sequences lie in the barn. -/
structure KvPool where
  st : PoolSt := .off
  freeHead : Option Nat := none
  freeTail : Option Nat := none
  defHead0 : Option Nat := none
  defTail0 : Option Nat := none
  defHead1 : Option Nat := none
  defTail1 : Option Nat := none
  tblHead : Option Nat := none
  swapHead : Option Nat := none
  free : Nat := 0
  live : Nat := 0
  deferred : Nat := 0
  freeTbl : Nat := 0
  freeSwap : Nat := 0
  refs : Nat := 0
  pteRefs : Nat := 0
  /-- The automatic pre-emption in progress (R347). -/
  auto : Option Nat := none
  /-- Automatic pre-emption goes on until FREE_PAGES is at HIGH (R347). -/
  autoOn : Bool := false
  deriving DecidableEq, Repr, Inhabited

structure KvUnit where
  pools : Tbl KvPool := []
  /-- Sequences that are not FREE, and their pool. -/
  seqs : Tbl (Option Nat) := []
  epoch : Bool := false
  flip : Bool := false
  /-- Running decodes by 2 × tile + epoch. -/
  counts : Tbl Nat := []
  deriving DecidableEq, Repr, Inhabited

/-! ### Sheaves (chapter 11) -/

/-- Sheaf states (Table 11-1), in the order of STATE. -/
inductive ShfSt where
  | free | idle | running | aborted
  deriving DecidableEq, Repr, Inhabited

/-- A chunk in its slot group (R278): the packets still due, and its slots: EXACT elements (Table 10-8), or
FP32 with the poison mark in bit 32 (R259). -/
structure Group where
  chunk : Nat := 0
  left : Nat := 0
  slots : List Nat := []
  deriving DecidableEq, Repr, Inhabited

/-- What the RO fields of a sheaf's entry hold (Table 11-1), and its engine. The RW fields lie in the table
window. -/
structure Sheaf where
  st : ShfSt := .free
  cause : Nat := 0
  opNext : BitVec 64 := 0
  resetOp : BitVec 64 := 0
  tStart : Nat := 0
  done : Nat := 0
  /-- The child entries read at ENABLE. -/
  kids : List Nat := []
  /-- Slot groups by c mod W. -/
  groups : Tbl (Option Group) := []
  /-- Packets of EXACT results forwarded, by chunk. -/
  parts : Tbl Nat := []
  /-- When a packet was last accepted or a chunk sent. -/
  moved : Nat := 0
  /-- Windows missed in a row, by port (R286). -/
  missed : Tbl Nat := []
  deriving DecidableEq, Repr, Inhabited

structure ShfUnit where
  sheaves : Tbl Sheaf := []
  /-- Exits from ACTIVE and RETRAIN that LINK has been judged on, by port (Table 11-9). -/
  links : Tbl Nat := []
  deriving DecidableEq, Repr, Inhabited

/-! ### Expert dispatch (chapter 14) -/

/-- Combine entry states but FREE (Table 14-6). -/
inductive CmbSt where
  | wait | combine | quar
  deriving DecidableEq, Repr, Inhabited

/-- A combine entry that is not FREE. -/
structure Cmb where
  st : CmbSt := .wait
  uid : Nat := 0
  /-- The token: its header, who wrote it. -/
  hdr : Nat := 0
  src : Nat := 0
  /-- Time in ns of the decision, and of the start of QUAR. -/
  at_ : Nat := 0
  /-- Masks over positions; units of 64 bytes returned and EXEC_EID by position. -/
  served : Nat := 0
  returned : Nat := 0
  missing : Nat := 0
  counts : Tbl Nat := []
  execs : Tbl Nat := []
  /-- Result writes outstanding; the record has been asked for; a write failed; POISON and RANGE. -/
  begun : Bool := false
  open_ : Nat := 0
  recorded : Bool := false
  failed : Bool := false
  poison : Bool := false
  range : Bool := false
  stopped : Bool := false
  deriving DecidableEq, Repr, Inhabited

/-- A copy of a token row to a replica. -/
structure Copy where
  layer : Nat := 0
  slot : Nat := 0
  ent : Nat := 0
  uid : Nat := 0
  pos : Nat := 0
  eid : Nat := 0
  fva : Nat := 0
  header : Nat := 0
  open_ : Nat := 0
  last : Bool := false
  failed : Bool := false
  stopped : Bool := false
  deriving DecidableEq, Repr, Inhabited

structure ExdUnit where
  /-- Layers that are ACTIVE; those that refuse tokens (MAP_UNCORR). -/
  active : Tbl Bool := []
  bad : Tbl Bool := []
  /-- Slots that are complete and wait for the decision, oldest first: layer, slot, die and job slot of the
  completing WRITE, which is answered then. -/
  ready : List (Nat × Nat × Nat × Nat × Packet) := []
  /-- Combine entries by 32,768 × layer + entry. -/
  ents : Tbl (Option Cmb) := []
  copies : Tbl (Option Copy) := []
  /-- Cached expert entries (bytes 0 to 143) by 2^20 × die + 4,096 × layer + expert. -/
  cache : Tbl (Option Nat) := []
  /-- The Binder granted last, by 2 × layer + die. -/
  rr : Tbl Nat := []
  /-- EXD_TALLY was raised: the units decide no token. -/
  held : Bool := false
  deriving DecidableEq, Repr, Inhabited


/-! ### Outputs -/

/-- Answers of the SPDM responder (R391 to R394, R403); signatures and certificates are not modelled. -/
inductive SpdmRsp where
  | version | capabilities | algorithms | digests | certificate | challengeAuth
  /-- Measurement blocks of Table 15-6: index and content as a number. -/
  | measurements (blocks : List (Nat × List Nat))
  | keyExchange (sid : Nat)
  | finish (sid : Nat)
  | keyUpdateAck (sid : Nat)
  | heartbeatAck (sid : Nat)
  | endSessionAck (sid : Nat)
  /-- A key message's response: code, RESULT, and KEY_CHECK of KEY_LOAD. -/
  | key (sid code result check : Nat)
  /-- IDE_KM: QUERY_RESP, KP_ACK with a status, K_GOSTOP_ACK. -/
  | ideQuery (streams : Nat)
  | ideKpAck (status : Nat)
  | ideGoStopAck
  /-- TDISP: the message answered, its VF, and its numbers; an error. -/
  | tdisp (code vf : Nat) (body : List Nat)
  | tdispError (vf : Nat)
  /-- SPDM ERROR with its code. -/
  | error (code : Nat)
  deriving DecidableEq, Repr

/-- What the block puts on its links and pins. -/
inductive Emit where
  /-- A flit on an Avber port (R56). -/
  | flit (p : Nat) (bytes : List Byte)
  /-- An Ethernet frame with its FCS. -/
  | frame (p : Nat) (bytes : List Byte)
  /-- A gPTP message (R32). -/
  | gptp (p : Nat) (msg : Gptp)
  /-- A CXL.mem request: port, tag, device address; a write has data, byte enables and poison. -/
  | cxlMem (p : Nat) (tag : Nat) (addr : Nat) (write : Option (List Byte × Nat × Bool))
  /-- A CXL.io access of the access window (R79). -/
  | cxlIo (p : Nat) (cfg : Word) (addr : Nat) (data : Word)
  /-- A completion with Unsupported Request toward a CXL device (R76). -/
  | cxlUr (p : Nat)
  /-- A register or window read answered: source and value. -/
  | readData (src : Source) (value : Nat)
  /-- An MSI-X message of a function (R416, R417). -/
  | msix (fn vec : Nat)
  /-- A chain frame out of port A (`false`) or B (`true`). -/
  | chain (portB : Bool) (bytes : List Byte)
  /-- Flash: a sector read at a retry level, a unit program, a block erase, META pages (R202 to R209). -/
  | nandRead (pun sec level : Nat)
  | nandProgram (pun lu seq : Nat) (data : List Byte) (poison : Nat)
  | nandErase (bn : Nat)
  | nandMeta (checkpoint : Bool) (records : List (Nat × Nat))
  | spdm (rsp : SpdmRsp)
  /-- PCIe requests of a function (Table 16-5), with T of TDISP: a Memory Read, a Memory Write, an AtomicOp with its
  operands. -/
  | pcieRead (fn : Nat) (t : Bool) (tag addr len : Nat)
  | pcieWrite (fn : Nat) (t : Bool) (addr : Nat) (data : List Byte) (poison : Bool)
  | pcieAtomic (fn : Nat) (t : Bool) (tag atop addr size a b : Nat)
  /-- An advisory non-fatal error reported through AER. -/
  | aer (fn : Nat)
  /-- Completion data of a window read, and the poison of each byte's line; an MMIO request completed as Unsupported
  Request. -/
  | windowData (data : List (Byte × Bool))
  | mmioUr
  /-- Dwords of a chain window read returned to the host. -/
  | chainData (pos addr : Nat) (data : List Word)
  /-- A value shifted out through JTAG TDO. -/
  | jtagOut (value : Nat)
  /-- PPS_OUT rises; THERM_TRIP_N is asserted. -/
  | ppsRise
  | thermTrip
  deriving DecidableEq, Repr

/-! ### Faults and refusals of the model -/

/-- Faults of the model. No command raises one: the block has no exceptions, and a command that the
manual turns away sets a status and goes on. -/
inductive Fault where
  /-- Reserved for a use of the model outside the commands of the table; no command raises it
  (safe). -/
  | none_
  deriving DecidableEq, Repr

/-- Refusals of the model. -/
inductive Refusal where
  /-- A command whose meaning is not written (safe: nothing is claimed of it). -/
  | notModelled (mnemonic : String)
  /-- The manual names the command and gives it no effect (safe); who raises it stands in NOTES.md. -/
  | noEffectGiven (mnemonic : String)
  deriving DecidableEq, Repr

/-- The whole state. -/
structure State where
  /-- Commands that wait, oldest first (the model's own). -/
  pending : List Instr := []
  /-- What the block has put on its links and pins, in order (the model's own, log entry 6). -/
  out : List Emit := []
  /-- Counter of the free values taken (the model's own, log entry 5). -/
  free : Nat := 0
  /-- Name of the next buffered packet or request (the model's own). -/
  nextId : Nat := 0
  hub : Hub := {}
  time : TimeUnit := {}
  link : LinkUnit := {}
  sw : SwitchUnit := {}
  mem : MemUnit := {}
  ext : ExtUnit := {}
  tier : TierUnit := {}
  ttu : TtuUnit := {}
  flt : FaultUnit := {}
  obs : ObsUnit := {}
  sec : SecUnit := {}
  host : HostUnit := {}
  chain : ChainUnit := {}
  pwr : PwrUnit := {}
  home : HomeUnit := {}
  ctr : CtrUnit := {}
  carv : CarvUnit := {}
  tile : TileUnit := {}
  kv : KvUnit := {}
  shv : ShfUnit := {}
  exd : ExdUnit := {}
  deriving DecidableEq, Repr

/-- The state right after a cold reset (Table 17-3): every field at its reset value. -/
def State.reset : State := {}
end Sys2Proof.Machine
end

