-- ==== Sys2Proof/Machine/Ops.lean ====
section
/-! DEFINITION. The named operations over the state that every unit uses: registers, counters,
table windows, the barn, fabric time, free values and outputs. -/

set_option Elab.async false

namespace Sys2Proof.Machine
open Sys2Proof

/-! ### Units -/

def State.modHub (f : Hub → Hub) (s : State) : State := { s with hub := f s.hub }
def State.modTime (f : TimeUnit → TimeUnit) (s : State) : State := { s with time := f s.time }
def State.modLink (f : LinkUnit → LinkUnit) (s : State) : State := { s with link := f s.link }
def State.modSw (f : SwitchUnit → SwitchUnit) (s : State) : State := { s with sw := f s.sw }
def State.modMem (f : MemUnit → MemUnit) (s : State) : State := { s with mem := f s.mem }
def State.modExt (f : ExtUnit → ExtUnit) (s : State) : State := { s with ext := f s.ext }
def State.modTier (f : TierUnit → TierUnit) (s : State) : State := { s with tier := f s.tier }
def State.modTtu (f : TtuUnit → TtuUnit) (s : State) : State := { s with ttu := f s.ttu }
def State.modFlt (f : FaultUnit → FaultUnit) (s : State) : State := { s with flt := f s.flt }
def State.modObs (f : ObsUnit → ObsUnit) (s : State) : State := { s with obs := f s.obs }
def State.modSec (f : SecUnit → SecUnit) (s : State) : State := { s with sec := f s.sec }
def State.modHost (f : HostUnit → HostUnit) (s : State) : State := { s with host := f s.host }
def State.modChain (f : ChainUnit → ChainUnit) (s : State) : State := { s with chain := f s.chain }
def State.modHome (f : HomeUnit → HomeUnit) (s : State) : State := { s with home := f s.home }
def State.modPwr (f : PwrUnit → PwrUnit) (s : State) : State := { s with pwr := f s.pwr }

def State.modCtr (f : CtrUnit → CtrUnit) (s : State) : State := { s with ctr := f s.ctr }
def State.modTile (f : TileUnit → TileUnit) (s : State) : State := { s with tile := f s.tile }
def State.modKv (f : KvUnit → KvUnit) (s : State) : State := { s with kv := f s.kv }
def State.modShf (f : ShfUnit → ShfUnit) (s : State) : State := { s with shv := f s.shv }
def State.modExd (f : ExdUnit → ExdUnit) (s : State) : State := { s with exd := f s.exd }
def State.modCarv (f : CarvUnit → CarvUnit) (s : State) : State := { s with carv := f s.carv }

/-- Record an output. -/
def State.emit (e : Emit) (s : State) : State := { s with out := s.out ++ [e] }

/-- The next free value: a value the manual leaves open (log entry 5). -/
def State.freeVal (s : State) : Nat := Config.free s.free

/-- Take the next free value. -/
def State.takeFree (s : State) : State := { s with free := s.free + 1 }

/-- Take `n` free values. -/
def State.takeFrees (n : Nat) (s : State) : State := { s with free := s.free + n }

/-- Take `n` names of buffered packets or requests, from `nextId` on. -/
def State.takeNames (n : Nat) (s : State) : State := { s with nextId := s.nextId + n }

/-! ### Fabric time -/

/-- Fabric time in ns (R25). -/
def State.ns (s : State) : Nat := bits s.time.now 95 32

/-- Fabric time in units of 2^-16 ns. -/
def State.t16 (s : State) : Nat := bits s.time.now 95 16

/-- The packet timestamp: bits [31:0] of the ns part (R27). -/
def State.stamp (s : State) : Nat := s.ns % 2 ^ 32

/-! ### Registers -/

/-- Fused and random reset values (R494): FUSE page registers and SEC.DBG_NONCE (log entries 3, 4). -/
def fusedReset (a : Nat) : Option Word :=
  if a = Adr.FUSE_MODE_CHANGES then some (Config.modeChanges.setWidth 32)
  else if a = Adr.FUSE_DBG_EPOCH then some (Config.dbgEpoch.setWidth 32)
  else if a = Adr.FUSE_ARB then some (Config.arb.setWidth 32)
  else if a = Adr.FUSE_SERIAL_LO then some (lo32 Config.serial.toNat)
  else if a = Adr.FUSE_SERIAL_HI then some (hi32 Config.serial.toNat)
  else if a = Adr.FUSE_FUSE_STATUS then some (w32 (b2n Config.provisioned))
  else if Adr.FUSE_OWNER_PK_HASH 0 ≤ a ∧ a ≤ Adr.FUSE_OWNER_PK_HASH 11 then
    some (w32 (Config.ownerPkHash.toNat >>> (8 * (a - Adr.FUSE_OWNER_PK_HASH 0))))
  else if Adr.SEC_DBG_NONCE 0 ≤ a ∧ a ≤ Adr.SEC_DBG_NONCE 3 then
    some (w32 (Config.firstNonce.toNat >>> (8 * (a - Adr.SEC_DBG_NONCE 0))))
  else none

/-- The reset value of a register (R494); ERR_SEVERITY resets per class (R457). -/
def regReset (a : Nat) : Word :=
  match pageAt a with
  | none => 0
  | some (k, _, o) =>
    if k = .fuse ∨ (k = .sec ∧ 0x140 ≤ o ∧ o < 0x150) then (fusedReset a).getD 0
    else if o = Adr.H_ERR_SEVERITY then w32 (sevReset k)
    else match regDesc k o with
      | some d => w32 d.reset
      | none => 0

/-- The value a register holds. -/
def State.rg (s : State) (a : Nat) : Word := (s.hub.regs.get a).getD (regReset a)

/-- A register's field `[hi:lo]`. -/
def State.rf (s : State) (a hi lo : Nat) : Nat := bits (s.rg a) hi lo

/-- The value of a LO and HI pair. -/
def State.rg64 (s : State) (a : Nat) : Nat := (s.rg a).toNat + (s.rg (a + 4)).toNat * 2 ^ 32

/-- Set a register; a register at its reset value is not listed. -/
def State.setRg (a : Nat) (v : Word) (s : State) : State :=
  s.modHub fun h => { h with regs := h.regs.set a (if v = regReset a then none else some v) }

/-- Set a field of a register. -/
def State.setRf (a hi lo v : Nat) (s : State) : State := s.setRg a (setBits (s.rg a) hi lo v)

/-- Set a LO and HI pair. -/
def State.setRg64 (a v : Nat) (s : State) : State := (s.setRg a (lo32 v)).setRg (a + 4) (hi32 v)

/-- A 64-bit counter. -/
def State.cnt (s : State) (a : Nat) : BitVec 64 := s.hub.cnts.get a

/-- Set a counter. -/
def State.setCnt (a : Nat) (v : BitVec 64) (s : State) : State :=
  s.modHub fun h => { h with cnts := h.cnts.set a v }

/-- Count; 64-bit counters wrap to 0 (Table 2-11). -/
def State.bump (a : Nat) (n : Nat) (s : State) : State := s.setCnt a (s.cnt a + BitVec.ofNat 64 n)

/-- Count in the low half `[31:0]` of a counter pair that holds two counts (Table 3-13). -/
def State.bumpLo (a : Nat) (s : State) : State :=
  s.setCnt a (setBits (s.cnt a) 31 0 (bits (s.cnt a) 31 0 + 1))

/-- Count in the high half `[63:32]`. -/
def State.bumpHi (a : Nat) (s : State) : State :=
  s.setCnt a (setBits (s.cnt a) 63 32 (bits (s.cnt a) 63 32 + 1))

/-- Whether a domain is on. -/
def State.domOn (s : State) (d : Nat) : Bool := !s.pwr.off.get d

/-- A dword of a table window, of the copy on SWD0, or on SWD1 while CORE0 is off (R494). -/
def State.tab (s : State) (a : Nat) : Word :=
  if s.hub.blank.get (2 * a + b2n (!s.domOn 25)) then 0 else s.hub.tabs.get a

/-- The tables as a die holds its copies (R86, R494). -/
def State.view (s : State) (die : Nat) : State :=
  if s.hub.blank.isEmpty then s
  else s.modHub fun h => { h with tabs := h.tabs.keep fun a _ => !h.blank.get (2 * a + die), blank := [] }

/-- Set a dword of a table, in both copies. -/
def Hub.setTab (a : Nat) (v : Word) (h : Hub) : Hub :=
  { h with tabs := h.tabs.set a v, blank := (h.blank.del (2 * a)).del (2 * a + 1) }

/-- An entry of `n` dwords of a table window, as a number. -/
def State.entry (s : State) (a : Nat) : Nat → Nat
  | 0 => 0
  | n + 1 => (s.tab a).toNat + 2 ^ 32 * s.entry (a + 4) n

/-- Write an entry of `n` dwords. -/
def State.setEntry (a : Nat) : Nat → Nat → State → State
  | 0, _, s => s
  | n + 1, v, s =>
    State.setEntry (a + 4) n (v >>> 32) (s.modHub (Hub.setTab a (lo32 v)))

/-! ### The barn -/

/-- Bytes of the barn (288 GiB). -/
def barnSize : Nat := 288 * 2 ^ 30

/-- What a byte that is not listed reads as. -/
def MemUnit.back (m : MemUnit) (a : Nat) : Byte :=
  match m.bg with
  | none => 0
  | some k => BitVec.ofNat 8 (Config.openByte k a)

/-- One byte of the barn. -/
def State.barn (s : State) (a : Nat) : Byte := (s.mem.barn.get a).getD (s.mem.back a)

/-- `n` bytes of the barn from `a`. -/
def State.barnBytes (s : State) (a : Nat) : Nat → List Byte
  | 0 => []
  | n + 1 => s.barn a :: s.barnBytes (a + 1) n

/-- A little-endian number of `n` bytes of the barn (R5). -/
def State.barnNum (s : State) (a n : Nat) : Nat := leNat (s.barnBytes a n)

/-- Store bytes; a byte equal to the background is not listed. -/
def MemUnit.store (m : MemUnit) (a : Nat) : List Byte → MemUnit
  | [] => m
  | b :: bs =>
    MemUnit.store { m with barn := m.barn.set a (if b = m.back a then none else some b) } (a + 1) bs

/-- Store bytes in the barn. -/
def State.setBarn (a : Nat) (bs : List Byte) (s : State) : State :=
  s.modMem fun m => m.store a bs

/-- Store a little-endian number of `n` bytes in the barn (R5). -/
def State.setBarnNum (a n v : Nat) (s : State) : State := s.setBarn a (leBytes n v)

/-- The 64-byte lines that `n` bytes from `a` touch. -/
def linesOf (a n : Nat) : List Nat :=
  if n = 0 then [] else (List.range ((a + n - 1) / 64 - a / 64 + 1)).map (a / 64 + ·)

/-- Whether a barn line is poisoned. -/
def State.poisoned (s : State) (line : Nat) : Bool := s.mem.poison.get line

/-- Set or clear the poison mark of a line. -/
def State.setPoison (line : Nat) (v : Bool) (s : State) : State :=
  s.modMem fun m => { m with poison := m.poison.set line v }

/-- Store to the barn and keep the marks right: a wholly written line takes `mark`, a partly written
one keeps its mark, and takes it if `mark` (R137, R497). -/
def State.storeMarked (a : Nat) (bs : List Byte) (mark : Bool) (s : State) : State :=
  let s := s.setBarn a bs
  (linesOf a bs.length).foldl (fun s l =>
    let whole := decide (a ≤ 64 * l) && decide (64 * l + 64 ≤ a + bs.length)
    s.setPoison l (if whole then mark else (s.poisoned l || mark))) s

/-- The HBM stack, BARN0 to BARN5, that holds a barn address (R188). Nothing in the state depends on it: the
position of a unit inside its stack is not visible, and either barn domain off removes the whole barn. -/
def barnStack (a : Nat) : Nat :=
  let p := ((List.range 23).filter fun i => a.testBit (12 + i)).length % 2
  let c := if a / 2 ^ 35 % 8 ≤ 1 then 0 else if a / 2 ^ 35 % 8 ≤ 4 then 1 else 2
  3 * p + (c + a / 2 ^ 13 % 2 ^ 22 % 3) % 3

/-! ### Power domains (Tables 1-4, 19-5, 19-6) -/

/-- The die of an octet (R14), of a port and of a tile (R16). -/
def octetDie (n : Nat) : Nat := (n / 8) % 2
def portDie (p : Nat) : Nat := octetDie (p / 8)
def tileDie (t : Nat) : Nat := t / 4

/-- Whether the core runs: from the end of STARTING until SAVED, and not in HALTED (R438, Table
19-6). -/
def State.live (s : State) : Bool :=
  match s.pwr.pstate with
  | .run | .reduced | .saving => true
  | _ => false

/-- Whether the page can be read: its domain is on (R437, Table 19-5, Table 19-6). -/
def State.pageOn (s : State) (k : PageKind) (i : Nat) : Bool :=
  match k with
  | .ident | .pwr | .save | .fuse => true
  | .port => s.live && s.domOn (1 + i / 32)
  | .octet => s.live && s.domOn (1 + i / 4)
  | .swcore | .ttu | .home | .carv | .sheaf => s.live && s.domOn (25 + i)
  | .ext | .exd | .dom | .kvpool | .kvseq | .job => s.live && (s.domOn 25 || s.domOn 26)
  | .tile => s.live && s.domOn (17 + i)
  | .tier => s.live && s.domOn 27 && s.domOn 28
  | .gran => s.live && s.domOn 29
  | .hostp | .chain | .vf => s.live && s.domOn 30
  | .bwin | .time | .sec | .fault | .obs => s.live

/-- Whether the whole barn is on: it interleaves over both barn domains (R436). -/
def State.barnOn (s : State) : Bool := s.domOn 27 && s.domOn 28

/-- A tally audit has stopped the unit of audit `id` on a die (R470 and the chapters' error tables). -/
def State.stopped (s : State) (id die : Nat) : Bool := s.flt.stop.get (2 * id + die)

/-! ### Ports -/

/-- A port. -/
def State.port (s : State) (p : Nat) : Port := s.link.ports.get p

/-- Change a port. -/
def State.modPort (p : Nat) (f : Port → Port) (s : State) : State :=
  s.modLink fun l => { l with ports := l.ports.modify p f }

/-- The applied mode and LAYOUT of an octet; at reset one x8 Avber port (R52). -/
def State.octLayout (s : State) (n : Nat) : Nat × Nat := (s.link.layout.get n).getD (0, 4)

/-- The width code of the port that lane `p` starts; 0 if it starts none (Table 3-2). -/
def State.widthCode (s : State) (p : Nat) : Nat :=
  nbits (s.octLayout (p / 8)).2 (3 * (p % 8) + 2) (3 * (p % 8))

/-- Lanes of a width code. -/
def lanesOf : Nat → Nat
  | 1 => 1 | 2 => 2 | 3 => 4 | 4 => 8 | 5 => 16 | _ => 0

/-- Whether lane `p` starts a port in the applied layout (R52). -/
def State.portExists (s : State) (p : Nat) : Bool := decide (p < 512) && lanesOf (s.widthCode p) != 0

/-- The mode of a port: 0 Avber, 1 Ethernet, 2 CXL (Table 3-1). -/
def State.portMode (s : State) (p : Nat) : Nat := (s.octLayout (p / 8)).1

/-- The device serial number (R386). -/
def State.serial (s : State) : Nat := s.rg64 Adr.FUSE_SERIAL_LO

/-- The local endpoint ID of the die (R237). -/
def State.localEid (s : State) (die : Nat) : Nat := s.rf (Adr.CARV_LOCAL_EID die) 15 0

end Sys2Proof.Machine
end

