-- ==== Sys2Proof/Machine/Route.lean ====
section
/-! DEFINITION. Forwarding: the forwarding table, path groups, address sets, hashing over members,
flowlets and spraying (R86 to R95), the buffer and the virtual output queues (R96 to R100). -/

set_option Elab.async false

namespace Sys2Proof.Machine
open Sys2Proof

/-- Window addresses (Table 19-7). -/
def fwdAt (eid : Nat) : Nat := 0x01000000 + 8 * eid
def groupAt (g : Nat) : Nat := 0x01080000 + 256 * g
def setAt (i : Nat) : Nat := 0x01180000 + 64 * i

/-- The forwarding entry of an EID (Table 4-2). -/
def State.fwd (s : State) (eid : Nat) : Nat := s.entry (fwdAt eid) 2

/-- Malformed under R6 or Table 4-2. -/
def fwdBad (e : Nat) : Bool :=
  let k := nbits e 62 60
  let t := nbits e 11 0
  nbits e 59 12 != 0 || decide (4 < k) || (k == 0 && decide (511 < t)) || (k == 2 && decide (1023 < t))
    || ((k == 3 || k == 4) && t != 0)

/-- The members of a path group, in order, with its mode (R87); `none` if it is malformed. -/
def State.group (s : State) (g : Nat) : Option (Nat × List Nat) :=
  let e := s.entry (groupAt g) 64
  let n := nbits e 6 0
  let m := nbits e 9 8
  let mem := (List.range n).map fun i => nbits e (64 + 16 * i + 15) (64 + 16 * i)
  if nbits e 63 10 != 0 || nbits e 7 7 != 0 || m == 3 || n == 0 || decide (64 < n)
      || mem.any (fun w => decide (511 < w)) || nbits e 2047 (64 + 16 * n) != 0 then none
  else some (m, mem)

/-- The members of an address set with its SHIFT (R88); `none` if it is malformed. -/
def State.addrSet (s : State) (i : Nat) : Option (Nat × List Nat) :=
  let e := s.entry (setAt i) 16
  let sh := nbits e 12 8
  let w := nbits e 4 0
  if nbits e 63 13 != 0 || nbits e 7 5 != 0 || decide (sh < 12) || decide (30 < sh) || w == 0
      || decide (16 < w) || nbits e 511 320 != 0 then none
  else some (sh, (List.range w).map fun k => nbits e (64 + 16 * k + 15) (64 + 16 * k))

/-- Whether a port forwards: it exists and is in ACTIVE. -/
def State.portActive (s : State) (p : Nat) : Bool := s.portExists p && (s.port p).st == .active

/-- HASH_SEED of a die. -/
def State.seed (s : State) (die : Nat) : Nat := s.rg64 (Adr.SWCORE_HASH_SEED_LO die)

/-- The flow key of an Avber packet (R92). -/
def flowKey (p : Packet) : Nat :=
  p.src + p.dst * 2 ^ 16 + p.cls * 2 ^ 32 + nbits p.spec 15 0 * 2 ^ 36

/-- The traffic class of message class `c` at egress port `p` (R68). -/
def State.tcOf (s : State) (p c : Nat) : Nat :=
  if c < 8 then s.rf (Adr.PORT_TC_MAP_LO p) (4 * c + 2) (4 * c)
  else s.rf (Adr.PORT_TC_MAP_HI p) (4 * (c - 8) + 2) (4 * (c - 8))

/-- Cells queued for a port and traffic class (DEPTH, Table 4-10). -/
def State.depth (s : State) (p tc : Nat) : Nat :=
  (s.sw.queues.filter fun q => q.egress == p && q.tc == tc && !q.ctl).foldl
    (fun n q => n + (s.sw.stored.get q.id).cells) 0

/-- Rotate a list left by `n`. -/
def rotl {α : Type} (n : Nat) (l : List α) : List α := l.drop n ++ l.take n

/-- The element with the least measure, the first such. -/
def argmin {α : Type} (f : α → Nat) : List α → Option α
  | [] => none
  | x :: xs => match argmin f xs with
    | none => some x
    | some y => if f x ≤ f y then some x else some y

/-- Member indices of a group whose ports are ACTIVE. -/
def State.liveIdx (s : State) (mem : List Nat) : List Nat :=
  (List.range mem.length).filter fun i => s.portActive (mem.getD i 0)

/-- The member index of R93 by flow hash `h`; `none` if no member is live. -/
def State.flowMember (s : State) (mem : List Nat) (h : Nat) : Option Nat :=
  let i := pick h mem.length
  if s.portActive (mem.getD i 0) then some i
  else
    let live := s.liveIdx mem
    if live.isEmpty then none else live[pick h live.length]?

/-- The adaptive choice: the live member with the fewest cells queued, ties from the primary member
on (R94). -/
def State.adaptive (s : State) (mem : List Nat) (h cls : Nat) : Option Nat :=
  let order := rotl (pick h mem.length) (List.range mem.length)
  argmin (fun i => s.depth (mem.getD i 0) (s.tcOf (mem.getD i 0) cls))
    (order.filter fun i => s.portActive (mem.getD i 0))

/-- Record member `i` in the flowlet entry `k` (R94). -/
def State.putFlowlet (k g i : Nat) (s : State) : State := s.modSw fun w =>
  { w with flowlets := w.flowlets.set k (some ⟨g, i, s.ns⟩) }

/-- A flow takes the adaptive member anew; FLOWLET_MOVES counts a change of member (R94). -/
def State.freshFlowlet (k die g : Nat) (mem : List Nat) (a : Option Nat) (s : State) : Option Nat × State :=
  match a with
  | none => (none, s)
  | some i => (some (mem.getD i 0),
      if ((s.sw.flowlets.get k).map fun f => f.group == g && f.member != i) == some true then
        (s.putFlowlet k g i).bump (Adr.SWCORE_FLOWLET_MOVES die) 1
      else s.putFlowlet k g i)

/-- The flowlet entry of a flow hash (R94). -/
def flowletKey (die h : Nat) : Nat := die * 16384 + nbits h 13 0

/-- The member of a group for a packet, and the state with its flowlet entry (R94). -/
def State.groupMember (s : State) (die g mode : Nat) (mem : List Nat) (p : Packet) :
    Option Nat × State :=
  let h := hash16 (flowKey p) (s.seed die)
  if mode = 0 then ((s.flowMember mem h).map (mem.getD · 0), s)
  else if mode = 2 ∧ (s.rg (Adr.SWCORE_SPRAY_MASK die)).getLsbD p.cls then
    ((s.adaptive mem h p.cls).map (mem.getD · 0), s)
  else
    let k := flowletKey die h
    match (s.sw.flowlets.get k).filter fun f => f.group == g && decide (f.member < mem.length)
        && s.portActive (mem.getD f.member 0) && decide (s.ns < f.at_ + 8 * s.rf (Adr.SWCORE_FLOWLET_GAP die) 19 0) with
    | some f => (some (mem.getD f.member 0), s.putFlowlet k g f.member)
    | none => s.freshFlowlet k die g mem (s.adaptive mem h p.cls)

/-- Where lookup sends a packet. -/
inductive Route where
  | egress (p : Nat) | own | drop
  | miss | noPath | setBad | setClass
  /-- A malformed entry: the EID being resolved, and the packet's DST_EID in the member case. -/
  | bad (eid cap1 : Nat)
  deriving DecidableEq, Repr

/-- Resolve the entry of an EID of kind PORT, GROUP or LOCAL (R86, R87, R89). -/
def State.resolve (s : State) (die : Nat) (p : Packet) (eid cap1 : Nat) : Route × State :=
  let e := (s.view die).fwd eid
  let t := nbits e 11 0
  if nbits e 63 63 = 0 then (.miss, s)
  else if fwdBad e then (.bad eid cap1, s)
  else match nbits e 62 60 with
    | 0 =>
      let st := (s.port t).st
      if s.portExists t && (st == .active || st == .retrain) then (.egress t, s) else (.noPath, s)
    | 1 => match (s.view die).group t with
      | none => (.bad eid cap1, s)
      | some (mode, mem) => match s.groupMember die t mode mem p with
        | (some q, s) => (.egress q, s)
        | (none, s) => (.noPath, s)
    | 3 => (.own, s)
    | _ => (.drop, s)

/-- Lookup of an Avber packet (R86, R88): its route, the packet with its DST_EID rewritten by a set
(R118), and the state with the flowlet table. -/
def State.lookup (s : State) (die : Nat) (p : Packet) : Route × Packet × State :=
  let e := (s.view die).fwd p.dst
  if nbits e 63 63 = 1 ∧ !fwdBad e ∧ nbits e 62 60 = 2 then
    if p.cls ≠ 7 ∧ p.cls ≠ 8 then (.setClass, p, s)
    else match (s.view die).addrSet (nbits e 9 0) with
      | none => (.bad p.dst 0, p, s)
      | some (sh, mem) =>
        let m := mem.getD (pick (hash16 (p.reqAddr >>> sh) (s.seed die)) mem.length) 0
        let em := (s.view die).fwd m
        if nbits em 63 63 = 0 then (.setBad, p, s)
        else if fwdBad em then (.bad m p.dst, p, s)
        else if nbits em 62 60 = 2 ∨ nbits em 62 60 = 4 then (.setBad, p, s)
        else
          let q := p.setDst m
          let r := s.resolve die q m p.dst
          (r.1, q, r.2)
  else
    let r := s.resolve die p p.dst 0
    (r.1, p, r.2)

/-! ### The buffer (R96 to R99) -/

/-- Cells of a die: 655,360. -/
def dieCells : Nat := 655360

/-- Hold `n` cells for a packet from `from_`; `c` is its class (Avber) or traffic class. -/
def State.holdCells (from_ : Ingress) (die c n : Nat) (s : State) : State :=
  let s := s.modSw fun w => { w with held := w.held.modify die (· + n) }
  match from_ with
  | .port p => s.modPort p fun q => { q with occ := q.occ.modify c (· + n) }
  | .own _ => s.modSw fun w => { w with engine := w.engine.modify die (· + n) }

/-- Free the cells of a packet; on an Avber port they become waiting credits (R59, R65). -/
def State.freeCells (from_ : Ingress) (die c n epoch : Nat) (s : State) : State :=
  let s := s.modSw fun w => { w with held := w.held.modify die (· - n) }
  match from_ with
  | .port p =>
    let avber := s.portMode p == 0 && (s.port p).epoch == epoch
    s.modPort p fun q => { q with
      occ := q.occ.modify c (· - n)
      waiting := if avber then q.waiting ++ [(c, n)] else q.waiting }
  | .own _ => s.modSw fun w => { w with engine := w.engine.modify die (· - n) }

/-- The epoch of an ingress (R53 rule 5). -/
def State.epochOf (s : State) : Ingress → Nat
  | .port p => (s.port p).epoch
  | .own _ => 0

/-- Store a packet once, with one queue entry per egress (R96, R100). -/
def State.store (from_ : Ingress) (die occCls cells : Nat) (items : List Queued) (s : State) : State :=
  let id := s.nextId
  let s := s.takeNames 1
  let s := s.holdCells from_ die occCls cells
  s.modSw fun w => { w with
    stored := w.stored.set id ⟨from_, die, occCls, cells, items.length, s.epochOf from_⟩
    queues := w.queues ++ items.map fun q => { q with id := id, at_ := s.ns } }

/-- One copy of a stored packet has left; the last copy frees the cells (R96). -/
def State.copyGone (id : Nat) (s : State) : State :=
  let e := s.sw.stored.get id
  if e.copies ≤ 1 then
    (s.modSw fun w => { w with stored := w.stored.del id }).freeCells e.from_ e.die e.cls e.cells e.epoch
  else s.modSw fun w => { w with stored := w.stored.set id { e with copies := e.copies - 1 } }

/-- Whether an own unit of the die may take `n` more cells (R97, R98). -/
def State.engineRoom (s : State) (die n : Nat) : Bool :=
  !s.stopped 1 die && decide (s.sw.engine.get die + n ≤ s.rf (Adr.SWCORE_ENGINE_CELLS die) 19 0)

/-- A queue entry for an Avber packet at an egress port. -/
def State.queueItem (s : State) (egress : Nat) (p : Packet) : Queued :=
  { egress := egress, ctl := decide (p.cls ≤ 1), cls := p.cls, tc := s.tcOf egress p.cls, load := .pkt p }

/-- Put an own packet into the queue of an egress port, or let it stall for cells (R98). `sh` is the
sheaf that sends it, if one does. -/
def State.sendToPort (die egress : Nat) (sh : Option Nat) (p : Packet) (s : State) : State :=
  if s.engineRoom die (cellsOf p.len) then
    s.store (.own die) die p.cls (cellsOf p.len) [{ s.queueItem egress p with sheaf := sh }]
  else s.modSw fun w => { w with stalled := w.stalled ++ [(die, some egress, sh, p)] }

/-- Deliver a packet to the Ikion's own units (kind LOCAL). -/
def State.deliver (from_ : Ingress) (die : Nat) (p : Packet) (s : State) : State :=
  let id := s.nextId
  let s := s.takeNames 1
  let s := s.holdCells from_ die p.cls (cellsOf p.len)
  s.modSw fun w => { w with
    stored := w.stored.set id ⟨from_, die, p.cls, cellsOf p.len, 1, s.epochOf from_⟩
    local_ := w.local_ ++ [(id, from_, p)] }

/-- A packet built by an own unit of a die (`sh`: by this sheaf): looked up and queued, delivered, or dropped and counted
(R86, R89). The drop raises no event: this path carries the events themselves. -/
def State.sendFor (die : Nat) (sh : Option Nat) (p : Packet) (s : State) : State :=
  match s.lookup die p with
  | (.egress q, p, s) => s.sendToPort die q sh p
  | (.own, p, s) =>
    if s.engineRoom die (cellsOf p.len) then s.deliver (.own die) die p
    else s.modSw fun w => { w with stalled := w.stalled ++ [(die, none, sh, p)] }
  | (.miss, _, s) => s.bump (Adr.SWCORE_FWD_MISS die) 1
  | (.noPath, _, s) => s.bump (Adr.SWCORE_FWD_NO_PATH die) 1
  | (.setBad, _, s) => s.bump (Adr.SWCORE_SET_BAD die) 1
  | (.setClass, _, s) => s.bump (Adr.SWCORE_SET_CLASS die) 1
  | (.bad _ _, _, s) => s.bump (Adr.SWCORE_FWD_ENTRY_BAD die) 1
  | (.drop, _, s) => s

/-- A packet built by an own unit that is no sheaf. -/
def State.sendOwn (die : Nat) (p : Packet) (s : State) : State := s.sendFor die none p

/-- An own unit has consumed a packet that was delivered to it: its cells are freed (R65). -/
def State.consume (from_ : Ingress) (p : Packet) (s : State) : State :=
  match s.sw.local_.find? (fun d => d.2.1 == from_ && d.2.2 == p) with
  | none => s
  | some d => (s.modSw fun w => { w with local_ := w.local_.erase d }).copyGone d.1

end Sys2Proof.Machine
end

