-- ==== Sys2Proof/Machine/Faults.lean ====
section
/-! DEFINITION. Errors, interrupts, fault events and the audit log: the common error registers
(R457), the classes (R458), JOB_FATAL (R460), the event ring and FAULT_EVENT packets (R461, R462),
interrupt messages (R416 to R418), the audit log (R471). -/

set_option Elab.async false

namespace Sys2Proof.Machine
open Sys2Proof

/-! ### Interrupt messages -/

/-- Send MSI-X vector `v` of function `f`, or set its pending bit (R418). -/
def State.msix (f v : Nat) (s : State) : State :=
  let fn := s.host.fns.get f
  let e := fn.vecs.get v
  if fn.bme && fn.msixEn && e.unmasked then
    (s.emit (.msix f v)).bump Adr.HOSTP_MSI_SENT 1
  else s.modHost fun h => { h with fns := h.fns.set f { fn with vecs := fn.vecs.set v { e with pending := true } } }

/-- Header of a chain frame (Table 16-7), TTL 63. -/
def chainHdr (type dst src dstHi prio tag len arg : Nat) : Nat :=
  arg % 2 ^ 64 + len * 2 ^ 64 + tag * 2 ^ 80 + prio * 2 ^ 96 + 63 * 2 ^ 104 + dstHi * 2 ^ 110
    + src * 2 ^ 112 + dst * 2 ^ 118 + type * 2 ^ 124

/-- A chain frame: header, payload, CRC-32C over both (R426). -/
def chainFrame (hdr : Nat) (payload : List Byte) : List Byte :=
  let b := leBytes 16 hdr ++ payload
  b ++ leBytes 4 (crc32c b).toNat

/-- Send a chain frame out of port A (`false`) or B (`true`). -/
def State.chainSend (portB : Bool) (hdr : Nat) (payload : List Byte) (s : State) : State :=
  s.emit (.chain portB (chainFrame hdr payload))

/-- An EVENT with `code` and an argument out of a port (R426, R430). -/
def State.chainEventOn (portB : Bool) (code arg : Nat) (s : State) : State :=
  s.chainSend portB (chainHdr 7 0 s.chain.pos 0 0 0 0 (code * 2 ^ 8 + arg)) []

/-- An EVENT toward the lead: out of the port from which the position came (R426; log entry 14). -/
def State.chainEvent (code arg : Nat) (s : State) : State := s.chainEventOn s.chain.leadB code arg

/-- A block signals PF vector `v`: a message at the lead, a chain EVENT at a follower (R416). -/
def State.pfVector (v : Nat) (s : State) : State :=
  if s.chain.st == .follower && s.chain.placed then s.chainEvent 1 v else s.msix 0 v

/-- The VFs bound to a job slot (R414). -/
def State.boundVfs (s : State) (slot : Nat) : List Nat :=
  (s.hub.tabs.filter fun e => decide (0x03480000 ≤ e.1) && decide (e.1 < 0x03481000)
      && bit e.2 31 && bits e.2 9 0 == slot).map fun e => (e.1 - 0x03480000) / 4 + 1

/-- The interrupt condition of bit `b` of a page (R416). -/
def State.intCond (s : State) (k : PageKind) (i b : Nat) : Bool :=
  bit (s.rg (adr k i Adr.H_INT_STATUS)) b && bit (s.rg (adr k i Adr.H_INT_ENABLE)) b
    && bit (s.rg (adr k i Adr.H_CTRL)) 0

/-- The message of a page whose interrupt condition has become true (R416, R417). -/
def State.intMessage (k : PageKind) (i : Nat) (s : State) : State :=
  let s := s.pfVector (s.rf (adr k i Adr.H_INT_VECTOR) 5 0)
  if k = .job then (s.boundVfs i).foldl (fun s f => s.msix f 0) s else s

/-- Set bit `b` of a page's INT_STATUS and signal it (R416). -/
def State.raiseInt (k : PageKind) (i b : Nat) (s : State) : State :=
  let a := adr k i Adr.H_INT_STATUS
  if bit (s.rg a) b then s
  else
    let s := s.setRf a b b 1
    if s.intCond k i b then s.intMessage k i else s

/-! ### Error registers of a page (R457) -/

/-- Set up to four captures. -/
def State.setCaps (a : Nat) : List Nat → State → State
  | [], s => s
  | c :: cs, s => State.setCaps (a + 4) cs (s.setRg a (w32 c))

/-- Set an error bit with its first-error capture; a newly set, unmasked bit raises INT_STATUS.ERR. -/
def State.setErr (e : Err) (i : Nat) (caps : List Nat) (s : State) : State :=
  let st := adr e.page i Adr.H_ERR_STATUS
  if bit (s.rg st) e.bit then s
  else
    let first := adr e.page i Adr.H_ERR_FIRST
    let s := s.setRf st e.bit e.bit 1
    let s := if bit (s.rg first) 31 then s
      else ((s.setRg first (w32 (2 ^ 31 + e.bit))).setCaps (adr e.page i Adr.H_ERR_CAPTURE)
        ((caps ++ [0, 0, 0, 0]).take 4))
    if bit (s.rg (adr e.page i Adr.H_ERR_MASK)) e.bit then s else s.raiseInt e.page i 31

/-- Register address [25:12] of a page. -/
def pageNo (k : PageKind) (i : Nat) : Nat := adr k i 0 >>> 12

/-! ### The audit log (R471) -/

/-- Write an audit log entry (Tables 18-7 and 18-8). -/
def State.logAudit (kind page a b c : Nat) (s : State) : State :=
  let q := s.flt.logSeq
  let s := if q < 32768 then s else s.bump Adr.FAULT_LOG_OVERWRITTEN 1
  (s.modFlt fun f => { f with
    log := f.log.set (q % 32768) ⟨s.ns, q, kind, page, a % 2 ^ 32, b % 2 ^ 32, c % 2 ^ 32⟩
    logSeq := q + 1 }).setRg64 Adr.FAULT_LOG_SEQ_LO (q + 1)

/-! ### The event ring (R461) -/

/-- CLASS of the event record (Table 18-2). -/
def classCode : ErrClass → Nat
  | .corrected => 0 | .deferred => 1 | .jobFatal => 2 | .domainFatal => 3 | .deviceFatal => 4

/-- The record of Table 18-2 as a number of 256 bits. -/
def eventRec (time seq c0 c1 page bitNo cls : Nat) (fjid : Option Nat) (lost : Bool) : Nat :=
  b2n lost * 2 ^ 20 + b2n fjid.isSome * 2 ^ 21 + (fjid.getD 0) * 2 ^ 22 + cls * 2 ^ 42
    + bitNo * 2 ^ 45 + page * 2 ^ 50 + (c1 % 2 ^ 32) * 2 ^ 64 + (c0 % 2 ^ 32) * 2 ^ 96
    + (seq % 2 ^ 64) * 2 ^ 128 + (time % 2 ^ 64) * 2 ^ 192

/-- A ring index with a phase bit at `lg` moves on by one (Table 2-11). -/
def ringNext (x lg : Nat) : Nat := (x + 1) % 2 ^ (lg + 1)

/-- Equal indices with different phases: full (Table 2-11). -/
def ringFull (prod cons lg : Nat) : Bool :=
  prod % 2 ^ lg == cons % 2 ^ lg && nbits prod lg lg != nbits cons lg lg

/-- One FAULT_EVENT copy to a destination, within EV_PKT_LIMIT per millisecond (R462). -/
def State.faultCopy (second : Bool) (record : Nat) (s : State) : State :=
  let eid := if second then s.rf Adr.FAULT_FM_EID 31 16 else s.rf Adr.FAULT_FM_EID 15 0
  if eid = 0 then s
  else
    let ms := s.ns / 1000000
    let s := if s.flt.evMs = ms then s
      else s.modFlt fun f => { f with evMs := ms, evSent0 := 0, evSent1 := 0 }
    let sent := if second then s.flt.evSent1 else s.flt.evSent0
    if sent < s.rf Adr.FAULT_EV_PKT_LIMIT 15 0 then
      let s := s.modFlt fun f =>
        if second then { f with evSent1 := f.evSent1 + 1 } else { f with evSent0 := f.evSent0 + 1 }
      s.sendOwn 0 (mkPkt 1 (0x1 * 2 ^ 28) (s.localEid 0) eid s.stamp false (leBytes 32 record))
    else s.bump Adr.FAULT_EV_PKT_DROP 1

/-- Write one event record to the ring and send its copies; SEQ advances whether it is written or
dropped (R461). -/
def State.event (page bitNo cls c0 c1 : Nat) (fjid : Option Nat) (s : State) : State :=
  let seq := s.flt.evSeq
  let s := s.modFlt fun f => { f with evSeq := f.evSeq + 1 }
  let cfg := s.rg Adr.FAULT_EVQ_CFG
  let lg := bits cfg 4 0
  if !bit cfg 31 then s.modFlt fun f => { f with lost := true }
  else
    let prod := (s.rg Adr.FAULT_EVQ_PROD).toNat
    let cons := (s.rg Adr.FAULT_EVQ_CONS).toNat
    if ringFull prod cons lg then
      let s := s.modFlt fun f => { f with lost := true }
      (s.bump Adr.FAULT_EVQ_DROP 1).setErr Err.fault_EVQ_OVERFLOW 0 []
    else
      let r := eventRec s.ns seq c0 c1 page bitNo cls fjid s.flt.lost
      let s := s.setBarnNum (s.rg64 Adr.FAULT_EVQ_BASE_LO + 32 * (prod % 2 ^ lg)) 32 r
      let s := s.setRg Adr.FAULT_EVQ_PROD (w32 (ringNext prod lg))
      let s := (s.modFlt fun f => { f with lost := false }).bump Adr.FAULT_EVENTS 1
      let s := s.raiseInt .fault 0 0
      (s.faultCopy false r).faultCopy true r

/-! ### Raising an error (R457 to R460) -/

/-- Set JOB_FATAL of a slot and JOB[s].INT_STATUS.FATAL (R460). -/
def State.jobFatal (slot : Nat) (s : State) : State :=
  let s := s.setRf (Adr.FAULT_JOB_FATAL (slot / 32)) (slot % 32) (slot % 32) 1
  (s.raiseInt .job slot 2).raiseInt .fault 0 1

/-- Slots that are not FREE and whose FJID register holds `fjid`. -/
def State.jobSlotsOf (s : State) (fjid : Nat) : List Nat :=
  (s.ttu.jobs.filter fun e => e.2 != .free && s.rf (Adr.JOB_FJID e.1) 19 0 == fjid).map (·.1)

/-- The block raises an error: its bit with capture, an event if the bit is newly set and its
severity bit is 1, and the containment that every class brings (Table 18-1). Device-fatal errors take
`State.deviceFatal` in addition. -/
def State.raise (e : Err) (i : Nat) (caps : List Nat) (fjid : Option Nat) (s : State) : State :=
  let fresh := !bit (s.rg (adr e.page i Adr.H_ERR_STATUS)) e.bit
  let masked := bit (s.rg (adr e.page i Adr.H_ERR_MASK)) e.bit
  let s := s.setErr e i caps
  let s := match e.cls, fjid with
    | .jobFatal, some f => (s.jobSlotsOf f).foldl (fun s j => s.jobFatal j) s
    | _, _ => s
  if masked || !fresh then s
  else
    let s := match e.cls with
      | .domainFatal => s.raiseInt .fault 0 2
      | .deviceFatal => s.raiseInt .fault 0 3
      | _ => s
    if bit (s.rg (adr e.page i Adr.H_ERR_SEVERITY)) e.bit then
      s.event (pageNo e.page i) e.bit (classCode e.cls) (caps.getD 0 0) (caps.getD 1 0) fjid
    else s

/-- A tally audit finds `found` where `want` is due (R470): `id` is the audit of Table 18-6, 0 for the
walks, which have no ID (log entry 16). -/
def State.tallyMismatch (id want found : Nat) (e : Err) (i : Nat) (caps : List Nat) (s : State) : State :=
  let s := s.raise e i caps none
  let s := if id = 0 then s else s.setRf Adr.FAULT_AUDIT_STATUS id id 1
  ((s.bump Adr.FAULT_AUDIT_MISMATCHES 1).raiseInt .fault 0 4).logAudit 2 (pageNo e.page i) id want found

end Sys2Proof.Machine
end

