-- ==== Sys2Proof/Machine/Drop.lean ====
section
/-! DEFINITION. Responses and drops that many units share: building an MRSP (R116), the drops of
lookup with their reports (R89, R117), cells freed to own units that stalled (R98), and what a port's
exit from ACTIVE and RETRAIN does to tags (R134). -/

set_option Elab.async false

namespace Sys2Proof.Machine
open Sys2Proof

/-- The MRSP of a request (R116, Table 5-5). -/
def mkMrsp (req : Packet) (status pmap stamp : Nat) (data : List Byte) : Packet :=
  let size := if status = 0 then data.length else 0
  mkPkt 3 req.spec req.dst req.src stamp (pmap != 0 && status == 0)
    (leBytes 16 (req.fjid * 2 ^ 27 + size * 2 ^ 47 + status * 2 ^ 60
      + (if status = 0 then pmap else 0) * 2 ^ 64) ++ (if status = 0 then data else []))

/-- Send an MRSP that carries only a status. -/
def State.respond (die : Nat) (req : Packet) (status : Nat) (s : State) : State :=
  s.sendOwn die (mkMrsp req status 0 s.stamp [])

/-- A packet dropped for want of a path or of an entry; an MREQ is answered with NO_ROUTE (R117). -/
def State.noRoute (die : Nat) (p : Packet) (s : State) : State :=
  if p.cls = 8 then (s.respond die p 8).bump (Adr.TTU_NO_ROUTE_SENT die) 1 else s

/-- FWD_NO_PATH (R89). -/
def State.dropNoPath (die : Nat) (p : Packet) (s : State) : State :=
  ((s.bump (Adr.SWCORE_FWD_NO_PATH die) 1).raise Err.swcore_FWD_NO_PATH die [] none).noRoute die p

/-- The report of a drop in lookup (R86, R88, R89). -/
def State.dropReport (die : Nat) (p : Packet) (r : Route) (s : State) : State :=
  match r with
  | .miss => (s.bump (Adr.SWCORE_FWD_MISS die) 1).noRoute die p
  | .noPath => s.dropNoPath die p
  | .setBad => (s.bump (Adr.SWCORE_SET_BAD die) 1).raise Err.swcore_SET_BAD die [] none
  | .setClass => s.bump (Adr.SWCORE_SET_CLASS die) 1
  | .bad e c1 => (s.bump (Adr.SWCORE_FWD_ENTRY_BAD die) 1).raise Err.swcore_FWD_ENTRY_BAD die [e, c1] none
  | _ => s

/-- Admit packets of own units that stalled, in order, while cells suffice: MRSPs (`mrsp`), built when
cells are there, or all others (R98, R516). -/
def State.unstallN (mrsp : Bool) : Nat → State → State
  | 0, s => s
  | n + 1, s =>
    match s.sw.stalled.find? fun e => (e.2.2.2.cls == 3) == mrsp with
    | none => s
    | some (die, eg, sh, p) =>
      if s.engineRoom die (cellsOf p.len) then
        let s := s.modSw fun w => { w with stalled := w.stalled.erase (die, eg, sh, p) }
        let p := if mrsp then p.setStamp s.stamp else p
        State.unstallN mrsp n (match eg with
          | some q => s.sendToPort die q sh p
          | none => s.sendFor die sh p)
      else s

/-- Admit stalled packets other than MRSPs after cells were freed. -/
def State.unstall (s : State) : State := State.unstallN false s.sw.stalled.length s

/-- Quarantined tags of a port are released, and held ones remember that the port has left (R134). -/
def State.portLeftTags (p : Nat) (s : State) : State :=
  s.modTtu fun t => { t with tags := t.tags.map fun _ e => match e with
    | some g => if g.target = p then (if g.quar then none else some { g with left := true }) else some g
    | none => none }

end Sys2Proof.Machine
end

