-- ==== Sys2Proof/Machine/Obs.lean ====
section
/-! DEFINITION. Observation: the global counters (R473), the trace ring (R476) and the sample ring
(R477). -/

set_option Elab.async false

namespace Sys2Proof.Machine
open Sys2Proof

/-! ### Global counters (R473) -/

/-- Whether a counter's SEL and FJID words let an increment pass; a filter that does not apply to the
event matches everything. -/
def gctrHit (sel fj : Word) (ev die : Nat) (port tc fjid : Option Nat) : Bool :=
  bit sel 31 && bits sel 23 16 == ev && (bits sel 30 29 == 2 || bits sel 30 29 == die)
    && (match port with | some p => bit sel 15 || bits sel 8 0 == p | none => true)
    && (match tc with | some t => bit sel 11 || bits sel 14 12 == t | none => true)
    && (match fjid with | some f => !bit fj 31 || bits fj 19 0 == f | none => true)

/-- Count `inc` of event `ev` (Table 18-9) of a die. -/
def State.gcount (ev inc die : Nat) (port tc fjid : Option Nat) (s : State) : State :=
  (s.hub.regs.filter fun e => decide (Adr.OBS_GCTR_SEL 0 ≤ e.1) && decide (e.1 < Adr.OBS_GCTR_SEL 64)
      && e.1 % 16 == 0).foldl (fun s e =>
    if gctrHit (s.rg e.1) (s.rg (e.1 + 4)) ev die port tc fjid then s.bump (e.1 + 8) inc else s) s

/-! ### Rings -/

/-- Take a slot of a ring whose configuration has EN in bit 31 and LOG2 in `[4:0]`: the barn address
of the next record of `size` bytes, or `none` if the ring is full. -/
def State.ringSlot (s : State) (base cfg prod cons size : Nat) : Option Nat :=
  let lg := s.rf cfg 4 0
  if ringFull (s.rg prod).toNat (s.rg cons).toNat lg then none
  else some (s.rg64 base + size * ((s.rg prod).toNat % 2 ^ lg))

/-- Advance an index register of a ring. -/
def State.ringStep (idx cfg : Nat) (s : State) : State :=
  s.setRg idx (w32 (ringNext (s.rg idx).toNat (s.rf cfg 4 0)))

/-- The fields of a trace record that follow KIND (Table 18-11). -/
structure TraceInfo where
  kind : Nat := 2
  cls : Nat := 0
  port : Nat := 0x1FF
  wp : Nat := 0
  op : Nat := 0
  status : Nat := 0
  fjid : Nat := 0
  src : Nat := 0
  dst : Nat := 0
  len : Nat := 0
  addr : Nat := 0
  data : Nat := 0
  deriving DecidableEq, Repr, Inhabited

/-- The record as a number of 512 bits. -/
def traceRec (time : Nat) (t : TraceInfo) : Nat :=
  t.data % 2 ^ 256 + (t.addr % 2 ^ 57) * 2 ^ 295 + t.len * 2 ^ 352 + t.dst * 2 ^ 365
    + t.src * 2 ^ 381 + t.fjid * 2 ^ 397 + t.status * 2 ^ 417 + t.op * 2 ^ 421 + t.wp * 2 ^ 425
    + t.port * 2 ^ 431 + t.cls * 2 ^ 440 + t.kind * 2 ^ 444 + time * 2 ^ 448

/-- Store a trace record at the ring's head. -/
def State.traceStore (t : TraceInfo) (s : State) : State :=
  let lg := s.rf Adr.OBS_TRACE_CFG 4 0
  let a := s.rg64 Adr.OBS_TRACE_BASE_LO + 64 * ((s.rg Adr.OBS_TRACE_PROD).toNat % 2 ^ lg)
  ((s.setBarnNum a 64 (traceRec s.ns t)).ringStep Adr.OBS_TRACE_PROD Adr.OBS_TRACE_CFG).bump
    Adr.OBS_TRACE_RECORDS 1

/-- Write a trace record (R476). -/
def State.trace (t : TraceInfo) (s : State) : State :=
  if !bit (s.rg Adr.OBS_TRACE_CFG) 31 || s.obs.frozen then s
  else if ringFull (s.rg Adr.OBS_TRACE_PROD).toNat (s.rg Adr.OBS_TRACE_CONS).toNat (s.rf Adr.OBS_TRACE_CFG 4 0) then
    let s := s.raiseInt .obs 0 1
    if bit (s.rg Adr.OBS_TRACE_CFG) 30 then
      (s.ringStep Adr.OBS_TRACE_CONS Adr.OBS_TRACE_CFG).traceStore t
    else s.bump Adr.OBS_TRACE_DROP 1
  else s.traceStore t

/-- Bytes 32 to 63 of a packet for a trace record, if payload capture is on and the mode is not
SEALED. -/
def State.traceData (s : State) (p : Packet) : Nat :=
  if bit (s.rg Adr.SEC_DIAG_CTRL) 0 && s.sec.mode != .sealed then leNat (p.bytes 32 (min 32 (p.len - 32))) else 0

/-- The window address of a sheaf table entry (R274). -/
def sheafAt (i : Nat) : Nat := 0x02200000 + 128 * i

/-- The field `[hi:lo]` of the configuration of a sheaf (Table 11-1). -/
def State.shf (s : State) (i hi lo : Nat) : Nat := nbits (s.entry (sheafAt i) 32) hi lo

/-- The FJID of a packet for a trace record: MREQ and CREQ, SHEAF and CARV have one. -/
def State.traceFjid (s : State) (p : Packet) : Nat :=
  match p.cls with
  | 7 | 8 => p.fjid
  | 9 => s.shf p.sheafId 1003 984
  | 10 => p.cf 221 202
  | _ => 0

/-- The packet source of the trace ring: one packet in 2^RATE_LOG2 of those eligible per class. -/
def State.tracePacket (port : Nat) (p : Packet) (s : State) : State :=
  let c := s.rg Adr.OBS_PKT_TRACE_CFG
  if bit c 31 && bits c 8 0 == port && bit c (10 + p.cls) then
    let n := s.obs.seen.get p.cls + 1
    let s := s.modObs fun o => { o with seen := o.seen.set p.cls (n % 2 ^ bits c 27 24) }
    if n % 2 ^ bits c 27 24 = 0 then
      s.trace { cls := p.cls, port := port, fjid := s.traceFjid p, src := p.src, dst := p.dst
                op := if p.cls = 7 ∨ p.cls = 8 then p.op else 0, len := p.len
                addr := if p.cls = 7 ∨ p.cls = 8 then p.reqAddr else 0, data := s.traceData p }
    else s
  else s

/-- Write one queue sample record (R108, R477). -/
def State.sample (die record : Nat) (s : State) : State :=
  if !bit (s.rg Adr.OBS_SAMPLE_RING_CFG) 31 then s
  else match s.ringSlot Adr.OBS_SAMPLE_BASE_LO Adr.OBS_SAMPLE_RING_CFG Adr.OBS_SAMPLE_PROD Adr.OBS_SAMPLE_CONS 16 with
    | none => s.bump (Adr.SWCORE_SAMPLE_DROP die) 1
    | some a => ((s.setBarnNum a 16 record).ringStep Adr.OBS_SAMPLE_PROD Adr.OBS_SAMPLE_RING_CFG).bump
        Adr.OBS_SAMPLE_RECORDS 1

/-- A packet was dropped at a port: event 0x03. -/
def State.countDrop (port tc : Nat) (s : State) : State :=
  s.gcount 0x03 1 (portDie port) (some port) (some tc) none

end Sys2Proof.Machine
end

