-- ==== Sys2Proof/Machine/ExtCore.lean ====
section
/-! DEFINITION. Extents, leases and snapshot regions as the receiving side reads them: the checks of
R165, the lookup of leases (R168), resolution through regions (R175 to R178). -/

set_option Elab.async false

namespace Sys2Proof.Machine
open Sys2Proof

/-! ### Extents and leases -/

def State.extent (s : State) (e : Nat) : Extent := s.ext.exts.get e
def State.setExtent (e : Nat) (x : Extent) (s : State) : State :=
  s.modExt fun u => { u with exts := u.exts.set e x }

def extStNo : ExtSt → Nat
  | .free => 0 | .owned => 1 | .fencing => 2 | .fenced => 3

/-- The extent entry as 256 bits (Table 7-1). -/
def Extent.word (x : Extent) : Nat :=
  x.fenceTime % 2 ^ 64 + x.regions * 2 ^ 100 + x.leases * 2 ^ 115 + x.epoch * 2 ^ 132 + x.size * 2 ^ 164
    + x.base * 2 ^ 188 + x.next * 2 ^ 212 + x.owner * 2 ^ 232 + b2n x.handover * 2 ^ 252 + extStNo x.st * 2 ^ 253

/-- The lease record as 256 bits (Table 7-3). -/
def Lease.word (l : Lease) : Nat :=
  l.granted % 2 ^ 64 + (l.expiry % 2 ^ 64) * 2 ^ 64 + l.epoch * 2 ^ 160 + l.ext * 2 ^ 214 + l.holder * 2 ^ 232
    + b2n l.expired * 2 ^ 252 + b2n l.rw * 2 ^ 253 + b2n l.valid * 2 ^ 255

/-- The set of (extent, FJID) (R168). -/
def State.leaseSet (s : State) (e fjid : Nat) : Nat :=
  hash16 (e + fjid * 2 ^ 18) (s.rg64 Adr.EXT_LEASE_SEED_LO) % 2 ^ 14

/-- The record of (extent, FJID): its place in the table. -/
def State.leaseAt (s : State) (e fjid : Nat) : Option Nat :=
  ((List.range 4).map (4 * s.leaseSet e fjid + ·)).find? fun k =>
    let l := s.ext.leases.get k
    l.valid && l.ext == e && l.holder == fjid

/-- The extent check (R165) of a page at granules `lo` to `hi`: the failing status and whether the
manifest entry is bad. -/
def State.extentCheck (s : State) (e fjid op lo hi : Nat) : Option (Nat × Bool) :=
  let x := s.extent e
  if x.st == .free then some (6, false)
  else if lo < x.base ∨ x.base + x.size ≤ hi then some (1, true)
  else if x.st != .owned then some (6, false)
  else if fjid = x.owner then none
  else match s.leaseAt e fjid with
    | none => some (2, false)
    | some k =>
      let l := s.ext.leases.get k
      if l.expired || decide (l.expiry ≤ s.ns) then some (12, false)
      else if !l.rw && op != 0 then some (2, false)
      else none

/-! ### Snapshot regions -/

def State.region (s : State) (r : Nat) : Region := s.ext.regions.get r
def State.setRegion (r : Nat) (x : Region) (s : State) : State :=
  s.modExt fun u => { u with regions := u.regions.set r x }

def regionStNo : RegionSt → Nat
  | .free => 0 | .init => 1 | .ready => 2 | .destroying => 3

/-- The region entry as 512 bits (Table 7-6). -/
def Region.word (x : Region) : Nat :=
  x.freeHead * 2 ^ 56 + x.recFree * 2 ^ 80 + x.recCount * 2 ^ 104 + x.recBase * 2 ^ 128 + x.mapBase * 2 ^ 192
    + x.viewVer * 2 ^ 256 + x.floor * 2 ^ 288 + x.newest * 2 ^ 320 + x.head * 2 ^ 352 + x.views * 2 ^ 432
    + x.live * 2 ^ 446 + x.shift * 2 ^ 453 + x.baseRegion * 2 ^ 458 + x.spare * 2 ^ 472 + x.ext * 2 ^ 490
    + b2n x.view * 2 ^ 508 + regionStNo x.st * 2 ^ 509

/-- Barn addresses of a version slot, a block head and a record (R175). -/
def Region.slotAt (x : Region) (i : Nat) : Nat := x.mapBase + 16 * i
def Region.headAt (x : Region) (b : Nat) : Nat := x.mapBase + 1024 + 16 * b
def Region.recAt (x : Region) (i : Nat) : Nat := x.recBase + 16 * i

/-- Fields of a version slot (Table 7-7): STATE, VIEWS, VERSION, OPENED. -/
def slotWord (st views ver opened : Nat) : Nat := opened % 2 ^ 64 + ver * 2 ^ 64 + views * 2 ^ 111 + st * 2 ^ 125
def State.slotNum (s : State) (x : Region) (i : Nat) : Nat := s.barnNum (x.slotAt i) 16
def slotSt (w : Nat) : Nat := nbits w 127 125
def slotVer (w : Nat) : Nat := nbits w 95 64
def slotViews (w : Nat) : Nat := nbits w 124 111

/-- A block head or record (Table 7-8): VERSION, NEXT, PPA of the copy. -/
def recWord (valid : Bool) (next ver ppa : Nat) : Nat :=
  ppa / 4096 * 4096 + ver * 2 ^ 64 + next * 2 ^ 103 + b2n valid * 2 ^ 127
def recNext (w : Nat) : Nat := nbits w 126 103
def recVer (w : Nat) : Nat := nbits w 95 64
def recPpa (w : Nat) : Nat := nbits w 51 12 * 4096
def noRec : Nat := 0xFFFFFF

/-- The base PPA of an extent. -/
def Extent.ppa (x : Extent) : Nat := x.base * 2 ^ 28

/-- Blocks of an extent at a block size. -/
def Extent.blocks (x : Extent) (shift : Nat) : Nat := x.size * 2 ^ 28 / 2 ^ shift

/-- PPA of a block of the base extent and of a spare block (R175). -/
def State.baseBlock (s : State) (x : Region) (b : Nat) : Nat := (s.extent x.ext).ppa + b * 2 ^ x.shift
def State.spareBlock (s : State) (x : Region) (i : Nat) : Nat := (s.extent x.spare).ppa + i * 2 ^ x.shift

/-- The block of a PPA in a region. -/
def State.blockOf (s : State) (x : Region) (ppa : Nat) : Nat := (ppa - (s.extent x.ext).ppa) >>> x.shift

/-- The first record of a chain whose VERSION is not newer than `v` (R178). -/
def State.chase (s : State) (x : Region) (v : Nat) : Nat → Nat → Option Nat
  | 0, _ => none
  | n + 1, i =>
    if i = noRec then none
    else
      let w := s.barnNum (x.recAt i) 16
      if newer (recVer w) v 32 then s.chase x v n (recNext w) else some i

/-- Where a view finds a block (R178): its PPA. -/
def State.viewBlock (s : State) (base : Region) (v b : Nat) : Nat :=
  let h := s.barnNum (base.headAt b) 16
  if newer (recVer h) v 32 then
    match s.chase base v (base.recCount + 1) (recNext h) with
    | some i => recPpa (s.barnNum (base.recAt i) 16)
    | none => s.baseBlock base b
  else s.baseBlock base b

/-- A record of a chain lies on a poisoned barn line. -/
def State.chainLost (s : State) (x : Region) : Nat → Nat → Bool
  | 0, _ => false
  | n + 1, i =>
    i != noRec && (s.poisoned (x.recAt i / 64) || s.chainLost x n (recNext (s.barnNum (x.recAt i) 16)))

/-- The head of a block or one of its records cannot be read: every line of the block is poisoned for every
version (Table 7-11). -/
def State.blockLost (s : State) (base : Region) (b : Nat) : Bool :=
  s.poisoned (base.headAt b / 64) || s.chainLost base (base.recCount + 1) (recNext (s.barnNum (base.headAt b) 16))

/-- A write to block `b` needs a copy first (R177). -/
def State.needsCopy (s : State) (x : Region) (b : Nat) : Bool :=
  let h := recVer (s.barnNum (x.headAt b) 16)
  x.newest != 0 && h != x.head && !newer h x.newest 32

/-- A slot of the region is OPENING (R179). -/
def State.opening (s : State) (x : Region) : Bool :=
  (List.range 64).any fun i => slotSt (s.slotNum x i) == 1

/-- Cut a run of bytes at multiples of `n` of its PPA. -/
def cutSegs (n : Nat) : Nat → Seg → List Seg
  | 0, g => [g]
  | fuel + 1, g =>
    let k := n - g.ppa % n
    if g.len ≤ k then [g]
    else { g with len := k } :: cutSegs n fuel { off := g.off + k, len := g.len - k, ppa := g.ppa + k }

/-- Resolve a run of bytes through a region (R177, R178): the runs it reads or writes, and the blocks
that a write goes through; a failure is a status and whether the manifest entry is bad. -/
def State.snapResolve (s : State) (r e op : Nat) (g : Seg) :
    Except (Nat × Bool) (List Seg × List (Nat × Nat)) :=
  let x := s.region r
  if x.st != .ready || x.bad then .error (12, false)
  else if x.ext ≠ e then .error (1, true)
  else if x.view then
    if op ≠ 0 then .error (2, false)
    else
      let b := s.region x.baseRegion
      if b.bad then .error (12, false)
      else .ok ((cutSegs (2 ^ x.shift) 5 g).map fun h =>
        { h with ppa := s.viewBlock b x.viewVer (s.blockOf x h.ppa) + h.ppa % 2 ^ x.shift
                 bad := s.blockLost b (s.blockOf x h.ppa) }, [])
  else
    let hs := (cutSegs (2 ^ x.shift) 5 g).map fun h => { h with bad := s.blockLost x (s.blockOf x h.ppa) }
    .ok (hs, if op = 0 then [] else hs.map fun h => (r, s.blockOf x h.ppa))

end Sys2Proof.Machine
end

