-- ==== Sys2Proof/Machine/TierCore.lean ====
section
/-! DEFINITION. The pool map (R124), CXL decoders (R78), and the tier cache as requests meet it: frames
(R190), victims (R196), fills and writebacks (R193 to R197). -/

set_option Elab.async false

namespace Sys2Proof.Machine
open Sys2Proof

/-! ### The pool map (Table 5-8) -/

def poolAt (i : Nat) : Nat := 0x01220000 + 16 * i
def State.poolEntry (s : State) (i : Nat) : Nat := s.entry (poolAt i) 4
def poolKind (e : Nat) : Nat := nbits e 126 125
def poolBase (e : Nat) : Nat := nbits e 51 28 * 2 ^ 28
def poolSize (e : Nat) : Nat := nbits e 11 0 * 2 ^ 28
def poolIg (e : Nat) : Nat := nbits e 15 12

/-- A malformed entry matches no PPA. -/
def poolBad (e : Nat) : Bool :=
  poolKind e == 3 || nbits e 11 0 == 0 || (poolKind e == 0 && decide (6 < poolIg e))
    || (poolKind e != 0 && (nbits e 27 16 != 0 || poolIg e != 0)) || nbits e 124 52 != 0

/-- The first entry that matches a PPA. -/
def State.poolFind (s : State) (ppa : Nat) : Option Nat :=
  leastBelow 256 fun i =>
    let e := s.poolEntry i
    nbits e 127 127 == 1 && !poolBad e && decide (poolBase e ≤ ppa) && decide (ppa < poolBase e + poolSize e)

/-! ### CXL decoders (R78) -/

def State.hdmBase (s : State) (p i : Nat) : Nat := s.rf (Adr.PORT_HDM_BASE p i) 23 0 * 2 ^ 28
def State.hdmSize (s : State) (p i : Nat) : Nat := s.rf (Adr.PORT_HDM_SIZE p i) 24 0 * 2 ^ 28
def State.hdmCtrl (s : State) (p i : Nat) : Word := s.rg (Adr.PORT_HDM_CTRL p i)

/-- Decoder `i` of port `p` matches a PPA. -/
def State.hdmMatch (s : State) (ppa p i : Nat) : Bool :=
  let c := s.hdmCtrl p i
  let g := bits c 7 4 + 8
  bit c 0 && decide (s.hdmBase p i ≤ ppa) && decide (ppa < s.hdmBase p i + s.hdmSize p i)
    && ((ppa - s.hdmBase p i) >>> g) % 2 ^ bits c 3 1 == bits c 11 8

/-- The device physical address of a PPA at a decoder. -/
def State.dpa (s : State) (ppa p i : Nat) : Nat :=
  let c := s.hdmCtrl p i
  let g := bits c 7 4 + 8
  let off := ppa - s.hdmBase p i
  ((off >>> (g + bits c 3 1)) <<< g) ||| (off % 2 ^ g)

/-- CXL ports: ports in mode 2 on octets 0 to 15. -/
def State.cxlPorts (s : State) : List Nat := (List.range 128).filter fun p => s.portExists p && s.portMode p == 2

/-- The CXL port whose enabled decoder matches a PPA, and the device address. -/
def State.cxlFind (s : State) (ppa : Nat) : Option (Nat × Nat) :=
  s.cxlPorts.findSome? fun p => ((List.range 4).find? (s.hdmMatch ppa p)).map fun i => (p, s.dpa ppa p i)

/-! ### Decoding a PPA (R124) -/

/-- What a PPA decodes to. -/
inductive Decoded where
  | none_
  | avber (i p : Nat)
  | cxl (i p : Nat)
  | gran (i : Nat)
  deriving DecidableEq, Repr

/-- The tray channel of a PPA: the member of the entry's path group. -/
def State.channel (s : State) (die e ppa : Nat) : Option Nat :=
  ((s.view die).group (nbits e 27 16)).map fun g =>
    g.2.getD (pick (hash16 (ppa >>> (poolIg e + 8)) (s.seed die)) g.2.length) 0

/-- The granary logical unit of a PPA (R201). -/
def State.granLu (s : State) (ppa : Nat) : Nat := (ppa - s.rg64 Adr.GRAN_PPA_BASE_LO) >>> 16

/-- Decode a PPA on a die. -/
def State.decode (s : State) (die ppa : Nat) : Decoded :=
  match (s.view die).poolFind ppa with
  | none => .none_
  | some i =>
    let e := (s.view die).poolEntry i
    match poolKind e with
    | 0 => match s.channel die e ppa with
      | some p => .avber i p
      | none => .none_
    | 1 => match s.cxlFind ppa with
      | some (p, _) => .cxl i p
      | none => .none_
    | _ =>
      if ppa < s.rg64 Adr.GRAN_PPA_BASE_LO ∨ (s.rg Adr.GRAN_LOGICAL_UNITS).toNat ≤ s.granLu ppa then .none_
      else .gran i

/-! ### Frames (R190) -/

def State.tierOn (s : State) : Bool := bit (s.rg Adr.TIER_CTRL) 0
def State.tierK (s : State) : Nat := s.rf Adr.TIER_CFG 4 0

/-- The set of a 64 KiB unit. -/
def State.setOf (s : State) (u : Nat) : Nat :=
  let k := s.tierK
  (u % 2 ^ k) ^^^ (nbits u (2 * k - 1) k) ^^^ (nbits (u % 2 ^ 36) (3 * k - 1) (2 * k))

/-- The die whose tier engine manages a set (R190). -/
def setDie (set : Nat) : Nat := set % 2

def State.frame (s : State) (f : Nat) : Frame := s.tier.frames.get f

def sectNo : Sector → Nat
  | .invalid => 0 | .filling => 1 | .clean => 2 | .dirty => 3 | .writing => 4

/-- The frame record as 512 bits (Table 8-1). -/
def Frame.word (x : Frame) : Nat :=
  x.lastUse % 2 ^ 64 + ((List.range 8).map fun i => sectNo (x.sect.get i) * 2 ^ (352 + 4 * i)).sum
    + ((List.range 8).map fun i => sectNo (x.sect.get (8 + i)) * 2 ^ (384 + 4 * i)).sum
    + x.unit * 2 ^ 464 + x.range * 2 ^ 500 + b2n x.gran * 2 ^ 508 + b2n x.stuck * 2 ^ 509
    + b2n x.pin * 2 ^ 510 + b2n x.valid * 2 ^ 511

/-- Write a frame and its record in the barn. -/
def State.setFrame (f : Nat) (x : Frame) (s : State) : State :=
  (s.modTier fun u => { u with frames := u.frames.set f x }).setBarnNum (s.rg64 Adr.TIER_FTAB_BASE_LO + 64 * f) 64 x.word

/-- Barn address of byte `off` of a frame. -/
def State.frameAt (s : State) (f off : Nat) : Nat := s.rg64 Adr.TIER_CACHE_BASE_LO + 65536 * f + off

/-- The frame that holds a unit. -/
def State.frameOf (s : State) (u : Nat) : Option Nat :=
  if s.tierOn then
    ((List.range 16).map (16 * s.setOf u + ·)).find? fun f => (s.frame f).valid && (s.frame f).unit == u
  else none

/-- Put a sector into a state; a frame whose sectors are all INVALID is freed (R195). -/
def State.setSector (f sec : Nat) (v : Sector) (s : State) : State :=
  let x := s.frame f
  let sect := x.sect.set sec v
  s.setFrame f (if sect.isEmpty then {} else { x with sect := sect })

/-- MODE of a range: 3 stands for GRANARY (R192). -/
def State.tierMode (s : State) (i : Nat) : Nat :=
  if poolKind (s.poolEntry i) = 2 then 3 else s.rf (Adr.TIER_POLICY i) 1 0

/-- Create a request of the receiving side's own making: one run of bytes at a PPA. -/
def State.newReq (die : Nat) (kind : ReqKind) (op len ppa fjid : Nat) (s : State) : State :=
  let p := mkPkt 8 0 (s.localEid die) (s.localEid die) s.stamp false
    (leBytes 16 (len % 2 ^ 13 * 2 ^ 30 + op * 2 ^ 47 + fjid % 2 ^ 20 * 2 ^ 51))
  (s.takeNames 1).modTtu fun t => { t with
    reqs := t.reqs.set s.nextId (some { die := die, kind := kind, pkt := p, segs := [{ off := 0, len := len, ppa := ppa }] }) }

/-- Start the fill of a sector of a DRAM range; its FJID is open. -/
def State.fillSector (f sec : Nat) (s : State) : State :=
  let x := s.frame f
  (s.setSector f sec .filling).takeFree.newReq (setDie (f / 16)) (.fill f sec 1) 0 4096
    (x.unit * 65536 + 4096 * sec) s.freeVal

/-- Start the writeback of a sector of a DRAM range. -/
def State.wbSector (f sec : Nat) (s : State) : State :=
  let x := s.frame f
  (s.setSector f sec .writing).takeFree.newReq (setDie (f / 16)) (.wb f sec 1) 1 4096
    (x.unit * 65536 + 4096 * sec) s.freeVal

end Sys2Proof.Machine
end

