-- ==== Sys2Proof/Machine/GranCore.lean ====
section
/-! DEFINITION. The granary as the tier engine meets it: the map (R201), physical units (R202), the
block table (R203), unit programs and relocation (R204, R205), the journal (R209). -/

set_option Elab.async false

namespace Sys2Proof.Machine
open Sys2Proof

def State.gran (s : State) : GranUnit := s.tier.gran
def State.modGran (f : GranUnit → GranUnit) (s : State) : State :=
  s.modTier fun t => { t with gran := f t.gran }

/-- Geometry (Table 8-12): channels, dies per channel, blocks per die, bits of a unit number. -/
def State.granChans (s : State) : Nat := 2 ^ s.rf Adr.GRAN_GEOM 2 0
def State.granDies (s : State) : Nat := s.rf Adr.GRAN_GEOM 11 8 + 1
def State.granBlocks (s : State) : Nat := s.rf Adr.GRAN_BLOCKS 22 0
def State.granU (s : State) : Nat := s.rf Adr.GRAN_GEOM 19 16

/-- Fields of a PUN (Table 8-7). -/
def punChan (p : Nat) : Nat := nbits p 3 0
def punDie (p : Nat) : Nat := nbits p 7 4
def punUnit (u p : Nat) : Nat := nbits p (7 + u) 8
def punBlock (u p : Nat) : Nat := nbits p 30 (8 + u)
def mkPun (u block unit die chan : Nat) : Nat := chan + die * 2 ^ 4 + unit * 2 ^ 8 + block * 2 ^ (8 + u)

/-- The block number of a PUN (R203). -/
def State.bnOf (s : State) (p : Nat) : Nat := punBlock s.granU p * 256 + p % 256

/-- The map entry of a logical unit. -/
def State.mapAt (s : State) (lu : Nat) : Nat := s.rg64 Adr.GRAN_MAP_BASE_LO + 4 * lu
def State.mapEntry (s : State) (lu : Nat) : Nat := s.barnNum (s.mapAt lu) 4
def State.mapPun (s : State) (lu : Nat) : Option Nat :=
  if nbits (s.mapEntry lu) 31 31 = 1 then some (nbits (s.mapEntry lu) 30 0) else none

/-- The block table entry of a block: STATE, ERASES, READS, VALID (Table 8-8). -/
def State.blkAt (s : State) (bn : Nat) : Nat := s.rg64 Adr.GRAN_BLK_BASE_LO + 8 * bn
def State.blk (s : State) (bn : Nat) : Nat := s.barnNum (s.blkAt bn) 8
def blkSt (e : Nat) : Nat := nbits e 63 61
def blkErases (e : Nat) : Nat := nbits e 60 41
def blkReads (e : Nat) : Nat := nbits e 40 20
def blkValid (e : Nat) : Nat := nbits e 19 9
def blkWord (st erases reads valid : Nat) : Nat :=
  valid * 2 ^ 9 + min reads (2 ^ 21 - 1) * 2 ^ 20 + min erases (2 ^ 20 - 1) * 2 ^ 41 + st * 2 ^ 61
def State.setBlk (bn v : Nat) (s : State) : State := s.setBarnNum (s.blkAt bn) 8 v
def State.blkState (bn st : Nat) (s : State) : State :=
  let e := s.blk bn
  s.setBlk bn (blkWord st (blkErases e) (blkReads e) (blkValid e))
def State.blkAddValid (bn : Nat) (d : Int) (s : State) : State :=
  let e := s.blk bn
  s.setBlk bn (blkWord (blkSt e) (blkErases e) (blkReads e) ((blkValid e : Int) + d).toNat)

/-- Blocks of a channel; those that are FREE. -/
def State.chanBlocks (s : State) (c : Nat) : List Nat :=
  ((List.range s.granBlocks).map fun b => (List.range s.granDies).map fun d => b * 256 + d * 16 + c).flatten
def State.chanFree (s : State) (c : Nat) : List Nat := (s.chanBlocks c).filter fun b => blkSt (s.blk b) == 0

/-- The channel of a logical unit (R202). -/
def State.luChan (s : State) (lu : Nat) : Nat := lu % s.granChans

/-- Blocks with relocation ready for erase (R205): the erase is issued once no read translated to the
block is in progress. -/
def State.eraseReady (s : State) (bn : Nat) : Bool := !(s.gran.reads.any fun r => s.bnOf r.pun == bn)

/-- Issue the erases that may start. -/
def State.issueErases (s : State) : State :=
  s.gran.erases.foldl (fun s e =>
    if !e.2 && s.eraseReady e.1 then
      (s.emit (.nandErase e.1)).modGran fun g =>
        { g with erases := g.erases.map fun x => if x.1 = e.1 then (x.1, true) else x }
    else s) s

/-- The place of the next program on a channel: the next unit of the open block (host or relocation)
of the next die in rotation, opening the FREE block with the fewest erases if none is open (R204). -/
def State.takePun (c : Nat) (reloc : Bool) (s : State) : Option Nat × State :=
  let u := s.granU
  let d := s.gran.rot.get (2 * c + b2n reloc) % s.granDies
  let key := 2 * (16 * d + c) + b2n reloc
  let put (b n : Nat) (s : State) : Option Nat × State :=
    let full := n + 1 = 2 ^ u
    let s := s.modGran fun g => { g with
      opens := g.opens.set key (if full then (0, 0) else (b + 1, n + 1))
      rot := g.rot.set (2 * c + b2n reloc) ((d + 1) % s.granDies) }
    let bn := b * 256 + d * 16 + c
    (some (mkPun u b n d c), if full then s.blkState bn 2 else s)
  match s.gran.opens.get key with
  | (0, _) =>
    let free := (s.chanFree c).filter fun b => nbits b 7 4 == d
    match argmin (fun b => blkErases (s.blk b)) free with
    | none => (none, s)
    | some bn => put (bn / 256) 0 (s.blkState bn 1)
  | (b + 1, n) => put b n s

/-- Issue a program whose place is known. -/
def State.issueProg (p : Prog) (pun : Nat) (s : State) : State :=
  let s := s.modGran fun g => { g with progs := g.progs ++ [{ p with pun := some pun }], seq := g.seq + 1 }
  (s.emit (.nandProgram pun p.lu (s.gran.seq - 1) p.data p.poison)).bump Adr.GRAN_NAND_PROG_UNITS 1

/-- Place a program, or let it wait for a block. -/
def State.addProg (p : Prog) (s : State) : State :=
  match s.takePun (s.luChan p.lu) p.old.isSome with
  | (some pun, s) => s.issueProg p pun
  | (none, s) => s.modGran fun g => { g with progs := g.progs ++ [{ p with pun := none }] }

/-- Place the programs that wait. -/
def State.placeProgs (s : State) : State :=
  let wait := s.gran.progs.filter fun p => p.pun.isNone
  let s := s.modGran fun g => { g with progs := g.progs.filter fun p => p.pun.isSome }
  wait.foldl (fun s p => s.addProg p) s

/-- Record a map change: the map entry, VALID of the blocks, the journal (R204, R209). -/
def State.mapChange (lu : Nat) (pun : Option Nat) (s : State) : State :=
  let old := s.mapPun lu
  let s := (s.setBarnNum (s.mapAt lu) 4 (match pun with | some p => 2 ^ 31 + p | none => 0)).setPoison
    (s.mapAt lu / 64) false
  let s := match old with
    | some p => s.blkAddValid (s.bnOf p) (-1)
    | none => s
  let s := match pun with
    | some p => s.blkAddValid (s.bnOf p) 1
    | none => s
  let n := s.rf Adr.GRAN_MAPPED_UNITS 30 0
  let s := s.setRf Adr.GRAN_MAPPED_UNITS 30 0 (n + b2n pun.isSome - b2n old.isSome)
  s.modGran fun g => { g with
    journal := g.journal ++ [(lu, (match pun with | some p => 2 ^ 31 + p | none => 0))]
    jtime := if g.journal.isEmpty then s.ns else g.jtime }

/-- Count reads of a block (R203): one for a unit's multi-plane read, as in Table 8-9 (log entry 17). -/
def State.countReads (bn n : Nat) (s : State) : State :=
  let e := s.blk bn
  s.setBlk bn (blkWord (blkSt e) (blkErases e) (blkReads e + n) (blkValid e))

/-- Read the 16 sectors of a unit for a frame or a relocation. -/
def State.readUnit (lu pun : Nat) (frame : Option Nat) (s : State) : State :=
  let s := s.countReads (s.bnOf pun) 1
  let s := (List.range 16).foldl (fun s i => s.emit (.nandRead pun i 0)) s
  s.modGran fun g => { g with
    reads := g.reads ++ (List.range 16).map fun i => { lu := lu, pun := pun, sec := i, frame := frame, level := 0 } }

/-- Start the relocation of a unit. -/
def State.relocUnit (lu pun : Nat) (s : State) : State :=
  if s.gran.relocs.any fun r => r.pun == pun then s
  else (s.modGran fun g => { g with relocs := g.relocs ++ [{ lu := lu, pun := pun, got := [], poison := 0 }] }).readUnit lu pun none

/-- The logical units whose map entry points into a block. -/
def State.blockLus (s : State) (bn : Nat) : List (Nat × Nat) :=
  (List.range (s.rg Adr.GRAN_LOGICAL_UNITS).toNat).filterMap fun lu =>
    match s.mapPun lu with
    | some p => if s.bnOf p = bn then some (lu, p) else none
    | none => none

/-- Blocks that are emptied and hold no valid unit go to erase; the erase waits for reads (R205). -/
def State.eraseEmptied (s : State) : State :=
  let g := s.gran
  let ready := g.emptying.filter fun bn =>
    blkValid (s.blk bn) == 0 && !(g.relocs.any fun r => s.bnOf r.pun == bn)
      && !(g.progs.any fun p => ((p.old.map s.bnOf) == some bn) || ((p.pun.map s.bnOf) == some bn))
  (s.modGran fun g => { g with
    emptying := g.emptying.filter fun b => !ready.contains b
    erases := g.erases ++ ready.map fun b => (b, false) }).issueErases

/-- A block takes no more units: it leaves the OPEN blocks. -/
def State.closeBlock (bn : Nat) (s : State) : State :=
  let o := (s.gran.opens.filter fun e => e.2.1 == bn / 256 + 1 && e.1 / 2 == bn % 256).map (·.1)
  s.modGran fun g => { g with opens := g.opens.filter fun e => !o.contains e.1 }

/-- Relocate every valid unit of a block. -/
def State.moveBlock (bn : Nat) (s : State) : State :=
  (s.blockLus bn).foldl (fun s e => s.relocUnit e.1 e.2) s

/-- Relocate a block: its valid units move, then it is erased. An OPEN block is closed first. -/
def State.relocBlock (bn : Nat) (s : State) : State :=
  if s.gran.emptying.contains bn || s.gran.erases.any (fun e => e.1 == bn) then s
  else
    let s := (s.closeBlock bn).blkState bn 2
    ((s.modGran fun g => { g with emptying := g.emptying ++ [bn] }).moveBlock bn).eraseEmptied

/-- Read disturb (R206): a block whose READS has reached RD_LIMIT is relocated. -/
def State.readDisturb (bn : Nat) (s : State) : State :=
  if s.rf Adr.GRAN_RD_LIMIT 20 0 ≤ blkReads (s.blk bn) ∧ (blkSt (s.blk bn) = 1 ∨ blkSt (s.blk bn) = 2)
      ∧ ¬ s.gran.emptying.contains bn ∧ ¬ s.gran.erases.any (fun e => e.1 == bn) then
    (s.relocBlock bn).bump Adr.GRAN_RD_RELOCS 1
  else s

/-- Fill a frame with a granary unit: all 16 sectors FILLING; an unmapped unit reads no flash (R201). A
map entry on a poisoned barn line is unreadable: the unit reads as poisoned (MAP_UNCORR, Table 8-13). -/
def State.granFill (f : Nat) (s : State) : State :=
  let x := s.frame f
  let lu := s.granLu (x.unit * 65536)
  let s := s.bump Adr.GRAN_HOST_READ_UNITS 1
  if s.poisoned (s.mapAt lu / 64) then
    let s := s.raise Err.gran_MAP_UNCORR 0 [lu] none
    let s := (List.range 1024).foldl (fun s i => s.setPoison (s.frameAt f (64 * i) / 64) true) s
    s.setFrame f { x with sect := (List.range 16).map fun i => (i, Sector.clean) }
  else
    let s := s.setFrame f { x with sect := (List.range 16).map fun i => (i, Sector.filling) }
    match s.mapPun lu with
    | some pun => (s.readUnit lu pun (some f)).readDisturb (s.bnOf pun)
    | none => s

/-- Poison marks of a frame's 1,024 lines as a bit map. -/
def State.framePoison (s : State) (f : Nat) : Nat :=
  (List.range 1024).foldl (fun n i => if s.poisoned (s.frameAt f (64 * i) / 64) then n + 2 ^ i else n) 0

/-- A writeback failed (R195, R197): the sectors are DIRTY again, the frame is STUCK; a FLUSH or EVICT
that covers the unit ends FAILED. -/
def State.wbFailed (f : Nat) (secs : List Nat) (s : State) : State :=
  let x := s.frame f
  let s := s.setFrame f { x with sect := secs.foldl (fun t i => t.set i .dirty) x.sect, stuck := true, evict := false }
  let s := (s.raise Err.tier_WB_FAIL 0 [x.range] none).raiseInt .tier 0 1
  s.modTier fun t => { t with cmd := t.cmd.map fun c =>
    if (c.op = 4 ∨ c.op = 5) ∧ c.first ≤ x.unit ∧ x.unit < c.first + c.units then { c with result := 3 } else c }

/-- Write a granary unit back: all 16 sectors WRITING, the unit programmed whole (R195, R204); in every
state but READY it fails (R207). -/
def State.granWb (f : Nat) (s : State) : State :=
  let x := s.frame f
  if s.gran.st != .ready then s.wbFailed f (List.range 16)
  else
  let s := s.setFrame f { x with sect := (List.range 16).map fun i => (i, Sector.writing) }
  (s.bump Adr.GRAN_HOST_WRITE_UNITS 1).addProg
    { lu := s.granLu (x.unit * 65536), pun := none, frame := some f, old := none
      data := s.barnBytes (s.frameAt f 0) 65536, poison := s.framePoison f }

/-! ### Taking a frame (R196) -/

/-- What an attempt to take a way finds. -/
inductive Way where
  | got (f : Nat)
  | wait
  | none_
  deriving DecidableEq, Repr

/-- A frame that may be a victim. -/
def Frame.victim (x : Frame) : Bool :=
  x.valid && !x.pin && !x.stuck && !(x.sect.any fun e => e.2 == .filling || e.2 == .writing)

/-- Write back every dirty sector of a frame. -/
def State.flushFrame (f : Nat) (s : State) : State :=
  let x := s.frame f
  if x.gran then (if x.sect.any fun e => e.2 == .dirty then s.granWb f else s)
  else (x.sect.filter fun e => e.2 == .dirty).foldl (fun s e => s.wbSector f e.1) s

/-- Evict a frame (Table 8-3): clean sectors become INVALID, dirty ones are written back; with none it is
freed at once. -/
def State.evictFrame (f : Nat) (s : State) : State :=
  let x := s.frame f
  if x.sect.any fun e => e.2 == .dirty then
    (s.setFrame f { x with evict := true, sect := if x.gran then x.sect else x.sect.filter fun e => e.2 != .clean }).flushFrame f
  else s.setFrame f {}

/-- Take a way for a unit of range `i`: a free one, else the oldest clean victim, else the oldest dirty
one, whose writeback runs first. -/
def State.takeWay (u i : Nat) (s : State) : Way × State :=
  let ways := if s.stopped 6 0 then [] else (List.range 16).map (16 * s.setOf u + ·)
  let fresh (f : Nat) (s : State) : Way × State :=
    (.got f, s.setFrame f { ({} : Frame) with
      valid := true, gran := poolKind (s.poolEntry i) == 2, range := i, unit := u, lastUse := s.ns })
  match ways.find? fun f => !(s.frame f).valid with
  | some f => fresh f s
  | none =>
    let vs := ways.filter fun f => (s.frame f).victim
    match argmin (fun f => (s.frame f).lastUse) (vs.filter fun f => !((s.frame f).sect.any fun e => e.2 == .dirty)) with
    | some f => fresh f s
    | none =>
      if ways.any fun f => (s.frame f).evict then (.wait, s)
      else match argmin (fun f => (s.frame f).lastUse) vs with
        | some f => (.wait, s.evictFrame f)
        | none => (.none_, s)

/-- Fill what is missing of a unit that has a frame: one sector of a DRAM range, the unit of a granary
range. -/
def State.fillFrame (f sec : Nat) (s : State) : State :=
  if (s.frame f).gran then s.granFill f else s.fillSector f sec

/-- Stage the units after a demand miss (READAHEAD, R199). -/
def State.readAhead (u i : Nat) (s : State) : State :=
  (List.range (s.rf (Adr.TIER_POLICY i) 7 4)).foldl (fun s k =>
    let v := u + k + 1
    if (s.frameOf v).isSome || s.poolFind (v * 65536) != some i then s
    else match s.takeWay v i with
      | (.got f, s) => if (s.frame f).gran then s.granFill f
          else (List.range 16).foldl (fun s sec => s.fillSector f sec) s
      | (_, s) => s) s

end Sys2Proof.Machine
end

