-- ==== Sys2Proof/Machine/Cellar.lean ====
section
/-! DEFINITION. The cellar: save sets and their validity (R445, R446), the arm record (R447), what a boot finds
(R452), the journal of a save set (R453). -/

set_option Elab.async false

namespace Sys2Proof.Machine
open Sys2Proof

/-! ### Bytes -/

/-- `n` bytes of the cellar from `a`. -/
def State.cellBytes (s : State) (a n : Nat) : List Byte := (List.range n).map fun i => s.pwr.cellar.get (a + i)

/-- Store bytes in the cellar. -/
def cellStore (a : Nat) : List Byte → Tbl Byte → Tbl Byte
  | [], c => c
  | b :: bs, c => cellStore (a + 1) bs (c.set a b)

def State.setCell (a : Nat) (bs : List Byte) (s : State) : State :=
  s.modPwr fun p => { p with cellar := cellStore a bs p.cellar }

/-- Bytes 0 to 59 with their CRC-32C behind them (Table 17-6, R447). -/
def sealRec (b : List Byte) : List Byte := b ++ leBytes 4 (crc32c b).toNat

/-- The CRC-32C of a 64-byte record verifies. -/
def recGood (b : List Byte) : Bool := crc32c (b.take 60) == BitVec.ofNat 32 (leNat (b.drop 60))

/-- A little-endian field of bytes. -/
def atLe (b : List Byte) (off n : Nat) : Nat := leNat ((b.drop off).take n)

/-! ### Save sets -/

def saveSlot (k : Nat) : Nat := 0x800000 * k
def commitAt (k : Nat) : Nat := saveSlot k + 0x5FF000
def State.saveHdr (s : State) (k : Nat) : List Byte := s.cellBytes (saveSlot k) 256
def State.commitRec (s : State) (k : Nat) : List Byte := s.cellBytes (commitAt k) 64
def State.saveSeq (s : State) (k : Nat) : Nat := atLe (s.saveHdr k) 8 8
def State.saveLen (s : State) (k : Nat) : Nat := atLe (s.saveHdr k) 36 4
def State.saveSealed (s : State) (k : Nat) : Bool := (atLe (s.saveHdr k) 6 1).testBit 1
def State.saveIv (s : State) (k : Nat) : Nat := atLe (s.saveHdr k) 128 12

/-- CHECK of the commit record verifies (Table 17-6). -/
def State.checkGood (s : State) (k : Nat) : Bool :=
  let n := s.saveLen k
  let c := atLe (s.commitRec k) 32 16
  if s.saveSealed k then
    Config.gcmTag (s.saveIv k) (s.saveHdr k) (s.cellBytes (saveSlot k + 4096) (n - 4096)) == BitVec.ofNat 128 c
  else (crc32c (s.cellBytes (saveSlot k) n)).toNat == c

/-- A save set is valid (R446); a slot that could not be read at the boot is not (R452). -/
def State.saveValid (s : State) (k : Nat) : Bool :=
  let h := s.saveHdr k
  let c := s.commitRec k
  !s.pwr.uncorr.get k && atLe h 0 4 == 0x56534B49 && atLe h 4 2 == 1 && atLe c 0 4 == 0x4D434B49 && recGood c
    && atLe h 8 8 == atLe c 8 8 && atLe c 16 4 == s.saveLen k && decide (s.saveLen k ≤ 0x5FF000) && s.checkGood k

/-- The slot of the newest valid save set. -/
def State.newestSave (s : State) : Option Nat :=
  let v0 := s.saveValid 0
  let v1 := s.saveValid 1
  if v0 && v1 then some (if s.saveSeq 0 < s.saveSeq 1 then 1 else 0)
  else if v0 then some 0 else if v1 then some 1 else none

/-- SEQ of the newest valid save set + 1, or 1. -/
def State.nextSaveSeq (s : State) : Nat :=
  match s.newestSave with
  | some k => s.saveSeq k + 1
  | none => 1

/-! ### The arm record (R447) -/

def armAt (j : Nat) : Nat := 0x1000000 + 64 * j

/-- A copy: EXPECT_SEQ and ARMED, if it is valid. -/
def State.armCopy (s : State) (j : Nat) : Option (Nat × Bool) :=
  let b := s.cellBytes (armAt j) 64
  if atLe b 0 4 = 0x52414B49 ∧ recGood b = true then some (atLe b 8 8, atLe b 16 1 == 1) else none

/-- The valid copy with the higher EXPECT_SEQ (R452). -/
def State.armRec (s : State) : Option (Nat × Bool) :=
  match s.armCopy 0, s.armCopy 1 with
  | some a, some b => if a.1 < b.1 then some b else some a
  | some a, none => some a
  | none, b => b

/-- The registers that show the arm record (Table 17-11). -/
def State.showArm (s : State) : State :=
  let a := s.armRec.getD (0, false)
  (s.setRg64 Adr.SAVE_ARM_SEQ_LO a.1).setRg Adr.SAVE_ARM_STATE (w32 (b2n a.2))

/-- Write the first copy, then the second. -/
def State.writeArm (seq : Nat) (armed : Bool) (s : State) : State :=
  let b := sealRec (leBytes 4 0x52414B49 ++ leBytes 4 0 ++ leBytes 8 seq ++ leBytes 1 (b2n armed) ++ leBytes 43 0)
  ((s.setCell (armAt 0) b).setCell (armAt 1) b).showArm

/-- Before the granary enters READY or READ_ONLY: ARMED (R447). -/
def State.arm (s : State) : State := s.writeArm s.nextSaveSeq true

/-- When the granary enters OFF through EN = 0 with its journal and checkpoint written: DISARMED, with EXPECT_SEQ as it
is (R447). -/
def State.disarm (s : State) : State := s.writeArm (s.armRec.getD (0, false)).1 false

/-! ### Boot evaluation (R452) -/

/-- The registers that show the newest valid set (Table 17-11). -/
def State.showSave (s : State) : State :=
  match s.newestSave with
  | none => (s.setRg64 Adr.SAVE_SEQ_LO 0).setRg Adr.SAVE_LAST_SAVE 0
  | some k =>
    let c := s.commitRec k
    (s.setRg64 Adr.SAVE_SEQ_LO (s.saveSeq k)).setRg Adr.SAVE_LAST_SAVE
      (w32 (min (atLe c 20 4) 65535 * 2 ^ 16 + atLe c 24 2))

/-- Some slot holds a valid set with SEQ `n`. -/
def State.setWith (s : State) (n : Nat) : Option Nat :=
  [0, 1].find? fun k => s.saveValid k && s.saveSeq k == n

/-- BOOT_RESULT by the first matching row of Table 17-9. -/
def State.bootRow (s : State) : Nat :=
  match s.armRec with
  | some (n, true) => if (s.setWith n).isSome then 1 else 2
  | _ => if s.newestSave.isSome then 3 else 0

/-- The cellar controller evaluates the cellar; `bad` are the slots that it cannot read. -/
def State.bootEval (bad : List Nat) (s : State) : State :=
  let s := s.modPwr fun p => { p with
    uncorr := [0, 1].foldl (fun (t : Tbl Bool) k => t.set k (bad.contains k)) p.uncorr, replayed := false }
  let s := [0, 1].foldl (fun (s : State) k => if bad.contains k then s.raise Err.save_CELLAR_UNCORR 0 [k] none else s) s
  let r := s.bootRow
  let flags := match s.newestSave with
    | some k => (atLe (s.saveHdr k) 6 1 % 2) * 2 ^ 10 + b2n (s.saveSealed k) * 2 ^ 9 + k * 2 ^ 8
    | none => 0
  let s := (s.setRg Adr.SAVE_BOOT_RESULT (w32 (r * 2 ^ 28 + flags))).showSave.showArm
  let s := s.modGran fun g => { g with scan := r == 2 }
  if r = 2 then s.raise Err.save_SAVE_TORN 0 [] none else s

/-! ### Reading a set (R453) -/

/-- Section `k` of a slot: offset and length. -/
def State.sectOf (s : State) (slot k : Nat) : Nat × Nat :=
  (atLe (s.saveHdr slot) (64 + 8 * k) 4, atLe (s.saveHdr slot) (68 + 8 * k) 4)

/-- The bytes of a slot from `off` on, in plaintext where the set is SEALED and valid. -/
def State.savePlain (s : State) (slot off n : Nat) : List Byte :=
  if s.saveSealed slot && decide (4096 ≤ off) && decide (off < s.saveLen slot) && s.saveValid slot then
    ((Config.gcmDec (s.saveIv slot) (s.saveHdr slot)
      (s.cellBytes (saveSlot slot + 4096) (s.saveLen slot - 4096))).drop (off - 4096)).take n
  else s.cellBytes (saveSlot slot + off) n

/-- A journal record in 8 bytes: LU, then the map word; a record that unmaps holds the invalid word of all
ones (log entry 42). -/
def recBytes (r : Nat × Nat) : List Byte := leBytes 4 r.1 ++ leBytes 4 (if r.2 = 0 then 0x7FFFFFFF else r.2)

/-- Records of bytes; padding is left out. -/
def recsOf : Nat → List Byte → List (Nat × Nat)
  | 0, _ => []
  | n + 1, b =>
    let w := atLe b 4 4
    (if w = 0 then [] else [(atLe b 0 4, if nbits w 31 31 = 1 then w else 0)]) ++ recsOf n (b.drop 8)

/-- The records that the save set due for replay holds (R453). -/
def State.savedJournal (s : State) : List (Nat × Nat) :=
  if s.rf Adr.SAVE_BOOT_RESULT 31 28 = 1 ∧ s.pwr.replayed = false then
    match s.armRec with
    | some (n, true) => match s.setWith n with
      | some k =>
        let x := s.sectOf k 1
        recsOf (x.2 / 8) (s.savePlain k x.1 x.2)
      | none => []
    | _ => []
  else []

/-- SAVE_RD_DATA_READ (R453, R492): 4 bytes at RD_ADDR, which moves on by 4. -/
def State.rdData (s : State) : Nat × State :=
  let a := s.rf Adr.SAVE_RD_ADDR 24 0
  let slot := a / 0x800000
  let v := if slot < 2 then leNat (s.savePlain slot (a % 0x800000) 4) else leNat (s.cellBytes a 4)
  (v, s.setRg Adr.SAVE_RD_ADDR (w32 ((a + 4) % 2 ^ 25)))

end Sys2Proof.Machine
end

