-- ==== Sys2Proof/Machine/Regs.lean ====
section
/-! DEFINITION. Register accesses: who may write, what is refused and how it is reported (R485 to
R489, R493), LOCK (R487), ERR_CLEAR (R484), staging of pairs (R490). -/

set_option Elab.async false

namespace Sys2Proof.Machine
open Sys2Proof

/-- SOURCE of REFUSE_CAPTURE (Table 19-8). -/
def srcNo : Source → Nat
  | .host => 0 | .chain => 1 | .loader => 2 | .jtag => 3

/-- Capture the first refused write since VALID was cleared (R489). -/
def State.refuseCapture (src : Source) (kind a : Nat) (s : State) : State :=
  if bit (s.rg Adr.IDENT_REFUSE_CAPTURE) 31 then s
  else s.setRg Adr.IDENT_REFUSE_CAPTURE
    (w32 (2 ^ 31 + srcNo src * 2 ^ 29 + kind * 2 ^ 27 + nbits a 25 2 * 4))

/-- A register write is refused: the old value stays (R485). The configuration loader stops there (R388). -/
def State.refuse (s : State) : State := s.modHub fun h => { h with refused := true }

/-- A write to an unmapped address or an absent PORT page (R489, R493). -/
def State.unmapped (src : Source) (a : Nat) (s : State) : State :=
  (s.refuse.bump Adr.IDENT_UNMAPPED_WRITES 1).refuseCapture src 2 a

/-- A refused write of an RWL field of a locked page (R487, R489). -/
def State.lockRefused (src : Source) (a : Nat) (s : State) : State :=
  (s.refuse.bump Adr.IDENT_LOCK_REFUSED 1).refuseCapture src 0 a

/-- A refused write of an RWS field outside SHARED (R385, R489). -/
def State.rwsRefused (src : Source) (a : Nat) (s : State) : State :=
  (s.refuse.bump Adr.SEC_RWS_REFUSED 1).refuseCapture src 1 a

/-- Whether a page is locked (R487). -/
def State.locked (s : State) (k : PageKind) (i : Nat) : Bool := bit (s.rg (adr k i Adr.H_LOCK)) 0

/-- Whether a page is present: a PORT page only while its lane starts a port (R52). -/
def State.present (s : State) (k : PageKind) (i : Nat) : Bool :=
  match k with
  | .port => s.portExists i
  | _ => true

/-- Whether writes of a source reach a page: its domain is on, or the loader writes during start-up
(R388, R437). -/
def State.reaches (s : State) (src : Source) (k : PageKind) (i : Nat) : Bool :=
  s.pageOn k i || (src == .loader && s.pwr.pstate == .starting)

/-- Whether the JTAG access port may write: at DBG2 only (Table 15-8). During a warm reset only the PWR page takes
writes (R439). -/
def State.mayWrite (s : State) (src : Source) (a : Nat) : Bool :=
  (src != .jtag || decide (2 ≤ s.sec.dbg)) && (!s.pwr.warm || decide (a / 0x1000 = 2))

/-- A register write under the rules that hold for every register: absent and unpowered pages, the
lock, the mode; JTAG writes at DBG2 only (Table 15-8). `act` is the write itself. -/
def State.guarded (src : Source) (a : Nat) (acc : Access) (act : State → State) (s : State) : State :=
  if !s.mayWrite src a then s
  else match pageAt a with
  | none => s.unmapped src a
  | some (k, i, _) =>
    if !s.reaches src k i then s
    else if !s.present k i then s.unmapped src a
    else match acc with
      | .rwl => if s.locked k i then s.lockRefused src a else act s
      | .rws => if s.sec.mode == .shared then act s else s.rwsRefused src a
      | .ro | .cnt => s
      | _ => act s

/-- The staging key of a source and an address. -/
def stageKey (src : Source) (a : Nat) : Nat := srcNo src * 2 ^ 40 + a

/-- Stage the LO word of an RW pair (R490). -/
def State.stageLo (src : Source) (a : Nat) (v : Word) (s : State) : State :=
  s.modHub fun h => { h with stageLo := h.stageLo.set (stageKey src a) (some v) }

/-- The LO word a HI write commits: the staged one, else the committed one (R490). -/
def State.loFor (s : State) (src : Source) (a : Nat) : Word :=
  (s.hub.stageLo.get (stageKey src a)).getD (s.rg a)

/-- Clear the stage after a commit. -/
def State.unstage (src : Source) (a : Nat) (s : State) : State :=
  s.modHub fun h => { h with stageLo := h.stageLo.set (stageKey src a) none }

/-- Commit an RW pair: LO as staged, HI as written (R490). -/
def State.commitPair (src : Source) (lo : Nat) (hi : Word) (s : State) : State :=
  ((s.setRg lo (s.loFor src lo)).setRg (lo + 4) hi).unstage src lo

/-- Clear the error registers of a page (R484). -/
def State.errClear (k : PageKind) (i : Nat) (s : State) : State :=
  ((s.setRg (adr k i Adr.H_ERR_STATUS) 0).setRg (adr k i Adr.H_ERR_FIRST) 0).setCaps
    (adr k i Adr.H_ERR_CAPTURE) [0, 0, 0, 0]

/-- Send the messages of the bits of a page whose interrupt condition a write made true (R416). -/
def State.intAfter (k : PageKind) (i : Nat) (s before : State) : State :=
  (List.range 32).foldl (fun s b =>
    if s.intCond k i b && !before.intCond k i b then s.intMessage k i else s) s

/-- A write of the CTRL register of the header: ERR_CLEAR and INT_EN (Table 19-3). -/
def State.writeCtrl (k : PageKind) (i : Nat) (v : Word) (s : State) : State :=
  let s0 := s
  let s := if bit v 1 then s.errClear k i else s
  (s.setRg (adr k i Adr.H_CTRL) (w32 (bits v 0 0))).intAfter k i s0

/-- A write of LOCK (R487). -/
def State.writeLock (k : PageKind) (i : Nat) (v : Word) (s : State) : State :=
  if s.locked k i then s else if bit v 0 then s.setRg (adr k i Adr.H_LOCK) 1 else s

end Sys2Proof.Machine
end

