-- ==== Sys2Proof/Machine/Link.lean ====
section
/-! DEFINITION. Octets and Avber ports: layouts (R50 to R52), bring-up (R53 to R55, R515), flits
(R56 to R62), link-level replay (R63), credits (R65 to R67), encryption of flits in SEALED mode
(R400). -/

set_option Elab.async false

namespace Sys2Proof.Machine
open Sys2Proof

/-! ### Lanes of a port -/

/-- The lanes of a port (R15). -/
def State.portLanes (s : State) (p : Nat) : List Nat :=
  (List.range (lanesOf (s.widthCode p))).map (p + ·)

/-- Set bit `b + lane mod 8` of a lane's OCTET LANE_STATUS. -/
def State.laneBit (b lane : Nat) (v : Bool) (s : State) : State :=
  s.setRf (Adr.OCTET_LANE_STATUS (lane / 8)) (b + lane % 8) (b + lane % 8) (b2n v)

/-- Set one kind of LANE_STATUS bit on every lane of a port: 0 signal, 8 PHY lock, 16 fitness. -/
def State.lanesBit (b p : Nat) (v : Bool) (s : State) : State :=
  (s.portLanes p).foldl (fun s l => s.laneBit b l v) s

/-- LL_OK: every lane's fitness bit is 1 (R515). -/
def State.llOk (s : State) (p : Nat) : Bool :=
  s.portMode p == 0 && (s.portLanes p).all fun l =>
    bit (s.rg (Adr.OCTET_LANE_STATUS (l / 8))) (16 + l % 8)

/-! ### Flits -/

/-- A flit's fields (Tables 3-7 and 3-8) and its 15 slots. -/
structure Flit where
  type : Nat
  first : Nat
  used : Nat
  abort : Bool
  slots : List (List Byte)
  seq : Nat
  ack : Nat
  ackType : Nat
  crClass : Nat
  crCount : Nat
  deriving DecidableEq, Repr

/-- Cut a list into `n` pieces of `k`. -/
def chunks {α : Type} (k : Nat) : Nat → List α → List (List α)
  | 0, _ => []
  | n + 1, l => l.take k :: chunks k n (l.drop k)

/-- Pad with zero bytes to length `n`. -/
def padTo (n : Nat) (l : List Byte) : List Byte := (l ++ List.replicate (n - l.length) 0).take n

/-- Bytes 0 to 247 of a flit (Table 3-5). -/
def flitBody (f : Flit) : List Byte :=
  leBytes 2 (f.type * 2 ^ 14 + f.first * 2 ^ 10 + f.used * 2 ^ 6 + b2n f.abort * 2 ^ 5)
    ++ padTo 240 ((f.slots.map (padTo 16)).flatten)
    ++ leBytes 6 ((f.seq % 4096) * 2 ^ 36 + (f.ack % 4096) * 2 ^ 24 + f.ackType * 2 ^ 22
        + f.crClass * 2 ^ 18 + f.crCount * 2 ^ 8)

/-- The 256 bytes of a flit with its CRC (R58). -/
def flitBytes (f : Flit) : List Byte :=
  let b := flitBody f
  b ++ leBytes 8 (crc64 b).toNat

/-- Read a flit; `none` if its CRC fails or it is malformed (R58). -/
def flitParse (bs : List Byte) : Option Flit :=
  let h := leNat (bs.take 2)
  let c := leNat ((bs.drop 242).take 6)
  let f : Flit :=
    { type := nbits h 15 14, first := nbits h 13 10, used := nbits h 9 6, abort := nbits h 5 5 == 1
      slots := chunks 16 15 (bs.drop 2), seq := nbits c 47 36, ack := nbits c 35 24
      ackType := nbits c 23 22, crClass := nbits c 21 18, crCount := nbits c 17 8 }
  if bs.length ≠ 256 then none
  else if (crc64 (bs.take 248)).toNat ≠ leNat (bs.drop 248) then none
  else if f.type = 3 ∨ f.ackType = 3 ∨ nbits h 4 0 ≠ 0 ∨ nbits c 7 0 ≠ 0 then none
  else if f.first ≠ 15 ∧ f.used ≤ f.first then none
  else some f

/-! ### Leaving ACTIVE and RETRAIN (R53 rule 5) -/

/-- Drop what waits for a port that left, and free what it was sending (R89). -/
def State.flushEgress (p : Nat) (s : State) : State :=
  let sent := (s.port p).sending
  let s := (s.modPort p fun q => { q with sending := [], tx := [] })
  let s := sent.foldl (fun s e => s.copyGone e.id) s
  let mine := s.sw.queues.filter fun q => q.egress == p
  let s := s.modSw fun w => { w with queues := w.queues.filter fun q => q.egress != p }
  mine.foldl (fun s q =>
    let die := (s.sw.stored.get q.id).die
    let s := s.copyGone q.id
    match q.load with
    | .pkt k => if k.dst = 0xFFFF then s else s.dropNoPath die k
    | .frame _ => s) s

/-- The exit of a port from ACTIVE or RETRAIN to another state: LINK_DOWN, replay and credit state
discarded, tags released, a link key in use destroyed. -/
def State.linkDown (p : Nat) (s : State) : State :=
  let s := (s.bumpHi (Adr.PORT_LINK_DOWNS p)).raise Err.port_LINK_DOWN p [] none
  let s := if s.time.gm = .follow ∧ s.time.upstream = p then
    s.modTime fun t => { t with locked := false, good := 0 } else s
  let s := s.modPort p fun q => { q with
    replay := [], resend := [], outc := [], waiting := [], adv := none, seen := false, prsv := []
    pshared := 0, rx := none, resync := false, gap := false, acked := false, nakAt := none
    nakRun := 0, epoch := q.epoch + 1, keyUsed := none, pfc := [], cxlOut := [] }
  (s.flushEgress p).portLeftTags p |>.unstall

/-- Whether a state is ACTIVE or RETRAIN. -/
def LinkState.up : LinkState → Bool
  | .active | .retrain => true
  | _ => false

/-- Put a port into a state other than ACTIVE and RETRAIN, with the rules of an exit. In SEALED mode
such an exit also clears EN and leads to OFF (R400). -/
def State.leaveTo (p : Nat) (st : LinkState) (s : State) : State :=
  let was := (s.port p).st
  let keyed := (s.port p).keyUsed.isSome
  let s := if was.up then s.linkDown p else s
  let st := if was.up && keyed && st != .fenced then .off else st
  let s := if was.up && keyed then s.setRf (Adr.PORT_PORT_CTRL p) 0 0 0 else s
  let s := if st == .off || st == .detect then s.lanesBit 16 p false else s
  let s := if st == .off then (s.lanesBit 0 p false).lanesBit 8 p false else s
  s.modPort p fun q => { q with st := st, fec := if st.up then q.fec else 0 }

/-- OFF with HALT set (R55, R67). -/
def State.haltPort (p : Nat) (s : State) : State :=
  (s.leaveTo p .off).modPort p fun q => { q with halt := true }

/-- Enter ACTIVE: both sequence numbers start at 0, the partner's credits are loaded, a link key
pair is taken into use in SEALED mode. -/
def State.enterActive (p : Nat) (s : State) : State :=
  let sealed := s.sec.mode == .sealed
  s.modPort p fun q => { q with
    st := .active, txS := 0, rxS := 0, gap := false, acked := false, nakAt := none, replay := []
    resend := [], nakRun := 0, outc := [], waiting := [], rx := none, resync := false
    prsv := (q.adv.getD ([], 0)).1, pshared := (q.adv.getD ([], 0)).2
    keyUsed := if sealed then q.linkKey else none
    linkKey := if sealed then none else q.linkKey }

/-! ### Control flits (R55) -/

/-- Send a CTRL flit with a 64-byte record. -/
def State.sendCtrl (p : Nat) (record : List Byte) (s : State) : State :=
  let f : Flit := { type := 2, first := 15, used := 4, abort := false
                    slots := chunks 16 4 (padTo 64 record), seq := 0, ack := 0, ackType := 0
                    crClass := 0, crCount := 0 }
  (s.emit (.flit p (flitBytes f))).bump (Adr.PORT_TX_FLITS p) 1

/-- The PARAM record of a port (Table 3-4). -/
def State.paramRec (s : State) (p : Nat) : List Byte :=
  leBytes 1 (1 * 16) ++ leBytes 1 (s.widthCode p)
    ++ leBytes 1 (b2n (s.llOk p) * 4 + s.rf (Adr.PORT_PORT_CTRL p) 3 2)
    ++ leBytes 1 0 ++ leBytes 2 p ++ leBytes 2 0 ++ leBytes 8 s.serial

/-- Own reserved cells of the 11 classes (CREDIT_RSV0 to 5). -/
def State.ownRsv (s : State) (p : Nat) : List Nat :=
  (List.range 11).map fun c =>
    let a := if c = 10 then Adr.PORT_CREDIT_RSV5 p else Adr.PORT_CREDIT_RSV p (c / 2)
    if c % 2 = 0 then s.rf a 15 0 else s.rf a 31 16

/-- The CREDIT_ADV record of a port (Table 3-4). -/
def State.advRec (s : State) (p : Nat) : List Byte :=
  let q := s.port p
  leBytes 1 (2 * 16) ++ leBytes 1 (b2n q.adv.isSome)
    ++ (q.rsv.map (leBytes 2)).flatten ++ leBytes 4 q.shared

/-- Enter PARAM: send PARAM at once (R53). -/
def State.enterParam (p : Nat) (s : State) : State :=
  let s := if (s.port p).st.up then s.linkDown p else s
  let s := s.modPort p fun q => { q with st := .param, adv := none, seen := false }
  s.sendCtrl p (s.paramRec p)

/-- Enter CREDIT: CREDIT_LIMIT and the RSV fields are read (R66), CREDIT_ADV is sent at once. -/
def State.enterCredit (p fec : Nat) (s : State) : State :=
  let rsv := s.ownRsv p
  let lim := s.rf (Adr.PORT_CREDIT_LIMIT p) 16 0
  let s := s.modPort p fun q => { q with st := .credit, fec := fec, rsv := rsv, shared := lim - rsv.sum }
  s.sendCtrl p (s.advRec p)

/-- A link error in ACTIVE: RETRAIN_REQ is sent and counted, and the port retrains (R53, R54). -/
def State.linkError (p : Nat) (s : State) : State :=
  if (s.port p).st == .active then
    let s := s.sendCtrl p (leBytes 1 (3 * 16))
    let s := (s.bump (Adr.PORT_RETRAINS p) 1).raise Err.port_RETRAIN p [] none
    s.modPort p fun q => { q with st := .retrain }
  else s

/-- FEC after PARAM: low-latency, RS(544,514) or none left (R55). -/
def fecChoice (allowA allowB : Nat) (llA llB : Bool) : Option Nat :=
  let ll (a : Nat) : Bool := a == 0 || a == 2
  if ll allowA && ll allowB && llA && llB then some 1
  else if allowA == 2 || allowB == 2 then none
  else some 2

/-- A PARAM record received (Table 3-3). -/
def State.paramRx (p : Nat) (r : List Byte) (s : State) : State :=
  let at_ (o n : Nat) : Nat := leNat ((r.drop o).take n)
  let width := nbits (at_ 1 1) 2 0
  let serial := at_ 8 8
  let fec := fecChoice (s.rf (Adr.PORT_PORT_CTRL p) 3 2) (nbits (at_ 2 1) 1 0)
    (s.llOk p) (nbits (at_ 2 1) 2 2 == 1)
  let loop := serial == s.serial
  let ok := width == s.widthCode p && !loop && fec.isSome
  let note (s : State) : State :=
    (s.setRg64 (Adr.PORT_PARTNER_SERIAL_LO p) serial).setRg (Adr.PORT_PARTNER_PORT p) (w32 (nbits (at_ 4 2) 8 0))
  match (s.port p).st with
  | .param =>
    if ok then (note s).enterCredit p (fec.getD 0)
    else
      let s := (note s).haltPort p
      s.raise (if loop then Err.port_LOOPBACK else Err.port_PARAM_MISMATCH) p [] none
  | .credit =>
    if ok then s else (s.haltPort p).raise Err.port_PARAM_MISMATCH p [] none
  | .active | .retrain =>
    let keyed := (s.port p).keyUsed.isSome
    if keyed then s.leaveTo p .off else s.enterParam p
  | _ => s

/-- A CREDIT_ADV record received (Table 3-3). -/
def State.advRx (p : Nat) (r : List Byte) (s : State) : State :=
  let at_ (o n : Nat) : Nat := leNat ((r.drop o).take n)
  let adv := ((List.range 11).map fun c => at_ (2 + 2 * c) 2, nbits (at_ 24 4) 19 0)
  match (s.port p).st with
  | .param => s.modPort p fun q => { q with adv := some adv }
  | .credit =>
    let s := s.modPort p fun q => { q with adv := some adv, seen := true }
    if nbits (at_ 1 1) 0 0 = 1 then s.enterActive p else s
  | _ => s

/-- Whether the reserved bytes and bits of a CTRL record are zero (Table 3-4). -/
def ctrlClean (r : List Byte) : Bool :=
  let at_ (o n : Nat) : Nat := leNat ((r.drop o).take n)
  r.length == 64 && nbits (at_ 0 1) 3 0 == 0 &&
  match nbits (at_ 0 1) 7 4 with
  | 1 => nbits (at_ 1 1) 7 3 == 0 && nbits (at_ 2 1) 7 3 == 0 && at_ 3 1 == 0
      && nbits (at_ 4 2) 15 9 == 0 && at_ 6 2 == 0 && at_ 16 48 == 0
  | 2 => nbits (at_ 1 1) 7 1 == 0 && nbits (at_ 24 4) 31 20 == 0 && at_ 28 36 == 0
  | 3 => at_ 1 63 == 0
  | _ => false

/-- A CTRL record received: dropped and counted if malformed (R55), else taken by its KIND. -/
def State.ctrlRx (p : Nat) (r : List Byte) (s : State) : State :=
  if s.portMode p ≠ 0 then s
  else if !ctrlClean r then
    (s.bumpLo (Adr.PORT_PKT_MALFORMED p)).raise Err.port_CTRL_MALFORMED p [] none
  else match nbits (leNat (r.take 1)) 7 4 with
    | 1 => s.paramRx p r
    | 2 => s.advRx p r
    | _ => s.linkError p

/-! ### Credits (R65 to R67) -/

/-- Cells of class `c` a transmitter may still place (R65). -/
def State.canSend (s : State) (p c cells : Nat) : Bool :=
  let q := s.port p
  let rsv (k : Nat) : Nat := q.prsv.getD k 0
  let out (k : Nat) : Nat := q.outc.get k
  let used := ((List.range 11).map fun k => out k - min (rsv k) (out k)).sum
  decide (cells + used ≤ (rsv c - min (rsv c) (out c)) + q.pshared)

/-- Shared cells free at the partner (CREDIT_TX_SHARED). -/
def State.txShared (s : State) (p : Nat) : Nat :=
  let q := s.port p
  q.pshared - ((List.range 11).map fun k =>
    q.outc.get k - min (q.prsv.getD k 0) (q.outc.get k)).sum

/-- Whether `cells` more of class `c` would overfill the shared cells of the receiver (R67). -/
def State.overrun (s : State) (p c cells : Nat) : Bool :=
  let q := s.port p
  let occ (k : Nat) : Nat := q.occ.get k + (if k = c then cells else 0)
  decide (q.shared < ((List.range 11).map fun k => occ k - q.rsv.getD k 0).sum)

/-- Credits returned by the partner (R65, R67). -/
def State.creditRx (p c n : Nat) (s : State) : State :=
  if n = 0 then s
  else if (s.port p).outc.get c < n then
    (s.raise Err.port_CREDIT_UNDERRUN p [c] none).haltPort p
  else s.modPort p fun q => { q with outc := q.outc.modify c (· - n) }

/-! ### Receiving packets in slots (R60, R62) -/

/-- Cells of a packet that is dropped on arrival go back to the sender as credits. -/
def State.returnCells (p c n : Nat) (s : State) : State :=
  s.modPort p fun q => { q with waiting := q.waiting ++ [(c, n)] }

/-- A packet has arrived whole: HOPS, credits, cells (R62, R67). -/
def State.arrived (p : Nat) (k : Packet) (s : State) : State :=
  let s := (s.bump (Adr.PORT_RX_PKTS p) 1).bump (Adr.PORT_RX_BYTES p) k.len
  if k.hops = 15 then (s.bump (Adr.PORT_HOP_EXCEEDED p) 1).returnCells p k.cls (cellsOf k.len)
  else if s.overrun p k.cls (cellsOf k.len) then
    (s.raise Err.port_CREDIT_OVERRUN p [k.cls] none).haltPort p
  else
    let id := s.nextId
    let s := s.store (.port p) (portDie p) k.cls (cellsOf k.len) []
    s.modPort p fun q => { q with inbox := q.inbox ++ [(id, k)] }

/-- A malformed packet: the packet in progress is dropped and parsing resynchronises (R62). -/
def State.malformedRx (p : Nat) (s : State) : State :=
  let s := match (s.port p).rx with
    | some (b, _) =>
      let k := Packet.ofBytes b
      s.returnCells p k.cls (cellsOf k.len)
    | none => s
  let s := s.modPort p fun q => { q with rx := none, resync := true }
  (s.bumpHi (Adr.PORT_PKT_MALFORMED p)).raise Err.port_PKT_MALFORMED p [] none

/-- Parse the packets that start in a list of slots. -/
def State.startPackets (p : Nat) : Nat → List (List Byte) → State → State
  | 0, _, s => s
  | _, [], s => s
  | fuel + 1, sl :: rest, s =>
    let k := Packet.ofBytes sl
    if k.badHdr then s.malformedRx p
    else
      let n := slotsOf k.len
      let all := sl :: rest
      let got := (all.take n).flatten
      if all.length < n then
        s.modPort p fun q => { q with rx := some (got, n - all.length) }
      else State.startPackets p fuel (all.drop n) (s.arrived p (Packet.ofBytes (got.take k.len)))

/-- The slots of an accepted DATA flit (R62). -/
def State.slotsRx (p : Nat) (f : Flit) (s : State) : State :=
  let slots := f.slots.take f.used
  let s := if f.abort then
      match (s.port p).rx with
      | some (b, _) =>
        let k := Packet.ofBytes b
        (s.returnCells p k.cls (cellsOf k.len)).modPort p fun q => { q with rx := none }
      | none => s
    else s
  if (s.port p).resync then
    if f.first = 15 then s
    else (s.modPort p fun q => { q with resync := false }).startPackets p 15 (slots.drop f.first)
  else
    let owed := match (s.port p).rx with
      | some (_, r) => r
      | none => 0
    if (owed < f.used ∧ f.first ≠ owed) ∨ (f.used ≤ owed ∧ f.first ≠ 15) then s.malformedRx p
    else
      match (s.port p).rx with
      | none => s.startPackets p 15 slots
      | some (b, r) =>
        let b := b ++ (slots.take r).flatten
        if f.used < r then s.modPort p fun q => { q with rx := some (b, r - f.used) }
        else
          let k := Packet.ofBytes b
          let s := s.modPort p fun q => { q with rx := none }
          (s.arrived p (Packet.ofBytes (b.take k.len))).startPackets p 15 (slots.drop r)

/-! ### Replay (R63) -/

/-- Sequence number of the last flit accepted in order. -/
def Port.lastIn (q : Port) : Nat := (q.rxS + 4095) % 4096

/-- The acknowledgement of a received flit (R54, R63). -/
def State.ackRx (p : Nat) (f : Flit) (s : State) : State :=
  let q := s.port p
  if f.ackType = 0 then s
  else
    let base := match q.replay with
      | [] => q.txS % 4096
      | k :: _ => k.seq
    let before := (base + 4095) % 4096
    let inBuf := q.replay.any fun k => k.seq == f.ack
    if !inBuf && (f.ack != before || q.txS == 0) then s.linkError p
    else
      let rest := if inBuf then (q.replay.dropWhile fun k => k.seq != f.ack).drop 1 else q.replay
      let s := s.modPort p fun q => { q with
        replay := rest
        resend := q.resend.filter fun k => rest.any fun r => r.seq == k.seq }
      if f.ackType = 1 then s.modPort p fun q => { q with nakRun := 0 }
      else
        let s := s.bump (Adr.PORT_NAK_RX p) 1
        let run := if q.nakRun != 0 && q.nakSeq == f.ack then q.nakRun + 1 else 1
        let s := s.modPort p fun q => { q with nakSeq := f.ack, nakRun := run }
        if run ≥ 8 then s.linkError p
        else s.modPort p fun q => { q with resend := q.replay }

/-- A flit that fails its CRC or is malformed: in ACTIVE it opens a gap (R58, R63). -/
def State.badFlit (p : Nat) (s : State) : State :=
  let s := s.bump (Adr.PORT_CRC_ERR p) 1
  if (s.port p).st == .active && !(s.port p).gap then
    s.modPort p fun q => { q with gap := true, nakAt := none }
  else s

/-- The keystream block of slot `j` of DATA flit `S` under a key (R400). -/
def keystream (key S j : Nat) : List Byte := leBytes 16 (Config.aes256 key (S * 2 ^ 64 + j)).toNat

/-- Encrypt or decrypt the slots of a DATA flit (R400). -/
def xorSlots (key S : Nat) : Nat → List (List Byte) → List (List Byte)
  | _, [] => []
  | j, sl :: rest => List.zipWith (· ^^^ ·) sl (keystream key S j) :: xorSlots key S (j + 1) rest

/-- The slots of a received flit in plaintext. -/
def Port.plain (q : Port) (f : Flit) : Flit :=
  match q.keyUsed with
  | some (_, rx) => { f with slots := xorSlots rx q.rxS 0 (f.slots.take f.used) ++ f.slots.drop f.used }
  | none => f

/-- A DATA flit in ACTIVE: acknowledgement, then the sequence check, then credits and slots. -/
def State.dataRx (p : Nat) (f : Flit) (s : State) : State :=
  let s := s.ackRx p f
  if (s.port p).st != .active then s
  else if f.seq ≠ (s.port p).rxS % 4096 then s
  else
    let g := (s.port p).plain f
    let s := s.modPort p fun q => { q with rxS := q.rxS + 1, gap := false, acked := true, nakAt := none }
    let s := s.creditRx p f.crClass f.crCount
    if (s.port p).st != .active then s else s.slotsRx p g

/-- A flit received on an Avber port. -/
def State.flitRx (p : Nat) (bytes : List Byte) (s : State) : State :=
  if s.portMode p ≠ 0 then s
  else match (s.port p).st with
    | .off | .fenced | .detect | .equalise => s
    | _ =>
    let s := s.bump (Adr.PORT_RX_FLITS p) 1
    match flitParse bytes with
    | none => s.badFlit p
    | some f =>
      if f.type = 2 then s.ctrlRx p ((f.slots.take 4).flatten)
      else
        let s := if (s.port p).st == .credit && (s.port p).adv.isSome then s.enterActive p else s
        if (s.port p).st != .active then s
        else if f.type = 0 then s.dataRx p f else s.ackRx p f

/-! ### Sending flits (R59, R63) -/

/-- The acknowledgement a port sends: the NAK of an open gap once per 256 cycles, else its latest
ACK. -/
def State.ackOut (s : State) (p : Nat) : Nat × Nat :=
  let q := s.port p
  let due := match q.nakAt with
    | none => true
    | some t => decide (t + 160 ≤ s.ns)
  if q.gap && due then (2, q.lastIn) else if q.acked then (1, q.lastIn) else (0, 0)

/-- The waiting credits that the next DATA flit carries: those of the class freed first (R59). -/
def crNext (w : List (Nat × Nat)) : Nat × Nat × List (Nat × Nat) :=
  match w with
  | [] => (0, 0, [])
  | (c, _) :: _ =>
    let n := min 1023 ((w.filter fun e => e.1 == c).map (·.2)).sum
    let rec take : Nat → List (Nat × Nat) → List (Nat × Nat)
      | _, [] => []
      | k, (d, m) :: t =>
        if d ≠ c then (d, m) :: take k t
        else if m ≤ k then take (k - m) t
        else (d, m - k) :: take 0 t
    (c, n, take n w)

/-- The replay buffer holds 64 flits per lane (R63). -/
def State.replayRoom (s : State) (p : Nat) : Bool :=
  decide ((s.port p).replay.length < 64 * lanesOf (s.widthCode p))

/-- Build and send a flit of the given slots. -/
def State.putFlit (p type : Nat) (slots : List Slot) (s : State) : State :=
  let q := s.port p
  let (ty, n) := s.ackOut p
  let first := match slots.findIdx? (·.first) with
    | some i => i
    | none => 15
  let (c, k, rest) := if type = 0 then crNext q.waiting else (0, 0, q.waiting)
  let data := slots.map fun x => padTo 16 x.data
  let data := match q.keyUsed with
    | some (tx, _) => xorSlots tx q.txS 0 data
    | none => data
  let f : Flit := { type := type, first := first, used := slots.length, abort := false, slots := data
                    seq := if type = 0 then q.txS % 4096 else 0, ack := n, ackType := ty
                    crClass := c, crCount := k }
  let b := flitBytes f
  let s := s.modPort p fun q => { q with
    nakAt := if ty = 2 then some s.ns else q.nakAt
    waiting := rest
    txS := if type = 0 then q.txS + 1 else q.txS
    replay := if type = 0 then q.replay ++ [⟨q.txS % 4096, b⟩] else q.replay }
  (s.emit (.flit p b)).bump (Adr.PORT_TX_FLITS p) 1

/-- The port sends its next flit: a flit to resend, then packets, then waiting credits, else IDLE
(R59, R63). -/
def State.nextFlit (p : Nat) (s : State) : State :=
  let q := s.port p
  match q.resend with
  | k :: rest =>
    ((s.modPort p fun q => { q with resend := rest }).emit (.flit p k.bytes)).bump (Adr.PORT_TX_FLITS p) 1
  | [] =>
    if s.replayRoom p && !q.tx.isEmpty then
      (s.modPort p fun q => { q with tx := q.tx.drop 15 }).putFlit p 0 (q.tx.take 15)
    else if s.replayRoom p && !q.waiting.isEmpty then s.putFlit p 0 []
    else s.putFlit p 1 []

/-! ### Octets (R51, R52) -/

/-- The ports that the applied layout of an octet starts. -/
def State.octPorts (s : State) (n : Nat) : List Nat :=
  ((List.range 8).map (8 * n + ·)).filter s.portExists

/-- The lowest REJECT code of Table 3-2 that applies to MODE `m` and LAYOUT `l` of octet `n`. -/
def State.layoutReject (s : State) (n m l : Nat) : Nat :=
  let code (i : Nat) : Nat := nbits l (3 * i + 2) (3 * i)
  let starts := (List.range 8).filter fun i => code i != 0
  let w (i : Nat) : Nat := lanesOf (code i)
  let c16 := starts.any fun i => code i == 5
  let partner := Adr.OCTET_MODE (n + 1)
  let good16 := m == 2 && n % 2 == 0 && l == 5
    && s.rf partner 1 0 == 2 && s.rf (Adr.OCTET_LAYOUT (n + 1)) 23 0 == 0
  if m = 2 ∧ 16 ≤ n then 1
  else if m = 3 then 2
  else if starts.any fun i => w i != 0 && i % w i != 0 then 3
  else if starts.any (fun i => code i != 5 && decide (8 < i + w i))
      || starts.any (fun i => starts.any fun j => decide (i < j) && code i != 5 && decide (j < i + w i)) then 4
  else if c16 && !good16 then 5
  else if m = 2 ∧ starts.any (fun i => code i == 1 || code i == 2) then 6
  else if ((s.octPorts n) ++ (if c16 then s.octPorts (n + 1) else [])).any
      fun p => (s.port p).st != .off then 7
  else if starts.any fun i => decide (5 < code i) then 8
  else 0

/-- Return a port page to its reset values but for the always-on counters (R51, R472). -/
def State.resetPortPage (p : Nat) (s : State) : State :=
  let a := adr .port p 0
  let s := s.modHub fun h => { h with
    regs := h.regs.clear a (a + 0x1000)
    cnts := h.cnts.keep fun k _ => !(decide (a + 0x80 ≤ k) && decide (k < a + 0x1000)) }
  let s := s.modTime fun t => { t with tt := t.tt.set p {}, ports := t.ports.set p {} }
  let s := s.modSw fun w => { w with
    shapers := w.shapers.clear (16 * p) (16 * p + 16), deficit := w.deficit.clear (8 * p) (8 * p + 8)
    maxDelay := w.maxDelay.clear (8 * p) (8 * p + 8), rr := w.rr.set p 0, rot := w.rot.set p 0 }
  s.modPort p fun q => { ({} : Port) with linkKey := q.linkKey, epoch := q.epoch + 1, occ := q.occ }

/-- Apply a valid layout to the given octets: every port is re-created (R51). -/
def State.applyLayout (octs : List Nat) (s : State) : State :=
  octs.foldl (fun s n =>
    let m := s.rf (Adr.OCTET_MODE n) 1 0
    let l := s.rf (Adr.OCTET_LAYOUT n) 23 0
    let s := s.modLink fun k => { k with layout := k.layout.set n (some (m, l)) }
    let s := s.setRg (Adr.OCTET_OCT_STATUS n) 0x100
    ((List.range 8).map (8 * n + ·)).foldl (fun s p =>
      let s := s.resetPortPage p
      if s.portExists p then s else s.modPort p fun q => { q with linkKey := none }) s) s

/-- OCTET.CTRL.APPLY (R51). -/
def State.octetApply (n : Nat) (s : State) : State :=
  let m := s.rf (Adr.OCTET_MODE n) 1 0
  let l := s.rf (Adr.OCTET_LAYOUT n) 23 0
  let r := s.layoutReject n m l
  if r ≠ 0 then s.setRf (Adr.OCTET_OCT_STATUS n) 3 0 r
  else s.applyLayout (if nbits l 2 0 = 5 then [n, n + 1] else [n])

/-! ### PORT_CTRL (R53) -/

/-- A write of PORT_CTRL: FEC_ALLOW, EN, RETRAIN. -/
def State.writePortCtrl (p : Nat) (v : Word) (s : State) : State :=
  let sealed := s.sec.mode == .sealed
  let keyless := (s.port p).linkKey.isNone && (s.port p).keyUsed.isNone && s.portMode p != 1
  if bits v 3 2 = 3 then s
  else if bit v 0 && sealed && keyless then
    (s.bump Adr.SEC_LINK_KEY_MISS 1).raise Err.sec_LINK_KEY_MISS 0 [] none
  else
    let s := s.setRg (Adr.PORT_PORT_CTRL p) (v &&& 0xD)
    let st := (s.port p).st
    if st == .fenced then s
    else if !bit v 0 then s.leaveTo p .off
    else if st == .off then
      (s.modPort p fun q => { q with halt := false }).leaveTo p
        (if s.flt.groups.get (s.rf (Adr.PORT_FENCE p) 5 0) == .electrical then .fenced else .detect)
    else if bit v 31 then s.linkError p
    else s

/-! ### Meanings -/

/-- OCTET_APPLY (R51). -/
def execOctetApply (src : Source) (n : Nat) (val : Word) (s : State) : Host.Outcome State Fault Refusal :=
  .next (s.guarded src (Adr.OCTET_CTRL n) .wo fun s => if bit val 0 then s.octetApply n else s)

/-- PORT_DISABLE (R53 rule 2). -/
def execPortDisable (src : Source) (p : Nat) (val : Word) (s : State) : Host.Outcome State Fault Refusal :=
  .next (s.guarded src (Adr.PORT_PORT_CTRL p) .rw (·.writePortCtrl p (setBits val 0 0 0)))

/-- PORT_RETRAIN (R53 rule 4): the RETRAIN bit of PORT_CTRL, written with EN as it stands. -/
def execPortRetrain (src : Source) (p : Nat) (val : Word) (s : State) : Host.Outcome State Fault Refusal :=
  .next (s.guarded src (Adr.PORT_PORT_CTRL p) .rw fun s => s.writePortCtrl p (setBits (val ||| 0x80000000) 0 0 (s.rf (Adr.PORT_PORT_CTRL p) 0 0)))

/-- SIGNAL_DETECT (R53): signal on all lanes in DETECT. -/
def execSignalDetect (p : Nat) (s : State) : Host.Outcome State Fault Refusal :=
  .next (if s.portExists p && (s.port p).st == .detect then
    ((s.lanesBit 0 p true).lanesBit 8 p true).modPort p fun q => { q with st := .equalise }
  else s)

/-- SIGNAL_LOST (R53): signal lost on a lane of the port for 1 µs. -/
def execSignalLost (p lane : Nat) (s : State) : Host.Outcome State Fault Refusal :=
  .next (
    if !s.portExists p || !(s.portLanes p).contains (p + lane) then s
    else
      let st := (s.port p).st
      if st == .off || st == .fenced then s
      else
        let s := (s.laneBit 0 (p + lane) false).laneBit 8 (p + lane) false
        match st with
        | .equalise | .param | .credit => s.leaveTo p .detect
        | .active =>
          if s.portMode p = 0 then
            let s := (s.bump (Adr.PORT_RETRAINS p) 1).raise Err.port_RETRAIN p [] none
            s.modPort p fun q => { q with st := .retrain }
          else s.leaveTo p .detect
        | _ => s)

/-- The fitness of one lane from its errors (R515): at most 10^-t of the bits received. -/
def laneFit (t errors received : Nat) : Bool := t != 0 && decide (errors * 10 ^ t ≤ received)

/-- EQUALISATION_DONE (R53, R515): `errors` are the bit errors counted per lane of the port. -/
def execEqualisationDone (p : Nat) (errors : List Nat) (received : Nat) (s : State) :
    Host.Outcome State Fault Refusal :=
  .next (
    let st := (s.port p).st
    if !s.portExists p || !(st == .equalise || st == .retrain) then s
    else if s.portMode p = 1 then s.modPort p fun q => { q with st := .active, fec := 2 }
    else if s.portMode p = 2 then s
    else
      let s := ((s.portLanes p).zip errors).foldl (fun s e =>
        s.laneBit 16 e.1 (laneFit (s.rf (Adr.OCTET_LL_BER_TH (e.1 / 8)) 3 0) e.2 received)) s
      if st == .equalise then s.enterParam p
      else
        let s := ((s.lanesBit 0 p true).lanesBit 8 p true).modPort p fun q =>
          { q with st := .active, resend := q.replay }
        if (s.port p).resend.isEmpty then s.putFlit p 1 [] else s)

/-- PORT_TIMER_EXPIRE (R53): the timer of the port's state ends. -/
def execPortTimerExpire (p : Nat) (s : State) : Host.Outcome State Fault Refusal :=
  .next (match (s.port p).st with
    | .equalise | .param | .credit => (s.bumpLo (Adr.PORT_LINK_DOWNS p)).leaveTo p .detect
    | .retrain => s.leaveTo p .detect
    | _ => s)

/-- PARAM_SEND (R53): the repeat of PARAM. -/
def execParamSend (p : Nat) (s : State) : Host.Outcome State Fault Refusal :=
  .next (if (s.port p).st == .param then s.sendCtrl p (s.paramRec p) else s)

/-- CREDIT_ADV_SEND (R53): the repeat of CREDIT_ADV. -/
def execCreditAdvSend (p : Nat) (s : State) : Host.Outcome State Fault Refusal :=
  .next (if (s.port p).st == .credit then s.sendCtrl p (s.advRec p) else s)

/-- PARAM_RX (R55). -/
def execParamRx (p : Nat) (rec : List Byte) (s : State) : Host.Outcome State Fault Refusal :=
  .next (s.ctrlRx p rec)

/-- CREDIT_ADV_RX (R53). -/
def execCreditAdvRx (p : Nat) (rec : List Byte) (s : State) : Host.Outcome State Fault Refusal :=
  .next (s.ctrlRx p rec)

/-- RETRAIN_REQ_RX (R54). -/
def execRetrainReqRx (p : Nat) (rec : List Byte) (s : State) : Host.Outcome State Fault Refusal :=
  .next (s.ctrlRx p rec)

/-- DATA_FLIT_RX (R62). -/
def execDataFlitRx (p : Nat) (flit : List Byte) (s : State) : Host.Outcome State Fault Refusal :=
  .next (s.flitRx p flit)

/-- IDLE_FLIT_RX (R57). -/
def execIdleFlitRx (p : Nat) (flit : List Byte) (s : State) : Host.Outcome State Fault Refusal :=
  .next (s.flitRx p flit)

/-- FLIT_TX (R59). -/
def execFlitTx (p : Nat) (s : State) : Host.Outcome State Fault Refusal :=
  .next (if s.portMode p == 0 && (s.port p).st == .active then s.nextFlit p else s)

end Sys2Proof.Machine
end

