-- ==== Sys2Proof/Machine/Fp.lean ====
section
/-! DEFINITION. Number formats (Table 10-7) and their arithmetic: decoding to exact dyadic values,
rounding (R257, R258), IEEE 754 addition of FP32 (R115, R259), the atomic functions (Table 5-4). -/

set_option Elab.async false

namespace Sys2Proof.Machine
open Sys2Proof

/-- An exact dyadic number: m × 2^e. -/
structure Dy where
  m : Int
  e : Int
  deriving DecidableEq, Repr, Inhabited

/-- m × 2^k for a k that is not negative. -/
def shlInt (m : Int) (k : Int) : Int := m * (2 ^ k.toNat : Nat)

/-- The mantissas of two numbers at their common exponent. -/
def Dy.align (a b : Dy) : Int × Int × Int :=
  let e := min a.e b.e
  (shlInt a.m (a.e - e), shlInt b.m (b.e - e), e)

def Dy.add (a b : Dy) : Dy :=
  let (x, y, e) := a.align b
  ⟨x + y, e⟩

def Dy.mul (a b : Dy) : Dy := ⟨a.m * b.m, a.e + b.e⟩
def Dy.neg (a : Dy) : Dy := ⟨-a.m, a.e⟩
def Dy.abs (a : Dy) : Dy := ⟨a.m.natAbs, a.e⟩
def Dy.lt (a b : Dy) : Bool :=
  let (x, y, _) := a.align b
  decide (x < y)
def Dy.zero : Dy := ⟨0, 0⟩
def Dy.ofInt (i : Int) : Dy := ⟨i, 0⟩

/-- floor(log2 |a|) of a number that is not 0. -/
def Dy.log2 (a : Dy) : Int := (Nat.log2 a.m.natAbs : Nat) + a.e

/-- A value of a floating-point format. -/
inductive FV where
  | nan
  | inf (neg : Bool)
  | fin (d : Dy)
  deriving DecidableEq, Repr, Inhabited

/-- A floating-point format: exponent and mantissa bits, bias; how its top exponent is used. -/
structure Fmt where
  eb : Nat
  mb : Nat
  bias : Int
  /-- The format has infinities. -/
  inf : Bool
  /-- The all-ones pattern is NaN (E4M3). -/
  nan : Bool
  deriving DecidableEq, Repr, Inhabited

/-- The formats 0 to 9 of Table 10-7. -/
def fmtOf : Nat → Fmt
  | 0 => ⟨8, 23, 127, true, true⟩
  | 1 => ⟨8, 7, 127, true, true⟩
  | 2 => ⟨5, 10, 15, true, true⟩
  | 3 => ⟨4, 3, 7, false, true⟩
  | 4 => ⟨5, 2, 15, true, true⟩
  | 5 => ⟨4, 3, 7, false, true⟩
  | 6 => ⟨5, 2, 15, true, true⟩
  | 7 => ⟨3, 2, 3, false, false⟩
  | 8 => ⟨2, 3, 1, false, false⟩
  | _ => ⟨2, 1, 1, false, false⟩

/-- Bits of an element of a format code (Table 10-7). -/
def fmtBits : Nat → Nat
  | 0 => 32 | 1 => 16 | 2 => 16 | 3 => 8 | 4 => 8 | 5 => 8 | 6 => 8 | 7 => 6 | 8 => 6 | 9 => 4 | 10 => 8
  | 11 => 32 | 12 => 32 | 13 => 64 | 14 => 384 | _ => 0

def isMx (f : Nat) : Bool := decide (5 ≤ f) && decide (f ≤ 10)
def isInt (f : Nat) : Bool := decide (11 ≤ f) && decide (f ≤ 13)

def Fmt.width (f : Fmt) : Nat := 1 + f.eb + f.mb

/-- Decode an element. -/
def Fmt.dec (f : Fmt) (x : Nat) : FV :=
  let neg := nbits x (f.eb + f.mb) (f.eb + f.mb) == 1
  let e := nbits x (f.eb + f.mb - 1) f.mb
  let m := x % 2 ^ f.mb
  let sg (v : Nat) : Int := if neg then -(v : Int) else v
  if f.inf && e == 2 ^ f.eb - 1 then (if m = 0 then .inf neg else .nan)
  else if !f.inf && f.nan && e == 2 ^ f.eb - 1 && m == 2 ^ f.mb - 1 then .nan
  else if e = 0 then .fin ⟨sg m, 1 - f.bias - f.mb⟩
  else .fin ⟨sg (2 ^ f.mb + m), (e : Int) - f.bias - f.mb⟩

/-- The sign bit of an element. -/
def Fmt.neg (f : Fmt) (x : Nat) : Bool := nbits x (f.eb + f.mb) (f.eb + f.mb) == 1

/-- The encoding of the largest finite value, of an infinity, and of a NaN as written. -/
def Fmt.maxBits (f : Fmt) : Nat :=
  if f.inf then (2 ^ f.eb - 2) * 2 ^ f.mb + (2 ^ f.mb - 1)
  else if f.nan then 2 ^ (f.eb + f.mb) - 2
  else 2 ^ (f.eb + f.mb) - 1
def Fmt.signBit (f : Fmt) (neg : Bool) : Nat := if neg then 2 ^ (f.eb + f.mb) else 0
def Fmt.infBits (f : Fmt) (neg : Bool) : Nat := f.signBit neg + (2 ^ f.eb - 1) * 2 ^ f.mb
def Fmt.nanBits (f : Fmt) : Nat :=
  if f.inf then (2 ^ f.eb - 1) * 2 ^ f.mb + 2 ^ (f.mb - 1) else 2 ^ (f.eb + f.mb) - 1

/-- Rounding modes (ROUND). -/
inductive Rnd where
  | even
  /-- Stochastic, with the value of mix32. -/
  | stoch (mix : Nat)
  | zero
  deriving DecidableEq, Repr

/-- Whether a quotient with remainder `rem` of `2^sh` goes up. -/
def Rnd.up (r : Rnd) (q rem sh : Nat) : Bool :=
  match r with
  | .even => decide (2 ^ sh < 2 * rem) || (2 * rem == 2 ^ sh && q % 2 == 1)
  | .stoch mix => decide (mix * 2 ^ sh < rem * 2 ^ 32)
  | .zero => false

/-- A number over 2^u rounded to an integer: quotient. -/
def roundQ (r : Rnd) (a : Nat) (e u : Int) : Nat :=
  if u ≤ e then a * 2 ^ (e - u).toNat
  else
    let sh := (u - e).toNat
    let q := a / 2 ^ sh
    if r.up q (a % 2 ^ sh) sh then q + 1 else q

/-- Round a finite number to a format: the magnitude's encoding, or `none` if it overflows (R257). -/
def Fmt.roundMag (f : Fmt) (r : Rnd) (d : Dy) : Option Nat :=
  if d.m = 0 then some 0
  else
    let u := max d.log2 (1 - f.bias) - f.mb
    let q := roundQ r d.m.natAbs d.e u
    let b := ((u + f.mb + f.bias - 1) * (2 ^ f.mb : Nat) + q).toNat
    if f.maxBits < b then none else some b

/-- mix32 of R258. -/
def mix32 (seed i : Nat) : Nat :=
  let x := i ^^^ (seed * 2 ^ 32)
  let x := x ^^^ (x >>> 33)
  let x := x * 0xFF51AFD7ED558CCD % 2 ^ 64
  let x := x ^^^ (x >>> 33)
  let x := x * 0xC4CEB9FE1A85EC53 % 2 ^ 64
  let x := x ^^^ (x >>> 33)
  x % 2 ^ 32

/-- The mode of a ROUND field for output element `i`. -/
def rndOf (round seed i : Nat) : Rnd :=
  match round with
  | 1 => .stoch (mix32 seed i)
  | 2 => .zero
  | _ => .even

/-- A number to a format by ROUND and SAT: its bits and whether it overflowed. An overflow is the
infinity, or the largest finite value under ROUND = 2 or SAT; E4M3 has NaN instead (Table 10-9). -/
def Fmt.ofDy (f : Fmt) (r : Rnd) (sat : Bool) (d : Dy) : Nat × Bool :=
  let neg := decide (d.m < 0)
  match f.roundMag r d with
  | some b => (f.signBit neg + b, false)
  | none =>
    (if f.inf then (if sat || r == .zero then f.signBit neg + f.maxBits else f.infBits neg)
      else if sat then f.signBit neg + f.maxBits else f.nanBits, true)

/-- FP32 addition, round to nearest even, NaN written as 0x7FC00000 (R115). -/
def fadd32 (a b : Nat) : Nat :=
  let f := fmtOf 0
  match f.dec a, f.dec b with
  | .nan, _ => f.nanBits
  | _, .nan => f.nanBits
  | .inf x, .inf y => if x = y then f.infBits x else f.nanBits
  | .inf x, _ => f.infBits x
  | _, .inf y => f.infBits y
  | .fin x, .fin y =>
    let z := x.add y
    if z.m = 0 then f.signBit (f.neg a && f.neg b && x.m == 0)
    else match f.roundMag .even z with
      | some m => f.signBit (decide (z.m < 0)) + m
      | none => f.infBits (decide (z.m < 0))

/-- A number of `n` bytes as a signed one. -/
def sgn (n x : Nat) : Int := if x < 2 ^ (8 * n - 1) then x else (x : Int) - (2 ^ (8 * n) : Nat)

/-- The new value of an atomic (Table 5-4): `a` the operand or the compare value, `b` the swap value. -/
def atomicNew (atop size old a b : Nat) : Nat :=
  match atop with
  | 0 => a
  | 1 => if old = a then b else old
  | 2 => (old + a) % 2 ^ (8 * size)
  | 3 => old &&& a
  | 4 => old ||| a
  | 5 => old ^^^ a
  | 6 => if sgn size a < sgn size old then a else old
  | 7 => if sgn size old < sgn size a then a else old
  | 8 => min old a
  | 9 => max old a
  | _ => fadd32 old a

end Sys2Proof.Machine
end

