-- ==== Sys2Proof/Machine/Gates.lean ====
section
/-! DEFINITION. Timetables: which gates are open at a time (R40, R41, R47, R286) and whether a packet
passes admission (R45, R46). Times are in ns; transmission times in ps. -/

set_option Elab.async false

namespace Sys2Proof.Machine
open Sys2Proof

/-- Fields of a timetable entry (Table 2-8). -/
def ttOp (e : BitVec 64) : Nat := bits e 63 62
def ttSheaf (e : BitVec 64) : Nat := bits e 61 50
def ttGates (e : BitVec 64) : Nat := bits e 34 27
def ttDur (e : BitVec 64) : Nat := bits e 26 0

/-- The timetable of a port. -/
def State.timetable (s : State) (p : Nat) : Timetable := s.time.tt.get p

/-- Whether the operating list is in force: EN is 1 and a list has been switched to (log entry 13). -/
def State.ttActive (s : State) (p : Nat) : Bool :=
  bit (s.rg (Adr.PORT_TT_CTRL p)) 0 && !(s.timetable p).oper.isEmpty

/-- The entry that holds offset `pos` (in ns) of a cycle, and where it ends. -/
def entryAt (pos : Nat) : Nat → Nat → List (BitVec 64) → Nat × Nat
  | k, start, [] => (k, start)
  | k, start, e :: es =>
    if pos < start + 8 * ttDur e then (k, start + 8 * ttDur e) else entryAt pos (k + 1) (start + 8 * ttDur e) es

/-- The offset of time `t` in the cycle, for every integer cycle number (R41). -/
def cyclePos (base cycle t : Nat) : Nat := (((t : Int) - (base : Int)) % (cycle : Int)).toNat

/-- The index of the entry that R41 gives for time `t` and the time it ends. -/
def Timetable.plainAt (tt : Timetable) (t : Nat) : Nat × Nat :=
  let pos := cyclePos tt.base tt.cycle t
  let r := entryAt pos 0 0 tt.oper
  (r.1, t + r.2 - pos)

/-- The operating entry at time `t` and the time it ends: after a step of fabric time the entry that was in
force stays until the next boundary (R37). -/
def Timetable.at (tt : Timetable) (t : Nat) : Nat × Nat :=
  if tt.held ∧ t < tt.ends then (tt.idx, tt.ends) else tt.plainAt t

/-- What the gates judge of a packet: its traffic class, and the sheaf ID of a SHEAF packet. -/
structure Gated where
  tc : Nat
  sid : Option Nat
  deriving DecidableEq, Repr

/-- Whether an entry admits a packet (R40, Table 2-8). -/
def ttAdmits (e : BitVec 64) (stc : Nat) (g : Gated) : Bool :=
  (ttGates e).testBit g.tc && (ttOp e != 1 || g.tc != stc || g.sid == some (ttSheaf e))

/-- The traffic class of sheaf windows. -/
def State.sheafTc (s : State) (p : Nat) : Nat := s.rf (Adr.PORT_TT_CTRL p) 10 8

/-- The gate of a packet is open at time `t`. -/
def State.gateOpen (s : State) (p t : Nat) (g : Gated) : Bool :=
  if s.ttActive p then
    let tt := s.timetable p
    ttAdmits (tt.oper.getD (tt.at t).1 0) (s.sheafTc p) g
  else true

/-- The sheaf window in force at time `t` (R47). -/
def State.sheafWindow (s : State) (p t : Nat) : Option Nat :=
  if s.ttActive p then
    let tt := s.timetable p
    let e := tt.oper.getD (tt.at t).1 0
    if ttOp e = 1 then some (ttSheaf e) else none
  else none

/-- How long the first entries of a list keep a gate open; `none` if all of them do. -/
def openFor (stc : Nat) (g : Gated) : Nat → List (BitVec 64) → Option Nat
  | _, [] => none
  | acc, e :: es => if ttAdmits e stc g then openFor stc g (acc + 8 * ttDur e) es else some acc

/-- The time at which the gate closes next; `none` if it never does. -/
def State.gateClose (s : State) (p t : Nat) (g : Gated) : Option Nat :=
  if s.ttActive p then
    let tt := s.timetable p
    let (k, e) := tt.at t
    (openFor (s.sheafTc p) g 0 (rotl ((k + 1) % tt.oper.length) tt.oper)).map (e + ·)
  else none

/-- The shadow list as written, `n` entries. -/
def Timetable.shadowList (tt : Timetable) (n : Nat) : List (BitVec 64) :=
  (List.range n).map tt.shadow.get

/-- The limit of R45: the close of the gate, or a pending switch time at which the gate is closed. -/
def State.gateLimit (s : State) (p t : Nat) (g : Gated) : Option Nat :=
  let close := s.gateClose p t g
  let tt := s.timetable p
  let sw := match tt.pend with
    | some T =>
      let new := tt.shadowList (s.rf (Adr.PORT_TT_LEN p) 10 0)
      let nt : Timetable := { tt with
        oper := new, cycle := (s.rg (Adr.PORT_TT_CYCLE p)).toNat, base := s.rg64 (Adr.PORT_TT_BASE_LO p) }
      if s.ttActive p && !ttAdmits (new.getD (nt.at T).1 0) (s.sheafTc p) g then some T else none
    | none => none
  match close, sw with
  | some a, some b => some (min a b)
  | some a, none => some a
  | none, b => b

/-- Transmit PHY latency in ps (Table 3-11): 17.5 ns with low-latency FEC, 21.5 ns otherwise. -/
def State.txPhy (s : State) (p : Nat) : Nat := if (s.port p).fec = 1 then 17500 else 21500

/-- Time of a flit in ps (Table 3-6): 256 bytes at 200 Gb/s per lane. -/
def State.flitPs (s : State) (p : Nat) : Nat := 10240 / lanesOf (s.widthCode p)

/-- Transmission time in ps in whole cycles of 625 ps, rounded up (R45): flits occupied from the flit
under assembly on, or a frame's length plus 20 bytes. `len` is the length in bytes. -/
def State.txTime (s : State) (p len : Nat) (frame : Bool) : Nat :=
  let ps :=
    if frame then ceilDiv ((len + 20) * 8 * 1000) (200 * lanesOf (s.widthCode p))
    else ceilDiv ((s.port p).tx.length % 15 + slotsOf len) 15 * s.flitPs p
  ceilDiv ps 625 * 625

/-- When the packet's first flit or frame would cross the reference plane, in ps of fabric time. -/
def State.txStart (s : State) (p : Nat) : Nat :=
  s.t16 * 1000 / 65536 + s.txPhy p + (s.port p).tx.length / 15 * s.flitPs p

/-- The gate of R40 and the admission of R45 for a packet of `len` bytes. -/
def State.admitted (s : State) (p len : Nat) (frame : Bool) (g : Gated) : Bool :=
  let t0 := s.txStart p
  let t := t0 / 1000
  s.gateOpen p t g && (match s.gateLimit p t g with
    | none => true
    | some l =>
      decide (t0 + s.txTime p len frame + 8000 * s.rf (Adr.PORT_TT_CTRL p) 23 16 ≤ 1000 * l))

/-- What the gates judge of a queue entry. -/
def Queued.gated (q : Queued) : Gated :=
  { tc := q.tc
    sid := match q.load with
      | .pkt k => if k.cls = 9 then some k.sheafId else none
      | .frame _ => none }

/-- R286: a packet of a TT_BOUND sheaf leaves only inside a window that names it. -/
def State.ttBoundOk (s : State) (q : Queued) : Bool :=
  match q.sheaf, q.load with
  | some sh, .pkt k =>
    s.shf sh 1016 1016 == 0 || s.sheafWindow q.egress (s.txStart q.egress / 1000) == some k.sheafId
  | _, _ => true

end Sys2Proof.Machine
end

