-- ==== Sys2Proof/Machine/SecCore.lean ====
section
/-! DEFINITION. Data encryption: AES-256-XTS over 64-byte lines (R394, R396) and the key group of an
extent. The barn key of R397 leaves no trace but the undefined contents after a change of mode, so the
barn holds plaintext here outside the tier cache. -/

set_option Elab.async false

namespace Sys2Proof.Machine
open Sys2Proof

/-- Multiplication by the primitive element of GF(2^128) as XTS uses it (IEEE 1619). -/
def xtsMul (t : BitVec 128) : BitVec 128 :=
  if bit t 127 then (t <<< 1) ^^^ 0x87#128 else t <<< 1

/-- The blocks of a line under tweak `t`: `f` is the cipher under key 1. -/
def xtsBlocks (f : BitVec 128 → BitVec 128) : Nat → BitVec 128 → List Byte → List Byte
  | 0, _, _ => []
  | n + 1, t, bs =>
    let b := BitVec.ofNat 128 (leNat (bs.take 16))
    leBytes 16 ((f (b ^^^ t)) ^^^ t).toNat ++ xtsBlocks f n (xtsMul t) (bs.drop 16)

/-- Encrypt or decrypt a 64-byte line under a 64-byte key (key 1 low, key 2 high); the data unit
number is the line number. -/
def xtsLine (enc : Bool) (key line : Nat) (bs : List Byte) : List Byte :=
  let k1 := key % 2 ^ 256
  let k2 := key >>> 256
  xtsBlocks (fun b => if enc then Config.aes256 k1 b.toNat else Config.aes256Inv k1 b.toNat) 4
    (Config.aes256 k2 line) bs

/-- Encrypt or decrypt whole lines from line number `line` on. -/
def xtsLines (enc : Bool) (key : Nat) : Nat → Nat → List Byte → List Byte
  | 0, _, _ => []
  | n + 1, line, bs => xtsLine enc key line (bs.take 64) ++ xtsLines enc key n (line + 1) (bs.drop 64)

/-- The engine runs in SEALED (R384): UNSEALING and SEALING take no requests. -/
def State.isSealed (s : State) : Bool := s.sec.mode == .sealed

/-- The key bound to an FJID, and its group (R394). -/
def State.keyOf (s : State) (fjid : Nat) : Option Nat :=
  match s.sec.binds.get fjid with
  | none => none
  | some b => s.sec.keys.get b.1

/-- The key of an extent's OWNER (R396). -/
def State.extKey (s : State) (e : Nat) : Option Nat := s.keyOf (s.extent e).owner

end Sys2Proof.Machine
end

