-- ==== Sys2Proof/Machine/TtuCore.lean ====
section
/-! DEFINITION. Requests at the receiving side: job slots and tags (R119, R130, R131), the split of a
request into parts (R124, Table 8-2), the issue of a part to its target (R126, R516), its performance
in the tier cache (R193, R195), and what a target's answer does to it. -/

set_option Elab.async false

namespace Sys2Proof.Machine
open Sys2Proof

/-! ### Job slots, tags and requests -/

def State.job (s : State) (j : Nat) : JobSt := s.ttu.jobs.get j
def State.setJob (j : Nat) (x : JobSt) (s : State) : State := s.modTtu fun t => { t with jobs := t.jobs.set j x }

/-- The slot, not FREE, whose FJID register holds `fjid` (R119). -/
def State.slotOf (s : State) (fjid : Nat) : Option Nat := (s.jobSlotsOf fjid).head?

/-- The ACTIVE slot of an FJID. -/
def State.activeSlot (s : State) (fjid : Nat) : Option Nat :=
  (s.slotOf fjid).filter fun j => s.job j == .active

def State.req (s : State) (id : Nat) : Option Req := s.ttu.reqs.get id
def State.setReq (id : Nat) (r : Option Req) (s : State) : State :=
  s.modTtu fun t => { t with reqs := t.reqs.set id r }
def State.modReq (id : Nat) (f : Req → Req) (s : State) : State :=
  match s.req id with
  | none => s
  | some r => s.setReq id (some (f r))

def State.tag (s : State) (n : Nat) : Option Tag := s.ttu.tags.get n
def State.setTag (n : Nat) (g : Option Tag) (s : State) : State :=
  s.modTtu fun t => { t with tags := t.tags.set n g }

/-- The listed tags. -/
def State.tagList (s : State) : List (Nat × Tag) := s.ttu.tags.filterMap fun e => e.2.map fun g => (e.1, g)

/-- The die of a tag (R130). -/
def tagDie (n : Nat) : Nat := n / 32768

/-- TAG_USED of a slot (R131): tags held on both dies, quarantined ones not (R134). -/
def State.tagUsed (s : State) (j : Nat) : Nat :=
  (s.tagList.filter fun e => !e.2.quar && e.2.slot == some j).length

/-- TIER.TAGS_USED of a die (R197). -/
def State.tierTags (s : State) (die : Nat) : Nat :=
  (s.tagList.filter fun e => !e.2.quar && e.2.tier && tagDie e.1 == die).length

/-- Quarantined tags of a die. -/
def State.tagQuar (s : State) (die : Nat) : Nat :=
  (s.tagList.filter fun e => e.2.quar && tagDie e.1 == die).length

/-- TAG_FREE of a die (R132). -/
def State.tagFree (s : State) (die : Nat) : Nat :=
  32768 - (s.tagList.filter fun e => tagDie e.1 == die).length

/-- Cells of requests to the home of which some line has no tracker (R152). -/
def State.homeQueued (s : State) (j : Nat) : Nat :=
  (s.home.groups.filterMap fun e => match e.2 with
    | some g => if g.slot = j ∧ g.cells.isSome then some (cellsOf g.pkt.len) else none
    | none => none).sum

/-- QUEUE_USED of a slot (R131): cells of its checked requests that have not been issued whole. -/
def State.queueUsed (s : State) (j : Nat) : Nat :=
  (s.ttu.reqs.filterMap fun e => match e.2 with
    | some r => if r.slot = some j ∧ r.cells.isSome then some (cellsOf r.pkt.len) else none
    | none => none).sum + s.homeQueued j

/-- In-flight count of a die in a drain generation (R171). -/
def State.infl (s : State) (die : Nat) (g : Bool) : Nat :=
  (s.tagList.filter fun e => !e.2.quar && e.2.gen == some g && tagDie e.1 == die).length

/-- A free tag of a die; which one is open (R130). -/
def State.pickTag (s : State) (die : Nat) : Option Nat :=
  ((List.range 32768).map fun i => 32768 * die + (s.freeVal + i) % 32768).find? fun n => (s.tag n).isNone

/-- The job's tag limit, or the tier engine's, lets one more tag be held. -/
def State.tagRoom (s : State) (die : Nat) (slot : Option Nat) (tier : Bool) : Bool :=
  (match slot with
    | some j => decide (s.tagUsed j < s.rf (Adr.JOB_TAG_LIMIT j) 16 0)
    | none => true)
    && (!tier || decide (s.tierTags die < s.rf Adr.TIER_TAG_LIMIT 13 0))

/-! ### Requests -/

/-- A malformed MREQ (R114, R118, R6). -/
def mreqBad (p : Packet) : Bool :=
  let n := p.size
  let len := match p.op with
    | 0 => 32
    | 1 => 32 + n
    | 2 => 104
    | _ => if p.atop = 1 then 32 + 2 * n else 32 + n
  decide (3 < p.op) || p.phys || p.len != len || p.xf 27 0 != 0 || (p.op != 3 && p.atop != 0)
    || (match p.op with
      | 0 | 1 => n == 0 || decide (4096 < n)
      | 2 => n != 64 || p.fva % 64 != 0
      | _ => (n != 4 && n != 8) || p.fva % n != 0 || decide (10 < p.atop) || (p.atop == 10 && n != 4))

/-- Requests that move ciphertext as it is (R396): fills, writebacks and copies. -/
def ReqKind.raw : ReqKind → Bool
  | .mreq => false
  | .home _ => false
  | .own _ raw => raw
  | _ => true

def ReqKind.isTier : ReqKind → Bool
  | .fill _ _ _ => true
  | .wb _ _ _ => true
  | _ => false

/-- Data the receiving side decrypts and encrypts for a request: SEALED mode, and no raw request. -/
def State.crypt (s : State) (r : Req) : Bool := s.isSealed && !r.kind.raw

/-- Whether the request is done: every part formed and done. -/
def Req.done (r : Req) : Bool := r.formed && r.parts.all fun p => p.st == .done

/-- A run touches a 64-byte line. -/
def Seg.lines (g : Seg) : List Nat := linesOf g.ppa g.len

/-- Two requests touch a common line. -/
def Req.overlap (a b : Req) : Bool := a.segs.any fun g => b.segs.any fun h =>
  decide (g.ppa / 64 * 64 < h.ppa + h.len) && decide (h.ppa / 64 * 64 < g.ppa + g.len)

/-- The request may not be issued yet: an earlier request of the job overlaps it, a locked read and
write runs on one of its lines, or an earlier request of its ordered stream is not performed (R126,
R127). -/
def State.blocked (s : State) (id : Nat) (r : Req) : Bool :=
  s.ttu.reqs.any fun e => match e.2 with
    | none => false
    | some q =>
      decide (e.1 < id) && !q.kind.isTier && !r.kind.isTier
        && ((q.overlap r && (q.pkt.fjid == r.pkt.fjid || q.parts.any fun p => p.rmw && p.st == .issued)
              && (match q.kind with | .copyRead .. => false | .copyWrite .. => false | _ => true)
              && (match r.kind with | .copyRead .. => false | .copyWrite .. => false | _ => true))
          || (q.pkt.ordered && r.pkt.ordered && q.kind == .mreq && r.kind == .mreq && q.pkt.fjid == r.pkt.fjid
              && q.pkt.src == r.pkt.src && q.pkt.orderId == r.pkt.orderId))

/-- A part of the request waits to be issued. -/
def Req.waiting (r : Req) : Bool := !r.formed || r.parts.any fun p => p.st == .waiting

/-- Requests of a slot are issued oldest first (R131). -/
def State.oldest (s : State) (id : Nat) (r : Req) : Bool :=
  r.slot.isNone || !(s.ttu.reqs.any fun e => match e.2 with
    | none => false
    | some q => decide (e.1 < id) && q.slot == r.slot && q.die == r.die && q.waiting && !q.copying && !s.blocked e.1 q)

/-! ### Splitting (R124, Table 8-2) -/

/-- The port of a target answers requests: an Avber port in ACTIVE or RETRAIN, a CXL port in ACTIVE, and
no DEAD mark (R124, R134). -/
def State.targetOk (s : State) (p : Nat) (cxl : Bool) : Bool :=
  let st := (s.port p).st
  !bit (s.rg (Adr.PORT_TARGET_STATE p)) 0 &&
    (if cxl then s.portActive p else s.portExists p && (st == .active || st == .retrain))

/-- A piece of a request: where it is served, or the status that ends it. -/
structure Piece where
  seg : Seg
  tgt : Option Target
  status : Nat
  poison : Bool
  rmw : Bool
  deriving DecidableEq, Repr, Inhabited

/-- Where a line is served at its target. -/
def State.lineTarget (s : State) (die ppa : Nat) : Option Target × Nat :=
  match s.decode die ppa with
  | .avber _ p => if s.targetOk p false then (some (.avber p), 0) else (none, 7)
  | .cxl _ p => if s.targetOk p true then (some (.cxl p), 0) else (none, 7)
  | _ => (none, 1)

/-- A write that does not cover its line whole. -/
def Seg.partialLine (g : Seg) : Bool := g.ppa % 64 != 0 || g.len != 64

/-- Poison of the data of a line: a writeback sends the marks of the frame on, a write its own. -/
def State.linePoison (s : State) (r : Req) (g : Seg) : Bool :=
  match r.kind with
  | .wb f sec _ => s.poisoned (s.frameAt f (4096 * sec + g.off) / 64)
  | _ => r.pkt.poison && r.pkt.op != 0

/-- The pieces of a run at its targets; `thru` if the barn copy is written first. -/
def State.targetPieces (s : State) (r : Req) (thru : Bool) (g : Seg) : List Piece :=
  (cutSegs 64 65 g).map fun h =>
    let (t, st) := s.lineTarget r.die h.ppa
    let t := if thru then t.map fun x => match x with
        | .avber p => .thru p false
        | .cxl p => .thru p true
        | y => y
      else t
    let op := r.pkt.op
    ⟨h, t, st, s.linePoison r h,
      !thru && (op == 3 || (s.crypt r && op != 0 && (h.partialLine || op == 2)))⟩

/-- A status for a granary range that cannot be served from a frame (R207, R211). -/
def State.granStatus (s : State) (write : Bool) : Option Nat :=
  match s.gran.st with
  | .off => some 7
  | .failed => some 7
  | .formatting => some 9
  | .restoring => some 9
  | .readOnly => if write then some 7 else none
  | .ready => none

/-- The pieces of a run that lies in one sector (Table 8-2). -/
def State.sectorPieces (s : State) (r : Req) (g : Seg) : List Piece :=
  let u := g.ppa / 65536
  let sec := g.ppa / 4096 % 16
  let write := r.pkt.op != 0
  let barn : List Piece := [⟨g, some .tier, 0, s.linePoison r g, false⟩]
  if r.kind.isTier then s.targetPieces r false g
  else
    let res := (s.frameOf u).filter fun f => (s.frame f).sect.get sec != .invalid
    match res with
    | some f =>
      let x := s.frame f
      if write && !x.gran && s.tierMode x.range == 1 then s.targetPieces r true g else barn
    | none => match s.poolFind g.ppa with
      | none => [⟨g, none, 1, false, false⟩]
      | some i => match s.tierMode i with
        | 3 => match s.decode r.die g.ppa with
          | .gran _ => match s.granStatus write with
            | some st => [⟨g, none, st, false, false⟩]
            | none => barn
          | _ => [⟨g, none, 1, false, false⟩]
        | 0 => s.targetPieces r false g
        | m =>
          if !s.tierOn || (m == 1 && write) then s.targetPieces r false g
          else if (s.frameOf u).isSome || (s.takeWay u i).1 != .none_ then barn
          else s.targetPieces r false g

/-- Two pieces next to each other form one part, of 4,096 bytes at most (Table 5-3). -/
def joins (a b : Piece) : Bool :=
  a.seg.off / 4096 == b.seg.off / 4096 && !a.rmw && !b.rmw && a.tgt == b.tgt && a.status == b.status && a.poison == b.poison
    && (a.tgt == some .tier || a.seg.ppa + a.seg.len == b.seg.ppa)

/-- Group pieces into parts; runs that touch become one. -/
def groupPieces : List Piece → List (List Piece)
  | [] => []
  | x :: xs => match groupPieces xs with
    | (y :: g) :: gs => if joins x y then (x :: y :: g) :: gs else [x] :: (y :: g) :: gs
    | gs => [x] :: gs

def joinSegs : List Seg → List Seg
  | [] => []
  | x :: xs => match joinSegs xs with
    | y :: ys => if x.ppa + x.len = y.ppa ∧ x.off + x.len = y.off ∧ x.ext = y.ext ∧ x.bad = y.bad
        then { x with len := x.len + y.len } :: ys else x :: y :: ys
    | [] => [x]

/-- A part from pieces of one target; pieces without one end at once. -/
def partOf (ps : List Piece) : Part :=
  match ps with
  | [] => {}
  | p :: _ =>
    { segs := joinSegs (ps.map (·.seg)), tgt := p.tgt.getD .tier, st := if p.tgt.isSome then .waiting else .done
      poison := p.poison, rmw := p.rmw, status := p.status }

/-- Split a request into its parts (R124). -/
def State.formParts (r : Req) (s : State) : Req × State :=
  let ps := ((r.segs.map (cutSegs 4096 20)).flatten.map (s.sectorPieces r)).flatten
  let s := (ps.filter fun p => p.status == 1).foldl (fun s p =>
    s.raise Err.ttu_PPA_UNDECODED r.die [p.seg.ppa % 2 ^ 32, p.seg.ppa >>> 32] (some r.pkt.fjid)) s
  let dram := (r.segs.map (cutSegs 4096 20)).flatten.filter fun g =>
    !r.kind.isTier && s.tierOn && (s.frameOf (g.ppa / 65536)).isNone && (match s.poolFind g.ppa with
      | some i => (s.tierMode i == 2 || (s.tierMode i == 1 && r.pkt.op == 0)) && (s.takeWay (g.ppa / 65536) i).1 == .none_
      | none => false)
  let s := s.bump Adr.TIER_ALLOC_BYPASS dram.length
  ({ r with parts := (groupPieces ps).map partOf, formed := true }, s)

/-! ### Toward a target (R126, R516) -/

/-- A PHYS request (R124, Table 5-2). -/
def physReq (tag op len ppa fjid src stamp : Nat) (poison : Bool) (data : List Byte) : Packet :=
  mkPkt 8 (tag % 2 ^ 16 * 2 ^ 16) src 0xFFFF stamp poison
    (leBytes 16 (1 * 2 ^ 29 + len * 2 ^ 30 + op * 2 ^ 47 + fjid * 2 ^ 51 + ppa * 2 ^ 71) ++ data)

/-- Send a packet from the cells that a request holds, or from engine cells (R516). -/
def State.sendFrom (r : Req) (p : Nat) (k : Packet) (s : State) : State :=
  match r.cells with
  | none => s.sendToPort r.die p none k
  | some id => s.modSw fun w => { w with
      stored := w.stored.modify id fun e => { e with copies := e.copies + 1 }
      queues := w.queues ++ [{ s.queueItem p k with id := id, at_ := s.ns }] }

/-- The window a part fetches or stores at its target: whole lines if they are encrypted or locked. -/
def Part.window (p : Part) (whole : Bool) : Nat × Nat :=
  match p.segs.head?, p.segs.getLast? with
  | some a, some b =>
    if whole then (a.ppa / 64 * 64, (b.ppa + b.len + 63) / 64 * 64 - a.ppa / 64 * 64)
    else (a.ppa, b.ppa + b.len - a.ppa)
  | _, _ => (0, 0)

/-- Whether a part moves whole lines: data are encrypted, or the line is locked. -/
def State.wholeLines (s : State) (r : Req) (p : Part) : Bool := s.crypt r || p.rmw

/-- The key for a run of a request's bytes, if its data are encrypted. -/
def State.segKey (s : State) (g : Seg) : Nat := (s.extKey g.ext).getD 0
def State.partKey (s : State) (p : Part) : Nat := (p.segs.head?.map s.segKey).getD 0

/-- A request's data bytes at an offset: the writeback's come from the frame. -/
def State.dataAt (s : State) (r : Req) (off n : Nat) : List Byte :=
  match r.kind with
  | .wb f sec _ => s.barnBytes (s.frameAt f (4096 * sec + off)) n
  | _ => (List.range n).map fun i => (r.pkt.wbyte (off + i)).getD 0

/-- Data of a run as its target holds it. -/
def State.cipherOut (s : State) (r : Req) (p : Part) (lo : Nat) (bs : List Byte) : List Byte :=
  if s.crypt r then xtsLines true (s.partKey p) (bs.length / 64) (lo / 64) bs else bs
def State.cipherIn (s : State) (r : Req) (p : Part) (lo : Nat) (bs : List Byte) : List Byte :=
  if s.crypt r then xtsLines false (s.partKey p) (bs.length / 64) (lo / 64) bs else bs

/-- Write-through and plain writes send their data; a masked write its mask too. -/
def State.sendWrite (r : Req) (p : Part) (tag port : Nat) (cxl : Bool) (s : State) : State :=
  let whole := s.crypt r
  let (lo, n) := p.window whole
  let off := (p.segs.head?.map (·.off)).getD 0
  let masked := r.pkt.op == 2 && !whole
  -- through the barn copy: the lines as the copy holds them
  let bs := match p.tgt with
    | .thru _ _ => if whole || r.pkt.op == 3 then
        (match s.frameOf (lo / 65536) with
          | some f => s.barnBytes (s.frameAt f (lo % 65536)) n
          | none => [])
      else s.dataAt r off n
    | _ => s.cipherOut r p lo (s.dataAt r off n)
  if cxl then
    (linesOf lo n).foldl (fun s l =>
      let a := max lo (64 * l)
      let z := min (lo + n) (64 * l + 64)
      let pad := List.replicate (a - 64 * l) (0 : Byte) ++ (bs.drop (a - lo)).take (z - a)
      let m := if masked then r.pkt.mask else (2 ^ (z - 64 * l) - 2 ^ (a - 64 * l))
      s.emit (.cxlMem port (tag * 128 + (l - lo / 64)) (((s.cxlFind (64 * l)).map (·.2)).getD 0)
        (some (pad ++ List.replicate (64 - pad.length) 0, m, p.poison)))) s
  else if masked then
    s.sendFrom r port (physReq tag 2 64 lo r.pkt.fjid (s.localEid r.die) s.stamp p.poison
      (leBytes 8 r.pkt.mask ++ bs))
  else s.sendFrom r port (physReq tag 1 n lo r.pkt.fjid (s.localEid r.die) s.stamp p.poison bs)

/-- Ask a target for the window of a part. -/
def State.sendRead (r : Req) (p : Part) (tag port : Nat) (cxl : Bool) (s : State) : State :=
  let (lo, n) := p.window (s.wholeLines r p)
  if cxl then
    (linesOf lo n).foldl (fun s l =>
      s.emit (.cxlMem port (tag * 128 + (l - lo / 64)) (((s.cxlFind (64 * l)).map (·.2)).getD 0) none)) s
  else s.sendFrom r port (physReq tag 0 n lo r.pkt.fjid (s.localEid r.die) s.stamp false [])

/-- The CXL request tags of a part's window. -/
def cxlTags (tag lo n : Nat) : List Nat := (linesOf lo n).map fun l => tag * 128 + (l - lo / 64)

/-- Record the outstanding CXL requests of a part. -/
def State.cxlAdd (port tag lo n : Nat) (s : State) : State :=
  s.modPort port fun q => { q with cxlOut := q.cxlOut ++ cxlTags tag lo n }

/-- Outstanding CXL.mem requests per port (R76). -/
def State.cxlLimit (s : State) (p : Nat) : Nat :=
  match lanesOf (s.widthCode p) with
  | 16 => 1024 | 8 => 512 | _ => 256

/-- The port of a part that goes to a target. -/
def Target.port : Target → Option (Nat × Bool)
  | .tier => none
  | .thru p c => some (p, c)
  | .avber p => some (p, false)
  | .cxl p => some (p, true)

/-- A part's target takes a request now: the port is ACTIVE (R124), the CXL limit is kept (R76). -/
def State.partReady (s : State) (p : Part) : Bool :=
  match p.tgt.port with
  | none => true
  | some (q, true) => decide ((s.port q).cxlOut.length + (linesOf (p.window true).1 (p.window true).2).length ≤ s.cxlLimit q)
  | some (q, false) => s.portActive q

/-! ### The tier cache (R193) -/

/-- A run of a part within one sector: whether a WRITE covers the sector whole. -/
def wholeSector (r : Req) (g : Seg) : Bool := r.pkt.op == 1 && g.ppa % 4096 == 0 && g.len == 4096

/-- The runs of a part, cut at sectors. -/
def Part.sectors (p : Part) : List Seg := (p.segs.map (cutSegs 4096 20)).flatten

/-- The sector of a run serves it now (Table 8-2). -/
def State.sectorReady (s : State) (r : Req) (g : Seg) : Bool :=
  match s.frameOf (g.ppa / 65536) with
  | none => false
  | some f =>
    let v := (s.frame f).sect.get (g.ppa / 4096 % 16)
    if r.pkt.op = 0 then v == .clean || v == .dirty || v == .writing
    else v == .clean || v == .dirty || (v == .invalid && wholeSector r g && !(s.frame f).gran)

/-- Start what a run misses: a frame, a fill (R193, R196, R199). -/
def State.wantSector (r : Req) (g : Seg) (s : State) : State :=
  let u := g.ppa / 65536
  let sec := g.ppa / 4096 % 16
  let fill (f : Nat) (s : State) : State :=
    if (s.frame f).sect.get sec != .invalid || (wholeSector r g && !(s.frame f).gran) then s
    else s.fillFrame f sec
  match s.frameOf u with
  | some f => fill f s
  | none => match s.poolFind g.ppa with
    | none => s
    | some i => if !s.tierOn then s else match s.takeWay u i with
      | (.got f, s) => (fill f s).readAhead u i
      | (_, s) => s

/-- Or into a bit map the 64-byte chunks that `n` bytes at `off` touch. -/
def chunkBits (off n : Nat) : Nat := (linesOf off n).foldl (fun m i => m ||| 2 ^ i) 0

/-- A line of a frame as plain bytes. -/
def State.plainLine (s : State) (r : Req) (g : Seg) (a : Nat) : List Byte :=
  let bs := s.barnBytes a 64
  if s.crypt r then xtsLine false (s.segKey g) (g.ppa / 64) bs else bs

/-- Read a run (within one sector) from its frame: data and poison map. -/
def State.readRun (s : State) (r : Req) (g : Seg) : List Byte × Nat :=
  match s.frameOf (g.ppa / 65536) with
  | none => ([], 0)
  | some f => (cutSegs 64 65 g).foldl (fun d h =>
      let a := s.frameAt f (h.ppa / 64 * 64 % 65536)
      (d.1 ++ ((s.plainLine r h a).drop (h.ppa % 64)).take h.len,
        if h.bad || s.poisoned (a / 64) then d.2 ||| chunkBits h.off h.len else d.2)) ([], 0)

/-- Write the new bytes of a line of a frame; `mark` is the write's poison (R137). -/
def State.writeLine (r : Req) (h : Seg) (a : Nat) (new : Nat → Option Byte) (mark : Bool) (s : State) : State :=
  let old := s.plainLine r h a
  let bs := (List.range 64).map fun i =>
    if h.ppa % 64 ≤ i ∧ i < h.ppa % 64 + h.len then (new (h.off + i - h.ppa % 64)).getD (old.getD i 0) else old.getD i 0
  let whole := !h.partialLine && (List.range 64).all fun i => (new (h.off + i)).isSome
  let out := if s.crypt r then xtsLine true (s.segKey h) (h.ppa / 64) bs else bs
  (s.setBarn a out).setPoison (a / 64) (if whole then mark else (s.poisoned (a / 64) || mark))

/-- Note the use of a sector: LAST_USE, and DIRTY after a write that is not written through. -/
def State.useSector (g : Seg) (dirty : Bool) (s : State) : State :=
  match s.frameOf (g.ppa / 65536) with
  | none => s
  | some f =>
    let s := s.setFrame f { s.frame f with lastUse := s.ns }
    if dirty then s.setSector f (g.ppa / 4096 % 16) .dirty else s

/-- Write a run (within one sector) into its frame. -/
def State.writeRun (r : Req) (g : Seg) (new : Nat → Option Byte) (mark : Bool) (s : State) : State :=
  match s.frameOf (g.ppa / 65536) with
  | none => s
  | some f => (cutSegs 64 65 g).foldl (fun s h =>
      s.writeLine r h (s.frameAt f (h.ppa / 64 * 64 % 65536)) new mark) s

/-- The new bytes of an atomic on old value `old`. -/
def atomicBytes (p : Packet) (old : Nat) (i : Nat) : Option Byte :=
  (leBytes p.size (atomicNew p.atop p.size old p.atomA p.atomB))[i]?

/-- Perform a part in the frames that hold it (R126, R193): its answer. -/
def State.performTier (r : Req) (p : Part) (s : State) : Part × State :=
  let thru := p.tgt != .tier
  if r.pkt.op = 0 then
    let d := p.sectors.foldl (fun (d : List Byte × Nat) g =>
      let e := s.readRun r g
      (d.1 ++ e.1, d.2 ||| e.2)) ([], 0)
    ({ p with data := d.1, pmap := d.2 }, p.sectors.foldl (fun s g => s.useSector g false) s)
  else if r.pkt.op = 3 then
    match p.segs.head? with
    | none => (p, s)
    | some g =>
      let d := s.readRun r g
      if d.2 ≠ 0 then ({ p with status := 11 }, s)
      else
        let s := s.writeRun r g (fun i => atomicBytes r.pkt (leNat d.1) (i - g.off)) false
        ({ p with data := d.1 }, s.useSector g (!thru))
  else
    (p, p.sectors.foldl (fun s g => (s.writeRun r g r.pkt.wbyte p.poison).useSector g (!thru)) s)

/-! ### Issue of a part (R130, R131) -/

/-- Replace part `k` of a request. -/
def State.setPart (id k : Nat) (p : Part) (s : State) : State :=
  s.modReq id fun r => { r with parts := r.parts.set k p }

/-- The last part has left, or the barn has accepted it: the MREQ's cells are freed (R516). -/
def State.dropCells (id : Nat) (s : State) : State :=
  match s.req id with
  | none => s
  | some r => match r.cells with
    | none => s
    | some c => if r.waiting then s
        else ((s.modReq id fun r => { r with cells := none }).copyGone c).unstall

/-- The drain generation of a request that passed check 8 (R171). -/
def State.genOf (s : State) (r : Req) : Option Bool :=
  match r.kind with
  | .mreq => some s.ext.g
  | .home _ => some s.ext.g
  | _ => none

/-- Issue part `k` with tag `n`. -/
def State.issuePart (id k n : Nat) (r : Req) (p : Part) (s : State) : State :=
  let tgt := match p.tgt with
    | .tier => 512
    | .thru _ _ => 512
    | .avber q => q
    | .cxl q => q
  let s := s.takeFree.setTag n (some { target := tgt, req := id, part := k, slot := r.slot, tier := r.kind.isTier
                                       gen := s.genOf r, at_ := s.ns })
  let p := { p with st := .issued, tag := n }
  let s := match p.tgt with
    | .avber q =>
      if r.pkt.op = 0 ∨ p.rmw then s.sendRead r p n q false else s.sendWrite r p n q false
    | .cxl q =>
      let (lo, len) := p.window true
      let s := s.cxlAdd q n lo len
      if r.pkt.op = 0 ∨ p.rmw then s.sendRead r p n q true else s.sendWrite r p n q true
    | _ =>
      let hit := p.sectors.all (s.sectorReady r)
      let s := if hit then s.bump Adr.TIER_HITS 1
        else (s.bump Adr.TIER_MISSES 1).gcount 0x0B 1 r.die none none none
      p.sectors.foldl (fun s g => s.wantSector r g) s
  (s.setPart id k p).dropCells id

/-! ### The end of a part -/

/-- A part ends with a status; its tag is freed. -/
def State.endPart (id k : Nat) (f : Part → Part) (s : State) : State :=
  match s.req id with
  | none => s
  | some r => match r.parts[k]? with
    | none => s
    | some p =>
      let s := if p.st = .issued then s.setTag p.tag none else s
      (s.setPart id k { f p with st := .done }).dropCells id

/-- The rank of a status among failed parts (R124). -/
def worseRank : Nat → Nat
  | 10 => 0 | 7 => 1 | 1 => 2 | 2 => 3 | 6 => 4 | 12 => 5 | 9 => 6 | 11 => 7 | 0 => 9 | _ => 8

/-- The worse of two statuses (R124). -/
def worse (a b : Nat) : Nat := if worseRank a ≤ worseRank b then a else b

/-- The merged status, data and poison map of a request whose parts are done. -/
def Req.merged (r : Req) : Nat × List Byte × Nat :=
  let st := (r.parts.map (·.status)).foldl worse 0
  if st = 0 then (0, (r.parts.map (·.data)).flatten, (r.parts.map (·.pmap)).foldl (· ||| ·) 0) else (st, [], 0)

/-- Poisoned lines of a window, from a map of its chunks. -/
def poisonedLines (lo map : Nat) : List Nat :=
  ((List.range 64).filter map.testBit).flatMap fun i => linesOf (lo + 64 * i) 64

/-- What the data of a part's window give to the request: its bytes and its poison map. -/
def State.takeWindow (s : State) (r : Req) (p : Part) (bs : List Byte) (bad : List Nat) : Part :=
  let (lo, _) := p.window (s.wholeLines r p)
  let plain := s.cipherIn r p lo bs
  let segs := (p.segs.map (cutSegs 64 65)).flatten
  { p with
    data := (p.segs.map fun g => (plain.drop (g.ppa - lo)).take g.len).flatten
    pmap := segs.foldl (fun m h => if h.bad || bad.contains (h.ppa / 64) then m ||| chunkBits h.off h.len else m) p.pmap }

/-- The write of a locked read and write (R126): the line with the new bytes, encrypted again. -/
def State.lockedWrite (id k : Nat) (r : Req) (p : Part) (g : Seg) (port : Nat) (cxl : Bool) (bs : List Byte)
    (mark : Bool) (s : State) : State :=
  let lo := g.ppa / 64 * 64
  let plain := s.cipherIn r p lo bs
  let old := leNat ((plain.drop (g.ppa - lo)).take g.len)
  let new (i : Nat) : Option Byte :=
    if r.pkt.op = 3 then atomicBytes r.pkt old i else r.pkt.wbyte (g.off + i)
  let line := (List.range 64).map fun i =>
    if g.ppa - lo ≤ i ∧ i < g.ppa - lo + g.len then (new (i - (g.ppa - lo))).getD (plain.getD i 0) else plain.getD i 0
  let out := s.cipherOut r p lo line
  let p := { p with second := true, lines := [], data := if r.pkt.op = 3 then leBytes g.len old else [], poison := mark }
  let s := (s.setTag p.tag ((s.tag p.tag).map fun t => { t with at_ := s.ns })).setPart id k p
  if cxl then
    (s.cxlAdd port p.tag lo 64).emit (.cxlMem port (p.tag * 128) (((s.cxlFind lo).map (·.2)).getD 0)
      (some (out, 2 ^ 64 - 1, mark)))
  else s.sendFrom r port (physReq p.tag 1 64 lo r.pkt.fjid (s.localEid r.die) s.stamp mark out)

/-- The answer of a target to part `k`: its status, the data of the window, its poisoned lines. -/
def State.partAnswer (id k status : Nat) (bs : List Byte) (bad : List Nat) (s : State) : State :=
  match s.req id with
  | none => s
  | some r => match r.parts[k]? with
    | none => s
    | some p =>
      if status ≠ 0 then s.endPart id k fun p => { p with status := status, data := [] }
      else if r.pkt.op = 0 then
        s.endPart id k fun p => s.takeWindow r p bs bad
      else if p.rmw && !p.second then
        match p.segs.head?, p.tgt.port with
        | some g, some (port, cxl) =>
          let poisoned := bad.contains (g.ppa / 64)
          if r.pkt.op = 3 ∧ poisoned then s.endPart id k fun p => { p with status := 11 }
          else s.lockedWrite id k r p g port cxl bs (p.poison || poisoned)
        | _, _ => s
      else s.endPart id k fun p => p

/-- A frame whose record cannot be read is freed, and poison is written to every line of its unit at the target
(RECORD_UNCORR, Table 8-13). -/
def State.recordLost (f : Nat) (s : State) : State :=
  let s := s.raise Err.tier_RECORD_UNCORR 0 [] none
  let s := s.setPoison ((s.rg64 Adr.TIER_FTAB_BASE_LO + 64 * f) / 64) false
  let s := (List.range 1024).foldl (fun s i => s.setPoison (s.frameAt f (64 * i) / 64) true) s
  (s.setFrame f { s.frame f with pin := false, sect := (List.range 16).map fun i => (i, Sector.dirty) }).evictFrame f

/-- The record of the frame that holds a run is read; one with operations in progress is judged when they end. -/
def State.readRecord (g : Seg) (s : State) : State :=
  match s.frameOf (g.ppa / 65536) with
  | some f =>
    if s.poisoned ((s.rg64 Adr.TIER_FTAB_BASE_LO + 64 * f) / 64)
        && !((s.frame f).sect.any fun e => e.2 == .filling || e.2 == .writing) then s.recordLost f
    else s
  | none => s

/-- The barn controller completes part `k`, or starts what it waits for (R127, R193). A part that is
written through goes on to its target. -/
def State.tierTry (id k : Nat) (s : State) : State :=
  match s.req id with
  | none => s
  | some r => match r.parts[k]? with
    | none => s
    | some p =>
      if p.st != .issued then s
      else
      let s := p.sectors.foldl (fun s g => s.readRecord g) s
      if !(p.sectors.all (s.sectorReady r)) then p.sectors.foldl (fun s g => s.wantSector r g) s
      else
        let (q, s) := s.performTier r p
        let lines := (p.sectors.map fun g => g.lines.length).sum
        let s := s.gcount (if r.pkt.op = 0 then 0x09 else 0x0A) lines r.die none none none
        match p.tgt with
        | .thru port cxl =>
          if q.status ≠ 0 then s.endPart id k fun _ => q
          else
            let q := { q with second := true, rmw := false }
            let s := (s.setTag p.tag ((s.tag p.tag).map fun t => { t with target := port, at_ := s.ns })).setPart id k q
            let (lo, n) := q.window (s.crypt r)
            let s := if cxl then s.cxlAdd port p.tag lo n else s
            s.sendWrite r q p.tag port cxl
        | _ => s.endPart id k fun _ => q

/-! ### Responses to the requester (R116, R117) -/

/-- Count what a completed request moved (R474). -/
def State.countServed (r : Req) (n : Nat) (s : State) : State :=
  match r.slot with
  | none => s
  | some j => match r.pkt.op with
    | 0 => s.bump (Adr.JOB_READ_BYTES j) n
    | 3 => s.bump (Adr.JOB_ATOMICS j) 1
    | _ => s.bump (Adr.JOB_WRITE_BYTES j) ((List.range r.pkt.size).filter fun i => (r.pkt.wbyte i).isSome).length

/-- Answer an MREQ with its merged parts. -/
def State.answer (r : Req) (s : State) : State :=
  let (st, data, pm) := r.merged
  let s := if st = 0 then s.countServed r data.length else s
  let s := if pm = 0 then s
    else (s.bump (Adr.TTU_POISON_SEEN r.die) 1).raise Err.ttu_POISON_SEEN r.die [] (some r.pkt.fjid)
  s.sendOwn r.die (mkMrsp r.pkt st pm s.stamp data)

/-- Complete a request before it is issued whole: its parts end, what it holds is freed. -/
def State.failReq (id status : Nat) (s : State) : State :=
  match s.req id with
  | none => s
  | some r =>
    let s := (List.range r.parts.length).foldl (fun s k => s.endPart id k fun p =>
      if p.st = .done then p else { p with status := status, data := [] }) s
    let s := s.modReq id fun r =>
      { r with formed := true, parts := if r.parts.isEmpty then [{ st := .done, status := status }] else r.parts }
    s.dropCells id

end Sys2Proof.Machine
end

