-- ==== Sys2Proof/Machine/Check.lean ====
section
/-! DEFINITION. The checks of the receiving side (R121): job slot, membership, queue, manifest,
permissions, extents and leases, pool decode; violations (R136) and watchpoints (R475). -/

set_option Elab.async false

namespace Sys2Proof.Machine
open Sys2Proof

/-! ### Cached tables (R125) -/

/-- A free choice between a cached copy and memory; the counter moves when it is taken. -/
def State.useCached (s : State) : Bool := s.freeVal % 2 == 1

/-- Barn address of manifest entry `i` of a slot (R119). -/
def State.manAt (s : State) (j i : Nat) : Nat := s.rg64 (Adr.JOB_MAN_BASE_LO j) + 16 * i

/-- A manifest entry as the unit sees it: the cached copy or memory (R125). -/
def State.manEntry (j i : Nat) (s : State) : Nat × State :=
  let k := j * 2 ^ 25 + i
  let e := s.barnNum (s.manAt j i) 16
  let keep (v : Nat) (s : State) : State := s.modTtu fun t =>
    { t with mans := t.mans.set k (if nbits v 127 127 = 1 then some v else none) }
  match s.ttu.mans.get k with
  | some c =>
    if c = e then (e, s)
    else if s.useCached then (c, s.takeFree)
    else (e, keep e s.takeFree)
  | none => (e, keep e s)

/-- The membership bit of an EID as the unit sees it (R120, R125). -/
def State.member (j eid : Nat) (s : State) : Bool × State :=
  let k := j * 65536 + eid
  let b := (s.barn (s.rg64 (Adr.JOB_MEMBER_BASE_LO j) + eid / 8)).getLsbD (eid % 8)
  if b then (true, s.modTtu fun t => { t with members := t.members.set k true })
  else if s.ttu.members.get k then
    (s.useCached, if s.useCached then s.takeFree
      else s.takeFree.modTtu fun t => { t with members := t.members.set k false })
  else (false, s)

/-! ### Manifest entries (Table 5-7) -/

def State.pageShift (s : State) (j : Nat) : Nat := s.rf (Adr.JOB_MAN_CFG j) 4 0
def State.manFva (s : State) (j : Nat) : Nat := s.rg64 (Adr.JOB_MAN_FVA_LO j) % 2 ^ 57
def State.manLen (s : State) (j : Nat) : Nat := s.rf (Adr.JOB_MAN_LEN j) 24 0

def manPpa (e : Nat) : Nat := nbits e 51 12 * 4096
def manExt (e : Nat) : Nat := nbits e 107 90

/-- A malformed entry (Table 5-7, R144). -/
def manBad (shift e : Nat) : Bool :=
  (nbits e 124 124 == 1 && nbits e 126 125 != 3) || nbits e 89 52 != 0 || nbits e 11 0 != 0
    || (nbits e 122 122 == 0 && nbits e 121 108 != 0) || (nbits e 123 123 == 1 && nbits e 122 122 == 1) || manPpa e % 2 ^ shift != 0

/-- The runs of a request by manifest entry: index, offset in the request, length, offset in the page. -/
def pagesOf (shift base : Nat) : Nat → Nat → Nat → Nat → List (Nat × Nat × Nat × Nat)
  | 0, _, _, _ => []
  | fuel + 1, off, fva, len =>
    let rel := fva - base
    let inPage := rel % 2 ^ shift
    let k := 2 ^ shift - inPage
    if len ≤ k then [(rel / 2 ^ shift, off, len, inPage)]
    else (rel / 2 ^ shift, off, k, inPage) :: pagesOf shift base fuel (off + k) (fva + k) (len - k)

/-- R, W and A as an operation needs them. -/
def permitted (e op : Nat) : Bool :=
  match op with
  | 0 => nbits e 126 126 == 1
  | 1 | 2 => nbits e 125 125 == 1
  | _ => nbits e 124 124 == 1

/-! ### Violations (R136) -/

/-- Record a violation in a slot: the first is captured, each is counted and signalled. -/
def State.noteViol (j status src op fva fjid : Nat) (s : State) : State :=
  let c := Adr.JOB_VIOL_CAPTURE j
  let s := if bit (s.rg (c 0)) 0 then s
    else (((s.setRg (c 0) (w32 (src * 2 ^ 16 + status * 2 ^ 12 + op * 2 ^ 8 + 1))).setRg (c 1) (lo32 fva)).setRg
      (c 2) (hi32 fva)).setRg (c 3) (w32 fjid)
  (s.bump (Adr.JOB_VIOLATIONS j) 1).raiseInt .job j 0

def State.noteViolation (j status : Nat) (p : Packet) (s : State) : State :=
  s.noteViol j status p.src p.op p.fva p.fjid

/-- A remote access violation: the slot's, and that of the owner of the extent if another (R136). -/
def State.violation (die j status : Nat) (p : Packet) (ext : Option Nat) (s : State) : State :=
  let s := s.noteViolation j status p
  let s := match ext with
    | none => s
    | some e =>
      let x := s.extent e
      if x.st = ExtSt.free ∨ x.owner = p.fjid then s
      else match s.slotOf x.owner with
        | some k => s.noteViolation k status p
        | none => s
  s.raise Err.ttu_VIOLATION die [] (some p.fjid)

/-! ### The checks -/

/-- A list without repeats. -/
def nub : List Nat → List Nat
  | [] => []
  | x :: xs => x :: (nub xs).filter (· != x)

/-- What the checks gave. -/
structure Passed where
  slot : Nat := 0
  coh : Bool := false
  segs : List Seg := []
  exts : List Nat := []
  blocks : List (Nat × Nat) := []
  deriving DecidableEq, Repr, Inhabited

/-- The status that ends a request, or what passed. -/
inductive Chk where
  | fail (status : Nat)
  | pass (c : Passed)
  deriving DecidableEq, Repr

/-- Checks 1 to 4: form (`bad`), job, state, membership; the slot is that of the FJID. -/
def State.checkHead (die : Nat) (bad : Bool) (p : Packet) (s : State) : Except Nat Nat × State :=
  if bad then (.error 10, s)
  else match s.slotOf p.fjid with
    | none => (.error 3, s)
    | some j =>
      let s := (s.bump (Adr.JOB_REQUESTS j) 1).gcount 0x07 1 die none none (some p.fjid)
      if s.job j ≠ .active then (.error 5, s)
      else match s.member j p.src with
        | (true, s) => (.ok j, s)
        | (false, s) => (.error 4, s.violation die j 4 p none)

/-- Check 5: the job's queue (R131). -/
def State.queueFits (s : State) (j : Nat) (p : Packet) : Bool :=
  decide (s.queueUsed j + cellsOf p.len ≤ s.rf (Adr.JOB_QUEUE_LIMIT j) 19 0)

/-- Check 6 for one entry: present and well-formed. -/
def State.checkEntry (die j i : Nat) (p : Packet) (s : State) : Option Nat × State :=
  if s.manLen j ≤ i then (none, s.violation die j 1 p none)
  else
    let (e, s) := s.manEntry j i
    if nbits e 127 127 = 0 then (none, s.violation die j 1 p none)
    else if manBad (s.pageShift j) e then
      (none, (s.raise Err.ttu_MANIFEST_BAD die [j, i] (some p.fjid)).violation die j 1 p none)
    else (some e, s)

/-- Check 6 for every entry. -/
def State.checkEntries (die j : Nat) (p : Packet) :
    List (Nat × Nat × Nat × Nat) → State → Option (List (Nat × Nat × Nat × Nat × Nat)) × State
  | [], s => (some [], s)
  | (i, off, len, inp) :: rest, s => match s.checkEntry die j i p with
    | (none, s) => (none, s)
    | (some e, s) => match s.checkEntries die j p rest with
      | (none, s) => (none, s)
      | (some es, s) => (some ((e, i, off, len, inp) :: es), s)

/-- Check 8 for one entry: extent and lease, then snapshot resolution (R165, R178). -/
def State.checkExtent (die j op : Nat) (p : Packet) (w : Nat × Nat × Nat × Nat × Nat) (s : State) :
    Except Nat (List Seg × List (Nat × Nat)) × State :=
  let (e, i, off, len, inp) := w
  let lo := manPpa e >>> 28
  let hi := (manPpa e + 2 ^ s.pageShift j - 1) >>> 28
  let fail (st : Nat) (bad : Bool) (s : State) : State :=
    let s := if bad then s.raise Err.ttu_MANIFEST_BAD die [j, i] (some p.fjid) else s
    if st = 1 ∨ st = 2 then s.violation die j st p (some (manExt e)) else s
  match s.extentCheck (manExt e) p.fjid op lo hi with
  | some (st, bad) => (.error st, fail st bad s)
  | none =>
    let g : Seg := { off := off, len := len, ppa := manPpa e + inp, ext := manExt e }
    if s.isSealed && (s.extKey (manExt e)).isNone then (.error 2, fail 2 false s)
    else if nbits e 122 122 = 0 then (.ok ([g], []), s)
    else match s.snapResolve (nbits e 121 108) (manExt e) op g with
      | .error (st, bad) => (.error st, fail st bad s)
      | .ok r => (.ok r, if r.1.any (·.bad) then s.raise Err.ext_SNAP_MAP_UNCORR 0 [] none else s)

def State.checkExtents (die j op : Nat) (p : Packet) :
    List (Nat × Nat × Nat × Nat × Nat) → State → Except Nat (List Seg × List (Nat × Nat)) × State
  | [], s => (.ok ([], []), s)
  | w :: ws, s => match s.checkExtent die j op p w with
    | (.error st, s) => (.error st, s)
    | (.ok a, s) => match s.checkExtents die j op p ws with
      | (.error st, s) => (.error st, s)
      | (.ok b, s) => (.ok (a.1 ++ b.1, a.2 ++ b.2), s)

/-- Check 9: a PPA of the runs that does not decode. -/
def State.undecoded (s : State) (die : Nat) (segs : List Seg) : Option Nat :=
  ((segs.map (cutSegs 256 20)).flatten.map (·.ppa)).find? fun a => s.decode die a == .none_

/-- Checks 6 to 9 of a request for `size` bytes that counts as operation `op`; `ok` is the permission it
needs of an entry. -/
def State.checkBody (die j op size : Nat) (ok : Nat → Bool) (p : Packet) (s : State) : Chk × State :=
  if p.fva < s.manFva j then (.fail 1, s.violation die j 1 p none)
  else match s.checkEntries die j p (pagesOf (s.pageShift j) (s.manFva j) 3 0 p.fva size) with
    | (none, s) => (.fail 1, s)
    | (some es, s) =>
      if es.any fun w => !ok w.1 then
        (.fail 2, s.violation die j 2 p ((es.find? fun w => !ok w.1).map fun w => manExt w.1))
      else match s.checkExtents die j op p es with
        | (.error st, s) => (.fail st, s)
        | (.ok (segs, blocks), s) => match s.undecoded die segs with
          | some a => (.fail 1, (s.raise Err.ttu_PPA_UNDECODED die [a % 2 ^ 32, a >>> 32] (some p.fjid)).violation
              die j 1 p (segs.head?.map (·.ext)))
          | none => (.pass { slot := j, coh := es.any fun w => nbits w.1 123 123 == 1, segs := segs
                             exts := nub (es.map fun w => manExt w.1), blocks := blocks }, s)

/-! ### Watchpoints (R475) -/

/-- Watchpoint `w` matches a request: its OP as 0 to 3, its bytes as FVA and as PPA runs. -/
def State.wpMatch (s : State) (w op fjid fva size : Nat) (segs : List Seg) : Bool :=
  let c := s.rg (Adr.OBS_WP_CTRL w)
  let base := s.rg64 (Adr.OBS_WP_BASE_LO w) % 2 ^ 57
  let lim := s.rg64 (Adr.OBS_WP_LIMIT_LO w) % 2 ^ 57
  bit c 31 && bit c (26 + op) && (!bit c 25 || bits c 19 0 == fjid)
    && (if bit c 30 then segs.any fun g => decide (g.ppa ≤ lim) && decide (base < g.ppa + g.len)
        else decide (fva ≤ lim) && decide (base < fva + size))

/-- The actions of the watchpoints that match: whether the request is refused. -/
def State.watch (port : Nat) (p : Packet) (op size : Nat) (segs : List Seg) (s : State) : Bool × State :=
  match (List.range 64).filter fun w => s.wpMatch w op p.fjid p.fva size segs with
  | [] => (false, s)
  | w0 :: ws =>
    let ms := w0 :: ws
    let on (k : Nat) : Bool := ms.any fun w => bit (s.rg (Adr.OBS_WP_CTRL w)) k
    let (fail, trace, int, freeze) := (on 22, on 24, on 23, on 21)
    let s := ms.foldl (fun s w => (s.bump (Adr.OBS_WP_COUNT_LO w) 1).bump Adr.OBS_WATCH_HITS 1) s
    let ppa := bit (s.rg (Adr.OBS_WP_CTRL w0)) 30
    let s := if !trace then s else s.trace
      { kind := 1, cls := p.cls, port := port, wp := w0, op := p.op, status := if fail then 2 else 0
        fjid := p.fjid, src := p.src, dst := p.dst, len := p.len
        addr := if ppa then (segs.head?.map (·.ppa)).getD 0 else p.fva, data := s.traceData p }
    let s := if !int then s else
      (if bit (s.rg Adr.OBS_WATCH_CAPTURE) 31 then s
        else s.setRg Adr.OBS_WATCH_CAPTURE (w32 (2 ^ 31 + w0))).raiseInt .obs 0 0
    (fail, if freeze then s.modObs fun o => { o with frozen := true } else s)

/-- The trace port of an ingress: own units have 0x1FF. -/
def tracePort : Ingress → Nat
  | .port p => p
  | .own _ => 0x1FF

/-! ### Entering the receiving side -/

/-- Take a checked request in: it waits to be issued (R131). -/
def State.enter (die : Nat) (kind : ReqKind) (p : Packet) (from_ : Ingress) (cells : Option Nat) (c : Passed)
    (s : State) : State :=
  let id := s.nextId
  (s.takeNames 1).setReq id (some
    { die := die, kind := kind, pkt := p, from_ := from_, slot := some c.slot, cells := cells, segs := c.segs
      exts := c.exts, blocks := c.blocks })

end Sys2Proof.Machine
end

