-- ==== Sys2Proof/Machine/Home.lean ====
section
/-! DEFINITION. The coherent home (chapter 6): agents, the directory, trackers and their transactions
(Table 6-7), domains and how they go down. -/

set_option Elab.async false

namespace Sys2Proof.Machine
open Sys2Proof

/-! ### Domains and agents (R142, R143) -/

def State.dom (s : State) (k : Nat) : DomSt := s.home.doms.get k
def State.setDom (k : Nat) (d : DomSt) (s : State) : State := s.modHome fun h => { h with doms := h.doms.set k d }

def domStNo : DomSt → Nat
  | .off => 0 | .init => 1 | .active => 2 | .flushing => 3 | .downWalk => 4 | .down => 5

/-- The domain, not OFF, of an FJID. -/
def State.domOf (s : State) (fjid : Nat) : Option Nat :=
  leastBelow 16 fun k => s.dom k != .off && s.rf (Adr.DOM_FJID k) 19 0 == fjid

def State.domDie (s : State) (k : Nat) : Nat := s.rf (Adr.DOM_DIR_CFG k) 8 8
def State.domK (s : State) (k : Nat) : Nat := s.rf (Adr.DOM_DIR_CFG k) 4 0

/-- An agent table entry (Table 6-1). -/
def agentAt (k a : Nat) : Nat := 0x01240000 + 0x4000 * k + 8 * a
def State.agent (s : State) (k a : Nat) : Nat := s.entry (agentAt k a) 2
def State.agentLive (s : State) (k a : Nat) : Bool := nbits (s.agent k a) 63 62 == 2
def State.agentEid (s : State) (k a : Nat) : Nat := s.agent k a % 65536

/-- The home accepts messages of this agent from this EID (R143). -/
def State.agentOk (s : State) (k : Nat) (p : Packet) : Bool :=
  s.agentLive k (p.spec % 2048) && s.agentEid k (p.spec % 2048) == p.src

/-! ### Messages (Tables 6-2 and 6-3) -/

/-- TXN and AGENT of CLASS_SPEC (R145). -/
def cohTxn (p : Packet) : Nat := nbits p.spec 31 16
def cohAgent (p : Packet) : Nat := p.spec % 2048

/-- A coherence message from the home of a die to an EID. -/
def State.cohMsg (die cls txn agent dst fjid line : Nat) (fields : Nat) (poison : Bool) (data : List Byte)
    (s : State) : State :=
  s.sendOwn die (mkPkt cls (txn * 2 ^ 16 + agent) (s.localEid die) dst s.stamp poison
    (leBytes 16 (fields + fjid * 2 ^ 51 + line * 2 ^ 77) ++ data))

/-- Size of the data of a far atomic (ASIZE). -/
def asize (p : Packet) : Nat := if p.xf 40 40 = 1 then 8 else 4

/-- CRSP to the sender of a CREQ (Table 6-3). -/
def State.crsp (die rsp status : Nat) (data : List Byte) (p : Packet) (s : State) : State :=
  s.sendOwn die (mkPkt 2 p.spec (s.localEid die) p.src s.stamp false
    (leBytes 16 (status * 2 ^ 44 + rsp * 2 ^ 48 + p.fjid * 2 ^ 51 + p.fva * 2 ^ 71) ++ data))

/-- A malformed CREQ (R146, Table 6-3). -/
def creqBad (p : Packet) : Bool :=
  let op := p.op
  let n := asize p
  let len := match op with
    | 3 => 96
    | 5 => if p.atop = 1 then 32 + 2 * n else 32 + n
    | _ => 32
  decide (5 < op) || p.len != len || p.xf 39 0 != 0 || nbits p.spec 15 11 != 0
    || (if op = 5 then decide (10 < p.atop) || (p.atop == 10 && n != 4) || p.xf 42 41 == 3 || p.fva % n != 0
        else p.atop != 0 || p.xf 42 40 != 0 || p.fva % 64 != 0)

/-- The permission a CREQ needs of an entry (Table 6-2), and the operation it counts as. -/
def creqPerm (op e : Nat) : Bool :=
  match op with
  | 0 | 4 => nbits e 126 126 == 1
  | 1 | 2 => nbits e 126 125 == 3
  | 3 => nbits e 125 125 == 1
  | _ => nbits e 124 124 == 1
def creqOp (op : Nat) : Nat := if op = 0 ∨ op = 4 then 0 else if op = 5 then 3 else 1

/-! ### The directory (R148 to R151) -/

def dirSize (K : Nat) : Nat := 16 * 2 ^ K

def State.dirSet (s : State) (k line : Nat) : Nat :=
  let K := s.domK k
  (line % 2 ^ K) ^^^ nbits line (2 * K - 1) K

def dirKey (k set way : Nat) : Nat := 2 ^ 27 * k + 16 * set + way

def dstNo : DState → Nat
  | .i => 0 | .s => 1 | .x => 2 | .o => 3

/-- The entry as 512 bits (Table 6-6). -/
def DirEntry.word (d : DirEntry) (k : Nat) : Nat :=
  (if d.coarse then d.groups
    else d.ptrs.foldl (fun n e => n + (e.2.elim 0 fun a => (2 ^ 15 + a) * 2 ^ (16 * e.1))) 0)
    + d.last * 2 ^ 426 + d.line * 2 ^ 437 + d.owner * 2 ^ 488 + d.pred * 2 ^ 499 + k * 2 ^ 502
    + b2n d.coarse * 2 ^ 506 + dstNo d.st * 2 ^ 507 + b2n d.busy * 2 ^ 510 + 2 ^ 511

/-- Write a directory entry, with its copy in the barn. -/
def State.setDir (key : Nat) (d : Option DirEntry) (s : State) : State :=
  let k := key / 2 ^ 27
  let a := s.rg64 (Adr.DOM_DIR_BASE_LO k) + 64 * (key % 2 ^ 27)
  (s.modHome fun h => { h with dir := h.dir.set key d }).setBarnNum a 64
    (match d with
      | some d => d.word k
      | none => 0)

/-- The entry of a line: its place. -/
def State.dirFind (s : State) (k line : Nat) : Option (Nat × DirEntry) :=
  (List.range 16).findSome? fun w =>
    let key := dirKey k (s.dirSet k line) w
    match s.home.dir.get key with
    | some d => if d.line = line then some (key, d) else none
    | none => none

/-- Valid entries of a domain. -/
def State.dirEntries (s : State) (k : Nat) : List (Nat × DirEntry) :=
  s.home.dir.filterMap fun e => if e.1 / 2 ^ 27 = k then e.2.map fun d => (e.1, d) else none

/-- Sharers of an entry: coarse groups stand for their live agents. -/
def State.sharers (s : State) (k : Nat) (d : DirEntry) : List Nat :=
  if d.coarse then ((List.range 2048).filter fun a => d.groups.testBit (a / 8) && s.agentLive k a && a != d.owner)
  else d.ptrs.filterMap (·.2)

/-- Whether the entry names an agent as a sharer. -/
def DirEntry.isSharer (d : DirEntry) (a : Nat) : Bool :=
  if d.coarse then d.groups.testBit (a / 8) else d.ptrs.any fun e => e.2 == some a

/-- Add a sharer; a 17th makes the entry coarse (R149). -/
def DirEntry.addSharer (d : DirEntry) (a : Nat) : DirEntry :=
  if d.coarse then { d with groups := d.groups ||| 2 ^ (a / 8) }
  else if d.isSharer a then d
  else match leastBelow 16 fun i => (d.ptrs.get i).isNone with
    | some i => { d with ptrs := d.ptrs.set i (some a) }
    | none => { d with coarse := true, ptrs := []
                       groups := (d.ptrs.filterMap (·.2)).foldl (fun g b => g ||| 2 ^ (b / 8)) (2 ^ (a / 8)) }

/-- Remove a sharer; a coarse entry keeps its groups. -/
def DirEntry.dropSharer (d : DirEntry) (a : Nat) : DirEntry :=
  if d.coarse then d else { d with ptrs := d.ptrs.map fun _ v => if v = some a then none else v }

def DirEntry.noSharers (d : DirEntry) : DirEntry := { d with coarse := false, ptrs := [], groups := 0 }
def DirEntry.empty (d : DirEntry) : DirEntry := { d.noSharers with st := .i, owner := 0 }
def DirEntry.own (d : DirEntry) (a : Nat) : DirEntry := { d.noSharers with st := .x, owner := a }

/-- PRED and LAST at a unique or atomic request (R156). -/
def DirEntry.predict (d : DirEntry) (isNew : Bool) (a : Nat) : DirEntry :=
  if isNew then { d with last := a }
  else { d with pred := if a ≠ d.last then min 7 (d.pred + 2) else d.pred - 1, last := a }

/-- Hits and misses of the directory cache: which one, is open. -/
def State.dirLook (die : Nat) (s : State) : State :=
  s.takeFree.bump (if s.freeVal % 2 = 1 then Adr.HOME_DIR_HITS die else Adr.HOME_DIR_MISSES die) 1

/-! ### Trackers -/

def State.trk (s : State) (t : Nat) : Option Tracker := s.home.trks.get t
def State.setTrk (t : Nat) (x : Option Tracker) (s : State) : State :=
  s.modHome fun h => { h with trks := h.trks.set t x }
def State.trkList (s : State) : List (Nat × Tracker) := s.home.trks.filterMap fun e => e.2.map fun x => (e.1, x)
def State.trkUsed (s : State) (k : Nat) : Nat := (s.trkList.filter fun e => e.2.dom == k).length
def State.trkFree (s : State) (die : Nat) : Nat := 8192 - (s.trkList.filter fun e => e.2.die == die).length
def State.recallFree (s : State) (die : Nat) : Nat :=
  1024 - (s.trkList.filter fun e => e.2.die == die && e.2.recalls).length

def State.hgroup (s : State) (g : Nat) : Option HGroup := s.home.groups.get g
def State.setGroup (g : Nat) (x : Option HGroup) (s : State) : State :=
  s.modHome fun h => { h with groups := h.groups.set g x }

/-- Complete a group: its response, and its cells. -/
def State.endGroup (g : Nat) (x : HGroup) (s : State) : State :=
  let s := s.setGroup g none
  let s := match x.cells with
    | some c => (s.copyGone c).unstall
    | none => s
  if x.creq then
    (if x.status = 0 then s else s.crsp x.die 2 x.status [] x.pkt)
  else
    let ps := x.parts.mergeSort fun a b => decide (a.1 ≤ b.1)
    let data := (ps.map (·.2.1)).flatten
    let pm := (ps.map (·.2.2)).foldl (· ||| ·) 0
    s.answer { die := x.die, pkt := x.pkt, slot := some x.slot, formed := true
               parts := [{ st := .done, status := x.status, data := data, pmap := pm }] }

/-- One line of a group has finished. -/
def State.lineDone (g status : Nat) (off : Nat) (data : List Byte) (pm : Nat) (s : State) : State :=
  match s.hgroup g with
  | none => s
  | some x =>
    let x := { x with left := x.left - 1, status := worse x.status status, parts := x.parts ++ [(off, data, pm)] }
    if x.left = 0 then s.endGroup g x else s.setGroup g (some x)

/-- A memory access of a tracker at its line: a request of the receiving side (R124, R144). -/
def State.homeAccess (t : Nat) (die slot : Nat) (p : Packet) (segs : List Seg) (s : State) : State :=
  let id := s.nextId
  let s := (s.takeNames 1).setReq id (some
    { die := die, kind := .home t, pkt := p, from_ := .own die, slot := some slot, segs := segs })
  match s.trk t with
  | some x => s.setTrk t (some { x with mem := some id })
  | none => s

/-- A request packet of the home: a read or write of a whole line. -/
def homePkt (op fjid : Nat) (poison : Bool) (data : List Byte) : Packet :=
  mkPkt 8 0 0 0 0 poison (leBytes 16 (64 * 2 ^ 30 + op * 2 ^ 47 + fjid * 2 ^ 51) ++ data)

/-- The line of a run at its PPA. -/
def Seg.lineSeg (g : Seg) : Seg := { g with off := 0, len := 64, ppa := g.ppa / 64 * 64 }

/-- Where a line of a domain lies, through the manifest of its FJID (R144). -/
def State.homePpa (s : State) (k line : Nat) : Option Seg :=
  match s.slotOf (s.rf (Adr.DOM_FJID k) 19 0) with
  | none => none
  | some j =>
    if line * 64 < s.manFva j ∨ s.pageShift j = 0 then none
    else
      let rel := line * 64 - s.manFva j
      let e := (s.manEntry j (rel / 2 ^ s.pageShift j)).1
      if s.manLen j ≤ rel / 2 ^ s.pageShift j ∨ nbits e 127 127 = 0 ∨ manBad (s.pageShift j) e then none
      else some { off := 0, len := 64, ppa := manPpa e + rel % 2 ^ s.pageShift j, ext := manExt e }

/-- The requester of a tracker's group, its TXN. -/
def State.trkPkt (s : State) (x : Tracker) : Packet := ((x.group.bind s.hgroup).map (·.pkt)).getD default

/-- Send a snoop (Table 6-3). -/
def State.sendSnoop (t : Nat) (x : Tracker) (a : Nat) (k : Snp) (s : State) : State :=
  let q := s.trkPkt x
  let no := match k with
    | .shared => 0 | .unique => 1 | .inv => 2 | .cur => 3
  let fwd := match k with
    | .shared | .unique => q.src * 2 ^ 32 + cohTxn q * 2 ^ 16 + cohAgent q
    | _ => 0
  (s.cohMsg x.die 6 (t % 8192) a (s.agentEid x.dom a) (s.rf (Adr.DOM_FJID x.dom) 19 0)
    (if x.victim.isSome then x.ent.line else x.line) (no * 2 ^ 48 + fwd) false []).bump (Adr.DOM_SNOOPS x.dom) 1

/-- Free a tracker: its entry is written, its line is released. -/
def State.freeTrk (t : Nat) (x : Tracker) (s : State) : State :=
  let s := s.setTrk t none
  match s.dirFind x.dom x.line with
  | some (key, _) =>
    if x.keep && !(x.ent.st == .i && x.ent.pred == 0) then s.setDir key (some { x.ent with busy := false })
    else if x.keep then s.setDir key none else s
  | none => s

/-- The plan of a transaction (Table 6-7): what is left to do and the entry at its end. `a` is the
requester, `d` the entry before, `far` an atomic that runs at the home. A fault answers ERROR. -/
def planCreq (op a : Nat) (far : Bool) (d : DirEntry) (others : List Nat) : Option (List Stage × DirEntry) :=
  let b := d.owner
  let sh := others.filter (· != a)
  let holder := d.isSharer a || ((d.st == .x || d.st == .o) && b == a)
  let owned := d.st == .x || d.st == .o
  if op = 3 ∨ op = 4 then
    if op = 3 ∧ owned ∧ b = a then
      some ([.perform, .crsp 0], if d.st = .o then
        (let e := { d with owner := 0, st := DState.s }
         if e.coarse || !(e.ptrs.isEmpty) then e else e.empty) else d.empty)
    else if op = 4 ∧ owned ∧ b = a then
      if d.st = .o then none else some ([.crsp 0], d.empty)
    else if op = 4 ∧ d.isSharer a ∧ d.st ≠ .i then
      let e := d.dropSharer a
      some ([.crsp 0], if e.st = .s ∧ !e.coarse ∧ e.ptrs.isEmpty then e.empty else e)
    else some ([.crsp 0], d)
  else if far then
    let all := others ++ (if owned then [b] else [])
    some ((if all.isEmpty then [] else [.snoop all .inv, .flush]) ++ [.perform, .crsp 1], d.empty)
  else if op = 0 then
    match d.st with
    | .i => some ([.read, .grant 2 false, .ack], d.own a)
    | .s => some ([.read, .grant 1 false, .ack], d.addSharer a)
    | _ => if b = a then none
      else some ([.snoop [b] .shared, .flush, .grantIf 1, .ack], { d with st := .o }.addSharer a)
  else
    match d.st with
    | .i => some ([.read, .grant 2 false, .ack], d.own a)
    | .s => if op = 2 ∧ holder then
        some ((if sh.isEmpty then [] else [.snoop sh .inv]) ++ [.grant 3 true, .ack], d.own a)
      else some ((if sh.isEmpty then [] else [.snoop sh .inv]) ++ [.read, .grant 2 false, .ack], d.own a)
    | .x => if b = a then none else some ([.snoop [b] .unique, .grantIf 2, .ack], d.own a)
    | .o =>
      if op = 2 ∧ holder then
        let all := sh ++ (if b = a then [] else [b])
        some ((if all.isEmpty then [] else [.snoop all .inv]) ++ [.grant 3 true, .ack], d.own a)
      else if b = a then none
      else some ((if sh.isEmpty then [] else [.snoop sh .inv]) ++ [.snoop [b] .unique, .grantIf 2, .ack], d.own a)

/-- The plan of an MREQ's line (Table 6-7). -/
def planMreq (op : Nat) (d : DirEntry) (others : List Nat) : List Stage × DirEntry :=
  let owned := d.st == .x || d.st == .o
  if op = 0 then
    (if owned then [.snoop [d.owner] .cur, .flush, .answerRead] else [.read, .answerRead], d)
  else
    let all := others ++ (if owned then [d.owner] else [])
    ((if all.isEmpty then [] else [.snoop all .inv, .flush]) ++ [.perform], d.empty)

/-- The plan of a recall. -/
def planRecall (d : DirEntry) (others : List Nat) : List Stage :=
  let all := others ++ (if d.st == .x || d.st == .o then [d.owner] else [])
  if all.isEmpty then [] else [.snoop all .inv, .flush]

/-! ### Domains going down (R159) -/

/-- The domain goes down: trackers end with TARGET_DEAD, agents are told, lines in X or O are poisoned,
entries are cleared. The data of a poisoned line are open. -/
def State.domDown (k cause agent : Nat) (s : State) : State :=
  if s.dom k != .active && s.dom k != .flushing then s
  else
    let die := s.domDie k
    let fjid := s.rf (Adr.DOM_FJID k) 19 0
    let s := (s.setDom k .downWalk).setRg (Adr.DOM_DOWN_CAUSE k) (w32 (cause * 2 ^ 28 + agent))
    let s := (s.raise Err.home_DOMAIN_DOWN die [k] (some fjid)).raiseInt .dom k 1
    let groups := s.home.groups.filterMap fun e => match e.2 with
      | some g => if g.dom = k then some (e.1, g) else none
      | none => none
    let s := s.modHome fun h => { h with
      trks := h.trks.map fun _ t => match t with
        | some x => if x.dom = k then none else some x
        | none => none
      waiting := h.waiting.map fun _ w => match w with
        | some x => if x.dom = k then none else some x
        | none => none }
    let s := groups.foldl (fun s e => s.endGroup e.1 { e.2 with status := 7 }) s
    let s := (List.range 2048).foldl (fun s a =>
      if s.agentLive k a then s.cohMsg die 2 0 a (s.agentEid k a) fjid 0 (3 * 2 ^ 48) false [] else s) s
    (s.dirEntries k).foldl (fun s e =>
      let s := if e.2.st == .x || e.2.st == .o then
          (match s.homePpa k e.2.line, s.slotOf fjid with
            | some g, some j => s.takeFree.homeAccess (2 ^ 20 + k) die j (homePkt 1 fjid true (leBytes 64 s.freeVal)) [g]
            | _, _ => s).bump (Adr.DOM_LINES_POISONED k) 1
        else s
      s.setDir e.1 none) s

/-! ### Running a tracker -/

/-- The role of a snooped agent by RESULT (R154). -/
def DirEntry.role (d : DirEntry) (a result : Nat) : DirEntry :=
  match result with
  | 0 => if (d.st == .x || d.st == .o) && d.owner == a then { d with owner := 0, st := .s } else d.dropSharer a
  | 1 => if (d.st == .x || d.st == .o) && d.owner == a then { d with owner := 0, st := .s }.addSharer a else d
  | _ => d

/-- S without sharers is I. -/
def DirEntry.settle (d : DirEntry) : DirEntry :=
  if d.st == .s && !d.coarse && d.ptrs.isEmpty then d.empty else d

/-- What Table 6-5 allows: RESULT for a snoop and the agent's role (owner in X, owner in O, sharer). -/
def resultOk (k : Snp) (d : DirEntry) (a result : Nat) : Bool :=
  let x := d.st == .x && d.owner == a
  let o := d.st == .o && d.owner == a
  match k with
  | .shared => result == 0 || (x && (result == 1 || result == 3)) || (o && result == 3)
  | .unique => result == 0
  | .inv => result == 0
  | .cur => result == 0 || (x && (result == 2 || result == 4)) || (o && result == 3)

/-- A tracker that has done its plan: the recalled way is free (the request's own plan is made when it starts), or
the tracker is given back and its group's line ends. -/
def State.trkEnd (t : Nat) (x : Tracker) (s : State) : State :=
  match x.victim with
  | some v => (s.setDir v none).setTrk t (some { x with victim := none, waits := true })
  | none =>
    let s := s.freeTrk t x
    match x.group with
    | none => s
    | some g => match s.hgroup g with
      | some gr => if gr.creq then s.lineDone g 0 0 [] 0 else s
      | none => s

/-- Write a tracker's dirty data back; the tracker as it goes on, if it does not wait. -/
def State.trkFlush (t slot : Nat) (rest : List Stage) (x : Tracker) (s : State) : Option Tracker × State :=
  match x.dirty with
  | none => (some { x with todo := rest }, s)
  | some (bs, poison) =>
    match (match x.victim with
      | some _ => s.homePpa x.dom x.ent.line
      | none => some x.seg.lineSeg) with
    | some g => (none, (s.setTrk t (some { x with todo := rest, dirty := none })).homeAccess t x.die slot
        (homePkt 1 (s.rf (Adr.DOM_FJID x.dom) 19 0) poison bs) [g])
    | none => (some { x with todo := rest, dirty := none }, s)

/-- The memory access of a request: its own, or that of a coherence request. -/
def State.trkPerform (t slot : Nat) (rest : List Stage) (x : Tracker) (s : State) : State :=
  let fjid := s.rf (Adr.DOM_FJID x.dom) 19 0
  let q := s.trkPkt x
  let p := if q.cls = 7 then
      (if q.op = 5 then mkPkt 8 0 0 0 0 false
          (leBytes 16 (asize q * 2 ^ 30 + q.atop * 2 ^ 43 + 3 * 2 ^ 47 + fjid * 2 ^ 51) ++ q.body.drop 16)
        else homePkt 1 fjid q.poison (q.bytes 32 64))
    else q
  let g := if q.cls = 7 then (if q.op = 5 then { x.seg with off := 0, len := asize q } else x.seg.lineSeg) else x.seg
  (s.setTrk t (some { x with todo := rest })).homeAccess t x.die slot p [g]

/-- Do the first thing a tracker has to do; the tracker as it goes on, if it does not wait. -/
def State.trkAct (t : Nat) (x : Tracker) (s : State) : Option Tracker × State :=
  let fjid := s.rf (Adr.DOM_FJID x.dom) 19 0
  let slot := ((x.group.bind s.hgroup).map (·.slot)).getD ((s.slotOf fjid).getD 0)
  let q := s.trkPkt x
  match x.todo with
  | [] => (none, s.trkEnd t x)
  | .snoop as k :: rest =>
    let s := as.foldl (fun s a => s.sendSnoop t x a k) s
    (none, s.setTrk t (some { x with todo := rest, snoops := as.map fun a => { agent := a, snp := k }, since := s.ns }))
  | .flush :: rest => s.trkFlush t slot rest x
  | .read :: rest =>
    (none, (s.setTrk t (some { x with todo := rest })).homeAccess t x.die slot (homePkt 0 fjid false []) [x.seg.lineSeg])
  | .grant g nodata :: rest =>
    let d := x.data.getD ([], false)
    (some { x with todo := rest }, s.cohMsg x.die 5 (cohTxn q) (cohAgent q) q.src fjid x.line
      (s.localEid x.die * 2 ^ 30 + b2n nodata * 2 ^ 46 + g * 2 ^ 48) (d.2 && !nodata) (if nodata then [] else d.1))
  | .grantIf g :: rest => (some { x with todo := if x.fwd then rest else .grant g false :: rest }, s)
  | .perform :: rest => (none, s.trkPerform t slot rest x)
  | .answerRead :: rest => (some { x with todo := rest }, s)
  | .crsp r :: rest =>
    (some { x with todo := rest }, s.crsp x.die r 0 (if r = 1 then (x.data.getD ([], false)).1 else []) q)
  | .ack :: _ => (none, s)

/-- A read whose line is at hand is answered, after the rest of its plan. -/
def State.trkAnswer (x : Tracker) (s : State) : State :=
  match x.todo, x.group with
  | .answerRead :: _, some g =>
    let d := x.data.getD ([], false)
    s.lineDone g 0 x.seg.off ((d.1.drop (x.seg.ppa % 64)).take x.seg.len)
      (if d.2 then chunkBits x.seg.off x.seg.len else 0)
  | _, _ => s

/-- The next stages of tracker `t`, as far as they need not wait. `s` holds the tracker. -/
def State.runTrk (t : Nat) : Nat → State → State
  | 0, s => s
  | n + 1, s =>
    match s.trk t with
    | none => s
    | some x =>
      let r := s.trkAct t x
      match r.1 with
      | some y => (State.runTrk t n (r.2.setTrk t (some y))).trkAnswer x
      | none => r.2

/-- Trackers to run through at most. -/
def trkFuel : Nat := 12

/-- The set of a line has an entry on a poisoned barn line: the directory read cannot be corrected (R151). -/
def State.dirLost (s : State) (k line : Nat) : Bool :=
  (linesOf (s.rg64 (Adr.DOM_DIR_BASE_LO k) + 1024 * s.dirSet k line) 1024).any s.poisoned

/-- Make the plan of a tracker whose line is free, or recall a way for it (R150, R153). -/
def State.planTrk (t : Nat) (s : State) : State :=
  match s.trk t with
  | none => s
  | some x =>
    let miss := s.freeVal % 2 != 1
    let s := s.dirLook x.die
    if miss && s.dirLost x.dom x.line then (s.domDown x.dom 3 0).raise Err.home_DIR_UNCORR x.die [] none else
    let q := s.trkPkt x
    let found := s.dirFind x.dom x.line
    if (found.map (·.2.busy)).getD false then s.setTrk t (some { x with waits := true }) else
    let init := s.rf (Adr.DOM_PRED_CFG x.dom) 2 0
    let th := s.rf (Adr.DOM_PRED_CFG x.dom) 11 8
    match x.group with
    | none => match found with
      | none => s.setTrk t none
      | some (key, d) =>
        let s := (s.setDir key (some { d with busy := true })).bump (Adr.DOM_RECALLS x.dom) 1
        State.runTrk t trkFuel (s.setTrk t (some
          { x with waits := false, ent := d, keep := false, victim := some key, todo := planRecall d (s.sharers x.dom d) }))
    | some _ =>
      let a := cohAgent q
      let isNew := found.isNone
      let d0 : DirEntry := (found.map (·.2)).getD { line := x.line, pred := init }
      let others := s.sharers x.dom d0
      let creq := q.cls == 7
      let far := creq && q.op == 5 && (q.xf 42 41 == 1 || (q.xf 42 41 == 0 && decide (th ≤ d0.pred)))
      let unique := creq && (q.op == 1 || q.op == 2 || q.op == 5)
      let d := if unique then d0.predict isNew a else d0
      let s := if creq && q.op == 5 then
          s.bump (if far then Adr.DOM_FAR_ATOMICS x.dom else Adr.DOM_NEAR_ATOMICS x.dom) 1 else s
      let (plan, ent, fault) : List Stage × DirEntry × Bool :=
        if creq then (match planCreq q.op a far d others with
          | some (p, e) => (p, e, false)
          | none => ([], d0, true))
        else
          let (p, e) := planMreq q.op d others
          (p, e, false)
      let needs := creq && (q.op == 0 || unique)
      if fault then
        let s := ((s.setTrk t none).bump (Adr.HOME_COH_PROTO x.die) 1).raise Err.home_COH_PROTO x.die [] (some q.fjid)
        match x.group with
        | some g => s.lineDone g 10 0 [] 0
        | none => s
      else match found with
        | some (key, _) =>
          State.runTrk t trkFuel ((s.setDir key (some { d0 with busy := true })).setTrk t (some
            { x with waits := false, ent := ent, keep := true, todo := plan }))
        | none =>
          if !needs then
            State.runTrk t trkFuel (s.setTrk t (some { x with waits := false, ent := ent, keep := false, todo := plan }))
          else
            let set := s.dirSet x.dom x.line
            let ways := (List.range 16).map (dirKey x.dom set)
            match ways.find? fun w => (s.home.dir.get w).isNone with
            | some w =>
              State.runTrk t trkFuel ((s.setDir w (some { d0 with busy := true })).setTrk t (some
                { x with waits := false, ent := ent, keep := true, todo := plan }))
            | none =>
              let idle := ways.filter fun w => ((s.home.dir.get w).map fun d => !d.busy).getD false
              let pick (st : DState) : Option Nat := idle.find? fun w => ((s.home.dir.get w).map (·.st)) == some st
              match (pick .i).orElse fun _ => (pick .s).orElse fun _ => (pick .x).orElse fun _ => pick .o with
              | none => s.setTrk t (some { x with waits := true })
              | some w =>
                let v := (s.home.dir.get w).getD {}
                let s := (s.setDir w (some { v with busy := true })).bump (Adr.DOM_RECALLS x.dom) 1
                State.runTrk t trkFuel (s.setTrk t (some
                  { x with waits := false, ent := v, victim := some w
                           todo := planRecall v (s.sharers x.dom v) }))

/-- Another tracker holds the line of `x`, or it started earlier on it. -/
def State.lineHeld (s : State) (t : Nat) (x : Tracker) : Bool :=
  s.trkList.any fun e => e.1 != t && e.2.dom == x.dom && e.2.line == x.line && (!e.2.waits || decide (e.1 < t))

/-- Start the trackers that waited and can go on. -/
def State.wakeTrks (s : State) : State :=
  (s.trkList.filter fun e => e.2.waits).foldl (fun s e =>
    match s.trk e.1 with
    | some x => if x.waits && !s.lineHeld e.1 x then s.planTrk e.1 else s
    | none => s) s

/-! ### Answers of agents (R154) -/

/-- The snoop of tracker `t` is answered: the SNP_RESP, and the data if it announces them. -/
def Snoop.whole (q : Snoop) : Bool :=
  match q.resp with
  | none => false
  | some (_, dh, _) => !dh || q.data.isSome

/-- All snoops of a phase are answered: roles, data, and the next stage. -/
def State.snoopsDone (t : Nat) (x : Tracker) (s : State) : State :=
  let ent := if x.victim.isSome then x.ent else
    (x.snoops.foldl (fun d q => match q.snp with
      | .shared | .cur => d.role q.agent ((q.resp.map (·.1)).getD 0)
      | _ => d) x.ent).settle
  let fwd := x.snoops.any fun q => (q.snp == .shared || q.snp == .unique) && (q.resp.map (·.2.2)).getD false
  let got := x.snoops.filterMap (·.data)
  let passed := x.snoops.any fun q => q.snp == .unique
  let dirty := if passed then none else (got.find? (·.2.1)).map fun d => (d.1, d.2.2)
  let data := (got.head?.map fun d => (d.1, d.2.2)).orElse fun _ => x.data
  (State.runTrk t trkFuel (s.setTrk t (some
    { x with snoops := [], ent := ent, fwd := fwd, dirty := dirty, data := data }))).wakeTrks

/-- Check the phase of a tracker for completion, or for a protocol fault. -/
def State.snoopCheck (t : Nat) (s : State) : State :=
  match s.trk t with
  | none => s
  | some x =>
    let d := if x.victim.isSome then x.ent else ((s.dirFind x.dom x.line).map (·.2)).getD x.ent
    let bad := x.snoops.find? fun q => match q.resp with
      | none => false
      | some (r, dh, fwd) => !resultOk q.snp d q.agent r || (q.snp != .inv && !fwd && !dh)
    match bad with
    | some q => (s.domDown x.dom 4 q.agent).raise Err.home_COH_PROTO x.die [] none
    | none => if !x.snoops.isEmpty && x.snoops.all Snoop.whole then s.snoopsDone t x else s

/-- Drop a coherence message that is malformed or comes from no agent (R143, R146). -/
def State.cohProto (die : Nat) (s : State) : State :=
  (s.bump (Adr.HOME_COH_PROTO die) 1).raise Err.home_COH_PROTO die [] none

/-- A CACK or CDAT for the home: its domain and tracker; malformed or foreign messages, and those
without a tracker, are dropped and counted. -/
def State.cohMatch (die : Nat) (p : Packet) (bad : Bool) (byTxn : Bool) (s : State) : Option (Nat × Tracker) × State :=
  if bad then (none, s.cohProto die)
  else match s.domOf p.fjid with
    | none => (none, s.bump (Adr.HOME_LATE_DROPS die) 1)
    | some k =>
      if !s.agentOk k p then (none, s.cohProto (s.domDie k))
      else
        let t := if byTxn then 8192 * s.domDie k + cohTxn p
          else ((s.trkList.find? fun e => e.2.dom == k && e.2.todo.head? == some .ack && cohTxn (s.trkPkt e.2) == cohTxn p
            && cohAgent (s.trkPkt e.2) == cohAgent p && e.2.line == p.fva / 64).map (·.1)).getD (2 ^ 20)
        match s.trk t with
        | some x =>
          if x.dom = k ∧ (if x.victim.isSome then x.ent.line else x.line) = p.fva / 64 then (some (t, x), s)
          else (none, s.bump (Adr.HOME_LATE_DROPS (s.domDie k)) 1)
        | none => (none, s.bump (Adr.HOME_LATE_DROPS (s.domDie k)) 1)

/-! ### Arrival at the home (R144, R152) -/

/-- The domain that serves a request to a COH page, or the status that ends it (Table 6-9). -/
def State.domServes (s : State) (p : Packet) : Except Nat Nat :=
  match s.domOf p.fjid with
  | none => .error 1
  | some k => match s.dom k with
    | .off => .error 1
    | .init => .error 9
    | .active => .ok k
    | .flushing => if p.cls = 8 ∨ p.op = 3 ∨ p.op = 4 then .ok k else .error 9
    | .downWalk => .error 7
    | .down => .error 7

/-- Take a checked request to the home: one entry per line. -/
def State.homeEnter (die k : Nat) (p : Packet) (cells : Option Nat) (c : Passed) (s : State) : State :=
  let g := s.nextId
  let lines := (c.segs.map (cutSegs 64 65)).flatten
  let s := (s.takeNames (1 + lines.length)).setGroup g (some
    { pkt := p, die := die, dom := k, slot := c.slot, cells := cells, creq := p.cls == 7
      left := lines.length, unstarted := lines.length })
  (List.range lines.length).foldl (fun s i =>
    let seg := lines.getD i {}
    s.modHome fun h => { h with waiting := h.waiting.set (g + 1 + i) (some
      { group := some g, dom := k, line := (p.fva + seg.off) / 64, seg := seg }) }) s

/-- A refusal of a coherence request: its completion goes out, and its cells are given back. -/
def State.creqRefuse (die : Nat) (p : Packet) (cells : Option Nat) (st : Nat) (s : State) : State :=
  let s := s.crsp die 2 st [] p
  match cells with
  | some c => s.copyGone c
  | none => s

/-- A coherence request after its body checks: the domain that serves it, the watch. -/
def State.creqServe (die : Nat) (from_ : Ingress) (p : Packet) (cells : Option Nat) (j size : Nat) (c : Chk)
    (s : State) : State :=
  match c with
  | .fail st => s.creqRefuse die p cells st
  | .pass c =>
    if !c.coh then (s.violation die j 2 p none).creqRefuse die p cells 2
    else match s.domServes p with
      | .error st => s.creqRefuse die p cells st
      | .ok k => match s.watch (tracePort from_) p (if p.op = 1 ∨ p.op = 2 ∨ p.op = 3 then 1 else 0) size c.segs with
        | (true, s) => (s.violation die j 2 p none).creqRefuse die p cells 2
        | (false, s) => (s.bump (Adr.DOM_CREQS k) 1).homeEnter die k p cells c

/-- A CREQ is checked (R144, R146, R166). -/
def State.creqRx (die : Nat) (from_ : Ingress) (p : Packet) (cells : Option Nat) (s : State) : State :=
  if creqBad p then s.creqRefuse die p cells 10
  else match s.checkHead die false p with
    | (.error st, s) => s.creqRefuse die p cells st
    | (.ok j, s) =>
      let okAgent := match s.domOf p.fjid with
        | some k => s.agentOk k p
        | none => true
      if !okAgent then (s.violation die j 4 p none).creqRefuse die p cells 4
      else if !s.queueFits j p then
        (s.bump (Adr.JOB_BUSY_COUNT j) 1).creqRefuse die p cells 9
      else
        let size := if p.op = 5 then asize p else 64
        let r := s.checkBody die j (creqOp p.op) size (creqPerm p.op) p
        r.2.creqServe die from_ p cells j size r.1

/-! ### Answers of memory -/

/-- The memory access of a tracker has ended: go on, or end with its status (R155). -/
def State.homeMem (t : Nat) (r : Req) (s : State) : State :=
  if 2 ^ 20 ≤ t then s
  else match s.trk t with
  | none => s
  | some x =>
    let (st, data, pm) := r.merged
    let x := { x with mem := none }
    if st ≠ 0 ∧ x.victim.isNone then
      let s := (s.setTrk t none)
      let s := match s.dirFind x.dom x.line with
        | some (key, d) => if d.st == DState.i && d.pred == 0 then s.setDir key none else s.setDir key (some { d with busy := false })
        | none => s
      (match x.group with
        | some g => s.lineDone g st x.seg.off [] 0
        | none => s).wakeTrks
    else
      let q := s.trkPkt x
      let isMreqWrite := q.cls == 8 && x.todo.isEmpty && x.victim.isNone && x.group.isSome && r.pkt.op == q.op && q.op != 0
      let x := if r.pkt.op = 1 ∧ !isMreqWrite then x else { x with data := some (data, pm != 0) }
      let s := s.setTrk t (some x)
      let s := if isMreqWrite then
          match x.group with
          | some g => s.lineDone g st x.seg.off data pm
          | none => s
        else s
      (State.runTrk t trkFuel s).wakeTrks

end Sys2Proof.Machine
end

