-- ==== Sys2Proof/Machine/Settle.lean ====
section
/-! DEFINITION. What follows when every part of a request is done: the MRSP, the home's transaction, the
copy of a block (R177); and the issue of waiting requests (R131, R166, R177). -/

set_option Elab.async false

namespace Sys2Proof.Machine
open Sys2Proof

/-- Bytes with the marks of a poison map of 64-byte chunks. -/
def mapMarked (bs : List Byte) (pm : Nat) : List (Byte × Bool) :=
  (List.range bs.length).map fun i => (bs.getD i 0, pm.testBit (i / 64))

/-- The answer to access `idx` of step `step` of a run (R247). -/
def State.runResult (o : Owner) (x : Res) (s : State) : State :=
  match o with
  | .tile run step idx => match s.tile.runs.get run with
    | some r =>
      if r.log.length = step ∧ (r.open_.get idx).isSome then
        s.modTile fun t => { t with
          runs := t.runs.set run (some { r with open_ := r.open_.set idx none, cur := r.cur.set idx (some x) }) }
      else s
    | none => s
  | _ => s

/-- A request whose parts are done is answered, or its home transaction goes on. -/
def State.settleBase (id : Nat) (s : State) : State :=
  match s.req id with
  | none => s
  | some r =>
    if !r.done || r.copying then s
    else match r.kind with
      | .mreq => (s.setReq id none).answer r
      | .home t => (s.setReq id none).homeMem t r
      | .own o _ =>
        let (st, data, pm) := r.merged
        (s.setReq id none).runResult o (if st = 0 then .data (mapMarked data pm) else .fail 2 st)
      | _ => s

/-- A block copy has been read or written (R177): the write follows the read; then the head and the
record are written and the parent goes on. -/
def State.copyDone (id : Nat) (r : Req) (s : State) : State :=
  let (st, data, _) := r.merged
  let s := s.setReq id none
  match r.kind with
  | .copyRead parent rg blk rec =>
    if st ≠ 0 then ((s.failReq parent st).modReq parent fun q => { q with copying := false }).settleBase parent
    else
      let x := s.region rg
      let ppa := s.spareBlock x rec
      let p := mkPkt 8 0 0 0 0 false (leBytes 16 (data.length % 2 ^ 13 * 2 ^ 30 + 1 * 2 ^ 47 + r.pkt.fjid * 2 ^ 51) ++ data)
      (s.takeNames 1).setReq s.nextId (some
        { r with kind := .copyWrite parent rg blk rec, pkt := p, segs := [{ off := 0, len := data.length, ppa := ppa }]
                 parts := [], formed := false })
  | .copyWrite parent rg blk rec =>
    if st ≠ 0 then ((s.failReq parent st).modReq parent fun q => { q with copying := false }).settleBase parent
    else
      let x := s.region rg
      let h := s.barnNum (x.headAt blk) 16
      let s := s.setBarnNum (x.recAt rec) 16 (recWord true (recNext h) (recVer h) (s.spareBlock x rec))
      let s := s.setBarnNum (x.headAt blk) 16 (recWord true rec x.head (s.baseBlock x blk))
      (s.bump Adr.EXT_COW_COPIES 1).modReq parent fun q => { q with copying := false }
  | _ => s

/-- A request whose parts are all done is completed; fills and writebacks end by rows of their own. -/
def State.settle (id : Nat) (s : State) : State :=
  match s.req id with
  | none => s
  | some r =>
    match r.kind with
    | .copyRead .. => if r.done then s.copyDone id r else s
    | .copyWrite .. => if r.done then s.copyDone id r else s
    | _ => s.settleBase id

/-- Settle every request that is done, except those that a later one completes. -/
def State.settleAll (s : State) : State :=
  (List.map Prod.fst s.ttu.reqs).foldl (fun s id => State.settle id s) s

/-! ### Issue (R131) -/

/-- Extents of a request that are no longer OWNED (R166). -/
def State.revoked (s : State) (r : Req) : Bool := r.exts.any fun e => (s.extent e).st != .owned

/-- The first block of a write through a BASE region that has to be copied, or whose head has to take
HEAD (R177). -/
def State.copyNeeded (s : State) (r : Req) : Option (Nat × Nat) :=
  r.blocks.find? fun b => s.needsCopy (s.region b.1) b.2

/-- Start the copy of a block: a record is taken, the base block is read. -/
def State.startCopy (id : Nat) (r : Req) (b : Nat × Nat) (s : State) : State :=
  let x := s.region b.1
  if x.freeHead = noRec then
    ((s.raise Err.ext_SNAP_NO_SPACE 0 [b.1] (some r.pkt.fjid)).failReq id 9).settle id
  else
    let rec' := x.freeHead
    let nx := recNext (s.barnNum (x.recAt rec') 16)
    let s := s.setRegion b.1 { x with freeHead := nx, recFree := x.recFree - 1 }
    let s := s.modReq id fun q => { q with copying := true }
    let n := 2 ^ x.shift
    let p := mkPkt 8 0 0 0 0 false (leBytes 16 (n % 2 ^ 13 * 2 ^ 30 + r.pkt.fjid * 2 ^ 51))
    (s.takeNames 1).setReq s.nextId (some
      { die := r.die, kind := .copyRead id b.1 b.2 rec', pkt := p, slot := r.slot
        segs := [{ off := 0, len := n, ppa := s.baseBlock x b.2 }] })

/-- Mark the heads of the blocks that a write goes through with HEAD (R177). -/
def State.stampHeads (r : Req) (s : State) : State :=
  r.blocks.foldl (fun s b =>
    let x := s.region b.1
    let h := s.barnNum (x.headAt b.2) 16
    s.setBarnNum (x.headAt b.2) 16 (recWord true (recNext h) x.head (recPpa h))) s

/-- Issue the next part of a request, or complete it at once where it can no longer be issued. -/
def State.issue (id : Nat) (s : State) : State :=
  match s.req id with
  | none => s
  | some r =>
    if !r.waiting || r.copying || s.blocked id r || !s.oldest id r then s
    else if !r.formed then
      if !s.tagRoom r.die r.slot r.kind.isTier || (s.pickTag r.die).isNone then s
      else if s.revoked r then ((s.failReq id 6).settle id)
      else match s.copyNeeded r with
        | some b => if s.opening (s.region b.1) then s else s.startCopy id r b
        | none =>
          let (r, s) := s.formParts r
          let s := (s.setReq id (some r)).stampHeads r
          match (List.range r.parts.length).find? fun k => ((r.parts[k]?).map (·.st)) == some .waiting with
          | none => (s.dropCells id).settle id
          | some k => match r.parts[k]?, s.pickTag r.die with
            | some p, some n => if s.partReady p then s.issuePart id k n r p else s
            | _, _ => s
    else
      match (List.range r.parts.length).find? fun k => ((r.parts[k]?).map (·.st)) == some .waiting with
      | none => s
      | some k => match r.parts[k]? with
        | none => s
        | some p =>
          let gone : Bool := match p.tgt.port with
            | some (q, c) => p.tgt != .tier && !s.targetOk q c && (match p.tgt with | .thru _ _ => false | _ => true)
            | none => false
          if gone then (s.endPart id k fun p => { p with status := 7 }).settle id
          else if !s.tagRoom r.die r.slot r.kind.isTier || !s.partReady p then s
          else if s.revoked r then
            (s.endPart id k fun p => { p with status := 6 }).settle id
          else match s.pickTag r.die with
            | none => s
            | some n => s.issuePart id k n r p

/-! ### Fabric requests of own units (R130, R131) -/

/-- An own unit asks for a fabric request: it waits for its tag. -/
def State.unitAsk (owner : Owner) (die : Nat) (slot : Option Nat) (p : Packet) (s : State) : State :=
  (s.takeNames 1).modTtu fun t =>
    { t with waiting := t.waiting ++ [(⟨s.nextId, die, slot, owner, p⟩ : UnitReq)] }

/-- An MREQ of an own unit (Table 5-2), without its tag. -/
def State.unitMreq (s : State) (die op atop size fva fjid dst orderId : Nat) (ordered : Bool) (data : List Byte) : Packet :=
  mkPkt 8 (orderId % 2 ^ 16) (s.localEid die) dst s.stamp false
    (leBytes 16 (b2n ordered * 2 ^ 28 + size % 2 ^ 13 * 2 ^ 30 + atop * 2 ^ 43 + op * 2 ^ 47 + fjid * 2 ^ 51 + fva * 2 ^ 71)
      ++ data)

/-- Issue a waiting request of an own unit: the oldest of its slot and die first. -/
def State.issueUnit (u : UnitReq) (s : State) : State :=
  let older := s.ttu.waiting.find? fun v => v.slot == u.slot && v.die == u.die
  if (older.map (·.id)) != some u.id || !s.tagRoom u.die u.slot false then s
  else match s.pickTag u.die with
    | none => s
    | some n =>
      let s := s.modTtu fun t => { t with waiting := t.waiting.filter fun v => v.id != u.id }
      let s := s.takeFree.setTag n (some { target := 513, owner := u.owner, slot := u.slot, at_ := s.ns })
      s.sendOwn u.die ((u.pkt.setReqTag (n % 65536)).setStamp s.stamp)

/-- The owner of a response to an own unit: its tag is freed. A tag not held by a fabric request
belongs to no unit. -/
def State.unitTag (s : State) (p : Packet) : Option Owner :=
  match s.tag p.reqTag with
  | some g => if g.target = 513 ∧ !g.quar then some g.owner else none
  | none => none

/-! ### Packets delivered to own units -/

/-- The ingress a number names: a port, or the own units of a die from 512 on. -/
def ingressOf (n : Nat) : Ingress := if n < 512 then .port n else .own (n - 512)

/-- The die that works on what came in there (R130). -/
def ingressDie (n : Nat) : Nat := if n < 512 then portDie n else (n - 512) % 2

/-- Take a packet that was delivered: the buffer id of its cells, if it is there. -/
def State.takeLocal (n : Nat) (p : Packet) (s : State) : Option Nat × State :=
  match s.sw.local_.find? fun d => d.2.1 == ingressOf n && d.2.2 == p with
  | none => (none, s)
  | some d => (some d.1, s.modSw fun w => { w with local_ := w.local_.erase d })

/-- Free the cells of a packet that was taken. -/
def State.freeLocal (c : Option Nat) (s : State) : State :=
  match c with
  | some id => (s.copyGone id).unstall
  | none => s

/-- A response without a held tag (R134). -/
def State.staleRsp (die : Nat) (s : State) : State :=
  (s.bump (Adr.TTU_STALE_RSP die) 1).raise Err.ttu_STALE_RSP die [] none

end Sys2Proof.Machine
end

