-- ==== Sys2Proof/Machine/Ttu.lean ====
section
/-! DEFINITION. Commands of the target translation units: issue, answers of targets and of the barn,
dead targets, invalidation; and the coherence messages of agents. -/

set_option Elab.async false

namespace Sys2Proof.Machine
open Sys2Proof

/-- MREQ_ISSUE (R131): the request named, of the receiving side or of an own unit. -/
def execMreqIssue (id : Nat) (s : State) : Host.Outcome State Fault Refusal :=
  .next (match s.ttu.waiting.find? fun u => u.id == id with
    | some u => if s.stopped 3 u.die then s else s.issueUnit u
    | none => if s.stopped 3 (((s.req id).map (·.die)).getD 0) then s else s.issue id)

/-- A tray's MRSP for part `k` of request `id` (R116, R124, R137). -/
def State.trayRsp (g : Tag) (r : Req) (part : Part) (p : Packet) (s : State) : State :=
  let (lo, n) := part.window (if r.pkt.op = 0 then s.wholeLines r part else s.wholeLines r part)
  (s.partAnswer g.req g.part p.rspStatus (p.bytes 32 (min n p.rspSize)) (poisonedLines lo p.poisonMap)).settle g.req

/-- TARGET_RSP_RX (R124): an MRSP of a tray on port `p`. -/
def execTargetRspRx (p : Nat) (pkt : Packet) (s : State) : Host.Outcome State Fault Refusal :=
  .next (
    let (c, s) := s.takeLocal p pkt
    let s := match s.tag pkt.reqTag with
      | none => s.staleRsp (tagDie pkt.reqTag)
      | some g =>
        if g.quar || g.target != p then s.staleRsp (tagDie pkt.reqTag)
        else match s.req g.req with
          | none => s.staleRsp (tagDie pkt.reqTag)
          | some r => match r.parts[g.part]? with
            | some part => s.trayRsp g r part pkt
            | none => s.staleRsp (tagDie pkt.reqTag)
    s.freeLocal c)

/-- The CXL request `tag` of port `p` is answered: one line of its part (R76, R80). -/
def State.cxlLine (p tag : Nat) (data : List Byte) (poisoned : Bool) (s : State) : State :=
  let s := s.modPort p fun q => { q with cxlOut := q.cxlOut.erase tag }
  match s.tag (tag / 128) with
  | none => s
  | some g =>
    if g.quar || g.target != p then s
    else match s.req g.req with
      | none => s
      | some r => match r.parts[g.part]? with
        | none => s
        | some part =>
          let part := { part with lines := part.lines.set (tag % 128) (some (data, poisoned)) }
          let s := s.setPart g.req g.part part
          let (lo, n) := part.window (s.wholeLines r part)
          let ls := linesOf lo n
          if ls.length ≤ part.lines.length then
            let all := ((List.range ls.length).map fun i => ((part.lines.get i).map (·.1)).getD []).flatten
            let bad := (List.range ls.length).filterMap fun i =>
              if ((part.lines.get i).map (·.2)).getD false then some (lo / 64 + i) else none
            (s.partAnswer g.req g.part 0 ((all.drop (lo % 64)).take n) bad).settle g.req
          else s

/-- CXL_MEMDATA_RX (R76): MemData or Cmp for request `tag`, with a DevLoad value. -/
def execCxlMemdataRx (p tag : Nat) (data : List Byte) (poisoned : Bool) (devLoad : Nat) (s : State) :
    Host.Outcome State Fault Refusal :=
  .next (
    if s.portMode p != 2 then s
    else
      let s := s.setRf (Adr.PORT_CXL_STATUS p) 31 28 devLoad
      let s := if poisoned then
          (s.bumpHi (Adr.PORT_CXL_POISON_RX p)).raise Err.port_CXL_POISON p [] none
        else s
      if (s.port p).cxlOut.contains tag then s.cxlLine p tag data poisoned else s)

/-- BARN_ACCESS_DONE (R127): the barn controller completes the part that holds `tag`, if its sectors
serve it; else what is missing is started. -/
def execBarnAccessDone (tag : Nat) (s : State) : Host.Outcome State Fault Refusal :=
  .next (match s.tag tag with
    | none => s
    | some g => if g.target = 512 ∧ !g.quar then (s.tierTry g.req g.part).settle g.req else s)

/-- RESPONSE_CELL_WAIT_END (R516): MRSPs that waited for engine cells are built. -/
def execResponseCellWaitEnd (s : State) : Host.Outcome State Fault Refusal :=
  .next (State.unstallN true s.sw.stalled.length s)

/-- Mark a port DEAD, fail what is outstanding there, quarantine its tags (R134). -/
def State.deadPort (p : Nat) (s : State) : State :=
  let s := s.setRf (Adr.PORT_TARGET_STATE p) 0 0 1
  let mine := s.tagList.filter fun e => !e.2.quar && e.2.target == p
  mine.foldl (fun s e =>
    let s := s.endPart e.2.req e.2.part fun q => { q with status := 7, data := [] }
    (s.setTag e.1 (if e.2.left then none else some { quar := true, target := p })).settle e.2.req) s

/-- TARGET_TIMEOUT (R134): a part issued to port `p` has no response after TTU.TIMEOUT µs. -/
def execTargetTimeout (p : Nat) (s : State) : Host.Outcome State Fault Refusal :=
  .next (
    let late := s.tagList.find? fun e => !e.2.quar && e.2.target == p
      && decide (e.2.at_ + 1000 * s.rf (Adr.TTU_TIMEOUT (tagDie e.1)) 19 0 ≤ s.ns)
    if 512 ≤ p then s
    else match late with
    | none => s
    | some e => (s.raise Err.ttu_TARGET_TIMEOUT (tagDie e.1) [p] none).deadPort p)

/-- TARGET_DEAD_CLEAR (R134): a write of TARGET_STATE; DEAD is cleared by 0 unless a tag of the port is
quarantined. -/
def State.writeTargetState (p : Nat) (v : Word) (s : State) : State :=
  if bit v 0 || !bit (s.rg (Adr.PORT_TARGET_STATE p)) 0 then s
  else if s.tagList.any fun e => e.2.quar && e.2.target == p then s
  else s.setRf (Adr.PORT_TARGET_STATE p) 0 0 0

def execTargetDeadClear (src : Source) (p : Nat) (val : Word) (s : State) : Host.Outcome State Fault Refusal :=
  .next (s.guarded src (Adr.PORT_TARGET_STATE p) .rw fun s => s.writeTargetState p (val &&& ~~~1#32))

/-- CXL_LINK_FATAL (R80): the device is lost; a lost link also leaves ACTIVE. -/
def execCxlLinkFatal (p : Nat) (cause : CxlFatal) (s : State) : Host.Outcome State Fault Refusal :=
  .next (
    if s.portMode p != 2 || !s.portActive p then s
    else
      let s := (s.raise Err.port_CXL_LINK_FATAL p [] none).deadPort p
      if cause == .linkLoss then s.leaveTo p .detect else s)

/-- GRAN_REQ_TIMEOUT (R194): a part of a granary range that waits in the tier past TTU.TIMEOUT. -/
def execGranReqTimeout (tag : Nat) (s : State) : Host.Outcome State Fault Refusal :=
  .next (match s.tag tag with
    | none => s
    | some g =>
      if g.target ≠ 512 ∨ g.quar ∨ s.ns < g.at_ + 1000 * s.rf (Adr.TTU_TIMEOUT (tagDie tag)) 19 0 then s
      else match s.req g.req with
        | none => s
        | some r => match r.parts[g.part]? with
          | none => s
          | some p =>
            let gran := p.segs.any fun q => ((s.poolFind q.ppa).map fun i => poolKind (s.poolEntry i) == 2).getD false
            if !gran || p.sectors.all (s.sectorReady r) then s
            else ((s.endPart g.req g.part fun p => { p with status := 9, data := [] }).bump Adr.TIER_GRAN_TIMEOUTS 1).settle
              g.req)

/-! ### Invalidation (R125) -/

/-- JOB[s].CTRL.INVAL: cached copies of the range go; requests past check 6 are awaited. -/
def State.jobInval (j : Nat) (s : State) : State :=
  let lo := (s.rg64 (Adr.JOB_INVAL_FVA_LO j) % 2 ^ 57 - s.manFva j) / 2 ^ s.pageShift j
  let n := s.rf (Adr.JOB_INVAL_LEN j) 24 0
  let mine := s.ttu.reqs.filterMap fun e => match e.2 with
    | some r => if r.slot = some j then some e.1 else none
    | none => none
  let homes := s.home.groups.filterMap fun e => match e.2 with
    | some g => if g.slot = j then some e.1 else none
    | none => none
  s.modTtu fun t => { t with
    mans := t.mans.clear (j * 2 ^ 25 + lo) (j * 2 ^ 25 + lo + n)
    members := t.members.clear (j * 65536) (j * 65536 + 65536)
    inval := t.inval.set j (some (mine ++ homes)) }

/-- The INVAL bit of JOB.CTRL. -/
def State.writeInval (j : Nat) (v : Word) (s : State) : State :=
  if s.job j == .free then s else if bit v 8 then s.jobInval j else s

/-- JOB_INVAL (R125). -/
def execJobInval (src : Source) (j : Nat) (val : Word) (s : State) : Host.Outcome State Fault Refusal :=
  .next (s.guarded src (Adr.JOB_CTRL j) .wo (·.writeInval j (val ||| 0x100)))

/-- INVAL_DONE (R125): the requests awaited have completed. -/
def execInvalDone (j : Nat) (s : State) : Host.Outcome State Fault Refusal :=
  .next (match s.ttu.inval.get j with
    | none => s
    | some ids =>
      if ids.any fun id => (s.req id).isSome || (s.hgroup id).isSome then s
      else s.modTtu fun t => { t with inval := t.inval.set j none })

/-! ### Coherence (chapter 6) -/

/-- CREQ_RX (R152): a CREQ delivered to the home. -/
def execCreqRx (p : Nat) (pkt : Packet) (s : State) : Host.Outcome State Fault Refusal :=
  .next (
    if s.stopped 4 (ingressDie p) then s else
    let (c, s) := s.takeLocal p pkt
    s.creqRx (ingressDie p) (ingressOf p) pkt c)

/-- A tracker number that is free on a die. -/
def State.pickTrk (s : State) (die : Nat) : Option Nat :=
  ((List.range 8192).map fun i => 8192 * die + (s.freeVal + i) % 8192).find? fun t => (s.trk t).isNone

/-- The group of a waiting line starts one more of its lines; with the last, its cells are given back. -/
def State.groupStart (g : Option Nat) (s : State) : State :=
  match g with
  | none => s
  | some g => match s.hgroup g with
    | none => s
    | some gr =>
      let gr := { gr with unstarted := gr.unstarted - 1 }
      if gr.unstarted = 0 then
        (match gr.cells with
          | some c => ((s.setGroup g (some { gr with cells := none })).copyGone c).unstall
          | none => s.setGroup g (some gr))
      else s.setGroup g (some gr)

/-- Waiting line `id` takes tracker `t`. -/
def State.trkStart (id t : Nat) (w : HReq) (needs : Bool) (s : State) : State :=
  let x : Tracker := { die := s.domDie w.dom, dom := w.dom, group := w.group, line := w.line, seg := w.seg
                       waits := true, recalls := needs }
  let s := s.takeFree.modHome fun h => { h with waiting := h.waiting.set id none }
  let s := (s.setTrk t (some x)).groupStart w.group
  if s.lineHeld t x then s else (s.planTrk t).wakeTrks

/-- TRACKER_START (R152, R153): a waiting request takes a tracker; requests of one line in order. -/
def execTrackerStart (id : Nat) (s : State) : Host.Outcome State Fault Refusal :=
  .next (match s.home.waiting.get id with
    | none => s
    | some w =>
      let die := s.domDie w.dom
      let earlier := s.home.waiting.any fun e => match e.2 with
        | some v => decide (e.1 < id) && v.dom == w.dom && v.line == w.line
        | none => false
      let q := ((w.group.bind s.hgroup).map (·.pkt)).getD default
      let needs := w.group.isNone || (q.cls == 7 && q.op != 3 && q.op != 4)
      if earlier || decide (s.rf (Adr.DOM_TRK_LIMIT w.dom) 13 0 ≤ s.trkUsed w.dom)
          || (needs && s.recallFree die == 0) then s
      else match s.pickTrk die with
        | none => s
        | some t => s.trkStart id t w needs)

/-- Change the snoops that satisfy `p`. -/
def Tracker.mapSnoops (x : Tracker) (p : Snoop → Bool) (f : Snoop → Snoop) : Tracker :=
  { x with snoops := x.snoops.map fun q => if p q then f q else q }

/-- SNP_RESP_RX (R154). -/
def execSnpRespRx (p : Nat) (pkt : Packet) (s : State) : Host.Outcome State Fault Refusal :=
  .next (
    let (c, s) := s.takeLocal p pkt
    let bad := pkt.len != 32 || decide (4 < pkt.xf 47 45) || pkt.xf 42 0 != 0 || nbits pkt.spec 15 11 != 0
    let (m, s) := s.cohMatch (ingressDie p) pkt bad true
    let s := match m with
      | none => s
      | some (t, (x : Tracker)) =>
        match x.snoops.find? fun (q : Snoop) => q.agent == cohAgent pkt && q.resp.isNone with
        | none => s.bump (Adr.HOME_LATE_DROPS x.die) 1
        | some _ =>
          let r := (pkt.xf 47 45, pkt.xf 44 44 == 1, pkt.xf 43 43 == 1)
          (s.setTrk t (some (Tracker.mapSnoops x (fun (q : Snoop) => q.agent == cohAgent pkt && q.resp.isNone)
            fun (q : Snoop) => { q with resp := some r }))).snoopCheck t
    s.freeLocal c)

/-- CDAT_HOME_RX (R154): data to the home. -/
def execCdatHomeRx (p : Nat) (pkt : Packet) (s : State) : Host.Outcome State Fault Refusal :=
  .next (
    let (c, s) := s.takeLocal p pkt
    let bad := pkt.len != 96 || pkt.xf 50 48 != 0 || pkt.xf 46 46 != 0 || pkt.xf 29 0 != 0 || nbits pkt.spec 15 11 != 0
    let (m, s) := s.cohMatch (ingressDie p) pkt bad true
    let s := match m with
      | none => s
      | some (t, (x : Tracker)) =>
        match x.snoops.find? fun (q : Snoop) => q.agent == cohAgent pkt && q.data.isNone with
        | none => s.bump (Adr.HOME_LATE_DROPS x.die) 1
        | some _ =>
          (s.setTrk t (some (Tracker.mapSnoops x (fun (q : Snoop) => q.agent == cohAgent pkt && q.data.isNone)
            fun (q : Snoop) => { q with data := some (pkt.bytes 32 64, pkt.xf 47 47 == 1, pkt.poison) }))).snoopCheck t
    s.freeLocal c)

/-- COMP_ACK_RX (R153): it ends a granting transaction. -/
def execCompAckRx (p : Nat) (pkt : Packet) (s : State) : Host.Outcome State Fault Refusal :=
  .next (
    let (c, s) := s.takeLocal p pkt
    let bad := pkt.len != 32 || pkt.xf 47 0 != 0 || nbits pkt.spec 15 11 != 0
    let (m, s) := s.cohMatch (ingressDie p) pkt bad false
    let s := match m with
      | none => s
      | some (t, (x : Tracker)) =>
        if x.todo.head? == some Stage.ack then (State.runTrk t trkFuel (s.setTrk t (some { x with todo := [] }))).wakeTrks
        else s.bump (Adr.HOME_LATE_DROPS x.die) 1
    s.freeLocal c)

/-- SNOOP_TIMEOUT (R159): a snoop of tracker `t` has no whole answer after SNOOP_TIMEOUT µs. -/
def execSnoopTimeout (t : Nat) (s : State) : Host.Outcome State Fault Refusal :=
  .next (match s.trk t with
    | none => s
    | some x => match x.snoops.find? fun q => !q.whole with
      | none => s
      | some q =>
        if x.since + 1000 * s.rf (Adr.DOM_SNOOP_TIMEOUT x.dom) 19 0 ≤ s.ns then s.domDown x.dom 1 q.agent else s)

/-- A commit of an agent table entry (Table 6-1): DEAD cannot be cleared unless the domain is OFF. -/
def State.writeAgent (k a v : Nat) (s : State) : State :=
  let old := s.agent k a
  let dead := nbits old 62 62 == 1 && s.dom k != .off
  let v := if dead && nbits v 62 62 == 0 then v + 2 ^ 62 else v
  let s := s.setEntry (agentAt k a) 2 v
  if nbits v 62 62 = 1 ∧ nbits old 62 62 = 0 then s.domDown k 2 a else s

/-- AGENT_DEAD_WRITE (R143, R159): DEAD is written 1 in an agent's entry. -/
def execAgentDeadWrite (src : Source) (k a : Nat) (s : State) : Host.Outcome State Fault Refusal :=
  .next (if k < 16 ∧ a < 2048 ∧ (s.pageOn .swcore 0 ∨ s.pageOn .swcore 1 ∨ (src = .loader ∧ s.pwr.pstate = .starting)) then
    s.writeAgent k a (s.agent k a % 2 ^ 62 + nbits (s.agent k a) 63 63 * 2 ^ 63 + 2 ^ 62) else s)

def State.domReject (k r : Nat) (s : State) : State := s.setRf (Adr.DOM_STATUS k) 11 8 r

/-- Fill a run of the barn with zeros, marks cleared (R160, R335). -/
def State.zeroBarn (a n : Nat) (s : State) : State :=
  s.modMem fun m => { m with
    barn := match m.bg with
      | none => m.barn.clear a (a + n)
      | some _ => (m.store a (List.replicate n 0)).barn
    poison := m.poison.clear (ceilDiv a 64) ((a + n) / 64) }

/-- ENABLE of a domain (Table 6-9). -/
def State.domEnable (k : Nat) (s : State) : State :=
  match s.dom k with
  | .off =>
    let fjid := s.rf (Adr.DOM_FJID k) 19 0
    let K := s.domK k
    let base := s.rg64 (Adr.DOM_DIR_BASE_LO k)
    let trk := s.rf (Adr.DOM_TRK_LIMIT k) 13 0
    let tmo := s.rf (Adr.DOM_SNOOP_TIMEOUT k) 19 0
    let total := ((List.range 16).filter fun i => s.dom i != .off).foldl (fun n i => n + dirSize (s.domK i)) (dirSize K)
    if (s.domOf fjid).isSome || decide (K < 10) || decide (23 < K) || trk == 0 || decide (8192 < trk) || tmo == 0
        || decide (1000000 < tmo) || base % 2 ^ 20 != 0 || decide (barnSize < base + 1024 * 2 ^ K) then s.domReject k 1
    else if 2 ^ 27 < total then s.domReject k 2
    else ((s.zeroBarn base (1024 * 2 ^ K)).setDom k .init).domReject k 0
  | .init | .active => s
  | _ => s.domReject k 3

/-- Recalls of every entry of a domain (FLUSH). -/
def State.recallAll (k : Nat) (s : State) : State :=
  (s.dirEntries k).foldl (fun s e =>
    (s.takeNames 1).modHome fun h =>
      { h with waiting := h.waiting.set s.nextId (some { dom := k, line := e.2.line }) }) s

/-- FLUSH of a domain. -/
def State.domFlush (k : Nat) (s : State) : State :=
  match s.dom k with
  | .active => ((s.recallAll k).setDom k .flushing).domReject k 0
  | .flushing => s
  | _ => s.domReject k 3

/-- RESET of a domain. -/
def State.domReset (k : Nat) (s : State) : State :=
  match s.dom k with
  | .down => (s.setDom k .off).domReject k 0
  | .off => s
  | _ => s.domReject k 3

def execDomEnable (src : Source) (k : Nat) (s : State) : Host.Outcome State Fault Refusal :=
  .next (s.guarded src (Adr.DOM_CTRL k) .wo (·.domEnable k))
def execDomFlush (src : Source) (k : Nat) (s : State) : Host.Outcome State Fault Refusal :=
  .next (s.guarded src (Adr.DOM_CTRL k) .wo (·.domFlush k))
def execDomReset (src : Source) (k : Nat) (s : State) : Host.Outcome State Fault Refusal :=
  .next (s.guarded src (Adr.DOM_CTRL k) .wo (·.domReset k))

/-- A walk of the domain's poison writes is still out. -/
def State.walkOut (s : State) (k : Nat) : Bool :=
  s.ttu.reqs.any fun e => match e.2 with
    | some r => r.kind == .home (2 ^ 20 + k)
    | none => false

/-- DOM_SWEEP_DONE (Table 6-9): the INIT sweep, the flush or the down walk ends. -/
def execDomSweepDone (k : Nat) (s : State) : Host.Outcome State Fault Refusal :=
  .next (match s.dom k with
    | .init => (s.setDom k .active).raiseInt .dom k 0
    | .flushing =>
      let busy := s.trkUsed k != 0 || (s.home.waiting.any fun e => match e.2 with
        | some w => w.dom == k
        | none => false)
      if busy then s
      else if (s.dirEntries k).isEmpty then (s.setDom k .off).raiseInt .dom k 2 else s.recallAll k
    | .downWalk => if s.walkOut k then s else s.setDom k .down
    | _ => s)

end Sys2Proof.Machine
end

