-- ==== Sys2Proof/Machine/Tier.lean ====
section
/-! DEFINITION. Commands of the tier engine (chapter 8): enabling it, the commands of Table 8-4, the ends of
fills and writebacks (R195). -/

set_option Elab.async false

namespace Sys2Proof.Machine
open Sys2Proof

/-! ### Regions in the barn (R187, R189) -/

/-- The cache and the frame records, while the engine is enabled. -/
def State.tierRegions (s : State) : List (Nat × Nat) :=
  let n := 2 ^ (s.tierK + 4)
  [(s.rg64 Adr.TIER_CACHE_BASE_LO, 65536 * n), (s.rg64 Adr.TIER_FTAB_BASE_LO, 64 * n)]

/-- The map and the block table, while the granary is not OFF. -/
def State.granRegions (s : State) : List (Nat × Nat) :=
  [(s.rg64 Adr.GRAN_MAP_BASE_LO, 4 * (s.rg Adr.GRAN_LOGICAL_UNITS).toNat),
    (s.rg64 Adr.GRAN_BLK_BASE_LO, 8 * 256 * s.granBlocks)]

/-- Regions that overlap or pass 288 GiB. -/
def regionsBad (rs : List (Nat × Nat)) : Bool :=
  (rs.any fun r => decide (barnSize < r.1 + r.2)) ||
    (List.range rs.length).any fun i => (List.range i).any fun j =>
      let a := rs.getD i (0, 0)
      let b := rs.getD j (0, 0)
      decide (a.1 < b.1 + b.2) && decide (b.1 < a.1 + a.2)

/-! ### Enable and disable (R213) -/

def State.tierReject (r : Nat) (s : State) : State := s.setRf Adr.TIER_STATUS 3 0 r

/-- CTRL.EN := 1 (log entry 18: regions of a unit that is off are not placed). -/
def State.tierEnable (s : State) : State :=
  if s.tierOn then s
  else
    let k := s.tierK
    let rs := s.tierRegions ++ (if s.gran.st == .off then [] else s.granRegions)
    if k < 6 ∨ 18 < k ∨ s.rg64 Adr.TIER_CACHE_BASE_LO % 65536 ≠ 0 ∨ s.rg64 Adr.TIER_FTAB_BASE_LO % 4096 ≠ 0 then
      s.tierReject 1
    else if regionsBad rs then s.tierReject 2
    else ((s.setRf Adr.TIER_CTRL 0 0 1).setRg Adr.TIER_STATUS (w32 (2 ^ 31))).zeroBarn
      (s.rg64 Adr.TIER_FTAB_BASE_LO) (64 * 2 ^ (k + 4))

/-- CTRL.EN := 0: refused while frames are used (3) or a command runs (4). -/
def State.tierDisable (s : State) : State :=
  if !s.tierOn then s
  else if s.tier.frames.any fun e => e.2.valid then s.tierReject 3
  else if s.tier.cmd.isSome then s.tierReject 4
  else (s.setRf Adr.TIER_CTRL 0 0 0).setRg Adr.TIER_STATUS 0

def State.writeTierCtrl (v : Word) (s : State) : State := if bit v 0 then s.tierEnable else s.tierDisable

def execTierEnable (src : Source) (s : State) : Host.Outcome State Fault Refusal :=
  .next (s.guarded src Adr.TIER_CTRL .rw (·.writeTierCtrl 1))
def execTierDisable (src : Source) (s : State) : Host.Outcome State Fault Refusal :=
  .next (s.guarded src Adr.TIER_CTRL .rw (·.writeTierCtrl 0))

/-! ### Tier commands (R198, Table 8-4) -/

def State.tierResult (r : Nat) (s : State) : State := s.modTier fun t => { t with cmd := t.cmd.map fun c => { c with result := r } }

/-- A unit is not staged or pinned: RESULT 2, CMD_SKIPPED. -/
def State.tierSkip (s : State) : State :=
  (s.tierResult 2).setRf Adr.TIER_CMD_SKIPPED 23 0 (s.rf Adr.TIER_CMD_SKIPPED 23 0 + 1)

/-- Fill every sector of a frame that is not valid. -/
def State.stageFrame (f : Nat) (s : State) : State :=
  if (s.frame f).gran then (if (s.frame f).sect.isEmpty then s.granFill f else s)
  else (List.range 16).foldl (fun s sec =>
    if (s.frame f).valid && (s.frame f).sect.get sec == .invalid then s.fillSector f sec else s) s

def State.setPin (f : Nat) (v : Bool) (s : State) : State := s.setFrame f { s.frame f with pin := v }

/-- Pinned ways of the set of a unit. -/
def State.pinnedWays (s : State) (u : Nat) : Nat :=
  (((List.range 16).map (16 * s.setOf u + ·)).filter fun f => (s.frame f).valid && (s.frame f).pin).length

def Frame.has (x : Frame) (st : Sector) : Bool := x.sect.any fun e => e.2 == st

/-- STAGE and STAGE_PIN reach a unit: whether it is done with. A unit that cannot be filled at all counts
as one without a way (log entry 19). -/
def State.stageUnit (pin : Bool) (entry u : Nat) (s : State) : Bool × State :=
  let full := pin && decide (12 ≤ s.pinnedWays u)
  match s.frameOf u with
  | some f =>
    if (s.frame f).evict then (false, s)
    else if full && !(s.frame f).pin then (true, s.tierSkip)
    else (true, (if pin then s.setPin f true else s).stageFrame f)
  | none =>
    let gran := poolKind (s.poolEntry entry) == 2
    if !s.tierOn || full || (gran && (s.granStatus false).isSome) then (true, s.tierSkip)
    else match s.takeWay u entry with
      | (.got f, s) => (true, (if pin then s.setPin f true else s).stageFrame f)
      | (.wait, s) => (false, s)
      | (.none_, s) => (true, s.tierSkip)

/-- One unit of a command (Table 8-4): whether it is done with; fills and writebacks in progress are
waited for (Table 8-3). -/
def State.tierUnit (c : TierCmd) (u : Nat) (s : State) : Bool × State :=
  match c.op with
  | 1 => s.stageUnit false c.entry u
  | 2 => s.stageUnit true c.entry u
  | op => match s.frameOf u with
    | none =>
      let lu := s.granLu (u * 65536)
      if op = 7 ∧ (s.mapPun lu).isSome ∧ lu < (s.rg Adr.GRAN_LOGICAL_UNITS).toNat
          ∧ s.rg64 Adr.GRAN_PPA_BASE_LO ≤ u * 65536 ∧ s.gran.st == .ready then
        if 131072 ≤ s.gran.journal.length then (false, s) else (true, s.mapChange lu none)
      else (true, s)
    | some f =>
      let x := s.frame f
      if op = 3 then (true, s.setPin f false)
      else
        let s := if op = 5 then s.setPin f false else s
        if x.has .filling || x.has .writing then (false, s)
        else if op = 4 then (true, s.flushFrame f)
        else if op = 5 then (true, s.evictFrame f)
        else if op = 6 then (true, s.setFrame f {})
        else
          let lu := s.granLu (u * 65536)
          if (s.mapPun lu).isNone || s.gran.st != .ready then (true, s.setFrame f {})
          else if 131072 ≤ s.gran.journal.length then (false, s)
          else (true, (s.setFrame f {}).mapChange lu none)

/-- Run the command in progress as far as it goes. -/
def State.tierRunN : Nat → State → State
  | 0, s => s
  | n + 1, s => match s.tier.cmd with
    | none => s
    | some c =>
      if c.units ≤ c.next then s
      else match s.tierUnit c (c.first + c.next) with
        | (false, s) => s
        | (true, s) =>
          let s := (s.modTier fun t => { t with cmd := t.cmd.map fun d => { d with next := c.next + 1 } }).setRg
            Adr.TIER_CMD_PROGRESS (w32 (c.next + 1))
          State.tierRunN n s

def State.tierRun (s : State) : State :=
  match s.tier.cmd with
  | none => s
  | some c => State.tierRunN (c.units - c.next) s

/-- The pool map entry that holds every unit of a range. -/
def State.tierEntry (s : State) (ppa units : Nat) : Option Nat :=
  match s.poolFind ppa with
  | none => none
  | some i =>
    let e := s.poolEntry i
    let clear (j : Nat) : Bool :=
      let d := s.poolEntry j
      nbits d 127 127 == 0 || poolBad d || decide (ppa + 65536 * units ≤ poolBase d) || decide (poolBase d + poolSize d ≤ ppa)
    if decide (ppa + 65536 * units ≤ poolBase e + poolSize e) && (List.range i).all clear then some i else none

/-- A write of CMD with GO. -/
def State.tierGo (op : Nat) (s : State) : State :=
  if s.tier.cmd.isSome then s.bump Adr.TIER_CMD_IGNORED 1
  else
    let ppa := s.rg64 Adr.TIER_ARG_PPA_LO
    let units := s.rf Adr.TIER_ARG_UNITS 23 0
    let refuse (r : Nat) : State := s.setRf Adr.TIER_CMD_STATUS 3 0 r
    if op = 0 ∨ 7 < op ∨ units = 0 ∨ ppa % 65536 ≠ 0 then refuse 1
    else match s.tierEntry ppa units with
      | none => refuse 1
      | some i =>
        if op = 7 ∧ poolKind (s.poolEntry i) ≠ 2 then refuse 4
        else
          let s := s.modTier fun t => { t with cmd := some { op := op, entry := i, first := ppa / 65536, units := units } }
          (((s.setRg Adr.TIER_CMD_STATUS (w32 (2 ^ 31))).setRg Adr.TIER_CMD_PROGRESS 0).setRg Adr.TIER_CMD_SKIPPED 0).tierRun

def execTierStage (src : Source) (s : State) : Host.Outcome State Fault Refusal :=
  .next (s.guarded src Adr.TIER_CMD .wo (·.tierGo 1))
def execTierStagePin (src : Source) (s : State) : Host.Outcome State Fault Refusal :=
  .next (s.guarded src Adr.TIER_CMD .wo (·.tierGo 2))
def execTierUnpin (src : Source) (s : State) : Host.Outcome State Fault Refusal :=
  .next (s.guarded src Adr.TIER_CMD .wo (·.tierGo 3))
def execTierFlush (src : Source) (s : State) : Host.Outcome State Fault Refusal :=
  .next (s.guarded src Adr.TIER_CMD .wo (·.tierGo 4))
def execTierEvict (src : Source) (s : State) : Host.Outcome State Fault Refusal :=
  .next (s.guarded src Adr.TIER_CMD .wo (·.tierGo 5))
def execTierDiscard (src : Source) (s : State) : Host.Outcome State Fault Refusal :=
  .next (s.guarded src Adr.TIER_CMD .wo (·.tierGo 6))
def execTierTrim (src : Source) (s : State) : Host.Outcome State Fault Refusal :=
  .next (s.guarded src Adr.TIER_CMD .wo (·.tierGo 7))

/-- TIER_CMD_DONE: every unit is processed, and the fills or writebacks of the range have ended. -/
def execTierCmdDone (s : State) : Host.Outcome State Fault Refusal :=
  .next (
    let s := s.tierRun
    match s.tier.cmd with
    | none => s
    | some c =>
      let busy (x : Frame) : Bool := x.valid && decide (c.first ≤ x.unit) && decide (x.unit < c.first + c.units)
        && (((c.op == 1 || c.op == 2) && x.has .filling) || ((c.op == 4 || c.op == 5) && x.has .writing))
      if c.next < c.units || s.tier.frames.any (fun e => busy e.2) then s
      else ((s.modTier fun t => { t with cmd := none }).setRg Adr.TIER_CMD_STATUS (w32 c.result)).raiseInt .tier 0 0)

/-! ### Fills and writebacks end (R194, R195) -/

/-- The requests whose issued parts meet a set, in order of arrival. -/
def State.tierWaiters (s : State) (hit : Seg → Bool) : List (Nat × Nat) :=
  (s.ttu.reqs.filterMap fun e => e.2.map fun r =>
    ((List.range r.parts.length).filter fun k => match r.parts[k]? with
      | some p => p.st == .issued && !p.second && (match p.tgt with | .tier => true | .thru _ _ => true | _ => false)
          && p.sectors.any hit
      | none => false).map fun k => (e.1, k)).flatten

/-- Waiting requests of a set go on in order of arrival. -/
def State.wakeSet (set : Nat) (s : State) : State :=
  ((s.tierWaiters fun g => s.setOf (g.ppa / 65536) == set).foldl (fun s w => (s.tierTry w.1 w.2).settle w.1) s).tierRun

/-- Waiters of a sector whose fill failed end with its status. -/
def State.failWaiters (u sec st : Nat) (s : State) : State :=
  (s.tierWaiters fun g => g.ppa / 65536 == u && g.ppa / 4096 % 16 == sec).foldl (fun s w =>
    (s.endPart w.1 w.2 fun p => { p with status := st, data := [] }).settle w.1) s

/-- A sector's data arrive in its frame with their poison marks (R191). -/
def State.fillData (f sec : Nat) (data : List Byte) (pm : Nat) (s : State) : State :=
  let a := s.frameAt f (4096 * sec)
  let s := (s.setBarn a (data.take 4096)).bump Adr.TIER_FILL_BYTES 4096
  (List.range 64).foldl (fun s i => s.setPoison (a / 64 + i) (pm.testBit i)) s

/-- The request that fills or writes back a sector, once done. -/
def State.tierJob (s : State) (kind : ReqKind) : Option (Nat × Req) :=
  s.ttu.reqs.findSome? fun e => e.2.bind fun r => if r.kind = kind ∧ r.done then some (e.1, r) else none

/-- FILL_DONE (R195) of sector `sec` of frame `f`: the data of its target, or zeros of an unmapped granary
unit, have arrived, or its fill failed. -/
def execFillDone (f sec : Nat) (s : State) : Host.Outcome State Fault Refusal :=
  .next (
    let x := s.frame f
    if x.sect.get sec != .filling then s
    else if x.gran then
      if s.gran.reads.any fun r => r.frame == some f then s
      else ((s.fillData f sec (List.replicate 4096 0) 0).setSector f sec .clean).wakeSet (f / 16)
    else match s.tierJob (.fill f sec 1) with
      | none => s
      | some (id, r) =>
        let (st, data, pm) := r.merged
        let s := s.setReq id none
        if st = 0 then ((s.fillData f sec data pm).setSector f sec .clean).wakeSet (f / 16)
        else ((s.setSector f sec .invalid).failWaiters x.unit sec st).wakeSet (f / 16))

/-- Sectors of a frame are written back (R195): CLEAN, or INVALID if the frame is evicted; STUCK clears when
no dirty sector is left (R197). -/
def State.wbOk (f : Nat) (secs : List Nat) (s : State) : State :=
  let x := s.frame f
  let sect := secs.foldl (fun t i => t.set i (if x.evict then Sector.invalid else .clean)) x.sect
  let left := sect.any fun e => e.2 == .dirty || e.2 == .writing
  let writing := sect.any fun e => e.2 == .writing
  let s := s.bump Adr.TIER_WB_BYTES (4096 * secs.length)
  (if sect.isEmpty then s.setFrame f {}
    else s.setFrame f { x with sect := sect, stuck := x.stuck && left, evict := x.evict && writing }).wakeSet (f / 16)

/-- WRITEBACK_DONE (R195) of sector `sec` of frame `f` of a DRAM range: it completes or fails. -/
def execWritebackDone (f sec : Nat) (s : State) : Host.Outcome State Fault Refusal :=
  .next (
    let x := s.frame f
    if x.sect.get sec != .writing || x.gran then s
    else match s.tierJob (.wb f sec 1) with
      | none => s
      | some (id, r) =>
        let st := r.merged.1
        let s := s.setReq id none
        if st = 0 then s.wbOk f [sec] else (s.wbFailed f [sec]).wakeSet (f / 16))

end Sys2Proof.Machine
end

