-- ==== Sys2Proof/Machine/Gran.lean ====
section
/-! DEFINITION. Commands of the granary (R200 to R212): states, flash operations as they end, garbage
collection and wear levelling, journal and checkpoint, the walk of the block table. -/

set_option Elab.async false

namespace Sys2Proof.Machine
open Sys2Proof

def State.granReject (r : Nat) (s : State) : State := s.setRf Adr.GRAN_STATUS 11 8 r
/-- Enter a state; the arm record is written before READY and READ_ONLY (R447). -/
def State.setGran (x : GranSt) (s : State) : State :=
  (if x = .ready ∨ x = .readOnly then s.arm else s).modGran fun g => { g with st := x }

/-- All block numbers of the geometry. -/
def State.allBlocks (s : State) : List Nat := ((List.range s.granChans).map s.chanBlocks).flatten

/-- Good blocks a channel needs (R207). -/
def State.spareNeed (s : State) : Nat :=
  ceilDiv (s.rg Adr.GRAN_LOGICAL_UNITS).toNat (2 ^ (s.rf Adr.GRAN_GEOM 2 0 + s.granU)) + s.rf Adr.GRAN_SPARE_MIN 15 0
    + 2 * s.granDies

/-- Whether some channel has fewer good blocks than it needs. -/
def State.spareShort (s : State) : Bool :=
  (List.range s.granChans).any fun c =>
    decide (((s.chanBlocks c).filter fun b => blkSt (s.blk b) != 4).length < s.spareNeed)

/-- Fields out of range (REJECT 1). -/
def State.granFieldsBad (s : State) : Bool :=
  let lu := (s.rg Adr.GRAN_LOGICAL_UNITS).toNat
  decide (4 < s.rf Adr.GRAN_GEOM 2 0) || decide (s.granU < 4) || decide (10 < s.granU) || decide (1 < s.rf Adr.GRAN_GEOM 25 24)
    || s.granBlocks == 0 || decide (2 ^ (23 - s.granU) < s.granBlocks) || lu == 0 || decide (2 ^ 31 < lu)
    || s.rg64 Adr.GRAN_PPA_BASE_LO % 2 ^ 28 != 0 || s.rg64 Adr.GRAN_MAP_BASE_LO % 4096 != 0
    || s.rg64 Adr.GRAN_BLK_BASE_LO % 4096 != 0 || s.rf Adr.GRAN_RD_LIMIT 20 0 == 0 || s.rf Adr.GRAN_CKPT_INTERVAL 19 0 == 0

/-- Regions that overlap or pass 288 GiB (REJECT 2). -/
def State.granRegionsBad (s : State) : Bool :=
  regionsBad (s.granRegions ++ (if s.tierOn then s.tierRegions else []))

/-- EN := 1 (Table 8-10). -/
def State.granEnable (s : State) : State :=
  match s.gran.st with
  | .off =>
    if s.granFieldsBad then s.granReject 1
    else if s.granRegionsBad then s.granReject 2
    else ((s.setRf Adr.GRAN_CTRL 0 0 1).granReject 0).setGran .restoring
  | .formatting => s.granReject 4
  | _ => s

/-- Program every waiting journal record, 2,048 a page (R209). -/
def State.flushJournal : Nat → State → State
  | 0, s => s
  | n + 1, s =>
    if s.gran.journal.isEmpty then s
    else
      let s' := (s.emit (.nandMeta false (s.gran.journal.take 2048))).modGran fun g => { g with
        journal := g.journal.drop 2048, jpages := g.jpages + 1, jtime := s.ns }
      State.flushJournal n s'

/-- The whole map, as a checkpoint holds it. -/
def State.mapList (s : State) : List (Nat × Nat) :=
  (List.range (s.rg Adr.GRAN_LOGICAL_UNITS).toNat).filterMap fun lu => (s.mapPun lu).map fun p => (lu, p)

/-- EN := 0 (Table 8-10). -/
def State.granDisable (s : State) : State :=
  match s.gran.st with
  | .off => s
  | .failed => ((s.setRf Adr.GRAN_CTRL 0 0 0).granReject 0).modGran fun g => { g with st := .off, scan := true }
  | .ready | .readOnly =>
    if s.tier.frames.any fun e => e.2.valid && e.2.gran then s.granReject 3
    else
      let s := State.flushJournal 64 s
      (((((s.emit (.nandMeta true s.mapList)).modGran fun g => { g with jpages := 0, st := .off }).setRf Adr.GRAN_CTRL 0 0 0)).granReject 0).disarm
  | _ => s.granReject 4

def execGranEnable (src : Source) (s : State) : Host.Outcome State Fault Refusal :=
  .next (s.guarded src Adr.GRAN_CTRL .rw (·.granEnable))
def execGranDisable (src : Source) (s : State) : Host.Outcome State Fault Refusal :=
  .next (s.guarded src Adr.GRAN_CTRL .rw (·.granDisable))

/-- Write block table entries, the others FREE; the erase counts of a format are open. -/
def State.writeBlocks (f : Nat → Nat) (s : State) : State :=
  s.allBlocks.foldl (fun s b => s.setBlk b (f b)) s

/-- FORMAT (R207): `bad` are the blocks with the factory mark, `spare` the spare bytes per 16 KiB that the
ONFI parameter pages report. -/
def State.granFormat (bad : List Nat) (spare : Nat) (s : State) : State :=
  if s.gran.st != .off then s.granReject 4
  else
    let good (c : Nat) : Nat := ((s.chanBlocks c).filter fun b => !bad.contains b).length
    if s.granFieldsBad || decide (spare < 1664) || (List.range s.granChans).any fun c => decide (good c < s.spareNeed) then
      s.granReject 1
    else if s.granRegionsBad then s.granReject 2
    else
      let k := s.free
      let s := s.takeFrees (256 * s.granBlocks)
      let s := s.writeBlocks fun b => blkWord (if bad.contains b then 4 else 0) (Config.free (k + b) % 2 ^ 20) 0 0
      let s := s.zeroBarn (s.rg64 Adr.GRAN_MAP_BASE_LO) (4 * (s.rg Adr.GRAN_LOGICAL_UNITS).toNat)
      ((s.setRg Adr.GRAN_MAPPED_UNITS 0).granReject 0).modTier fun t => { t with gran := { ({} : GranUnit) with st := .formatting } }

def execGranFormat (src : Source) (bad : List Nat) (spare : Nat) (s : State) : Host.Outcome State Fault Refusal :=
  .next (s.guarded src Adr.GRAN_CTRL .rw (·.granFormat bad spare))

/-- Good blocks below the count of R207: READ_ONLY and SPARE_LOW. -/
def State.spareCheck (s : State) : State :=
  if s.gran.st == .ready && s.spareShort then (s.setGran .readOnly).raise Err.gran_SPARE_LOW 0 [] none else s

/-- Put map entries over a list of them; a word of 0 unmaps. -/
def overlay (map late : List (Nat × Nat)) : List (Nat × Nat) :=
  late.foldl (fun m e => m.filter (fun x => x.1 != e.1) ++ (if e.2 = 0 then [] else [(e.1, e.2 % 2 ^ 31)])) map

/-- The map and the block table as the flash gives them back (R210): VALID counts the map's entries. -/
def State.granLoad (map blks : List (Nat × Nat)) (s : State) : State :=
  let n := (s.rg Adr.GRAN_LOGICAL_UNITS).toNat
  let ok := map.filter fun e => decide (e.1 < n) && decide (e.2 < 2 ^ 31) && decide (punBlock s.granU e.2 < s.granBlocks)
    && punChan e.2 == s.luChan e.1 && decide (punDie e.2 < s.granDies)
  let s := s.zeroBarn (s.rg64 Adr.GRAN_MAP_BASE_LO) (4 * n)
  let s := s.writeBlocks fun b =>
    let e := ((blks.find? fun x => x.1 == b).map (·.2)).getD 0
    blkWord (min (blkSt e) 4) (blkErases e) (blkReads e) 0
  let s := s.setRg Adr.GRAN_MAPPED_UNITS 0
  let s := ok.foldl (fun s e => s.mapChange e.1 (some e.2)) s
  s.modGran fun g => { g with journal := [], jpages := 0 }

/-- Restoring ends (R210, R453): checkpoint and META journal, then the save set's records, which are programmed into
META blocks, then the units of OPEN blocks that are newer. -/
def State.granRestored (map late blks : List (Nat × Nat)) (s : State) : State :=
  let saved := s.savedJournal
  let all := overlay (overlay map saved) (late.map fun e => (e.1, 2 ^ 31 + e.2))
  let s := s.granLoad all blks
  let s := if saved.isEmpty then s else s.emit (.nandMeta false saved)
  let s := s.modPwr fun p => { p with replayed := true }
  ((s.setGran .ready).modGran fun g => { g with scan := false }).spareCheck

/-- GRAN_WORK_DONE (Table 8-10): formatting or restoring ends. The flash gives the map (LU, PUN) of checkpoint and
META journal, the newer units of OPEN blocks, and the block table entries; `metaFail`: its journal or checkpoint is
unreadable. -/
def execGranWorkDone (map late blks : List (Nat × Nat)) (metaFail : Bool) (s : State) :
    Host.Outcome State Fault Refusal :=
  .next (match s.gran.st with
    | .formatting =>
      if metaFail then (s.setGran .failed).raise Err.gran_META_UNCORR 0 [] none else s.setGran .ready
    | .restoring =>
      if metaFail then (s.setGran .failed).raise Err.gran_META_UNCORR 0 [] none
      else s.granRestored map late blks
    | _ => s)

/-! ### Flash operations end -/

/-- A relocation's sector has been read; with all 16 the unit is programmed again. -/
def State.relocSector (r : NandRead) (data : List Byte) (pm : Nat) (s : State) : State :=
  match s.gran.relocs.find? fun x => x.pun == r.pun with
  | none => s
  | some x =>
    let x' := { x with got := x.got.set r.sec (some data), poison := x.poison ||| pm * 2 ^ (64 * r.sec) }
    if x'.got.length < 16 then
      s.modGran fun g => { g with relocs := g.relocs.map fun y => if y.pun = r.pun then x' else y }
    else
      (s.modGran fun g => { g with relocs := g.relocs.filter fun y => y.pun != r.pun }).addProg
        { lu := x.lu, pun := none, frame := none, old := some x.pun
          data := ((List.range 16).map fun i => (x'.got.get i).getD []).flatten, poison := x'.poison }

/-- A sector has been decoded, right or with every line poisoned. -/
def State.sectorDecoded (r : NandRead) (data : List Byte) (pm : Nat) (s : State) : State :=
  let s := s.modGran fun g => { g with reads := g.reads.filter fun x => !(x.pun == r.pun && x.sec == r.sec && x.frame == r.frame) }
  let s := match r.frame with
    | some f =>
      if (s.frame f).gran && (s.frame f).sect.get r.sec == Sector.filling && s.granLu ((s.frame f).unit * 65536) == r.lu then
        ((s.fillData f r.sec data pm).setSector f r.sec .clean).wakeSet (f / 16)
      else s
    | none => s.relocSector r data pm
  s.issueErases

/-- NAND_READ_DONE (R208): the read of sector `sec` of unit `pun` ends at its retry level: decoded with
`corr` corrected bits, or not; `poison` is the sector's part of the unit's poison map. Level 16 is the soft
decode. -/
def execNandReadDone (pun sec : Nat) (ok : Bool) (corr : Nat) (data : List Byte) (poison : Nat) (s : State) :
    Host.Outcome State Fault Refusal :=
  .next (match s.gran.reads.find? fun r => r.pun == pun && r.sec == sec with
    | none => s
    | some r =>
      if ok then
        let s := if corr = 0 then s
          else (s.bump Adr.GRAN_LDPC_CORR 1).raise Err.gran_LDPC_CORR 0 [] none
        let s := s.sectorDecoded r data (poison % 2 ^ 64)
        if corr ≠ 0 ∧ s.rf Adr.GRAN_LDPC_CFG 15 8 ≤ corr ∧ s.mapPun r.lu = some pun then s.relocUnit r.lu pun else s
      else if r.level < 16 then
        let level := if r.level < s.rf Adr.GRAN_LDPC_CFG 3 0 then r.level + 1 else 16
        let s := s.modGran fun g => { g with reads := g.reads.map fun x => if x = r then { x with level := level } else x }
        let s := (s.countReads (s.bnOf pun) (if level = 16 then 3 else 1)).emit (.nandRead pun sec level)
        (if level = 16 then s else s.bump Adr.GRAN_READ_RETRIES 1).readDisturb (s.bnOf pun)
      else
        let s := (s.bump Adr.GRAN_LDPC_UNCORR 1).raise Err.gran_GRAN_UNCORR 0 [r.lu] none
        let s := s.sectorDecoded r data (2 ^ 64 - 1)
        if s.mapPun r.lu = some pun then s.relocUnit r.lu pun else s)

/-- A block goes BAD: it takes no more units, its valid ones move away (R204). -/
def State.blockBad (bn : Nat) (s : State) : State :=
  ((s.closeBlock bn).blkState bn 4).modGran fun g => { g with emptying := g.emptying.filter (· != bn) }

/-- A program has ended well: the map changes (R204, R205). -/
def State.progOk (p : Prog) (pun : Nat) (s : State) : State :=
  let s := s.modGran fun g => { g with progs := g.progs.erase p }
  let s := match p.old with
    | none => s.mapChange p.lu (some pun)
    | some q => if s.mapPun p.lu = some q then s.mapChange p.lu (some pun) else s
  let s := match p.frame with
    | some f => s.wbOk f (List.range 16)
    | none => s
  let s := if blkSt (s.blk (s.bnOf pun)) = 4 ∧ s.mapPun p.lu = some pun then s.relocUnit p.lu pun else s
  s.eraseEmptied

/-- NAND_PROGRAM_DONE (R204): the program of unit `pun` ends. With a full journal the map change waits
(Table 8-14). -/
def execNandProgramDone (pun : Nat) (ok : Bool) (s : State) : Host.Outcome State Fault Refusal :=
  .next (match s.gran.progs.find? fun p => p.pun == some pun with
    | none => s
    | some p =>
      if ok then (if 131072 ≤ s.gran.journal.length then s else s.progOk p pun)
      else
        let s := (s.bump Adr.GRAN_PROG_FAILS 1).raise Err.gran_PROG_FAIL 0 [] none
        let s := (s.modGran fun g => { g with progs := g.progs.erase p }).blockBad (s.bnOf pun)
        ((s.addProg { p with pun := none }).moveBlock (s.bnOf pun)).spareCheck)

/-- NAND_ERASE_DONE (R204): the erase of block `bn` ends. -/
def execNandEraseDone (bn : Nat) (ok : Bool) (s : State) : Host.Outcome State Fault Refusal :=
  .next (
    if !s.gran.erases.contains (bn, true) then s
    else
      let s := s.modGran fun g => { g with erases := g.erases.erase (bn, true) }
      if ok then (s.setBlk bn (blkWord 0 (blkErases (s.blk bn) + 1) 0 0)).placeProgs
      else (((s.bump Adr.GRAN_ERASE_FAILS 1).raise Err.gran_ERASE_FAIL 0 [] none).blockBad bn).spareCheck)

/-! ### Relocation rounds -/

/-- FULL blocks of a channel that are not being emptied or erased. -/
def State.fullBlocks (s : State) (c : Nat) : List Nat :=
  (s.chanBlocks c).filter fun b =>
    blkSt (s.blk b) == 2 && !s.gran.emptying.contains b && !(s.gran.erases.any fun e => e.1 == b)

/-- GC_ROUND (R205) on channel `c`: it runs from GC_LOW free blocks down, until GC_HIGH. -/
def execGcRound (c : Nat) (s : State) : Host.Outcome State Fault Refusal :=
  .next (
    if s.gran.st != .ready || decide (s.granChans ≤ c) || s.gran.emptying.any fun b => b % 16 == c then s
    else
      let n := (s.chanFree c).length
      let run := if n ≤ s.rf Adr.GRAN_GC_CFG 15 0 then true
        else if s.rf Adr.GRAN_GC_CFG 31 16 ≤ n then false else s.gran.gc.get c
      let s := s.modGran fun g => { g with gc := g.gc.set c run }
      if !run then s
      else match argmin (fun b => blkValid (s.blk b) * 2 ^ 31 + b) (s.fullBlocks c) with
        | none => s
        | some b => (s.relocBlock b).bump Adr.GRAN_GC_RELOCS 1)

/-- WL_RELOCATE (R206) on channel `c`. -/
def execWlRelocate (c : Nat) (s : State) : Host.Outcome State Fault Refusal :=
  .next (
    if s.gran.st != .ready || decide (s.granChans ≤ c) then s
    else
      let fs := s.fullBlocks c
      let er (b : Nat) : Nat := blkErases (s.blk b)
      match argmin er fs with
      | none => s
      | some b =>
        if er b + s.rf Adr.GRAN_WL_DELTA 15 0 < (fs.map er).foldl max 0 then
          (s.relocBlock b).bump Adr.GRAN_WL_RELOCS 1
        else s)

/-! ### Journal, checkpoint, walk -/

/-- JOURNAL_PROGRAM (R209): 2,048 records wait, or the oldest has waited 1 ms. -/
def execJournalProgram (s : State) : Host.Outcome State Fault Refusal :=
  .next (
    let g := s.gran
    if g.journal.isEmpty || !(decide (2048 ≤ g.journal.length) || decide (g.jtime + 1000000 ≤ s.ns)) then s
    else (State.flushJournal 1 s).tierRun)

/-- CHECKPOINT_WRITE (R209): after CKPT_INTERVAL journal pages. -/
def execCheckpointWrite (s : State) : Host.Outcome State Fault Refusal :=
  .next (
    if s.gran.jpages < s.rf Adr.GRAN_CKPT_INTERVAL 19 0 ∨ (s.gran.st ≠ .ready ∧ s.gran.st ≠ .readOnly) then s
    else (s.emit (.nandMeta true s.mapList)).modGran fun g => { g with jpages := 0 })

/-- GRAN_WALK_END (R212): VALID over all blocks is MAPPED_UNITS, and every block is in one of the five
states. -/
def execGranWalkEnd (s : State) : Host.Outcome State Fault Refusal :=
  .next (
    if s.gran.st ≠ .ready ∧ s.gran.st ≠ .readOnly then s
    else
      let valid := (s.allBlocks.map fun b => blkValid (s.blk b)).sum
      let mapped := s.rf Adr.GRAN_MAPPED_UNITS 30 0
      let states := (s.allBlocks.filter fun b => decide (blkSt (s.blk b) ≤ 4)).length
      if valid ≠ mapped then (s.setGran .failed).tallyMismatch 0 mapped valid Err.gran_GRAN_TALLY 0 []
      else if states ≠ s.allBlocks.length then
        (s.setGran .failed).tallyMismatch 0 s.allBlocks.length states Err.gran_GRAN_TALLY 0 []
      else s)

end Sys2Proof.Machine
end

