-- ==== Sys2Proof/Machine/CtrCore.lean ====
section
/-! DEFINITION. Sheaf counters (R287, R288) and the standing orders that watch them (R232, R233). -/

set_option Elab.async false

namespace Sys2Proof.Machine
open Sys2Proof

/-- The die of a counter (Table 1-1) and of an order slot. -/
def ctrDie (c : Nat) : Nat := c / 8192 % 2
def soDie (k : Nat) : Nat := k / 16384 % 2

def State.ctrOf (s : State) (c : Nat) : Ctr := s.ctr.ctrs.get c
def State.setCtrOf (c : Nat) (x : Ctr) (s : State) : State := s.modCtr fun u => { u with ctrs := u.ctrs.set c x }

/-- A value meets a threshold (R232, Table 2-11). -/
def meets (v t : BitVec 64) : Bool := v == t || newer v.toNat t.toNat 64

/-! ### Standing orders -/

/-- Barn address of an order slot (R232). -/
def State.soAt (s : State) (k : Nat) : Nat := s.rg64 (Adr.CARV_SO_BASE_LO (soDie k)) + 256 * (k % 16384)

def State.order (s : State) (k : Nat) : Option Order := s.ctr.orders.get k

/-- The header of Table 9-11. -/
def Order.word (o : Order) : Nat :=
  o.firedAt % 2 ^ 64 + o.step.toNat * 2 ^ 64 + o.thresh.toNat * 2 ^ 128 + o.fjid * 2 ^ 201 + o.target * 2 ^ 221
    + o.ctr * 2 ^ 235 + b2n o.rearm * 2 ^ 249 + o.action * 2 ^ 250 + (if o.triggered then 2 else 1) * 2 ^ 253

/-- Put an order into a slot, with its header in the barn; `none` makes the slot EMPTY. -/
def State.setOrder (k : Nat) (o : Option Order) (s : State) : State :=
  let h := match o with
    | some o => o.word
    | none => s.barnNum (s.soAt k) 32 % 2 ^ 253
  (s.modCtr fun u => { u with orders := u.orders.set k o }).setBarnNum (s.soAt k) 32 h

/-- An armed order triggers: FIRED_AT, and its action waits (Table 9-12). -/
def State.soTrigger (k : Nat) (o : Order) (s : State) : State :=
  (s.setOrder k (some { o with triggered := true, firedAt := s.ns })).modCtr fun u => { u with trig := u.trig ++ [k] }

/-- Evaluate the armed orders that watch a counter, in ascending slot order (R233). -/
def State.soCheck (c : Nat) (s : State) : State :=
  s.ctr.orders.foldl (fun s e => match e.2 with
    | some o => if o.ctr = c ∧ o.triggered = false ∧ meets (s.ctrOf c).value o.thresh = true then s.soTrigger e.1 o else s
    | none => s) s

/-! ### Counters (R288) -/

def State.ctrEvents (s : State) (die : Nat) : List Nat := if die = 0 then s.ctr.events0 else s.ctr.events1

/-- A counter triggers: TRIG_EN clears, the event is queued or dropped. -/
def State.ctrTrigger (c : Nat) (s : State) : State :=
  let d := ctrDie c
  let s := s.setCtrOf c { s.ctrOf c with trig := false }
  if 1024 ≤ (s.ctrEvents d).length then
    (s.bump (Adr.SHEAF_CTR_EVENT_DROP d) 1).raise Err.sheaf_CTR_EVENT_DROP d [c] none
  else
    (s.modCtr fun u => if d = 0 then { u with events0 := u.events0 ++ [c] } else { u with events1 := u.events1 ++ [c] }).raiseInt
      .sheaf d 2

/-- MET of a counter rises: vectors 2 to 7 of the VFs that are bound to its owner and name it (R417). -/
def State.ctrVectors (c : Nat) (s : State) : State :=
  let x := s.ctrOf c
  if !x.owned then s
  else (s.boundVfs x.owner).foldl (fun s f => (List.range 6).foldl (fun s i =>
    let w := s.rg (Adr.VF_CTR_VEC f i)
    if bit w 31 && bits w 13 0 == c then s.msix f (i + 2) else s) s) s

/-- MET is evaluated again; `set` says that a write of CFG has just set TRIG_EN. -/
def State.ctrEval (c : Nat) (set : Bool) (s : State) : State :=
  let x := s.ctrOf c
  let m := meets x.value x.thresh
  let s := s.setCtrOf c { x with met := m }
  let s := if m && !x.met then s.ctrVectors c else s
  if m && x.trig && (!x.met || set) then s.ctrTrigger c else s

/-- An update of a counter by a host write (no slot) or by a job slot. -/
def State.ctrUpdate (c : Nat) (slot : Option Nat) (f : BitVec 64 → BitVec 64) (s : State) : State :=
  let x := s.ctrOf c
  let refused := match slot with
    | some j => x.owned && x.owner != j
    | none => false
  if refused then
    let fjid := slot.map fun j => s.rf (Adr.JOB_FJID j) 19 0
    (s.bump (Adr.SHEAF_CTR_REFUSED (ctrDie c)) 1).raise Err.sheaf_CTR_REFUSED (ctrDie c) [c] fjid
  else ((s.setCtrOf c { x with value := f x.value }).ctrEval c false).soCheck c

/-- A counter goes up by one for a job slot. -/
def State.ctrIncr (c slot : Nat) (s : State) : State := s.ctrUpdate c (some slot) (· + 1)

/-- A counter is reachable: its index exists, and the core of its die is on. -/
def State.ctrOn (s : State) (c : Nat) : Bool := decide (c < 16384) && s.pageOn .sheaf (ctrDie c)

end Sys2Proof.Machine
end

