-- ==== Sys2Proof/Machine/Switch.lean ====
section
/-! DEFINITION. Crossing the switch: arrival and lookup (R84 to R95), the arbiter of an egress port
(R100 to R104), shapers (R105, R106), queue samples (R108). -/

set_option Elab.async false

namespace Sys2Proof.Machine
open Sys2Proof

/-! ### Arrival -/

/-- The fence group of a port, and whether it is fenced (R463, R464). -/
def State.groupOf (s : State) (p : Nat) : Nat := s.rf (Adr.PORT_FENCE p) 5 0
def State.fenced (s : State) (p : Nat) : Bool := s.flt.groups.get (s.groupOf p) != .open_

/-- The SRC_EID is inside the port's range (R120). -/
def State.srcInEdge (s : State) (p : Nat) (k : Packet) : Bool :=
  let base := s.rf (Adr.PORT_EDGE_EID p) 15 0
  decide (base ≤ k.src) && decide (k.src < base + s.rf (Adr.PORT_EDGE_EID p) 31 16)

/-- Discard what is queued for a fenced port, other than TIME and MGMT (R464). -/
def State.fenceDiscard (p : Nat) (s : State) : State :=
  let gone (q : Queued) : Bool := q.egress == p && !q.ctl
  let ids := (s.sw.queues.filter gone).map (·.id)
  let s := s.modSw fun w => { w with queues := w.queues.filter fun q => !gone q }
  (ids.foldl (fun s i => s.copyGone i) s).unstall

/-- An edge port drops it as spoofed (R120). -/
def State.spoofed (s : State) (p : Nat) (k : Packet) : Bool :=
  bit (s.rg (Adr.PORT_QOS_CFG p)) 8 && !s.srcInEdge p k &&
    (k.dst != 0xFFFF || (k.cls == 10 && (k.carvKind == 9 || k.carvKind == 10)))

/-- A MGMT packet is malformed (R462, R294). -/
def mgmtBad (k : Packet) : Bool :=
  match nbits k.spec 31 28 with
  | 1 => k.len != 48 || nbits k.spec 27 0 != 0 || nbits (k.num 16 8) 19 0 != 0
  | 2 => k.len != 32 || nbits k.spec 27 0 != 0 || k.dst != 0xFFFF || k.num 25 7 != 0
      || (k.num 24 1 != 1 && k.num 24 1 != 2)
  | 3 => k.len != 32 || nbits k.spec 15 15 != 0 || nbits (k.num 16 8) 43 0 != 0
  | _ => true

/-- Put the queue entries of a buffered packet into their queues. -/
def State.placeCopies (id : Nat) (items : List Queued) (s : State) : State :=
  s.modSw fun w => { w with
    stored := w.stored.set id { w.stored.get id with copies := items.length }
    queues := w.queues ++ items.map fun q => { q with id := id, at_ := s.ns } }

/-- Hand a buffered packet to the Ikion's own units. -/
def State.placeLocal (id : Nat) (from_ : Ingress) (k : Packet) (s : State) : State :=
  s.modSw fun w => { w with
    stored := w.stored.set id { w.stored.get id with copies := 1 }, local_ := w.local_ ++ [(id, from_, k)] }

/-- Parse, look up and queue a packet that the buffer holds under `id` (R86 to R95). -/
def State.admitPkt (p id : Nat) (k : Packet) (s : State) : State :=
  let die := portDie p
  let tc := s.tcOf p k.cls
  let drop (s : State) : State := ((s.copyGone id).countDrop p tc)
  if s.fenced p && decide (2 ≤ k.cls) then drop (s.bump (Adr.PORT_FENCE_DROP p) 1)
  else if s.spoofed p k then drop ((s.bump (Adr.TTU_EDGE_SPOOF die) 1).raise Err.ttu_EDGE_SPOOF die [p] none)
  else if k.cls = 1 ∧ mgmtBad k then
    drop ((s.bump Adr.FAULT_MGMT_BAD 1).raise Err.fault_MGMT_BAD 0 [] none)
  else
    let k := if bit (s.rg (Adr.PORT_QOS_CFG p)) 8 then k.setStamp s.stamp else k
    let s := s.tracePacket p k
    if k.dst = 0xFFFF ∨ (k.cls = 1 ∧ k.dst = s.localEid die) then s.placeLocal id (.port p) k
    else match s.lookup die k with
      | (.egress q, k, s) => s.placeCopies id [s.queueItem q k]
      | (.own, k, s) => s.placeLocal id (.port p) k
      | (r, k, s) => drop (s.dropReport die k r)

/-! ### Eligibility (R100) -/

/-- Bytes a queue entry carries, and the bytes a shaper is charged (R105). -/
def Queued.len (q : Queued) : Nat :=
  match q.load with
  | .pkt k => k.len
  | .frame b => b.length

def Queued.isFrame (q : Queued) : Bool :=
  match q.load with
  | .pkt _ => false
  | .frame _ => true

def Queued.wire (q : Queued) : Nat := if q.isFrame then q.len + 20 else q.len

/-- RATE, BURST and RESET_TO of a shaper; the balance in 1/128 bytes (R105, R106). -/
def State.shRate (s : State) (p i : Nat) : Nat := s.rf (Adr.PORT_SHAPER_CFG p i) 15 0
def State.shBurst (s : State) (p i : Nat) : Nat := s.rf (Adr.PORT_SHAPER_CFG p i) 31 16

/-- A shaper; one not listed holds its reset balance BURST × 256 at BURST 64. -/
def State.shaper (s : State) (p i : Nat) : Shaper :=
  (s.sw.shapers.get (16 * p + i)).getD { bal := 16384 * 128, start := 16384 * 128 }

def State.setShaper (p i : Nat) (v : Shaper) (s : State) : State :=
  s.modSw fun w => { w with shapers := w.shapers.set (16 * p + i) (some v) }

/-- A shaper lets a head pass: it is unshaped or holds more than zero tokens. -/
def State.tokensOk (s : State) (p i : Nat) : Bool := s.shRate p i == 0 || decide (0 < (s.shaper p i).bal)

/-- Charge a shaper (R105). -/
def State.charge (p i bytes : Nat) (s : State) : State :=
  if s.shRate p i = 0 then s
  else
    let h := s.shaper p i
    (s.setShaper p i { h with bal := h.bal - 128 * bytes, spent := h.spent + 128 * bytes }).bump
      (Adr.PORT_SHAPER_SPENT p i) bytes

/-- The traffic class is paused by PFC (R72). -/
def State.pfcClosed (s : State) (p tc : Nat) : Bool :=
  (s.port p).pfc.any fun e => e.2.paused && s.rf (Adr.PORT_PCP_MAP p) (4 * e.1 + 2) (4 * e.1) == tc

/-- A head is eligible at its egress port (R100). -/
def State.eligible (s : State) (q : Queued) : Bool :=
  let p := q.egress
  s.portActive p
    && (q.ctl || (s.admitted p q.len q.isFrame q.gated && s.ttBoundOk q))
    && s.tokensOk p q.tc && s.tokensOk p 8
    && (if s.portMode p = 1 then q.isFrame && !s.pfcClosed p q.tc
        else !q.isFrame && s.canSend p q.cls (cellsOf q.len))

/-- The virtual output queue of an entry: ingress source and class; the control queue is one. -/
def State.queueKey (s : State) (q : Queued) : Ingress × Nat × Bool :=
  if q.ctl then (.own 0, 0, true) else ((s.sw.stored.get q.id).from_, q.cls, false)

/-- The heads of the queues of a port, in order of arrival. -/
def State.headsOf (s : State) : List (Ingress × Nat × Bool) → List Queued → List Queued
  | _, [] => []
  | seen, q :: qs =>
    let k := s.queueKey q
    if seen.contains k then s.headsOf seen qs else q :: s.headsOf (k :: seen) qs

def State.heads (s : State) (p : Nat) : List Queued :=
  s.headsOf [] (s.sw.queues.filter fun q => q.egress == p)

/-! ### Arbitration (R101, R102) -/

/-- Rank of a queue entry; a frame has none of Table 3-10. -/
def Queued.rank (q : Queued) : Nat := if q.isFrame then 0 else classRank q.cls

/-- Age at 8 ns resolution, clamped at 2^30 ns (R102, Table 2-11). -/
def State.age (s : State) (q : Queued) : Nat :=
  let stamp := match q.load with
    | .pkt k => k.stamp
    | .frame _ => q.at_ % 2 ^ 32
  min ((s.stamp + 2 ^ 32 - stamp) % 2 ^ 32) (2 ^ 30) / 8

/-- Source number of an ingress: a port, or an own unit of a die. -/
def srcNum : Ingress → Nat
  | .port p => p
  | .own d => 512 + d

/-- The head that wins within one traffic class: lowest rank, greatest age, then the rotating pointer. -/
def State.winner (s : State) (p : Nat) (qs : List Queued) : Option Queued :=
  let rank := (argmin id (qs.map Queued.rank)).getD 0
  let qs := qs.filter fun q => q.rank == rank
  let top := (qs.map s.age).foldl max 0
  let qs := qs.filter fun q => s.age q == top
  argmin (fun q => (srcNum (s.sw.stored.get q.id).from_ + 1024 - s.sw.rot.get p - 1) % 1024) qs

/-- DWRR over classes with eligible heads (R101 step 5): `rr` holds twice the class visited and one
more once it has its quantum. -/
def dwrr (quantum len : Nat → Nat) (has : Nat → Bool) : Nat → Nat → Tbl Nat → Option Nat × Nat × Tbl Nat
  | 0, rr, d => (none, rr, d)
  | n + 1, rr, d =>
    let t := rr / 2 % 8
    let next := 2 * ((t + 1) % 8)
    if has t then
      let d := if rr % 2 = 0 then d.modify t (· + quantum t) else d
      if len t ≤ d.get t then (some t, 2 * t + 1, d.modify t (· - len t))
      else dwrr quantum len has n next d
    else dwrr quantum len has n next d

/-- The deficits of one port. -/
def State.deficits (s : State) (p : Nat) : Tbl Nat :=
  (List.range 8).foldl (fun d t => d.set t (s.sw.deficit.get (8 * p + t))) []

/-- Choose among eligible heads by the arbiter hierarchy; DWRR changes its pointer and deficits. -/
def State.arbitrate (p : Nat) (s : State) : Option Queued × State :=
  let hs := (s.heads p).filter s.eligible
  match hs.find? (·.ctl) with
  | some q => (some q, s)
  | none =>
    let ofTc (t : Nat) : List Queued := hs.filter fun q => q.tc == t
    let stc := s.sheafTc p
    let inWindow := (s.sheafWindow p (s.txStart p / 1000)).isSome
    let strict := s.rf (Adr.PORT_QOS_CFG p) 23 16
    if inWindow && !(ofTc stc).isEmpty then (s.winner p (ofTc stc), s)
    else
      let urgent := hs.filter (·.urgent)
      if !urgent.isEmpty then (s.winner p urgent, s)
      else match ((List.range 8).reverse).find? (fun t => strict.testBit t && !(ofTc t).isEmpty) with
        | some t => (s.winner p (ofTc t), s)
        | none =>
          let win (t : Nat) : Option Queued := s.winner p (ofTc t)
          let (r, rr, d) := dwrr (fun t => 1024 * s.rf (Adr.PORT_DWRR_WEIGHT p t) 7 0)
            (fun t => (win t).elim 0 Queued.len) (fun t => (win t).isSome) 512 (s.sw.rr.get p) (s.deficits p)
          match r with
          | none => (none, s)
          | some t => (win t, s.modSw fun w => { w with
              rr := w.rr.set p rr
              deficit := (List.range 8).foldl (fun k t => k.set (8 * p + t) (d.get t)) w.deficit })

/-- The slots of a packet for the transmit side. -/
def pktSlots (k : Packet) : List Slot :=
  let n := slotsOf k.len
  ((List.range n).zip (chunks 16 n k.wire)).map fun e => { first := e.1 == 0, data := e.2 }

/-- Grant a head: it leaves its queue and is sent (R65, R84, R101, R105). -/
def State.grant (q : Queued) (s : State) : State :=
  let p := q.egress
  let e := s.sw.stored.get q.id
  let s := s.modSw fun w => { w with
    queues := w.queues.erase q
    rot := if q.ctl then w.rot else w.rot.set p (srcNum e.from_) }
  let waited := min (s.ns - q.at_) (2 ^ 32 - 1)
  let s := if q.ctl then s else s.modSw fun w =>
    { w with maxDelay := w.maxDelay.modify (8 * p + q.tc) (max waited) }
  let s := if q.ctl || s.sw.queues.any (fun r => r.egress == p && !r.ctl && r.tc == q.tc) then s
    else s.modSw fun w => { w with deficit := w.deficit.set (8 * p + q.tc) 0 }
  let s := (s.charge p q.tc q.wire).charge p 8 q.wire
  let s := if q.urgent then s.gcount 0x06 1 (portDie p) (some p) (some q.tc) none else s
  let s := s.gcount 0x02 q.len (portDie p) (some p) (some q.tc) none
  let s := if e.die = portDie p then s else s.gcount 0x0C q.len e.die none none none
  let sent : Sending := { id := q.id, len := q.len, tc := q.tc, ctl := q.ctl, cls := q.cls
                          sid := (q.gated.sid).getD 0 }
  let s := s.modPort p fun r => { r with sending := r.sending ++ [sent] }
  match q.load with
  | .pkt k =>
    s.modPort p fun r => { r with
      tx := r.tx ++ pktSlots (k.setHops (k.hops + 1)), outc := r.outc.modify k.cls (· + cellsOf k.len) }
  | .frame b => s.emit (.frame p b)

/-- Packets of a port whose slots have not all been sent. -/
def Port.unsent (q : Port) : Nat :=
  (q.tx.filter (·.first)).length + (match q.tx with
    | [] => 0
    | x :: _ => if x.first then 0 else 1)

/-! ### Shapers (R106) -/

/-- A token reset: the balance becomes FULL or ZERO; logged and counted. -/
def State.tokenReset (p i : Nat) (full : Bool) (s : State) : State :=
  let h := s.shaper p i
  let after : Int := if full then 128 * 256 * (s.shBurst p i : Int) else 0
  let s := s.setShaper p i { h with bal := after, dreset := h.dreset + (after - h.bal) }
  let w (x : Int) : Nat := (ofInt 32 (x / 128)).toNat
  (s.logAudit 1 (pageNo .port p) (i * 2 ^ 16 + p) (w h.bal) (w after)).bump (Adr.SWCORE_SHAPER_RESETS (portDie p)) 1

/-- A write of SHAPER[i].CFG. -/
def State.writeShaperCfg (p i : Nat) (v : Word) (s : State) : State :=
  if bits v 31 16 = 0 then s
  else (s.setRg (Adr.PORT_SHAPER_CFG p i) v).tokenReset p i (bit (s.rg (Adr.PORT_SHAPER_CTRL p i)) 0)

/-- A write of SHAPER[i].CTRL. -/
def State.writeShaperCtrl (p i : Nat) (v : Word) (s : State) : State :=
  let s := s.setRg (Adr.PORT_SHAPER_CTRL p i) (v &&& 1)
  if bit v 1 then s.tokenReset p i (bit v 0) else s

/-! ### Meanings -/

/-- PACKET_RX (R84): a packet that a flit delivered, or one that arrives whole. -/
def execPacketRx (p : Nat) (pkt : Packet) (s : State) : Host.Outcome State Fault Refusal :=
  .next (
    let held (s : State) : Option (Nat × Packet) := (s.port p).inbox.find? fun e => e.2 == pkt
    let s := match held s with
      | some _ => s
      | none =>
        if !s.portActive p || s.portMode p != 0 then s
        else if pkt.badHdr || decide (pkt.body.length + 16 ≠ pkt.len) then s.malformedRx p
        else s.arrived p pkt
    match held s with
    | none => s
    | some e => (s.modPort p fun q => { q with inbox := q.inbox.erase e }).admitPkt p e.1 pkt)

/-- EGRESS_GRANT (R101). -/
def execEgressGrant (p : Nat) (s : State) : Host.Outcome State Fault Refusal :=
  .next (match (if s.fenced p then s.fenceDiscard p else s).arbitrate p with
    | (some q, s) => s.grant q
    | (none, s) => s)

/-- PACKET_TX_DONE (R96): the oldest packet being sent has left. -/
def execPacketTxDone (p : Nat) (s : State) : Host.Outcome State Fault Refusal :=
  .next (match (s.port p).sending with
    | [] => s
    | e :: rest =>
      if (s.port p).sending.length ≤ (s.port p).unsent then s
      else
        let s := s.modPort p fun q => { q with sending := rest }
        let s := (s.bump (Adr.PORT_TX_PKTS p) 1).bump (Adr.PORT_TX_BYTES p) e.len
        (s.copyGone e.id).unstall)

/-- STARVE_PROMOTE (R103): the head `id` of port `p` has been eligible longer than STARVE_CFG µs. -/
def execStarvePromote (p id : Nat) (s : State) : Host.Outcome State Fault Refusal :=
  .next (
    let lim := s.rf (Adr.PORT_STARVE_CFG p) 15 0
    match (s.heads p).find? fun q => q.id == id && !q.ctl && !q.urgent with
    | none => s
    | some q =>
      if lim ≠ 0 ∧ s.eligible q ∧ q.at_ + 1000 * lim < s.ns then
        (s.modSw fun w => { w with queues := w.queues.map fun r => if r = q then { r with urgent := true } else r }).bump
          (Adr.SWCORE_STARVE_PROMOTE (portDie p)) 1
      else s)

/-- SHAPER_CFG_WRITE (R106). -/
def execShaperCfgWrite (src : Source) (p i : Nat) (val : Word) (s : State) : Host.Outcome State Fault Refusal :=
  .next (s.guarded src (Adr.PORT_SHAPER_CFG p i) .rw fun s => if i < 9 then s.writeShaperCfg p i val else s)

/-- SHAPER_RESET (R106). -/
def execShaperReset (src : Source) (p i : Nat) (val : Word) (s : State) : Host.Outcome State Fault Refusal :=
  .next (s.guarded src (Adr.PORT_SHAPER_CTRL p i) .rw fun s => if i < 9 then s.writeShaperCtrl p i (val ||| 2) else s)

/-- The queue sample of a port and traffic class (Table 4-8). -/
def State.sampleRec (s : State) (p tc : Nat) : Nat :=
  let head := s.sw.queues.find? fun q => q.egress == p && q.tc == tc && !q.ctl
  let wait := head.elim 0 fun q => min (s.ns - q.at_) (2 ^ 32 - 1)
  s.sw.maxDelay.get (8 * p + tc) + wait * 2 ^ 32 + (s.depth p tc % 2 ^ 20) * 2 ^ 64 + tc * 2 ^ 84 + p * 2 ^ 87
    + s.stamp * 2 ^ 96

/-- Ports of a die with QOS_CFG.SAMPLE_EN. -/
def State.sampledPorts (s : State) (die : Nat) : List Nat :=
  (List.range 512).filter fun p => portDie p == die && s.portExists p && bit (s.rg (Adr.PORT_QOS_CFG p)) 9

/-- QUEUE_SAMPLE (R108). -/
def execQueueSample (die : Nat) (s : State) : Host.Outcome State Fault Refusal :=
  .next (
    let c := s.rg (Adr.SWCORE_SAMPLE_CFG die)
    if bit c 31 && s.ns % (1000 * bits c 19 0) == 0 then
      (s.sampledPorts die).foldl (fun s p => (List.range 8).foldl (fun s tc =>
        (s.sample die (s.sampleRec p tc)).modSw fun w => { w with maxDelay := w.maxDelay.set (8 * p + tc) 0 }) s) s
    else s)

end Sys2Proof.Machine
end

