-- ==== Sys2Proof/Machine/Ether.lean ====
section
/-! DEFINITION. Ethernet ports: frames (R69 to R71), the Ethernet table (R90), priority flow control
(R72 to R75), and frames that the caravan engine claims (R221). -/

set_option Elab.async false

namespace Sys2Proof.Machine
open Sys2Proof

/-! ### Frames -/

/-- Bytes in network order as a number. -/
def beNat (bs : List Byte) : Nat := bs.foldl (fun n b => n * 256 + b.toNat) 0

/-- `n` bytes of a frame at `off`, in network order. -/
def fld (f : List Byte) (off n : Nat) : Nat := beNat ((f.drop off).take n)

/-- `n` bytes of a number in network order. -/
def beBytes (n x : Nat) : List Byte := (leBytes n x).reverse

/-- The frame check sequence of a frame without FCS. -/
def fcsOf (body : List Byte) : List Byte := leBytes 4 (crc32 body).toNat

/-- A frame ended with an inverted FCS (R71). -/
def stomp (body : List Byte) : List Byte := body ++ leBytes 4 (~~~ (crc32 body)).toNat

/-- The outer 802.1Q tag is present. -/
def tagged (f : List Byte) : Bool := fld f 12 2 == 0x8100

/-- EtherType after the outer tag, and where the payload starts. -/
def etherType (f : List Byte) : Nat := fld f (if tagged f then 16 else 12) 2
def payloadAt (f : List Byte) : Nat := if tagged f then 18 else 14

/-- Priority of a frame (R68). -/
def State.prioOf (s : State) (p : Nat) (f : List Byte) : Nat :=
  if tagged f then nbits (fld f 14 2) 15 13 else s.rf (Adr.PORT_ETH_CFG p) 2 0

/-- Traffic class of a priority at a port (R68). -/
def State.pcpTc (s : State) (p prio : Nat) : Nat := s.rf (Adr.PORT_PCP_MAP p) (4 * prio + 2) (4 * prio)

/-! ### Ingress allotment (R73, R74) -/

/-- A traffic class is lossless: an enabled priority maps to it. -/
def State.lossless (s : State) (p tc : Nat) : Bool :=
  (List.range 8).any fun q => bit (s.rg (Adr.PORT_ETH_CFG p)) (8 + q) && s.pcpTc p q == tc

def State.xoff (s : State) (p tc : Nat) : Nat := s.rf (Adr.PORT_PFC_TH p tc) 31 16
def State.xon (s : State) (p tc : Nat) : Nat := s.rf (Adr.PORT_PFC_TH p tc) 15 0
def State.headroom (s : State) (p tc : Nat) : Nat := s.rf (Adr.PORT_PFC_HEADROOM p tc) 15 0

/-- S of R74: cells promised to the lossless classes. -/
def State.promised (s : State) (p : Nat) : Nat :=
  (((List.range 8).filter (s.lossless p)).map fun t => s.xoff p t + s.headroom p t).sum

/-- Cells held by a traffic class of an Ethernet port. -/
def State.occOf (s : State) (p tc : Nat) : Nat := (s.port p).occ.get tc

/-- A frame of `n` cells fits its class (R73, R74). -/
def State.fits (s : State) (p tc n : Nat) : Bool :=
  if s.lossless p tc then decide (s.occOf p tc + n ≤ s.xoff p tc + s.headroom p tc)
  else
    let held := (((List.range 8).filter fun t => !s.lossless p t).map (s.occOf p)).sum
    decide (held + n ≤ s.rf (Adr.PORT_CREDIT_LIMIT p) 16 0 - s.promised p)

/-! ### The Ethernet table (R90) -/

def ethAt (bucket way : Nat) : Nat := 0x01190000 + 16 * (4 * bucket + way)
def maskAt (m : Nat) : Nat := 0x01210000 + 64 * m

/-- VLAN ID of a frame at a port. -/
def State.vidOf (s : State) (p : Nat) (f : List Byte) : Nat :=
  if tagged f then nbits (fld f 14 2) 11 0 else s.rf (Adr.PORT_ETH_PVID p) 11 0

/-- The entry that matches a frame, if there is one. -/
def State.ethLookup (s : State) (p : Nat) (f : List Byte) : Option Nat :=
  let vid := s.vidOf p f
  let mac := fld f 0 6
  let b := hash16 (vid * 2 ^ 48 + mac) (s.seed (portDie p)) >>> 3
  ((List.range 4).map fun w => (s.view (portDie p)).entry (ethAt b w) 4).find? fun e =>
    nbits e 127 127 == 1 && nbits e 123 112 == vid && nbits e 111 64 == mac

/-- An Ethernet port in ACTIVE. -/
def State.ethUp (s : State) (p : Nat) : Bool := s.portActive p && s.portMode p == 1

/-- The egress ports an entry names, with whether one of them is missed. -/
def State.ethTargets (s : State) (die p e : Nat) : List Nat × Nat :=
  let t := nbits e 8 0
  if nbits e 124 124 ≠ 0 ∨ nbits e 63 9 ≠ 0 then ([], 1)
  else match nbits e 126 125 with
    | 0 => if s.ethUp t then ([t], 0) else ([], 1)
    | 1 =>
      if 255 < t then ([], 1)
      else
        let m := (s.view die).entry (maskAt t) 16
        let all := (List.range 512).filter fun q => m.testBit q && q != p
        (all.filter s.ethUp, (all.filter fun q => !s.ethUp q).length)
    | 2 => ([], 0)
    | _ => ([], 1)

/-- A queue entry for a frame at an egress port; frames of one traffic class share a queue. -/
def State.frameItem (s : State) (prio egress : Nat) (f : List Byte) : Queued :=
  let tc := s.pcpTc egress prio
  { egress := egress, cls := 16 + tc, tc := tc, load := .frame f }

/-- Forward a frame: `f` is looked up, `out` is what leaves (R90). -/
def State.ethForward (p : Nat) (f out : List Byte) (stomped : Bool) (s : State) : State :=
  let die := portDie p
  let tc := s.pcpTc p (s.prioOf p f)
  let (ports, missed) := match s.ethLookup p f with
    | none => ([], 1)
    | some e => s.ethTargets die p e
  let s := s.bump (Adr.SWCORE_ETH_MISS die) missed
  let s := if missed = 0 then s else s.countDrop p tc
  if ports.isEmpty then s
  else
    let s := if stomped then ports.foldl (fun s q => s.bump (Adr.PORT_TX_STOMP q) 1) s else s
    s.store (.port p) die tc (cellsOf out.length) (ports.map fun q => s.frameItem (s.prioOf p f) q out)

/-- A frame that an own unit sends on Ethernet (R220): looked up under its tag and destination. -/
def State.sendFrame (die : Nat) (f : List Byte) (s : State) : State :=
  let prio := nbits (fld f 14 2) 15 13
  let vid := if tagged f then nbits (fld f 14 2) 11 0 else 0
  let mac := fld f 0 6
  let b := hash16 (vid * 2 ^ 48 + mac) (s.seed die) >>> 3
  let e := ((List.range 4).map fun w => (s.view die).entry (ethAt b w) 4).find? fun e =>
    nbits e 127 127 == 1 && nbits e 123 112 == vid && nbits e 111 64 == mac
  let (ports, missed) := match e with
    | none => ([], 1)
    | some e => s.ethTargets die 512 e
  let s := s.bump (Adr.SWCORE_ETH_MISS die) missed
  if ports.isEmpty then s
  else s.store (.own die) die 10 (cellsOf f.length) (ports.map fun q =>
    s.frameItem (if tagged f then prio else s.rf (Adr.PORT_ETH_CFG q) 2 0) q f)

/-! ### Caravan frames (R221) -/

/-- Sum of 16-bit words in network order, an odd byte padded with zero. -/
def sum16 : List Byte → Nat
  | [] => 0
  | [a] => a.toNat * 256
  | a :: b :: t => a.toNat * 256 + b.toNat + sum16 t

/-- Fold a sum of 16-bit words to the ones' complement sum. -/
def fold16 (x : Nat) : Nat :=
  let a := x % 65536 + x / 65536
  let b := a % 65536 + a / 65536
  b % 65536 + b / 65536

/-- A caravan packet that breaks R218: class, reserved fields, KIND and length (Tables 9-1, 9-2). -/
def carvBad (k : Packet) : Bool :=
  k.badHdr || k.cls != 10 || nbits k.spec 31 14 != 0 || decide (k.len < 64) || k.cf 65 0 != 0
    || decide (10 < k.carvKind)
    || (decide (4 ≤ k.carvKind) && k.cf 319 296 != 0)
    || (match k.carvKind with
        | 0 | 2 => false
        | 9 => k.len != 112 || k.num 68 12 != 0 || nbits (k.num 64 4) 31 12 != 0
        | 10 => k.len != 336 || k.num 68 12 != 0 || nbits (k.num 64 4) 31 15 != 0
        | _ => k.len != 64)

/-- What the caravan engine of a die makes of a frame without its FCS. -/
inductive Claim where
  | no | bad | pkt (k : Packet)
  deriving DecidableEq, Repr

/-- CARV.IPV6_ADDR of a die as one number. -/
def State.ip6 (s : State) (die : Nat) : Nat :=
  (List.range 4).foldl (fun n i => n + (s.rg (Adr.CARV_IPV6_ADDR die i)).toNat * 2 ^ (32 * i)) 0

/-- The claim of R221 by the engine of a die. -/
def State.claim (s : State) (die : Nat) (f : List Byte) : Claim :=
  let o := payloadAt f
  let v4 := etherType f == 0x0800 && nbits (fld f o 1) 7 4 == 4
  let v6 := etherType f == 0x86DD && nbits (fld f o 1) 7 4 == 6
  let ihl := 4 * nbits (fld f o 1) 3 0
  let ip4 := (s.rg (Adr.CARV_IPV4_ADDR die)).toNat
  let ip6 := s.ip6 die
  let u := if v4 then o + ihl else o + 40
  let dst := if v4 then fld f (o + 16) 4 == ip4 else fld f (o + 24) 16 == ip6
  let proto := if v4 then fld f (o + 9) 1 else fld f (o + 6) 1
  if !(v4 || v6) || !dst || proto != 17 || fld f (u + 2) 2 != s.rf (Adr.CARV_UDP_PORT die) 15 0 then .no
  else
    let ulen := fld f (u + 4) 2
    let k := Packet.ofBytes ((f.drop (u + 8)).take (ulen - 8))
    let frag := v4 && nbits (fld f (o + 6) 2) 13 0 != 0
    let hsum := v4 && fold16 (sum16 ((f.drop o).take ihl)) != 0xFFFF
    let pseudo := if v4 then sum16 ((f.drop (o + 12)).take 8) + 17 + ulen
      else sum16 ((f.drop (o + 8)).take 32) + 17 + ulen
    let usum := fld f (u + 6) 2 != 0 && fold16 (pseudo + sum16 ((f.drop u).take ulen)) != 0xFFFF
    if (v4 && ihl != 20) || frag || hsum || usum || ulen != 8 + k.len || k.body.length + 16 != k.len || carvBad k then .bad
    else .pkt k

/-! ### Frames received -/

/-- The frame is a MAC Control frame with this opcode. -/
def macControl (f : List Byte) (op : Nat) : Bool := fld f 12 2 == 0x8808 && fld f 14 2 == op

/-- Pauses of a traffic class are ignored (R75). -/
def State.pauseIgnored (s : State) (p tc : Nat) : Bool :=
  (s.port p).wdIgnore.any fun e => e.1 == tc && decide (s.ns < e.2)

/-- A PFC frame with a good FCS (R72). -/
def State.pfcRx (p : Nat) (f : List Byte) (s : State) : State :=
  let s := s.bump (Adr.PORT_PFC_RX p) 1
  let en := fld f 16 2
  (List.range 8).foldl (fun s q =>
    if en.testBit q && bit (s.rg (Adr.PORT_ETH_CFG p)) (8 + q) && !s.pauseIgnored p (s.pcpTc p q) then
      s.modPort p fun r => { r with
        pfc := r.pfc.modify q fun c => { c with paused := fld f (18 + 2 * q) 2 != 0 } }
    else s) s

/-- A frame of legal length and good FCS that is not MAC control. -/
def State.frameIn (p : Nat) (f : List Byte) (s : State) : State :=
  let body := f.take (f.length - 4)
  let tc := s.pcpTc p (s.prioOf p f)
  let s := ((s.bump (Adr.PORT_RX_FRAMES p) 1).bump (Adr.PORT_RX_PKTS p) 1).bump (Adr.PORT_RX_BYTES p) f.length
  let s := s.gcount 0x01 f.length (portDie p) (some p) (some tc) none
  if s.fenced p then (s.bump (Adr.PORT_FENCE_DROP p) 1).countDrop p tc
  else if !s.fits p tc (cellsOf f.length) then (s.bump (Adr.PORT_HEADROOM_DROP p) 1).countDrop p tc
  else
    let deliver (k : Packet) (s : State) : State :=
      let id := s.nextId
      let s := s.store (.port p) (portDie p) tc (cellsOf f.length) []
      s.placeLocal id (.port p) k
    match s.claim 0 body with
    | .pkt k => deliver k s
    | .bad => (s.bump (Adr.CARV_ETH_BAD 0) 1).raise Err.carv_ETH_BAD 0 [] none
    | .no => match s.claim 1 body with
      | .pkt k => deliver k s
      | .bad => (s.bump (Adr.CARV_ETH_BAD 1) 1).raise Err.carv_ETH_BAD 1 [] none
      | .no => s.ethForward p f f false

/-- A frame received on an Ethernet port; `cut` says that it is being forwarded cut-through. -/
def State.frameRx (p : Nat) (f : List Byte) (cut : Bool) (s : State) : State :=
  let mtu := s.rf (Adr.PORT_ETH_MTU p) 13 0
  let body := f.take (f.length - 4)
  let cutOk := cut && !s.fenced p && s.fits p (s.pcpTc p (s.prioOf p f)) (cellsOf f.length)
  if f.length < 64 then s.bump (Adr.PORT_RX_RUNT p) 1
  else if mtu < f.length then
    let s := s.bump (Adr.PORT_RX_GIANT p) 1
    if cutOk then s.ethForward p f (stomp (f.take (mtu - 4))) true else s
  else if f.drop (f.length - 4) ≠ fcsOf body then
    let s := s.bump (Adr.PORT_RX_FCS_ERR p) 1
    if cutOk && fld f 12 2 != 0x8808 then s.ethForward p f (stomp body) true else s
  else if macControl f 1 then s.bump (Adr.PORT_PAUSE_DROP p) 1
  else if macControl f 0x0101 then s.pfcRx p f
  else s.frameIn p f

/-! ### PFC sent (R73) -/

/-- A PFC frame: the priorities it covers with their pause times; its source address is open. -/
def pfcFrame (src : Nat) (times : List (Nat × Nat)) : List Byte :=
  let en := (times.map fun e => 2 ^ e.1).sum
  let t (q : Nat) : Nat := ((times.find? fun e => e.1 == q).map (·.2)).getD 0
  let body := beBytes 6 0x0180C2000001 ++ beBytes 6 src ++ beBytes 2 0x8808 ++ beBytes 2 0x0101
    ++ beBytes 2 en ++ ((List.range 8).map fun q => beBytes 2 (t q)).flatten ++ List.replicate 26 0
  body ++ fcsOf body

/-- Send one PFC frame and record what the partner is told. -/
def State.sendPfc (p : Nat) (times : List (Nat × Nat)) (s : State) : State :=
  if times.isEmpty then s
  else
    let f := pfcFrame (s.freeVal % 2 ^ 48) times
    let s := ((s.takeFree.emit (.frame p f)).bump (Adr.PORT_PFC_TX p) 1)
    s.modPort p fun r => { r with
      pfc := times.foldl (fun t e => t.modify e.1 fun c => { c with sent := e.2 != 0 }) r.pfc }

/-- Enabled priorities of a port. -/
def State.pfcEnabled (s : State) (p : Nat) : List Nat :=
  (List.range 8).filter fun q => bit (s.rg (Adr.PORT_ETH_CFG p)) (8 + q)

/-- PFC frames that wait: a pause where occupancy is above XOFF, a resume where it is at XON or below. -/
def State.pfcDue (s : State) (p : Nat) : List (Nat × Nat) :=
  (s.pfcEnabled p).filterMap fun q =>
    let tc := s.pcpTc p q
    let sent := ((s.port p).pfc.get q).sent
    if !sent && decide (s.xoff p tc < s.occOf p tc) then some (q, s.rf (Adr.PORT_PFC_QUANTA p) 15 0)
    else if sent && decide (s.occOf p tc ≤ s.xon p tc) then some (q, 0)
    else none

/-! ### Meanings -/

/-- ETH_FRAME_RX (R70). -/
def execEthFrameRx (p : Nat) (frame : List Byte) (cut : Bool) (s : State) : Host.Outcome State Fault Refusal :=
  .next (if s.ethUp p then s.frameRx p frame cut else s)

/-- PFC_FRAME_RX (R72). -/
def execPfcFrameRx (p : Nat) (frame : List Byte) (s : State) : Host.Outcome State Fault Refusal :=
  .next (if s.ethUp p && macControl frame 0x0101 then s.frameRx p frame false else s)

/-- PFC_PAUSE_EXPIRE (R72): the pause time of a priority runs out. -/
def execPfcPauseExpire (p prio : Nat) (s : State) : Host.Outcome State Fault Refusal :=
  .next (s.modPort p fun q => { q with pfc := q.pfc.modify prio fun c => { c with paused := false } })

/-- PFC_SEND (R73). -/
def execPfcSend (p : Nat) (s : State) : Host.Outcome State Fault Refusal :=
  .next (if s.ethUp p then s.sendPfc p (s.pfcDue p) else s)

/-- PFC_REFRESH (R73): REFRESH quanta have passed since the pause was last sent. -/
def execPfcRefresh (p tc : Nat) (s : State) : Host.Outcome State Fault Refusal :=
  .next (
    let qs := (s.pfcEnabled p).filter fun q => s.pcpTc p q == tc && ((s.port p).pfc.get q).sent
    if s.ethUp p && decide (s.xon p tc < s.occOf p tc) then
      s.sendPfc p (qs.map fun q => (q, s.rf (Adr.PORT_PFC_QUANTA p) 15 0))
    else s)

/-- PFC_WATCHDOG (R75): traffic class `tc` has been paused for PFC_WD ms. -/
def execPfcWatchdog (p tc : Nat) (s : State) : Host.Outcome State Fault Refusal :=
  .next (
    let wd := s.rf (Adr.PORT_PFC_WD p) 15 0
    if wd = 0 ∨ !s.pfcClosed p tc then s
    else
      let mine := s.sw.queues.filter fun q => q.egress == p && q.tc == tc && !q.ctl
      let s := s.modSw fun w => { w with
        queues := w.queues.filter fun q => !(q.egress == p && q.tc == tc && !q.ctl)
        deficit := w.deficit.set (8 * p + tc) 0 }
      let s := mine.foldl (fun s q => (s.copyGone q.id).countDrop p tc) s
      let s := (s.bump (Adr.PORT_PFC_WD_DROP p) mine.length).bump (Adr.PORT_PFC_WD_FIRE p) 1
      let pcp := s.rg (Adr.PORT_PCP_MAP p)
      let s := s.modPort p fun q => { q with
        wdIgnore := (tc, s.ns + 1000000 * wd) :: q.wdIgnore.filter fun e => e.1 != tc
        pfc := q.pfc.map fun k c => if bits pcp (4 * k + 2) (4 * k) = tc then { c with paused := false } else c }
      s.raise Err.port_PFC_WATCHDOG p [] none)

end Sys2Proof.Machine
end

