-- ==== Sys2Proof/Machine/CarvCore.lean ====
section
/-! DEFINITION. The caravan engine (chapter 9): legs and their sequenced packets (R217 to R225), work
queues and completions (R226 to R228), messages (R229), failing a leg. -/

set_option Elab.async false

namespace Sys2Proof.Machine
open Sys2Proof

/-! ### Entries -/

def legAt (l : Nat) : Nat := 0x02000000 + 64 * l
def wqAt (q : Nat) : Nat := 0x02080000 + 32 * q
def legDie (l : Nat) : Nat := l / 4096 % 2
def wqDie (q : Nat) : Nat := q / 2048 % 2

def State.leg (s : State) (l : Nat) : Leg := s.carv.legs.get l
def State.setLeg (l : Nat) (x : Leg) (s : State) : State := s.modCarv fun c => { c with legs := c.legs.set l x }
def State.modLeg (l : Nat) (f : Leg → Leg) (s : State) : State := s.setLeg l (f (s.leg l))
def State.wq (s : State) (q : Nat) : Wq := s.carv.wqs.get q
def State.setWq (q : Nat) (x : Wq) (s : State) : State := s.modCarv fun c => { c with wqs := c.wqs.set q x }

/-- A field of the RW part of a leg entry (Table 9-4) or a queue entry (Table 9-6). -/
def State.lf (s : State) (l hi lo : Nat) : Nat := nbits (s.entry (legAt l) 16) hi lo
def State.qf (s : State) (q hi lo : Nat) : Nat := nbits (s.entry (wqAt q) 8) hi lo

def legStNo : LegSt → Nat
  | .closed => 0 | .opening => 1 | .open_ => 2 | .error => 3
def wqStNo : WqSt → Nat
  | .disabled => 0 | .active => 1 | .error => 2

/-- The leg entry as it reads: the RW fields as committed, the RO fields as the engine holds them. -/
def State.legWord (s : State) (l : Nat) : Nat :=
  let x := s.leg l
  s.entry (legAt l) 16 + legStNo x.st * 2 ^ 509 + x.remote * 2 ^ 426 + x.txNext * 2 ^ 372 + x.txUna * 2 ^ 348
    + x.rxNext * 2 ^ 324 + x.inc % 2 ^ 64 * 2 ^ 256
def State.wqWord (s : State) (q : Nat) : Nat :=
  let x := s.wq q
  s.entry (wqAt q) 8 + wqStNo x.st * 2 ^ 254 + x.prod * 2 ^ 223 + x.cons * 2 ^ 207 + x.cqNext * 2 ^ 190

/-- RW fields of the entries, as masks. -/
def legRw : Nat := 2 ^ 509 - 1 - (2 ^ 439 - 2 ^ 426) - (2 ^ 396 - 2 ^ 324) - (2 ^ 320 - 2 ^ 256)
def wqRw : Nat := 2 ^ 254 - 1 - (2 ^ 239 - 2 ^ 190)

/-- Payload bytes of a packet of a leg, its window, its path. -/
def State.segSize (s : State) (l : Nat) : Nat := 16 * s.lf l 467 456
def State.legWindow (s : State) (l : Nat) : Nat := s.lf l 455 439
def State.legRto (s : State) (l : Nat) : Nat := 1000 * s.lf l 415 400

/-- Fields of a leg entry out of range (R223, R239): the commit is refused. -/
def legEntryBad (e : Nat) : Bool :=
  decide (nbits e 467 456 < 4) || decide (255 < nbits e 467 456) || nbits e 455 439 == 0 || decide (65536 < nbits e 455 439)
    || nbits e 425 416 != 0 || nbits e 415 400 == 0 || nbits e 399 396 == 0 || nbits e 323 320 != 0 || nbits e 3 0 != 0
    || nbits e 127 64 % 4096 != 0 || decide (barnSize < nbits e 127 64 + 16 * nbits e 455 439)
    || (nbits e 507 507 == 0 && nbits e 508 508 == 1 && nbits e 255 160 != 0)

/-! ### Sending (R217, R219, R220) -/

/-- A field of a number of the caravan extension put in place. -/
def at_ (v lo : Nat) : Nat := v * 2 ^ lo

/-- The UDP frame of a caravan packet (Table 9-3), with its FCS. -/
def State.udpFrame (s : State) (l : Nat) (k : Packet) : List Byte :=
  let d := legDie l
  let e (hi lo : Nat) : Nat := s.lf l hi lo
  let mac := s.rg64 (Adr.CARV_MAC_LO d) % 2 ^ 48
  let v6 := e 507 507 == 1
  let pay := k.wire
  let ulen := 8 + k.len
  let udp0 := beBytes 2 (0xC000 + e 481 468) ++ beBytes 2 (s.rf (Adr.CARV_UDP_PORT d) 15 0) ++ beBytes 2 ulen
  let ip6src := beBytes 16 (s.ip6 d)
  let ip6dst := beBytes 16 (e 255 128)
  let csum := 0xFFFF - fold16 (sum16 (ip6src ++ ip6dst) + ulen + 17 + sum16 (udp0 ++ [0, 0] ++ pay))
  let udp := udp0 ++ beBytes 2 (if v6 then (if csum = 0 then 0xFFFF else csum) else 0) ++ pay
  let v4h (c : Nat) : List Byte := beBytes 2 (0x4500 + e 503 498 * 4) ++ beBytes 2 (20 + ulen) ++ [0, 0]
    ++ beBytes 2 0x4000 ++ beBytes 2 0x4011 ++ beBytes 2 c ++ beBytes 4 (s.rg (Adr.CARV_IPV4_ADDR d)).toNat
    ++ beBytes 4 (e 159 128)
  let ip := if v6 then
      beBytes 4 (6 * 2 ^ 28 + e 503 498 * 4 * 2 ^ 20 + e 481 468) ++ beBytes 2 ulen ++ [17, 64] ++ ip6src ++ ip6dst
    else v4h (0xFFFF - fold16 (sum16 (v4h 0)))
  let tag := if e 15 4 = 0 then [] else beBytes 2 0x8100 ++ beBytes 2 (e 506 504 * 2 ^ 13 + e 15 4)
  let f := beBytes 6 (e 63 16) ++ beBytes 6 mac ++ tag ++ beBytes 2 (if v6 then 0x86DD else 0x0800) ++ ip ++ udp
  let f := f ++ List.replicate (60 - f.length) 0
  f ++ fcsOf f

/-- Send a caravan packet of a leg: its extension without INCARNATION, DST_LEG and SRC_LEG, its payload. -/
def State.legSend (l inc dst ext : Nat) (data : List Byte) (poison : Bool) (s : State) : State :=
  let d := legDie l
  let ext := ext + at_ (inc % 2 ^ 64) 320 + at_ dst 253 + at_ l 240
  let k := mkPkt 10 (s.lf l 481 468) (s.localEid d) (s.lf l 497 482) s.stamp poison (leBytes 48 ext ++ data)
  let s := s.gcount 0x10 1 d none none (some (nbits ext 221 202))
  if s.lf l 508 508 = 1 then s.sendFrame d (s.udpFrame l k) else s.sendOwn d k

/-- The acknowledgement a packet carries: all that was accepted, if some of it is not acknowledged. -/
def State.ackBits (s : State) (l : Nat) : Nat :=
  let x := s.leg l
  if x.unacked = 0 then 0 else at_ ((x.rxNext + 2 ^ 24 - 1) % 2 ^ 24) 272 + at_ 1 267

/-- An unsequenced packet of a leg: ACK, NAK, OPEN, OPEN_ACK or CLOSE. -/
def State.legCtl (l kind dst ext : Nat) (s : State) : State := s.legSend l (s.leg l).inc dst (at_ kind 268 + ext) [] false

/-- Send an ACK, or a NAK, with ACK = RX_NEXT − 1 (R224). -/
def State.sendAck (l kind : Nat) (s : State) : State :=
  let x := s.leg l
  (s.legCtl l kind x.remote (at_ ((x.rxNext + 2 ^ 24 - 1) % 2 ^ 24) 272 + at_ 1 267)).modLeg l fun x => { x with unacked := 0 }

/-- Send a sequenced packet under a sequence; payload bytes count for its job (R474). -/
def State.sendSeq (l seq : Nat) (k : CarvPkt) (s : State) : State :=
  let x := s.leg l
  let s := match s.slotOf (nbits k.ext 221 202) with
    | some j => s.bump (Adr.JOB_CARV_TX_BYTES j) k.data.length
    | none => s
  let s := s.legSend l x.inc x.remote (k.ext + at_ seq 296 + s.ackBits l) k.data k.poison
  s.modLeg l fun x => { x with unacked := 0 }

/-- Record an outstanding packet in the ring; the layout of the barn record is open. -/
def State.ringRecord (l seq : Nat) (s : State) : State :=
  s.takeFree.setBarnNum (s.lf l 127 64 + 16 * (seq % s.legWindow l)) 16 s.freeVal

/-- Send what waits and fits the window; resends go first (R224). -/
def State.legPumpN (l : Nat) : Nat → State → State
  | 0, s => s
  | n + 1, s =>
    let x := s.leg l
    match x.txq with
    | [] => s
    | k :: rest =>
      if x.st != .open_ || !x.again.isEmpty || x.reading || decide (s.legWindow l ≤ x.ring.length) then s
      else
        let seq := x.txNext
        let x := { x with txq := rest, txNext := (seq + 1) % 2 ^ 24, ring := x.ring ++ [{ k with data := [] }]
                          since := if x.ring.isEmpty then s.ns else x.since }
        State.legPumpN l n (((s.setLeg l x).ringRecord l seq).sendSeq l seq k)

def State.legPump (l : Nat) (s : State) : State := State.legPumpN l (s.leg l).txq.length s

/-- Hand a sequenced packet to its leg. -/
def State.legPost (l : Nat) (k : CarvPkt) (s : State) : State := (s.modLeg l fun x => { x with txq := x.txq ++ [k] }).legPump l

/-! ### Requests of the engine (R230) -/

/-- Ask for memory on behalf of the engine of a die. -/
def State.carvAsk (die : Nat) (o : Owner) (op size fva fjid eid : Nat) (data : List Byte) (poison : Bool) (s : State) : State :=
  let p := s.unitMreq die op 0 size fva fjid eid 0 false data
  let p := { p with hdr := setBits p.hdr 17 17 (b2n poison) }
  s.unitAsk o die (s.slotOf fjid) p

/-- Resend packets: those with a payload read it again first. -/
def State.resendN (l : Nat) : Nat → State → State
  | 0, s => s
  | n + 1, s =>
    let x := s.leg l
    match x.again with
    | [] => s.legPump l
    | (seq, k) :: rest =>
      if x.reading then s
      else match k.src with
        | some (eid, fjid, fva, len) =>
          (s.modLeg l fun x => { x with reading := true }).carvAsk (legDie l) (.carvAgain l seq x.run) 0 len fva fjid eid [] false
        | none =>
          let s := s.modLeg l fun x => { x with again := rest }
          State.resendN l n ((s.bump (Adr.CARV_RETRANSMITS (legDie l)) 1).sendSeq l seq k)

/-- Resend every outstanding packet, oldest first (R224). -/
def State.resend (l : Nat) (s : State) : State :=
  let x := s.leg l
  let all := (List.range x.ring.length).map fun i => ((x.txUna + i) % 2 ^ 24, x.ring.getD i {})
  State.resendN l (all.length + 1) (s.setLeg l { x with again := all, run := x.run + 1, reading := false })

/-! ### Work queues -/

/-- Fields of a work request (Table 9-7). -/
def wOp (w : Nat) : Nat := nbits w 255 252
def wLeg (w : Nat) : Nat := nbits w 219 207
def wLen (w : Nat) : Nat := nbits w 190 167
def wLocal (w : Nat) : Nat := nbits w 134 78
def wRemote (w : Nat) : Nat := nbits w 77 21

def State.wqDepth (s : State) (q : Nat) : Nat := s.qf q 243 239
def State.wqSlot (s : State) (q : Nat) : Nat := s.qf q 253 244
def State.wqFjid (s : State) (q : Nat) : Nat := s.rf (Adr.JOB_FJID (s.wqSlot q)) 19 0

/-- A queue goes to ERROR. -/
def State.wqError (q : Nat) (s : State) : State :=
  (s.setWq q { s.wq q with st := .error }).raiseInt .carv (wqDie q) 2

/-- A request completes (R228): its record, its counter, its place in the queue. -/
def State.wqComplete (q w status mstatus bytes : Nat) (s : State) : State :=
  let d := wqDie q
  let x := s.wq q
  let lg := s.wqDepth q
  let s := if status = 0 ∧ nbits w 251 251 = 1 then s.ctrIncr (nbits w 247 234) (s.wqSlot q) else s
  let s := if nbits w 249 249 = 0 then s
    else
      let phase := 1 - nbits x.cqNext lg lg
      let r := at_ (nbits w 166 135) 96 + at_ status 92 + at_ mstatus 88 + at_ phase 87 + at_ (wOp w % 8) 84 + at_ q 72
        + at_ bytes 48
      s.carvAsk d (.carvCqe q) 1 16 (s.qf q 189 133 + 16 * (x.cqNext % 2 ^ lg)) (s.wqFjid q) (s.qf q 63 48) (leBytes 16 r) false
  let next := if nbits w 249 249 = 0 then x.cqNext else (x.cqNext + 1) % 2 ^ (lg + 1)
  s.setWq q { s.wq q with posted := x.posted - 1, cqNext := next }

/-- An issued request leaves its slot. -/
def State.wqEnded (q : Nat) (s : State) : State :=
  let x := s.wq q
  let x := { x with issued := x.issued - 1 }
  s.setWq q (if x.leaving && x.issued == 0 then {} else x)

/-- Post a work request (R227): whether it is taken; overflow puts the queue in ERROR. -/
def State.wqPost (q w : Nat) (s : State) : Bool × State :=
  let x := s.wq q
  let lg := s.wqDepth q
  if 2 ^ lg ≤ x.posted then
    (false, (s.raise Err.carv_WQ_OVERFLOW (wqDie q) [q] (some (s.wqFjid q))).wqError q)
  else
    (true, (s.setBarnNum (s.qf q 127 64 + 32 * (x.prod % 2 ^ lg)) 32 w).setWq q
      { x with prod := (x.prod + 1) % 65536, posted := x.posted + 1 })

/-! ### Messages (R229) -/

def State.init (s : State) (l m : Nat) : Option InitMsg := (s.leg l).init.get m
def State.setInit (l m : Nat) (x : Option InitMsg) (s : State) : State := s.modLeg l fun y => { y with init := y.init.set m x }
def State.resp (s : State) (l m : Nat) : Option RespMsg := (s.leg l).resp.get m
def State.setResp (l m : Nat) (x : Option RespMsg) (s : State) : State := s.modLeg l fun y => { y with resp := y.resp.set m x }

/-- The bytes of a request delivered in order: of a WRITE that ended neither OK nor LOCAL they are not known at
this end (log entry 20). -/
def State.bytesDone (s : State) (x : InitMsg) (status : Nat) : Nat :=
  if wOp x.wqe = 1 then (if status = 0 then wLen x.wqe else if status = 1 then x.got else s.freeVal % (x.got + 1))
  else (List.range (x.ok.length + 1)).foldl (fun n _ => n + x.ok.get n) 0

/-- The work request of a message completes. -/
def State.initComplete (l : Nat) (x : InitMsg) (status mstatus : Nat) (s : State) : State :=
  let bytes := s.bytesDone x status
  let s := s.takeFree
  let s := if status = 2 ∧ (mstatus = 1 ∨ mstatus = 2 ∨ mstatus = 4) then
      s.noteViol (s.wqSlot x.q) mstatus (s.localEid (legDie l)) (if wOp x.wqe = 1 then 1 else 0) (wRemote x.wqe) x.fjid
    else s
  (s.wqComplete x.q x.wqe status mstatus bytes).wqEnded x.q

/-- A message ends at the initiator (Table 9-10): the slot is freed, the request completes if it has not. -/
def State.initEnd (l m : Nat) (x : InitMsg) (status mstatus : Nat) (s : State) : State :=
  let s := s.setInit l m none
  if x.flushed then s else s.initComplete l x status mstatus

/-- Fields that every packet of a message carries. -/
def msgExt (kind m fjid : Nat) : Nat := at_ kind 268 + at_ m 230 + at_ fjid 202

/-- The initiator of a WRITE goes on: it reads the next piece, or has none left. -/
def State.writeNext (l m : Nat) (s : State) : State :=
  match s.init l m with
  | none => s
  | some x =>
    let n := min (s.segSize l) (wLen x.wqe - x.got)
    s.carvAsk (legDie l) (.carvSrc l m x.uid x.got n) 0 n (wLocal x.wqe + x.got) x.fjid (s.qf x.q 47 32) [] false

/-- A DATA packet of a WRITE. -/
def dataPkt (x : InitMsg) (m off : Nat) (data : List Byte) (poison last : Bool) (status mstatus localEid : Nat) : CarvPkt :=
  let w := x.wqe
  { ext := msgExt 0 m x.fjid + at_ (b2n last) 266 + at_ status 226 + at_ mstatus 222 + at_ (nbits w 206 191) 186
      + at_ (nbits w 233 220) 172 + at_ (nbits w 250 250) 171 + at_ (wLen w) 147 + at_ off 123
      + at_ ((wRemote w + off) % 2 ^ 57) 66
    data := data, poison := poison
    src := if data.isEmpty then none else some (localEid, x.fjid, wLocal w + off, data.length) }

/-- The responder of a READ goes on at an offset. -/
def State.readNext (l m off : Nat) (s : State) : State :=
  match s.resp l m with
  | none => s
  | some x =>
    let n := min (s.segSize l) (x.len - off)
    s.carvAsk (legDie l) (.carvRead l m x.uid off n) 0 n (x.fva + off) x.fjid x.eid [] false

/-- A READ_DATA packet. -/
def readPkt (x : RespMsg) (m off : Nat) (data : List Byte) (poison last : Bool) (status mstatus : Nat) : CarvPkt :=
  { ext := msgExt 2 m x.fjid + at_ (b2n last) 266 + at_ status 226 + at_ mstatus 222 + at_ off 123
      + at_ ((x.fva + off) % 2 ^ 57) 66
    data := data, poison := poison
    src := if data.isEmpty then none else some (x.eid, x.fjid, x.fva + off, data.length) }

/-- A responder request failed as a violation: both slots and the engine capture it (R231). -/
def State.respViolation (l m mstatus op fva fjid : Nat) (s : State) : State :=
  if mstatus = 1 ∨ mstatus = 2 ∨ mstatus = 4 then
    let d := legDie l
    let c := Adr.CARV_VIOL_CAPTURE d
    let s := match s.slotOf fjid with
      | some j => s.noteViol j mstatus (s.localEid d) op fva fjid
      | none => s
    let s := if bit (s.rg (adr .carv d Adr.H_ERR_STATUS)) 1 then s
      else (((s.setRg (c 0) (w32 (l * 2 ^ 16 + m))).setRg (c 1) (lo32 fva)).setRg (c 2) (hi32 fva)).setRg (c 3) (w32 fjid)
    (s.bump (Adr.CARV_VIOLATIONS d) 1).raise Err.carv_REMOTE_VIOLATION d [l, m] (some fjid)
  else s

/-- The responder of a WRITE ends it when the last packet has come and every write has answered. -/
def State.respCheck (l m : Nat) (s : State) : State :=
  match s.resp l m with
  | none => s
  | some x =>
    if !x.last || x.open_ != 0 then s
    else
      let s := s.setResp l m none
      let s := match x.rctr, s.slotOf x.fjid with
        | some c, some j => if x.status = 0 then s.ctrIncr c j else s
        | _, _ => s
      s.legPost l { ext := msgExt 3 m x.fjid + at_ x.status 226 + at_ x.mstatus 222 }

/-- The initiator of a READ ends it when the last packet has come and every write has answered. -/
def State.initCheck (l m : Nat) (s : State) : State :=
  match s.init l m with
  | none => s
  | some x => if x.last && x.open_ == 0 then s.initEnd l m x x.status x.mstatus else s

/-! ### Failing a leg (R225) -/

/-- "Fail all": every message at this end completes with a status; sequences start again at 0. -/
def State.failAll (l status : Nat) (s : State) : State :=
  let x := s.leg l
  let s := x.init.foldl (fun s e => match e.2 with
    | some y => s.initEnd l e.1 y status 0
    | none => s) s
  s.modLeg l fun y => { y with
    init := [], resp := [], ring := [], txq := [], again := [], reading := false, run := y.run + 1, txNext := 0, txUna := 0
    rxNext := 0, unacked := 0, nakAt := none, timeouts := 0, since := s.ns }

/-- Jobs with a message on a leg. -/
def State.legJobs (s : State) (l : Nat) : List Nat :=
  nub (((s.leg l).init.filterMap fun e => e.2.map (·.fjid)) ++ ((s.leg l).resp.filterMap fun e => e.2.map (·.fjid)))

/-- The leg of an OPEN packet failed: job-fatal to each job with a message on it (Table 9-14). -/
def State.legFailed (l : Nat) (s : State) : State :=
  let jobs := s.legJobs l
  let s := (s.failAll l 3).modLeg l fun x => { x with st := .error }
  let s := (s.raise Err.carv_LEG_FAILED (legDie l) [l] none).raiseInt .carv (legDie l) 1
  (jobs.map s.jobSlotsOf).flatten.foldl (fun s j => s.jobFatal j) s

/-- Adopt a peer's incarnation and open. -/
def State.legAdopt (l inc remote : Nat) (s : State) : State :=
  (s.failAll l 3).modLeg l fun x => { x with st := .open_, inc := inc, remote := remote }

end Sys2Proof.Machine
end

