-- ==== Sys2Proof/Machine/Ext.lean ====
section
/-! DEFINITION. Commands on extents, leases and snapshot regions (Table 7-2), drains (R171), lease
expiry (R170) and sweeps (R181). -/

set_option Elab.async false

namespace Sys2Proof.Machine
open Sys2Proof

/-! ### The command interface (R167) -/

def State.extArg (s : State) (i : Nat) : Nat := (s.rg (Adr.EXT_ARG i)).toNat
def State.extArg64 (s : State) (i : Nat) : Nat := s.extArg i + 2 ^ 32 * s.extArg (i + 1)

/-- Set RESULT, clear BUSY and raise CMD_DONE. -/
def State.extDone (r : Nat) (s : State) : State := (s.setRf Adr.EXT_CMD_STATUS 3 0 r).raiseInt .ext 0 0

def State.extOut (v : Nat) (s : State) : State := (s.setRg Adr.EXT_OUT_LO (lo32 v)).setRg Adr.EXT_OUT_HI (hi32 v)

/-- Load EVT_CAPTURE0 and 1. -/
def State.extEvt (kind i x : Nat) (s : State) : State :=
  (s.setRg Adr.EXT_EVT_CAPTURE0 (w32 (kind * 2 ^ 28 + i))).setRg Adr.EXT_EVT_CAPTURE1 (w32 x)

/-- A command: refused with a result other than 0, it changes nothing. `widths` are those of the first
arguments. No command is accepted after EXT_TALLY (Table 7-11). -/
def State.extCmd (widths : List Nat) (res : State → Nat) (act : State → State) (s : State) : State :=
  if s.stopped 5 0 then s
  else
    let wide := (List.range widths.length).any fun i => decide (2 ^ widths.getD i 32 ≤ s.extArg i)
    let r := if wide then 1 else res s
    if r = 0 then (act s).extDone 0 else s.extDone r

/-! ### Extents (R172) -/

/-- Some extent that is not FREE shares a granule with the range. -/
def State.extOverlap (s : State) (base size : Nat) : Bool :=
  s.ext.exts.any fun e => e.2.st != .free && decide (e.2.base < base + size) && decide (base < e.2.base + e.2.size)

def State.drainAsk (i : DrainItem) (s : State) : State := s.modExt fun u => { u with pend := u.pend ++ [i] }

/-- EXT_CREATE. -/
def State.extCreate (s : State) : State :=
  s.extCmd [18, 24, 24, 20]
    (fun s =>
      let (e, b, n) := (s.extArg 0, s.extArg 1, s.extArg 2)
      if (s.extent e).st != .free then 2
      else if n = 0 ∨ 2 ^ 24 < b + n then 1
      else if s.extOverlap b n then 3 else 0)
    fun s => s.setExtent (s.extArg 0) { st := .owned, base := s.extArg 1, size := s.extArg 2, owner := s.extArg 3
                                        epoch := (s.extent (s.extArg 0)).epoch }
def execExtCreate (src : Source) (s : State) : Host.Outcome State Fault Refusal :=
  .next (s.guarded src Adr.EXT_CMD .wo (·.extCreate))

/-- EXT_FENCE. -/
def State.extFence (s : State) : State :=
  s.extCmd [18, 1, 20]
    (fun s =>
      let x := s.extent (s.extArg 0)
      if x.st != .owned then 2
      else if 0 < x.regions then 7
      else if s.extArg 1 = 1 ∧ s.extArg 2 = x.owner then 1 else 0)
    fun s =>
      let e := s.extArg 0
      let x := s.extent e
      let h := s.extArg 1 == 1
      ((s.setExtent e { x with st := .fencing, handover := h, next := if h then s.extArg 2 else 0, fenceTime := s.ns }).drainAsk
        (.fence e)).bump Adr.EXT_FENCES 1
def execExtFence (src : Source) (s : State) : Host.Outcome State Fault Refusal :=
  .next (s.guarded src Adr.EXT_CMD .wo (·.extFence))

/-- EXT_RECLAIM: lease records are freed; the extent becomes FREE, or goes to its next owner. -/
def State.extReclaim (s : State) : State :=
  s.extCmd [18]
    (fun s => if (s.extent (s.extArg 0)).st != .fenced then 2 else 0)
    fun s =>
      let e := s.extArg 0
      let x := s.extent e
      let s := s.modExt fun u => { u with leases := u.leases.map fun _ l => if l.valid && l.ext == e then {} else l }
      s.setExtent e (if x.handover then { x with st := .owned, handover := false, owner := x.next, next := 0, leases := 0 }
        else { epoch := x.epoch, fenceTime := x.fenceTime })
def execExtReclaim (src : Source) (s : State) : Host.Outcome State Fault Refusal :=
  .next (s.guarded src Adr.EXT_CMD .wo (·.extReclaim))

/-! ### Leases (R168 to R170) -/

/-- The expiry has passed. -/
def State.leaseOver (s : State) (l : Lease) : Bool := l.expired || decide (l.expiry ≤ s.ns)

def State.durationBad (s : State) (d : Nat) : Bool := d == 0 || decide ((s.rg Adr.EXT_MAX_LEASE).toNat < d)

/-- The way LEASE_GRANT takes: that of an expired record of the pair, else the lowest free one. -/
def State.leaseWay (s : State) (e f : Nat) : Option Nat :=
  (s.leaseAt e f).orElse fun _ =>
    ((List.range 4).map (4 * s.leaseSet e f + ·)).find? fun k => !(s.ext.leases.get k).valid

/-- In SEALED mode holder and owner are bound to one group (R399). -/
def State.leaseSealed (s : State) (owner f : Nat) : Bool :=
  match s.sec.binds.get owner, s.sec.binds.get f with
  | some a, some b => a.1 == b.1
  | _, _ => false

/-- Put a lease record with the next epoch and the expiry. -/
def State.putLease (k e f : Nat) (rw : Bool) (dur : Nat) (s : State) : State :=
  let x := s.extent e
  let n := incSkip0 x.epoch 32
  let fresh := !(s.ext.leases.get k).valid
  let l : Lease := { valid := true, rw := rw, holder := f, ext := e, epoch := n, granted := s.ns, expiry := s.ns + 1000 * dur }
  let s := s.modExt fun u => { u with leases := u.leases.set k l }
  (s.setExtent e { x with epoch := n, leases := x.leases + b2n fresh }).extOut n

/-- LEASE_GRANT. -/
def State.leaseGrant (s : State) : State :=
  s.extCmd [18, 20]
    (fun s =>
      let (e, f) := (s.extArg 0, s.extArg 1)
      let x := s.extent e
      if x.st != .owned then 2
      else if f = x.owner ∨ 1 < s.extArg 2 ∨ s.durationBad (s.extArg 3) then 1
      else if s.isSealed && !s.leaseSealed x.owner f then 1
      else match s.leaseAt e f with
        | some k => if s.leaseOver (s.ext.leases.get k) then 0 else 7
        | none => if (s.leaseWay e f).isNone then 4 else 0)
    fun s => match s.leaseWay (s.extArg 0) (s.extArg 1) with
      | some k => s.putLease k (s.extArg 0) (s.extArg 1) (s.extArg 2 == 1) (s.extArg 3)
      | none => s
def execLeaseGrant (src : Source) (s : State) : Host.Outcome State Fault Refusal :=
  .next (s.guarded src Adr.EXT_CMD .wo (·.leaseGrant))

/-- LEASE_RENEW. -/
def State.leaseRenew (s : State) : State :=
  s.extCmd [18, 20]
    (fun s =>
      if (s.extent (s.extArg 0)).st != .owned then 2
      else if s.durationBad (s.extArg 3) then 1
      else match s.leaseAt (s.extArg 0) (s.extArg 1) with
        | none => 5
        | some k =>
          let l := s.ext.leases.get k
          if l.epoch ≠ s.extArg 2 ∨ s.leaseOver l then 5 else 0)
    fun s => match s.leaseAt (s.extArg 0) (s.extArg 1) with
      | some k => s.putLease k (s.extArg 0) (s.extArg 1) (s.ext.leases.get k).rw (s.extArg 3)
      | none => s
def execLeaseRenew (src : Source) (s : State) : Host.Outcome State Fault Refusal :=
  .next (s.guarded src Adr.EXT_CMD .wo (·.leaseRenew))

/-- LEASE_RELEASE. -/
def State.leaseRelease (s : State) : State :=
  s.extCmd [18, 20]
    (fun s => match s.leaseAt (s.extArg 0) (s.extArg 1) with
      | none => 5
      | some k => if (s.ext.leases.get k).epoch ≠ s.extArg 2 then 5 else 0)
    fun s => match s.leaseAt (s.extArg 0) (s.extArg 1) with
      | some k =>
        let x := s.extent (s.extArg 0)
        (s.modExt fun u => { u with leases := u.leases.set k {} }).setExtent (s.extArg 0) { x with leases := x.leases - 1 }
      | none => s
def execLeaseRelease (src : Source) (s : State) : Host.Outcome State Fault Refusal :=
  .next (s.guarded src Adr.EXT_CMD .wo (·.leaseRelease))

/-- LEASE_EXPIRY (R170) of record `k`. -/
def State.leaseExpire (k : Nat) (s : State) : State :=
  let l := s.ext.leases.get k
  if l.valid && !l.expired && decide (l.expiry ≤ s.ns) then
    (((s.modExt fun u => { u with leases := u.leases.set k { l with expired := true } }).bump Adr.EXT_LEASE_EXPIRIES 1).extEvt
      2 l.ext l.holder).raiseInt .ext 0 2
  else s
def execLeaseExpiry (k : Nat) (s : State) : Host.Outcome State Fault Refusal := .next (s.leaseExpire k)

/-! ### Snapshot regions (R174 to R181) -/

/-- A number with the field `[hi:lo]` replaced. -/
def setNumBits (x hi lo v : Nat) : Nat := x - nbits x hi lo * 2 ^ lo + v % 2 ^ (hi + 1 - lo) * 2 ^ lo

def State.setSlot (x : Region) (i v : Nat) (s : State) : State := s.setBarnNum (x.slotAt i) 16 v

/-- The slot of a version in a state. -/
def State.slotFind (s : State) (x : Region) (st v : Nat) : Option Nat :=
  leastBelow 64 fun i => slotSt (s.slotNum x i) == st && slotVer (s.slotNum x i) == v

/-- The free records of a new region, chained in ascending order, and the block heads (R176). -/
def State.writeRecs (x : Region) (s : State) : State :=
  (List.range x.recCount).foldl (fun s i =>
    (s.setPoison (x.recAt i / 64) false).setBarnNum (x.recAt i) 16
      (recWord false (if i + 1 = x.recCount then noRec else i + 1) 0 0)) s

def State.writeHeads (x : Region) (s : State) : State :=
  (List.range ((s.extent x.ext).blocks x.shift)).foldl (fun s b =>
    (s.setPoison (x.headAt b / 64) false).setBarnNum (x.headAt b) 16 (recWord true noRec 1 (s.baseBlock x b))) s

def State.extRegions (e : Nat) (d : Int) (s : State) : State :=
  let x := s.extent e
  s.setExtent e { x with regions := ((x.regions : Int) + d).toNat }

/-- SNAP_CREATE. Its arguments need nine registers and there are eight: REC_COUNT has none, and comes
with the command (log entry 15). -/
def State.snapCreate (recCount : Nat) (s : State) : State :=
  s.extCmd [14, 18, 18]
    (fun s =>
      let (e, p) := (s.extent (s.extArg 1), s.extent (s.extArg 2))
      let sh := s.extArg 3
      if (s.region (s.extArg 0)).st != .free then 2
      else if e.st != .owned || p.st != .owned || e.owner != p.owner || s.extArg 1 == s.extArg 2 then 2
      else if sh < 12 ∨ 16 < sh ∨ recCount = 0 ∨ p.blocks sh < recCount ∨ 2 ^ 24 ≤ recCount
          ∨ s.extArg64 4 % 4096 ≠ 0 ∨ s.extArg64 6 % 4096 ≠ 0
          ∨ barnSize < s.extArg64 4 + 1024 + 16 * e.blocks sh ∨ barnSize < s.extArg64 6 + 16 * recCount then 1
      else 0)
    fun s =>
      let x : Region := { st := .init, ext := s.extArg 1, spare := s.extArg 2, shift := s.extArg 3, head := 1, floor := 1
                          mapBase := s.extArg64 4, recBase := s.extArg64 6, recCount := recCount, recFree := recCount }
      let s := (s.setRegion (s.extArg 0) x).setBarn x.mapBase (List.replicate 1024 0)
      (((s.writeHeads x).writeRecs x).extRegions x.ext 1).extRegions x.spare 1
def execSnapCreate (src : Source) (recCount : Nat) (s : State) : Host.Outcome State Fault Refusal :=
  .next (s.guarded src Adr.EXT_CMD .wo (·.snapCreate recCount))

/-- SNAP_INIT_DONE (R176): the block heads of region `r` are written. -/
def execSnapInitDone (r : Nat) (s : State) : Host.Outcome State Fault Refusal :=
  .next (if (s.region r).st == .init then s.setRegion r { s.region r with st := .ready } else s)

/-- A READY BASE region. -/
def Region.base (x : Region) : Bool := x.st == .ready && !x.view

/-- SNAP_OPEN (R180). -/
def State.snapOpen (s : State) : State :=
  s.extCmd [14]
    (fun s =>
      let x := s.region (s.extArg 0)
      if !x.base then 2
      else if (leastBelow 64 fun i => slotSt (s.slotNum x i) == 0).isNone then 4
      else if 2 ^ 31 ≤ (x.head + 1 + 2 ^ 32 - x.floor) % 2 ^ 32 then 6 else 0)
    fun s =>
      let r := s.extArg 0
      let x := s.region r
      match leastBelow 64 fun i => slotSt (s.slotNum x i) == 0 with
      | none => s
      | some i =>
        let s := s.setSlot x i (slotWord 1 0 x.head s.ns)
        let s := s.setRegion r { x with newest := x.head, head := incSkip0 x.head 32, live := x.live + 1 }
        (s.extOut x.head).drainAsk (.open_ r i)
def execSnapOpen (src : Source) (s : State) : Host.Outcome State Fault Refusal :=
  .next (s.guarded src Adr.EXT_CMD .wo (·.snapOpen))

/-- VIEW_ATTACH (R180). -/
def State.viewAttach (s : State) : State :=
  s.extCmd [14, 14]
    (fun s =>
      let x := s.region (s.extArg 1)
      if (s.region (s.extArg 0)).st != .free || !x.base then 2
      else if (s.slotFind x 2 (s.extArg 2)).isNone then 2 else 0)
    fun s =>
      let (v, r) := (s.extArg 0, s.extArg 1)
      let x := s.region r
      match s.slotFind x 2 (s.extArg 2) with
      | none => s
      | some i =>
        let s := s.setSlot x i (s.slotNum x i + 2 ^ 111)
        (s.setRegion r { x with views := x.views + 1 }).setRegion v
          { st := .ready, view := true, ext := x.ext, baseRegion := r, shift := x.shift, viewVer := s.extArg 2 }
def execViewAttach (src : Source) (s : State) : Host.Outcome State Fault Refusal :=
  .next (s.guarded src Adr.EXT_CMD .wo (·.viewAttach))

/-- VIEW_DETACH (R180). -/
def State.viewDetach (s : State) : State :=
  s.extCmd [14]
    (fun s =>
      let x := s.region (s.extArg 0)
      if x.st == .ready && x.view then 0 else 2)
    fun s =>
      let v := s.region (s.extArg 0)
      let x := s.region v.baseRegion
      let s := match s.slotFind x 2 v.viewVer with
        | some i => s.setSlot x i (s.slotNum x i - 2 ^ 111)
        | none => s
      (s.setRegion v.baseRegion { x with views := x.views - 1 }).setRegion (s.extArg 0) {}
def execViewDetach (src : Source) (s : State) : Host.Outcome State Fault Refusal :=
  .next (s.guarded src Adr.EXT_CMD .wo (·.viewDetach))

/-- SNAP_CLOSE (R180). -/
def State.snapClose (s : State) : State :=
  s.extCmd [14]
    (fun s =>
      let x := s.region (s.extArg 0)
      if !x.base then 2
      else match s.slotFind x 2 (s.extArg 1) with
        | none => 2
        | some i => if 0 < slotViews (s.slotNum x i) then 7 else 0)
    fun s =>
      let r := s.extArg 0
      let x := s.region r
      match s.slotFind x 2 (s.extArg 1) with
      | none => s
      | some i => (s.setSlot x i (setNumBits (s.slotNum x i) 127 125 3)).drainAsk (.close r i)
def execSnapClose (src : Source) (s : State) : Host.Outcome State Fault Refusal :=
  .next (s.guarded src Adr.EXT_CMD .wo (·.snapClose))

/-- SNAP_DESTROY (R176). -/
def State.snapDestroy (s : State) : State :=
  s.extCmd [14]
    (fun s =>
      let x := s.region (s.extArg 0)
      if !x.base then 2 else if 0 < x.live ∨ 0 < x.views then 7 else 0)
    fun s =>
      let r := s.extArg 0
      (s.setRegion r { s.region r with st := .destroying }).drainAsk (.destroy r)
def execSnapDestroy (src : Source) (s : State) : Host.Outcome State Fault Refusal :=
  .next (s.guarded src Adr.EXT_CMD .wo (·.snapDestroy))

/-! ### Drains (R171) -/

/-- DRAIN_START: G flips and the pending items join the drain. -/
def execDrainStart (s : State) : Host.Outcome State Fault Refusal :=
  .next (if s.ext.pend.isEmpty || s.ext.drain.isSome then s
    else s.modExt fun u => { u with g := !u.g, drain := some u.pend, pend := [] })

/-- What the end of a drain does to one item (Tables 7-4 and 7-9, R176). -/
def State.drained (i : DrainItem) (s : State) : State :=
  match i with
  | .fence e =>
    ((s.setExtent e { s.extent e with st := .fenced }).extEvt 1 e 0).raiseInt .ext 0 1
  | .open_ r i =>
    let x := s.region r
    ((s.setSlot x i (setNumBits (s.slotNum x i) 127 125 2)).extEvt 3 r (slotVer (s.slotNum x i))).raiseInt .ext 0 3
  | .close r i =>
    let x := s.region r
    (s.setSlot x i (setNumBits (s.slotNum x i) 127 125 4)).setRegion r
      { x with waiting := x.waiting ++ [i], since := if x.waiting.isEmpty then s.ns else x.since }
  | .destroy r =>
    let x := s.region r
    ((s.setRegion r {}).extRegions x.ext (-1)).extRegions x.spare (-1)

/-- DRAIN_END: INFL of the old generation is zero on both dies. -/
def execDrainEnd (s : State) : Host.Outcome State Fault Refusal :=
  .next (match s.ext.drain with
    | none => s
    | some items =>
      if s.infl 0 (!s.ext.g) != 0 || s.infl 1 (!s.ext.g) != 0 then s
      else items.foldl (fun s i => s.drained i) (s.modExt fun u => { u with drain := none }))

/-! ### Sweeps (R181) -/

/-- SNAP_SWEEP_START: the first multiple of SWEEP_INTERVAL after a slot entered RECLAIMING has passed. -/
def execSnapSweepStart (r : Nat) (s : State) : Host.Outcome State Fault Refusal :=
  .next (
    let x := s.region r
    let iv := 1000 * s.rf Adr.EXT_SWEEP_INTERVAL 19 0
    if x.waiting.isEmpty || x.sweeping.isSome || s.ns / iv == x.since / iv then s
    else s.setRegion r { x with sweeping := some x.waiting, waiting := [] })

/-- Live versions of a region. -/
def State.liveVersions (s : State) (x : Region) : List Nat :=
  (List.range 64).filterMap fun i =>
    let w := s.slotNum x i
    if slotSt w = 1 ∨ slotSt w = 2 ∨ slotSt w = 3 then some (slotVer w) else none

/-- The oldest of some versions, and the newest (R48). -/
def oldestOf : List Nat → Option Nat
  | [] => none
  | v :: vs => match oldestOf vs with
    | none => some v
    | some w => if newer v w 32 then some w else some v
def newestOf : List Nat → Option Nat
  | [] => none
  | v :: vs => match newestOf vs with
    | none => some v
    | some w => if newer v w 32 then some v else some w

/-- Walk one chain: `at_` is the barn address of the newer copy, `n` its version; the records freed. -/
def State.sweepChain (r : Nat) (live : List Nat) (f : Nat) : Nat → Nat → Nat → State → State
  | 0, _, _, s => s
  | fuel + 1, at_, n, s =>
    let x := s.region r
    let w := s.barnNum at_ 16
    let i := recNext w
    if i = noRec then s
    else
      let v := s.barnNum (x.recAt i) 16
      let kept := live.any fun l => !newer (recVer v) l 32 && newer n l 32
      if kept then
        let s := if newer f (recVer v) 32 then s.setBarnNum (x.recAt i) 16 (setNumBits v 95 64 f) else s
        s.sweepChain r live f fuel (x.recAt i) (recVer v)
      else
        let s := s.setBarnNum at_ 16 (setNumBits w 126 103 (recNext v))
        let s := s.setBarnNum (x.recAt i) 16 (setNumBits (setNumBits v 127 127 0) 126 103 x.freeHead)
        (s.setRegion r { x with freeHead := i, recFree := x.recFree + 1 }).sweepChain r live f fuel at_ n

/-- Records reachable from the block heads of a region. -/
def State.chainLen (s : State) (x : Region) : Nat → Nat → Nat
  | 0, _ => 0
  | n + 1, i => if i = noRec then 0 else 1 + s.chainLen x n (recNext (s.barnNum (x.recAt i) 16))
def State.recsUsed (s : State) (r : Nat) : Nat :=
  let x := s.region r
  ((List.range ((s.extent x.ext).blocks x.shift)).map fun b =>
    s.chainLen x (x.recCount + 1) (recNext (s.barnNum (x.headAt b) 16))).sum

/-- The sweep of one region: chains, heads, then the slots, FLOOR and NEWEST_FROZEN. -/
def State.sweep (r : Nat) (slots : List Nat) (s : State) : State :=
  let x := s.region r
  let live := s.liveVersions x
  let f := (oldestOf live).getD x.head
  let s := (List.range ((s.extent x.ext).blocks x.shift)).foldl (fun s b =>
    let h := s.barnNum (x.headAt b) 16
    let s := s.sweepChain r live f (x.recCount + 1) (x.headAt b) (recVer h)
    let h' := s.barnNum (x.headAt b) 16
    if newer f (recVer h') 32 then s.setBarnNum (x.headAt b) 16 (setNumBits h' 95 64 f) else s) s
  let vers := slots.map fun i => slotVer (s.slotNum x i)
  let s := slots.foldl (fun s i => s.setSlot x i 0) s
  let y := s.region r
  let s := s.setRegion r { y with floor := f, newest := (newestOf live).getD 0, live := y.live - slots.length
                                  sweeping := none, since := s.ns }
  ((s.bump Adr.EXT_SWEEPS 1).extEvt 4 r (vers.getLast?.getD 0)).raiseInt .ext 0 4

/-- SNAP_SWEEP_END: the sweep ends; a record count that disagrees is SNAP_TALLY (R183). -/
def execSnapSweepEnd (r : Nat) (s : State) : Host.Outcome State Fault Refusal :=
  .next (match (s.region r).sweeping with
    | none => s
    | some slots =>
      let s := s.sweep r slots
      let x := s.region r
      if s.recsUsed r = x.recCount - x.recFree then s
      else (s.setRegion r { x with bad := true }).tallyMismatch 0 (x.recCount - x.recFree) (s.recsUsed r)
        Err.ext_SNAP_TALLY 0 [r])

end Sys2Proof.Machine
end

