-- ==== Sys2Proof/Machine/Carv.lean ====
section
/-! DEFINITION. Commands of the caravan engine (chapter 9): legs, work queues, packets received, posts,
standing orders. -/

set_option Elab.async false

namespace Sys2Proof.Machine
open Sys2Proof

/-- A command of page `d` ends with a result (R237). -/
def State.carvDone (d r : Nat) (s : State) : State :=
  (s.setRf (Adr.CARV_CMD_STATUS d) 3 0 r).raiseInt .carv d 0

/-! ### Legs (Table 9-5) -/

/-- The largest frame of a UDP leg (R222). -/
def State.legFrame (s : State) (l : Nat) : Nat :=
  14 + (if s.lf l 15 4 = 0 then 0 else 4) + (if s.lf l 507 507 = 1 then 40 else 20) + 8 + 64 + s.segSize l + 4

/-- The identity registers of both pages agree (R237). -/
def State.carvAgree (s : State) : Bool :=
  s.localEid 0 == s.localEid 1 && s.rg64 (Adr.CARV_MAC_LO 0) == s.rg64 (Adr.CARV_MAC_LO 1)
    && s.rg (Adr.CARV_UDP_PORT 0) == s.rg (Adr.CARV_UDP_PORT 1)
    && s.rg (Adr.CARV_IPV4_ADDR 0) == s.rg (Adr.CARV_IPV4_ADDR 1) && s.ip6 0 == s.ip6 1

/-- Send OPEN: DST_LEG is zero. -/
def State.sendOpen (l : Nat) (s : State) : State := s.legCtl l 6 0 0

def State.legOpen (d l : Nat) (s : State) : State :=
  if 8192 ≤ l ∨ legDie l ≠ d then s.carvDone d 1
  else if (s.leg l).st ≠ .closed then s.carvDone d 2
  else if legEntryBad (s.entry (legAt l) 16) || !s.carvAgree
      || (s.lf l 508 508 == 1 && decide (s.rf (Adr.CARV_MAX_FRAME d) 13 0 < s.legFrame l)) then s.carvDone d 1
  else
    (((s.modLeg l fun x => { x with st := .opening, inc := s.ns, since := s.ns, timeouts := 0 }).sendOpen l)).carvDone d 0
def execLegOpen (src : Source) (d l : Nat) (s : State) : Host.Outcome State Fault Refusal :=
  .next (s.guarded src (Adr.CARV_CMD d) .wo (·.legOpen d l))

def State.legClose (d l : Nat) (s : State) : State :=
  if 8192 ≤ l ∨ legDie l ≠ d then s.carvDone d 1
  else
    let x := s.leg l
    let shut (s : State) : State := s.modLeg l fun x => { x with st := .closed }
    (match x.st with
      | .closed => s
      | .open_ => shut ((s.legCtl l 8 x.remote 0).failAll l 4)
      | _ => shut s).carvDone d 0
def execLegClose (src : Source) (d l : Nat) (s : State) : Host.Outcome State Fault Refusal :=
  .next (s.guarded src (Adr.CARV_CMD d) .wo (·.legClose d l))

/-- LEG_OPEN_RESEND (R225): RTO µs after the last OPEN. -/
def execLegOpenResend (l : Nat) (s : State) : Host.Outcome State Fault Refusal :=
  .next (
    let x := s.leg l
    if x.st ≠ .opening ∨ s.ns < x.since + s.legRto l then s
    else if s.lf l 399 396 < x.timeouts + 1 then
      (s.modLeg l fun x => { x with st := .error }).raiseInt .carv (legDie l) 1
    else (s.modLeg l fun x => { x with timeouts := x.timeouts + 1, since := s.ns }).sendOpen l)

/-- LEG_RTO (R224): packets are outstanding and TX_UNA has not advanced for RTO µs. -/
def execLegRto (l : Nat) (s : State) : Host.Outcome State Fault Refusal :=
  .next (
    let x := s.leg l
    if x.st ≠ .open_ ∨ x.ring.isEmpty ∨ s.ns < x.since + s.legRto l then s
    else if s.lf l 399 396 < x.timeouts + 1 then s.legFailed l
    else ((s.modLeg l fun x => { x with timeouts := x.timeouts + 1, since := s.ns }).bump (Adr.CARV_TIMEOUTS (legDie l)) 1).resend l)

/-- ACK_DELAY_EXPIRE (R224): ACK_DELAY ns after the first acceptance that is not acknowledged. -/
def execAckDelayExpire (l : Nat) (s : State) : Host.Outcome State Fault Refusal :=
  .next (
    let x := s.leg l
    if x.st = .open_ ∧ x.unacked ≠ 0 ∧ x.ackAt + s.rf (Adr.CARV_ACK_CFG (legDie l)) 31 16 ≤ s.ns then s.sendAck l 4 else s)

/-! ### Packets received -/

/-- An acknowledgement newer than TX_UNA − 1, of packets that are outstanding (R224). -/
def State.carvAckRx (l a : Nat) (s : State) : State :=
  let x := s.leg l
  let k := (a + 1 + 2 ^ 24 - x.txUna) % 2 ^ 24
  if k = 0 ∨ x.ring.length < k then s
  else
    let una := (a + 1) % 2 ^ 24
    let again := x.again.filter fun e => decide ((e.1 + 2 ^ 24 - una) % 2 ^ 24 < x.ring.length - k)
    let cut := x.reading && (again.head?.map (·.1)) != (x.again.head?.map (·.1))
    let s := s.setLeg l { x with
      txUna := una, ring := x.ring.drop k, timeouts := 0, since := s.ns, again := again
      reading := x.reading && !cut, run := if cut then x.run + 1 else x.run }
    State.resendN l (again.length + 1) s

/-- The acknowledgement that a packet carries. -/
def State.ackOf (l : Nat) (k : Packet) (s : State) : State :=
  if k.cf 267 267 = 1 then s.carvAckRx l (k.cf 295 272) else s

/-- A sequenced packet of an OPEN leg (R224): accepted packets go to `act`. -/
def State.seqRx (l : Nat) (k : Packet) (act : State → State) (s : State) : State :=
  let d := legDie l
  let x := s.leg l
  if x.st = .closed ∨ k.cf 383 320 ≠ x.inc % 2 ^ 64 then s.bump (Adr.CARV_STALE_INC d) 1
  else if x.st ≠ .open_ then s
  else
    let s := s.ackOf l k
    let x := s.leg l
    let dist := (k.cf 319 296 + 2 ^ 24 - x.rxNext) % 2 ^ 24
    if dist = 0 then
      let s := s.setLeg l { x with
        rxNext := (x.rxNext + 1) % 2 ^ 24, unacked := x.unacked + 1, ackAt := if x.unacked = 0 then s.ns else x.ackAt, nakAt := none }
      let s := act s
      if s.rf (Adr.CARV_ACK_CFG d) 7 0 ≤ (s.leg l).unacked then s.sendAck l 4 else s
    else if dist < 2 ^ 23 then
      let s := s.bump (Adr.CARV_OOO_DROP d) 1
      match x.nakAt with
      | some t => if s.ns < t + 1000 then s else (s.modLeg l fun x => { x with nakAt := some s.ns }).sendAck l 5
      | none => (s.modLeg l fun x => { x with nakAt := some s.ns }).sendAck l 5
    else if 2 ^ 24 - 65536 ≤ dist then (s.bump (Adr.CARV_DUP_DROP d) 1).sendAck l 4
    else s.bump (Adr.CARV_WINDOW_DROP d) 1

/-- A caravan packet of a kind delivered to the engine: a malformed one is dropped (R218), one of another
kind is no event of this row. -/
def State.carvRx (p : Nat) (k : Packet) (kind : Nat) (act : Nat → State → State) (s : State) : State :=
  let l := k.cf 265 253
  if carvBad k then
    let (c, s) := s.takeLocal p k
    (s.bump (Adr.CARV_PKT_BAD (legDie l)) 1).freeLocal c
  else if k.carvKind ≠ kind then s
  else
    let (c, s) := s.takeLocal p k
    (act l (s.gcount 0x10 1 (legDie l) none none (some (k.cf 221 202)))).freeLocal c

/-- Payload accepted counts for its job (R474). -/
def State.rxBytes (fjid n : Nat) (s : State) : State :=
  match s.slotOf fjid with
  | some j => s.bump (Adr.JOB_CARV_RX_BYTES j) n
  | none => s

/-- An accepted DATA packet (Table 9-10). -/
def State.carvDataRx (l : Nat) (k : Packet) (s : State) : State :=
  let m := k.cf 239 230
  let fjid := k.cf 221 202
  let data := k.bytes 64 (k.len - 64)
  let s := s.rxBytes fjid data.length
  let fresh : RespMsg := { uid := s.nextId, fjid := fjid, eid := k.cf 201 186
                           rctr := if k.cf 171 171 = 1 then some (k.cf 185 172) else none }
  let x := (s.resp l m).getD fresh
  let s := s.takeNames 1
  let x := if x.status = 0 ∧ (s.activeSlot fjid).isNone then { x with status := 2, mstatus := 3 } else x
  let write := x.status == 0 && !data.isEmpty
  let x := if x.status = 0 ∧ k.cf 229 226 ≠ 0 then { x with status := k.cf 229 226, mstatus := k.cf 225 222 } else x
  let x := { x with last := x.last || k.cf 266 266 == 1, open_ := x.open_ + b2n write }
  let s := s.setResp l m (some x)
  let s := if write then
      s.carvAsk (legDie l) (.carvDst l m x.uid (k.cf 146 123) data.length) 1 data.length (k.cf 122 66) fjid x.eid data k.poison
    else s
  s.respCheck l m

def execCarvDataRx (p : Nat) (pkt : Packet) (s : State) : Host.Outcome State Fault Refusal :=
  .next (s.carvRx p pkt 0 fun l s => s.seqRx l pkt (·.carvDataRx l pkt))

/-- An accepted READ_REQ takes its responder slot. -/
def State.readReqRx (l : Nat) (k : Packet) (s : State) : State :=
  let m := k.cf 239 230
  let fjid := k.cf 221 202
  let x : RespMsg := { uid := s.nextId, fjid := fjid, eid := k.cf 201 186, fva := k.cf 122 66, len := k.cf 170 147 }
  let s := s.takeNames 1
  if (s.activeSlot fjid).isNone then s.legPost l (readPkt x m 0 [] false true 2 3)
  else (s.setResp l m (some x)).readNext l m 0

def execCarvReadReqRx (p : Nat) (pkt : Packet) (s : State) : Host.Outcome State Fault Refusal :=
  .next (s.carvRx p pkt 1 fun l s => s.seqRx l pkt (·.readReqRx l pkt))

/-- An accepted READ_DATA packet is written to LOCAL_FVA + OFFSET. -/
def State.readDataRx (l : Nat) (k : Packet) (s : State) : State :=
  let m := k.cf 239 230
  let d := legDie l
  match s.init l m with
  | none => s.bump (Adr.CARV_LATE_DROPS d) 1
  | some x =>
    let last := k.cf 266 266 == 1
    if wOp x.wqe ≠ 2 then s.bump (Adr.CARV_LATE_DROPS d) 1
    else if x.flushed then
      let s := s.bump (Adr.CARV_LATE_DROPS d) 1
      if last then s.setInit l m none else s
    else
      let data := k.bytes 64 (k.len - 64)
      let off := k.cf 146 123
      let s := s.rxBytes x.fjid data.length
      let x := if x.status = 0 ∧ k.cf 229 226 ≠ 0 then { x with status := k.cf 229 226, mstatus := k.cf 225 222 } else x
      let x := { x with last := x.last || last, open_ := x.open_ + b2n (!data.isEmpty) }
      let s := s.setInit l m (some x)
      let s := if data.isEmpty then s
        else s.carvAsk d (.carvLoc l m x.uid off data.length) 1 data.length (wLocal x.wqe + off) x.fjid (s.qf x.q 47 32) data k.poison
      s.initCheck l m

def execCarvReadDataRx (p : Nat) (pkt : Packet) (s : State) : Host.Outcome State Fault Refusal :=
  .next (s.carvRx p pkt 2 fun l s => s.seqRx l pkt (·.readDataRx l pkt))

/-- An accepted RESULT ends its WRITE. -/
def State.resultRx (l : Nat) (k : Packet) (s : State) : State :=
  let m := k.cf 239 230
  match s.init l m with
  | none => s.bump (Adr.CARV_LATE_DROPS (legDie l)) 1
  | some x =>
    let s := if x.flushed || wOp x.wqe != 1 then s.bump (Adr.CARV_LATE_DROPS (legDie l)) 1 else s
    if wOp x.wqe = 1 then s.initEnd l m x (k.cf 229 226) (k.cf 225 222) else s

def execCarvResultRx (p : Nat) (pkt : Packet) (s : State) : Host.Outcome State Fault Refusal :=
  .next (s.carvRx p pkt 3 fun l s => s.seqRx l pkt (·.resultRx l pkt))

/-- An ACK or NAK of an OPEN leg. -/
def State.ctlRx (l : Nat) (k : Packet) (act : State → State) (s : State) : State :=
  let x := s.leg l
  if k.cf 383 320 ≠ x.inc % 2 ^ 64 then s.bump (Adr.CARV_STALE_INC (legDie l)) 1
  else if x.st ≠ .open_ then s else act s

def execCarvAckRx (p : Nat) (pkt : Packet) (s : State) : Host.Outcome State Fault Refusal :=
  .next (s.carvRx p pkt 4 fun l s => s.ctlRx l pkt (·.ackOf l pkt))

def execCarvNakRx (p : Nat) (pkt : Packet) (s : State) : Host.Outcome State Fault Refusal :=
  .next (s.carvRx p pkt 5 fun l s => s.ctlRx l pkt fun s => (s.ackOf l pkt).resend l)

/-- The leg an OPEN is for: DST_LEG names none; the leg whose REMOTE_EID is its source, one that already
knows SRC_LEG first (log entry 21). -/
def State.openLeg (s : State) (k : Packet) : Option Nat :=
  let c := (List.range 8192).filter fun l => s.lf l 497 482 == k.src && !legEntryBad (s.entry (legAt l) 16)
  (c.find? fun l => (s.leg l).st == .open_ && (s.leg l).remote == k.cf 252 240).orElse fun _ => c.head?

/-- OPEN received (Table 9-5). -/
def State.openRx (l : Nat) (k : Packet) (s : State) : State :=
  let x := s.leg l
  let inc := k.cf 383 320
  let adopt (s : State) : State := (s.legAdopt l inc (k.cf 252 240)).legCtl l 7 (k.cf 252 240) 0
  match x.st with
  | .closed => adopt s
  | .opening =>
    if x.inc % 2 ^ 64 < inc ∨ (inc = x.inc % 2 ^ 64 ∧ s.localEid (legDie l) < k.src) then adopt s else s
  | .open_ => if inc = x.inc % 2 ^ 64 then s.legCtl l 7 x.remote 0 else adopt s
  | .error => s

def execCarvOpenRx (p : Nat) (pkt : Packet) (s : State) : Host.Outcome State Fault Refusal :=
  .next (s.carvRx p pkt 6 fun _ s => match s.openLeg pkt with
    | some l => s.openRx l pkt
    | none => s)

/-- OPEN_ACK received: it opens a leg that is OPENING under the same incarnation. -/
def execCarvOpenAckRx (p : Nat) (pkt : Packet) (s : State) : Host.Outcome State Fault Refusal :=
  .next (s.carvRx p pkt 7 fun l s =>
    let x := s.leg l
    if x.st = .opening ∧ pkt.cf 383 320 = x.inc % 2 ^ 64 then s.legAdopt l x.inc (pkt.cf 252 240) else s)

/-- CLOSE received. -/
def execCarvCloseRx (p : Nat) (pkt : Packet) (s : State) : Host.Outcome State Fault Refusal :=
  .next (s.carvRx p pkt 8 fun l s => s.ctlRx l pkt fun s =>
    (s.failAll l 3).modLeg l fun x => { x with st := .closed })

/-! ### The engine's memory requests answer (R229) -/

/-- Take an MRSP for a unit's request: `pick` says whether the owner is this row's. -/
def State.unitRsp (p : Nat) (k : Packet) (mine : Owner → Bool) (act : Owner → State → State) (s : State) : State :=
  match s.unitTag k with
  | some o =>
    if mine o then
      let (c, s) := s.takeLocal p k
      (act o (s.setTag k.reqTag none)).freeLocal c
    else s
  | none =>
    let (c, s) := s.takeLocal p k
    (s.staleRsp (tagDie k.reqTag)).freeLocal c

def Owner.isCarv : Owner → Bool
  | .carvSrc .. | .carvRead .. | .carvDst .. | .carvLoc .. | .carvAgain .. | .carvCqe .. => true
  | _ => false

/-- A resent packet whose source has been read again. -/
def State.againRead (l seq run st : Nat) (data : List Byte) (poison : Bool) (s : State) : State :=
  let x := s.leg l
  match x.again with
  | (q, k) :: rest =>
    if q ≠ seq ∨ run ≠ x.run ∨ !x.reading then s
    else
      let k := if st = 0 then { k with data := data, poison := poison }
        else { k with ext := setNumBits (setNumBits (setNumBits k.ext 266 266 1) 229 226
          (if nbits k.ext 271 268 = 0 then 1 else 2)) 225 222 st }
      let s := s.modLeg l fun x => { x with again := rest, reading := false }
      State.resendN l (rest.length + 1) ((s.bump (Adr.CARV_RETRANSMITS (legDie l)) 1).sendSeq l seq k)
  | [] => s

/-- The MRSP of an engine's request: status, data, poison. -/
def State.carvRsp (o : Owner) (st : Nat) (data : List Byte) (poison : Bool) (s : State) : State :=
  match o with
  | .carvSrc l m uid off n => match s.init l m with
    | some x =>
      if x.uid ≠ uid then s
      else if st ≠ 0 ∨ x.flushed then
        s.legPost l (dataPkt x m off [] false true 1 (if st = 0 then 5 else st) (s.qf x.q 47 32))
      else
        let last := decide (wLen x.wqe ≤ off + n)
        let s := (s.setInit l m (some { x with got := off + n })).legPost l
          (dataPkt x m off (data.take n) poison last 0 0 (s.qf x.q 47 32))
        if last then s else s.writeNext l m
    | none => s
  | .carvRead l m uid off n => match s.resp l m with
    | some x =>
      if x.uid ≠ uid then s
      else if st ≠ 0 then
        ((s.setResp l m none).legPost l (readPkt x m off [] false true 2 st)).respViolation l m st 0 (x.fva + off) x.fjid
      else
        let last := decide (x.len ≤ off + n)
        let s := s.legPost l (readPkt x m off (data.take n) poison last 0 0)
        if last then s.setResp l m none else s.readNext l m (off + n)
    | none => s
  | .carvDst l m uid off _ => match s.resp l m with
    | some x =>
      if x.uid ≠ uid then s
      else
        let x := { x with open_ := x.open_ - 1 }
        if st = 0 then (s.setResp l m (some x)).respCheck l m
        else
          let x := if x.status = 0 ∨ x.status = 1 then { x with status := 2, mstatus := st } else x
          ((s.setResp l m (some x)).respViolation l m st 1 off x.fjid).respCheck l m
    | none => s
  | .carvLoc l m uid off n => match s.init l m with
    | some x =>
      if x.uid ≠ uid then s
      else
        let x := { x with open_ := x.open_ - 1 }
        let x := if st = 0 then { x with ok := x.ok.set off n }
          else if x.status = 0 then { x with status := 1, mstatus := st } else x
        (s.setInit l m (some x)).initCheck l m
    | none => s
  | .carvAgain l seq run => s.againRead l seq run st data poison
  | _ => s

def execCarvMemRsp (p : Nat) (pkt : Packet) (s : State) : Host.Outcome State Fault Refusal :=
  .next (s.unitRsp p pkt Owner.isCarv fun o s =>
    s.carvRsp o pkt.rspStatus (pkt.bytes 32 pkt.rspSize) (pkt.poisonMap != 0))

/-! ### Work queues (R226 to R228) -/

def State.wqEnable (d q : Nat) (s : State) : State :=
  if 4096 ≤ q ∨ wqDie q ≠ d then s.carvDone d 1
  else if (s.wq q).st ≠ .disabled then s.carvDone d 2
  else
    let lg := s.wqDepth q
    if lg < 4 ∨ 16 < lg ∨ s.qf q 189 133 % 4096 ≠ 0 ∨ s.qf q 127 64 % 4096 ≠ 0 ∨ barnSize < s.qf q 127 64 + 32 * 2 ^ lg
        ∨ s.qf q 132 128 ≠ 0 ∨ s.qf q 31 0 ≠ 0 then s.carvDone d 1
    else (s.setWq q { ({} : Wq) with st := .active }).carvDone d 0
def execWqEnable (src : Source) (d q : Nat) (s : State) : Host.Outcome State Fault Refusal :=
  .next (s.guarded src (Adr.CARV_CMD d) .wo (·.wqEnable d q))

/-- Complete the requests of a queue that were not issued with FLUSHED. -/
def State.wqFlushN (q : Nat) : Nat → State → State
  | 0, s => s
  | n + 1, s =>
    let x := s.wq q
    if x.cons = x.prod ∧ x.posted = x.issued then s
    else
      let w := s.barnNum (s.qf q 127 64 + 32 * (x.cons % 2 ^ s.wqDepth q)) 32
      State.wqFlushN q n ((s.setWq q { x with cons := (x.cons + 1) % 65536 }).wqComplete q w 4 0 0)
def State.wqFlush (q : Nat) (s : State) : State := State.wqFlushN q ((s.wq q).posted - (s.wq q).issued) s

def State.wqDisable (d q : Nat) (s : State) : State :=
  if 4096 ≤ q ∨ wqDie q ≠ d then s.carvDone d 1
  else match (s.wq q).st with
    | .disabled => s.carvDone d 2
    | .active => if (s.wq q).issued ≠ 0 then s.carvDone d 7 else (s.setWq q {}).carvDone d 0
    | .error =>
      let s := s.wqFlush q
      (s.setWq q (if (s.wq q).issued = 0 then {} else { s.wq q with leaving := true })).carvDone d 0
def execWqDisable (src : Source) (d q : Nat) (s : State) : Host.Outcome State Fault Refusal :=
  .next (s.guarded src (Adr.CARV_CMD d) .wo (·.wqDisable d q))

/-- WQ_POST: CMD_ARG is the new PROD (R227). -/
def State.wqPostCmd (d q : Nat) (s : State) : State :=
  if 4096 ≤ q ∨ wqDie q ≠ d then s.carvDone d 1
  else
    let x := s.wq q
    if x.st ≠ .active then s.carvDone d 2
    else
      let n := (s.rf (Adr.CARV_CMD_ARG d) 15 0 + 65536 - x.prod) % 65536
      if 2 ^ s.wqDepth q < x.posted + n then
        ((s.raise Err.carv_WQ_OVERFLOW d [q] (some (s.wqFjid q))).wqError q).carvDone d 0
      else (s.setWq q { x with prod := (x.prod + n) % 65536, posted := x.posted + n }).carvDone d 0
def execWqPost (src : Source) (d q : Nat) (s : State) : Host.Outcome State Fault Refusal :=
  .next (s.guarded src (Adr.CARV_CMD d) .wo (·.wqPostCmd d q))

/-- A malformed work request (Table 9-7). -/
def wqeBad (q w : Nat) : Bool :=
  (wOp w != 1 && wOp w != 2) || nbits w 20 0 != 0 || legDie (wLeg w) != wqDie q || (wOp w == 2 && wLen w == 0)

/-- A free initiator slot; which one is open. -/
def State.pickInit (s : State) (l : Nat) : Option Nat :=
  ((List.range 1024).map fun i => (s.freeVal + i) % 1024).find? fun m => (s.init l m).isNone

/-- The element in front of queue `q` takes initiator slot `m` of its leg and starts. -/
def State.wqSend (q m w : Nat) (s : State) : State :=
  let x := s.wq q
  let l := wLeg w
  let y : InitMsg := { uid := s.nextId, q := q, wqe := w, fjid := s.wqFjid q }
  let s := s.takeFree.takeNames 1
  let s := s.setWq q { s.wq q with cons := (x.cons + 1) % 65536, issued := x.issued + 1 }
  let s := s.setInit l m (some y)
  if wOp w = 2 then
    s.legPost l { ext := msgExt 1 m y.fjid + at_ (nbits w 206 191) 186 + at_ (wLen w) 147 + at_ (wRemote w) 66 }
  else if wLen w = 0 then s.legPost l (dataPkt y m 0 [] false true 0 0 0)
  else s.writeNext l m

/-- WQE_ISSUE (R228) for the next request of queue `q`. -/
def State.wqIssue (q : Nat) (s : State) : State :=
  let x := s.wq q
  if x.st = .disabled ∨ x.posted ≤ x.issued then s
  else if x.st = .error then State.wqFlushN q 1 s
  else
    let w := s.barnNum (s.qf q 127 64 + 32 * (x.cons % 2 ^ s.wqDepth q)) 32
    let next (s : State) : State := s.setWq q { s.wq q with cons := (x.cons + 1) % 65536 }
    if wqeBad q w then
      (((next s).wqComplete q w 5 0 0).raise Err.carv_WQE_MALFORMED (wqDie q) [q] (some (s.wqFjid q))).wqError q
    else if nbits w 248 248 = 1 ∧ x.issued ≠ 0 then s
    else match (s.leg (wLeg w)).st with
      | .closed => (next s).wqComplete q w 3 0 0
      | .error => (next s).wqComplete q w 3 0 0
      | .opening => s
      | .open_ => match s.pickInit (wLeg w) with
        | none => s
        | some m => s.wqSend q m w
def execWqeIssue (q : Nat) (s : State) : Host.Outcome State Fault Refusal := .next (if q < 4096 ∧ s.stopped 7 (q / 2048) = false then s.wqIssue q else s)

/-! ### Posts from endpoints (R219, R227) -/

/-- The ingress and the destination a POST kind must have. -/
def State.postWay (s : State) (p : Nat) (k : Packet) : Bool :=
  decide (p < 512) && s.portMode p == 0 && bit (s.rg (Adr.PORT_QOS_CFG p)) 8 && k.dst == 0xFFFF

def State.postReject (d : Nat) (s : State) : State :=
  (s.bump (Adr.CARV_POST_REJECT d) 1).raise Err.carv_POST_REJECT d [] none

/-- POST_WQE (R227). -/
def State.postWqe (p : Nat) (k : Packet) (s : State) : State :=
  let q := k.num 64 4
  let d := wqDie q
  let fjid := k.cf 221 202
  if !s.postWay p k then s.postReject d
  else
    let j := s.wqSlot q
    let active := s.job j == .active
    let (mem, s) := if active then s.member j k.src else (false, s)
    let viol (st : Nat) (s : State) : State := if active then s.noteViol j st k.src 1 0 fjid else s
    if (s.wq q).st ≠ .active then viol 3 (s.postReject d)
    else if fjid ≠ s.wqFjid q ∨ !active then viol 3 (s.postReject d)
    else if !mem then viol 4 (s.postReject d)
    else (s.wqPost q (k.num 80 32)).2
def execPostWqeRx (p : Nat) (pkt : Packet) (s : State) : Host.Outcome State Fault Refusal :=
  .next (s.carvRx p pkt 9 fun _ s => s.postWqe p pkt)

/-! ### Standing orders (R232, R233) -/

/-- The order that a header spells, if it is well-formed (Table 9-11). -/
def orderOf (h : Nat) (zeros : Bool) : Option Order :=
  let a := nbits h 252 250
  let rearm := nbits h 249 249 == 1
  if a = 0 ∨ 3 < a ∨ nbits h 200 192 ≠ 0 ∨ !zeros ∨ (rearm && nbits h 127 64 == 0) ∨ (a = 1 ∧ nbits h 234 233 ≠ 0) then none
  else some { action := a, rearm := rearm, ctr := nbits h 248 235, target := nbits h 234 221, fjid := nbits h 220 201
              thresh := BitVec.ofNat 64 (nbits h 191 128), step := BitVec.ofNat 64 (nbits h 127 64), firedAt := nbits h 63 0 }

/-- The checks of R233: an ACTIVE slot whose SO_RANGE covers the slot, and its queue. -/
def State.soOk (s : State) (k : Nat) (o : Order) : Bool :=
  match s.activeSlot o.fjid with
  | none => false
  | some j =>
    let r := s.rg (Adr.JOB_SO_RANGE j)
    decide (bits r 14 0 ≤ k) && decide (k < bits r 14 0 + bits r 31 16) && (o.action != 1 || s.wqSlot o.target == j)

/-- Arm a slot: ARMED, or TRIGGERED if the threshold is met already. -/
def State.soArm (k : Nat) (o : Order) (s : State) : State :=
  if meets (s.ctrOf o.ctr).value o.thresh then s.soTrigger k o else s.setOrder k (some o)

def State.soArmCmd (d k : Nat) (s : State) : State :=
  if 32768 ≤ k ∨ soDie k ≠ d then s.carvDone d 1
  else if (s.order k).isSome then s.carvDone d 7
  else
    let a := s.soAt k
    match orderOf (s.barnNum a 32) (s.barnNum (a + 32) 96 == 0) with
    | none => s.carvDone d 1
    | some o => if s.soOk k o then (s.soArm k o).carvDone d 0 else s.carvDone d 1
def execSoArm (src : Source) (d k : Nat) (s : State) : Host.Outcome State Fault Refusal :=
  .next (s.guarded src (Adr.CARV_CMD d) .wo (·.soArmCmd d k))

def State.soCancelCmd (d k : Nat) (s : State) : State :=
  if 32768 ≤ k ∨ soDie k ≠ d then s.carvDone d 1
  else match s.order k with
    | none => s.carvDone d 2
    | some o => if o.triggered then s.carvDone d 7 else (s.setOrder k none).carvDone d 0
def execSoCancel (src : Source) (d k : Nat) (s : State) : Host.Outcome State Fault Refusal :=
  .next (s.guarded src (Adr.CARV_CMD d) .wo (·.soCancelCmd d k))

/-- POST_SO (R233): a member of the job writes and arms a slot. -/
def State.postSo (p : Nat) (k : Packet) (s : State) : State :=
  let i := k.num 64 4
  let d := soDie i
  match s.postWay p k, orderOf (k.num 80 32) (k.num 112 96 == 0) with
  | true, some o =>
    let (mem, s) := match s.activeSlot o.fjid with
      | some j => s.member j k.src
      | none => (false, s)
    if !mem || !s.soOk i o || (s.order i).isSome then s.postReject d
    else (s.setBarn (s.soAt i) (k.bytes 80 256)).soArm i o
  | _, _ => s.postReject d
def execPostSoRx (p : Nat) (pkt : Packet) (s : State) : Host.Outcome State Fault Refusal :=
  .next (s.carvRx p pkt 10 fun _ s => s.postSo p pkt)

/-! ### STOP of a job slot (R235) -/

/-- The caravan engine at the STOP of slot `j`. -/
def State.carvStop (j : Nat) (s : State) : State :=
  let fjid := s.rf (Adr.JOB_FJID j) 19 0
  let s := (List.map Prod.fst s.carv.wqs).foldl (fun s q => if s.wqSlot q = j then s.wqFlush q else s) s
  let s := s.carv.legs.foldl (fun s e => e.2.init.foldl (fun s m => match m.2 with
    | some x => if x.fjid = fjid ∧ x.flushed = false then
        (s.setInit e.1 m.1 (some { x with flushed := true })).initComplete e.1 x 4 0 else s
    | none => s) s) s
  let s := s.ctr.orders.foldl (fun s e => match e.2 with
    | some o => if o.fjid = fjid then
        (if o.triggered then s else s.bump (Adr.CARV_SO_CANCELLED (soDie e.1)) 1).setOrder e.1 none else s
    | none => s) s
  s.modCtr fun u => { u with trig := u.trig.filter fun k => (s.order k).isSome }

end Sys2Proof.Machine
end

