-- ==== Sys2Proof/Machine/Arith.lean ====
section
/-! DEFINITION. The arithmetic of the tiles (chapter 10): elements of the formats of Table 10-7, MX blocks
(R252, R253, R262), the exact accumulator (R254 to R257), FP32 arithmetic of the Mill, the Binders and the
attention decode (R259, R260, R352), the Press blocks and their codecs (R263, R290, R291). -/

set_option Elab.async false

namespace Sys2Proof.Machine
open Sys2Proof

/-- A byte and its poison mark. -/
abbrev PByte := Byte × Bool

/-- Mark bytes. -/
def marked (bs : List Byte) (p : Bool) : List PByte := bs.map fun b => (b, p)

/-- The bytes alone; some byte is poisoned. -/
def plainOf (bs : List PByte) : List Byte := bs.map (·.1)
def anyPoison (bs : List PByte) : Bool := bs.any (·.2)

/-! ### Elements -/

/-- An element as an input: its value, the sign of a zero, its poison. -/
structure Elem where
  v : FV := .fin ⟨0, 0⟩
  neg : Bool := false
  bits : Nat := 0
  poison : Bool := false
  deriving DecidableEq, Repr, Inhabited

/-- The value of an element of a format that is not MX and not EXACT. -/
def decVal (fmt x : Nat) : FV :=
  match fmt with
  | 11 => .fin ⟨sgn 4 x, 0⟩
  | 12 | 13 => .fin ⟨x, 0⟩
  | _ => (fmtOf fmt).dec x

/-- The sign bit of an element of a floating-point format. -/
def decNeg (fmt x : Nat) : Bool := decide (fmt < 10) && (fmtOf fmt).neg x

/-- The raw value of an MX element, without its scale. -/
def mxRaw (fmt x : Nat) : FV := if fmt = 10 then .fin ⟨sgn 1 x, -6⟩ else (fmtOf fmt).dec x

/-- An MX element with its scale (R252). -/
def mxVal (fmt x scale : Nat) : FV :=
  if scale = 255 then .nan
  else match mxRaw fmt x with
    | .fin d => .fin ⟨d.m, d.e + (scale : Int) - 127⟩
    | v => v

/-- The largest and the smallest value of an integer format. -/
def intRange : Nat → Int × Int
  | 11 => (2 ^ 31 - 1, -(2 ^ 31))
  | 12 => (2 ^ 32 - 1, 0)
  | _ => (2 ^ 64 - 1, 0)

/-- What an encoding did: it is out of range (Inf, NaN or saturated); it overflowed; an integer special. -/
structure EncInfo where
  range : Bool := false
  overflow : Bool := false
  special : Bool := false
  deriving DecidableEq, Repr, Inhabited

def EncInfo.or (a b : EncInfo) : EncInfo := ⟨a.range || b.range, a.overflow || b.overflow, a.special || b.special⟩

/-- The overflow row of Table 10-9. -/
def overflowTo (fmt : Nat) (rnd : Rnd) (sat neg : Bool) : Nat :=
  let f := fmtOf fmt
  if f.inf then (if sat || rnd == .zero then f.signBit neg + f.maxBits else f.infBits neg)
  else if sat then f.signBit neg + f.maxBits else f.nanBits

/-- An integer in a format, at its limits. -/
def intTo (fmt : Nat) (x : Int) : Nat := (x % (2 ^ fmtBits fmt : Nat)).toNat

/-- A value rounded to a format that is not MX and not EXACT (Table 10-9, R257); `neg` is the sign of a
zero. -/
def encVal (fmt : Nat) (rnd : Rnd) (sat : Bool) (v : FV) (neg : Bool) : Nat × EncInfo :=
  if isInt fmt then
    let (hi, lo) := intRange fmt
    match v with
    | .nan => (0, ⟨true, false, true⟩)
    | .inf n => (intTo fmt (if n then lo else hi), ⟨true, false, true⟩)
    | .fin d =>
      let q : Nat := roundQ rnd d.m.natAbs d.e 0
      let x : Int := if d.m < 0 then -(q : Int) else q
      if hi < x then (intTo fmt hi, ⟨true, false, true⟩)
      else if x < lo then (intTo fmt lo, ⟨true, false, true⟩)
      else (intTo fmt x, {})
  else
    let f := fmtOf fmt
    match v with
    | .nan => (f.nanBits, ⟨true, false, false⟩)
    | .inf n => (if f.inf then f.infBits n else if sat then f.signBit n + f.maxBits else f.nanBits, ⟨true, false, false⟩)
    | .fin d =>
      if d.m = 0 then (f.signBit neg, {})
      else
        let (b, o) := f.ofDy rnd sat d
        (b, ⟨o, o, false⟩)

/-! ### Packing (R253) -/

/-- Numbers of `b` bits each as a little-endian bit string. -/
def packBits (b : Nat) : List Nat → Nat
  | [] => 0
  | x :: xs => x % 2 ^ b + 2 ^ b * packBits b xs

/-- Bytes of `n` elements of a format, without scales. -/
def elemBytes (fmt n : Nat) : Nat := (fmtBits fmt * n + 7) / 8

/-- Bytes of an operand of `n` elements, with its scales. -/
def sizeOf' (fmt n : Nat) : Nat := elemBytes fmt n + if isMx fmt then n / 32 else 0

/-- Element `i` of the elements in `bs`, `bs` starting with element 0. -/
def elemAt (fmt i : Nat) (bs : List PByte) : Nat × Bool :=
  let b := fmtBits fmt
  let lo := b * i / 8
  let part := (bs.drop lo).take ((b * i + b + 7) / 8 - lo)
  (nbits (leNat (plainOf part)) (b * i % 8 + b - 1) (b * i % 8), anyPoison part)

/-- Elements 0 to n − 1 of a run of a format that is not MX and not EXACT. -/
def elemsOf (fmt n : Nat) (bs : List PByte) : List Elem :=
  (List.range n).map fun i =>
    let (x, p) := elemAt fmt i bs
    { v := decVal fmt x, neg := decNeg fmt x, bits := x, poison := p }

/-- Elements of an MX run with the scale bytes of its blocks. -/
def mxElemsOf (fmt n : Nat) (bs scales : List PByte) : List Elem :=
  (List.range n).map fun i =>
    let (x, p) := elemAt fmt i bs
    let (sc, q) := scales.getD (i / 32) (0, false)
    { v := mxVal fmt x sc.toNat, neg := decide (fmt < 10) && (fmtOf fmt).neg x, bits := x, poison := p || q }

/-! ### MX blocks (R262) -/

/-- EMAX of R262. -/
def emaxOf : Nat → Int
  | 5 => 8 | 6 => 15 | 7 => 4 | 8 => 2 | 9 => 2 | _ => 0

/-- The largest magnitude of a block. -/
def amaxOf : List Elem → Dy
  | [] => ⟨0, 0⟩
  | x :: xs => match x.v with
    | .fin d => let r := amaxOf xs; if r.lt d.abs then d.abs else r
    | _ => amaxOf xs

/-- Quantise one element at exponent `e`. -/
def quantElem (fmt : Nat) (rnd : Rnd) (e : Int) (x : Elem) : Nat × Bool :=
  match x.v with
  | .fin d =>
    if fmt = 10 then
      let q := roundQ rnd d.m.natAbs (d.e - e + 6) 0
      let s : Int := if d.m < 0 then -((min q 127 : Nat) : Int) else (min q 127 : Nat)
      ((s % 256).toNat, decide (127 < q))
    else if d.m = 0 then ((fmtOf fmt).signBit x.neg, false)
    else (fmtOf fmt).ofDy rnd true ⟨d.m, d.e - e⟩
  | _ => (0, false)

/-- Quantise a block: its scale, its elements, whether it became NaN, whether an element saturated. -/
def quantBlock (fmt : Nat) (rnd : Nat → Rnd) (xs : List Elem) : Nat × List Nat × Bool × Bool :=
  if xs.any fun x => match x.v with | .fin _ => false | _ => true then (255, xs.map fun _ => 0, true, false)
  else
    let a := amaxOf xs
    let e : Int := if a.m = 0 then -127 else max (-127) (min 127 (a.log2 - emaxOf fmt))
    let qs := (List.range xs.length).map fun j => quantElem fmt (rnd j) e (xs.getD j {})
    ((e + 127).toNat, qs.map (·.1), false, qs.any (·.2))

/-! ### The exact accumulator (R254 to R257) -/

/-- A slot (Table 10-8). -/
structure Slot48 where
  v : Int := 0
  w : Int := 0
  nan : Bool := false
  pos : Bool := false
  neg : Bool := false
  poison : Bool := false
  n : Nat := 0
  deriving DecidableEq, Repr, Inhabited

/-- acc_add of R255. -/
def Slot48.add (a : Slot48) (d : Int) : Slot48 :=
  let t := a.v + d
  let (w, t) := if (2 ^ 319 : Nat) ≤ t then (a.w + 1, t - (2 ^ 320 : Nat))
    else if t < -((2 ^ 319 : Nat) : Int) then (a.w - 1, t + (2 ^ 320 : Nat)) else (a.w, t)
  { a with v := t, w := w, n := min (a.n + 1) (2 ^ 32 - 1) }

/-- acc_merge of R255. -/
def Slot48.merge (a b : Slot48) : Slot48 :=
  let r := a.add b.v
  { v := r.v, w := r.w + b.w, nan := a.nan || b.nan, pos := a.pos || b.pos, neg := a.neg || b.neg
    poison := a.poison || b.poison, n := min (a.n + b.n) (2 ^ 32 - 1) }

/-- The integer x × 2^149. -/
def Dy.fix149 (d : Dy) : Int := if 0 ≤ d.e + 149 then shlInt d.m (d.e + 149) else d.m / (2 ^ (-(d.e + 149)).toNat : Nat)

/-- One input into a slot (R255). -/
def Slot48.input (a : Slot48) (v : FV) (poison : Bool) : Slot48 :=
  let a := { a with poison := a.poison || poison }
  match v with
  | .fin d => a.add d.fix149
  | .nan => { a with nan := true, n := min (a.n + 1) (2 ^ 32 - 1) }
  | .inf false => { a with pos := true, n := min (a.n + 1) (2 ^ 32 - 1) }
  | .inf true => { a with neg := true, n := min (a.n + 1) (2 ^ 32 - 1) }

/-- An MX element of magnitude 2^128 or more is an infinity of its sign (R255): the value, MX_RANGE. -/
def mxClamp (v : FV) : FV × Bool :=
  match v with
  | .fin d => if d.abs.lt ⟨1, 128⟩ then (v, false) else (.inf (decide (d.m < 0)), true)
  | v => (v, false)

/-- An EXACT element (Table 10-8) as a number of 384 bits, and from one. -/
def Slot48.bits (a : Slot48) : Nat :=
  (a.v % (2 ^ 320 : Nat)).toNat + (a.w % (2 ^ 24 : Nat)).toNat * 2 ^ 320
    + (b2n a.nan + 2 * b2n a.pos + 4 * b2n a.neg + 8 * b2n a.poison) * 2 ^ 344 + a.n * 2 ^ 352
def Slot48.ofBits (x : Nat) : Slot48 :=
  { v := sgn 40 (nbits x 319 0), w := sgn 3 (nbits x 343 320), nan := nbits x 344 344 == 1, pos := nbits x 345 345 == 1
    neg := nbits x 346 346 == 1, poison := nbits x 347 347 == 1, n := nbits x 383 352 }

/-- The reserved bits of an EXACT element are zero. -/
def exactOk (x : Nat) : Bool := nbits x 351 348 == 0

/-- The value of a slot by the rows of Table 10-9; none: W ≠ 0, with its sign. -/
def Slot48.value (a : Slot48) : Except Bool FV :=
  if a.nan || (a.pos && a.neg) then .ok .nan
  else if a.pos then .ok (.inf false)
  else if a.neg then .ok (.inf true)
  else if a.w ≠ 0 then .error (decide (a.w < 0))
  else .ok (.fin ⟨a.v, -149⟩)

/-- Round a slot to a format (Table 10-9). -/
def Slot48.round (a : Slot48) (fmt : Nat) (rnd : Rnd) (sat : Bool) : Nat × EncInfo :=
  if fmt = 14 then (a.bits, {})
  else match a.value with
    | .ok v => encVal fmt rnd sat v false
    | .error n =>
      if isInt fmt then
        (intTo fmt (if n then (intRange fmt).2 else (intRange fmt).1), ⟨true, false, true⟩)
      else (overflowTo fmt rnd sat n, ⟨true, true, false⟩)

/-! ### FP32 arithmetic -/

/-- FP32 encodings as values. -/
def fp32 (x : Nat) : FV := (fmtOf 0).dec x

/-- A value rounded to FP32, to nearest even. -/
def toFp32 (v : FV) (neg : Bool) : Nat := (encVal 0 .even false v neg).1

/-- An FP32 number plus an exact value, rounded once. -/
def faddEx (acc : Nat) (v : FV) : Nat :=
  match fp32 acc, v with
  | .nan, _ => 0x7FC00000
  | _, .nan => 0x7FC00000
  | .inf x, .inf y => if x = y then (fmtOf 0).infBits x else 0x7FC00000
  | .inf x, _ => (fmtOf 0).infBits x
  | _, .inf y => (fmtOf 0).infBits y
  | .fin a, .fin b => toFp32 (.fin (a.add b)) false

/-- The product of two values (IEEE 754), with the sign of a zero. -/
def FV.mul (a b : FV) : FV :=
  match a, b with
  | .nan, _ => .nan
  | _, .nan => .nan
  | .inf x, .inf y => .inf (x != y)
  | .inf x, .fin d => if d.m = 0 then .nan else .inf (x != decide (d.m < 0))
  | .fin d, .inf y => if d.m = 0 then .nan else .inf (y != decide (d.m < 0))
  | .fin a, .fin b => .fin (a.mul b)

def fneg32 (x : Nat) : Bool := nbits x 31 31 == 1

/-- FP32 product. -/
def fmul32 (a b : Nat) : Nat := toFp32 ((fp32 a).mul (fp32 b)) (fneg32 a != fneg32 b)

/-- FP32 quotient. -/
def fdiv32 (a b : Nat) : Nat :=
  let neg := fneg32 a != fneg32 b
  match fp32 a, fp32 b with
  | .nan, _ => 0x7FC00000
  | _, .nan => 0x7FC00000
  | .inf _, .inf _ => 0x7FC00000
  | .inf _, _ => (fmtOf 0).infBits neg
  | _, .inf _ => (fmtOf 0).signBit neg
  | .fin x, .fin y =>
    if y.m = 0 then (if x.m = 0 then 0x7FC00000 else (fmtOf 0).infBits neg)
    else if x.m = 0 then (fmtOf 0).signBit neg
    else
      -- 320 quotient bits and a sticky bit decide the rounding
      let q := x.m.natAbs * 2 ^ 320 / y.m.natAbs
      let st := if x.m.natAbs * 2 ^ 320 % y.m.natAbs = 0 then 0 else 1
      toFp32 (.fin ⟨if neg then -((2 * q + st : Nat) : Int) else (2 * q + st : Nat), x.e - y.e - 321⟩) neg

/-- A sum of values, exactly (IEEE 754 for infinities and NaN). -/
def FV.add (a b : FV) : FV :=
  match a, b with
  | .nan, _ => .nan
  | _, .nan => .nan
  | .inf x, .inf y => if x = y then .inf x else .nan
  | .inf x, _ => .inf x
  | _, .inf y => .inf y
  | .fin x, .fin y => .fin (x.add y)

def sumFV : List FV → FV
  | [] => .fin ⟨0, 0⟩
  | x :: xs => x.add (sumFV xs)

/-- A comes before b as numbers. -/
def FV.lt (a b : FV) : Bool :=
  match a, b with
  | .nan, _ => false
  | _, .nan => false
  | .inf true, .inf true => false
  | .inf true, _ => true
  | _, .inf true => false
  | .inf false, _ => false
  | _, .inf false => true
  | .fin x, .fin y => x.lt y

def FV.isNan : FV → Bool
  | .nan => true
  | _ => false
def FV.finite : FV → Bool
  | .fin _ => true
  | _ => false

/-- The larger of two FP32 numbers, a NaN if one is. -/
def fmax32 (a b : Nat) : Nat := if (fp32 a).isNan || (fp32 b).isNan then 0x7FC00000 else if (fp32 a).lt (fp32 b) then b else a

/-- The Mill's accumulation of products over K in groups of 32 (R260). -/
def millGroups : Nat → Nat → List (FV × FV) → Nat
  | 0, acc, _ => acc
  | n + 1, acc, ps => match ps with
    | [] => acc
    | _ => millGroups n (faddEx acc (sumFV ((ps.take 32).map fun p => p.1.mul p.2))) (ps.drop 32)
def mill (acc : Nat) (ps : List (FV × FV)) : Nat := millGroups (ps.length / 32 + 1) acc ps

/-- Integer square root by bits from `2^k` down. -/
def isqrtN : Nat → Nat → Nat → Nat
  | 0, _, r => r
  | k + 1, n, r => isqrtN k n (if (r + 2 ^ k) * (r + 2 ^ k) ≤ n then r + 2 ^ k else r)

/-- 2^(f / 2^s) for f < 2^s to 160 bits: the product of the roots of 2 that the bits of f name. -/
def exp2Frac : Nat → Nat → Nat → Nat → Nat
  | 0, _, _, acc => acc
  | s + 1, f, root, acc =>
    let r := isqrtN 162 (root * 2 ^ 160) 0
    exp2Frac s f r (if f.testBit s then acc * r / 2 ^ 160 else acc)

/-- E(x) of R352: exp2(x) correctly rounded to FP32. -/
def fexp2 (x : Nat) : Nat :=
  match fp32 x with
  | .nan => 0x7FC00000
  | .inf true => 0
  | .inf false => 0x7F800000
  | .fin d =>
    if d.m = 0 then 0x3F800000
    else if 7 ≤ d.log2 then (if d.m < 0 then (if 8 ≤ d.log2 then 0 else expN d) else 0x7F800000)
    else if d.log2 < -26 then 0x3F800000
    else expN d
where
  expN (d : Dy) : Nat :=
    let s : Nat := 60
    let fx : Int := if 0 ≤ d.e + s then shlInt d.m (d.e + s) else d.m / (2 ^ (-(d.e + s)).toNat : Nat)
    let k := fx / (2 ^ s : Nat)
    let f := (fx % (2 ^ s : Nat)).toNat
    let m := exp2Frac s f (2 ^ 161) (2 ^ 160)
    toFp32 (.fin ⟨if f = 0 then m else m * 2 + 1, if f = 0 then k - 160 else k - 161⟩) false

/-! ### Press blocks (R263, R290, R291) -/

/-- Elements of a block for the codecs: an MX operand is taken as bytes (log entry 24). -/
def codecBits (fmt : Nat) : Nat := if isMx fmt then 8 else fmtBits fmt

/-- Bitplane `k` of numbers. -/
def bitplane (k : Nat) (ds : List Nat) : List Byte :=
  leBytes ((ds.length + 7) / 8) (packBits 1 (ds.map fun d => nbits d k k))

/-- The bitplanes of n numbers of b bits, from plane b − 1 down. -/
def bitplanes : Nat → List Nat → List Byte
  | 0, _ => []
  | k + 1, ds => bitplane k ds ++ bitplanes k ds

/-- Numbers from their bitplanes. -/
def unplane (n : Nat) : Nat → List Byte → List Nat → List Nat
  | 0, _, acc => acc
  | k + 1, bs, acc =>
    let w := (n + 7) / 8
    let p := leNat (bs.take w)
    unplane n k (bs.drop w) ((List.range n).map fun j => acc.getD j 0 + nbits p j j * 2 ^ k)

/-- Length of the run of zero bytes, or of the others, at the front, at most `m`. -/
def runLen (zero : Bool) : Nat → List Byte → Nat
  | 0, _ => 0
  | _, [] => 0
  | m + 1, b :: bs => if (b == 0) == zero then 1 + runLen zero m bs else 0

/-- Token stream of bytes. -/
def tokens : Nat → List Byte → List Byte
  | 0, _ => []
  | _, [] => []
  | n + 1, b :: bs =>
    let z := b == 0
    let k := runLen z 128 (b :: bs)
    (if z then [BitVec.ofNat 8 (k - 1)] else BitVec.ofNat 8 (0x80 + k - 1) :: (b :: bs).take k)
      ++ tokens n ((b :: bs).drop k)

/-- Bytes of a token stream; none if it breaks off. -/
def untoken : Nat → List Byte → Option (List Byte)
  | 0, ts => if ts.isEmpty then some [] else none
  | _, [] => some []
  | n + 1, t :: ts =>
    if t.toNat < 0x80 then (untoken n ts).map (List.replicate (t.toNat + 1) 0 ++ ·)
    else
      let k := t.toNat - 0x80 + 1
      if ts.length < k then none else (untoken n (ts.drop k)).map (ts.take k ++ ·)

/-- XOR_BITPLANE of elements against references. -/
def xorEncode (b : Nat) (xs rs : List Nat) : List Byte :=
  let ds := (List.range xs.length).map fun j => xs.getD j 0 ^^^ rs.getD j 0
  let bp := bitplanes b ds
  tokens bp.length bp
def xorDecode (b n : Nat) (rs : List Nat) (payload : List Byte) : Option (List Nat) :=
  match untoken payload.length payload with
  | none => none
  | some bp =>
    if bp.length ≠ b * ((n + 7) / 8) then none
    else some ((List.range n).map fun j => (unplane n b bp []).getD j 0 ^^^ rs.getD j 0)

/-- FP32 value of an element of a floating-point format of 16 or 32 bits. -/
def asFp32 (fmt x : Nat) : Nat := if fmt = 0 then x else toFp32 (decVal fmt x) (decNeg fmt x)

def fsub32 (a b : Nat) : Nat := fadd32 a (if fneg32 b then b - 2 ^ 31 else b + 2 ^ 31)

/-- Decoded values of a QDELTA group against its references: the new elements (R291). -/
def qdeltaDecode (fmt : Nat) (rs qs : List Nat) (scale : Nat) : List Nat :=
  (List.range rs.length).map fun j =>
    let r := rs.getD j 0
    let q := toFp32 (mxVal 10 (qs.getD j 0) scale) false
    (encVal fmt .even false (fp32 (fadd32 (asFp32 fmt r) q)) (fneg32 (fadd32 (asFp32 fmt r) q))).1

/-- One QDELTA group: its 33 bytes, the new elements, the new errors. -/
def qdeltaGroup (fmt : Nat) (xs rs es : List Nat) : List Byte × List Nat × List Nat :=
  let n := xs.length
  let t := (List.range n).map fun j => fadd32 (fsub32 (asFp32 fmt (xs.getD j 0)) (asFp32 fmt (rs.getD j 0))) (es.getD j 0)
  let (sc, q, _, _) := quantBlock 10 (fun _ => Rnd.even) ((List.range 32).map fun j =>
    { v := fp32 (t.getD j 0), neg := fneg32 (t.getD j 0) })
  let x' := qdeltaDecode fmt rs q sc
  let e' := (List.range n).map fun j => fsub32 (t.getD j 0) (fsub32 (asFp32 fmt (x'.getD j 0)) (asFp32 fmt (rs.getD j 0)))
  (q.map (BitVec.ofNat 8) ++ [BitVec.ofNat 8 sc], x', e')

/-- QDELTA of a block: payload, new references, new errors. -/
def qdeltaEncode (fmt : Nat) : Nat → List Nat → List Nat → List Nat → List Byte × List Nat × List Nat
  | 0, _, _, _ => ([], [], [])
  | n + 1, xs, rs, es =>
    if xs.isEmpty then ([], [], [])
    else
      let (p, r, e) := qdeltaGroup fmt (xs.take 32) (rs.take 32) (es.take 32)
      let (p', r', e') := qdeltaEncode fmt n (xs.drop 32) (rs.drop 32) (es.drop 32)
      (p ++ p', r ++ r', e ++ e')
def qdeltaAll (fmt : Nat) : Nat → List Nat → List Byte → List Nat
  | 0, _, _ => []
  | n + 1, rs, payload =>
    if rs.isEmpty then []
    else qdeltaDecode fmt (rs.take 32) ((payload.take 32).map BitVec.toNat) ((payload.getD 32 0).toNat)
      ++ qdeltaAll fmt n (rs.drop 32) (payload.drop 33)

/-- A Press block header (Table 12 of chapter 10). -/
structure PressHdr where
  esc : Bool := false
  codec : Nat := 0
  fmt : Nat := 0
  raw : Nat := 0
  enc : Nat := 0
  check : Nat := 0
  deriving DecidableEq, Repr, Inhabited

/-- Read a header; none if it breaks Table 10-12. -/
def pressHdr (x : Nat) : Option PressHdr :=
  let h : PressHdr := { esc := nbits x 127 127 == 1, codec := nbits x 126 124, fmt := nbits x 123 120, raw := nbits x 119 107
                        enc := nbits x 106 94, check := nbits x 31 0 }
  if (h.codec != 1 && h.codec != 2) || nbits x 93 32 != 0 || h.raw == 0 || decide (4096 < h.raw) || h.fmt == 15
      || (h.esc && h.enc != h.raw) || h.raw % (codecBits h.fmt / 8) != 0 then none else some h

/-- Raw bytes as elements of a block, and back. -/
def blockElems (fmt : Nat) (bs : List Byte) : List Nat :=
  let w := codecBits fmt / 8
  (List.range (bs.length / w)).map fun i => leNat ((bs.drop (w * i)).take w)
def elemsBytes (fmt : Nat) (xs : List Nat) : List Byte := (xs.map (leBytes (codecBits fmt / 8))).flatten

/-- Encode raw bytes against references (and errors): the block, the decoded values, the new errors. -/
def pressEncode (codec fmt : Nat) (raw : List Byte) (rs es : List Nat) : List Byte × List Nat × List Nat × Bool :=
  let xs := blockElems fmt raw
  let (p, r, e) := if codec = 1 then (xorEncode (codecBits fmt) xs rs, xs, es) else qdeltaEncode fmt (xs.length + 1) xs rs es
  let dec := if codec = 1 then raw else elemsBytes fmt r
  if raw.length ≤ p.length then
    (leBytes 16 (2 ^ 127 + codec * 2 ^ 124 + fmt * 2 ^ 120 + raw.length * 2 ^ 107 + raw.length * 2 ^ 94 + (crc32c raw).toNat)
      ++ raw, xs, es.map fun _ => 0, true)
  else
    (leBytes 16 (codec * 2 ^ 124 + fmt * 2 ^ 120 + raw.length * 2 ^ 107 + p.length * 2 ^ 94 + (crc32c dec).toNat) ++ p, r, e, false)

/-- Decode a payload under its header against references: raw bytes, none if it is malformed. -/
def pressDecode (h : PressHdr) (payload : List Byte) (rs : List Nat) : Option (List Byte) :=
  let w := codecBits h.fmt / 8
  let n := h.raw / w
  if payload.length ≠ h.enc then none
  else if h.esc then some payload
  else if h.codec = 1 then
    (xorDecode (codecBits h.fmt) n ((List.range n).map fun j => rs.getD j 0) payload).map (elemsBytes h.fmt)
  else if (h.fmt != 0 && h.fmt != 1 && h.fmt != 2) || h.enc != 33 * ((n + 31) / 32) then none
  else some (elemsBytes h.fmt (qdeltaAll h.fmt (n + 1) ((List.range n).map fun j => rs.getD j 0) payload))

end Sys2Proof.Machine
end

