-- ==== Sys2Proof/Machine/TileOp.lean ====
section
/-! DEFINITION. How an operator of a tile runs: the accesses it makes and what it does with their answers
(R246, R247), its operands (Table 10-3), the hayloft (R241, R242). An operator is a tree of steps; a run keeps
the answers it has had and takes the tree up again where the next answer is due. -/

set_option Elab.async false

namespace Sys2Proof.Machine
open Sys2Proof

/-! ### The hayloft -/

/-- The window of a slot on a tile, in bytes: base and size. -/
def State.hlWin (s : State) (tile slot : Nat) : Option (Nat × Nat) :=
  (s.tile.wins.get (1024 * tile + slot)).map fun w => (65536 * w.1, 65536 * w.2)

def hlKey (tile off : Nat) : Nat := tile * 2 ^ 26 + off
def hlLine (tile line : Nat) : Nat := tile * 2 ^ 20 + line

/-- Bytes of the hayloft with their marks (R241). -/
def State.hlBytes (s : State) (tile off n : Nat) : List PByte :=
  (List.range n).map fun i => (s.tile.hl.get (hlKey tile (off + i)), s.tile.poison.get (hlLine tile ((off + i) / 64)))

/-- Store bytes; a line wholly written takes the mark of its bytes, a partly written one keeps its mark. -/
def State.hlStore (tile off : Nat) (bs : List PByte) (s : State) : State :=
  s.modTile fun t =>
    let t := { t with hl := (List.range bs.length).foldl (fun h i =>
      h.set (hlKey tile (off + i)) (bs.getD i (0, false)).1) t.hl }
    { t with poison := (linesOf off bs.length).foldl (fun m l =>
        let whole := decide (off ≤ 64 * l) && decide (64 * l + 64 ≤ off + bs.length)
        let mark := anyPoison ((bs.drop (64 * l - off)).take (64 - (off - 64 * l)))
        m.set (hlLine tile l) (if whole then mark else m.get (hlLine tile l) || mark)) t.poison }

/-- A read and a write at an offset of a slot's window; outside it they fail (R246). -/
def State.hlRead (tile slot off n : Nat) (s : State) : Res × State :=
  match s.hlWin tile slot with
  | some (b, z) => if off + n ≤ z then (.data (s.hlBytes tile (b + off) n), s) else (.fail 3 0, s)
  | none => (.fail 3 0, s)
def State.hlWrite (tile slot off : Nat) (bs : List PByte) (s : State) : Res × State :=
  match s.hlWin tile slot with
  | some (b, z) => if off + bs.length ≤ z then (.data [], s.hlStore tile (b + off) bs) else (.fail 3 0, s)
  | none => (.fail 3 0, s)

/-! ### Accesses and steps -/

/-- What an operator does at once, without a fabric access: on its tile's hayloft, or through the page manager
on the tables of its pool (chapter 13). What each does is `Loc.run`. -/
inductive Loc where
  | hlRead (tile slot off n : Nat)
  | hlWrite (tile slot off : Nat) (bs : List PByte)
  | seqFor (tile slot fjid p q : Nat)
  | poolFor (tile slot fjid p : Nat)
  | needLeaf (q i : Nat)
  | seePte (q i : Nat)
  | needPage (p : Nat)
  | pointPte (q i h : Nat)
  | appendDone (q tokens : Nat)
  | forkChild (fjid p parent q : Nat)
  | forkPte (p parent q i : Nat)
  | forkDone (parent q len : Nat)
  | decodeStart (id tile slot fjid p q : Nat)
  | checkHandle (p gen h : Nat)
  | listPtes (q : Nat) (swap : Bool)
  | needSwap (p : Nat)
  | swappedOut (q i k : Nat)
  | swapFail (q k : Nat)
  | swappedIn (q i h : Nat)
  | clearSeq (q : Nat)
  | dropRef (p h : Nat)

/-- An access of an operator. -/
inductive Act where
  /-- At once: the hayloft, or the page manager's tables. -/
  | loc (f : Loc)
  /-- A fabric READ, for a Gleaner; a WRITE; an ATOMIC. -/
  | rd (g eid fva n : Nat)
  | wr (eid fva : Nat) (data : List Byte) (poison : Bool)
  | atom (eid fva atop size : Nat) (data : List Byte) (poison : Bool)
  /-- A physical access of the page manager or of a decode (R334): extent, PPA. -/
  | phRd (fjid ext ppa n : Nat) (raw : Bool)
  | phWr (fjid ext ppa : Nat) (data : List Byte) (poison raw : Bool)
  /-- It waits for the page manager (R331). -/
  | gate

/-- What an operator notes on its way. -/
inductive Note where
  | elems (n : Nat)
  | poison
  | range
  /-- Counter number and increment: Table 10-15 from 0, Table 12-12 from 16; 32 Binder input bytes; 40, 41
  COW_COPIES and SAT_COPIES of the pool. -/
  | cnt (k n : Nat)

/-- An operator that answers `α`. -/
inductive Op (α : Type) where
  | ret (a : α)
  | stop (status mstatus : Nat)
  | note (n : Note) (k : Op α)
  | ask (as : List Act) (k : List Res → Op α)

def Op.bind {α β : Type} : Op α → (α → Op β) → Op β
  | .ret a, f => f a
  | .stop st m, _ => .stop st m
  | .note n k, f => .note n (k.bind f)
  | .ask as k, f => .ask as fun r => (k r).bind f

def Op.say (n : Note) : Op Unit := .note n (.ret ())
def Op.sayIf (b : Bool) (n : Note) : Op Unit := if b then .note n (.ret ()) else .ret ()
def Op.seq {α : Type} (a : Op Unit) (b : Op α) : Op α := a.bind fun _ => b

/-- Do `f` for every item, in order. -/
def Op.each {α : Type} : List α → (α → Op Unit) → Op Unit
  | [], _ => .ret ()
  | x :: xs, f => (f x).bind fun _ => Op.each xs f

/-- Fold over items, in order. -/
def Op.fold {α β : Type} : List α → β → (β → α → Op β) → Op β
  | [], b, _ => .ret b
  | x :: xs, b, f => (f b x).bind fun b => Op.fold xs b f

/-- The first failure of a step's answers. -/
def firstFail : List Res → Option (Nat × Nat)
  | [] => none
  | .fail st m :: _ => some (st, m)
  | _ :: rs => firstFail rs

def Res.bytes : Res → List PByte
  | .data bs => bs
  | _ => []
/-- An access that failed. -/
def Res.failed : Res → Bool
  | .fail _ _ => true
  | _ => false

def Res.numbers : Res → List Nat
  | .nums ns => ns
  | _ => []

/-- A step all of whose accesses have to succeed (R246). -/
def Op.all {α : Type} (as : List Act) (k : List Res → Op α) : Op α :=
  .ask as fun rs => match firstFail rs with
    | some (st, m) => if st = 2 ∧ m = 11 then .note .poison (.stop st m) else .stop st m
    | none => k rs

/-- One access. -/
def Op.one (a : Act) : Op Res := .all [a] fun rs => .ret (rs.headD (.data []))
def Op.loc (f : Loc) : Op Res := .one (.loc f)
def Op.nums (f : Loc) : Op (List Nat) := (Op.loc f).bind fun r => .ret r.numbers

def Note.add (n : Note) (a : Acc) : Acc :=
  match n with
  | .elems k => { a with elems := a.elems + k }
  | .poison => { a with poison := true }
  | .range => { a with range := true }
  | .cnt k i => { a with cnts := a.cnts ++ [(k, i)] }

/-! ### Operands (Table 10-3) -/

structure Opd where
  addr : Nat := 0
  eid : Nat := 0
  fmt : Nat := 0
  space : Nat := 0
  len : Nat := 0
  stride : Nat := 0
  raw : Nat := 0
  deriving DecidableEq, Repr, Inhabited

/-- Operand `k` of a descriptor. -/
def opd (d k : Nat) : Opd :=
  let x := nbits d (383 + 128 * k) (256 + 128 * k)
  { addr := nbits x 127 71, eid := nbits x 70 55, fmt := nbits x 54 51, space := nbits x 50 48, len := nbits x 47 24
    stride := nbits x 23 0, raw := x }

/-- PARAM, its field `[hi:lo]`, and fields of the header. -/
def dpar (d hi lo : Nat) : Nat := nbits (nbits d 1023 768) hi lo
def dhd (d hi lo : Nat) : Nat := nbits d hi lo
def dOpcode (d : Nat) : Nat := dhd d 255 248
def dFjid (d : Nat) : Nat := dhd d 247 228
def dTile (d : Nat) : Nat := dhd d 227 224
def dRound (d : Nat) : Nat := dhd d 220 219
def dFast (d : Nat) : Bool := dhd d 218 218 == 1
def dSat (d : Nat) : Bool := dhd d 217 217 == 1
def dSeed (d : Nat) : Nat := dhd d 97 66

/-- Where an operator works. -/
structure Ctx where
  id : Nat := 0
  tile : Nat := 0
  slot : Nat := 0
  fjid : Nat := 0
  d : Nat := 0
  deriving Inhabited

/-- Rounding of output element `i`. -/
def Ctx.rnd (c : Ctx) (i : Nat) : Rnd := rndOf (dRound c.d) (dSeed c.d) i
def Ctx.sat (c : Ctx) : Bool := dSat c.d

/-- A run of `n` bytes at `a` cut at multiples of `k`: address and length. -/
def cutAt (k a n : Nat) : List (Nat × Nat) :=
  if n = 0 then []
  else (List.range ((a + n - 1) / k - a / k + 1)).map fun i =>
    let b := a / k + i
    let lo := max a (k * b)
    (lo, min (a + n) (k * b + k) - lo)

/-- Read `n` bytes at byte `off` of an operand; from the fabric by Gleaner `g`, or by all in turn. -/
def Ctx.read (c : Ctx) (o : Opd) (g : Option Nat) (off n : Nat) : Op (List PByte) :=
  if n = 0 then .ret []
  else if o.space = 1 then
    .all ((cutAt 4096 (o.addr + off) n).map fun b => .rd (g.getD (b.1 / 4096 % 4)) o.eid (b.1 % 2 ^ 57) b.2)
      fun rs => .ret (rs.map Res.bytes).flatten
  else (Op.loc (.hlRead c.tile c.slot (o.addr + off) n)).bind fun r => .ret r.bytes

/-- Runs of lines with one mark, within a block of 4,096 bytes. -/
def joinRuns : List (Nat × List Byte × Bool) → List (Nat × List Byte × Bool)
  | [] => []
  | x :: xs => match joinRuns xs with
    | y :: ys => if x.2.2 = y.2.2 ∧ x.1 / 4096 = y.1 / 4096 then (x.1, x.2.1 ++ y.2.1, x.2.2) :: ys else x :: y :: ys
    | [] => [x]

/-- Write bytes at byte `off` of an operand; poisoned lines are counted (R268). -/
def Ctx.write (c : Ctx) (o : Opd) (off : Nat) (bs : List PByte) : Op Unit :=
  let a := o.addr + off
  let lines := (cutAt 64 a bs.length).map fun b =>
    let part := (bs.drop (b.1 - a)).take b.2
    (b.1, plainOf part, anyPoison part)
  let bad := (lines.filter (·.2.2)).length
  let note (k : Op Unit) : Op Unit := if bad = 0 then k else .note .poison (.note (.cnt 12 bad) k)
  if bs.isEmpty then .ret ()
  else if o.space = 1 then
    .all ((joinRuns lines).map fun w => .wr o.eid (w.1 % 2 ^ 57) w.2.1 w.2.2) fun _ => note (.ret ())
  else (Op.loc (.hlWrite c.tile c.slot a bs)).bind fun _ => note (.ret ())

/-! ### Press blocks on the way in (R263) -/

/-- The blocks of coded data from byte `at_` on until `want` raw bytes are there; `refs` gives the reference
elements from a raw offset on. -/
def Ctx.decodeN (c : Ctx) (o : Opd) (fmt : Nat) (refs : List Nat) : Nat → Nat → Nat → List PByte → Op (List PByte)
  | 0, _, _, acc => .ret acc
  | fuel + 1, pos, want, acc =>
    if want ≤ acc.length then .ret acc
    else (c.read o none pos 16).bind fun hb =>
      match pressHdr (leNat (plainOf hb)) with
      | none => .stop 1 0
      | some h =>
        if h.fmt ≠ fmt ∨ want < acc.length + h.raw then .stop 1 0
        else (c.read o none (pos + 16) h.enc).bind fun pb =>
          match pressDecode h (plainOf pb) (refs.drop (acc.length / (codecBits fmt / 8))) with
          | none => .stop 1 0
          | some raw =>
            let crcBad := (crc32c raw).toNat != h.check
            let p := anyPoison hb || anyPoison pb || crcBad
            (Op.sayIf crcBad (.cnt 10 1)).seq
              (Ctx.decodeN c o fmt refs fuel (pos + 16 + h.enc) want (acc ++ marked raw p))
def Ctx.decode (c : Ctx) (o : Opd) (fmt : Nat) (refs : List Nat) (want : Nat) : Op (List PByte) :=
  Ctx.decodeN c o fmt refs want 0 want []

/-- An input operand: read piecewise, or decoded whole at the start (SPACE 3). -/
structure Src where
  o : Opd
  blob : Option (List PByte) := none

def Ctx.source (c : Ctx) (o : Opd) (bytes : Nat) : Op Src :=
  if o.space = 3 then (c.decode o o.fmt [] bytes).bind fun b => .ret { o := o, blob := some b }
  else .ret { o := o }

def Ctx.sread (c : Ctx) (x : Src) (off n : Nat) : Op (List PByte) :=
  match x.blob with
  | some b => .ret ((b.drop off).take n)
  | none => c.read x.o none off n

/-- Elements `i` to `i + n − 1` of the run of `len` elements that starts at byte `base` of a source. -/
def Ctx.elems (c : Ctx) (x : Src) (base len i n : Nat) : Op (List Elem) :=
  let f := x.o.fmt
  if isMx f then
    let i0 := i / 32 * 32
    let n0 := min (len - i0) ((i + n + 31) / 32 * 32 - i0)
    (c.sread x (base + elemBytes f i0) (elemBytes f n0)).bind fun bs =>
      (c.sread x (base + elemBytes f len + i0 / 32) ((n0 + 31) / 32)).bind fun sc =>
        .ret (((mxElemsOf f n0 bs sc).drop (i - i0)).take n)
  else (c.sread x (base + elemBytes f i) (elemBytes f n)).bind fun bs => .ret (elemsOf f n bs)

/-- Pieces of `n` items, `k` at a time: first and count. -/
def pieces (k n : Nat) : List (Nat × Nat) := cutAt k 0 n

/-- Encoded elements as bytes with their marks. -/
def encBytes (fmt : Nat) (xs : List (Nat × Bool)) : List PByte :=
  (xs.map fun x => marked (leBytes (fmtBits fmt / 8) x.1) x.2).flatten

/-- The notes of an encoding. -/
def noteInfo (i : EncInfo) (binder : Bool) : Op Unit :=
  ((Op.sayIf i.range .range).seq (Op.sayIf (binder && i.overflow) (.cnt 6 1))).seq (Op.sayIf (binder && i.special) (.cnt 7 1))

/-! ### Runs -/

def State.run (s : State) (id : Nat) : Option Run := s.tile.runs.get id
def State.setRun (id : Nat) (r : Option Run) (s : State) : State := s.modTile fun t => { t with runs := t.runs.set id r }
def State.modRun (id : Nat) (f : Run → Run) (s : State) : State :=
  match s.run id with
  | some r => s.setRun id (some (f r))
  | none => s

/-- The operator of a run has come to its end. -/
def State.runFin (id : Nat) (acc : Acc) (st m : Nat) (s : State) : State :=
  s.modRun id fun r => { r with fin := some (st, m), acc := acc, log := [], cur := [], open_ := [] }

/-- Steps 2 and 3 of R165 for a physical access (R334). -/
def State.ownExtent (s : State) (e fjid : Nat) : Option Nat :=
  let x := s.extent e
  if x.st != .owned then some 6 else if x.owner = fjid then none else some 2

/-- Hand out a physical access: it is a request of the receiving side. -/
def State.physAsk (id k : Nat) (r : Run) (op fjid ext ppa n : Nat) (data : List Byte) (poison raw : Bool) (s : State) : State :=
  let die := tileDie r.tile
  match s.ownExtent ext fjid with
  | some st => s.modRun id fun r => { r with cur := r.cur.set k (some (.fail 2 st)) }
  | none =>
    let p := s.unitMreq die op 0 n 0 fjid 0xFFFF 0 false data
    let p := { p with hdr := setBits p.hdr 17 17 (b2n poison) }
    let s := s.modRun id fun r => { r with open_ := r.open_.set k (some 4) }
    (s.takeNames 1).setReq s.nextId (some
      { die := die, kind := .own (.tile id r.log.length k) raw, pkt := p, from_ := .own die, slot := r.slot
        segs := [{ off := 0, len := n, ppa := ppa, ext := ext }], exts := [ext] })

/-- Hand out a fabric access. -/
def State.fabAsk (id k g : Nat) (r : Run) (op atop n eid fva : Nat) (data : List Byte) (poison : Bool) (s : State) : State :=
  let die := tileDie r.tile
  let p := s.unitMreq die op atop n fva r.fjid eid 0 false data
  let p := { p with hdr := setBits p.hdr 17 17 (b2n poison) }
  let s := s.modRun id fun r => { r with open_ := r.open_.set k (some g) }
  let s := if g < 4 then s.bump (Adr.TILE_GL_REQUESTS r.tile) 1 else s
  s.unitAsk (.tile id r.log.length k) die r.slot p

end Sys2Proof.Machine
end

