-- ==== Sys2Proof/Machine/KvCore.lean ====
section
/-! DEFINITION. The page manager of the KV pools (chapter 13): geometry, headers, page tables and sequences in
the barn, allocation, counts and lists. Table blocks and swap slots are chained by a link word of the model's
own layout (log entry 26). -/

set_option Elab.async false

namespace Sys2Proof.Machine
open Sys2Proof

def State.pool (s : State) (p : Nat) : KvPool := s.kv.pools.get p
def State.setPool (p : Nat) (x : KvPool) (s : State) : State := s.modKv fun k => { k with pools := k.pools.set p x }
def State.modPool (p : Nat) (f : KvPool → KvPool) (s : State) : State := s.setPool p (f (s.pool p))

/-! ### Geometry (R332) -/

structure Geom where
  kf : Nat := 0
  vf : Nat := 0
  plog : Nat := 0
  P : Nat := 1
  H : Nat := 1
  D : Nat := 64
  ksec : Nat := 0
  vsec : Nat := 0
  deriving DecidableEq, Repr, Inhabited

def dimOf : Nat → Nat
  | 0 => 64 | 1 => 96 | 2 => 128 | 3 => 192 | _ => 256

def Geom.bytes (g : Geom) : Nat := g.H * (g.ksec + g.vsec)

/-- The geometry that a GEOM register spells. -/
def geomOf (w : Word) : Geom :=
  let P := 2 ^ bits w 19 16
  let D := dimOf (bits w 2 0)
  let sec (f : Nat) : Nat := (sizeOf' f (P * D) + 63) / 64 * 64
  { kf := bits w 31 28, vf := bits w 27 24, plog := bits w 19 16, P := P, H := bits w 12 8 + 1, D := D
    ksec := sec (bits w 31 28), vsec := sec (bits w 27 24) }
def State.geom (s : State) (p : Nat) : Geom := geomOf (s.rg (Adr.KVPOOL_GEOM p))

def kvFmt (f : Nat) : Bool := f == 1 || isMx f

/-- The geometry fields lie in range. -/
def geomOk (w : Word) : Bool :=
  kvFmt (bits w 31 28) && kvFmt (bits w 27 24) && decide (4 ≤ bits w 19 16) && decide (bits w 19 16 ≤ 8) && decide (bits w 2 0 ≤ 4)

def State.poolFjid (s : State) (p : Nat) : Nat := s.rf (Adr.KVPOOL_FJID p) 19 0
def State.poolPages (s : State) (p : Nat) : Nat := s.rf (Adr.KVPOOL_PAGES p) 28 0
def State.pagePpa (s : State) (p h : Nat) : Nat := s.rg64 (Adr.KVPOOL_PAGE_PPA_LO p) % 2 ^ 52 + h * (s.geom p).bytes
def State.swapPpa (s : State) (p k : Nat) : Nat := s.rg64 (Adr.KVPOOL_SWAP_PPA_LO p) % 2 ^ 52 + k * (s.geom p).bytes
def State.pageExt (s : State) (p : Nat) : Nat := s.rf (Adr.KVPOOL_EXTENT p) 17 0
def State.swapExt (s : State) (p : Nat) : Nat := s.rf (Adr.KVPOOL_SWAP_EXTENT p) 17 0
def State.homeTile (s : State) (p : Nat) : Nat := s.rf (Adr.KVPOOL_CFG p) 26 24

/-! ### Structures in the barn -/

def State.hdrAt (s : State) (p h : Nat) : Nat := s.rg64 (Adr.KVPOOL_HDR_BASE_LO p) + 16 * h
def State.kvBlkAt (s : State) (p b : Nat) : Nat := s.rg64 (Adr.KVPOOL_TBL_BASE_LO p) + 4096 * b
def State.linkAt (s : State) (p k : Nat) : Nat := s.rg64 (Adr.KVPOOL_SWAP_LINK_LO p) + 4 * k
def State.seqAt (s : State) (q : Nat) : Nat := s.rg64 Adr.KVSEQ_SEQ_BASE_LO + 64 * q

/-- A page header (Table 13-1). -/
structure PageHdr where
  st : Nat := 0
  ref : Nat := 0
  gen : Nat := 1
  epoch : Bool := false
  next : Option Nat := none
  deriving DecidableEq, Repr, Inhabited

def PageHdr.word (h : PageHdr) : Nat :=
  h.st * 2 ^ 126 + h.ref * 2 ^ 110 + h.gen * 2 ^ 94 + b2n h.epoch * 2 ^ 93 + b2n h.next.isSome * 2 ^ 92 + h.next.getD 0 * 2 ^ 64
def pageHdr (x : Nat) : PageHdr :=
  { st := nbits x 127 126, ref := nbits x 125 110, gen := nbits x 109 94, epoch := nbits x 93 93 == 1
    next := if nbits x 92 92 = 1 then some (nbits x 91 64) else none }
def State.hdr (s : State) (p h : Nat) : PageHdr := pageHdr (s.barnNum (s.hdrAt p h) 16)
def State.setHdr (p h : Nat) (x : PageHdr) (s : State) : State := s.setBarnNum (s.hdrAt p h) 16 x.word

/-- A sequence descriptor (Table 13-3). -/
structure SeqDesc where
  st : Nat := 0
  pool : Nat := 0
  fjid : Nat := 0
  len : Nat := 0
  base : Nat := 0
  dir : Nat := 0
  readers : Nat := 0
  swapped : Nat := 0
  last : Nat := 0
  deriving DecidableEq, Repr, Inhabited

def SeqDesc.word (q : SeqDesc) : Nat :=
  q.st * 2 ^ 509 + q.pool * 2 ^ 505 + q.fjid * 2 ^ 485 + q.len * 2 ^ 462 + q.base * 2 ^ 439 + q.dir * 2 ^ 415 + q.readers * 2 ^ 407
    + q.swapped * 2 ^ 384 + q.last % 2 ^ 64 * 2 ^ 320
def seqDesc (x : Nat) : SeqDesc :=
  { st := nbits x 511 509, pool := nbits x 508 505, fjid := nbits x 504 485, len := nbits x 484 462, base := nbits x 461 439
    dir := nbits x 438 415, readers := nbits x 414 407, swapped := nbits x 402 384, last := nbits x 383 320 }

/-- The descriptor of a sequence; one that was never created is FREE. -/
def State.seq (s : State) (q : Nat) : SeqDesc := if (s.kv.seqs.get q).isNone then {} else seqDesc (s.barnNum (s.seqAt q) 64)
def State.setSeq (q : Nat) (x : SeqDesc) (s : State) : State :=
  (s.setBarnNum (s.seqAt q) 64 x.word).modKv fun k => { k with seqs := k.seqs.set q (if x.st = 0 then none else some x.pool) }

/-- A page-table entry (Table 13-4): VALID, SWAP, GEN, HANDLE. -/
structure Pte where
  valid : Bool := false
  swap : Bool := false
  gen : Nat := 0
  h : Nat := 0
  deriving DecidableEq, Repr, Inhabited

def Pte.word (e : Pte) : Nat := b2n e.valid * 2 ^ 63 + b2n e.swap * 2 ^ 62 + e.gen * 2 ^ 46 + e.h
def pteOf (x : Nat) : Pte := { valid := nbits x 63 63 == 1, swap := nbits x 62 62 == 1, gen := nbits x 61 46, h := nbits x 27 0 }

/-- Directory entry `k` of a sequence: the leaf block. -/
def State.dirEntry (s : State) (p dir k : Nat) : Option Nat :=
  let x := s.barnNum (s.kvBlkAt p dir + 8 * k) 8
  if nbits x 63 63 = 1 then some (nbits x 23 0) else none

/-- Barn address of page-table entry `i` of a sequence, if its leaf block is there. -/
def State.pteAt (s : State) (p dir i : Nat) : Option Nat :=
  (s.dirEntry p dir (i / 512)).map fun b => s.kvBlkAt p b + 8 * (i % 512)
def State.pte (s : State) (p dir i : Nat) : Pte :=
  match s.pteAt p dir i with
  | some a => pteOf (s.barnNum a 8)
  | none => {}
def State.setPte (p dir i : Nat) (e : Pte) (s : State) : State :=
  match s.pteAt p dir i with
  | some a => s.setBarnNum a 8 e.word
  | none => s

/-- Page indices of a sequence whose entries are VALID, rising. -/
def State.validPages (s : State) (p dir : Nat) : List Nat :=
  ((List.range 512).filter fun k => (s.dirEntry p dir k).isSome).flatMap fun k =>
    (List.range 512).filterMap fun i => if (s.pte p dir (512 * k + i)).valid then some (512 * k + i) else none

/-- A pool becomes FAILED. -/
def State.poolFail (p : Nat) (s : State) : State := s.modPool p fun x => { x with st := .failed }

/-- An uncorrectable error on a structure of a pool: the lines are poisoned (R361). -/
def State.metaBad (s : State) (a n : Nat) : Bool := (linesOf a n).any s.poisoned

/-- Touch a structure: an uncorrectable error fails the pool. -/
def State.metaDo (p a n : Nat) (f : State → Res × State) (s : State) : Res × State :=
  if s.metaBad a n then (.fail 2 7, (s.poolFail p).raise Err.kvpool_KV_META_UNCORR p [] (some (s.poolFjid p))) else f s

/-! ### Lists -/

/-- Take a table block: it is zeroed (R337, R339). -/
def State.takeBlk (p : Nat) (s : State) : Option Nat × State :=
  match (s.pool p).tblHead with
  | none => (none, s)
  | some b =>
    let x := s.barnNum (s.kvBlkAt p b) 8
    let next := if nbits x 63 63 = 1 then some (nbits x 23 0) else none
    (some b, (s.modPool p fun q => { q with tblHead := next, freeTbl := q.freeTbl - 1 }).setBarn (s.kvBlkAt p b) (List.replicate 4096 0))

def State.freeBlk (p b : Nat) (s : State) : State :=
  let h := (s.pool p).tblHead
  (s.setBarnNum (s.kvBlkAt p b) 8 (b2n h.isSome * 2 ^ 63 + h.getD 0)).modPool p fun q =>
    { q with tblHead := some b, freeTbl := q.freeTbl + 1 }

/-- Take a swap slot. -/
def State.takeSwap (p : Nat) (s : State) : Option Nat × State :=
  match (s.pool p).swapHead with
  | none => (none, s)
  | some k =>
    let x := s.barnNum (s.linkAt p k) 4
    (some k, s.modPool p fun q =>
      { q with swapHead := if nbits x 31 31 = 1 then some (nbits x 27 0) else none, freeSwap := q.freeSwap - 1 })

def State.freeSwapSlot (p k : Nat) (s : State) : State :=
  let h := (s.pool p).swapHead
  (s.setBarnNum (s.linkAt p k) 4 (b2n h.isSome * 2 ^ 31 + h.getD 0)).modPool p fun q =>
    { q with swapHead := some k, freeSwap := q.freeSwap + 1 }

/-- An allocation has left FREE_PAGES below LOW (R347). -/
def State.poolLow (p : Nat) (s : State) : State :=
  if (s.pool p).free < s.rf (Adr.KVPOOL_LOW p) 28 0 then
    (s.raiseInt .kvpool p 1).modPool p fun q => { q with autoOn := q.autoOn || bit (s.rg (Adr.KVPOOL_CFG p)) 8 }
  else s

/-- Allocate a page: the head of the free list, LIVE with one reference (Table 13-6). -/
def State.takePage (p : Nat) (s : State) : Option Nat × State :=
  match (s.pool p).freeHead with
  | none => (none, s)
  | some h =>
    let x := s.hdr p h
    let s := s.setHdr p h { st := 1, ref := 1, gen := x.gen }
    (some h, (s.modPool p fun q => { q with
      freeHead := x.next, freeTail := if x.next.isNone then none else q.freeTail, free := q.free - 1, live := q.live + 1
      refs := q.refs + 1 }).poolLow p)

/-- Append a page to the list of a reclaim epoch. -/
def State.deferPage (p h : Nat) (x : PageHdr) (s : State) : State :=
  let e := s.kv.epoch
  let gen := incSkip0 x.gen 16
  let s := s.setHdr p h { st := 2, ref := 0, gen := gen, epoch := e }
  let q := s.pool p
  let tail := if e then q.defTail1 else q.defTail0
  let s := match tail with
    | some t => s.setHdr p t { s.hdr p t with next := some h }
    | none => s
  s.setPool p { q with
    live := q.live - 1, deferred := q.deferred + 1
    defHead0 := if e then q.defHead0 else some (q.defHead0.getD h), defTail0 := if e then q.defTail0 else some h
    defHead1 := if e then some (q.defHead1.getD h) else q.defHead1, defTail1 := if e then some h else q.defTail1 }

/-- A reference to a page is dropped (Table 13-6). -/
def State.dropRef (p h : Nat) (s : State) : State :=
  let x := s.hdr p h
  let s := s.modPool p fun q => { q with refs := q.refs - 1 }
  if x.ref ≤ 1 then s.deferPage p h x else s.setHdr p h { x with ref := x.ref - 1 }

/-- Count resident page-table entries. -/
def State.pteCount (p : Nat) (up : Bool) (s : State) : State :=
  s.modPool p fun q => { q with pteRefs := if up then q.pteRefs + 1 else q.pteRefs - 1 }

/-- CLEAR of R343: every entry goes, every leaf block is freed, the directory stays. -/
def State.clearSeq (q : Nat) (s : State) : State :=
  let x := s.seq q
  let p := x.pool
  let s := (s.validPages p x.dir).foldl (fun s i =>
    let e := s.pte p x.dir i
    if e.swap then s.freeSwapSlot p e.h else (s.dropRef p e.h).pteCount p false) s
  let s := ((List.range 512).filterMap (s.dirEntry p x.dir)).foldl (fun s b => s.freeBlk p b) s
  (s.setBarn (s.kvBlkAt p x.dir) (List.replicate 4096 0)).setSeq q { x with len := 0, swapped := 0 }

/-! ### Steps of the operators -/

/-- What operations find of a pool's state (Table 13-2). -/
def State.poolCheck (s : State) (p : Nat) : Option (Nat × Nat) :=
  match (s.pool p).st with
  | .off => some (2, 1)
  | .init => some (2, 9)
  | .failed => some (2, 7)
  | .ready => none

/-- The pool belongs to another job: a violation (R338, R136). -/
def State.kvPerm (tile slot fjid : Nat) (s : State) : Res × State :=
  (.fail 2 2, s.noteViol slot 2 (s.localEid (tileDie tile)) 0 0 fjid)

/-- The sequence of an operation (R338, Table 13-7): STATE is ACTIVE. Answers LEN, BASE_POS. -/
def State.seqFor (tile slot fjid p q : Nat) (s : State) : Res × State :=
  match s.poolCheck p with
  | some (a, b) => (.fail a b, s)
  | none => s.metaDo p (s.seqAt q) 64 fun s =>
    let x := s.seq q
    if x.st = 0 then (.fail 2 1, s)
    else if x.fjid ≠ fjid then s.kvPerm tile slot fjid
    else if x.pool ≠ p then (.fail 2 1, s)
    else if x.st ≠ 1 then (.fail 2 9, s)
    else (.nums [x.len, x.base], s)

/-- No page or table block is free (R341). -/
def State.poolEmpty (p : Nat) (s : State) : Res × State :=
  (.fail 2 9, s.raise Err.kvpool_POOL_EMPTY p [] (some (s.poolFjid p)))

/-- The leaf block for page index `i` is there or taken. -/
def State.needLeaf (q i : Nat) (s : State) : Res × State :=
  let x := s.seq q
  s.metaDo x.pool (s.kvBlkAt x.pool x.dir + 8 * (i / 512)) 8 fun s =>
    match s.dirEntry x.pool x.dir (i / 512) with
    | some _ => (.nums [], s)
    | none => match s.takeBlk x.pool with
      | (none, s) => s.poolEmpty x.pool
      | (some b, s) => (.nums [], s.setBarnNum (s.kvBlkAt x.pool x.dir + 8 * (i / 512)) 8 (2 ^ 63 + b))

/-- The entry of page index `i`: VALID, SWAP, GEN, HANDLE and the page's REFCNT. -/
def State.seePte (q i : Nat) (s : State) : Res × State :=
  let x := s.seq q
  let e := s.pte x.pool x.dir i
  let f (s : State) : Res × State :=
    (.nums [b2n e.valid, b2n e.swap, e.gen, e.h, if e.valid && !e.swap then (s.hdr x.pool e.h).ref else 0], s)
  match s.pteAt x.pool x.dir i with
  | some a => s.metaDo x.pool a 8 fun s => if e.valid && !e.swap then s.metaDo x.pool (s.hdrAt x.pool e.h) 16 f else f s
  | none => f s

/-- Allocate a page: its handle. -/
def State.needPage (p : Nat) (s : State) : Res × State :=
  match s.takePage p with
  | (none, s) => s.poolEmpty p
  | (some h, s) => (.nums [h], s)

/-- The entry of page index `i` names a page; the page it named loses a reference. -/
def State.pointPte (q i h : Nat) (s : State) : Res × State :=
  let x := s.seq q
  let e := s.pte x.pool x.dir i
  let s := if e.valid && !e.swap then s.dropRef x.pool e.h
    else if e.valid then (s.freeSwapSlot x.pool e.h).pteCount x.pool true
    else s.pteCount x.pool true
  (.nums [], s.setPte x.pool x.dir i { valid := true, gen := (s.hdr x.pool h).gen, h := h })

/-- The tokens of an APPEND are in place (R339). -/
def State.appendDone (q tokens : Nat) (s : State) : Res × State :=
  let x := s.seq q
  (.nums [], (s.setSeq q { x with len := x.len + tokens, last := s.ns }).bump (Adr.KVPOOL_TOKENS_APPENDED x.pool) tokens)

/-- The child of a FORK, cleared (R342). -/
def State.forkChild (fjid p parent q : Nat) (s : State) : Res × State :=
  s.metaDo p (s.seqAt q) 64 fun s =>
    let x := s.seq q
    if x.st = 0 then (.fail 2 1, s)
    else if x.st ≠ 1 ∨ x.len ≠ 0 ∨ x.readers ≠ 0 ∨ x.pool ≠ p ∨ x.fjid ≠ fjid ∨ q = parent then (.fail 2 9, s)
    else (.nums [], s.clearSeq q)

/-- Count the child's reference on the parent's page, and point the child's entry at it: 1 and the handle
where the count is full. -/
def State.forkRef (p q i : Nat) (e : Pte) (s : State) : Res × State :=
  let x := s.hdr p e.h
  if x.ref = 65535 then (.nums [1, e.h], s)
  else
    let s := (s.setHdr p e.h { x with ref := x.ref + 1 }).modPool p fun q => { q with refs := q.refs + 1 }
    (.nums [0], (s.setPte p (s.seq q).dir i e).pteCount p true)

/-- The child's entry `i` shares the parent's page: 0; or the count is full: 1 and the page. -/
def State.forkPte (p parent q i : Nat) (s : State) : Res × State :=
  let r := s.needLeaf q i
  let e := r.2.pte p (r.2.seq parent).dir i
  if r.1.failed then r else r.2.metaDo p (r.2.hdrAt p e.h) 16 (State.forkRef p q i e)

def State.forkDone (parent q len : Nat) (s : State) : Res × State :=
  let x := s.seq q
  (.nums [], (s.setSeq q { x with len := len, base := (s.seq parent).base }).bump (Adr.KVPOOL_FORKS x.pool) 1)

/-- The start of a decode of mode SEQ: READERS + 1, BUSY at 255 (Table 13-7). Answers LEN, BASE_POS. -/
def State.decodeStart (id tile slot fjid p q : Nat) (s : State) : Res × State :=
  match s.seqFor tile slot fjid p q with
  | (.nums ns, s) =>
    let x := s.seq q
    if x.readers = 255 then (.fail 2 9, s)
    else (.nums ns, (s.setSeq q { x with readers := x.readers + 1, last := s.ns }).modRun id fun r => { r with reads := some q })
  | r => r

/-- The pool of a decode of another mode: READY and of this job. -/
def State.poolFor (tile slot fjid p : Nat) (s : State) : Res × State :=
  match s.poolCheck p with
  | some (a, b) => (.fail a b, s)
  | none => if s.poolFjid p ≠ fjid then s.kvPerm tile slot fjid else (.nums [], s)

/-- A page handle of a page list is checked when the page is first read (R345). -/
def State.checkHandle (p gen h : Nat) (s : State) : Res × State :=
  let stale (s : State) : Res × State :=
    (.fail 2 12, (s.bump (Adr.KVPOOL_STALE_PAGE p) 1).raise Err.kvpool_STALE_PAGE p [] (some (s.poolFjid p)))
  if s.poolPages p ≤ h then stale s
  else s.metaDo p (s.hdrAt p h) 16 fun s => if (s.hdr p h).st ≠ 1 ∨ (s.hdr p h).gen ≠ gen then stale s else (.nums [], s)

/-- Entries of a sequence: those that name swap slots, or those that name pages. -/
def State.listPtes (q : Nat) (swap : Bool) (s : State) : Res × State :=
  let x := s.seq q
  (.nums ((s.validPages x.pool x.dir).filter fun i => (s.pte x.pool x.dir i).swap == swap), s)

/-- A swap slot for a page, if one is free. -/
def State.needSwap (p : Nat) (s : State) : Res × State :=
  match s.takeSwap p with
  | (none, s) => (.nums [], s)
  | (some k, s) => (.nums [k], s)

/-- The page of entry `i` has been copied to a swap slot (R346). -/
def State.swappedOut (q i k : Nat) (s : State) : Res × State :=
  let x := s.seq q
  let e := s.pte x.pool x.dir i
  let s := ((s.dropRef x.pool e.h).pteCount x.pool false).setPte x.pool x.dir i { valid := true, swap := true, h := k }
  (.nums [], (s.setSeq q { s.seq q with swapped := x.swapped + 1 }).bump (Adr.KVPOOL_SWAP_OUT x.pool) 1)

/-- A swap-out copy failed: the page stays. -/
def State.swapFail (q k : Nat) (s : State) : Res × State :=
  let p := (s.seq q).pool
  (.nums [], (s.freeSwapSlot p k).raise Err.kvpool_SWAP_FAIL p [q] (some (s.poolFjid p)))

/-- Entry `i` has been restored to a page. -/
def State.swappedIn (q i h : Nat) (s : State) : Res × State :=
  let (_, s) := s.pointPte q i h
  let x := s.seq q
  (.nums [], (s.setSeq q { x with swapped := x.swapped - 1 }).bump (Adr.KVPOOL_SWAP_IN x.pool) 1)

end Sys2Proof.Machine
end

