-- ==== Sys2Proof/Machine/TilePress.lean ====
section
/-! DEFINITION. The operators COPY, CONVERT, QUANTIZE, DEQUANTIZE, ENCODE, DECODE, GEMM, REDUCE and
ATOMIC_BATCH (R260 to R265). For each: whether its descriptor is malformed, the operands checked against the
window (R246), and what it does. Elements are worked on in ascending order and written as they are formed
(log entry 22). -/

set_option Elab.async false

namespace Sys2Proof.Machine
open Sys2Proof

/-- An operator of a descriptor. -/
structure Plan where
  bad : Bool := true
  /-- Operands and the bytes they span from ADDR. -/
  spans : List (Opd × Nat) := []
  prog : Op Unit := .stop 1 0
  /-- Units: 0 Mill, 1 Press, 2 Gleaners, 3 Winnowers, 4 the atomic unit; slots on each Binder. -/
  units : List Nat := []
  slots : List Nat := [0, 0, 0, 0]
  /-- Cycles the Mill works (R261). -/
  mill : Nat := 0

/-- An operand that is not used: all fields zero. -/
def Opd.none_ (o : Opd) : Bool := o.raw == 0

/-- An operand in one of the spaces given, well-formed by Table 10-3, of some elements. -/
def Opd.ok (o : Opd) (spaces : List Nat) : Bool :=
  spaces.contains o.space && o.len != 0 && o.fmt != 15 && (!isMx o.fmt || o.len % 32 == 0)
    && (o.space == 1 || (o.eid == 0 && decide (o.addr < 2 ^ 26)))

/-- Bytes of an operand without strides. -/
def Opd.bytes (o : Opd) : Nat := sizeOf' o.fmt o.len

/-- The span of an operand that is read by SPACE 3 is found as it is read (log entry 24). -/
def spanOf (o : Opd) : List (Opd × Nat) := if o.space = 2 then [(o, o.bytes)] else []

def pressOf (os : List Opd) : List Nat := if os.any fun o => o.space == 3 then [1] else []

/-- Elements whose last byte lies below byte `x` of an operand. -/
def wholeElems (o : Opd) (x : Nat) : Nat := min o.len (8 * x / fmtBits o.fmt)

/-! ### COPY -/

def copyPlan (c : Ctx) : Plan :=
  let a := opd c.d 0
  let b := opd c.d 1
  { bad := !a.ok [1, 2, 3] || !b.ok [1, 2] || a.fmt != b.fmt || a.len != b.len || dpar c.d 255 0 != 0
      || !(opd c.d 2).none_ || !(opd c.d 3).none_
    spans := spanOf a ++ spanOf b
    units := 2 :: pressOf [a]
    prog := (c.source a a.bytes).bind fun x => .each (pieces 4096 a.bytes) fun w =>
      (c.sread x w.1 w.2).bind fun bs => (c.write b w.1 bs).seq
        (.say (.elems (wholeElems b (w.1 + w.2) - wholeElems b w.1))) }

/-! ### The Press -/

/-- Formats that CONVERT reads and writes. -/
def plainFmt (f : Nat) : Bool := decide (f < 5) || (decide (11 ≤ f) && decide (f ≤ 14))

/-- One element converted to a format. -/
def convertElem (c : Ctx) (fin fout i : Nat) (x : Elem) : (Nat × Bool) × EncInfo :=
  if fin = 14 then
    let r := (Slot48.ofBits x.bits).round fout (c.rnd i) c.sat
    ((r.1, x.poison || nbits x.bits 347 347 == 1), r.2)
  else if fout = 14 then ((({} : Slot48).input x.v x.poison).bits, x.poison) |> fun p => (p, {})
  else
    let r := encVal fout (c.rnd i) c.sat x.v x.neg
    ((r.1, x.poison), r.2)

/-- CONVERT and DEQUANTIZE: element by element. -/
def convertProg (c : Ctx) (a b : Opd) : Op Unit :=
  (c.source a a.bytes).bind fun x => .each (pieces 256 a.len) fun w =>
    (c.elems x 0 a.len w.1 w.2).bind fun es =>
      if a.fmt == 14 && es.any fun e => !exactOk e.bits then .stop 1 0
      else
        let out := (List.range es.length).map fun i => convertElem c a.fmt b.fmt (w.1 + i) (es.getD i {})
        let inf := out.map (·.2)
        ((c.write b (elemBytes b.fmt w.1) (encBytes b.fmt (out.map (·.1)))).seq (.each inf fun i => noteInfo i (a.fmt == 14))).seq
          (.say (.elems w.2))

def convertPlan (c : Ctx) : Plan :=
  let a := opd c.d 0
  let b := opd c.d 1
  { bad := !a.ok [1, 2, 3] || !b.ok [1, 2] || a.len != b.len || !plainFmt a.fmt || !plainFmt b.fmt || dpar c.d 255 0 != 0
      || !(opd c.d 2).none_ || !(opd c.d 3).none_
    spans := spanOf a ++ spanOf b, units := [1], prog := convertProg c a b }

def dequantPlan (c : Ctx) : Plan :=
  let a := opd c.d 0
  let b := opd c.d 1
  { bad := !a.ok [1, 2, 3] || !b.ok [1, 2] || a.len != b.len || !(isMx a.fmt || a.fmt == 3 || a.fmt == 4)
      || decide (2 < b.fmt) || dpar c.d 255 0 != 0 || !(opd c.d 2).none_ || !(opd c.d 3).none_
    spans := spanOf a ++ spanOf b, units := [1], prog := convertProg c a b }

/-- Quantised blocks as the bytes of their elements and of their scales (R253). -/
def quantBytes (fmt : Nat) (qs : List (Nat × List Nat × Bool)) : List PByte × List PByte :=
  let p := qs.flatMap fun q => q.2.1.map fun _ => q.2.2
  let bits := packBits (fmtBits fmt) (qs.flatMap (·.2.1))
  let bs := leBytes (elemBytes fmt p.length) bits
  ((List.range bs.length).map fun i => (bs.getD i 0, p.getD (8 * i / fmtBits fmt) false),
    qs.map fun q => (BitVec.ofNat 8 q.1, q.2.2))

/-- The notes of a quantised block: a NaN block counts MX_RANGE. -/
def noteQuant (nan sat : Bool) : Op Unit := (Op.sayIf nan (.cnt 8 1)).seq (Op.sayIf (nan || sat) .range)

def quantPlan (c : Ctx) : Plan :=
  let a := opd c.d 0
  let b := opd c.d 1
  { bad := !a.ok [1, 2, 3] || !b.ok [1, 2] || a.len != b.len || decide (2 < a.fmt) || !isMx b.fmt || dpar c.d 255 0 != 0
      || !(opd c.d 2).none_ || !(opd c.d 3).none_
    spans := spanOf a ++ spanOf b, units := [1]
    prog := (c.source a a.bytes).bind fun x => .each (pieces 1024 a.len) fun w =>
      (c.elems x 0 a.len w.1 w.2).bind fun es =>
        let qs := (pieces 32 w.2).map fun v =>
          let blk := (es.drop v.1).take v.2
          (quantBlock b.fmt (fun j => c.rnd (w.1 + v.1 + j)) blk, blk.any (·.poison))
        let (eb, sb) := quantBytes b.fmt (qs.map fun q => (q.1.1, q.1.2.1, q.2))
        (((c.write b (elemBytes b.fmt w.1) eb).seq (c.write b (elemBytes b.fmt b.len + w.1 / 32) sb)).seq
          (.each qs fun q => noteQuant q.1.2.2.1 q.1.2.2.2)).seq (.say (.elems w.2)) }

/-! ### ENCODE and DECODE (R263; log entry 24) -/

/-- Raw bytes of a block: whole elements, at most 4,096 bytes. -/
def blockRaw (fmt : Nat) : Nat := 4096 / (codecBits fmt / 8) * (codecBits fmt / 8)

/-- The reference operand OP2, if there is one, as elements. -/
def Ctx.refs (c : Ctx) (o : Opd) (bytes : Nat) : Op (List Nat) :=
  if o.none_ then .ret [] else (c.read o none 0 bytes).bind fun bs => .ret (blockElems o.fmt (plainOf bs))

def encodePlan (c : Ctx) : Plan :=
  let a := opd c.d 0
  let b := opd c.d 1
  let r := opd c.d 2
  let codec := dpar c.d 255 253
  let n := a.bytes
  let blk := blockRaw a.fmt
  { bad := !a.ok [1, 2] || !b.ok [1, 2] || a.fmt != b.fmt || a.len != b.len || (codec != 1 && codec != 2)
      || (codec == 2 && decide (2 < a.fmt)) || dpar c.d 252 0 != 0 || !(opd c.d 3).none_
      || !(r.none_ || (r.ok [1, 2] && r.fmt == a.fmt && r.len == a.len))
    spans := spanOf a ++ (if b.space = 2 then [(b, n + 16 * ceilDiv n blk)] else []) ++ spanOf r
    units := [1]
    prog := (c.refs r n).bind fun rs =>
      (Op.fold (cutAt blk 0 n) 0 fun (pos : Nat) w => (c.read a none w.1 w.2).bind fun bs =>
        let k := w.2 / (codecBits a.fmt / 8)
        let refs := (List.range k).map fun i => rs.getD (w.1 / (codecBits a.fmt / 8) + i) 0
        let (out, _, _, esc) := pressEncode codec a.fmt (plainOf bs) refs (List.replicate k 0)
        (((c.write b pos (marked out (anyPoison bs))).seq (Op.sayIf esc (.cnt 9 1))).seq
          (.say (.elems (wholeElems a (w.1 + w.2) - wholeElems a w.1)))).bind fun _ => .ret (pos + out.length)).bind fun _ => .ret () }

def decodePlan (c : Ctx) : Plan :=
  let a := opd c.d 0
  let b := opd c.d 1
  let r := opd c.d 2
  { bad := !a.ok [1, 2] || !b.ok [1, 2] || a.fmt != b.fmt || a.len != b.len || dpar c.d 255 0 != 0 || !(opd c.d 3).none_
      || !(r.none_ || (r.ok [1, 2] && r.fmt == a.fmt && r.len == a.len))
    spans := spanOf b ++ spanOf r
    units := [1]
    prog := (c.refs r b.bytes).bind fun rs => (c.decode a a.fmt rs b.bytes).bind fun bs =>
      .each (pieces 4096 bs.length) fun w => (c.write b w.1 ((bs.drop w.1).take w.2)).seq
        (.say (.elems (wholeElems b (w.1 + w.2) - wholeElems b w.1))) }

/-! ### GEMM (R260, R261) -/

/-- All elements of a matrix of `rows` rows of `cols`, with its row pitch. -/
def Ctx.matrix (c : Ctx) (o : Opd) (rows cols : Nat) : Op (List Elem) :=
  if o.stride = 0 ∨ o.space = 3 then (c.source o o.bytes).bind fun x => c.elems x 0 o.len 0 o.len
  else (Op.fold (List.range rows) ([] : List (List Elem)) fun acc r =>
    (c.elems { o := o } (r * o.stride) cols 0 cols).bind fun es => .ret (acc ++ [es])).bind fun m => .ret m.flatten

/-- Bytes that a strided operand of `rows` rows spans. -/
def strided (o : Opd) (rows cols : Nat) : Nat :=
  if o.stride = 0 then o.bytes else (rows - 1) * o.stride + sizeOf' o.fmt cols

/-- Formats of A and B (Table 10-11), and the K_c of a format. -/
def millFmt (f : Nat) : Bool := decide (f ≤ 10)
def millKc (a b : Nat) : Nat :=
  if a = 0 ∨ b = 0 then 2 else if a = 1 ∨ a = 2 ∨ b = 1 ∨ b = 2 then 16 else if a = 9 ∧ b = 9 then 64 else 32
def millD (m n k kc : Nat) : Nat := ceilDiv m 16 * ceilDiv n 100 * ceilDiv k kc

def gemmPlan (c : Ctx) : Plan :=
  let a := opd c.d 0
  let b := opd c.d 1
  let o := opd c.d 2
  let M := dpar c.d 255 232
  let N := dpar c.d 231 208
  let K := dpar c.d 207 184
  let accum := dpar c.d 183 183 == 1
  let ta := dpar c.d 182 182 == 1
  let tb := dpar c.d 181 181 == 1
  let (ar, ac) := if ta then (K, M) else (M, K)
  let (br, bc) := if tb then (N, K) else (K, N)
  let mxRow (x : Opd) (cols : Nat) : Bool := isMx x.fmt && x.stride != 0 && cols % 32 != 0
  { bad := !a.ok [2, 3] || !b.ok [2, 3] || !o.ok [2] || M == 0 || N == 0 || K == 0 || a.len != M * K || b.len != K * N
      || o.len != M * N || ((isMx a.fmt || isMx b.fmt) && K % 32 != 0) || !millFmt a.fmt || !millFmt b.fmt || decide (2 < o.fmt)
      || dpar c.d 180 0 != 0 || !(opd c.d 3).none_ || mxRow a ac || mxRow b bc
    spans := (if a.space = 2 then [(a, strided a ar ac)] else []) ++ (if b.space = 2 then [(b, strided b br bc)] else [])
      ++ [(o, strided o M N)]
    units := 0 :: pressOf [a, b]
    mill := millD M N K (millKc a.fmt b.fmt)
    prog := (c.matrix a ar ac).bind fun A => (c.matrix b br bc).bind fun B =>
      .each (List.range M) fun i =>
        (if accum then c.elems { o := o } (if o.stride = 0 then elemBytes o.fmt (i * N) else i * o.stride) N 0 N
          else .ret (List.replicate N {})).bind fun old =>
          let out := (List.range N).map fun j =>
            let ps := (List.range K).map fun k =>
              (A.getD (if ta then k * M + i else i * K + k) {}, B.getD (if tb then j * K + k else k * N + j) {})
            let c0 := old.getD j {}
            let acc := mill (toFp32 c0.v c0.neg) (ps.map fun p => (p.1.v, p.2.v))
            let r := encVal o.fmt (c.rnd (i * N + j)) c.sat (fp32 acc) (fneg32 acc)
            ((r.1, c0.poison || ps.any fun p => p.1.poison || p.2.poison), r.2)
          ((c.write o (if o.stride = 0 then elemBytes o.fmt (i * N) else i * o.stride) (encBytes o.fmt (out.map (·.1)))).seq
            (.each (out.map (·.2)) fun r => noteInfo r false)).seq (.say (.elems N)) }

/-! ### REDUCE -/

/-- An accumulator of a Binder: exact, or FP32 in FAST mode (R259). -/
inductive Bin where
  | exact (a : Slot48)
  | fast (x : Nat) (poison : Bool)
  deriving Inhabited

def Bin.zero (fast : Bool) : Bin := if fast then .fast 0 false else .exact {}
def Bin.input (b : Bin) (v : FV) (p : Bool) : Bin :=
  match b with
  | .exact a => .exact (a.input v p)
  | .fast x q => .fast (faddEx x v) (q || p)
def Bin.merge (b : Bin) (a : Slot48) : Bin :=
  match b with
  | .exact x => .exact (x.merge a)
  | b => b
def Bin.poison : Bin → Bool
  | .exact a => a.poison
  | .fast _ p => p
def Bin.round (b : Bin) (fmt : Nat) (rnd : Rnd) (sat : Bool) : Nat × EncInfo :=
  match b with
  | .exact a => a.round fmt rnd sat
  | .fast x _ => encVal fmt rnd sat (fp32 x) (fneg32 x)

/-- An element enters a Binder: MX elements are clamped (R255); whether MX_RANGE counts. -/
def Bin.take (b : Bin) (fmt : Nat) (e : Elem) : Bin × Bool :=
  if fmt = 14 then
    let a := Slot48.ofBits e.bits
    (b.merge { a with poison := a.poison || e.poison }, false)
  else if isMx fmt then
    let c := mxClamp e.v
    (b.input c.1 e.poison, c.2)
  else (b.input e.v e.poison, false)

/-- Round accumulators from index `i0` on, and write them at byte `off`. -/
def Ctx.binOut (c : Ctx) (o : Opd) (off i0 : Nat) (bs : List Bin) : Op Unit :=
  let out := (List.range bs.length).map fun j =>
    let b := bs.getD j default
    let r := b.round o.fmt (c.rnd (i0 + j)) c.sat
    ((r.1, b.poison), r.2)
  (c.write o off (encBytes o.fmt (out.map (·.1)))).seq (.each (out.map (·.2)) fun r => noteInfo r true)

/-- Add elements to accumulators, position by position. -/
def binAdd (fmt : Nat) (bs : List Bin) (es : List Elem) : List Bin × Nat :=
  let rs := (List.range bs.length).map fun j => (bs.getD j default).take fmt (es.getD j {})
  (rs.map (·.1), (rs.filter (·.2)).length)

def reducePlan (c : Ctx) : Plan :=
  let a := opd c.d 0
  let b := opd c.d 1
  let count := dpar c.d 255 232
  let nb := dpar c.d 231 230 + 1
  let fast := dFast c.d
  let part := ceilDiv a.len nb
  { bad := !a.ok [1, 2, 3] || !b.ok [1, 2] || isMx b.fmt || a.len != b.len || count == 0 || dpar c.d 229 0 != 0
      || (fast && (a.fmt == 14 || b.fmt == 14)) || !(opd c.d 2).none_ || !(opd c.d 3).none_
    spans := (if a.space = 2 then [(a, (count - 1) * a.stride + a.bytes)] else []) ++ spanOf b
    units := pressOf [a]
    slots := (List.range 4).map fun k => if k < nb then min 4096 part else 0
    prog := (c.source a ((count - 1) * a.stride + a.bytes)).bind fun x => .each (pieces 4096 a.len) fun w =>
      (Op.fold (List.range count) ((List.replicate w.2 (Bin.zero fast)) : List Bin) fun bs i =>
        (c.elems x (i * a.stride) a.len w.1 w.2).bind fun es =>
          if a.fmt == 14 && es.any fun e => !exactOk e.bits then .stop 1 0
          else
            let (bs, mx) := binAdd a.fmt bs es
            ((Op.sayIf (mx != 0) (.cnt 8 mx)).seq (.say (.cnt 32 (elemBytes a.fmt w.2)))).bind fun _ => .ret bs).bind fun bs =>
        (c.binOut b (elemBytes b.fmt w.1) w.1 bs).seq (.say (.elems w.2)) }

/-! ### ATOMIC_BATCH (log entry 25) -/

def atomicPlan (c : Ctx) : Plan :=
  let a := opd c.d 0
  let b := opd c.d 1
  let o := opd c.d 2
  let w := opd c.d 3
  let atop := dpar c.d 255 252
  let size := if dpar c.d 251 251 = 1 then 8 else 4
  let near (x : Opd) : Bool := x.space == 2 && x.len != 0 && x.len == a.len && decide (x.addr < 2 ^ 26)
    && fmtBits x.fmt == 8 * size
  { bad := a.space != 2 || a.len == 0 || a.fmt != 13 || decide (2 ^ 26 ≤ a.addr) || !near b || !near o || b.eid != 0
      || o.eid != 0 || decide (10 < atop) || (atop == 10 && size != 4) || dpar c.d 250 0 != 0
      || !(if atop = 1 then near w && w.eid == 0 else w.none_)
    spans := spanOf a ++ spanOf b ++ spanOf o ++ spanOf w
    units := [4]
    prog := .each (List.range a.len) fun i =>
      (c.read a none (8 * i) 8).bind fun f =>
        if anyPoison f then .note .poison (.stop 2 11)
        else (c.read b none (size * i) size).bind fun x =>
          (if atop = 1 then c.read w none (size * i) size else .ret []).bind fun y =>
            (Op.one (.atom a.eid (leNat (plainOf f) % 2 ^ 57) atop size (plainOf x ++ plainOf y) (anyPoison x || anyPoison y))).bind
              fun r => (c.write o (size * i) r.bytes).seq (.say (.elems 1)) }

end Sys2Proof.Machine
end

