-- ==== Sys2Proof/Machine/KvOp.lean ====
section
/-! DEFINITION. The operators KV_APPEND and ATTN_DECODE and the page manager's swap-out, resume and teardown
(R338 to R356). -/

set_option Elab.async false

namespace Sys2Proof.Machine
open Sys2Proof

/-! ### Page accesses (R334) -/

/-- Physical reads of a run, in requests of at most 4,096 bytes. -/
def physRd (fjid ext a n : Nat) (raw : Bool) : List Act := (cutAt 4096 a n).map fun b => .phRd fjid ext b.1 b.2 raw

/-- Physical writes of marked bytes. -/
def physWr (fjid ext a : Nat) (bs : List PByte) (raw : Bool) : List Act :=
  (joinRuns ((cutAt 64 a bs.length).map fun b =>
    let part := (bs.drop (b.1 - a)).take b.2
    (b.1, plainOf part, anyPoison part))).map fun w => .phWr fjid ext w.1 w.2.1 w.2.2 raw

def Op.acts (as : List Act) : Op (List PByte) :=
  if as.isEmpty then .ret [] else .all as fun rs => .ret (rs.map Res.bytes).flatten

/-- Copy `n` bytes from one physical address to another; the failure, if there is one, is answered. -/
def copyPhys (fjid e1 a1 e2 a2 n : Nat) : Op (Option (Nat × Nat)) :=
  if n = 0 then .ret none
  else .ask (physRd fjid e1 a1 n true) fun rs => match firstFail rs with
    | some f => .ret (some f)
    | none => .ask (physWr fjid e2 a2 (rs.map Res.bytes).flatten true) fun rs => .ret (firstFail rs)

/-- Stop on a failure. -/
def Op.must (o : Op (Option (Nat × Nat))) : Op Unit := o.bind fun f => match f with
  | some (a, b) => .stop a b
  | none => .ret ()

/-- Where the page manager works: pool, its geometry, extents, and the address of a page. -/
structure PoolCtx where
  p : Nat := 0
  fjid : Nat := 0
  g : Geom := {}
  ext : Nat := 0
  sext : Nat := 0
  ppa : Nat := 0
  sppa : Nat := 0
  deriving Inhabited

def PoolCtx.page (k : PoolCtx) (h : Nat) : Nat := k.ppa + h * k.g.bytes
def PoolCtx.swap (k : PoolCtx) (i : Nat) : Nat := k.sppa + i * k.g.bytes

/-- The sections of a page: offset and format, keys first. -/
def PoolCtx.secs (k : PoolCtx) : List (Nat × Nat) :=
  ((List.range k.g.H).map fun h => (h * k.g.ksec, k.g.kf)) ++ (List.range k.g.H).map fun h => (k.g.H * k.g.ksec + h * k.g.vsec, k.g.vf)

/-- Copy slots 0 to t − 1 of every section of a page: elements and scales (R340). -/
def PoolCtx.copySlots (k : PoolCtx) (from_ dest t : Nat) : Op Unit :=
  .each k.secs fun s =>
    let sc := elemBytes s.2 (k.g.P * k.g.D)
    (Op.must (copyPhys k.fjid k.ext (k.page from_ + s.1) k.ext (k.page dest + s.1) (elemBytes s.2 (t * k.g.D)))).seq
      (Op.must (copyPhys k.fjid k.ext (k.page from_ + s.1 + sc) k.ext (k.page dest + s.1 + sc)
        (if isMx s.2 then t * k.g.D / 32 else 0)))

/-! ### KV_APPEND (R338 to R343) -/

/-- A row of D elements as its section holds it: element bytes and scales. -/
def rowBytes (fmt : Nat) (rnd : Nat → Rnd) (sat : Bool) (i0 : Nat) (xs : List Elem) : (List PByte × List PByte) × Op Unit :=
  if isMx fmt then
    let qs := (pieces 32 xs.length).map fun v =>
      let blk := (xs.drop v.1).take v.2
      (quantBlock fmt (fun j => rnd (i0 + v.1 + j)) blk, blk.any (·.poison))
    (quantBytes fmt (qs.map fun q => (q.1.1, q.1.2.1, q.2)), .each qs fun q => noteQuant q.1.2.2.1 q.1.2.2.2)
  else
    let es := (List.range xs.length).map fun j =>
      let x := xs.getD j {}
      (encVal fmt (rnd (i0 + j)) sat x.v x.neg, x.poison)
    ((encBytes fmt (es.map fun e => (e.1.1, e.2)), []), .each es fun e => noteInfo e.1.2 false)

/-- Write one head's row of a token into its section. -/
def PoolCtx.putRow (k : PoolCtx) (c : Ctx) (h page off fmt t i0 : Nat) (xs : List Elem) : Op Unit :=
  let _ := h
  let (b, say) := rowBytes fmt c.rnd c.sat i0 xs
  let a := k.page page + off
  say.seq ((Op.acts (physWr k.fjid k.ext (a + elemBytes fmt (t * k.g.D)) b.1 false
    ++ (if b.2.isEmpty then [] else physWr k.fjid k.ext (a + elemBytes fmt (k.g.P * k.g.D) + t * k.g.D / 32) b.2 false))).bind fun _ => .ret ())

/-- The page of page index `i` in which slot `t` may be written (R339 step 2). -/
def PoolCtx.pageFor (k : PoolCtx) (q i t : Nat) : Op Nat :=
  (Op.nums (.needLeaf q i)).bind fun _ => (Op.nums (.seePte q i)).bind fun e =>
    if e.getD 0 0 = 0 then
      (Op.nums (.needPage k.p)).bind fun h => (Op.nums (.pointPte q i (h.headD 0))).bind fun _ => .ret (h.headD 0)
    else if 1 < e.getD 4 0 then
      (Op.nums (.needPage k.p)).bind fun h => (k.copySlots (e.getD 3 0) (h.headD 0) t).bind fun _ =>
        (Op.say (.cnt 40 1)).bind fun _ => (Op.nums (.pointPte q i (h.headD 0))).bind fun _ => .ret (h.headD 0)
    else .ret (e.getD 3 0)

def appendProg (k : PoolCtx) (c : Ctx) (q tokens : Nat) : Op Unit :=
  let a := opd c.d 0
  let b := opd c.d 1
  let g := k.g
  (Op.one .gate).bind fun _ => (Op.nums (.seqFor c.tile c.slot c.fjid k.p q)).bind fun x =>
    let len := x.getD 0 0
    let base := x.getD 1 0
    if 4194304 < base + len + tokens then .stop 2 1
    else
      (Op.each (List.range tokens) fun j =>
        let tok := len + j
        let i := tok / g.P
        let t := tok % g.P
        (k.pageFor q i t).bind fun page =>
          (c.elems { o := a } 0 a.len (j * g.H * g.D) (g.H * g.D)).bind fun ks =>
            (c.elems { o := b } 0 b.len (j * g.H * g.D) (g.H * g.D)).bind fun vs =>
              .each (List.range g.H) fun h =>
                let i0 := ((base + tok) * g.H + h) * g.D
                (k.putRow c h page (h * g.ksec) g.kf t i0 ((ks.drop (h * g.D)).take g.D)).seq
                  (k.putRow c h page (g.H * g.ksec + h * g.vsec) g.vf t i0 ((vs.drop (h * g.D)).take g.D))).seq
        ((Op.nums (.appendDone q tokens)).bind fun _ => .say (.elems (tokens * g.H * g.D * 2)))

/-- FORK: a failure clears the child again (R342). -/
def forkProg (k : PoolCtx) (c : Ctx) (q child flen : Nat) : Op Unit :=
  let undo (f : Nat × Nat) : Op Unit := .ask [.loc (.clearSeq child)] fun _ => .stop f.1 f.2
  (Op.one .gate).bind fun _ => (Op.nums (.seqFor c.tile c.slot c.fjid k.p q)).bind fun x =>
    if x.getD 0 0 < flen then .stop 1 0
    else (Op.nums (.forkChild c.fjid k.p q child)).bind fun _ =>
      (Op.each (List.range (ceilDiv flen k.g.P)) fun i =>
        .ask [.loc (.forkPte k.p q child i)] fun rs => match firstFail rs with
          | some f => undo f
          | none =>
            let ns := (rs.headD (.nums [])).numbers
            if ns.headD 0 = 0 then .ret ()
            else
              .ask [.loc (.needPage k.p)] fun rs => match firstFail rs with
                | some f => undo f
                | none =>
                  let h := ((rs.headD (.nums [])).numbers).headD 0
                  -- the page is attached first, so that an undo frees it
                  (Op.nums (.pointPte child i h)).bind fun _ =>
                    (Op.each k.secs fun s =>
                      let n := min k.g.P (flen - i * k.g.P)
                      let sc := elemBytes s.2 (k.g.P * k.g.D)
                      (copyPhys k.fjid k.ext (k.page (ns.getD 1 0) + s.1) k.ext (k.page h + s.1) (elemBytes s.2 (n * k.g.D))).bind fun f =>
                        match f with
                        | some f => undo f
                        | none => (copyPhys k.fjid k.ext (k.page (ns.getD 1 0) + s.1 + sc) k.ext (k.page h + s.1 + sc)
                            (if isMx s.2 then n * k.g.D / 32 else 0)).bind fun f => match f with
                          | some f => undo f
                          | none => .ret ()).seq (.say (.cnt 41 1))).seq
        ((Op.nums (.forkDone q child flen)).bind fun _ => .ret ())

def clearProg (k : PoolCtx) (c : Ctx) (q : Nat) : Op Unit :=
  (Op.one .gate).bind fun _ => (Op.nums (.seqFor c.tile c.slot c.fjid k.p q)).bind fun _ =>
    (Op.loc (.clearSeq q)).bind fun _ => .ret ()

def kvPlan (k : PoolCtx) (home : Nat) (c : Ctx) : Plan :=
  let a := opd c.d 0
  let b := opd c.d 1
  let act := dpar c.d 255 254
  let q := dpar c.d 252 235
  let child := dpar c.d 230 213
  let flen := dpar c.d 212 190
  let tokens := dpar c.d 189 177
  let row (o : Opd) : Bool := o.ok [1, 2] && decide (o.fmt ≤ 2) && o.len == tokens * k.g.H * k.g.D
  { bad := act == 3 || dpar c.d 253 253 != 0 || dpar c.d 176 0 != 0 || c.tile != home || dTile c.d != home
      || (act != 1 && (child != 0 || flen != 0)) || (act == 0 && (tokens == 0 || decide (4096 < tokens) || !row a || !row b))
      || (act != 0 && (tokens != 0 || !a.none_ || !b.none_)) || !(opd c.d 2).none_ || !(opd c.d 3).none_
    spans := if act = 0 then spanOf a ++ spanOf b else []
    units := [1, 2]
    prog := match act with
      | 0 => appendProg k c q tokens
      | 1 => forkProg k c q child flen
      | _ => clearProg k c q }

/-! ### Swap-out, resume, teardown (R346, R348) -/

def swapOutProg (k : PoolCtx) (q : Nat) : Op Unit :=
  (Op.one .gate).bind fun _ => (Op.nums (.listPtes q false)).bind fun is =>
    .each is fun i => (Op.nums (.seePte q i)).bind fun e =>
      if e.getD 4 0 ≠ 1 then .ret ()
      else (Op.nums (.needSwap k.p)).bind fun sl =>
        match sl with
        | [] => .ret ()
        | n :: _ => (copyPhys k.fjid k.ext (k.page (e.getD 3 0)) k.sext (k.swap n) k.g.bytes).bind fun f =>
            match f with
            | some _ => (Op.nums (.swapFail q n)).bind fun _ => .ret ()
            | none => (Op.nums (.swappedOut q i n)).bind fun _ => .ret ()

/-- Status 9 ends a resume: MSTATUS 4 no free page, 3 a swap read failed. -/
def resumeProg (k : PoolCtx) (q : Nat) : Op Unit :=
  (Op.one .gate).bind fun _ => (Op.nums (.listPtes q true)).bind fun is =>
    .each is fun i => (Op.nums (.seePte q i)).bind fun e =>
      .ask [.loc (.needPage k.p)] fun rs => match firstFail rs with
        | some _ => .stop 9 4
        | none =>
          let h := ((rs.headD (.nums [])).numbers).headD 0
          (copyPhys k.fjid k.sext (k.swap (e.getD 3 0)) k.ext (k.page h) k.g.bytes).bind fun f => match f with
            | some _ => (Op.loc (.dropRef k.p h)).bind fun _ => .stop 9 3
            | none => (Op.nums (.swappedIn q i h)).bind fun _ => .ret ()

def destroyProg (q : Nat) : Op Unit :=
  (Op.one .gate).bind fun _ => (Op.loc (.clearSeq q)).bind fun _ => .ret ()

/-! ### ATTN_DECODE (R349 to R355) -/

/-- The running values of one row and query head. -/
structure Attn where
  m : Nat := 0xFF800000
  l : Nat := 0
  o : List Nat := []
  /-- A score was NaN or infinite; a poisoned line was read. -/
  bad : Bool := false
  poison : Bool := false
  deriving Inhabited

/-- Query row quantised as its keys ask (R352). -/
def quantQuery (kf : Nat) (xs : List Elem) : List FV :=
  if isMx kf then
    ((pieces 32 xs.length).map fun v =>
      let q := quantBlock 5 (fun _ => Rnd.even) ((xs.drop v.1).take v.2)
      q.2.1.map fun e => mxVal 5 e q.1).flatten
  else xs.map fun x => (fmtOf 1).dec (encVal 1 .even false x.v x.neg).1

/-- Probabilities quantised as the values ask (R352). -/
def quantProb (vf : Nat) (ps : List Nat) : List FV :=
  if isMx vf then
    let n := (ps.length + 31) / 32 * 32
    let xs := (List.range n).map fun j => ({ v := fp32 (ps.getD j 0) } : Elem)
    (((pieces 32 n).map fun v =>
      let q := quantBlock 5 (fun _ => Rnd.even) ((xs.drop v.1).take v.2)
      q.2.1.map fun e => mxVal 5 e q.1).flatten).take ps.length
  else ps.map fun p => (fmtOf 1).dec (encVal 1 .even false (fp32 p) (fneg32 p)).1

/-- One page for one row and query head: `K` and `V` by slot, `see` the visible slots. -/
def Attn.page (x : Attn) (scale vf : Nat) (q : List FV) (K V : List (List Elem)) (see : List Bool) : Attn :=
  let slots := List.range see.length
  let vis (j : Nat) : Bool := see.getD j false
  let s := slots.map fun j =>
    if vis j then fmul32 scale (mill 0 (q.zip ((K.getD j []).map (·.v)))) else 0xFF800000
  let bad := slots.any fun j => vis j && !(fp32 (s.getD j 0)).finite
  let poison := slots.any fun j => vis j && ((K.getD j []).any (·.poison) || (V.getD j []).any (·.poison))
  let x := { x with bad := x.bad || bad, poison := x.poison || poison }
  let mn := s.foldl fmax32 x.m
  if mn = 0xFF800000 then x
  else
    let a := fexp2 (fsub32 x.m mn)
    let p := quantProb vf (slots.map fun j => if vis j then fexp2 (fsub32 (s.getD j 0) mn) else 0)
    let sum := toFp32 (sumFV p) false
    let u (e : Nat) : Nat := mill 0 (slots.map fun j => if vis j then (p.getD j .nan, ((V.getD j []).getD e {}).v)
      else (.fin ⟨0, 0⟩, .fin ⟨0, 0⟩))
    { x with
      m := mn, l := fadd32 (fmul32 x.l a) sum
      o := (List.range x.o.length).map fun e => fadd32 (fmul32 (x.o.getD e 0) a) (u e) }

/-- Output of one row and query head: converted, or a partial record (R352 to R354). -/
def Attn.out (x : Attn) (c : Ctx) (fmt : Nat) (partial_ : Bool) (n : Nat) : List (Nat × Bool) × Op Unit :=
  let D := x.o.length
  let none_ := x.m == 0xFF800000
  if x.bad then
    let v := if dSat c.d then 0 else (fmtOf fmt).nanBits
    (List.replicate (if partial_ then D + 2 else D) (v, x.poison), .say .range)
  else if partial_ then
    (((x.m :: x.l :: x.o).map fun v => (v, x.poison)), Op.sayIf none_ .range)
  else if none_ then (List.replicate D (0, x.poison), .say .range)
  else
    let es := (List.range D).map fun e =>
      let y := fdiv32 (x.o.getD e 0) x.l
      encVal fmt (c.rnd (n * D + e)) c.sat (fp32 y) (fneg32 y)
    (es.map fun e => (e.1, x.poison), .each es fun e => noteInfo e.2 false)

/-- Write all the outputs. -/
def Ctx.attnOut (c : Ctx) (o : Opd) (partial_ : Bool) (xs : List Attn) : Op Unit :=
  let outs := (List.range xs.length).map fun n => (xs.getD n {}).out c o.fmt partial_ n
  let all := (outs.map (·.1)).flatten
  ((Op.each outs fun x => x.2).seq (.each (pieces 512 all.length) fun w =>
    (c.write o (elemBytes o.fmt w.1) (encBytes o.fmt ((all.drop w.1).take w.2))).seq (.say (.elems w.2))))

/-- Position `x` is visible to a row whose last position is `q` (R351). -/
def visible (q : Int) (window sink x : Nat) : Bool :=
  decide ((x : Int) ≤ q) && (window == 0 || decide (q - (window : Int) < (x : Int)) || decide (x < sink))

/-- Elements of a section by slot. -/
def secElems (g : Geom) (fmt : Nat) (bs : List PByte) : List (List Elem) :=
  let n := g.P * g.D
  let es := if isMx fmt then mxElemsOf fmt n bs (bs.drop (elemBytes fmt n)) else elemsOf fmt n bs
  (List.range g.P).map fun t => (es.drop (t * g.D)).take g.D

/-- Mill cycles of a page and KV head (R357). -/
def attnMill (g : Geom) (R : Nat) : Nat :=
  let kk := if isMx g.kf then 32 else 16
  let kv := if isMx g.vf then 32 else 16
  ceilDiv R 16 * (ceilDiv g.P 100 * ceilDiv g.D kk + ceilDiv g.D 100 * ceilDiv g.P kv)

/-- A decode over pages: `handle` gives the page of a page index. -/
def attnPages (k : PoolCtx) (c : Ctx) (base len : Nat) (handle : Nat → Op Nat) : Op Unit :=
  let g := k.g
  let part := dpar c.d 253 253 == 1
  let G := dpar c.d 230 226 + 1
  let T := dpar c.d 225 222 + 1
  let hb := dpar c.d 221 217
  let hc := dpar c.d 216 212 + 1
  let window := dpar c.d 211 189
  let sink := dpar c.d 188 173
  let pe := dpar c.d 172 150
  let scale := dpar c.d 31 0
  let a := opd c.d 0
  let E : Nat := if pe ≠ 0 then pe else base + len
  let sees (r i : Nat) : List Bool := (List.range g.P).map fun t =>
    decide (i * g.P + t < len) && visible ((E : Int) - (T : Int) + (r : Int)) window sink (base + i * g.P + t)
  let pages := (List.range (ceilDiv len g.P)).filter fun i => (List.range T).any fun r => (sees r i).any id
  (c.elems { o := a } 0 a.len 0 a.len).bind fun qs =>
    let nrows := T * hc * G
    -- row n = (r × HEAD_COUNT + h) × G + g
    let q (n : Nat) : List Elem := (qs.drop (n * g.D)).take g.D
    let start : List Attn := (List.range nrows).map fun n => { o := List.replicate g.D 0, poison := (q n).any (·.poison) }
    (Op.fold pages start fun xs i => (handle i).bind fun page =>
      Op.fold (List.range hc) xs fun xs h =>
        let kOff := (hb + h) * g.ksec
        let vOff := g.H * g.ksec + (hb + h) * g.vsec
        (Op.acts (physRd k.fjid k.ext (k.page page + kOff) g.ksec false)).bind fun kb =>
          (Op.acts (physRd k.fjid k.ext (k.page page + vOff) g.vsec false)).bind fun vb =>
            let K := secElems g g.kf kb
            let V := secElems g g.vf vb
            (Op.say (.cnt 2 (attnMill g (G * T)))).bind fun _ =>
              .ret ((List.range nrows).map fun n =>
                let x := xs.getD n {}
                if n / G % hc = h then x.page scale g.vf (quantQuery g.kf (q n)) K V (sees (n / (hc * G)) i) else x)).bind fun xs =>
      c.attnOut (opd c.d 1) part xs

/-- MERGE (R355). -/
def mergeProg (k : PoolCtx) (c : Ctx) : Op Unit :=
  let D := k.g.D
  let part := dpar c.d 253 253 == 1
  let n := (dpar c.d 225 222 + 1) * (dpar c.d 216 212 + 1) * (dpar c.d 230 226 + 1)
  let shards := dpar c.d 126 119 + 1
  let a := opd c.d 0
  (Op.nums (.poolFor c.tile c.slot c.fjid k.p)).bind fun _ =>
    (c.elems { o := a } 0 a.len 0 a.len).bind fun es =>
      let at_ (i r e : Nat) : Elem := es.getD ((i * n + r) * (D + 2) + e) {}
      let rows := (List.range n).map fun r =>
        let ss := List.range shards
        let all := ss.flatMap fun i => (List.range (D + 2)).map fun e => at_ i r e
        let bad := ss.any fun i => (List.range (D + 2)).any fun e =>
          let v := fp32 (at_ i r e).bits
          v.isNan || (match v with | .inf n => !(e == 0 && n) | _ => false)
        let mx := ss.foldl (fun m i => fmax32 m (at_ i r 0).bits) 0xFF800000
        let w (i : Nat) : Nat := if (at_ i r 0).bits = 0xFF800000 then 0 else fexp2 (fsub32 (at_ i r 0).bits mx)
        let tot (e : Nat) : Nat := toFp32 (sumFV (ss.map fun i => fp32 (fmul32 (w i) (at_ i r e).bits))) false
        let x : Attn := { m := mx, l := if mx = 0xFF800000 then 0 else tot 1
                          o := (List.range D).map fun e => if mx = 0xFF800000 then 0 else tot (e + 2)
                          bad := bad, poison := all.any (·.poison) }
        x
      c.attnOut (opd c.d 1) part rows

def attnPlan (k : PoolCtx) (c : Ctx) : Plan :=
  let a := opd c.d 0
  let b := opd c.d 1
  let w := opd c.d 2
  let g := k.g
  let mode := dpar c.d 255 254
  let part := dpar c.d 253 253 == 1
  let G := dpar c.d 230 226 + 1
  let T := dpar c.d 225 222 + 1
  let hc := dpar c.d 216 212 + 1
  let ntok := dpar c.d 149 127
  let shards := dpar c.d 126 119 + 1
  let q := dpar c.d 252 235
  let n := T * hc * G
  { bad := mode == 3 || decide (256 < G * T) || decide (g.H < dpar c.d 221 217 + hc) || decide (4194304 < dpar c.d 211 189)
      || decide (4194304 < dpar c.d 172 150) || dpar c.d 118 32 != 0 || !(fp32 (dpar c.d 31 0)).finite || (mode != 0 && q != 0)
      || (if mode = 1 then ntok == 0 || decide (4194304 < ntok) else ntok != 0) || (mode != 2 && shards != 1)
      || !a.ok [1, 2] || !b.ok [1, 2] || (if part then b.fmt != 0 || b.len != n * (g.D + 2) else decide (2 < b.fmt) || b.len != n * g.D)
      || (if mode = 2 then a.fmt != 0 || a.len != shards * n * (g.D + 2) else decide (2 < a.fmt) || a.len != n * g.D)
      || (if mode = 1 then !w.ok [1, 2] || w.fmt != 13 || w.len != ceilDiv ntok g.P else !w.none_) || !(opd c.d 3).none_
    spans := spanOf a ++ spanOf b ++ spanOf w
    units := [0, 1, 2]
    prog := match mode with
      | 0 => (Op.nums (.decodeStart c.id c.tile c.slot c.fjid k.p q)).bind fun x =>
          attnPages k c (x.getD 1 0) (x.getD 0 0) fun i => (Op.nums (.seePte q i)).bind fun e => .ret (e.getD 3 0)
      | 1 => (Op.nums (.poolFor c.tile c.slot c.fjid k.p)).bind fun _ =>
          attnPages k c 0 ntok fun i => (c.read w none (8 * i) 8).bind fun b =>
            let e := pteOf (leNat (plainOf b))
            if anyPoison b then .note .poison (.stop 2 11)
            else if !e.valid || e.swap then .stop 1 0
            else (Op.nums (.checkHandle k.p e.gen e.h)).bind fun _ => .ret e.h
      | _ => mergeProg k c }

end Sys2Proof.Machine
end

