-- ==== Sys2Proof/Machine/TileIrr.lean ====
section
/-! DEFINITION. The operators of Gleaners and Winnowers (chapter 12): GATHER, EXPAND, SCATTER_ADD, FILTER, the
set operations, TOPK and HISTOGRAM. -/

set_option Elab.async false

namespace Sys2Proof.Machine
open Sys2Proof

/-! ### Shared rules (R302 to R311) -/

def keyFmt (f : Nat) : Bool := decide (f < 5) || (decide (11 ≤ f) && decide (f ≤ 13))
def idxFmt (f : Nat) : Bool := f == 12 || f == 13

/-- The common fields PARAM [31:0] (R310). -/
def cntEn (d : Nat) : Bool := dpar d 31 31 == 1
def cntOff (d : Nat) : Nat := dpar d 25 0
def cntBad (d : Nat) : Bool := dpar d 30 26 != 0 || (cntEn d && cntOff d % 32 != 0)

/-- An operand of hayloft bytes at an offset of the window. -/
def hlOpd (off : Nat) : Opd := { addr := off, space := 2, len := 1 }
def cntSpan (d : Nat) : List (Opd × Nat) := if cntEn d then [(hlOpd (cntOff d), 32)] else []

/-- Write the count record (Table 12-2). -/
def Ctx.count (c : Ctx) (total written aux1 aux2 : Nat) : Op Unit :=
  if cntEn c.d then
    c.write (hlOpd (cntOff c.d)) 0 (marked (leBytes 32 (aux2 % 2 ^ 64 + aux1 % 2 ^ 64 * 2 ^ 64 + written * 2 ^ 128
      + total * 2 ^ 192)) false)
  else .ret ()

/-- An element that decides an address, a position or a selection is poisoned (R309). -/
def poisonStop {α : Type} : Op α := .note .poison (.stop 2 11)

/-- Decide on a poisoned element. -/
def guardP {α : Type} (p : Bool) (k : Op α) : Op α := if p then poisonStop else k

/-- Bytes of an element of a key format. -/
def esz (f : Nat) : Nat := fmtBits f / 8

/-- The pitch of a table (R303), and a nonzero STRIDE that is too small. -/
def pitch (o : Opd) (row : Nat) : Nat := if o.stride = 0 then row else o.stride
def pitchBad (o : Opd) (row : Nat) : Bool := o.stride != 0 && decide (o.stride < row)

/-- The span of a hayloft table of B rows. -/
def tableSpan (o : Opd) (row b : Nat) : List (Opd × Nat) := if o.space = 2 then [(o, (b - 1) * pitch o row + row)] else []

/-- R305. -/
def gleanerOf (i : Nat) : Nat :=
  let h := hash16 i 0
  nbits h 1 0 ^^^ nbits h 3 2 ^^^ nbits h 5 4 ^^^ nbits h 7 6 ^^^ nbits h 9 8 ^^^ nbits h 11 10 ^^^ nbits h 13 12 ^^^ nbits h 15 14

/-- An index out of range with OOB = STOP (R313). -/
def oobStop {α : Type} (o : Opd) : Op α := if o.space = 2 then .stop 3 0 else .stop 2 1

/-- Indices of an operand, read whole. -/
def Ctx.keys (c : Ctx) (o : Opd) : Op (List Elem) :=
  (Op.fold (pieces 4096 o.bytes) ([] : List (List PByte)) fun acc w =>
    (c.read o none w.1 w.2).bind fun bs => .ret (acc ++ [bs])).bind fun m => .ret (elemsOf o.fmt o.len m.flatten)

/-! ### GATHER (R312, R313) -/

/-- Rows lately received by a Gleaner: Gleaner, row, bytes, latest first. -/
abbrev Recent := List (Nat × Nat × List PByte)

/-- The row is among the last `cap` that Gleaner `g` has received (R306). -/
def Recent.find (m : Recent) (g row cap : Nat) : Option (List PByte) :=
  (((m.filter (·.1 == g)).take cap).find? (·.2.1 == row)).map (·.2.2)

def gatherPlan (c : Ctx) : Plan :=
  let t := opd c.d 0
  let x := opd c.d 1
  let o := opd c.d 2
  let rl := dpar c.d 255 243
  let oob := dpar c.d 242 241
  let coal := dpar c.d 240 240 == 1
  let bs := dpar c.d 239 235
  let row := rl * esz t.fmt
  let B := t.len * 2 ^ bs
  let cap := min 1024 (65536 / ((row + 63) / 64 * 64))
  { bad := !t.ok [1, 2] || !keyFmt t.fmt || !x.ok [2] || !idxFmt x.fmt || !o.ok [1, 2] || o.fmt != t.fmt
      || rl == 0 || decide (4096 < rl) || decide (4096 < row) || decide (1 < oob) || decide (16 < bs) || dpar c.d 234 32 != 0 || cntBad c.d
      || o.len != x.len * rl || pitchBad t row || pitchBad o row || !(opd c.d 3).none_
    spans := tableSpan t row B ++ spanOf x ++ tableSpan o row x.len ++ cntSpan c.d
    units := [2]
    prog := (c.keys x).bind fun es =>
      (Op.fold (List.range x.len) (([], 0, 0) : Recent × Nat × Nat) fun st j =>
        let e := es.getD j {}
        let i := e.bits
        let g := gleanerOf i
        let out (st : Recent × Nat × Nat) (b : List PByte) : Op (Recent × Nat × Nat) :=
          ((c.write o (j * pitch o row) b).seq (.say (.elems rl))).bind fun _ => .ret st
        guardP e.poison <|
          if B ≤ i then
            (if oob = 0 then oobStop t
              else (Op.say (.cnt 19 1)).seq (out (st.1, st.2.1 + 1, st.2.2) (List.replicate row (0, false))))
          else match (if coal then Recent.find st.1 g i cap else none) with
            | some b => (Op.say (.cnt 17 1)).seq (out (st.1, st.2.1, st.2.2 + 1) b)
            | none => (c.read t (some g) (i * pitch t row) row).bind fun b => out ((g, i, b) :: st.1, st.2.1, st.2.2) b).bind fun st =>
        c.count x.len x.len st.2.1 st.2.2 }

/-! ### EXPAND (R315, R316) -/

/-- Elements `a` to `a + n − 1` of a table of elements with its pitch, as bytes. -/
def Ctx.run (c : Ctx) (o : Opd) (g a n : Nat) : Op (List PByte) :=
  let e := esz o.fmt
  if pitch o e = e then c.read o (some g) (a * e) (n * e)
  else (Op.fold (List.range n) ([] : List (List PByte)) fun acc i =>
    (c.read o (some g) ((a + i) * pitch o e) e).bind fun b => .ret (acc ++ [b])).bind fun m => .ret m.flatten

/-- What EXPAND has done: output position, vertices and neighbours cut, segment values. -/
structure Grown where
  pos : Nat := 0
  cut : Nat := 0
  lost : Nat := 0
  segs : List Nat := []

def expandPlan (c : Ctx) : Plan :=
  let t := opd c.d 0
  let x := opd c.d 1
  let a := opd c.d 2
  let o := opd c.d 3
  let maxDeg := dpar c.d 255 240
  let bs := dpar c.d 239 235
  let segEn := dpar c.d 234 234 == 1
  let segOff := dpar c.d 233 208
  let B0 := t.len * 2 ^ bs
  let B2 := a.len * 2 ^ bs
  { bad := !t.ok [1, 2] || !idxFmt t.fmt || !x.ok [2] || !idxFmt x.fmt || !a.ok [1, 2] || !idxFmt a.fmt || !o.ok [1, 2]
      || o.fmt != a.fmt || decide (16 < bs) || segOff % 4 != 0 || dpar c.d 207 32 != 0 || cntBad c.d
      || pitchBad t (esz t.fmt) || pitchBad a (esz a.fmt)
    spans := tableSpan t (esz t.fmt) B0 ++ spanOf x ++ tableSpan a (esz a.fmt) B2 ++ spanOf o
      ++ (if segEn then [(hlOpd segOff, 4 * (x.len + 1))] else []) ++ cntSpan c.d
    units := [2]
    prog := (c.keys x).bind fun es =>
      (Op.fold (List.range x.len) ({} : Grown) fun st k =>
        let e := es.getD k {}
        let v := e.bits
        let g := gleanerOf v
        guardP e.poison <|
          if B0 ≤ v + 1 then oobStop t
          else (c.run t g v 2).bind fun ob =>
            let w := esz t.fmt
            let lo := leNat (plainOf (ob.take w))
            let hi := leNat (plainOf (ob.drop w))
            guardP (anyPoison ob) <|
              if hi < lo then .stop 1 0
              else if B2 < hi then oobStop a
              else
                let deg := hi - lo
                let n := if maxDeg = 0 then deg else min deg maxDeg
                (if n = 0 then .ret [] else c.run a g lo n).bind fun nb =>
                  let fit := min n (o.len - st.pos)
                  ((c.write o (st.pos * esz o.fmt) (nb.take (fit * esz o.fmt))).seq (.say (.elems fit))).bind fun _ =>
                    .ret { pos := st.pos + n, cut := st.cut + b2n (decide (n < deg)), lost := st.lost + (deg - n)
                           segs := st.segs ++ [st.pos] }).bind fun st =>
        let written := min st.pos o.len
        ((Op.sayIf (decide (o.len < st.pos)) (.cnt 20 1)).seq
          (if segEn then c.write (hlOpd segOff) 0 (marked ((st.segs ++ [st.pos]).map (leBytes 4)).flatten false) else .ret ())).seq
          (c.count st.pos written st.cut st.lost) }

/-! ### SCATTER_ADD (R317 to R319) -/

/-- The rows of a pass: destination rows in order of first appearance with their accumulators. -/
abbrev PassRows := List (Nat × List Bin)

/-- Distinct destinations of positions from the front, at most `q`: how many positions the pass takes. -/
def passLen (q : Nat) : List Nat → List Nat → Nat
  | _, [] => 0
  | seen, i :: is =>
    if seen.contains i then 1 + passLen q seen is
    else if seen.length < q then 1 + passLen q (i :: seen) is
    else 0

/-- Add a source row to its destination row. -/
def addRow (fmt rl : Nat) (fast : Bool) (m : PassRows) (i : Nat) (es : List Elem) : PassRows × Nat :=
  match m with
  | [] => let (b, k) := binAdd fmt (List.replicate rl (Bin.zero fast)) es; ([(i, b)], k)
  | (r, b) :: rest =>
    if r = i then (let p := binAdd fmt b es; ((r, p.1) :: rest, p.2))
    else let p := addRow fmt rl fast rest i es; ((r, b) :: p.1, p.2)

/-- Finish one destination row. -/
def Ctx.landRow (c : Ctx) (t : Opd) (rl : Nat) (atomic : Bool) (w : Nat × List Bin) : Op Unit :=
  let row := rl * esz t.fmt
  let g := gleanerOf w.1
  let at_ := w.1 * pitch t row
  if atomic then
    .each (List.range rl) fun k =>
      let b := w.2.getD k default
      let r := b.round t.fmt (c.rnd (w.1 * rl + k)) c.sat
      (noteInfo r.2 true).seq ((Op.one (.atom t.eid ((t.addr + at_ + k * esz t.fmt) % 2 ^ 57) (if t.fmt = 0 then 10 else 2)
        (esz t.fmt) (leBytes (esz t.fmt) r.1) b.poison)).bind fun _ => .ret ())
  else
    (c.read t (some g) at_ row).bind fun old =>
      c.binOut t at_ (w.1 * rl) (binAdd t.fmt w.2 (elemsOf t.fmt rl old)).1

/-- Passes over index positions: those left, passes and distinct rows so far. -/
def Ctx.passes (c : Ctx) (t x o : Opd) (rl q B : Nat) (atomic : Bool) (es : List Elem) :
    Nat → Nat → Nat → Nat → Op Unit
  | 0, _, passes, rows => c.count x.len x.len passes rows
  | fuel + 1, pos, passes, rows =>
    let rest := es.drop pos
    if rest.isEmpty then c.count x.len x.len passes rows
    else
      let n := passLen q [] (rest.map (·.bits))
      let row := rl * esz o.fmt
      (Op.fold (List.range n) ([] : PassRows) fun m k =>
        let e := rest.getD k {}
        guardP e.poison <|
          if B ≤ e.bits then oobStop t
          else (c.read o none ((pos + k) * pitch o row) row).bind fun b =>
            (Op.say (.cnt 32 row)).bind fun _ => .ret (addRow o.fmt rl (dFast c.d) m e.bits (elemsOf o.fmt rl b)).1).bind fun m =>
        ((Op.each m (c.landRow t rl atomic)).seq ((Op.say (.cnt 21 1)).seq (.say (.elems (n * rl))))).bind fun _ =>
          Ctx.passes c t x o rl q B atomic es fuel (pos + n) (passes + 1) (rows + m.length)

def scatterPlan (c : Ctx) : Plan :=
  let t := opd c.d 0
  let x := opd c.d 1
  let o := opd c.d 2
  let rl := dpar c.d 255 243
  let atomic := dpar c.d 242 242 == 1
  let bs := dpar c.d 239 235
  let sl := dpar c.d 234 222
  let B := t.len * 2 ^ bs
  { bad := !t.ok [1, 2] || !keyFmt t.fmt || !x.ok [2] || !idxFmt x.fmt || !o.ok [2] || !keyFmt o.fmt || rl == 0 || decide (4096 < rl)
      || dpar c.d 241 240 != 0 || decide (16 < bs) || decide (sl < 64) || decide (4096 < sl) || sl % 64 != 0 || dpar c.d 221 32 != 0
      || cntBad c.d || decide (4 * sl < rl) || o.len != x.len * rl || pitchBad t (rl * esz t.fmt) || pitchBad o (rl * esz o.fmt)
      || (atomic && (t.space != 1 || !(t.fmt == 0 || t.fmt == 11 || t.fmt == 12 || t.fmt == 13))) || !(opd c.d 3).none_
    spans := tableSpan t (rl * esz t.fmt) B ++ spanOf x ++ tableSpan o (rl * esz o.fmt) x.len ++ cntSpan c.d
    units := [2], slots := [sl, sl, sl, sl]
    prog := (c.keys x).bind fun es => c.passes t x o rl (4 * sl / rl) B atomic es (x.len + 1) 0 0 0 }

/-! ### FILTER (R321, R322) -/

/-- Two keys are equal, and one is below the other, by their format (R322). -/
def keyEq (f a b : Nat) : Bool :=
  match decVal f a, decVal f b with
  | .nan, _ => false
  | _, .nan => false
  | x, y => !x.lt y && !y.lt x
def keyLt (f a b : Nat) : Bool := (decVal f a).lt (decVal f b)
def keyLe (f a b : Nat) : Bool := keyLt f a b || keyEq f a b

def keyTest (f cmp key a b : Nat) : Bool :=
  match cmp with
  | 0 => keyEq f key a
  | 1 => !keyEq f key a
  | 2 => keyLt f key a
  | 3 => keyLe f key a
  | 4 => keyLt f a key
  | 5 => keyLe f a key
  | 6 => keyLe f a key && keyLt f key b
  | 7 => (key &&& a) != 0
  | _ => (key &&& a) == a

def isNanKey (f x : Nat) : Bool := (decVal f x).isNan

/-- Capacity of an output: how many of `n` are written, and whether it truncates (R311). -/
def fits (o : Opd) (n : Nat) : Nat := min n o.len

def filterPlan (c : Ctx) : Plan :=
  let r := opd c.d 0
  let o := opd c.d 1
  let cmp := dpar c.d 255 252
  let kind := dpar c.d 251 250
  let koff := dpar c.d 249 238
  let a := dpar c.d 191 128
  let b := dpar c.d 127 64
  let ks := esz r.fmt
  let size := if r.stride = 0 then ks else r.stride
  let span := (r.len - 1) * size + size
  { bad := !r.ok [1, 2] || !keyFmt r.fmt || !o.ok [1, 2] || decide (8 < cmp) || kind == 3 || dpar c.d 237 192 != 0 || dpar c.d 63 32 != 0
      || cntBad c.d || (r.stride == 0 && koff != 0) || decide (size < koff + ks) || decide (2 ^ (8 * ks) ≤ a) || decide (2 ^ (8 * ks) ≤ b)
      || (cmp != 6 && b != 0) || (decide (7 ≤ cmp) && decide (r.fmt < 5)) || isNanKey r.fmt a || isNanKey r.fmt b
      || (match kind with
          | 0 => o.fmt != r.fmt || (decide (o.stride < size) && !(o.stride == 0 && r.stride == 0))
          | 1 => !idxFmt o.fmt
          | _ => o.fmt != 12 || o.len != ceilDiv r.len 32)
      || !(opd c.d 2).none_ || !(opd c.d 3).none_
    spans := (if r.space = 2 then [(r, span)] else [])
      ++ (if kind = 0 then tableSpan o size o.len else spanOf o) ++ cntSpan c.d
    units := [3]
    prog :=
      (Op.fold (pieces 4096 span) ([] : List (List PByte)) fun acc w => (c.read r none w.1 w.2).bind fun bs => .ret (acc ++ [bs])).bind fun m =>
      let all := m.flatten
      let recs := (List.range r.len).map fun j => (all.drop (j * size)).take size
      let key (x : List PByte) : List PByte := (x.drop koff).take ks
      guardP (recs.any fun x => anyPoison (key x)) <|
        let hit (j : Nat) : Bool := keyTest r.fmt cmp (leNat (plainOf (key (recs.getD j [])))) a b
        let js := (List.range r.len).filter hit
        let n := js.length
        match kind with
        | 2 =>
          let words := (List.range o.len).map fun w => (List.range 32).foldl (fun v k =>
            if 32 * w + k < r.len ∧ hit (32 * w + k) then v + 2 ^ k else v) 0
          ((c.write o 0 (marked (words.map (leBytes 4)).flatten false)).seq (.say (.elems o.len))).seq (c.count n n r.len 0)
        | k =>
          let w := fits o n
          ((Op.each (List.range w) fun i =>
            (if k = 0 then c.write o (i * pitch o size) (recs.getD (js.getD i 0) [])
              else c.write o (i * esz o.fmt) (marked (leBytes (esz o.fmt) (js.getD i 0)) false)).seq (.say (.elems 1))).seq
            (Op.sayIf (decide (w < n)) (.cnt 20 1))).seq (c.count n w r.len 0) }

/-! ### Set operations (R323, R324) -/

/-- 1 + position of the first descent, or 0. -/
def descent (lt : Nat → Nat → Bool) : Nat → List Nat → Nat
  | k, x :: y :: rest => if lt y x then k + 2 else descent lt (k + 1) (y :: rest)
  | _, _ => 0

/-- Without repeats of neighbours. -/
def dedup : List Nat → List Nat
  | x :: y :: rest => if x = y then dedup (y :: rest) else x :: dedup (y :: rest)
  | l => l

/-- The union of two rising lists. -/
def mergeSet (lt : Nat → Nat → Bool) : Nat → List Nat → List Nat → List Nat
  | 0, _, _ => []
  | _, [], b => b
  | _, a, [] => a
  | n + 1, x :: a, y :: b =>
    if x = y then x :: mergeSet lt n a b
    else if lt x y then x :: mergeSet lt n a (y :: b) else y :: mergeSet lt n (x :: a) b

def setPlan (c : Ctx) (op : Nat) : Plan :=
  let a := opd c.d 0
  let b := opd c.d 1
  let o := opd c.d 2
  let f := a.fmt
  { bad := !a.ok [1, 2] || !isInt f || !b.ok [1, 2] || b.fmt != f || !o.ok [1, 2] || o.fmt != f || dpar c.d 255 32 != 0 || cntBad c.d
      || !(opd c.d 3).none_
    spans := spanOf a ++ spanOf b ++ spanOf o ++ cntSpan c.d
    units := [3]
    prog := (c.keys a).bind fun ea => (c.keys b).bind fun eb =>
      guardP (ea.any (·.poison) || eb.any (·.poison)) <|
        let A := ea.map (·.bits)
        let B := eb.map (·.bits)
        let da := descent (keyLt f) 0 A
        let db := descent (keyLt f) 0 B
        if da ≠ 0 ∨ db ≠ 0 then
          (c.count 0 0 da db).seq (.note (.cnt 22 1) (.stop 1 0))
        else
          let A := dedup A
          let B := dedup B
          let out := match op with
            | 0x41 => A.filter fun x => B.contains x
            | 0x42 => mergeSet (keyLt f) (A.length + B.length) A B
            | _ => A.filter fun x => !B.contains x
          let w := fits o out.length
          ((Op.each (pieces 512 w) fun p =>
            (c.write o (p.1 * esz f) (marked (((out.drop p.1).take p.2).map (leBytes (esz f))).flatten false)).seq (.say (.elems p.2))).seq
            (Op.sayIf (decide (w < out.length)) (.cnt 20 1))).seq (c.count out.length w 0 0) }

/-! ### TOPK (R325) -/

/-- Value `a` goes before value `b`: NaN last, else by size. -/
def topBefore (f : Nat) (small : Bool) (a b : Nat) : Bool :=
  if isNanKey f a then false
  else if isNanKey f b then true
  else if small then keyLt f a b else keyLt f b a

/-- Insert a position into a sorted list of positions; equal values keep the order of positions. -/
def topInsert (lt : Nat → Nat → Bool) (x : Nat) : List Nat → List Nat
  | [] => [x]
  | y :: ys => if lt x y then x :: y :: ys else y :: topInsert lt x ys

def topkPlan (c : Ctx) : Plan :=
  let v := opd c.d 0
  let o := opd c.d 1
  let x := opd c.d 2
  let K := dpar c.d 255 245
  let small := dpar c.d 244 244 == 1
  let rows := dpar c.d 243 220
  let L := v.len / rows
  let f := v.fmt
  { bad := !v.ok [1, 2] || !keyFmt f || !o.ok [1, 2] || o.fmt != f || K == 0 || decide (1024 < K) || rows == 0 || v.len % rows != 0
      || decide (L < K) || o.len != rows * K || !(x.none_ || (x.ok [1, 2] && x.fmt == 12 && x.len == rows * K))
      || dpar c.d 219 32 != 0 || cntBad c.d || !(opd c.d 3).none_
    spans := spanOf v ++ spanOf o ++ spanOf x ++ cntSpan c.d
    units := [3]
    prog := (Op.each (List.range rows) fun r =>
      (c.elems { o := v } 0 v.len (r * L) L).bind fun es =>
        guardP (es.any (·.poison)) <|
          let val (j : Nat) : Nat := (es.getD j {}).bits
          let top := ((List.range L).foldl (fun acc j => (topInsert (fun a b => topBefore f small (val a) (val b)) j acc).take K) []).take K
          (((c.write o (r * K * esz f) (marked (top.map fun j => leBytes (esz f) (val j)).flatten false)).seq
            (if x.none_ then .ret () else c.write x (r * K * 4) (marked (top.map (leBytes 4)).flatten false))).seq
            (.say (.elems K)))).seq (c.count (rows * K) (rows * K) rows 0) }

/-! ### HISTOGRAM (R326) -/

/-- Where a value falls: 0 below, 1 above (or NaN), 2 + bin. -/
def histBin (d f nb x : Nat) : Nat :=
  if isInt f then
    let n := esz f
    let lo : Int := if f = 11 then sgn 4 (dpar d 159 128) else (dpar d (127 + 8 * n) 128 : Nat)
    let v : Int := if f = 11 then sgn 4 x else (x : Int)
    if v < lo then 0
    else
      let k := (v - lo).toNat >>> dpar d 237 232
      if nb ≤ k then 1 else 2 + k
  else
    let y := fmul32 (fsub32 (asFp32 f x) (dpar d 159 128)) (dpar d 127 96)
    match fp32 y with
    | .nan => 1
    | .inf n => if n then 0 else 1
    | .fin v =>
      if v.m < 0 then 0
      else
        let k := roundQ .zero v.m.natAbs v.e 0
        if nb ≤ k then 1 else 2 + k

def histPlan (c : Ctx) : Plan :=
  let v := opd c.d 0
  let o := opd c.d 1
  let nb := dpar c.d 255 239
  let accum := dpar c.d 238 238 == 1
  let f := v.fmt
  let flt := decide (f < 5)
  { bad := !v.ok [1, 2] || !keyFmt f || !o.ok [1, 2] || o.fmt != 13 || o.len != nb || nb == 0 || decide (65536 < nb)
      || (flt && dpar c.d 237 232 != 0) || dpar c.d 231 192 != 0 || (flt && dpar c.d 191 160 != 0)
      || (if flt then !(fp32 (dpar c.d 127 96)).finite || !(FV.lt (.fin ⟨0, 0⟩) (fp32 (dpar c.d 127 96))) else dpar c.d 127 96 != 0)
      || dpar c.d 95 32 != 0 || cntBad c.d || !(opd c.d 2).none_ || !(opd c.d 3).none_
    spans := spanOf v ++ spanOf o ++ cntSpan c.d
    units := [3]
    prog := (c.keys v).bind fun es =>
      guardP (es.any (·.poison)) <|
        let ks := es.map fun e => histBin c.d f nb e.bits
        let below := (ks.filter (· == 0)).length
        let above := (ks.filter (· == 1)).length
        let n := es.length - below - above
        ((Op.each (pieces 512 nb) fun p =>
          (if accum then c.read o none (8 * p.1) (8 * p.2) else .ret (List.replicate (8 * p.2) (0, false))).bind fun old =>
            let out := (List.range p.2).map fun i =>
              let b := (old.drop (8 * i)).take 8
              let k := (ks.filter (· == 2 + p.1 + i)).length
              marked (leBytes 8 ((leNat (plainOf b) + k) % 2 ^ 64)) (anyPoison b)
            (c.write o (8 * p.1) out.flatten).seq (.say (.elems p.2)))).seq (c.count n n below above) }

end Sys2Proof.Machine
end

