-- ==== Sys2Proof/Machine/TileRun.lean ====
section
/-! DEFINITION. How a run of an operator goes on: what its accesses do at once, how they are handed out, and how
a run is taken up again (R246, R247). -/

set_option Elab.async false

namespace Sys2Proof.Machine
open Sys2Proof

/-- What a local access does. -/
def Loc.run : Loc → State → Res × State
  | .hlRead t sl off n, s => s.hlRead t sl off n
  | .hlWrite t sl off bs, s => s.hlWrite t sl off bs
  | .seqFor t sl fj p q, s => s.seqFor t sl fj p q
  | .poolFor t sl fj p, s => s.poolFor t sl fj p
  | .needLeaf q i, s => s.needLeaf q i
  | .seePte q i, s => s.seePte q i
  | .needPage p, s => s.needPage p
  | .pointPte q i h, s => s.pointPte q i h
  | .appendDone q n, s => s.appendDone q n
  | .forkChild fj p r q, s => s.forkChild fj p r q
  | .forkPte p r q i, s => s.forkPte p r q i
  | .forkDone r q n, s => s.forkDone r q n
  | .decodeStart id t sl fj p q, s => s.decodeStart id t sl fj p q
  | .checkHandle p g h, s => s.checkHandle p g h
  | .listPtes q b, s => s.listPtes q b
  | .needSwap p, s => s.needSwap p
  | .swappedOut q i k, s => s.swappedOut q i k
  | .swapFail q k, s => s.swapFail q k
  | .swappedIn q i h, s => s.swappedIn q i h
  | .clearSeq q, s => (.nums [], s.clearSeq q)
  | .dropRef p h, s => (.nums [], s.dropRef p h)

/-- Hand out access `k` of the step, if nothing holds it back: whether it was handed out. -/
def State.handAct (id k : Nat) (a : Act) (s : State) : Bool × State :=
  match s.run id with
  | none => (false, s)
  | some r =>
    let go (f : State → State) : Bool × State := (true, f (s.setRun id (some { r with next := k + 1 })))
    match a with
    | .loc f =>
      let (x, s) := f.run s
      (true, s.modRun id fun r => { r with next := k + 1, cur := r.cur.set k (some x) })
    | .rd g eid fva n =>
      if (r.open_.countP fun _ o => o == some g) < r.glLimit then go (State.fabAsk id k g r 0 0 n eid fva [] false) else (false, s)
    | .wr eid fva data p => go (State.fabAsk id k 4 r 1 0 data.length eid fva data p)
    | .atom eid fva atop size data p => go (State.fabAsk id k 4 r 3 atop size eid fva data p)
    | .phRd fjid ext ppa n raw => go (State.physAsk id k r 0 fjid ext ppa n [] false raw)
    | .phWr fjid ext ppa data p raw => go (State.physAsk id k r 1 fjid ext ppa data.length data p raw)
    | .gate => if r.gate then go fun s => s.modRun id fun r => { r with cur := r.cur.set k (some (.data [])) } else (false, s)

/-- Hand out the accesses of a step in order, until one is held back or has failed. -/
def State.handActs (id : Nat) : Nat → List Act → State → State
  | _, [], s => s
  | k, a :: as, s => match s.run id with
    | none => s
    | some r =>
      if k < r.next then State.handActs id (k + 1) as s
      else if r.cur.any fun e => match e.2 with | some (.fail _ _) => true | _ => false then s
      else match s.handAct id k a with
        | (true, s) => State.handActs id (k + 1) as s
        | (false, s) => s

/-- The answers of a step of `n` accesses, once nothing is outstanding. -/
def State.stepDone (s : State) (id n : Nat) : Option (List Res) :=
  match s.run id with
  | none => none
  | some r =>
    let failed := r.cur.any fun e => match e.2 with | some (.fail _ _) => true | _ => false
    if !r.open_.isEmpty || (r.next < n && !failed) then none
    else some ((List.range n).map fun k => (r.cur.get k).getD (.fail 4 0))

/-- Take a run up again: answers it has had, then new accesses. A run that is being stopped ends when
nothing is outstanding (R266). -/
def Op.go (id : Nat) : Op Unit → List (List Res) → Acc → State → State
  | .ret _, _, acc, s => s.runFin id acc 0 0
  | .stop st m, _, acc, s => s.runFin id acc st m
  | .note n k, log, acc, s => k.go id log (n.add acc) s
  | .ask _ k, r :: log, acc, s => (k r).go id log acc s
  | .ask as k, [], acc, s =>
    match s.run id with
    | none => s
    | some x =>
      if x.stopping then (if x.open_.isEmpty then s.runFin id acc 4 0 else s)
      else
        let s := s.handActs id 0 as
        match s.stepDone id as.length with
        | none => s
        | some rs =>
          (k rs).go id [] acc (s.modRun id fun r => { r with log := r.log ++ [rs], cur := [], next := 0 })

end Sys2Proof.Machine
end

