-- ==== Sys2Proof/Machine/TileCore.lean ====
section
/-! DEFINITION. The threshing floor (R243 to R251, R266, R267): submission, start, end, completion records,
STOP; the start and the end of decodes and of the page manager's work (R344, R348). -/

set_option Elab.async false

namespace Sys2Proof.Machine
open Sys2Proof

/-! ### Plans -/

def State.poolCtx (s : State) (p : Nat) : PoolCtx :=
  { p := p, fjid := s.poolFjid p, g := s.geom p, ext := s.pageExt p, sext := s.swapExt p, ppa := s.pagePpa p 0, sppa := s.swapPpa p 0 }

/-- The pool that a descriptor names. -/
def dPool (d : Nat) : Nat := dpar d 234 231

/-- The operator of a descriptor (Table 10-14). -/
def State.planOp (s : State) (c : Ctx) : Plan :=
  match dOpcode c.d with
  | 0x01 => copyPlan c
  | 0x02 => convertPlan c
  | 0x03 => quantPlan c
  | 0x04 => dequantPlan c
  | 0x05 => encodePlan c
  | 0x06 => decodePlan c
  | 0x10 => gemmPlan c
  | 0x20 => reducePlan c
  | 0x30 => gatherPlan c
  | 0x31 => expandPlan c
  | 0x32 => scatterPlan c
  | 0x40 => filterPlan c
  | 0x41 => setPlan c 0x41
  | 0x42 => setPlan c 0x42
  | 0x43 => setPlan c 0x43
  | 0x44 => topkPlan c
  | 0x45 => histPlan c
  | 0x50 => attnPlan (s.poolCtx (dPool c.d)) c
  | 0x51 => kvPlan (s.poolCtx (dPool c.d)) (s.homeTile (dPool c.d)) c
  | 0x60 => atomicPlan c
  | _ => {}

/-- Header rules of Table 10-2, and FAST with an EXACT operand (R259). -/
def headBad (d : Nat) : Bool :=
  dRound d == 3 || (decide (8 ≤ dTile d) && dTile d != 15) || dhd d 65 0 != 0 || dhd d 170 114 % 32 != 0
    || (dFast d && (List.range 4).any fun k => (opd d k).space != 0 && (opd d k).fmt == 14)

def State.plan (s : State) (c : Ctx) : Plan :=
  let p := s.planOp c
  { p with bad := p.bad || headBad c.d }

def Run.ctx (r : Run) (id : Nat) : Ctx := { id := id, tile := r.tile, slot := r.slot.getD 0, fjid := r.fjid, d := r.desc }

/-- What a run does. -/
def State.runProg (s : State) (id : Nat) (r : Run) : Op Unit :=
  match r.kind with
  | .desc => (s.plan (r.ctx id)).prog
  | .swapOut => swapOutProg (s.poolCtx r.pool) r.desc
  | .resume => resumeProg (s.poolCtx r.pool) r.desc
  | .destroy => destroyProg r.desc

/-- Take a run up again. -/
def State.drive (id : Nat) (s : State) : State :=
  match s.run id with
  | none => s
  | some r => if r.fin.isSome then s else (s.runProg id r).go id r.log {} s

/-! ### Queues -/

/-- The tile takes descriptors: EN = 1 and its domain is on (R267). -/
def State.tileOn (s : State) (t : Nat) : Bool := decide (t < 8) && bit (s.rg (Adr.TILE_CTRL t)) 0 && s.domOn (17 + t)

def State.tileMask (s : State) (j t : Nat) : Bool := decide (t < 8) && bit (s.rg (Adr.JOB_TILE_CFG j)) t

/-- DQ_USED of a tile: queued descriptors, and internal ones (R280). -/
def State.dqUsed (s : State) (t : Nat) : Nat := (s.tile.queue.filter (·.tile == t)).length + s.tile.internal.get t

/-- Queued descriptors of a job on a tile. -/
def State.dqJob (s : State) (t j : Nat) : Nat := (s.tile.queue.filter fun e => e.tile == t && e.slot == j).length

/-- The floor holds a queued or running descriptor (R267). -/
def State.tileHolds (s : State) (t : Nat) : Bool :=
  decide (s.dqUsed t ≠ 0) || s.tile.runs.any fun e => match e.2 with | some r => r.tile == t | none => false

/-- The floor holds a queued or running descriptor of a slot. -/
def State.slotHolds (s : State) (t j : Nat) : Bool :=
  (s.tile.queue.any fun e => e.tile == t && e.slot == j)
    || s.tile.runs.any fun e => match e.2 with | some r => r.tile == t && r.slot == some j | none => false

/-! ### Completion (R251) -/

/-- The record of Table 10-6. -/
def cplRecord (d tile st m : Nat) (acc : Acc) (t0 t1 : Nat) : Nat :=
  dhd d 202 171 * 2 ^ 224 + st * 2 ^ 220 + m * 2 ^ 216 + dOpcode d * 2 ^ 208 + tile * 2 ^ 204 + 2 ^ 203 + b2n (dFast d) * 2 ^ 202
    + b2n acc.poison * 2 ^ 201 + b2n acc.range * 2 ^ 200 + acc.elems % 2 ^ 48 * 2 ^ 128 + t0 % 2 ^ 64 * 2 ^ 64 + t1 % 2 ^ 64

/-- A descriptor completes: counts, its record, or its counter at once. -/
def State.descDone (tile slot d st m : Nat) (acc : Acc) (t0 : Nat) (s : State) : State :=
  let fjid := dFjid d
  let s := ((s.bump (Adr.TILE_DESC_DONE tile) 1).bump (Adr.JOB_DESC_DONE slot) 1).gcount 0x0F 1 (tileDie tile) none none (some fjid)
  let s := if st = 1 then
      ((s.bump (Adr.TILE_DESC_MALFORMED tile) 1).setRg (Adr.TILE_DESC_CAPTURE tile) (w32 (slot * 2 ^ 16 + dOpcode d))).raise
        Err.tile_DESC_MALFORMED tile [] (some fjid)
    else s
  let ctr := if dhd d 221 221 = 1 ∧ st = 0 then some (dhd d 216 203) else none
  if dhd d 222 222 = 1 ∧ dhd d 170 114 % 32 = 0 then
    let p := s.unitMreq (tileDie tile) 1 0 32 (dhd d 170 114) fjid (dhd d 113 98) 0 false (leBytes 32 (cplRecord d tile st m acc t0 s.ns))
    s.unitAsk (.tileCpl tile slot fjid ctr) (tileDie tile) (some slot) p
  else match ctr with
    | some c => s.ctrIncr c slot
    | none => s

/-! ### Submission (R243, R244) -/

/-- What became of a submitted descriptor. -/
inductive Submitted where
  | queued | busy
  deriving DecidableEq, Repr

/-- Queue a descriptor on a tile, if there is room. -/
def State.enqueue (t j d : Nat) (s : State) : Submitted × State :=
  if s.rf (Adr.JOB_TILE_CFG j) 28 16 ≤ s.dqJob t j ∨ 4096 ≤ s.dqUsed t then (.busy, s)
  else (.queued, (s.takeNames 1).modTile fun u => { u with queue := u.queue ++ [({ id := s.nextId, tile := t, slot := j, desc := d } : Desc)] })

/-- The enabled tile of the job's set with the fewest queued descriptors of the job. -/
def State.pickTile (s : State) (j : Nat) : Option Nat :=
  let ts := (List.range 8).filter fun t => s.tileMask j t && s.tileOn t
  ts.find? fun t => ts.all fun u => decide (s.dqJob t j ≤ s.dqJob u j)

/-- Submit a descriptor for a slot. A tile outside the set makes it malformed, a disabled one TILE_OFF; a
descriptor that names no tile completes on the lowest enabled one of the set (log entry 23). -/
def State.submit (j d : Nat) (s : State) : Submitted × State :=
  let t := dTile d
  if t = 15 then
    match s.pickTile j with
    | some u => s.enqueue u j d
    | none => (.busy, s)
  else if 8 ≤ t then (.queued, s.descDone ((s.pickTile j).getD 0) j d 1 0 {} s.ns)
  else if !s.tileMask j t then (.queued, s.descDone t j d 1 0 {} s.ns)
  else if !s.tileOn t then (.queued, s.descDone t j d 6 0 {} s.ns)
  else s.enqueue t j d

/-! ### Start (R248) -/

/-- The units that running descriptors of a tile hold. -/
def State.unitsHeld (s : State) (t : Nat) : List Nat :=
  s.tile.runs.flatMap fun e => match e.2 with
    | some r => if r.tile = t ∧ r.kind = .desc then (s.plan (r.ctx e.1)).units else []
    | none => []

/-- Every hayloft operand lies in the job's window (R246). -/
def State.spansOk (s : State) (c : Ctx) (p : Plan) : Bool :=
  p.spans.all fun w => match s.hlWin c.tile c.slot with
    | some (_, z) => decide (w.1.addr + w.2 ≤ z)
    | none => false

/-- The head of a slot's queue can start. -/
def State.canStart (s : State) (e : Desc) : Bool :=
  let c : Ctx := { id := e.id, tile := e.tile, slot := e.slot, fjid := dFjid e.desc, d := e.desc }
  let p := s.plan c
  let fence := dhd e.desc 223 223 == 1 && s.tile.runs.any fun r => match r.2 with
    | some r => r.tile == e.tile && r.slot == some e.slot && r.kind == .desc
    | none => false
  !fence && (p.bad || !s.spansOk c p
    || (p.units.all fun u => !(s.unitsHeld e.tile).contains u)
      && (List.range 4).all fun b => decide (s.tile.binders.get (4 * e.tile + b) + p.slots.getD b 0 ≤ 4096))

/-- Slots granted on the Binders of a tile. -/
def State.slotGrant (t : Nat) (slots : List Nat) (add : Bool) (s : State) : State :=
  s.modTile fun u => { u with binders := (List.range 4).foldl (fun m b =>
    m.modify (4 * t + b) fun n => if add then n + slots.getD b 0 else n - slots.getD b 0) u.binders }

/-- The next slot in round robin whose head can start. -/
def State.nextHead (s : State) (t : Nat) : Option Desc :=
  let heads := s.tile.queue.filter fun e => e.tile == t &&
    (s.tile.queue.find? fun f => f.tile == t && f.slot == e.slot).map (·.id) == some e.id && s.canStart e
  let dist (e : Desc) : Nat := (e.slot + 1024 - s.tile.rr.get t - 1) % 1024
  heads.find? fun e => heads.all fun f => decide (dist e ≤ dist f)

/-- Count a decode in its epoch (R344). -/
def State.epochCount (t : Nat) (e : Bool) (up : Bool) (s : State) : State :=
  s.modKv fun k => { k with counts := k.counts.modify (2 * t + b2n e) fun n => if up then n + 1 else n - 1 }

/-- Start a descriptor: malformed, out of its window, or running. -/
def State.startDesc (e : Desc) (s : State) : State :=
  let s := s.modTile fun u => { u with queue := u.queue.filter (·.id != e.id), rr := u.rr.set e.tile e.slot }
  let c : Ctx := { id := e.id, tile := e.tile, slot := e.slot, fjid := dFjid e.desc, d := e.desc }
  let p := s.plan c
  if p.bad then s.descDone e.tile e.slot e.desc 1 0 {} s.ns
  else if !s.spansOk c p then s.descDone e.tile e.slot e.desc 3 0 {} s.ns
  else
    let dec := dOpcode e.desc == 0x50
    let s := s.slotGrant e.tile p.slots true
    let s := if dec then s.epochCount e.tile s.kv.epoch true else s
    (s.setRun e.id (some {
      tile := e.tile, slot := some e.slot, fjid := c.fjid, desc := e.desc, pool := dPool e.desc, tStart := s.ns
      glLimit := s.rf (Adr.TILE_GW_CFG e.tile) 10 0, epoch := if dec then some s.kv.epoch else none })).drive e.id

/-! ### End -/

/-- Begin a piece of the page manager's own work on a sequence. -/
def State.kvWork (kind : RunKind) (q : Nat) (s : State) : State :=
  let x := s.seq q
  (s.takeNames 1).setRun s.nextId (some
    { kind := kind, tile := s.homeTile x.pool, slot := s.slotOf x.fjid, fjid := x.fjid, desc := q, pool := x.pool, tStart := s.ns })

/-- READERS has changed: swap-out or teardown starts at 0 (Table 13-7). -/
def State.readersGone (q : Nat) (s : State) : State :=
  let x := s.seq q
  if x.readers ≠ 0 then s
  else if x.st = 2 then s.kvWork .swapOut q
  else if x.st = 5 then s.kvWork .destroy q
  else s

/-- A decode of a sequence ends. -/
def State.decodeEnd (q : Nat) (s : State) : State :=
  let x := s.seq q
  if x.st = 0 then s else (s.setSeq q { x with readers := x.readers - 1 }).readersGone q

/-- Apply one count of an operator. -/
def State.noteCount (r : Run) (k n : Nat) (s : State) : State :=
  let t := r.tile
  let die := tileDie t
  if k = 2 then (s.bump (Adr.TILE_MILL_BUSY t) n).gcount 0x0D n die none none (some r.fjid)
  else if k = 8 then (s.bump (Adr.TILE_MX_RANGE t) n).raise Err.tile_MX_RANGE t [] (some r.fjid)
  else if k = 10 then (s.bump (Adr.TILE_PRESS_CRC_ERR t) n).raise Err.tile_PRESS_CRC t [] (some r.fjid)
  else if k < 16 then s.bump (Adr.TILE_DESC_DONE t + 8 * k) n
  else if k < 32 then s.bump (Adr.TILE_GL_REQUESTS t + 8 * (k - 16)) n
  else if k = 32 then s.gcount 0x0E n die none none (some r.fjid)
  else if k = 40 then s.bump (Adr.KVPOOL_COW_COPIES r.pool) n
  else (s.bump (Adr.KVPOOL_SAT_COPIES r.pool) n).raise Err.kvpool_REF_SAT r.pool [] (some r.fjid)

/-- Counts whose rule the manual does not state, or that count cycles: free values (log entry 5). -/
def State.idleCounts (t : Nat) (units slots : List Nat) (s : State) : State :=
  let add (b : Bool) (a : Nat) (s : State) : State := if b then (s.bump a s.freeVal).takeFree else s
  let s := add (units.contains 0) (Adr.TILE_MILL_STALL_PRESS t) s
  let s := add (units.contains 0) (Adr.TILE_MILL_STALL_FEED t) s
  let s := add (units.contains 2) (Adr.TILE_GL_OUT_FULL t) s
  let s := add (units.contains 3) (Adr.TILE_WN_STALL t) s
  add (slots.any (· != 0)) (Adr.TILE_BINDER_NAN t) s

/-- A descriptor whose operator has come to its end leaves the tile and completes. -/
def State.endDesc (id : Nat) (r : Run) (st m : Nat) (s : State) : State :=
  let p := s.plan (r.ctx id)
  let slot := r.slot.getD 0
  let s := (s.setRun id none).slotGrant r.tile p.slots false
  let s := r.acc.cnts.foldl (fun s c => s.noteCount r c.1 c.2) s
  let s := if p.mill ≠ 0 then s.noteCount r 2 p.mill else s
  let s := s.idleCounts r.tile p.units p.slots
  let s := match r.epoch with
    | some e => (s.epochCount r.tile e false).bump (Adr.KVPOOL_DECODES r.pool) 1
    | none => s
  let s := match r.reads with
    | some q => s.decodeEnd q
    | none => s
  let s := s.bump (Adr.JOB_TILE_CYCLES slot) ((s.ns - r.tStart) * 8 / 5)
  s.descDone r.tile slot r.desc st m r.acc r.tStart

/-- A run goes on; a descriptor that has come to its end completes. -/
def State.tryEnd (id : Nat) (s : State) : State :=
  let s := s.drive id
  match s.run id with
  | some r => match r.kind, r.fin with
    | .desc, some (st, m) => s.endDesc id r st m
    | _, _ => s
  | none => s

/-! ### The page manager's order (R331) -/

/-- A run is a piece of a pool's page manager. -/
def Run.manages (r : Run) (p : Nat) : Bool := r.pool == p && (r.kind != .desc || dOpcode r.desc == 0x51)

/-- The page manager takes a run up: no other has its turn, and no older one waits. -/
def State.kvPass (id : Nat) (s : State) : State :=
  match s.run id with
  | none => s
  | some r =>
    if !r.manages r.pool || r.gate || r.fin.isSome then s
    else if s.tile.runs.any fun e => match e.2 with
        | some q => e.1 != id && q.manages r.pool && q.fin.isNone && (q.gate || decide (e.1 < id))
        | none => false then s
    else (s.setRun id (some { r with gate := true })).drive id

/-! ### STOP (R266) -/

/-- STOP of slot `j` on the tiles. -/
def State.tileStop (j : Nat) (s : State) : State :=
  let mine := s.tile.queue.filter (·.slot == j)
  let s := s.modTile fun u => { u with queue := u.queue.filter (·.slot != j) }
  let s := mine.foldl (fun s e => s.descDone e.tile j e.desc 4 0 {} s.ns) s
  (List.map Prod.fst s.tile.runs).foldl (fun s id => match s.run id with
    | some r => if r.slot = some j ∧ r.kind = .desc then (s.setRun id (some { r with stopping := true })).drive id else s
    | none => s) s

end Sys2Proof.Machine
end

