-- ==== Sys2Proof/Machine/SheafCore.lean ====
section
/-! DEFINITION. Sheaves (chapter 11): the table entry and the children (R274, R275), chunks and slot groups (R277,
R278), exact partials on the wire (R283), sums, results and forwarding (Table 11-3, R280, R281, R289), completion
(R285), aborts (R293 to R295), missed windows (R286). -/

set_option Elab.async false

namespace Sys2Proof.Machine
open Sys2Proof

/-! ### The entry (Table 11-1) -/

/-- The RW fields of an entry, and what follows from them. -/
structure ShCfg where
  e : Nat := 0
  coll : Nat := 0
  root : Bool := false
  fast : Bool := false
  inF : Nat := 0
  outF : Nat := 0
  fjid : Nat := 0
  members : Nat := 0
  len : Nat := 0
  slots : Nat := 0
  mask : Nat := 0
  deriving DecidableEq, Repr, Inhabited

def ShCfg.f (c : ShCfg) (hi lo : Nat) : Nat := nbits c.e hi lo

def shCfg (e : Nat) : ShCfg :=
  { e := e, coll := nbits e 1020 1018, root := nbits e 1017 1017 == 1, fast := nbits e 1015 1015 == 1, inF := nbits e 1011 1008
    outF := nbits e 1007 1004, fjid := nbits e 1003 984, members := nbits e 900 885, len := nbits e 848 825
    slots := nbits e 869 857, mask := nbits e 799 768 }

def State.shCfgOf (s : State) (k : Nat) : ShCfg := shCfg (s.entry (sheafAt k) 32)

/-- Bytes of an element of IN_FMT and of OUT_FMT. -/
def ShCfg.isz (c : ShCfg) : Nat := fmtBits c.inF / 8
def ShCfg.osz (c : ShCfg) : Nat := fmtBits c.outF / 8
def ShCfg.reducing (c : ShCfg) : Bool := decide (c.coll < 2)

/-- E, K and NC of R277. -/
def ShCfg.E (c : ShCfg) : Nat := 256 / c.isz
def ShCfg.K (c : ShCfg) : Nat := ceilDiv c.len c.E
def ShCfg.NC (c : ShCfg) : Nat := if c.coll = 1 then c.members * c.K else c.K

/-- The Binders of BINDER_MASK, W of R278, and the Binder that sums a chunk. -/
def ShCfg.binders (c : ShCfg) : List Nat := (List.range 32).filter fun b => c.mask.testBit b
def ShCfg.W (c : ShCfg) : Nat := c.binders.length * (c.slots / c.E)
def ShCfg.binder (c : ShCfg) (chunk : Nat) : Nat := c.binders.getD (chunk % c.binders.length) 0

/-- Elements of a chunk: the last of a vector, slice or block may be shorter (R277). -/
def ShCfg.count (c : ShCfg) (chunk : Nat) : Nat := min c.E (c.len - chunk % c.K * c.E)

/-- Formats of reducing collectives, and of the others (R276). -/
def shFmt (f : Nat) : Bool := decide (f ≤ 4) || isInt f

/-! ### Children (Table 11-2) -/

structure Kid where
  ikion : Bool := false
  base : Nat := 0
  cnt : Nat := 0
  sheaf : Nat := 0
  eid : Nat := 0
  deriving DecidableEq, Repr, Inhabited

def kidOf (x : Nat) : Kid :=
  { ikion := nbits x 62 62 == 1, base := nbits x 61 47, cnt := nbits x 46 31, sheaf := nbits x 30 19, eid := x % 65536 }

/-- A child's entry is malformed (Table 11-2). -/
def kidBad (x : Nat) : Bool :=
  let k := kidOf x
  nbits x 63 63 != 1 || nbits x 18 16 != 0 || k.cnt == 0 || decide (32768 < k.cnt) || (!k.ikion && (k.cnt != 1 || k.sheaf != 0))

/-- Ranges ascend without overlap from `at_` on; at the root they leave no gap (R275). -/
def kidsOk (root : Bool) (members : Nat) : Nat → List Nat → Bool
  | at_, [] => !root || at_ == members
  | at_, x :: xs =>
    let k := kidOf x
    !kidBad x && (if root then k.base == at_ else decide (at_ ≤ k.base)) && decide (k.base + k.cnt ≤ members)
      && kidsOk root members (k.base + k.cnt) xs

def State.sheaf (s : State) (k : Nat) : Sheaf := s.shv.sheaves.get k
def State.setSheaf (k : Nat) (x : Sheaf) (s : State) : State := s.modShf fun u => { u with sheaves := u.sheaves.set k x }

def Sheaf.kid (x : Sheaf) (i : Nat) : Kid := kidOf (x.kids.getD i 0)
def Sheaf.kidList (x : Sheaf) : List Kid := x.kids.map kidOf

/-- Ranks of the node's children (R of R276). -/
def Sheaf.ranks (x : Sheaf) : Nat := (x.kidList.map Kid.cnt).sum

def Kid.holds (k : Kid) (rank : Nat) : Bool := decide (k.base ≤ rank) && decide (rank < k.base + k.cnt)

/-- The child whose range holds a rank. -/
def Sheaf.kidFor (x : Sheaf) (rank : Nat) : Option Kid := x.kidList.find? fun k => k.holds rank

/-- Chunks sent down that complete an operation (Table 11-3). -/
def shTarget (c : ShCfg) (x : Sheaf) : Nat :=
  match c.coll with
  | 1 => x.ranks * c.K
  | 2 => c.members * c.K
  | 4 => x.ranks * c.members * c.K
  | _ => c.K

/-! ### ENABLE (R284) -/

/-- Bytes of the down reference and of the error feedback (R289). -/
def ShCfg.refBytes (c : ShCfg) : Nat := c.f 916 901 * c.K * 256 + (if c.f 981 980 = 0 then 0 else c.len * c.osz)

/-- A structure of `n` bytes that ends below 288 GiB, at a multiple of 4 KiB (R187). -/
def fitsAt (a n : Nat) : Bool := a % 4096 == 0 && decide (a + n ≤ barnSize)

/-- QDELTA takes floating-point formats of 16 or 32 bits (R289). -/
def qdeltaFmt (f : Nat) : Bool := decide (f ≤ 2)

/-- Fields out of range (Tables 11-1 and 11-3, R276 to R279, R289). -/
def shBad (c : ShCfg) : Bool :=
  let up := c.f 983 982
  let down := c.f 981 980
  let n := c.f 916 901
  decide (4 < c.coll) || c.f 1013 1012 == 3 || c.f 961 960 != 0 || c.f 804 800 != 0 || c.f 543 512 != 0 || c.f 295 0 != 0
    || up == 3 || down == 3 || ((up != 0 || down != 0) && c.coll != 0) || (down != 0 && (!c.root || c.outF == 14))
    || (up == 2 && !qdeltaFmt c.inF) || (down == 2 && !qdeltaFmt c.outF)
    || (c.root && (c.f 959 944 != 0 || c.f 943 932 != 0 || c.f 931 917 != 0))
    || n == 0 || decide (32768 < n) || c.members == 0 || decide (32768 < c.members) || c.len == 0
    || c.f 824 805 == 0 || decide (1000000 < c.f 824 805)
    || (if c.coll = 3 then decide (c.members ≤ c.f 884 870) else c.f 884 870 != 0)
    || !shFmt c.inF
    || (if c.reducing then
          !(shFmt c.outF || (c.outF == 14 && !c.fast)) || c.binders.isEmpty || c.slots == 0 || decide (4096 < c.slots)
            || c.slots % c.E != 0 || (c.coll == 1 && (c.len * c.isz % 256 != 0 || decide (c.W * c.E < c.members * c.len)))
        else c.outF != c.inF || c.mask != 0 || c.slots != 0)
    || !fitsAt (c.f 767 704) (8 * n)
    || (if up = 0 ∧ down = 0 then c.f 703 640 != 0 else !fitsAt (c.f 703 640) c.refBytes)
    || (if down = 2 then !fitsAt (c.f 639 576) (4 * c.len) else c.f 639 576 != 0)

/-- The child list in the barn. -/
def State.kidWords (s : State) (c : ShCfg) : List Nat := (List.range (c.f 916 901)).map fun i => s.barnNum (c.f 767 704 + 8 * i) 8

/-- Tiles of a mask, and the slots that a sheaf takes on each Binder of a tile. -/
def ShCfg.tiles (c : ShCfg) : List Nat := (List.range 8).filter fun t => nbits c.mask (4 * t + 3) (4 * t) != 0
def ShCfg.slotsOn (c : ShCfg) (t : Nat) : List Nat := (List.range 4).map fun b => if c.mask.testBit (4 * t + b) then c.slots else 0

/-- Reserve or release the slots and the internal descriptors (R280, R284). -/
def State.shReserve (c : ShCfg) (take : Bool) (s : State) : State :=
  c.tiles.foldl (fun s t => (s.slotGrant t (c.slotsOn t) take).modTile fun u =>
    { u with internal := u.internal.modify t fun n => if take then n + 1 else n - 1 }) s

/-! ### Exact partials (R283) -/

/-- The lowest set bit of a number that is not 0; two's complement width. -/
def lowBitN : Nat → Nat → Nat
  | 0, _ => 0
  | n + 1, x => if x % 2 = 1 then 0 else 1 + lowBitN n (x / 2)
def lowBit (v : Int) : Nat := lowBitN 320 v.natAbs
def widthOf (v : Int) : Nat := if 0 ≤ v then (if v = 0 then 0 else v.natAbs.log2 + 2) else (if v = -1 then 1 else (v.natAbs - 1).log2 + 2)

/-- A field of `w` bits as a signed number. -/
def signN (w x : Nat) : Int := if w = 0 then 0 else if x < 2 ^ (w - 1) then x else (x : Int) - (2 ^ w : Nat)

def Slot48.flags (a : Slot48) : Nat := b2n a.nan + 2 * b2n a.pos + 4 * b2n a.neg + 8 * b2n a.poison

/-- One block of up to 16 elements. -/
def exactBlock (xs : List Slot48) : List Byte :=
  let n0 := (xs.headD {}).n
  if xs.all fun a => a.w == 0 && a.n == n0 then
    let nz := (xs.filter fun a => a.v != 0).map fun a => lowBit a.v
    let low := nz.foldl min (nz.headD 0)
    let fs : List Int := xs.map fun a => a.v / ((2 ^ low : Nat) : Int)
    let w := (fs.map widthOf).foldl max 0
    let flags := (List.range xs.length).foldl (fun n i => n + (xs.getD i {}).flags * 2 ^ (4 * i)) 0
    leBytes 16 (flags * 2 ^ 64 + low * 2 ^ 54 + w * 2 ^ 45 + n0)
      ++ leBytes (16 * ceilDiv w 8) (packBits w (fs.map fun f => (f % ((2 ^ w : Nat) : Int)).toNat))
  else leBytes 16 (2 ^ 63) ++ ((List.range 16).map fun i => leBytes 48 (xs.getD i {}).bits).flatten

/-- Read a block whose first `m` elements are there: its elements and the bytes after it. -/
def exactRead (m : Nat) (bs : List Byte) : Option (List Slot48 × List Byte) :=
  if bs.length < 16 then none
  else
    let h := leNat (bs.take 16)
    let low := nbits h 62 54
    let w := nbits h 53 45
    let rest := bs.drop 16
    if nbits h 44 32 ≠ 0 then none
    else if nbits h 63 63 = 1 then
      let es := (List.range 16).map fun i => leNat ((rest.drop (48 * i)).take 48)
      if nbits h 127 64 ≠ 0 ∨ nbits h 31 0 ≠ 0 ∨ rest.length < 768 ∨ es.any (fun x => !exactOk x) then none
      else some ((es.take m).map Slot48.ofBits, rest.drop 768)
    else
      let n := 16 * ceilDiv w 8
      let x := leNat (rest.take n)
      if 319 < low ∨ 320 < low + w ∨ rest.length < n ∨ nbits h 127 64 / 2 ^ (4 * m) ≠ 0 then none
      else some ((List.range m).map fun i =>
        let f := nbits h (64 + 4 * i + 3) (64 + 4 * i)
        { v := signN w (nbits x (w * i + w - 1) (w * i)) * (2 ^ low : Nat), nan := f.testBit 0, pos := f.testBit 1, neg := f.testBit 2
          poison := f.testBit 3, n := nbits h 31 0 }, rest.drop n)

/-- The blocks of `m` elements, nothing left over. -/
def exactReadAll : Nat → Nat → List Byte → Option (List Slot48)
  | 0, _, _ => none
  | fuel + 1, m, bs =>
    if m = 0 then (if bs.isEmpty then some [] else none)
    else match exactRead (min 16 m) bs with
      | none => none
      | some (xs, rest) => (exactReadAll fuel (m - 16) rest).map (xs ++ ·)

/-- The payload of a packet with EXACT elements. -/
def exactPayload : Nat → List Slot48 → List Byte
  | 0, _ => []
  | fuel + 1, xs => if xs.isEmpty then [] else exactBlock (xs.take 16) ++ exactPayload fuel (xs.drop 16)

/-! ### Packets (Tables 11-4 and 11-5) -/

def shfKind (p : Packet) : Nat := nbits p.spec 19 16
def shfChild (p : Packet) : Nat := p.spec % 2 ^ 15
def shfOp (p : Packet) : Nat := p.xf 127 64
def shfChunk (p : Packet) : Nat := p.xf 63 40
def shfSub (p : Packet) : Nat := p.xf 39 38
def shfForm (p : Packet) : Nat := p.xf 37 36
def shfRank (p : Packet) : Nat := p.xf 35 21
def shfDst (p : Packet) : Nat := p.xf 20 6
def shfData (p : Packet) : List Byte := p.bytes 32 (p.len - 32)

/-- Die of a sheaf (R274). -/
def shDie (k : Nat) : Nat := k / 2048 % 2

/-- The extension of a packet. -/
def shExt (op chunk sub form rank dst : Nat) : Nat :=
  op * 2 ^ 64 + chunk * 2 ^ 40 + sub * 2 ^ 38 + form * 2 ^ 36 + rank * 2 ^ 21 + dst * 2 ^ 6

/-- Bytes counted for a sheaf and its job (R292, R474). -/
def State.shBytes (k raw wire : Nat) (s : State) : State :=
  let s := (s.bump (Adr.SHEAF_BYTES_RAW (shDie k)) raw).bump (Adr.SHEAF_BYTES_WIRE (shDie k)) wire
  match s.slotOf (s.shCfgOf k).fjid with
  | some j => s.bump (Adr.JOB_SHEAF_BYTES j) raw
  | none => s

/-- Send a packet of sheaf `k`: `ext` without OP, `raw` the uncompressed bytes. -/
def State.shSend (k eid sid kind child ext raw : Nat) (poison : Bool) (data : List Byte) (s : State) : State :=
  let d := shDie k
  let x := s.sheaf k
  let s := s.setSheaf k { x with moved := s.ns }
  let s := (s.shBytes k raw data.length).bump (if kind = 0 then Adr.SHEAF_UP_PKTS d else Adr.SHEAF_DOWN_PKTS d) 1
  s.sendFor d (some k) (mkPkt 9 (sid * 2 ^ 20 + kind * 2 ^ 16 + child) (s.localEid d) eid s.stamp poison
    (leBytes 16 (x.opNext.toNat * 2 ^ 64 + ext % 2 ^ 64) ++ data))

/-- To the parent, to a child (R281). -/
def State.shUp (k ext raw : Nat) (poison : Bool) (data : List Byte) (s : State) : State :=
  let c := s.shCfgOf k
  s.shSend k (c.f 959 944) (c.f 943 932) 0 (c.f 931 917) ext raw poison data
def State.shDown (k : Nat) (kid : Kid) (ext raw : Nat) (poison : Bool) (data : List Byte) (s : State) : State :=
  s.shSend k kid.eid (if kid.ikion then kid.sheaf else k) 1 0 ext raw poison data

/-- To every child, or to the one whose range holds a rank (Table 11-3). -/
def State.shSpread (k : Nat) (rank : Option Nat) (ext raw : Nat) (poison : Bool) (data : List Byte) (s : State) : State :=
  let x := s.sheaf k
  match rank with
  | none => x.kidList.foldl (fun s kid => s.shDown k kid ext raw poison data) s
  | some r => match x.kidFor r with
    | some kid => s.shDown k kid ext raw poison data
    | none => s

/-- A chunk has been sent down at this node. -/
def State.shCount (k : Nat) (s : State) : State :=
  let x := s.sheaf k
  (s.setSheaf k { x with done := x.done + 1, moved := s.ns }).gcount 0x11 1 (shDie k) none none (some (s.shCfgOf k).fjid)

/-! ### Aborts (R293 to R295) -/

/-- An abort packet (Table 11-10). -/
def State.shAbortPkt (k eid sid child cause origin : Nat) (s : State) : State :=
  let d := shDie k
  s.sendOwn d (mkPkt 1 (3 * 2 ^ 28 + sid * 2 ^ 16 + child) (s.localEid d) eid s.stamp false
    (leBytes 16 ((s.sheaf k).opNext.toNat * 2 ^ 64 + cause * 2 ^ 60 + origin * 2 ^ 44)))

/-- Where an abort came from. -/
inductive ShFrom where
  | here | parent
  | child (i : Nat)
  deriving DecidableEq, Repr

/-- A sheaf that is IDLE or RUNNING aborts. -/
def State.shAbort (k cause origin : Nat) (frm : ShFrom) (s : State) : State :=
  let x := s.sheaf k
  if x.st ≠ .idle ∧ x.st ≠ .running then s
  else
    let d := shDie k
    let c := s.shCfgOf k
    let cap := cause * 2 ^ 28 + k
    let s := s.setSheaf k { x with st := .aborted, cause := cause, groups := [], parts := [], done := 0 }
    let s := if c.root ∨ frm = .parent then s else s.shAbortPkt k (c.f 959 944) (c.f 943 932) (c.f 931 917) cause origin
    let kids := (List.range x.kids.length).map fun i => (i, x.kid i)
    let s := kids.foldl (fun s e => if e.2.ikion ∧ frm ≠ .child e.1 then s.shAbortPkt k e.2.eid e.2.sheaf 0 cause origin else s) s
    let s := kids.foldl (fun s e => if e.2.ikion then s else s.shAbortPkt k e.2.eid k 0 cause origin) s
    let s := (s.setRg (Adr.SHEAF_ABORT_CAPTURE0 d) (w32 cap)).setRg (Adr.SHEAF_ABORT_CAPTURE1 d) (w32 origin)
    ((s.bump (Adr.SHEAF_ABORTS d) 1).raise Err.sheaf_SHEAF_ABORT d [cap, origin] (some c.fjid)).raiseInt .sheaf d 1

/-- A failure that this node detects. -/
def State.shFail (k cause : Nat) (s : State) : State := s.shAbort k cause (s.localEid (shDie k)) .here

/-- STOP of the job that holds an FJID (Table 11-7). -/
def State.shStop (fjid : Nat) (s : State) : State :=
  (List.map Prod.fst s.shv.sheaves).foldl (fun s k => if (s.shCfgOf k).fjid = fjid then s.shFail k 6 else s) s

/-! ### Completion (R285) -/

/-- The operation is complete if its chunks have been sent down. -/
def State.shComplete (k : Nat) (s : State) : State :=
  let x := s.sheaf k
  let c := s.shCfgOf k
  if x.st ≠ .running ∨ x.done < shTarget c x then s
  else if !x.groups.isEmpty then s.shFail k 5
  else
    let s := (s.setSheaf k { x with st := .idle, opNext := x.opNext + 1, done := 0, parts := [] }).bump (Adr.SHEAF_OPS_DONE (shDie k)) 1
    if c.f 976 976 = 1 then
      match s.slotOf c.fjid with
      | some j => s.ctrIncr (c.f 975 962) j
      | none => s
    else s

/-! ### References (R289) -/

/-- `n` elements of `size` bytes at a barn address, and whether a line of them is poisoned. -/
def State.refElems (s : State) (a size n : Nat) : List Nat × Bool :=
  ((List.range n).map fun i => s.barnNum (a + size * i) size, (linesOf a (size * n)).any s.poisoned)
def State.setElems (a size : Nat) (xs : List Nat) (mark : Bool) (s : State) : State :=
  s.storeMarked a ((xs.map (leBytes size)).flatten) mark

/-- Addresses of the references of chunk `c` of child `i`, and of the down reference. -/
def ShCfg.upRef (c : ShCfg) (i chunk : Nat) : Nat := c.f 703 640 + (i * c.K + chunk) * 256
def ShCfg.downRef (c : ShCfg) (chunk : Nat) : Nat := c.f 703 640 + c.f 916 901 * c.K * 256 + chunk * c.E * c.osz

/-- A CODED payload: a Press block of `n` elements of a format under a codec. -/
def codedOk (codec : Option Nat) (fmt n : Nat) (data : List Byte) : Option PressHdr :=
  match pressHdr (leNat (data.take 16)) with
  | none => none
  | some h =>
    if h.fmt ≠ fmt ∨ h.raw ≠ n * (fmtBits fmt / 8) ∨ codec.any (fun x => x != h.codec) ∨ data.length < 16 then none
    else (pressDecode h (data.drop 16) []).map fun _ => h

/-! ### Sums at a reducing node (R280) -/

/-- A slot of a group, and as it is kept. -/
def groupBin (fast : Bool) (x : Nat) : Bin := if fast then .fast (x % 2 ^ 32) (x / 2 ^ 32 == 1) else .exact (Slot48.ofBits x)
def Bin.kept : Bin → Nat
  | .exact a => a.bits
  | .fast x p => x + b2n p * 2 ^ 32
def Bin.slot : Bin → Slot48
  | .exact a => a
  | .fast _ _ => {}

/-- Packets that a chunk of `n` elements needs (R280). -/
def shNeed (c : ShCfg) (x : Sheaf) (n : Nat) : Nat :=
  let ik := (x.kidList.filter Kid.ikion).length
  (x.kids.length - ik) + ik * (if c.fast then 1 else ceilDiv n 64)

/-- Counts of a Binder's rounding (Table 10-15); those of NaN are open. -/
def State.shNote (t : Nat) (is : List EncInfo) (s : State) : State :=
  let s := s.bump (Adr.TILE_BINDER_OVERFLOW t) (is.filter (·.overflow)).length
  let s := s.bump (Adr.TILE_BINDER_SPECIAL t) (is.filter (·.special)).length
  (s.bump (Adr.TILE_BINDER_NAN t) s.freeVal).takeFree

/-- EXACT slots out, one packet for each 64 elements (R283). -/
def State.shExactOut (send : Nat → Nat → Bool → List Byte → State → State) (chunk : Nat) (xs : List Slot48) (size : Nat)
    (s : State) : State :=
  let poison := xs.any fun a => a.poison
  (List.range (ceilDiv xs.length 64)).foldl (fun s i =>
    let part := (xs.drop (64 * i)).take 64
    send (shExt 0 chunk i 2 0 0) (part.length * size) poison (exactPayload 4 part) s) s

/-- A result chunk at the root (R280, R289). -/
def State.shResult (k chunk : Nat) (bs : List Bin) (s : State) : State :=
  let c := s.shCfgOf k
  let n := bs.length
  let rank := if c.coll = 1 then some (chunk / c.K) else none
  let poison := bs.any Bin.poison
  let s := if c.outF = 14 then s.shExactOut (State.shSpread k rank) chunk (bs.map Bin.slot) 48
    else
      let t := c.binder chunk / 4
      let rs := (List.range n).map fun j =>
        (bs.getD j default).round c.outF (rndOf (c.f 1013 1012) (c.f 575 544) (chunk * c.E + j)) (c.f 1014 1014 == 1)
      let xs := rs.map (·.1)
      let raw := elemsBytes c.outF xs
      let s := s.shNote t (rs.map (·.2))
      let down := c.f 981 980
      if down = 0 then s.shSpread k rank (shExt 0 chunk 0 0 0 0) (n * c.osz) poison raw
      else
        let (refs, p) := s.refElems (c.downRef chunk) c.osz n
        let ea := c.f 639 576 + 4 * (chunk * c.E)
        let (es, q) := if down = 2 then s.refElems ea 4 n else (List.replicate n 0, false)
        let (block, dec, es', esc) := pressEncode down c.outF raw refs es
        let bad := poison || p || q
        let s := s.setElems (c.downRef chunk) c.osz dec bad
        let s := if down = 2 then s.setElems ea 4 es' bad else s
        let s := if esc then s.bump (Adr.TILE_PRESS_ESC_BLOCKS t) 1 else s
        s.shSpread k rank (shExt 0 chunk 0 1 0 0) (n * c.osz) bad block
  s.shCount k

/-- The sum of a chunk is complete: its slot group is freed, its result or partial leaves. -/
def State.shClose (k chunk : Nat) (bs : List Bin) (s : State) : State :=
  let c := s.shCfgOf k
  let x := s.sheaf k
  let s := s.setSheaf k { x with groups := x.groups.set (chunk % c.W) none }
  if c.root then s.shResult k chunk bs
  else if c.fast then
    s.shUp k (shExt 0 chunk 0 0 0 0) (bs.length * c.isz) (bs.any Bin.poison) (elemsBytes 0 (bs.map fun b => b.kept % 2 ^ 32))
  else s.shExactOut (fun ext raw p d => State.shUp k ext raw p d) chunk (bs.map Bin.slot) c.isz

/-- The elements of an accepted contribution: the first one's place in the chunk, and either EXACT slots or
elements; a CODED one updates its reference. `none` is a PROTOCOL failure (R282 step 4). -/
def State.shInputs (k i : Nat) (p : Packet) (s : State) : Option (Nat × (List Slot48 ⊕ List Elem) × State) :=
  let c := s.shCfgOf k
  let chunk := shfChunk p
  let n := c.count chunk
  let data := shfData p
  let kid := (s.sheaf k).kid i
  let t := c.binder chunk / 4
  let elems (fmt : Nat) (xs : List Nat) (bad : Bool) : List Elem :=
    xs.map fun x => { v := decVal fmt x, neg := decNeg fmt x, bits := x, poison := bad }
  if kid.ikion && !c.fast then
    let sub := shfSub p
    if shfForm p ≠ 2 ∨ ceilDiv n 64 ≤ sub then none
    else (exactReadAll 5 (min 64 (n - 64 * sub)) data).map fun xs =>
      (64 * sub, .inl (xs.map fun a => { a with poison := a.poison || p.poison }), s)
  else if shfSub p ≠ 0 then none
  else if shfForm p = 0 then
    let fmt := if kid.ikion then 0 else c.inF
    if data.length ≠ n * (fmtBits fmt / 8) then none
    else some (0, .inr (elems fmt (blockElems fmt data) p.poison), s)
  else if shfForm p = 1 ∧ !kid.ikion ∧ c.f 983 982 ≠ 0 then
    match codedOk (some (c.f 983 982)) c.inF n data with
    | none => none
    | some h =>
      let (refs, q) := s.refElems (c.upRef i chunk) c.isz n
      match pressDecode h (data.drop 16) refs with
      | none => none
      | some raw =>
        let crcBad := (crc32c raw).toNat != h.check
        let bad := p.poison || q || crcBad
        let xs := blockElems c.inF raw
        let s := s.setElems (c.upRef i chunk) c.isz xs bad
        let s := if crcBad then (s.bump (Adr.TILE_PRESS_CRC_ERR t) 1).raise Err.tile_PRESS_CRC t [] (some c.fjid) else s
        some (0, .inr (elems c.inF xs bad), s)
  else none

/-- An UP packet of a reducing collective, from child `i`. -/
def State.shReduce (k i : Nat) (p : Packet) (s : State) : Option State :=
  let c := s.shCfgOf k
  let chunk := shfChunk p
  let n := c.count chunk
  let x := s.sheaf k
  let held := x.groups.get (chunk % c.W)
  if shfRank p ≠ 0 ∨ shfDst p ≠ 0 ∨ held.any (fun g => g.chunk != chunk) then none
  else match s.shInputs k i p with
    | none => none
    | some (lo, ins, s) =>
      let g := held.getD { chunk := chunk, left := shNeed c x n, slots := List.replicate n 0 }
      let m := match ins with
        | .inl xs => xs.length
        | .inr xs => xs.length
      let bs := (List.range n).map fun j =>
        let b := groupBin c.fast (g.slots.getD j 0)
        if j < lo ∨ lo + m ≤ j then b
        else match ins with
          | .inl xs => b.merge (xs.getD (j - lo) {})
          | .inr xs => let e := xs.getD (j - lo) {}; b.input e.v e.poison
      let s := (s.shBytes k (m * c.isz) (shfData p).length).gcount 0x0E (shfData p).length (tileDie (c.binder chunk / 4)) none none (some c.fjid)
      if g.left ≤ 1 then some (s.shClose k chunk bs)
      else
        let x := s.sheaf k
        some (s.setSheaf k { x with groups := x.groups.set (chunk % c.W) (some { g with left := g.left - 1, slots := bs.map Bin.kept }) })

/-! ### Forwarding (Table 11-3) -/

/-- The extension of a packet without OP. -/
def shfExt (p : Packet) : Nat := p.xf 63 0

/-- An UP packet of the other collectives, from child `i`. -/
def State.shForward (k i : Nat) (p : Packet) (s : State) : Option State :=
  let c := s.shCfgOf k
  let x := s.sheaf k
  let n := c.count (shfChunk p) * c.isz
  let data := shfData p
  let rank := shfRank p
  let dst := shfDst p
  let ok := shfForm p == 0 && shfSub p == 0 && data.length == n && decide (rank < c.members) && (match c.coll with
    | 3 => rank == c.f 884 870 && dst == 0 && (x.kid i).holds (c.f 884 870)
    | 2 => dst == 0
    | _ => decide (dst < c.members))
  let s := s.shBytes k n data.length
  if !ok then none
  else if c.coll = 4 then
    match x.kidFor dst with
    | some kid => some ((s.shDown k kid (shfExt p) n p.poison data).shCount k)
    | none => some (if c.root then s else s.shUp k (shfExt p) n p.poison data)
  else if c.root then some ((s.shSpread k none (shfExt p) n p.poison data).shCount k)
  else some (s.shUp k (shfExt p) n p.poison data)

/-- A DOWN packet at a node that is not the root: its form is kept (R281). -/
def State.shDownRx (k : Nat) (p : Packet) (s : State) : Option State :=
  let c := s.shCfgOf k
  let x := s.sheaf k
  let chunk := shfChunk p
  let n := c.count chunk
  let data := shfData p
  let rank := shfRank p
  let dst := shfDst p
  let exact := c.reducing && c.outF == 14
  let m := if exact then min 64 (n - 64 * shfSub p) else n
  let ok := (if exact then shfForm p == 2 && decide (shfSub p < ceilDiv n 64) && (exactReadAll 5 m data).isSome
      else shfSub p == 0 && (if shfForm p = 1 then c.coll == 0 && (codedOk none c.outF n data).isSome
        else shfForm p == 0 && data.length == n * c.osz))
    && (match c.coll with
      | 2 => decide (rank < c.members) && dst == 0
      | 3 => rank == c.f 884 870 && dst == 0
      | 4 => decide (rank < c.members) && decide (dst < c.members)
      | _ => rank == 0 && dst == 0)
  let toR := match c.coll with
    | 1 => some (chunk / c.K)
    | 4 => some dst
    | _ => none
  if !ok then none
  else
    let s := (s.shBytes k (m * c.osz) data.length).shSpread k toR (shfExt p) (m * c.osz) p.poison data
    if toR.any fun r => (x.kidFor r).isNone then some s
    else if exact then
      let x := s.sheaf k
      let have_ := x.parts.get chunk + 1
      let full := decide (ceilDiv n 64 ≤ have_)
      let s := s.setSheaf k { x with parts := x.parts.set chunk (if full then 0 else have_) }
      some (if full then s.shCount k else s)
    else some (s.shCount k)

/-! ### Arrival (R282) -/

/-- An arriving SHEAF packet, checked in order. -/
def State.shRx (p : Packet) (s : State) : State :=
  let k := p.sheafId
  let d := shDie k
  let x := s.sheaf k
  let c := s.shCfgOf k
  let kind := shfKind p
  let i := shfChild p
  let badSrc := if kind = 0 then decide (x.kids.length ≤ i) || (x.kid i).eid != p.src
    else kind == 1 && (c.root || p.src != c.f 959 944)
  if (x.st ≠ .idle ∧ x.st ≠ .running) ∨ (x.st = .idle ∧ s.stopped 9 d = true) then s.bump (Adr.SHEAF_SHEAF_DROP d) 1
  else if badSrc then (s.bump (Adr.SHEAF_SRC_BAD d) 1).raise Err.sheaf_SRC_BAD d [] none
  else if shfOp p ≠ x.opNext.toNat then s.shFail k 5
  else
    let s := if x.st = .idle then s.setSheaf k { x with st := .running, tStart := s.ns, moved := s.ns } else s
    if 1 < kind ∨ nbits p.spec 15 15 ≠ 0 ∨ p.xf 5 0 ≠ 0 ∨ (kind = 1 ∧ i ≠ 0) ∨ c.NC ≤ shfChunk p then s.shFail k 5
    else match (if kind = 1 then s.shDownRx k p else if c.reducing then s.shReduce k i p else s.shForward k i p) with
      | none => s.shFail k 5
      | some s =>
        let s := s.bump (if kind = 0 then Adr.SHEAF_UP_PKTS d else Adr.SHEAF_DOWN_PKTS d) 1
        let y := s.sheaf k
        (s.setSheaf k { y with moved := s.ns }).shComplete k

/-! ### Windows (R286) and links -/

/-- The neighbours of a sheaf: EID and the sheaf ID that packets to it carry. -/
def State.shNeighbours (s : State) (k : Nat) : List (Nat × Nat) :=
  let c := s.shCfgOf k
  (if c.root then [] else [(c.f 959 944, c.f 943 932)])
    ++ (s.sheaf k).kidList.map fun kid => (kid.eid, if kid.ikion then kid.sheaf else k)

/-- The ports that the forwarding entry of an EID resolves to. -/
def State.eidPorts (s : State) (eid : Nat) : List Nat :=
  let e := s.fwd eid
  if nbits e 63 63 = 0 ∨ fwdBad e then []
  else match nbits e 62 60 with
    | 0 => [nbits e 11 0]
    | 1 => ((s.group (nbits e 11 0)).map (·.2)).getD []
    | _ => []

/-- Sheaves that run on this node. -/
def State.shLive (s : State) : List Nat :=
  s.shv.sheaves.filterMap fun e => if e.2.st = .idle ∨ e.2.st = .running then some e.1 else none

/-- A window of sheaf ID `sid` on port `p` closes, or is lost to a time step (R37): for every sheaf with
TT_BOUND that uses it there, it is missed if packets of the sheaf still wait, or if `lost`. -/
def State.windowEnd (p sid : Nat) (lost : Bool) (s : State) : State :=
  s.shLive.foldl (fun s k =>
    let c := s.shCfgOf k
    if c.f 1016 1016 = 0 ∨ !((s.shNeighbours k).any fun n => n.2 == sid && (s.eidPorts n.1).contains p) then s
    else
      let x := s.sheaf k
      if lost || s.sw.queues.any fun q => q.egress == p && q.sheaf == some k && !q.ctl then
        let n := x.missed.get p + 1
        let s := (s.setSheaf k { x with missed := x.missed.set p n }).bump (Adr.SHEAF_MISSED_WINDOWS (shDie k)) 1
        if c.f 856 849 ≠ 0 ∧ c.f 856 849 ≤ n then s.shFail k 4 else s
      else s.setSheaf k { x with missed := x.missed.set p 0 }) s

/-- A port is in the pair ACTIVE and RETRAIN. -/
def State.inPair (s : State) (p : Nat) : Bool := s.portExists p && (s.flt.groups.get (s.rf (Adr.PORT_FENCE p) 5 0) == .open_) && ((s.port p).st == .active || (s.port p).st == .retrain)

/-- A neighbour of the sheaf is reached through port `p`, and no longer (cause LINK). -/
def State.shCut (s : State) (k p : Nat) : Bool :=
  (s.shNeighbours k).any fun n =>
    let ps := s.eidPorts n.1
    ps.contains p && (ps.length == 1 || ps.all fun q => !s.inPair q)

end Sys2Proof.Machine
end

