-- ==== Sys2Proof/Machine/Sheaf.lean ====
section
/-! DEFINITION. Commands of the sheaves and of their counters (chapter 11): ENABLE, DISABLE, ABORT and RESET (Table
11-7), arriving packets and aborts (R282, R294), timeouts and lost links (Table 11-9), writes and reads of counters
(R287, R288). -/

set_option Elab.async false

namespace Sys2Proof.Machine
open Sys2Proof

/-! ### Commands (R284, Table 11-7) -/

/-- A command ends with a result. -/
def State.shDone (d r : Nat) (s : State) : State := (s.setRg (Adr.SHEAF_CMD_STATUS d) (w32 r)).raiseInt .sheaf d 0

/-- A command for sheaf `k` at page `d`: another die's sheaf is refused (R299). -/
def State.shCmd (src : Source) (d k : Nat) (act : State → State) (s : State) : State :=
  s.guarded src (Adr.SHEAF_CMD d) .wo fun s => if k < 4096 ∧ shDie k = d then act s else s.shDone d 1

/-- ARG_OP. -/
def State.shArg (s : State) (d : Nat) : BitVec 64 := BitVec.ofNat 64 (s.rg64 (Adr.SHEAF_ARG_OP_LO d))

/-- ENABLE: its checks, then the reservations (R284). -/
def State.shEnable (d k : Nat) (s : State) : State :=
  let x := s.sheaf k
  let c := s.shCfgOf k
  if x.st ≠ .free then s.shDone d 2
  else if shBad c || (s.activeSlot c.fjid).isNone || !kidsOk c.root c.members 0 (s.kidWords c) then s.shDone d 1
  else if c.tiles.any fun t => !s.tileOn t then s.shDone d 2
  else if c.binders.any fun b => decide (4096 < s.tile.binders.get b + c.slots) then s.shDone d 4
  else ((s.shReserve c true).setSheaf k { x with
    st := .idle, opNext := s.shArg d, resetOp := s.shArg d, done := 0, kids := s.kidWords c, groups := [], parts := [], missed := [] }).shDone d 0
def execSheafEnable (src : Source) (d k : Nat) (s : State) : Host.Outcome State Fault Refusal :=
  .next (s.shCmd src d k (·.shEnable d k))

/-- DISABLE releases the reservations. -/
def State.shDisable (d k : Nat) (s : State) : State :=
  let x := s.sheaf k
  match x.st with
  | .free => s.shDone d 2
  | .running => s.shDone d 7
  | _ => ((s.shReserve (s.shCfgOf k) false).setSheaf k { x with
      st := .free, kids := [], groups := [], parts := [], missed := [], done := 0 }).shDone d 0
def execSheafDisable (src : Source) (d k : Nat) (s : State) : Host.Outcome State Fault Refusal :=
  .next (s.shCmd src d k (·.shDisable d k))

/-- The ABORT command. -/
def State.shAbortCmd (d k : Nat) (s : State) : State :=
  if (s.sheaf k).st = .free then s.shDone d 2 else (s.shFail k 7).shDone d 0
def execSheafAbortCmd (src : Source) (d k : Nat) (s : State) : Host.Outcome State Fault Refusal :=
  .next (s.shCmd src d k (·.shAbortCmd d k))

/-- RESET. -/
def State.shReset (d k : Nat) (s : State) : State :=
  let x := s.sheaf k
  match x.st with
  | .free => s.shDone d 2
  | .running => s.shDone d 7
  | _ => (s.setSheaf k { x with
      st := .idle, opNext := s.shArg d, resetOp := s.shArg d, done := 0, groups := [], parts := [], missed := [] }).shDone d 0
def execSheafReset (src : Source) (d k : Nat) (s : State) : Host.Outcome State Fault Refusal :=
  .next (s.shCmd src d k (·.shReset d k))

/-! ### Packets -/

/-- Take a packet and act on it; its cells are freed (R65). -/
def State.shTake (p : Nat) (k : Packet) (act : State → State) (s : State) : State :=
  let (c, s) := s.takeLocal p k
  act (s.freeLocal c)

/-- SHEAF_UP_RX (R282): a SHEAF packet whose KIND is not DOWN. -/
def execSheafUpRx (p : Nat) (pkt : Packet) (s : State) : Host.Outcome State Fault Refusal :=
  .next (if pkt.cls = 9 ∧ shfKind pkt ≠ 1 then s.shTake p pkt (·.shRx pkt) else s)

/-- SHEAF_DOWN_RX (R281). -/
def execSheafDownRx (p : Nat) (pkt : Packet) (s : State) : Host.Outcome State Fault Refusal :=
  .next (if pkt.cls = 9 ∧ shfKind pkt = 1 then s.shTake p pkt (·.shRx pkt) else s)

/-- An arriving abort (R294): under the source check; from an endpoint its cause is MEMBER. -/
def State.shAbortRx (p : Packet) (s : State) : State :=
  let k := nbits p.spec 27 16
  let d := shDie k
  let x := s.sheaf k
  let c := s.shCfgOf k
  let i := p.spec % 2 ^ 15
  let cause := nbits (p.num 16 8) 63 60
  let frm : Option ShFrom :=
    if !c.root && p.src == c.f 959 944 then some .parent
    else if i < x.kids.length ∧ (x.kid i).eid = p.src then some (.child i) else none
  let drop := s.bump (Adr.SHEAF_SHEAF_DROP d) 1
  if x.st ≠ .idle ∧ x.st ≠ .running then drop
  else match frm with
    | none => (s.bump (Adr.SHEAF_SRC_BAD d) 1).raise Err.sheaf_SRC_BAD d [] none
    | some f =>
      if p.num 24 8 < x.resetOp.toNat then drop
      else
        let cause := match f with
          | .child i => if (x.kid i).ikion then cause else 1
          | _ => cause
        s.shAbort k (cause % 8) (nbits (p.num 16 8) 59 44) f
def execSheafAbortRx (p : Nat) (pkt : Packet) (s : State) : Host.Outcome State Fault Refusal :=
  .next (if pkt.cls = 1 ∧ nbits pkt.spec 31 28 = 3 ∧ mgmtBad pkt = false then s.shTake p pkt (·.shAbortRx pkt) else s)

/-! ### Failures (Table 11-9) -/

/-- SHEAF_PHASE_TIMEOUT: a RUNNING operation has moved nothing for PHASE_TIMEOUT µs. -/
def execSheafPhaseTimeout (k : Nat) (s : State) : Host.Outcome State Fault Refusal :=
  .next (if (s.sheaf k).st = .running ∧ (s.sheaf k).moved + 1000 * (s.shCfgOf k).f 824 805 ≤ s.ns then s.shFail k 3 else s)

/-- SHEAF_LINK_LOSS: port `p` has left ACTIVE and RETRAIN since this was last judged. -/
def execSheafLinkLoss (p : Nat) (s : State) : Host.Outcome State Fault Refusal :=
  .next (if s.shv.links.get p = (s.port p).epoch then s
  else
    let s := s.modShf fun u => { u with links := u.links.set p (s.port p).epoch }
    s.shLive.foldl (fun s k => if s.shCut k p then s.shFail k 2 else s) s)

/-! ### Counters (R287, R288) -/

/-- Address of a counter's VALUE_LO, and of its ADD_LO. -/
def ctrAt (c : Nat) : Nat := 0x00C00000 + 16 * c
def ctrAddAt (c : Nat) : Nat := 0x00C40000 + 16 * c

/-- The LO word staged by a source, else the committed one; and no more staged (R490). -/
def State.ctrLo (s : State) (src : Source) (a : Nat) (old : Word) : Word := (s.hub.stageLo.get (stageKey src a)).getD old

/-- CTR_VALUE_WRITE: VALUE_HI sets the counter. -/
def State.ctrValue (src : Source) (c : Nat) (v : Word) (s : State) : State :=
  let lo := s.ctrLo src (ctrAt c) (lo32 (s.ctrOf c).value.toNat)
  (s.unstage src (ctrAt c)).ctrUpdate c none fun _ => v ++ lo
def execCtrValueWrite (src : Source) (c : Nat) (val : Word) (s : State) : Host.Outcome State Fault Refusal :=
  .next (if s.ctrOn c then s.ctrValue src c val else s)

/-- CTR_THRESH_WRITE: THRESH_HI commits the threshold; MET is evaluated. -/
def State.ctrThresh (src : Source) (c : Nat) (v : Word) (s : State) : State :=
  let x := s.ctrOf c
  let lo := s.ctrLo src (ctrAt c + 8) (lo32 x.thresh.toNat)
  ((s.unstage src (ctrAt c + 8)).setCtrOf c { x with thresh := v ++ lo }).ctrEval c false
def execCtrThreshWrite (src : Source) (c : Nat) (val : Word) (s : State) : Host.Outcome State Fault Refusal :=
  .next (if s.ctrOn c then s.ctrThresh src c val else s)

/-- CTR_ADD: ADD_HI adds the pair. -/
def State.ctrAdd (src : Source) (c : Nat) (v : Word) (s : State) : State :=
  let x := s.ctrOf c
  let lo := s.ctrLo src (ctrAddAt c) x.add
  ((s.unstage src (ctrAddAt c)).setCtrOf c { x with add := lo }).ctrUpdate c none fun n => n + (v ++ lo)
def execCtrAdd (src : Source) (c : Nat) (val : Word) (s : State) : Host.Outcome State Fault Refusal :=
  .next (if s.ctrOn c then s.ctrAdd src c val else s)

/-- CTR_CFG_WRITE: MET is evaluated; TRIG_EN set while MET triggers at once. -/
def State.ctrCfg (c : Nat) (v : Word) (s : State) : State :=
  let x := s.ctrOf c
  (s.setCtrOf c { x with trig := bit v 31, owned := bit v 10, owner := bits v 9 0 }).ctrEval c (bit v 31)
def execCtrCfgWrite (_src : Source) (c : Nat) (val : Word) (s : State) : Host.Outcome State Fault Refusal :=
  .next (if s.ctrOn c then s.ctrCfg c val else s)


end Sys2Proof.Machine
end

