-- ==== Sys2Proof/Machine/ExdCore.lean ====
section
/-! DEFINITION. Expert dispatch and combine (chapter 14): layers (R363 to R365), the expert map (R366), token writes
and decisions (R368 to R371), copies (R372), output writes and combine entries (R373 to R375), STOP (R376). -/

set_option Elab.async false

namespace Sys2Proof.Machine
open Sys2Proof

/-! ### Layers (Table 14-1, R364) -/

def layerAt (l : Nat) : Nat := 0x03400000 + 128 * l

/-- A layer entry's RW fields. -/
def State.lay (s : State) (l hi lo : Nat) : Nat := nbits (s.entry (layerAt l) 32) hi lo

def State.layerOn (s : State) (l : Nat) : Bool := s.exd.active.get l

/-- The quantities of R364. -/
structure Geo where
  tb : Nat
  dstride : Nat
  rstride : Nat
  yrow : Nat
  kmax : Nat
  ne : Nat
  half : Nat
  dslots : Nat
  ysz : Nat
  osz : Nat
  h : Nat
  deriving Inhabited

def State.geo (s : State) (l : Nat) : Geo :=
  let tb := s.lay l 945 936 * 64
  let h := s.lay l 959 946 + 1
  let ysz := fmtBits (s.lay l 967 964) / 8
  let half := s.lay l 904 890
  { tb := tb, dstride := 128 + tb, rstride := 64 + tb, yrow := h * ysz, kmax := s.lay l 989 986 + 1, ne := 2 * half, half := half
    dslots := s.lay l 921 905, ysz := ysz, osz := fmtBits (s.lay l 963 960) / 8, h := h }

def State.layFjid (s : State) (l : Nat) : Nat := s.lay l 1021 1002
def State.expertAt (s : State) (l x : Nat) : Nat := s.lay l 639 576 + 256 * x
def State.dspAt (s : State) (l k : Nat) : Nat := s.lay l 575 512 + (s.geo l).dstride * k
def State.statusAt (s : State) (l k : Nat) : Nat := s.lay l 575 512 + (s.geo l).dstride * (s.geo l).dslots + 4 * k
def State.outAt (s : State) (l e i : Nat) : Nat := s.lay l 511 448 + ((s.geo l).kmax * e + i) * (s.geo l).yrow

/-- Barn structures and windows of a layer: start and length. -/
def State.layerRegions (s : State) (l : Nat) : List (Nat × Nat) :=
  let g := s.geo l
  [(s.lay l 639 576, 256 * (s.lay l 1001 990 + 1)), (s.lay l 575 512, (g.dstride + 4) * g.dslots)
  , (s.lay l 511 448, g.ne * (g.kmax * g.yrow + 256))]
def State.layerWindows (s : State) (l : Nat) : List (Nat × Nat) :=
  let g := s.geo l
  [(s.lay l 799 743, g.dstride * g.dslots), (s.lay l 742 686, g.ne * g.kmax * g.yrow)]

def meet (a b : Nat × Nat) : Bool := decide (a.1 < b.1 + b.2) && decide (b.1 < a.1 + a.2)

/-- Fields out of range (R365). -/
def State.layerBad (s : State) (l : Nat) : Bool :=
  let g := s.geo l
  let f := s.lay l
  let slots := f 869 857
  f 984 983 == 3 || (if f 984 983 = 1 then decide (f 1001 990 < f 982 971) else f 982 971 != 0) || f 970 969 % 2 == 1
    || decide (2 < f 967 964) || decide (2 < f 963 960) || f 945 936 == 0 || decide (512 < f 945 936) || g.dslots == 0
    || decide (65536 < g.dslots) || g.half == 0 || decide (16384 < g.half) || f 889 870 == 0 || decide (1000000 < f 889 870)
    || slots == 0 || decide (4096 < slots) || slots % 64 != 0 || f 840 832 != 0 || f 685 640 != 0 || f 447 0 != 0
    || f 799 743 % 4096 != 0 || f 742 686 % 4096 != 0 || f 639 576 % 4096 != 0 || f 575 512 % 4096 != 0 || f 511 448 % 4096 != 0
    || g.yrow % 64 != 0 || f 815 800 == 0 || f 831 816 == 0

/-- The reservations of a layer, as of a sheaf (R280). -/
def State.layerReserve (l : Nat) (take : Bool) (s : State) : State :=
  s.shReserve { slots := s.lay l 869 857, mask := s.lay l 831 800 } take

/-! ### Status words and combine entries -/

def State.slotWord (s : State) (l k : Nat) : Nat := s.barnNum (s.statusAt l k) 4
def State.setSlotWord (l k v : Nat) (s : State) : State := s.setBarnNum (s.statusAt l k) 4 v
def State.dispatching (s : State) (l k : Nat) : Bool := nbits (s.slotWord l k) 31 31 == 1

def entKey (l e : Nat) : Nat := 32768 * l + e
def State.cmb (s : State) (l e : Nat) : Option Cmb := s.exd.ents.get (entKey l e)
def State.setCmb (l e : Nat) (c : Option Cmb) (s : State) : State := s.modExd fun u => { u with ents := u.ents.set (entKey l e) c }

/-- The entry, if it is still the one of this name. -/
def State.cmbNamed (s : State) (l e uid : Nat) : Option Cmb := (s.cmb l e).filter fun c => c.uid == uid

/-- Combine entries of a layer and a die (R364). -/
def State.entsOf (s : State) (l d : Nat) : List Nat := (List.range (s.geo l).half).map fun i => i + d * (s.geo l).half

/-- FREE entries of a die, all layers (Table 14-8). -/
def State.cmbFree (s : State) (d : Nat) : Nat :=
  (s.exd.active.map fun l _ => s.layerOn l).foldl (fun n e => n + ((s.entsOf e.1 d).filter fun x => (s.cmb e.1 x).isNone).length) 0

/-- EXD.CMB_CAPTURE. -/
def State.cmbCapture (kind l e eid : Nat) (s : State) : State :=
  (s.setRg Adr.EXD_CMB_CAPTURE0 (w32 (kind * 2 ^ 28 + l * 2 ^ 20 + e))).setRg Adr.EXD_CMB_CAPTURE1 (w32 eid)

/-- Requests of an owner that wait for a tag are discarded: how many there were. -/
def State.unask (o : Owner) (s : State) : Nat × State :=
  ((s.ttu.waiting.filter fun u => u.owner == o).length,
    s.modTtu fun t => { t with waiting := t.waiting.filter fun u => u.owner != o })

/-! ### Token header (Table 14-4) -/

def tokK (h : Nat) : Nat := nbits h 1023 1020 + 1
def tokExpert (h i : Nat) : Nat := nbits h (12 * i + 523) (12 * i + 512)
def tokGate (h i : Nat) : Nat := nbits h (32 * i + 31) (32 * i)
def tokUser (h : Nat) : Nat := nbits h 1019 988
def tokOut (h : Nat) : Nat := nbits h 987 931
def tokEid (h : Nat) : Nat := nbits h 930 915

/-- The header breaks Table 14-4 or names its experts badly (R369). -/
def State.tokBad (s : State) (l h : Nat) : Bool :=
  let k := tokK h
  let xs := (List.range k).map (tokExpert h)
  decide ((s.geo l).kmax < k) || nbits h 914 704 != 0 || tokOut h % 64 != 0
    || (List.range 16).any (fun i => decide (k ≤ i) && (tokExpert h i != 0 || tokGate h i != 0))
    || xs.any (fun x => decide (s.lay l 1001 990 < x)) || (nub xs).length != k

/-! ### The expert map (R366) -/

/-- Bytes 0 to 143 of an expert's entry as the unit of die `d` sees it, 0 if the reserved bytes are not zero;
`none` if a line is poisoned. -/
def State.expert (d l x : Nat) (s : State) : Option Nat × State :=
  let key := 2 ^ 20 * d + 4096 * l + x
  let a := s.expertAt l x
  let e := if s.barnNum (a + 224) 32 = 0 then s.barnNum a 144 else 0
  let load (s : State) : Option Nat × State :=
    let s := s.bump Adr.EXD_MAP_MISSES 1
    if (linesOf a 256).any s.poisoned then (none, s)
    else (some e, s.modExd fun u => { u with cache := u.cache.set key (some e) })
  match s.exd.cache.get key with
  | some c => if c = e then (some e, s) else if s.useCached then (some c, s.takeFree) else load s.takeFree
  | none => load s

def expValid (e : Nat) : Bool :=
  let n := nbits e 126 124 + 1
  nbits e 127 127 == 1 && nbits e 123 0 == 0
    && (List.range 8).all fun r =>
      let w := nbits e (128 * r + 255) (128 * r + 128)
      if r < n then nbits w 79 57 == 0 && nbits w 56 0 % 64 == 0 else w == 0
def expReps (e : Nat) : Nat := nbits e 126 124 + 1
def repExec (e r : Nat) : Nat := nbits e (128 * r + 255) (128 * r + 240)
def repBuf (e r : Nat) : Nat := nbits e (128 * r + 239) (128 * r + 224)
def repCap (e r : Nat) : Nat := nbits e (128 * r + 223) (128 * r + 208)
def repFva (e r : Nat) : Nat := nbits e (128 * r + 184) (128 * r + 128)

/-- USED of a replica and STAMP of a die, in the barn. -/
def State.usedAt (s : State) (l x r d : Nat) : Nat := s.expertAt l x + 144 + 8 * r + 4 * d
def State.stampAt (s : State) (l x d : Nat) : Nat := s.expertAt l x + 208 + 8 * d

/-- A replica's EID resolves to own units or to a port in ACTIVE (R370). -/
def State.eidLive (s : State) (eid : Nat) : Bool :=
  let e := s.fwd eid
  (nbits e 63 63 == 1 && !fwdBad e && nbits e 62 60 == 3) || (s.eidPorts eid).any s.portActive

/-- What a choice gave: a replica with its entry, no replica, or an entry that could not be read. -/
inductive Choice where
  | rep (x r e : Nat)
  | nobody
  | uncorr
  deriving DecidableEq, Repr

/-- choose(x, i) of R370; `taken` are the picks of earlier positions. -/
def State.choose (d l x i h src step : Nat) (taken : List (Nat × Nat)) (s : State) : Choice × State :=
  match s.expert d l x with
  | (none, s) => (.uncorr, s)
  | (some e, s) =>
    let s := if s.barnNum (s.stampAt l x d) 8 = step then s
      else ((List.range 8).foldl (fun s r => s.setBarnNum (s.usedAt l x r d) 4 0) s).setBarnNum (s.stampAt l x d) 8 step
    let used (r : Nat) : Nat := s.barnNum (s.usedAt l x r d) 4 + taken.count (x, r)
    let n := expReps e
    let live := (List.range n).filter fun r => expValid e && decide (0 < repCap e r) && decide (used r < repCap e r) && s.eidLive (repBuf e r)
    if live.isEmpty then (.nobody, s)
    else if s.lay l 985 985 = 1 then
      match argmin used live with
      | some r => (.rep x r e, s)
      | none => (.nobody, s)
    else
      let p := pick (hash16 (tokUser h + src * 2 ^ 32 + i * 2 ^ 48) (s.lay l 856 841)) n
      match argmin (fun r => (r + n - p) % n) live with
      | some r => (.rep x r e, s)
      | none => (.nobody, s)

/-- The picks of the positions from `i` on: each a replica or none; the spills; none: an entry could not be read. -/
def State.picks (d l h src step : Nat) : Nat → Nat → List (Nat × Nat) → State → Option (List (Option (Nat × Nat × Nat)) × Nat) × State
  | 0, _, _, s => (some ([], 0), s)
  | n + 1, i, taken, s =>
    let first := s.choose d l (tokExpert h i) i h src step taken
    let spill := first.1 == .nobody && s.lay l 984 983 == 1
    let (c, s) := if spill then first.2.choose d l (s.lay l 982 971) i h src step taken else first
    match c with
    | .uncorr => (none, s)
    | .nobody => match State.picks d l h src step n (i + 1) taken s with
      | (some (ps, k), s) => (some (none :: ps, k), s)
      | (none, s) => (none, s)
    | .rep x r e => match State.picks d l h src step n (i + 1) (taken ++ [(x, r)]) s with
      | (some (ps, k), s) => (some (some (x, r, e) :: ps, k + b2n spill), s)
      | (none, s) => (none, s)

/-! ### Copies (R371, R372) -/

def State.setCopy (id : Nat) (c : Option Copy) (s : State) : State := s.modExd fun u => { u with copies := u.copies.set id c }

/-- Ask for a write of an own unit. -/
def State.exdWrite (o : Owner) (d l eid fva : Nat) (poison : Bool) (data : List Byte) (s : State) : State :=
  let p := s.unitMreq d 1 0 data.length (fva % 2 ^ 57) (s.layFjid l) eid 0 false data
  s.unitAsk o d (s.slotOf (s.layFjid l)) { p with hdr := setBits p.hdr 17 17 (b2n poison) }

/-- Start a copy: the row in writes of up to 4,096 bytes. -/
def State.startCopy' (d : Nat) (c : Copy) (s : State) : State :=
  let id := s.nextId
  let a := s.dspAt c.layer c.slot + 128
  let ws := cutAt 4096 0 (s.geo c.layer).tb
  let s := ((s.takeNames 1).setCopy id (some { c with open_ := ws.length })).bump Adr.EXD_COPIES 1
  ws.foldl (fun s w => s.exdWrite (.exdCopy id) d c.layer c.eid (c.fva + 64 + w.1) ((linesOf (a + w.1) w.2).any s.poisoned)
    (s.barnBytes (a + w.1) w.2)) s

/-- A slot's token has no copy outstanding: its status word is cleared. -/
def State.slotDone (l k : Nat) (s : State) : State :=
  if s.exd.copies.any fun e => match e.2 with
      | some c => c.layer == l && c.slot == k
      | none => false then s
  else s.setSlotWord l k 0

/-- Whether some copy of an entry is outstanding. -/
def State.copiesOut (s : State) (l e uid : Nat) : Bool :=
  s.exd.copies.any fun x => match x.2 with
    | some c => c.layer == l && c.ent == e && c.uid == uid
    | none => false

/-- A waiting entry is complete, or a stopped one has nothing outstanding (Table 14-6). -/
def State.cmbCheck (l e : Nat) (s : State) : State :=
  match s.cmb l e with
  | none => s
  | some c =>
    if c.stopped then (if c.open_ = 0 ∧ !s.copiesOut l e c.uid then s.setCmb l e none else s)
    else if c.st = .wait ∧ c.returned = c.served ∧ !s.copiesOut l e c.uid then s.setCmb l e (some { c with st := .combine })
    else s

/-- A copy has ended. -/
def State.copyEnd (id : Nat) (c : Copy) (s : State) : State :=
  let s := (s.setCopy id none).slotDone c.layer c.slot
  let s := match s.cmbNamed c.layer c.ent c.uid with
    | some x => if c.failed ∧ x.st = CmbSt.wait then s.setCmb c.layer c.ent (some { x with served := x.served &&& (2 ^ 16 - 1 - 2 ^ c.pos) }) else s
    | none => s
  s.cmbCheck c.layer c.ent

/-- A write of a copy has its MRSP. -/
def State.copyRsp (id st : Nat) (s : State) : State :=
  match s.exd.copies.get id with
  | none => s
  | some c =>
    let c := { c with open_ := c.open_ - 1 }
    let (c, s) :=
      if st = 0 ∨ c.failed then (c, s)
      else
        let (n, s) := s.unask (.exdCopy id)
        ({ c with failed := true, open_ := c.open_ - n },
          (s.bump Adr.EXD_COPY_FAIL 1).raise Err.exd_COPY_FAIL 0 [] (some (s.layFjid c.layer)))
    if c.open_ ≠ 0 then s.setCopy id (some c)
    else if c.failed || c.stopped || c.last then s.copyEnd id c
    else (s.setCopy id (some { c with open_ := 1, last := true })).exdWrite (.exdCopy id) (c.slot % 2) c.layer c.eid c.fva false
      (leBytes 64 c.header)

/-! ### The decision (R369, R370) -/

/-- Answer the completing WRITE; a refused token's slot is cleared. -/
def State.tokAnswer (die j : Nat) (p : Packet) (st : Nat) (s : State) : State :=
  s.answer { die := die, pkt := p, slot := some j, formed := true, parts := [{ st := .done, status := st }] }
def State.tokRefuse (l k die j : Nat) (p : Packet) (st : Nat) (s : State) : State :=
  ((s.setSlotWord l k 0).bump Adr.EXD_TOKENS_REFUSED 1).tokAnswer die j p st

/-- The picks are charged, the entry is taken, the copies start. -/
def State.dispatch (d l k e h step : Nat) (p : Packet) (ps : List (Option (Nat × Nat × Nat))) (s : State) : State :=
  let uid := s.nextId
  let g := s.geo l
  let some_ := (List.range ps.length).filterMap fun i => (ps.getD i none).map fun w => (i, w)
  let c : Cmb :=
    { uid := uid, hdr := h, src := p.src, at_ := s.ns, served := (some_.map fun w => 2 ^ w.1).sum
      execs := some_.foldl (fun t w => t.set w.1 (repExec w.2.2.2 w.2.2.1)) [], st := if some_.isEmpty then .combine else .wait }
  let s := ((s.takeNames 1).setCmb l e (some c)).setSlotWord l k (2 ^ 31 + g.dstride / 64)
  let s := some_.foldl (fun s w =>
    let (i, x, r, ent) := w
    let n := s.barnNum (s.usedAt l x r d) 4
    let hdr := step * 2 ^ 448 + tokUser h * 2 ^ 416 + i * 2 ^ 412 + p.src * 2 ^ 396
      + (s.lay l 742 686 + (g.kmax * e + i) * g.yrow) % 2 ^ 57 * 2 ^ 339 + s.localEid d * 2 ^ 323
    (s.setBarnNum (s.usedAt l x r d) 4 (n + 1)).startCopy' d
      { layer := l, slot := k, ent := e, uid := uid, pos := i, eid := repBuf ent r
        fva := repFva ent r + (d * repCap ent r + n) * g.rstride, header := hdr }) s
  s.slotDone l k

/-- The oldest complete slot of die `d` is decided. -/
def State.decide' (d : Nat) (s : State) : State :=
  match s.exd.ready.find? fun t => t.2.1 % 2 == d with
  | none => s
  | some t =>
    let (l, k, die, j, p) := t
    let s := s.modExd fun u => { u with ready := u.ready.erase t }
    if !s.layerOn l then s.tokAnswer die j p 1
    else
      let s := s.gcount 0x12 1 d none none (some (s.layFjid l))
      let h := s.barnNum (s.dspAt l k) 128
      let step := (s.ctrOf (s.lay l 935 922)).value.toNat
      let refuse (st : Nat) (s : State) : State := s.tokRefuse l k die j p st
      if s.exd.bad.get l then refuse 7 s
      else if s.tokBad l h then refuse 10 s
      else match (s.entsOf l d).find? fun e => (s.cmb l e).isNone with
        | none => refuse 9 s
        | some e => match s.picks d l h p.src step (tokK h) 0 [] with
          | (none, s) => refuse 7 ((s.modExd fun u => { u with bad := u.bad.set l true }).raise Err.exd_MAP_UNCORR 0 [l]
              (some (s.layFjid l)))
          | (some (ps, spills), s) =>
            let lost := (ps.filter Option.isNone).length
            if s.lay l 984 983 = 2 ∧ lost ≠ 0 then refuse 9 s
            else
              let s := ((s.bump Adr.EXD_TOKENS 1).bump Adr.EXD_OVERFLOW_DROP lost).bump Adr.EXD_SPILLS spills
              (s.dispatch d l k e h step p ps).tokAnswer die j p 0

/-! ### Writes into the windows (R368, R373) -/

/-- The ACTIVE layer and offset of a window that holds an address, for a job. -/
def State.inWindow (s : State) (which : Nat) (fjid fva : Nat) : Option (Nat × Nat) :=
  (List.map Prod.fst s.exd.active).findSome? fun l =>
    let w := (s.layerWindows l).getD which (0, 0)
    if s.layerOn l && s.layFjid l == fjid && decide (w.1 ≤ fva) && decide (fva < w.1 + w.2) then some (l, fva - w.1) else none

/-- A WRITE of whole 64-byte units. -/
def unitWrite (p : Packet) (off : Nat) : Bool := p.op == 1 && p.size % 64 == 0 && off % 64 == 0

/-- A request into a dispatch window. -/
def State.tokenRx (die j l off : Nat) (p : Packet) (s : State) : State :=
  let g := s.geo l
  let k := off / g.dstride
  let n := p.size / 64
  let word := s.slotWord l k
  if !unitWrite p off || decide (g.dstride < off % g.dstride + p.size) then s.respond die p 10
  else if s.dispatching l k then s.respond die p 9
  else if g.dstride / 64 < nbits word 9 0 + n then s.respond die p 10
  else
    let s := (s.storeMarked (s.dspAt l k + off % g.dstride) (p.bytes 32 p.size) p.poison).setSlotWord l k (nbits word 9 0 + n)
    if nbits word 9 0 + n = g.dstride / 64 then s.modExd fun u => { u with ready := u.ready ++ [(l, k, die, j, p)] }
    else s.tokAnswer die j p 0

/-- A request into a combine window. -/
def State.outputRx (die j l off : Nat) (p : Packet) (s : State) : State :=
  let g := s.geo l
  let e := off / g.yrow / g.kmax
  let i := off / g.yrow % g.kmax
  if !unitWrite p off || decide (g.yrow < off % g.yrow + p.size) then s.respond die p 10
  else
    let good : Option Cmb := match s.cmb l e with
      | some c => if c.st = .wait ∧ !c.stopped ∧ c.served.testBit i ∧ !c.returned.testBit i ∧ c.execs.get i = p.src
            ∧ c.counts.get i + p.size / 64 ≤ g.yrow / 64 then some c else none
      | none => none
    match good with
    | none => (((s.bump Adr.EXD_CMB_STALE 1).cmbCapture 3 l e p.src).raise Err.exd_CMB_STALE 0 [] (some p.fjid)).respond die p 12
    | some c =>
      let n := c.counts.get i + p.size / 64
      let c := { c with counts := c.counts.set i n, returned := if n = g.yrow / 64 then c.returned ||| 2 ^ i else c.returned }
      (((s.storeMarked (s.lay l 511 448 + off) (p.bytes 32 p.size) p.poison).setCmb l e (some c)).cmbCheck l e).tokAnswer die j p 0

/-! ### Combining (R375) -/

/-- The Binders of a layer on a die, and the next one in round robin. -/
def State.layerBinder (d l : Nat) (s : State) : Nat × State :=
  let bs := (List.range 32).filter fun b => (s.lay l 831 800).testBit b && tileDie (b / 4) == d
  let k := 2 * l + d
  let i := s.exd.rr.get k
  (bs.getD (i % bs.length) 0, s.modExd fun u => { u with rr := u.rr.set k (i + 1) })

/-- Element `j` of the sum over returned positions; `ys` are the outputs by position. -/
def combineElem (h returned : Nat) (ys : List (List Elem)) (j : Nat) : Slot48 :=
  (List.range ys.length).foldl (fun a i =>
    if returned.testBit i then
      let y := (ys.getD i []).getD j {}
      let q := fmul32 (tokGate h i) (toFp32 y.v y.neg)
      a.input (fp32 q) y.poison
    else a) {}

/-- The combine of an entry: the result row is formed and its writes are asked for. -/
def State.combine (l e : Nat) (c : Cmb) (s : State) : State :=
  let g := s.geo l
  let d := if e < g.half then 0 else 1
  let (b, s) := s.layerBinder d l
  let yf := s.lay l 967 964
  let of := s.lay l 963 960
  let ys : List (List Elem) := (List.range (tokK c.hdr)).map fun i =>
    let a := s.outAt l e i
    elemsOf yf g.h ((List.range g.yrow).map fun n => (s.barn (a + n), s.poisoned ((a + n) / 64)))
  let acc := (List.range g.h).map (combineElem c.hdr c.returned ys)
  let rs := acc.map fun a => a.round of (rndOf (s.lay l 970 969) 0 0) (s.lay l 968 968 == 1)
  let bs := encBytes of ((List.range g.h).map fun j => ((rs.getD j default).1, (acc.getD j {}).poison))
  let fva := tokOut c.hdr
  let ws := joinRuns ((cutAt 64 fva bs.length).map fun w =>
    let part := (bs.drop (w.1 - fva)).take w.2
    (w.1, plainOf part, anyPoison part))
  let bad := ((cutAt 64 fva bs.length).filter fun w => anyPoison ((bs.drop (w.1 - fva)).take w.2)).length
  let returned := (List.range 16).countP fun i => c.returned.testBit i
  let s := (s.shNote (b / 4) (rs.map (·.2))).bump (Adr.TILE_POISON_OUT (b / 4)) bad
  let s := (s.gcount 0x0E (returned * g.h * 4) d none none (some (s.layFjid l))).bump Adr.EXD_COMBINES 1
  let s := s.setCmb l e (some { c with begun := true, open_ := ws.length, poison := anyPoison bs, range := rs.any fun r => r.2.range })
  ws.foldl (fun s w => s.exdWrite (.exdRes l e c.uid) d l (tokEid c.hdr) w.1 w.2.2 w.2.1) s

/-- The done record (Table 14-7). -/
def doneRecord (c : Cmb) : Nat :=
  let all := 2 ^ tokK c.hdr - 1
  let st := if c.returned = 0 then 2 else if c.returned = all then 0 else 1
  tokUser c.hdr * 2 ^ 96 + c.served * 2 ^ 80 + c.returned * 2 ^ 64 + st * 2 ^ 60 + 2 ^ 59 + b2n c.poison * 2 ^ 58 + b2n c.range * 2 ^ 57

/-- The result is written, or its writes have failed. -/
def State.cmbEnd (l e : Nat) (c : Cmb) (s : State) : State :=
  if c.stopped ∨ c.missing = 0 then s.setCmb l e none
  else s.setCmb l e (some { c with st := .quar, open_ := 0, at_ := s.ns })

/-- A write of a result has its MRSP. -/
def State.resultRsp (l e uid st : Nat) (s : State) : State :=
  match s.cmbNamed l e uid with
  | none => s
  | some c =>
    let d := if e < (s.geo l).half then 0 else 1
    let c := { c with open_ := c.open_ - 1 }
    let (c, s) :=
      if st = 0 ∨ c.failed then (c, s)
      else
        let (n, s) := s.unask (.exdRes l e uid)
        ({ c with failed := true, open_ := c.open_ - n },
          ((s.bump Adr.EXD_RESULT_FAIL 1).cmbCapture 2 l e c.src).raise Err.exd_RESULT_FAIL 0 [] (some (s.layFjid l)))
    if c.open_ ≠ 0 then s.setCmb l e (some c)
    else if c.failed || c.stopped || c.recorded then
      let s := if c.recorded && !c.failed && !c.stopped && c.returned != 0 && c.returned != 2 ^ tokK c.hdr - 1 then s.bump Adr.EXD_CMB_PARTIAL 1 else s
      s.cmbEnd l e c
    else
      let g := s.geo l
      (s.setCmb l e (some { c with open_ := 1, recorded := true })).exdWrite (.exdRes l e uid) d l (tokEid c.hdr)
        (tokOut c.hdr + g.h * g.osz) false (leBytes 16 (doneRecord c))

/-! ### STOP (R376) -/

/-- STOP of the job of an FJID on its layers: what has not been issued is discarded. -/
def State.exdStop (fjid : Nat) (s : State) : State :=
  (List.map Prod.fst s.exd.active).foldl (fun s l =>
    if !s.layerOn l || s.layFjid l != fjid then s
    else
      let s := (s.exd.ready.filter fun t => t.1 == l).foldl (fun s t => s.tokAnswer t.2.2.1 t.2.2.2.1 t.2.2.2.2 5) s
      let s := s.modExd fun u => { u with ready := u.ready.filter fun t => t.1 != l }
      let s := s.exd.ents.foldl (fun s e => match e.2 with
        | some c => if e.1 / 32768 ≠ l then s
          else
            let k := e.1 % 32768
            let (n, s) := s.unask (.exdRes l k c.uid)
            s.setCmb l k (if c.st = .quar then none else some { c with stopped := true, open_ := c.open_ - n })
        | none => s) s
      let s := s.exd.copies.foldl (fun s e => match e.2 with
        | some c => if c.layer ≠ l then s
          else
            let (n, s) := s.unask (.exdCopy e.1)
            let c := { c with stopped := true, open_ := c.open_ - n }
            if c.open_ = 0 then s.copyEnd e.1 c else s.setCopy e.1 (some c)
        | none => s) s
      let s := (List.range (s.geo l).dslots).foldl (fun s k => if s.dispatching l k then s else s.setSlotWord l k 0) s
      s.exd.ents.foldl (fun s e => if e.1 / 32768 = l then s.cmbCheck l (e.1 % 32768) else s) s) s

end Sys2Proof.Machine
end

