-- ==== Sys2Proof/Machine/Tile.lean ====
section
/-! DEFINITION. Commands of the harvest tiles (chapters 10 and 12): windows of the hayloft, host submission, start
and end of descriptors, answers to their requests, enabling; and the action of a standing order (R233). -/

set_option Elab.async false

namespace Sys2Proof.Machine
open Sys2Proof

/-! ### Hayloft windows (R242) -/

/-- End an HL_CMD with a result. -/
def State.hlDone (t r : Nat) (s : State) : State := (s.setRg (Adr.TILE_HL_STATUS t) (w32 r)).raiseInt .tile t 0

/-- Windows of a tile: those valid and the one being zeroed. -/
def State.hlWins (s : State) (t : Nat) : List (Nat × Nat × Nat) :=
  (s.tile.wins.filterMap fun e => if e.1 / 1024 = t then e.2.map fun w => (e.1 % 1024, w.1, w.2) else none)
    ++ (s.tile.hlCmd.get t).toList

/-- Zero a run of units of a tile: bytes and marks. -/
def State.hlZero (t base size : Nat) (s : State) : State :=
  s.modTile fun u => { u with
    hl := u.hl.clear (hlKey t (65536 * base)) (hlKey t (65536 * (base + size)))
    poison := u.poison.clear (hlLine t (1024 * base)) (hlLine t (1024 * (base + size))) }

/-- HL_ASSIGN: slot, BASE and SIZE of HL_ARG. -/
def State.hlAssign (t : Nat) (s : State) : State :=
  let j := s.rf (Adr.TILE_HL_ARG t) 29 20
  let base := s.rf (Adr.TILE_HL_ARG t) 19 10
  let size := s.rf (Adr.TILE_HL_ARG t) 9 0
  if (s.tile.hlCmd.get t).isSome then s
  else if (s.hlWins t).any fun w => w.1 == j then s.hlDone t 2
  else if (s.hlWins t).any fun w => decide (w.2.1 < base + size) && decide (base < w.2.1 + w.2.2) then s.hlDone t 3
  else if size = 0 ∨ 768 < base + size then s.hlDone t 1
  else if s.job j = .free then s.hlDone t 2
  else ((s.hlZero t base size).modTile fun u => { u with hlCmd := u.hlCmd.set t (some (j, base, size)) }).setRf
    (Adr.TILE_HL_STATUS t) 31 31 1
def execHlAssign (src : Source) (t : Nat) (s : State) : Host.Outcome State Fault Refusal :=
  .next (s.guarded src (Adr.TILE_HL_CMD t) .wo (·.hlAssign t))

/-- HL_ASSIGN_DONE: the window becomes valid. -/
def execHlAssignDone (t : Nat) (s : State) : Host.Outcome State Fault Refusal :=
  .next (match s.tile.hlCmd.get t with
    | none => s
    | some (j, base, size) =>
      (s.modTile fun u => { u with hlCmd := u.hlCmd.set t none, wins := u.wins.set (1024 * t + j) (some (base, size)) }).hlDone t 0)

/-- HL_RELEASE of the slot in HL_ARG. -/
def State.hlRelease (t : Nat) (s : State) : State :=
  let j := s.rf (Adr.TILE_HL_ARG t) 29 20
  if (s.tile.hlCmd.get t).isSome then s
  else if (s.tile.wins.get (1024 * t + j)).isNone then s.hlDone t 2
  else if s.slotHolds t j then s.hlDone t 7
  else (s.modTile fun u => { u with wins := u.wins.set (1024 * t + j) none }).hlDone t 0
def execHlRelease (src : Source) (t : Nat) (s : State) : Host.Outcome State Fault Refusal :=
  .next (s.guarded src (Adr.TILE_HL_CMD t) .wo (·.hlRelease t))

/-! ### Enabling (R267) -/

/-- A write of TILE.CTRL. -/
def State.writeTileCtrl (t : Nat) (en : Bool) (s : State) : State :=
  let on := bit (s.rg (Adr.TILE_CTRL t)) 0
  if en then
    if on then s
    else
      let s := (s.hlWins t).foldl (fun s w => s.hlZero t w.2.1 w.2.2) s
      (s.setRf (Adr.TILE_CTRL t) 0 0 1).setRf (Adr.TILE_STATUS t) 3 0 0
  else if on && s.tileHolds t then s.setRf (Adr.TILE_STATUS t) 3 0 4
  else (s.setRf (Adr.TILE_CTRL t) 0 0 0).setRf (Adr.TILE_STATUS t) 3 0 0
def execTileEnable (src : Source) (t : Nat) (s : State) : Host.Outcome State Fault Refusal :=
  .next (s.guarded src (Adr.TILE_CTRL t) .rw (·.writeTileCtrl t true))
def execTileDisable (src : Source) (t : Nat) (s : State) : Host.Outcome State Fault Refusal :=
  .next (s.guarded src (Adr.TILE_CTRL t) .rw (·.writeTileCtrl t false))

/-! ### Submission by the host (R243) -/

/-- The descriptor at a barn address. -/
def State.descAt (s : State) (a : Nat) : Nat := s.barnNum (a / 128 * 128) 128

/-- HOST_SUBMIT_HI is written. -/
def State.hostSubmit (src : Source) (t : Nat) (val : Word) (s : State) : State :=
  let s := s.commitPair src (Adr.TILE_HOST_SUBMIT_LO t) val
  let d := s.descAt (s.rg64 (Adr.TILE_HOST_SUBMIT_LO t))
  let done (r : Nat) (s : State) : State := (s.setRg (Adr.TILE_HOST_SUBMIT_STATUS t) (w32 r)).raiseInt .tile t 1
  match s.activeSlot (dFjid d) with
  | none => done 1 s
  | some j =>
    if dTile d ≠ t ∧ dTile d ≠ 15 then done 2 s
    else match s.submit j d with
      | (.queued, s) => done 0 s
      | (.busy, s) => done 4 s
def execHostSubmit (src : Source) (t : Nat) (val : Word) (s : State) : Host.Outcome State Fault Refusal :=
  .next (s.guarded src (Adr.TILE_HOST_SUBMIT_HI t) .rw (·.hostSubmit src t val))

/-! ### Running -/

/-- DESC_START (R248): the floor of tile `t` starts the next head that can start. -/
def execDescStart (t : Nat) (s : State) : Host.Outcome State Fault Refusal :=
  .next (if t < 8 ∧ s.tile.held.get t = false ∧ s.tileOn t then
    match s.nextHead t with
    | some e => s.startDesc e
    | none => s
  else s)

def Owner.isTile : Owner → Bool
  | .tile .. => true
  | _ => false
def Owner.isTileCpl : Owner → Bool
  | .tileCpl .. => true
  | _ => false

/-- The run that an answer is for. -/
def Owner.runOf : Owner → Nat
  | .tile id _ _ => id
  | _ => 0

/-- TILE_FABRIC_RSP (R247): data or a status for an access of a run, which goes on. -/
def execTileFabricRsp (p : Nat) (pkt : Packet) (s : State) : Host.Outcome State Fault Refusal :=
  .next (s.unitRsp p pkt Owner.isTile fun o s =>
    (s.runResult o (if pkt.rspStatus = 0 then .data (mapMarked (pkt.bytes 32 pkt.rspSize) pkt.poisonMap)
      else .fail 2 pkt.rspStatus)).drive o.runOf)

/-- DESC_END (R251): the run named goes on; one whose operator has ended completes. -/
def execDescEnd (id : Nat) (s : State) : Host.Outcome State Fault Refusal := .next (s.tryEnd id)

/-- DESC_CPL_RSP (R251): the completion record is written, or not. -/
def execDescCplRsp (p : Nat) (pkt : Packet) (s : State) : Host.Outcome State Fault Refusal :=
  .next (s.unitRsp p pkt Owner.isTileCpl fun o s => match o with
    | .tileCpl t slot fjid ctr =>
      if pkt.rspStatus ≠ 0 then (s.bump (Adr.TILE_CPL_FAIL t) 1).raise Err.tile_CPL_FAIL t [] (some fjid)
      else match ctr with
        | some c => s.ctrIncr c slot
        | none => s
    | _ => s)

/-! ### Standing orders act (R233) -/

/-- Take the action of an order: whether it was taken. -/
def State.soAct (k : Nat) (o : Order) (s : State) : Bool × State :=
  match s.activeSlot o.fjid with
  | none => (false, s)
  | some j =>
    if !s.soOk k o then (false, s)
    else match o.action with
      | 1 =>
        if (s.wq (o.target % 4096)).st ≠ .active then (false, s) else s.wqPost (o.target % 4096) (s.barnNum (s.soAt k + 128) 32)
      | 2 =>
        let d := s.barnNum (s.soAt k + 128) 128
        if dFjid d ≠ o.fjid then (false, s)
        else match s.submit j d with
          | (.queued, s) => (true, s)
          | (.busy, s) => (false, s)
      | _ => (true, s.ctrUpdate o.target (some j) fun v => v + BitVec.ofNat 64 (s.barnNum (s.soAt k + 128) 8))

/-- SO_ACTION: the oldest triggered order of die `d` acts. -/
def State.soAction (d : Nat) (s : State) : State :=
  match s.ctr.trig.find? fun k => soDie k == d with
  | none => s
  | some k =>
    let s := s.modCtr fun u => { u with trig := u.trig.erase k }
    match s.order k with
    | none => s
    | some o => match s.soAct k o with
      | (true, s) =>
        let s := s.bump (Adr.CARV_SO_FIRED d) 1
        if o.rearm then s.soArm k { o with triggered := false, thresh := o.thresh + o.step } else s.setOrder k none
      | (false, s) => ((s.setOrder k none).bump (Adr.CARV_SO_FAILED d) 1).raise Err.carv_SO_FAILED d [k] (some o.fjid)
def execSoAction (d : Nat) (s : State) : Host.Outcome State Fault Refusal :=
  .next (if s.stopped 7 d then s else s.soAction d)

end Sys2Proof.Machine
end

