-- ==== Sys2Proof/Machine/Exd.lean ====
section
/-! DEFINITION. Commands of expert dispatch (chapter 14): ENABLE, DISABLE and EXPERT_SYNC (Table 14-2), the decision,
answers to copies and results, deadlines, combining, the end of a quarantine (Table 14-6). -/

set_option Elab.async false

namespace Sys2Proof.Machine
open Sys2Proof

/-- A command ends with a result (R365). -/
def State.exdDone (r : Nat) (s : State) : State := (s.setRg Adr.EXD_CMD_STATUS (w32 r)).raiseInt .exd 0 0

/-- ENABLE: its checks, then the reservations. -/
def State.exdEnable (l : Nat) (s : State) : State :=
  let others := (List.map Prod.fst s.exd.active).filter fun k => s.layerOn k && k != l
  let tiles := (List.range 8).filter fun t => nbits (s.lay l 831 800) (4 * t + 3) (4 * t) != 0
  let binders := (List.range 32).filter fun b => (s.lay l 831 800).testBit b
  if s.layerOn l then s
  else if s.layerBad l || (s.activeSlot (s.layFjid l)).isNone then s.exdDone 1
  else if tiles.any fun t => !s.tileOn t then s.exdDone 2
  else if (s.layerRegions l).any (fun r => decide (barnSize < r.1 + r.2))
      || others.any (fun k => ((s.layerRegions l).any fun a => (s.layerRegions k).any fun b => meet a b)
          || (s.layerWindows l).any fun a => (s.layerWindows k).any fun b => meet a b) then s.exdDone 3
  else if binders.any fun b => decide (4096 < s.tile.binders.get b + s.lay l 869 857) then s.exdDone 4
  else
    let s := (s.layerReserve l true).setBarn (s.statusAt l 0) (List.replicate (4 * (s.geo l).dslots) 0)
    (s.modExd fun u => { u with
      active := u.active.set l true, bad := u.bad.set l false, ents := u.ents.keep fun k _ => k / 32768 != l }).exdDone 0
def execExdEnable (src : Source) (l : Nat) (s : State) : Host.Outcome State Fault Refusal :=
  .next (s.guarded src Adr.EXD_CMD .wo fun s => if l < 256 then s.exdEnable l else s)

/-- DISABLE. -/
def State.exdDisable (l : Nat) (s : State) : State :=
  if !s.layerOn l then s
  else if (List.range (s.geo l).dslots).any (fun k => s.dispatching l k) || s.exd.ents.any (fun e => e.1 / 32768 == l) then s.exdDone 7
  else ((s.layerReserve l false).modExd fun u => { u with active := u.active.set l false, bad := u.bad.set l false }).exdDone 0
def execExdDisable (src : Source) (l : Nat) (s : State) : Host.Outcome State Fault Refusal :=
  .next (s.guarded src Adr.EXD_CMD .wo fun s => if l < 256 then s.exdDisable l else s)

/-- EXPERT_SYNC (R367): experts FIRST to FIRST + COUNT − 1. -/
def State.expertSync (l : Nat) (s : State) : State :=
  let first := s.rf Adr.EXD_CMD_ARG 11 0
  let n := s.rf Adr.EXD_CMD_ARG 27 16 + 1
  let step := (s.ctrOf (s.lay l 935 922)).value.toNat
  if !s.layerOn l then s.exdDone 2
  else if s.lay l 1001 990 < first + n - 1 then s.exdDone 1
  else
    let s := (List.range n).foldl (fun s i =>
      let x := first + i
      (s.modExd fun u => { u with cache := (u.cache.set (4096 * l + x) none).set (2 ^ 20 + 4096 * l + x) none }).setBarn
        (s.expertAt l x + 144) (List.replicate 64 (0 : Byte) ++ leBytes 8 step ++ leBytes 8 step)) s
    s.exdDone 0
def execExpertSync (src : Source) (l : Nat) (s : State) : Host.Outcome State Fault Refusal :=
  .next (s.guarded src Adr.EXD_CMD .wo fun s => if l < 256 then s.expertSync l else s)

/-- TOKEN_DECIDE (R370): die `d` decides its oldest complete slot. -/
def execTokenDecide (d : Nat) (s : State) : Host.Outcome State Fault Refusal :=
  .next (if s.exd.held then s else s.decide' d)

def Owner.isExd : Owner → Bool
  | .exdCopy _ | .exdRes .. => true
  | _ => false

/-- EXD_WRITE_RSP (R371, R374): the MRSP of a copy, result or record write. -/
def execExdWriteRsp (p : Nat) (pkt : Packet) (s : State) : Host.Outcome State Fault Refusal :=
  .next (s.unitRsp p pkt Owner.isExd fun o s => match o with
    | .exdCopy id => s.copyRsp id pkt.rspStatus
    | .exdRes l e uid => s.resultRsp l e uid pkt.rspStatus
    | _ => s)

/-- CMB_TIMEOUT (R374): the deadline of a waiting entry. -/
def execCmbTimeout (l e : Nat) (s : State) : Host.Outcome State Fault Refusal :=
  .next (match s.cmb l e with
    | none => s
    | some c =>
      if c.st = .wait ∧ !c.stopped ∧ c.at_ + 1000 * s.lay l 889 870 ≤ s.ns then
        let miss := (List.range 16).foldl (fun m i => if c.served.testBit i ∧ !c.returned.testBit i then m + 2 ^ i else m) 0
        let eid := ((List.range 16).find? fun i => miss.testBit i).elim 0 c.execs.get
        let s := s.setCmb l e (some { c with st := .combine, missing := miss })
        (((s.bump Adr.EXD_CMB_TIMEOUTS 1).cmbCapture 1 l e eid).raise Err.exd_CMB_TIMEOUT 0 [] (some (s.layFjid l))).raiseInt .exd 0 1
      else s)

/-- CMB_COMBINE (R375): an entry in COMBINE is summed and its result row is written. -/
def execCmbCombine (l e : Nat) (s : State) : Host.Outcome State Fault Refusal :=
  .next (match s.cmb l e with
    | none => s
    | some c => if c.st = .combine ∧ !c.begun ∧ !c.stopped then s.combine l e c else s)

/-- CMB_QUAR_END (R374): a quarantined entry becomes FREE after CMB_TIMEOUT. -/
def execCmbQuarEnd (l e : Nat) (s : State) : Host.Outcome State Fault Refusal :=
  .next (match s.cmb l e with
    | none => s
    | some c => if c.st = .quar ∧ c.at_ + 1000 * s.lay l 889 870 ≤ s.ns then s.setCmb l e none else s)

end Sys2Proof.Machine
end

