-- ==== Sys2Proof/Machine/Fence.lean ====
section
/-! DEFINITION. Fencing (R463 to R466), FENCE_NOTICE (R462), device-fatal errors (R459). -/

set_option Elab.async false

namespace Sys2Proof.Machine
open Sys2Proof

/-- The present ports of a fence group. -/
def State.groupPorts (s : State) (g : Nat) : List Nat := (List.range 512).filter fun p => s.portExists p && s.groupOf p == g

/-- The FENCE_NOTICE of R462: 1 LOGICAL, 2 ELECTRICAL. -/
def State.notice (s : State) (p kind : Nat) : Packet :=
  mkPkt 1 (2 * 2 ^ 28) (s.localEid (portDie p)) 0xFFFF s.stamp false (leBytes 8 s.ns ++ leBytes 8 kind)

/-- Send all slots that a port still has to send, in flits. -/
def State.drainTx (p : Nat) : Nat → State → State
  | 0, s => s
  | n + 1, s =>
    let q := s.port p
    if q.tx.isEmpty then s
    else State.drainTx p n ((s.modPort p fun q => { q with tx := q.tx.drop 15 }).putFlit p 0 (q.tx.take 15))

/-- A port sends the notice if it is ACTIVE in Avber mode (R465). Before an electrical fence it leaves at
once, after the packet in transmission; otherwise it waits in the control queue. -/
def State.sendNotice (p : Nat) (elec : Bool) (s : State) : State :=
  if (s.port p).st != .active || s.portMode p != 0 then s
  else
    let k := s.notice p (if elec then 2 else 1)
    if elec then
      let s := s.modPort p fun q => { q with tx := q.tx ++ pktSlots k }
      s.drainTx p (s.port p).tx.length
    else s.sendToPort (portDie p) p none k

/-- Sheaves whose neighbour is reached through a fenced port only are aborted with LINK (R464). -/
def State.fenceSheaves (p : Nat) (s : State) : State :=
  s.shLive.foldl (fun s k => if s.shCut k p then s.shFail k 2 else s) s

/-- The fence of its group takes effect on a port (R464, R465). -/
def State.takeFence (p : Nat) (s : State) : State :=
  match s.flt.groups.get (s.groupOf p) with
  | .open_ => s
  | st =>
    let s := ((s.fenceDiscard p).deadPort p).fenceSheaves p
    if st == .electrical ∧ (s.port p).st ≠ .fenced then s.leaveTo p .fenced else s

/-- OPEN, LOGICAL, ELECTRICAL as 0, 1, 2. -/
def fenceNo : FenceState → Nat
  | .open_ => 0 | .logical => 1 | .electrical => 2

/-- A group changes its state: the audit log entry and the event record of R466. BIT takes the low five bits
of the group. -/
def State.fenceRecord (g : Nat) (old new : FenceState) (s : State) : State :=
  (s.logAudit 3 (pageNo .fault 0) g (fenceNo old) (fenceNo new)).event (pageNo .fault 0) (g % 32) 5 0 0 none

/-- Put a group into LOGICAL or ELECTRICAL: notices, the fence on each port, the records. -/
def State.fenceGroup (g : Nat) (elec : Bool) (s : State) : State :=
  let old := s.flt.groups.get g
  let new : FenceState := if elec then .electrical else .logical
  let ports := s.groupPorts g
  let s := ports.foldl (fun s p => s.sendNotice p elec) s
  let s := s.modFlt fun f => { f with groups := f.groups.set g new }
  (ports.foldl (fun s p => s.takeFence p) s).fenceRecord g old new

/-- Release a group: each FENCED port enters DETECT or OFF by EN (R53 rule 1). -/
def State.openGroup (g : Nat) (s : State) : State :=
  let old := s.flt.groups.get g
  let s := s.modFlt fun f => { f with groups := f.groups.set g .open_ }
  ((s.groupPorts g).foldl (fun s p =>
    if (s.port p).st == .fenced then s.leaveTo p (if bit (s.rg (Adr.PORT_PORT_CTRL p)) 0 then .detect else .off) else s)
    s).fenceRecord g old .open_

/-- FENCE_CMD (Table 18-3): OP 1 LOGICAL, 2 ELECTRICAL, 3 RELEASE. -/
def State.fenceCmd (op g : Nat) (s : State) : State :=
  let st := s.flt.groups.get g
  let res (r : Nat) (s : State) : State := s.setRf Adr.FAULT_FENCE_STATUS 3 0 r
  if op = 1 then (if st == .open_ then res 0 (s.fenceGroup g false) else res 2 s)
  else if op = 2 then (if st == .electrical then res 2 s else res 0 (s.fenceGroup g true))
  else if op = 3 then (if st == .open_ || s.flt.devFatal then res 2 s else res 0 (s.openGroup g))
  else res 1 s

/-- FENCE_LOGICAL (R466). -/
def execFenceLogical (src : Source) (g : Nat) (s : State) : Host.Outcome State Fault Refusal :=
  .next (s.guarded src Adr.FAULT_FENCE_CMD .wo (·.fenceCmd 1 (g % 64)))

/-- FENCE_ELECTRICAL (R465, R466). -/
def execFenceElectrical (src : Source) (g : Nat) (s : State) : Host.Outcome State Fault Refusal :=
  .next (s.guarded src Adr.FAULT_FENCE_CMD .wo (·.fenceCmd 2 (g % 64)))

/-- FENCE_RELEASE (R466). -/
def execFenceRelease (src : Source) (g : Nat) (s : State) : Host.Outcome State Fault Refusal :=
  .next (s.guarded src Adr.FAULT_FENCE_CMD .wo (·.fenceCmd 3 (g % 64)))

/-- A notice received (R462): the error, and LOGICAL on an OPEN group of the port if FOLLOW_FENCE is 1. -/
def State.noticeRx (p : Nat) (s : State) : State :=
  let s := s.raise Err.fault_PARTNER_FENCED 0 [p] none
  if bit (s.rg Adr.FAULT_CFG) 1 && s.flt.groups.get (s.groupOf p) == .open_ then s.fenceGroup (s.groupOf p) false else s

/-- FENCE_NOTICE_RX (R462). -/
def execFenceNoticeRx (p : Nat) (pkt : Packet) (s : State) : Host.Outcome State Fault Refusal :=
  .next (if p < 512 ∧ pkt.cls = 1 ∧ nbits pkt.spec 31 28 = 2 ∧ mgmtBad pkt = false then
    match s.takeLocal p pkt with
    | (some c, s) => (s.noticeRx p).freeLocal (some c)
    | (none, s) => s
  else s)

/-- PORT_ENABLE (R53 rule 3); a port that leaves OFF takes the fence of its group (R466). -/
def State.enablePort (p : Nat) (v : Word) (s : State) : State :=
  let was := (s.port p).st
  let s := s.writePortCtrl p v
  if was == .off && (s.port p).st != .off then s.takeFence p else s

def execPortEnable (src : Source) (p : Nat) (val : Word) (s : State) : Host.Outcome State Fault Refusal :=
  .next (s.guarded src (Adr.PORT_PORT_CTRL p) .rw (·.enablePort p (val ||| 1)))

/-! ### Device-fatal errors (R459) -/

/-- What the fault unit does when a device-fatal bit sets. -/
def State.deviceFatal (e : Err) (i c0 c1 : Nat) (s : State) : State :=
  if s.flt.devFatal then s
  else
    let s := s.modFlt fun f => { f with devFatal := true }
    let s := (s.setRg Adr.FAULT_DEVFATAL_CAPTURE0 (w32 (2 ^ 31 + pageNo e.page i * 2 ^ 12 + e.bit))).setRg
      Adr.FAULT_DEVFATAL_CAPTURE1 (w32 c0)
    let elec := bit (s.rg Adr.FAULT_CFG) 0
    let s := (List.range 64).foldl (fun s g => match s.flt.groups.get g with
      | .open_ => s.fenceGroup g elec
      | .logical => if elec then s.fenceGroup g true else s
      | .electrical => s) s
    let s := (s.ttu.jobs.filter fun e => e.2 != .free).foldl (fun s j => s.jobFatal j.1) s
    s.logAudit 5 (pageNo e.page i) e.bit c0 c1

/-- Raise a device-fatal error. -/
def State.raiseFatal (e : Err) (i : Nat) (caps : List Nat) (s : State) : State :=
  (s.raise e i caps none).deviceFatal e i (caps.getD 0 0) (caps.getD 1 0)

end Sys2Proof.Machine
end

