-- ==== Sys2Proof/Machine/Kv.lean ====
section
/-! DEFINITION. Commands of the KV pools and sequences (chapter 13). -/

set_option Elab.async false

namespace Sys2Proof.Machine
open Sys2Proof

/-! ### Pools (Table 13-2) -/

def State.poolReject (p r : Nat) (s : State) : State := s.setRf (Adr.KVPOOL_STATUS p) 11 8 r

/-- The barn structures of a pool: base and length (R335). -/
def State.poolStructs (s : State) (p : Nat) : List (Nat × Nat) :=
  let sw := s.rf (Adr.KVPOOL_SWAP_SLOTS p) 28 0
  [(s.rg64 (Adr.KVPOOL_HDR_BASE_LO p), 16 * s.poolPages p),
   (s.rg64 (Adr.KVPOOL_TBL_BASE_LO p), 4096 * s.rf (Adr.KVPOOL_TBL_COUNT p) 24 0),
   (s.rg64 (Adr.KVPOOL_SWAP_LINK_LO p), 4 * sw),
   (s.rg64 (Adr.KVPOOL_VICTIM_BASE_LO p), 16384)].filter fun w => w.2 != 0

def runsMeet (a b : Nat × Nat) : Bool := decide (a.1 < b.1 + b.2) && decide (b.1 < a.1 + a.2)

/-- Pairs of a list that meet. -/
def someMeet : List (Nat × Nat) → Bool
  | [] => false
  | x :: xs => (xs.any (runsMeet x)) || someMeet xs

/-- An extent that is OWNED by a job and covers a run of PPAs. -/
def State.covers (s : State) (e fjid a n : Nat) : Bool :=
  let x := s.extent e
  x.st == .owned && x.owner == fjid && decide (x.base ≤ a >>> 28) && decide ((a + n - 1) >>> 28 < x.base + x.size)

/-- The checks of ENABLE whose failure is REJECT 1. -/
def State.poolOk (s : State) (p : Nat) : Bool :=
  let fjid := s.poolFjid p
  let g := s.geom p
  let n := s.poolPages p
  let sw := s.rf (Adr.KVPOOL_SWAP_SLOTS p) 28 0
  let lo := s.rf (Adr.KVPOOL_LOW p) 28 0
  let hi := s.rf (Adr.KVPOOL_HIGH p) 28 0
  let tb := s.rf (Adr.KVPOOL_TBL_COUNT p) 24 0
  (match s.activeSlot fjid with
    | some j => s.tileOn (s.homeTile p) && s.tileMask j (s.homeTile p)
    | none => false)
    && geomOk (s.rg (Adr.KVPOOL_GEOM p)) && n != 0 && decide (n ≤ 2 ^ 28) && tb != 0 && decide (tb ≤ 2 ^ 24) && decide (sw ≤ 2 ^ 28)
    && decide (lo ≤ hi) && decide (hi ≤ n) && s.covers (s.pageExt p) fjid (s.pagePpa p 0) (n * g.bytes)
    && (sw == 0 || s.covers (s.swapExt p) fjid (s.swapPpa p 0) (sw * g.bytes))

/-- The free lists as INIT leaves them (R335): headers, table blocks, swap slots, each chained rising. -/
def State.poolInit (p : Nat) (s : State) : State :=
  let n := s.poolPages p
  let tb := s.rf (Adr.KVPOOL_TBL_COUNT p) 24 0
  let sw := s.rf (Adr.KVPOOL_SWAP_SLOTS p) 28 0
  let s := (List.range n).foldl (fun s h => s.setHdr p h { next := if h + 1 < n then some (h + 1) else none }) s
  let s := (List.range tb).foldl (fun s b => s.setBarnNum (s.kvBlkAt p b) 8 (if b + 1 < tb then 2 ^ 63 + (b + 1) else 0)) s
  let s := (List.range sw).foldl (fun s k => s.setBarnNum (s.linkAt p k) 4 (if k + 1 < sw then 2 ^ 31 + (k + 1) else 0)) s
  (s.setPool p { st := .init, freeHead := some 0, freeTail := some (n - 1), tblHead := some 0, swapHead := if sw = 0 then none else some 0
                 free := n, freeTbl := tb, freeSwap := sw }).setRg (Adr.KVPOOL_PAGE_BYTES p) (w32 (s.geom p).bytes)

def State.poolEnable (p : Nat) (s : State) : State :=
  match (s.pool p).st with
  | .off =>
    if !s.poolOk p then s.poolReject p 1
    else
      let mine := s.poolStructs p
      let others := ((List.range 16).filter fun k => k != p && (s.pool k).st != .off).flatMap s.poolStructs
      if (mine.any fun w => decide (barnSize < w.1 + w.2)) || someMeet mine || mine.any fun w => others.any (runsMeet w) then
        s.poolReject p 2
      else (s.poolInit p).poolReject p 0
  | .failed => s.poolReject p 3
  | _ => s
def execKvPoolEnable (src : Source) (p : Nat) (s : State) : Host.Outcome State Fault Refusal :=
  .next (s.guarded src (Adr.KVPOOL_CTRL p) .wo (·.poolEnable p))

/-- Sequences of a pool that are not FREE. -/
def State.poolSeqs (s : State) (p : Nat) : List Nat := s.kv.seqs.filterMap fun e => if e.2 = some p then some e.1 else none

def State.poolDisable (p : Nat) (s : State) : State :=
  match (s.pool p).st with
  | .off => s
  | .ready => if (s.poolSeqs p).isEmpty then (s.setPool p {}).poolReject p 0 else s.poolReject p 7
  | _ => s.poolReject p 3
def execKvPoolDisable (src : Source) (p : Nat) (s : State) : Host.Outcome State Fault Refusal :=
  .next (s.guarded src (Adr.KVPOOL_CTRL p) .wo (·.poolDisable p))

def State.poolReset (p : Nat) (s : State) : State :=
  match (s.pool p).st with
  | .off => s
  | .failed => (((s.poolSeqs p).foldl (fun s q => s.setSeq q {}) s).setPool p {}).poolReject p 0
  | _ => s.poolReject p 3
def execKvPoolReset (src : Source) (p : Nat) (s : State) : Host.Outcome State Fault Refusal :=
  .next (s.guarded src (Adr.KVPOOL_CTRL p) .wo (·.poolReset p))

def execKvPoolInitDone (p : Nat) (s : State) : Host.Outcome State Fault Refusal :=
  .next (if (s.pool p).st = .init then (s.modPool p fun x => { x with st := .ready }).raiseInt .kvpool p 0 else s)

/-! ### Sequences (Table 13-7) -/

/-- A KVSEQ command is done. -/
def State.seqDone (r : Nat) (s : State) : State := (s.setRf Adr.KVSEQ_CMD_STATUS 3 0 r).raiseInt .kvseq 0 0

def State.seqCreate (q : Nat) (s : State) : State :=
  let p := s.rf Adr.KVSEQ_CMD_ARG 27 24
  let base := s.rf Adr.KVSEQ_CMD_ARG 22 0
  if 262144 ≤ q then s.seqDone 1
  else if (s.seq q).st ≠ 0 ∨ (s.pool p).st ≠ .ready then s.seqDone 2
  else if 4194304 < base then s.seqDone 1
  else match s.takeBlk p with
    | (none, s) => s.seqDone 4
    | (some b, s) => (s.setSeq q { st := 1, pool := p, fjid := s.poolFjid p, base := base, dir := b }).seqDone 0
def execKvSeqCreate (src : Source) (q : Nat) (s : State) : Host.Outcome State Fault Refusal :=
  .next (s.guarded src Adr.KVSEQ_CMD .wo (·.seqCreate q))

def State.seqDestroy (q : Nat) (s : State) : State :=
  if 262144 ≤ q then s.seqDone 1
  else
    let x := s.seq q
    if x.st = 1 ∨ x.st = 3 then ((s.setSeq q { x with st := 5 }).readersGone q).seqDone 0 else s.seqDone 2
def execKvSeqDestroy (src : Source) (q : Nat) (s : State) : Host.Outcome State Fault Refusal :=
  .next (s.guarded src Adr.KVSEQ_CMD .wo (·.seqDestroy q))

/-- A sequence goes to PREEMPTING (R346). -/
def State.preempt (q : Nat) (s : State) : State := (s.setSeq q { s.seq q with st := 2 }).readersGone q

def State.seqPreempt (q : Nat) (s : State) : State :=
  if 262144 ≤ q then s.seqDone 1
  else
    let x := s.seq q
    if x.st ≠ 1 then s.seqDone 2
    else if s.rf (Adr.KVPOOL_SWAP_SLOTS x.pool) 28 0 = 0 then s.seqDone 1
    else (s.preempt q).seqDone 0
def execKvSeqPreempt (src : Source) (q : Nat) (s : State) : Host.Outcome State Fault Refusal :=
  .next (s.guarded src Adr.KVSEQ_CMD .wo (·.seqPreempt q))

def State.seqResume (q : Nat) (s : State) : State :=
  if 262144 ≤ q then s.seqDone 1
  else
    let x := s.seq q
    if x.st ≠ 3 then s.seqDone 2 else ((s.setSeq q { x with st := 4 }).kvWork .resume q).seqDone 0
def execKvSeqResume (src : Source) (q : Nat) (s : State) : Host.Outcome State Fault Refusal :=
  .next (s.guarded src Adr.KVSEQ_CMD .wo (·.seqResume q))

/-- The end of a piece of work (R346, R348). -/
def State.workEnd (id q : Nat) (r : Run) (st m : Nat) (s : State) : State :=
  let s := s.setRun id none
  let x := s.seq q
  let p := r.pool
  if x.st = 0 then s
  else match r.kind with
    | .swapOut =>
      let s := ((s.setSeq q { x with st := 3 }).bump (Adr.KVPOOL_PREEMPTS p) 1).raiseInt .kvseq 0 1
      if (s.pool p).auto = some q then s.modPool p fun k => { k with auto := none } else s
    | .resume =>
      if st = 0 then ((s.setSeq q { x with st := 1 }).bump (Adr.KVPOOL_RESUMES p) 1).raiseInt .kvseq 0 2
      else
        let s := s.setSeq q { x with st := 3 }
        if st = 9 ∧ m = 4 then s.setRf Adr.KVSEQ_CMD_STATUS 3 0 4
        else (s.setRf Adr.KVSEQ_CMD_STATUS 3 0 3).raise Err.kvpool_SWAP_READ_FAIL p [q] (some x.fjid)
    | .destroy => (s.freeBlk p x.dir).setSeq q {}
    | .desc => s

/-- KV_SEQ_WORK_DONE: the work on a sequence goes on; once it has ended the sequence reaches its next
state. -/
def execKvSeqWorkDone (q : Nat) (s : State) : Host.Outcome State Fault Refusal :=
  .next (match s.tile.runs.find? fun e => match e.2 with
      | some r => r.kind != .desc && r.desc == q
      | none => false with
    | none => s
    | some (id, _) =>
      let s := (s.kvPass id).drive id
      match s.run id with
      | some r => match r.fin with
        | some (st, m) => s.workEnd id q r st m
        | none => s
      | none => s)

/-! ### Operations of descriptors (R338 to R343) -/

/-- The page manager takes up a running KV_APPEND descriptor with this ACTION. -/
def State.kvTake (id action : Nat) (s : State) : State :=
  match s.run id with
  | some r => if r.kind = .desc ∧ dOpcode r.desc = 0x51 ∧ dpar r.desc 255 254 = action then s.kvPass id else s
  | none => s
def execKvAppend (id : Nat) (s : State) : Host.Outcome State Fault Refusal := .next (s.kvTake id 0)
def execKvFork (id : Nat) (s : State) : Host.Outcome State Fault Refusal := .next (s.kvTake id 1)
def execKvClear (id : Nat) (s : State) : Host.Outcome State Fault Refusal := .next (s.kvTake id 2)

/-! ### Reclaim epochs (R344) -/

/-- Pages deferred in an epoch. -/
def KvPool.defHead (x : KvPool) (e : Bool) : Option Nat := if e then x.defHead1 else x.defHead0

def execKvEpochFlip (s : State) : Host.Outcome State Fault Refusal :=
  .next (if !s.kv.flip && (List.range 16).any fun p => ((s.pool p).defHead s.kv.epoch).isSome then
    s.modKv fun k => { k with epoch := !k.epoch, flip := true }
  else s)

/-- Pages of a chain, at most `n`. -/
def State.chainPages (s : State) (p : Nat) : Nat → Option Nat → List Nat
  | 0, _ => []
  | _, none => []
  | n + 1, some h => h :: s.chainPages p n (s.hdr p h).next

/-- Append a page to the free list. -/
def State.freePage (p h : Nat) (s : State) : State :=
  let x := s.pool p
  let s := s.setHdr p h { gen := (s.hdr p h).gen }
  let s := match x.freeTail with
    | some t => s.setHdr p t { s.hdr p t with next := some h }
    | none => s
  s.setPool p { x with freeHead := some (x.freeHead.getD h), freeTail := some h, free := x.free + 1, deferred := x.deferred - 1 }

/-- The pages that a pool deferred in epoch `e` become FREE. -/
def State.reclaim (e : Bool) (p : Nat) (s : State) : State :=
  let x := s.pool p
  let hs := s.chainPages p x.deferred (x.defHead e)
  let s := s.setPool p { x with
    defHead0 := if e then x.defHead0 else none, defTail0 := if e then x.defTail0 else none
    defHead1 := if e then none else x.defHead1, defTail1 := if e then none else x.defTail1 }
  hs.foldl (fun s h => s.freePage p h) s

def execKvEpochEnd (s : State) : Host.Outcome State Fault Refusal :=
  .next (
    let old := !s.kv.epoch
    if s.kv.flip && (List.range 8).all fun t => s.kv.counts.get (2 * t + b2n old) == 0 then
      ((List.range 16).foldl (fun s p => s.reclaim old p) s).modKv fun k => { k with flip := false }
    else s)

/-! ### Automatic pre-emption (R347) -/

def State.autoPreempt (p : Nat) (s : State) : State :=
  let x := s.pool p
  if x.st ≠ .ready ∨ x.autoOn = false ∨ x.auto.isSome = true then s
  else
    let cons := s.rf (Adr.KVPOOL_VICTIM_CONS p) 11 0
    if s.rf (Adr.KVPOOL_HIGH p) 28 0 ≤ x.free ∨ cons = s.rf (Adr.KVPOOL_VICTIM_PROD p) 11 0 then s.setPool p { x with autoOn := false }
    else
      let q := s.barnNum (s.rg64 (Adr.KVPOOL_VICTIM_BASE_LO p) + 4 * cons) 4 % 262144
      let s := s.setRf (Adr.KVPOOL_VICTIM_CONS p) 11 0 ((cons + 1) % 4096)
      let y := s.seq q
      if y.st = 1 ∧ y.pool = p ∧ s.rf (Adr.KVPOOL_SWAP_SLOTS p) 28 0 ≠ 0 then
        (s.setPool p { x with auto := some q }).preempt q
      else (s.bump (Adr.KVPOOL_VICTIM_SKIPPED p) 1).raise Err.kvpool_VICTIM_SKIP p [] (some (s.poolFjid p))
def execKvAutoPreempt (p : Nat) (s : State) : Host.Outcome State Fault Refusal := .next (if p < 16 then s.autoPreempt p else s)

/-! ### The walk (R358) -/

/-- What the walk of a pool finds: pairs of what is due and what is there. -/
def State.poolWalk (s : State) (p : Nat) : List (Nat × Nat) :=
  let x := s.pool p
  let n := s.poolPages p
  let hs := (List.range n).map (s.hdr p)
  let seqs := (s.poolSeqs p).map s.seq
  let es := seqs.flatMap fun q => (s.validPages p q.dir).map (s.pte p q.dir)
  let res := es.filter fun e => !e.swap
  let refs := ((hs.filter (·.st == 1)).map (·.ref)).sum
  let leaves := (seqs.map fun q => ((List.range 512).filter fun k => (s.dirEntry p q.dir k).isSome).length + 1).sum
  [(n, x.free + x.live + x.deferred), (x.refs, x.pteRefs), (refs, res.length), (x.refs, refs),
   (s.rf (Adr.KVPOOL_SWAP_SLOTS p) 28 0, x.freeSwap + (es.filter (·.swap)).length),
   (s.rf (Adr.KVPOOL_TBL_COUNT p) 24 0, x.freeTbl + leaves)]
    ++ (List.range n).filterMap fun h =>
      let y := s.hdr p h
      if y.st = 1 then some (y.ref, (res.filter (·.h == h)).length) else none

/-- Running decodes, and the decode counts of the tiles. -/
def State.decodePair (s : State) : Nat × Nat :=
  ((s.tile.runs.filter fun e => match e.2 with | some r => r.epoch.isSome | none => false).length, (List.map Prod.snd s.kv.counts).sum)

def State.walkPool (p : Nat) (s : State) : State :=
  if (s.pool p).st ≠ .ready then s
  else match (s.poolWalk p ++ [s.decodePair]).find? fun w => w.1 != w.2 with
    | none => s
    | some (want, found) => (s.poolFail p).tallyMismatch 0 want found Err.kvpool_KV_TALLY p []
def execKvWalkEnd (s : State) : Host.Outcome State Fault Refusal := .next ((List.range 16).foldl (fun s p => s.walkPool p) s)

end Sys2Proof.Machine
end

