-- ==== Sys2Proof/Machine/Audit.lean ====
section
/-! DEFINITION. Tally audits (R468 to R470), the global counters' selection (R473), watchpoints (R475) and
the trace freeze (R476). -/

set_option Elab.async false

namespace Sys2Proof.Machine
open Sys2Proof

/-! ### The quantities (R67, R99, R107, R183, R236, R358) -/

/-- One finding if two numbers differ: audit ID, instance, due, found. -/
def differ (id inst want found : Nat) : List (Nat × Nat × Nat × Nat) :=
  if want = found then [] else [(id, inst, want, found)]

/-- Cells of a die: held ones against those of its packets, and against occupancies and engine cells. -/
def State.auditCells (s : State) (d : Nat) : List (Nat × Nat × Nat × Nat) :=
  let packets := s.sw.stored.foldr (fun e a => if e.2.die = d then e.2.cells + a else a) 0
  let occ := s.link.ports.foldr (fun e a => if portDie e.1 = d then e.2.occ.foldr (fun x b => x.2 + b) 0 + a else a) 0
  differ 1 d packets (s.sw.held.get d) ++ differ 1 d (s.sw.held.get d) (occ + s.sw.engine.get d)

/-- The equality of R107 for one shaper, as residues modulo 2^32. -/
def shaperFinding (k : Nat) (x : Shaper) : List (Nat × Nat × Nat × Nat) :=
  let due := x.start + (x.earned : Int) - (x.spent : Int) - (x.clipped : Int) + x.dreset
  if x.bal = due then [] else [(2, k, (ofInt 32 due).toNat, (ofInt 32 x.bal).toNat)]

def State.auditShapers (s : State) : List (Nat × Nat × Nat × Nat) :=
  s.sw.shapers.flatMap fun e => match e.2 with
    | some x => shaperFinding e.1 x
    | none => []

/-- Leases and regions of the extents (R183). -/
def State.auditExt (s : State) : List (Nat × Nat × Nat × Nat) :=
  differ 5 0 (s.ext.leases.countP fun _ l => l.valid) (s.ext.exts.foldr (fun e a => e.2.leases + a) 0)
    ++ differ 5 0 (2 * s.ext.regions.countP (fun _ r => r.st != .free && !r.view))
      (s.ext.exts.foldr (fun e a => e.2.regions + a) 0)

/-- Outstanding packets of the legs (R236). -/
def State.auditLegs (s : State) : List (Nat × Nat × Nat × Nat) :=
  s.carv.legs.flatMap fun e => differ 7 (legDie e.1) ((e.2.txNext + 2 ^ 24 - e.2.txUna) % 2 ^ 24) e.2.ring.length

/-- Pages and references of the pools (R358). -/
def State.auditPools (s : State) : List (Nat × Nat × Nat × Nat) :=
  s.kv.pools.flatMap fun e =>
    if e.2.st == .ready then
      differ 10 e.1 (s.rg (Adr.KVPOOL_PAGES e.1)).toNat (e.2.free + e.2.live + e.2.deferred)
        ++ differ 10 e.1 e.2.pteRefs e.2.refs
    else []

/-- The power domain of the block that holds an audit's quantities is on. -/
def State.auditOn (s : State) (id inst : Nat) : Bool :=
  if id = 1 ∨ id = 2 ∨ id = 3 ∨ id = 4 ∨ id = 7 ∨ id = 9 then s.domOn (25 + (if id = 2 then portDie (inst / 16) else inst % 2))
  else if id = 6 then s.domOn 27 && s.domOn 28
  else if id = 8 then s.domOn (17 + inst % 8)
  else if id = 12 then s.domOn 30
  else s.domOn 25 || s.domOn 26

/-- Audit `id` is enabled and its block is on. -/
def State.auditRuns (s : State) (id inst : Nat) : Bool :=
  decide (1 ≤ id) && decide (id ≤ 12) && !bit (s.rg Adr.FAULT_AUDIT_MASK) id && s.auditOn id inst

/-- Everything that differs now. -/
def State.auditAll (s : State) : List (Nat × Nat × Nat × Nat) :=
  (s.auditCells 0 ++ s.auditCells 1 ++ s.auditShapers ++ s.auditExt ++ s.auditLegs ++ s.auditPools).filter
    fun f => s.auditRuns f.1 f.2.1

/-- The sums of the shapers start anew (R107); the parts of a byte that the counters have not shown stay in
them. -/
def State.restartShapers (s : State) : State :=
  s.modSw fun w => { w with shapers := w.shapers.map fun _ e => match e with
    | some x => some { x with
        start := x.bal - (x.earned % 128 : Nat) + (x.clipped % 128 : Nat)
        earned := x.earned % 128, spent := 0, clipped := x.clipped % 128, dreset := 0 }
    | none => none }

/-! ### Epochs (R469) -/

/-- Boundaries of the audit epoch in the time after `a` and up to `b` (ns). -/
def State.boundaries (s : State) (a b : Nat) : Nat :=
  let p := 1000 * s.rf Adr.FAULT_AUDIT_CFG 19 0
  if p = 0 then 0 else b / p - a / p

/-- Judge the boundaries passed since the last judgement: the first starts an audit unless one runs, each
other one is skipped. -/
def State.auditDue (s : State) : State :=
  let n := s.boundaries s.flt.auditAt s.ns
  let s := s.modFlt fun f => { f with auditAt := s.ns }
  if n = 0 ∨ bit (s.rg Adr.FAULT_AUDIT_CFG) 31 = false ∨ ¬ (s.pwr.pstate = .run ∨ s.pwr.pstate = .reduced) then s
  else
    let skipped := if s.flt.running then n else n - 1
    let s := if s.flt.running then s
      else
        let found := s.auditAll
        ((s.modFlt fun f => { f with running := true, found := found }).setRf Adr.FAULT_AUDIT_STATUS 12 1 0).restartShapers
    if skipped = 0 then s
    else (s.bump Adr.FAULT_AUDIT_SKIPPED skipped).raise Err.fault_AUDIT_SKIPPED 0 [] none

/-- AUDIT_EPOCH (R469). -/
def execAuditEpoch (s : State) : Host.Outcome State Fault Refusal := .next s.auditDue

/-- The error of an audit (Table 18-6) and the page instance that raises it. -/
def auditErr (id inst : Nat) : Err × Nat :=
  match id with
  | 1 => (Err.swcore_BUF_TALLY, inst % 2)
  | 2 => (Err.swcore_SHAPER_TALLY, portDie (inst / 16))
  | 3 => (Err.ttu_TAG_TALLY, inst % 2)
  | 4 => (Err.home_COH_TALLY, inst % 2)
  | 5 => (Err.ext_EXT_TALLY, 0)
  | 6 => (Err.tier_TIER_TALLY, 0)
  | 7 => (Err.carv_CARV_TALLY, inst % 2)
  | 8 => (Err.tile_TILE_TALLY, inst % 8)
  | 9 => (Err.sheaf_SHEAF_TALLY, inst % 2)
  | 10 => (Err.kvpool_KV_TALLY, inst % 64)
  | 11 => (Err.exd_EXD_TALLY, 0)
  | _ => (Err.hostp_HOST_TALLY, 0)

/-- What a mismatch of an audit does to its block, as the block's error table states. -/
def State.auditStop (id inst : Nat) (s : State) : State :=
  match id with
  | 2 => s.tokenReset (inst / 16) (inst % 16) false
  | 8 => s.modTile fun u => { u with held := u.held.set (inst % 8) true }
  | 10 => s.poolFail (inst % 64)
  | 11 => s.modExd fun u => { u with held := true }
  | 5 | 6 | 12 => s.modFlt fun f => { f with stop := f.stop.set (2 * id) true }
  | _ => s.modFlt fun f => { f with stop := f.stop.set (2 * id + inst % 2) true }

/-- Report one mismatch (R470). -/
def State.auditReport (f : Nat × Nat × Nat × Nat) (s : State) : State :=
  let (e, i) := auditErr f.1 f.2.1
  let s := (s.auditStop f.1 f.2.1).tallyMismatch f.1 f.2.2.1 f.2.2.2 e i []
  if e.cls = .deviceFatal then s.deviceFatal e i 0 0 else s

/-- AUDIT_COMPLETE (R470): the running audit ends. `broken` are mismatches of quantities that this state
holds only once, so that only a fault of the hardware can show them (R468). -/
def execAuditComplete (broken : List (Nat × Nat × Nat × Nat)) (s : State) : Host.Outcome State Fault Refusal :=
  .next (if !s.flt.running then s
  else
    let fs := s.flt.found ++ broken.filter fun f => s.auditRuns f.1 f.2.1
    let s := s.modFlt fun f => { f with running := false, found := [] }
    let s := fs.foldl (fun s f => s.auditReport f) s
    (s.setRg64 Adr.FAULT_AUDIT_EPOCH_LO (s.rg64 Adr.FAULT_AUDIT_EPOCH_LO + 1)).bump Adr.FAULT_AUDITS 1)

/-! ### Observation -/

/-- A write of GCTR[i].SEL (R473): refused for an event that Table 18-9 does not name and for DIE 3. -/
def State.writeGctrSel (i : Nat) (v : Word) (s : State) : State :=
  if bits v 23 16 = 0 ∨ 0x13 < bits v 23 16 ∨ bits v 30 29 = 3 then s
  else (s.setRg (Adr.OBS_GCTR_SEL i) (v &&& 0xE0FFF9FF)).setCnt (Adr.OBS_GCTR_VALUE_LO i) 0

/-- GCTR_SEL_WRITE (R473). -/
def execGctrSelWrite (src : Source) (i : Nat) (val : Word) (s : State) : Host.Outcome State Fault Refusal :=
  .next (if i < 64 then s.guarded src (Adr.OBS_GCTR_SEL i) .rw (·.writeGctrSel i val) else s)

/-- A write of WP[w].CTRL (R475, Table 18-13). -/
def State.writeWpCtrl (w : Nat) (v : Word) (s : State) : State :=
  (s.setRg (Adr.OBS_WP_CTRL w) (v &&& 0xFFEFFFFF)).setCnt (Adr.OBS_WP_COUNT_LO w) 0

/-- WP_CTRL_WRITE (R479). -/
def execWpCtrlWrite (src : Source) (w : Nat) (val : Word) (s : State) : Host.Outcome State Fault Refusal :=
  .next (if w < 64 then s.guarded src (Adr.OBS_WP_CTRL w) .rw (·.writeWpCtrl w val) else s)

/-- A write of TRACE_CTRL: UNFREEZE (R476). -/
def State.writeTraceCtrl (v : Word) (s : State) : State :=
  if bit v 0 then s.modObs fun o => { o with frozen := false } else s

/-- TRACE_UNFREEZE (R476). -/
def execTraceUnfreeze (src : Source) (val : Word) (s : State) : Host.Outcome State Fault Refusal :=
  .next (s.guarded src Adr.OBS_TRACE_CTRL .wo (·.writeTraceCtrl val))

end Sys2Proof.Machine
end

