-- ==== Sys2Proof/Machine/Sec.lean ====
section
/-! DEFINITION. Security: mode changes and the scrub (R390), fuses (R386), debug tokens (R404, R405), the SPDM
responder (R391, R393), key messages (R394, R395), IDE_KM and TDISP (R403), JTAG (Table 15-8). -/

set_option Elab.async false

namespace Sys2Proof.Machine
open Sys2Proof

/-! ### Contents -/

/-- Barn contents become undefined: marks go (R397, R436). -/
def State.barnOpen (s : State) : State :=
  (s.modMem fun _ => { bg := some s.free }).takeFree

/-- Every barn byte is zeroed (R390). -/
def State.barnZero (s : State) : State := s.modMem fun _ => {}

/-- The hayloft of a tile is zeroed. -/
def State.haylOf (t : Nat) (s : State) : State := s.modTile fun u => { u with
  hl := u.hl.clear (t * 2 ^ 26) ((t + 1) * 2 ^ 26), poison := u.poison.clear (t * 2 ^ 20) ((t + 1) * 2 ^ 20) }

/-- Keys, bindings and link keys are zeroised (R390, R407). -/
def State.zeroise (s : State) : State :=
  (s.modSec fun u => { u with keys := [], binds := [] }).modLink fun l =>
    { l with ports := l.ports.map fun _ q => { q with linkKey := none, keyUsed := none } }

/-- A new DBG_NONCE (R405, R407): an open value. -/
def State.newNonce (s : State) : State :=
  (List.range 4).foldl (fun s i => s.setRg (Adr.SEC_DBG_NONCE i) (w32 (s.freeVal >>> (32 * i)))) s |>.takeFree

/-! ### Commands of SEC.CMD -/

/-- A SEC command ends with REJECT `r`. -/
def State.secDone (r : Nat) (s : State) : State :=
  ((s.setRf Adr.SEC_STATUS 3 0 r).modSec fun u => { u with busy := false }).raiseInt .sec 0 0

/-- IMAGE outcome of STATUS: 1 OK (Table 15-11). -/
def State.imageNo (s : State) : Nat := s.rf Adr.SEC_STATUS 11 8

/-- What both mode commands require (R390). -/
def State.quiet (s : State) : Bool :=
  (s.ttu.jobs.all fun e => e.2 == .free) && !s.tierOn && s.tier.gran.st == .off
    && (s.carv.legs.all fun e => e.2.st == .closed)
    && (s.link.ports.all fun e => s.portMode e.1 == 1 || e.2.st == .off || e.2.st == .fenced)

/-- Start the fuse programming that a command needs (R386). -/
def State.startFuse (f : FuseOp) (s : State) : State := s.modSec fun u => { u with busy := true, fuse := some f }

/-- FUSE_EXHAUSTED with REJECT 4 (Table 15-13). -/
def State.fuseSpent (s : State) : State := (s.raise Err.sec_FUSE_EXHAUSTED 0 [] none).secDone 4

/-- MODE_SEALED (R390, Table 15-4). -/
def State.modeSealed (s : State) : State :=
  if s.sec.mode ≠ .shared then s.secDone 2
  else if !s.quiet || s.pwr.pstate == .saving then s.secDone 1
  else if s.imageNo ≠ 1 ∨ s.sec.sealedOk = false then s.secDone 3
  else if s.rf Adr.FUSE_MODE_CHANGES 7 0 = 255 then s.fuseSpent
  else if !s.domOn 31 then s.secDone 5
  else if s.sec.dbg = 2 then s.secDone 6
  else s.startFuse (.mode true)

/-- MODE_SHARED (R390, Table 15-4). -/
def State.modeShared (s : State) : State :=
  if s.sec.mode ≠ .sealed then s.secDone 2
  else if !s.quiet || s.pwr.pstate == .saving then s.secDone 1
  else if s.rf Adr.FUSE_MODE_CHANGES 7 0 = 255 then s.fuseSpent
  else s.startFuse (.mode false)

/-- A write of SEC.CMD with GO: ignored while BUSY (R408). -/
def State.secCmd (src : Source) (act : State → State) (s : State) : State :=
  s.guarded src Adr.SEC_CMD .wo fun s => if s.sec.busy then s else act s

def execModeSealed (src : Source) (s : State) : Host.Outcome State Fault Refusal := .next (s.secCmd src (·.modeSealed))
def execModeShared (src : Source) (s : State) : Host.Outcome State Fault Refusal := .next (s.secCmd src (·.modeShared))

/-- The scrub begins (R390): keys go, the barn key changes, so what is in the barn is undefined until it is zeroed. -/
def State.scrubStart (m : SecMode) (s : State) : State :=
  ((s.modSec fun u => { u with mode := m }).zeroise).barnOpen.setRg Adr.SEC_SCRUB_PROGRESS 0

/-- SCRUB_DONE (R390): hayloft and barn are zeroed where their domain is on; a domain that is off is zeroed when it
next powers on. -/
def execScrubDone (s : State) : Host.Outcome State Fault Refusal :=
  .next (match s.sec.mode with
    | .sealing | .unsealing =>
      let s := (List.range 8).foldl (fun s t => s.haylOf t) s
      let s := if s.barnOn then s.barnZero
        else s.modSec fun u => { u with
          owed := [27, 28].foldl (fun o d => if s.domOn d then o else o.set d true) u.owed }
      let s := s.setRg Adr.SEC_SCRUB_PROGRESS 1000
      (s.modSec fun u => { u with mode := if u.mode == .sealing then .sealed else .shared }).raiseInt .sec 0 1
    | _ => s)

/-! ### Fuses (R386) -/

/-- PROVISION.BURN (Table 15-2). -/
def State.burn (s : State) : State :=
  if bit (s.rg Adr.FUSE_FUSE_STATUS) 0 ∨ s.sec.mode ≠ .shared ∨ s.sec.dbg ≠ 0 ∨ s.sec.fuse.isSome = true then s
  else s.modSec fun u => { u with fuse := some .provision }

def execProvisionBurn (src : Source) (val : Word) (s : State) : Host.Outcome State Fault Refusal :=
  .next (s.guarded src Adr.FUSE_PROVISION .wo fun s => if bit val 0 then s.burn else s)

/-- A fuse has been programmed: the count advances by one and the operation goes on. -/
def State.fuseDone (f : FuseOp) (s : State) : State :=
  let s := s.modSec fun u => { u with fuse := none }
  match f with
  | .mode toSealed =>
    let s := s.setRg Adr.FUSE_MODE_CHANGES (w32 (s.rf Adr.FUSE_MODE_CHANGES 7 0 + 1))
    (s.scrubStart (if toSealed then .sealing else .unsealing)).secDone 0
  | .epoch => (s.setRg Adr.FUSE_DBG_EPOCH (w32 (s.rf Adr.FUSE_DBG_EPOCH 4 0 + 1))).secDone 0
  | .provision => s.setRg Adr.FUSE_FUSE_STATUS 1

/-- FUSE_PROGRAM_DONE (R386): the programming ends, or fails with FUSE_FAULT and the operation does not take
place. -/
def execFuseProgramDone (ok : Bool) (s : State) : Host.Outcome State Fault Refusal :=
  .next (match s.sec.fuse with
    | none => s
    | some f =>
      if ok then s.fuseDone f
      else (s.modSec fun u => { u with fuse := none }).raiseFatal Err.sec_FUSE_FAULT 0 [])

/-! ### Debug (R404, R405) -/

/-- The token buffer as 256 bytes. -/
def State.token (s : State) : List Byte := (List.range 64).flatMap fun i => leBytes 4 (s.rg (Adr.SEC_DBG_TOKEN i)).toNat

def tokAt (t : List Byte) (off n : Nat) : Nat := leNat ((t.drop off).take n)

/-- OWNER_PK_HASH, low word first. -/
def State.ownerHash (s : State) : Nat :=
  leNat ((List.range 12).flatMap fun i => leBytes 4 (s.rg (Adr.FUSE_OWNER_PK_HASH i)).toNat)

/-- DBG_NONCE, low word first. -/
def State.dbgNonce (s : State) : Nat :=
  leNat ((List.range 4).flatMap fun i => leBytes 4 (s.rg (Adr.SEC_DBG_NONCE i)).toNat)

/-- An owner signature over `msg` under a key of 96 bytes (Tables 15-3 and 15-9). -/
def State.signedBy (s : State) (pk sig msg : List Byte) : Bool :=
  (Config.sha384 pk).toNat == s.ownerHash
    && Config.ecdsaOk (leNat (pk.take 48)) (leNat (pk.drop 48)) (leNat (sig.take 48)) (leNat (sig.drop 48)) msg

/-- The rules of R405 that do not concern LEVEL. -/
def State.tokenGood (s : State) (t : List Byte) : Bool :=
  tokAt t 0 4 == 0x4B544249 && tokAt t 8 8 == s.serial && tokAt t 16 16 == s.dbgNonce
    && nbits (tokAt t 5 1) 4 0 == s.rf Adr.FUSE_DBG_EPOCH 4 0
    && s.signedBy ((t.drop 32).take 96) ((t.drop 128).take 96) (t.take 128)

def tokLevel (t : List Byte) : Nat := nbits (tokAt t 4 1) 1 0

/-- JTAG instructions a debug level permits (Table 15-8). -/
def jtagOk (level : Nat) : Jtag → Bool
  | .bypass | .idcode | .dbgToken => true
  | .samplePreload => decide (1 ≤ level)
  | _ => decide (2 ≤ level)

/-- Set the debug level; an instruction that it no longer permits gives way to BYPASS. -/
def State.setLevel (l : Nat) (s : State) : State :=
  s.modSec fun u => { u with dbg := l, jtag := if jtagOk l u.jtag then u.jtag else .bypass }

/-- A refused token: counted, TOKEN_BAD, a new nonce. -/
def State.tokenRefused (r : Nat) (s : State) : State :=
  (((s.bump Adr.SEC_TOKENS_REFUSED 1).raise Err.sec_TOKEN_BAD 0 [] none).newNonce).secDone r

/-- DBG_APPLY (R405). -/
def State.dbgApply (s : State) : State :=
  let t := s.token
  let l := tokLevel t
  if s.sec.mode = .sealing ∨ s.sec.mode = .unsealing then s.secDone 2
  else if s.pwr.pstate = .saving then s.secDone 1
  else if !s.domOn 31 then s.modSec fun u => { u with busy := true, waitOp := some 3 }
  else if !s.tokenGood t || l == 0 || l == 3 then s.tokenRefused 7
  else if l = 2 ∧ s.sec.mode = .sealed then s.tokenRefused 6
  else ((s.setLevel l).newNonce).secDone 0

/-- DBG_EPOCH_ADVANCE (R405). -/
def State.epochAdvance (s : State) : State :=
  let t := s.token
  if s.pwr.pstate = .saving then s.secDone 1
  else if !s.domOn 31 then s.modSec fun u => { u with busy := true, waitOp := some 5 }
  else if !s.tokenGood t || nbits (tokAt t 4 1) 7 7 == 0 then s.tokenRefused 7
  else if s.rf Adr.FUSE_DBG_EPOCH 4 0 = 31 then s.fuseSpent
  else s.startFuse .epoch

/-- A debug command that waited for the CRYPTO domain (Table 15-10). -/
def State.cryptoOn (s : State) : State :=
  let w := s.sec.waitOp
  let s := s.modSec fun u => { u with waitOp := none }
  match w with
  | some 3 => s.dbgApply
  | some _ => s.epochAdvance
  | none => s

def execDbgApply (src : Source) (s : State) : Host.Outcome State Fault Refusal := .next (s.secCmd src (·.dbgApply))
def execDbgEpochAdvance (src : Source) (s : State) : Host.Outcome State Fault Refusal :=
  .next (s.secCmd src (·.epochAdvance))

/-- DBG_END (R405). -/
def State.dbgEnd (s : State) : State := if s.pwr.pstate = .saving then s.secDone 1 else (s.setLevel 0).secDone 0
def execDbgEnd (src : Source) (s : State) : Host.Outcome State Fault Refusal := .next (s.secCmd src (·.dbgEnd))

/-- A JTAG instruction is shifted in: one that the level does not permit selects BYPASS, and so does every one in
SAVING (Tables 15-8 and 15-10). -/
def State.jtagSelect (i : Jtag) (s : State) : Jtag × State :=
  let i := if jtagOk s.sec.dbg i && s.pwr.pstate != .saving then i else .bypass
  (i, s.modSec fun u => { u with jtag := i })

/-- What an instruction shifts out is open: an open value, if the instruction was taken. -/
def State.jtagRead (i : Jtag) (s : State) : State :=
  let (j, s) := s.jtagSelect i
  if j = i then (s.emit (.jtagOut s.freeVal)).takeFree else s

def execJtagIdcode (s : State) : Host.Outcome State Fault Refusal := .next (s.jtagRead .idcode)
def execJtagBypass (s : State) : Host.Outcome State Fault Refusal := .next (s.jtagSelect .bypass).2
def execJtagSamplePreload (s : State) : Host.Outcome State Fault Refusal := .next (s.jtagRead .samplePreload)
def execJtagExtest (s : State) : Host.Outcome State Fault Refusal := .next (s.jtagSelect .extest).2
def execJtagExtestPulse (s : State) : Host.Outcome State Fault Refusal := .next (s.jtagSelect .extestPulse).2
def execJtagExtestTrain (s : State) : Host.Outcome State Fault Refusal := .next (s.jtagSelect .extestTrain).2
def execJtagInternalScan (s : State) : Host.Outcome State Fault Refusal := .next (s.jtagRead .internalScan)

/-- JTAG_DBG_TOKEN (R405): 256 bytes go into the token buffer. -/
def execJtagDbgToken (token : List Byte) (s : State) : Host.Outcome State Fault Refusal :=
  .next (
    let (j, s) := s.jtagSelect .dbgToken
    if j = .dbgToken ∧ s.live = true then
      (List.range 64).foldl (fun s i => s.setRg (Adr.SEC_DBG_TOKEN i) (w32 (tokAt token (4 * i) 4))) s
    else s)

/-! ### SPDM (R391 to R393) -/

/-- An SPDM request reaches the responder: refused in SAVING, Busy while CRYPTO is off. -/
def State.spdm (act : State → State) (s : State) : State :=
  if !s.live || s.pwr.pstate == .saving then s
  else if !s.domOn 31 then s.emit (.spdm (.error 3))
  else act s

/-- A request that needs the negotiation to have reached step `n`; else ERROR UnexpectedRequest. -/
def State.spdmAfter (n : Nat) (act : State → State) (s : State) : State :=
  s.spdm fun s => if s.sec.negotiated < n then s.emit (.spdm (.error 4)) else act s

/-- A request in an established session; else ERROR InvalidSession. -/
def State.inSession (sid : Nat) (act : Session → State → State) (s : State) : State :=
  s.spdm fun s => match s.sec.sessions.get sid with
    | some x => if x.up then act x s else s.emit (.spdm (.error 2))
    | none => s.emit (.spdm (.error 2))

def State.setSession (sid : Nat) (x : Option Session) (s : State) : State :=
  s.modSec fun u => { u with sessions := u.sessions.set sid x }

def execGetVersion (s : State) : Host.Outcome State Fault Refusal :=
  .next (s.spdm fun s => (s.modSec fun u => { u with negotiated := 1 }).emit (.spdm .version))
def execGetCapabilities (s : State) : Host.Outcome State Fault Refusal :=
  .next (s.spdmAfter 1 fun s => (s.modSec fun u => { u with negotiated := max 2 u.negotiated }).emit (.spdm .capabilities))
def execNegotiateAlgorithms (s : State) : Host.Outcome State Fault Refusal :=
  .next (s.spdmAfter 2 fun s => (s.modSec fun u => { u with negotiated := 3 }).emit (.spdm .algorithms))
def execGetDigests (s : State) : Host.Outcome State Fault Refusal := .next (s.spdmAfter 3 (·.emit (.spdm .digests)))
def execGetCertificate (s : State) : Host.Outcome State Fault Refusal := .next (s.spdmAfter 3 (·.emit (.spdm .certificate)))
def execChallenge (s : State) : Host.Outcome State Fault Refusal := .next (s.spdmAfter 3 (·.emit (.spdm .challengeAuth)))

/-- KEY_EXCHANGE (R391): up to 4 sessions are held; a fifth gets ERROR SessionLimitExceeded. -/
def execKeyExchange (s : State) : Host.Outcome State Fault Refusal :=
  .next (s.spdmAfter 3 fun s => match leastBelow 4 fun i => (s.sec.sessions.get i).isNone with
    | some i => (s.setSession i (some {})).emit (.spdm (.keyExchange i))
    | none => s.emit (.spdm (.error 0x0A)))

/-- FINISH (R393): the session is established; it is OWNER if the requester has authenticated with a chain whose
root's SHA-384 is the loaded image's KS_ROOT. `root` is that digest, of a mutual authentication. -/
def execFinish (sid : Nat) (root : Option Nat) (s : State) : Host.Outcome State Fault Refusal :=
  .next (s.spdm fun s => match s.sec.sessions.get sid with
    | some x =>
      if x.up then s.emit (.spdm (.error 4))
      else (s.setSession sid (some { x with up := true, owner := s.imageNo == 1 && root == some s.sec.ksRoot })).emit
        (.spdm (.finish sid))
    | none => s.emit (.spdm (.error 2)))

def execKeyUpdate (sid : Nat) (s : State) : Host.Outcome State Fault Refusal :=
  .next (s.inSession sid fun x s => (s.setSession sid (some { x with keyGen := x.keyGen + 1 })).emit (.spdm (.keyUpdateAck sid)))
def execHeartbeat (sid : Nat) (s : State) : Host.Outcome State Fault Refusal :=
  .next (s.inSession sid fun _ s => s.emit (.spdm (.heartbeatAck sid)))
def execEndSession (sid : Nat) (s : State) : Host.Outcome State Fault Refusal :=
  .next (s.inSession sid fun _ s => (s.setSession sid none).emit (.spdm (.endSessionAck sid)))

/-! ### Key messages (R394, R395) -/

/-- Answer a key message. -/
def State.keyRsp (sid code result check : Nat) (s : State) : State := s.emit (.spdm (.key sid code result check))

/-- A key message of a session other than LINK_KEY: refused outside SEALED. -/
def State.keyMsg (sid code : Nat) (act : State → State) (s : State) : State :=
  s.inSession sid fun _ s => if s.isSealed then act s else s.keyRsp sid code 2 0

/-- PROOF of a message under the key of its group (R394). -/
def State.proofOk (s : State) (group : Nat) (msg : List Byte) (proof : Nat) : Bool :=
  match s.sec.keys.get group with
  | some k => (Config.hmac384 k msg).toNat == proof
  | none => false

/-- KEY_CHECK of a key pair (Table 15-7). -/
def keyCheck (key : Nat) : Nat := (Config.sha384 (leBytes 64 key)).toNat % 2 ^ 64

/-- KEY_LOAD (Table 15-7): key 1 in the low half. -/
def State.keyLoad (sid group key : Nat) (s : State) : State :=
  if (s.sec.keys.get group).isSome then s.keyRsp sid 1 2 0
  else if key % 2 ^ 256 = key / 2 ^ 256 then s.keyRsp sid 1 1 0
  else (s.modSec fun u => { u with keys := u.keys.set group (some key) }).keyRsp sid 1 0
    (keyCheck key)

def execKeyLoad (sid group key : Nat) (s : State) : Host.Outcome State Fault Refusal :=
  .next (s.keyMsg sid 1 (·.keyLoad sid (group % 256) (key % 2 ^ 512)))

/-- KEY_BIND (Table 15-7). -/
def State.keyBind (sid group fjid digest proof : Nat) (s : State) : State :=
  let msg := leBytes 1 2 ++ leBytes 1 group ++ leBytes 3 fjid ++ leBytes 48 digest
  if (s.sec.keys.get group).isNone then s.keyRsp sid 2 2 0
  else if !s.proofOk group msg proof then s.keyRsp sid 2 5 0
  else if 2 ^ 20 ≤ fjid then s.keyRsp sid 2 1 0
  else if (s.sec.binds.get fjid).isSome then s.keyRsp sid 2 7 0
  else if 1024 ≤ s.sec.binds.length then s.keyRsp sid 2 4 0
  else (s.modSec fun u => { u with binds := u.binds.set fjid (some (group, digest)) }).keyRsp sid 2 0 0

def execKeyBind (sid group fjid digest proof : Nat) (s : State) : Host.Outcome State Fault Refusal :=
  .next (s.keyMsg sid 2 (·.keyBind sid (group % 256) (fjid % 2 ^ 24) (digest % 2 ^ 384) proof))

/-- KEY_UNBIND (Table 15-7). -/
def State.keyUnbind (sid group fjid proof : Nat) (s : State) : State :=
  let msg := leBytes 1 3 ++ leBytes 1 group ++ leBytes 3 fjid
  if !s.proofOk group msg proof then s.keyRsp sid 3 5 0
  else if ((s.sec.binds.get fjid).map (·.1)) ≠ some group then s.keyRsp sid 3 2 0
  else if (s.slotOf fjid).isSome then s.keyRsp sid 3 7 0
  else (s.modSec fun u => { u with binds := u.binds.set fjid none }).keyRsp sid 3 0 0

def execKeyUnbind (sid group fjid proof : Nat) (s : State) : Host.Outcome State Fault Refusal :=
  .next (s.keyMsg sid 3 (·.keyUnbind sid (group % 256) (fjid % 2 ^ 24) proof))

/-- KEY_CLEARED, job-fatal to every slot whose FJID was bound (R395). -/
def State.keyCleared (fjids : List Nat) (s : State) : State :=
  match fjids with
  | [] => s.raise Err.sec_KEY_CLEARED 0 [] none
  | f :: fs => (f :: fs).foldl (fun s f => s.raise Err.sec_KEY_CLEARED 0 [] (some f)) s

/-- KEY_CLEAR (Table 15-7, R395). -/
def State.keyClear (sid group proof : Nat) (s : State) : State :=
  let msg := leBytes 1 4 ++ leBytes 1 group
  if !s.proofOk group msg proof then s.keyRsp sid 4 5 0
  else
    let bound := (s.sec.binds.filter fun e => (e.2.map (·.1)) == some group).map (·.1)
    let s := s.modSec fun u => { u with
      keys := u.keys.set group none, binds := u.binds.keep fun _ b => (b.map (·.1)) != some group }
    (s.keyCleared bound).keyRsp sid 4 0 0

def execKeyClear (sid group proof : Nat) (s : State) : Host.Outcome State Fault Refusal :=
  .next (s.keyMsg sid 4 (·.keyClear sid (group % 256) proof))

/-- LINK_KEY (Table 15-7): TX and RX key. -/
def execLinkKey (sid port tx rx : Nat) (s : State) : Host.Outcome State Fault Refusal :=
  .next (s.inSession sid fun x s =>
    if !x.owner then s.keyRsp sid 0x10 6 0
    else if !s.portExists port then s.keyRsp sid 0x10 1 0
    else (s.modPort port fun q => { q with linkKey := some (tx, rx) }).keyRsp sid 0x10 0 0)

/-! ### IDE_KM (R403) -/

/-- One link stream and 8 selective streams, two key sets, two directions, three sub-streams. -/
def ideOk (stream set dir sub : Nat) : Bool := decide (stream < 9) && decide (set < 2) && decide (dir < 2) && decide (sub < 3)

def execIdeKmQuery (sid : Nat) (s : State) : Host.Outcome State Fault Refusal :=
  .next (s.inSession sid fun _ s => s.emit (.spdm (.ideQuery 9)))

/-- KEY_PROG: KP_ACK with status 3 for a stream, key set or sub-stream that does not exist. -/
def execIdeKmKeyProg (sid stream set dir sub key : Nat) (s : State) : Host.Outcome State Fault Refusal :=
  .next (s.inSession sid fun _ s =>
    if !ideOk stream set dir sub then s.emit (.spdm (.ideKpAck 3))
    else (s.modSec fun u => { u with ide := u.ide.modify stream fun x =>
      { x with keys := x.keys.set (12 * set + 6 * dir + sub) (some key) } }).emit (.spdm (.ideKpAck 0)))

/-- K_SET_GO: the key set goes into use, if it holds a key. -/
def execIdeKmKSetGo (sid stream set dir sub : Nat) (s : State) : Host.Outcome State Fault Refusal :=
  .next (s.inSession sid fun _ s =>
    let ready := ideOk stream set dir sub && ((s.sec.ide.get stream).keys.get (12 * set + 6 * dir + sub)).isSome
    (if ready then s.modSec fun u => { u with ide := u.ide.modify stream fun x =>
      { x with use_ := x.use_.set (6 * dir + sub) (set + 1) } } else s).emit (.spdm .ideGoStopAck))

/-- The stream without that key set in use. -/
def IdeStream.stop (x : IdeStream) (set key : Nat) : IdeStream :=
  if x.use_.get key = set + 1 then { x with use_ := x.use_.set key 0 } else x

/-- K_SET_STOP: the key set is no longer in use. -/
def execIdeKmKSetStop (sid stream set dir sub : Nat) (s : State) : Host.Outcome State Fault Refusal :=
  .next (s.inSession sid fun _ s =>
    (if ideOk stream set dir sub then
      s.modSec fun u => { u with ide := u.ide.modify stream fun x => x.stop set (6 * dir + sub) }
    else s).emit (.spdm .ideGoStopAck))

/-- An IDE stream is enabled; a selective one. -/
def State.ideOn (s : State) : Bool := s.sec.ide.any fun e => !e.2.use_.isEmpty
def State.ideSelective (s : State) : Bool := s.sec.ide.any fun e => decide (1 ≤ e.1) && !e.2.use_.isEmpty

/-! ### TDISP (R403) -/

def State.fn (s : State) (f : Nat) : Fn := s.host.fns.get f
def State.modFn (f : Nat) (g : Fn → Fn) (s : State) : State := s.modHost fun h => { h with fns := h.fns.modify f g }

/-- VF f is enabled. -/
def State.vfOn (s : State) (f : Nat) : Bool := s.host.vfEnable && decide (1 ≤ f) && decide (f ≤ s.host.numVfs)

/-- The binding entry of a VF (R414): its slot, if it is bound. -/
def State.vfSlot (s : State) (f : Nat) : Option Nat :=
  let e := s.tab (0x03480000 + 4 * (f - 1))
  if bit e 31 then some (bits e 9 0) else none

/-- A TDISP request for a VF that is enabled; else an error. -/
def State.tdisp (sid vf : Nat) (act : State → State) (s : State) : State :=
  s.inSession sid fun _ s => if s.vfOn vf then act s else s.emit (.spdm (.tdispError vf))

def tdispNo : Tdisp → Nat
  | .unlocked => 0 | .locked => 1 | .run => 2 | .error => 3

/-- LOCK_INTERFACE: CONFIG_UNLOCKED to CONFIG_LOCKED; the answer carries a nonce for START_INTERFACE. -/
def execLockInterface (sid vf : Nat) (s : State) : Host.Outcome State Fault Refusal :=
  .next (s.tdisp sid vf fun s =>
    if (s.fn vf).tdisp = .unlocked then
      ((s.modFn vf fun x => { x with tdisp := .locked, nonce := s.freeVal }).emit (.spdm (.tdisp 1 vf [s.freeVal]))).takeFree
    else s.emit (.spdm (.tdispError vf)))

/-- GET_DEVICE_INTERFACE_REPORT (R414): the BAR0 ranges of Table 16-3, SLOT, and the FJID that the slot holds. -/
def execGetDeviceInterfaceReport (sid vf : Nat) (s : State) : Host.Outcome State Fault Refusal :=
  .next (s.tdisp sid vf fun s =>
    match (s.fn vf).tdisp with
    | .locked | .run => s.emit (.spdm (.tdisp 3 vf ([0, 0x1000, 0x1000, 0x1000, 0x2000, 128, 0x3000, 8] ++
        (match s.vfSlot vf with
          | some j => [j, s.rf (Adr.JOB_FJID j) 19 0]
          | none => []))))
    | _ => s.emit (.spdm (.tdispError vf)))

def execGetDeviceInterfaceState (sid vf : Nat) (s : State) : Host.Outcome State Fault Refusal :=
  .next (s.tdisp sid vf fun s => s.emit (.spdm (.tdisp 4 vf [tdispNo (s.fn vf).tdisp])))

/-- START_INTERFACE: CONFIG_LOCKED to RUN, with the nonce of LOCK_INTERFACE. -/
def execStartInterface (sid vf nonce : Nat) (s : State) : Host.Outcome State Fault Refusal :=
  .next (s.tdisp sid vf fun s =>
    if (s.fn vf).tdisp = .locked ∧ (s.fn vf).nonce = nonce then
      (s.modFn vf fun x => { x with tdisp := .run, nonce := 0 }).emit (.spdm (.tdisp 5 vf []))
    else s.emit (.spdm (.tdispError vf)))

/-- STOP_INTERFACE: to CONFIG_UNLOCKED. -/
def execStopInterface (sid vf : Nat) (s : State) : Host.Outcome State Fault Refusal :=
  .next (s.tdisp sid vf fun s =>
    (s.modFn vf fun x => { x with tdisp := .unlocked, nonce := 0 }).emit (.spdm (.tdisp 6 vf [])))

end Sys2Proof.Machine
end

