-- ==== Sys2Proof/Machine/Host.lean ====
section
/-! DEFINITION. The host port (chapter 16): functions, host requests of jobs (R419 to R424), function resets
(R425), MSI-X (R418), and what a job does through its VF (R415). -/

set_option Elab.async false

namespace Sys2Proof.Machine
open Sys2Proof

/-! ### MSI-X (R418) -/

/-- Send the messages of pending vectors that nothing holds back any more. -/
def State.msixKick (f : Nat) (s : State) : State :=
  let x := s.fn f
  if x.bme && x.msixEn then
    (x.vecs.filter fun e => e.2.pending && e.2.unmasked).foldl (fun s e =>
      ((s.modFn f fun y => { y with vecs := y.vecs.modify e.1 fun v => { v with pending := false } }).emit
        (.msix f e.1)).bump Adr.HOSTP_MSI_SENT 1) s
  else s

/-- Write dword `i` of the MSI-X table of a function: address, data, vector control. -/
def State.writeMsix (f i : Nat) (v : Word) (s : State) : State :=
  let s := s.modFn f fun y => { y with vecs := y.vecs.modify (i / 4) fun e =>
    match i % 4 with
    | 0 => { e with addr := e.addr / 2 ^ 32 * 2 ^ 32 + v.toNat }
    | 1 => { e with addr := v.toNat * 2 ^ 32 + e.addr % 2 ^ 32 }
    | 2 => { e with data := v }
    | _ => { e with unmasked := !bit v 0 } }
  s.msixKick f

/-- Read dword `i` of the MSI-X table, and of the PBA. -/
def State.readMsix (s : State) (f i : Nat) : Word :=
  let e := (s.fn f).vecs.get (i / 4)
  match i % 4 with
  | 0 => lo32 e.addr
  | 1 => hi32 e.addr
  | 2 => e.data
  | _ => w32 (b2n !e.unmasked)

def State.readPba (s : State) (f i : Nat) : Word :=
  w32 ((s.fn f).vecs.foldr (fun e n => if e.2.pending ∧ e.1 / 32 = i then n + 2 ^ (e.1 % 32) else n) 0)

/-! ### Host requests -/

/-- The function that an EID names (R419). The Ikion's own endpoint comes first. -/
def State.hostFn (s : State) (die : Nat) (p : Packet) : Option Nat :=
  let base := s.rf Adr.HOSTP_HOST_EID 15 0
  if p.dst = s.localEid die ∨ p.dst < base ∨ base + s.host.numVfs < p.dst then none else some (p.dst - base)

/-- TAG_LIMIT (R421). -/
def State.hostTagLimit (s : State) : Nat :=
  match s.host.tagSize with
  | 0 => 256
  | 1 => 768
  | _ => 2048

/-- The function may issue (R422). -/
def State.mayIssue (s : State) (f : Nat) : Bool := (s.fn f).bme && (f == 0 || ((s.fn 0).bme && s.vfOn f))

def State.hreq (s : State) (id : Nat) : Option HostReq := s.host.reqs.get id
def State.setHreq (id : Nat) (r : Option HostReq) (s : State) : State := s.modHost fun h => { h with reqs := h.reqs.set id r }
def State.setHtag (n : Nat) (g : Option HTag) (s : State) : State := s.modHost fun h => { h with tags := h.tags.set n g }

/-- A free host tag; which one is open. -/
def State.pickHtag (s : State) : Option Nat :=
  let n := s.hostTagLimit
  ((List.range n).map fun i => (s.freeVal + i) % n).find? fun t => (s.host.tags.get t).isNone

/-- Cut `len` bytes at host address `a` into pieces of at most `size` that cross no 4 KiB boundary (R420): offset and
length. -/
def hostCuts (a size : Nat) : Nat → Nat → Nat → List (Nat × Nat)
  | 0, _, _ => []
  | fuel + 1, off, len =>
    if len = 0 then []
    else
      let n := min len (min (max size 64) (4096 - (a + off) % 4096))
      (off, n) :: hostCuts a size fuel (off + n) (len - n)

/-- The runs of enabled bytes of a masked write: offset and length (Table 16-5). -/
def maskRuns (m : Nat) : Nat → Nat → List (Nat × Nat)
  | 0, _ => []
  | fuel + 1, i =>
    if 64 ≤ i then []
    else if m.testBit i then
      let n := ((List.range (64 - i)).find? fun k => !m.testBit (i + k)).getD (64 - i)
      (i, n) :: maskRuns m fuel (i + n)
    else maskRuns m fuel (i + 1)

/-- A request lies wholly inside one VALID range of the bounce table (R403). -/
def State.bounced (s : State) (a len : Nat) : Bool :=
  (List.range 64).any fun i =>
    bit (s.rg (Adr.SEC_BB_BASE_LO i)) 0
      && decide (s.rg64 (Adr.SEC_BB_BASE_LO i) / 4096 * 4096 ≤ a)
      && decide (a + len ≤ s.rg64 (Adr.SEC_BB_LIMIT_LO i) / 4096 * 4096 + 4096)

/-- A host request ends: its response, its die tag, its cells; host tags it still holds are quarantined (R423). -/
def State.hostEnd (id status : Nat) (s : State) : State :=
  match s.hreq id with
  | none => s
  | some r =>
    let data := (List.range r.pkt.size).map fun i =>
      ((r.data.find fun o d => decide (o ≤ i) && decide (i < o + (d.getD []).length)).map fun e =>
        (e.2.getD []).getD (i - e.1) 0).getD 0
    let out := if r.pkt.op = 0 ∨ r.pkt.op = 3 then data else []
    let s := (s.setHreq id none).modHost fun h => { h with tags := h.tags.map fun _ g => match g with
      | some t => if t.req = id ∧ t.quar = false then some { t with quar := true } else some t
      | none => none }
    let s := match r.tag with
      | some n => s.setTag n none
      | none => s
    let pm := if status = 0 then r.pmap else 0
    let s := if pm = 0 then s
      else (s.bump (Adr.TTU_POISON_SEEN r.die) 1).raise Err.ttu_POISON_SEEN r.die [] (some r.pkt.fjid)
    (s.sendOwn r.die (mkMrsp r.pkt status pm s.stamp (if status = 0 then out else []))).freeLocal r.cells

/-- Send the writes of a request, all at once, and complete it OK (R420). -/
def State.hostWrites (id : Nat) (r : HostReq) (s : State) : State :=
  let a := r.pkt.fva
  let cuts := if r.pkt.op = 1 then hostCuts a s.host.mps 4096 0 r.pkt.size else maskRuns r.pkt.mask 64 0
  let s := cuts.foldl (fun s c => s.emit (.pcieWrite r.fn r.t (a + c.1)
    ((List.range c.2).map fun i => (r.pkt.wbyte (c.1 + i)).getD 0) r.pkt.poison)) s
  (s.bump Adr.HOSTP_HOST_WRITES 1).hostEnd id 0

/-- Send the Memory Reads or the AtomicOp of a request while host tags are free. -/
def State.hostReads (id : Nat) : Nat → State → State
  | 0, s => s
  | fuel + 1, s => match s.hreq id with
    | none => s
    | some r => match r.todo, s.pickHtag with
      | c :: rest, some n =>
        let s := s.takeFree.setHtag n (some { fn := r.fn, req := id, off := c.1, len := c.2, at_ := s.ns })
        let s := if r.pkt.op = 0 then s.emit (.pcieRead r.fn r.t n (r.pkt.fva + c.1) c.2)
          else s.emit (.pcieAtomic r.fn r.t n r.pkt.atop r.pkt.fva r.pkt.size r.pkt.atomA r.pkt.atomB)
        let last := rest.isEmpty
        let s := if last then (s.bump (if r.pkt.op = 0 then Adr.HOSTP_HOST_READS else Adr.HOSTP_HOST_ATOMICS) 1).freeLocal r.cells
          else s
        State.hostReads id fuel (s.setHreq id (some { r with
          todo := rest, open_ := r.open_ + 1, cells := if last then none else r.cells }))
      | _, _ => s

/-- Request `id` takes a tag, if it has none and there is room for it. -/
def State.giveTag (id : Nat) (r : HostReq) (s : State) : State :=
  match r.tag with
  | some _ => s
  | none =>
    if s.tagRoom r.die (some r.slot) false then
      match s.pickTag r.die with
      | some n => (s.takeFree.setTag n (some { target := 514, req := id, slot := some r.slot, at_ := s.ns })).setHreq id
          (some { r with tag := some n })
      | none => s
    else s

/-- Work on one request; the answer says whether it waits for a host tag. -/
def State.hostStep (id : Nat) (s : State) : Bool × State :=
  match s.hreq id with
  | none => (false, s)
  | some r =>
    if r.tag.isSome ∧ r.todo.isEmpty then (false, s)
    else if !s.mayIssue r.fn then (false, s.hostEnd id 7)
    else
      let s := s.giveTag id r
      match s.hreq id with
      | none => (false, s)
      | some r =>
        if r.tag.isNone then (false, s)
        else if r.pkt.op = 1 ∨ r.pkt.op = 2 then (false, s.hostWrites id r)
        else
          let s := s.hostReads id 128
          ((match s.hreq id with
            | some r => !r.todo.isEmpty
            | none => false), s)

/-- Work on the requests in issue order, up to the first that waits for a host tag (R421). -/
def State.hostLoop : List Nat → State → State
  | [], s => s
  | id :: ids, s => match s.hostStep id with
    | (true, s) => s
    | (false, s) => State.hostLoop ids s

/-- HOST_TALLY stops the issue. -/
def State.hostRun (s : State) : State := if s.stopped 12 0 then s else State.hostLoop (List.map Prod.fst s.host.reqs) s

/-- AtomicOps that PCIe has (Table 16-5): SWAP, CAS, ADD. -/
def pcieAtomicOk (p : Packet) : Bool := decide (p.atop ≤ 2)

/-- A host request (R419): the checks in order, then it is queued. -/
def State.hostRx (die f : Nat) (p : Packet) (c : Option Nat) (s : State) : State :=
  let fail (st : Nat) (s : State) : State := (s.respond die p st).freeLocal c
  match s.checkHead die (mreqBad p) p with
  | (.error st, s) => fail st s
  | (.ok j, s) =>
    if f ≠ 0 ∧ (s.vfOn f = false ∨ s.vfSlot f ≠ some j) then fail 2 (s.violation die j 2 p none)
    else if !s.mayIssue f then fail 7 s
    else
      let len := if p.op = 2 then 64 else p.size
      let t := s.isSealed && decide (f ≠ 0) && (s.fn f).tdisp == .run && s.ideSelective
      if s.isSealed && !t && !s.bounced p.fva len then
        fail 2 ((((s.bump Adr.SEC_HOST_SEALED_REFUSED 1).raise Err.sec_HOST_SEALED_REFUSED 0 [] (some p.fjid))).violation
          die j 2 p none)
      else if p.op = 3 ∧ (pcieAtomicOk p = false ∨ s.host.atomicEn = false) then fail 10 s
      else
        let todo := if p.op = 0 then hostCuts p.fva s.host.mrrs 128 0 p.size else if p.op = 3 then [(0, p.size)] else []
        let id := s.nextId
        ((s.takeNames 1).setHreq id (some
          { die := die, slot := j, fn := f, t := t, pkt := p, cells := c, todo := todo })).hostRun

/-- HOST_REQUEST (R419): an MREQ delivered to a host EID; without one, waiting requests go on. -/
def execHostRequest (p : Nat) (pkt : Packet) (s : State) : Host.Outcome State Fault Refusal :=
  .next (match s.hostFn (ingressDie p) pkt with
    | some f =>
      if pkt.cls = 8 then
        match s.takeLocal p pkt with
        | (some c, s) => s.hostRx (ingressDie p) f pkt (some c)
        | (none, s) => s.hostRun
      else s.hostRun
    | none => s.hostRun)

/-! ### Completions (R421) -/

/-- A request whose transactions are all answered ends. -/
def State.hostSettle (id : Nat) (s : State) : State :=
  match s.hreq id with
  | none => s
  | some r => if r.open_ = 0 ∧ r.todo.isEmpty ∧ r.tag.isSome then s.hostEnd id r.status else s

/-- What a failed transaction leaves: no further ones are sent. -/
def HostReq.fail (r : HostReq) (st : Nat) : HostReq :=
  { r with status := if r.status = 0 then st else r.status, todo := [], open_ := r.open_ - 1 }

/-- A completion for a held tag. -/
def State.hostCpl (n : Nat) (g : HTag) (r : HostReq) (st : CplStatus) (data : List Byte) (poison : Bool) (s : State) : State :=
  if st = .success then
    let d := data.take g.len
    let whole := d.length == g.len
    let r := { r with
      data := r.data.set g.off (some d)
      pmap := if poison then r.pmap ||| chunkBits g.off d.length else r.pmap
      open_ := if whole then r.open_ - 1 else r.open_ }
    let s := s.setHreq g.req (some r)
    if whole then (s.setHtag n none).hostSettle g.req
    else s.setHtag n (some { g with off := g.off + d.length, len := g.len - d.length })
  else
    let s := ((s.setHtag n none).bump Adr.HOSTP_HOST_UR 1).raise Err.hostp_HOST_UR 0 [] (some r.pkt.fjid)
    let s := s.violation r.die r.slot 2 r.pkt none
    let cells := if r.todo.isEmpty then none else r.cells
    (((s.setHreq g.req (some { r.fail 2 with cells := none })).freeLocal cells)).hostSettle g.req

/-- HOST_COMPLETION (R421, R423, R425). -/
def execHostCompletion (tag : Nat) (status : CplStatus) (data : List Byte) (poison : Bool) (s : State) :
    Host.Outcome State Fault Refusal :=
  .next (match s.host.tags.get tag with
    | none => (s.bump Adr.HOSTP_UNEXP_CPL 1).emit (.aer 0)
    | some g =>
      if g.quar then
        let s := s.setHtag tag none
        (if g.reset then (s.bump Adr.HOSTP_UNEXP_CPL 1).emit (.aer g.fn) else s.bump Adr.HOSTP_LATE_CPL 1).hostRun
      else match s.hreq g.req with
        | some r => (s.hostCpl tag g r status data poison).hostRun
        | none => s)

/-- HOST_CPL_TIMEOUT (R421, R423): the completion timeout of a tag passes. -/
def execHostCplTimeout (tag : Nat) (s : State) : Host.Outcome State Fault Refusal :=
  .next (match s.host.tags.get tag with
    | none => s
    | some g =>
      if s.ns < g.at_ + 1000000 * s.host.cplMs then s
      else
        let s := (s.setHtag tag none).bump Adr.HOSTP_CPL_TIMEOUTS 1
        if g.quar then s.hostRun
        else match s.hreq g.req with
          | some r =>
            let s := s.raise Err.hostp_CPL_TIMEOUT 0 [] none
            let cells := if r.todo.isEmpty then none else r.cells
            ((((s.setHreq g.req (some { r.fail 7 with cells := none })).freeLocal cells)).hostSettle g.req).hostRun
          | none => s)

/-! ### Bus Master Enable, stop and resets (R423 to R425) -/

/-- Host requests that satisfy a condition, by name. -/
def State.hreqs (s : State) (f : HostReq → Bool) : List (Nat × HostReq) :=
  s.host.reqs.filterMap fun e => e.2.bind fun r => if f r then some (e.1, r) else none

/-- The queue of a function closes (R423): its requests complete with TARGET_DEAD. -/
def State.hostOff (f : Nat) (s : State) : State :=
  let mine := s.hreqs fun r => r.fn == f
  let s := s.modFn f fun x => { x with bme := false }
  match mine with
  | [] => s
  | e :: _ =>
    let s := mine.foldl (fun s r => (s.hostEnd r.1 7).bump Adr.HOSTP_ACCESS_OFF 1) s
    mine.foldl (fun s r => s.raise Err.hostp_HOST_ACCESS_OFF 0 [f, e.2.pkt.fjid] (some r.2.pkt.fjid)) s

/-- STOP of a job slot ends its host requests (R424). -/
def State.hostStop (j : Nat) (s : State) : State :=
  (s.hreqs fun r => r.slot == j).foldl (fun s r => s.hostEnd r.1 5) s

/-- BME_CLEAR (R423). -/
def execBmeClear (f : Nat) (s : State) : Host.Outcome State Fault Refusal :=
  .next (if s.pageOn .hostp 0 ∧ f ≤ 1024 then
    let s := s.hostOff f
    (if (s.fn f).tdisp = .locked ∨ (s.fn f).tdisp = .run then s.modFn f fun x => { x with tdisp := .error } else s).hostRun
  else s)

/-- What a function-level reset does to one function (R425). -/
def State.fnReset (f : Nat) (s : State) : State :=
  let s := s.hostOff f
  let s := s.modHost fun h => { h with tags := h.tags.map fun _ g => match g with
    | some t => if t.fn = f then some { t with reset := true } else some t
    | none => none }
  let td : Tdisp := match (s.fn f).tdisp with
    | .locked | .run => .error
    | x => x
  let s := s.modFn f fun _ => { tdisp := td }
  if f = 0 then s
  else s.modHub fun h => { h with regs := h.regs.clear (adr .vf f 0) (adr .vf f 0x1000) }

/-- The listed VFs are reset and VF Enable is cleared. -/
def State.vfsOff (s : State) : State :=
  let s := (List.range s.host.numVfs).foldl (fun s i => s.fnReset (i + 1)) s
  s.modHost fun h => { h with vfEnable := false }

/-- VF_FLR (R425). -/
def execVfFlr (f : Nat) (s : State) : Host.Outcome State Fault Refusal :=
  .next (if s.pageOn .hostp 0 ∧ s.vfOn f = true then (s.fnReset f).hostRun else s)

/-- A function-level reset of the PF (R425): every VF with it; responses of chain reads are discarded. -/
def State.pfReset (s : State) : State :=
  let s := (s.vfsOff.fnReset 0).modHost fun h => { h with numVfs := 0 }
  s.modChain fun c => { c with
    accs := c.accs.keep fun _ a => match a with
      | some x => x.write.isSome || x.serial
      | none => false
    waiting := c.waiting.filter fun x => x.write.isSome || x.serial }

def execPfFlr (s : State) : Host.Outcome State Fault Refusal :=
  .next (if s.pageOn .hostp 0 then s.pfReset.hostRun else s)

/-- HOST_PORT_RESET (Table 17-3): a function-level reset of the PF, of the configuration space and of the link. -/
def State.hostPortReset (s : State) : State :=
  let s := s.pfReset.modHost fun h => { h with linkUp := false, mps := 128, mrrs := 512, tagSize := 0, cplMs := 50, atomicEn := false }
  s.modChain fun c => { c with hostDown := some (c.hostDown.getD s.ns) }

def execHostPortReset (s : State) : Host.Outcome State Fault Refusal :=
  .next (if s.pageOn .hostp 0 then s.hostPortReset else s)

/-- HOST_LINK_UP (R411): the link reaches DL_Active. -/
def execHostLinkUp (s : State) : Host.Outcome State Fault Refusal :=
  .next (if s.pageOn .hostp 0 then
    (s.modHost fun h => { h with linkUp := true }).modChain fun c => { c with hostDown := none }
  else s)

/-- The effect of a configuration write on a function (R411, R418, R423). -/
def State.writeCfg (f : Nat) (w : CfgWrite) (s : State) : State :=
  match w with
  | .bme true => (s.modFn f fun x => { x with bme := true }).msixKick f
  | .bme false => s.hostOff f
  | .msixEnable on => (s.modFn f fun x => { x with msixEn := on }).msixKick f
  | .atomicEnable on => if f = 0 then s.modHost fun h => { h with atomicEn := on } else s
  | .maxPayload n => if f = 0 ∧ (n = 128 ∨ n = 256 ∨ n = 512) then s.modHost fun h => { h with mps := n } else s
  | .maxRead n =>
    if f = 0 ∧ (n = 128 ∨ n = 256 ∨ n = 512 ∨ n = 1024 ∨ n = 2048 ∨ n = 4096) then s.modHost fun h => { h with mrrs := n } else s
  | .tagSize c => if f = 0 ∧ c < 3 then s.modHost fun h => { h with tagSize := c } else s
  | .cplTimeout ms => if f = 0 ∧ ms ≠ 0 then s.modHost fun h => { h with cplMs := ms } else s
  | .numVfs n => if f = 0 ∧ n ≤ 1024 ∧ s.host.vfEnable = false then s.modHost fun h => { h with numVfs := n } else s
  | .vfEnable true => if f = 0 then s.modHost fun h => { h with vfEnable := true } else s
  | .vfEnable false => if f = 0 ∧ s.host.vfEnable = true then s.vfsOff else s
  | .other => s

/-- CONFIG_WRITE (R411): a VF in CONFIG_LOCKED or RUN moves to ERROR (R403). -/
def execConfigWrite (f : Nat) (w : CfgWrite) (s : State) : Host.Outcome State Fault Refusal :=
  .next (if s.pageOn .hostp 0 ∧ (f = 0 ∨ s.vfOn f = true) then
    let s := s.writeCfg f w
    let s := if (s.fn f).tdisp = .locked ∨ (s.fn f).tdisp = .run then s.modFn f fun x => { x with tdisp := .error } else s
    s.hostRun
  else s)

/-! ### The VF page (R415) -/

/-- An MMIO request to a VF: without T it is an Unsupported Request in TDISP RUN. -/
def State.vfAccess (f : Nat) (t : Bool) (act : State → State) (s : State) : State :=
  if !s.pageOn .vf f || !s.vfOn f then s
  else if (s.fn f).tdisp = .run ∧ t = false then s.emit .mmioUr
  else act s

/-- SUBMIT.GO: RESULT of Table 16-4, then vector 1. -/
def State.vfSubmit (f : Nat) (s : State) : State :=
  let d := leNat ((List.range 32).flatMap fun i => leBytes 4 (s.rg (Adr.VF_DESC f i)).toNat)
  let res (r : Nat) (s : State) : State := (s.setRf (Adr.VF_SUBMIT_STATUS f) 3 0 r).msix f 1
  match s.vfSlot f with
  | none => res 1 s
  | some j =>
    if s.job j ≠ .active then res 1 s
    else if dFjid d ≠ s.rf (Adr.JOB_FJID j) 19 0 then res 2 s
    else match s.submit j d with
      | (.queued, s) => res 0 s
      | (.busy, s) => res 4 s

/-- VF_SUBMIT (R415). -/
def execVfSubmit (f : Nat) (t : Bool) (val : Word) (s : State) : Host.Outcome State Fault Refusal :=
  .next (s.vfAccess f t fun s => if bit val 31 then s.vfSubmit f else s)

/-- A write of CTR_ADD_HI: an update carried by SLOT, on a counter that SLOT owns; else CTR_RESULT 6. -/
def State.vfCtrAdd (f : Nat) (v : Word) (s : State) : State :=
  let c := s.rf (Adr.VF_CTR_SEL f) 13 0
  let x := s.ctrOf c
  let lo := s.rg (Adr.VF_CTR_ADD_LO f)
  match s.vfSlot f with
  | some j =>
    if x.owned && x.owner == j && s.ctrOn c then
      (s.ctrUpdate c (some j) fun n => n + (v ++ lo)).setRg (Adr.VF_CTR_RESULT f) 0
    else s.setRg (Adr.VF_CTR_RESULT f) 6
  | none => s.setRg (Adr.VF_CTR_RESULT f) 6

/-- VF_CTR_ADD (R415). -/
def execVfCtrAdd (f : Nat) (t : Bool) (val : Word) (s : State) : Host.Outcome State Fault Refusal :=
  .next (s.vfAccess f t (·.vfCtrAdd f val))

end Sys2Proof.Machine
end

