-- ==== Sys2Proof/Machine/ChainCore.lean ====
section
/-! DEFINITION. The management chain: frames (R426), the election (R427), enumeration (R428), the accesses of the
lead (R429). -/

set_option Elab.async false

namespace Sys2Proof.Machine
open Sys2Proof

/-! ### Frames (Table 16-7) -/

def chType (h : Nat) : Nat := nbits h 127 124
def chDst (h : Nat) : Nat := nbits h 123 118
def chSrc (h : Nat) : Nat := nbits h 117 112
/-- N of ENUM and ENUM_END: DST_HI:DST. -/
def chN (h : Nat) : Nat := nbits h 110 110 * 64 + chDst h
def chTtl (h : Nat) : Nat := nbits h 109 104
def chPrio (h : Nat) : Nat := nbits h 103 96
def chTag (h : Nat) : Nat := nbits h 95 80
def chLen (h : Nat) : Nat := nbits h 79 64
def chArg (h : Nat) : Nat := nbits h 63 0

/-- Dwords of payload: LEN of a READ counts the dwords asked for. -/
def chPayload (h : Nat) : Nat := if chType h = 3 then 0 else chLen h

/-- A frame that is dropped and counted in CHAIN_CRC (R426). -/
def chainBad (f : List Byte) : Bool :=
  let h := leNat (f.take 16)
  let n := f.length - 4
  f.length < 20 || crc32c (f.take n) != BitVec.ofNat 32 (leNat (f.drop n)) || chType h == 0 || decide (9 < chType h)
    || nbits h 111 111 != 0 || (nbits h 110 110 != 0 && chType h != 2 && chType h != 9) || decide (64 < chLen h)
    || n != 16 + 4 * chPayload h

/-- Whether a chain port is up. -/
def State.chainUp (s : State) (portB : Bool) : Bool := if portB then s.chain.upB else s.chain.upA

/-- Forward a frame out of the other port with one hop less; at TTL 0 it is dropped (R426). -/
def State.chainFwd (portB : Bool) (h : Nat) (payload : List Byte) (s : State) : State :=
  if chTtl h = 0 ∨ s.chainUp (!portB) = false then s
  else (s.chainSend (!portB) (setBits (BitVec.ofNat 128 h) 109 104 (chTtl h - 1)).toNat payload).bump Adr.CHAIN_FRAMES_FWD 1

/-- A frame of type `ty` from a port: bad frames are counted, an Ikion in OFF forwards, else `act`. -/
def State.chainRx (ty : Nat) (portB : Bool) (f : List Byte) (act : Nat → List Byte → State → State) (s : State) : State :=
  if !s.pageOn .chain 0 then s
  else if chainBad f then s.bump Adr.CHAIN_CHAIN_CRC 1
  else
    let h := leNat (f.take 16)
    let payload := (f.drop 16).take (f.length - 20)
    if chType h ≠ ty then s
    else if s.chain.st == .off then s.chainFwd portB h payload
    else act h payload s

/-! ### The election (R427) -/

def State.chainPrio (s : State) : Nat := s.rf Adr.CHAIN_CFG 7 0

/-- The frame's (PRIO, SERIAL) pair is better than the own one (R32, R427). -/
def State.chainBetter (s : State) (h : Nat) : Bool :=
  decide (chPrio h < s.chainPrio) || (chPrio h == s.chainPrio && decide (chArg h < s.serial))

/-- Eligible to lead (R427). -/
def State.chainEligible (s : State) : Bool := bit (s.rg Adr.CHAIN_CFG) 16 && s.host.linkUp

/-- Accesses that wait end as on an Ikion that does not lead: reads return all ones, writes are ignored (R429). -/
def State.chainFlush (s : State) : State :=
  let ws := s.chain.waiting
  let s := s.modChain fun c => { c with waiting := [] }
  ws.foldl (fun s a => if a.write.isSome || a.serial then s
    else s.emit (.chainData a.pos a.addr (List.replicate a.count 0xFFFFFFFF#32))) s

/-- Enter a state other than ENUMERATING, LEAD and FOLLOWER: no position. -/
def State.chainLeave (st : ChainState) (s : State) : State :=
  (s.modChain fun c => { c with st := st, pos := 0, placed := false, heard := false, fresh := false, sideA := none }).chainFlush

/-- Enter CLAIM: a CLAIM goes out of both ports (R427). -/
def State.chainClaim (s : State) : State :=
  let s := s.modChain fun c => { c with st := .claim }
  let h := chainHdr 1 0 0 0 s.chainPrio 0 0 s.serial
  (s.chainSend false h []).chainSend true h []

/-- CHAIN_COLLISION and BACKOFF. -/
def State.chainCollide (s : State) : State :=
  ((s.raise Err.chain_CHAIN_COLLISION 0 [] none).bump Adr.CHAIN_COLLISIONS 1).chainLeave .backoff

/-- A BEACON: out of port B in ring mode, out of both in line mode (R427). -/
def State.chainBeacon (s : State) : State :=
  let h := chainHdr 8 0 0 0 s.chainPrio 0 0 s.serial
  if s.chain.ring then s.chainSend true h [] else (s.chainSend false h []).chainSend true h []

/-! ### Accesses of the lead (R429) -/

/-- The port toward a position: B in ring mode and below SPLIT. -/
def State.chainDir (s : State) (p : Nat) : Bool := s.chain.ring || decide (p < s.chain.split)

/-- Send an access under a tag, or end it where its position is not placed (R429). -/
def State.chainIssue (tag : Nat) (a : ChainAcc) (s : State) : State :=
  if s.chain.count ≤ a.pos then
    let s := s.bump Adr.CHAIN_CHAIN_NOPOS 1
    if a.write.isSome || a.serial then s
    else s.emit (.chainData a.pos a.addr (List.replicate a.count 0xFFFFFFFF#32))
  else
    let s := s.modChain fun c => { c with accs := c.accs.set tag (some { a with at_ := s.ns }) }
    match a.write with
    | some ws => s.chainSend (s.chainDir a.pos) (chainHdr 4 a.pos 0 0 0 tag ws.length a.addr) (ws.flatMap fun w => leBytes 4 w.toNat)
    | none => s.chainSend (s.chainDir a.pos) (chainHdr 3 a.pos 0 0 0 tag a.count a.addr) []

/-- Issue accesses that wait while there are tags: 256 (R429). -/
def State.chainPumpN : Nat → State → State
  | 0, s => s
  | n + 1, s =>
    match s.chain.waiting, leastBelow 256 fun t => (s.chain.accs.get t).isNone with
    | a :: rest, some t => State.chainPumpN n ((s.modChain fun c => { c with waiting := rest }).chainIssue t a)
    | _, _ => s

def State.chainPump (s : State) : State :=
  if s.chain.st == .lead then s.chainPumpN s.chain.waiting.length else s

/-- A new access goes behind those that wait. -/
def State.chainAccess (a : ChainAcc) (s : State) : State :=
  (s.modChain fun c => { c with waiting := c.waiting ++ [a] }).chainPump

/-- Record a position's serial number; CHAIN_RENUMBER if it differs from an earlier one (R428). -/
def State.chainSerial (p v : Nat) (s : State) : State :=
  let old := s.rg64 (Adr.CHAIN_POS_SERIAL_LO p)
  let s := if old ≠ 0 ∧ old ≠ v then s.raise Err.chain_CHAIN_RENUMBER 0 [] none else s
  s.setRg64 (Adr.CHAIN_POS_SERIAL_LO p) v

/-! ### Enumeration (R428) -/

/-- The enumeration ends: LEAD, then the serial numbers are read. -/
def State.chainLead (count split : Nat) (ring : Bool) (s : State) : State :=
  let s := (s.modChain fun c => { c with
    st := .lead, count := count, split := split, ring := ring, sideA := none, beaconAt := s.ns }).bump Adr.CHAIN_ENUMERATIONS 1
  let s := s.chainSerial 0 s.serial
  let s := (List.range (count - 1)).foldl (fun (s : State) i =>
    s.modChain fun c => { c with waiting := c.waiting ++ [{ pos := i + 1, addr := Adr.FUSE_SERIAL_LO, count := 2, serial := true }] }) s
  s.chainPump

/-- The B side has ended with `b`: the A side is enumerated, if there is one. -/
def State.chainSideA (b : Nat) (s : State) : State :=
  if b < 64 ∧ s.chain.upA = true then
    (s.modChain fun c => { c with sideA := some b }).chainSend false
      (chainHdr 2 (b % 64) 0 (b / 64) 0 0 0 s.serial) []
  else s.chainLead b b false

/-- Enter ENUMERATING (R428, step 1). -/
def State.chainEnum (ring : Bool) (s : State) : State :=
  let s := (s.modChain fun c => { c with st := .enumerating, pos := 0, placed := true, ring := ring, sideA := none, fresh := false }).setRg64
    Adr.CHAIN_LEAD_SERIAL_LO s.serial
  if s.chain.upB then s.chainSend true (chainHdr 2 1 0 0 0 0 0 s.serial) []
  else s.chainSideA 1

/-- Return ENUM_END out of a port (R428). -/
def State.chainEnumEnd (portB : Bool) (n : Nat) (overflow : Bool) (s : State) : State :=
  s.chainSend portB (chainHdr 9 (n % 64) s.chain.pos (n / 64) 0 0 0 (b2n overflow)) []

/-- The lead re-enumerates after an EVENT or a broken ring (R430). -/
def State.chainBreak (pos port : Nat) (s : State) : State :=
  let s := s.setRg Adr.CHAIN_BREAK_CAPTURE (w32 (pos * 2 ^ 16 + port))
  (s.raise Err.chain_CHAIN_BREAK 0 [] none).chainEnum s.chain.ring

/-- Vectors of pages that still have a source set (R416). -/
def State.liveVectors (s : State) : List Nat :=
  (s.hub.regs.filterMap fun e =>
    match pageAt e.1 with
    | some (k, i, o) =>
      if o = Adr.H_INT_STATUS ∧ k ≠ .vf ∧ (List.range 32).any (s.intCond k i) = true
      then some (s.rf (adr k i Adr.H_INT_VECTOR) 5 0) else none
    | none => none).eraseDups

/-! ### Control (Table 16-8) -/

/-- A write of CHAIN.CTRL.EN. -/
def State.chainCtrl (v : Word) (s : State) : State :=
  let s := s.setRg Adr.CHAIN_CTRL (w32 (bits v 0 0))
  if bit v 0 then (if s.chain.st == .off then s.chainLeave .listen else s) else s.chainLeave .off

/-- CHAIN.CMD.RESTART, or the host down for HOST_LOSS: LISTEN from every state but OFF. -/
def State.chainRestart (s : State) : State :=
  if s.chain.st == .off then s else s.chainLeave .listen

end Sys2Proof.Machine
end

