-- ==== Sys2Proof/Machine/Pwr.lean ====
section
/-! DEFINITION. Power domains (R436, R437), power states (R438), resets (R439, R440), the supply-fail path and the
hold-up save (R441 to R450), supplies and temperature (R506, R507, R513). -/

set_option Elab.async false

namespace Sys2Proof.Machine
open Sys2Proof

/-! ### Switching domains -/

/-- Whether a page lies in a domain (Tables 1-4, 19-5); the pages of CORE0 or CORE1 go with the last of the two. -/
def State.pageIn (s : State) (d : Nat) (k : PageKind) (i : Nat) : Bool :=
  match k with
  | .port => d == 1 + i / 32
  | .octet => d == 1 + i / 4
  | .swcore | .ttu | .home | .carv | .sheaf => d == 25 + i
  | .ext | .exd | .dom | .kvpool | .kvseq | .job =>
    (d == 25 && !s.domOn 26) || (d == 26 && !s.domOn 25)
  | .tile => d == 17 + i
  | .tier => d == 27 || d == 28
  | .gran => d == 29
  | .hostp | .chain | .vf => d == 30
  | _ => false

/-- Registers of the pages that `p` names return to their reset values; always-on counters stay (R472). -/
def State.resetPages (p : PageKind → Nat → Bool) (s : State) : State :=
  s.modHub fun h => { h with
    regs := h.regs.keep fun a _ => match pageAt a with
      | some (k, i, _) => !p k i
      | none => true
    cnts := h.cnts.keep fun a _ => match pageAt a with
      | some (k, i, o) => !p k i || (decide (0x60 ≤ o) && decide (o < 0x80))
      | none => true }

/-- The octets of a lane domain return to one x8 Avber port each. -/
def State.resetLanes (k : Nat) (s : State) : State :=
  (List.range 32).foldl (fun s i =>
      let p := 32 * k + i
      (s.resetPortPage p).modLink fun l => { l with ports := l.ports.set p {} })
    (s.modLink fun l => { l with layout := l.layout.clear (4 * k) (4 * k + 4) })

/-- A die's buffer, table copies and engines return to their reset values. -/
def State.resetDie (d : Nat) (s : State) : State :=
  let gone := s.sw.stored.filterMap fun e => if e.2.die = d then some e.1 else none
  let s := s.modSw fun w => { w with
    stored := w.stored.keep fun k _ => !gone.contains k
    local_ := w.local_.filter fun e => !gone.contains e.1
    queues := w.queues.filter fun q => !gone.contains q.id
    stalled := w.stalled.filter fun e => e.1 != d
    held := w.held.set d 0, engine := w.engine.set d 0
    flowlets := w.flowlets.clear (16384 * d) (16384 * d + 16384) }
  let s := s.modTtu fun t => { t with reqs := t.reqs.keep fun _ r => match r with
    | some x => x.die != d
    | none => false }
  s.modHub fun h =>
    let dies := h.tabs.filter fun e => decide (e.1 < 0x03480000) || decide (0x03481000 ≤ e.1)
    let lost (a : Nat) : Bool := h.blank.get (2 * a + (1 - d)) || !s.domOn (26 - d)
    { h with
      tabs := h.tabs.keep fun a _ => !(lost a && dies.any fun e => e.1 == a)
      blank := dies.foldl (fun b e => if lost e.1 then b.del (2 * e.1 + (1 - d)) else b.set (2 * e.1 + d) true) h.blank }

/-- What a domain loses when it is switched off: its blocks come back at their reset values (Table 17-1, R494). -/
def State.domainLost (d : Nat) (s : State) : State :=
  let s := s.resetPages (s.pageIn d)
  if 1 ≤ d ∧ d ≤ 16 then s.resetLanes (d - 1)
  else if 17 ≤ d ∧ d ≤ 24 then
    (s.modTile fun u => { u with held := u.held.set (d - 17) false, rr := u.rr.set (d - 17) 0 }).haylOf (d - 17)
  else if d = 25 ∨ d = 26 then s.resetDie (d - 25)
  else if d = 27 ∨ d = 28 then s.modTier fun t => { gran := t.gran }
  else if d = 29 then s.modGran fun _ => {}
  else if d = 31 then s.modSec fun u => { u with keys := [], binds := [], sessions := [], negotiated := 0, ide := [] }
  else s

/-- Ports of a lane domain are OFF or FENCED. -/
def State.lanesIdle (s : State) (k : Nat) : Bool :=
  (List.range 32).all fun i => (s.port (32 * k + i)).st == .off || (s.port (32 * k + i)).st == .fenced

/-- Every job slot is FREE, EXT_USED is 0, every leg is CLOSED (Table 17-1). -/
def State.coreIdle (s : State) : Bool :=
  (s.ttu.jobs.all fun e => e.2 == .free) && (s.ext.exts.all fun e => e.2.st == .free)
    && s.carv.legs.all fun e => e.2.st == .closed

/-- TIER.CTRL.EN = 0 and the granary is OFF. -/
def State.tierIdle (s : State) : Bool := !s.tierOn && s.gran.st == .off

/-- The condition of Table 17-1. -/
def State.offOk (s : State) (d : Nat) : Bool :=
  if 1 ≤ d ∧ d ≤ 16 then s.lanesIdle (d - 1)
  else if 17 ≤ d ∧ d ≤ 24 then
    let t := d - 17
    !bit (s.rg (Adr.TILE_CTRL t)) 0 && (s.tile.queue.all fun x => x.tile != t)
      && (s.tile.runs.all fun e => match e.2 with
        | some r => r.tile != t
        | none => true)
      && s.tile.internal.get t == 0
  else if d = 25 ∨ d = 26 then
    let die := d - 25
    ((List.range 16).all fun k => octetDie (4 * k) != die || !s.domOn (1 + k))
      && ((List.range 4).all fun i => !s.domOn (17 + 4 * die + i)) && !s.domOn (27 + die) && s.coreIdle
  else if d = 27 ∨ d = 28 then s.tierIdle && s.coreIdle
  else if d = 29 then s.tierIdle
  else s.sec.mode == .shared && !s.ideOn

/-- A PWR command ends. -/
def State.pwrDone (r : Nat) (s : State) : State := (s.setRf Adr.PWR_CMD_STATUS 3 0 r).raiseInt .pwr 0 0

/-- A refused DOMAIN command: DOMAIN_REFUSED (Table 17-12). -/
def State.domRefused (r : Nat) (s : State) : State := (s.pwrDone r).raise Err.pwr_DOMAIN_REFUSED 0 [] none

/-- RUN or REDUCED by the domains that are off. -/
def State.pstateOf (s : State) : State :=
  s.modPwr fun p => { p with pstate := if p.off.isEmpty then .run else .reduced }

/-- A write of PWR.CMD with GO: ignored while BUSY. -/
def State.pwrCmd (src : Source) (act : State → State) (s : State) : State :=
  s.guarded src Adr.PWR_CMD .wo fun s => if s.pwr.turning.isSome || s.pwr.warm then s else act s

/-- Whether the core runs in RUN or REDUCED. -/
def State.running (s : State) : Bool := s.pwr.pstate == .run || s.pwr.pstate == .reduced

/-- DOMAIN_OFF (R436). -/
def State.domainOff (d : Nat) (s : State) : State :=
  if !s.running then s.domRefused 2
  else if d = 0 ∨ d = 30 then s.domRefused 3
  else if !s.domOn d then s.domRefused 2
  else if !s.offOk d then s.domRefused 1
  else
    let s := s.domainLost d
    ((s.modPwr fun p => { p with off := p.off.set d true }).pstateOf).pwrDone 0

/-- DOMAIN_ON (R436). -/
def State.domainOn (d : Nat) (s : State) : State :=
  if !s.running || s.domOn d then s.domRefused 2
  else s.modPwr fun p => { p with turning := some d }

def execDomainOff (src : Source) (d : Nat) (s : State) : Host.Outcome State Fault Refusal :=
  .next (s.pwrCmd src (·.domainOff (d % 32)))
def execDomainOn (src : Source) (d : Nat) (s : State) : Host.Outcome State Fault Refusal :=
  .next (s.pwrCmd src (·.domainOn (d % 32)))

/-- Barn contents after a barn domain is on: zeroed outside SHARED and where a scrub is owed, else undefined. -/
def State.barnBack (d : Nat) (s : State) : State :=
  let zero := s.sec.mode != .shared || s.sec.owed.get d
  let s := s.modSec fun u => { u with owed := u.owed.set d false }
  if zero then s.barnZero else s.barnOpen

/-- DOMAIN_ON_DONE (R436). -/
def execDomainOnDone (s : State) : Host.Outcome State Fault Refusal :=
  .next (match s.pwr.turning with
    | none => s
    | some d =>
      let s := s.domainLost d
      let s := s.modPwr fun p => { p with turning := none, off := p.off.set d false }
      let s := if d = 27 ∨ d = 28 then s.barnBack d else s
      (s.pstateOf.pwrDone 0 |> fun s => if d = 31 then s.cryptoOn else s))

/-! ### Resets (R439, R440) -/

/-- What a reset or a halt leaves of the registers: the pages that `keep` names, and the always-on counters. -/
def State.bareHub (s : State) (keep : PageKind → Bool) : Hub :=
  (s.resetPages fun k _ => !keep k).hub |> fun h => { regs := h.regs, cnts := h.cnts }

/-- Every block at its reset values but for the pages `keep`, the memory, the power controller, the audit log and the
event sequence. -/
def State.bare (s : State) (keep : PageKind → Bool) : State :=
  ({ State.reset with
    pending := s.pending, out := s.out, free := s.free, nextId := s.nextId
    hub := s.bareHub keep, mem := s.mem, pwr := s.pwr
    flt := { evSeq := s.flt.evSeq, log := s.flt.log, logSeq := s.flt.logSeq } }).setRg64 Adr.FAULT_LOG_SEQ_LO s.flt.logSeq

/-- What the fuses hold: the FUSE page's own registers, the owner key hash once it is fused (R386). -/
def State.fuses (s : State) : Tbl (Option Word) :=
  s.hub.regs.keep fun a _ => decide (Adr.FUSE_MODE_CHANGES ≤ a) && decide (a < 0x9000)
    && (bit (s.rg Adr.FUSE_FUSE_STATUS) 0 || !(decide (Adr.FUSE_OWNER_PK_HASH 0 ≤ a) && decide (a ≤ Adr.FUSE_OWNER_PK_HASH 11)))

/-- A cold reset (Table 17-3): every register but the fuses, barn and hayloft contents are lost, the cellar keeps its
contents. It waits for the configuration loader. -/
def State.coldReset (last : Nat) (s : State) : State :=
  let b := s.bare fun _ => false
  let b := { b with
    hub := { regs := s.fuses }, flt := {}
    pwr := { lastReset := last, rstLow := s.pwr.rstLow, pwrFail := s.pwr.pwrFail, cref := s.pwr.cref
             railsLow := s.pwr.railsLow, cellar := s.pwr.cellar } }
  (b.barnOpen.newNonce).bump Adr.PWR_COLD_RESETS 1

/-- The host port through a warm reset: link, configuration space and MSI-X tables stay (Table 17-3). -/
def HostUnit.kept (h : HostUnit) : HostUnit :=
  { h with reqs := [], tags := [], fns := h.fns.map fun _ x => { x with tdisp := .unlocked, nonce := 0 } }

/-- The mode through a warm reset (Table 15-4). -/
def SecMode.afterWarm : SecMode → SecMode
  | .sealed => .sealed
  | _ => .shared

/-- A warm reset (Table 17-3). -/
def State.warmReset (s : State) : State :=
  let off := !s.barnOn
  let owed := s.sec.owed.get 27 || s.sec.owed.get 28
  let sealed := s.sec.mode == .sealed
  let b := s.bare fun k => k == .fuse || k == .pwr || k == .save
  let b := { b with
    host := s.host.kept
    sec := { mode := s.sec.mode.afterWarm, sealedOk := s.sec.sealedOk, ksRoot := s.sec.ksRoot }
    pwr := { s.pwr with pstate := .starting, off := [], warm := true, lastReset := 4, turning := none, lowSince := none } }
  (if owed || (off && sealed) then b.barnZero else if off || sealed then b.barnOpen else b).newNonce

/-- WARM_RESET (R440). -/
def State.warmCmd (s : State) : State :=
  if !s.running then s.pwrDone 2 else if !s.tierIdle then s.pwrDone 1 else s.warmReset

def execWarmReset (src : Source) (s : State) : Host.Outcome State Fault Refusal := .next (s.pwrCmd src (·.warmCmd))

/-- COLD_RESET (R440). -/
def State.coldCmd (bad : List Nat) (s : State) : State :=
  if s.gran.st != .off then s.pwrDone 1 else (s.coldReset 2).bootEval bad

def execColdReset (src : Source) (bad : List Nat) (s : State) : Host.Outcome State Fault Refusal :=
  .next (s.pwrCmd src (·.coldCmd bad))

/-- SUPPLY_RISE (R506): every rail is in range; the cold reset of power-on. -/
def execSupplyRise (bad : List Nat) (s : State) : Host.Outcome State Fault Refusal :=
  .next (((s.modPwr fun p => { p with railsLow := false }).coldReset 0).bootEval bad)

/-- STARTUP_DONE (R438, R506): the PLLs have locked and the loader has finished. -/
def execStartupDone (s : State) : Host.Outcome State Fault Refusal :=
  .next (
    let p := s.pwr
    if p.pstate = .starting ∧ p.image = false ∧ p.rstLow = false ∧ p.railsLow = false ∧ p.pwrFail = false then
      let s := s.modPwr fun p => { p with pstate := .run, cref := true, warm := false }
      if p.warm then s.pwrDone 0 else s
    else s)

/-! ### The hold-up save (R443 to R449) -/

/-- Zeros up to a multiple of `n`. -/
def padUp (n : Nat) (b : List Byte) : List Byte := b ++ List.replicate ((n - b.length % n) % n) 0

/-- Zeros up to `n` bytes. -/
def padFull (n : Nat) (b : List Byte) : List Byte := (b ++ List.replicate (n - b.length) 0).take n

/-- Every page with a header in order of address, without the VF pages. -/
def allPages : List (PageKind × Nat) :=
  (PageKind.all.filter (· != .vf)).flatMap fun k => (List.range (pageCount k)).map fun i => (k, i)

/-- Section 2: the OPEN blocks (Table 17-4). -/
def State.saveOpens (s : State) : List Byte :=
  (List.range 512).flatMap fun e =>
    let c := e / 32
    let n := e / 2 % 16
    let o := s.gran.opens.get (2 * (16 * n + c) + e % 2)
    leBytes 8 (if o.1 = 0 then 2 ^ 64 - 1 else mkPun s.granU (o.1 - 1) o.2 n c)

/-- Section 3: the error state of a page, with its address first. -/
def State.saveErr (s : State) (k : PageKind) (i : Nat) : List Byte :=
  let a := adr k i 0
  padFull 32 (leBytes 4 a ++ (if s.pageOn k i then
    ([Adr.H_ERR_STATUS, Adr.H_ERR_FIRST] ++ (List.range 4).map fun j => Adr.H_ERR_CAPTURE + 4 * j).flatMap fun o =>
      leBytes 4 (s.rg (a + o)).toNat
    else []))

/-- STATE of a job slot (Table 5-11). -/
def jobStNo : JobSt → Nat
  | .free => 0 | .active => 1 | .draining => 2 | .drained => 3

/-- Section 4: the job state. -/
def State.saveJobs (s : State) : List Byte :=
  ((List.range 1024).flatMap fun j => leBytes 4 (jobStNo (s.ttu.jobs.get j)) ++ leBytes 4 (s.rg (Adr.JOB_FJID j)).toNat
      ++ (List.range 4).flatMap fun c => leBytes 4 (s.rg (Adr.JOB_VIOL_CAPTURE j c)).toNat)
    ++ ((List.range 2).flatMap fun d => (List.range 2).flatMap fun c => leBytes 4 (s.rg (Adr.SHEAF_ABORT_CAPTURE0 d + 4 * c)).toNat)
    ++ (List.range 2).flatMap fun c => leBytes 4 (s.rg (Adr.EXD_CMB_CAPTURE0 + 4 * c)).toNat

/-- An audit log entry (Table 18-7). -/
def LogEntry.bytes (e : LogEntry) : List Byte :=
  leBytes 4 e.c ++ leBytes 4 e.b ++ leBytes 4 e.a ++ leBytes 4 (e.page * 2 ^ 10 + e.kind * 2 ^ 24) ++ leBytes 8 e.seq ++ leBytes 8 e.time

/-- Section 5: the audit log, oldest entry first. -/
def State.saveLog (s : State) : List Byte :=
  let n := min s.flt.logSeq 32768
  (List.range n).flatMap fun i => (s.flt.log.get ((s.flt.logSeq - n + i) % 32768)).bytes

/-- Section 6: the always-on counters of a page. -/
def State.saveCnts (s : State) (k : PageKind) (i : Nat) : List Byte :=
  (List.range 4).flatMap fun c => leBytes 8 (if s.pageOn k i then (s.cnt (adr k i (0x60 + 8 * c))).toNat else 0)

/-- Whether the granary is READY or READ_ONLY. -/
def State.granUp (s : State) : Bool := s.gran.st == .ready || s.gran.st == .readOnly

/-- Sections 1 to 6 in order (R445). -/
def State.saveSections (s : State) : List (List Byte) :=
  [padUp 4096 (if s.granUp then s.gran.journal.flatMap recBytes else []),
   s.saveOpens,
   padFull 65536 (allPages.flatMap fun x => s.saveErr x.1 x.2),
   padFull 65536 s.saveJobs,
   padUp 4096 s.saveLog,
   padFull 65536 (allPages.flatMap fun x => s.saveCnts x.1 x.2)]

/-- SECT[s] words from an offset on. -/
def sectWords : Nat → List (List Byte) → List Byte
  | _, [] => []
  | off, x :: xs => leBytes 4 off ++ leBytes 4 x.length ++ sectWords (off + x.length) xs

/-- SEQ of the save (R447). -/
def State.saveNo (s : State) : Nat :=
  match s.armRec with
  | some (n, true) => n
  | _ => s.nextSaveSeq

/-- The header (Table 17-5) of a save of `secs`. -/
def State.saveHeader (s : State) (secs : List (List Byte)) (iv : Nat) : List Byte :=
  let sealed := s.sec.mode == .sealed
  let change := s.sec.mode == .sealing || s.sec.mode == .unsealing
  padFull 256 (leBytes 4 0x56534B49 ++ leBytes 2 1 ++ leBytes 1 (b2n s.granUp + 2 * b2n sealed + 4 * b2n change) ++ leBytes 1 0
    ++ leBytes 8 s.saveNo ++ leBytes 8 s.serial ++ leBytes 8 s.ns ++ leBytes 2 s.pwr.vhold ++ leBytes 2 0
    ++ leBytes 4 (4096 + (secs.map List.length).sum) ++ leBytes 24 0 ++ sectWords 0 (List.replicate 4096 0 :: secs) ++ leBytes 8 0
    ++ (if sealed then leBytes 8 s.saveNo ++ leBytes 4 iv else []))

/-- The slot that a save takes (R446). -/
def State.saveTarget (s : State) : Nat :=
  match s.newestSave with
  | some 0 => 1
  | _ => 0

/-- The save set of this state. -/
def State.saveJob (s : State) : SaveJob :=
  let secs := s.saveSections
  let h := s.saveHeader secs (s.freeVal % 2 ^ 32)
  let plain := secs.flatten
  let sealed := s.sec.mode == .sealed
  let iv := atLe h 128 12
  let body := if sealed then Config.gcmEnc iv h plain else plain
  { slot := s.saveTarget, seq := s.saveNo, header := h, body := body, startNs := s.ns
    check := if sealed then (Config.gcmTag iv h body).toNat else (crc32c (padFull 4096 h ++ body)).toNat }

/-- The save is skipped (R449). -/
def State.saveSkipped (s : State) : Bool :=
  !bit (s.rg Adr.PWR_SAVE_CFG) 0 || s.gran.st == .restoring || (!s.pwr.replayed && (match s.armRec with
    | some (n, true) => (s.setWith n).isSome
    | _ => false))

/-- Every pipeline and engine stops: what they held is lost at the next cold reset, and nothing is issued for it. -/
def State.stopAll (s : State) : State :=
  let b := s.bare fun k => k == .fuse || k == .pwr || k == .save || k == .ident
  (({ b with sec := { mode := s.sec.mode, dbg := s.sec.dbg } }).modTime fun t => { t with now := s.time.now }).barnOpen

/-- Domains that are off. -/
def offSet (ds : List Nat) : Tbl Bool := ds.foldl (fun (t : Tbl Bool) d => t.set d true) []

/-- SAVED: only domain 0 is on. -/
def State.saved (s : State) : State :=
  s.modPwr fun p => { p with pstate := .saved, save := none, off := offSet ((List.range 31).map (· + 1)), turning := none, warm := false }

/-- A save is abandoned: an open part of the set has been written, and no commit record. -/
def State.saveTorn (s : State) : State :=
  match s.pwr.save with
  | none => s
  | some j =>
    let all := padFull 4096 j.header ++ j.body
    (s.setCell (saveSlot j.slot) (all.take (s.freeVal % (all.length + 1)))).takeFree.modPwr fun p => { p with save := none }

/-- PWR_FAIL_N is asserted in RUN or REDUCED: steps 1 to 4 of R444, and the start of the save. -/
def State.startSave (s : State) : State :=
  let s := match s.sec.fuse with
    | some f => s.fuseDone f
    | none => s
  let skip := s.saveSkipped
  let j := s.saveJob
  let s := s.takeFree.stopAll
  let s := s.modPwr fun p => { p with pstate := .saving, turning := none, warm := false
                                      off := offSet ((List.range 24).map (· + 1) ++ [27, 28, 30]) }
  if skip then s.saved
  else (s.setCell (commitAt j.slot) (List.replicate 64 0)).modPwr fun p => { p with save := some j }

/-- PWR_FAIL_ASSERT (R441, R444, Table 17-2). -/
def execPwrFailAssert (s : State) : Host.Outcome State Fault Refusal :=
  .next (if s.pwr.pwrFail then s
  else
    let s := (s.modPwr fun p => { p with pwrFail := true }).bump Adr.PWR_PF_EVENTS 1
    match s.pwr.pstate with
    | .run | .reduced => s.startSave
    | .starting | .halted => s.stopAll.saved
    | _ => s)

/-- The commit record (Table 17-6). -/
def commitBytes (j : SaveJob) (durationUs vhold : Nat) : List Byte :=
  sealRec (padFull 60 (leBytes 4 0x4D434B49 ++ leBytes 4 0 ++ leBytes 8 j.seq ++ leBytes 4 (4096 + j.body.length)
    ++ leBytes 4 durationUs ++ leBytes 2 vhold ++ leBytes 6 0 ++ leBytes 16 j.check))

/-- SAVE_WRITE_DONE (R446): the set and its commit record are written and verified, or a write failed twice. -/
def execSaveWriteDone (ok : Bool) (s : State) : Host.Outcome State Fault Refusal :=
  .next (match s.pwr.pstate, s.pwr.save with
    | .saving, some j =>
      if ok then
        ((s.setCell (saveSlot j.slot) (padFull 4096 j.header ++ j.body)).setCell (commitAt j.slot)
          (commitBytes j ((s.ns - j.startNs) / 1000) s.pwr.vhold)).saved
      else s.saveTorn.saved
    | _, _ => s)

/-- PWR_FAIL_RELEASE (R441): high for 10 ms; a cold reset in SAVED. -/
def execPwrFailRelease (bad : List Nat) (s : State) : Host.Outcome State Fault Refusal :=
  .next (
    let s := s.modPwr fun p => { p with pwrFail := false }
    if s.pwr.pstate = .saved then (s.coldReset 3).bootEval bad else s)

/-- RST_N_ASSERT (R439): RST_N low for 10 µs; a save in progress is abandoned. -/
def execRstNAssert (bad : List Nat) (s : State) : Host.Outcome State Fault Refusal :=
  .next (((s.saveTorn.modPwr fun p => { p with rstLow := true }).coldReset 1).bootEval bad)

/-- RST_N_RELEASE (R506). -/
def execRstNRelease (s : State) : Host.Outcome State Fault Refusal :=
  .next (s.modPwr fun p => { p with rstLow := false })

/-- CREFCLK_LOST (Table 17-2). -/
def execCrefclkLost (s : State) : Host.Outcome State Fault Refusal :=
  .next (
    let s := s.modPwr fun p => { p with cref := false }
    match s.pwr.pstate with
    | .run | .reduced =>
      (s.stopAll.modPwr fun p => { p with pstate := .halted, turning := none }).raise Err.pwr_CLK_LOST 0 [] none
    | .saving => s.saveTorn.saved
    | _ => s)

/-! ### VHOLD, supplies, temperature -/

/-- VHOLD_SAMPLE (R442, R450): a reading in mV; below 7 V in SAVING the save is torn. -/
def execVholdSample (mv : Nat) (s : State) : Host.Outcome State Fault Refusal :=
  .next (
    let v := min (mv / 10 * 10) 65530
    let low := s.running && decide (v < s.rf Adr.PWR_VHOLD_WARN 15 0)
    let s := s.modPwr fun p => { p with
      vhold := v, vholdMin := some (min v (p.vholdMin.getD v)), lowSince := if low then some (p.lowSince.getD s.ns) else none }
    if s.pwr.pstate = .saving ∧ v < 7000 then s.saveTorn.saved else s)

/-- VHOLD_LOW (R442): below VHOLD_WARN for 1 ms in RUN or REDUCED. -/
def execVholdLow (s : State) : Host.Outcome State Fault Refusal :=
  .next (match s.pwr.lowSince with
    | some t =>
      if s.running ∧ t + 1000000 ≤ s.ns then
        ((s.raise Err.pwr_VHOLD_LOW 0 [] none).raiseInt .pwr 0 1).modPwr fun p => { p with lowSince := some s.ns }
      else s
    | none => s)

/-- BROWN_OUT (R507): `fed` names a VHOLD-fed rail, `low` that PWR_FAIL_N is sampled low. -/
def execBrownOut (fed low : Bool) (s : State) : Host.Outcome State Fault Refusal :=
  .next (
    let acts := match s.pwr.pstate with
      | .saved => false
      | .saving => fed
      | _ => fed || !(low || s.pwr.pwrFail)
    if acts then (s.saveTorn.modPwr fun p => { p with railsLow := true }).coldReset 0 else s)

/-- THERM_TRIP (R513). -/
def execThermTrip (s : State) : Host.Outcome State Fault Refusal :=
  .next (if s.pwr.trip then s else (s.modPwr fun p => { p with trip := true }).emit .thermTrip)


end Sys2Proof.Machine
end

