-- ==== Sys2Proof/Machine/Request.lean ====
section
/-! DEFINITION. Requests as they arrive at the receiving side (R121, R243, R368, R373) and the job slots (R135). -/

set_option Elab.async false

namespace Sys2Proof.Machine
open Sys2Proof

/-! ### Arrival (R121) -/

/-- The request falls into its slot's descriptor window (R243). -/
def State.inDq (s : State) (j fva : Nat) : Bool :=
  let v := s.rg64 (Adr.JOB_DQ_FVA_LO j)
  let base := v % 2 ^ 57 / 4096 * 4096
  v % 2 == 1 && decide (base ≤ fva) && decide (fva < base + 4096)

/-- A request in the descriptor window: a write of one descriptor, or malformed (R243). -/
def State.dqRx (die j : Nat) (p : Packet) (s : State) : State :=
  let d := leNat (p.bytes 32 128)
  if p.op ≠ 1 ∨ p.size ≠ 128 ∨ p.fva % 128 ≠ 0 ∨ dFjid d ≠ p.fjid then s.respond die p 10
  else match s.submit j d with
    | (.queued, s) => s.respond die p 0
    | (.busy, s) => s.respond die p 9

/-- A request after its body checks: the domain that serves it, the watch, and on to a home or to memory. -/
def State.mreqServe (die j size : Nat) (from_ : Ingress) (p : Packet) (c : Option Nat) (x : Chk) (s : State) : State :=
  match x with
  | .fail st => (s.respond die p st).freeLocal c
  | .pass x =>
    match (if x.coh then (s.domServes p).map some else .ok none : Except Nat (Option Nat)) with
    | .error st => (s.respond die p st).freeLocal c
    | .ok dom => match s.watch (tracePort from_) p p.op size x.segs with
      | (true, s) => ((s.violation die j 2 p none).respond die p 2).freeLocal c
      | (false, s) => match dom with
        | some k => s.homeEnter die k p c x
        | none => s.enter die .mreq p from_ c x

/-- What follows checks 1 to 4 for a request that no window takes. -/
def State.mreqBody (die j : Nat) (from_ : Ingress) (p : Packet) (c : Option Nat) (s : State) : State :=
  if !s.queueFits j p then ((s.bump (Adr.JOB_BUSY_COUNT j) 1).respond die p 9).freeLocal c
  else
    let size := if p.op = 2 then 64 else p.size
    let r := s.checkBody die j p.op size (fun e => permitted e p.op) p
    r.2.mreqServe die j size from_ p c r.1

/-- An MREQ that has been delivered (R121): to a host endpoint, into a window of the slot, or to memory. -/
def State.mreqRx (n : Nat) (p : Packet) (c : Option Nat) (s : State) : State :=
  let die := ingressDie n
  match s.hostFn die p with
  | some f => s.hostRx die f p c
  | none => match s.checkHead die (mreqBad p) p with
    | (.error st, s) => (s.respond die p st).freeLocal c
    | (.ok j, s) =>
      if s.inDq j p.fva then (s.dqRx die j p).freeLocal c
      else match s.inWindow 0 p.fjid p.fva with
        | some (l, off) => (s.tokenRx die j l off p).freeLocal c
        | none => match s.inWindow 1 p.fjid p.fva with
          | some (l, off) => (s.outputRx die j l off p).freeLocal c
          | none => s.mreqBody die j (ingressOf n) p c

/-- An MREQ taken from what was delivered there. -/
def State.mreqAt (n : Nat) (p : Packet) (s : State) : State :=
  if p.cls ≠ 8 then s
  else match s.takeLocal n p with
    | (some c, s) => s.mreqRx n p (some c)
    | (none, s) => s

/-- MREQ_RX (R121). -/
def execMreqRx (p : Nat) (pkt : Packet) (s : State) : Host.Outcome State Fault Refusal := .next (s.mreqAt p pkt)

/-- DESC_WRITE (R243): an MREQ into the descriptor window of its slot. -/
def execDescWrite (p : Nat) (pkt : Packet) (s : State) : Host.Outcome State Fault Refusal :=
  .next (match s.slotOf pkt.fjid with
    | some j => if s.inDq j pkt.fva then s.mreqAt p pkt else s
    | none => s)

/-- TOKEN_WRITE (R368): an MREQ into a dispatch window. -/
def execTokenWrite (p : Nat) (pkt : Packet) (s : State) : Host.Outcome State Fault Refusal :=
  .next (if (s.inWindow 0 pkt.fjid pkt.fva).isSome then s.mreqAt p pkt else s)

/-- EXPERT_OUTPUT_WRITE (R373): an MREQ into a combine window. -/
def execExpertOutputWrite (p : Nat) (pkt : Packet) (s : State) : Host.Outcome State Fault Refusal :=
  .next (if (s.inWindow 1 pkt.fjid pkt.fva).isSome then s.mreqAt p pkt else s)

/-! ### Job slots (R135, Table 5-11) -/

def State.jobReject (j r : Nat) (s : State) : State := s.setRf (Adr.JOB_STATUS j) 11 8 r

/-- The checks of ACTIVATE (R135, R395). -/
def State.activateOk (s : State) (j : Nat) : Bool :=
  let fjid := s.rf (Adr.JOB_FJID j) 19 0
  let sh := s.rf (Adr.JOB_MAN_CFG j) 4 0
  let len := s.rf (Adr.JOB_MAN_LEN j) 24 0
  let base := s.rg64 (Adr.JOB_MAN_BASE_LO j)
  let memb := s.rg64 (Adr.JOB_MEMBER_BASE_LO j)
  let fva := s.rg64 (Adr.JOB_MAN_FVA_LO j)
  (s.slotOf fjid).isNone && decide (12 ≤ sh) && decide (sh ≤ 30) && decide (1 ≤ len) && decide (len ≤ 16777216)
    && base % 4096 == 0 && memb % 8192 == 0 && fva % 2 ^ sh == 0 && decide (fva + len * 2 ^ sh ≤ 2 ^ 57)
    && decide (base + 16 * len ≤ barnSize) && decide (memb + 8192 ≤ barnSize)
    && (s.sec.mode != .sealed || match s.sec.binds.get fjid with
      | some (_, dig) => (Config.sha384 (s.barnBytes memb 8192)).toNat == dig
      | none => false)

/-- The job-scoped counters of a slot are set to 0 (R474). -/
def State.jobCntsZero (j : Nat) (s : State) : State :=
  (List.range 8).foldl (fun s i => s.setCnt (Adr.JOB_READ_BYTES j + 8 * i) 0) s

/-- ACTIVATE. -/
def State.jobActivate (j : Nat) (s : State) : State :=
  match s.job j with
  | .free => if s.activateOk j then ((s.jobCntsZero j).setJob j .active).jobReject j 0 else s.jobReject j 1
  | .active => s
  | _ => s.jobReject j 2

/-- A queued request of a stopped job: parts that have not been issued end with JOB_STOPPED. -/
def State.stopReq (id : Nat) (s : State) : State :=
  match s.req id with
  | none => s
  | some r =>
    if !r.formed then (s.failReq id 5).settle id
    else
      let s := (List.range r.parts.length).foldl (fun s k => match r.parts[k]? with
        | some p => if p.st = .waiting then s.endPart id k fun p => { p with status := 5, data := [] } else s
        | none => s) s
      s.settle id

/-- Lines of a stopped job that wait for a tracker end with JOB_STOPPED. -/
def State.stopLines (j : Nat) (s : State) : State :=
  s.home.waiting.foldl (fun s e => match e.2 with
    | some h => match h.group with
      | some g => match s.hgroup g with
        | some x =>
          if x.slot = j then
            let s := s.modHome fun u => { u with waiting := u.waiting.set e.1 none }
            (s.setGroup g (some { x with unstarted := x.unstarted - 1 })).lineDone g 5 h.seg.off [] 0
          else s
        | none => s
      | none => s
    | none => s) s

/-- Requests of the job's own units that wait for a tag are not issued; completion records are (R266). -/
def State.stopUnits (j : Nat) (s : State) : State :=
  let mine := s.ttu.waiting.filter fun u => u.slot == some j && (u.owner.isTile || (u.owner.isCarv && (match u.owner with
    | .carvCqe _ => false
    | _ => true)))
  let s := s.modTtu fun t => { t with waiting := t.waiting.filter fun u => !(mine.any fun m => m.id == u.id) }
  mine.foldl (fun s u =>
    if u.owner.isTile then (s.runResult u.owner (.fail 2 5)).drive u.owner.runOf else s.carvRsp u.owner 5 [] false) s

/-- STOP: queued requests complete with JOB_STOPPED, the job's own units stop issuing, DRAINING. -/
def State.jobStop (j : Nat) (s : State) : State :=
  match s.job j with
  | .free => s.jobReject j 2
  | .active =>
    let fjid := s.rf (Adr.JOB_FJID j) 19 0
    let s := (s.setJob j .draining).jobReject j 0
    let ids := s.ttu.reqs.filterMap fun e => match e.2 with
      | some r => if r.slot = some j ∧ r.kind = .mreq then some e.1 else none
      | none => none
    let s := (ids.foldl (fun s id => s.stopReq id) s).stopLines j
    ((((s.carvStop j).tileStop j).shStop fjid).exdStop fjid).stopUnits j |>.hostStop j
  | _ => s

/-- What still holds a DRAINED slot (R242, R160, and the chapters on sheaves, pools and layers). -/
def State.slotHeld (s : State) (j : Nat) : Bool :=
  let f := s.rf (Adr.JOB_FJID j) 19 0
  ((List.range 8).any fun t => (s.tile.wins.get (1024 * t + j)).isSome)
    || ((List.range 16).any fun p => (s.kv.pools.get p).st != .off && s.rf (Adr.KVPOOL_FJID p) 19 0 == f)
    || (s.shv.sheaves.any fun e => e.2.st != .free && (s.shCfgOf e.1).fjid == f)
    || ((List.map Prod.fst s.exd.active).any fun l => s.layerOn l && s.layFjid l == f)
    || (List.range 16).any fun k => s.dom k != .off && s.rf (Adr.DOM_FJID k) 19 0 == f

/-- RELEASE. -/
def State.jobRelease (j : Nat) (s : State) : State :=
  match s.job j with
  | .drained =>
    if s.slotHeld j then s.jobReject j 2
    else
      let s := s.modTtu fun t => { t with
        mans := t.mans.clear (j * 2 ^ 25) ((j + 1) * 2 ^ 25), members := t.members.clear (j * 65536) (j * 65536 + 65536)
        inval := t.inval.set j none }
      let s := s.setRf (Adr.FAULT_JOB_FATAL (j / 32)) (j % 32) (j % 32) 0
      ((s.setRg (Adr.JOB_FJID j) 0).setJob j .free).jobReject j 0
  | _ => s.jobReject j 2

def execJobActivate (src : Source) (j : Nat) (s : State) : Host.Outcome State Fault Refusal :=
  .next (s.guarded src (Adr.JOB_CTRL j) .wo (·.jobActivate j))
def execJobStop (src : Source) (j : Nat) (s : State) : Host.Outcome State Fault Refusal :=
  .next (s.guarded src (Adr.JOB_CTRL j) .wo (·.jobStop j))
def execJobRelease (src : Source) (j : Nat) (s : State) : Host.Outcome State Fault Refusal :=
  .next (s.guarded src (Adr.JOB_CTRL j) .wo (·.jobRelease j))

/-- JOB_DRAINED (Table 5-11): held tags and the queue of a DRAINING slot have reached zero. -/
def execJobDrained (j : Nat) (s : State) : Host.Outcome State Fault Refusal :=
  .next (if s.job j = .draining ∧ s.tagUsed j = 0 ∧ s.queueUsed j = 0 ∧ (s.ttu.waiting.all fun u => u.slot != some j) = true then
    (s.setJob j .drained).raiseInt .job j 1
  else s)

end Sys2Proof.Machine
end

