-- ==== Sys2Proof/Machine/Cxl.lean ====
section
/-! DEFINITION. CXL ports: link training and requests of the device (R76), the access window (R79), HDM decoders
(R78). -/

set_option Elab.async false

namespace Sys2Proof.Machine
open Sys2Proof

/-- A CXL port. -/
def State.isCxl (s : State) (p : Nat) : Bool := s.portExists p && s.portMode p == 2

/-- CXL_TRAIN (R76): the link is up at 64 or 32 GT/s in 256-byte flit mode, or stays down. -/
def execCxlTrain (p : Nat) (result : TrainResult) (s : State) : Host.Outcome State Fault Refusal :=
  .next (if s.isCxl p ∧ (s.port p).st = .equalise then
    match result with
    | .failed => (s.raise Err.port_CXL_TRAIN p [] none).leaveTo p .detect
    | _ => s.enterActive p
  else s)

/-- A request of the device that is not supported: completed as Unsupported Request and counted (R76). -/
def State.cxlUnsupported (p : Nat) (s : State) : State := (s.emit (.cxlUr p)).bumpLo (Adr.PORT_CXL_POISON_RX p)

def execCxlDeviceRequest (p : Nat) (s : State) : Host.Outcome State Fault Refusal :=
  .next (if s.isCxl p ∧ s.portActive p = true then s.cxlUnsupported p else s)

/-- CXL_MSI_WRITE (R79): data to CXL_MSI_ADDR; any other memory write is unsupported (R76). -/
def execCxlMsiWrite (p addr : Nat) (data : Word) (s : State) : Host.Outcome State Fault Refusal :=
  .next (if s.isCxl p ∧ s.portActive p = true then
    if addr = s.rg64 (Adr.PORT_CXL_MSI_ADDR_LO p) then (s.setRg (Adr.PORT_CXL_MSI_DATA p) data).raiseInt .port p 1
    else s.cxlUnsupported p
  else s)

/-- A write of CXL_CFG_ADDR: ignored while BUSY; GO issues the access (R79). -/
def State.cxlCfgWrite (p : Nat) (v : Word) (s : State) : State :=
  if (s.port p).cxlCfg then s
  else
    let v := v &&& 0xC00FFFFC
    let s := s.setRg (Adr.PORT_CXL_CFG_ADDR p) (v &&& 0x7FFFFFFF)
    if bit v 31 then
      (s.emit (.cxlIo p v (s.rg64 (Adr.PORT_CXL_MADDR_LO p)) (s.rg (Adr.PORT_CXL_CFG_DATA p)))).modPort p fun q =>
        { q with cxlCfg := true }
    else s

/-- CXL_CFG_GO (R79). -/
def execCxlCfgGo (src : Source) (p : Nat) (val : Word) (s : State) : Host.Outcome State Fault Refusal :=
  .next (s.guarded src (Adr.PORT_CXL_CFG_ADDR p) .rw (·.cxlCfgWrite p (val ||| 0x80000000)))

/-- The access ends with RESULT `r`. -/
def State.cxlCfgEnd (p r : Nat) (s : State) : State :=
  (s.setRf (Adr.PORT_CXL_CFG_STATUS p) 2 1 r).modPort p fun q => { q with cxlCfg := false }

/-- CXL_CFG_COMPLETION (R79); the manual gives no RESULT for a completer abort. -/
def execCxlCfgCompletion (p : Nat) (status : CplStatus) (data : Word) (s : State) : Host.Outcome State Fault Refusal :=
  .next (if (s.port p).cxlCfg then
    match status with
    | .success =>
      let s := if bit (s.rg (Adr.PORT_CXL_CFG_ADDR p)) 15 then s else s.setRg (Adr.PORT_CXL_CFG_DATA p) data
      s.cxlCfgEnd p 0
    | .unsupported => s.cxlCfgEnd p 1
    | .retry => s.cxlCfgEnd p 2
    | .abort => (s.cxlCfgEnd p (s.freeVal % 4)).takeFree
  else s)

/-- CXL_CFG_TIMEOUT (R79): no completion within 50 ms. -/
def execCxlCfgTimeout (p : Nat) (s : State) : Host.Outcome State Fault Refusal :=
  .next (if (s.port p).cxlCfg then s.cxlCfgEnd p 3 else s)

/-! ### Decoders (R78) -/

/-- The range of decoder `i` of port `p` with CTRL `c` conflicts with an enabled decoder of a CXL port. -/
def State.hdmConflict (s : State) (p i : Nat) (c : Word) : Bool :=
  let a := s.hdmBase p i
  let b := a + s.hdmSize p i
  s.cxlPorts.any fun q => (List.range 4).any fun j =>
    let d := s.hdmCtrl q j
    (q != p || j != i) && bit d 0 && decide (a < s.hdmBase q j + s.hdmSize q j) && decide (s.hdmBase q j < b)
      && (bits d 7 1 != bits c 7 1 || bits d 11 8 == bits c 11 8)

/-- A write of HDM[i].CTRL. -/
def State.hdmWrite (p i : Nat) (v : Word) (s : State) : State :=
  let v := v &&& 0xFFF
  let reject (r : Nat) (s : State) : State := s.setRf (Adr.PORT_CXL_STATUS p) 3 0 r
  if !bit v 0 then s.setRg (Adr.PORT_HDM_CTRL p i) v
  else if 4 < bits v 3 1 ∨ 6 < bits v 7 4 then reject 2 s
  else if s.hdmConflict p i v then reject 1 s
  else reject 0 (s.setRg (Adr.PORT_HDM_CTRL p i) v)

/-- HDM_ENABLE (R78). -/
def execHdmEnable (src : Source) (p i : Nat) (val : Word) (s : State) : Host.Outcome State Fault Refusal :=
  .next (s.guarded src (Adr.PORT_HDM_CTRL p i) .rw (·.hdmWrite p i (val ||| 1)))

end Sys2Proof.Machine
end

