-- ==== Sys2Proof/Machine/Time.lean ====
section
/-! DEFINITION. Fabric time: reads and sets (R28, R36), steps (R37), the grandmaster election (R32, R33),
beacons and the delay exchange (R29, R30), the servo (R31, R35), IEEE 802.1AS, PPS and the reference (R34). -/

set_option Elab.async false

namespace Sys2Proof.Machine
open Sys2Proof

/-! ### Steps of fabric time (R37) -/

/-- How many transmissions of port `p` an entry bars: their gate closes under them (R46). -/
def State.overrunBy (s : State) (p : Nat) (e : BitVec 64) : Nat :=
  ((s.port p).sending.filter fun x => !x.ctl
    && !ttAdmits e (s.sheafTc p) ⟨x.tc, if x.cls = 9 then some x.sid else none⟩).length

/-- Windows that a forward step removes, entry by entry from time `t` to `until_`. -/
def State.removedWindows (p : Nat) (tt : Timetable) (until_ : Nat) : Nat → Nat → State → State
  | 0, _, s => s
  | n + 1, t, s =>
    if until_ ≤ t then s
    else
      let (k, e) := tt.plainAt t
      let x := tt.oper.getD k 0
      State.removedWindows p tt until_ n e (if ttOp x = 1 then s.windowEnd p (ttSheaf x) true else s)

/-- What a step from `old` to `new` (ns) does to the timetable of a port: the entry in force stays until the
next boundary of the new time, and windows that are shortened or removed count as missed. -/
def State.stepTable (p old new : Nat) (s : State) : State :=
  if !s.ttActive p then s
  else
    let tt := s.timetable p
    let (k, e) := tt.at old
    let e2 := (tt.plainAt new).2
    let x := tt.oper.getD k 0
    let short := ttOp x = 1 ∧ (e2 : Int) - new < (e : Int) - old
    let s := s.modTime fun t => { t with
      tt := t.tt.set p { tt with idx := k, ends := e2, held := true, judged := decide short } }
    let s := if short then s.windowEnd p (ttSheaf x) true else s
    s.removedWindows p { tt with held := false } e2 ((e2 - e) / 8 + 1) e

/-- Timestamps of exchanges in progress lose their meaning at a step. -/
def PortTime.forget (q : PortTime) : PortTime :=
  { q with t1 := none, t2 := none, t3 := none, gSync := none, gReq := none, gResp := none }

/-- Fabric time becomes `v` (in 2^-32 ns), which is a step if the ns count changes: STEP_TAKEN, LAST_STEP,
timetables and deadlines (R37). -/
def State.stepTime (v : BitVec 96) (s : State) : State :=
  let old := s.ns
  let s := s.modTime fun t => { t with now := v }
  let new := s.ns
  if new = old then s
  else
    let d := ofInt 64 ((new : Int) - old)
    let s := s.setRg64 Adr.TIME_LAST_STEP_LO d.toNat
    let s := s.modTime fun t => { t with
      ports := t.ports.map fun _ (q : PortTime) => q.forget }
    let s := s.raise Err.time_STEP_TAKEN 0 [] none
    let s := s.time.tt.foldl (fun s e => s.stepTable e.1 old new) s
    s.auditDue

/-- A time in ns as the internal count. -/
def nsTime (v : Nat) : BitVec 96 := BitVec.ofNat 96 (v * 2 ^ 32)

/-! ### The registers -/

/-- Reading NOW_LO (R28) latches NOW_HI and NOW_FRAC for the reading source. -/
def State.latchNow (src : Source) (s : State) : State :=
  let hi := some (hi32 s.ns)
  let frac := some (w32 (s.t16 % 2 ^ 16))
  s.modHub fun h => { h with
    latchHi := (h.latchHi.set (stageKey src Adr.TIME_NOW_HI) hi).set (stageKey src Adr.TIME_NOW_FRAC) frac }


/-- The Ikion is grandmaster and takes its phase from PPS_IN (R34). -/
def State.ppsPhase (s : State) : Bool := s.time.gm == .gm && bit (s.rg Adr.TIME_SRC_CFG) 2

/-- A write of SET_HI: the pending set, due 1 µs later unless PPS_IN sets the instant (R36). -/
def State.writeTimeSet (src : Source) (v : Word) (s : State) : State :=
  let s := s.commitPair src Adr.TIME_SET_LO v
  s.modTime fun t => { t with set := some (s.rg64 Adr.TIME_SET_LO, s.ns + 1000) }

/-- TIME_SET_WRITE (R36). -/
def execTimeSetWrite (src : Source) (val : Word) (s : State) : Host.Outcome State Fault Refusal :=
  .next (s.guarded src Adr.TIME_SET_HI .rw (·.writeTimeSet src val))

/-- The pending set is judged at this instant (R36). -/
def State.judgeSet (v : Nat) (s : State) : State :=
  let s := s.modTime fun t => { t with set := none }
  let d : Int := (v : Int) - s.ns
  if bit (s.rg Adr.TIME_CTRL) 0 ∧ (d < 0 ∨ 1000 * (s.rf Adr.TIME_STEP_LIMIT 19 0 : Int) ≤ d) then
    s.raise Err.time_STEP_REFUSED 0 [] none
  else s.stepTime (nsTime v)

/-- TIME_SET_EFFECT (R36): 1 µs after the write, where no PPS_IN edge is awaited. -/
def execTimeSetEffect (s : State) : Host.Outcome State Fault Refusal :=
  .next (match s.time.set with
    | some (v, due) => if !s.ppsPhase && decide (due ≤ s.ns) && s.live then s.judgeSet v else s
    | none => s)

/-! ### Grandmaster election (R32, R33) -/

/-- The lower pair is better; priority first. -/
def pairLt (a b : Nat × Nat) : Bool := decide (a.1 < b.1) || (a.1 == b.1 && decide (a.2 < b.2))

/-- The Ikion's own candidate pair. -/
def State.ownGm (s : State) : Nat × Nat := (s.rf Adr.TIME_GM_CFG 7 0, s.serial)
def State.gmEligible (s : State) : Bool := bit (s.rg Adr.TIME_GM_CFG) 8

/-- The best candidate the Ikion knows. -/
def State.knownGm (s : State) : Option (Nat × Nat) :=
  match s.time.best, s.gmEligible with
  | some b, true => some (if pairLt b s.ownGm then b else s.ownGm)
  | some b, false => some b
  | none, true => some s.ownGm
  | none, false => none

/-- The current grandmaster: itself in CLAIM and GM, the best recorded in FOLLOW. -/
def State.curGm (s : State) : Option (Nat × Nat) :=
  match s.time.gm with
  | .claim | .gm => some s.ownGm
  | .follow => s.time.best
  | .listen | .backoff => none

/-- Steps removed from the grandmaster. -/
def State.gmSteps (s : State) : Nat := if s.time.gm = .follow then s.time.steps else 0

def State.portTime (s : State) (p : Nat) : PortTime := s.time.ports.get p
def State.modPortTime (p : Nat) (f : PortTime → PortTime) (s : State) : State :=
  s.modTime fun t => { t with ports := t.ports.modify p f }

/-- A beacon's 32 bytes (Table 2-2), from its type, sequence number and origin time in 2^-16 ns. -/
def State.beaconBody (s : State) (ty seq origin : Nat) : List Byte :=
  let g := (s.curGm).getD (0, 0)
  leBytes 32 (ty * 2 ^ 4 + s.gmSteps * 2 ^ 8 + seq % 2 ^ 16 * 2 ^ 16 + origin / 2 ^ 16 % 2 ^ 64 * 2 ^ 32
    + origin % 2 ^ 16 * 2 ^ 96 + g.1 * 2 ^ 112 + g.2 * 2 ^ 128)

/-- Send a TIME packet out of a port: to the link partner. -/
def State.sendBeacon (p ty seq origin : Nat) (s : State) : State :=
  let die := portDie p
  s.sendToPort die p none (mkPkt 0 0 (s.localEid die) 0xFFFF s.stamp false (s.beaconBody ty seq origin))

/-- An Avber port that carries beacons. -/
def State.beaconPort (s : State) (p : Nat) : Bool :=
  s.live && s.portExists p && s.portMode p == 0 && (s.port p).st == .active

/-- A SYNC beacon: sent while there is a grandmaster to name. -/
def State.sendSync (p : Nat) (s : State) : State :=
  if (s.curGm).isNone then s
  else
    let q := s.portTime p
    (s.sendBeacon p 1 q.seqSync s.t16).modPortTime p fun q => { q with seqSync := (q.seqSync + 1) % 2 ^ 16 }

/-- Announce and two-step Sync on an Ethernet port. -/
def State.sendGptp (p : Nat) (s : State) : State :=
  match s.curGm with
  | some g => ((s.emit (.gptp p (.announce g.1 g.2 s.gmSteps))).emit (.gptp p .sync)).emit
      (.gptp p (.followUp s.t16))
  | none => s

/-- One SYNC at once, in the port's own protocol. -/
def State.extraSync (p : Nat) (s : State) : State :=
  if s.portMode p = 0 then s.sendSync p else s.sendGptp p

/-- Enter LISTEN: what was recorded is forgotten. -/
def State.gmListen (s : State) : State := s.modTime fun t => { t with gm := .listen, best := none }

/-- GM_COLLISION: back off. -/
def State.gmCollision (s : State) : State :=
  (s.modTime fun t => { t with gm := .backoff }).raise Err.time_GM_COLLISION 0 [] none

/-- A beacon or Announce on port `p` names grandmaster `g` (Table 2-4). -/
def State.elect (p : Nat) (g : Nat × Nat) (s : State) : State :=
  if g.2 = s.serial then
    (s.modPortTime p fun q => { q with ignored := true }).raise Err.time_SERIAL_DUP 0 [p] none
  else
    let better := match s.knownGm with
      | some b => pairLt g b
      | none => true
    match s.time.gm, better with
    | .listen, true | .follow, true => s.modTime fun t => { t with gm := .follow, best := some g, upstream := p }
    | .claim, true | .gm, true => s.gmCollision
    | .backoff, true => s.modTime fun t => { t with best := some g }
    | .claim, false | .gm, false => s.extraSync p
    | _, false => s

/-- A write of GM_CFG (R33). -/
def State.writeGmCfg (v : Word) (s : State) : State :=
  let s := s.setRg Adr.TIME_GM_CFG (w32 (bits v 8 0))
  match s.time.gm with
  | .claim => s.gmListen
  | .gm =>
    let still := s.gmEligible && (match s.time.best with
      | some b => !pairLt b s.ownGm
      | none => true)
    if still then s else s.modTime fun t => { t with gm := .backoff }
  | _ => s

/-- GM_CFG_WRITE (R33). -/
def execGmCfgWrite (src : Source) (val : Word) (s : State) : Host.Outcome State Fault Refusal :=
  .next (s.guarded src Adr.TIME_GM_CFG .rwl (·.writeGmCfg val))

/-- UPSTREAM_SILENT (R33): 3 intervals without the upstream. -/
def execUpstreamSilent (s : State) : Host.Outcome State Fault Refusal :=
  .next (if s.time.gm = .follow then
    (s.modTime fun t => { t with holdover := true, locked := false, good := 0 }).gmListen
  else s)

/-- LISTEN_CLAIM_TIMER_END (R33). -/
def execListenClaimTimerEnd (s : State) : Host.Outcome State Fault Refusal :=
  .next (match s.time.gm with
    | .listen =>
      if s.live && s.gmEligible && s.knownGm == some s.ownGm then s.modTime fun t => { t with gm := .claim } else s
    | .claim => s.modTime fun t => { t with gm := .gm, holdover := false }
    | _ => s)

/-- BACKOFF_TIMER_END (R33). -/
def execBackoffTimerEnd (s : State) : Host.Outcome State Fault Refusal :=
  .next (if s.time.gm = .backoff then s.gmListen else s)

/-! ### The servo (R31, R35) -/

/-- One µs in 2^-16 ns. -/
def usec : Int := 1000 * 65536

/-- Slewing leaves INCR within 200 ppm of nominal (R26). -/
def State.slew (s : State) : State :=
  (s.setRg Adr.TIME_INCR (w32 (0xA0000000 - 536870 + s.freeVal % (2 * 536870 + 1)))).takeFree

/-- OFFSET: signed ns, saturating. -/
def offsetWord (o : Int) : Word :=
  let n := o.tdiv 65536
  ofInt 32 (max (-(2 ^ 31 - 1)) (min (2 ^ 31 - 1) n))

/-- A follower has computed its offset `o`, in 2^-16 ns; `full` if a delay exchange completed with it. -/
def State.discipline (o : Int) (full : Bool) (s : State) : State :=
  let s := s.setRg Adr.TIME_OFFSET (offsetWord o)
  let near := o.natAbs ≤ 20 * 65536
  let s := s.modTime fun t =>
    if near then
      let g := if full then min 16 (t.good + 1) else t.good
      { t with good := g, locked := t.locked || g == 16 }
    else { t with good := 0, locked := false }
  if !bit (s.rg Adr.TIME_CTRL) 1 then s
  else if o.natAbs < usec.natAbs then (s.modTime fun t => { t with holdover := false }).slew
  else if !bit (s.rg Adr.TIME_CTRL) 0 || decide (o.natAbs < s.rf Adr.TIME_STEP_LIMIT 19 0 * usec.natAbs) then
    (s.modTime fun t => { t with holdover := false }).stepTime
      (BitVec.ofInt 96 ((s.time.now.toNat : Int) - o * 65536))
  else (s.modTime fun t => { t with holdover := true }).raise Err.time_TIME_DIVERGED 0 [] none

/-- The offset from the last SYNC of the upstream port, once its delay is known (R30). -/
def State.syncOffset (p : Nat) (full : Bool) (s : State) : State :=
  let q := s.portTime p
  if s.time.gm != .follow || s.time.upstream != p then s
  else match q.t1, q.t2, q.delay with
    | some t1, some t2, some d => s.discipline ((t2 : Int) - t1 - d) full
    | _, _, _ => s

/-- The delay of one exchange (R30). -/
def linkDelay (t1 t2 t3 t4 : Nat) : Int := (((t4 : Int) - t1) - ((t3 : Int) - t2)) / 2

/-! ### Beacons (R29, Table 2-2) -/

/-- SYNC_BEACON_SEND (R29): a SYNC and one delay exchange request. -/
def execSyncBeaconSend (p : Nat) (s : State) : Host.Outcome State Fault Refusal :=
  .next (if !s.beaconPort p then s
  else
    let s := s.sendSync p
    let t3 := s.t16
    let q := s.portTime p
    (s.sendBeacon p 2 q.seqReq 0).modPortTime p fun q => { q with
      seqReq := (q.seqReq + 1) % 2 ^ 16, t3 := some t3 })

/-- Beacon fields. -/
structure Beacon where
  ty : Nat
  steps : Nat
  seq : Nat
  origin : Nat
  gm : Nat × Nat
  deriving DecidableEq, Repr

/-- The beacon a TIME packet carries; `none` if it is malformed (Table 2-2, R6). -/
def beaconOf (k : Packet) : Option Beacon :=
  let x := leNat k.body
  if k.len ≠ 48 ∨ k.body.length ≠ 32 ∨ k.spec ≠ 0 ∨ nbits x 3 0 ≠ 0 ∨ nbits x 127 120 ≠ 0 ∨ nbits x 255 192 ≠ 0
    ∨ nbits x 7 4 = 0 ∨ 3 < nbits x 7 4 ∨ (nbits x 7 4 = 2 ∧ nbits x 111 32 ≠ 0) then none
  else some ⟨nbits x 7 4, nbits x 15 8, nbits x 31 16, nbits x 95 32 * 2 ^ 16 + nbits x 111 96,
    (nbits x 119 112, nbits x 191 128)⟩

/-- The last sequence number accepted of a beacon type. -/
def PortTime.last (q : PortTime) : Nat → Option Nat
  | 1 => q.lastSync | 2 => q.lastReq | _ => q.lastRsp

def PortTime.setLast (q : PortTime) (ty seq : Nat) : PortTime :=
  match ty with
  | 1 => { q with lastSync := some seq }
  | 2 => { q with lastReq := some seq }
  | _ => { q with lastRsp := some seq }

/-- Take a beacon of type `ty` that was delivered at port `p` and act on it, if it is well-formed, its port
is not ignored, Avber beacons are an eligible source, and its SEQ is newer (Table 2-11). -/
def State.beaconRx (p ty : Nat) (pkt : Packet) (act : Beacon → State → State) (s0 : State) : State :=
  let (c, s) := s0.takeLocal p pkt
  if c.isNone || p ≥ 512 || pkt.cls != 0 then s0
  else match beaconOf pkt with
    | none => s.freeLocal c
    | some b =>
      if b.ty ≠ ty then s0
      else
        let s := s.freeLocal c
        let q := s.portTime p
        if q.ignored || !bit (s.rg Adr.TIME_SRC_CFG) 1 then s
        else if (match q.last ty with
          | some l => !newer b.seq l 16
          | none => false) then s.raise Err.time_BEACON_DUP 0 [] none
        else act b (s.modPortTime p fun q => q.setLast ty b.seq)

/-- SYNC_RX (R30, R33). -/
def execSyncRx (p : Nat) (pkt : Packet) (s : State) : Host.Outcome State Fault Refusal :=
  .next (s.beaconRx p 1 pkt fun b s =>
    if 16 ≤ b.steps then s
    else
      let s := s.elect p b.gm
      if (s.portTime p).ignored then s
      else
        let t2 := s.t16
        let s := s.modPortTime p fun q => { q with t1 := some b.origin, t2 := some t2 }
        let s := if s.time.gm = .follow ∧ s.time.upstream = p then
          s.modTime fun t => { t with steps := b.steps + 1 } else s
        s.syncOffset p false)

/-- DELAY_REQ_RX (R29): answered with the time at which it arrived. -/
def execDelayReqRx (p : Nat) (pkt : Packet) (s : State) : Host.Outcome State Fault Refusal :=
  .next (s.beaconRx p 2 pkt fun b s => s.sendBeacon p 3 b.seq s.t16)

/-- DELAY_RSP_RX (R30): the answer to the last request completes the four timestamps. -/
def execDelayRspRx (p : Nat) (pkt : Packet) (s : State) : Host.Outcome State Fault Refusal :=
  .next (s.beaconRx p 3 pkt fun b s =>
    let q := s.portTime p
    match q.t1, q.t2, q.t3 with
    | some t1, some t2, some t3 =>
      if (b.seq + 1) % 2 ^ 16 ≠ q.seqReq then s
      else
        let s := s.modPortTime p fun q => { q with delay := some (linkDelay t1 t2 t3 b.origin), t3 := none }
        s.syncOffset p true
    | _, _, _ => s)

/-! ### IEEE 802.1AS (Table 2-1, R32) -/

/-- An Ethernet port that takes part in 802.1AS. -/
def State.gptpPort (s : State) (p : Nat) : Bool :=
  s.live && s.portExists p && s.portMode p == 1 && (s.port p).st == .active && bit (s.rg Adr.TIME_SRC_CFG) 3

/-- A Sync with its origin time has been received. -/
def State.gptpSync (p origin t2 : Nat) (s : State) : State :=
  (s.modPortTime p fun q => { q with t1 := some origin, t2 := some t2, gSync := none }).syncOffset p true

/-- GPTP_MESSAGE_RX (R32). -/
def execGptpMessageRx (p : Nat) (msg : Gptp) (s : State) : Host.Outcome State Fault Refusal :=
  .next (if !s.gptpPort p || (s.portTime p).ignored then s
  else
    let t := s.t16
    match msg with
    | .announce prio clock steps =>
      if 16 ≤ steps then s
      else
        let s := s.elect p (prio, clock)
        if s.time.gm = .follow ∧ s.time.upstream = p then s.modTime fun t => { t with steps := steps + 1 } else s
    | .syncOneStep origin => s.gptpSync p origin t
    | .sync => s.modPortTime p fun q => { q with gSync := some t }
    | .followUp origin =>
      match (s.portTime p).gSync with
      | some t2 => s.gptpSync p origin t2
      | none => s
    | .pdelayReq => (s.emit (.gptp p (.pdelayResp t))).emit (.gptp p (.pdelayRespFollowUp t))
    | .pdelayResp t2 => s.modPortTime p fun q => { q with gResp := some (t2, t) }
    | .pdelayRespFollowUp t3 =>
      let q := s.portTime p
      match q.gReq, q.gResp with
      | some t1, some (t2, t4) => s.modPortTime p fun q => { q with
          delay := some (linkDelay t1 t2 t3 t4), gReq := none, gResp := none }
      | _, _ => s)

/-- GPTP_MESSAGE_SEND (R32): two-step Sync, Announce, and a peer delay request. -/
def execGptpMessageSend (p : Nat) (s : State) : Host.Outcome State Fault Refusal :=
  .next (if !s.gptpPort p then s
  else
    let s := s.sendGptp p
    let t := s.t16
    (s.emit (.gptp p .pdelayReq)).modPortTime p fun q => { q with gReq := some t, gResp := none })

/-! ### PPS and the reference (R34) -/

/-- The nearest whole second, in ns; which of two equally near ones is open. -/
def State.nearestSecond (s : State) : Nat :=
  let f := bits s.time.now 95 0 % (10 ^ 9 * 2 ^ 32)
  let sec := s.ns / 10 ^ 9
  let half := 10 ^ 9 * 2 ^ 31
  10 ^ 9 * (if f < half ∨ (f = half ∧ s.freeVal % 2 = 0) then sec else sec + 1)

/-- PPS_IN_EDGE (R34, R36): captured; at a grandmaster with PPS_EN it aligns fabric time or brings a pending
set into effect. -/
def execPpsInEdge (s : State) : Host.Outcome State Fault Refusal :=
  .next (if !s.live then s
  else
    let s := s.setRg64 Adr.TIME_PPS_CAPT_LO s.ns
    if !s.ppsPhase then s
    else
      let s := s.modTime fun t => { t with ppsLost := false }
      match s.time.set with
      | some (v, _) => s.judgeSet v
      | none => (s.stepTime (nsTime s.nearestSecond)).takeFree)

/-- PPS_LOST (R34): no edge for 2 s. -/
def execPpsLost (s : State) : Host.Outcome State Fault Refusal :=
  .next (if s.live && s.ppsPhase then
    (s.modTime fun t => { t with ppsLost := true }).raise Err.time_PPS_LOST 0 [] none
  else s)

/-- REF_LOST (R34): TREF_10M is absent at a grandmaster that may use it. -/
def execRefLost (s : State) : Host.Outcome State Fault Refusal :=
  .next (if s.live && s.time.gm == .gm && bit (s.rg Adr.TIME_SRC_CFG) 0 then
    (s.modTime fun t => { t with refLost := true }).raise Err.time_REF_LOST 0 [] none
  else s)

/-- PPS_OUT_RISE (R34): at a whole second of the Ikion's own fabric time. -/
def execPpsOutRise (s : State) : Host.Outcome State Fault Refusal :=
  .next (if !s.live || s.rf Adr.TIME_CTRL 15 8 = 0 || s.ns / 10 ^ 9 = s.time.ppsSec then s
  else (s.modTime fun t => { t with
      ppsSec := s.ns / 10 ^ 9, ppsOut := some (s.ns + 1000 * s.rf Adr.TIME_CTRL 15 8) }).emit .ppsRise)

end Sys2Proof.Machine
end

