-- ==== Sys2Proof/Machine/Tables.lean ====
section
/-! DEFINITION. Switching timetables (R42, R43) and their entry boundaries (R41, R37). -/

set_option Elab.async false

namespace Sys2Proof.Machine
open Sys2Proof

def State.modTable (p : Nat) (f : Timetable → Timetable) (s : State) : State :=
  s.modTime fun t => { t with tt := t.tt.modify p f }

/-- Refuse with a REJECT code; the rest stays (Table 2-10). -/
def State.ttReject (p c : Nat) (s : State) : State := s.setRf (Adr.PORT_TT_STATUS p) 7 4 c

/-- Writes refused while a switch is pending (R43). -/
def State.ttBusy (p : Nat) (act : State → State) (s : State) : State :=
  if (s.timetable p).pend.isSome then (s.ttReject p 7).refuse else act s

/-- A write of TT_DATA_HI stores the shadow entry (R42). -/
def State.writeTtData (src : Source) (p : Nat) (v : Word) (s : State) : State :=
  s.ttBusy p fun s =>
    let k := s.rf (Adr.PORT_TT_ADDR p) 9 0
    let s := s.commitPair src (Adr.PORT_TT_DATA_LO p) v
    let e := BitVec.ofNat 64 (s.rg64 (Adr.PORT_TT_DATA_LO p))
    (s.modTable p fun t => { t with shadow := t.shadow.set k e }).setRg (Adr.PORT_TT_ADDR p) (w32 ((k + 1) % 1024))

/-- TT_DATA_HI_WRITE (R42). -/
def execTtDataHiWrite (src : Source) (p : Nat) (val : Word) (s : State) : Host.Outcome State Fault Refusal :=
  .next (if p < 512 then s.guarded src (Adr.PORT_TT_DATA_HI p) .rw (·.writeTtData src p val) else s)

/-- The lowest REJECT code that applies to a list of `n` entries (Table 2-10, R41). -/
def ttCheck (n cycle base : Nat) (l : List (BitVec 64)) : Nat :=
  let sized := decide (1 ≤ n) && decide (n ≤ 1024)
  if cycle % 8 ≠ 0 ∨ cycle < 1000 ∨ 1000000000 < cycle then 1
  else if sized && decide (8 * (l.map ttDur).sum ≠ cycle) then 2
  else if sized && l.any fun e => ttDur e == 0 then 3
  else if sized && l.any fun e => decide (2 ≤ ttOp e) then 4
  else if sized && l.any fun e => bits e 49 35 != 0 || (ttOp e == 0 && ttSheaf e != 0) then 5
  else if !sized then 6
  else if base % 8 ≠ 0 then 8
  else 0

/-- The earliest TT_BASE + c × TT_CYCLE, c ≥ 0, that is at least 2 µs after time `t` (R42). -/
def switchTime (base cycle t : Nat) : Nat :=
  if t + 2000 ≤ base then base else base + ceilDiv (t + 2000 - base) cycle * cycle

/-- COMMIT (R42). -/
def State.ttCommit (p : Nat) (s : State) : State :=
  s.ttBusy p fun s =>
    let n := s.rf (Adr.PORT_TT_LEN p) 10 0
    let cycle := (s.rg (Adr.PORT_TT_CYCLE p)).toNat
    let base := s.rg64 (Adr.PORT_TT_BASE_LO p)
    let l := if n ≤ 1024 then (s.timetable p).shadowList n else []
    let c := ttCheck n cycle base l
    let s := s.ttReject p c
    if c ≠ 0 then s
    else
      let t := switchTime base cycle (ceilDiv s.time.now.toNat (2 ^ 32))
      (s.modTable p fun x => { x with pend := some t }).setRg64 (Adr.PORT_TT_SWITCH_LO p) t

/-- CANCEL, written before T (R43). -/
def State.ttCancel (p : Nat) (s : State) : State :=
  match (s.timetable p).pend with
  | some t => if s.ns < t then s.modTable p fun x => { x with pend := none } else s
  | none => s

/-- Put the entry of this instant into force. -/
def State.ttEnter (p : Nat) (s : State) : State :=
  s.modTable p fun x =>
    let (k, e) := x.plainAt s.ns
    { x with idx := k, ends := e, held := false, judged := false }

/-- A write of TT_CTRL (Table 2-10): the fields, then CANCEL, then COMMIT. -/
def State.putTtCtrl (p : Nat) (v : Word) (s : State) : State :=
  let was := s.ttActive p
  let s := s.setRg (Adr.PORT_TT_CTRL p) (v &&& 0x00FF0701)
  let s := if !was && s.ttActive p then s.ttEnter p else s
  let s := if bit v 30 then s.ttCancel p else s
  if bit v 31 then s.ttCommit p else s

/-- A write of TT_CTRL. A COMMIT while a switch stays pending is refused, and nothing of the write takes effect (R43). -/
def State.writeTtCtrl (p : Nat) (v : Word) (s : State) : State :=
  if bit v 31 && ((if bit v 30 then s.ttCancel p else s).timetable p).pend.isSome then s.ttCommit p else s.putTtCtrl p v

/-- TT_COMMIT (R42). -/
def execTtCommit (src : Source) (p : Nat) (val : Word) (s : State) : Host.Outcome State Fault Refusal :=
  .next (if p < 512 && bit val 31 then s.guarded src (Adr.PORT_TT_CTRL p) .rw (·.writeTtCtrl p val) else s)

/-- TT_CANCEL (R43). -/
def execTtCancel (src : Source) (p : Nat) (val : Word) (s : State) : Host.Outcome State Fault Refusal :=
  .next (if p < 512 && bit val 30 then s.guarded src (Adr.PORT_TT_CTRL p) .rw (·.writeTtCtrl p val) else s)

/-- The window of the entry in force closes. -/
def State.ttClose (p : Nat) (s : State) : State :=
  let x := s.timetable p
  let e := x.oper.getD x.idx 0
  if ttOp e = 1 ∧ x.judged = false then s.windowEnd p (ttSheaf e) false else s

/-- TT_SWITCH (R42): at T the shadow list becomes the operating list; an entry in which T falls ends at T. -/
def execTtSwitch (p : Nat) (s : State) : Host.Outcome State Fault Refusal :=
  .next (match (s.timetable p).pend with
    | none => s
    | some t =>
      if s.ns < t then s
      else
        let x := s.timetable p
        let old := x.oper.getD x.idx 0
        let s := if s.ttActive p && (x.held || decide (x.ends < t + 8 * ttDur old)) then s.ttClose p else s
        let s := s.modTable p fun x => { x with
          oper := x.shadowList (s.rf (Adr.PORT_TT_LEN p) 10 0), cycle := (s.rg (Adr.PORT_TT_CYCLE p)).toNat
          base := s.rg64 (Adr.PORT_TT_BASE_LO p), pend := none }
        let s := s.ttEnter p
        if s.ttActive p then
          s.bump (Adr.PORT_TT_OVERRUN p) (s.overrunBy p ((s.timetable p).oper.getD (s.timetable p).idx 0))
        else s)

/-- TT_ENTRY_BOUNDARY (R41): the entry in force ends and the next one opens. After a step of time the list
realigns here, and a transmission whose gate closes is counted (R37, R46). -/
def execTtEntryBoundary (p : Nat) (s : State) : Host.Outcome State Fault Refusal :=
  .next (let x := s.timetable p
  if !s.ttActive p || decide (s.ns < x.ends) then s
  else
    let s := s.ttClose p
    let s := s.modTable p fun x =>
      let (k, e) := x.plainAt x.ends
      { x with idx := k, ends := e, held := false, judged := false }
    if x.held then
      s.bump (Adr.PORT_TT_OVERRUN p) (s.overrunBy p ((s.timetable p).oper.getD (s.timetable p).idx 0))
    else s)

end Sys2Proof.Machine
end

