-- ==== Sys2Proof/Machine/Window.lean ====
section
/-! DEFINITION. Reaching the barn: the host's barn window (R497) with its refusals (R398), and BWIN (R498). -/

set_option Elab.async false

namespace Sys2Proof.Machine
open Sys2Proof

/-- Regions that the barn window refuses in SEALED mode; the last ones only to writes (R398). -/
def State.hiddenRegions (s : State) (write : Bool) : List (Nat × Nat) :=
  (if s.tierOn then [(s.rg64 Adr.TIER_CACHE_BASE_LO, 2 ^ (s.tierK + 20))] else [])
    ++ (s.exd.active.flatMap fun e => if s.layerOn e.1 then (s.layerRegions e.1).drop 1 else [])
    ++ (s.shv.sheaves.flatMap fun e =>
      if e.2.st == .free then []
      else
        let c := s.shCfgOf e.1
        (if c.f 703 640 = 0 then [] else [(c.f 703 640, c.refBytes)])
          ++ (if c.f 981 980 = 2 then [(c.f 639 576, 4 * c.len)] else []))
    ++ (if write then s.ttu.jobs.flatMap fun e =>
        if e.2 == .free then [] else [(s.rg64 (Adr.JOB_MEMBER_BASE_LO e.1), 8192)] else [])

/-- An access to `n` bytes from `a` is refused (R398). -/
def State.windowRefused (s : State) (a n : Nat) (write : Bool) : Bool :=
  s.sec.mode == .sealed && (s.hiddenRegions write).any (meet (a, n))

/-- BARN_WIN_REFUSED. -/
def State.countRefused (s : State) : State :=
  (s.bump Adr.SEC_BARN_WIN_REFUSED 1).raise Err.sec_BARN_WIN_REFUSED 0 [] none

/-- A byte as completion data: the byte, and whether its line is poisoned. -/
def State.windowByte (s : State) (a : Nat) : Byte × Bool :=
  if a < barnSize then (s.barn a, s.poisoned (a / 64)) else (0, false)

/-- BARN_WINDOW_READ (R497). -/
def execBarnWindowRead (addr n : Nat) (s : State) : Host.Outcome State Fault Refusal :=
  let zeros := Emit.windowData (List.replicate n (0, false))
  .next (if !s.live || !s.barnOn then s.emit zeros
  else if s.windowRefused addr n false then s.countRefused.emit zeros
  else s.emit (.windowData ((List.range n).map fun i => s.windowByte (addr + i))))

/-- BARN_WINDOW_WRITE (R497): offsets from 288 GiB on are ignored. -/
def execBarnWindowWrite (addr : Nat) (data : List Byte) (s : State) : Host.Outcome State Fault Refusal :=
  .next (if !s.live || !s.barnOn then s
  else if s.windowRefused addr data.length true then s.countRefused
  else s.storeMarked addr (data.take (barnSize - addr)) false)

/-! ### BWIN (R498) -/

/-- The 256 bytes of DATA. -/
def State.bwinData (s : State) : List Byte := (List.range 64).flatMap fun i => leBytes 4 (s.rg (Adr.BWIN_DATA i)).toNat

/-- Set DATA. -/
def State.setBwinData (bs : List Byte) (s : State) : State :=
  (List.range 64).foldl (fun s i => s.setRg (Adr.BWIN_DATA i) (w32 (leNat ((bs.drop (4 * i)).take 4)))) s

/-- STATUS after a command. -/
def State.bwinDone (poison : Bool) (r : Nat) (s : State) : State :=
  s.setRg Adr.BWIN_STATUS (w32 (b2n poison * 2 ^ 8 + r))

/-- A write of CMD with GO. -/
def State.bwinCmd (v : Word) (s : State) : State :=
  let a := s.rg64 Adr.BWIN_ADDR_LO
  let n := bits v 8 0
  let write := bit v 24
  if !bit v 31 then s
  else if n = 0 ∨ 256 < n then s.bwinDone false 1
  else if !s.barnOn ∨ barnSize < a + n then s.bwinDone false 2
  else if s.windowRefused a n write then s.countRefused.bwinDone false 2
  else
    let s := if write then (s.storeMarked a (s.bwinData.take n) false).bwinDone false 0
      else
        let poison := (linesOf a n).any s.poisoned
        (s.setBwinData (s.barnBytes a n ++ s.bwinData.drop n)).bwinDone poison 0
    s.setRg64 Adr.BWIN_ADDR_LO (a + n)

/-- BWIN_READ (R498). -/
def execBwinRead (src : Source) (val : Word) (s : State) : Host.Outcome State Fault Refusal :=
  .next (if bit val 24 then s else s.guarded src Adr.BWIN_CMD .wo (·.bwinCmd val))

/-- BWIN_WRITE (R498). -/
def execBwinWrite (src : Source) (val : Word) (s : State) : Host.Outcome State Fault Refusal :=
  .next (if bit val 24 then s.guarded src Adr.BWIN_CMD .wo (·.bwinCmd val) else s)

end Sys2Proof.Machine
end

