-- ==== Sys2Proof/Machine/RegView.lean ====
section
/-! DEFINITION. What registers and tables read as: the page header (Tables 19-2 and 19-3), status registers whose
value the units hold, 64-bit counters, and the table windows (Table 19-7). -/

set_option Elab.async false

namespace Sys2Proof.Machine
open Sys2Proof

/-- A word of fields: values and their lowest bits. -/
def packed (l : List (Nat × Nat)) : Word := w32 ((l.map fun e => e.1 * 2 ^ e.2).sum)

/-- A word of single bits. -/
def bitMap (f : Nat → Bool) : Word := w32 (((List.range 32).map fun i => b2n (f i) * 2 ^ i).sum)

/-! ### States as numbers -/

def gmStNo : GmState → Nat
  | .listen => 0 | .claim => 1 | .gm => 2 | .follow => 3 | .backoff => 4
def linkStNo : LinkState → Nat
  | .off => 0 | .detect => 1 | .equalise => 2 | .param => 3 | .credit => 4 | .active => 5 | .retrain => 6 | .fenced => 7
def pStNo : PState → Nat
  | .starting => 0 | .run => 1 | .reduced => 2 | .saving => 3 | .saved => 4 | .halted => 5
def modeNo : SecMode → Nat
  | .shared => 0 | .sealing => 1 | .sealed => 2 | .unsealing => 3
def chainStNo : ChainState → Nat
  | .off => 0 | .listen => 1 | .claim => 2 | .backoff => 3 | .enumerating => 4 | .lead => 5 | .follower => 6
def granStNo : GranSt → Nat
  | .off => 0 | .formatting => 1 | .restoring => 2 | .ready => 3 | .readOnly => 4 | .failed => 5
def poolStNo : PoolSt → Nat
  | .off => 0 | .init => 1 | .ready => 2 | .failed => 3
def shfStNo : ShfSt → Nat
  | .free => 0 | .idle => 1 | .running => 2 | .aborted => 3

/-! ### The header (Tables 19-2, 19-3) -/

/-- BLOCK_ID to STATUS of a page: they are not stored. -/
def State.headView (s : State) (k : PageKind) (i o : Nat) : Option Word :=
  match o with
  | 0x00 => some (packed [(0x8512, 16), (if k = .vf then 0xF000 else nbits (pageBase k) 27 12, 0)])
  | 0x04 => some 0x000100A2#32
  | 0x08 => some (packed [(if s.chain.placed then s.chain.pos else 0, 16), (i, 0)])
  | 0x0C => some (w32 (if k = .vf then 1024 else pageCount k))
  | 0x14 => some (packed [(1, 0), (b2n (s.rg (adr k i Adr.H_ERR_STATUS) != 0), 1), (b2n (s.locked k i), 2)])
  | _ => none

/-! ### Status registers, page by page -/

def State.pwrView (s : State) (o : Nat) : Option Word :=
  match o with
  | 0x104 => some (packed [(b2n (s.pwr.turning.isSome || s.pwr.warm), 31), (s.rf Adr.PWR_CMD_STATUS 3 0, 0)])
  | 0x108 => some (bitMap s.domOn)
  | 0x10C => some (packed [(pStNo s.pwr.pstate, 29), (s.pwr.lastReset, 24), (b2n s.pwr.cref, 9), (b2n s.pwr.pwrFail, 8)])
  | 0x110 => some (packed [(s.pwr.vholdMin.getD s.pwr.vhold, 16), (s.pwr.vhold, 0)])
  | _ => none

def State.timeView (s : State) (o : Nat) : Option Word :=
  let g := s.curGm.getD (0, 0)
  match o with
  | 0x100 => some (lo32 s.ns)
  | 0x104 => some (hi32 s.ns)
  | 0x108 => some (w32 (s.t16 % 2 ^ 16))
  | 0x130 => some (lo32 g.2)
  | 0x134 => some (hi32 g.2)
  | 0x138 => some (packed [(g.1, 24), (s.gmSteps, 16), (s.time.upstream, 7), (b2n s.time.holdover, 6),
      (b2n s.time.locked, 5), (gmStNo s.time.gm, 0)])
  | _ => none

/-- The scrub's progress is open while it runs (log entry 5). -/
def State.secView (s : State) (o : Nat) : Option Word :=
  match o with
  | 0x104 => some (packed [(b2n s.sec.busy, 31), (s.sec.dbg, 24), (modeNo s.sec.mode, 16), (s.imageNo, 8),
      (s.rf Adr.SEC_STATUS 3 0, 0)])
  | 0x10C => if s.sec.mode = .sealing ∨ s.sec.mode = .unsealing then some (w32 (s.freeVal % 1001)) else none
  | 0x150 => some (w32 (s.sec.keys.countP fun _ k => k.isSome))
  | 0x154 => some (w32 (s.sec.binds.countP fun _ b => b.isSome))
  | 0x158 => if s.isSealed then some 0 else none
  | _ => none

def State.hostpView (s : State) (o : Nat) : Option Word :=
  match o with
  | 0x104 => some (w32 s.hostTagLimit)
  | 0x108 => some (w32 (s.hostTagLimit - s.host.tags.countP fun _ t => t.isSome))
  | 0x10C => some (w32 (s.host.tags.countP fun _ t => t.any (·.quar)))
  | _ => none

def State.chainView (s : State) (o : Nat) : Option Word :=
  let c := s.chain
  match o with
  | 0x10C => some (packed [(chainStNo c.st, 29), (b2n c.ring, 27), (b2n c.upA, 26), (b2n c.upB, 25), (b2n c.placed, 24),
      (c.pos, 16), (c.count, 8), (if c.ring then 0 else c.split, 0)])
  | _ => none

def State.faultView (s : State) (o : Nat) : Option Word :=
  let g := fun n => s.flt.groups.get n
  match o with
  | 0x104 => some (packed [(b2n s.flt.devFatal, 31)])
  | 0x118 => some (bitMap fun i => g i != .open_)
  | 0x11C => some (bitMap fun i => g (32 + i) != .open_)
  | 0x120 => some (bitMap fun i => g i == .electrical)
  | 0x124 => some (bitMap fun i => g (32 + i) == .electrical)
  | 0x158 => some (packed [(b2n s.flt.running, 31), (s.rf Adr.FAULT_AUDIT_STATUS 12 1, 1)])
  | _ => none

/-- Cells of a traffic class queued at a port (DEPTH). -/
def State.depthOf (s : State) (p tc : Nat) : Nat :=
  s.sw.queues.foldr (fun q n => if q.egress = p ∧ q.tc = tc then n + cellsOf q.len else n) 0

def State.portView (s : State) (p o : Nat) : Option Word :=
  let q := s.port p
  match o with
  | 0x104 => some (packed [(linkStNo q.st, 29), (b2n q.halt, 28), (q.fec, 26), (s.widthCode p, 23), (b2n (s.llOk p), 22)])
  | 0x220 => some (w32 (s.txShared p))
  | 0x404 =>
    let t := s.timetable p
    some (packed [(if s.ttActive p then t.idx else 0, 16), (s.rf (Adr.PORT_TT_STATUS p) 7 4, 4), (b2n t.pend.isSome, 1),
      (b2n (s.ttActive p), 0)])
  | 0x438 => some (lo32 (s.cnt (Adr.PORT_TT_OVERRUN p)).toNat)
  | 0x558 => some (bitMap fun i => if i < 8 then (q.pfc.get i).paused else if i < 16 then (q.pfc.get (i - 8)).sent else false)
  | 0x60C => some (packed [(b2n q.cxlCfg, 3), (s.rf (Adr.PORT_CXL_CFG_STATUS p) 2 1, 1)])
  | _ =>
    if inArr o 0x744 16 9 then some (ofInt 32 ((s.shaper p ((o - 0x744) / 16)).bal / 128))
    else if inArr o 0x8E0 4 8 then some (w32 (s.depthOf p ((o - 0x8E0) / 4)))
    else none

/-- Cells of a die that no budget holds (UNALLOCATED). -/
def State.budgets (s : State) (d : Nat) : Nat := ((List.range 32).map fun j => s.rf (Adr.SWCORE_OCT_BUDGET d j) 19 0).sum

def State.swcoreView (s : State) (d o : Nat) : Option Word :=
  match o with
  | 0x194 => some (w32 (dieCells - s.sw.held.get d))
  | 0x198 => some (w32 (s.sw.engine.get d))
  | 0x19C => some (w32 (dieCells - s.budgets d - s.rf (Adr.SWCORE_ENGINE_CELLS d) 19 0))
  | _ => none

def State.ttuView (s : State) (d o : Nat) : Option Word :=
  match o with
  | 0x104 => some (w32 (s.tagFree d))
  | 0x108 => some (w32 (s.tagQuar d))
  | _ => none

def State.homeView (s : State) (d o : Nat) : Option Word :=
  match o with
  | 0x100 => some (w32 (s.trkFree d))
  | 0x104 => some (w32 (s.recallFree d))
  | _ => none

def State.extView (s : State) (o : Nat) : Option Word :=
  match o with
  | 0x140 => some (packed [(b2n s.ext.drain.isSome, 31), (b2n !s.ext.pend.isEmpty, 30), (b2n s.ext.g, 0)])
  | 0x144 => some (packed [(s.infl 1 !s.ext.g, 16), (s.infl 0 !s.ext.g, 0)])
  | 0x148 => some (w32 (s.ext.exts.countP fun _ x => x.st != .free))
  | 0x14C => some (w32 (s.ext.leases.countP fun _ l => l.valid))
  | _ => none

def State.sheafView (s : State) (d o : Nat) : Option Word :=
  match o with
  | 0x110 => some (w32 (s.shv.sheaves.countP fun k x => shDie k == d && x.st != .free))
  | 0x114 => some (match s.ctrEvents d with
    | [] => 0
    | c :: _ => w32 (2 ^ 31 + c))
  | _ => none

def State.exdView (s : State) (o : Nat) : Option Word :=
  match o with
  | 0x10C => some (w32 (s.exd.active.countP fun _ b => b))
  | 0x110 => some (w32 (s.cmbFree 0))
  | 0x114 => some (w32 (s.cmbFree 1))
  | _ => none

def State.domView (s : State) (k o : Nat) : Option Word :=
  match o with
  | 0x104 => some (packed [(s.rf (Adr.DOM_STATUS k) 11 8, 8), (domStNo (s.dom k), 0)])
  | 0x124 => some (w32 (s.trkUsed k))
  | 0x12C => some (w32 (s.dirEntries k).length)
  | _ => none

def State.tileView (s : State) (t o : Nat) : Option Word :=
  let free (b : Nat) : Nat := 4096 - s.tile.binders.get (4 * t + b)
  match o with
  | 0x104 => some (packed [(s.rf (Adr.TILE_CTRL t) 0 0, 31), (s.rf (Adr.TILE_STATUS t) 3 0, 0)])
  | 0x114 => some (w32 (768 - ((s.hlWins t).map fun w => w.2.2).sum))
  | 0x118 => some (w32 (s.dqUsed t))
  | 0x11C => some (packed [(free 1, 16), (free 0, 0)])
  | 0x120 => some (packed [(free 3, 16), (free 2, 0)])
  | _ => none

def State.kvpoolView (s : State) (p o : Nat) : Option Word :=
  let x := s.pool p
  match o with
  | 0x104 => some (packed [(s.rf (Adr.KVPOOL_STATUS p) 11 8, 8), (poolStNo x.st, 0)])
  | 0x178 => some (w32 x.free)
  | 0x17C => some (w32 x.live)
  | 0x180 => some (w32 x.deferred)
  | 0x184 => some (w32 x.freeTbl)
  | 0x188 => some (w32 x.freeSwap)
  | _ => none

def State.kvseqView (s : State) (o : Nat) : Option Word :=
  match o with
  | 0x118 => some (w32 (s.kv.seqs.countP fun _ q => q.isSome))
  | 0x11C => some (packed [(b2n s.kv.flip, 31), (b2n s.kv.epoch, 0)])
  | _ => none

def State.tierView (s : State) (o : Nat) : Option Word :=
  match o with
  | 0x104 => some (packed [(b2n s.tierOn, 31), (s.rf Adr.TIER_STATUS 3 0, 0)])
  | 0x144 => some (w32 (s.tier.frames.countP fun _ f => f.valid))
  | 0x148 => some (w32 (s.tier.frames.countP fun _ f => f.valid && f.pin))
  | 0x14C => some (w32 (s.tier.frames.countP fun _ f => f.valid && f.stuck))
  | 0x150 => some (packed [(s.tierTags 1, 16), (s.tierTags 0, 0)])
  | _ => none

def State.granView (s : State) (o : Nat) : Option Word :=
  match o with
  | 0x104 => some (packed [(s.rf Adr.GRAN_STATUS 11 8, 8), (granStNo s.gran.st, 0)])
  | 0x14C => if s.gran.st = .off then none
    else some (w32 (((List.range s.granChans).map fun c => (s.chanFree c).length).foldl min 65535))
  | 0x150 => if s.gran.st = .off then none else some (w32 (s.allBlocks.filter fun b => blkSt (s.blk b) == 4).length)
  | _ => none

def State.jobView (s : State) (j o : Nat) : Option Word :=
  match o with
  | 0x108 => some (packed [(s.rf (Adr.JOB_STATUS j) 11 8, 8), (b2n (s.ttu.inval.get j).isSome, 4), (jobStNo (s.job j), 0)])
  | 0x134 => some (w32 (s.tagUsed j))
  | 0x13C => some (w32 (s.queueUsed j))
  | _ => none

/-- The value of the counter that CTR_SEL names; one that SLOT does not own reads as zero (R415). -/
def State.vfCounter (s : State) (f : Nat) : BitVec 64 :=
  let c := s.rf (Adr.VF_CTR_SEL f) 13 0
  let x := s.ctrOf c
  if (s.vfSlot f).any (fun j => x.owned && x.owner == j) && s.ctrOn c then x.value else 0

def State.vfView (s : State) (f o : Nat) : Option Word :=
  match o with
  | 0x100 => some (match s.vfSlot f with
    | some j => packed [(1, 31), (j, 0)]
    | none => 0)
  | 0x118 => some (lo32 (s.vfCounter f).toNat)
  | 0x11C => some (hi32 (s.vfCounter f).toNat)
  | _ => none

/-- A register whose value a unit holds, rather than the register file. -/
def State.unitView (s : State) (k : PageKind) (i o : Nat) : Option Word :=
  match k with
  | .pwr => s.pwrView o
  | .time => s.timeView o
  | .sec => s.secView o
  | .hostp => s.hostpView o
  | .chain => s.chainView o
  | .fault => s.faultView o
  | .obs => if o = 0x118 then some (w32 (b2n s.obs.frozen)) else none
  | .port => s.portView i o
  | .swcore => s.swcoreView i o
  | .ttu => s.ttuView i o
  | .home => s.homeView i o
  | .ext => s.extView o
  | .sheaf => s.sheafView i o
  | .exd => s.exdView o
  | .dom => s.domView i o
  | .tile => s.tileView i o
  | .kvpool => s.kvpoolView i o
  | .kvseq => s.kvseqView o
  | .tier => s.tierView o
  | .gran => s.granView o
  | .job => s.jobView i o
  | .vf => s.vfView i o
  | .ident | .save | .bwin | .fuse | .octet | .carv => none

/-- The 64-bit value behind a LO offset that reads as a counter: a counter of the page, a general counter, a watchpoint
count, or the references of a pool. -/
def State.wide (s : State) (k : PageKind) (i o : Nat) : Option (BitVec 64) :=
  if k = .kvpool ∧ o = 0x190 then some (BitVec.ofNat 64 (s.pool i).refs)
  else if k = .kvpool ∧ o = 0x198 then some (BitVec.ofNat 64 (s.pool i).pteRefs)
  else if isCnt k o || (k == .obs && (inArr o 0x208 16 64 || inArr o 0x618 32 64)) then some (s.cnt (adr k i o))
  else none

/-- What a register reads as in force, at offset `o` of a page that is on; latches and read effects apart. -/
def State.regView (s : State) (k : PageKind) (i o : Nat) : Word :=
  match s.headView k i o, s.unitView k i o with
  | some v, _ => v
  | none, some v => v
  | none, none =>
    match s.wide k i o, (if 4 ≤ o then s.wide k i (o - 4) else none) with
    | some c, _ => lo32 c.toNat
    | none, some c => hi32 c.toNat
    | none, none =>
      match regDesc k o with
      | some d => if d.acc = .wo then 0 else s.rg (adr k i o)
      | none => 0

/-- Whether a LO offset latches its HI word (R490): RO pairs and 64-bit counters. -/
def latches (k : PageKind) (o : Nat) : Bool :=
  (roPairs k).any (fun r => inArr o r.1 r.2.1 r.2.2) || isCnt k o

/-! ### Table windows (Table 19-7) -/

/-- What a window holds: its lines of the table. -/
inductive Win where
  | fwd | groups | sets | eth | masks | pools | agents | exts | leases | regions | legs | wqs | hayl | sheaves | seqs
  | layers | vfs | log
  deriving DecidableEq, Repr

/-- A window: base, entry size in bytes, entries. -/
def winRows : List (Win × Nat × Nat × Nat) := [
  (.fwd, 0x01000000, 8, 65536), (.groups, 0x01080000, 256, 4096), (.sets, 0x01180000, 64, 1024),
  (.eth, 0x01190000, 16, 32768), (.masks, 0x01210000, 64, 256), (.pools, 0x01220000, 16, 256),
  (.agents, 0x01240000, 8, 32768), (.exts, 0x01400000, 32, 262144), (.leases, 0x01C00000, 32, 65536),
  (.regions, 0x01E00000, 64, 16384), (.legs, 0x02000000, 64, 8192), (.wqs, 0x02080000, 32, 4096),
  (.hayl, 0x02100000, 4, 8192), (.sheaves, 0x02200000, 128, 4096), (.seqs, 0x02400000, 64, 262144),
  (.layers, 0x03400000, 128, 256), (.vfs, 0x03480000, 4, 1024), (.log, 0x03500000, 32, 32768)]

/-- The window an address lies in, its entry, and the entry's address and size. -/
def winAt (a : Nat) : Option (Win × Nat × Nat × Nat) :=
  winRows.findSome? fun r =>
    if r.2.1 ≤ a ∧ a < r.2.1 + r.2.2.1 * r.2.2.2 then
      let n := (a - r.2.1) / r.2.2.1
      some (r.1, n, r.2.1 + r.2.2.1 * n, r.2.2.1)
    else none

/-- The domain that holds an entry is on (R437, R494). -/
def State.winOn (s : State) (w : Win) (n : Nat) : Bool :=
  match w with
  | .fwd | .groups | .sets | .eth | .masks | .pools | .agents | .exts | .leases | .regions | .layers => s.pageOn .ext 0
  | .legs => s.pageOn .carv (legDie n)
  | .wqs => s.pageOn .carv (wqDie n)
  | .sheaves => s.pageOn .sheaf (shDie n)
  | .hayl => s.pageOn .tile (n / 1024)
  | .seqs => s.pageOn .kvseq 0 && s.barnOn
  | .vfs => s.pageOn .hostp 0
  | .log => s.live

/-- The RO fields of a sheaf entry (Table 11-1). -/
def Sheaf.word (x : Sheaf) : Nat :=
  shfStNo x.st * 2 ^ 1021 + x.cause * 2 ^ 977 + x.opNext.toNat * 2 ^ 448 + x.resetOp.toNat * 2 ^ 384
    + x.tStart % 2 ^ 64 * 2 ^ 320 + x.done % 2 ^ 24 * 2 ^ 296

/-- An audit log entry (Table 18-7). -/
def LogEntry.word (e : LogEntry) : Nat := leNat e.bytes

/-- Entry `n` of a window as it reads. -/
def State.winEntry (s : State) (w : Win) (n a size : Nat) : Nat :=
  match w with
  | .exts => (s.extent n).word
  | .leases => (s.ext.leases.get n).word
  | .regions => (s.region n).word
  | .legs => s.legWord n
  | .wqs => s.wqWord n
  | .hayl => match s.tile.wins.get n with
    | some (base, len) => 2 ^ 31 + base * 2 ^ 10 + len
    | none => 0
  | .sheaves => s.entry a 32 + (s.sheaf n).word
  | .seqs => s.barnNum (s.seqAt n) 64
  | .layers => s.entry a 32 + b2n (s.exd.active.get n) * 2 ^ 1022
  | .log => (s.flt.log.get n).word
  | .fwd | .groups | .sets | .eth | .masks | .pools | .agents | .vfs => s.entry a (size / 4)

end Sys2Proof.Machine
end

