-- ==== Sys2Proof/Machine/RegRead.lean ====
section
/-! DEFINITION. Reads of the register space: latches and read effects (R490, R492), absent pages (R493), the VF BAR
(Table 16-3), and how many dwords one request reads. -/

set_option Elab.async false

namespace Sys2Proof.Machine
open Sys2Proof

/-- Latch a word for a source (R490). -/
def State.latch (src : Source) (a : Nat) (v : Word) (s : State) : State :=
  s.modHub fun h => { h with latchHi := h.latchHi.set (stageKey src a) (some v) }

/-- A word that an earlier read of the LO word latched, else the live word (R490). -/
def State.latched (s : State) (src : Source) (a : Nat) (live : Word) : Word :=
  (s.hub.latchHi.get (stageKey src a)).getD live

/-- The oldest counter event of a die, which leaves the queue (R288). -/
def State.popEvent (d : Nat) (s : State) : Word × State :=
  match s.ctrEvents d with
  | [] => (0, s)
  | c :: cs =>
    (w32 (2 ^ 31 + c), s.modCtr fun u => if d = 0 then { u with events0 := cs } else { u with events1 := cs })

/-- Read a register of a page that is on and present. -/
def State.readPage (src : Source) (k : PageKind) (i o a : Nat) (s : State) : Word × State :=
  if k = .sheaf ∧ o = 0x114 then s.popEvent i
  else if k = .save ∧ o = 0x124 then (w32 s.rdData.1, s.rdData.2)
  else if k = .pwr ∧ o = 0x110 then (s.regView k i o, s.modPwr fun p => { p with vholdMin := none })
  else if k = .time ∧ o = 0x100 then (s.regView k i o, s.latchNow src)
  else if k = .sec ∧ o = 0x10C then
    (s.regView k i o, if s.sec.mode = .sealing ∨ s.sec.mode = .unsealing then s.takeFree else s)
  else if k = .sec ∧ src = .jtag ∧ s.sec.dbg < 2 ∧ inArr o 0x200 4 64 = true then (0, s)
  else if latches k o then (s.regView k i o, s.latch src (a + 4) (s.regView k i (o + 4)))
  else (s.latched src a (s.regView k i o), s)

/-- Read a dword of the sheaf counters (Table 11-8). -/
def State.readCtr (src : Source) (a : Nat) (s : State) : Word × State :=
  let add := decide (0x00C40000 ≤ a)
  let c := (if add then a - 0x00C40000 else a - 0x00C00000) / 16
  let x := s.ctrOf c
  if !s.ctrOn c then (0, s)
  else match add, a % 16 / 4 with
    | false, 0 => (lo32 x.value.toNat, s.latch src (a + 4) (hi32 x.value.toNat))
    | false, 1 => (s.latched src a (hi32 x.value.toNat), s)
    | false, 2 => (lo32 x.thresh.toNat, s)
    | false, _ => (hi32 x.thresh.toNat, s)
    | true, 0 => (x.add, s)
    | true, 2 => (packed [(b2n x.trig, 31), (b2n x.met, 30), (b2n x.owned, 10), (x.owner, 0)], s)
    | true, _ => (0, s)

/-- Read a dword of a table window. -/
def State.readWin (a : Nat) (s : State) : Word :=
  match winAt a with
  | some (w, n, b, size) =>
    if s.winOn w n then w32 (nbits (s.winEntry w n b size) (8 * (a - b) + 31) (8 * (a - b))) else 0
  | none => 0

/-- Read a dword of the PF register space. -/
def State.readSpace (src : Source) (a : Nat) (s : State) : Word × State :=
  if 0x10000 ≤ a ∧ a < 0x20000 then
    (if src = .chain ∨ s.pageOn .hostp 0 = false then 0 else s.readMsix 0 ((a - 0x10000) / 4), s)
  else if 0x20000 ≤ a ∧ a < 0x20200 then
    (if src = .chain ∨ s.pageOn .hostp 0 = false then 0 else s.readPba 0 ((a - 0x20000) / 4), s)
  else if 0x00C00000 ≤ a ∧ a < 0x00C80000 then s.readCtr src a
  else if 0x01000000 ≤ a then (s.readWin a, s)
  else match pageAt a with
    | some (k, i, o) => if s.pageOn k i && s.present k i then s.readPage src k i o a else (0, s)
    | none => (0, s)

/-- Offset `o` of the job page of a VF: that of the slot it is bound to (R414); the read is latched under `a`. -/
def State.readVfJob (src : Source) (o a : Nat) (slot : Option Nat) (s : State) : Option Word × State :=
  match slot with
  | some j =>
    if s.pageOn .job j then
      let r := s.readPage src .job j o a
      (some r.1, r.2)
    else (some 0, s)
  | none => (some 0, s)

/-- Read a dword of a VF BAR at offset `o` (Table 16-3); none if the request is unsupported (R403). -/
def State.readVf (src : Source) (f o : Nat) (t : Bool) (s : State) : Option Word × State :=
  if !s.pageOn .vf f || !s.vfOn f then (some 0, s)
  else if (s.fn f).tdisp = .run ∧ t = false then (none, s)
  else if o < 0x1000 then
    let r := s.readPage src .vf f o (adr .vf f o)
    (some r.1, r.2)
  else if o < 0x2000 then
    s.readVfJob src (o - 0x1000) (adr .vf f o) (s.vfSlot f)
  else if o < 0x2080 then (some (s.readMsix f ((o - 0x2000) / 4)), s)
  else if 0x3000 ≤ o ∧ o < 0x3008 then (some (s.readPba f ((o - 0x3000) / 4)), s)
  else (some 0, s)

/-- Read a dword. Host addresses from 2^26 on name the VF BARs (RegTable); a warm reset answers the host with all ones
(R439); JTAG reads at DBG1 and DBG2 (Table 15-8). -/
def State.readDword (src : Source) (t : Bool) (a : Nat) (s : State) : Option Word × State :=
  if src = .jtag ∧ s.sec.dbg = 0 then (some 0, s)
  else if s.pwr.warm then (some (if src = .host then 0xFFFFFFFF else 0), s)
  else if a < 0x04000000 then
    let r := s.readSpace src a
    (some r.1, r.2)
  else if src = .host then s.readVf src ((a - 0x04000000) / 0x10000) ((a - 0x04000000) % 0x10000) t
  else (some 0, s)

/-- Read and answer one dword. -/
def State.readAnswer (src : Source) (t : Bool) (a : Nat) (s : State) : State :=
  match s.readDword src t a with
  | (some v, s) => s.emit (.readData src v.toNat)
  | (none, s) => s.emit .mmioUr

/-- Read dwords in ascending order (R490). -/
def State.readDwords (src : Source) (t : Bool) : Nat → Nat → State → State
  | _, 0, s => s
  | a, n + 1, s => State.readDwords src t (a + 4) n (s.readAnswer src t a)

/-- COUNTER_LO_READ (R490), and every read of the register space: `count` dwords from `addr`. -/
def execCounterLoRead (src : Source) (t : Bool) (addr count : Nat) (s : State) : Host.Outcome State Fault Refusal :=
  .next (s.readDwords src t (addr / 4 * 4) count)

/-- TIME_NOW_READ (R28): a read of NOW_LO. -/
def execTimeNowRead (src : Source) (s : State) : Host.Outcome State Fault Refusal :=
  .next (s.readAnswer src false Adr.TIME_NOW_LO)

/-- CTR_EVENT_READ (R288): the oldest event of die `d`, which leaves the queue. -/
def execCtrEventRead (src : Source) (d : Nat) (s : State) : Host.Outcome State Fault Refusal :=
  .next (if d < 2 then s.readAnswer src false (Adr.SHEAF_CTR_EVENT d) else s)

/-- SAVE_RD_DATA_READ (R453): 4 bytes at RD_ADDR, which moves on by 4. -/
def execSaveRdDataRead (src : Source) (s : State) : Host.Outcome State Fault Refusal :=
  .next (s.readAnswer src false Adr.SAVE_RD_DATA)

end Sys2Proof.Machine
end

