-- ==== Sys2Proof/Machine/RegStore.lean ====
section
/-! DEFINITION. Register writes that only store: masks, W1C and W1S, LO and HI pairs (R485, R490), range rules, and the
header of every page (R457, R484, R487). -/

set_option Elab.async false

namespace Sys2Proof.Machine
open Sys2Proof

/-- The write of a register that only stores its value (Table 19-4, R490). -/
def State.storeReg (src : Source) (k : PageKind) (a o : Nat) (v : Word) (s : State) : State :=
  match regDesc k o with
  | none => s
  | some d =>
    let m := w32 d.mask
    match d.acc with
    | .w1c => s.setRg a (s.rg a &&& ~~~(v &&& m))
    | .w1s => s.setRg a (s.rg a ||| (v &&& m))
    | .ro | .cnt => s
    | _ =>
      if (rwPairs k).any fun r => inArr o r.1 r.2.1 r.2.2 then s.stageLo src a (v &&& m)
      else if 4 ≤ o && (rwPairs k).any fun r => inArr (o - 4) r.1 r.2.1 r.2.2 then s.commitPair src (a - 4) (v &&& m)
      else s.setRg a (v &&& m)

/-- A write outside its range is refused: the old value stays (R485). -/
def State.onlyIf (p : Bool) (act : State → State) (s : State) : State := if p then act s else s.refuse

/-- The value that a write of the HI word would commit. -/
def State.pairVal (s : State) (src : Source) (lo : Nat) (hi : Word) : Nat := (s.loFor src lo).toNat + 2 ^ 32 * hi.toNat

/-- A write of a HI word whose pair must satisfy `p`; refused, the pair keeps its old value. -/
def State.pairIf (src : Source) (lo : Nat) (hi : Word) (p : Nat → Bool) (act : State → State) (s : State) : State :=
  if p (s.pairVal src lo hi) then act s else (s.unstage src lo).refuse

/-- A write keeps its effect only if the state after it satisfies `p`; else `no` acts on the state before. -/
def State.tryWrite (act : State → State) (p : State → Bool) (no : State → State) (s : State) : State :=
  if p (act s) then act s else no s

/-- A refused allocation of a die (R97, Table 4-12). -/
def State.allocRefused (d : Nat) (s : State) : State := (s.refuse).raise Err.swcore_ALLOC_REFUSED d [] none

/-- A write whose register keeps another value than the one written counts as refused (R388): `act` may keep the old
value of register `a` in the bits of `m`. -/
def State.kept (a : Nat) (m v : Word) (act : State → State) (s : State) : State :=
  let t := act s
  if t.rg a &&& m = v &&& m then t else t.refuse

/-- W1C of ERR_STATUS: VALID of ERR_FIRST clears with the last bit (R457). -/
def State.clearErr (k : PageKind) (i : Nat) (v : Word) (s : State) : State :=
  let s := s.setRg (adr k i Adr.H_ERR_STATUS) (s.rg (adr k i Adr.H_ERR_STATUS) &&& ~~~v)
  if s.rg (adr k i Adr.H_ERR_STATUS) = 0 then s.setRf (adr k i Adr.H_ERR_FIRST) 31 31 0 else s

/-- W1C of INT_STATUS: VIOLATION of a job slot re-arms its capture, WATCH empties WATCH_CAPTURE (Tables 5-12, 18-13). -/
def State.clearInt (k : PageKind) (i : Nat) (v : Word) (s : State) : State :=
  let s := s.setRg (adr k i Adr.H_INT_STATUS) (s.rg (adr k i Adr.H_INT_STATUS) &&& ~~~v)
  if k = .job ∧ bit v 0 then s.setRf (Adr.JOB_VIOL_CAPTURE i 0) 0 0 0
  else if k = .obs ∧ bit v 0 then s.setRg Adr.OBS_WATCH_CAPTURE 0
  else s

/-- A write of a header register (Table 19-2); none where the offset is not one of them. -/
def State.writeHead (k : PageKind) (i o : Nat) (v : Word) (s : State) : Option State :=
  if o = Adr.H_CTRL then some (s.writeCtrl k i v)
  else if o = Adr.H_ERR_STATUS then some (s.clearErr k i v)
  else if o = Adr.H_ERR_SEVERITY then some (s.setRg (adr k i o) (v ||| w32 (devFatalMask k)))
  else if o = Adr.H_INT_STATUS then some (s.clearInt k i v)
  else if o = Adr.H_INT_ENABLE then some ((s.setRg (adr k i o) v).intAfter k i s)
  else if o = Adr.H_LOCK then some (s.writeLock k i v)
  else none

end Sys2Proof.Machine
end

