-- ==== Sys2Proof/Machine/RegHub.lean ====
section
/-! DEFINITION. Register writes of the hub pages (Table 19-6): their commands and their range rules. `dflt` is the
write that only stores. -/

set_option Elab.async false

namespace Sys2Proof.Machine
open Sys2Proof

/-- The range rules of a number. -/
def within (lo hi n : Nat) : Bool := decide (lo ≤ n) && decide (n ≤ hi)

/-- The OP of a command register with GO in bit 31 and OP in [27:24]; none without GO. -/
def opOf (v : Word) : Option Nat := if bit v 31 then some (bits v 27 24) else none

/-- PWR (Table 17-10). An unlisted OP ends with an open RESULT (log entry 5). -/
def State.writePwr (src : Source) (o : Nat) (v : Word) (dflt : State → State) (s : State) : State :=
  if o ≠ 0x100 then dflt s
  else
    let d := bits v 4 0
    match opOf v with
    | none => s
    | some 1 => s.pwrCmd src (·.domainOff d)
    | some 2 => s.pwrCmd src (·.domainOn d)
    | some 3 => s.pwrCmd src (·.warmCmd)
    | some 4 => s.takeFree.pwrCmd src (·.coldCmd ([0, 1].filter (s.freeVal.testBit ·)))
    | some _ => s.takeFree.pwrCmd src (·.pwrDone (s.freeVal % 16))

/-- SEC (Table 15-11). An unlisted OP ends with an open REJECT (log entry 5). -/
def State.writeSec (src : Source) (o : Nat) (v : Word) (dflt : State → State) (s : State) : State :=
  if o ≠ 0x100 then dflt s
  else match opOf v with
    | none => s
    | some 1 => s.secCmd src (·.modeSealed)
    | some 2 => s.secCmd src (·.modeShared)
    | some 3 => s.secCmd src (·.dbgApply)
    | some 4 => s.secCmd src (·.dbgEnd)
    | some 5 => s.secCmd src (·.epochAdvance)
    | some _ => s.takeFree.secCmd src (·.secDone (s.freeVal % 16))

/-- FUSE (Table 15-2): the owner key hash can be written until it is fused. -/
def State.writeFuse (o : Nat) (v : Word) (dflt : State → State) (s : State) : State :=
  if o = 0x150 then (if bit v 0 then s.burn else s)
  else if inArr o 0x120 4 12 then s.onlyIf (!bit (s.rg Adr.FUSE_FUSE_STATUS) 0) dflt
  else dflt s

/-- TIME (Table 2-5). -/
def State.writeTime (src : Source) (o : Nat) (v : Word) (dflt : State → State) (s : State) : State :=
  match o with
  | 0x114 => s.writeTimeSet src v
  | 0x120 => s.writeGmCfg v
  | 0x128 => s.onlyIf (within 1 1000 (bits v 9 0)) dflt
  | _ => dflt s

/-- CHAIN (Table 16-11). -/
def State.writeChain (o : Nat) (v : Word) (dflt : State → State) (s : State) : State :=
  match o with
  | 0x100 => s.chainCtrl v
  | 0x104 => if bit v 0 then s.chainRestart else s
  | 0x118 => s.onlyIf (within 10 10000 (bits v 15 0)) dflt
  | 0x11C => s.onlyIf (within 1 1000000 (bits v 19 0)) dflt
  | _ => dflt s

/-- A ring of 2^lg records of `n` bytes from `base` lies in the barn. -/
def ringIn (base lg n : Nat) : Bool := decide (base + n * 2 ^ lg ≤ barnSize)

/-- A base register of a ring: a multiple of 4 KiB, and inside the barn while the ring is enabled (log entry 27). -/
def State.writeRingBase (src : Source) (lo cfg n : Nat) (v : Word) (dflt : State → State) (s : State) : State :=
  s.pairIf src lo v (fun b => b % 4096 == 0 && (!bit (s.rg cfg) 31 || ringIn b (s.rf cfg 4 0) n)) dflt

/-- A configuration register of a ring: EN = 1 needs LOG2 in range and the ring inside the barn. -/
def State.writeRingCfg (lo lgMin lgMax n : Nat) (v : Word) (dflt : State → State) (s : State) : State :=
  s.onlyIf (!bit v 31 || (within lgMin lgMax (bits v 4 0) && ringIn (s.rg64 lo) (bits v 4 0) n)) dflt

/-- FAULT (Table 18-12). -/
def State.writeFault (src : Source) (o : Nat) (v : Word) (dflt : State → State) (s : State) : State :=
  match o with
  | 0x110 => match opOf v with
    | none => s
    | some op => s.fenceCmd op (bits v 5 0)
  | 0x134 => s.writeRingBase src Adr.FAULT_EVQ_BASE_LO Adr.FAULT_EVQ_CFG 32 v dflt
  | 0x138 => s.writeRingCfg Adr.FAULT_EVQ_BASE_LO 8 16 32 v dflt
  | 0x148 => s.onlyIf (within 10 1000000 (bits v 19 0)) fun s => dflt s.auditDue
  | _ => dflt s

/-- OBS (Table 18-13). -/
def State.writeObs (src : Source) (o : Nat) (v : Word) (dflt : State → State) (s : State) : State :=
  match o with
  | 0x104 => s.writeRingBase src Adr.OBS_TRACE_BASE_LO Adr.OBS_TRACE_CFG 64 v dflt
  | 0x108 => s.writeRingCfg Adr.OBS_TRACE_BASE_LO 8 24 64 v dflt
  | 0x10C => s.writeTraceCtrl v
  | 0x124 => s.writeRingBase src Adr.OBS_SAMPLE_BASE_LO Adr.OBS_SAMPLE_RING_CFG 16 v dflt
  | 0x128 => s.writeRingCfg Adr.OBS_SAMPLE_BASE_LO 8 24 16 v dflt
  | _ =>
    if inArr o 0x200 16 64 then
      let i := (o - 0x200) / 16
      s.kept (Adr.OBS_GCTR_SEL i) 0xE0FFF9FF v (·.writeGctrSel i v)
    else if inArr o 0x610 32 64 then s.writeWpCtrl ((o - 0x610) / 32) v
    else dflt s

end Sys2Proof.Machine
end

