-- ==== Sys2Proof/Machine/RegPort.lean ====
section
/-! DEFINITION. Register writes of the PORT, OCTET, SWCORE and TTU pages: their range rules and commands (R52, R66, R74,
R97, Tables 2-9, 3-12, 4-9, 4-10, 5-13). `dflt` is the write that only stores. -/

set_option Elab.async false

namespace Sys2Proof.Machine
open Sys2Proof

/-- The octet that is number `j` of a die (R97), and the number of an octet on its die. -/
def dieOctet (d j : Nat) : Nat := j / 8 * 16 + 8 * d + j % 8
def octetNo (n : Nat) : Nat := n / 16 * 8 + n % 8

/-- The sum of CREDIT_LIMIT over the ports of an octet (R97). -/
def State.octetLimits (s : State) (n : Nat) : Nat :=
  (((List.range 8).filter fun i => s.portExists (8 * n + i)).map fun i => s.rf (Adr.PORT_CREDIT_LIMIT (8 * n + i)) 16 0).sum

/-- CREDIT_LIMIT and the reservations fit each other (R66). -/
def State.creditOk (s : State) (p : Nat) : Bool :=
  let l := s.rf (Adr.PORT_CREDIT_LIMIT p) 16 0
  (s.ownRsv p).all (fun r => decide (17 ≤ r) && decide (r ≤ 4096)) && decide ((s.ownRsv p).sum ≤ l) && decide (l ≤ 65536)

/-- What an Ethernet port promises fits its allotment (R74). -/
def State.promiseOk (s : State) (p : Nat) : Bool :=
  s.portMode p != 1 || decide (s.promised p ≤ s.rf (Adr.PORT_CREDIT_LIMIT p) 16 0)

/-- The octet's budget covers the limits of its ports (R97). -/
def State.budgetOk (s : State) (n : Nat) : Bool :=
  decide (s.octetLimits n ≤ s.rf (Adr.SWCORE_OCT_BUDGET (octetDie n) (octetNo n)) 19 0)

/-- The budgets and the engine cells of a die fit its buffer (R97). -/
def State.dieOk (s : State) (d : Nat) : Bool := decide (s.budgets d + s.rf (Adr.SWCORE_ENGINE_CELLS d) 19 0 ≤ dieCells)

/-- A write of CREDIT_LIMIT or of a reservation. -/
def State.writeCredit (p : Nat) (dflt : State → State) (s : State) : State :=
  s.tryWrite (fun s => s.tryWrite dflt (fun t => t.budgetOk (p / 8) && t.promiseOk p) (·.allocRefused (portDie p)))
    (fun _ => (dflt s).creditOk p) State.refuse

/-- A write that changes what an Ethernet port promises (R74). -/
def State.writePromise (p : Nat) (dflt : State → State) (s : State) : State :=
  s.tryWrite dflt (·.promiseOk p) (·.allocRefused (portDie p))

/-- PORT (Tables 2-9, 3-12, 4-10, 5-14; R385, R463). -/
def State.writePort (src : Source) (p o : Nat) (v : Word) (dflt : State → State) (s : State) : State :=
  match o with
  | 0x100 => s.kept (Adr.PORT_PORT_CTRL p) 0xD v fun s => if bit v 0 then s.enablePort p v else s.writePortCtrl p v
  | 0x120 => s.stageLo src (Adr.PORT_TC_MAP_LO p) (v &&& 0x77777777)
  | 0x124 => s.commitPair src (Adr.PORT_TC_MAP_LO p) (v &&& 0x777)
  | 0x128 => s.writePromise p (·.setRg (Adr.PORT_PCP_MAP p) (v &&& 0x77777777))
  | 0x400 => s.writeTtCtrl p v
  | 0x408 | 0x414 | 0x428 => s.ttBusy p dflt
  | 0x424 => s.writeTtData src p v
  | 0x500 => s.onlyIf (decide (1518 ≤ bits v 13 0) && decide (bits v 13 0 ≤ 9216)) dflt
  | 0x604 => s.cxlCfgWrite p v
  | 0x608 | 0x610 | 0x614 => if (s.port p).cxlCfg then s else dflt s
  | 0x70C => if s.sec.mode == .sealed && (s.port p).st != .off then s.rwsRefused src (Adr.PORT_EDGE_EID p) else dflt s
  | 0x730 => s.writeTargetState p v
  | 0x900 => if (s.port p).st == .off then (dflt s).takeFence p else s.refuse
  | _ =>
    if inArr o 0x200 4 7 then s.writeCredit p dflt
    else if o = 0x504 || inArr o 0x510 4 8 || inArr o 0x530 4 8 then s.writePromise p dflt
    else if inArr o 0x710 4 8 then s.onlyIf (bits v 7 0 != 0) dflt
    else if inArr o 0x648 32 4 then
      s.kept (Adr.PORT_HDM_CTRL p ((o - 0x648) / 32)) 0xFFF v (·.hdmWrite p ((o - 0x648) / 32) v)
    else if inArr o 0x740 16 9 then
      s.kept (Adr.PORT_SHAPER_CFG p ((o - 0x740) / 16)) 0xFFFFFFFF v (·.writeShaperCfg p ((o - 0x740) / 16) v)
    else if inArr o 0x748 16 9 then s.writeShaperCtrl p ((o - 0x748) / 16) v
    else dflt s

/-- OCTET (Table 3-2): a write of MODE or LAYOUT clears APPLIED. -/
def State.writeOctet (n o : Nat) (v : Word) (dflt : State → State) (s : State) : State :=
  match o with
  | 0x100 | 0x104 => (dflt s).setRf (Adr.OCTET_OCT_STATUS n) 8 8 0
  | 0x108 => if bit v 0 then s.octetApply n else s
  | _ => dflt s

/-- SWCORE (Table 4-9, R97, R95, R108). -/
def State.writeSwcore (d o : Nat) (v : Word) (dflt : State → State) (s : State) : State :=
  match o with
  | 0x10C => s.onlyIf (v &&& 0x7FF &&& ~~~0x208#32 == 0) dflt
  | 0x190 => s.tryWrite dflt (·.dieOk d) (·.allocRefused d)
  | 0x1A0 => s.tryWrite dflt (fun _ => decide (1 ≤ bits v 19 0) && decide (bits v 19 0 ≤ 1000000)) (·.allocRefused d)
  | _ =>
    if inArr o 0x110 4 32 then
      s.tryWrite dflt (fun t => t.dieOk d && t.budgetOk (dieOctet d ((o - 0x110) / 4)) && decide (8192 ≤ bits v 19 0)
        && decide (bits v 19 0 ≤ 65536)) (·.allocRefused d)
    else dflt s

end Sys2Proof.Machine
end

