-- ==== Sys2Proof/Machine/RegUnit.lean ====
section
/-! DEFINITION. Register writes of the pages of the units (Table 19-5): their commands, the states in which they take
writes, and their range rules. `dflt` is the write that only stores. -/

set_option Elab.async false

namespace Sys2Proof.Machine
open Sys2Proof

/-- TTU (Table 5-13). -/
def State.writeTtu (o : Nat) (v : Word) (dflt : State → State) (s : State) : State :=
  if o = 0x100 then s.onlyIf (decide (1 ≤ bits v 19 0) && decide (bits v 19 0 ≤ 1000000)) dflt else dflt s

/-- A GO of EXT.CMD (Table 7-2). REC_COUNT of SNAP_CREATE has no register: it is open (log entry 15). -/
def State.extGo (op : Nat) (s : State) : State :=
  match op with
  | 1 => s.extCreate
  | 2 => s.extFence
  | 3 => s.extReclaim
  | 4 => s.leaseGrant
  | 5 => s.leaseRenew
  | 6 => s.leaseRelease
  | 7 => s.takeFree.snapCreate (s.freeVal % 2 ^ 24)
  | 8 => s.snapOpen
  | 9 => s.viewAttach
  | 10 => s.viewDetach
  | 11 => s.snapClose
  | 12 => s.snapDestroy
  | _ => s.extDone 1

/-- EXT (Table 7-10). -/
def State.writeExt (o : Nat) (v : Word) (dflt : State → State) (s : State) : State :=
  match o with
  | 0x100 => if bit v 31 then s.extGo (bits v 3 0) else s
  | 0x150 | 0x154 => s.onlyIf (s.ext.leases.countP (fun _ l => l.valid) == 0) dflt
  | 0x15C => s.onlyIf (decide (1 ≤ bits v 19 0) && decide (bits v 19 0 ≤ 1000000)) dflt
  | _ => dflt s

/-- CARV (Table 9-13). -/
def State.writeCarv (src : Source) (d o : Nat) (v : Word) (dflt : State → State) (s : State) : State :=
  match o with
  | 0x128 => s.onlyIf (decide (1518 ≤ bits v 13 0) && decide (bits v 13 0 ≤ 9216)) dflt
  | 0x12C => s.onlyIf (bits v 7 0 != 0) dflt
  | 0x134 => s.pairIf src (Adr.CARV_SO_BASE_LO d) v (fun b => b % 2 ^ 22 == 0 && decide (b + 2 ^ 22 ≤ barnSize)) dflt
  | 0x138 =>
    let n := bits v 15 0
    if !bit v 31 then s
    else match bits v 27 24 with
      | 1 => s.legOpen d n
      | 2 => s.legClose d n
      | 3 => s.wqEnable d n
      | 4 => s.wqDisable d n
      | 5 => s.soArmCmd d n
      | 6 => s.soCancelCmd d n
      | 7 => s.wqPostCmd d n
      | _ => s.carvDone d 1
  | _ => dflt s

/-- SHEAF (Table 11-14). -/
def State.writeSheaf (src : Source) (d o : Nat) (v : Word) (dflt : State → State) (s : State) : State :=
  let k := bits v 11 0
  if o ≠ 0x100 then dflt s
  else if !bit v 31 then s
  else match bits v 27 24 with
    | 1 => s.shCmd src d k (·.shEnable d k)
    | 2 => s.shCmd src d k (·.shDisable d k)
    | 3 => s.shCmd src d k (·.shAbortCmd d k)
    | 4 => s.shCmd src d k (·.shReset d k)
    | _ => s.shDone d 1

/-- EXD (Table 14-8). -/
def State.writeExd (o : Nat) (v : Word) (dflt : State → State) (s : State) : State :=
  if o ≠ 0x100 then dflt s
  else if !bit v 31 then s
  else match bits v 27 24 with
    | 1 => s.exdEnable (bits v 7 0)
    | 2 => s.exdDisable (bits v 7 0)
    | 3 => s.expertSync (bits v 7 0)
    | _ => s.exdDone 1

/-- DOM (Table 6-10, R160, R161). -/
def State.writeDom (k o : Nat) (v : Word) (dflt : State → State) (s : State) : State :=
  match o with
  | 0x100 => match bits v 1 0 with
    | 1 => s.domEnable k
    | 2 => s.domFlush k
    | 3 => s.domReset k
    | _ => s
  | 0x108 | 0x10C | 0x110 | 0x114 | 0x11C => if s.dom k == .off then dflt s else (s.domReject k 3).refuse
  | 0x118 => s.onlyIf (decide (bits v 11 8 ≤ 8)) dflt
  | 0x120 => s.onlyIf (decide (1 ≤ bits v 19 0) && decide (bits v 19 0 ≤ 1000000)) dflt
  | _ => dflt s

/-- TILE (Tables 10-15, 12-12). -/
def State.writeTile (src : Source) (t o : Nat) (v : Word) (dflt : State → State) (s : State) : State :=
  match o with
  | 0x100 => s.kept (Adr.TILE_CTRL t) 1 v (·.writeTileCtrl t (bit v 0))
  | 0x108 =>
    if !bit v 31 then s
    else match bits v 1 0 with
      | 1 => s.hlAssign t
      | 2 => s.hlRelease t
      | _ => s.hlDone t 1
  | 0x12C => s.hostSubmit src t v
  | 0x300 => s.onlyIf (decide (1 ≤ bits v 10 0) && decide (bits v 10 0 ≤ 1024)) dflt
  | _ => dflt s

/-- KVPOOL (Table 13-11). -/
def State.writeKvpool (p o : Nat) (v : Word) (dflt : State → State) (s : State) : State :=
  if o = 0x100 then
    match bits v 1 0 with
    | 1 => s.poolEnable p
    | 2 => s.poolDisable p
    | 3 => s.poolReset p
    | _ => s
  else if o = 0x170 then dflt s
  else if (s.pool p).st = .off then dflt s
  else (s.poolReject p 3).refuse

/-- KVSEQ (Table 13-12). -/
def State.writeKvseq (src : Source) (o : Nat) (v : Word) (dflt : State → State) (s : State) : State :=
  let q := bits v 17 0
  match o with
  | 0x100 =>
    if !bit v 31 then s
    else match bits v 27 24 with
      | 1 => s.seqCreate q
      | 2 => s.seqDestroy q
      | 3 => s.seqPreempt q
      | 4 => s.seqResume q
      | _ => s.seqDone 1
  | 0x114 => s.pairIf src Adr.KVSEQ_SEQ_BASE_LO v (fun b => decide (b + 2 ^ 24 ≤ barnSize) && b % 4096 == 0
      && (List.range 16).all fun p => (s.pool p).st == .off) dflt
  | _ => dflt s

/-- TIER (Table 8-11). -/
def State.writeTier (o : Nat) (v : Word) (dflt : State → State) (s : State) : State :=
  match o with
  | 0x100 => s.kept Adr.TIER_CTRL 1 v (·.writeTierCtrl v)
  | 0x108 | 0x110 | 0x114 | 0x118 | 0x11C => s.onlyIf (!s.tierOn) dflt
  | 0x120 => if bit v 31 then s.tierGo (bits v 3 0) else s
  | 0x13C => s.onlyIf (decide (1 ≤ bits v 13 0) && decide (bits v 13 0 ≤ 8192)) dflt
  | _ => if inArr o 0x400 4 256 then s.onlyIf (bits v 1 0 != 3) dflt else dflt s

/-- FORMAT through a register write: what the flash reports is open (log entry 5). -/
def State.granFormatOpen (s : State) : State :=
  let n := 256 * s.granBlocks
  let bad := s.allBlocks.filter fun b => Config.free (s.free + b) % 2 == 1
  (s.takeFrees (n + 1)).granFormat bad (Config.free (s.free + n))

/-- GRAN (Table 8-12): the registers take writes in OFF. -/
def State.writeGran (o : Nat) (v : Word) (dflt : State → State) (s : State) : State :=
  if o = 0x100 then
    if bit v 1 then s.granFormatOpen else s.kept Adr.GRAN_CTRL 1 v fun s => if bit v 0 then s.granEnable else s.granDisable
  else if s.gran.st ≠ .off then s.refuse
  else if o = 0x138 ∧ bits v 20 0 = 0 then s.refuse
  else if o = 0x140 ∧ bits v 19 0 = 0 then s.refuse
  else dflt s

/-- JOB (Tables 5-12, 10-16; R135, R232). -/
def State.writeJob (j o : Nat) (v : Word) (dflt : State → State) (s : State) : State :=
  match o with
  | 0x104 =>
    let s := s.writeInval j v
    match bits v 1 0 with
    | 1 => s.jobActivate j
    | 2 => s.jobStop j
    | 3 => s.jobRelease j
    | _ => s
  | 0x100 | 0x110 | 0x114 | 0x118 | 0x11C | 0x120 | 0x124 | 0x128 | 0x12C | 0x188 | 0x18C => s.onlyIf (s.job j == .free) dflt
  | 0x130 =>
    if 1 ≤ bits v 16 0 ∧ bits v 16 0 ≤ 65536 then dflt s
    else (s.refuse).raise Err.swcore_ALLOC_REFUSED (b2n !s.domOn 25) [] none
  | 0x180 => s.onlyIf (decide (bits v 31 16 ≤ 32768) && decide (bits v 14 0 + bits v 31 16 ≤ 32768)) dflt
  | 0x184 => s.onlyIf (s.job j == .free && decide (bits v 28 16 ≤ 4096)) dflt
  | _ => dflt s

end Sys2Proof.Machine
end

