-- ==== Sys2Proof/Machine/RegWrite.lean ====
section
/-! DEFINITION. Writes of the register space: pages, table windows (R491), sheaf counters (R287), MSI-X structures, the VF
BAR (R415), and host writes dword by dword (R413, R488). -/

set_option Elab.async false

namespace Sys2Proof.Machine
open Sys2Proof

/-! ### Pages -/

/-- The effect of a write on a register of a page, the rules of access apart. -/
def State.pageWrite (src : Source) (k : PageKind) (i o a : Nat) (v : Word) (s : State) : State :=
  let dflt : State → State := fun s => s.storeReg src k a o v
  match k with
  | .pwr => s.writePwr src o v dflt
  | .save => if o = 0x120 then s.onlyIf (bits v 1 0 == 0) dflt else dflt s
  | .bwin => if o = 0x108 then s.bwinCmd v else dflt s
  | .time => s.writeTime src o v dflt
  | .sec => s.writeSec src o v dflt
  | .fuse => s.writeFuse o v dflt
  | .chain => s.writeChain o v dflt
  | .fault => s.writeFault src o v dflt
  | .obs => s.writeObs src o v dflt
  | .port => s.writePort src i o v dflt
  | .octet => s.writeOctet i o v dflt
  | .swcore => s.writeSwcore i o v dflt
  | .ttu => s.writeTtu o v dflt
  | .ext => s.writeExt o v dflt
  | .carv => s.writeCarv src i o v dflt
  | .sheaf => s.writeSheaf src i o v dflt
  | .exd => s.writeExd o v dflt
  | .dom => s.writeDom i o v dflt
  | .tile => s.writeTile src i o v dflt
  | .kvpool => s.writeKvpool i o v dflt
  | .kvseq => s.writeKvseq src o v dflt
  | .tier => s.writeTier o v dflt
  | .gran => s.writeGran o v dflt
  | .job => s.writeJob i o v dflt
  | .ident | .hostp | .home | .vf => dflt s

/-- A write of a dword of a page. -/
def State.writePage (src : Source) (a : Nat) (v : Word) (s : State) : State :=
  match pageAt a with
  | none => s.unmapped src a
  | some (k, i, o) =>
    let acc := match regDesc k o with
      | some d => d.acc
      | none => .ro
    s.guarded src a acc fun s => match s.writeHead k i o v with
      | some t => t
      | none => s.pageWrite src k i o a v

/-! ### Sheaf counters (Table 11-8) -/

/-- A write of a dword of the sheaf counters. -/
def State.writeCtr (src : Source) (a : Nat) (v : Word) (s : State) : State :=
  let add := decide (0x00C40000 ≤ a)
  let c := (if add then a - 0x00C40000 else a - 0x00C00000) / 16
  if !(s.ctrOn c || (src == .loader && s.pwr.pstate == .starting)) then s
  else match add, a % 16 / 4 with
    | false, 0 | false, 2 | true, 0 => s.stageLo src a v
    | false, 1 => s.ctrValue src c v
    | false, _ => s.ctrThresh src c v
    | true, 1 => s.ctrAdd src c v
    | true, 2 => s.ctrCfg c v
    | true, _ => s

/-! ### Table windows (R491) -/

/-- Windows that ignore writes (Table 19-7). -/
def Win.ro : Win → Bool
  | .exts | .leases | .regions | .hayl | .seqs | .log => true
  | _ => false

/-- The RW fields of a sheaf entry and of a layer entry (Tables 11-1, 14-1). -/
def shfRw : Nat := 2 ^ 1021 - 1 - (2 ^ 980 - 2 ^ 977) - (2 ^ 512 - 2 ^ 296)
def layRw : Nat := 2 ^ 1022 - 1

/-- Commit an entry: its whole value, by the rules of its table. -/
def State.commitEntry (w : Win) (n b size v : Nat) (s : State) : State :=
  let put (m : Nat) (s : State) : State := s.setEntry b (size / 4) (v &&& m)
  match w with
  | .agents => s.writeAgent (n / 2048) (n % 2048) v
  | .legs => s.onlyIf ((s.leg n).st == .closed && !legEntryBad (v &&& legRw)) (put legRw)
  | .wqs => s.onlyIf ((s.wq n).st == .disabled) (put wqRw)
  | .sheaves => s.onlyIf ((s.sheaf n).st == .free) (put shfRw)
  | .layers => s.onlyIf (!s.layerOn n) (put layRw)
  | .vfs =>
    let td := (s.fn (n + 1)).tdisp
    s.onlyIf (td != .locked && td != .run) (put 0x800003FF)
  | _ => s.setEntry b (size / 4) v

/-- The dwords that a source has staged for the entry at `b`. -/
def State.stagedFor (s : State) (src : Source) (b : Nat) : List (Nat × Word) :=
  match s.hub.stageTab.get (srcNo src) with
  | some (b', l) => if b' = b then l else []
  | none => []

def State.setStage (src : Source) (x : Option (Nat × List (Nat × Word))) (s : State) : State :=
  s.modHub fun h => { h with stageTab := h.stageTab.set (srcNo src) x }

/-- The value of an entry of `n` dwords from `a` with the dwords of `l` put in. -/
def State.merged (s : State) (l : List (Nat × Word)) (a : Nat) : Nat → Nat
  | 0 => 0
  | n + 1 => (((l.find? fun e => e.1 == a).map fun e => e.2).getD (s.tab a)).toNat + 2 ^ 32 * s.merged l (a + 4) n

/-- A write of a dword of an entry: staged, or committed with the highest one. -/
def State.writeEntry (src : Source) (w : Win) (n b size a : Nat) (v : Word) (s : State) : State :=
  let l := s.stagedFor src b
  if a = b + size - 4 then
    let e := s.merged ((a, v) :: l) b (size / 4)
    (if l.isEmpty then s else s.setStage src none).commitEntry w n b size e
  else s.setStage src (some (b, (a, v) :: l.filter fun e => e.1 != a))

/-- A write of a dword of a table window; a path group commits each 64-bit word on its own (R87). -/
def State.writeWin (src : Source) (a : Nat) (v : Word) (s : State) : State :=
  match winAt a with
  | none => s.unmapped src a
  | some (w, n, b, size) =>
    if !(s.winOn w n || (src == .loader && s.pwr.pstate == .starting)) || w.ro then s
    else if w = .groups then s.writeEntry src w n (a / 8 * 8) 8 a v
    else s.writeEntry src w n b size a v

/-! ### The whole space -/

/-- A write of a dword of the PF register space. -/
def State.writeSpace (src : Source) (a : Nat) (v : Word) (s : State) : State :=
  if !s.mayWrite src a then s
  else if 0x10000 ≤ a ∧ a < 0x20000 then
    if src = .chain ∨ s.pageOn .hostp 0 = false then s else s.writeMsix 0 ((a - 0x10000) / 4) v
  else if 0x20000 ≤ a ∧ a < 0x20200 then s
  else if 0x00C00000 ≤ a ∧ a < 0x00C80000 then s.writeCtr src a v
  else if 0x01000000 ≤ a then s.writeWin src a v
  else s.writePage src a v

/-- A write of a dword of a VF page (Table 16-4). -/
def State.writeVfPage (f o : Nat) (v : Word) (s : State) : State :=
  let a := adr .vf f o
  match s.writeHead .vf f o v with
  | some t => t
  | none =>
    if o = 0x104 then (if bit v 31 then s.vfSubmit f else s)
    else if o = 0x124 then
      let lo := Adr.VF_CTR_ADD_LO f
      ((s.setRg lo (s.loFor .host lo)).unstage .host lo).vfCtrAdd f v
    else s.storeReg .host .vf a o v

/-- A write of a dword of a VF BAR at offset `o` (Table 16-3). -/
def State.writeVf (f o : Nat) (t : Bool) (v : Word) (s : State) : State :=
  s.vfAccess f t fun s =>
    if o < 0x1000 then s.writeVfPage f o v
    else if 0x2000 ≤ o ∧ o < 0x2080 then s.writeMsix f ((o - 0x2000) / 4) v
    else s

/-- A write of a dword. Host addresses from 2^26 on name the VF BARs (RegTable). -/
def State.writeDword (src : Source) (t : Bool) (a : Nat) (v : Word) (s : State) : State :=
  if a < 0x04000000 then s.writeSpace src a v
  else if src = .host then
    (if s.pwr.warm then s else s.writeVf ((a - 0x04000000) / 0x10000) ((a - 0x04000000) % 0x10000) t v)
  else s.unmapped src (a % 0x04000000)

/-- Dwords in ascending order (R413, R488). -/
def State.writeDwords (src : Source) (t : Bool) : Nat → List Word → State → State
  | _, [], s => s
  | a, v :: vs, s => State.writeDwords src t (a + 4) vs (s.writeDword src t a v)

/-- Bytes as little-endian dwords. -/
def dwordsOf : List Byte → List Word
  | a :: b :: c :: d :: rest => w32 (leNat [a, b, c, d]) :: dwordsOf rest
  | _ => []

/-- MMIO_BAD (R413). -/
def State.mmioBad (s : State) : State :=
  if s.pageOn .hostp 0 then (s.bump Adr.HOSTP_MMIO_BAD 1).raise Err.hostp_MMIO_BAD 0 [] none else s

/-- REG_WRITE (R413, R485, R488): a write of whole dwords; one that is not is dropped. -/
def execRegWrite (src : Source) (t : Bool) (addr : Nat) (data : List Byte) (s : State) : Host.Outcome State Fault Refusal :=
  .next (if addr % 4 ≠ 0 ∨ data.length < 4 ∨ data.length % 4 ≠ 0 then (if src = .host then s.mmioBad else s)
  else s.writeDwords src t addr (dwordsOf data))

/-- TABLE_WINDOW_WRITE (R491). -/
def execTableWindowWrite (src : Source) (addr : Nat) (val : Word) (s : State) : Host.Outcome State Fault Refusal :=
  .next (if 0x01000000 ≤ addr ∧ addr < 0x04000000 then s.writeDword src false (addr / 4 * 4) val else s)

/-- LOCK_WRITE (R487): a write of LOCK of the page that `addr` lies in. -/
def execLockWrite (src : Source) (addr : Nat) (val : Word) (s : State) : Host.Outcome State Fault Refusal :=
  .next (if (pageAt addr).isSome then s.writeDword src false (addr / 0x1000 * 0x1000 + Adr.H_LOCK) val else s)

/-- ERR_CLEAR (R484): CTRL.ERR_CLEAR of the page that `addr` lies in is written 1. -/
def execErrClear (src : Source) (addr : Nat) (val : Word) (s : State) : Host.Outcome State Fault Refusal :=
  .next (if (pageAt addr).isSome then s.writeDword src false (addr / 0x1000 * 0x1000 + Adr.H_CTRL) (val ||| 2) else s)

end Sys2Proof.Machine
end

