-- ==== Sys2Proof/Machine/Chain.lean ====
section
/-! DEFINITION. The management chain (R426 to R430): arriving frames, the windows of the lead (R429, R499), timers
(Table 16-8) and ports. -/

set_option Elab.async false

namespace Sys2Proof.Machine
open Sys2Proof

/-! ### Control -/

def execChainEnable (src : Source) (s : State) : Host.Outcome State Fault Refusal :=
  .next (s.guarded src Adr.CHAIN_CTRL .rw (·.chainCtrl 1))
def execChainDisable (src : Source) (s : State) : Host.Outcome State Fault Refusal :=
  .next (s.guarded src Adr.CHAIN_CTRL .rw (·.chainCtrl 0))
def execChainRestart (src : Source) (s : State) : Host.Outcome State Fault Refusal :=
  .next (s.guarded src Adr.CHAIN_CMD .wo (·.chainRestart))

/-- The Ikion leads the chain, or enumerates it. -/
def State.leads (s : State) : Bool := s.chain.st == .lead || s.chain.st == .enumerating

/-! ### CLAIM and BEACON (Table 16-8) -/

/-- A CLAIM in a state other than OFF. An own CLAIM that returns counts in CLAIM only (log entry 28). -/
def State.claimRx (portB : Bool) (h : Nat) (pl : List Byte) (s : State) : State :=
  let fwd := s.chainFwd portB h pl
  if chArg h = s.serial then (if s.chain.st == .claim then s.chainEnum true else s)
  else match s.chain.st with
    | .listen =>
      if s.chainBetter h then fwd.modChain fun c => { c with heard := true }
      else if s.chainEligible then s.chainClaim else fwd
    | .claim => if s.chainBetter h then fwd.chainCollide else s
    | .enumerating | .lead => s.chainBeacon
    | .off | .backoff | .follower => fwd
def execChainClaimRx (portB : Bool) (frame : List Byte) (s : State) : Host.Outcome State Fault Refusal :=
  .next (s.chainRx 1 portB frame fun h pl s => s.claimRx portB h pl)

/-- A BEACON in a state other than OFF. EVENT JOIN goes out of the port that the BEACON came from. -/
def State.chBeaconRx (portB : Bool) (h : Nat) (pl : List Byte) (s : State) : State :=
  let fwd := s.chainFwd portB h pl
  let join (s : State) : State := s.chainEventOn portB 2 (b2n portB)
  match s.chain.st with
  | .listen => join fwd
  | .claim => (join fwd).chainLeave .listen
  | .enumerating | .lead =>
    if chArg h = s.serial then
      (if s.chain.st == .lead && s.chain.ring && !portB then s.modChain fun c => { c with beaconAt := s.ns } else s)
    else if s.chainBetter h then s.chainCollide else s
  | .follower =>
    if chArg h = s.rg64 Adr.CHAIN_LEAD_SERIAL_LO then fwd.modChain fun c => { c with beaconAt := s.ns, fresh := false }
    else fwd
  | .off | .backoff => fwd
def execChainBeaconRx (portB : Bool) (frame : List Byte) (s : State) : Host.Outcome State Fault Refusal :=
  .next (s.chainRx 8 portB frame fun h pl s => s.chBeaconRx portB h pl)

/-! ### Enumeration (R428) -/

/-- An Ikion that does not lead receives ENUM. -/
def State.takePos (portB : Bool) (h : Nat) (s : State) : State :=
  let n := chN h
  if s.chain.placed && s.chain.fresh && s.rg64 Adr.CHAIN_LEAD_SERIAL_LO == chArg h then s.chainEnumEnd portB n false
  else if n = 64 then
    (s.modChain fun c => { c with placed := false, pos := 0 }).chainEnumEnd portB 64 true
  else
    let s := (s.modChain fun c => { c with
      st := .follower, pos := n, placed := true, fresh := true, leadB := portB, beaconAt := s.ns }).setRg64
        Adr.CHAIN_LEAD_SERIAL_LO (chArg h)
    let h' := setNumBits (setNumBits h 123 118 ((n + 1) % 64)) 110 110 ((n + 1) / 64)
    let s := if s.chainUp (!portB) then s.chainFwd portB h' [] else s.chainEnumEnd portB (n + 1) false
    s.liveVectors.foldl (fun s v => s.chainEvent 1 v) s

/-- ENUM in a state other than OFF. -/
def State.enumRx (portB : Bool) (h : Nat) (s : State) : State :=
  let n := chN h
  if n = 0 ∨ 64 < n then s
  else if s.leads then
    if chArg h = s.serial then
      (if s.chain.st == .enumerating && !portB && s.chain.sideA.isNone then s.chainLead n 0 true else s)
    else if chArg h < s.serial then s.chainCollide else s
  else s.takePos portB h
def execChainEnumRx (portB : Bool) (frame : List Byte) (s : State) : Host.Outcome State Fault Refusal :=
  .next (s.chainRx 2 portB frame fun h _ s => s.enumRx portB h)

/-- ENUM_END in a state other than OFF. -/
def State.enumEndRx (portB : Bool) (h : Nat) (pl : List Byte) (s : State) : State :=
  let n := chN h
  let ovf (s : State) : State := if chArg h % 2 = 1 then s.raise Err.chain_CHAIN_OVERFLOW 0 [] none else s
  if !s.leads then s.chainFwd portB h pl
  else if s.chain.st != .enumerating || n == 0 || decide (64 < n) then s
  else match s.chain.sideA, portB with
    | none, true => (ovf s).chainSideA n
    | some b, false => (ovf s).chainLead n b false
    | _, _ => s
def execChainEnumEndRx (portB : Bool) (frame : List Byte) (s : State) : Host.Outcome State Fault Refusal :=
  .next (s.chainRx 9 portB frame fun h pl s => s.enumEndRx portB h pl)

/-! ### Accesses at a follower (R429) -/

/-- A READ or WRITE addressed to this Ikion. -/
def State.chainMine (s : State) (h : Nat) : Bool := s.chain.st == .follower && s.chain.placed && chDst h == s.chain.pos

/-- Answer a READ or a WRITE: in ring mode onward, in line mode the way it came. -/
def State.chainReply (portB ring : Bool) (h ty st : Nat) (data : List Word) (s : State) : State :=
  s.chainSend (if ring then !portB else portB) (chainHdr ty (chSrc h) s.chain.pos 0 0 (chTag h) data.length st)
    (data.flatMap fun w => leBytes 4 w.toNat)

/-- The address and the length of an access fit Table 16-7. -/
def chAccessOk (h n : Nat) : Bool := chArg h % 4 == 0 && decide (chArg h < 2 ^ 26) && decide (1 ≤ n)

/-- Read dwords for the chain. -/
def State.chainRead : Nat → Nat → State → List Word × State
  | _, 0, s => ([], s)
  | a, n + 1, s =>
    let r := s.readDword .chain false a
    let rs := State.chainRead (a + 4) n r.2
    (r.1.getD 0 :: rs.1, rs.2)

def State.chReadRx (portB ring : Bool) (h : Nat) (pl : List Byte) (s : State) : State :=
  if s.leads then s
  else if !s.chainMine h then s.chainFwd portB h pl
  else if !chAccessOk h (chLen h) then s.chainReply portB ring h 5 1 []
  else
    let (vs, s) := s.chainRead (chArg h) (chLen h)
    s.chainReply portB ring h 5 0 vs
def execChainReadRx (portB ring : Bool) (frame : List Byte) (s : State) : Host.Outcome State Fault Refusal :=
  .next (s.chainRx 3 portB frame fun h pl s => s.chReadRx portB ring h pl)

def State.chWriteRx (portB ring : Bool) (h : Nat) (pl : List Byte) (s : State) : State :=
  if s.leads then s
  else if !s.chainMine h then s.chainFwd portB h pl
  else if !chAccessOk h (chLen h) then s.mmioBad.chainReply portB ring h 6 1 []
  else (s.writeDwords .chain false (chArg h) (dwordsOf pl)).chainReply portB ring h 6 0 []
def execChainWriteRx (portB ring : Bool) (frame : List Byte) (s : State) : Host.Outcome State Fault Refusal :=
  .next (s.chainRx 4 portB frame fun h pl s => s.chWriteRx portB ring h pl)

/-! ### Responses at the lead (R429) -/

/-- A tag is free again: the next access goes out. -/
def State.chainFree (tag : Nat) (s : State) : State :=
  (s.modChain fun c => { c with accs := c.accs.set tag none }).chainPump

/-- All ones for a read of the host; nothing for a read of POS_SERIAL. -/
def State.chainOnes (a : ChainAcc) (s : State) : State :=
  if a.serial then s else s.emit (.chainData a.pos a.addr (List.replicate a.count 0xFFFFFFFF#32))

def State.chReadRsp (portB : Bool) (h : Nat) (pl : List Byte) (s : State) : State :=
  match s.chain.accs.get (chTag h) with
  | some a =>
    if a.write.isSome then s
    else
      let ws := dwordsOf pl
      let s := if chArg h % 16 ≠ 0 ∨ ws.length ≠ a.count then s.chainOnes a
        else if a.serial then s.chainSerial a.pos (leNat (pl.take 8))
        else s.emit (.chainData a.pos a.addr ws)
      s.chainFree (chTag h)
  | none => if s.leads then s else s.chainFwd portB h pl
def execChainReadRspRx (portB : Bool) (frame : List Byte) (s : State) : Host.Outcome State Fault Refusal :=
  .next (s.chainRx 5 portB frame fun h pl s => s.chReadRsp portB h pl)

def State.chWriteRsp (portB : Bool) (h : Nat) (pl : List Byte) (s : State) : State :=
  match s.chain.accs.get (chTag h) with
  | some a =>
    if a.write.isNone then s
    else
      let s := if chArg h % 16 ≠ 0 then s.raise Err.chain_CHAIN_WR_FAIL 0 [] none else s
      s.chainFree (chTag h)
  | none => if s.leads then s else s.chainFwd portB h pl
def execChainWriteRspRx (portB : Bool) (frame : List Byte) (s : State) : Host.Outcome State Fault Refusal :=
  .next (s.chainRx 6 portB frame fun h pl s => s.chWriteRsp portB h pl)

/-- EVENT in a state other than OFF (R416, R430). -/
def State.eventRx (portB : Bool) (h : Nat) (pl : List Byte) (s : State) : State :=
  if !s.leads then s.chainFwd portB h pl
  else match nbits (chArg h) 15 8 with
    | 1 => s.msix 0 (64 * chSrc h + chArg h % 64)
    | 2 | 3 | 4 => s.chainBreak (chSrc h) (chArg h % 2)
    | _ => s
def execChainEventRx (portB : Bool) (frame : List Byte) (s : State) : Host.Outcome State Fault Refusal :=
  .next (s.chainRx 7 portB frame fun h pl s => s.eventRx portB h pl)

/-! ### Windows of the lead (R429, R499) -/

/-- Cut `n` dwords into frames of at most 64: dword offset and count. -/
def chainCuts : Nat → Nat → Nat → List (Nat × Nat)
  | 0, _, _ => []
  | fuel + 1, off, n => if n = 0 then [] else (off, min n 64) :: chainCuts fuel (off + 64) (n - 64)

/-- CHAIN_WINDOW_READ: `count` dwords at BAR4 offset `off`. -/
def execChainWindowRead (off count : Nat) (s : State) : Host.Outcome State Fault Refusal :=
  .next (let p := nbits off 31 26
  let a := off % 2 ^ 26 / 4 * 4
  if p = 0 then s.readDwords .host false a count
  else if !s.leads then s.emit (.chainData p a (List.replicate count 0xFFFFFFFF#32))
  else (chainCuts count 0 count).foldl (fun s c => s.chainAccess { pos := p, addr := a + 4 * c.1, count := c.2 }) s)

/-- CHAIN_WINDOW_WRITE: bytes at BAR4 offset `off` (R413). -/
def execChainWindowWrite (off : Nat) (data : List Byte) (s : State) : Host.Outcome State Fault Refusal :=
  .next (let p := nbits off 31 26
  let a := off % 2 ^ 26
  let ws := dwordsOf data
  if off % 4 ≠ 0 ∨ data.length < 4 ∨ data.length % 4 ≠ 0 then s.mmioBad
  else if p = 0 then s.writeDwords .host false a ws
  else if !s.leads then s
  else (chainCuts ws.length 0 ws.length).foldl (fun s c =>
    s.chainAccess { pos := p, addr := a + 4 * c.1, count := c.2, write := some ((ws.drop c.1).take c.2) }) s)

/-- CHAIN_RSP_TIMEOUT (R429): no response under a tag for RSP_TIMEOUT µs. -/
def execChainRspTimeout (tag : Nat) (s : State) : Host.Outcome State Fault Refusal :=
  .next (match s.chain.accs.get tag with
    | none => s
    | some a =>
      if s.ns < a.at_ + 1000 * s.rf Adr.CHAIN_RSP_TIMEOUT 19 0 then s
      else
        let s := s.bump Adr.CHAIN_CHAIN_TIMEOUTS 1
        let s := if a.write.isSome then s.raise Err.chain_CHAIN_WR_FAIL 0 [] none
          else (s.chainOnes a).raise Err.chain_CHAIN_TIMEOUT 0 [a.pos] none
        s.chainFree tag)

/-! ### Timers (Table 16-8) -/

/-- CHAIN_LISTEN_TIMER: 3 ms of LISTEN are over. -/
def execChainListenTimer (s : State) : Host.Outcome State Fault Refusal :=
  .next (if s.chain.st != .listen then s
  else if s.chainEligible && !s.chain.heard then s.chainClaim
  else s.modChain fun c => { c with heard := false })

/-- CHAIN_CLAIM_TIMER: the own CLAIM has not returned within 1 ms. -/
def execChainClaimTimer (s : State) : Host.Outcome State Fault Refusal :=
  .next (if s.chain.st == .claim then s.chainEnum false else s)

/-- CHAIN_BACKOFF_TIMER: 2 ms of BACKOFF are over. -/
def execChainBackoffTimer (s : State) : Host.Outcome State Fault Refusal :=
  .next (if s.chain.st == .backoff then s.chainLeave .listen else s)

/-- CHAIN_ENUM_TIMEOUT: LEAD with the positions known. -/
def execChainEnumTimeout (s : State) : Host.Outcome State Fault Refusal :=
  .next (if s.chain.st == .enumerating then
    let b := s.chain.sideA.getD 1
    (s.raise Err.chain_CHAIN_ENUM_TIMEOUT 0 [] none).chainLead b b false
  else s)

/-- CHAIN_BEACON_SEND: BEACON_INTERVAL has passed at a lead. -/
def execChainBeaconSend (s : State) : Host.Outcome State Fault Refusal :=
  .next (if s.chain.st == .lead then s.chainBeacon else s)

/-- No BEACON for `n` intervals. -/
def State.silent (s : State) (n : Nat) : Bool :=
  decide (s.chain.beaconAt + n * 1000 * s.rf Adr.CHAIN_BEACON_INTERVAL 15 0 ≤ s.ns)

/-- CHAIN_BEACON_LOSS: a follower has heard no BEACON of its lead for 30 intervals. -/
def execChainBeaconLoss (s : State) : Host.Outcome State Fault Refusal :=
  .next (if s.chain.st == .follower && s.silent 30 then s.chainLeave .listen else s)

/-- CHAIN_RING_BROKEN (R430): the lead's BEACON has not returned for 3 intervals. -/
def execChainRingBroken (s : State) : Host.Outcome State Fault Refusal :=
  .next (if s.chain.st == .lead && s.chain.ring && s.silent 3 then s.chainBreak 0 0 else s)

/-- CHAIN_HOST_LOSS: the host has been down for HOST_LOSS ms; 0 means never. -/
def execChainHostLoss (s : State) : Host.Outcome State Fault Refusal :=
  .next (match s.chain.hostDown with
    | none => s
    | some t =>
      let n := s.rf Adr.CHAIN_HOST_LOSS 15 0
      if n = 0 ∨ s.ns < t + 1000000 * n then s else (s.modChain fun c => { c with hostDown := none }).chainRestart)

/-! ### Ports (R430) -/

/-- A chain port changes: the lead is told, or is told by itself. -/
def State.chainPort (portB up : Bool) (s : State) : State :=
  if !s.pageOn .chain 0 || s.chainUp portB == up then s
  else
    let s := s.modChain fun c => if portB then { c with upB := up } else { c with upA := up }
    if s.chain.st == .off then s
    else if s.leads then s.chainBreak 0 (b2n portB)
    else s.chainEventOn (!portB) (if up then 4 else 3) (b2n portB)

/-- CHAIN_PORT_DOWN: block lock lost for 10 µs. -/
def execChainPortDown (portB : Bool) (s : State) : Host.Outcome State Fault Refusal := .next (s.chainPort portB false)

/-- CHAIN_PORT_RESTORE: block lock held for 1 ms. -/
def execChainPortRestore (portB : Bool) (s : State) : Host.Outcome State Fault Refusal := .next (s.chainPort portB true)

end Sys2Proof.Machine
end

