-- ==== Sys2Proof/Machine/Image.lean ====
section
/-! DEFINITION. The configuration loader (R387 to R389) and the measurements (R392). -/

set_option Elab.async false

namespace Sys2Proof.Machine
open Sys2Proof

/-! ### The configuration image (Table 15-3) -/

def imgCount (b : List Byte) : Nat := tokAt b 16 4
def imgSvn (b : List Byte) : Nat := tokAt b 6 1
def imgFlags (b : List Byte) : Nat := tokAt b 7 1

/-- Bytes from 0 to the end of OWNER_PK, and of the whole image. -/
def imgSigned (b : List Byte) : Nat := 80 + 8 * imgCount b + 96
def imgLen (b : List Byte) : Nat := imgSigned b + 96

/-- The writes: address and value. -/
def imgWrites (b : List Byte) : List (Nat × Word) :=
  (List.range (imgCount b)).map fun n => (tokAt b (80 + 8 * n) 4, w32 (tokAt b (84 + 8 * n) 4))

/-- The copy is well formed. -/
def imgFormed (b : List Byte) : Bool :=
  decide (80 ≤ b.length) && tokAt b 0 4 == 0x46434B49 && tokAt b 4 2 == 1 && decide (imgSvn b < 128)
    && decide (imgFlags b < 8) && (!(imgFlags b).testBit 2 || (imgFlags b).testBit 1) && decide (imgCount b ≤ 65536)
    && tokAt b 20 12 == 0 && decide (imgLen b ≤ b.length) && (imgWrites b).all fun w => w.1 % 4 == 0

/-- The IMAGE code of a copy: 0 if it is valid, else that of the first check of R388 that fails. -/
def State.imgCheck (s : State) (b : List Byte) : Nat :=
  let n := imgSigned b
  if !imgFormed b then 3
  else if tokAt b 8 8 ≠ 0 ∧ tokAt b 8 8 ≠ s.serial then 6
  else if !s.signedBy ((b.drop (n - 96)).take 96) ((b.drop n).take 96) (b.take n) then 2
  else if imgSvn b < s.rf Adr.FUSE_ARB 6 0 then 4
  else 0

/-- The outcome of the load (SEC.STATUS.IMAGE). -/
def State.imageCode (n : Nat) (s : State) : State := s.setRf Adr.SEC_STATUS 11 8 n

/-- No image, or APPLY_FAIL: IMAGE_BAD. -/
def State.imageBad (n : Nat) (s : State) : State := (s.imageCode n).raise Err.sec_IMAGE_BAD 0 [] none

/-- Apply the writes in order; loading stops at the first that is refused. The answer says whether all were made. -/
def State.applyWrites : List (Nat × Word) → State → Bool × State
  | [], s => (true, s)
  | w :: ws, s =>
    let s := (s.modHub fun h => { h with refused := false }).writeDword .loader false w.1 w.2
    if s.hub.refused then (false, s) else State.applyWrites ws s

/-- Load a valid copy (R388, R389). `fuseOk` says whether programming ARB succeeds, where it is needed. -/
def State.loadImage (b : List Byte) (fuseOk : Bool) (s : State) : State :=
  let d := (Config.sha384 (b.take (imgLen b))).toNat
  let s := s.setRg Adr.SEC_IMAGE_SVN (w32 (imgSvn b))
  let s := (List.range 12).foldl (fun s i => s.setRg (Adr.SEC_IMAGE_DIGEST i) (w32 (d >>> (32 * i)))) s
  let s := s.modSec fun u => { u with
    sealedOk := (imgFlags b).testBit 1, ksRoot := tokAt b 32 48
    mode := if (imgFlags b).testBit 2 then .sealed else u.mode }
  let s := if (imgFlags b).testBit 0 ∧ s.rf Adr.FUSE_ARB 6 0 < imgSvn b then
      (if fuseOk then s.setRg Adr.FUSE_ARB (w32 (imgSvn b)) else s.raiseFatal Err.sec_FUSE_FAULT 0 [])
    else s
  match s.applyWrites (imgWrites b) with
  | (true, s) => s.imageCode 1
  | (false, s) => s.imageBad 5

/-- The loader with what copies A and B hold. Where neither is valid, which copy's failure IMAGE names is open (log
entry 5). -/
def State.runLoader (a b : List Byte) (fuseOk : Bool) (s : State) : State :=
  let ca := s.imgCheck a
  let cb := s.imgCheck b
  if !bit (s.rg Adr.FUSE_FUSE_STATUS) 0 then s.imageBad 7
  else if ca = 0 ∧ (cb ≠ 0 ∨ imgSvn b ≤ imgSvn a) then s.loadImage a fuseOk
  else if cb = 0 then s.loadImage b fuseOk
  else s.takeFree.imageBad (if s.freeVal % 2 = 0 then ca else cb)

/-- IMAGE_LOAD (R388): the loader runs after a cold reset, once the core PLLs have locked. -/
def execImageLoad (a b : List Byte) (fuseOk : Bool) (s : State) : Host.Outcome State Fault Refusal :=
  .next (let p := s.pwr
  if p.pstate = .starting ∧ p.image = true ∧ p.rstLow = false ∧ p.railsLow = false ∧ p.pwrFail = false then
    (s.modPwr fun p => { p with image := false, cref := true }).runLoader a b fuseOk
  else s)

/-! ### Measurements (Table 15-6) -/

/-- Whether an offset of a page holds a register. -/
def isReg (k : PageKind) (o : Nat) : Bool :=
  [0, 4, 8, 12, 0x14].contains o || (regDesc k o).isSome || isCnt k o || (4 ≤ o && isCnt k (o - 4))

/-- The addresses and values of every register of every locked page, in ascending order (R487). -/
def State.lockedBytes (s : State) : List Byte :=
  (allPages.filter fun e => s.locked e.1 e.2 && e.1 != .vf).flatMap fun e =>
    ((List.range 1024).filter fun n => isReg e.1 (4 * n)).flatMap fun n =>
      leBytes 4 (adr e.1 e.2 (4 * n)) ++ leBytes 4 (s.regView e.1 e.2 (4 * n)).toNat

/-- A measurement block: its content as numbers. -/
def State.measurement (s : State) : Nat → List Nat
  | 1 => [0x8512, 0xA2]
  | 2 => [leNat ((List.range 12).flatMap fun i => leBytes 4 (s.rg (Adr.SEC_IMAGE_DIGEST i)).toNat)]
  | 3 => [s.rf Adr.FUSE_MODE_CHANGES 7 0, s.rf Adr.FUSE_DBG_EPOCH 4 0, s.rf Adr.FUSE_ARB 6 0, s.rf Adr.FUSE_FUSE_STATUS 0 0]
  | 4 => [modeNo s.sec.mode, s.sec.dbg, s.imageNo]
  | 5 => [(Config.sha384 s.lockedBytes).toNat]
  | _ => s.sec.binds.flatMap fun e => match e.2 with
    | some x => [e.1, x.1, keyCheck ((s.sec.keys.get x.1).getD 0), x.2]
    | none => []

/-- GET_MEASUREMENTS (R392): 0 asks for the number of blocks, 0xFF for all of them (log entry 36). -/
def execGetMeasurements (index : Nat) (s : State) : Host.Outcome State Fault Refusal :=
  .next (s.spdmAfter 3 fun s =>
    if index = 0 then s.emit (.spdm (.measurements [(0, [6])]))
    else if index = 0xFF then s.emit (.spdm (.measurements ((List.range 6).map fun i => (i + 1, s.measurement (i + 1)))))
    else if index ≤ 6 then s.emit (.spdm (.measurements [(index, s.measurement index)]))
    else s.emit (.spdm (.error 1)))

end Sys2Proof.Machine
end

