-- ==== Sys2Proof/Machine/Dispatch.lean ====
section
/-! DEFINITION. What each command does: one arm per constructor, each one call of its meaning. -/

namespace Sys2Proof.Machine

def exec (i : Instr) (s : State) : Host.Outcome State Fault Refusal :=
  match i with
  | .regWrite src t addr data => Sys2Proof.Machine.execRegWrite src t addr data s
  | .tableWindowWrite src addr val => Sys2Proof.Machine.execTableWindowWrite src addr val s
  | .counterLoRead src t addr count => Sys2Proof.Machine.execCounterLoRead src t addr count s
  | .lockWrite src addr val => Sys2Proof.Machine.execLockWrite src addr val s
  | .errClear src addr val => Sys2Proof.Machine.execErrClear src addr val s
  | .timeNowRead src => Sys2Proof.Machine.execTimeNowRead src s
  | .timeSetWrite src val => Sys2Proof.Machine.execTimeSetWrite src val s
  | .timeSetEffect => Sys2Proof.Machine.execTimeSetEffect s
  | .gmCfgWrite src val => Sys2Proof.Machine.execGmCfgWrite src val s
  | .syncBeaconSend p => Sys2Proof.Machine.execSyncBeaconSend p s
  | .syncRx p pkt => Sys2Proof.Machine.execSyncRx p pkt s
  | .delayReqRx p pkt => Sys2Proof.Machine.execDelayReqRx p pkt s
  | .delayRspRx p pkt => Sys2Proof.Machine.execDelayRspRx p pkt s
  | .gptpMessageRx p msg => Sys2Proof.Machine.execGptpMessageRx p msg s
  | .upstreamSilent => Sys2Proof.Machine.execUpstreamSilent s
  | .listenClaimTimerEnd => Sys2Proof.Machine.execListenClaimTimerEnd s
  | .backoffTimerEnd => Sys2Proof.Machine.execBackoffTimerEnd s
  | .ppsInEdge => Sys2Proof.Machine.execPpsInEdge s
  | .ppsLost => Sys2Proof.Machine.execPpsLost s
  | .ppsOutRise => Sys2Proof.Machine.execPpsOutRise s
  | .refLost => Sys2Proof.Machine.execRefLost s
  | .ttDataHiWrite src p val => Sys2Proof.Machine.execTtDataHiWrite src p val s
  | .ttCommit src p val => Sys2Proof.Machine.execTtCommit src p val s
  | .ttCancel src p val => Sys2Proof.Machine.execTtCancel src p val s
  | .ttSwitch p => Sys2Proof.Machine.execTtSwitch p s
  | .ttEntryBoundary p => Sys2Proof.Machine.execTtEntryBoundary p s
  | .octetApply src n val => Sys2Proof.Machine.execOctetApply src n val s
  | .portEnable src p val => Sys2Proof.Machine.execPortEnable src p val s
  | .portDisable src p val => Sys2Proof.Machine.execPortDisable src p val s
  | .portRetrain src p val => Sys2Proof.Machine.execPortRetrain src p val s
  | .signalDetect p => Sys2Proof.Machine.execSignalDetect p s
  | .signalLost p lane => Sys2Proof.Machine.execSignalLost p lane s
  | .equalisationDone p errors received => Sys2Proof.Machine.execEqualisationDone p errors received s
  | .portTimerExpire p => Sys2Proof.Machine.execPortTimerExpire p s
  | .paramSend p => Sys2Proof.Machine.execParamSend p s
  | .creditAdvSend p => Sys2Proof.Machine.execCreditAdvSend p s
  | .paramRx p rec => Sys2Proof.Machine.execParamRx p rec s
  | .creditAdvRx p rec => Sys2Proof.Machine.execCreditAdvRx p rec s
  | .retrainReqRx p rec => Sys2Proof.Machine.execRetrainReqRx p rec s
  | .dataFlitRx p flit => Sys2Proof.Machine.execDataFlitRx p flit s
  | .idleFlitRx p flit => Sys2Proof.Machine.execIdleFlitRx p flit s
  | .flitTx p => Sys2Proof.Machine.execFlitTx p s
  | .ethFrameRx p frame cut => Sys2Proof.Machine.execEthFrameRx p frame cut s
  | .pfcFrameRx p frame => Sys2Proof.Machine.execPfcFrameRx p frame s
  | .pfcPauseExpire p prio => Sys2Proof.Machine.execPfcPauseExpire p prio s
  | .pfcSend p => Sys2Proof.Machine.execPfcSend p s
  | .pfcRefresh p tc => Sys2Proof.Machine.execPfcRefresh p tc s
  | .pfcWatchdog p tc => Sys2Proof.Machine.execPfcWatchdog p tc s
  | .cxlTrain p result => Sys2Proof.Machine.execCxlTrain p result s
  | .cxlMemdataRx p tag data poisoned devLoad => Sys2Proof.Machine.execCxlMemdataRx p tag data poisoned devLoad s
  | .cxlDeviceRequest p => Sys2Proof.Machine.execCxlDeviceRequest p s
  | .cxlMsiWrite p addr data => Sys2Proof.Machine.execCxlMsiWrite p addr data s
  | .cxlCfgGo src p val => Sys2Proof.Machine.execCxlCfgGo src p val s
  | .cxlCfgCompletion p status data => Sys2Proof.Machine.execCxlCfgCompletion p status data s
  | .cxlCfgTimeout p => Sys2Proof.Machine.execCxlCfgTimeout p s
  | .cxlLinkFatal p cause => Sys2Proof.Machine.execCxlLinkFatal p cause s
  | .hdmEnable src p n val => Sys2Proof.Machine.execHdmEnable src p n val s
  | .packetRx p pkt => Sys2Proof.Machine.execPacketRx p pkt s
  | .egressGrant p => Sys2Proof.Machine.execEgressGrant p s
  | .packetTxDone p => Sys2Proof.Machine.execPacketTxDone p s
  | .starvePromote p id => Sys2Proof.Machine.execStarvePromote p id s
  | .shaperCfgWrite src p n val => Sys2Proof.Machine.execShaperCfgWrite src p n val s
  | .shaperReset src p n val => Sys2Proof.Machine.execShaperReset src p n val s
  | .queueSample die => Sys2Proof.Machine.execQueueSample die s
  | .mreqRx p pkt => Sys2Proof.Machine.execMreqRx p pkt s
  | .mreqIssue id => Sys2Proof.Machine.execMreqIssue id s
  | .targetRspRx p pkt => Sys2Proof.Machine.execTargetRspRx p pkt s
  | .barnAccessDone tag => Sys2Proof.Machine.execBarnAccessDone tag s
  | .responseCellWaitEnd => Sys2Proof.Machine.execResponseCellWaitEnd s
  | .targetTimeout p => Sys2Proof.Machine.execTargetTimeout p s
  | .targetDeadClear src p val => Sys2Proof.Machine.execTargetDeadClear src p val s
  | .jobActivate src j => Sys2Proof.Machine.execJobActivate src j s
  | .jobStop src j => Sys2Proof.Machine.execJobStop src j s
  | .jobRelease src j => Sys2Proof.Machine.execJobRelease src j s
  | .jobDrained j => Sys2Proof.Machine.execJobDrained j s
  | .jobInval src j val => Sys2Proof.Machine.execJobInval src j val s
  | .invalDone j => Sys2Proof.Machine.execInvalDone j s
  | .creqRx p pkt => Sys2Proof.Machine.execCreqRx p pkt s
  | .trackerStart id => Sys2Proof.Machine.execTrackerStart id s
  | .snpRespRx p pkt => Sys2Proof.Machine.execSnpRespRx p pkt s
  | .cdatHomeRx p pkt => Sys2Proof.Machine.execCdatHomeRx p pkt s
  | .compAckRx p pkt => Sys2Proof.Machine.execCompAckRx p pkt s
  | .snoopTimeout t => Sys2Proof.Machine.execSnoopTimeout t s
  | .agentDeadWrite src k a => Sys2Proof.Machine.execAgentDeadWrite src k a s
  | .domEnable src k => Sys2Proof.Machine.execDomEnable src k s
  | .domFlush src k => Sys2Proof.Machine.execDomFlush src k s
  | .domReset src k => Sys2Proof.Machine.execDomReset src k s
  | .domSweepDone k => Sys2Proof.Machine.execDomSweepDone k s
  | .extCreate src => Sys2Proof.Machine.execExtCreate src s
  | .extFence src => Sys2Proof.Machine.execExtFence src s
  | .extReclaim src => Sys2Proof.Machine.execExtReclaim src s
  | .leaseGrant src => Sys2Proof.Machine.execLeaseGrant src s
  | .leaseRenew src => Sys2Proof.Machine.execLeaseRenew src s
  | .leaseRelease src => Sys2Proof.Machine.execLeaseRelease src s
  | .snapCreate src recCount => Sys2Proof.Machine.execSnapCreate src recCount s
  | .snapInitDone r => Sys2Proof.Machine.execSnapInitDone r s
  | .snapOpen src => Sys2Proof.Machine.execSnapOpen src s
  | .viewAttach src => Sys2Proof.Machine.execViewAttach src s
  | .viewDetach src => Sys2Proof.Machine.execViewDetach src s
  | .snapClose src => Sys2Proof.Machine.execSnapClose src s
  | .snapDestroy src => Sys2Proof.Machine.execSnapDestroy src s
  | .drainStart => Sys2Proof.Machine.execDrainStart s
  | .drainEnd => Sys2Proof.Machine.execDrainEnd s
  | .leaseExpiry k => Sys2Proof.Machine.execLeaseExpiry k s
  | .snapSweepStart r => Sys2Proof.Machine.execSnapSweepStart r s
  | .snapSweepEnd r => Sys2Proof.Machine.execSnapSweepEnd r s
  | .tierEnable src => Sys2Proof.Machine.execTierEnable src s
  | .tierDisable src => Sys2Proof.Machine.execTierDisable src s
  | .tierStage src => Sys2Proof.Machine.execTierStage src s
  | .tierStagePin src => Sys2Proof.Machine.execTierStagePin src s
  | .tierUnpin src => Sys2Proof.Machine.execTierUnpin src s
  | .tierFlush src => Sys2Proof.Machine.execTierFlush src s
  | .tierEvict src => Sys2Proof.Machine.execTierEvict src s
  | .tierDiscard src => Sys2Proof.Machine.execTierDiscard src s
  | .tierTrim src => Sys2Proof.Machine.execTierTrim src s
  | .tierCmdDone => Sys2Proof.Machine.execTierCmdDone s
  | .fillDone f sec => Sys2Proof.Machine.execFillDone f sec s
  | .writebackDone f sec => Sys2Proof.Machine.execWritebackDone f sec s
  | .granReqTimeout tag => Sys2Proof.Machine.execGranReqTimeout tag s
  | .granEnable src => Sys2Proof.Machine.execGranEnable src s
  | .granDisable src => Sys2Proof.Machine.execGranDisable src s
  | .granFormat src bad spare => Sys2Proof.Machine.execGranFormat src bad spare s
  | .granWorkDone map late blks metaFail => Sys2Proof.Machine.execGranWorkDone map late blks metaFail s
  | .nandReadDone pun sec ok corr data poison => Sys2Proof.Machine.execNandReadDone pun sec ok corr data poison s
  | .nandProgramDone pun ok => Sys2Proof.Machine.execNandProgramDone pun ok s
  | .nandEraseDone bn ok => Sys2Proof.Machine.execNandEraseDone bn ok s
  | .gcRound c => Sys2Proof.Machine.execGcRound c s
  | .wlRelocate c => Sys2Proof.Machine.execWlRelocate c s
  | .journalProgram => Sys2Proof.Machine.execJournalProgram s
  | .checkpointWrite => Sys2Proof.Machine.execCheckpointWrite s
  | .granWalkEnd => Sys2Proof.Machine.execGranWalkEnd s
  | .legOpen src d l => Sys2Proof.Machine.execLegOpen src d l s
  | .legClose src d l => Sys2Proof.Machine.execLegClose src d l s
  | .wqEnable src d q => Sys2Proof.Machine.execWqEnable src d q s
  | .wqDisable src d q => Sys2Proof.Machine.execWqDisable src d q s
  | .wqPost src d q => Sys2Proof.Machine.execWqPost src d q s
  | .soArm src d k => Sys2Proof.Machine.execSoArm src d k s
  | .soCancel src d k => Sys2Proof.Machine.execSoCancel src d k s
  | .legOpenResend l => Sys2Proof.Machine.execLegOpenResend l s
  | .legRto l => Sys2Proof.Machine.execLegRto l s
  | .ackDelayExpire l => Sys2Proof.Machine.execAckDelayExpire l s
  | .carvDataRx p pkt => Sys2Proof.Machine.execCarvDataRx p pkt s
  | .carvReadReqRx p pkt => Sys2Proof.Machine.execCarvReadReqRx p pkt s
  | .carvReadDataRx p pkt => Sys2Proof.Machine.execCarvReadDataRx p pkt s
  | .carvResultRx p pkt => Sys2Proof.Machine.execCarvResultRx p pkt s
  | .carvAckRx p pkt => Sys2Proof.Machine.execCarvAckRx p pkt s
  | .carvNakRx p pkt => Sys2Proof.Machine.execCarvNakRx p pkt s
  | .carvOpenRx p pkt => Sys2Proof.Machine.execCarvOpenRx p pkt s
  | .carvOpenAckRx p pkt => Sys2Proof.Machine.execCarvOpenAckRx p pkt s
  | .carvCloseRx p pkt => Sys2Proof.Machine.execCarvCloseRx p pkt s
  | .postWqeRx p pkt => Sys2Proof.Machine.execPostWqeRx p pkt s
  | .postSoRx p pkt => Sys2Proof.Machine.execPostSoRx p pkt s
  | .wqeIssue q => Sys2Proof.Machine.execWqeIssue q s
  | .carvMemRsp p pkt => Sys2Proof.Machine.execCarvMemRsp p pkt s
  | .soAction d => Sys2Proof.Machine.execSoAction d s
  | .descWrite p pkt => Sys2Proof.Machine.execDescWrite p pkt s
  | .hostSubmit src t val => Sys2Proof.Machine.execHostSubmit src t val s
  | .descStart t => Sys2Proof.Machine.execDescStart t s
  | .tileFabricRsp p pkt => Sys2Proof.Machine.execTileFabricRsp p pkt s
  | .descEnd id => Sys2Proof.Machine.execDescEnd id s
  | .descCplRsp p pkt => Sys2Proof.Machine.execDescCplRsp p pkt s
  | .hlAssign src t => Sys2Proof.Machine.execHlAssign src t s
  | .hlAssignDone t => Sys2Proof.Machine.execHlAssignDone t s
  | .hlRelease src t => Sys2Proof.Machine.execHlRelease src t s
  | .tileEnable src t => Sys2Proof.Machine.execTileEnable src t s
  | .tileDisable src t => Sys2Proof.Machine.execTileDisable src t s
  | .sheafEnable src d k => Sys2Proof.Machine.execSheafEnable src d k s
  | .sheafDisable src d k => Sys2Proof.Machine.execSheafDisable src d k s
  | .sheafAbortCmd src d k => Sys2Proof.Machine.execSheafAbortCmd src d k s
  | .sheafReset src d k => Sys2Proof.Machine.execSheafReset src d k s
  | .sheafUpRx p pkt => Sys2Proof.Machine.execSheafUpRx p pkt s
  | .sheafDownRx p pkt => Sys2Proof.Machine.execSheafDownRx p pkt s
  | .sheafAbortRx p pkt => Sys2Proof.Machine.execSheafAbortRx p pkt s
  | .sheafPhaseTimeout k => Sys2Proof.Machine.execSheafPhaseTimeout k s
  | .sheafLinkLoss p => Sys2Proof.Machine.execSheafLinkLoss p s
  | .ctrValueWrite src c val => Sys2Proof.Machine.execCtrValueWrite src c val s
  | .ctrThreshWrite src c val => Sys2Proof.Machine.execCtrThreshWrite src c val s
  | .ctrAdd src c val => Sys2Proof.Machine.execCtrAdd src c val s
  | .ctrCfgWrite src c val => Sys2Proof.Machine.execCtrCfgWrite src c val s
  | .ctrEventRead src d => Sys2Proof.Machine.execCtrEventRead src d s
  | .kvPoolEnable src p => Sys2Proof.Machine.execKvPoolEnable src p s
  | .kvPoolDisable src p => Sys2Proof.Machine.execKvPoolDisable src p s
  | .kvPoolReset src p => Sys2Proof.Machine.execKvPoolReset src p s
  | .kvPoolInitDone p => Sys2Proof.Machine.execKvPoolInitDone p s
  | .kvSeqCreate src q => Sys2Proof.Machine.execKvSeqCreate src q s
  | .kvSeqDestroy src q => Sys2Proof.Machine.execKvSeqDestroy src q s
  | .kvSeqPreempt src q => Sys2Proof.Machine.execKvSeqPreempt src q s
  | .kvSeqResume src q => Sys2Proof.Machine.execKvSeqResume src q s
  | .kvSeqWorkDone q => Sys2Proof.Machine.execKvSeqWorkDone q s
  | .kvAppend id => Sys2Proof.Machine.execKvAppend id s
  | .kvFork id => Sys2Proof.Machine.execKvFork id s
  | .kvClear id => Sys2Proof.Machine.execKvClear id s
  | .kvEpochFlip => Sys2Proof.Machine.execKvEpochFlip s
  | .kvEpochEnd => Sys2Proof.Machine.execKvEpochEnd s
  | .kvAutoPreempt p => Sys2Proof.Machine.execKvAutoPreempt p s
  | .exdEnable src l => Sys2Proof.Machine.execExdEnable src l s
  | .exdDisable src l => Sys2Proof.Machine.execExdDisable src l s
  | .expertSync src l => Sys2Proof.Machine.execExpertSync src l s
  | .tokenWrite p pkt => Sys2Proof.Machine.execTokenWrite p pkt s
  | .tokenDecide d => Sys2Proof.Machine.execTokenDecide d s
  | .exdWriteRsp p pkt => Sys2Proof.Machine.execExdWriteRsp p pkt s
  | .expertOutputWrite p pkt => Sys2Proof.Machine.execExpertOutputWrite p pkt s
  | .cmbTimeout l e => Sys2Proof.Machine.execCmbTimeout l e s
  | .cmbCombine l e => Sys2Proof.Machine.execCmbCombine l e s
  | .cmbQuarEnd l e => Sys2Proof.Machine.execCmbQuarEnd l e s
  | .modeSealed src => Sys2Proof.Machine.execModeSealed src s
  | .modeShared src => Sys2Proof.Machine.execModeShared src s
  | .scrubDone => Sys2Proof.Machine.execScrubDone s
  | .dbgApply src => Sys2Proof.Machine.execDbgApply src s
  | .dbgEnd src => Sys2Proof.Machine.execDbgEnd src s
  | .dbgEpochAdvance src => Sys2Proof.Machine.execDbgEpochAdvance src s
  | .provisionBurn src val => Sys2Proof.Machine.execProvisionBurn src val s
  | .fuseProgramDone ok => Sys2Proof.Machine.execFuseProgramDone ok s
  | .imageLoad a b fuseOk => Sys2Proof.Machine.execImageLoad a b fuseOk s
  | .getVersion => Sys2Proof.Machine.execGetVersion s
  | .getCapabilities => Sys2Proof.Machine.execGetCapabilities s
  | .negotiateAlgorithms => Sys2Proof.Machine.execNegotiateAlgorithms s
  | .getDigests => Sys2Proof.Machine.execGetDigests s
  | .getCertificate => Sys2Proof.Machine.execGetCertificate s
  | .challenge => Sys2Proof.Machine.execChallenge s
  | .getMeasurements index => Sys2Proof.Machine.execGetMeasurements index s
  | .keyExchange => Sys2Proof.Machine.execKeyExchange s
  | .finish sid root => Sys2Proof.Machine.execFinish sid root s
  | .keyUpdate sid => Sys2Proof.Machine.execKeyUpdate sid s
  | .heartbeat sid => Sys2Proof.Machine.execHeartbeat sid s
  | .endSession sid => Sys2Proof.Machine.execEndSession sid s
  | .keyLoad sid group key => Sys2Proof.Machine.execKeyLoad sid group key s
  | .keyBind sid group fjid digest proof => Sys2Proof.Machine.execKeyBind sid group fjid digest proof s
  | .keyUnbind sid group fjid proof => Sys2Proof.Machine.execKeyUnbind sid group fjid proof s
  | .keyClear sid group proof => Sys2Proof.Machine.execKeyClear sid group proof s
  | .linkKey sid port tx rx => Sys2Proof.Machine.execLinkKey sid port tx rx s
  | .ideKmQuery sid => Sys2Proof.Machine.execIdeKmQuery sid s
  | .ideKmKeyProg sid stream set dir sub key => Sys2Proof.Machine.execIdeKmKeyProg sid stream set dir sub key s
  | .ideKmKSetGo sid stream set dir sub => Sys2Proof.Machine.execIdeKmKSetGo sid stream set dir sub s
  | .ideKmKSetStop sid stream set dir sub => Sys2Proof.Machine.execIdeKmKSetStop sid stream set dir sub s
  | .lockInterface sid vf => Sys2Proof.Machine.execLockInterface sid vf s
  | .getDeviceInterfaceReport sid vf => Sys2Proof.Machine.execGetDeviceInterfaceReport sid vf s
  | .getDeviceInterfaceState sid vf => Sys2Proof.Machine.execGetDeviceInterfaceState sid vf s
  | .startInterface sid vf nonce => Sys2Proof.Machine.execStartInterface sid vf nonce s
  | .stopInterface sid vf => Sys2Proof.Machine.execStopInterface sid vf s
  | .jtagIdcode => Sys2Proof.Machine.execJtagIdcode s
  | .jtagBypass => Sys2Proof.Machine.execJtagBypass s
  | .jtagDbgToken token => Sys2Proof.Machine.execJtagDbgToken token s
  | .jtagSamplePreload => Sys2Proof.Machine.execJtagSamplePreload s
  | .jtagExtest => Sys2Proof.Machine.execJtagExtest s
  | .jtagExtestPulse => Sys2Proof.Machine.execJtagExtestPulse s
  | .jtagExtestTrain => Sys2Proof.Machine.execJtagExtestTrain s
  | .jtagInternalScan => Sys2Proof.Machine.execJtagInternalScan s
  | .barnWindowRead addr n => Sys2Proof.Machine.execBarnWindowRead addr n s
  | .barnWindowWrite addr data => Sys2Proof.Machine.execBarnWindowWrite addr data s
  | .bwinRead src val => Sys2Proof.Machine.execBwinRead src val s
  | .bwinWrite src val => Sys2Proof.Machine.execBwinWrite src val s
  | .saveRdDataRead src => Sys2Proof.Machine.execSaveRdDataRead src s
  | .vfSubmit f t val => Sys2Proof.Machine.execVfSubmit f t val s
  | .vfCtrAdd f t val => Sys2Proof.Machine.execVfCtrAdd f t val s
  | .configWrite f w => Sys2Proof.Machine.execConfigWrite f w s
  | .bmeClear f => Sys2Proof.Machine.execBmeClear f s
  | .vfFlr f => Sys2Proof.Machine.execVfFlr f s
  | .pfFlr => Sys2Proof.Machine.execPfFlr s
  | .hostPortReset => Sys2Proof.Machine.execHostPortReset s
  | .hostRequest p pkt => Sys2Proof.Machine.execHostRequest p pkt s
  | .hostCompletion tag status data poison => Sys2Proof.Machine.execHostCompletion tag status data poison s
  | .hostCplTimeout tag => Sys2Proof.Machine.execHostCplTimeout tag s
  | .chainEnable src => Sys2Proof.Machine.execChainEnable src s
  | .chainDisable src => Sys2Proof.Machine.execChainDisable src s
  | .chainRestart src => Sys2Proof.Machine.execChainRestart src s
  | .chainClaimRx portB frame => Sys2Proof.Machine.execChainClaimRx portB frame s
  | .chainBeaconRx portB frame => Sys2Proof.Machine.execChainBeaconRx portB frame s
  | .chainEnumRx portB frame => Sys2Proof.Machine.execChainEnumRx portB frame s
  | .chainEnumEndRx portB frame => Sys2Proof.Machine.execChainEnumEndRx portB frame s
  | .chainReadRx portB ring frame => Sys2Proof.Machine.execChainReadRx portB ring frame s
  | .chainWriteRx portB ring frame => Sys2Proof.Machine.execChainWriteRx portB ring frame s
  | .chainReadRspRx portB frame => Sys2Proof.Machine.execChainReadRspRx portB frame s
  | .chainWriteRspRx portB frame => Sys2Proof.Machine.execChainWriteRspRx portB frame s
  | .chainEventRx portB frame => Sys2Proof.Machine.execChainEventRx portB frame s
  | .chainWindowRead off count => Sys2Proof.Machine.execChainWindowRead off count s
  | .chainWindowWrite off data => Sys2Proof.Machine.execChainWindowWrite off data s
  | .chainRspTimeout tag => Sys2Proof.Machine.execChainRspTimeout tag s
  | .chainListenTimer => Sys2Proof.Machine.execChainListenTimer s
  | .chainClaimTimer => Sys2Proof.Machine.execChainClaimTimer s
  | .chainBackoffTimer => Sys2Proof.Machine.execChainBackoffTimer s
  | .chainEnumTimeout => Sys2Proof.Machine.execChainEnumTimeout s
  | .chainBeaconSend => Sys2Proof.Machine.execChainBeaconSend s
  | .chainBeaconLoss => Sys2Proof.Machine.execChainBeaconLoss s
  | .chainRingBroken => Sys2Proof.Machine.execChainRingBroken s
  | .chainHostLoss => Sys2Proof.Machine.execChainHostLoss s
  | .chainPortDown portB => Sys2Proof.Machine.execChainPortDown portB s
  | .chainPortRestore portB => Sys2Proof.Machine.execChainPortRestore portB s
  | .domainOff src d => Sys2Proof.Machine.execDomainOff src d s
  | .domainOn src d => Sys2Proof.Machine.execDomainOn src d s
  | .domainOnDone => Sys2Proof.Machine.execDomainOnDone s
  | .warmReset src => Sys2Proof.Machine.execWarmReset src s
  | .coldReset src bad => Sys2Proof.Machine.execColdReset src bad s
  | .rstNAssert bad => Sys2Proof.Machine.execRstNAssert bad s
  | .supplyRise bad => Sys2Proof.Machine.execSupplyRise bad s
  | .startupDone => Sys2Proof.Machine.execStartupDone s
  | .crefclkLost => Sys2Proof.Machine.execCrefclkLost s
  | .pwrFailAssert => Sys2Proof.Machine.execPwrFailAssert s
  | .saveWriteDone ok => Sys2Proof.Machine.execSaveWriteDone ok s
  | .pwrFailRelease bad => Sys2Proof.Machine.execPwrFailRelease bad s
  | .vholdSample mv => Sys2Proof.Machine.execVholdSample mv s
  | .vholdLow => Sys2Proof.Machine.execVholdLow s
  | .brownOut fed low => Sys2Proof.Machine.execBrownOut fed low s
  | .thermTrip => Sys2Proof.Machine.execThermTrip s
  | .fenceLogical src g => Sys2Proof.Machine.execFenceLogical src g s
  | .fenceElectrical src g => Sys2Proof.Machine.execFenceElectrical src g s
  | .fenceRelease src g => Sys2Proof.Machine.execFenceRelease src g s
  | .fenceNoticeRx p pkt => Sys2Proof.Machine.execFenceNoticeRx p pkt s
  | .auditEpoch => Sys2Proof.Machine.execAuditEpoch s
  | .auditComplete broken => Sys2Proof.Machine.execAuditComplete broken s
  | .gctrSelWrite src n val => Sys2Proof.Machine.execGctrSelWrite src n val s
  | .wpCtrlWrite src w val => Sys2Proof.Machine.execWpCtrlWrite src w val s
  | .traceUnfreeze src val => Sys2Proof.Machine.execTraceUnfreeze src val s
  | .kvWalkEnd => Sys2Proof.Machine.execKvWalkEnd s
  | .rstNRelease => Sys2Proof.Machine.execRstNRelease s
  | .hostLinkUp => Sys2Proof.Machine.execHostLinkUp s
  | .gptpMessageSend p => Sys2Proof.Machine.execGptpMessageSend p s

end Sys2Proof.Machine
end

