-- ==== Sys2Proof/Machine/Tick.lean ====
section
/-! DEFINITION. One cycle of the core clock: what happens when no command waits (log entry 7). Fabric time
advances (R26), shapers earn (R105), PPS_OUT falls (R34), and the counters of cycles count (Table 3-13,
Table 18-9). -/

set_option Elab.async false

namespace Sys2Proof.Machine
open Sys2Proof

/-- Fabric time advances by TIME.INCR, in 2^-32 ns (R26). -/
def State.tickTime (s : State) : State :=
  s.modTime fun t => { t with now := t.now + (s.rg Adr.TIME_INCR).setWidth 96 }

/-- The shaper whose CFG register lies at `a`: its port and number. -/
def shaperOf (a : Nat) : Option (Nat × Nat) :=
  let o := (a - 0x100000) % 0x1000
  if 0x100000 ≤ a ∧ a < 0x300000 ∧ 0x740 ≤ o ∧ o < 0x740 + 16 * 9 ∧ (o - 0x740) % 16 = 0 then
    some ((a - 0x100000) / 0x1000, (o - 0x740) / 16)
  else none

/-- A shaper earns RATE / 128 bytes, up to its ceiling of BURST × 256 bytes (R105); what is lost there is
clipped (R107). A balance above the ceiling, left by a write of CFG, is kept from earning. -/
def State.earn (p i : Nat) (s : State) : State :=
  let rate := s.shRate p i
  if rate = 0 || !s.pageOn .port p then s
  else
    let h := s.shaper p i
    let top : Int := 128 * 256 * (s.shBurst p i : Int)
    let lost := min rate ((h.bal + rate - top).toNat)
    ((s.setShaper p i { h with
        bal := h.bal + rate - lost, earned := h.earned + rate, clipped := h.clipped + lost }).bump
      (Adr.PORT_SHAPER_EARNED p i) ((h.earned + rate) / 128 - h.earned / 128)).bump
      (Adr.PORT_SHAPER_CLIPPED p i) ((h.clipped + lost) / 128 - h.clipped / 128)

/-- Every shaped shaper earns. -/
def State.earnAll (s : State) : State :=
  (s.hub.regs.filterMap fun e => shaperOf e.1).foldl (fun s x => s.earn x.1 x.2) s

/-- PPS_OUT falls at the end of its pulse (R34). -/
def State.ppsFall (s : State) : State :=
  match s.time.ppsOut with
  | some t => if t ≤ s.ns then s.modTime fun u => { u with ppsOut := none } else s
  | none => s

/-- A head that only credits keep from being sent (R66, R100). -/
def State.starved (s : State) (q : Queued) : Bool :=
  let p := q.egress
  s.portActive p && s.portMode p != 1 && !q.isFrame && !s.canSend p q.cls (cellsOf q.len)
    && (q.ctl || (s.admitted p q.len q.isFrame q.gated && s.ttBoundOk q))
    && s.tokensOk p q.tc && s.tokensOk p 8

/-- A part that only the request credit of a CXL port keeps from being issued (R78). -/
def State.cxlStarved (s : State) (p : Nat) : Bool :=
  s.portActive p && s.ttu.reqs.any fun e => match e.2 with
    | some r => r.formed && r.parts.any fun x => x.st == .waiting && x.tgt.port == some (p, true) && !s.partReady x
    | none => false

/-- CREDIT_STALL of a port counts the cycle, and event 0x05 once per traffic class that stalls. -/
def State.stallPort (p : Nat) (s : State) : State :=
  let tcs := ((s.heads p).filter s.starved).map (·.tc)
  let s' := (List.range 8).foldl (fun s t =>
    if tcs.contains t then s.gcount 0x05 1 (portDie p) (some p) (some t) none else s) s
  if tcs.isEmpty && !s.cxlStarved p then s' else s'.bump (Adr.PORT_CREDIT_STALL p) 1

def State.stallAll (s : State) : State :=
  (List.map Prod.fst s.link.ports).foldl (fun s p => s.stallPort p) s

/-- Event 0x04: the cells of one buffered packet, under its ingress port and the traffic class of its first
copy that waits; no port and no class have the numbers 1023 and 15. -/
def State.cellsEvent (id : Nat) (e : Stored) (s : State) : State :=
  let port := match e.from_ with
    | .port p => p
    | .own _ => 1023
  s.gcount 0x04 e.cells e.die (some port) (some (((s.sw.queues.find? fun q => q.id == id).map (·.tc)).getD 15)) none

/-- Event 0x08: one tag held, under the FJID of its slot. -/
def State.tagEvent (n : Nat) (g : Tag) (s : State) : State :=
  if g.quar then s
  else s.gcount 0x08 1 (tagDie n) none none (some ((g.slot.map fun j => s.rf (Adr.JOB_FJID j) 19 0).getD (2 ^ 20)))

/-- The events of Table 18-9 that count every cycle. -/
def State.cycleEvents (s : State) : State :=
  let s := s.sw.stored.foldl (fun s e => s.cellsEvent e.1 e.2) s
  let s := s.tagList.foldl (fun s e => s.tagEvent e.1 e.2) s
  [0, 1].foldl (fun s d => if s.domOn (25 + d) then s.gcount 0x13 1 d none none none else s) s

/-- One core cycle. The core clock stands while the core does not run (Table 17-2). -/
def State.tick (s : State) : State :=
  if s.live then s.tickTime.earnAll.ppsFall.stallAll.cycleEvents else s

end Sys2Proof.Machine
end

