-- ==== Sys2Proof/Safety.lean ====
section
/-! DEFINITION. What counts as a safe state: the forms that the data of a state keep, so that equal memories and
equal register spaces are equal data. Claims about every step are stated in these terms. -/

set_option Elab.async false

namespace Sys2Proof.Machine
open Sys2Proof

/-- The barn is in its one form (INVENTORY, Memory and ordering): addresses strictly rising, no entry equal to what
an unlisted address reads as; and so are its poison marks. -/
def MemUnit.wf (m : MemUnit) : Bool :=
  m.barn.wf && m.poison.wf && m.barn.all fun e => decide (e.2 ≠ some (m.back e.1))

/-- The register space is in its one form: no register is listed at its reset value, no counter, table dword, stale
mark or staged dword at its default. -/
def Hub.wf (h : Hub) : Bool :=
  h.regs.wf && h.cnts.wf && h.tabs.wf && h.blank.wf && h.stageLo.wf && h.latchHi.wf && h.stageTab.wf
    && h.regs.all fun e => decide (e.2 ≠ some (regReset e.1))

/-- The invariant of every step: barn and register space keep their forms. -/
structure State.Inv (s : State) : Prop where
  mem : s.mem.wf = true
  hub : s.hub.wf = true

/-- The parts of the machine that a command may change. -/
inductive Place where
  /-- The registers. -/
  | regs
  /-- The 64-bit counters. -/
  | cnts
  /-- The table windows, in both copies. -/
  | tabs
  /-- Staged LO words and entries, latched HI words, the mark of a refused write. -/
  | staged
  /-- Fabric time, timetables. -/
  | time
  /-- Octets, ports, links. -/
  | link
  /-- The switch. -/
  | sw
  /-- The barn and its poison marks. -/
  | mem
  /-- Extents. -/
  | ext
  /-- Tiers and the granary. -/
  | tier
  /-- Jobs, requests, tags. -/
  | ttu
  /-- Faults, fences, audits. -/
  | flt
  /-- Observation. -/
  | obs
  /-- Security. -/
  | sec
  /-- The host endpoint. -/
  | host
  /-- The chain. -/
  | chain
  /-- Power and reset. -/
  | pwr
  /-- Homes and trackers. -/
  | home
  /-- Sheaf counters. -/
  | ctr
  /-- Carvels, work queues. -/
  | carv
  /-- Tiles, haylofts, runs. -/
  | tile
  /-- Key-value pools. -/
  | kv
  /-- Sheaves. -/
  | shv
  /-- Expert dispatch. -/
  | exd
  /-- What has been put on links and pins. -/
  | out
  /-- The counter of free values. -/
  | free
  /-- The counter of names. -/
  | names
  deriving DecidableEq, Repr

/-- A part is the same in `s` and `t`. -/
def same (s t : State) : Place → Prop
  | .regs => t.hub.regs = s.hub.regs
  | .cnts => t.hub.cnts = s.hub.cnts
  | .tabs => t.hub.tabs = s.hub.tabs ∧ t.hub.blank = s.hub.blank
  | .staged => t.hub.stageLo = s.hub.stageLo ∧ t.hub.latchHi = s.hub.latchHi ∧ t.hub.stageTab = s.hub.stageTab
    ∧ t.hub.refused = s.hub.refused
  | .time => t.time = s.time
  | .link => t.link = s.link
  | .sw => t.sw = s.sw
  | .mem => t.mem = s.mem
  | .ext => t.ext = s.ext
  | .tier => t.tier = s.tier
  | .ttu => t.ttu = s.ttu
  | .flt => t.flt = s.flt
  | .obs => t.obs = s.obs
  | .sec => t.sec = s.sec
  | .host => t.host = s.host
  | .chain => t.chain = s.chain
  | .pwr => t.pwr = s.pwr
  | .home => t.home = s.home
  | .ctr => t.ctr = s.ctr
  | .carv => t.carv = s.carv
  | .tile => t.tile = s.tile
  | .kv => t.kv = s.kv
  | .shv => t.shv = s.shv
  | .exd => t.exd = s.exd
  | .out => t.out = s.out
  | .free => t.free = s.free
  | .names => t.nextId = s.nextId

/-- A set of parts as a number: bit `p.bit` for part `p`. -/
def Place.bit : Place → Nat
  | .regs => 0
  | .cnts => 1
  | .tabs => 2
  | .staged => 3
  | .time => 4
  | .link => 5
  | .sw => 6
  | .mem => 7
  | .ext => 8
  | .tier => 9
  | .ttu => 10
  | .flt => 11
  | .obs => 12
  | .sec => 13
  | .host => 14
  | .chain => 15
  | .pwr => 16
  | .home => 17
  | .ctr => 18
  | .carv => 19
  | .tile => 20
  | .kv => 21
  | .shv => 22
  | .exd => 23
  | .out => 24
  | .free => 25
  | .names => 26

/-- A register write is taken: the source may write, the page is there, and neither its lock nor the mode refuses the
write (R485, R487, R489, R437). -/
def State.takes (s : State) (src : Source) (a : Nat) (acc : Access) : Bool :=
  s.mayWrite src a && match pageAt a with
    | none => false
    | some (k, i, _) => s.reaches src k i && s.present k i && match acc with
      | .rwl => !s.locked k i
      | .rws => s.sec.mode == .shared
      | .ro | .cnt => false
      | _ => true

/-- Command `c` completes from `s`: it answers a next state, of which `P` holds. -/
def Runs (c : Instr) (s : State) (P : State → Prop) : Prop := ∃ t, exec c s = .next t ∧ P t

/-- Every part. -/
def Place.all : List Place :=
  [.regs, .cnts, .tabs, .staged, .time, .link, .sw, .mem, .ext, .tier, .ttu, .flt, .obs, .sec, .host, .chain,
    .pwr, .home, .ctr, .carv, .tile, .kv, .shv, .exd, .out, .free, .names]

/-- The parts of the machine that a command may change: it leaves every other part as it found it. -/
def parts : Instr → List Place
  | .upstreamSilent .. | .listenClaimTimerEnd .. | .backoffTimerEnd .. =>
    [.time]
  | .pfcPauseExpire .. =>
    [.link]
  | .snapInitDone .. | .drainStart .. | .snapSweepStart .. =>
    [.ext]
  | .invalDone .. =>
    [.ttu]
  | .jtagBypass .. | .jtagExtest .. | .jtagExtestPulse .. | .jtagExtestTrain .. =>
    [.sec]
  | .rstNRelease .. =>
    [.pwr]
  | .kvEpochFlip .. =>
    [.kv]
  | .cmbQuarEnd .. =>
    [.exd]
  | .getDigests .. | .getCertificate .. | .challenge .. | .getMeasurements .. | .heartbeat .. | .ideKmQuery ..
  | .getDeviceInterfaceReport .. | .getDeviceInterfaceState .. | .chainBeaconSend .. =>
    [.out]
  | .signalDetect .. | .cxlCfgTimeout .. =>
    [.regs, .link]
  | .starvePromote .. =>
    [.cnts, .sw]
  | .jtagDbgToken .. =>
    [.regs, .sec]
  | .hostLinkUp .. =>
    [.host, .chain]
  | .kvEpochEnd .. =>
    [.mem, .kv]
  | .paramSend .. | .creditAdvSend .. | .cxlDeviceRequest .. =>
    [.cnts, .out]
  | .ppsOutRise .. | .gptpMessageSend .. =>
    [.time, .out]
  | .linkKey .. =>
    [.link, .out]
  | .checkpointWrite .. =>
    [.tier, .out]
  | .getVersion .. | .getCapabilities .. | .negotiateAlgorithms .. | .keyExchange .. | .finish ..
  | .keyUpdate .. | .endSession .. | .keyLoad .. | .keyBind .. | .keyUnbind .. | .ideKmKeyProg ..
  | .ideKmKSetGo .. | .ideKmKSetStop .. =>
    [.sec, .out]
  | .startInterface .. | .stopInterface .. =>
    [.host, .out]
  | .chainListenTimer .. | .chainBackoffTimer .. | .chainBeaconLoss .. | .chainHostLoss .. =>
    [.chain, .out]
  | .thermTrip .. =>
    [.pwr, .out]
  | .saveWriteDone .. | .vholdSample .. =>
    [.pwr, .free]
  | .hdmEnable .. | .targetDeadClear .. | .gctrSelWrite .. | .wpCtrlWrite .. =>
    [.regs, .cnts, .staged]
  | .flitTx .. =>
    [.cnts, .link, .out]
  | .cxlCfgCompletion .. =>
    [.regs, .link, .free]
  | .jtagIdcode .. | .jtagSamplePreload .. | .jtagInternalScan .. =>
    [.sec, .out, .free]
  | .lockInterface .. =>
    [.host, .out, .free]
  | .timeSetWrite .. | .gmCfgWrite .. | .ttDataHiWrite .. | .ttCommit .. | .ttCancel .. =>
    [.regs, .cnts, .staged, .time]
  | .tierEnable .. | .tierDisable .. =>
    [.regs, .cnts, .staged, .mem]
  | .queueSample .. =>
    [.regs, .cnts, .sw, .mem]
  | .jobActivate .. | .jobRelease .. | .jobInval .. =>
    [.regs, .cnts, .staged, .ttu]
  | .traceUnfreeze .. =>
    [.regs, .cnts, .staged, .obs]
  | .provisionBurn .. =>
    [.regs, .cnts, .staged, .sec]
  | .domReset .. =>
    [.regs, .cnts, .staged, .home]
  | .tileEnable .. | .tileDisable .. =>
    [.regs, .cnts, .staged, .tile]
  | .kvPoolDisable .. =>
    [.regs, .cnts, .staged, .kv]
  | .gcRound .. | .wlRelocate .. =>
    [.cnts, .mem, .tier, .out]
  | .cxlMsiWrite .. =>
    [.regs, .cnts, .host, .out]
  | .pfcSend .. | .pfcRefresh .. =>
    [.cnts, .link, .out, .free]
  | .packetTxDone .. | .responseCellWaitEnd .. =>
    [.cnts, .link, .sw, .names]
  | .syncBeaconSend .. =>
    [.time, .link, .sw, .names]
  | .shaperCfgWrite .. | .shaperReset .. =>
    [.regs, .cnts, .staged, .sw, .flt]
  | .granEnable .. =>
    [.regs, .cnts, .staged, .tier, .pwr]
  | .domEnable .. =>
    [.regs, .cnts, .staged, .mem, .home]
  | .kvPoolEnable .. | .kvPoolReset .. =>
    [.regs, .cnts, .staged, .mem, .kv]
  | .cxlCfgGo .. =>
    [.regs, .cnts, .staged, .link, .out]
  | .leaseExpiry .. =>
    [.regs, .cnts, .ext, .host, .out]
  | .jobDrained .. =>
    [.regs, .cnts, .ttu, .host, .out]
  | .chainEnable .. | .chainDisable .. | .chainRestart .. =>
    [.regs, .cnts, .staged, .chain, .out]
  | .startupDone .. =>
    [.regs, .cnts, .host, .pwr, .out]
  | .hlAssignDone .. =>
    [.regs, .cnts, .host, .tile, .out]
  | .kvPoolInitDone .. =>
    [.regs, .cnts, .host, .kv, .out]
  | .domFlush .. =>
    [.regs, .cnts, .staged, .home, .names]
  | .ackDelayExpire .. =>
    [.cnts, .link, .sw, .carv, .names]
  | .egressGrant .. =>
    [.cnts, .link, .sw, .out, .names]
  | .cmbCombine .. =>
    [.cnts, .ttu, .exd, .free, .names]
  | .octetApply .. =>
    [.regs, .cnts, .staged, .time, .link, .sw]
  | .extCreate .. | .extFence .. | .extReclaim .. | .leaseGrant .. | .leaseRenew .. | .leaseRelease ..
  | .snapDestroy .. =>
    [.regs, .cnts, .staged, .ext, .host, .out]
  | .drainEnd .. =>
    [.regs, .cnts, .mem, .ext, .host, .out]
  | .dbgEnd .. =>
    [.regs, .cnts, .staged, .sec, .host, .out]
  | .granDisable .. =>
    [.regs, .cnts, .staged, .tier, .pwr, .out]
  | .wqEnable .. =>
    [.regs, .cnts, .staged, .host, .carv, .out]
  | .hlAssign .. | .hlRelease .. =>
    [.regs, .cnts, .staged, .host, .tile, .out]
  | .sheafReset .. =>
    [.regs, .cnts, .staged, .host, .shv, .out]
  | .granFormat .. =>
    [.regs, .cnts, .staged, .mem, .tier, .free]
  | .counterLoRead .. | .timeNowRead .. | .ctrEventRead .. | .saveRdDataRead .. =>
    [.regs, .staged, .pwr, .ctr, .out, .free]
  | .domSweepDone .. =>
    [.regs, .cnts, .host, .home, .out, .names]
  | .snapCreate .. | .snapOpen .. | .viewAttach .. | .viewDetach .. | .snapClose .. =>
    [.regs, .cnts, .staged, .mem, .ext, .host, .out]
  | .soArm .. | .soCancel .. =>
    [.regs, .cnts, .staged, .mem, .host, .ctr, .out]
  | .scrubDone .. =>
    [.regs, .cnts, .mem, .sec, .host, .tile, .out]
  | .kvSeqCreate .. =>
    [.regs, .cnts, .staged, .mem, .host, .kv, .out]
  | .sheafEnable .. | .sheafDisable .. =>
    [.regs, .cnts, .staged, .host, .tile, .shv, .out]
  | .expertSync .. =>
    [.regs, .cnts, .staged, .mem, .host, .exd, .out]
  | .exdDisable .. =>
    [.regs, .cnts, .staged, .host, .tile, .exd, .out]
  | .chainReadRx .. =>
    [.regs, .cnts, .staged, .pwr, .ctr, .out, .free]
  | .exdEnable .. =>
    [.regs, .cnts, .staged, .mem, .host, .tile, .exd, .out]
  | .chainWindowRead .. =>
    [.regs, .cnts, .staged, .chain, .pwr, .ctr, .out, .free]
  | .legOpenResend .. =>
    [.regs, .cnts, .link, .sw, .host, .carv, .out, .names]
  | .carvReadReqRx .. | .carvAckRx .. | .carvNakRx .. =>
    [.cnts, .link, .sw, .mem, .ttu, .carv, .free, .names]
  | .ethFrameRx .. | .pfcFrameRx .. | .pfcWatchdog .. | .barnWindowRead .. | .barnWindowWrite ..
  | .auditEpoch .. =>
    [.regs, .cnts, .link, .sw, .mem, .flt, .host, .out, .names]
  | .legOpen .. =>
    [.regs, .cnts, .staged, .link, .sw, .host, .carv, .out, .names]
  | .kvSeqDestroy .. | .kvSeqPreempt .. | .kvSeqResume .. =>
    [.regs, .cnts, .staged, .mem, .host, .tile, .kv, .out, .names]
  | .bwinRead .. | .bwinWrite .. =>
    [.regs, .cnts, .staged, .link, .sw, .mem, .flt, .host, .out, .names]
  | .delayReqRx .. | .ppsLost .. | .refLost .. =>
    [.regs, .cnts, .time, .link, .sw, .mem, .flt, .host, .out, .names]
  | .snapSweepEnd .. =>
    [.regs, .cnts, .link, .sw, .mem, .ext, .flt, .host, .out, .names]
  | .keyClear .. =>
    [.regs, .cnts, .link, .sw, .mem, .flt, .sec, .host, .out, .names]
  | .chainClaimRx .. | .chainBeaconRx .. | .chainEnumRx .. | .chainEnumEndRx .. | .chainReadRspRx ..
  | .chainWriteRspRx .. | .chainEventRx .. | .chainRspTimeout .. | .chainClaimTimer .. | .chainEnumTimeout ..
  | .chainRingBroken .. | .chainPortDown .. | .chainPortRestore .. =>
    [.regs, .cnts, .link, .sw, .mem, .flt, .host, .chain, .out, .names]
  | .vholdLow .. =>
    [.regs, .cnts, .link, .sw, .mem, .flt, .host, .pwr, .out, .names]
  | .ctrCfgWrite .. | .vfCtrAdd .. =>
    [.regs, .cnts, .link, .sw, .mem, .flt, .host, .ctr, .out, .names]
  | .kvWalkEnd .. =>
    [.regs, .cnts, .link, .sw, .mem, .flt, .host, .kv, .out, .names]
  | .sheafAbortRx .. | .sheafPhaseTimeout .. | .sheafLinkLoss .. =>
    [.regs, .cnts, .link, .sw, .mem, .flt, .host, .shv, .out, .names]
  | .cmbTimeout .. =>
    [.regs, .cnts, .link, .sw, .mem, .flt, .host, .exd, .out, .names]
  | .signalLost .. | .equalisationDone .. | .portTimerExpire .. | .paramRx .. | .creditAdvRx ..
  | .retrainReqRx .. | .dataFlitRx .. | .idleFlitRx .. | .cxlTrain .. =>
    [.regs, .cnts, .time, .link, .sw, .mem, .ttu, .flt, .host, .out, .names]
  | .modeSealed .. | .modeShared .. =>
    [.regs, .cnts, .staged, .link, .sw, .mem, .flt, .sec, .host, .out, .names]
  | .hostPortReset .. =>
    [.regs, .cnts, .link, .sw, .mem, .ttu, .flt, .host, .chain, .out, .names]
  | .domainOn .. =>
    [.regs, .cnts, .staged, .link, .sw, .mem, .flt, .host, .pwr, .out, .names]
  | .granWorkDone .. | .nandEraseDone .. | .granWalkEnd .. =>
    [.regs, .cnts, .link, .sw, .mem, .tier, .flt, .host, .pwr, .out, .names]
  | .ctrValueWrite .. | .ctrThreshWrite .. | .ctrAdd .. =>
    [.regs, .cnts, .staged, .link, .sw, .mem, .flt, .host, .ctr, .out, .names]
  | .descCplRsp .. =>
    [.regs, .cnts, .link, .sw, .mem, .ttu, .flt, .host, .ctr, .out, .names]
  | .wqPost .. =>
    [.regs, .cnts, .staged, .link, .sw, .mem, .flt, .host, .carv, .out, .names]
  | .kvAutoPreempt .. =>
    [.regs, .cnts, .link, .sw, .mem, .flt, .host, .tile, .kv, .out, .names]
  | .sheafAbortCmd .. =>
    [.regs, .cnts, .staged, .link, .sw, .mem, .flt, .host, .shv, .out, .names]
  | .timeSetEffect .. | .ttSwitch .. | .ttEntryBoundary .. =>
    [.regs, .cnts, .time, .link, .sw, .mem, .flt, .host, .shv, .out, .names]
  | .exdWriteRsp .. =>
    [.regs, .cnts, .link, .sw, .mem, .ttu, .flt, .host, .exd, .out, .names]
  | .configWrite .. | .bmeClear .. | .vfFlr .. | .hostRequest .. | .hostCompletion .. | .hostCplTimeout .. =>
    [.regs, .cnts, .link, .sw, .mem, .ttu, .flt, .host, .out, .free, .names]
  | .portDisable .. | .portRetrain .. =>
    [.regs, .cnts, .staged, .time, .link, .sw, .mem, .ttu, .flt, .host, .out, .names]
  | .packetRx .. =>
    [.regs, .cnts, .time, .link, .sw, .mem, .ttu, .flt, .obs, .host, .out, .names]
  | .vfSubmit .. =>
    [.regs, .cnts, .link, .sw, .mem, .ttu, .flt, .host, .ctr, .tile, .out, .names]
  | .tileFabricRsp .. | .kvSeqWorkDone .. | .kvAppend .. | .kvFork .. | .kvClear .. =>
    [.regs, .cnts, .link, .sw, .mem, .ttu, .flt, .host, .tile, .kv, .out, .names]
  | .tierCmdDone .. | .journalProgram .. =>
    [.regs, .cnts, .link, .sw, .mem, .tier, .ttu, .flt, .host, .out, .free, .names]
  | .dbgApply .. | .dbgEpochAdvance .. =>
    [.regs, .cnts, .staged, .link, .sw, .mem, .flt, .sec, .host, .out, .free, .names]
  | .pfFlr .. =>
    [.regs, .cnts, .link, .sw, .mem, .ttu, .flt, .host, .chain, .out, .free, .names]
  | .trackerStart .. | .snpRespRx .. | .cdatHomeRx .. | .compAckRx .. | .snoopTimeout .. =>
    [.regs, .cnts, .link, .sw, .mem, .ttu, .flt, .host, .home, .out, .free, .names]
  | .postSoRx .. =>
    [.regs, .cnts, .link, .sw, .mem, .ttu, .flt, .host, .ctr, .out, .free, .names]
  | .postWqeRx .. =>
    [.regs, .cnts, .link, .sw, .mem, .ttu, .flt, .host, .carv, .out, .free, .names]
  | .syncRx .. | .delayRspRx .. | .gptpMessageRx .. | .ppsInEdge .. =>
    [.regs, .cnts, .time, .link, .sw, .mem, .flt, .host, .shv, .out, .free, .names]
  | .sheafUpRx .. | .sheafDownRx .. =>
    [.regs, .cnts, .link, .sw, .mem, .flt, .host, .ctr, .shv, .out, .free, .names]
  | .tokenDecide .. =>
    [.regs, .cnts, .link, .sw, .mem, .ttu, .flt, .host, .exd, .out, .free, .names]
  | .wqDisable .. =>
    [.regs, .cnts, .staged, .link, .sw, .mem, .ttu, .flt, .host, .ctr, .carv, .out, .names]
  | .hostSubmit .. =>
    [.regs, .cnts, .staged, .link, .sw, .mem, .ttu, .flt, .host, .ctr, .tile, .out, .names]
  | .soAction .. =>
    [.regs, .cnts, .link, .sw, .mem, .ttu, .flt, .host, .ctr, .carv, .tile, .out, .names]
  | .descStart .. =>
    [.regs, .cnts, .link, .sw, .mem, .ttu, .flt, .host, .ctr, .tile, .kv, .out, .names]
  | .tierStage .. | .tierStagePin .. | .tierUnpin .. | .tierFlush .. | .tierEvict .. | .tierDiscard ..
  | .tierTrim .. =>
    [.regs, .cnts, .staged, .link, .sw, .mem, .tier, .ttu, .flt, .host, .out, .free, .names]
  | .agentDeadWrite .. =>
    [.regs, .cnts, .tabs, .link, .sw, .mem, .ttu, .flt, .host, .home, .out, .free, .names]
  | .creqRx .. =>
    [.regs, .cnts, .link, .sw, .mem, .ttu, .flt, .obs, .host, .home, .out, .free, .names]
  | .legRto .. | .carvDataRx .. | .carvReadDataRx .. | .carvResultRx .. | .carvOpenRx .. | .carvOpenAckRx ..
  | .carvCloseRx .. | .wqeIssue .. | .carvMemRsp .. =>
    [.regs, .cnts, .link, .sw, .mem, .ttu, .flt, .host, .ctr, .carv, .out, .free, .names]
  | .cxlMemdataRx .. | .targetRspRx .. | .targetTimeout .. | .granReqTimeout .. =>
    [.regs, .cnts, .link, .sw, .mem, .ttu, .flt, .host, .home, .tile, .out, .free, .names]
  | .legClose .. =>
    [.regs, .cnts, .staged, .link, .sw, .mem, .ttu, .flt, .host, .ctr, .carv, .out, .free, .names]
  | .cxlLinkFatal .. =>
    [.regs, .cnts, .time, .link, .sw, .mem, .ttu, .flt, .host, .home, .tile, .out, .free, .names]
  | .barnAccessDone .. | .fillDone .. | .writebackDone .. | .nandReadDone .. =>
    [.regs, .cnts, .link, .sw, .mem, .tier, .ttu, .flt, .host, .home, .tile, .out, .free, .names]
  | .descEnd .. =>
    [.regs, .cnts, .link, .sw, .mem, .ttu, .flt, .host, .ctr, .tile, .kv, .out, .free, .names]
  | .mreqIssue .. =>
    [.regs, .cnts, .link, .sw, .mem, .ext, .tier, .ttu, .flt, .host, .home, .tile, .out, .free, .names]
  | .nandProgramDone .. =>
    [.regs, .cnts, .link, .sw, .mem, .tier, .ttu, .flt, .host, .pwr, .home, .tile, .out, .free, .names]
  | .fenceNoticeRx .. =>
    [.regs, .cnts, .time, .link, .sw, .mem, .ttu, .flt, .host, .home, .tile, .shv, .out, .free, .names]
  | .portEnable .. | .fenceLogical .. | .fenceElectrical .. | .fenceRelease .. =>
    [.regs, .cnts, .staged, .time, .link, .sw, .mem, .ttu, .flt, .host, .home, .tile, .shv, .out, .free, .names]
  | .fuseProgramDone .. =>
    [.regs, .cnts, .time, .link, .sw, .mem, .ttu, .flt, .sec, .host, .home, .tile, .shv, .out, .free, .names]
  | .mreqRx .. | .descWrite .. | .tokenWrite .. | .expertOutputWrite .. =>
    [.regs, .cnts, .link, .sw, .mem, .ttu, .flt, .obs, .host, .home, .ctr, .tile, .exd, .out, .free, .names]
  | .domainOff .. =>
    [.regs, .cnts, .tabs, .staged, .time, .link, .sw, .mem, .tier, .ttu, .flt, .sec, .host, .pwr, .tile, .out,
      .names]
  | .domainOnDone .. =>
    [.regs, .cnts, .tabs, .time, .link, .sw, .mem, .tier, .ttu, .flt, .sec, .host, .pwr, .tile, .out, .free,
      .names]
  | .auditComplete .. =>
    [.regs, .cnts, .time, .link, .sw, .mem, .ttu, .flt, .host, .home, .tile, .kv, .shv, .exd, .out, .free,
      .names]
  | .jobStop .. =>
    [.regs, .cnts, .staged, .link, .sw, .mem, .ttu, .flt, .host, .home, .ctr, .carv, .tile, .kv, .shv, .exd,
      .out, .free, .names]
  | .regWrite .. | .tableWindowWrite .. | .lockWrite .. | .errClear .. | .imageLoad .. | .chainWriteRx ..
  | .chainWindowWrite .. | .warmReset .. | .coldReset .. | .rstNAssert .. | .supplyRise .. | .crefclkLost ..
  | .pwrFailAssert .. | .pwrFailRelease .. | .brownOut .. =>
    Place.all

/-- What a command that changes only the parts `u` keeps, from the state `z` it found: the forms, the queue, what has
been put on links and pins, the counters of free values and of names, which never go back, and the other parts. -/
structure Keeps (u : Nat) (z s : State) : Prop where
  inv : s.Inv
  queue : s.pending = z.pending
  out : z.out <+: s.out
  free : z.free ≤ s.free
  names : z.nextId ≤ s.nextId
  frame : ∀ p : Place, u.testBit p.bit = false → same z s p

/-- An outcome that goes on does so in a state that keeps all this. -/
def Safe (u : Nat) (z : State) : Host.Outcome State Fault Refusal → Prop
  | .next s => Keeps u z s
  | .fault _ => True
  | .refused _ => True

end Sys2Proof.Machine
end

