-- ==== Sys2Proof/Certificates/Slice0/Obligations.lean ====
section
/-! DEFINITION. The statements for the provers. -/

set_option Elab.async false

open Sys2Proof Sys2Proof.Machine

/-- A step with command `c` at the front of the queue is `exec` of `c` on the state with the queue's rest. -/
def Obligations.StepRunsFront : Prop :=
  ∀ (s : State) (c : Instr), step { s with pending := c :: s.pending } = exec c s

/-- With no command waiting a step is one cycle of the core clock (log entry 7; R26): while the core runs, fabric time
advances by TIME.INCR; nothing is stored, nothing moves in the fabric and no command is put in the queue. While the core
does not run nothing changes. -/
def Obligations.ClockCycle : Prop :=
  (∀ s : State, s.pending = [] → s.live = true → ∃ t, step s = .next t ∧ t.pending = [] ∧
    t.time.now = s.time.now + (s.rg Adr.TIME_INCR).setWidth 96 ∧ t.mem = s.mem ∧ t.link = s.link ∧ t.out = s.out ∧
    t.ttu = s.ttu ∧ t.sec = s.sec ∧ t.pwr = s.pwr ∧ t.hub.regs = s.hub.regs) ∧
  (∀ s : State, s.pending = [] → s.live = false → step s = .next s)

/-- Every command completes in every state: none of them stops the block. -/
def Obligations.EveryCommandCompletes : Prop := ∀ (c : Instr) (s : State), ∃ t, exec c s = .next t

/-- Reset leaves the block in its invariant, with no command waiting. -/
def Obligations.ResetKeepsForms : Prop := State.reset.Inv ∧ State.reset.pending = []

/-- What reset leaves, as the spec gives it: the configuration loader is waited for, in SHARED where the image does not say
otherwise (R388, Table 15-4); every port is OFF, fabric time is 0, every job slot is FREE, every extent FREE, the chain is
OFF; each register reads its reset value and each counter 0. -/
def Obligations.ResetValues : Prop :=
  State.reset.pwr.pstate = .starting ∧ State.reset.pwr.image = true ∧ State.reset.sec.mode = .shared ∧
  State.reset.time.now = 0 ∧ (∀ p, (State.reset.port p).st = .off) ∧ (∀ j, State.reset.job j = .free) ∧
  (∀ e, (State.reset.extent e).st = .free) ∧ State.reset.chain.st = .off ∧ (∀ p, (State.reset.pool p).st = .off) ∧
  (∀ a, State.reset.rg a = regReset a) ∧ (∀ a, State.reset.cnt a = 0) ∧
  State.reset.rg Adr.TIME_INCR = 0xA0000000 ∧ State.reset.rg (Adr.PORT_STARVE_CFG 511) = 100

/-- Every step keeps the forms of the data: the barn and its poison marks list addresses in strictly rising order and no
byte at what an unlisted address reads as, and the register space lists no register at its reset value. -/
def Obligations.StepKeepsForms : Prop := ∀ s t : State, s.Inv → step s = .next t → t.Inv

/-- A command leaves every part of the machine that `parts` does not name for it as it found it: registers, counters,
tables, each unit, memory, outputs. -/
def Obligations.CommandFrame : Prop :=
  ∀ (c : Instr) (s t : State), s.Inv → exec c s = .next t → ∀ p, p ∉ parts c → same s t p

/-- A step takes exactly the front command from the queue, only adds to what has been put on links and pins, and never takes
back a free value or a name. -/
def Obligations.StepOrder : Prop :=
  ∀ s t : State, s.Inv → step s = .next t →
    t.pending = s.pending.tail ∧ (∃ l, t.out = s.out ++ l) ∧ s.free ≤ t.free ∧ s.nextId ≤ t.nextId

/-- R48: `newer` in a field of n bits is the comparison of RFC 1982; of two values exactly half the range apart neither is
newer. -/
def Obligations.SerialCompare : Prop :=
  ∀ n a b : Nat, 1 ≤ n →
    (newer a b n = true ↔ ((a : Int) - b) % 2 ^ n ≠ 0 ∧ ((a : Int) - b) % 2 ^ n < 2 ^ (n - 1)) ∧
    (((a : Int) - b) % 2 ^ n = 2 ^ (n - 1) → newer a b n = false ∧ newer b a n = false)

/-- R43: while a switch of port p's timetable is pending for T, writes of TT_DATA_HI, TT_LEN, TT_CYCLE and TT_BASE_HI and a
second COMMIT set REJECT to 7 and leave the timetable, the list being loaded and every other register. CANCEL before T drops
the switch; at T or after it has no effect. -/
def Obligations.PendingSwitch : Prop :=
  ∀ (s : State) src p (v : Word) T, s.Inv → p < 512 → (s.timetable p).pend = some T →
    (s.takes src (Adr.PORT_TT_DATA_HI p) .rw = true → Runs (.ttDataHiWrite src p v) s fun t =>
      t.rf (Adr.PORT_TT_STATUS p) 7 4 = 7 ∧ t.time = s.time ∧ ∀ b, b ≠ Adr.PORT_TT_STATUS p → t.rg b = s.rg b) ∧
    (∀ a ∈ [Adr.PORT_TT_LEN p, Adr.PORT_TT_CYCLE p, Adr.PORT_TT_BASE_HI p], s.takes src a .rw = true →
      Runs (.regWrite src false a (leBytes 4 v.toNat)) s fun t =>
        t.rf (Adr.PORT_TT_STATUS p) 7 4 = 7 ∧ t.time = s.time ∧ ∀ b, b ≠ Adr.PORT_TT_STATUS p → t.rg b = s.rg b) ∧
    (s.takes src (Adr.PORT_TT_CTRL p) .rw = true → bit v 31 = true → bit v 30 = false →
      Runs (.ttCommit src p v) s fun t =>
        t.rf (Adr.PORT_TT_STATUS p) 7 4 = 7 ∧ t.time = s.time ∧ ∀ b, b ≠ Adr.PORT_TT_STATUS p → t.rg b = s.rg b) ∧
    (s.takes src (Adr.PORT_TT_CTRL p) .rw = true → bit v 30 = true → bit v 31 = false →
      (s.ns < T → Runs (.ttCancel src p v) s fun t => (t.timetable p).pend = none) ∧
      (T ≤ s.ns → Runs (.ttCancel src p v) s fun t => (t.timetable p).pend = some T))

/-- R53, Table 3-3: bring-up of a port. With signal on all lanes of a port in DETECT it enters EQUALISE; equalisation
done takes an Avber port to PARAM, an Ethernet port to ACTIVE; a PARAM record that agrees takes it to CREDIT, with its
own reservations read; a CREDIT_ADV record that has seen ours takes it to ACTIVE with the partner's cells; the timer of a
state before ACTIVE takes it back to DETECT, as losing signal does. No other port changes. R53, R54: retraining. RETRAIN_REQ received in ACTIVE, or RETRAIN written with EN set, takes an Avber port in ACTIVE to
RETRAIN; EN written 0 takes a port that is not FENCED out of the link, as `leaveTo` says. -/
def Obligations.LinkStates : Prop :=
  (∀ s p, s.portExists p = true → (s.port p).st = .detect →
    Runs (.signalDetect p) s fun t => t.link = (s.modPort p fun q => { q with st := .equalise }).link) ∧
  (∀ s p errors n, s.portExists p = true → (s.port p).st = .equalise → s.portMode p = 1 →
    Runs (.equalisationDone p errors n) s fun t =>
      t.link = (s.modPort p fun q => { q with st := .active, fec := 2 }).link) ∧
  (∀ s p errors n, s.portExists p = true → (s.port p).st = .equalise → s.portMode p = 0 →
    Runs (.equalisationDone p errors n) s fun t =>
      t.link = (s.modPort p fun q => { q with st := .param, adv := none, seen := false }).link) ∧
  (∀ s p rec fec, s.portMode p = 0 → ctrlClean rec = true → nbits (leNat (rec.take 1)) 7 4 = 1 → (s.port p).st = .param →
    nbits (leNat ((rec.drop 1).take 1)) 2 0 = s.widthCode p → leNat ((rec.drop 8).take 8) ≠ s.serial →
    fecChoice (s.rf (Adr.PORT_PORT_CTRL p) 3 2) (nbits (leNat ((rec.drop 2).take 1)) 1 0) (s.llOk p)
      (nbits (leNat ((rec.drop 2).take 1)) 2 2 == 1) = some fec →
    Runs (.paramRx p rec) s fun t => ∃ rsv lim,
      t.link = (s.modPort p fun q => { q with st := .credit, fec := fec, rsv := rsv, shared := lim - rsv.sum }).link) ∧
  (∀ s p rec, s.portMode p = 0 → ctrlClean rec = true → nbits (leNat (rec.take 1)) 7 4 = 2 → (s.port p).st = .credit →
    nbits (leNat ((rec.drop 1).take 1)) 0 0 = 1 →
    Runs (.creditAdvRx p rec) s fun t => (t.port p).st = .active ∧ (t.port p).txS = 0 ∧ (t.port p).rxS = 0 ∧
      (t.port p).prsv = (List.range 11).map (fun c => leNat ((rec.drop (2 + 2 * c)).take 2)) ∧
      (t.port p).pshared = nbits (leNat ((rec.drop 24).take 4)) 19 0 ∧ ∀ q, q ≠ p → t.port q = s.port q) ∧
  (∀ s p, (s.port p).st = .equalise ∨ (s.port p).st = .param ∨ (s.port p).st = .credit →
    Runs (.portTimerExpire p) s fun t => t.link = (s.modPort p fun q => { q with st := .detect, fec := 0 }).link) ∧
  (∀ s p lane, s.portExists p = true → p + lane ∈ s.portLanes p →
    (s.port p).st = .equalise ∨ (s.port p).st = .param ∨ (s.port p).st = .credit →
    Runs (.signalLost p lane) s fun t => t.link = (s.modPort p fun q => { q with st := .detect, fec := 0 }).link) ∧
  (∀ s p rec, s.portMode p = 0 → ctrlClean rec = true → nbits (leNat (rec.take 1)) 7 4 = 3 → (s.port p).st = .active →
    Runs (.retrainReqRx p rec) s fun t => (t.port p).st = .retrain) ∧
  (∀ s src p val, s.takes src (Adr.PORT_PORT_CTRL p) .rw = true →
    (s.sec.mode ≠ .sealed ∨ (s.port p).keyUsed.isSome = true) → s.rf (Adr.PORT_PORT_CTRL p) 0 0 = 1 →
    bits val 3 2 ≠ 3 → (s.port p).st = .active →
    Runs (.portRetrain src p val) s fun t => (t.port p).st = .retrain) ∧
  (∀ s src p val, s.takes src (Adr.PORT_PORT_CTRL p) .rw = true → bits val 3 2 ≠ 3 → (s.port p).st ≠ .fenced →
    exec (.portDisable src p val) s =
      .next ((s.setRg (Adr.PORT_PORT_CTRL p) (setBits val 0 0 0 &&& 0xD)).leaveTo p .off))

/-- R51: APPLY with a layout that Table 3-2 does not refuse puts MODE and LAYOUT of the octet into force. -/
def Obligations.OctetApply : Prop :=
  ∀ s src n val, s.takes src (Adr.OCTET_CTRL n) .wo = true → bit val 0 = true →
    s.layoutReject n (s.rf (Adr.OCTET_MODE n) 1 0) (s.rf (Adr.OCTET_LAYOUT n) 23 0) = 0 →
    Runs (.octetApply src n val) s fun t =>
      t.octLayout n = (s.rf (Adr.OCTET_MODE n) 1 0, s.rf (Adr.OCTET_LAYOUT n) 23 0)

/-- R59, R63: what a port in ACTIVE sends and takes. PARAM and CREDIT_ADV are repeated in their states. A port sends the
oldest flit it has to resend, and an IDLE flit when it has nothing to send. An IDLE flit received that acknowledges
nothing changes only the count of flits; a DATA flit in sequence that acknowledges and returns nothing is accepted,
its number counted, its slots parsed. -/
def Obligations.FlitTraffic : Prop :=
  (∀ s p, (s.port p).st = .param → exec (.paramSend p) s = .next (s.sendCtrl p (s.paramRec p))) ∧
  (∀ s p, (s.port p).st = .credit → exec (.creditAdvSend p) s = .next (s.sendCtrl p (s.advRec p))) ∧
  (∀ s p k rest, s.portMode p = 0 → (s.port p).st = .active → (s.port p).resend = k :: rest →
    Runs (.flitTx p) s fun t => t.out = s.out ++ [.flit p k.bytes] ∧
      t.link = (s.modPort p fun q => { q with resend := rest }).link) ∧
  (∀ s p, s.portMode p = 0 → (s.port p).st = .active → (s.port p).resend = [] → (s.port p).tx = [] →
    (s.port p).waiting = [] →
    Runs (.flitTx p) s fun t => (∃ b, t.out = s.out ++ [.flit p b]) ∧
      t.link = (s.modPort p fun q => { q with
        nakAt := if (s.ackOut p).1 = 2 then some s.ns else q.nakAt, waiting := [] }).link) ∧
  (∀ s p bytes f, s.portMode p = 0 → (s.port p).st = .active → flitParse bytes = some f → f.type = 1 → f.ackType = 0 →
    exec (.idleFlitRx p bytes) s = .next (s.bump (Adr.PORT_RX_FLITS p) 1)) ∧
  (∀ s p bytes f, s.portMode p = 0 → (s.port p).st = .active → flitParse bytes = some f → f.type = 0 → f.ackType = 0 →
    f.crCount = 0 → f.seq = (s.port p).rxS % 4096 →
    exec (.dataFlitRx p bytes) s = .next (State.slotsRx p ((s.port p).plain f)
      ((s.bump (Adr.PORT_RX_FLITS p) 1).modPort p fun q =>
        { q with rxS := q.rxS + 1, gap := false, acked := true, nakAt := none })))

/-- R69 to R75: Ethernet ports. A frame shorter than 64 bytes, one longer than ETH_MTU, one with a bad FCS (neither of
them being forwarded already) and a pause frame are dropped and counted, and nothing else changes. A good frame that no
fence, no allotment and no caravan engine claims is counted and forwarded by the Ethernet table. A PFC frame pauses its
enabled priorities. The pause time of a priority ends. PFC is sent for every priority due, and refreshed while the class
is above XON. The watchdog empties the queue of a class paused too long, ends its pauses and ignores them for PFC_WD ms. -/
def Obligations.EthernetPorts : Prop :=
  (∀ s p f cut, s.ethUp p = true → f.length < 64 →
    exec (.ethFrameRx p f cut) s = .next (s.bump (Adr.PORT_RX_RUNT p) 1)) ∧
  (∀ s p f, s.ethUp p = true → 64 ≤ f.length → s.rf (Adr.PORT_ETH_MTU p) 13 0 < f.length →
    exec (.ethFrameRx p f false) s = .next (s.bump (Adr.PORT_RX_GIANT p) 1)) ∧
  (∀ s p f, s.ethUp p = true → 64 ≤ f.length → f.length ≤ s.rf (Adr.PORT_ETH_MTU p) 13 0 →
    f.drop (f.length - 4) ≠ fcsOf (f.take (f.length - 4)) →
    exec (.ethFrameRx p f false) s = .next (s.bump (Adr.PORT_RX_FCS_ERR p) 1)) ∧
  (∀ s p f cut, s.ethUp p = true → 64 ≤ f.length → f.length ≤ s.rf (Adr.PORT_ETH_MTU p) 13 0 →
    f.drop (f.length - 4) = fcsOf (f.take (f.length - 4)) → macControl f 1 = true →
    exec (.ethFrameRx p f cut) s = .next (s.bump (Adr.PORT_PAUSE_DROP p) 1)) ∧
  (∀ s p f cut, s.Inv → p < 512 → s.ethUp p = true → 64 ≤ f.length → f.length ≤ s.rf (Adr.PORT_ETH_MTU p) 13 0 →
    f.drop (f.length - 4) = fcsOf (f.take (f.length - 4)) → fld f 12 2 ≠ 0x8808 → s.fenced p = false →
    s.fits p (s.pcpTc p (s.prioOf p f)) (cellsOf f.length) = true →
    s.claim 0 (f.take (f.length - 4)) = .no → s.claim 1 (f.take (f.length - 4)) = .no →
    ∃ u : State, exec (.ethFrameRx p f cut) s = .next (u.ethForward p f f false) ∧
      u.cnt (Adr.PORT_RX_FRAMES p) = s.cnt (Adr.PORT_RX_FRAMES p) + 1 ∧ u.sw = s.sw ∧ u.link = s.link) ∧
  (∀ s p f, s.ethUp p = true → 64 ≤ f.length → f.length ≤ s.rf (Adr.PORT_ETH_MTU p) 13 0 →
    f.drop (f.length - 4) = fcsOf (f.take (f.length - 4)) → macControl f 0x0101 = true →
    Runs (.pfcFrameRx p f) s fun t => t.hub = (s.bump (Adr.PORT_PFC_RX p) 1).hub ∧
      ∀ q, q < 8 → (fld f 16 2).testBit q = true → bit (s.rg (Adr.PORT_ETH_CFG p)) (8 + q) = true →
        s.pauseIgnored p (s.pcpTc p q) = false → fld f (18 + 2 * q) 2 ≠ 0 → ((t.port p).pfc.get q).paused = true) ∧
  (∀ s p q, ((s.port p).pfc.get q).paused = true → ((s.port p).pfc.get q).sent = true → (s.port p).st ≠ .off →
    Runs (.pfcPauseExpire p q) s fun t => ((t.port p).pfc.get q).paused = false) ∧
  (∀ s p, s.ethUp p = true → exec (.pfcSend p) s = .next (s.sendPfc p (s.pfcDue p))) ∧
  (∀ s p tc, s.ethUp p = true → s.xon p tc < s.occOf p tc →
    exec (.pfcRefresh p tc) s = .next (s.sendPfc p
      (((s.pfcEnabled p).filter fun q => s.pcpTc p q == tc && ((s.port p).pfc.get q).sent).map
        fun q => (q, s.rf (Adr.PORT_PFC_QUANTA p) 15 0)))) ∧
  (∀ s p tc, s.rf (Adr.PORT_PFC_WD p) 15 0 ≠ 0 → s.pfcClosed p tc = true → (s.port p).st ≠ .off →
    ∃ u : State, exec (.pfcWatchdog p tc) s = .next (u.raise Err.port_PFC_WATCHDOG p [] none) ∧
      (tc, s.ns + 1000000 * s.rf (Adr.PORT_PFC_WD p) 15 0) ∈ (u.port p).wdIgnore ∧
      u.sw.queues = s.sw.queues.filter fun q => !(q.egress == p && q.tc == tc && !q.ctl))

/-- R84 to R106: crossing the switch. A packet that the buffer of an Avber port holds is looked up and queued. A grant
takes the head that the arbiter chooses out of its queue and sends it. The oldest packet that has left is counted and its
cells are free. A head that has been eligible for longer than STARVE_CFG µs becomes urgent, and is counted. -/
def Obligations.SwitchCrossing : Prop :=
  (∀ s p k e, ((s.port p).inbox.find? fun e => e.2 == k) = some e →
    exec (.packetRx p k) s = .next ((s.modPort p fun q => { q with inbox := q.inbox.erase e }).admitPkt p e.1 k)) ∧
  (∀ s p q u, s.fenced p = false → s.arbitrate p = (some q, u) → exec (.egressGrant p) s = .next (u.grant q)) ∧
  (∀ s p e rest, (s.port p).sending = e :: rest → (s.port p).unsent < (s.port p).sending.length →
    exec (.packetTxDone p) s = .next (State.unstall (State.copyGone e.id (State.bump (Adr.PORT_TX_BYTES p) e.len
      (State.bump (Adr.PORT_TX_PKTS p) 1 (s.modPort p fun q => { q with sending := rest })))))) ∧
  (∀ s p id q, ((s.heads p).find? fun q => q.id == id && !q.ctl && !q.urgent) = some q →
    s.rf (Adr.PORT_STARVE_CFG p) 15 0 ≠ 0 → s.eligible q = true →
    q.at_ + 1000 * s.rf (Adr.PORT_STARVE_CFG p) 15 0 < s.ns →
    Runs (.starvePromote p id) s fun t =>
      t.sw = { s.sw with queues := s.sw.queues.map fun r => if r = q then { r with urgent := true } else r } ∧
      t.hub.cnts = s.hub.cnts.modify (Adr.SWCORE_STARVE_PROMOTE (portDie p)) (· + 1))

/-- R106: a write of a shaper's configuration with BURST not 0, and a token reset, set the balance of the shaper to
BURST × 256 bytes or to nothing, by RESET_TO, count the reset and leave the other shapers alone. The balance is held in
units of 1/128 byte. R108: at a sample time of a die with EN set and no port that samples, nothing changes; with ports that sample, the
maximum delays of their classes restart. -/
def Obligations.ShapersAndSamples : Prop :=
  (∀ s src p i v, s.Inv → s.takes src (Adr.PORT_SHAPER_CFG p i) .rw = true → p < 512 → i < 9 → bits v 31 16 ≠ 0 →
    Runs (.shaperCfgWrite src p i v) s fun t => t.rg (Adr.PORT_SHAPER_CFG p i) = v ∧
      (t.shaper p i).bal = (if bit (s.rg (Adr.PORT_SHAPER_CTRL p i)) 0 then 128 * 256 * (bits v 31 16 : Int) else 0) ∧
      ∀ j, j ≠ 16 * p + i → t.sw.shapers.get j = s.sw.shapers.get j) ∧
  (∀ s src p i v, s.Inv → s.takes src (Adr.PORT_SHAPER_CTRL p i) .rw = true → p < 512 → i < 9 →
    Runs (.shaperReset src p i v) s fun t =>
      (t.shaper p i).bal = (if bit v 0 then 128 * 256 * (s.shBurst p i : Int) else 0) ∧
      ∀ j, j ≠ 16 * p + i → t.sw.shapers.get j = s.sw.shapers.get j) ∧
  (∀ s die, bit (s.rg (Adr.SWCORE_SAMPLE_CFG die)) 31 = true →
    s.ns % (1000 * s.rf (Adr.SWCORE_SAMPLE_CFG die) 19 0) = 0 → s.sampledPorts die = [] →
    exec (.queueSample die) s = .next s) ∧
  (∀ s die, bit (s.rg (Adr.SWCORE_SAMPLE_CFG die)) 31 = true →
    s.ns % (1000 * s.rf (Adr.SWCORE_SAMPLE_CFG die) 19 0) = 0 →
    Runs (.queueSample die) s fun t =>
      t.sw = { s.sw with maxDelay := (s.sampledPorts die).foldl (fun m p =>
        (List.range 8).foldl (fun m tc => m.set (8 * p + tc) 0) m) s.sw.maxDelay })

/-- R485, Table 19-4: a dword written to a register of the identity, host or home page that the source may write takes
the bits the register has, and no other register changes; LOCK set to 1 stays set (R487), a write of 0 leaves it. R484, Table 19-3: ERR_CLEAR written 1 clears the error status, the first error and the captures of its page. -/
def Obligations.RegisterWrites : Prop :=
  (∀ s src a k i o d, s.Inv → pageAt a = some (k, i, o) → k = .ident ∨ k = .hostp ∨ k = .home → regDesc k o = some d →
    d.acc = .rw ∨ d.acc = .rwl → o ≠ Adr.H_CTRL → o ≠ Adr.H_ERR_SEVERITY → o ≠ Adr.H_INT_ENABLE → s.takes src a d.acc = true →
    a % 4 = 0 → a < 0x01000000 → ¬ (0x10000 ≤ a ∧ a < 0x20200) → ¬ (0x00C00000 ≤ a ∧ a < 0x00C80000) →
    ∀ v, Runs (.regWrite src false a (leBytes 4 v)) s fun t => t.rg a = w32 v &&& w32 d.mask ∧
      ∀ b, b ≠ a → t.rg b = s.rg b) ∧
  (∀ s src a k i o v, s.Inv → pageAt a = some (k, i, o) → s.takes src (adr k i Adr.H_LOCK) .w1s = true →
    a < 0x01000000 → ¬ (0x10000 ≤ a ∧ a < 0x20200) → ¬ (0x00C00000 ≤ a ∧ a < 0x00C80000) → bit v 0 = true →
    Runs (.lockWrite src a v) s fun t => t.locked k i = true ∧ ∀ b, b ≠ adr k i Adr.H_LOCK → t.rg b = s.rg b) ∧
  (∀ s src a k i o v, s.Inv → pageAt a = some (k, i, o) → s.takes src (adr k i Adr.H_LOCK) .w1s = true →
    a < 0x01000000 → ¬ (0x10000 ≤ a ∧ a < 0x20200) → ¬ (0x00C00000 ≤ a ∧ a < 0x00C80000) → bit v 0 = false →
    exec (.lockWrite src a v) s = .next s) ∧
  (∀ s src a k i o v, s.Inv → pageAt a = some (k, i, o) → s.takes src (adr k i Adr.H_CTRL) .rw = true →
    a < 0x01000000 → ¬ (0x10000 ≤ a ∧ a < 0x20200) → ¬ (0x00C00000 ≤ a ∧ a < 0x00C80000) →
    Runs (.errClear src a v) s fun t => t.rg (adr k i Adr.H_ERR_STATUS) = 0 ∧ t.rg (adr k i Adr.H_ERR_FIRST) = 0 ∧
      (∀ c, c < 4 → t.rg (adr k i Adr.H_ERR_CAPTURE + 4 * c) = 0) ∧ t.rg (adr k i Adr.H_CTRL) = w32 (bits v 0 0))

/-- R487, R489: a write of an RWL register of a locked page, and one of an address that no page has, leave every register
but REFUSE_CAPTURE; they are counted, and the first since VALID was cleared is captured with its source and kind. -/
def Obligations.RefusedWrites : Prop :=
  (∀ s src a k i o d v, s.Inv → pageAt a = some (k, i, o) → regDesc k o = some d → d.acc = .rwl →
    s.takes src a .rw = true → s.locked k i = true → a % 4 = 0 → a < 0x01000000 → ¬ (0x10000 ≤ a ∧ a < 0x20200) →
    ¬ (0x00C00000 ≤ a ∧ a < 0x00C80000) →
    Runs (.regWrite src false a (leBytes 4 v)) s fun t => (∀ b, b ≠ Adr.IDENT_REFUSE_CAPTURE → t.rg b = s.rg b) ∧
      t.hub.cnts = s.hub.cnts.modify Adr.IDENT_LOCK_REFUSED (· + 1) ∧
      (bit (s.rg Adr.IDENT_REFUSE_CAPTURE) 31 = false →
        t.rg Adr.IDENT_REFUSE_CAPTURE = w32 (2 ^ 31 + srcNo src * 2 ^ 29 + nbits a 25 2 * 4)) ∧
      (bit (s.rg Adr.IDENT_REFUSE_CAPTURE) 31 = true →
        t.rg Adr.IDENT_REFUSE_CAPTURE = s.rg Adr.IDENT_REFUSE_CAPTURE)) ∧
  (∀ s src a v, s.Inv → pageAt a = none → s.mayWrite src a = true → a % 4 = 0 → a < 0x01000000 →
    ¬ (0x10000 ≤ a ∧ a < 0x20200) → ¬ (0x00C00000 ≤ a ∧ a < 0x00C80000) →
    Runs (.regWrite src false a (leBytes 4 v)) s fun t => (∀ b, b ≠ Adr.IDENT_REFUSE_CAPTURE → t.rg b = s.rg b) ∧
      t.hub.cnts = s.hub.cnts.modify Adr.IDENT_UNMAPPED_WRITES (· + 1) ∧
      (bit (s.rg Adr.IDENT_REFUSE_CAPTURE) 31 = false →
        t.rg Adr.IDENT_REFUSE_CAPTURE = w32 (2 ^ 31 + srcNo src * 2 ^ 29 + 2 * 2 ^ 27 + nbits a 25 2 * 4)))

/-- R491: a write of a lower dword of a table entry is staged, and discards what its source had staged for another entry;
the highest dword commits the entry with what is staged and the committed dwords for the rest. -/
def Obligations.TableEntryWrite : Prop :=
  (∀ s src a v w n b size, winAt a = some (w, n, b, size) → a % 4 = 0 → 0x01000000 ≤ a → a < 0x04000000 →
    s.mayWrite src a = true → s.winOn w n = true → w.ro = false → w ≠ .groups → a ≠ b + size - 4 →
    Runs (.tableWindowWrite src a v) s fun t => t.hub =
      (s.setStage src (some (b, (a, v) :: (s.stagedFor src b).filter fun e => e.1 != a))).hub) ∧
  (∀ s src a v w n b size, winAt a = some (w, n, b, size) → a % 4 = 0 → 0x01000000 ≤ a → a < 0x04000000 →
    s.mayWrite src a = true → s.winOn w n = true →
    w = .fwd ∨ w = .sets ∨ w = .eth ∨ w = .masks ∨ w = .pools → a = b + size - 4 → s.stagedFor src b ≠ [] →
    exec (.tableWindowWrite src a v) s = .next (State.setEntry b (size / 4)
      (s.merged ((a, v) :: s.stagedFor src b) b (size / 4)) (s.setStage src none)))

/-- R28: "If you read TIME.NOW_LO, the Ikion latches TIME.NOW_HI and TIME.NOW_FRAC from the same instant." A read of either
in any later state that still holds the latch, as every state does until the source next reads NOW_LO, returns the latched
value. -/
def Obligations.TimeNowLatched : Prop :=
  ∀ s src, s.live = true → s.pwr.warm = false → src ≠ .jtag ∨ s.sec.dbg ≠ 0 →
    Runs (.timeNowRead src) s fun t => t.out = s.out ++ [.readData src (s.ns % 2 ^ 32)] ∧
      ∀ u : State, u.live = true → u.pwr.warm = false → (src ≠ .jtag ∨ u.sec.dbg ≠ 0) →
        u.hub.latchHi.get (stageKey src Adr.TIME_NOW_HI) = t.hub.latchHi.get (stageKey src Adr.TIME_NOW_HI) →
        u.hub.latchHi.get (stageKey src Adr.TIME_NOW_FRAC) = t.hub.latchHi.get (stageKey src Adr.TIME_NOW_FRAC) →
        exec (.counterLoRead src false Adr.TIME_NOW_HI 1) u
          = .next (u.emit (.readData src (s.ns / 2 ^ 32 % 2 ^ 32))) ∧
        exec (.counterLoRead src false Adr.TIME_NOW_FRAC 1) u = .next (u.emit (.readData src (s.t16 % 2 ^ 16)))

/-- R490: a read of the LO word of a port's counter answers it and latches HI for the source that reads. R288, R453, R492: the reads that act. CTR_EVENT answers the oldest event, which leaves its queue; RD_DATA answers the
four bytes at RD_ADDR, which moves on by 4. -/
def Obligations.ReadsThatAct : Prop :=
  (∀ s src a p o, pageAt a = some (.port, p, o) → a % 4 = 0 → 0x100000 ≤ a → a < 0x300000 → latches .port o = true →
    s.pageOn .port p = true → s.portExists p = true → s.pwr.warm = false → src ≠ .jtag ∨ s.sec.dbg ≠ 0 →
    Runs (.counterLoRead src false a 1) s fun t =>
      t.out = s.out ++ [.readData src (s.regView .port p o).toNat] ∧
      t.hub = { s.hub with
        latchHi := s.hub.latchHi.set (stageKey src (a + 4)) (some (s.regView .port p (o + 4))) }) ∧
  (∀ s src d c cs, d < 2 → s.ctrEvents d = c :: cs → s.pageOn .sheaf d = true → s.pwr.warm = false →
    src ≠ .jtag ∨ s.sec.dbg ≠ 0 →
    Runs (.ctrEventRead src d) s fun t => t.out = s.out ++ [.readData src (w32 (2 ^ 31 + c)).toNat] ∧
      t.ctrEvents d = cs ∧ t.ctrEvents (1 - d) = s.ctrEvents (1 - d)) ∧
  (∀ s src, s.Inv → s.pwr.warm = false → src ≠ .jtag ∨ s.sec.dbg ≠ 0 →
    Runs (.saveRdDataRead src) s fun t => t.out = s.out ++ [.readData src (w32 s.rdData.1).toNat] ∧
      t.rg Adr.SAVE_RD_ADDR = w32 ((s.rf Adr.SAVE_RD_ADDR 24 0 + 4) % 2 ^ 25) ∧
      ∀ b, b ≠ Adr.SAVE_RD_ADDR → t.rg b = s.rg b)

/-- R29 to R32: beacons. A port that carries beacons sends a SYNC and a delay request, whose time it keeps. A delay request
is answered with the time of its arrival. A SYNC that names a better grandmaster takes LISTEN to FOLLOW with that port
upstream. The answer to the last request gives the delay of the link, ((t4 - t1) - (t3 - t2)) / 2. IEEE 802.1AS does the
same on an Ethernet port with its own messages. R33, Table 2-4: the timers of the election. Without its upstream a follower goes to LISTEN in holdover; an eligible
Ikion that knows no better candidate claims after LISTEN and is grandmaster after CLAIM; BACKOFF ends in LISTEN. GM_CFG
takes its two fields; written in CLAIM it takes the Ikion to LISTEN. -/
def Obligations.Grandmaster : Prop :=
  (∀ s p, s.beaconPort p = true → exec (.syncBeaconSend p) s = .next (State.modPortTime p
    (fun q => { q with seqReq := (q.seqReq + 1) % 2 ^ 16, t3 := some s.t16 })
    ((s.sendSync p).sendBeacon p 2 ((s.sendSync p).portTime p).seqReq 0))) ∧
  (∀ s p k c u b, s.takeLocal p k = (some c, u) → p < 512 → k.cls = 0 → beaconOf k = some b → b.ty = 1 →
    (s.portTime p).ignored = false → bit (s.rg Adr.TIME_SRC_CFG) 1 = true → (s.portTime p).lastSync = none →
    (s.portTime p).delay = none → b.steps < 16 → s.time.gm = .listen → b.gm.2 ≠ s.serial →
    (∀ g, s.knownGm = some g → pairLt b.gm g = true) →
    Runs (.syncRx p k) s fun t => t.time.gm = .follow ∧ t.time.best = some b.gm ∧ t.time.upstream = p ∧
      t.time.steps = b.steps + 1 ∧ t.time.now = s.time.now) ∧
  (∀ s p k c u b, s.takeLocal p k = (some c, u) → p < 512 → k.cls = 0 → beaconOf k = some b → b.ty = 2 →
    (s.portTime p).ignored = false → bit (s.rg Adr.TIME_SRC_CFG) 1 = true → (s.portTime p).lastReq = none →
    ∃ w : State, exec (.delayReqRx p k) s = .next (w.sendBeacon p 3 b.seq s.t16) ∧ w.time.now = s.time.now ∧
      w.time.gm = s.time.gm) ∧
  (∀ s p k c u b (t1 t2 t3 : Nat), s.takeLocal p k = (some c, u) → p < 512 → k.cls = 0 → beaconOf k = some b → b.ty = 3 →
    (s.portTime p).ignored = false → bit (s.rg Adr.TIME_SRC_CFG) 1 = true → (s.portTime p).lastRsp = none →
    (s.portTime p).t1 = some t1 → (s.portTime p).t2 = some t2 → (s.portTime p).t3 = some t3 →
    (b.seq + 1) % 2 ^ 16 = (s.portTime p).seqReq → s.time.gm ≠ .follow →
    Runs (.delayRspRx p k) s fun t =>
      (t.portTime p).delay = some ((((b.origin : Int) - t1) - ((t3 : Int) - t2)) / 2) ∧ t.time.now = s.time.now) ∧
  (∀ s p, s.gptpPort p = true → (s.portTime p).ignored = false →
    exec (.gptpMessageRx p .pdelayReq) s
      = .next ((s.emit (.gptp p (.pdelayResp s.t16))).emit (.gptp p (.pdelayRespFollowUp s.t16)))) ∧
  (∀ s p (t1 t2 t3 t4 : Nat), s.gptpPort p = true → (s.portTime p).ignored = false → (s.portTime p).gReq = some t1 →
    (s.portTime p).gResp = some (t2, t4) →
    Runs (.gptpMessageRx p (.pdelayRespFollowUp t3)) s fun t =>
      (t.portTime p).delay = some ((((t4 : Int) - t1) - ((t3 : Int) - t2)) / 2)) ∧
  (∀ s p g, s.gptpPort p = true → s.curGm = some g →
    Runs (.gptpMessageSend p) s fun t => t.out = s.out ++ [.gptp p (.announce g.1 g.2 s.gmSteps), .gptp p .sync,
      .gptp p (.followUp s.t16), .gptp p .pdelayReq] ∧ (t.portTime p).gReq = some s.t16) ∧
  (∀ s, s.time.gm = .follow → Runs .upstreamSilent s fun t =>
    t.time = { s.time with gm := .listen, best := none, holdover := true, locked := false, good := 0 }) ∧
  (∀ s, s.time.gm = .listen → s.live = true → s.gmEligible = true → s.knownGm = some s.ownGm →
    Runs .listenClaimTimerEnd s fun t => t.time = { s.time with gm := .claim }) ∧
  (∀ s, s.time.gm = .claim → Runs .listenClaimTimerEnd s fun t =>
    t.time = { s.time with gm := .gm, holdover := false }) ∧
  (∀ s, s.time.gm = .backoff → Runs .backoffTimerEnd s fun t =>
    t.time = { s.time with gm := .listen, best := none }) ∧
  (∀ s src v, s.Inv → s.takes src Adr.TIME_GM_CFG .rwl = true → s.time.gm = .listen →
    Runs (.gmCfgWrite src v) s fun t => t.rg Adr.TIME_GM_CFG = w32 (bits v 8 0) ∧ t.time = s.time) ∧
  (∀ s src v, s.Inv → s.takes src Adr.TIME_GM_CFG .rwl = true → s.time.gm = .claim →
    Runs (.gmCfgWrite src v) s fun t => t.rg Adr.TIME_GM_CFG = w32 (bits v 8 0) ∧
      t.time = { s.time with gm := .listen, best := none })

/-- R34, R36: setting fabric time. A write of SET_HI commits the pair as the pending set, due 1 µs later; at its instant
fabric time becomes the value set, with the effects of a step. A PPS_IN edge is captured; it moves fabric time only at
a grandmaster with PPS_EN. Loss of PPS_IN or of the reference is reported. PPS_OUT rises once in a second. -/
def Obligations.TimeSetAndPulse : Prop :=
  (∀ s src v, s.Inv → s.takes src Adr.TIME_SET_HI .rw = true →
    Runs (.timeSetWrite src v) s fun t => t.time =
      { s.time with set := some ((s.loFor src Adr.TIME_SET_LO).toNat + v.toNat * 2 ^ 32, s.ns + 1000) }) ∧
  (∀ s v due, s.time.set = some (v, due) → due ≤ s.ns → s.ppsPhase = false → s.live = true →
    bit (s.rg Adr.TIME_CTRL) 0 = false →
    exec .timeSetEffect s = .next (State.stepTime (nsTime v) (s.modTime fun t => { t with set := none }))) ∧
  (∀ s, s.Inv → s.live = true → s.ppsPhase = false → Runs .ppsInEdge s fun t =>
    t.rg64 Adr.TIME_PPS_CAPT_LO = s.ns ∧ t.time = s.time) ∧
  (∀ s, s.live = true → s.ppsPhase = true → s.time.set = none → ∃ u : State, exec .ppsInEdge s
      = .next (State.takeFree (State.stepTime (nsTime s.nearestSecond) u)) ∧
    u.time = { s.time with ppsLost := false }) ∧
  (∀ s, s.live = true → s.ppsPhase = true → exec .ppsLost s = .next (State.raise Err.time_PPS_LOST 0 [] none
    (s.modTime fun t => { t with ppsLost := true }))) ∧
  (∀ s, s.live = true → s.time.gm = .gm → bit (s.rg Adr.TIME_SRC_CFG) 0 = true →
    exec .refLost s = .next (State.raise Err.time_REF_LOST 0 [] none (s.modTime fun t => { t with refLost := true }))) ∧
  (∀ s, s.live = true → s.rf Adr.TIME_CTRL 15 8 ≠ 0 → s.ns / 10 ^ 9 ≠ s.time.ppsSec →
    Runs .ppsOutRise s fun t => t.out = s.out ++ [.ppsRise] ∧ t.time = { s.time with
      ppsSec := s.ns / 10 ^ 9, ppsOut := some (s.ns + 1000 * s.rf Adr.TIME_CTRL 15 8) })

/-- R41 to R43: timetables. TT_DATA_HI stores the shadow entry that TT_ADDR names and moves TT_ADDR on. COMMIT of a list
that Table 2-10 does not refuse sets the switch for the first cycle start at least 2 µs ahead; CANCEL before it takes the
switch back. At the switch the shadow list becomes the operating list with its cycle and base. At an entry boundary the
next entry is in force. -/
def Obligations.Timetables : Prop :=
  (∀ s src p v, s.Inv → p < 512 → s.takes src (Adr.PORT_TT_DATA_HI p) .rw = true → (s.timetable p).pend = none →
    Runs (.ttDataHiWrite src p v) s fun t => t.time = (s.modTable p fun x => { x with
        shadow := x.shadow.set (s.rf (Adr.PORT_TT_ADDR p) 9 0)
          (BitVec.ofNat 64 ((s.loFor src (Adr.PORT_TT_DATA_LO p)).toNat + v.toNat * 2 ^ 32)) }).time ∧
      t.rg (Adr.PORT_TT_ADDR p) = w32 ((s.rf (Adr.PORT_TT_ADDR p) 9 0 + 1) % 1024)) ∧
  (∀ s src p v, s.Inv → p < 512 → s.takes src (Adr.PORT_TT_CTRL p) .rw = true → bit v 31 = true → bit v 30 = false →
    bit v 0 = false → (s.timetable p).pend = none →
    ttCheck (s.rf (Adr.PORT_TT_LEN p) 10 0) (s.rg (Adr.PORT_TT_CYCLE p)).toNat (s.rg64 (Adr.PORT_TT_BASE_LO p))
      ((s.timetable p).shadowList (s.rf (Adr.PORT_TT_LEN p) 10 0)) = 0 →
    Runs (.ttCommit src p v) s fun t => t.time = (s.modTable p fun x => { x with pend := some (switchTime
      (s.rg64 (Adr.PORT_TT_BASE_LO p)) (s.rg (Adr.PORT_TT_CYCLE p)).toNat (ceilDiv s.time.now.toNat (2 ^ 32))) }).time) ∧
  (∀ s src p v t0, s.Inv → p < 512 → s.takes src (Adr.PORT_TT_CTRL p) .rw = true → bit v 30 = true → bit v 31 = false →
    bit v 0 = false → (s.timetable p).pend = some t0 → s.ns < t0 →
    Runs (.ttCancel src p v) s fun t => t.time = (s.modTable p fun x => { x with pend := none }).time) ∧
  (∀ s p t0, (s.timetable p).pend = some t0 → t0 ≤ s.ns → s.ttActive p = false →
    Runs (.ttSwitch p) s fun t => t.time = (State.ttEnter p (s.modTable p fun x => { x with
      oper := x.shadowList (s.rf (Adr.PORT_TT_LEN p) 10 0), cycle := (s.rg (Adr.PORT_TT_CYCLE p)).toNat
      base := s.rg64 (Adr.PORT_TT_BASE_LO p), pend := none })).time) ∧
  (∀ s p, s.ttActive p = true → (s.timetable p).ends ≤ s.ns → (s.timetable p).judged = true →
    Runs (.ttEntryBoundary p) s fun t => t.time = (s.modTable p fun x => { x with
      idx := (x.plainAt x.ends).1, ends := (x.plainAt x.ends).2, held := false, judged := false }).time)

/-- R497, R498: the barn window. A read answers the bytes and their poison; a write stores the bytes that lie inside the
barn and no other; BWIN does the same through its registers, and ADDR moves on. -/
def Obligations.BarnWindow : Prop :=
  (∀ s a n, s.live = true → s.barnOn = true → s.windowRefused a n false = false →
    exec (.barnWindowRead a n) s
      = .next (s.emit (.windowData ((List.range n).map fun i => s.windowByte (a + i))))) ∧
  (∀ s a d, s.Inv → s.live = true → s.barnOn = true → s.windowRefused a d.length true = false →
    Runs (.barnWindowWrite a d) s fun t => (∀ i, i < d.length → a + i < barnSize → t.barn (a + i) = d.getD i 0) ∧
      ∀ b, b < a ∨ a + d.length ≤ b ∨ barnSize ≤ b → t.barn b = s.barn b) ∧
  (∀ s src v, s.takes src Adr.BWIN_CMD .wo = true → bit v 31 = true → bit v 24 = false → 0 < bits v 8 0 →
    bits v 8 0 ≤ 256 → s.barnOn = true → s.rg64 Adr.BWIN_ADDR_LO + bits v 8 0 ≤ barnSize →
    s.windowRefused (s.rg64 Adr.BWIN_ADDR_LO) (bits v 8 0) false = false →
    exec (.bwinRead src v) s = .next (State.setRg64 Adr.BWIN_ADDR_LO (s.rg64 Adr.BWIN_ADDR_LO + bits v 8 0)
      (State.bwinDone ((linesOf (s.rg64 Adr.BWIN_ADDR_LO) (bits v 8 0)).any s.poisoned) 0
        (s.setBwinData (s.barnBytes (s.rg64 Adr.BWIN_ADDR_LO) (bits v 8 0) ++ s.bwinData.drop (bits v 8 0)))))) ∧
  (∀ s src v, s.Inv → s.takes src Adr.BWIN_CMD .wo = true → bit v 31 = true → bit v 24 = true → 0 < bits v 8 0 →
    bits v 8 0 ≤ 256 → s.barnOn = true → s.rg64 Adr.BWIN_ADDR_LO + bits v 8 0 ≤ barnSize →
    s.windowRefused (s.rg64 Adr.BWIN_ADDR_LO) (bits v 8 0) true = false →
    Runs (.bwinWrite src v) s fun t =>
      (∀ i, i < bits v 8 0 → t.barn (s.rg64 Adr.BWIN_ADDR_LO + i) = s.bwinData.getD i 0) ∧
      (∀ b, b < s.rg64 Adr.BWIN_ADDR_LO ∨ s.rg64 Adr.BWIN_ADDR_LO + bits v 8 0 ≤ b → t.barn b = s.barn b) ∧
      t.rg64 Adr.BWIN_ADDR_LO = s.rg64 Adr.BWIN_ADDR_LO + bits v 8 0)

/-- R463 to R466: fencing. FENCE_CMD fences an open group logically or electrically and releases a fenced one, with its
result in FENCE_STATUS. A FENCE_NOTICE received is reported and followed. A port enabled from OFF enters DETECT unless
its group is fenced electrically. -/
def Obligations.Fencing : Prop :=
  (∀ s src g, g < 64 → s.takes src Adr.FAULT_FENCE_CMD .wo = true → s.flt.groups.get g = .open_ →
    exec (.fenceLogical src g) s = .next ((s.fenceGroup g false).setRf Adr.FAULT_FENCE_STATUS 3 0 0)) ∧
  (∀ s src g, g < 64 → s.takes src Adr.FAULT_FENCE_CMD .wo = true → s.flt.groups.get g ≠ .electrical →
    exec (.fenceElectrical src g) s = .next ((s.fenceGroup g true).setRf Adr.FAULT_FENCE_STATUS 3 0 0)) ∧
  (∀ s src g, g < 64 → s.takes src Adr.FAULT_FENCE_CMD .wo = true → s.flt.groups.get g ≠ .open_ →
    s.flt.devFatal = false →
    exec (.fenceRelease src g) s = .next ((s.openGroup g).setRf Adr.FAULT_FENCE_STATUS 3 0 0)) ∧
  (∀ s p k c u, p < 512 → k.cls = 1 → nbits k.spec 31 28 = 2 → mgmtBad k = false → s.takeLocal p k = (some c, u) →
    exec (.fenceNoticeRx p k) s = .next ((u.noticeRx p).freeLocal (some c))) ∧
  (∀ s src p v, s.takes src (Adr.PORT_PORT_CTRL p) .rw = true → bits v 3 2 ≠ 3 → s.sec.mode ≠ .sealed →
    (s.port p).st = .off → s.flt.groups = [] →
    Runs (.portEnable src p v) s fun t => (t.port p).st = .detect ∧ (t.port p).halt = false ∧
      ∀ q, q ≠ p → t.port q = s.port q)

/-- R468 to R470: audits, and the setting of the observation registers. The first epoch boundary that passes with audits
enabled starts an audit; at its end everything found is reported, AUDIT_EPOCH and AUDITS count. A write of GCTR SEL or of
WP CTRL sets the register and restarts the count (R473, R475); UNFREEZE lets the trace go on (R476). -/
def Obligations.AuditsAndObservation : Prop :=
  (∀ s, s.boundaries s.flt.auditAt s.ns = 1 → bit (s.rg Adr.FAULT_AUDIT_CFG) 31 = true → s.pwr.pstate = .run →
    s.flt.running = false →
    Runs .auditEpoch s fun t => t.flt.running = true ∧ t.flt.auditAt = s.ns) ∧
  (∀ s broken, s.flt.running = true → ∃ u : State, exec (.auditComplete broken) s = .next (State.bump Adr.FAULT_AUDITS 1
      (State.setRg64 Adr.FAULT_AUDIT_EPOCH_LO (u.rg64 Adr.FAULT_AUDIT_EPOCH_LO + 1) u)) ∧
    u = (s.flt.found ++ broken.filter fun f => s.auditRuns f.1 f.2.1).foldl (fun s f => s.auditReport f)
      (s.modFlt fun f => { f with running := false, found := [] })) ∧
  (∀ s src i v, s.Inv → i < 64 → s.takes src (Adr.OBS_GCTR_SEL i) .rw = true → bits v 23 16 ≠ 0 → bits v 23 16 ≤ 0x13 →
    bits v 30 29 ≠ 3 →
    Runs (.gctrSelWrite src i v) s fun t => t.rg (Adr.OBS_GCTR_SEL i) = v &&& 0xE0FFF9FF ∧
      t.cnt (Adr.OBS_GCTR_VALUE_LO i) = 0 ∧ ∀ b, b ≠ Adr.OBS_GCTR_SEL i → t.rg b = s.rg b) ∧
  (∀ s src w v, s.Inv → w < 64 → s.takes src (Adr.OBS_WP_CTRL w) .rw = true →
    Runs (.wpCtrlWrite src w v) s fun t => t.rg (Adr.OBS_WP_CTRL w) = v &&& 0xFFEFFFFF ∧
      t.cnt (Adr.OBS_WP_COUNT_LO w) = 0 ∧ ∀ b, b ≠ Adr.OBS_WP_CTRL w → t.rg b = s.rg b) ∧
  (∀ s src v, s.takes src Adr.OBS_TRACE_CTRL .wo = true → bit v 0 = true →
    Runs (.traceUnfreeze src v) s fun t => t.obs = { s.obs with frozen := false })

/-- R121 to R128: a request delivered to the receiving side. One that passes every check and is not for a coherent page
enters the queue of its job; one whose form is wrong is answered MALFORMED, one of no active job NO_JOB. A write into the
descriptor window of its slot is submitted, one into a dispatch window is a token, one into a combine window an expert's
output. R124, R127, R131, R134, R516: issue, and what comes back. The oldest waiting request of an own unit is issued under a
free tag that it then holds. An MRSP of the target that holds the tag answers its part; one without a held tag is stale.
A line of a CXL device, and the barn, do the same for their parts. A target that lets a part wait past TIMEOUT, or a CXL
device that is lost, is DEAD. DEAD is cleared once no tag of the port is quarantined. -/
def Obligations.Requests : Prop :=
  (∀ s p k c u j w x z y, k.cls = 8 → s.takeLocal p k = (some c, u) → u.hostFn (ingressDie p) k = none →
    u.checkHead (ingressDie p) (mreqBad k) k = (.ok j, w) → w.inDq j k.fva = false → w.inWindow 0 k.fjid k.fva = none →
    w.inWindow 1 k.fjid k.fva = none → w.queueFits j k = true →
    w.checkBody (ingressDie p) j k.op (if k.op = 2 then 64 else k.size) (fun e => permitted e k.op) k = (.pass x, z) →
    x.coh = false →
    z.watch (tracePort (ingressOf p)) k k.op (if k.op = 2 then 64 else k.size) x.segs = (false, y) →
    Runs (.mreqRx p k) s fun t => t.req y.nextId = some
        { die := ingressDie p, kind := .mreq, pkt := k, from_ := ingressOf p, slot := some x.slot, cells := some c
          segs := x.segs, exts := x.exts, blocks := x.blocks } ∧
      (∀ id, id ≠ y.nextId → t.req id = y.req id) ∧ t.mem = y.mem ∧ t.sw = y.sw) ∧
  (∀ s p k c u, k.cls = 8 → s.takeLocal p k = (some c, u) → u.hostFn (ingressDie p) k = none → mreqBad k = true →
    exec (.mreqRx p k) s = .next ((u.respond (ingressDie p) k 10).freeLocal (some c))) ∧
  (∀ s p k c u, k.cls = 8 → s.takeLocal p k = (some c, u) → u.hostFn (ingressDie p) k = none → mreqBad k = false →
    u.slotOf k.fjid = none → exec (.mreqRx p k) s = .next ((u.respond (ingressDie p) k 3).freeLocal (some c))) ∧
  (∀ s p k c u j i w y, k.cls = 8 → s.slotOf k.fjid = some i → s.inDq i k.fva = true → s.takeLocal p k = (some c, u) →
    u.hostFn (ingressDie p) k = none → u.checkHead (ingressDie p) (mreqBad k) k = (.ok j, w) → w.inDq j k.fva = true →
    k.op = 1 → k.size = 128 → k.fva % 128 = 0 → dFjid (leNat (k.bytes 32 128)) = k.fjid →
    w.submit j (leNat (k.bytes 32 128)) = (.queued, y) →
    exec (.descWrite p k) s = .next ((y.respond (ingressDie p) k 0).freeLocal (some c))) ∧
  (∀ s p k c u j w l off, k.cls = 8 → (s.inWindow 0 k.fjid k.fva).isSome = true → s.takeLocal p k = (some c, u) →
    u.hostFn (ingressDie p) k = none → u.checkHead (ingressDie p) (mreqBad k) k = (.ok j, w) → w.inDq j k.fva = false →
    w.inWindow 0 k.fjid k.fva = some (l, off) →
    exec (.tokenWrite p k) s = .next ((w.tokenRx (ingressDie p) j l off k).freeLocal (some c))) ∧
  (∀ s p k c u j w l off, k.cls = 8 → (s.inWindow 1 k.fjid k.fva).isSome = true → s.takeLocal p k = (some c, u) →
    u.hostFn (ingressDie p) k = none → u.checkHead (ingressDie p) (mreqBad k) k = (.ok j, w) → w.inDq j k.fva = false →
    w.inWindow 0 k.fjid k.fva = none → w.inWindow 1 k.fjid k.fva = some (l, off) →
    exec (.expertOutputWrite p k) s = .next ((w.outputRx (ingressDie p) j l off k).freeLocal (some c))) ∧
  (∀ s id u n, (s.ttu.waiting.find? fun v => v.id == id) = some u → s.stopped 3 u.die = false →
    (s.ttu.waiting.find? fun v => v.slot == u.slot && v.die == u.die) = some u → s.tagRoom u.die u.slot false = true →
    s.pickTag u.die = some n →
    ∃ w : State, exec (.mreqIssue id) s = .next (w.sendOwn u.die ((u.pkt.setReqTag (n % 65536)).setStamp s.stamp)) ∧
      w.tag n = some { target := 513, owner := u.owner, slot := u.slot, at_ := s.ns } ∧
      w.ttu.waiting = s.ttu.waiting.filter (fun v => v.id != u.id) ∧ (∀ m, m ≠ n → w.tag m = s.tag m)) ∧
  (∀ s p k c u g r part, s.takeLocal p k = (some c, u) → u.tag k.reqTag = some g → g.quar = false → g.target = p →
    u.req g.req = some r → r.parts[g.part]? = some part →
    exec (.targetRspRx p k) s = .next ((u.trayRsp g r part k).freeLocal (some c))) ∧
  (∀ s p k c u, s.takeLocal p k = (some c, u) → u.tag k.reqTag = none →
    exec (.targetRspRx p k) s = .next ((u.staleRsp (tagDie k.reqTag)).freeLocal (some c))) ∧
  (∀ s p tag data load, s.portMode p = 2 → (s.port p).cxlOut.contains tag = true →
    exec (.cxlMemdataRx p tag data false load) s
      = .next ((s.setRf (Adr.PORT_CXL_STATUS p) 31 28 load).cxlLine p tag data false)) ∧
  (∀ s tag g, s.tag tag = some g → g.target = 512 → g.quar = false →
    exec (.barnAccessDone tag) s = .next ((s.tierTry g.req g.part).settle g.req)) ∧
  (∀ s, exec .responseCellWaitEnd s = .next (State.unstallN true s.sw.stalled.length s)) ∧
  (∀ s p e, p < 512 → (s.tagList.find? fun e => !e.2.quar && e.2.target == p
      && decide (e.2.at_ + 1000 * s.rf (Adr.TTU_TIMEOUT (tagDie e.1)) 19 0 ≤ s.ns)) = some e →
    exec (.targetTimeout p) s = .next ((s.raise Err.ttu_TARGET_TIMEOUT (tagDie e.1) [p] none).deadPort p)) ∧
  (∀ s src p v, s.Inv → s.takes src (Adr.PORT_TARGET_STATE p) .rw = true → s.rf (Adr.PORT_TARGET_STATE p) 0 0 = 1 →
    (s.tagList.any fun e => e.2.quar && e.2.target == p) = false →
    Runs (.targetDeadClear src p v) s fun t => t.rf (Adr.PORT_TARGET_STATE p) 0 0 = 0 ∧
      ∀ b, b ≠ Adr.PORT_TARGET_STATE p → t.rg b = s.rg b) ∧
  (∀ s p, s.portMode p = 2 → s.portActive p = true →
    exec (.cxlLinkFatal p .linkLoss) s
      = .next (((s.raise Err.port_CXL_LINK_FATAL p [] none).deadPort p).leaveTo p .detect)) ∧
  (∀ s p c, s.portMode p = 2 → s.portActive p = true → c ≠ .linkLoss →
    exec (.cxlLinkFatal p c) s = .next ((s.raise Err.port_CXL_LINK_FATAL p [] none).deadPort p)) ∧
  (∀ s tag g r part i, s.tag tag = some g → g.target = 512 → g.quar = false →
    g.at_ + 1000 * s.rf (Adr.TTU_TIMEOUT (tagDie tag)) 19 0 ≤ s.ns → s.req g.req = some r →
    r.parts[g.part]? = some part → (∃ q ∈ part.segs, s.poolFind q.ppa = some i) → poolKind (s.poolEntry i) = 2 →
    part.sectors.all (s.sectorReady r) = false →
    exec (.granReqTimeout tag) s = .next (State.settle g.req (State.bump Adr.TIER_GRAN_TIMEOUTS 1
      (s.endPart g.req g.part fun q => { q with status := 9, data := [] }))))

/-- R125, R135, Table 5-11: job slots. ACTIVATE of a FREE slot whose registers pass makes it ACTIVE, STOP takes it to
DRAINING, what it held being gone it is DRAINED, and RELEASE makes it FREE again. INVAL drops the cached manifest entries
of its range and every cached member, and ends when the requests it found have completed. -/
def Obligations.JobSlots : Prop :=
  (∀ s src j, s.Inv → s.takes src (Adr.JOB_CTRL j) .wo = true → j < 1024 → s.job j = .free → s.activateOk j = true →
    Runs (.jobActivate src j) s fun t => t.ttu = (s.setJob j .active).ttu ∧ t.job j = .active ∧
      t.rf (Adr.JOB_STATUS j) 11 8 = 0 ∧ (∀ i, i < 8 → t.cnt (Adr.JOB_READ_BYTES j + 8 * i) = 0) ∧
      ∀ b, b ≠ Adr.JOB_STATUS j → t.rg b = s.rg b) ∧
  (∀ s src j, s.takes src (Adr.JOB_CTRL j) .wo = true → s.job j = .active → ∃ ids : List Nat,
    exec (.jobStop src j) s = .next (State.hostStop j (State.stopUnits j (State.exdStop (s.rf (Adr.JOB_FJID j) 19 0)
      (State.shStop (s.rf (Adr.JOB_FJID j) 19 0) (State.tileStop j (State.carvStop j
        ((ids.foldl (fun s id => s.stopReq id) ((s.setJob j .draining).jobReject j 0)).stopLines j))))))) ∧
    ∀ id ∈ ids, ∃ r, (id, some r) ∈ s.ttu.reqs ∧ r.slot = some j ∧ r.kind = .mreq) ∧
  (∀ s j, s.job j = .draining → s.tagUsed j = 0 → s.queueUsed j = 0 → (s.ttu.waiting.all fun u => u.slot != some j) = true →
    exec (.jobDrained j) s = .next ((s.setJob j .drained).raiseInt .job j 1)) ∧
  (∀ s src j, s.Inv → s.takes src (Adr.JOB_CTRL j) .wo = true → j < 1024 → s.job j = .drained → s.slotHeld j = false →
    Runs (.jobRelease src j) s fun t => t.ttu.jobs = s.ttu.jobs.set j .free ∧ t.rg (Adr.JOB_FJID j) = 0 ∧
      t.ttu.inval = s.ttu.inval.set j none) ∧
  (∀ s src j v, s.takes src (Adr.JOB_CTRL j) .wo = true → s.job j ≠ .free →
    Runs (.jobInval src j v) s fun t => ∃ lo ids,
      t.ttu.mans = s.ttu.mans.clear (j * 2 ^ 25 + lo) (j * 2 ^ 25 + lo + s.rf (Adr.JOB_INVAL_LEN j) 24 0) ∧
      t.ttu.members = s.ttu.members.clear (j * 65536) (j * 65536 + 65536) ∧ t.ttu.inval.get j = some ids) ∧
  (∀ s j ids, s.ttu.inval.get j = some ids → (∀ id ∈ ids, s.req id = none ∧ s.hgroup id = none) →
    Runs (.invalDone j) s fun t => t.ttu = { s.ttu with inval := s.ttu.inval.set j none })

/-- R144 to R160: the coherent home. A CREQ that passes is given to its domain, one entry per line; a waiting line takes a
free tracker. Snoop answers, data and CompAck act on the tracker they match. A snoop without an answer past
SNOOP_TIMEOUT, and DEAD written for an agent, take the domain down. Table 6-9: the states of a coherence domain. ENABLE of a domain that is OFF and passes clears its directory and takes
it to INIT, the sweep to ACTIVE; FLUSH takes an ACTIVE one to FLUSHING, and when nothing is left to OFF; RESET takes a
DOWN one to OFF. -/
def Obligations.Coherence : Prop :=
  (∀ s p k c u j w x z y d, s.stopped 4 (ingressDie p) = false → s.takeLocal p k = (c, u) → creqBad k = false →
    u.checkHead (ingressDie p) false k = (.ok j, w) → w.domOf k.fjid = some d → w.agentOk d k = true →
    w.queueFits j k = true →
    w.checkBody (ingressDie p) j (creqOp k.op) (if k.op = 5 then asize k else 64) (creqPerm k.op) k = (.pass x, z) →
    x.coh = true → z.domServes k = .ok d →
    z.watch (tracePort (ingressOf p)) k (if k.op = 1 ∨ k.op = 2 ∨ k.op = 3 then 1 else 0)
      (if k.op = 5 then asize k else 64) x.segs = (false, y) →
    exec (.creqRx p k) s = .next ((y.bump (Adr.DOM_CREQS d) 1).homeEnter (ingressDie p) d k c x)) ∧
  (∀ s id w t q needs, s.home.waiting.get id = some w → q = ((w.group.bind s.hgroup).map (·.pkt)).getD default →
    needs = (w.group.isNone || (q.cls == 7 && q.op != 3 && q.op != 4)) → (s.home.waiting.any fun e => match e.2 with
      | some v => decide (e.1 < id) && v.dom == w.dom && v.line == w.line
      | none => false) = false →
    s.trkUsed w.dom < s.rf (Adr.DOM_TRK_LIMIT w.dom) 13 0 → (needs = true → s.recallFree (s.domDie w.dom) ≠ 0) →
    s.pickTrk (s.domDie w.dom) = some t →
    exec (.trackerStart id) s = .next (s.trkStart id t w needs)) ∧
  (∀ s p k c u t x w, s.takeLocal p k = (c, u) → k.len = 32 → k.xf 47 45 ≤ 4 → k.xf 42 0 = 0 → nbits k.spec 15 11 = 0 →
    u.cohMatch (ingressDie p) k false true = (some (t, x), w) →
    (∃ q : Snoop, x.snoops.find? (fun q : Snoop => q.agent == cohAgent k && q.resp.isNone) = some q) →
    exec (.snpRespRx p k) s = .next (State.freeLocal c (State.snoopCheck t (w.setTrk t (some (Tracker.mapSnoops x
      (fun q : Snoop => q.agent == cohAgent k && q.resp.isNone)
      fun q : Snoop => { q with resp := some (k.xf 47 45, k.xf 44 44 == 1, k.xf 43 43 == 1) })))))) ∧
  (∀ s p k c u t x w, s.takeLocal p k = (c, u) → k.len = 96 → k.xf 50 48 = 0 → k.xf 46 46 = 0 → k.xf 29 0 = 0 →
    nbits k.spec 15 11 = 0 → u.cohMatch (ingressDie p) k false true = (some (t, x), w) →
    (∃ q : Snoop, x.snoops.find? (fun q : Snoop => q.agent == cohAgent k && q.data.isNone) = some q) →
    exec (.cdatHomeRx p k) s = .next (State.freeLocal c (State.snoopCheck t (w.setTrk t (some (Tracker.mapSnoops x
      (fun q : Snoop => q.agent == cohAgent k && q.data.isNone)
      fun q : Snoop => { q with data := some (k.bytes 32 64, k.xf 47 47 == 1, k.poison) })))))) ∧
  (∀ s p k c u t x w, s.takeLocal p k = (c, u) → k.len = 32 → k.xf 47 0 = 0 → nbits k.spec 15 11 = 0 →
    u.cohMatch (ingressDie p) k false false = (some (t, x), w) → x.todo.head? = some .ack →
    exec (.compAckRx p k) s = .next (State.freeLocal c (State.wakeTrks (State.runTrk t trkFuel
      (w.setTrk t (some { x with todo := [] })))))) ∧
  (∀ s t x q, s.trk t = some x → (x.snoops.find? fun q => !q.whole) = some q →
    x.since + 1000 * s.rf (Adr.DOM_SNOOP_TIMEOUT x.dom) 19 0 ≤ s.ns →
    exec (.snoopTimeout t) s = .next (s.domDown x.dom 1 q.agent)) ∧
  (∀ s src k a, k < 16 → a < 2048 → s.pageOn .swcore 0 = true → nbits (s.agent k a) 62 62 = 0 →
    ∃ v, nbits v 62 62 = 1 ∧ nbits v 61 0 = nbits (s.agent k a) 61 0 ∧ nbits v 63 63 = nbits (s.agent k a) 63 63 ∧
      exec (.agentDeadWrite src k a) s = .next ((s.setEntry (agentAt k a) 2 v).domDown k 2 a)) ∧
  (∀ s src k, s.takes src (Adr.DOM_CTRL k) .wo = true → s.dom k = .off → s.domOf (s.rf (Adr.DOM_FJID k) 19 0) = none →
    10 ≤ s.domK k → s.domK k ≤ 23 → 0 < s.rf (Adr.DOM_TRK_LIMIT k) 13 0 → s.rf (Adr.DOM_TRK_LIMIT k) 13 0 ≤ 8192 →
    0 < s.rf (Adr.DOM_SNOOP_TIMEOUT k) 19 0 → s.rf (Adr.DOM_SNOOP_TIMEOUT k) 19 0 ≤ 1000000 →
    s.rg64 (Adr.DOM_DIR_BASE_LO k) % 2 ^ 20 = 0 → s.rg64 (Adr.DOM_DIR_BASE_LO k) + 1024 * 2 ^ s.domK k ≤ barnSize →
    ((List.range 16).filter fun i => s.dom i != .off).foldl (fun n i => n + dirSize (s.domK i)) (dirSize (s.domK k)) ≤ 2 ^ 27 →
    exec (.domEnable src k) s = .next (State.domReject k 0 (State.setDom k .init
      (s.zeroBarn (s.rg64 (Adr.DOM_DIR_BASE_LO k)) (1024 * 2 ^ s.domK k))))) ∧
  (∀ s src k, s.takes src (Adr.DOM_CTRL k) .wo = true → s.dom k = .active →
    exec (.domFlush src k) s = .next (((s.recallAll k).setDom k .flushing).domReject k 0)) ∧
  (∀ s src k, s.takes src (Adr.DOM_CTRL k) .wo = true → s.dom k = .down →
    exec (.domReset src k) s = .next ((s.setDom k .off).domReject k 0)) ∧
  (∀ s k, s.dom k = .init → exec (.domSweepDone k) s = .next ((s.setDom k .active).raiseInt .dom k 0)) ∧
  (∀ s k, s.dom k = .flushing → s.home.waiting = [] → s.trkUsed k = 0 → s.dirEntries k = [] →
    exec (.domSweepDone k) s = .next ((s.setDom k .off).raiseInt .dom k 2)) ∧
  (∀ s k, s.dom k = .downWalk → s.walkOut k = false → exec (.domSweepDone k) s = .next (s.setDom k .down))

/-- R76 to R79: CXL ports. A link that trains enters ACTIVE. A request of the device is answered Unsupported Request, but a
write to CXL_MSI_ADDR is kept and raises its interrupt. CXL_CFG_GO issues the access and leaves the window busy until a
completion, whose data a read takes, or 50 ms end it. A decoder that Table 3-15 allows is set, its status 0. -/
def Obligations.CxlPorts : Prop :=
  (∀ s p r, s.isCxl p = true → (s.port p).st = .equalise → r ≠ .failed →
    exec (.cxlTrain p r) s = .next (s.enterActive p)) ∧
  (∀ s p, s.isCxl p = true → s.portActive p = true →
    exec (.cxlDeviceRequest p) s = .next ((s.emit (.cxlUr p)).bumpLo (Adr.PORT_CXL_POISON_RX p))) ∧
  (∀ s p d, s.isCxl p = true → s.portActive p = true →
    exec (.cxlMsiWrite p (s.rg64 (Adr.PORT_CXL_MSI_ADDR_LO p)) d) s
      = .next ((s.setRg (Adr.PORT_CXL_MSI_DATA p) d).raiseInt .port p 1)) ∧
  (∀ s src p v, s.takes src (Adr.PORT_CXL_CFG_ADDR p) .rw = true → (s.port p).cxlCfg = false →
    Runs (.cxlCfgGo src p v) s fun t => (t.port p).cxlCfg = true ∧ ∃ w m d, t.out = s.out ++ [.cxlIo p w m d]) ∧
  (∀ s p d, s.Inv → p < 512 → (s.port p).cxlCfg = true → bit (s.rg (Adr.PORT_CXL_CFG_ADDR p)) 15 = false →
    Runs (.cxlCfgCompletion p .success d) s fun t => t.rg (Adr.PORT_CXL_CFG_DATA p) = d ∧
      t.rf (Adr.PORT_CXL_CFG_STATUS p) 2 1 = 0 ∧ t.link = (s.modPort p fun q => { q with cxlCfg := false }).link) ∧
  (∀ s p, s.Inv → (s.port p).cxlCfg = true → Runs (.cxlCfgTimeout p) s fun t =>
    t.rf (Adr.PORT_CXL_CFG_STATUS p) 2 1 = 3 ∧ t.link = (s.modPort p fun q => { q with cxlCfg := false }).link) ∧
  (∀ s src p i v, s.Inv → p < 512 → i < 4 → s.takes src (Adr.PORT_HDM_CTRL p i) .rw = true →
    bits (v ||| 1) 3 1 ≤ 4 → bits (v ||| 1) 7 4 ≤ 6 → s.hdmConflict p i ((v ||| 1) &&& 0xFFF) = false →
    Runs (.hdmEnable src p i v) s fun t => t.rg (Adr.PORT_HDM_CTRL p i) = (v ||| 1) &&& 0xFFF ∧
      t.rf (Adr.PORT_CXL_STATUS p) 3 0 = 0)

/-- R167, R172, Table 7-2: extents. EXT_CREATE makes a FREE extent OWNED with its base, size and owner and keeps its epoch;
EXT_FENCE takes it to FENCING, asks for a drain and counts; EXT_RECLAIM frees its lease records and gives it to nobody, or
to the next owner of a handover. No other extent changes, RESULT is 0. -/
def Obligations.Extents : Prop :=
  (∀ s src, s.Inv → s.takes src Adr.EXT_CMD .wo = true → s.stopped 5 0 = false → s.extArg 0 < 2 ^ 18 →
    s.extArg 1 < 2 ^ 24 → s.extArg 2 < 2 ^ 24 → s.extArg 3 < 2 ^ 20 → (s.extent (s.extArg 0)).st = .free →
    0 < s.extArg 2 → s.extArg 1 + s.extArg 2 ≤ 2 ^ 24 → s.extOverlap (s.extArg 1) (s.extArg 2) = false →
    Runs (.extCreate src) s fun t => t.extent (s.extArg 0) = { st := .owned, base := s.extArg 1, size := s.extArg 2
                                                               owner := s.extArg 3, epoch := (s.extent (s.extArg 0)).epoch } ∧
      (∀ e, e ≠ s.extArg 0 → t.extent e = s.extent e) ∧ t.rf Adr.EXT_CMD_STATUS 3 0 = 0) ∧
  (∀ s src, s.Inv → s.takes src Adr.EXT_CMD .wo = true → s.stopped 5 0 = false → s.extArg 0 < 2 ^ 18 →
    s.extArg 1 < 2 → s.extArg 2 < 2 ^ 20 → (s.extent (s.extArg 0)).st = .owned → (s.extent (s.extArg 0)).regions = 0 →
    ¬ (s.extArg 1 = 1 ∧ s.extArg 2 = (s.extent (s.extArg 0)).owner) →
    Runs (.extFence src) s fun t => t.extent (s.extArg 0) = { s.extent (s.extArg 0) with
        st := .fencing, handover := s.extArg 1 == 1, next := if s.extArg 1 == 1 then s.extArg 2 else 0, fenceTime := s.ns } ∧
      (∀ e, e ≠ s.extArg 0 → t.extent e = s.extent e) ∧ t.ext.pend = s.ext.pend ++ [.fence (s.extArg 0)] ∧
      t.rf Adr.EXT_CMD_STATUS 3 0 = 0) ∧
  (∀ s src, s.Inv → s.takes src Adr.EXT_CMD .wo = true → s.stopped 5 0 = false → s.extArg 0 < 2 ^ 18 →
    (s.extent (s.extArg 0)).st = .fenced →
    Runs (.extReclaim src) s fun t => t.ext.exts = s.ext.exts.set (s.extArg 0)
        (if (s.extent (s.extArg 0)).handover then { s.extent (s.extArg 0) with
          st := .owned, handover := false, owner := (s.extent (s.extArg 0)).next, next := 0, leases := 0 }
        else { epoch := (s.extent (s.extArg 0)).epoch, fenceTime := (s.extent (s.extArg 0)).fenceTime }) ∧
      t.ext.leases = s.ext.leases.map (fun _ l => if l.valid && l.ext == s.extArg 0 then {} else l) ∧
      t.rf Adr.EXT_CMD_STATUS 3 0 = 0)

/-- R168 to R170: leases. LEASE_GRANT and LEASE_RENEW put the record of (extent, holder) with the next epoch, which the
extent takes and OUT shows, and an expiry of the duration asked; LEASE_RELEASE frees it. A record whose expiry has passed
is marked and counted once. R171: a drain flips G and takes what waits; when nothing of the old generation is in flight it ends, and a fenced
extent is then FENCED. -/
def Obligations.LeasesAndDrains : Prop :=
  (∀ s src k x, s.Inv → s.takes src Adr.EXT_CMD .wo = true → s.stopped 5 0 = false → s.extArg 0 < 2 ^ 18 →
    s.extArg 1 < 2 ^ 20 → x = s.extent (s.extArg 0) → x.st = .owned → s.extArg 1 ≠ x.owner → s.extArg 2 ≤ 1 →
    0 < s.extArg 3 → s.extArg 3 ≤ (s.rg Adr.EXT_MAX_LEASE).toNat →
    s.isSealed = false ∨ s.leaseSealed x.owner (s.extArg 1) = true →
    (∀ i, s.leaseAt (s.extArg 0) (s.extArg 1) = some i → s.leaseOver (s.ext.leases.get i) = true) → s.leaseWay (s.extArg 0) (s.extArg 1) = some k →
    Runs (.leaseGrant src) s fun t => t.ext.leases = s.ext.leases.set k
        { valid := true, rw := s.extArg 2 == 1, holder := s.extArg 1, ext := s.extArg 0, epoch := incSkip0 x.epoch 32
          granted := s.ns, expiry := s.ns + 1000 * s.extArg 3 } ∧
      (t.extent (s.extArg 0)).epoch = incSkip0 x.epoch 32 ∧
      t.rg Adr.EXT_OUT_LO = lo32 (incSkip0 x.epoch 32) ∧ t.rf Adr.EXT_CMD_STATUS 3 0 = 0) ∧
  (∀ s src k x, s.Inv → s.takes src Adr.EXT_CMD .wo = true → s.stopped 5 0 = false → s.extArg 0 < 2 ^ 18 →
    s.extArg 1 < 2 ^ 20 → x = s.extent (s.extArg 0) → x.st = .owned → 0 < s.extArg 3 →
    s.extArg 3 ≤ (s.rg Adr.EXT_MAX_LEASE).toNat → s.leaseAt (s.extArg 0) (s.extArg 1) = some k →
    (s.ext.leases.get k).epoch = s.extArg 2 → s.leaseOver (s.ext.leases.get k) = false →
    Runs (.leaseRenew src) s fun t => t.ext.leases = s.ext.leases.set k
        { valid := true, rw := (s.ext.leases.get k).rw, holder := s.extArg 1, ext := s.extArg 0
          epoch := incSkip0 x.epoch 32, granted := s.ns, expiry := s.ns + 1000 * s.extArg 3 } ∧
      (t.extent (s.extArg 0)).epoch = incSkip0 x.epoch 32 ∧ t.rf Adr.EXT_CMD_STATUS 3 0 = 0) ∧
  (∀ s src k, s.Inv → s.takes src Adr.EXT_CMD .wo = true → s.stopped 5 0 = false → s.extArg 0 < 2 ^ 18 →
    s.extArg 1 < 2 ^ 20 → s.leaseAt (s.extArg 0) (s.extArg 1) = some k → (s.ext.leases.get k).epoch = s.extArg 2 →
    (s.extent (s.extArg 0)).st = .owned →
    Runs (.leaseRelease src) s fun t => t.ext.leases = s.ext.leases.set k {} ∧
      (t.extent (s.extArg 0)).leases = (s.extent (s.extArg 0)).leases - 1 ∧ t.rf Adr.EXT_CMD_STATUS 3 0 = 0) ∧
  (∀ s k l, l = s.ext.leases.get k → l.valid = true → l.expired = false → l.expiry ≤ s.ns →
    Runs (.leaseExpiry k) s fun t => t.ext = { s.ext with leases := s.ext.leases.set k { l with expired := true } }) ∧
  (∀ s, s.ext.pend ≠ [] → s.ext.drain = none →
    Runs .drainStart s fun t => t.ext = { s.ext with g := !s.ext.g, drain := some s.ext.pend, pend := [] }) ∧
  (∀ s e, s.ext.drain = some [.fence e] → s.infl 0 (!s.ext.g) = 0 → s.infl 1 (!s.ext.g) = 0 →
    Runs .drainEnd s fun t => t.ext = { s.ext with
      drain := none, exts := s.ext.exts.set e { s.extent e with st := .fenced } })

/-- R174 to R181, Table 7-2: snapshot regions. SNAP_CREATE makes a region of two extents of one owner in INIT, its head at
version 1; when its block heads are written it is READY. SNAP_OPEN takes a free slot for the head's version and moves the
head on; SNAP_CLOSE closes a version that no view reads; VIEW_ATTACH and VIEW_DETACH add and take a view; SNAP_DESTROY
asks for a drain. A sweep begins at a multiple of SWEEP_INTERVAL and ends with its slots EMPTY. -/
def Obligations.Snapshots : Prop :=
  (∀ s src n x, s.Inv → s.takes src Adr.EXT_CMD .wo = true → s.stopped 5 0 = false → s.extArg 0 < 2 ^ 14 →
    s.extArg 1 < 2 ^ 18 → s.extArg 2 < 2 ^ 18 → (s.region (s.extArg 0)).st = .free → s.extArg 1 ≠ s.extArg 2 →
    (s.extent (s.extArg 1)).st = .owned → (s.extent (s.extArg 2)).st = .owned →
    (s.extent (s.extArg 1)).owner = (s.extent (s.extArg 2)).owner → 12 ≤ s.extArg 3 → s.extArg 3 ≤ 16 → 0 < n →
    n ≤ (s.extent (s.extArg 2)).blocks (s.extArg 3) → n < 2 ^ 24 → s.extArg64 4 % 4096 = 0 → s.extArg64 6 % 4096 = 0 →
    s.extArg64 4 + 1024 + 16 * (s.extent (s.extArg 1)).blocks (s.extArg 3) ≤ barnSize →
    s.extArg64 6 + 16 * n ≤ barnSize →
    x = { st := .init, ext := s.extArg 1, spare := s.extArg 2, shift := s.extArg 3, head := 1, floor := 1
          mapBase := s.extArg64 4, recBase := s.extArg64 6, recCount := n, recFree := n : Region } →
    Runs (.snapCreate src n) s fun t => t.region (s.extArg 0) = x ∧
      (∀ r, r ≠ s.extArg 0 → t.region r = s.region r) ∧ t.rf Adr.EXT_CMD_STATUS 3 0 = 0) ∧
  (∀ s r, (s.region r).st = .init → Runs (.snapInitDone r) s fun t => (t.region r).st = .ready ∧
    ∀ q, q ≠ r → t.region q = s.region q) ∧
  (∀ s src i x, s.Inv → s.takes src Adr.EXT_CMD .wo = true → s.stopped 5 0 = false → s.extArg 0 < 2 ^ 14 →
    x = s.region (s.extArg 0) → x.base = true → (leastBelow 64 fun i => slotSt (s.slotNum x i) == 0) = some i →
    (x.head + 1 + 2 ^ 32 - x.floor) % 2 ^ 32 < 2 ^ 31 →
    Runs (.snapOpen src) s fun t => t.region (s.extArg 0) =
        { x with newest := x.head, head := incSkip0 x.head 32, live := x.live + 1 } ∧
      t.ext.pend = s.ext.pend ++ [.open_ (s.extArg 0) i] ∧ t.mem = (s.setSlot x i (slotWord 1 0 x.head s.ns)).mem ∧
      t.rg Adr.EXT_OUT_LO = lo32 x.head) ∧
  (∀ s src i x, s.Inv → s.takes src Adr.EXT_CMD .wo = true → s.stopped 5 0 = false → s.extArg 0 < 2 ^ 14 →
    s.extArg 1 < 2 ^ 14 → s.extArg 0 ≠ s.extArg 1 → x = s.region (s.extArg 1) → (s.region (s.extArg 0)).st = .free →
    x.base = true → s.slotFind x 2 (s.extArg 2) = some i →
    Runs (.viewAttach src) s fun t => t.region (s.extArg 0) = { st := .ready, view := true, ext := x.ext
                                                                baseRegion := s.extArg 1, shift := x.shift
                                                                viewVer := s.extArg 2 } ∧
      t.region (s.extArg 1) = { x with views := x.views + 1 } ∧
      t.mem = (s.setSlot x i (s.slotNum x i + 2 ^ 111)).mem) ∧
  (∀ s src v x i, s.Inv → s.takes src Adr.EXT_CMD .wo = true → s.stopped 5 0 = false → s.extArg 0 < 2 ^ 14 →
    v = s.region (s.extArg 0) → v.st = .ready → v.view = true → x = s.region v.baseRegion → x.st = .ready →
    s.extArg 0 ≠ v.baseRegion → s.slotFind x 2 v.viewVer = some i →
    Runs (.viewDetach src) s fun t => t.region v.baseRegion = { x with views := x.views - 1 } ∧
      t.ext.regions = (s.ext.regions.set v.baseRegion { x with views := x.views - 1 }).set (s.extArg 0) {} ∧
      t.mem = (s.setSlot x i (s.slotNum x i - 2 ^ 111)).mem) ∧
  (∀ s src x i, s.Inv → s.takes src Adr.EXT_CMD .wo = true → s.stopped 5 0 = false → s.extArg 0 < 2 ^ 14 →
    x = s.region (s.extArg 0) → x.base = true → s.slotFind x 2 (s.extArg 1) = some i → slotViews (s.slotNum x i) = 0 →
    Runs (.snapClose src) s fun t => t.ext = { s.ext with pend := s.ext.pend ++ [.close (s.extArg 0) i] } ∧
      t.mem = (s.setSlot x i (setNumBits (s.slotNum x i) 127 125 3)).mem) ∧
  (∀ s src, s.Inv → s.takes src Adr.EXT_CMD .wo = true → s.stopped 5 0 = false → s.extArg 0 < 2 ^ 14 →
    (s.region (s.extArg 0)).base = true → (s.region (s.extArg 0)).live = 0 → (s.region (s.extArg 0)).views = 0 →
    Runs (.snapDestroy src) s fun t => (t.region (s.extArg 0)).st = .destroying ∧
      t.ext.pend = s.ext.pend ++ [.destroy (s.extArg 0)]) ∧
  (∀ s r, (s.region r).waiting ≠ [] → (s.region r).sweeping = none →
    s.ns / (1000 * s.rf Adr.EXT_SWEEP_INTERVAL 19 0) ≠ (s.region r).since / (1000 * s.rf Adr.EXT_SWEEP_INTERVAL 19 0) →
    Runs (.snapSweepStart r) s fun t => t.region r = { s.region r with sweeping := some (s.region r).waiting, waiting := [] }) ∧
  (∀ s r slots, (s.region r).sweeping = some slots →
    ((s.sweep r slots).recsUsed r = ((s.sweep r slots).region r).recCount - ((s.sweep r slots).region r).recFree) →
    exec (.snapSweepEnd r) s = .next (s.sweep r slots))

/-- R187, R198, R213, Table 8-4: the tier engine. EN 1 with a sound configuration enables it, its frame records zero; EN 0
with no frame used and no command disables it. A command with GO whose range one entry of the pool map holds is taken with
PROGRESS and SKIPPED at 0 and runs over its units; a second one is ignored and counted. When all its units are done and no
fill or writeback of the range is left, its RESULT is shown. R194, R195: a fill that has its data puts them with their poison marks into its frame, the sector CLEAN; a writeback
that has succeeded leaves the sector CLEAN, or INVALID in a frame that is evicted. The requests of the set go on. -/
def Obligations.Tiers : Prop :=
  (∀ s src, s.Inv → s.takes src Adr.TIER_CTRL .rw = true → s.tierOn = false → 6 ≤ s.tierK → s.tierK ≤ 18 →
    s.rg64 Adr.TIER_CACHE_BASE_LO % 65536 = 0 → s.rg64 Adr.TIER_FTAB_BASE_LO % 4096 = 0 →
    regionsBad (s.tierRegions ++ (if s.gran.st == .off then [] else s.granRegions)) = false →
    Runs (.tierEnable src) s fun t => t.tierOn = true ∧ t.rg Adr.TIER_STATUS = w32 (2 ^ 31) ∧
      t.mem = (s.zeroBarn (s.rg64 Adr.TIER_FTAB_BASE_LO) (64 * 2 ^ (s.tierK + 4))).mem) ∧
  (∀ s src, s.Inv → s.takes src Adr.TIER_CTRL .rw = true → s.tierOn = true →
    (s.tier.frames.any fun e => e.2.valid) = false → s.tier.cmd = none →
    Runs (.tierDisable src) s fun t => t.tierOn = false ∧ t.rg Adr.TIER_STATUS = 0) ∧
  (∀ s src i, s.takes src Adr.TIER_CMD .wo = true → s.tier.cmd = none → 0 < s.rf Adr.TIER_ARG_UNITS 23 0 →
    s.rg64 Adr.TIER_ARG_PPA_LO % 65536 = 0 →
    s.tierEntry (s.rg64 Adr.TIER_ARG_PPA_LO) (s.rf Adr.TIER_ARG_UNITS 23 0) = some i → poolKind (s.poolEntry i) = 2 →
    ∀ x ∈ [(Instr.tierStage src, 1), (.tierStagePin src, 2), (.tierUnpin src, 3), (.tierFlush src, 4), (.tierEvict src, 5),
        (.tierDiscard src, 6), (.tierTrim src, 7)],
      ∃ u : State, exec x.1 s = .next u.tierRun ∧ u.mem = s.mem ∧
        u.tier = { s.tier with cmd := some (⟨x.2, i, s.rg64 Adr.TIER_ARG_PPA_LO / 65536, s.rf Adr.TIER_ARG_UNITS 23 0,
          0, 0⟩ : TierCmd) }) ∧
  (∀ s src c, s.takes src Adr.TIER_CMD .wo = true → s.tier.cmd = some c →
    ∀ x ∈ [Instr.tierStage src, .tierStagePin src, .tierUnpin src, .tierFlush src, .tierEvict src, .tierDiscard src,
        .tierTrim src],
      exec x s = .next (s.bump Adr.TIER_CMD_IGNORED 1)) ∧
  (∀ s c, s.Inv → s.tier.cmd = some c → c.units ≤ c.next →
    (∀ e ∈ s.tier.frames, e.2.has .filling = false ∧ e.2.has .writing = false) →
    Runs .tierCmdDone s fun t => t.tier = { s.tier with cmd := none } ∧ t.rg Adr.TIER_CMD_STATUS = w32 c.result) ∧
  (∀ s f sec id r data pm, (s.frame f).sect.get sec = .filling → (s.frame f).gran = false →
    s.tierJob (.fill f sec 1) = some (id, r) → r.merged = (0, data, pm) →
    exec (.fillDone f sec) s
      = .next (State.wakeSet (f / 16) (State.setSector f sec .clean ((s.setReq id none).fillData f sec data pm)))) ∧
  (∀ s f sec id r x, (s.frame f).sect.get sec = .writing → (s.frame f).gran = false →
    s.tierJob (.wb f sec 1) = some (id, r) → r.merged = (0, x) →
    exec (.writebackDone f sec) s = .next ((s.setReq id none).wbOk f [sec]))

/-- R203 to R212, Table 8-10: the granary. Its unit goes from OFF to RESTORING, is READY once restored or formatted, and
goes back to OFF. A sector read from flash without error is delivered, one that fails is read again at the next level; a
unit programmed changes the map, a block erased is FREE with one erase more. Collection and wear levelling relocate the
block that R205 and R206 choose. The journal is programmed by pages, the checkpoint written after CKPT_INTERVAL of them.
A walk that finds nothing changes nothing. -/
def Obligations.Granary : Prop :=
  (∀ s src, s.Inv → s.takes src Adr.GRAN_CTRL .rw = true → s.gran.st = .off → s.granFieldsBad = false →
    s.granRegionsBad = false →
    Runs (.granEnable src) s fun t => t.gran = { s.gran with st := .restoring } ∧ t.rf Adr.GRAN_CTRL 0 0 = 1) ∧
  (∀ s src, s.Inv → s.takes src Adr.GRAN_CTRL .rw = true → s.gran.st = .failed →
    Runs (.granDisable src) s fun t => t.gran = { s.gran with st := .off, scan := true } ∧ t.rf Adr.GRAN_CTRL 0 0 = 0) ∧
  (∀ s src, s.Inv → s.takes src Adr.GRAN_CTRL .rw = true → s.gran.st = .ready →
    (s.tier.frames.any fun e => e.2.valid && e.2.gran) = false → s.gran.journal = [] →
    Runs (.granDisable src) s fun t => t.gran = { s.gran with st := .off, jpages := 0 } ∧
      t.out = s.out ++ [.nandMeta true s.mapList] ∧ t.rf Adr.GRAN_CTRL 0 0 = 0) ∧
  (∀ s src bad spare, s.Inv → s.takes src Adr.GRAN_CTRL .rw = true → s.gran.st = .off → s.granFieldsBad = false →
    s.granRegionsBad = false → 1664 ≤ spare →
    (∀ c, c < s.granChans → s.spareNeed ≤ ((s.chanBlocks c).filter fun b => !bad.contains b).length) →
    Runs (.granFormat src bad spare) s fun t => t.gran = { ({} : GranUnit) with st := .formatting } ∧
      t.rg Adr.GRAN_MAPPED_UNITS = 0) ∧
  (∀ s map late blks, s.gran.st = .formatting → exec (.granWorkDone map late blks false) s = .next (s.setGran .ready)) ∧
  (∀ s map late blks, s.gran.st = .restoring →
    exec (.granWorkDone map late blks false) s = .next (s.granRestored map late blks)) ∧
  (∀ s pun sec data pm r, (s.gran.reads.find? fun r => r.pun == pun && r.sec == sec) = some r →
    exec (.nandReadDone pun sec true 0 data pm) s = .next (s.sectorDecoded r data (pm % 2 ^ 64))) ∧
  (∀ s pun sec n data pm r, (s.gran.reads.find? fun r => r.pun == pun && r.sec == sec) = some r → r.level < 16 →
    r.level < s.rf Adr.GRAN_LDPC_CFG 3 0 → r.level ≠ 15 →
    ∃ u : State, exec (.nandReadDone pun sec false n data pm) s = .next (u.readDisturb (u.bnOf pun)) ∧
      u.out = s.out ++ [.nandRead pun sec (r.level + 1)] ∧
      u.gran.reads = s.gran.reads.map fun x => if x = r then { x with level := r.level + 1 } else x) ∧
  (∀ s pun p, (s.gran.progs.find? fun p => p.pun == some pun) = some p → s.gran.journal.length < 131072 →
    exec (.nandProgramDone pun true) s = .next (s.progOk p pun)) ∧
  (∀ s bn, s.gran.erases.contains (bn, true) = true → exec (.nandEraseDone bn true) s = .next (State.placeProgs
    (State.setBlk bn (blkWord 0 (blkErases (s.blk bn) + 1) 0 0)
      (s.modGran fun g => { g with erases := g.erases.erase (bn, true) })))) ∧
  (∀ s c b w, w = s.modGran (fun g => { g with gc := g.gc.set c true }) → s.gran.st = .ready → c < s.granChans →
    (s.gran.emptying.any fun b => b % 16 == c) = false → (s.chanFree c).length ≤ s.rf Adr.GRAN_GC_CFG 15 0 →
    argmin (fun b => blkValid (w.blk b) * 2 ^ 31 + b) (w.fullBlocks c) = some b →
    exec (.gcRound c) s = .next ((w.relocBlock b).bump Adr.GRAN_GC_RELOCS 1)) ∧
  (∀ s c b, s.gran.st = .ready → c < s.granChans → argmin (fun b => blkErases (s.blk b)) (s.fullBlocks c) = some b →
    blkErases (s.blk b) + s.rf Adr.GRAN_WL_DELTA 15 0 < ((s.fullBlocks c).map fun b => blkErases (s.blk b)).foldl max 0 →
    exec (.wlRelocate c) s = .next ((s.relocBlock b).bump Adr.GRAN_WL_RELOCS 1)) ∧
  (∀ s, 2048 ≤ s.gran.journal.length → ∃ u : State, exec .journalProgram s = .next u.tierRun ∧
    u.out = s.out ++ [.nandMeta false (s.gran.journal.take 2048)] ∧
    u.gran = { s.gran with journal := s.gran.journal.drop 2048, jpages := s.gran.jpages + 1, jtime := s.ns }) ∧
  (∀ s, s.rf Adr.GRAN_CKPT_INTERVAL 19 0 ≤ s.gran.jpages → s.gran.st = .ready →
    Runs .checkpointWrite s fun t => t.out = s.out ++ [.nandMeta true s.mapList] ∧ t.gran = { s.gran with jpages := 0 }) ∧
  (∀ s, s.gran.st = .ready → (s.allBlocks.map fun b => blkValid (s.blk b)).sum = s.rf Adr.GRAN_MAPPED_UNITS 30 0 →
    (∀ b ∈ s.allBlocks, blkSt (s.blk b) ≤ 4) → exec .granWalkEnd s = .next s) ∧
  (∀ s, s.gran.st = .ready → (s.allBlocks.map fun b => blkValid (s.blk b)).sum ≠ s.rf Adr.GRAN_MAPPED_UNITS 30 0 →
    exec .granWalkEnd s = .next (State.tallyMismatch 0 (s.rf Adr.GRAN_MAPPED_UNITS 30 0)
      (s.allBlocks.map fun b => blkValid (s.blk b)).sum Err.gran_GRAN_TALLY 0 [] (s.setGran .failed)))

/-- R224 to R226, Table 9-5: legs. LEG_OPEN of a CLOSED leg with a sound entry sends OPEN and is OPENING, LEG_CLOSE of an
OPEN one sends CLOSE, fails its messages and is CLOSED. An OPEN without answer is sent again after RTO; outstanding packets
that are not acknowledged in RTO are sent again and counted; an acknowledgement is sent ACK_DELAY after the first
acceptance. OPEN, OPEN_ACK and CLOSE received open and close a leg. R218, R224, Table 9-10: caravan packets received. A sequenced packet of an OPEN leg and its incarnation that is next in
order is accepted: the number expected moves on, its kind acts, and an acknowledgement goes out when enough are owed. An
ACK retires what it covers, a NAK sends the rest again. A malformed packet is dropped and counted. -/
def Obligations.Caravans : Prop :=
  (∀ s src d l, s.takes src (Adr.CARV_CMD d) .wo = true → l < 8192 → legDie l = d → (s.leg l).st = .closed →
    legEntryBad (s.entry (legAt l) 16) = false → s.carvAgree = true →
    (s.lf l 508 508 = 1 → s.legFrame l ≤ s.rf (Adr.CARV_MAX_FRAME d) 13 0) →
    exec (.legOpen src d l) s = .next (State.carvDone d 0 (State.sendOpen l (s.modLeg l fun x =>
      { x with st := .opening, inc := s.ns, since := s.ns, timeouts := 0 })))) ∧
  (∀ s src d l, s.takes src (Adr.CARV_CMD d) .wo = true → l < 8192 → legDie l = d → (s.leg l).st = .open_ →
    exec (.legClose src d l) s = .next (State.carvDone d 0 (State.modLeg l (fun x => { x with st := .closed })
      ((s.legCtl l 8 (s.leg l).remote 0).failAll l 4)))) ∧
  (∀ s l, (s.leg l).st = .opening → (s.leg l).since + s.legRto l ≤ s.ns → (s.leg l).timeouts < s.lf l 399 396 →
    exec (.legOpenResend l) s = .next (State.sendOpen l (s.modLeg l fun x =>
      { x with timeouts := x.timeouts + 1, since := s.ns }))) ∧
  (∀ s l, (s.leg l).st = .open_ → (s.leg l).ring ≠ [] → (s.leg l).since + s.legRto l ≤ s.ns →
    (s.leg l).timeouts < s.lf l 399 396 →
    exec (.legRto l) s = .next (State.resend l (State.bump (Adr.CARV_TIMEOUTS (legDie l)) 1 (s.modLeg l fun x =>
      { x with timeouts := x.timeouts + 1, since := s.ns })))) ∧
  (∀ s l, (s.leg l).st = .open_ → (s.leg l).unacked ≠ 0 →
    (s.leg l).ackAt + s.rf (Adr.CARV_ACK_CFG (legDie l)) 31 16 ≤ s.ns →
    exec (.ackDelayExpire l) s = .next (s.sendAck l 4)) ∧
  (∀ s p k c u l, carvBad k = false → k.carvKind = 6 → s.takeLocal p k = (c, u) →
    (u.gcount 0x10 1 (legDie (k.cf 265 253)) none none (some (k.cf 221 202))).openLeg k = some l →
    ((u.gcount 0x10 1 (legDie (k.cf 265 253)) none none (some (k.cf 221 202))).leg l).st = .closed →
    exec (.carvOpenRx p k) s = .next (State.freeLocal c (State.legCtl l 7 (k.cf 252 240) 0
      (State.legAdopt l (k.cf 383 320) (k.cf 252 240)
        (u.gcount 0x10 1 (legDie (k.cf 265 253)) none none (some (k.cf 221 202))))))) ∧
  (∀ s p k c u g, carvBad k = false → k.carvKind = 7 → s.takeLocal p k = (c, u) →
    g = u.gcount 0x10 1 (legDie (k.cf 265 253)) none none (some (k.cf 221 202)) →
    (g.leg (k.cf 265 253)).st = .opening → k.cf 383 320 = (g.leg (k.cf 265 253)).inc % 2 ^ 64 →
    exec (.carvOpenAckRx p k) s = .next (State.freeLocal c (g.legAdopt (k.cf 265 253)
      (g.leg (k.cf 265 253)).inc (k.cf 252 240)))) ∧
  (∀ s p k c u g, carvBad k = false → k.carvKind = 8 → s.takeLocal p k = (c, u) →
    g = u.gcount 0x10 1 (legDie (k.cf 265 253)) none none (some (k.cf 221 202)) →
    (g.leg (k.cf 265 253)).st = .open_ → k.cf 383 320 = (g.leg (k.cf 265 253)).inc % 2 ^ 64 →
    exec (.carvCloseRx p k) s = .next (State.freeLocal c (State.modLeg (k.cf 265 253) (fun x => { x with st := .closed })
      (g.failAll (k.cf 265 253) 3)))) ∧
  (∀ s p k c u l v g x, l = k.cf 265 253 → carvBad k = false → s.takeLocal p k = (c, u) →
    v = u.gcount 0x10 1 (legDie l) none none (some (k.cf 221 202)) → (v.leg l).st = .open_ →
    k.cf 383 320 = (v.leg l).inc % 2 ^ 64 → g = v.ackOf l k → x = g.leg l → k.cf 319 296 = x.rxNext →
    ∀ r ∈ [(Instr.carvDataRx p k, 0, State.carvDataRx l k), (.carvReadReqRx p k, 1, State.readReqRx l k),
        (.carvReadDataRx p k, 2, State.readDataRx l k), (.carvResultRx p k, 3, State.resultRx l k)],
      k.carvKind = r.2.1 → ∃ w : State, w = r.2.2 (g.setLeg l { x with
          rxNext := (x.rxNext + 1) % 2 ^ 24, unacked := x.unacked + 1, ackAt := if x.unacked = 0 then g.ns else x.ackAt
          nakAt := none }) ∧
        exec r.1 s = .next (State.freeLocal c
          (if w.rf (Adr.CARV_ACK_CFG (legDie l)) 7 0 ≤ (w.leg l).unacked then w.sendAck l 4 else w))) ∧
  (∀ s p k c u l g, l = k.cf 265 253 → carvBad k = false → s.takeLocal p k = (c, u) → k.carvKind = 4 →
    g = u.gcount 0x10 1 (legDie l) none none (some (k.cf 221 202)) → (g.leg l).st = .open_ →
    k.cf 383 320 = (g.leg l).inc % 2 ^ 64 → k.cf 267 267 = 1 →
    exec (.carvAckRx p k) s = .next (State.freeLocal c (g.carvAckRx l (k.cf 295 272)))) ∧
  (∀ s p k c u l g, l = k.cf 265 253 → carvBad k = false → s.takeLocal p k = (c, u) → k.carvKind = 5 →
    g = u.gcount 0x10 1 (legDie l) none none (some (k.cf 221 202)) → (g.leg l).st = .open_ →
    k.cf 383 320 = (g.leg l).inc % 2 ^ 64 →
    exec (.carvNakRx p k) s = .next (State.freeLocal c ((g.ackOf l k).resend l))) ∧
  (∀ s p k c u, carvBad k = true → s.takeLocal p k = (c, u) →
    ∀ r ∈ [Instr.carvDataRx p k, .carvReadReqRx p k, .carvReadDataRx p k, .carvResultRx p k, .carvAckRx p k, .carvNakRx p k,
        .carvOpenRx p k, .carvOpenAckRx p k, .carvCloseRx p k, .postWqeRx p k, .postSoRx p k],
      exec r s = .next ((u.bump (Adr.CARV_PKT_BAD (legDie (k.cf 265 253))) 1).freeLocal c)) ∧
  (∀ s p k c u o, s.unitTag k = some o → o.isCarv = true → s.takeLocal p k = (c, u) →
    exec (.carvMemRsp p k) s = .next (State.freeLocal c (State.carvRsp o k.rspStatus (k.bytes 32 k.rspSize)
      (k.poisonMap != 0) (u.setTag k.reqTag none))))

/-- R226 to R228: work queues. WQ_ENABLE starts a sound queue at indices 0, WQ_DISABLE ends an idle one, WQ_POST moves PROD
on; the next request of an OPEN leg takes an initiator slot and is sent. A member of its job may post to a queue. -/
def Obligations.WorkQueues : Prop :=
  (∀ s src d q, s.Inv → s.takes src (Adr.CARV_CMD d) .wo = true → q < 4096 → wqDie q = d → (s.wq q).st = .disabled →
    4 ≤ s.wqDepth q → s.wqDepth q ≤ 16 → s.qf q 189 133 % 4096 = 0 → s.qf q 127 64 % 4096 = 0 →
    s.qf q 127 64 + 32 * 2 ^ s.wqDepth q ≤ barnSize → s.qf q 132 128 = 0 → s.qf q 31 0 = 0 →
    Runs (.wqEnable src d q) s fun t => t.wq q = { ({} : Wq) with st := .active } ∧
      (∀ r, r ≠ q → t.wq r = s.wq r) ∧ t.rf (Adr.CARV_CMD_STATUS d) 3 0 = 0) ∧
  (∀ s src d q, s.Inv → s.takes src (Adr.CARV_CMD d) .wo = true → q < 4096 → wqDie q = d → (s.wq q).st = .active →
    (s.wq q).issued = 0 →
    Runs (.wqDisable src d q) s fun t => t.carv = (s.setWq q {}).carv ∧ t.rf (Adr.CARV_CMD_STATUS d) 3 0 = 0) ∧
  (∀ s src d q n, s.Inv → s.takes src (Adr.CARV_CMD d) .wo = true → q < 4096 → wqDie q = d → (s.wq q).st = .active →
    n = (s.rf (Adr.CARV_CMD_ARG d) 15 0 + 65536 - (s.wq q).prod) % 65536 → (s.wq q).posted + n ≤ 2 ^ s.wqDepth q →
    Runs (.wqPost src d q) s fun t => t.wq q = { s.wq q with
        prod := ((s.wq q).prod + n) % 65536, posted := (s.wq q).posted + n } ∧
      (∀ r, r ≠ q → t.wq r = s.wq r) ∧ t.rf (Adr.CARV_CMD_STATUS d) 3 0 = 0) ∧
  (∀ s q w m, q < 4096 → s.stopped 7 (q / 2048) = false → (s.wq q).st = .active → (s.wq q).issued < (s.wq q).posted →
    w = s.barnNum (s.qf q 127 64 + 32 * ((s.wq q).cons % 2 ^ s.wqDepth q)) 32 → wqeBad q w = false →
    nbits w 248 248 = 0 → (s.leg (wLeg w)).st = .open_ → s.pickInit (wLeg w) = some m →
    exec (.wqeIssue q) s = .next (s.wqSend q m w)) ∧
  (∀ s p k c u q g w, carvBad k = false → k.carvKind = 9 → s.takeLocal p k = (c, u) →
    g = u.gcount 0x10 1 (legDie (k.cf 265 253)) none none (some (k.cf 221 202)) → g.postWay p k = true → q = k.num 64 4 →
    g.job (g.wqSlot q) = .active → g.member (g.wqSlot q) k.src = (true, w) → (w.wq q).st = .active →
    k.cf 221 202 = w.wqFjid q →
    exec (.postWqeRx p k) s = .next ((w.wqPost q (k.num 80 32)).2.freeLocal c))

/-- R232, R233: standing orders. SO_ARM of a slot whose order is sound and allowed arms it, SO_CANCEL of an armed slot
empties it; a member of the job may write and arm one. An order whose threshold is met when it is armed triggers. R233: the oldest triggered order of a die acts. One whose action is taken counts SO_FIRED, and is armed again at its
threshold plus its step or freed; one whose action cannot be taken is freed, counts SO_FAILED and raises it. -/
def Obligations.StandingOrderTable : Prop :=
  (∀ s src d k o, s.Inv → s.takes src (Adr.CARV_CMD d) .wo = true → k < 32768 → soDie k = d → s.order k = none →
    orderOf (s.barnNum (s.soAt k) 32) (s.barnNum (s.soAt k + 32) 96 == 0) = some o → s.soOk k o = true →
    meets (s.ctrOf o.ctr).value o.thresh = false →
    Runs (.soArm src d k) s fun t => t.order k = some o ∧ (∀ i, i ≠ k → t.order i = s.order i) ∧
      t.rf (Adr.CARV_CMD_STATUS d) 3 0 = 0) ∧
  (∀ s src d k o, s.Inv → s.takes src (Adr.CARV_CMD d) .wo = true → k < 32768 → soDie k = d → s.order k = none →
    orderOf (s.barnNum (s.soAt k) 32) (s.barnNum (s.soAt k + 32) 96 == 0) = some o → s.soOk k o = true →
    meets (s.ctrOf o.ctr).value o.thresh = true →
    Runs (.soArm src d k) s fun t => t.order k = some { o with triggered := true, firedAt := s.ns } ∧
      t.ctr.trig = s.ctr.trig ++ [k] ∧ t.rf (Adr.CARV_CMD_STATUS d) 3 0 = 0) ∧
  (∀ s src d k o, s.Inv → s.takes src (Adr.CARV_CMD d) .wo = true → k < 32768 → soDie k = d → s.order k = some o →
    o.triggered = false →
    Runs (.soCancel src d k) s fun t => t.ctr = (s.setOrder k none).ctr ∧ t.rf (Adr.CARV_CMD_STATUS d) 3 0 = 0) ∧
  (∀ s p k c u g j w i o, carvBad k = false → k.carvKind = 10 → s.takeLocal p k = (c, u) →
    g = u.gcount 0x10 1 (legDie (k.cf 265 253)) none none (some (k.cf 221 202)) → g.postWay p k = true → i = k.num 64 4 →
    orderOf (k.num 80 32) (k.num 112 96 == 0) = some o → g.activeSlot o.fjid = some j → g.member j k.src = (true, w) →
    w.soOk i o = true → w.order i = none →
    exec (.postSoRx p k) s = .next (State.freeLocal c (State.soArm i o (w.setBarn (w.soAt i) (k.bytes 80 256))))) ∧
  (∀ s d k o u w, s.stopped 7 d = false → (s.ctr.trig.find? fun k => soDie k == d) = some k →
    u = s.modCtr (fun x => { x with trig := x.trig.erase k }) → s.order k = some o → u.soAct k o = (true, w) →
    exec (.soAction d) s = .next (if o.rearm
      then (w.bump (Adr.CARV_SO_FIRED d) 1).soArm k { o with triggered := false, thresh := o.thresh + o.step }
      else (w.bump (Adr.CARV_SO_FIRED d) 1).setOrder k none)) ∧
  (∀ s d k o u w, s.stopped 7 d = false → (s.ctr.trig.find? fun k => soDie k == d) = some k →
    u = s.modCtr (fun x => { x with trig := x.trig.erase k }) → s.order k = some o → u.soAct k o = (false, w) →
    exec (.soAction d) s = .next (((w.setOrder k none).bump (Adr.CARV_SO_FAILED d) 1).raise Err.carv_SO_FAILED d [k]
      (some o.fjid)))

/-- R284, Table 11-7: the commands of a sheaf. ENABLE of a FREE sheaf that passes takes the argument as its next operation,
copies its child list and is IDLE; DISABLE of one that is not RUNNING frees it; RESET takes one that is not RUNNING to IDLE
at the operation given; ABORT aborts. RESULT is 0. R287, R288: sheaf counters. VALUE_HI sets the counter to the pair, ADD_HI adds the pair; both look at the threshold and
at the orders that watch it. THRESH_HI sets the threshold, CFG its trigger and owner; MET is evaluated again. -/
def Obligations.SheafControl : Prop :=
  (∀ s src d k c, s.Inv → s.takes src (Adr.SHEAF_CMD d) .wo = true → k < 4096 → shDie k = d → (s.sheaf k).st = .free →
    c = s.shCfgOf k → shBad c = false → (s.activeSlot c.fjid).isSome = true →
    kidsOk c.root c.members 0 (s.kidWords c) = true → (∀ t ∈ c.tiles, s.tileOn t = true) →
    (∀ b ∈ c.binders, s.tile.binders.get b + c.slots ≤ 4096) →
    Runs (.sheafEnable src d k) s fun t => t.sheaf k = { s.sheaf k with
        st := .idle, opNext := s.shArg d, resetOp := s.shArg d, done := 0, kids := s.kidWords c, groups := []
        parts := [], missed := [] } ∧
      (∀ i, i ≠ k → t.sheaf i = s.sheaf i) ∧ t.rg (Adr.SHEAF_CMD_STATUS d) = 0) ∧
  (∀ s src d k, s.Inv → s.takes src (Adr.SHEAF_CMD d) .wo = true → k < 4096 → shDie k = d → (s.sheaf k).st ≠ .free →
    (s.sheaf k).st ≠ .running →
    Runs (.sheafDisable src d k) s fun t => t.shv = (s.setSheaf k { s.sheaf k with
        st := .free, kids := [], groups := [], parts := [], missed := [], done := 0 }).shv ∧
      t.rg (Adr.SHEAF_CMD_STATUS d) = 0) ∧
  (∀ s src d k, s.Inv → s.takes src (Adr.SHEAF_CMD d) .wo = true → k < 4096 → shDie k = d → (s.sheaf k).st ≠ .free →
    (s.sheaf k).st ≠ .running →
    Runs (.sheafReset src d k) s fun t => t.sheaf k = { s.sheaf k with
        st := .idle, opNext := s.shArg d, resetOp := s.shArg d, done := 0, groups := [], parts := [], missed := [] } ∧
      (∀ i, i ≠ k → t.sheaf i = s.sheaf i) ∧ t.rg (Adr.SHEAF_CMD_STATUS d) = 0) ∧
  (∀ s src d k, s.takes src (Adr.SHEAF_CMD d) .wo = true → k < 4096 → shDie k = d → (s.sheaf k).st ≠ .free →
    exec (.sheafAbortCmd src d k) s = .next ((s.shFail k 7).shDone d 0)) ∧
  (∀ s src c v, s.ctrOn c = true → exec (.ctrValueWrite src c v) s = .next (State.soCheck c (State.ctrEval c false
    (State.setCtrOf c { s.ctrOf c with value := v ++ s.ctrLo src (ctrAt c) (lo32 (s.ctrOf c).value.toNat) }
      (s.unstage src (ctrAt c)))))) ∧
  (∀ s src c v, s.ctrOn c = true → exec (.ctrThreshWrite src c v) s = .next (State.ctrEval c false
    (State.setCtrOf c { s.ctrOf c with thresh := v ++ s.ctrLo src (ctrAt c + 8) (lo32 (s.ctrOf c).thresh.toNat) }
      (s.unstage src (ctrAt c + 8))))) ∧
  (∀ s src c v w, s.ctrOn c = true → w = State.setCtrOf c
      { s.ctrOf c with add := s.ctrLo src (ctrAddAt c) (s.ctrOf c).add } (s.unstage src (ctrAddAt c)) →
    exec (.ctrAdd src c v) s = .next (State.soCheck c (State.ctrEval c false (w.setCtrOf c { w.ctrOf c with
      value := (w.ctrOf c).value + (v ++ s.ctrLo src (ctrAddAt c) (s.ctrOf c).add) })))) ∧
  (∀ s src c v, s.ctrOn c = true → exec (.ctrCfgWrite src c v) s = .next (State.ctrEval c (bit v 31)
    (s.setCtrOf c { s.ctrOf c with trig := bit v 31, owned := bit v 10, owner := bits v 9 0 })))

/-- R281, R282: a SHEAF packet of the next operation from the child, or the parent, that it names starts an IDLE sheaf and
is worked on; then it is counted and the operation ends if it is complete. One of another operation aborts the sheaf. R293, R294, Table 11-9: aborts. An abort from the parent that is not older than the last reset aborts the sheaf with its
cause; an operation that has moved nothing for PHASE_TIMEOUT µs aborts with cause 3; so does, with cause 2, each live sheaf
that a port cuts off. A sheaf that aborts is ABORTED with its cause and nothing pending. -/
def Obligations.SheafOperations : Prop :=
  (∀ s p k c u i n x w v g, k.cls = 9 → shfKind k = 0 → s.takeLocal p k = (c, u) → i = k.sheafId → g = u.freeLocal c →
    x = g.sheaf i → (x.st = .idle ∧ g.stopped 9 (shDie i) = false) ∨ x.st = .running → n = shfChild k →
    n < x.kids.length → (x.kid n).eid = k.src → shfOp k = x.opNext.toNat → nbits k.spec 15 15 = 0 → k.xf 5 0 = 0 →
    v = (if x.st = .idle then g.setSheaf i { x with st := .running, tStart := g.ns, moved := g.ns } else g) →
    shfChunk k < (g.shCfgOf i).NC →
    (if (g.shCfgOf i).reducing then v.shReduce i n k else v.shForward i n k) = some w →
    exec (.sheafUpRx p k) s = .next (State.shComplete i (State.setSheaf i
      { (w.bump (Adr.SHEAF_UP_PKTS (shDie i)) 1).sheaf i with moved := w.ns } (w.bump (Adr.SHEAF_UP_PKTS (shDie i)) 1)))) ∧
  (∀ s p k c u i x w v g, k.cls = 9 → shfKind k = 1 → s.takeLocal p k = (c, u) → i = k.sheafId → g = u.freeLocal c →
    x = g.sheaf i → (x.st = .idle ∧ g.stopped 9 (shDie i) = false) ∨ x.st = .running →
    v = (if x.st = .idle then g.setSheaf i { x with st := .running, tStart := g.ns, moved := g.ns } else g) →
    (g.shCfgOf i).root = false → k.src = (g.shCfgOf i).f 959 944 →
    shfOp k = x.opNext.toNat → nbits k.spec 15 15 = 0 → k.xf 5 0 = 0 → shfChild k = 0 →
    shfChunk k < (g.shCfgOf i).NC → v.shDownRx i k = some w →
    exec (.sheafDownRx p k) s = .next (State.shComplete i (State.setSheaf i
      { (w.bump (Adr.SHEAF_DOWN_PKTS (shDie i)) 1).sheaf i with moved := w.ns }
      (w.bump (Adr.SHEAF_DOWN_PKTS (shDie i)) 1)))) ∧
  (∀ s p k c u i n g, k.cls = 9 → shfKind k = 0 → s.takeLocal p k = (c, u) → i = k.sheafId → g = u.freeLocal c →
    (g.sheaf i).st = .running → n = shfChild k → n < (g.sheaf i).kids.length → ((g.sheaf i).kid n).eid = k.src →
    shfOp k ≠ (g.sheaf i).opNext.toNat → exec (.sheafUpRx p k) s = .next (g.shFail i 5)) ∧
  (∀ s p k c u i g, k.cls = 1 → nbits k.spec 31 28 = 3 → mgmtBad k = false → s.takeLocal p k = (c, u) →
    g = u.freeLocal c → i = nbits k.spec 27 16 → (g.sheaf i).st = .running → (g.shCfgOf i).root = false →
    k.src = (g.shCfgOf i).f 959 944 → (g.sheaf i).resetOp.toNat ≤ k.num 24 8 →
    exec (.sheafAbortRx p k) s = .next (g.shAbort i (nbits (k.num 16 8) 63 60 % 8) (nbits (k.num 16 8) 59 44) .parent)) ∧
  (∀ s k, (s.sheaf k).st = .running → (s.sheaf k).moved + 1000 * (s.shCfgOf k).f 824 805 ≤ s.ns →
    exec (.sheafPhaseTimeout k) s = .next (s.shFail k 3)) ∧
  (∀ s p, s.shv.links.get p ≠ (s.port p).epoch → ∃ u : State,
    u.shv = { s.shv with links := s.shv.links.set p (s.port p).epoch } ∧
    exec (.sheafLinkLoss p) s = .next (u.shLive.foldl (fun s k => if s.shCut k p then s.shFail k 2 else s) u))

/-- R365 to R375: expert dispatch. ENABLE of a sound layer makes it active with no combine entry, DISABLE of an idle one
ends it; EXPERT_SYNC clears the charges of its experts and stamps them with the step. The oldest complete token of a die is
decided: its experts picked, its copies sent, its write answered. Answers to copies and results are taken; an entry whose
deadline has passed is combined without what is missing; a quarantine ends after CMB_TIMEOUT. -/
def Obligations.ExpertDispatch : Prop :=
  (∀ s src l, s.Inv → s.takes src Adr.EXD_CMD .wo = true → l < 256 → s.layerOn l = false → s.layerBad l = false →
    (s.activeSlot (s.layFjid l)).isSome = true →
    (∀ t, t < 8 → nbits (s.lay l 831 800) (4 * t + 3) (4 * t) ≠ 0 → s.tileOn t = true) →
    (∀ r ∈ s.layerRegions l, r.1 + r.2 ≤ barnSize) →
    (∀ k ∈ List.map Prod.fst s.exd.active, s.layerOn k = true → k ≠ l →
      (∀ a ∈ s.layerRegions l, ∀ b ∈ s.layerRegions k, meet a b = false) ∧
      ∀ a ∈ s.layerWindows l, ∀ b ∈ s.layerWindows k, meet a b = false) →
    (∀ b, b < 32 → (s.lay l 831 800).testBit b = true → s.tile.binders.get b + s.lay l 869 857 ≤ 4096) →
    Runs (.exdEnable src l) s fun t => t.exd = { s.exd with
        active := s.exd.active.set l true, bad := s.exd.bad.set l false
        ents := s.exd.ents.keep fun k _ => k / 32768 != l } ∧ t.rg Adr.EXD_CMD_STATUS = 0) ∧
  (∀ s src l, s.Inv → s.takes src Adr.EXD_CMD .wo = true → l < 256 → s.layerOn l = true →
    (∀ k, k < (s.geo l).dslots → s.dispatching l k = false) → s.exd.ents = [] →
    Runs (.exdDisable src l) s fun t => t.exd = { s.exd with
        active := s.exd.active.set l false, bad := s.exd.bad.set l false } ∧ t.rg Adr.EXD_CMD_STATUS = 0) ∧
  (∀ s src l, s.takes src Adr.EXD_CMD .wo = true → l < 256 → s.layerOn l = true →
    s.rf Adr.EXD_CMD_ARG 11 0 + s.rf Adr.EXD_CMD_ARG 27 16 ≤ s.lay l 1001 990 →
    exec (.expertSync src l) s = .next (State.exdDone 0 ((List.range (s.rf Adr.EXD_CMD_ARG 27 16 + 1)).foldl (fun u i =>
      State.setBarn (u.expertAt l (s.rf Adr.EXD_CMD_ARG 11 0 + i) + 144)
        (List.replicate 64 (0 : Byte) ++ leBytes 8 (s.ctrOf (s.lay l 935 922)).value.toNat
          ++ leBytes 8 (s.ctrOf (s.lay l 935 922)).value.toNat)
        (u.modExd fun x =>
          { x with cache := Tbl.set (Tbl.set x.cache (4096 * l + (s.rf Adr.EXD_CMD_ARG 11 0 + i)) none) (2 ^ 20 + 4096 * l + (s.rf Adr.EXD_CMD_ARG 11 0 + i)) none })) s))) ∧
  (∀ s d l k die j p g h e ps spills z, s.exd.held = false →
    (s.exd.ready.find? fun t => t.2.1 % 2 == d) = some (l, k, die, j, p) → s.layerOn l = true →
    g = State.gcount 0x12 1 d none none (some (s.layFjid l))
      (s.modExd fun u => { u with ready := u.ready.erase (l, k, die, j, p) }) →
    s.exd.bad.get l = false → h = g.barnNum (g.dspAt l k) 128 → g.tokBad l h = false →
    (g.entsOf l d).find? (fun e => (g.cmb l e).isNone) = some e →
    g.picks d l h p.src (g.ctrOf (g.lay l 935 922)).value.toNat (tokK h) 0 [] = (some (ps, spills), z) →
    z.lay l 984 983 ≠ 2 →
    exec (.tokenDecide d) s = .next (State.tokAnswer die j p 0 (State.dispatch d l k e h
      (g.ctrOf (g.lay l 935 922)).value.toNat p ps (State.bump Adr.EXD_SPILLS spills (State.bump Adr.EXD_OVERFLOW_DROP
        (ps.filter Option.isNone).length (z.bump Adr.EXD_TOKENS 1)))))) ∧
  (∀ s p k c u id, s.unitTag k = some (.exdCopy id) → s.takeLocal p k = (c, u) →
    exec (.exdWriteRsp p k) s = .next (((u.setTag k.reqTag none).copyRsp id k.rspStatus).freeLocal c)) ∧
  (∀ s p k c u l e uid, s.unitTag k = some (.exdRes l e uid) → s.takeLocal p k = (c, u) →
    exec (.exdWriteRsp p k) s = .next (((u.setTag k.reqTag none).resultRsp l e uid k.rspStatus).freeLocal c)) ∧
  (∀ s l e c, s.cmb l e = some c → c.st = .wait → c.stopped = false → c.at_ + 1000 * s.lay l 889 870 ≤ s.ns →
    ∃ (w : State) (f : Option Nat), exec (.cmbTimeout l e) s = .next ((w.raise Err.exd_CMB_TIMEOUT 0 [] f).raiseInt .exd 0 1) ∧
      ∃ m, w.exd = (s.setCmb l e (some { c with st := .combine, missing := m })).exd) ∧
  (∀ s l e c, s.cmb l e = some c → c.st = .combine → c.begun = false → c.stopped = false →
    exec (.cmbCombine l e) s = .next (s.combine l e c)) ∧
  (∀ s l e c, s.cmb l e = some c → c.st = .quar → c.at_ + 1000 * s.lay l 889 870 ≤ s.ns →
    exec (.cmbQuarEnd l e) s = .next (s.setCmb l e none))

/-- R242: windows of a hayloft. HL_ASSIGN of a slot that has none, over units no window uses, zeroes the units and makes
the window pending; HL_ASSIGN_DONE makes it valid; HL_RELEASE of a window whose slot holds no descriptor ends it. HL_STATUS
gets the RESULT and the interrupt HL_DONE is raised. R267, R243: CTRL.EN of a tile. Setting it zeroes every window and clears REJECT; clearing it is refused with REJECT 4
while the tile holds a descriptor. A host submission whose descriptor names this tile, or any, and an active job is queued
with RESULT 0, or refused as busy with RESULT 4; one of no active job gets RESULT 1, one for another tile RESULT 2. -/
def Obligations.HayloftsAndTiles : Prop :=
  (∀ s src t j base size, s.takes src (Adr.TILE_HL_CMD t) .wo = true → j = s.rf (Adr.TILE_HL_ARG t) 29 20 →
    base = s.rf (Adr.TILE_HL_ARG t) 19 10 → size = s.rf (Adr.TILE_HL_ARG t) 9 0 → s.tile.hlCmd.get t = none →
    (∀ w ∈ s.hlWins t, w.1 ≠ j ∧ (base + size ≤ w.2.1 ∨ w.2.1 + w.2.2 ≤ base)) → size ≠ 0 → base + size ≤ 768 →
    s.job j ≠ .free →
    exec (.hlAssign src t) s = .next (State.setRf (Adr.TILE_HL_STATUS t) 31 31 1 (State.modTile (fun u =>
      { u with hlCmd := u.hlCmd.set t (some (j, base, size)) }) (s.hlZero t base size)))) ∧
  (∀ s src t j base size, s.takes src (Adr.TILE_HL_CMD t) .wo = true → j = s.rf (Adr.TILE_HL_ARG t) 29 20 →
    base = s.rf (Adr.TILE_HL_ARG t) 19 10 → size = s.rf (Adr.TILE_HL_ARG t) 9 0 → s.tile.hlCmd.get t = none →
    (∀ w ∈ s.hlWins t, w.1 ≠ j) → (∃ w ∈ s.hlWins t, w.2.1 < base + size ∧ base < w.2.1 + w.2.2) →
    exec (.hlAssign src t) s = .next (s.hlDone t 3)) ∧
  (∀ s t j base size, s.tile.hlCmd.get t = some (j, base, size) →
    Runs (.hlAssignDone t) s fun u => u.tile = { s.tile with
      hlCmd := s.tile.hlCmd.set t none, wins := s.tile.wins.set (1024 * t + j) (some (base, size)) }) ∧
  (∀ s src t j w, s.takes src (Adr.TILE_HL_CMD t) .wo = true → j = s.rf (Adr.TILE_HL_ARG t) 29 20 →
    s.tile.hlCmd.get t = none → s.tile.wins.get (1024 * t + j) = some w → s.slotHolds t j = false →
    Runs (.hlRelease src t) s fun u => u.tile = { s.tile with wins := s.tile.wins.set (1024 * t + j) none }) ∧
  (∀ s src t j, s.takes src (Adr.TILE_HL_CMD t) .wo = true → j = s.rf (Adr.TILE_HL_ARG t) 29 20 →
    s.tile.hlCmd.get t = none → s.tile.wins.get (1024 * t + j) = none →
    exec (.hlRelease src t) s = .next (s.hlDone t 2)) ∧
  (∀ s src t, s.takes src (Adr.TILE_CTRL t) .rw = true → bit (s.rg (Adr.TILE_CTRL t)) 0 = false →
    exec (.tileEnable src t) s = .next (State.setRf (Adr.TILE_STATUS t) 3 0 0 (State.setRf (Adr.TILE_CTRL t) 0 0 1
      ((s.hlWins t).foldl (fun u w => u.hlZero t w.2.1 w.2.2) s)))) ∧
  (∀ s src t, s.takes src (Adr.TILE_CTRL t) .rw = true → bit (s.rg (Adr.TILE_CTRL t)) 0 = true →
    s.tileHolds t = true → exec (.tileDisable src t) s = .next (s.setRf (Adr.TILE_STATUS t) 3 0 4)) ∧
  (∀ s src t, s.takes src (Adr.TILE_CTRL t) .rw = true → s.tileHolds t = false →
    exec (.tileDisable src t) s = .next (State.setRf (Adr.TILE_STATUS t) 3 0 0 (s.setRf (Adr.TILE_CTRL t) 0 0 0))) ∧
  (∀ s src t v u d j w, s.takes src (Adr.TILE_HOST_SUBMIT_HI t) .rw = true →
    u = s.commitPair src (Adr.TILE_HOST_SUBMIT_LO t) v → d = u.descAt (u.rg64 (Adr.TILE_HOST_SUBMIT_LO t)) →
    u.activeSlot (dFjid d) = some j → dTile d = t ∨ dTile d = 15 → u.submit j d = (.queued, w) →
    exec (.hostSubmit src t v) s = .next ((w.setRg (Adr.TILE_HOST_SUBMIT_STATUS t) 0).raiseInt .tile t 1)) ∧
  (∀ s src t v u d j w, s.takes src (Adr.TILE_HOST_SUBMIT_HI t) .rw = true →
    u = s.commitPair src (Adr.TILE_HOST_SUBMIT_LO t) v → d = u.descAt (u.rg64 (Adr.TILE_HOST_SUBMIT_LO t)) →
    u.activeSlot (dFjid d) = some j → dTile d = t ∨ dTile d = 15 → u.submit j d = (.busy, w) →
    exec (.hostSubmit src t v) s = .next ((w.setRg (Adr.TILE_HOST_SUBMIT_STATUS t) 4).raiseInt .tile t 1)) ∧
  (∀ s src t v u d, s.takes src (Adr.TILE_HOST_SUBMIT_HI t) .rw = true →
    u = s.commitPair src (Adr.TILE_HOST_SUBMIT_LO t) v → d = u.descAt (u.rg64 (Adr.TILE_HOST_SUBMIT_LO t)) →
    (u.activeSlot (dFjid d) = none →
      exec (.hostSubmit src t v) s = .next ((u.setRg (Adr.TILE_HOST_SUBMIT_STATUS t) 1).raiseInt .tile t 1)) ∧
    (∀ j, u.activeSlot (dFjid d) = some j → dTile d ≠ t → dTile d ≠ 15 →
      exec (.hostSubmit src t v) s = .next ((u.setRg (Adr.TILE_HOST_SUBMIT_STATUS t) 2).raiseInt .tile t 1)))

/-- R247, R248, R251, R266: descriptors run. A tile that is enabled and not held starts the next head that can start. A run
goes on with the answer to an access it waits for; the run named ends when its operator has. A completion record that is
written increments the counter the descriptor names; one that is not counts CPL_FAIL and raises it. -/
def Obligations.DescriptorRuns : Prop :=
  (∀ s t e, t < 8 → s.tile.held.get t = false → s.tileOn t = true → s.nextHead t = some e →
    exec (.descStart t) s = .next (s.startDesc e)) ∧
  (∀ s p k c u id n i, s.unitTag k = some (.tile id n i) → s.takeLocal p k = (c, u) → k.rspStatus = 0 →
    exec (.tileFabricRsp p k) s = .next (State.freeLocal c (State.drive id (State.runResult (.tile id n i)
      (.data (mapMarked (k.bytes 32 k.rspSize) k.poisonMap)) (u.setTag k.reqTag none))))) ∧
  (∀ s p k c u id n i, s.unitTag k = some (.tile id n i) → s.takeLocal p k = (c, u) → k.rspStatus ≠ 0 →
    exec (.tileFabricRsp p k) s = .next (State.freeLocal c (State.drive id (State.runResult (.tile id n i)
      (.fail 2 k.rspStatus) (u.setTag k.reqTag none))))) ∧
  (∀ s id, exec (.descEnd id) s = .next (s.tryEnd id)) ∧
  (∀ s p k c u t j f n, s.unitTag k = some (.tileCpl t j f (some n)) → s.takeLocal p k = (c, u) → k.rspStatus = 0 →
    exec (.descCplRsp p k) s = .next (State.freeLocal c ((u.setTag k.reqTag none).ctrIncr n j))) ∧
  (∀ s p k c u t j f n, s.unitTag k = some (.tileCpl t j f n) → s.takeLocal p k = (c, u) → k.rspStatus ≠ 0 →
    exec (.descCplRsp p k) s = .next (State.freeLocal c (((u.setTag k.reqTag none).bump (Adr.TILE_CPL_FAIL t) 1).raise
      Err.tile_CPL_FAIL t [] (some f))))

/-- Table 13-2, R335: the pools. ENABLE of an OFF pool whose settings are sound builds its free lists and puts it in INIT;
unsound settings get REJECT 1, a FAILED pool REJECT 3. INIT ends in READY. DISABLE takes a READY pool with no sequence to
OFF and refuses one that has any with REJECT 7; RESET takes a FAILED pool and its sequences back. Table 13-7, R346, R348: sequences. CREATE of a FREE one in a READY pool takes a table block and makes it RESIDENT;
DESTROY of one that is RESIDENT or SWAPPED, PREEMPT of a RESIDENT one in a pool with swap, RESUME of a SWAPPED one put it
at work. In another state each is refused with RESULT 2. Work that has ended brings the sequence to its next state. -/
def Obligations.KvPoolsAndSequences : Prop :=
  (∀ s src p, s.takes src (Adr.KVPOOL_CTRL p) .wo = true → (s.pool p).st = .off → s.poolOk p = true →
    (∀ w ∈ s.poolStructs p, w.1 + w.2 ≤ barnSize) → someMeet (s.poolStructs p) = false →
    (∀ w ∈ s.poolStructs p, ∀ k, k < 16 → k ≠ p → (s.pool k).st ≠ .off → ∀ x ∈ s.poolStructs k, runsMeet w x = false) →
    exec (.kvPoolEnable src p) s = .next ((s.poolInit p).poolReject p 0)) ∧
  (∀ s src p, s.takes src (Adr.KVPOOL_CTRL p) .wo = true → (s.pool p).st = .off → s.poolOk p = false →
    exec (.kvPoolEnable src p) s = .next (s.poolReject p 1)) ∧
  (∀ s src p, s.takes src (Adr.KVPOOL_CTRL p) .wo = true → (s.pool p).st = .failed →
    exec (.kvPoolEnable src p) s = .next (s.poolReject p 3)) ∧
  (∀ s p, (s.pool p).st = .init → Runs (.kvPoolInitDone p) s fun t => t.kv = (s.setPool p { s.pool p with st := .ready }).kv) ∧
  (∀ s src p, s.takes src (Adr.KVPOOL_CTRL p) .wo = true → (s.pool p).st = .ready → s.poolSeqs p = [] →
    exec (.kvPoolDisable src p) s = .next ((s.setPool p {}).poolReject p 0)) ∧
  (∀ s src p, s.takes src (Adr.KVPOOL_CTRL p) .wo = true → (s.pool p).st = .ready → s.poolSeqs p ≠ [] →
    exec (.kvPoolDisable src p) s = .next (s.poolReject p 7)) ∧
  (∀ s src p, s.takes src (Adr.KVPOOL_CTRL p) .wo = true → (s.pool p).st = .failed →
    exec (.kvPoolReset src p) s = .next
      (State.poolReject p 0 (State.setPool p {} ((s.poolSeqs p).foldl (fun u q => u.setSeq q {}) s)))) ∧
  (∀ s src q p b u, s.takes src Adr.KVSEQ_CMD .wo = true → q < 262144 → p = s.rf Adr.KVSEQ_CMD_ARG 27 24 →
    (s.seq q).st = 0 → (s.pool p).st = .ready → s.rf Adr.KVSEQ_CMD_ARG 22 0 ≤ 4194304 → s.takeBlk p = (some b, u) →
    exec (.kvSeqCreate src q) s = .next (State.seqDone 0 (u.setSeq q
      { st := 1, pool := p, fjid := u.poolFjid p, base := s.rf Adr.KVSEQ_CMD_ARG 22 0, dir := b }))) ∧
  (∀ s src q, s.takes src Adr.KVSEQ_CMD .wo = true → q < 262144 → (s.seq q).st = 1 ∨ (s.seq q).st = 3 →
    exec (.kvSeqDestroy src q) s = .next (State.seqDone 0 ((s.setSeq q { s.seq q with st := 5 }).readersGone q))) ∧
  (∀ s src q, s.takes src Adr.KVSEQ_CMD .wo = true → q < 262144 → (s.seq q).st = 1 →
    s.rf (Adr.KVPOOL_SWAP_SLOTS (s.seq q).pool) 28 0 ≠ 0 →
    exec (.kvSeqPreempt src q) s = .next (State.seqDone 0 ((s.setSeq q { s.seq q with st := 2 }).readersGone q))) ∧
  (∀ s src q, s.takes src Adr.KVSEQ_CMD .wo = true → q < 262144 → (s.seq q).st = 3 →
    exec (.kvSeqResume src q) s = .next (State.seqDone 0 ((s.setSeq q { s.seq q with st := 4 }).kvWork .resume q))) ∧
  (∀ s src q, s.takes src Adr.KVSEQ_CMD .wo = true → q < 262144 →
    ((s.seq q).st ≠ 0 → exec (.kvSeqCreate src q) s = .next (s.seqDone 2)) ∧
    ((s.seq q).st ≠ 1 → (s.seq q).st ≠ 3 → exec (.kvSeqDestroy src q) s = .next (s.seqDone 2)) ∧
    ((s.seq q).st ≠ 1 → exec (.kvSeqPreempt src q) s = .next (s.seqDone 2)) ∧
    ((s.seq q).st ≠ 3 → exec (.kvSeqResume src q) s = .next (s.seqDone 2))) ∧
  (∀ s q id r x u st m, (s.tile.runs.find? fun e => match e.2 with
      | some r => r.kind != .desc && r.desc == q | none => false) = some (id, some r) →
    u = (s.kvPass id).drive id → u.run id = some x → x.fin = some (st, m) →
    exec (.kvSeqWorkDone q) s = .next (u.workEnd id q x st m)) ∧
  (∀ s p x cons q, p < 16 → x = s.pool p → x.st = .ready → x.autoOn = true → x.auto = none →
    cons = s.rf (Adr.KVPOOL_VICTIM_CONS p) 11 0 → x.free < s.rf (Adr.KVPOOL_HIGH p) 28 0 →
    cons ≠ s.rf (Adr.KVPOOL_VICTIM_PROD p) 11 0 →
    q = s.barnNum (s.rg64 (Adr.KVPOOL_VICTIM_BASE_LO p) + 4 * cons) 4 % 262144 → (s.seq q).st = 1 → (s.seq q).pool = p →
    s.rf (Adr.KVPOOL_SWAP_SLOTS p) 28 0 ≠ 0 →
    exec (.kvAutoPreempt p) s = .next (State.preempt q (State.setPool p { x with auto := some q }
      (s.setRf (Adr.KVPOOL_VICTIM_CONS p) 11 0 ((cons + 1) % 4096)))))

/-- R338 to R344, R358: the page manager. A running KV_APPEND descriptor is passed to it by its ACTION. An epoch flips when
a pool has pages deferred in it; once no decode of the old epoch runs, the pages deferred in it are FREE. A walk that finds
each sum equal changes nothing; one that does not fails the pool. -/
def Obligations.KvPageManager : Prop :=
  (∀ s id r, s.run id = some r → r.kind = .desc → dOpcode r.desc = 0x51 →
    ∀ x ∈ [(Instr.kvAppend id, 0), (.kvFork id, 1), (.kvClear id, 2)], dpar r.desc 255 254 = x.2 →
      exec x.1 s = .next (s.kvPass id)) ∧
  (∀ s p, s.kv.flip = false → p < 16 → ((s.pool p).defHead s.kv.epoch).isSome = true →
    exec .kvEpochFlip s = .next (s.modKv fun k => { k with epoch := !k.epoch, flip := true })) ∧
  (∀ s, s.kv.flip = true → (∀ t, t < 8 → s.kv.counts.get (2 * t + b2n (!s.kv.epoch)) = 0) →
    exec .kvEpochEnd s = .next (((List.range 16).foldl (fun u p => u.reclaim (!s.kv.epoch) p) s).modKv
      fun k => { k with flip := false })) ∧
  (∀ s, s.decodePair.1 = s.decodePair.2 → (∀ p, p < 16 → (s.pool p).st = .ready → ∀ w ∈ s.poolWalk p, w.1 = w.2) →
    exec .kvWalkEnd s = .next s) ∧
  (∀ s p w, p < 16 → (∀ k, k < p → (s.pool k).st ≠ .ready) → (∀ k, p < k → (s.pool k).st ≠ .ready) →
    (s.pool p).st = .ready → (s.poolWalk p).find? (fun w => w.1 != w.2) = some w →
    exec .kvWalkEnd s = .next ((s.poolFail p).tallyMismatch 0 w.1 w.2 Err.kvpool_KV_TALLY p []))

/-- R386, R390, Table 15-4: the mode. A mode command that meets every condition starts a fuse programming; one that does
not ends with its REJECT code. The programming done, MODE_CHANGES has advanced by one, keys are gone, the barn's contents
are undefined and the mode is SEALING or UNSEALING; at SCRUB_DONE the haylofts and the barn that is on are zero and the mode
is reached. A programming that fails raises FUSE_FAULT and the operation does not take place. -/
def Obligations.ModeChange : Prop :=
  (∀ s src, s.takes src Adr.SEC_CMD .wo = true → s.sec.busy = false → s.sec.mode = .shared → s.quiet = true →
    s.pwr.pstate ≠ .saving → s.imageNo = 1 → s.sec.sealedOk = true → s.rf Adr.FUSE_MODE_CHANGES 7 0 ≠ 255 →
    s.domOn 31 = true → s.sec.dbg ≠ 2 → Runs (.modeSealed src) s fun t => t = s.startFuse (.mode true) ∧
      t.sec = { s.sec with busy := true, fuse := some (.mode true) }) ∧
  (∀ s src, s.takes src Adr.SEC_CMD .wo = true → s.sec.busy = false →
    (s.sec.mode ≠ .shared → exec (.modeSealed src) s = .next (s.secDone 2)) ∧
    (s.sec.mode = .shared → s.quiet = false ∨ s.pwr.pstate = .saving → exec (.modeSealed src) s = .next (s.secDone 1)) ∧
    (s.sec.mode = .shared → s.quiet = true → s.pwr.pstate ≠ .saving → s.imageNo ≠ 1 ∨ s.sec.sealedOk = false →
      exec (.modeSealed src) s = .next (s.secDone 3)) ∧
    (s.sec.mode ≠ .sealed → exec (.modeShared src) s = .next (s.secDone 2)) ∧
    (s.sec.mode = .sealed → s.quiet = false ∨ s.pwr.pstate = .saving → exec (.modeShared src) s = .next (s.secDone 1))) ∧
  (∀ s src, s.takes src Adr.SEC_CMD .wo = true → s.sec.busy = false → s.sec.mode = .sealed → s.quiet = true →
    s.pwr.pstate ≠ .saving → s.rf Adr.FUSE_MODE_CHANGES 7 0 ≠ 255 →
    exec (.modeShared src) s = .next (s.startFuse (.mode false))) ∧
  (∀ s b, s.Inv → s.sec.fuse = some (.mode b) → Runs (.fuseProgramDone true) s fun t =>
    t.sec = { s.sec with fuse := none, mode := if b then .sealing else .unsealing, keys := [], binds := [], busy := false } ∧
    t.mem = { bg := some s.free } ∧ t.rf Adr.FUSE_MODE_CHANGES 7 0 = (s.rf Adr.FUSE_MODE_CHANGES 7 0 + 1) % 256 ∧
    t.rf Adr.SEC_STATUS 3 0 = 0) ∧
  (∀ s f, s.sec.fuse = some f → exec (.fuseProgramDone false) s =
    .next ((s.modSec fun u => { u with fuse := none }).raiseFatal Err.sec_FUSE_FAULT 0 [])) ∧
  (∀ s, s.sec.mode = .sealing ∨ s.sec.mode = .unsealing → s.barnOn = true → Runs .scrubDone s fun t =>
    t.mem = {} ∧ t.sec = { s.sec with mode := if s.sec.mode = .sealing then .sealed else .shared } ∧
    ∀ i, i < 2 ^ 29 → t.tile.hl.get i = 0)

/-- R386, R404, R405: debug. A good token of level 1, or of 2 outside SEALED, sets the level and draws a new nonce; a bad
one is counted and raises TOKEN_BAD with REJECT 7. While CRYPTO is off the command waits. DBG_END returns to level 0,
DBG_EPOCH_ADVANCE starts a fuse programming, and so does PROVISION.BURN of a fresh part, which ends in FUSE_STATUS 1. Table 15-8: a JTAG instruction that the level permits, outside SAVING, is selected, and BYPASS in place of another one.
JTAG_DBG_TOKEN fills the token buffer. -/
def Obligations.DebugAccess : Prop :=
  (∀ s src, s.takes src Adr.SEC_CMD .wo = true → s.sec.busy = false → s.sec.mode = .shared ∨ s.sec.mode = .sealed →
    s.pwr.pstate ≠ .saving → s.domOn 31 = true → exec (.dbgApply src) s = .next (
      if s.tokenGood s.token = true ∧ (tokLevel s.token = 1 ∨ tokLevel s.token = 2) then
        (if tokLevel s.token = 2 ∧ s.sec.mode = .sealed then s.tokenRefused 6
          else ((s.setLevel (tokLevel s.token)).newNonce).secDone 0)
      else s.tokenRefused 7)) ∧
  (∀ (s : State) l, (((s.setLevel l).newNonce).secDone 0).sec.dbg = l) ∧
  (∀ s src, s.takes src Adr.SEC_CMD .wo = true → s.sec.busy = false → s.sec.mode = .shared ∨ s.sec.mode = .sealed →
    s.pwr.pstate ≠ .saving → s.domOn 31 = false →
    exec (.dbgApply src) s = .next (s.modSec fun u => { u with busy := true, waitOp := some 3 })) ∧
  (∀ s src, s.takes src Adr.SEC_CMD .wo = true → s.sec.busy = false → s.pwr.pstate ≠ .saving →
    Runs (.dbgEnd src) s fun t => t = (s.setLevel 0).secDone 0 ∧ t.sec.dbg = 0) ∧
  (∀ s src, s.takes src Adr.SEC_CMD .wo = true → s.sec.busy = false → s.pwr.pstate ≠ .saving → s.domOn 31 = true →
    exec (.dbgEpochAdvance src) s = .next (
      if s.tokenGood s.token = true ∧ nbits (tokAt s.token 4 1) 7 7 = 1 then
        (if s.rf Adr.FUSE_DBG_EPOCH 4 0 = 31 then s.fuseSpent else s.startFuse .epoch)
      else s.tokenRefused 7)) ∧
  (∀ s src v, s.takes src Adr.FUSE_PROVISION .wo = true → bit v 0 = true → bit (s.rg Adr.FUSE_FUSE_STATUS) 0 = false →
    s.sec.mode = .shared → s.sec.dbg = 0 → s.sec.fuse = none →
    exec (.provisionBurn src v) s = .next (s.modSec fun u => { u with fuse := some .provision })) ∧
  (∀ s, s.Inv → s.sec.fuse = some .provision → Runs (.fuseProgramDone true) s fun t =>
    t.sec = { s.sec with fuse := none } ∧ t.rg Adr.FUSE_FUSE_STATUS = 1) ∧
  (∀ s, ∀ r ∈ [(Instr.jtagBypass, Jtag.bypass), (.jtagExtest, .extest), (.jtagExtestPulse, .extestPulse),
      (.jtagExtestTrain, .extestTrain)],
    exec r.1 s = .next (s.modSec fun u => { u with
      jtag := if jtagOk s.sec.dbg r.2 && s.pwr.pstate != .saving then r.2 else .bypass })) ∧
  (∀ s, ∀ r ∈ [(Instr.jtagIdcode, Jtag.idcode), (.jtagSamplePreload, .samplePreload), (.jtagInternalScan, .internalScan)],
    exec r.1 s = .next (if jtagOk s.sec.dbg r.2 && s.pwr.pstate != .saving
      then State.takeFree (State.emit (.jtagOut s.freeVal) (s.modSec fun u => { u with jtag := r.2 }))
      else s.modSec fun u => { u with jtag := .bypass })) ∧
  (∀ s k, s.pwr.pstate ≠ .saving → s.live = true → exec (.jtagDbgToken k) s = .next ((List.range 64).foldl
    (fun u i => u.setRg (Adr.SEC_DBG_TOKEN i) (w32 (tokAt k (4 * i) 4))) (s.modSec fun u => { u with jtag := .dbgToken })))

/-- R391 to R393: the SPDM responder. Each request that the state of the negotiation and of the session admits is answered
by its response and changes what the rule says, and nothing else; a fifth session is refused. -/
def Obligations.SpdmResponder : Prop :=
  (∀ s, s.live = true → s.pwr.pstate ≠ .saving → s.domOn 31 = true →
    exec .getVersion s = .next (State.emit (.spdm .version) (s.modSec fun u => { u with negotiated := 1 })) ∧
    (1 ≤ s.sec.negotiated → exec .getCapabilities s =
      .next (State.emit (.spdm .capabilities) (s.modSec fun u => { u with negotiated := max 2 u.negotiated }))) ∧
    (2 ≤ s.sec.negotiated → exec .negotiateAlgorithms s =
      .next (State.emit (.spdm .algorithms) (s.modSec fun u => { u with negotiated := 3 }))) ∧
    (3 ≤ s.sec.negotiated →
      ∀ r ∈ [(Instr.getDigests, SpdmRsp.digests), (.getCertificate, .certificate), (.challenge, .challengeAuth)],
      exec r.1 s = .next (s.emit (.spdm r.2))) ∧
    (3 ≤ s.sec.negotiated → ∀ i, i < 4 → s.sec.sessions.get i = none → (∀ j, j < i → s.sec.sessions.get j ≠ none) →
      exec .keyExchange s = .next (State.emit (.spdm (.keyExchange i)) (s.setSession i (some {})))) ∧
    (3 ≤ s.sec.negotiated → (∀ j, j < 4 → s.sec.sessions.get j ≠ none) →
      exec .keyExchange s = .next (s.emit (.spdm (.error 0x0A)))) ∧
    (∀ i r x, s.sec.sessions.get i = some x → x.up = false → exec (.finish i r) s = .next (State.emit (.spdm (.finish i))
      (s.setSession i (some { x with up := true, owner := s.imageNo == 1 && r == some s.sec.ksRoot })))) ∧
    (∀ i x, s.sec.sessions.get i = some x → x.up = true →
      exec (.keyUpdate i) s = .next (State.emit (.spdm (.keyUpdateAck i))
        (s.setSession i (some { x with keyGen := x.keyGen + 1 }))) ∧
      exec (.heartbeat i) s = .next (s.emit (.spdm (.heartbeatAck i))) ∧
      exec (.endSession i) s = .next (State.emit (.spdm (.endSessionAck i)) (s.setSession i none)))) ∧
  (∀ s, s.live = true → s.pwr.pstate ≠ .saving → s.domOn 31 = false →
    ∀ c ∈ [Instr.getVersion, .getDigests, .challenge, .keyExchange], exec c s = .next (s.emit (.spdm (.error 3))))

/-- R394, R395, Table 15-7: keys. In SEALED, in an established session: KEY_LOAD of two different keys into a free group,
KEY_BIND and KEY_UNBIND with proof, KEY_CLEAR with proof do what Table 15-7 says and answer RESULT 0; outside SEALED each is
answered RESULT 2. LINK_KEY is for a session of the OWNER. -/
def Obligations.KeyMessages : Prop :=
  (∀ s i x g k, s.live = true → s.pwr.pstate ≠ .saving → s.domOn 31 = true → s.sec.sessions.get i = some x → x.up = true →
    s.sec.mode = .sealed → g < 256 → k < 2 ^ 512 → s.sec.keys.get g = none → k % 2 ^ 256 ≠ k / 2 ^ 256 →
    exec (.keyLoad i g k) s = .next (State.emit (.spdm (.key i 1 0 (keyCheck k)))
      (s.modSec fun u => { u with keys := u.keys.set g (some k) }))) ∧
  (∀ s i x g f d w k, s.live = true → s.pwr.pstate ≠ .saving → s.domOn 31 = true → s.sec.sessions.get i = some x →
    x.up = true → s.sec.mode = .sealed → g < 256 → f < 2 ^ 20 → d < 2 ^ 384 → s.sec.keys.get g = some k →
    (Config.hmac384 k (leBytes 1 2 ++ leBytes 1 g ++ leBytes 3 f ++ leBytes 48 d)).toNat = w → s.sec.binds.get f = none →
    s.sec.binds.length < 1024 → exec (.keyBind i g f d w) s = .next (State.emit (.spdm (.key i 2 0 0))
      (s.modSec fun u => { u with binds := u.binds.set f (some (g, d)) }))) ∧
  (∀ s i x g f d w k, s.live = true → s.pwr.pstate ≠ .saving → s.domOn 31 = true → s.sec.sessions.get i = some x →
    x.up = true → s.sec.mode = .sealed → g < 256 → f < 2 ^ 24 → s.sec.keys.get g = some k →
    (Config.hmac384 k (leBytes 1 3 ++ leBytes 1 g ++ leBytes 3 f)).toNat = w → s.sec.binds.get f = some (g, d) →
    exec (.keyUnbind i g f w) s = .next (if (s.slotOf f).isSome then s.emit (.spdm (.key i 3 7 0))
      else State.emit (.spdm (.key i 3 0 0)) (s.modSec fun u => { u with binds := u.binds.set f none }))) ∧
  (∀ s i x g w k, s.live = true → s.pwr.pstate ≠ .saving → s.domOn 31 = true → s.sec.sessions.get i = some x →
    x.up = true → s.sec.mode = .sealed → g < 256 → s.sec.keys.get g = some k →
    (Config.hmac384 k (leBytes 1 4 ++ leBytes 1 g)).toNat = w →
    exec (.keyClear i g w) s = .next (State.emit (.spdm (.key i 4 0 0)) (State.keyCleared
      ((s.sec.binds.filter fun e => (e.2.map (·.1)) == some g).map (·.1)) (s.modSec fun u => { u with
        keys := u.keys.set g none, binds := u.binds.keep fun _ b => (b.map (·.1)) != some g })))) ∧
  (∀ s i x g f d w k, s.live = true → s.pwr.pstate ≠ .saving → s.domOn 31 = true → s.sec.sessions.get i = some x →
    x.up = true → s.sec.mode ≠ .sealed →
    ∀ r ∈ [(Instr.keyLoad i g k, 1), (.keyBind i g f d w, 2), (.keyUnbind i g f w, 3), (.keyClear i g w, 4)],
      exec r.1 s = .next (s.emit (.spdm (.key i r.2 2 0)))) ∧
  (∀ s i x p tx rx, s.live = true → s.pwr.pstate ≠ .saving → s.domOn 31 = true → s.sec.sessions.get i = some x →
    x.up = true → x.owner = true → s.portExists p = true → exec (.linkKey i p tx rx) s =
      .next (State.emit (.spdm (.key i 0x10 0 0)) (s.modPort p fun q => { q with linkKey := some (tx, rx) }))) ∧
  (∀ s i x p tx rx, s.live = true → s.pwr.pstate ≠ .saving → s.domOn 31 = true → s.sec.sessions.get i = some x →
    x.up = true → x.owner = false → exec (.linkKey i p tx rx) s = .next (s.emit (.spdm (.key i 0x10 6 0))))

/-- R403: IDE_KM and TDISP. KEY_PROG stores a key of a stream that exists, K_SET_GO puts a set that holds one to use, K_SET_STOP
takes it out. LOCK_INTERFACE, START_INTERFACE with its nonce, and STOP_INTERFACE move an enabled VF; each answer is
recorded. -/
def Obligations.DeviceSecurity : Prop :=
  (∀ s i x, s.live = true → s.pwr.pstate ≠ .saving → s.domOn 31 = true → s.sec.sessions.get i = some x → x.up = true →
    exec (.ideKmQuery i) s = .next (s.emit (.spdm (.ideQuery 9))) ∧
    (∀ n e d b k, n < 9 → e < 2 → d < 2 → b < 3 → exec (.ideKmKeyProg i n e d b k) s =
      .next (State.emit (.spdm (.ideKpAck 0)) (s.modSec fun u => { u with ide := u.ide.modify n fun y =>
        { y with keys := y.keys.set (12 * e + 6 * d + b) (some k) } }))) ∧
    (∀ n e d b, n < 9 → e < 2 → d < 2 → b < 3 →
      ((s.sec.ide.get n).keys.get (12 * e + 6 * d + b)).isSome = true → exec (.ideKmKSetGo i n e d b) s =
      .next (State.emit (.spdm .ideGoStopAck) (s.modSec fun u => { u with ide := u.ide.modify n fun y =>
        { y with use_ := y.use_.set (6 * d + b) (e + 1) } }))) ∧
    (∀ n e d b, n < 9 → e < 2 → d < 2 → b < 3 → exec (.ideKmKSetStop i n e d b) s =
      .next (State.emit (.spdm .ideGoStopAck) (s.modSec fun u => { u with
        ide := u.ide.modify n fun y => y.stop e (6 * d + b) })))) ∧
  (∀ s i x v, s.live = true → s.pwr.pstate ≠ .saving → s.domOn 31 = true → s.sec.sessions.get i = some x → x.up = true →
    s.vfOn v = true →
    ((s.fn v).tdisp = .unlocked → exec (.lockInterface i v) s = .next (State.takeFree
      (State.emit (.spdm (.tdisp 1 v [s.freeVal])) (s.modFn v fun y => { y with tdisp := .locked, nonce := s.freeVal })))) ∧
    ((s.fn v).tdisp = .locked → exec (.startInterface i v (s.fn v).nonce) s = .next (State.emit (.spdm (.tdisp 5 v []))
      (s.modFn v fun y => { y with tdisp := .run, nonce := 0 }))) ∧
    exec (.stopInterface i v) s = .next (State.emit (.spdm (.tdisp 6 v []))
      (s.modFn v fun y => { y with tdisp := .unlocked, nonce := 0 })) ∧
    exec (.getDeviceInterfaceState i v) s = .next (s.emit (.spdm (.tdisp 4 v [tdispNo (s.fn v).tdisp]))) ∧
    ((s.fn v).tdisp = .locked ∨ (s.fn v).tdisp = .run → ∀ j, s.vfSlot v = some j →
      exec (.getDeviceInterfaceReport i v) s = .next (s.emit (.spdm (.tdisp 3 v
        [0, 0x1000, 0x1000, 0x1000, 0x2000, 128, 0x3000, 8, j, s.rf (Adr.JOB_FJID j) 19 0])))) ∧
    (∀ n, (s.fn v).tdisp ≠ .locked ∨ (s.fn v).nonce ≠ n →
      exec (.startInterface i v n) s = .next (s.emit (.spdm (.tdispError v)))))

/-- R419, R420, Table 16-5: host requests. An MREQ for a host EID that passes the checks of its job, whose function may issue
and which the security rules let through, is recorded with the cells it holds and worked on; one of a function that is not
an enabled VF bound to the job's slot is a violation with PERM, one whose function may not issue completes TARGET_DEAD. R421, R423: completions. One for a tag not held counts UNEXP_CPL and is an advisory error; one for a quarantined tag
frees the tag and counts as late, or as unexpected after a reset of the function; a successful one that brings all the
bytes asked frees the tag; another one raises HOST_UR, is a violation, and fails the request. A tag whose completion timeout
has passed is freed and counted. -/
def Obligations.HostTraffic : Prop :=
  (∀ s p k f c u j v, s.hostFn (ingressDie p) k = some f → k.cls = 8 → s.takeLocal p k = (some c, u) →
    u.checkHead (ingressDie p) (mreqBad k) k = (.ok j, v) →
    (f = 0 ∨ v.vfOn f = true ∧ v.vfSlot f = some j → v.mayIssue f = true → v.sec.mode ≠ .sealed →
      k.op ≠ 3 ∨ pcieAtomicOk k = true ∧ v.host.atomicEn = true → exec (.hostRequest p k) s =
        .next (State.hostRun (State.setHreq v.nextId (some
          { die := ingressDie p, slot := j, fn := f, t := false, pkt := k, cells := some c
            todo := if k.op = 0 then hostCuts k.fva v.host.mrrs 128 0 k.size else if k.op = 3 then [(0, k.size)] else [] })
          (v.takeNames 1)))) ∧
    (f ≠ 0 → v.vfOn f = false ∨ v.vfSlot f ≠ some j → exec (.hostRequest p k) s =
      .next (State.freeLocal (some c) ((v.violation (ingressDie p) j 2 k none).respond (ingressDie p) k 2))) ∧
    (f = 0 ∨ v.vfOn f = true ∧ v.vfSlot f = some j → v.mayIssue f = false → exec (.hostRequest p k) s =
      .next (State.freeLocal (some c) (v.respond (ingressDie p) k 7)))) ∧
  (∀ s p k, s.hostFn (ingressDie p) k = none → exec (.hostRequest p k) s = .next s.hostRun) ∧
  (∀ s n st d b, s.host.tags.get n = none →
    exec (.hostCompletion n st d b) s = .next (State.emit (.aer 0) (s.bump Adr.HOSTP_UNEXP_CPL 1))) ∧
  (∀ s n st d b g, s.host.tags.get n = some g → g.quar = true → exec (.hostCompletion n st d b) s = .next (State.hostRun
    (if g.reset then State.emit (.aer g.fn) ((s.setHtag n none).bump Adr.HOSTP_UNEXP_CPL 1)
      else (s.setHtag n none).bump Adr.HOSTP_LATE_CPL 1))) ∧
  (∀ s n d b g r, s.host.tags.get n = some g → g.quar = false → s.hreq g.req = some r → g.len ≤ d.length →
    exec (.hostCompletion n .success d b) s = .next (State.hostRun (State.hostSettle g.req (State.setHtag n none
      (s.setHreq g.req (some { r with
        data := r.data.set g.off (some (d.take g.len))
        pmap := if b then r.pmap ||| chunkBits g.off g.len else r.pmap, open_ := r.open_ - 1 })))))) ∧
  (∀ s n d b g r, s.host.tags.get n = some g → g.quar = false → s.hreq g.req = some r → d.length < g.len →
    exec (.hostCompletion n .success d b) s = .next (State.hostRun (State.setHtag n
      (some { g with off := g.off + d.length, len := g.len - d.length }) (s.setHreq g.req (some { r with
        data := r.data.set g.off (some d), pmap := if b then r.pmap ||| chunkBits g.off d.length else r.pmap }))))) ∧
  (∀ s n st d b g r, st ≠ .success → s.host.tags.get n = some g → g.quar = false → s.hreq g.req = some r →
    exec (.hostCompletion n st d b) s = .next (State.hostRun (State.hostSettle g.req (State.freeLocal
      (if r.todo = [] then none else r.cells) (State.setHreq g.req (some { r.fail 2 with cells := none })
        (State.violation r.die r.slot 2 r.pkt none (State.raise Err.hostp_HOST_UR 0 [] (some r.pkt.fjid)
          ((s.setHtag n none).bump Adr.HOSTP_HOST_UR 1)))))))) ∧
  (∀ s n g, s.host.tags.get n = some g → g.at_ + 1000000 * s.host.cplMs ≤ s.ns →
    (g.quar = true → exec (.hostCplTimeout n) s =
      .next (State.hostRun ((s.setHtag n none).bump Adr.HOSTP_CPL_TIMEOUTS 1))) ∧
    (∀ r, g.quar = false → s.hreq g.req = some r → exec (.hostCplTimeout n) s = .next (State.hostRun
      (State.hostSettle g.req (State.freeLocal (if r.todo = [] then none else r.cells)
        (State.setHreq g.req (some { r.fail 7 with cells := none }) (State.raise Err.hostp_CPL_TIMEOUT 0 [] none
          ((s.setHtag n none).bump Adr.HOSTP_CPL_TIMEOUTS 1)))))))) ∧
  (∀ s n g, s.host.tags.get n = some g → s.ns < g.at_ + 1000000 * s.host.cplMs → exec (.hostCplTimeout n) s = .next s)

/-- R411, R418, R423, R425: the functions of the host port. A configuration write of the PF sets its field; setting Bus
Master Enable or MSI-X Enable sends the messages that wait; clearing Bus Master Enable closes the queue of the function. A
function-level reset clears the function's registers and marks its tags; one of the PF resets every VF. The link up starts
no reset; a reset of the port takes the link down. R414, R415, Table 16-4: the page of a VF. SUBMIT of an enabled VF whose slot is active and whose FJID is the
descriptor's queues it and sets RESULT 0, or 4 if it is busy; one unbound gets 1, another job's descriptor 2; each signals
vector 1. CTR_ADD_HI adds the pair to a counter that the slot owns, and sets CTR_RESULT 6 for another. -/
def Obligations.HostPort : Prop :=
  (∀ s n, s.pageOn .hostp 0 = true → (s.fn 0).tdisp = .unlocked →
    (n = 128 ∨ n = 256 ∨ n = 512 →
      exec (.configWrite 0 (.maxPayload n)) s = .next (State.hostRun (s.modHost fun h => { h with mps := n }))) ∧
    (n = 128 ∨ n = 256 ∨ n = 512 ∨ n = 1024 ∨ n = 2048 ∨ n = 4096 →
      exec (.configWrite 0 (.maxRead n)) s = .next (State.hostRun (s.modHost fun h => { h with mrrs := n }))) ∧
    (n < 3 → exec (.configWrite 0 (.tagSize n)) s = .next (State.hostRun (s.modHost fun h => { h with tagSize := n }))) ∧
    (n ≤ 1024 → s.host.vfEnable = false →
      exec (.configWrite 0 (.numVfs n)) s = .next (State.hostRun (s.modHost fun h => { h with numVfs := n }))) ∧
    (∀ b, exec (.configWrite 0 (.atomicEnable b)) s = .next (State.hostRun (s.modHost fun h => { h with atomicEn := b }))) ∧
    exec (.configWrite 0 (.vfEnable true)) s = .next (State.hostRun (s.modHost fun h => { h with vfEnable := true }))) ∧
  (∀ s f w, s.pageOn .hostp 0 = true → f = 0 ∨ s.vfOn f = true → ((s.writeCfg f w).fn f).tdisp = .run →
    exec (.configWrite f w) s = .next (State.hostRun ((s.writeCfg f w).modFn f fun x => { x with tdisp := .error }))) ∧
  (∀ s f, s.pageOn .hostp 0 = true → f ≤ 1024 → ((s.hostOff f).fn f).tdisp = .unlocked →
    exec (.bmeClear f) s = .next (s.hostOff f).hostRun) ∧
  (∀ (s : State) f, s.hreqs (fun r => r.fn == f) = [] → s.hostOff f = s.modFn f fun x => { x with bme := false }) ∧
  (∀ s f, s.pageOn .hostp 0 = true → s.vfOn f = true → exec (.vfFlr f) s = .next (s.fnReset f).hostRun ∧
    ∀ a, adr .vf f 0 ≤ a → a < adr .vf f 0x1000 → (s.fnReset f).hub.regs.get a = none) ∧
  (∀ s, s.pageOn .hostp 0 = true → exec .pfFlr s = .next s.pfReset.hostRun ∧ s.pfReset.host.numVfs = 0) ∧
  (∀ s, s.pageOn .hostp 0 = true → Runs .hostPortReset s fun t => t.host.linkUp = false ∧ t.host.mps = 128 ∧
    t.host.mrrs = 512 ∧ t.host.tagSize = 0 ∧ t.host.cplMs = 50 ∧ t.host.atomicEn = false ∧ t.host.numVfs = 0 ∧ t.chain.hostDown.isSome = true) ∧
  (∀ s, s.pageOn .hostp 0 = true → exec .hostLinkUp s = .next { s with
    host := { s.host with linkUp := true }, chain := { s.chain with hostDown := none } }) ∧
  (∀ s f t v d, s.pageOn .vf f = true → s.vfOn f = true → (s.fn f).tdisp ≠ .run ∨ t = true → bit v 31 = true →
    d = leNat ((List.range 32).flatMap fun i => leBytes 4 (s.rg (Adr.VF_DESC f i)).toNat) →
    (s.vfSlot f = none → exec (.vfSubmit f t v) s = .next ((s.setRf (Adr.VF_SUBMIT_STATUS f) 3 0 1).msix f 1)) ∧
    (∀ j, s.vfSlot f = some j → s.job j = .active → dFjid d = s.rf (Adr.JOB_FJID j) 19 0 →
      ∀ w, (s.submit j d = (.queued, w) →
        exec (.vfSubmit f t v) s = .next ((w.setRf (Adr.VF_SUBMIT_STATUS f) 3 0 0).msix f 1)) ∧
      (s.submit j d = (.busy, w) →
        exec (.vfSubmit f t v) s = .next ((w.setRf (Adr.VF_SUBMIT_STATUS f) 3 0 4).msix f 1))) ∧
    (∀ j, s.vfSlot f = some j → s.job j = .active → dFjid d ≠ s.rf (Adr.JOB_FJID j) 19 0 →
      exec (.vfSubmit f t v) s = .next ((s.setRf (Adr.VF_SUBMIT_STATUS f) 3 0 2).msix f 1))) ∧
  (∀ s f t v j c, s.pageOn .vf f = true → s.vfOn f = true → (s.fn f).tdisp ≠ .run ∨ t = true →
    c = s.rf (Adr.VF_CTR_SEL f) 13 0 → s.vfSlot f = some j →
    ((s.ctrOf c).owned = true → (s.ctrOf c).owner = j → s.ctrOn c = true → exec (.vfCtrAdd f t v) s =
      .next ((s.ctrUpdate c (some j) fun n => n + (v ++ s.rg (Adr.VF_CTR_ADD_LO f))).setRg (Adr.VF_CTR_RESULT f) 0)) ∧
    ((s.ctrOf c).owned = false ∨ (s.ctrOf c).owner ≠ j ∨ s.ctrOn c = false →
      exec (.vfCtrAdd f t v) s = .next (s.setRg (Adr.VF_CTR_RESULT f) 6))) ∧
  (∀ s f v, s.pageOn .vf f = true → s.vfOn f = true → (s.fn f).tdisp = .run →
    exec (.vfSubmit f false v) s = .next (s.emit .mmioUr) ∧ exec (.vfCtrAdd f false v) s = .next (s.emit .mmioUr))

/-- R436, R437, Table 17-1: domains. DOMAIN_OFF of a domain that is on and idle, in RUN or REDUCED, resets what it holds,
marks it off and leaves REDUCED; DOMAIN_ON of one that is off starts; at its end the domain's blocks are at their reset
values and it is on. Domains 0 and 30 are refused with RESULT 3, one that is not idle with RESULT 1. -/
def Obligations.PowerDomains : Prop :=
  (∀ s src d, s.takes src Adr.PWR_CMD .wo = true → s.pwr.turning = none → s.pwr.warm = false → s.running = true →
    d < 32 → d ≠ 0 → d ≠ 30 → s.domOn d = true → s.offOk d = true → exec (.domainOff src d) s =
      .next (State.pwrDone 0 (State.pstateOf ((s.domainLost d).modPwr fun p => { p with off := p.off.set d true })))) ∧
  (∀ s src d, s.takes src Adr.PWR_CMD .wo = true → s.pwr.turning = none → s.pwr.warm = false → s.running = true → d < 32 →
    (d = 0 ∨ d = 30 → exec (.domainOff src d) s = .next (s.domRefused 3)) ∧
    (d ≠ 0 → d ≠ 30 → s.domOn d = true → s.offOk d = false → exec (.domainOff src d) s = .next (s.domRefused 1)) ∧
    (s.domOn d = false → exec (.domainOn src d) s = .next (s.modPwr fun p => { p with turning := some d })) ∧
    (s.domOn d = true → exec (.domainOn src d) s = .next (s.domRefused 2))) ∧
  (∀ s d, s.pwr.turning = some d → d ≠ 27 → d ≠ 28 → d ≠ 31 → exec .domainOnDone s = .next (State.pwrDone 0
    (State.pstateOf ((s.domainLost d).modPwr fun p => { p with turning := none, off := p.off.set d false })))) ∧
  (∀ s, s.pwr.turning = some 31 → exec .domainOnDone s = .next (State.cryptoOn (State.pwrDone 0
    (State.pstateOf ((s.domainLost 31).modPwr fun p => { p with turning := none, off := p.off.set 31 false }))))) ∧
  (∀ s d, s.pwr.turning = some d → d = 27 ∨ d = 28 → Runs .domainOnDone s fun t =>
    t.mem = if s.sec.mode ≠ .shared ∨ s.sec.owed.get d = true then {} else { bg := some s.free })

/-- R438, R439, R440, R506, Table 17-3: resets. A warm reset needs RUN or REDUCED and an idle tier; a cold one an idle
granary; each leaves the machine STARTING. A cold reset leaves every register at its reset value but the fuses, and the
barn's contents undefined. STARTUP_DONE and IMAGE_LOAD start the machine when power and pins are good. R387 to R389, Table 15-3: the loader. On an unprovisioned part IMAGE is 7. On a provisioned one, copy A is loaded if it
is valid and B is not a valid one with a greater SVN, else B if it is valid, else IMAGE names what a copy failed (which copy's
code is open, log entry 5): 3 where neither is well formed. A copy of another serial number has code 6, one whose signature or
key fails has 2, one below the anti-rollback value 4. A loaded image that holds no writes ends with IMAGE 1. -/
def Obligations.ResetsAndImage : Prop :=
  (∀ s src, s.takes src Adr.PWR_CMD .wo = true → s.pwr.turning = none → s.pwr.warm = false → s.running = true →
    s.tierIdle = true → Runs (.warmReset src) s fun t => t = s.warmReset ∧ t.pwr.pstate = .starting ∧ t.pwr.lastReset = 4 ∧
      t.pwr.warm = true ∧ t.pwr.off = [] ∧ t.ttu = State.reset.ttu ∧ t.tier = State.reset.tier ∧ t.link = State.reset.link) ∧
  (∀ s src, s.takes src Adr.PWR_CMD .wo = true → s.pwr.turning = none → s.pwr.warm = false →
    (s.running = false → exec (.warmReset src) s = .next (s.pwrDone 2)) ∧
    (s.running = true → s.tierIdle = false → exec (.warmReset src) s = .next (s.pwrDone 1)) ∧
    (∀ b, s.gran.st ≠ .off → exec (.coldReset src b) s = .next (s.pwrDone 1)) ∧
    (∀ b, s.gran.st = .off → exec (.coldReset src b) s = .next ((s.coldReset 2).bootEval b))) ∧
  (∀ s n, exec (.supplyRise n) s =
    .next (((s.modPwr fun p => { p with railsLow := false }).coldReset 0).bootEval n)) ∧
  (∀ (s : State) n, (s.coldReset n).mem.bg ≠ none ∧ (s.coldReset n).pwr.pstate = .starting ∧
    (s.coldReset n).pwr.lastReset = n ∧ (s.coldReset n).pwr.image = true ∧ (s.coldReset n).pwr.cellar = s.pwr.cellar ∧
    (s.coldReset n).tile = State.reset.tile ∧ (s.coldReset n).ext = State.reset.ext) ∧
  (∀ (s : State) n a, s.Inv → (∀ i, i < 4 → a ≠ Adr.SEC_DBG_NONCE i) →
    (Adr.FUSE_MODE_CHANGES ≤ a → a < 0x9000 → (∀ i, i < 12 → a ≠ Adr.FUSE_OWNER_PK_HASH i) →
      (s.coldReset n).rg a = s.rg a) ∧
    (a < Adr.FUSE_MODE_CHANGES ∨ 0x9000 ≤ a → (s.coldReset n).rg a = regReset a)) ∧
  (∀ s n, exec (.rstNAssert n) s =
    .next (((s.saveTorn.modPwr fun p => { p with rstLow := true }).coldReset 1).bootEval n)) ∧
  (∀ s, exec .rstNRelease s = .next { s with pwr := { s.pwr with rstLow := false } }) ∧
  (∀ s, s.pwr.pstate = .starting → s.pwr.image = false → s.pwr.rstLow = false → s.pwr.railsLow = false →
    s.pwr.pwrFail = false → s.pwr.warm = false → exec .startupDone s =
      .next { s with pwr := { s.pwr with pstate := .run, cref := true, warm := false } }) ∧
  (∀ s, s.pwr.pstate = .starting → s.pwr.image = false → s.pwr.rstLow = false → s.pwr.railsLow = false →
    s.pwr.pwrFail = false → s.pwr.warm = true → exec .startupDone s =
      .next (State.pwrDone 0 { s with pwr := { s.pwr with pstate := .run, cref := true, warm := false } })) ∧
  (∀ s a b k, s.pwr.pstate = .starting → s.pwr.image = true → s.pwr.rstLow = false → s.pwr.railsLow = false →
    s.pwr.pwrFail = false → exec (.imageLoad a b k) s =
      .next ((s.modPwr fun p => { p with image := false, cref := true }).runLoader a b k)) ∧
  (∀ (s : State) a b k, bit (s.rg Adr.FUSE_FUSE_STATUS) 0 = false → s.runLoader a b k = s.imageBad 7) ∧
  (∀ (s : State) a b k, bit (s.rg Adr.FUSE_FUSE_STATUS) 0 = true → s.runLoader a b k =
    if s.imgCheck a = 0 ∧ (s.imgCheck b ≠ 0 ∨ imgSvn b ≤ imgSvn a) then s.loadImage a k
    else if s.imgCheck b = 0 then s.loadImage b k
    else s.takeFree.imageBad (if s.freeVal % 2 = 0 then s.imgCheck a else s.imgCheck b)) ∧
  (∀ (s : State) a b k, bit (s.rg Adr.FUSE_FUSE_STATUS) 0 = true → imgFormed a = false → imgFormed b = false →
    s.runLoader a b k = s.takeFree.imageBad 3) ∧
  (∀ (s : State) b, imgFormed b = true → tokAt b 8 8 ≠ 0 → tokAt b 8 8 ≠ s.serial → s.imgCheck b = 6) ∧
  (∀ (s : State) b, imgFormed b = true → tokAt b 8 8 = 0 ∨ tokAt b 8 8 = s.serial → s.imgCheck b =
    if s.signedBy ((b.drop (imgSigned b - 96)).take 96) ((b.drop (imgSigned b)).take 96) (b.take (imgSigned b)) = true
    then if imgSvn b < s.rf Adr.FUSE_ARB 6 0 then 4 else 0 else 2) ∧
  (∀ (s : State) b, s.Inv → imgCount b = 0 → (imgFlags b).testBit 0 = false → (imgFlags b).testBit 2 = false →
    (s.loadImage b true).rf Adr.SEC_STATUS 11 8 = 1 ∧
    (s.loadImage b true).sec = { s.sec with sealedOk := (imgFlags b).testBit 1, ksRoot := tokAt b 32 48 }) ∧
  (∀ s, s.live = true → s.pwr.pstate ≠ .saving → s.domOn 31 = true → 3 ≤ s.sec.negotiated → ∀ n, 1 ≤ n → n ≤ 6 →
    exec (.getMeasurements n) s = .next (s.emit (.spdm (.measurements [(n, s.measurement n)]))))

/-- R441 to R449: the supply-fail path. PWR_FAIL_N in RUN or REDUCED counts PF_EVENTS and starts a save, which ends in SAVED
with its commit record written, or with none where a write failed; in STARTING or HALTED it stops the machine. Released in
SAVED it is a cold reset. R442, R450, R507, R513, Table 17-2: supplies. Loss of CREFCLK halts a running machine and tears a save; a VHOLD sample is
kept with its minimum; VHOLD below VHOLD_WARN for 1 ms raises VHOLD_LOW; a brown-out is a cold reset with the supplies out of
range; the thermal trip drives its pin once. -/
def Obligations.SupplyFailure : Prop :=
  (∀ s u, s.pwr.pwrFail = false → u = State.bump Adr.PWR_PF_EVENTS 1 (s.modPwr fun p => { p with pwrFail := true }) →
    (s.pwr.pstate = .run ∨ s.pwr.pstate = .reduced → exec .pwrFailAssert s = .next u.startSave) ∧
    (s.pwr.pstate = .starting ∨ s.pwr.pstate = .halted → exec .pwrFailAssert s = .next u.stopAll.saved) ∧
    (s.pwr.pstate = .saving ∨ s.pwr.pstate = .saved → exec .pwrFailAssert s = .next u)) ∧
  (∀ s, s.pwr.pwrFail = true → exec .pwrFailAssert s = .next s) ∧
  (∀ (s : State), s.saveSkipped = false → s.sec.fuse = none → s.startSave.pwr.pstate = .saving ∧ s.startSave.pwr.save = some s.saveJob ∧
    ∀ d, d < 25 → 1 ≤ d → s.startSave.domOn d = false) ∧
  (∀ s j, s.pwr.pstate = .saving → s.pwr.save = some j → exec (.saveWriteDone true) s = .next (State.saved
    (State.setCell (commitAt j.slot) (commitBytes j ((s.ns - j.startNs) / 1000) s.pwr.vhold)
      (s.setCell (saveSlot j.slot) (padFull 4096 j.header ++ j.body))))) ∧
  (∀ s j, s.pwr.pstate = .saving → s.pwr.save = some j → exec (.saveWriteDone false) s = .next s.saveTorn.saved) ∧
  (∀ (s : State), s.saved.pwr.pstate = .saved ∧ s.saved.pwr.save = none ∧ s.saved.domOn 0 = true ∧
    ∀ d, 1 ≤ d → d < 32 → s.saved.domOn d = false) ∧
  (∀ s b, s.pwr.pstate = .saved → exec (.pwrFailRelease b) s =
    .next (((s.modPwr fun p => { p with pwrFail := false }).coldReset 3).bootEval b)) ∧
  (∀ s b, s.pwr.pstate ≠ .saved → exec (.pwrFailRelease b) s = .next (s.modPwr fun p => { p with pwrFail := false })) ∧
  (∀ s, s.running = true → exec .crefclkLost s = .next (State.raise Err.pwr_CLK_LOST 0 [] none (State.modPwr
    (fun p => { p with pstate := .halted, turning := none }) (State.stopAll (s.modPwr fun p => { p with cref := false }))))) ∧
  (∀ s, s.pwr.pstate = .saving → exec .crefclkLost s = .next (s.modPwr fun p => { p with cref := false }).saveTorn.saved) ∧
  (∀ s n v, v = min (n / 10 * 10) 65530 → s.pwr.pstate ≠ .saving ∨ 7000 ≤ v → Runs (.vholdSample n) s fun t =>
    ∃ x, t = { s with pwr := { s.pwr with vhold := v, vholdMin := some (min v (s.pwr.vholdMin.getD v)), lowSince := x } } ∧
      (x.isSome = true ↔ s.running = true ∧ v < s.rf Adr.PWR_VHOLD_WARN 15 0)) ∧
  (∀ s n, s.pwr.pstate = .saving → n < 7000 → Runs (.vholdSample n) s fun t => t.pwr.pstate = .saved ∧ t.pwr.save = none) ∧
  (∀ s n, s.pwr.lowSince = some n → s.running = true → n + 1000000 ≤ s.ns → exec .vholdLow s =
    .next (State.modPwr (fun p => { p with lowSince := some s.ns })
      ((s.raise Err.pwr_VHOLD_LOW 0 [] none).raiseInt .pwr 0 1))) ∧
  (∀ s, s.running = true → s.pwr.pwrFail = false → exec (.brownOut false false) s =
    .next (State.coldReset 0 (s.saveTorn.modPwr fun p => { p with railsLow := true }))) ∧
  (∀ s b, s.pwr.pstate ≠ .saved → exec (.brownOut true b) s =
    .next (State.coldReset 0 (s.saveTorn.modPwr fun p => { p with railsLow := true }))) ∧
  (∀ s a b, s.pwr.pstate = .saved → exec (.brownOut a b) s = .next s) ∧
  (∀ s, exec .thermTrip s = .next (if s.pwr.trip then s else State.emit .thermTrip (s.modPwr fun p => { p with trip := true })))

/-- R437: the registers of a block whose domain is off read as zero, and a write to one changes nothing, whichever of host,
chain and JTAG asks; so for the sheaf counters, the MSI-X structures and the pages of the VFs. The barn window reads as zero
while either barn domain is off. After a cold reset every domain is on. -/
def Obligations.OffDomains : Prop :=
  (∀ (s : State) src a v k i o, pageAt a = some (k, i, o) → a % 4 = 0 → a < 0x04000000 → src ≠ .loader → s.pwr.warm = false →
    k = .port ∧ s.domOn (1 + i / 32) = false ∨ k = .octet ∧ s.domOn (1 + i / 4) = false ∨
      (k = .swcore ∨ k = .ttu ∨ k = .home ∨ k = .carv ∨ k = .sheaf) ∧ s.domOn (25 + i) = false ∨
      (k = .ext ∨ k = .exd ∨ k = .dom ∨ k = .kvpool ∨ k = .kvseq ∨ k = .job) ∧ s.domOn 25 = false ∧ s.domOn 26 = false ∨
      k = .tile ∧ s.domOn (17 + i) = false ∨ k = .tier ∧ s.barnOn = false ∨ k = .gran ∧ s.domOn 29 = false ∨
      (k = .hostp ∨ k = .chain) ∧ s.domOn 30 = false →
    exec (.counterLoRead src false a 1) s = .next (s.emit (.readData src 0)) ∧
    exec (.regWrite src false a (leBytes 4 v)) s = .next s) ∧
  (∀ (s : State) src a v c, c < 16384 → a % 4 = 0 → 0x00C00000 + 16 * c ≤ a ∧ a < 0x00C00010 + 16 * c ∨
      0x00C40000 + 16 * c ≤ a ∧ a < 0x00C40010 + 16 * c → src ≠ .loader → s.pwr.warm = false → s.domOn (25 + ctrDie c) = false →
    exec (.counterLoRead src false a 1) s = .next (s.emit (.readData src 0)) ∧
    exec (.regWrite src false a (leBytes 4 v)) s = .next s) ∧
  (∀ (s : State) src a v, 0x10000 ≤ a → a < 0x20200 → a % 4 = 0 → s.pwr.warm = false → s.domOn 30 = false →
    exec (.counterLoRead src false a 1) s = .next (s.emit (.readData src 0)) ∧
    exec (.regWrite src false a (leBytes 4 v)) s = .next s) ∧
  (∀ (s : State) f o t v, f ≤ 1024 → o < 0x10000 → o % 4 = 0 → s.pwr.warm = false → s.domOn 30 = false →
    exec (.counterLoRead .host t (0x04000000 + 0x10000 * f + o) 1) s = .next (s.emit (.readData .host 0)) ∧
    exec (.regWrite .host t (0x04000000 + 0x10000 * f + o) (leBytes 4 v)) s = .next s) ∧
  (∀ (s : State) addr n, s.barnOn = false →
    exec (.barnWindowRead addr n) s = .next (s.emit (.windowData (List.replicate n (0, false))))) ∧
  (∀ (s : State) n d, d < 32 → (s.coldReset n).domOn d = true)

/-- R426: chain frames. A malformed frame is counted in CHAIN_CRC and dropped, whatever its type; in OFF a good one is
forwarded out of the other port with one hop less, and at no hop left or with that port down it is dropped. R429, R499: accesses over the chain. A window access of position 0 is one of the own registers; another one, at a lead,
waits for a tag or goes out; elsewhere it reads all ones. A follower answers what is addressed to it with the registers'
contents; a response frees its tag; an access unanswered for RSP_TIMEOUT µs ends. -/
def Obligations.ChainTraffic : Prop :=
  (∀ s b f, s.pageOn .chain 0 = true → chainBad f = true →
    ∀ c ∈ [Instr.chainClaimRx b f, .chainEnumRx b f, .chainReadRx b true f, .chainReadRx b false f, .chainWriteRx b true f,
      .chainWriteRx b false f, .chainReadRspRx b f, .chainWriteRspRx b f, .chainEventRx b f, .chainBeaconRx b f,
      .chainEnumEndRx b f], exec c s = .next (s.bump Adr.CHAIN_CHAIN_CRC 1)) ∧
  (∀ s b f h, s.pageOn .chain 0 = true → chainBad f = false → h = leNat (f.take 16) → s.chain.st = .off →
    ∀ c ∈ [(Instr.chainClaimRx b f, 1), (.chainEnumRx b f, 2), (.chainReadRx b true f, 3), (.chainReadRx b false f, 3),
      (.chainWriteRx b true f, 4), (.chainWriteRx b false f, 4), (.chainReadRspRx b f, 5), (.chainWriteRspRx b f, 6),
      (.chainEventRx b f, 7), (.chainBeaconRx b f, 8), (.chainEnumEndRx b f, 9)], chType h = c.2 →
      exec c.1 s = .next (s.chainFwd b h ((f.drop 16).take (f.length - 20)))) ∧
  (∀ (s : State) b h l, chTtl h ≠ 0 → s.chainUp (!b) = true → s.chainFwd b h l = State.bump Adr.CHAIN_FRAMES_FWD 1
    (s.chainSend (!b) (setBits (BitVec.ofNat 128 h) 109 104 (chTtl h - 1)).toNat l)) ∧
  (∀ (s : State) b h l, chTtl h = 0 ∨ s.chainUp (!b) = false → s.chainFwd b h l = s) ∧
  (∀ s off n, nbits off 31 26 = 0 → exec (.chainWindowRead off n) s = .next (s.readDwords .host false (off % 2 ^ 26 / 4 * 4) n)) ∧
  (∀ s off n, nbits off 31 26 ≠ 0 → s.leads = false → exec (.chainWindowRead off n) s =
    .next (s.emit (.chainData (nbits off 31 26) (off % 2 ^ 26 / 4 * 4) (List.replicate n 0xFFFFFFFF#32)))) ∧
  (∀ s off n, nbits off 31 26 ≠ 0 → s.leads = true → 1 ≤ n → n ≤ 64 → exec (.chainWindowRead off n) s =
    .next (s.chainAccess { pos := nbits off 31 26, addr := off % 2 ^ 26 / 4 * 4, count := n })) ∧
  (∀ s off d, off % 4 = 0 → d.length % 4 = 0 → 4 ≤ d.length → d.length ≤ 256 →
    (nbits off 31 26 = 0 → exec (.chainWindowWrite off d) s = .next (s.writeDwords .host false (off % 2 ^ 26) (dwordsOf d))) ∧
    (nbits off 31 26 ≠ 0 → s.leads = true → exec (.chainWindowWrite off d) s = .next (s.chainAccess
      { pos := nbits off 31 26, addr := off % 2 ^ 26, count := d.length / 4, write := some (dwordsOf d) })) ∧
    (nbits off 31 26 ≠ 0 → s.leads = false → exec (.chainWindowWrite off d) s = .next s)) ∧
  (∀ s off d, off % 4 ≠ 0 ∨ d.length % 4 ≠ 0 ∨ d.length = 0 → exec (.chainWindowWrite off d) s = .next s.mmioBad) ∧
  (∀ s b r f h u ws, s.pageOn .chain 0 = true → chainBad f = false → h = leNat (f.take 16) → s.chainMine h = true →
    chArg h % 4 = 0 → chArg h < 2 ^ 26 → 1 ≤ chLen h →
    (chType h = 3 → s.chainRead (chArg h) (chLen h) = (ws, u) →
      exec (.chainReadRx b r f) s = .next (u.chainReply b r h 5 0 ws)) ∧
    (chType h = 4 → exec (.chainWriteRx b r f) s = .next (State.chainReply b r h 6 0 []
      (s.writeDwords .chain false (chArg h) (dwordsOf ((f.drop 16).take (f.length - 20))))))) ∧
  (∀ s b f h a ws, s.pageOn .chain 0 = true → chainBad f = false → h = leNat (f.take 16) → s.chain.st ≠ .off →
    s.chain.accs.get (chTag h) = some a → ws = dwordsOf ((f.drop 16).take (f.length - 20)) → chArg h % 16 = 0 →
    (chType h = 5 → a.write = none → a.serial = false → ws.length = a.count →
      exec (.chainReadRspRx b f) s = .next (State.chainFree (chTag h) (s.emit (.chainData a.pos a.addr ws)))) ∧
    (chType h = 6 → a.write.isSome = true → exec (.chainWriteRspRx b f) s = .next (s.chainFree (chTag h)))) ∧
  (∀ s b f h, s.pageOn .chain 0 = true → chainBad f = false → h = leNat (f.take 16) → s.leads = true → chType h = 7 →
    (nbits (chArg h) 15 8 = 1 → exec (.chainEventRx b f) s = .next (s.msix 0 (64 * chSrc h + chArg h % 64))) ∧
    (nbits (chArg h) 15 8 = 3 → exec (.chainEventRx b f) s = .next (s.chainBreak (chSrc h) (chArg h % 2)))) ∧
  (∀ s n a, s.chain.accs.get n = some a → a.at_ + 1000 * s.rf Adr.CHAIN_RSP_TIMEOUT 19 0 ≤ s.ns →
    exec (.chainRspTimeout n) s = .next (State.chainFree n (if a.write.isSome = true
      then State.raise Err.chain_CHAIN_WR_FAIL 0 [] none (s.bump Adr.CHAIN_CHAIN_TIMEOUTS 1)
      else State.raise Err.chain_CHAIN_TIMEOUT 0 [a.pos] none ((s.bump Adr.CHAIN_CHAIN_TIMEOUTS 1).chainOnes a))))

/-- R427, Table 16-8: control and election. EN takes an Ikion from OFF to LISTEN and back; RESTART takes it to LISTEN. After
LISTEN an eligible Ikion that heard no better CLAIM sends its own and is in CLAIM; a CLAIM timer ends in ENUMERATING in line
mode, an own CLAIM that returns in ring mode; a worse CLAIM in LISTEN is answered by the own one, a better one in CLAIM backs
off; a backoff ends in LISTEN. A lead sends its BEACON; a follower that hears none for 30 intervals listens again. -/
def Obligations.ChainElection : Prop :=
  (∀ s src, s.takes src Adr.CHAIN_CTRL .rw = true → s.chain.st = .off →
    exec (.chainEnable src) s = .next ((s.setRg Adr.CHAIN_CTRL 1).chainLeave .listen)) ∧
  (∀ s src, s.takes src Adr.CHAIN_CTRL .rw = true → exec (.chainDisable src) s = .next ((s.setRg Adr.CHAIN_CTRL 0).chainLeave .off)) ∧
  (∀ s src, s.takes src Adr.CHAIN_CMD .wo = true → s.chain.st ≠ .off →
    exec (.chainRestart src) s = .next (s.chainLeave .listen)) ∧
  (∀ (s : State) x, s.chain.waiting = [] → s.chainLeave x = s.modChain fun c => { c with
    st := x, pos := 0, placed := false, heard := false, fresh := false, sideA := none, waiting := [] }) ∧
  (∀ s, s.chain.st = .listen → s.chainEligible = true → s.chain.heard = false → ∃ x y, exec .chainListenTimer s = .next { s with
    chain := { s.chain with st := .claim }, out := s.out ++ [.chain false x, .chain true y] }) ∧
  (∀ s, s.chain.st = .listen → s.chainEligible = false ∨ s.chain.heard = true →
    exec .chainListenTimer s = .next (s.modChain fun c => { c with heard := false })) ∧
  (∀ s, s.chain.st = .claim → exec .chainClaimTimer s = .next (s.chainEnum false)) ∧
  (∀ s, s.chain.st = .backoff → exec .chainBackoffTimer s = .next (s.chainLeave .listen)) ∧
  (∀ s b f h l, s.pageOn .chain 0 = true → chainBad f = false → h = leNat (f.take 16) →
    l = (f.drop 16).take (f.length - 20) → chType h = 1 →
    (s.chain.st = .claim → chArg h = s.serial → exec (.chainClaimRx b f) s = .next (s.chainEnum true)) ∧
    (s.chain.st = .claim → chArg h ≠ s.serial → s.chainBetter h = true →
      exec (.chainClaimRx b f) s = .next (s.chainFwd b h l).chainCollide) ∧
    (s.chain.st = .listen → chArg h ≠ s.serial → s.chainBetter h = false → s.chainEligible = true →
      exec (.chainClaimRx b f) s = .next s.chainClaim) ∧
    (s.chain.st = .listen → chArg h ≠ s.serial → s.chainBetter h = true →
      exec (.chainClaimRx b f) s = .next ((s.chainFwd b h l).modChain fun c => { c with heard := true })) ∧
    (s.leads = true → chArg h ≠ s.serial → exec (.chainClaimRx b f) s = .next s.chainBeacon)) ∧
  (∀ s b f h l, s.pageOn .chain 0 = true → chainBad f = false → h = leNat (f.take 16) →
    l = (f.drop 16).take (f.length - 20) → chType h = 8 →
    (s.chain.st = .claim → exec (.chainBeaconRx b f) s =
      .next (((s.chainFwd b h l).chainEventOn b 2 (b2n b)).chainLeave .listen)) ∧
    (s.chain.st = .follower → chArg h = s.rg64 Adr.CHAIN_LEAD_SERIAL_LO → exec (.chainBeaconRx b f) s =
      .next ((s.chainFwd b h l).modChain fun c => { c with beaconAt := s.ns, fresh := false })) ∧
    (s.leads = true → chArg h ≠ s.serial → s.chainBetter h = true → exec (.chainBeaconRx b f) s = .next s.chainCollide)) ∧
  (∀ s, s.chain.st = .lead → exec .chainBeaconSend s = .next s.chainBeacon) ∧
  (∀ s, s.chain.st = .follower → s.chain.beaconAt + 30000 * s.rf Adr.CHAIN_BEACON_INTERVAL 15 0 ≤ s.ns →
    exec .chainBeaconLoss s = .next (s.chainLeave .listen)) ∧
  (∀ s t n, s.chain.hostDown = some t → n = s.rf Adr.CHAIN_HOST_LOSS 15 0 → n ≠ 0 → t + 1000000 * n ≤ s.ns → exec .chainHostLoss s =
    .next (State.chainRestart (s.modChain fun c => { c with hostDown := none })))

/-- R428, R430: enumeration. An unplaced Ikion that receives ENUM takes the position it names, follows the sender and passes
ENUM on with the next position, or answers ENUM_END where the other port is down; position 64 does not exist. ENUM_END makes
the lead the lead; an enumeration that times out leads the positions known. A broken ring or a port that changes is
announced, or enumerated again by the lead. -/
def Obligations.ChainEnumeration : Prop :=
  (∀ s b f h n, s.pageOn .chain 0 = true → chainBad f = false → h = leNat (f.take 16) → chType h = 2 →
    s.chain.st ≠ .off → s.leads = false → n = chN h → 1 ≤ n → n < 64 → s.chain.fresh = false →
    Runs (.chainEnumRx b f) s fun t => t.chain = { s.chain with
      st := .follower, pos := n, placed := true, fresh := true, leadB := b, beaconAt := s.ns }) ∧
  (∀ s b f h, s.pageOn .chain 0 = true → chainBad f = false → h = leNat (f.take 16) → chType h = 2 →
    s.chain.st ≠ .off → s.leads = false → chN h = 64 → s.chain.fresh = false → exec (.chainEnumRx b f) s =
      .next ((s.modChain fun c => { c with placed := false, pos := 0 }).chainEnumEnd b 64 true)) ∧
  (∀ s b f h, s.pageOn .chain 0 = true → chainBad f = false → h = leNat (f.take 16) → chType h = 2 →
    s.leads = true → 1 ≤ chN h → chN h ≤ 64 → chArg h < s.serial → exec (.chainEnumRx b f) s = .next s.chainCollide) ∧
  (∀ s f h, s.pageOn .chain 0 = true → chainBad f = false → h = leNat (f.take 16) → chType h = 9 →
    s.chain.st = .enumerating → 1 ≤ chN h → chN h ≤ 64 → chArg h % 2 = 0 →
    (s.chain.sideA = none → exec (.chainEnumEndRx true f) s = .next (s.chainSideA (chN h))) ∧
    (∀ k, s.chain.sideA = some k → exec (.chainEnumEndRx false f) s = .next (s.chainLead (chN h) k false))) ∧
  (∀ s, s.chain.st = .enumerating → s.chain.sideA = none → exec .chainEnumTimeout s =
    .next ((s.raise Err.chain_CHAIN_ENUM_TIMEOUT 0 [] none).chainLead 1 1 false)) ∧
  (∀ s, s.chain.st = .lead → s.chain.ring = true →
    s.chain.beaconAt + 3000 * s.rf Adr.CHAIN_BEACON_INTERVAL 15 0 ≤ s.ns → exec .chainRingBroken s = .next (s.chainBreak 0 0)) ∧
  (∀ s b, s.pageOn .chain 0 = true → ∀ c ∈ [(Instr.chainPortDown b, false, 3), (.chainPortRestore b, true, 4)],
    s.chainUp b ≠ c.2.1 →
    (s.chain.st = .off → exec c.1 s =
      .next (s.modChain fun x => if b then { x with upB := c.2.1 } else { x with upA := c.2.1 })) ∧
    (s.leads = true → exec c.1 s = .next (State.chainBreak 0 (b2n b)
      (s.modChain fun x => if b then { x with upB := c.2.1 } else { x with upA := c.2.1 }))) ∧
    (s.chain.st = .follower → exec c.1 s = .next (State.chainEventOn (!b) c.2.2 (b2n b)
      (s.modChain fun x => if b then { x with upB := c.2.1 } else { x with upA := c.2.1 }))))
end

