-- ==== Sys2Proof/Decode.lean ====
section
/-! DEFINITION. The decoder over the rows that have bits: spec/opcode_table.json gives bits to no row, so
no word spells a command. -/

set_option Elab.async false

namespace Sys2Proof

/-- The command that a word spells by the table's bits: none. -/
def decodeTableWord (_nbits _w : Nat) : Option Instr := none

end Sys2Proof
end

