-- ==== Sys2Proof/Laws/Tbl.lean ====
section
/-! SUPPORT. Laws of the sparse tables: a read after a write, and the canonical form. -/

set_option Elab.async false

namespace Sys2Proof.Machine

variable {α : Type}

theorem tbl_get_nil [Inhabited α] (k : Nat) : Tbl.get ([] : Tbl α) k = default := rfl

theorem tbl_get_cons [Inhabited α] (e : Nat × α) (t : Tbl α) (k : Nat) :
    Tbl.get (e :: t) k = if e.1 = k then e.2 else Tbl.get t k := rfl

/-- Keys strictly rising from a bound: what `sorted` says of the rest. -/
theorem sorted_cons (lo : Option Nat) (e : Nat × α) (t : Tbl α) (h : Tbl.sorted lo (e :: t) = true) :
    Tbl.sorted (some e.1) t = true ∧ (∀ l, lo = some l → l < e.1) := by
  obtain ⟨a, v⟩ := e
  cases lo with
  | none => exact ⟨by simpa [Tbl.sorted] using h, by simp⟩
  | some l =>
    simp only [Tbl.sorted, Bool.and_eq_true, decide_eq_true_eq] at h
    exact ⟨h.2, by rintro m hm; cases hm; exact h.1⟩

theorem sorted_mk {lo : Option Nat} {e : Nat × α} {t : Tbl α} (h : Tbl.sorted (some e.1) t = true)
    (hl : ∀ l, lo = some l → l < e.1) : Tbl.sorted lo (e :: t) = true := by
  obtain ⟨a, v⟩ := e
  cases lo with
  | none => simpa [Tbl.sorted] using h
  | some l => simp only [Tbl.sorted, Bool.and_eq_true, decide_eq_true_eq]; exact ⟨hl l rfl, h⟩

theorem sorted_weaken {t : Tbl α} : ∀ {a b : Option Nat}, Tbl.sorted b t = true →
    (∀ l, a = some l → ∃ m, b = some m ∧ l ≤ m) → Tbl.sorted a t = true := by
  intro a b h hab
  cases t with
  | nil => cases a <;> rfl
  | cons e t =>
    have := sorted_cons b e t h
    exact sorted_mk this.1 fun l hl => by
      obtain ⟨m, hm, hlm⟩ := hab l hl
      exact Nat.lt_of_le_of_lt hlm (this.2 m hm)

theorem get_of_sorted [Inhabited α] : ∀ (t : Tbl α) (l k : Nat), Tbl.sorted (some l) t = true → k ≤ l →
    Tbl.get t k = default
  | [], _, _, _, _ => rfl
  | e :: t, l, k, h, hk => by
    have := sorted_cons (some l) e t h
    have hlt := this.2 l rfl
    rw [tbl_get_cons, if_neg (by omega)]
    exact get_of_sorted t e.1 k this.1 (by omega)

theorem get_ins_self [Inhabited α] : ∀ (t : Tbl α) (k : Nat) (v : α), (t.ins k v).get k = v
  | [], k, v => by simp [Tbl.ins, Tbl.get]
  | (a, u) :: t, k, v => by
    unfold Tbl.ins
    split
    · simp [Tbl.get]
    · split
      · simp [Tbl.get]
      · rename_i h1 h2
        simp [Tbl.get, Ne.symm h2, get_ins_self t k v]

theorem get_ins_other [Inhabited α] : ∀ (t : Tbl α) (k j : Nat) (v : α), j ≠ k → (t.ins k v).get j = t.get j
  | [], k, j, v, h => by simp [Tbl.ins, Tbl.get, Ne.symm h]
  | (a, u) :: t, k, j, v, h => by
    unfold Tbl.ins
    split
    · simp [Tbl.get, Ne.symm h]
    · split
      · rename_i h2; subst h2; simp [Tbl.get, Ne.symm h]
      · simp [Tbl.get, get_ins_other t k j v h]

theorem get_del_other [Inhabited α] : ∀ (t : Tbl α) (k j : Nat), j ≠ k → (t.del k).get j = t.get j
  | [], _, _, _ => rfl
  | (a, u) :: t, k, j, h => by
    unfold Tbl.del
    split
    · rfl
    · split
      · rename_i h2; subst h2; simp [Tbl.get, Ne.symm h]
      · simp [Tbl.get, get_del_other t k j h]

theorem get_del_self [Inhabited α] : ∀ (t : Tbl α) (k : Nat) (lo : Option Nat), Tbl.sorted lo t = true →
    (t.del k).get k = default
  | [], _, _, _ => rfl
  | (a, u) :: t, k, lo, h => by
    have hs := sorted_cons lo (a, u) t h
    unfold Tbl.del
    split
    · rename_i hk
      simp only [Tbl.get, if_neg (show ¬ a = k by omega)]
      exact get_of_sorted t a k hs.1 (by omega)
    · split
      · rename_i h2; subst h2; exact get_of_sorted t k k hs.1 (Nat.le_refl _)
      · rename_i h1 h2
        simp only [Tbl.get, if_neg (Ne.symm h2)]
        exact get_del_self t k (some a) hs.1

/-- A read of another key sees what was there. -/
theorem get_set_other [Inhabited α] [DecidableEq α] (t : Tbl α) (k j : Nat) (v : α) (h : j ≠ k) :
    (t.set k v).get j = t.get j := by
  unfold Tbl.set
  split
  · exact get_del_other t k j h
  · exact get_ins_other t k j v h

/-- A read after a write of the same key gives the value written. -/
theorem get_set_self [Inhabited α] [DecidableEq α] (t : Tbl α) (k : Nat) (v : α) (h : t.wf = true) :
    (t.set k v).get k = v := by
  have hs : Tbl.sorted none t = true := by
    unfold Tbl.wf at h; exact (Bool.and_eq_true _ _ ▸ h).1
  unfold Tbl.set
  split
  · rename_i hv; rw [hv]; exact get_del_self t k none hs
  · exact get_ins_self t k v

/-- A value that is not the default reads back whatever the table. -/
theorem get_set_ne [Inhabited α] [DecidableEq α] (t : Tbl α) (k : Nat) (v : α) (h : v ≠ default) :
    (t.set k v).get k = v := by
  unfold Tbl.set; rw [if_neg h]; exact get_ins_self t k v

theorem sorted_ins : ∀ (t : Tbl α) (k : Nat) (v : α) (lo : Option Nat), Tbl.sorted lo t = true →
    (∀ l, lo = some l → l < k) → Tbl.sorted lo (t.ins k v) = true
  | [], k, v, lo, _, hk => sorted_mk (e := (k, v)) rfl hk
  | (a, u) :: t, k, v, lo, h, hk => by
    have hs := sorted_cons lo (a, u) t h
    unfold Tbl.ins
    split
    · rename_i hka
      exact sorted_mk (e := (k, v)) (sorted_mk (e := (a, u)) hs.1 (by rintro l hl; cases hl; exact hka)) hk
    · split
      · rename_i h2; subst h2; exact sorted_mk (e := (k, v)) hs.1 hs.2
      · rename_i h1 h2
        exact sorted_mk (e := (a, u)) (sorted_ins t k v (some a) hs.1 (by rintro l hl; cases hl; omega)) hs.2

theorem sorted_del : ∀ (t : Tbl α) (k : Nat) (lo : Option Nat), Tbl.sorted lo t = true →
    Tbl.sorted lo (t.del k) = true
  | [], _, _, h => h
  | (a, u) :: t, k, lo, h => by
    have hs := sorted_cons lo (a, u) t h
    unfold Tbl.del
    split
    · exact h
    · split
      · exact sorted_weaken hs.1 fun l hl => ⟨a, rfl, Nat.le_of_lt (hs.2 l hl)⟩
      · exact sorted_mk (e := (a, u)) (sorted_del t k (some a) hs.1) hs.2

theorem sorted_filter (p : Nat × α → Bool) : ∀ (t : Tbl α) (lo : Option Nat), Tbl.sorted lo t = true →
    Tbl.sorted lo (List.filter p t) = true
  | [], _, h => h
  | (a, u) :: t, lo, h => by
    have hs := sorted_cons lo (a, u) t h
    rw [List.filter_cons]
    split
    · exact sorted_mk (e := (a, u)) (sorted_filter p t (some a) hs.1) hs.2
    · exact sorted_filter p t lo (sorted_weaken hs.1 fun l hl => ⟨a, rfl, Nat.le_of_lt (hs.2 l hl)⟩)

theorem lean_iff [Inhabited α] [DecidableEq α] : ∀ (t : Tbl α), t.lean = true ↔ ∀ e ∈ t, e.2 ≠ default
  | [] => by simp [Tbl.lean]
  | (a, v) :: t => by simp [Tbl.lean, lean_iff t]

theorem mem_ins : ∀ (t : Tbl α) (k : Nat) (v : α) (e : Nat × α), e ∈ t.ins k v → e = (k, v) ∨ e ∈ t
  | [], k, v, e, h => by simpa [Tbl.ins] using h
  | (a, u) :: t, k, v, e, h => by
    unfold Tbl.ins at h
    split at h
    · simpa using h
    · split at h
      · rcases List.mem_cons.1 h with h | h
        · exact .inl h
        · exact .inr (List.mem_cons_of_mem _ h)
      · rcases List.mem_cons.1 h with h | h
        · exact .inr (h ▸ List.mem_cons_self)
        · exact (mem_ins t k v e h).imp_right (List.mem_cons_of_mem _)

theorem mem_del : ∀ (t : Tbl α) (k : Nat) (e : Nat × α), e ∈ t.del k → e ∈ t
  | [], _, _, h => h
  | (a, u) :: t, k, e, h => by
    unfold Tbl.del at h
    split at h
    · exact h
    · split at h
      · exact List.mem_cons_of_mem _ h
      · rcases List.mem_cons.1 h with h | h
        · exact h ▸ List.mem_cons_self
        · exact List.mem_cons_of_mem _ (mem_del t k e h)

/-- What a written table lists: the new entry or an old one. -/
theorem mem_set [Inhabited α] [DecidableEq α] (t : Tbl α) (k : Nat) (v : α) (e : Nat × α) (h : e ∈ t.set k v) :
    (e = (k, v) ∧ v ≠ default) ∨ e ∈ t := by
  unfold Tbl.set at h
  split at h
  · exact .inr (mem_del t k e h)
  · rename_i hv; exact (mem_ins t k v e h).imp_left fun x => ⟨x, hv⟩

theorem wf_iff [Inhabited α] [DecidableEq α] (t : Tbl α) :
    t.wf = true ↔ Tbl.sorted none t = true ∧ ∀ e ∈ t, e.2 ≠ default := by
  unfold Tbl.wf; rw [Bool.and_eq_true, lean_iff]

theorem wf_nil [Inhabited α] [DecidableEq α] : Tbl.wf ([] : Tbl α) = true := rfl

/-- A write keeps the canonical form. -/
theorem wf_set [Inhabited α] [DecidableEq α] (t : Tbl α) (k : Nat) (v : α) (h : t.wf = true) :
    (t.set k v).wf = true := by
  rw [wf_iff] at h ⊢
  refine ⟨?_, fun e he => ?_⟩
  · unfold Tbl.set
    split
    · exact sorted_del t k none h.1
    · exact sorted_ins t k v none h.1 (by simp)
  · rcases mem_set t k v e he with ⟨rfl, hv⟩ | he
    · exact hv
    · exact h.2 e he

theorem wf_modify [Inhabited α] [DecidableEq α] (t : Tbl α) (k : Nat) (f : α → α) (h : t.wf = true) :
    (t.modify k f).wf = true := wf_set t k _ h

theorem wf_filter [Inhabited α] [DecidableEq α] (t : Tbl α) (p : Nat × α → Bool) (h : t.wf = true) :
    Tbl.wf (List.filter p t) = true := by
  rw [wf_iff] at h ⊢
  exact ⟨sorted_filter p t none h.1, fun e he => h.2 e (List.mem_filter.1 he).1⟩

theorem wf_clear [Inhabited α] [DecidableEq α] (t : Tbl α) (a b : Nat) (h : t.wf = true) :
    (t.clear a b).wf = true := wf_filter t _ h

theorem wf_keep [Inhabited α] [DecidableEq α] (t : Tbl α) (p : Nat → α → Bool) (h : t.wf = true) :
    (t.keep p).wf = true := wf_filter t _ h

theorem wf_del [Inhabited α] [DecidableEq α] (t : Tbl α) (k : Nat) (h : t.wf = true) : (t.del k).wf = true := by
  rw [wf_iff] at h ⊢
  exact ⟨sorted_del t k none h.1, fun e he => h.2 e (mem_del t k e he)⟩

theorem sorted_map (f : Nat → α → α) : ∀ (t : Tbl α) (lo : Option Nat), Tbl.sorted lo t = true →
    Tbl.sorted lo (List.map (fun e => (e.1, f e.1 e.2)) t) = true
  | [], _, h => h
  | (a, u) :: t, lo, h => by
    have hs := sorted_cons lo (a, u) t h
    exact sorted_mk (e := (a, f a u)) (sorted_map f t (some a) hs.1) hs.2

theorem wf_map [Inhabited α] [DecidableEq α] (t : Tbl α) (f : Nat → α → α) (h : t.wf = true) :
    (Tbl.map t f).wf = true := by
  rw [wf_iff] at h ⊢
  refine ⟨sorted_filter _ _ none (sorted_map f t none h.1), fun e he => ?_⟩
  simpa using (List.mem_filter.1 he).2

end Sys2Proof.Machine
end

