-- ==== Sys2Proof/Laws/Mem.lean ====
section
/-! SUPPORT. Laws of the barn: a read after a write, other bytes stay, and every operation on the memory
keeps its form. -/

set_option Elab.async false

namespace Sys2Proof.Machine
open Sys2Proof

theorem mem_wf_iff (m : MemUnit) : m.wf = true ↔
    m.barn.wf = true ∧ m.poison.wf = true ∧ ∀ e ∈ m.barn, e.2 ≠ some (m.back e.1) := by
  simp [MemUnit.wf, and_assoc]

theorem mem_back_congr (m n : MemUnit) (h : n.bg = m.bg) (a : Nat) : n.back a = m.back a := by
  unfold MemUnit.back; rw [h]

/-- Storing one byte keeps the form. -/
theorem mem_wf_byte (m : MemUnit) (a : Nat) (b : Byte) (h : m.wf = true) :
    MemUnit.wf { m with barn := m.barn.set a (if b = m.back a then none else some b) } = true := by
  rw [mem_wf_iff] at h ⊢
  refine ⟨wf_set _ _ _ h.1, h.2.1, fun e he => ?_⟩
  change e.2 ≠ some (m.back e.1)
  rcases mem_set _ _ _ _ he with ⟨rfl, hv⟩ | he
  · by_cases hb : b = m.back a <;> simp [hb]
  · exact h.2.2 e he

/-- Storing bytes keeps the form of the memory. -/
theorem mem_wf_store : ∀ (bs : List Byte) (m : MemUnit) (a : Nat), m.wf = true → (m.store a bs).wf = true
  | [], _, _, h => h
  | b :: bs, m, a, h => mem_wf_store bs _ (a + 1) (mem_wf_byte m a b h)

theorem mem_store_bg : ∀ (bs : List Byte) (m : MemUnit) (a : Nat), (m.store a bs).bg = m.bg
  | [], _, _ => rfl
  | _ :: bs, _, a => mem_store_bg bs _ (a + 1)

theorem mem_store_poison : ∀ (bs : List Byte) (m : MemUnit) (a : Nat), (m.store a bs).poison = m.poison
  | [], _, _ => rfl
  | _ :: bs, _, a => mem_store_poison bs _ (a + 1)

/-- One byte of a memory. -/
def memByte (m : MemUnit) (a : Nat) : Byte := (m.barn.get a).getD (m.back a)

theorem memByte_set_self (m : MemUnit) (a : Nat) (b : Byte) (h : m.barn.wf = true) :
    memByte { m with barn := m.barn.set a (if b = m.back a then none else some b) } a = b := by
  unfold memByte
  rw [get_set_self _ _ _ h]
  by_cases hb : b = m.back a
  · rw [if_pos hb]; exact hb.symm
  · simp [hb]

theorem memByte_set_other (m : MemUnit) (a j : Nat) (v : Option Byte) (h : j ≠ a) :
    memByte { m with barn := m.barn.set a v } j = memByte m j := by
  unfold memByte; rw [get_set_other _ _ _ _ h]; rfl

/-- Bytes outside a store stay as they are. -/
theorem store_other : ∀ (bs : List Byte) (m : MemUnit) (a j : Nat), (j < a ∨ a + bs.length ≤ j) →
    memByte (m.store a bs) j = memByte m j
  | [], _, _, _, _ => rfl
  | b :: bs, m, a, j, h => by
    have h' : j < a + 1 ∨ a + 1 + bs.length ≤ j := by
      rcases h with h | h
      · exact .inl (by omega)
      · exact .inr (by rw [List.length_cons] at h; omega)
    have hne : j ≠ a := by rw [List.length_cons] at h; omega
    exact (store_other bs _ (a + 1) j h').trans (memByte_set_other m a j _ hne)

/-- A read of the bytes stored gives the bytes stored. -/
theorem store_self : ∀ (bs : List Byte) (m : MemUnit) (a i : Nat), m.barn.wf = true → i < bs.length →
    memByte (m.store a bs) (a + i) = bs.getD i 0
  | [], _, _, _, _, h => by simp at h
  | b :: bs, m, a, 0, hw, _ => by
    show memByte (MemUnit.store _ (a + 1) bs) (a + 0) = b
    rw [store_other bs _ (a + 1) (a + 0) (.inl (by omega))]
    exact memByte_set_self m a b hw
  | b :: bs, m, a, i + 1, hw, h => by
    show memByte (MemUnit.store _ (a + 1) bs) (a + (i + 1)) = bs.getD i 0
    rw [show a + (i + 1) = a + 1 + i by omega]
    exact store_self bs _ (a + 1) i (wf_set _ _ _ hw) (by simpa using h)

/-- The state's read of one byte is the memory's. -/
theorem barn_eq (s : State) (a : Nat) : s.barn a = memByte s.mem a := rfl

/-- Bytes stored read back. -/
theorem barn_setBarn_self (s : State) (a i : Nat) (bs : List Byte) (h : s.mem.wf = true) (hi : i < bs.length) :
    (s.setBarn a bs).barn (a + i) = bs.getD i 0 :=
  store_self bs s.mem a i ((mem_wf_iff _).1 h).1 hi

/-- Other bytes stay. -/
theorem barn_setBarn_other (s : State) (a j : Nat) (bs : List Byte) (h : j < a ∨ a + bs.length ≤ j) :
    (s.setBarn a bs).barn j = s.barn j := store_other bs s.mem a j h

theorem mem_wf_poison (m : MemUnit) (p : Tbl Bool) (h : m.wf = true) (hp : p.wf = true) :
    MemUnit.wf { m with poison := p } = true := by
  rw [mem_wf_iff] at h ⊢; exact ⟨h.1, hp, h.2.2⟩

theorem mem_poison_wf {m : MemUnit} (h : m.wf = true) : m.poison.wf = true := ((mem_wf_iff m).1 h).2.1

/-! ### The register space -/

theorem hub_wf_iff (h : Hub) : h.wf = true ↔
    h.regs.wf = true ∧ h.cnts.wf = true ∧ h.tabs.wf = true ∧ h.blank.wf = true ∧ h.stageLo.wf = true
      ∧ h.latchHi.wf = true ∧ h.stageTab.wf = true ∧ ∀ e ∈ h.regs, e.2 ≠ some (regReset e.1) := by
  simp [Hub.wf, and_assoc]

/-- Registers left by a filter keep the form. -/
theorem regs_filter {t : Tbl (Option Word)} (p : Nat × Option Word → Bool)
    (h : ∀ e ∈ t, e.2 ≠ some (regReset e.1)) : ∀ e ∈ List.filter p t, e.2 ≠ some (regReset e.1) :=
  fun e he => h e (List.mem_filter.1 he).1

/-- Setting a register keeps the form. -/
theorem hub_wf_setRg (h : Hub) (a : Nat) (v : Word) (hw : h.wf = true) :
    Hub.wf { h with regs := h.regs.set a (if v = regReset a then none else some v) } = true := by
  rw [hub_wf_iff] at hw ⊢
  obtain ⟨h1, h2, h3, h4, h5, h6, h7, h8⟩ := hw
  refine ⟨wf_set _ _ _ h1, h2, h3, h4, h5, h6, h7, fun e he => ?_⟩
  rcases mem_set _ _ _ _ he with ⟨rfl, hv⟩ | he
  · by_cases hb : v = regReset a <;> simp [hb]
  · exact h8 e he

/-- A register reads as what was written. -/
theorem rg_setRg_self (s : State) (a : Nat) (v : Word) (h : s.hub.wf = true) : (s.setRg a v).rg a = v := by
  have hw := ((hub_wf_iff _).1 h).1
  show ((Tbl.set s.hub.regs a (if v = regReset a then none else some v)).get a).getD (regReset a) = v
  rw [get_set_self _ _ _ hw]
  by_cases hb : v = regReset a <;> simp [hb]

/-- Other registers stay. -/
theorem rg_setRg_other (s : State) (a b : Nat) (v : Word) (h : b ≠ a) : (s.setRg a v).rg b = s.rg b := by
  show ((Tbl.set s.hub.regs a _).get b).getD (regReset b) = (s.hub.regs.get b).getD (regReset b)
  rw [get_set_other _ _ _ _ h]

theorem cnt_setCnt_self (s : State) (a : Nat) (v : BitVec 64) (h : s.hub.wf = true) : (s.setCnt a v).cnt a = v :=
  get_set_self _ _ _ ((hub_wf_iff _).1 h).2.1

theorem cnt_setCnt_other (s : State) (a b : Nat) (v : BitVec 64) (h : b ≠ a) : (s.setCnt a v).cnt b = s.cnt b :=
  get_set_other _ _ _ _ h

end Sys2Proof.Machine
end

