-- ==== Sys2Proof/Laws/InvBase.lean ====
section
/-! SUPPORT. The invariant of every step: what keeps it trivially, and the operations that write the barn and the
register space. -/

set_option Elab.async false

namespace Sys2Proof.Machine
open Sys2Proof

variable {pmk : Nat} {z : State}

/-- The parts `pmk` cover the parts `m`. -/
def Cov (pmk m : Nat) : Prop := pmk &&& m = m

theorem cov_sub {m n : Nat} (h : Cov pmk m) (hn : m &&& n = n) : Cov pmk n := by
  unfold Cov at *
  rw [← hn, ← Nat.and_assoc, h]

theorem cov_bit {m k : Nat} (h : Cov pmk m) (hk : m.testBit k = true) : pmk.testBit k = true := by
  have := congrArg (Nat.testBit · k) (show pmk &&& m = m from h)
  simp only [Nat.testBit_and, hk, Bool.and_true] at this
  exact this

/-- A change of one unit, or of none. -/
theorem keeps_of {s t : State} (h : Keeps pmk z s) (hi : t.Inv) (hq : t.pending = s.pending) (ho : s.out <+: t.out)
    (hf : s.free ≤ t.free) (hn : s.nextId ≤ t.nextId) (m : Nat) (hu : Cov pmk m)
    (hm : ∀ p : Place, m.testBit p.bit = false → same s t p) : Keeps pmk z t where
  inv := hi
  queue := hq.trans h.queue
  out := h.out.trans ho
  free := Nat.le_trans h.free hf
  names := Nat.le_trans h.names hn
  frame := fun p hp => by
    have h1 := h.frame p hp
    have h2 := hm p (by
      cases hb : m.testBit p.bit with
      | false => rfl
      | true => rw [cov_bit hu hb] at hp; exact absurd hp (by decide))
    cases p <;> simp_all [same]

/-- A command that may change every part keeps the forms, the queue, the outputs and the counters. -/
theorem keeps_all {s t : State} (h : Keeps pmk z s) (hu : Cov pmk 134217727) (hi : t.Inv) (hp : t.pending = s.pending)
    (ho : t.out = s.out) (hf : t.free = s.free) (hn : t.nextId = s.nextId) : Keeps pmk z t :=
  keeps_of h hi hp (ho ▸ List.prefix_refl _) (hf ▸ Nat.le_refl _) (hn ▸ Nat.le_refl _) 134217727 hu fun p hp => by
    cases p <;> exact absurd hp (by decide)

/-- A state keeps all of itself. -/
theorem keeps_refl {s : State} (h : s.Inv) : Keeps pmk s s :=
  ⟨h, rfl, List.prefix_refl _, Nat.le_refl _, Nat.le_refl _, fun p _ => by cases p <;> simp [same]⟩

theorem State.modTime_inv (f : TimeUnit → TimeUnit) (s : State) (h : Keeps pmk z s)
    (hu : Cov pmk 16 := by exact cov_sub (by assumption) rfl) : Keeps pmk z (s.modTime f) :=
  keeps_of h ⟨h.inv.1, h.inv.2⟩ rfl (List.prefix_refl _) (Nat.le_refl _) (Nat.le_refl _) 16 hu fun p hp => by
    cases p <;> first | exact ⟨rfl, rfl, rfl, rfl⟩ | exact ⟨rfl, rfl⟩ | rfl | exact absurd hp (by decide)

theorem State.modLink_inv (f : LinkUnit → LinkUnit) (s : State) (h : Keeps pmk z s)
    (hu : Cov pmk 32 := by exact cov_sub (by assumption) rfl) : Keeps pmk z (s.modLink f) :=
  keeps_of h ⟨h.inv.1, h.inv.2⟩ rfl (List.prefix_refl _) (Nat.le_refl _) (Nat.le_refl _) 32 hu fun p hp => by
    cases p <;> first | exact ⟨rfl, rfl, rfl, rfl⟩ | exact ⟨rfl, rfl⟩ | rfl | exact absurd hp (by decide)

theorem State.modSw_inv (f : SwitchUnit → SwitchUnit) (s : State) (h : Keeps pmk z s)
    (hu : Cov pmk 64 := by exact cov_sub (by assumption) rfl) : Keeps pmk z (s.modSw f) :=
  keeps_of h ⟨h.inv.1, h.inv.2⟩ rfl (List.prefix_refl _) (Nat.le_refl _) (Nat.le_refl _) 64 hu fun p hp => by
    cases p <;> first | exact ⟨rfl, rfl, rfl, rfl⟩ | exact ⟨rfl, rfl⟩ | rfl | exact absurd hp (by decide)

theorem State.modExt_inv (f : ExtUnit → ExtUnit) (s : State) (h : Keeps pmk z s)
    (hu : Cov pmk 256 := by exact cov_sub (by assumption) rfl) : Keeps pmk z (s.modExt f) :=
  keeps_of h ⟨h.inv.1, h.inv.2⟩ rfl (List.prefix_refl _) (Nat.le_refl _) (Nat.le_refl _) 256 hu fun p hp => by
    cases p <;> first | exact ⟨rfl, rfl, rfl, rfl⟩ | exact ⟨rfl, rfl⟩ | rfl | exact absurd hp (by decide)

theorem State.modTier_inv (f : TierUnit → TierUnit) (s : State) (h : Keeps pmk z s)
    (hu : Cov pmk 512 := by exact cov_sub (by assumption) rfl) : Keeps pmk z (s.modTier f) :=
  keeps_of h ⟨h.inv.1, h.inv.2⟩ rfl (List.prefix_refl _) (Nat.le_refl _) (Nat.le_refl _) 512 hu fun p hp => by
    cases p <;> first | exact ⟨rfl, rfl, rfl, rfl⟩ | exact ⟨rfl, rfl⟩ | rfl | exact absurd hp (by decide)

theorem State.modTtu_inv (f : TtuUnit → TtuUnit) (s : State) (h : Keeps pmk z s)
    (hu : Cov pmk 1024 := by exact cov_sub (by assumption) rfl) : Keeps pmk z (s.modTtu f) :=
  keeps_of h ⟨h.inv.1, h.inv.2⟩ rfl (List.prefix_refl _) (Nat.le_refl _) (Nat.le_refl _) 1024 hu fun p hp => by
    cases p <;> first | exact ⟨rfl, rfl, rfl, rfl⟩ | exact ⟨rfl, rfl⟩ | rfl | exact absurd hp (by decide)

theorem State.modFlt_inv (f : FaultUnit → FaultUnit) (s : State) (h : Keeps pmk z s)
    (hu : Cov pmk 2048 := by exact cov_sub (by assumption) rfl) : Keeps pmk z (s.modFlt f) :=
  keeps_of h ⟨h.inv.1, h.inv.2⟩ rfl (List.prefix_refl _) (Nat.le_refl _) (Nat.le_refl _) 2048 hu fun p hp => by
    cases p <;> first | exact ⟨rfl, rfl, rfl, rfl⟩ | exact ⟨rfl, rfl⟩ | rfl | exact absurd hp (by decide)

theorem State.modObs_inv (f : ObsUnit → ObsUnit) (s : State) (h : Keeps pmk z s)
    (hu : Cov pmk 4096 := by exact cov_sub (by assumption) rfl) : Keeps pmk z (s.modObs f) :=
  keeps_of h ⟨h.inv.1, h.inv.2⟩ rfl (List.prefix_refl _) (Nat.le_refl _) (Nat.le_refl _) 4096 hu fun p hp => by
    cases p <;> first | exact ⟨rfl, rfl, rfl, rfl⟩ | exact ⟨rfl, rfl⟩ | rfl | exact absurd hp (by decide)

theorem State.modSec_inv (f : SecUnit → SecUnit) (s : State) (h : Keeps pmk z s)
    (hu : Cov pmk 8192 := by exact cov_sub (by assumption) rfl) : Keeps pmk z (s.modSec f) :=
  keeps_of h ⟨h.inv.1, h.inv.2⟩ rfl (List.prefix_refl _) (Nat.le_refl _) (Nat.le_refl _) 8192 hu fun p hp => by
    cases p <;> first | exact ⟨rfl, rfl, rfl, rfl⟩ | exact ⟨rfl, rfl⟩ | rfl | exact absurd hp (by decide)

theorem State.modHost_inv (f : HostUnit → HostUnit) (s : State) (h : Keeps pmk z s)
    (hu : Cov pmk 16384 := by exact cov_sub (by assumption) rfl) : Keeps pmk z (s.modHost f) :=
  keeps_of h ⟨h.inv.1, h.inv.2⟩ rfl (List.prefix_refl _) (Nat.le_refl _) (Nat.le_refl _) 16384 hu fun p hp => by
    cases p <;> first | exact ⟨rfl, rfl, rfl, rfl⟩ | exact ⟨rfl, rfl⟩ | rfl | exact absurd hp (by decide)

theorem State.modChain_inv (f : ChainUnit → ChainUnit) (s : State) (h : Keeps pmk z s)
    (hu : Cov pmk 32768 := by exact cov_sub (by assumption) rfl) : Keeps pmk z (s.modChain f) :=
  keeps_of h ⟨h.inv.1, h.inv.2⟩ rfl (List.prefix_refl _) (Nat.le_refl _) (Nat.le_refl _) 32768 hu fun p hp => by
    cases p <;> first | exact ⟨rfl, rfl, rfl, rfl⟩ | exact ⟨rfl, rfl⟩ | rfl | exact absurd hp (by decide)

theorem State.modPwr_inv (f : PwrUnit → PwrUnit) (s : State) (h : Keeps pmk z s)
    (hu : Cov pmk 65536 := by exact cov_sub (by assumption) rfl) : Keeps pmk z (s.modPwr f) :=
  keeps_of h ⟨h.inv.1, h.inv.2⟩ rfl (List.prefix_refl _) (Nat.le_refl _) (Nat.le_refl _) 65536 hu fun p hp => by
    cases p <;> first | exact ⟨rfl, rfl, rfl, rfl⟩ | exact ⟨rfl, rfl⟩ | rfl | exact absurd hp (by decide)

theorem State.modHome_inv (f : HomeUnit → HomeUnit) (s : State) (h : Keeps pmk z s)
    (hu : Cov pmk 131072 := by exact cov_sub (by assumption) rfl) : Keeps pmk z (s.modHome f) :=
  keeps_of h ⟨h.inv.1, h.inv.2⟩ rfl (List.prefix_refl _) (Nat.le_refl _) (Nat.le_refl _) 131072 hu fun p hp => by
    cases p <;> first | exact ⟨rfl, rfl, rfl, rfl⟩ | exact ⟨rfl, rfl⟩ | rfl | exact absurd hp (by decide)

theorem State.modCtr_inv (f : CtrUnit → CtrUnit) (s : State) (h : Keeps pmk z s)
    (hu : Cov pmk 262144 := by exact cov_sub (by assumption) rfl) : Keeps pmk z (s.modCtr f) :=
  keeps_of h ⟨h.inv.1, h.inv.2⟩ rfl (List.prefix_refl _) (Nat.le_refl _) (Nat.le_refl _) 262144 hu fun p hp => by
    cases p <;> first | exact ⟨rfl, rfl, rfl, rfl⟩ | exact ⟨rfl, rfl⟩ | rfl | exact absurd hp (by decide)

theorem State.modCarv_inv (f : CarvUnit → CarvUnit) (s : State) (h : Keeps pmk z s)
    (hu : Cov pmk 524288 := by exact cov_sub (by assumption) rfl) : Keeps pmk z (s.modCarv f) :=
  keeps_of h ⟨h.inv.1, h.inv.2⟩ rfl (List.prefix_refl _) (Nat.le_refl _) (Nat.le_refl _) 524288 hu fun p hp => by
    cases p <;> first | exact ⟨rfl, rfl, rfl, rfl⟩ | exact ⟨rfl, rfl⟩ | rfl | exact absurd hp (by decide)

theorem State.modTile_inv (f : TileUnit → TileUnit) (s : State) (h : Keeps pmk z s)
    (hu : Cov pmk 1048576 := by exact cov_sub (by assumption) rfl) : Keeps pmk z (s.modTile f) :=
  keeps_of h ⟨h.inv.1, h.inv.2⟩ rfl (List.prefix_refl _) (Nat.le_refl _) (Nat.le_refl _) 1048576 hu fun p hp => by
    cases p <;> first | exact ⟨rfl, rfl, rfl, rfl⟩ | exact ⟨rfl, rfl⟩ | rfl | exact absurd hp (by decide)

theorem State.modKv_inv (f : KvUnit → KvUnit) (s : State) (h : Keeps pmk z s)
    (hu : Cov pmk 2097152 := by exact cov_sub (by assumption) rfl) : Keeps pmk z (s.modKv f) :=
  keeps_of h ⟨h.inv.1, h.inv.2⟩ rfl (List.prefix_refl _) (Nat.le_refl _) (Nat.le_refl _) 2097152 hu fun p hp => by
    cases p <;> first | exact ⟨rfl, rfl, rfl, rfl⟩ | exact ⟨rfl, rfl⟩ | rfl | exact absurd hp (by decide)

theorem State.modShf_inv (f : ShfUnit → ShfUnit) (s : State) (h : Keeps pmk z s)
    (hu : Cov pmk 4194304 := by exact cov_sub (by assumption) rfl) : Keeps pmk z (s.modShf f) :=
  keeps_of h ⟨h.inv.1, h.inv.2⟩ rfl (List.prefix_refl _) (Nat.le_refl _) (Nat.le_refl _) 4194304 hu fun p hp => by
    cases p <;> first | exact ⟨rfl, rfl, rfl, rfl⟩ | exact ⟨rfl, rfl⟩ | rfl | exact absurd hp (by decide)

theorem State.modExd_inv (f : ExdUnit → ExdUnit) (s : State) (h : Keeps pmk z s)
    (hu : Cov pmk 8388608 := by exact cov_sub (by assumption) rfl) : Keeps pmk z (s.modExd f) :=
  keeps_of h ⟨h.inv.1, h.inv.2⟩ rfl (List.prefix_refl _) (Nat.le_refl _) (Nat.le_refl _) 8388608 hu fun p hp => by
    cases p <;> first | exact ⟨rfl, rfl, rfl, rfl⟩ | exact ⟨rfl, rfl⟩ | rfl | exact absurd hp (by decide)

theorem State.emit_inv (e : Emit) (s : State) (h : Keeps pmk z s)
    (hu : Cov pmk 16777216 := by exact cov_sub (by assumption) rfl) : Keeps pmk z (s.emit e) :=
  keeps_of h ⟨h.inv.1, h.inv.2⟩ rfl (List.prefix_append _ _) (Nat.le_refl _) (Nat.le_refl _) 16777216 hu fun p hp => by
    cases p <;> first | exact ⟨rfl, rfl, rfl, rfl⟩ | exact ⟨rfl, rfl⟩ | rfl | exact absurd hp (by decide)

theorem State.takeFrees_inv (n : Nat) (s : State) (h : Keeps pmk z s)
    (hu : Cov pmk 33554432 := by exact cov_sub (by assumption) rfl) : Keeps pmk z (s.takeFrees n) :=
  keeps_of h ⟨h.inv.1, h.inv.2⟩ rfl (List.prefix_refl _) (Nat.le_add_right _ _) (Nat.le_refl _) 33554432 hu fun p hp => by
    cases p <;> first | exact ⟨rfl, rfl, rfl, rfl⟩ | exact ⟨rfl, rfl⟩ | rfl | exact absurd hp (by decide)

theorem State.takeFree_inv (s : State) (h : Keeps pmk z s)
    (hu : Cov pmk 33554432 := by exact cov_sub (by assumption) rfl) : Keeps pmk z s.takeFree := State.takeFrees_inv 1 s h

theorem State.takeNames_inv (n : Nat) (s : State) (h : Keeps pmk z s)
    (hu : Cov pmk 67108864 := by exact cov_sub (by assumption) rfl) : Keeps pmk z (s.takeNames n) :=
  keeps_of h ⟨h.inv.1, h.inv.2⟩ rfl (List.prefix_refl _) (Nat.le_refl _) (Nat.le_add_right _ _) 67108864 hu fun p hp => by
    cases p <;> first | exact ⟨rfl, rfl, rfl, rfl⟩ | exact ⟨rfl, rfl⟩ | rfl | exact absurd hp (by decide)

/-- A new memory in its form. -/
theorem modMem_inv {f : MemUnit → MemUnit} {s : State} (h : Keeps pmk z s) (hf : (f s.mem).wf = true)
    (hu : Cov pmk 128 := by exact cov_sub (by assumption) rfl) : Keeps pmk z (s.modMem f) :=
  keeps_of h ⟨hf, h.inv.2⟩ rfl (List.prefix_refl _) (Nat.le_refl _) (Nat.le_refl _) 128 hu fun p hp => by
    cases p <;> first | exact ⟨rfl, rfl, rfl, rfl⟩ | exact ⟨rfl, rfl⟩ | rfl | exact absurd hp (by decide)

/-- A new register space in its form, of which the parts `m` change. -/
theorem modHub_inv {f : Hub → Hub} {s : State} (h : Keeps pmk z s) (m : Nat) (hf : (f s.hub).wf = true)
    (hm : ∀ p : Place, m.testBit p.bit = false → same s (s.modHub f) p)
    (hu : Cov pmk m := by exact cov_sub (by assumption) rfl) : Keeps pmk z (s.modHub f) :=
  keeps_of h ⟨h.inv.1, hf⟩ rfl (List.prefix_refl _) (Nat.le_refl _) (Nat.le_refl _) m hu hm

/-- The proof that a change of the register space changes only the parts it says. -/
theorem hub_frame {f : Hub → Hub} {s : State} {m : Nat} (hr : m.testBit 0 = true ∨ (f s.hub).regs = s.hub.regs)
    (hc : m.testBit 1 = true ∨ (f s.hub).cnts = s.hub.cnts)
    (ht : m.testBit 2 = true ∨ (f s.hub).tabs = s.hub.tabs ∧ (f s.hub).blank = s.hub.blank)
    (hs : m.testBit 3 = true ∨ (f s.hub).stageLo = s.hub.stageLo ∧ (f s.hub).latchHi = s.hub.latchHi
      ∧ (f s.hub).stageTab = s.hub.stageTab ∧ (f s.hub).refused = s.hub.refused) :
    ∀ p : Place, m.testBit p.bit = false → same s (s.modHub f) p := by
  intro p hp
  have go {k : Nat} {q : Prop} (h : m.testBit k = true ∨ q) (hk : m.testBit k = false) : q := by
    rcases h with h | h
    · rw [h] at hk; exact absurd hk (by decide)
    · exact h
  cases p <;> first | rfl | exact go hr hp | exact go hc hp | exact go ht hp | exact go hs hp

/-- A fold of steps that keep the invariant keeps it. -/
theorem foldl_inv {β : Type} {f : State → β → State} : ∀ {l : List β} {s : State} (_ : Keeps pmk z s)
    (_ : ∀ (t : State) (b : β), Keeps pmk z t → Keeps pmk z (f t b)), Keeps pmk z (l.foldl f s)
  | [], _, h, _ => h
  | b :: l, s, h, hf => foldl_inv (l := l) (s := f s b) (hf s b h) hf

theorem foldl_snd_inv {α β : Type} {f : α × State → β → α × State} : ∀ {l : List β} {p : α × State} (_ : Keeps pmk z p.2)
    (_ : ∀ (t : α × State) (b : β), Keeps pmk z t.2 → Keeps pmk z (f t b).2), Keeps pmk z (l.foldl f p).2
  | [], _, h, _ => h
  | b :: l, p, h, hf => foldl_snd_inv (l := l) (p := f p b) (hf p b h) hf

/-- Both branches keep the invariant. -/
theorem ite_inv {c : Prop} [Decidable c] {a b : State} (ha : Keeps pmk z a) (hb : Keeps pmk z b) : Keeps pmk z (if c then a else b) := by
  split
  · exact ha
  · exact hb

theorem ite_snd_inv {α : Type} {c : Prop} [Decidable c] {a b : α × State} (ha : Keeps pmk z a.2) (hb : Keeps pmk z b.2) :
    Keeps pmk z (if c then a else b).2 := by
  split
  · exact ha
  · exact hb

theorem ite_snd2_inv {α β : Type} {c : Prop} [Decidable c] {a b : α × β × State} (ha : Keeps pmk z a.2.2)
    (hb : Keeps pmk z b.2.2) : Keeps pmk z (if c then a else b).2.2 := by
  split
  · exact ha
  · exact hb

theorem ite_safe {c : Prop} [Decidable c] {a b : Host.Outcome State Fault Refusal} (ha : Safe pmk z a) (hb : Safe pmk z b) :
    Safe pmk z (if c then a else b) := by
  split
  · exact ha
  · exact hb

/-- What an operation that may refuse gives is safe. -/
def OptInv (pmk : Nat) (z : State) : Option State → Prop
  | some t => Keeps pmk z t
  | none => True

theorem opt_some {t : State} (h : Keeps pmk z t) : OptInv pmk z (some t) := h

theorem opt_none : OptInv pmk z none := True.intro

theorem ite_opt {c : Prop} [Decidable c] {a b : Option State} (ha : OptInv pmk z a) (hb : OptInv pmk z b) :
    OptInv pmk z (if c then a else b) := by
  split
  · exact ha
  · exact hb

theorem opt_of_eq {o : Option State} {t : State} (h : o = some t) (ho : OptInv pmk z o) : Keeps pmk z t := by
  subst h; exact ho

/-- The same where the state comes with two values. -/
def OptInv3 (pmk : Nat) (z : State) {α β : Type} : Option (α × β × State) → Prop
  | some r => Keeps pmk z r.2.2
  | none => True

theorem opt3_some {α β : Type} {a : α} {b : β} {t : State} (h : Keeps pmk z t) : OptInv3 pmk z (some (a, b, t)) := h

theorem opt3_none {α β : Type} : OptInv3 pmk z (none : Option (α × β × State)) := True.intro

theorem ite_opt3 {α β : Type} {c : Prop} [Decidable c] {a b : Option (α × β × State)} (ha : OptInv3 pmk z a) (hb : OptInv3 pmk z b) :
    OptInv3 pmk z (if c then a else b) := by
  split
  · exact ha
  · exact hb

theorem opt3_map {α β γ : Type} {o : Option γ} {f : γ → α × β × State} (h : ∀ x, Keeps pmk z (f x).2.2) :
    OptInv3 pmk z (o.map f) := by
  cases o with
  | none => exact True.intro
  | some x => exact h x

theorem opt3_of_eq {α β : Type} {o : Option (α × β × State)} {r : α × β × State} (h : o = some r) (ho : OptInv3 pmk z o) :
    Keeps pmk z r.2.2 := by
  subst h; exact ho

theorem safe_next {s : State} (h : Keeps pmk z s) : Safe pmk z (.next s) := h

theorem State.setRg_inv (a : Nat) (v : Word) (s : State) (h : Keeps pmk z s)
    (hu : Cov pmk 1 := by exact cov_sub (by assumption) rfl) : Keeps pmk z (s.setRg a v) :=
  modHub_inv h 1 (hub_wf_setRg _ _ _ h.inv.2) (hub_frame (.inl rfl) (.inr rfl) (.inr ⟨rfl, rfl⟩) (.inr ⟨rfl, rfl, rfl, rfl⟩))

theorem State.setCnt_inv (a : Nat) (v : BitVec 64) (s : State) (h : Keeps pmk z s)
    (hu : Cov pmk 2 := by exact cov_sub (by assumption) rfl) : Keeps pmk z (s.setCnt a v) := by
  obtain ⟨h1, h2, h3⟩ := (hub_wf_iff _).1 h.inv.2
  have g := wf_set _ a v h2
  exact modHub_inv h 2 ((hub_wf_iff _).2 ⟨h1, g, h3⟩)
    (hub_frame (.inr rfl) (.inl rfl) (.inr ⟨rfl, rfl⟩) (.inr ⟨rfl, rfl, rfl, rfl⟩))

theorem hub_setTab_wf (a : Nat) (v : Word) (h : Hub) (hw : h.wf = true) : (Hub.setTab a v h).wf = true := by
  obtain ⟨h1, h2, h3, h4, h5⟩ := (hub_wf_iff _).1 hw
  exact (hub_wf_iff _).2 ⟨h1, h2, wf_set _ _ _ h3, wf_del _ _ (wf_del _ _ h4), h5⟩

theorem State.setEntry_inv (a n : Nat) : ∀ (v : Nat) (s : State), Keeps pmk z s →
    (hu : Cov pmk 4 := by exact cov_sub (by assumption) rfl) → Keeps pmk z (s.setEntry a n v) := by
  induction n generalizing a with
  | zero => intro _ _ h _; exact h
  | succ n ih =>
    intro v s h hu
    unfold State.setEntry
    exact ih _ _ _ (modHub_inv h 4 (hub_setTab_wf _ _ _ h.inv.2)
      (hub_frame (.inr rfl) (.inr rfl) (.inl rfl) (.inr ⟨rfl, rfl, rfl, rfl⟩))) hu

theorem State.setBarn_inv (a : Nat) (bs : List Byte) (s : State) (h : Keeps pmk z s)
    (hu : Cov pmk 128 := by exact cov_sub (by assumption) rfl) : Keeps pmk z (s.setBarn a bs) :=
  modMem_inv h (mem_wf_store _ _ _ h.inv.1)

theorem State.setPoison_inv (line : Nat) (v : Bool) (s : State) (h : Keeps pmk z s)
    (hu : Cov pmk 128 := by exact cov_sub (by assumption) rfl) : Keeps pmk z (s.setPoison line v) :=
  modMem_inv h (mem_wf_poison _ _ h.inv.1 (wf_set _ _ _ (mem_poison_wf h.inv.1)))

end Sys2Proof.Machine
end

