-- ==== Sys2Proof/Laws/InvFabric.lean ====
section
/-! SUPPORT. What every function keeps of `State.Inv`, each by the lemmas of the functions it calls:
the shared operations, the fault unit, routing, the request checks. -/

set_option Elab.async false

namespace Sys2Proof.Machine
open Sys2Proof
set_option linter.unusedSimpArgs false
set_option linter.unusedVariables false
variable {pmk : Nat} {z : State}

/-! ### Ops -/

theorem State.setRf_inv (a hi lo v : Nat) (s : State) (h_s : Keeps pmk z s)  (hu : Cov pmk 1 := by exact cov_sub (by assumption) rfl) :
    Keeps pmk z (State.setRf a hi lo v s) := by
  unfold State.setRf
  repeat' first
    | (with_reducible first | assumption | apply State.setRg_inv)

theorem State.setRg64_inv (a v : Nat) (s : State) (h_s : Keeps pmk z s)  (hu : Cov pmk 1 := by exact cov_sub (by assumption) rfl) :
    Keeps pmk z (State.setRg64 a v s) := by
  unfold State.setRg64
  repeat' first
    | (with_reducible first | assumption | apply State.setRg_inv)

theorem State.bump_inv (a : Nat) (n : Nat) (s : State) (h_s : Keeps pmk z s)  (hu : Cov pmk 2 := by exact cov_sub (by assumption) rfl) :
    Keeps pmk z (State.bump a n s) := by
  unfold State.bump
  repeat' first
    | (with_reducible first | assumption | apply State.setCnt_inv)

theorem State.bumpLo_inv (a : Nat) (s : State) (h_s : Keeps pmk z s)  (hu : Cov pmk 2 := by exact cov_sub (by assumption) rfl) :
    Keeps pmk z (State.bumpLo a s) := by
  unfold State.bumpLo
  repeat' first
    | (with_reducible first | assumption | apply State.setCnt_inv)

theorem State.bumpHi_inv (a : Nat) (s : State) (h_s : Keeps pmk z s)  (hu : Cov pmk 2 := by exact cov_sub (by assumption) rfl) :
    Keeps pmk z (State.bumpHi a s) := by
  unfold State.bumpHi
  repeat' first
    | (with_reducible first | assumption | apply State.setCnt_inv)

theorem State.setBarnNum_inv (a n v : Nat) (s : State) (h_s : Keeps pmk z s)  (hu : Cov pmk 128 := by exact cov_sub (by assumption) rfl) :
    Keeps pmk z (State.setBarnNum a n v s) := by
  unfold State.setBarnNum
  repeat' first
    | (with_reducible first | assumption | apply State.setBarn_inv)

theorem State.storeMarked_inv (a : Nat) (bs : List Byte) (mark : Bool) (s : State) (h_s : Keeps pmk z s)  (hu : Cov pmk 128 := by exact cov_sub (by assumption) rfl) :
    Keeps pmk z (State.storeMarked a bs mark s) := by
  unfold State.storeMarked
  repeat' first
    | (refine fun _ => ?_)
    | (with_reducible first | assumption | apply State.setBarn_inv | apply State.setPoison_inv | apply foldl_inv)

theorem State.modPort_inv (p : Nat) (f : Port → Port) (s : State) (h_s : Keeps pmk z s)  (hu : Cov pmk 32 := by exact cov_sub (by assumption) rfl) :
    Keeps pmk z (State.modPort p f s) := by
  unfold State.modPort
  repeat' first
    | (with_reducible first | assumption | apply State.modLink_inv)

/-! ### Route -/

theorem State.putFlowlet_inv (k g i : Nat) (s : State) (h_s : Keeps pmk z s)  (hu : Cov pmk 64 := by exact cov_sub (by assumption) rfl) :
    Keeps pmk z (State.putFlowlet k g i s) := by
  unfold State.putFlowlet
  repeat' first
    | (with_reducible first | assumption | apply State.modSw_inv)

theorem State.freshFlowlet_inv (k die g : Nat) (mem : List Nat) (a : Option Nat) (s : State) (h_s : Keeps pmk z s)  (hu : Cov pmk 66 := by exact cov_sub (by assumption) rfl) :
    Keeps pmk z (State.freshFlowlet k die g mem a s).2 := by
  unfold State.freshFlowlet
  repeat' first
    | (with_reducible first | assumption | exact cov_sub hu rfl | apply State.bump_inv | apply State.putFlowlet_inv | apply ite_inv)
    | split

theorem State.groupMember_inv (s : State) (die g mode : Nat) (mem : List Nat) (p : Packet) (h_s : Keeps pmk z s)  (hu : Cov pmk 66 := by exact cov_sub (by assumption) rfl) :
    Keeps pmk z (State.groupMember s die g mode mem p).2 := by
  unfold State.groupMember
  repeat' first
    | (with_reducible first | assumption | exact cov_sub hu rfl | apply State.freshFlowlet_inv | apply State.putFlowlet_inv | apply ite_snd_inv)
    | ((try lift_lets); intro x; generalize x = y; clear x)
    | split

theorem State.resolve_inv (s : State) (die : Nat) (p : Packet) (eid cap1 : Nat) (h_s : Keeps pmk z s)  (hu : Cov pmk 66 := by exact cov_sub (by assumption) rfl) :
    Keeps pmk z (State.resolve s die p eid cap1).2 := by
  unfold State.resolve
  repeat' first
    | (with_reducible first | assumption | apply State.groupMember_inv | apply ite_snd_inv)
    | ((try lift_lets); intro x; generalize x = y; clear x)
    | (split <;> first | (rename_i heq; have hi := (congrArg (fun p => Keeps pmk z (Prod.snd (Prod.snd p))) heq).mp ?_; try dsimp only at hi) | (rename_i heq; have hi := (congrArg (fun p => Keeps pmk z (Prod.snd p)) heq).mp ?_; try dsimp only at hi) | (rename_i heq _; have hi := (congrArg (fun p => Keeps pmk z (Prod.snd (Prod.snd p))) heq).mp ?_; try dsimp only at hi) | (rename_i heq _; have hi := (congrArg (fun p => Keeps pmk z (Prod.snd p)) heq).mp ?_; try dsimp only at hi))
    | split

theorem State.lookup_inv (s : State) (die : Nat) (p : Packet) (h_s : Keeps pmk z s)  (hu : Cov pmk 66 := by exact cov_sub (by assumption) rfl) :
    Keeps pmk z (State.lookup s die p).2.2 := by
  unfold State.lookup
  repeat' first
    | (with_reducible first | assumption | apply State.resolve_inv | apply ite_snd2_inv)
    | split

theorem State.holdCells_inv (from_ : Ingress) (die c n : Nat) (s : State) (h_s : Keeps pmk z s)  (hu : Cov pmk 96 := by exact cov_sub (by assumption) rfl) :
    Keeps pmk z (State.holdCells from_ die c n s) := by
  unfold State.holdCells
  repeat' first
    | (with_reducible first | assumption | exact cov_sub hu rfl | apply State.modPort_inv | apply State.modSw_inv)
    | ((try lift_lets); intro x; have hx : Keeps pmk z x := ?_; revert hx; generalize x = y; clear x; intro hx; rotate_left; (dsimp -zeta only [x]))
    | split

theorem State.freeCells_inv (from_ : Ingress) (die c n epoch : Nat) (s : State) (h_s : Keeps pmk z s)  (hu : Cov pmk 96 := by exact cov_sub (by assumption) rfl) :
    Keeps pmk z (State.freeCells from_ die c n epoch s) := by
  unfold State.freeCells
  repeat' first
    | (with_reducible first | assumption | exact cov_sub hu rfl | apply State.modPort_inv | apply State.modSw_inv)
    | ((try lift_lets); intro x; have hx : Keeps pmk z x := ?_; revert hx; generalize x = y; clear x; intro hx; rotate_left; (dsimp -zeta only [x]))
    | split

theorem State.store_inv (from_ : Ingress) (die occCls cells : Nat) (items : List Queued) (s : State) (h_s : Keeps pmk z s)  (hu : Cov pmk 67108960 := by exact cov_sub (by assumption) rfl) :
    Keeps pmk z (State.store from_ die occCls cells items s) := by
  unfold State.store
  repeat' first
    | (with_reducible first | assumption | exact cov_sub hu rfl | apply State.holdCells_inv | apply State.modSw_inv | apply State.takeNames_inv)

theorem State.copyGone_inv (id : Nat) (s : State) (h_s : Keeps pmk z s)  (hu : Cov pmk 96 := by exact cov_sub (by assumption) rfl) :
    Keeps pmk z (State.copyGone id s) := by
  unfold State.copyGone
  repeat' first
    | (with_reducible first | assumption | exact cov_sub hu rfl | apply State.freeCells_inv | apply State.modSw_inv | apply ite_inv)

theorem State.sendToPort_inv (die egress : Nat) (sh : Option Nat) (p : Packet) (s : State) (h_s : Keeps pmk z s)  (hu : Cov pmk 67108960 := by exact cov_sub (by assumption) rfl) :
    Keeps pmk z (State.sendToPort die egress sh p s) := by
  unfold State.sendToPort
  repeat' first
    | (with_reducible first | assumption | exact cov_sub hu rfl | apply State.modSw_inv | apply State.store_inv | apply ite_inv)

theorem State.deliver_inv (from_ : Ingress) (die : Nat) (p : Packet) (s : State) (h_s : Keeps pmk z s)  (hu : Cov pmk 67108960 := by exact cov_sub (by assumption) rfl) :
    Keeps pmk z (State.deliver from_ die p s) := by
  unfold State.deliver
  repeat' first
    | (with_reducible first | assumption | exact cov_sub hu rfl | apply State.holdCells_inv | apply State.modSw_inv | apply State.takeNames_inv)

theorem State.sendFor_inv (die : Nat) (sh : Option Nat) (p : Packet) (s : State) (h_s : Keeps pmk z s)  (hu : Cov pmk 67108962 := by exact cov_sub (by assumption) rfl) :
    Keeps pmk z (State.sendFor die sh p s) := by
  unfold State.sendFor
  repeat' first
    | (with_reducible first | assumption | exact cov_sub hu rfl | apply State.bump_inv | apply State.deliver_inv | apply State.lookup_inv | apply State.modSw_inv | apply State.sendToPort_inv | apply ite_inv)
    | (split <;> first | (rename_i heq; have hi := (congrArg (fun p => Keeps pmk z (Prod.snd (Prod.snd p))) heq).mp ?_; try dsimp only at hi) | (rename_i heq; have hi := (congrArg (fun p => Keeps pmk z (Prod.snd p)) heq).mp ?_; try dsimp only at hi) | (rename_i heq _; have hi := (congrArg (fun p => Keeps pmk z (Prod.snd (Prod.snd p))) heq).mp ?_; try dsimp only at hi) | (rename_i heq _; have hi := (congrArg (fun p => Keeps pmk z (Prod.snd p)) heq).mp ?_; try dsimp only at hi))

theorem State.sendOwn_inv (die : Nat) (p : Packet) (s : State) (h_s : Keeps pmk z s)  (hu : Cov pmk 67108962 := by exact cov_sub (by assumption) rfl) :
    Keeps pmk z (State.sendOwn die p s) := by
  unfold State.sendOwn
  repeat' first
    | (with_reducible first | assumption | apply State.sendFor_inv)

theorem State.consume_inv (from_ : Ingress) (p : Packet) (s : State) (h_s : Keeps pmk z s)  (hu : Cov pmk 96 := by exact cov_sub (by assumption) rfl) :
    Keeps pmk z (State.consume from_ p s) := by
  unfold State.consume
  repeat' first
    | (with_reducible first | assumption | exact cov_sub hu rfl | apply State.copyGone_inv | apply State.modSw_inv)
    | split

/-! ### Faults -/

theorem State.msix_inv (f v : Nat) (s : State) (h_s : Keeps pmk z s)  (hu : Cov pmk 16793602 := by exact cov_sub (by assumption) rfl) :
    Keeps pmk z (State.msix f v s) := by
  unfold State.msix
  repeat' first
    | (with_reducible first | assumption | exact cov_sub hu rfl | apply State.bump_inv | apply State.emit_inv | apply State.modHost_inv | apply ite_inv)

theorem State.chainSend_inv (portB : Bool) (hdr : Nat) (payload : List Byte) (s : State) (h_s : Keeps pmk z s)  (hu : Cov pmk 16777216 := by exact cov_sub (by assumption) rfl) :
    Keeps pmk z (State.chainSend portB hdr payload s) := by
  unfold State.chainSend
  repeat' first
    | (with_reducible first | assumption | apply State.emit_inv)

theorem State.chainEventOn_inv (portB : Bool) (code arg : Nat) (s : State) (h_s : Keeps pmk z s)  (hu : Cov pmk 16777216 := by exact cov_sub (by assumption) rfl) :
    Keeps pmk z (State.chainEventOn portB code arg s) := by
  unfold State.chainEventOn
  repeat' first
    | (with_reducible first | assumption | apply State.chainSend_inv)

theorem State.chainEvent_inv (code arg : Nat) (s : State) (h_s : Keeps pmk z s)  (hu : Cov pmk 16777216 := by exact cov_sub (by assumption) rfl) :
    Keeps pmk z (State.chainEvent code arg s) := by
  unfold State.chainEvent
  repeat' first
    | (with_reducible first | assumption | apply State.chainEventOn_inv)

theorem State.pfVector_inv (v : Nat) (s : State) (h_s : Keeps pmk z s)  (hu : Cov pmk 16793602 := by exact cov_sub (by assumption) rfl) :
    Keeps pmk z (State.pfVector v s) := by
  unfold State.pfVector
  repeat' first
    | (with_reducible first | assumption | exact cov_sub hu rfl | apply State.chainEvent_inv | apply State.msix_inv | apply ite_inv)

theorem State.intMessage_inv (k : PageKind) (i : Nat) (s : State) (h_s : Keeps pmk z s)  (hu : Cov pmk 16793602 := by exact cov_sub (by assumption) rfl) :
    Keeps pmk z (State.intMessage k i s) := by
  unfold State.intMessage
  repeat' first
    | (refine fun _ => ?_)
    | (with_reducible first | assumption | apply State.msix_inv | apply State.pfVector_inv | apply foldl_inv | apply ite_inv)

theorem State.raiseInt_inv (k : PageKind) (i b : Nat) (s : State) (h_s : Keeps pmk z s)  (hu : Cov pmk 16793603 := by exact cov_sub (by assumption) rfl) :
    Keeps pmk z (State.raiseInt k i b s) := by
  unfold State.raiseInt
  repeat' first
    | (with_reducible first | assumption | exact cov_sub hu rfl | apply State.intMessage_inv | apply State.setRf_inv | apply ite_inv)

theorem State.setCaps_inv (l : List Nat) : ∀ (a : Nat) (s : State), Keeps pmk z s →
    (hu : Cov pmk 1 := by exact cov_sub (by assumption) rfl) → Keeps pmk z (s.setCaps a l) := by
  induction l with
  | nil => exact fun _ _ h _ => h
  | cons x l ih =>
    intro a s h hu
    unfold State.setCaps
    exact ih (a + 4) _ (State.setRg_inv _ _ _ h) hu

theorem State.setErr_inv (e : Err) (i : Nat) (caps : List Nat) (s : State) (h_s : Keeps pmk z s)  (hu : Cov pmk 16793603 := by exact cov_sub (by assumption) rfl) :
    Keeps pmk z (State.setErr e i caps s) := by
  unfold State.setErr
  repeat' first
    | (with_reducible first | assumption | exact cov_sub hu rfl | apply State.raiseInt_inv | apply State.setCaps_inv | apply State.setRf_inv | apply State.setRg_inv | apply ite_inv)

theorem State.logAudit_inv (kind page a b c : Nat) (s : State) (h_s : Keeps pmk z s)  (hu : Cov pmk 2051 := by exact cov_sub (by assumption) rfl) :
    Keeps pmk z (State.logAudit kind page a b c s) := by
  unfold State.logAudit
  repeat' first
    | (with_reducible first | assumption | exact cov_sub hu rfl | apply State.bump_inv | apply State.modFlt_inv | apply State.setRg64_inv | apply ite_inv)

theorem State.faultCopy_inv (second : Bool) (record : Nat) (s : State) (h_s : Keeps pmk z s)  (hu : Cov pmk 67111010 := by exact cov_sub (by assumption) rfl) :
    Keeps pmk z (State.faultCopy second record s) := by
  unfold State.faultCopy
  repeat' first
    | (with_reducible first | assumption | exact cov_sub hu rfl | apply State.bump_inv | apply State.modFlt_inv | apply State.sendOwn_inv | apply ite_inv)

theorem State.event_inv (page bitNo cls c0 c1 : Nat) (fjid : Option Nat) (s : State) (h_s : Keeps pmk z s)  (hu : Cov pmk 83904739 := by exact cov_sub (by assumption) rfl) :
    Keeps pmk z (State.event page bitNo cls c0 c1 fjid s) := by
  unfold State.event
  repeat' first
    | (with_reducible first | assumption | exact cov_sub hu rfl | apply State.bump_inv | apply State.faultCopy_inv | apply State.modFlt_inv | apply State.raiseInt_inv | apply State.setBarnNum_inv | apply State.setErr_inv | apply State.setRg_inv | apply ite_inv)

theorem State.jobFatal_inv (slot : Nat) (s : State) (h_s : Keeps pmk z s)  (hu : Cov pmk 16793603 := by exact cov_sub (by assumption) rfl) :
    Keeps pmk z (State.jobFatal slot s) := by
  unfold State.jobFatal
  repeat' first
    | (with_reducible first | assumption | exact cov_sub hu rfl | apply State.raiseInt_inv | apply State.setRf_inv)

theorem State.raise_inv (e : Err) (i : Nat) (caps : List Nat) (fjid : Option Nat) (s : State) (h_s : Keeps pmk z s)  (hu : Cov pmk 83904739 := by exact cov_sub (by assumption) rfl) :
    Keeps pmk z (State.raise e i caps fjid s) := by
  unfold State.raise
  repeat' first
    | (refine fun _ => ?_)
    | (with_reducible first | assumption | exact cov_sub hu rfl | apply State.event_inv | apply State.jobFatal_inv | apply State.raiseInt_inv | apply State.setErr_inv | apply foldl_inv | apply ite_inv)
    | split

theorem State.tallyMismatch_inv (id want found : Nat) (e : Err) (i : Nat) (caps : List Nat) (s : State) (h_s : Keeps pmk z s)  (hu : Cov pmk 83904739 := by exact cov_sub (by assumption) rfl) :
    Keeps pmk z (State.tallyMismatch id want found e i caps s) := by
  unfold State.tallyMismatch
  repeat' first
    | (with_reducible first | assumption | exact cov_sub hu rfl | apply State.bump_inv | apply State.logAudit_inv | apply State.raise_inv | apply State.raiseInt_inv | apply State.setRf_inv | apply ite_inv)

/-! ### Drop -/

theorem State.respond_inv (die : Nat) (req : Packet) (status : Nat) (s : State) (h_s : Keeps pmk z s)  (hu : Cov pmk 67108962 := by exact cov_sub (by assumption) rfl) :
    Keeps pmk z (State.respond die req status s) := by
  unfold State.respond
  repeat' first
    | (with_reducible first | assumption | apply State.sendOwn_inv)

theorem State.noRoute_inv (die : Nat) (p : Packet) (s : State) (h_s : Keeps pmk z s)  (hu : Cov pmk 67108962 := by exact cov_sub (by assumption) rfl) :
    Keeps pmk z (State.noRoute die p s) := by
  unfold State.noRoute
  repeat' first
    | (with_reducible first | assumption | exact cov_sub hu rfl | apply State.bump_inv | apply State.respond_inv | apply ite_inv)

theorem State.dropNoPath_inv (die : Nat) (p : Packet) (s : State) (h_s : Keeps pmk z s)  (hu : Cov pmk 83904739 := by exact cov_sub (by assumption) rfl) :
    Keeps pmk z (State.dropNoPath die p s) := by
  unfold State.dropNoPath
  repeat' first
    | (with_reducible first | assumption | exact cov_sub hu rfl | apply State.bump_inv | apply State.noRoute_inv | apply State.raise_inv)

theorem State.dropReport_inv (die : Nat) (p : Packet) (r : Route) (s : State) (h_s : Keeps pmk z s)  (hu : Cov pmk 83904739 := by exact cov_sub (by assumption) rfl) :
    Keeps pmk z (State.dropReport die p r s) := by
  unfold State.dropReport
  repeat' first
    | (with_reducible first | assumption | exact cov_sub hu rfl | apply State.bump_inv | apply State.dropNoPath_inv | apply State.noRoute_inv | apply State.raise_inv)
    | split

theorem State.unstallN_inv (mrsp : Bool)   : ∀ (y0 : Nat) (y1 : State), Keeps pmk z y1 → (hu : Cov pmk 67108962 := by exact cov_sub (by assumption) rfl) →
    Keeps pmk z (State.unstallN mrsp y0 y1) := by
  intro y0
  induction y0 <;> intros <;> unfold State.unstallN
  repeat' first
    | (with_reducible first | assumption | exact cov_sub (by assumption) rfl | apply State.modSw_inv | apply State.sendFor_inv | apply State.sendToPort_inv | apply ite_inv)
    | (with_reducible apply_assumption -exfalso -symm)
    | split

theorem State.unstall_inv (s : State) (h_s : Keeps pmk z s)  (hu : Cov pmk 67108962 := by exact cov_sub (by assumption) rfl) :
    Keeps pmk z (State.unstall s) := by
  unfold State.unstall
  repeat' first
    | (with_reducible first | assumption | apply State.unstallN_inv)

theorem State.portLeftTags_inv (p : Nat) (s : State) (h_s : Keeps pmk z s)  (hu : Cov pmk 1024 := by exact cov_sub (by assumption) rfl) :
    Keeps pmk z (State.portLeftTags p s) := by
  unfold State.portLeftTags
  repeat' first
    | (with_reducible first | assumption | apply State.modTtu_inv)

/-! ### Obs -/

theorem State.gcount_inv (ev inc die : Nat) (port tc fjid : Option Nat) (s : State) (h_s : Keeps pmk z s)  (hu : Cov pmk 2 := by exact cov_sub (by assumption) rfl) :
    Keeps pmk z (State.gcount ev inc die port tc fjid s) := by
  unfold State.gcount
  repeat' first
    | (refine fun _ => ?_)
    | (with_reducible first | assumption | apply State.bump_inv | apply foldl_inv | apply ite_inv)

theorem State.ringStep_inv (idx cfg : Nat) (s : State) (h_s : Keeps pmk z s)  (hu : Cov pmk 1 := by exact cov_sub (by assumption) rfl) :
    Keeps pmk z (State.ringStep idx cfg s) := by
  unfold State.ringStep
  repeat' first
    | (with_reducible first | assumption | apply State.setRg_inv)

theorem State.traceStore_inv (t : TraceInfo) (s : State) (h_s : Keeps pmk z s)  (hu : Cov pmk 131 := by exact cov_sub (by assumption) rfl) :
    Keeps pmk z (State.traceStore t s) := by
  unfold State.traceStore
  repeat' first
    | (with_reducible first | assumption | exact cov_sub hu rfl | apply State.bump_inv | apply State.ringStep_inv | apply State.setBarnNum_inv)

theorem State.trace_inv (t : TraceInfo) (s : State) (h_s : Keeps pmk z s)  (hu : Cov pmk 16793731 := by exact cov_sub (by assumption) rfl) :
    Keeps pmk z (State.trace t s) := by
  unfold State.trace
  repeat' first
    | (with_reducible first | assumption | exact cov_sub hu rfl | apply State.bump_inv | apply State.raiseInt_inv | apply State.ringStep_inv | apply State.traceStore_inv | apply ite_inv)

theorem State.tracePacket_inv (port : Nat) (p : Packet) (s : State) (h_s : Keeps pmk z s)  (hu : Cov pmk 16797827 := by exact cov_sub (by assumption) rfl) :
    Keeps pmk z (State.tracePacket port p s) := by
  unfold State.tracePacket
  repeat' first
    | (with_reducible first | assumption | exact cov_sub hu rfl | apply State.modObs_inv | apply State.trace_inv | apply ite_inv)

theorem State.sample_inv (die record : Nat) (s : State) (h_s : Keeps pmk z s)  (hu : Cov pmk 131 := by exact cov_sub (by assumption) rfl) :
    Keeps pmk z (State.sample die record s) := by
  unfold State.sample
  repeat' first
    | (with_reducible first | assumption | exact cov_sub hu rfl | apply State.bump_inv | apply State.ringStep_inv | apply State.setBarnNum_inv | apply ite_inv)
    | split

theorem State.countDrop_inv (port tc : Nat) (s : State) (h_s : Keeps pmk z s)  (hu : Cov pmk 2 := by exact cov_sub (by assumption) rfl) :
    Keeps pmk z (State.countDrop port tc s) := by
  unfold State.countDrop
  repeat' first
    | (with_reducible first | assumption | apply State.gcount_inv)

/-! ### ExtCore -/

theorem State.setExtent_inv (e : Nat) (x : Extent) (s : State) (h_s : Keeps pmk z s)  (hu : Cov pmk 256 := by exact cov_sub (by assumption) rfl) :
    Keeps pmk z (State.setExtent e x s) := by
  unfold State.setExtent
  repeat' first
    | (with_reducible first | assumption | apply State.modExt_inv)

theorem State.setRegion_inv (r : Nat) (x : Region) (s : State) (h_s : Keeps pmk z s)  (hu : Cov pmk 256 := by exact cov_sub (by assumption) rfl) :
    Keeps pmk z (State.setRegion r x s) := by
  unfold State.setRegion
  repeat' first
    | (with_reducible first | assumption | apply State.modExt_inv)

/-! ### TierCore -/

theorem State.setFrame_inv (f : Nat) (x : Frame) (s : State) (h_s : Keeps pmk z s)  (hu : Cov pmk 640 := by exact cov_sub (by assumption) rfl) :
    Keeps pmk z (State.setFrame f x s) := by
  unfold State.setFrame
  repeat' first
    | (with_reducible first | assumption | exact cov_sub hu rfl | apply State.modTier_inv | apply State.setBarnNum_inv)

theorem State.setSector_inv (f sec : Nat) (v : Sector) (s : State) (h_s : Keeps pmk z s)  (hu : Cov pmk 640 := by exact cov_sub (by assumption) rfl) :
    Keeps pmk z (State.setSector f sec v s) := by
  unfold State.setSector
  repeat' first
    | (with_reducible first | assumption | apply State.setFrame_inv)

theorem State.newReq_inv (die : Nat) (kind : ReqKind) (op len ppa fjid : Nat) (s : State) (h_s : Keeps pmk z s)  (hu : Cov pmk 67109888 := by exact cov_sub (by assumption) rfl) :
    Keeps pmk z (State.newReq die kind op len ppa fjid s) := by
  unfold State.newReq
  repeat' first
    | (with_reducible first | assumption | exact cov_sub hu rfl | apply State.modTtu_inv | apply State.takeNames_inv)

theorem State.fillSector_inv (f sec : Nat) (s : State) (h_s : Keeps pmk z s)  (hu : Cov pmk 100664960 := by exact cov_sub (by assumption) rfl) :
    Keeps pmk z (State.fillSector f sec s) := by
  unfold State.fillSector
  repeat' first
    | (with_reducible first | assumption | exact cov_sub hu rfl | apply State.newReq_inv | apply State.setSector_inv | apply State.takeFree_inv)

theorem State.wbSector_inv (f sec : Nat) (s : State) (h_s : Keeps pmk z s)  (hu : Cov pmk 100664960 := by exact cov_sub (by assumption) rfl) :
    Keeps pmk z (State.wbSector f sec s) := by
  unfold State.wbSector
  repeat' first
    | (with_reducible first | assumption | exact cov_sub hu rfl | apply State.newReq_inv | apply State.setSector_inv | apply State.takeFree_inv)

/-! ### GranCore -/

theorem State.modGran_inv (f : GranUnit → GranUnit) (s : State) (h_s : Keeps pmk z s)  (hu : Cov pmk 512 := by exact cov_sub (by assumption) rfl) :
    Keeps pmk z (State.modGran f s) := by
  unfold State.modGran
  repeat' first
    | (with_reducible first | assumption | apply State.modTier_inv)

theorem State.setBlk_inv (bn v : Nat) (s : State) (h_s : Keeps pmk z s)  (hu : Cov pmk 128 := by exact cov_sub (by assumption) rfl) :
    Keeps pmk z (State.setBlk bn v s) := by
  unfold State.setBlk
  repeat' first
    | (with_reducible first | assumption | apply State.setBarnNum_inv)

theorem State.blkState_inv (bn st : Nat) (s : State) (h_s : Keeps pmk z s)  (hu : Cov pmk 128 := by exact cov_sub (by assumption) rfl) :
    Keeps pmk z (State.blkState bn st s) := by
  unfold State.blkState
  repeat' first
    | (with_reducible first | assumption | apply State.setBlk_inv)

theorem State.blkAddValid_inv (bn : Nat) (d : Int) (s : State) (h_s : Keeps pmk z s)  (hu : Cov pmk 128 := by exact cov_sub (by assumption) rfl) :
    Keeps pmk z (State.blkAddValid bn d s) := by
  unfold State.blkAddValid
  repeat' first
    | (with_reducible first | assumption | apply State.setBlk_inv)

theorem State.issueErases_inv (s : State) (h_s : Keeps pmk z s)  (hu : Cov pmk 16777728 := by exact cov_sub (by assumption) rfl) :
    Keeps pmk z (State.issueErases s) := by
  unfold State.issueErases
  repeat' first
    | (refine fun _ => ?_)
    | (with_reducible first | assumption | exact cov_sub hu rfl | apply State.emit_inv | apply State.modGran_inv | apply foldl_inv | apply ite_inv)

theorem State.takePun_inv (c : Nat) (reloc : Bool) (s : State) (h_s : Keeps pmk z s)  (hu : Cov pmk 640 := by exact cov_sub (by assumption) rfl) :
    Keeps pmk z (State.takePun c reloc s).2 := by
  unfold State.takePun
  repeat' first
    | (refine fun _ => ?_)
    | (with_reducible first | assumption | exact cov_sub hu rfl | apply State.blkState_inv | apply State.modGran_inv | apply ite_inv)
    | (with_reducible apply_assumption -exfalso -symm)
    | ((try lift_lets); intro x; have hx : ∀ a b (s : State), Keeps pmk z s → Keeps pmk z (Prod.snd (x a b s)) := ?_; revert hx; generalize x = y; clear x; intro hx; rotate_left; (dsimp -zeta only [x]))
    | ((try lift_lets); intro x; generalize x = y; clear x)
    | split

theorem State.issueProg_inv (p : Prog) (pun : Nat) (s : State) (h_s : Keeps pmk z s)  (hu : Cov pmk 16777730 := by exact cov_sub (by assumption) rfl) :
    Keeps pmk z (State.issueProg p pun s) := by
  unfold State.issueProg
  repeat' first
    | (with_reducible first | assumption | exact cov_sub hu rfl | apply State.bump_inv | apply State.emit_inv | apply State.modGran_inv)

theorem State.addProg_inv (p : Prog) (s : State) (h_s : Keeps pmk z s)  (hu : Cov pmk 16777858 := by exact cov_sub (by assumption) rfl) :
    Keeps pmk z (State.addProg p s) := by
  unfold State.addProg
  repeat' first
    | (with_reducible first | assumption | exact cov_sub hu rfl | apply State.issueProg_inv | apply State.modGran_inv | apply State.takePun_inv)
    | (split <;> first | (rename_i heq; have hi := (congrArg (fun p => Keeps pmk z (Prod.snd (Prod.snd p))) heq).mp ?_; try dsimp only at hi) | (rename_i heq; have hi := (congrArg (fun p => Keeps pmk z (Prod.snd p)) heq).mp ?_; try dsimp only at hi) | (rename_i heq _; have hi := (congrArg (fun p => Keeps pmk z (Prod.snd (Prod.snd p))) heq).mp ?_; try dsimp only at hi) | (rename_i heq _; have hi := (congrArg (fun p => Keeps pmk z (Prod.snd p)) heq).mp ?_; try dsimp only at hi))

theorem State.placeProgs_inv (s : State) (h_s : Keeps pmk z s)  (hu : Cov pmk 16777858 := by exact cov_sub (by assumption) rfl) :
    Keeps pmk z (State.placeProgs s) := by
  unfold State.placeProgs
  repeat' first
    | (refine fun _ => ?_)
    | (with_reducible first | assumption | exact cov_sub hu rfl | apply State.addProg_inv | apply State.modGran_inv | apply foldl_inv)

theorem State.mapChange_inv (lu : Nat) (pun : Option Nat) (s : State) (h_s : Keeps pmk z s)  (hu : Cov pmk 641 := by exact cov_sub (by assumption) rfl) :
    Keeps pmk z (State.mapChange lu pun s) := by
  unfold State.mapChange
  repeat' first
    | (with_reducible first | assumption | exact cov_sub hu rfl | apply State.blkAddValid_inv | apply State.modGran_inv | apply State.setBarnNum_inv | apply State.setPoison_inv | apply State.setRf_inv)
    | split

theorem State.countReads_inv (bn n : Nat) (s : State) (h_s : Keeps pmk z s)  (hu : Cov pmk 128 := by exact cov_sub (by assumption) rfl) :
    Keeps pmk z (State.countReads bn n s) := by
  unfold State.countReads
  repeat' first
    | (with_reducible first | assumption | apply State.setBlk_inv)

theorem State.readUnit_inv (lu pun : Nat) (frame : Option Nat) (s : State) (h_s : Keeps pmk z s)  (hu : Cov pmk 16777856 := by exact cov_sub (by assumption) rfl) :
    Keeps pmk z (State.readUnit lu pun frame s) := by
  unfold State.readUnit
  repeat' first
    | (refine fun _ => ?_)
    | (with_reducible first | assumption | exact cov_sub hu rfl | apply State.countReads_inv | apply State.emit_inv | apply State.modGran_inv | apply foldl_inv)

theorem State.relocUnit_inv (lu pun : Nat) (s : State) (h_s : Keeps pmk z s)  (hu : Cov pmk 16777856 := by exact cov_sub (by assumption) rfl) :
    Keeps pmk z (State.relocUnit lu pun s) := by
  unfold State.relocUnit
  repeat' first
    | (with_reducible first | assumption | exact cov_sub hu rfl | apply State.modGran_inv | apply State.readUnit_inv | apply ite_inv)

theorem State.eraseEmptied_inv (s : State) (h_s : Keeps pmk z s)  (hu : Cov pmk 16777728 := by exact cov_sub (by assumption) rfl) :
    Keeps pmk z (State.eraseEmptied s) := by
  unfold State.eraseEmptied
  repeat' first
    | (with_reducible first | assumption | exact cov_sub hu rfl | apply State.issueErases_inv | apply State.modGran_inv)

theorem State.closeBlock_inv (bn : Nat) (s : State) (h_s : Keeps pmk z s)  (hu : Cov pmk 512 := by exact cov_sub (by assumption) rfl) :
    Keeps pmk z (State.closeBlock bn s) := by
  unfold State.closeBlock
  repeat' first
    | (with_reducible first | assumption | apply State.modGran_inv)

theorem State.moveBlock_inv (bn : Nat) (s : State) (h_s : Keeps pmk z s)  (hu : Cov pmk 16777856 := by exact cov_sub (by assumption) rfl) :
    Keeps pmk z (State.moveBlock bn s) := by
  unfold State.moveBlock
  repeat' first
    | (refine fun _ => ?_)
    | (with_reducible first | assumption | apply State.relocUnit_inv | apply foldl_inv)

theorem State.relocBlock_inv (bn : Nat) (s : State) (h_s : Keeps pmk z s)  (hu : Cov pmk 16777856 := by exact cov_sub (by assumption) rfl) :
    Keeps pmk z (State.relocBlock bn s) := by
  unfold State.relocBlock
  repeat' first
    | (with_reducible first | assumption | exact cov_sub hu rfl | apply State.blkState_inv | apply State.closeBlock_inv | apply State.eraseEmptied_inv | apply State.modGran_inv | apply State.moveBlock_inv | apply ite_inv)

theorem State.readDisturb_inv (bn : Nat) (s : State) (h_s : Keeps pmk z s)  (hu : Cov pmk 16777858 := by exact cov_sub (by assumption) rfl) :
    Keeps pmk z (State.readDisturb bn s) := by
  unfold State.readDisturb
  repeat' first
    | (with_reducible first | assumption | exact cov_sub hu rfl | apply State.bump_inv | apply State.relocBlock_inv | apply ite_inv)

theorem State.granFill_inv (f : Nat) (s : State) (h_s : Keeps pmk z s)  (hu : Cov pmk 83905251 := by exact cov_sub (by assumption) rfl) :
    Keeps pmk z (State.granFill f s) := by
  unfold State.granFill
  repeat' first
    | (refine fun _ => ?_)
    | (with_reducible first | assumption | exact cov_sub hu rfl | apply State.bump_inv | apply State.raise_inv | apply State.readDisturb_inv | apply State.readUnit_inv | apply State.setFrame_inv | apply State.setPoison_inv | apply foldl_inv | apply ite_inv)
    | ((try lift_lets); intro x; have hx : Keeps pmk z x := ?_; revert hx; generalize x = y; clear x; intro hx; rotate_left; (dsimp -zeta only [x]))
    | split

theorem State.wbFailed_inv (f : Nat) (secs : List Nat) (s : State) (h_s : Keeps pmk z s)  (hu : Cov pmk 83905251 := by exact cov_sub (by assumption) rfl) :
    Keeps pmk z (State.wbFailed f secs s) := by
  unfold State.wbFailed
  repeat' first
    | (with_reducible first | assumption | exact cov_sub hu rfl | apply State.modTier_inv | apply State.raise_inv | apply State.raiseInt_inv | apply State.setFrame_inv)

theorem State.granWb_inv (f : Nat) (s : State) (h_s : Keeps pmk z s)  (hu : Cov pmk 83905251 := by exact cov_sub (by assumption) rfl) :
    Keeps pmk z (State.granWb f s) := by
  unfold State.granWb
  repeat' first
    | (with_reducible first | assumption | exact cov_sub hu rfl | apply State.addProg_inv | apply State.bump_inv | apply State.setFrame_inv | apply State.wbFailed_inv | apply ite_inv)

theorem State.flushFrame_inv (f : Nat) (s : State) (h_s : Keeps pmk z s)  (hu : Cov pmk 117460707 := by exact cov_sub (by assumption) rfl) :
    Keeps pmk z (State.flushFrame f s) := by
  unfold State.flushFrame
  repeat' first
    | (refine fun _ => ?_)
    | (with_reducible first | assumption | exact cov_sub hu rfl | apply State.granWb_inv | apply State.wbSector_inv | apply foldl_inv | apply ite_inv)

theorem State.evictFrame_inv (f : Nat) (s : State) (h_s : Keeps pmk z s)  (hu : Cov pmk 117460707 := by exact cov_sub (by assumption) rfl) :
    Keeps pmk z (State.evictFrame f s) := by
  unfold State.evictFrame
  repeat' first
    | (with_reducible first | assumption | exact cov_sub hu rfl | apply State.flushFrame_inv | apply State.setFrame_inv | apply ite_inv)

theorem State.takeWay_inv (u i : Nat) (s : State) (h_s : Keeps pmk z s)  (hu : Cov pmk 117460707 := by exact cov_sub (by assumption) rfl) :
    Keeps pmk z (State.takeWay u i s).2 := by
  unfold State.takeWay
  repeat' first
    | (refine fun _ => ?_)
    | (with_reducible first | assumption | exact cov_sub hu rfl | apply State.evictFrame_inv | apply State.setFrame_inv | apply ite_snd_inv)
    | (with_reducible apply_assumption -exfalso -symm)
    | ((try lift_lets); intro x; have hx : ∀ a (s : State), Keeps pmk z s → Keeps pmk z (Prod.snd (x a s)) := ?_; revert hx; generalize x = y; clear x; intro hx; rotate_left; (dsimp -zeta only [x]))
    | ((try lift_lets); intro x; generalize x = y; clear x)
    | split

theorem State.fillFrame_inv (f sec : Nat) (s : State) (h_s : Keeps pmk z s)  (hu : Cov pmk 117460707 := by exact cov_sub (by assumption) rfl) :
    Keeps pmk z (State.fillFrame f sec s) := by
  unfold State.fillFrame
  repeat' first
    | (with_reducible first | assumption | exact cov_sub hu rfl | apply State.fillSector_inv | apply State.granFill_inv | apply ite_inv)

theorem State.readAhead_inv (u i : Nat) (s : State) (h_s : Keeps pmk z s)  (hu : Cov pmk 117460707 := by exact cov_sub (by assumption) rfl) :
    Keeps pmk z (State.readAhead u i s) := by
  unfold State.readAhead
  repeat' first
    | (refine fun _ => ?_)
    | (with_reducible first | assumption | exact cov_sub hu rfl | apply State.fillSector_inv | apply State.granFill_inv | apply State.takeWay_inv | apply foldl_inv | apply ite_inv)
    | (split <;> first | (rename_i heq; have hi := (congrArg (fun p => Keeps pmk z (Prod.snd (Prod.snd p))) heq).mp ?_; try dsimp only at hi) | (rename_i heq; have hi := (congrArg (fun p => Keeps pmk z (Prod.snd p)) heq).mp ?_; try dsimp only at hi) | (rename_i heq _; have hi := (congrArg (fun p => Keeps pmk z (Prod.snd (Prod.snd p))) heq).mp ?_; try dsimp only at hi) | (rename_i heq _; have hi := (congrArg (fun p => Keeps pmk z (Prod.snd p)) heq).mp ?_; try dsimp only at hi))

/-! ### TtuCore -/

theorem State.setJob_inv (j : Nat) (x : JobSt) (s : State) (h_s : Keeps pmk z s)  (hu : Cov pmk 1024 := by exact cov_sub (by assumption) rfl) :
    Keeps pmk z (State.setJob j x s) := by
  unfold State.setJob
  repeat' first
    | (with_reducible first | assumption | apply State.modTtu_inv)

theorem State.setReq_inv (id : Nat) (r : Option Req) (s : State) (h_s : Keeps pmk z s)  (hu : Cov pmk 1024 := by exact cov_sub (by assumption) rfl) :
    Keeps pmk z (State.setReq id r s) := by
  unfold State.setReq
  repeat' first
    | (with_reducible first | assumption | apply State.modTtu_inv)

theorem State.modReq_inv (id : Nat) (f : Req → Req) (s : State) (h_s : Keeps pmk z s)  (hu : Cov pmk 1024 := by exact cov_sub (by assumption) rfl) :
    Keeps pmk z (State.modReq id f s) := by
  unfold State.modReq
  repeat' first
    | (with_reducible first | assumption | apply State.setReq_inv)
    | split

theorem State.setTag_inv (n : Nat) (g : Option Tag) (s : State) (h_s : Keeps pmk z s)  (hu : Cov pmk 1024 := by exact cov_sub (by assumption) rfl) :
    Keeps pmk z (State.setTag n g s) := by
  unfold State.setTag
  repeat' first
    | (with_reducible first | assumption | apply State.modTtu_inv)

theorem State.formParts_inv (r : Req) (s : State) (h_s : Keeps pmk z s)  (hu : Cov pmk 117460707 := by exact cov_sub (by assumption) rfl) :
    Keeps pmk z (State.formParts r s).2 := by
  unfold State.formParts
  repeat' first
    | (refine fun _ => ?_)
    | (with_reducible first | assumption | exact cov_sub hu rfl | apply State.bump_inv | apply State.raise_inv | apply foldl_inv)

theorem State.sendFrom_inv (r : Req) (p : Nat) (k : Packet) (s : State) (h_s : Keeps pmk z s)  (hu : Cov pmk 67108960 := by exact cov_sub (by assumption) rfl) :
    Keeps pmk z (State.sendFrom r p k s) := by
  unfold State.sendFrom
  repeat' first
    | (with_reducible first | assumption | exact cov_sub hu rfl | apply State.modSw_inv | apply State.sendToPort_inv)
    | ((try lift_lets); intro x; generalize x = y; clear x)
    | split

theorem State.sendWrite_inv (r : Req) (p : Part) (tag port : Nat) (cxl : Bool) (s : State) (h_s : Keeps pmk z s)  (hu : Cov pmk 83886176 := by exact cov_sub (by assumption) rfl) :
    Keeps pmk z (State.sendWrite r p tag port cxl s) := by
  unfold State.sendWrite
  repeat' first
    | (refine fun _ => ?_)
    | (with_reducible first | assumption | exact cov_sub hu rfl | apply State.emit_inv | apply State.sendFrom_inv | apply foldl_inv | apply ite_inv)

theorem State.sendRead_inv (r : Req) (p : Part) (tag port : Nat) (cxl : Bool) (s : State) (h_s : Keeps pmk z s)  (hu : Cov pmk 83886176 := by exact cov_sub (by assumption) rfl) :
    Keeps pmk z (State.sendRead r p tag port cxl s) := by
  unfold State.sendRead
  repeat' first
    | (refine fun _ => ?_)
    | (with_reducible first | assumption | exact cov_sub hu rfl | apply State.emit_inv | apply State.sendFrom_inv | apply foldl_inv | apply ite_inv)

theorem State.cxlAdd_inv (port tag lo n : Nat) (s : State) (h_s : Keeps pmk z s)  (hu : Cov pmk 32 := by exact cov_sub (by assumption) rfl) :
    Keeps pmk z (State.cxlAdd port tag lo n s) := by
  unfold State.cxlAdd
  repeat' first
    | (with_reducible first | assumption | apply State.modPort_inv)

theorem State.wantSector_inv (r : Req) (g : Seg) (s : State) (h_s : Keeps pmk z s)  (hu : Cov pmk 117460707 := by exact cov_sub (by assumption) rfl) :
    Keeps pmk z (State.wantSector r g s) := by
  unfold State.wantSector
  repeat' first
    | (refine fun _ => ?_)
    | (with_reducible first | assumption | apply State.fillFrame_inv | apply State.readAhead_inv | apply State.takeWay_inv | apply ite_inv)
    | (with_reducible apply_assumption -exfalso -symm)
    | ((try lift_lets); intro x; have hx : ∀ a (s : State), Keeps pmk z s → Keeps pmk z (x a s) := ?_; revert hx; generalize x = y; clear x; intro hx; rotate_left; (dsimp -zeta only [x]))
    | ((try lift_lets); intro x; generalize x = y; clear x)
    | (split <;> first | (rename_i heq; have hi := (congrArg (fun p => Keeps pmk z (Prod.snd (Prod.snd p))) heq).mp ?_; try dsimp only at hi) | (rename_i heq; have hi := (congrArg (fun p => Keeps pmk z (Prod.snd p)) heq).mp ?_; try dsimp only at hi) | (rename_i heq _; have hi := (congrArg (fun p => Keeps pmk z (Prod.snd (Prod.snd p))) heq).mp ?_; try dsimp only at hi) | (rename_i heq _; have hi := (congrArg (fun p => Keeps pmk z (Prod.snd p)) heq).mp ?_; try dsimp only at hi))
    | split

theorem State.writeLine_inv (r : Req) (h : Seg) (a : Nat) (new : Nat → Option Byte) (mark : Bool) (s : State) (h_s : Keeps pmk z s)  (hu : Cov pmk 128 := by exact cov_sub (by assumption) rfl) :
    Keeps pmk z (State.writeLine r h a new mark s) := by
  unfold State.writeLine
  repeat' first
    | (with_reducible first | assumption | apply State.setBarn_inv | apply State.setPoison_inv)

theorem State.useSector_inv (g : Seg) (dirty : Bool) (s : State) (h_s : Keeps pmk z s)  (hu : Cov pmk 640 := by exact cov_sub (by assumption) rfl) :
    Keeps pmk z (State.useSector g dirty s) := by
  unfold State.useSector
  repeat' first
    | (with_reducible first | assumption | apply State.setFrame_inv | apply State.setSector_inv | apply ite_inv)
    | split

theorem State.writeRun_inv (r : Req) (g : Seg) (new : Nat → Option Byte) (mark : Bool) (s : State) (h_s : Keeps pmk z s)  (hu : Cov pmk 128 := by exact cov_sub (by assumption) rfl) :
    Keeps pmk z (State.writeRun r g new mark s) := by
  unfold State.writeRun
  repeat' first
    | (refine fun _ => ?_)
    | (with_reducible first | assumption | apply State.writeLine_inv | apply foldl_inv)
    | split

theorem State.performTier_inv (r : Req) (p : Part) (s : State) (h_s : Keeps pmk z s)  (hu : Cov pmk 640 := by exact cov_sub (by assumption) rfl) :
    Keeps pmk z (State.performTier r p s).2 := by
  unfold State.performTier
  repeat' first
    | (refine fun _ => ?_)
    | (with_reducible first | assumption | exact cov_sub hu rfl | apply State.useSector_inv | apply State.writeRun_inv | apply foldl_inv | apply ite_snd_inv)
    | split

theorem State.setPart_inv (id k : Nat) (p : Part) (s : State) (h_s : Keeps pmk z s)  (hu : Cov pmk 1024 := by exact cov_sub (by assumption) rfl) :
    Keeps pmk z (State.setPart id k p s) := by
  unfold State.setPart
  repeat' first
    | (with_reducible first | assumption | apply State.modReq_inv)

theorem State.dropCells_inv (id : Nat) (s : State) (h_s : Keeps pmk z s)  (hu : Cov pmk 67109986 := by exact cov_sub (by assumption) rfl) :
    Keeps pmk z (State.dropCells id s) := by
  unfold State.dropCells
  repeat' first
    | (with_reducible first | assumption | exact cov_sub hu rfl | apply State.copyGone_inv | apply State.modReq_inv | apply State.unstall_inv | apply ite_inv)
    | split

theorem State.issuePart_inv (id k n : Nat) (r : Req) (p : Part) (s : State) (h_s : Keeps pmk z s)  (hu : Cov pmk 117460707 := by exact cov_sub (by assumption) rfl) :
    Keeps pmk z (State.issuePart id k n r p s) := by
  unfold State.issuePart
  repeat' first
    | (refine fun _ => ?_)
    | (with_reducible first | assumption | exact cov_sub hu rfl | apply State.bump_inv | apply State.cxlAdd_inv | apply State.dropCells_inv | apply State.gcount_inv | apply State.sendRead_inv | apply State.sendWrite_inv | apply State.setPart_inv | apply State.setTag_inv | apply State.takeFree_inv | apply State.wantSector_inv | apply foldl_inv | apply ite_inv)
    | ((try lift_lets); intro x; have hx : Keeps pmk z x := ?_; revert hx; generalize x = y; clear x; intro hx; rotate_left; (dsimp -zeta only [x]))
    | ((try lift_lets); intro x; generalize x = y; clear x)
    | split

theorem State.endPart_inv (id k : Nat) (f : Part → Part) (s : State) (h_s : Keeps pmk z s)  (hu : Cov pmk 67109986 := by exact cov_sub (by assumption) rfl) :
    Keeps pmk z (State.endPart id k f s) := by
  unfold State.endPart
  repeat' first
    | (with_reducible first | assumption | exact cov_sub hu rfl | apply State.dropCells_inv | apply State.setPart_inv | apply State.setTag_inv | apply ite_inv)
    | split

theorem State.lockedWrite_inv (id k : Nat) (r : Req) (p : Part) (g : Seg) (port : Nat) (cxl : Bool) (bs : List Byte) (mark : Bool) (s : State) (h_s : Keeps pmk z s)  (hu : Cov pmk 83887200 := by exact cov_sub (by assumption) rfl) :
    Keeps pmk z (State.lockedWrite id k r p g port cxl bs mark s) := by
  unfold State.lockedWrite
  repeat' first
    | (with_reducible first | assumption | exact cov_sub hu rfl | apply State.cxlAdd_inv | apply State.emit_inv | apply State.sendFrom_inv | apply State.setPart_inv | apply State.setTag_inv | apply ite_inv)

theorem State.partAnswer_inv (id k status : Nat) (bs : List Byte) (bad : List Nat) (s : State) (h_s : Keeps pmk z s)  (hu : Cov pmk 83887202 := by exact cov_sub (by assumption) rfl) :
    Keeps pmk z (State.partAnswer id k status bs bad s) := by
  unfold State.partAnswer
  repeat' first
    | (with_reducible first | assumption | exact cov_sub hu rfl | apply State.endPart_inv | apply State.lockedWrite_inv | apply ite_inv)
    | split

theorem State.recordLost_inv (f : Nat) (s : State) (h_s : Keeps pmk z s)  (hu : Cov pmk 117460707 := by exact cov_sub (by assumption) rfl) :
    Keeps pmk z (State.recordLost f s) := by
  unfold State.recordLost
  repeat' first
    | (refine fun _ => ?_)
    | (with_reducible first | assumption | exact cov_sub hu rfl | apply State.evictFrame_inv | apply State.setFrame_inv | apply State.raise_inv | apply State.setPoison_inv | apply foldl_inv | apply ite_inv)
    | ((try lift_lets); intro x; have hx : Keeps pmk z x := ?_; revert hx; generalize x = y; clear x; intro hx; rotate_left; (dsimp -zeta only [x]))
    | dsimp only

theorem State.readRecord_inv (g : Seg) (s : State) (h_s : Keeps pmk z s)  (hu : Cov pmk 117460707 := by exact cov_sub (by assumption) rfl) :
    Keeps pmk z (State.readRecord g s) := by
  unfold State.readRecord
  repeat' first
    | (with_reducible first | assumption | exact cov_sub hu rfl | apply State.recordLost_inv | apply ite_inv)
    | split

theorem State.tierTry_inv (id k : Nat) (s : State) (h_s : Keeps pmk z s)  (hu : Cov pmk 117460707 := by exact cov_sub (by assumption) rfl) :
    Keeps pmk z (State.tierTry id k s) := by
  unfold State.tierTry
  repeat' first
    | (refine fun _ => ?_)
    | (with_reducible first | assumption | exact cov_sub hu rfl | apply State.cxlAdd_inv | apply State.endPart_inv | apply State.gcount_inv | apply State.performTier_inv | apply State.sendWrite_inv | apply State.setPart_inv | apply State.setTag_inv | apply State.readRecord_inv | apply State.wantSector_inv | apply foldl_inv | apply ite_inv)
    | ((try lift_lets); intro x; have hx : Keeps pmk z x := ?_; revert hx; generalize x = y; clear x; intro hx; rotate_left; (dsimp -zeta only [x]))
    | ((try lift_lets); intro x; generalize x = y; clear x)
    | split
    | dsimp -zeta only
    | dsimp only

theorem State.countServed_inv (r : Req) (n : Nat) (s : State) (h_s : Keeps pmk z s)  (hu : Cov pmk 2 := by exact cov_sub (by assumption) rfl) :
    Keeps pmk z (State.countServed r n s) := by
  unfold State.countServed
  repeat' first
    | (with_reducible first | assumption | apply State.bump_inv)
    | split

theorem State.answer_inv (r : Req) (s : State) (h_s : Keeps pmk z s)  (hu : Cov pmk 83904739 := by exact cov_sub (by assumption) rfl) :
    Keeps pmk z (State.answer r s) := by
  unfold State.answer
  repeat' first
    | (with_reducible first | assumption | exact cov_sub hu rfl | apply State.bump_inv | apply State.countServed_inv | apply State.raise_inv | apply State.sendOwn_inv | apply ite_inv)

theorem State.failReq_inv (id status : Nat) (s : State) (h_s : Keeps pmk z s)  (hu : Cov pmk 67109986 := by exact cov_sub (by assumption) rfl) :
    Keeps pmk z (State.failReq id status s) := by
  unfold State.failReq
  repeat' first
    | (refine fun _ => ?_)
    | (with_reducible first | assumption | exact cov_sub hu rfl | apply State.dropCells_inv | apply State.endPart_inv | apply State.modReq_inv | apply foldl_inv)
    | split

/-! ### Check -/

theorem State.manEntry_inv (j i : Nat) (s : State) (h_s : Keeps pmk z s)  (hu : Cov pmk 33555456 := by exact cov_sub (by assumption) rfl) :
    Keeps pmk z (State.manEntry j i s).2 := by
  unfold State.manEntry
  repeat' first
    | (refine fun _ => ?_)
    | (with_reducible first | assumption | exact cov_sub hu rfl | apply State.modTtu_inv | apply State.takeFree_inv | apply ite_snd_inv)
    | (with_reducible apply_assumption -exfalso -symm)
    | ((try lift_lets); intro x; have hx : ∀ a (s : State), Keeps pmk z s → Keeps pmk z (x a s) := ?_; revert hx; generalize x = y; clear x; intro hx; rotate_left; (dsimp -zeta only [x]))
    | ((try lift_lets); intro x; generalize x = y; clear x)
    | split

theorem State.member_inv (j eid : Nat) (s : State) (h_s : Keeps pmk z s)  (hu : Cov pmk 33555456 := by exact cov_sub (by assumption) rfl) :
    Keeps pmk z (State.member j eid s).2 := by
  unfold State.member
  repeat' first
    | (with_reducible first | assumption | exact cov_sub hu rfl | apply State.modTtu_inv | apply State.takeFree_inv | apply ite_inv | apply ite_snd_inv)

theorem State.noteViol_inv (j status src op fva fjid : Nat) (s : State) (h_s : Keeps pmk z s)  (hu : Cov pmk 16793603 := by exact cov_sub (by assumption) rfl) :
    Keeps pmk z (State.noteViol j status src op fva fjid s) := by
  unfold State.noteViol
  repeat' first
    | (with_reducible first | assumption | exact cov_sub hu rfl | apply State.bump_inv | apply State.raiseInt_inv | apply State.setRg_inv | apply ite_inv)

theorem State.noteViolation_inv (j status : Nat) (p : Packet) (s : State) (h_s : Keeps pmk z s)  (hu : Cov pmk 16793603 := by exact cov_sub (by assumption) rfl) :
    Keeps pmk z (State.noteViolation j status p s) := by
  unfold State.noteViolation
  repeat' first
    | (with_reducible first | assumption | apply State.noteViol_inv)

theorem State.violation_inv (die j status : Nat) (p : Packet) (ext : Option Nat) (s : State) (h_s : Keeps pmk z s)  (hu : Cov pmk 83904739 := by exact cov_sub (by assumption) rfl) :
    Keeps pmk z (State.violation die j status p ext s) := by
  unfold State.violation
  repeat' first
    | (with_reducible first | assumption | exact cov_sub hu rfl | apply State.noteViolation_inv | apply State.raise_inv | apply ite_inv)
    | split

theorem State.checkHead_inv (die : Nat) (bad : Bool) (p : Packet) (s : State) (h_s : Keeps pmk z s)  (hu : Cov pmk 117460195 := by exact cov_sub (by assumption) rfl) :
    Keeps pmk z (State.checkHead die bad p s).2 := by
  unfold State.checkHead
  repeat' first
    | (with_reducible first | assumption | exact cov_sub hu rfl | apply State.bump_inv | apply State.gcount_inv | apply State.member_inv | apply State.violation_inv | apply ite_snd_inv)
    | (split <;> first | (rename_i heq; have hi := (congrArg (fun p => Keeps pmk z (Prod.snd (Prod.snd p))) heq).mp ?_; try dsimp only at hi) | (rename_i heq; have hi := (congrArg (fun p => Keeps pmk z (Prod.snd p)) heq).mp ?_; try dsimp only at hi) | (rename_i heq _; have hi := (congrArg (fun p => Keeps pmk z (Prod.snd (Prod.snd p))) heq).mp ?_; try dsimp only at hi) | (rename_i heq _; have hi := (congrArg (fun p => Keeps pmk z (Prod.snd p)) heq).mp ?_; try dsimp only at hi))
    | split

theorem State.checkEntry_inv (die j i : Nat) (p : Packet) (s : State) (h_s : Keeps pmk z s)  (hu : Cov pmk 117460195 := by exact cov_sub (by assumption) rfl) :
    Keeps pmk z (State.checkEntry die j i p s).2 := by
  unfold State.checkEntry
  repeat' first
    | (with_reducible first | assumption | exact cov_sub hu rfl | apply State.manEntry_inv | apply State.raise_inv | apply State.violation_inv | apply ite_snd_inv)

theorem State.checkEntries_inv (die j : Nat) (p : Packet)   : ∀ (y0 : List (Nat × Nat × Nat × Nat)) (y1 : State), Keeps pmk z y1 → (hu : Cov pmk 117460195 := by exact cov_sub (by assumption) rfl) →
    Keeps pmk z (State.checkEntries die j p y0 y1).2 := by
  intro y0
  induction y0 <;> intros <;> unfold State.checkEntries
  repeat' first
    | (with_reducible first | assumption | apply State.checkEntry_inv)
    | (with_reducible apply_assumption -exfalso -symm)
    | (split <;> first | (rename_i heq; have hi := (congrArg (fun p => Keeps pmk z (Prod.snd (Prod.snd p))) heq).mp ?_; try dsimp only at hi) | (rename_i heq; have hi := (congrArg (fun p => Keeps pmk z (Prod.snd p)) heq).mp ?_; try dsimp only at hi) | (rename_i heq _; have hi := (congrArg (fun p => Keeps pmk z (Prod.snd (Prod.snd p))) heq).mp ?_; try dsimp only at hi) | (rename_i heq _; have hi := (congrArg (fun p => Keeps pmk z (Prod.snd p)) heq).mp ?_; try dsimp only at hi))

theorem State.checkExtent_inv (die j op : Nat) (p : Packet) (w : Nat × Nat × Nat × Nat × Nat) (s : State) (h_s : Keeps pmk z s)  (hu : Cov pmk 83904739 := by exact cov_sub (by assumption) rfl) :
    Keeps pmk z (State.checkExtent die j op p w s).2 := by
  unfold State.checkExtent
  repeat' first
    | (refine fun _ => ?_)
    | (with_reducible first | assumption | apply State.raise_inv | apply State.violation_inv | apply ite_inv | apply ite_snd_inv)
    | (with_reducible apply_assumption -exfalso -symm)
    | ((try lift_lets); intro x; have hx : ∀ a b (s : State), Keeps pmk z s → Keeps pmk z (x a b s) := ?_; revert hx; generalize x = y; clear x; intro hx; rotate_left; (dsimp -zeta only [x]))
    | ((try lift_lets); intro x; generalize x = y; clear x)
    | split

theorem State.checkExtents_inv (die j op : Nat) (p : Packet)   : ∀ (y0 : List (Nat × Nat × Nat × Nat × Nat)) (y1 : State), Keeps pmk z y1 → (hu : Cov pmk 83904739 := by exact cov_sub (by assumption) rfl) →
    Keeps pmk z (State.checkExtents die j op p y0 y1).2 := by
  intro y0
  induction y0 <;> intros <;> unfold State.checkExtents
  repeat' first
    | (with_reducible first | assumption | apply State.checkExtent_inv)
    | (with_reducible apply_assumption -exfalso -symm)
    | (split <;> first | (rename_i heq; have hi := (congrArg (fun p => Keeps pmk z (Prod.snd (Prod.snd p))) heq).mp ?_; try dsimp only at hi) | (rename_i heq; have hi := (congrArg (fun p => Keeps pmk z (Prod.snd p)) heq).mp ?_; try dsimp only at hi) | (rename_i heq _; have hi := (congrArg (fun p => Keeps pmk z (Prod.snd (Prod.snd p))) heq).mp ?_; try dsimp only at hi) | (rename_i heq _; have hi := (congrArg (fun p => Keeps pmk z (Prod.snd p)) heq).mp ?_; try dsimp only at hi))

theorem State.checkBody_inv (die j op size : Nat) (ok : Nat → Bool) (p : Packet) (s : State) (h_s : Keeps pmk z s)  (hu : Cov pmk 117460195 := by exact cov_sub (by assumption) rfl) :
    Keeps pmk z (State.checkBody die j op size ok p s).2 := by
  unfold State.checkBody
  repeat' first
    | (with_reducible first | assumption | exact cov_sub hu rfl | apply State.checkEntries_inv | apply State.checkExtents_inv | apply State.raise_inv | apply State.violation_inv | apply ite_snd_inv)
    | (split <;> first | (rename_i heq; have hi := (congrArg (fun p => Keeps pmk z (Prod.snd (Prod.snd p))) heq).mp ?_; try dsimp only at hi) | (rename_i heq; have hi := (congrArg (fun p => Keeps pmk z (Prod.snd p)) heq).mp ?_; try dsimp only at hi) | (rename_i heq _; have hi := (congrArg (fun p => Keeps pmk z (Prod.snd (Prod.snd p))) heq).mp ?_; try dsimp only at hi) | (rename_i heq _; have hi := (congrArg (fun p => Keeps pmk z (Prod.snd p)) heq).mp ?_; try dsimp only at hi))
    | split

theorem State.watch_inv (port : Nat) (p : Packet) (op size : Nat) (segs : List Seg) (s : State) (h_s : Keeps pmk z s)  (hu : Cov pmk 16797827 := by exact cov_sub (by assumption) rfl) :
    Keeps pmk z (State.watch port p op size segs s).2 := by
  unfold State.watch
  repeat' first
    | (refine fun _ => ?_)
    | (with_reducible first | assumption | exact cov_sub hu rfl | apply State.bump_inv | apply State.modObs_inv | apply State.raiseInt_inv | apply State.setRg_inv | apply State.trace_inv | apply foldl_inv | apply ite_inv)
    | split

theorem State.enter_inv (die : Nat) (kind : ReqKind) (p : Packet) (from_ : Ingress) (cells : Option Nat) (c : Passed) (s : State) (h_s : Keeps pmk z s)  (hu : Cov pmk 67109888 := by exact cov_sub (by assumption) rfl) :
    Keeps pmk z (State.enter die kind p from_ cells c s) := by
  unfold State.enter
  repeat' first
    | (with_reducible first | assumption | exact cov_sub hu rfl | apply State.setReq_inv | apply State.takeNames_inv)

end Sys2Proof.Machine
end

