-- ==== Sys2Proof/Laws/InvHome.lean ====
section
/-! SUPPORT. What every function keeps of `State.Inv`, each by the lemmas of the functions it calls:
homes, trackers, the run of operators, the key-value store. -/

set_option Elab.async false

namespace Sys2Proof.Machine
open Sys2Proof
set_option linter.unusedSimpArgs false
set_option linter.unusedVariables false
variable {pmk : Nat} {z : State}

/-! ### Home -/

theorem State.setDom_inv (k : Nat) (d : DomSt) (s : State) (h_s : Keeps pmk z s)  (hu : Cov pmk 131072 := by exact cov_sub (by assumption) rfl) :
    Keeps pmk z (State.setDom k d s) := by
  unfold State.setDom
  repeat' first
    | (with_reducible first | assumption | apply State.modHome_inv)

theorem State.cohMsg_inv (die cls txn agent dst fjid line : Nat) (fields : Nat) (poison : Bool) (data : List Byte) (s : State) (h_s : Keeps pmk z s)  (hu : Cov pmk 67108962 := by exact cov_sub (by assumption) rfl) :
    Keeps pmk z (State.cohMsg die cls txn agent dst fjid line fields poison data s) := by
  unfold State.cohMsg
  repeat' first
    | (with_reducible first | assumption | apply State.sendOwn_inv)

theorem State.crsp_inv (die rsp status : Nat) (data : List Byte) (p : Packet) (s : State) (h_s : Keeps pmk z s)  (hu : Cov pmk 67108962 := by exact cov_sub (by assumption) rfl) :
    Keeps pmk z (State.crsp die rsp status data p s) := by
  unfold State.crsp
  repeat' first
    | (with_reducible first | assumption | apply State.sendOwn_inv)

theorem State.setDir_inv (key : Nat) (d : Option DirEntry) (s : State) (h_s : Keeps pmk z s)  (hu : Cov pmk 131200 := by exact cov_sub (by assumption) rfl) :
    Keeps pmk z (State.setDir key d s) := by
  unfold State.setDir
  repeat' first
    | (with_reducible first | assumption | exact cov_sub hu rfl | apply State.modHome_inv | apply State.setBarnNum_inv)

theorem State.dirLook_inv (die : Nat) (s : State) (h_s : Keeps pmk z s)  (hu : Cov pmk 33554434 := by exact cov_sub (by assumption) rfl) :
    Keeps pmk z (State.dirLook die s) := by
  unfold State.dirLook
  repeat' first
    | (with_reducible first | assumption | exact cov_sub hu rfl | apply State.bump_inv | apply State.takeFree_inv)

theorem State.setTrk_inv (t : Nat) (x : Option Tracker) (s : State) (h_s : Keeps pmk z s)  (hu : Cov pmk 131072 := by exact cov_sub (by assumption) rfl) :
    Keeps pmk z (State.setTrk t x s) := by
  unfold State.setTrk
  repeat' first
    | (with_reducible first | assumption | apply State.modHome_inv)

theorem State.setGroup_inv (g : Nat) (x : Option HGroup) (s : State) (h_s : Keeps pmk z s)  (hu : Cov pmk 131072 := by exact cov_sub (by assumption) rfl) :
    Keeps pmk z (State.setGroup g x s) := by
  unfold State.setGroup
  repeat' first
    | (with_reducible first | assumption | apply State.modHome_inv)

theorem State.endGroup_inv (g : Nat) (x : HGroup) (s : State) (h_s : Keeps pmk z s)  (hu : Cov pmk 84035811 := by exact cov_sub (by assumption) rfl) :
    Keeps pmk z (State.endGroup g x s) := by
  unfold State.endGroup
  repeat' first
    | (with_reducible first | assumption | exact cov_sub hu rfl | apply State.answer_inv | apply State.copyGone_inv | apply State.crsp_inv | apply State.setGroup_inv | apply State.unstall_inv | apply ite_inv)
    | split

theorem State.lineDone_inv (g status : Nat) (off : Nat) (data : List Byte) (pm : Nat) (s : State) (h_s : Keeps pmk z s)  (hu : Cov pmk 84035811 := by exact cov_sub (by assumption) rfl) :
    Keeps pmk z (State.lineDone g status off data pm s) := by
  unfold State.lineDone
  repeat' first
    | (with_reducible first | assumption | exact cov_sub hu rfl | apply State.endGroup_inv | apply State.setGroup_inv | apply ite_inv)
    | split

theorem State.homeAccess_inv (t : Nat) (die slot : Nat) (p : Packet) (segs : List Seg) (s : State) (h_s : Keeps pmk z s)  (hu : Cov pmk 67240960 := by exact cov_sub (by assumption) rfl) :
    Keeps pmk z (State.homeAccess t die slot p segs s) := by
  unfold State.homeAccess
  repeat' first
    | (with_reducible first | assumption | exact cov_sub hu rfl | apply State.setReq_inv | apply State.setTrk_inv | apply State.takeNames_inv)
    | ((try lift_lets); intro x; have hx : Keeps pmk z x := ?_; revert hx; generalize x = y; clear x; intro hx; rotate_left; (dsimp -zeta only [x]))
    | ((try lift_lets); intro x; generalize x = y; clear x)
    | split

theorem State.sendSnoop_inv (t : Nat) (x : Tracker) (a : Nat) (k : Snp) (s : State) (h_s : Keeps pmk z s)  (hu : Cov pmk 67108962 := by exact cov_sub (by assumption) rfl) :
    Keeps pmk z (State.sendSnoop t x a k s) := by
  unfold State.sendSnoop
  repeat' first
    | (with_reducible first | assumption | exact cov_sub hu rfl | apply State.bump_inv | apply State.cohMsg_inv)

theorem State.freeTrk_inv (t : Nat) (x : Tracker) (s : State) (h_s : Keeps pmk z s)  (hu : Cov pmk 131200 := by exact cov_sub (by assumption) rfl) :
    Keeps pmk z (State.freeTrk t x s) := by
  unfold State.freeTrk
  repeat' first
    | (with_reducible first | assumption | exact cov_sub hu rfl | apply State.setDir_inv | apply State.setTrk_inv | apply ite_inv)
    | ((try lift_lets); intro x; have hx : Keeps pmk z x := ?_; revert hx; generalize x = y; clear x; intro hx; rotate_left; (dsimp -zeta only [x]))
    | ((try lift_lets); intro x; generalize x = y; clear x)
    | split

theorem State.domDown_inv (k cause agent : Nat) (s : State) (h_s : Keeps pmk z s)  (hu : Cov pmk 117591267 := by exact cov_sub (by assumption) rfl) :
    Keeps pmk z (State.domDown k cause agent s) := by
  unfold State.domDown
  repeat' first
    | (refine fun _ => ?_)
    | (with_reducible first | assumption | exact cov_sub hu rfl | apply State.bump_inv | apply State.cohMsg_inv | apply State.endGroup_inv | apply State.homeAccess_inv | apply State.modHome_inv | apply State.raise_inv | apply State.raiseInt_inv | apply State.setDir_inv | apply State.setDom_inv | apply State.setRg_inv | apply State.takeFree_inv | apply foldl_inv | apply ite_inv)
    | split

theorem State.trkEnd_inv (t : Nat) (x : Tracker) (s : State) (h_s : Keeps pmk z s)  (hu : Cov pmk 84035811 := by exact cov_sub (by assumption) rfl) :
    Keeps pmk z (State.trkEnd t x s) := by
  unfold State.trkEnd
  repeat' first
    | (with_reducible first | assumption | exact cov_sub hu rfl | apply State.freeTrk_inv | apply State.lineDone_inv | apply State.setDir_inv | apply State.setTrk_inv | apply ite_inv)
    | ((try lift_lets); intro x; have hx : Keeps pmk z x := ?_; revert hx; generalize x = y; clear x; intro hx; rotate_left; (dsimp -zeta only [x]))
    | split

theorem State.trkFlush_inv (t slot : Nat) (rest : List Stage) (x : Tracker) (s : State) (h_s : Keeps pmk z s)  (hu : Cov pmk 100795392 := by exact cov_sub (by assumption) rfl) :
    Keeps pmk z (State.trkFlush t slot rest x s).2 := by
  unfold State.trkFlush
  repeat' first
    | (with_reducible first | assumption | exact cov_sub hu rfl | apply State.homeAccess_inv | apply State.setTrk_inv)
    | split

theorem State.trkPerform_inv (t slot : Nat) (rest : List Stage) (x : Tracker) (s : State) (h_s : Keeps pmk z s)  (hu : Cov pmk 67240960 := by exact cov_sub (by assumption) rfl) :
    Keeps pmk z (State.trkPerform t slot rest x s) := by
  unfold State.trkPerform
  repeat' first
    | (with_reducible first | assumption | exact cov_sub hu rfl | apply State.homeAccess_inv | apply State.setTrk_inv)

theorem State.trkAct_inv (t : Nat) (x : Tracker) (s : State) (h_s : Keeps pmk z s)  (hu : Cov pmk 117591267 := by exact cov_sub (by assumption) rfl) :
    Keeps pmk z (State.trkAct t x s).2 := by
  unfold State.trkAct
  repeat' first
    | (refine fun _ => ?_)
    | (with_reducible first | assumption | exact cov_sub hu rfl | apply State.cohMsg_inv | apply State.crsp_inv | apply State.homeAccess_inv | apply State.sendSnoop_inv | apply State.setTrk_inv | apply State.trkEnd_inv | apply State.trkFlush_inv | apply State.trkPerform_inv | apply foldl_inv)
    | ((try lift_lets); intro x; generalize x = y; clear x)
    | split
    | dsimp only

theorem State.trkAnswer_inv (x : Tracker) (s : State) (h_s : Keeps pmk z s)  (hu : Cov pmk 84035811 := by exact cov_sub (by assumption) rfl) :
    Keeps pmk z (State.trkAnswer x s) := by
  unfold State.trkAnswer
  repeat' first
    | (with_reducible first | assumption | apply State.lineDone_inv)
    | ((try lift_lets); intro x; generalize x = y; clear x)
    | split

theorem State.runTrk_inv (t : Nat)   : ∀ (y0 : Nat) (y1 : State), Keeps pmk z y1 → (hu : Cov pmk 117591267 := by exact cov_sub (by assumption) rfl) →
    Keeps pmk z (State.runTrk t y0 y1) := by
  intro y0
  induction y0 <;> intros <;> unfold State.runTrk
  repeat' first
    | (with_reducible first | assumption | exact cov_sub (by assumption) rfl | apply State.setTrk_inv | apply State.trkAct_inv | apply State.trkAnswer_inv)
    | (with_reducible apply_assumption -exfalso -symm)
    | ((try lift_lets); intro x; have hx : Keeps pmk z (Prod.snd x) := ?_; revert hx; generalize x = y; clear x; intro hx; rotate_left; (dsimp -zeta only [x]))
    | split

theorem State.planTrk_inv (t : Nat) (s : State) (h_s : Keeps pmk z s)  (hu : Cov pmk 117591267 := by exact cov_sub (by assumption) rfl) :
    Keeps pmk z (State.planTrk t s) := by
  unfold State.planTrk
  repeat' first
    | (with_reducible first | assumption | exact cov_sub hu rfl | apply State.bump_inv | apply State.domDown_inv | apply State.dirLook_inv | apply State.lineDone_inv | apply State.raise_inv | apply State.runTrk_inv | apply State.setDir_inv | apply State.setTrk_inv | apply ite_inv)
    | ((try lift_lets); intro x; have hx : Keeps pmk z x := ?_; revert hx; generalize x = y; clear x; intro hx; rotate_left; (dsimp -zeta only [x]))
    | ((try lift_lets); intro x; generalize x = y; clear x)
    | split

theorem State.wakeTrks_inv (s : State) (h_s : Keeps pmk z s)  (hu : Cov pmk 117591267 := by exact cov_sub (by assumption) rfl) :
    Keeps pmk z (State.wakeTrks s) := by
  unfold State.wakeTrks
  repeat' first
    | (refine fun _ => ?_)
    | (with_reducible first | assumption | apply State.planTrk_inv | apply foldl_inv | apply ite_inv)
    | split

theorem State.snoopsDone_inv (t : Nat) (x : Tracker) (s : State) (h_s : Keeps pmk z s)  (hu : Cov pmk 117591267 := by exact cov_sub (by assumption) rfl) :
    Keeps pmk z (State.snoopsDone t x s) := by
  unfold State.snoopsDone
  repeat' first
    | (with_reducible first | assumption | exact cov_sub hu rfl | apply State.runTrk_inv | apply State.setTrk_inv | apply State.wakeTrks_inv)

theorem State.snoopCheck_inv (t : Nat) (s : State) (h_s : Keeps pmk z s)  (hu : Cov pmk 117591267 := by exact cov_sub (by assumption) rfl) :
    Keeps pmk z (State.snoopCheck t s) := by
  unfold State.snoopCheck
  repeat' first
    | (with_reducible first | assumption | exact cov_sub hu rfl | apply State.domDown_inv | apply State.raise_inv | apply State.snoopsDone_inv | apply ite_inv)
    | ((try lift_lets); intro x; generalize x = y; clear x)
    | split

theorem State.cohProto_inv (die : Nat) (s : State) (h_s : Keeps pmk z s)  (hu : Cov pmk 83904739 := by exact cov_sub (by assumption) rfl) :
    Keeps pmk z (State.cohProto die s) := by
  unfold State.cohProto
  repeat' first
    | (with_reducible first | assumption | exact cov_sub hu rfl | apply State.bump_inv | apply State.raise_inv)

theorem State.cohMatch_inv (die : Nat) (p : Packet) (bad : Bool) (byTxn : Bool) (s : State) (h_s : Keeps pmk z s)  (hu : Cov pmk 83904739 := by exact cov_sub (by assumption) rfl) :
    Keeps pmk z (State.cohMatch die p bad byTxn s).2 := by
  unfold State.cohMatch
  repeat' first
    | (with_reducible first | assumption | exact cov_sub hu rfl | apply State.bump_inv | apply State.cohProto_inv | apply ite_snd_inv)
    | ((try lift_lets); intro x; generalize x = y; clear x)
    | split

theorem State.homeEnter_inv (die k : Nat) (p : Packet) (cells : Option Nat) (c : Passed) (s : State) (h_s : Keeps pmk z s)  (hu : Cov pmk 67239936 := by exact cov_sub (by assumption) rfl) :
    Keeps pmk z (State.homeEnter die k p cells c s) := by
  unfold State.homeEnter
  repeat' first
    | (refine fun _ => ?_)
    | (with_reducible first | assumption | exact cov_sub hu rfl | apply State.modHome_inv | apply State.setGroup_inv | apply State.takeNames_inv | apply foldl_inv)

theorem State.creqRefuse_inv (die : Nat) (p : Packet) (cells : Option Nat) (st : Nat) (s : State) (h_s : Keeps pmk z s)  (hu : Cov pmk 67108962 := by exact cov_sub (by assumption) rfl) :
    Keeps pmk z (State.creqRefuse die p cells st s) := by
  unfold State.creqRefuse
  repeat' first
    | (with_reducible first | assumption | exact cov_sub hu rfl | apply State.copyGone_inv | apply State.crsp_inv)
    | ((try lift_lets); intro x; have hx : Keeps pmk z x := ?_; revert hx; generalize x = y; clear x; intro hx; rotate_left; (dsimp -zeta only [x]))
    | split

theorem State.creqServe_inv (die : Nat) (from_ : Ingress) (p : Packet) (cells : Option Nat) (j size : Nat) (c : Chk) (s : State) (h_s : Keeps pmk z s)  (hu : Cov pmk 84039907 := by exact cov_sub (by assumption) rfl) :
    Keeps pmk z (State.creqServe die from_ p cells j size c s) := by
  unfold State.creqServe
  repeat' first
    | (with_reducible first | assumption | exact cov_sub hu rfl | apply State.bump_inv | apply State.creqRefuse_inv | apply State.homeEnter_inv | apply State.violation_inv | apply State.watch_inv | apply ite_inv)
    | (split <;> first | (rename_i heq; have hi := (congrArg (fun p => Keeps pmk z (Prod.snd (Prod.snd p))) heq).mp ?_; try dsimp only at hi) | (rename_i heq; have hi := (congrArg (fun p => Keeps pmk z (Prod.snd p)) heq).mp ?_; try dsimp only at hi) | (rename_i heq _; have hi := (congrArg (fun p => Keeps pmk z (Prod.snd (Prod.snd p))) heq).mp ?_; try dsimp only at hi) | (rename_i heq _; have hi := (congrArg (fun p => Keeps pmk z (Prod.snd p)) heq).mp ?_; try dsimp only at hi))
    | split

theorem State.creqRx_inv (die : Nat) (from_ : Ingress) (p : Packet) (cells : Option Nat) (s : State) (h_s : Keeps pmk z s)  (hu : Cov pmk 117595363 := by exact cov_sub (by assumption) rfl) :
    Keeps pmk z (State.creqRx die from_ p cells s) := by
  unfold State.creqRx
  repeat' first
    | (with_reducible first | assumption | exact cov_sub hu rfl | apply State.bump_inv | apply State.checkBody_inv | apply State.checkHead_inv | apply State.creqRefuse_inv | apply State.creqServe_inv | apply State.violation_inv | apply ite_inv)
    | ((try lift_lets); intro x; generalize x = y; clear x)
    | (split <;> first | (rename_i heq; have hi := (congrArg (fun p => Keeps pmk z (Prod.snd (Prod.snd p))) heq).mp ?_; try dsimp only at hi) | (rename_i heq; have hi := (congrArg (fun p => Keeps pmk z (Prod.snd p)) heq).mp ?_; try dsimp only at hi) | (rename_i heq _; have hi := (congrArg (fun p => Keeps pmk z (Prod.snd (Prod.snd p))) heq).mp ?_; try dsimp only at hi) | (rename_i heq _; have hi := (congrArg (fun p => Keeps pmk z (Prod.snd p)) heq).mp ?_; try dsimp only at hi))

theorem State.homeMem_inv (t : Nat) (r : Req) (s : State) (h_s : Keeps pmk z s)  (hu : Cov pmk 117591267 := by exact cov_sub (by assumption) rfl) :
    Keeps pmk z (State.homeMem t r s) := by
  unfold State.homeMem
  repeat' first
    | (with_reducible first | assumption | exact cov_sub hu rfl | apply State.lineDone_inv | apply State.runTrk_inv | apply State.setDir_inv | apply State.setTrk_inv | apply State.wakeTrks_inv | apply ite_inv)
    | ((try lift_lets); intro x; have hx : Keeps pmk z x := ?_; revert hx; generalize x = y; clear x; intro hx; rotate_left; (dsimp -zeta only [x]))
    | split

/-! ### Settle -/

theorem State.runResult_inv (o : Owner) (x : Res) (s : State) (h_s : Keeps pmk z s)  (hu : Cov pmk 1048576 := by exact cov_sub (by assumption) rfl) :
    Keeps pmk z (State.runResult o x s) := by
  unfold State.runResult
  repeat' first
    | (with_reducible first | assumption | apply State.modTile_inv | apply ite_inv)
    | split

theorem State.settleBase_inv (id : Nat) (s : State) (h_s : Keeps pmk z s)  (hu : Cov pmk 118639843 := by exact cov_sub (by assumption) rfl) :
    Keeps pmk z (State.settleBase id s) := by
  unfold State.settleBase
  repeat' first
    | (with_reducible first | assumption | exact cov_sub hu rfl | apply State.answer_inv | apply State.homeMem_inv | apply State.runResult_inv | apply State.setReq_inv | apply ite_inv)
    | split

theorem State.copyDone_inv (id : Nat) (r : Req) (s : State) (h_s : Keeps pmk z s)  (hu : Cov pmk 118639843 := by exact cov_sub (by assumption) rfl) :
    Keeps pmk z (State.copyDone id r s) := by
  unfold State.copyDone
  repeat' first
    | (with_reducible first | assumption | exact cov_sub hu rfl | apply State.bump_inv | apply State.failReq_inv | apply State.modReq_inv | apply State.setBarnNum_inv | apply State.setReq_inv | apply State.settleBase_inv | apply State.takeNames_inv)
    | ((try lift_lets); intro x; have hx : Keeps pmk z x := ?_; revert hx; generalize x = y; clear x; intro hx; rotate_left; (dsimp -zeta only [x]))
    | ((try lift_lets); intro x; generalize x = y; clear x)
    | split
    | dsimp -zeta only
    | dsimp only

theorem State.settle_inv (id : Nat) (s : State) (h_s : Keeps pmk z s)  (hu : Cov pmk 118639843 := by exact cov_sub (by assumption) rfl) :
    Keeps pmk z (State.settle id s) := by
  unfold State.settle
  repeat' first
    | (with_reducible first | assumption | apply State.copyDone_inv | apply State.settleBase_inv | apply ite_inv)
    | split

theorem State.settleAll_inv (s : State) (h_s : Keeps pmk z s)  (hu : Cov pmk 118639843 := by exact cov_sub (by assumption) rfl) :
    Keeps pmk z (State.settleAll s) := by
  unfold State.settleAll
  repeat' first
    | (refine fun _ => ?_)
    | (with_reducible first | assumption | apply State.settle_inv | apply foldl_inv)

theorem State.startCopy_inv (id : Nat) (r : Req) (b : Nat × Nat) (s : State) (h_s : Keeps pmk z s)  (hu : Cov pmk 118640099 := by exact cov_sub (by assumption) rfl) :
    Keeps pmk z (State.startCopy id r b s) := by
  unfold State.startCopy
  repeat' first
    | (with_reducible first | assumption | exact cov_sub hu rfl | apply State.failReq_inv | apply State.modReq_inv | apply State.raise_inv | apply State.setRegion_inv | apply State.setReq_inv | apply State.settle_inv | apply State.takeNames_inv | apply ite_inv)

theorem State.stampHeads_inv (r : Req) (s : State) (h_s : Keeps pmk z s)  (hu : Cov pmk 128 := by exact cov_sub (by assumption) rfl) :
    Keeps pmk z (State.stampHeads r s) := by
  unfold State.stampHeads
  repeat' first
    | (refine fun _ => ?_)
    | (with_reducible first | assumption | apply State.setBarnNum_inv | apply foldl_inv)

theorem State.issue_inv (id : Nat) (s : State) (h_s : Keeps pmk z s) (hu : Cov pmk 118640611 := by exact cov_sub (by assumption) rfl) : Keeps pmk z (State.issue id s) := by
  unfold State.issue
  generalize s.req id = o
  cases o with
  | none => exact h_s
  | some r =>
    dsimp only
    generalize s.pickTag r.die = tg
    refine ite_inv h_s (ite_inv (ite_inv h_s (ite_inv (State.settle_inv _ _ (State.failReq_inv _ _ _ h_s)) ?_)) ?_)
    · generalize s.copyNeeded r = cn
      cases cn with
      | some b => exact ite_inv h_s (State.startCopy_inv _ _ _ _ h_s)
      | none =>
        have h1 := State.formParts_inv r s h_s
        dsimp only
        revert h1
        generalize s.formParts r = fp
        obtain ⟨r', s'⟩ := fp
        intro h1
        have h2 : Keeps pmk z ((s'.setReq id (some r')).stampHeads r') :=
          State.stampHeads_inv _ _ (State.setReq_inv _ _ _ h1)
        dsimp only
        revert h2
        generalize (s'.setReq id (some r')).stampHeads r' = s2
        intro h2
        split
        · exact State.settle_inv _ _ (State.dropCells_inv _ _ h2)
        · generalize s2.pickTag r'.die = tg2
          split
          · exact ite_inv (State.issuePart_inv _ _ _ _ _ _ h2) h2
          · exact h2
    · split
      · exact h_s
      · split
        · exact h_s
        · refine ite_inv (State.settle_inv _ _ (State.endPart_inv _ _ _ _ h_s)) (ite_inv h_s
            (ite_inv (State.settle_inv _ _ (State.endPart_inv _ _ _ _ h_s)) ?_))
          cases tg with
          | none => exact h_s
          | some n => exact State.issuePart_inv _ _ _ _ _ _ h_s

theorem State.unitAsk_inv (owner : Owner) (die : Nat) (slot : Option Nat) (p : Packet) (s : State) (h_s : Keeps pmk z s)  (hu : Cov pmk 67109888 := by exact cov_sub (by assumption) rfl) :
    Keeps pmk z (State.unitAsk owner die slot p s) := by
  unfold State.unitAsk
  repeat' first
    | (with_reducible first | assumption | exact cov_sub hu rfl | apply State.modTtu_inv | apply State.takeNames_inv)

theorem State.issueUnit_inv (u : UnitReq) (s : State) (h_s : Keeps pmk z s) (hu : Cov pmk 100664418 := by exact cov_sub (by assumption) rfl) : Keeps pmk z (State.issueUnit u s) := by
  unfold State.issueUnit
  refine ite_inv h_s ?_
  generalize s.pickTag u.die = r
  cases r with
  | none => exact h_s
  | some n =>
    exact State.sendOwn_inv _ _ _ (State.setTag_inv _ _ _ (State.takeFree_inv _ (State.modTtu_inv _ _ h_s)))

theorem State.takeLocal_inv (n : Nat) (p : Packet) (s : State) (h_s : Keeps pmk z s)  (hu : Cov pmk 64 := by exact cov_sub (by assumption) rfl) :
    Keeps pmk z (State.takeLocal n p s).2 := by
  unfold State.takeLocal
  repeat' first
    | (with_reducible first | assumption | apply State.modSw_inv)
    | split

theorem State.freeLocal_inv (c : Option Nat) (s : State) (h_s : Keeps pmk z s)  (hu : Cov pmk 67108962 := by exact cov_sub (by assumption) rfl) :
    Keeps pmk z (State.freeLocal c s) := by
  unfold State.freeLocal
  repeat' first
    | (with_reducible first | assumption | exact cov_sub hu rfl | apply State.copyGone_inv | apply State.unstall_inv)
    | split

theorem State.staleRsp_inv (die : Nat) (s : State) (h_s : Keeps pmk z s)  (hu : Cov pmk 83904739 := by exact cov_sub (by assumption) rfl) :
    Keeps pmk z (State.staleRsp die s) := by
  unfold State.staleRsp
  repeat' first
    | (with_reducible first | assumption | exact cov_sub hu rfl | apply State.bump_inv | apply State.raise_inv)

/-! ### TileOp -/

theorem State.hlStore_inv (tile off : Nat) (bs : List PByte) (s : State) (h_s : Keeps pmk z s)  (hu : Cov pmk 1048576 := by exact cov_sub (by assumption) rfl) :
    Keeps pmk z (State.hlStore tile off bs s) := by
  unfold State.hlStore
  repeat' first
    | (with_reducible first | assumption | apply State.modTile_inv)

theorem State.hlRead_inv (tile slot off n : Nat) (s : State) (h_s : Keeps pmk z s)  :
    Keeps pmk z (State.hlRead tile slot off n s).2 := by
  unfold State.hlRead
  repeat' first
    | (with_reducible first | assumption | apply ite_snd_inv)
    | split

theorem State.hlWrite_inv (tile slot off : Nat) (bs : List PByte) (s : State) (h_s : Keeps pmk z s)  (hu : Cov pmk 1048576 := by exact cov_sub (by assumption) rfl) :
    Keeps pmk z (State.hlWrite tile slot off bs s).2 := by
  unfold State.hlWrite
  repeat' first
    | (with_reducible first | assumption | apply State.hlStore_inv | apply ite_snd_inv)
    | split

theorem State.setRun_inv (id : Nat) (r : Option Run) (s : State) (h_s : Keeps pmk z s)  (hu : Cov pmk 1048576 := by exact cov_sub (by assumption) rfl) :
    Keeps pmk z (State.setRun id r s) := by
  unfold State.setRun
  repeat' first
    | (with_reducible first | assumption | apply State.modTile_inv)

theorem State.modRun_inv (id : Nat) (f : Run → Run) (s : State) (h_s : Keeps pmk z s)  (hu : Cov pmk 1048576 := by exact cov_sub (by assumption) rfl) :
    Keeps pmk z (State.modRun id f s) := by
  unfold State.modRun
  repeat' first
    | (with_reducible first | assumption | apply State.setRun_inv)
    | split

theorem State.runFin_inv (id : Nat) (acc : Acc) (st m : Nat) (s : State) (h_s : Keeps pmk z s)  (hu : Cov pmk 1048576 := by exact cov_sub (by assumption) rfl) :
    Keeps pmk z (State.runFin id acc st m s) := by
  unfold State.runFin
  repeat' first
    | (with_reducible first | assumption | apply State.modRun_inv)

theorem State.physAsk_inv (id k : Nat) (r : Run) (op fjid ext ppa n : Nat) (data : List Byte) (poison raw : Bool) (s : State) (h_s : Keeps pmk z s)  (hu : Cov pmk 68158464 := by exact cov_sub (by assumption) rfl) :
    Keeps pmk z (State.physAsk id k r op fjid ext ppa n data poison raw s) := by
  unfold State.physAsk
  repeat' first
    | (with_reducible first | assumption | exact cov_sub hu rfl | apply State.modRun_inv | apply State.setReq_inv | apply State.takeNames_inv)
    | ((try lift_lets); intro x; have hx : Keeps pmk z x := ?_; revert hx; generalize x = y; clear x; intro hx; rotate_left; (dsimp -zeta only [x]))
    | ((try lift_lets); intro x; generalize x = y; clear x)
    | split

theorem State.fabAsk_inv (id k g : Nat) (r : Run) (op atop n eid fva : Nat) (data : List Byte) (poison : Bool) (s : State) (h_s : Keeps pmk z s)  (hu : Cov pmk 68158466 := by exact cov_sub (by assumption) rfl) :
    Keeps pmk z (State.fabAsk id k g r op atop n eid fva data poison s) := by
  unfold State.fabAsk
  repeat' first
    | (with_reducible first | assumption | exact cov_sub hu rfl | apply State.bump_inv | apply State.modRun_inv | apply State.unitAsk_inv | apply ite_inv)

/-! ### KvCore -/

theorem State.setPool_inv (p : Nat) (x : KvPool) (s : State) (h_s : Keeps pmk z s)  (hu : Cov pmk 2097152 := by exact cov_sub (by assumption) rfl) :
    Keeps pmk z (State.setPool p x s) := by
  unfold State.setPool
  repeat' first
    | (with_reducible first | assumption | apply State.modKv_inv)

theorem State.modPool_inv (p : Nat) (f : KvPool → KvPool) (s : State) (h_s : Keeps pmk z s)  (hu : Cov pmk 2097152 := by exact cov_sub (by assumption) rfl) :
    Keeps pmk z (State.modPool p f s) := by
  unfold State.modPool
  repeat' first
    | (with_reducible first | assumption | apply State.setPool_inv)

theorem State.setHdr_inv (p h : Nat) (x : PageHdr) (s : State) (h_s : Keeps pmk z s)  (hu : Cov pmk 128 := by exact cov_sub (by assumption) rfl) :
    Keeps pmk z (State.setHdr p h x s) := by
  unfold State.setHdr
  repeat' first
    | (with_reducible first | assumption | apply State.setBarnNum_inv)

theorem State.setSeq_inv (q : Nat) (x : SeqDesc) (s : State) (h_s : Keeps pmk z s)  (hu : Cov pmk 2097280 := by exact cov_sub (by assumption) rfl) :
    Keeps pmk z (State.setSeq q x s) := by
  unfold State.setSeq
  repeat' first
    | (with_reducible first | assumption | exact cov_sub hu rfl | apply State.modKv_inv | apply State.setBarnNum_inv)

theorem State.setPte_inv (p dir i : Nat) (e : Pte) (s : State) (h_s : Keeps pmk z s)  (hu : Cov pmk 128 := by exact cov_sub (by assumption) rfl) :
    Keeps pmk z (State.setPte p dir i e s) := by
  unfold State.setPte
  repeat' first
    | (with_reducible first | assumption | apply State.setBarnNum_inv)
    | split

theorem State.poolFail_inv (p : Nat) (s : State) (h_s : Keeps pmk z s)  (hu : Cov pmk 2097152 := by exact cov_sub (by assumption) rfl) :
    Keeps pmk z (State.poolFail p s) := by
  unfold State.poolFail
  repeat' first
    | (with_reducible first | assumption | apply State.modPool_inv)

theorem State.metaDo_inv (p a n : Nat) (f : State → Res × State) (s : State) (h_s : Keeps pmk z s) (hf : ∀ (x0 : State), Keeps pmk z x0 → Keeps pmk z (f x0).2) (hu : Cov pmk 86001891 := by exact cov_sub (by assumption) rfl) :
    Keeps pmk z (State.metaDo p a n f s).2 := by
  unfold State.metaDo
  repeat' first
    | (with_reducible first | assumption | exact cov_sub hu rfl | apply hf | apply State.poolFail_inv | apply State.raise_inv | apply ite_snd_inv)

theorem State.takeBlk_inv (p : Nat) (s : State) (h_s : Keeps pmk z s)  (hu : Cov pmk 2097280 := by exact cov_sub (by assumption) rfl) :
    Keeps pmk z (State.takeBlk p s).2 := by
  unfold State.takeBlk
  repeat' first
    | (with_reducible first | assumption | exact cov_sub hu rfl | apply State.modPool_inv | apply State.setBarn_inv)
    | split

theorem State.freeBlk_inv (p b : Nat) (s : State) (h_s : Keeps pmk z s)  (hu : Cov pmk 2097280 := by exact cov_sub (by assumption) rfl) :
    Keeps pmk z (State.freeBlk p b s) := by
  unfold State.freeBlk
  repeat' first
    | (with_reducible first | assumption | exact cov_sub hu rfl | apply State.modPool_inv | apply State.setBarnNum_inv)

theorem State.takeSwap_inv (p : Nat) (s : State) (h_s : Keeps pmk z s)  (hu : Cov pmk 2097152 := by exact cov_sub (by assumption) rfl) :
    Keeps pmk z (State.takeSwap p s).2 := by
  unfold State.takeSwap
  repeat' first
    | (with_reducible first | assumption | apply State.modPool_inv)
    | split

theorem State.freeSwapSlot_inv (p k : Nat) (s : State) (h_s : Keeps pmk z s)  (hu : Cov pmk 2097280 := by exact cov_sub (by assumption) rfl) :
    Keeps pmk z (State.freeSwapSlot p k s) := by
  unfold State.freeSwapSlot
  repeat' first
    | (with_reducible first | assumption | exact cov_sub hu rfl | apply State.modPool_inv | apply State.setBarnNum_inv)

theorem State.poolLow_inv (p : Nat) (s : State) (h_s : Keeps pmk z s)  (hu : Cov pmk 18890755 := by exact cov_sub (by assumption) rfl) :
    Keeps pmk z (State.poolLow p s) := by
  unfold State.poolLow
  repeat' first
    | (with_reducible first | assumption | exact cov_sub hu rfl | apply State.modPool_inv | apply State.raiseInt_inv | apply ite_inv)

theorem State.takePage_inv (p : Nat) (s : State) (h_s : Keeps pmk z s)  (hu : Cov pmk 18890883 := by exact cov_sub (by assumption) rfl) :
    Keeps pmk z (State.takePage p s).2 := by
  unfold State.takePage
  repeat' first
    | (with_reducible first | assumption | exact cov_sub hu rfl | apply State.modPool_inv | apply State.poolLow_inv | apply State.setHdr_inv)
    | split

theorem State.deferPage_inv (p h : Nat) (x : PageHdr) (s : State) (h_s : Keeps pmk z s)  (hu : Cov pmk 2097280 := by exact cov_sub (by assumption) rfl) :
    Keeps pmk z (State.deferPage p h x s) := by
  unfold State.deferPage
  repeat' first
    | (with_reducible first | assumption | exact cov_sub hu rfl | apply State.setHdr_inv | apply State.setPool_inv)
    | split

theorem State.dropRef_inv (p h : Nat) (s : State) (h_s : Keeps pmk z s)  (hu : Cov pmk 2097280 := by exact cov_sub (by assumption) rfl) :
    Keeps pmk z (State.dropRef p h s) := by
  unfold State.dropRef
  repeat' first
    | (with_reducible first | assumption | exact cov_sub hu rfl | apply State.deferPage_inv | apply State.modPool_inv | apply State.setHdr_inv | apply ite_inv)

theorem State.pteCount_inv (p : Nat) (up : Bool) (s : State) (h_s : Keeps pmk z s)  (hu : Cov pmk 2097152 := by exact cov_sub (by assumption) rfl) :
    Keeps pmk z (State.pteCount p up s) := by
  unfold State.pteCount
  repeat' first
    | (with_reducible first | assumption | apply State.modPool_inv)

theorem State.clearSeq_inv (q : Nat) (s : State) (h_s : Keeps pmk z s)  (hu : Cov pmk 2097280 := by exact cov_sub (by assumption) rfl) :
    Keeps pmk z (State.clearSeq q s) := by
  unfold State.clearSeq
  repeat' first
    | (refine fun _ => ?_)
    | (with_reducible first | assumption | exact cov_sub hu rfl | apply State.dropRef_inv | apply State.freeBlk_inv | apply State.freeSwapSlot_inv | apply State.pteCount_inv | apply State.setBarn_inv | apply State.setSeq_inv | apply foldl_inv | apply ite_inv)

theorem State.kvPerm_inv (tile slot fjid : Nat) (s : State) (h_s : Keeps pmk z s)  (hu : Cov pmk 16793603 := by exact cov_sub (by assumption) rfl) :
    Keeps pmk z (State.kvPerm tile slot fjid s).2 := by
  unfold State.kvPerm
  repeat' first
    | (with_reducible first | assumption | apply State.noteViol_inv)

theorem State.seqFor_inv (tile slot fjid p q : Nat) (s : State) (h_s : Keeps pmk z s)  (hu : Cov pmk 86001891 := by exact cov_sub (by assumption) rfl) :
    Keeps pmk z (State.seqFor tile slot fjid p q s).2 := by
  unfold State.seqFor
  repeat' first
    | (refine fun _ => ?_)
    | (with_reducible first | assumption | exact cov_sub hu rfl | apply State.kvPerm_inv | apply State.metaDo_inv | apply ite_snd_inv)
    | split

theorem State.poolEmpty_inv (p : Nat) (s : State) (h_s : Keeps pmk z s)  (hu : Cov pmk 83904739 := by exact cov_sub (by assumption) rfl) :
    Keeps pmk z (State.poolEmpty p s).2 := by
  unfold State.poolEmpty
  repeat' first
    | (with_reducible first | assumption | apply State.raise_inv)

theorem State.needLeaf_inv (q i : Nat) (s : State) (h_s : Keeps pmk z s)  (hu : Cov pmk 86001891 := by exact cov_sub (by assumption) rfl) :
    Keeps pmk z (State.needLeaf q i s).2 := by
  unfold State.needLeaf
  repeat' first
    | (refine fun _ => ?_)
    | (with_reducible first | assumption | exact cov_sub hu rfl | apply State.metaDo_inv | apply State.poolEmpty_inv | apply State.setBarnNum_inv | apply State.takeBlk_inv)
    | (split <;> first | (rename_i heq; have hi := (congrArg (fun p => Keeps pmk z (Prod.snd (Prod.snd p))) heq).mp ?_; try dsimp only at hi) | (rename_i heq; have hi := (congrArg (fun p => Keeps pmk z (Prod.snd p)) heq).mp ?_; try dsimp only at hi) | (rename_i heq _; have hi := (congrArg (fun p => Keeps pmk z (Prod.snd (Prod.snd p))) heq).mp ?_; try dsimp only at hi) | (rename_i heq _; have hi := (congrArg (fun p => Keeps pmk z (Prod.snd p)) heq).mp ?_; try dsimp only at hi))
    | split

theorem State.seePte_inv (q i : Nat) (s : State) (h_s : Keeps pmk z s)  (hu : Cov pmk 86001891 := by exact cov_sub (by assumption) rfl) :
    Keeps pmk z (State.seePte q i s).2 := by
  unfold State.seePte
  repeat' first
    | (refine fun _ => ?_)
    | (with_reducible first | assumption | apply State.metaDo_inv | apply ite_snd_inv)
    | (with_reducible apply_assumption -exfalso -symm)
    | ((try lift_lets); intro x; have hx : ∀ (s : State), Keeps pmk z s → Keeps pmk z (Prod.snd (x s)) := ?_; revert hx; generalize x = y; clear x; intro hx; rotate_left; (dsimp -zeta only [x]))
    | ((try lift_lets); intro x; generalize x = y; clear x)
    | split

theorem State.needPage_inv (p : Nat) (s : State) (h_s : Keeps pmk z s)  (hu : Cov pmk 86001891 := by exact cov_sub (by assumption) rfl) :
    Keeps pmk z (State.needPage p s).2 := by
  unfold State.needPage
  repeat' first
    | (with_reducible first | assumption | exact cov_sub hu rfl | apply State.poolEmpty_inv | apply State.takePage_inv)
    | (split <;> first | (rename_i heq; have hi := (congrArg (fun p => Keeps pmk z (Prod.snd (Prod.snd p))) heq).mp ?_; try dsimp only at hi) | (rename_i heq; have hi := (congrArg (fun p => Keeps pmk z (Prod.snd p)) heq).mp ?_; try dsimp only at hi) | (rename_i heq _; have hi := (congrArg (fun p => Keeps pmk z (Prod.snd (Prod.snd p))) heq).mp ?_; try dsimp only at hi) | (rename_i heq _; have hi := (congrArg (fun p => Keeps pmk z (Prod.snd p)) heq).mp ?_; try dsimp only at hi))

theorem State.pointPte_inv (q i h : Nat) (s : State) (h_s : Keeps pmk z s)  (hu : Cov pmk 2097280 := by exact cov_sub (by assumption) rfl) :
    Keeps pmk z (State.pointPte q i h s).2 := by
  unfold State.pointPte
  repeat' first
    | (with_reducible first | assumption | exact cov_sub hu rfl | apply State.dropRef_inv | apply State.freeSwapSlot_inv | apply State.pteCount_inv | apply State.setPte_inv | apply ite_inv)

theorem State.appendDone_inv (q tokens : Nat) (s : State) (h_s : Keeps pmk z s)  (hu : Cov pmk 2097282 := by exact cov_sub (by assumption) rfl) :
    Keeps pmk z (State.appendDone q tokens s).2 := by
  unfold State.appendDone
  repeat' first
    | (with_reducible first | assumption | exact cov_sub hu rfl | apply State.bump_inv | apply State.setSeq_inv)

theorem State.forkChild_inv (fjid p parent q : Nat) (s : State) (h_s : Keeps pmk z s)  (hu : Cov pmk 86001891 := by exact cov_sub (by assumption) rfl) :
    Keeps pmk z (State.forkChild fjid p parent q s).2 := by
  unfold State.forkChild
  repeat' first
    | (refine fun _ => ?_)
    | (with_reducible first | assumption | exact cov_sub hu rfl | apply State.clearSeq_inv | apply State.metaDo_inv | apply ite_snd_inv)

theorem State.forkRef_inv (p q i : Nat) (e : Pte) (s : State) (h_s : Keeps pmk z s)  (hu : Cov pmk 2097280 := by exact cov_sub (by assumption) rfl) :
    Keeps pmk z (State.forkRef p q i e s).2 := by
  unfold State.forkRef
  repeat' first
    | (with_reducible first | assumption | exact cov_sub hu rfl | apply State.modPool_inv | apply State.pteCount_inv | apply State.setHdr_inv | apply State.setPte_inv | apply ite_snd_inv)

theorem State.forkPte_inv (p parent q i : Nat) (s : State) (h_s : Keeps pmk z s)  (hu : Cov pmk 86001891 := by exact cov_sub (by assumption) rfl) :
    Keeps pmk z (State.forkPte p parent q i s).2 := by
  unfold State.forkPte
  repeat' first
    | (refine fun _ => ?_)
    | (with_reducible first | assumption | exact cov_sub hu rfl | apply State.forkRef_inv | apply State.metaDo_inv | apply State.needLeaf_inv | apply ite_snd_inv)

theorem State.forkDone_inv (parent q len : Nat) (s : State) (h_s : Keeps pmk z s)  (hu : Cov pmk 2097282 := by exact cov_sub (by assumption) rfl) :
    Keeps pmk z (State.forkDone parent q len s).2 := by
  unfold State.forkDone
  repeat' first
    | (with_reducible first | assumption | exact cov_sub hu rfl | apply State.bump_inv | apply State.setSeq_inv)

theorem State.decodeStart_inv (id tile slot fjid p q : Nat) (s : State) (h_s : Keeps pmk z s) (hu : Cov pmk 87050467 := by exact cov_sub (by assumption) rfl) :
    Keeps pmk z (State.decodeStart id tile slot fjid p q s).2 := by
  have h1 := State.seqFor_inv tile slot fjid p q s h_s
  unfold State.decodeStart
  revert h1
  generalize s.seqFor tile slot fjid p q = r
  intro h1
  obtain ⟨r, t⟩ := r
  cases r <;> first
    | exact h1
    | exact ite_snd_inv h1 (State.modRun_inv _ _ _ (State.setSeq_inv _ _ _ h1))

theorem State.poolFor_inv (tile slot fjid p : Nat) (s : State) (h_s : Keeps pmk z s)  (hu : Cov pmk 16793603 := by exact cov_sub (by assumption) rfl) :
    Keeps pmk z (State.poolFor tile slot fjid p s).2 := by
  unfold State.poolFor
  repeat' first
    | (with_reducible first | assumption | apply State.kvPerm_inv | apply ite_snd_inv)
    | split

theorem State.checkHandle_inv (p gen h : Nat) (s : State) (h_s : Keeps pmk z s)  (hu : Cov pmk 86001891 := by exact cov_sub (by assumption) rfl) :
    Keeps pmk z (State.checkHandle p gen h s).2 := by
  unfold State.checkHandle
  repeat' first
    | (refine fun _ => ?_)
    | (with_reducible first | assumption | exact cov_sub hu rfl | apply State.bump_inv | apply State.metaDo_inv | apply State.raise_inv | apply ite_snd_inv)

theorem State.listPtes_inv (q : Nat) (swap : Bool) (s : State) (h_s : Keeps pmk z s)  :
    Keeps pmk z (State.listPtes q swap s).2 := by
  unfold State.listPtes
  repeat' first
    | with_reducible assumption

theorem State.needSwap_inv (p : Nat) (s : State) (h_s : Keeps pmk z s)  (hu : Cov pmk 2097152 := by exact cov_sub (by assumption) rfl) :
    Keeps pmk z (State.needSwap p s).2 := by
  unfold State.needSwap
  repeat' first
    | (with_reducible first | assumption | apply State.takeSwap_inv)
    | (split <;> first | (rename_i heq; have hi := (congrArg (fun p => Keeps pmk z (Prod.snd (Prod.snd p))) heq).mp ?_; try dsimp only at hi) | (rename_i heq; have hi := (congrArg (fun p => Keeps pmk z (Prod.snd p)) heq).mp ?_; try dsimp only at hi) | (rename_i heq _; have hi := (congrArg (fun p => Keeps pmk z (Prod.snd (Prod.snd p))) heq).mp ?_; try dsimp only at hi) | (rename_i heq _; have hi := (congrArg (fun p => Keeps pmk z (Prod.snd p)) heq).mp ?_; try dsimp only at hi))

theorem State.swappedOut_inv (q i k : Nat) (s : State) (h_s : Keeps pmk z s)  (hu : Cov pmk 2097282 := by exact cov_sub (by assumption) rfl) :
    Keeps pmk z (State.swappedOut q i k s).2 := by
  unfold State.swappedOut
  repeat' first
    | (with_reducible first | assumption | exact cov_sub hu rfl | apply State.bump_inv | apply State.dropRef_inv | apply State.pteCount_inv | apply State.setPte_inv | apply State.setSeq_inv)

theorem State.swapFail_inv (q k : Nat) (s : State) (h_s : Keeps pmk z s)  (hu : Cov pmk 86001891 := by exact cov_sub (by assumption) rfl) :
    Keeps pmk z (State.swapFail q k s).2 := by
  unfold State.swapFail
  repeat' first
    | (with_reducible first | assumption | exact cov_sub hu rfl | apply State.freeSwapSlot_inv | apply State.raise_inv)

theorem State.swappedIn_inv (q i h : Nat) (s : State) (h_s : Keeps pmk z s)  (hu : Cov pmk 2097282 := by exact cov_sub (by assumption) rfl) :
    Keeps pmk z (State.swappedIn q i h s).2 := by
  unfold State.swappedIn
  repeat' first
    | (with_reducible first | assumption | exact cov_sub hu rfl | apply State.bump_inv | apply State.pointPte_inv | apply State.setSeq_inv)

/-! ### TileRun -/

theorem Loc.run_inv (l : Loc) (s : State) (h_s : Keeps pmk z s) (hu : Cov pmk 87050467 := by exact cov_sub (by assumption) rfl) : Keeps pmk z (Loc.run l s).2 := by
  cases l <;> unfold Loc.run
  · exact State.hlRead_inv _ _ _ _ _ h_s
  · exact State.hlWrite_inv _ _ _ _ _ h_s
  · exact State.seqFor_inv _ _ _ _ _ _ h_s
  · exact State.poolFor_inv _ _ _ _ _ h_s
  · exact State.needLeaf_inv _ _ _ h_s
  · exact State.seePte_inv _ _ _ h_s
  · exact State.needPage_inv _ _ h_s
  · exact State.pointPte_inv _ _ _ _ h_s
  · exact State.appendDone_inv _ _ _ h_s
  · exact State.forkChild_inv _ _ _ _ _ h_s
  · exact State.forkPte_inv _ _ _ _ _ h_s
  · exact State.forkDone_inv _ _ _ _ h_s
  · exact State.decodeStart_inv _ _ _ _ _ _ _ h_s
  · exact State.checkHandle_inv _ _ _ _ h_s
  · exact State.listPtes_inv _ _ _ h_s
  · exact State.needSwap_inv _ _ h_s
  · exact State.swappedOut_inv _ _ _ _ h_s
  · exact State.swapFail_inv _ _ _ h_s
  · exact State.swappedIn_inv _ _ _ _ h_s
  · exact State.clearSeq_inv _ _ h_s
  · exact State.dropRef_inv _ _ _ h_s

theorem State.handAct_inv (id k : Nat) (a : Act) (s : State) (h_s : Keeps pmk z s) (hu : Cov pmk 87051491 := by exact cov_sub (by assumption) rfl) :
    Keeps pmk z (State.handAct id k a s).2 := by
  unfold State.handAct
  split
  · exact h_s
  · rename_i r _
    have go (f : State → State) (hf : ∀ s, Keeps pmk z s → Keeps pmk z (f s)) :
        Keeps pmk z (f (s.setRun id (some { r with next := k + 1 }))) := hf _ (State.setRun_inv _ _ _ h_s)
    cases a <;> dsimp only
    · exact State.modRun_inv _ _ _ (Loc.run_inv _ _ h_s)
    · split
      · exact go _ fun _ h => State.fabAsk_inv _ _ _ _ _ _ _ _ _ _ _ _ h
      · exact h_s
    · exact go _ fun _ h => State.fabAsk_inv _ _ _ _ _ _ _ _ _ _ _ _ h
    · exact go _ fun _ h => State.fabAsk_inv _ _ _ _ _ _ _ _ _ _ _ _ h
    · exact go _ fun _ h => State.physAsk_inv _ _ _ _ _ _ _ _ _ _ _ _ h
    · exact go _ fun _ h => State.physAsk_inv _ _ _ _ _ _ _ _ _ _ _ _ h
    · split
      · exact State.modRun_inv _ _ _ (State.setRun_inv _ _ _ h_s)
      · exact h_s

theorem State.handActs_inv (id k : Nat) (as : List Act) (s : State) (h_s : Keeps pmk z s) (hu : Cov pmk 87051491 := by exact cov_sub (by assumption) rfl) :
    Keeps pmk z (State.handActs id k as s) := by
  induction as generalizing k s with
  | nil => exact h_s
  | cons a as ih =>
    unfold State.handActs
    split
    · exact h_s
    · split
      · exact ih _ _ h_s
      · split
        · exact h_s
        · have hi := State.handAct_inv id k a s h_s
          split <;> rename_i heq <;> rw [heq] at hi
          · exact ih _ _ hi
          · exact hi

theorem Op.go_inv (id : Nat) (o : Op Unit) (log : List (List Res)) (acc : Acc) (s : State) (h_s : Keeps pmk z s) (hu : Cov pmk 87051491 := by exact cov_sub (by assumption) rfl) :
    Keeps pmk z (Op.go id o log acc s) := by
  induction o generalizing log acc s with
  | ret a => exact State.runFin_inv _ _ _ _ _ h_s
  | stop st m => exact State.runFin_inv _ _ _ _ _ h_s
  | note n k ih => exact ih _ _ _ h_s
  | ask as k ih =>
    cases log with
    | cons r log => exact ih _ _ _ _ h_s
    | nil =>
      unfold Op.go
      split
      · exact h_s
      · split
        · split
          · exact State.runFin_inv _ _ _ _ _ h_s
          · exact h_s
        · have hi := State.handActs_inv id 0 as s h_s
          dsimp only
          split
          · exact hi
          · exact ih _ _ _ _ (State.modRun_inv _ _ _ hi)

end Sys2Proof.Machine
end

