-- ==== Sys2Proof/Laws/InvLink.lean ====
section
/-! SUPPORT. What every function keeps of `State.Inv`, each by the lemmas of the functions it calls:
links, ports, requests of the units, tiers, granaries. -/

set_option Elab.async false

namespace Sys2Proof.Machine
open Sys2Proof
set_option linter.unusedSimpArgs false
set_option linter.unusedVariables false
variable {pmk : Nat} {z : State}

/-! ### Regs -/

theorem State.refuseCapture_inv (src : Source) (kind a : Nat) (s : State) (h_s : Keeps pmk z s)  (hu : Cov pmk 1 := by exact cov_sub (by assumption) rfl) :
    Keeps pmk z (State.refuseCapture src kind a s) := by
  unfold State.refuseCapture
  repeat' first
    | (with_reducible first | assumption | apply State.setRg_inv | apply ite_inv)

theorem State.refuse_inv (s : State) (h : Keeps pmk z s) (hu : Cov pmk 8 := by exact cov_sub (by assumption) rfl) : Keeps pmk z s.refuse :=
  modHub_inv h 8 h.inv.2 (hub_frame (.inr rfl) (.inr rfl) (.inr ⟨rfl, rfl⟩) (.inl rfl))

theorem State.unmapped_inv (src : Source) (a : Nat) (s : State) (h_s : Keeps pmk z s)  (hu : Cov pmk 11 := by exact cov_sub (by assumption) rfl) :
    Keeps pmk z (State.unmapped src a s) := by
  unfold State.unmapped
  repeat' first
    | (with_reducible first | assumption | exact cov_sub hu rfl | apply State.bump_inv | apply State.refuse_inv | apply State.refuseCapture_inv)

theorem State.lockRefused_inv (src : Source) (a : Nat) (s : State) (h_s : Keeps pmk z s)  (hu : Cov pmk 11 := by exact cov_sub (by assumption) rfl) :
    Keeps pmk z (State.lockRefused src a s) := by
  unfold State.lockRefused
  repeat' first
    | (with_reducible first | assumption | exact cov_sub hu rfl | apply State.bump_inv | apply State.refuse_inv | apply State.refuseCapture_inv)

theorem State.rwsRefused_inv (src : Source) (a : Nat) (s : State) (h_s : Keeps pmk z s)  (hu : Cov pmk 11 := by exact cov_sub (by assumption) rfl) :
    Keeps pmk z (State.rwsRefused src a s) := by
  unfold State.rwsRefused
  repeat' first
    | (with_reducible first | assumption | exact cov_sub hu rfl | apply State.bump_inv | apply State.refuse_inv | apply State.refuseCapture_inv)

theorem State.guarded_inv (src : Source) (a : Nat) (acc : Access) (act : State → State) (s : State) (h_s : Keeps pmk z s) (hact : ∀ (x0 : State), Keeps pmk z x0 → Keeps pmk z (act x0)) (hu : Cov pmk 11 := by exact cov_sub (by assumption) rfl) :
    Keeps pmk z (State.guarded src a acc act s) := by
  unfold State.guarded
  repeat' first
    | (with_reducible first | assumption | apply hact | apply State.lockRefused_inv | apply State.rwsRefused_inv | apply State.unmapped_inv | apply ite_inv)
    | split

theorem State.stageLo_inv (src : Source) (a : Nat) (v : Word) (s : State) (h : Keeps pmk z s) (hu : Cov pmk 8 := by exact cov_sub (by assumption) rfl) :
    Keeps pmk z (State.stageLo src a v s) := by
  unfold State.stageLo
  obtain ⟨h1, h2, h3, h4, h5, h6⟩ := (hub_wf_iff _).1 h.inv.2
  have h7 := wf_set _ (stageKey src a) (some v) h5
  exact modHub_inv h 8 ((hub_wf_iff _).2 ⟨h1, h2, h3, h4, h7, h6⟩) (hub_frame (.inr rfl) (.inr rfl) (.inr ⟨rfl, rfl⟩) (.inl rfl))

theorem State.unstage_inv (src : Source) (a : Nat) (s : State) (h : Keeps pmk z s) (hu : Cov pmk 8 := by exact cov_sub (by assumption) rfl) :
    Keeps pmk z (State.unstage src a s) := by
  unfold State.unstage
  obtain ⟨h1, h2, h3, h4, h5, h6⟩ := (hub_wf_iff _).1 h.inv.2
  have h7 := wf_set _ (stageKey src a) none h5
  exact modHub_inv h 8 ((hub_wf_iff _).2 ⟨h1, h2, h3, h4, h7, h6⟩) (hub_frame (.inr rfl) (.inr rfl) (.inr ⟨rfl, rfl⟩) (.inl rfl))

theorem State.commitPair_inv (src : Source) (lo : Nat) (hi : Word) (s : State) (h_s : Keeps pmk z s)  (hu : Cov pmk 9 := by exact cov_sub (by assumption) rfl) :
    Keeps pmk z (State.commitPair src lo hi s) := by
  unfold State.commitPair
  repeat' first
    | (with_reducible first | assumption | exact cov_sub hu rfl | apply State.setRg_inv | apply State.unstage_inv)

theorem State.errClear_inv (k : PageKind) (i : Nat) (s : State) (h_s : Keeps pmk z s)  (hu : Cov pmk 1 := by exact cov_sub (by assumption) rfl) :
    Keeps pmk z (State.errClear k i s) := by
  unfold State.errClear
  repeat' first
    | (with_reducible first | assumption | apply State.setCaps_inv | apply State.setRg_inv)

theorem State.intAfter_inv (k : PageKind) (i : Nat) (s before : State) (h_s : Keeps pmk z s) (h_before : Keeps pmk z before)  (hu : Cov pmk 16793602 := by exact cov_sub (by assumption) rfl) :
    Keeps pmk z (State.intAfter k i s before) := by
  unfold State.intAfter
  repeat' first
    | (refine fun _ => ?_)
    | (with_reducible first | assumption | apply State.intMessage_inv | apply foldl_inv | apply ite_inv)

theorem State.writeCtrl_inv (k : PageKind) (i : Nat) (v : Word) (s : State) (h_s : Keeps pmk z s)  (hu : Cov pmk 16793603 := by exact cov_sub (by assumption) rfl) :
    Keeps pmk z (State.writeCtrl k i v s) := by
  unfold State.writeCtrl
  repeat' first
    | (with_reducible first | assumption | exact cov_sub hu rfl | apply State.errClear_inv | apply State.intAfter_inv | apply State.setRg_inv | apply ite_inv)

theorem State.writeLock_inv (k : PageKind) (i : Nat) (v : Word) (s : State) (h_s : Keeps pmk z s)  (hu : Cov pmk 1 := by exact cov_sub (by assumption) rfl) :
    Keeps pmk z (State.writeLock k i v s) := by
  unfold State.writeLock
  repeat' first
    | (with_reducible first | assumption | apply State.setRg_inv | apply ite_inv)

/-! ### Link -/

theorem State.laneBit_inv (b lane : Nat) (v : Bool) (s : State) (h_s : Keeps pmk z s)  (hu : Cov pmk 1 := by exact cov_sub (by assumption) rfl) :
    Keeps pmk z (State.laneBit b lane v s) := by
  unfold State.laneBit
  repeat' first
    | (with_reducible first | assumption | apply State.setRf_inv)

theorem State.lanesBit_inv (b p : Nat) (v : Bool) (s : State) (h_s : Keeps pmk z s)  (hu : Cov pmk 1 := by exact cov_sub (by assumption) rfl) :
    Keeps pmk z (State.lanesBit b p v s) := by
  unfold State.lanesBit
  repeat' first
    | (refine fun _ => ?_)
    | (with_reducible first | assumption | apply State.laneBit_inv | apply foldl_inv)

theorem State.flushEgress_inv (p : Nat) (s : State) (h_s : Keeps pmk z s)  (hu : Cov pmk 83904739 := by exact cov_sub (by assumption) rfl) :
    Keeps pmk z (State.flushEgress p s) := by
  unfold State.flushEgress
  repeat' first
    | (refine fun _ => ?_)
    | (with_reducible first | assumption | exact cov_sub hu rfl | apply State.copyGone_inv | apply State.dropNoPath_inv | apply State.modPort_inv | apply State.modSw_inv | apply foldl_inv | apply ite_inv)
    | ((try lift_lets); intro x; have hx : Keeps pmk z x := ?_; revert hx; generalize x = y; clear x; intro hx; rotate_left; (dsimp -zeta only [x]))
    | ((try lift_lets); intro x; generalize x = y; clear x)
    | split

theorem State.linkDown_inv (p : Nat) (s : State) (h_s : Keeps pmk z s)  (hu : Cov pmk 83905779 := by exact cov_sub (by assumption) rfl) :
    Keeps pmk z (State.linkDown p s) := by
  unfold State.linkDown
  repeat' first
    | (with_reducible first | assumption | exact cov_sub hu rfl | apply State.bumpHi_inv | apply State.flushEgress_inv | apply State.modPort_inv | apply State.modTime_inv | apply State.portLeftTags_inv | apply State.raise_inv | apply State.unstall_inv | apply ite_inv)

theorem State.leaveTo_inv (p : Nat) (st : LinkState) (s : State) (h_s : Keeps pmk z s)  (hu : Cov pmk 83905779 := by exact cov_sub (by assumption) rfl) :
    Keeps pmk z (State.leaveTo p st s) := by
  unfold State.leaveTo
  repeat' first
    | (with_reducible first | assumption | exact cov_sub hu rfl | apply State.lanesBit_inv | apply State.linkDown_inv | apply State.modPort_inv | apply State.setRf_inv | apply ite_inv)

theorem State.haltPort_inv (p : Nat) (s : State) (h_s : Keeps pmk z s)  (hu : Cov pmk 83905779 := by exact cov_sub (by assumption) rfl) :
    Keeps pmk z (State.haltPort p s) := by
  unfold State.haltPort
  repeat' first
    | (with_reducible first | assumption | exact cov_sub hu rfl | apply State.leaveTo_inv | apply State.modPort_inv)

theorem State.enterActive_inv (p : Nat) (s : State) (h_s : Keeps pmk z s)  (hu : Cov pmk 32 := by exact cov_sub (by assumption) rfl) :
    Keeps pmk z (State.enterActive p s) := by
  unfold State.enterActive
  repeat' first
    | (with_reducible first | assumption | apply State.modPort_inv)

theorem State.sendCtrl_inv (p : Nat) (record : List Byte) (s : State) (h_s : Keeps pmk z s)  (hu : Cov pmk 16777218 := by exact cov_sub (by assumption) rfl) :
    Keeps pmk z (State.sendCtrl p record s) := by
  unfold State.sendCtrl
  repeat' first
    | (with_reducible first | assumption | exact cov_sub hu rfl | apply State.bump_inv | apply State.emit_inv)

theorem State.enterParam_inv (p : Nat) (s : State) (h_s : Keeps pmk z s)  (hu : Cov pmk 83905779 := by exact cov_sub (by assumption) rfl) :
    Keeps pmk z (State.enterParam p s) := by
  unfold State.enterParam
  repeat' first
    | (with_reducible first | assumption | exact cov_sub hu rfl | apply State.linkDown_inv | apply State.modPort_inv | apply State.sendCtrl_inv | apply ite_inv)

theorem State.enterCredit_inv (p fec : Nat) (s : State) (h_s : Keeps pmk z s)  (hu : Cov pmk 16777250 := by exact cov_sub (by assumption) rfl) :
    Keeps pmk z (State.enterCredit p fec s) := by
  unfold State.enterCredit
  repeat' first
    | (with_reducible first | assumption | exact cov_sub hu rfl | apply State.modPort_inv | apply State.sendCtrl_inv)

theorem State.linkError_inv (p : Nat) (s : State) (h_s : Keeps pmk z s)  (hu : Cov pmk 83904739 := by exact cov_sub (by assumption) rfl) :
    Keeps pmk z (State.linkError p s) := by
  unfold State.linkError
  repeat' first
    | (with_reducible first | assumption | exact cov_sub hu rfl | apply State.bump_inv | apply State.modPort_inv | apply State.raise_inv | apply State.sendCtrl_inv | apply ite_inv)

theorem State.paramRx_inv (p : Nat) (r : List Byte) (s : State) (h_s : Keeps pmk z s)  (hu : Cov pmk 83905779 := by exact cov_sub (by assumption) rfl) :
    Keeps pmk z (State.paramRx p r s) := by
  unfold State.paramRx
  repeat' first
    | (refine fun _ => ?_)
    | (with_reducible first | assumption | exact cov_sub hu rfl | apply State.enterCredit_inv | apply State.enterParam_inv | apply State.haltPort_inv | apply State.leaveTo_inv | apply State.raise_inv | apply State.setRg_inv | apply State.setRg64_inv | apply ite_inv)
    | (with_reducible apply_assumption -exfalso -symm)
    | ((try lift_lets); intro x; have hx : Keeps pmk z x := ?_; revert hx; generalize x = y; clear x; intro hx; rotate_left; (dsimp -zeta only [x]))
    | ((try lift_lets); intro x; have hx : ∀ (s : State), Keeps pmk z s → Keeps pmk z (x s) := ?_; revert hx; generalize x = y; clear x; intro hx; rotate_left; (dsimp -zeta only [x]))
    | ((try lift_lets); intro x; generalize x = y; clear x)
    | split

theorem State.advRx_inv (p : Nat) (r : List Byte) (s : State) (h_s : Keeps pmk z s)  (hu : Cov pmk 32 := by exact cov_sub (by assumption) rfl) :
    Keeps pmk z (State.advRx p r s) := by
  unfold State.advRx
  repeat' first
    | (with_reducible first | assumption | apply State.enterActive_inv | apply State.modPort_inv | apply ite_inv)
    | ((try lift_lets); intro x; have hx : Keeps pmk z x := ?_; revert hx; generalize x = y; clear x; intro hx; rotate_left; (dsimp -zeta only [x]))
    | ((try lift_lets); intro x; generalize x = y; clear x)
    | split

theorem State.ctrlRx_inv (p : Nat) (r : List Byte) (s : State) (h_s : Keeps pmk z s)  (hu : Cov pmk 83905779 := by exact cov_sub (by assumption) rfl) :
    Keeps pmk z (State.ctrlRx p r s) := by
  unfold State.ctrlRx
  repeat' first
    | (with_reducible first | assumption | exact cov_sub hu rfl | apply State.advRx_inv | apply State.bumpLo_inv | apply State.linkError_inv | apply State.paramRx_inv | apply State.raise_inv | apply ite_inv)
    | split

theorem State.creditRx_inv (p c n : Nat) (s : State) (h_s : Keeps pmk z s)  (hu : Cov pmk 83905779 := by exact cov_sub (by assumption) rfl) :
    Keeps pmk z (State.creditRx p c n s) := by
  unfold State.creditRx
  repeat' first
    | (with_reducible first | assumption | exact cov_sub hu rfl | apply State.haltPort_inv | apply State.modPort_inv | apply State.raise_inv | apply ite_inv)

theorem State.returnCells_inv (p c n : Nat) (s : State) (h_s : Keeps pmk z s)  (hu : Cov pmk 32 := by exact cov_sub (by assumption) rfl) :
    Keeps pmk z (State.returnCells p c n s) := by
  unfold State.returnCells
  repeat' first
    | (with_reducible first | assumption | apply State.modPort_inv)

theorem State.arrived_inv (p : Nat) (k : Packet) (s : State) (h_s : Keeps pmk z s)  (hu : Cov pmk 83905779 := by exact cov_sub (by assumption) rfl) :
    Keeps pmk z (State.arrived p k s) := by
  unfold State.arrived
  repeat' first
    | (with_reducible first | assumption | exact cov_sub hu rfl | apply State.bump_inv | apply State.haltPort_inv | apply State.modPort_inv | apply State.raise_inv | apply State.returnCells_inv | apply State.store_inv | apply ite_inv)

theorem State.malformedRx_inv (p : Nat) (s : State) (h_s : Keeps pmk z s)  (hu : Cov pmk 83904739 := by exact cov_sub (by assumption) rfl) :
    Keeps pmk z (State.malformedRx p s) := by
  unfold State.malformedRx
  repeat' first
    | (with_reducible first | assumption | exact cov_sub hu rfl | apply State.bumpHi_inv | apply State.modPort_inv | apply State.raise_inv | apply State.returnCells_inv)
    | split

theorem State.startPackets_inv (p n : Nat) : ∀ (l : List (List Byte)) (s : State), Keeps pmk z s →
    (hu : Cov pmk 83905779 := by exact cov_sub (by assumption) rfl) → Keeps pmk z (State.startPackets p n l s) := by
  induction n with
  | zero => intro l s h hu; unfold State.startPackets; exact h
  | succ n ih =>
    intro l s h hu
    cases l with
    | nil => unfold State.startPackets; exact h
    | cons sl rest =>
      unfold State.startPackets
      exact ite_inv (State.malformedRx_inv _ _ h) (ite_inv (State.modPort_inv _ _ _ h) (ih _ _ (State.arrived_inv _ _ _ h) hu))

theorem State.slotsRx_inv (p : Nat) (f : Flit) (s : State) (h_s : Keeps pmk z s)  (hu : Cov pmk 83905779 := by exact cov_sub (by assumption) rfl) :
    Keeps pmk z (State.slotsRx p f s) := by
  unfold State.slotsRx
  repeat' first
    | (with_reducible first | assumption | exact cov_sub hu rfl | apply State.arrived_inv | apply State.malformedRx_inv | apply State.modPort_inv | apply State.returnCells_inv | apply State.startPackets_inv | apply ite_inv)
    | ((try lift_lets); intro x; have hx : Keeps pmk z x := ?_; revert hx; generalize x = y; clear x; intro hx; rotate_left; (dsimp -zeta only [x]))
    | split
    | dsimp only

theorem State.ackRx_inv (p : Nat) (f : Flit) (s : State) (h_s : Keeps pmk z s)  (hu : Cov pmk 83904739 := by exact cov_sub (by assumption) rfl) :
    Keeps pmk z (State.ackRx p f s) := by
  unfold State.ackRx
  repeat' first
    | (with_reducible first | assumption | exact cov_sub hu rfl | apply State.bump_inv | apply State.linkError_inv | apply State.modPort_inv | apply ite_inv)

theorem State.badFlit_inv (p : Nat) (s : State) (h_s : Keeps pmk z s)  (hu : Cov pmk 34 := by exact cov_sub (by assumption) rfl) :
    Keeps pmk z (State.badFlit p s) := by
  unfold State.badFlit
  repeat' first
    | (with_reducible first | assumption | exact cov_sub hu rfl | apply State.bump_inv | apply State.modPort_inv | apply ite_inv)

theorem State.dataRx_inv (p : Nat) (f : Flit) (s : State) (h_s : Keeps pmk z s)  (hu : Cov pmk 83905779 := by exact cov_sub (by assumption) rfl) :
    Keeps pmk z (State.dataRx p f s) := by
  unfold State.dataRx
  repeat' first
    | (with_reducible first | assumption | exact cov_sub hu rfl | apply State.ackRx_inv | apply State.creditRx_inv | apply State.modPort_inv | apply State.slotsRx_inv | apply ite_inv)

theorem State.flitRx_inv (p : Nat) (bytes : List Byte) (s : State) (h_s : Keeps pmk z s)  (hu : Cov pmk 83905779 := by exact cov_sub (by assumption) rfl) :
    Keeps pmk z (State.flitRx p bytes s) := by
  unfold State.flitRx
  repeat' first
    | (with_reducible first | assumption | exact cov_sub hu rfl | apply State.ackRx_inv | apply State.badFlit_inv | apply State.bump_inv | apply State.ctrlRx_inv | apply State.dataRx_inv | apply State.enterActive_inv | apply ite_inv)
    | ((try lift_lets); intro x; have hx : Keeps pmk z x := ?_; revert hx; generalize x = y; clear x; intro hx; rotate_left; (dsimp -zeta only [x]))
    | split

theorem State.putFlit_inv (p type : Nat) (slots : List Slot) (s : State) (h_s : Keeps pmk z s)  (hu : Cov pmk 16777250 := by exact cov_sub (by assumption) rfl) :
    Keeps pmk z (State.putFlit p type slots s) := by
  unfold State.putFlit
  repeat' first
    | (with_reducible first | assumption | exact cov_sub hu rfl | apply State.bump_inv | apply State.emit_inv | apply State.modPort_inv)

theorem State.nextFlit_inv (p : Nat) (s : State) (h_s : Keeps pmk z s)  (hu : Cov pmk 16777250 := by exact cov_sub (by assumption) rfl) :
    Keeps pmk z (State.nextFlit p s) := by
  unfold State.nextFlit
  repeat' first
    | (with_reducible first | assumption | exact cov_sub hu rfl | apply State.bump_inv | apply State.emit_inv | apply State.modPort_inv | apply State.putFlit_inv | apply ite_inv)
    | ((try lift_lets); intro x; generalize x = y; clear x)
    | split

theorem State.resetPortPage_inv (p : Nat) (s : State) (h : Keeps pmk z s) (hu : Cov pmk 115 := by exact cov_sub (by assumption) rfl) : Keeps pmk z (State.resetPortPage p s) := by
  obtain ⟨h1, h2, h3, h4, h5, h6, h7, h8⟩ := (hub_wf_iff _).1 h.inv.2
  unfold State.resetPortPage
  refine State.modPort_inv _ _ _ (State.modSw_inv _ _ (State.modTime_inv _ _ (modHub_inv h 3 ?_ ?_)))
  rotate_left
  · exact hub_frame (.inl rfl) (.inl rfl) (.inr ⟨rfl, rfl⟩) (.inr ⟨rfl, rfl, rfl, rfl⟩)
  have g1 := wf_clear _ (adr .port p 0) (adr .port p 0 + 0x1000) h1
  have g2 := wf_keep _ (fun k _ => !(decide (adr .port p 0 + 0x80 ≤ k) && decide (k < adr .port p 0 + 0x1000))) h2
  exact (hub_wf_iff _).2 ⟨g1, g2, h3, h4, h5, h6, h7, by exact regs_filter _ h8⟩

theorem State.applyLayout_inv (octs : List Nat) (s : State) (h_s : Keeps pmk z s)  (hu : Cov pmk 115 := by exact cov_sub (by assumption) rfl) :
    Keeps pmk z (State.applyLayout octs s) := by
  unfold State.applyLayout
  repeat' first
    | (refine fun _ => ?_)
    | (with_reducible first | assumption | exact cov_sub hu rfl | apply State.modLink_inv | apply State.modPort_inv | apply State.resetPortPage_inv | apply State.setRg_inv | apply foldl_inv | apply ite_inv)

theorem State.octetApply_inv (n : Nat) (s : State) (h_s : Keeps pmk z s)  (hu : Cov pmk 115 := by exact cov_sub (by assumption) rfl) :
    Keeps pmk z (State.octetApply n s) := by
  unfold State.octetApply
  repeat' first
    | (with_reducible first | assumption | exact cov_sub hu rfl | apply State.applyLayout_inv | apply State.setRf_inv | apply ite_inv)

theorem State.writePortCtrl_inv (p : Nat) (v : Word) (s : State) (h_s : Keeps pmk z s)  (hu : Cov pmk 83905779 := by exact cov_sub (by assumption) rfl) :
    Keeps pmk z (State.writePortCtrl p v s) := by
  unfold State.writePortCtrl
  repeat' first
    | (with_reducible first | assumption | exact cov_sub hu rfl | apply State.bump_inv | apply State.leaveTo_inv | apply State.linkError_inv | apply State.modPort_inv | apply State.raise_inv | apply State.setRg_inv | apply ite_inv)

theorem execOctetApply_inv (src : Source) (n : Nat) (val : Word) (s : State) (h_s : Keeps pmk z s)  (hu : Cov pmk 123 := by exact cov_sub (by assumption) rfl) :
    Safe pmk z (execOctetApply src n val s) := by
  unfold execOctetApply
  show Keeps pmk z _
  repeat' first
    | (refine fun _ => ?_)
    | (with_reducible first | assumption | exact cov_sub hu rfl | apply State.guarded_inv | apply State.octetApply_inv | apply ite_inv)

theorem execPortDisable_inv (src : Source) (p : Nat) (val : Word) (s : State) (h_s : Keeps pmk z s)  (hu : Cov pmk 83905787 := by exact cov_sub (by assumption) rfl) :
    Safe pmk z (execPortDisable src p val s) := by
  unfold execPortDisable
  show Keeps pmk z _
  repeat' first
    | (refine fun _ => ?_)
    | (with_reducible first | assumption | exact cov_sub hu rfl | apply State.guarded_inv | apply State.writePortCtrl_inv)

theorem execPortRetrain_inv (src : Source) (p : Nat) (val : Word) (s : State) (h_s : Keeps pmk z s)  (hu : Cov pmk 83905787 := by exact cov_sub (by assumption) rfl) :
    Safe pmk z (execPortRetrain src p val s) := by
  unfold execPortRetrain
  show Keeps pmk z _
  repeat' first
    | (refine fun _ => ?_)
    | (with_reducible first | assumption | exact cov_sub hu rfl | apply State.guarded_inv | apply State.writePortCtrl_inv)

theorem execSignalDetect_inv (p : Nat) (s : State) (h_s : Keeps pmk z s)  (hu : Cov pmk 33 := by exact cov_sub (by assumption) rfl) :
    Safe pmk z (execSignalDetect p s) := by
  unfold execSignalDetect
  show Keeps pmk z _
  repeat' first
    | (with_reducible first | assumption | exact cov_sub hu rfl | apply State.lanesBit_inv | apply State.modPort_inv | apply ite_inv)

theorem execSignalLost_inv (p lane : Nat) (s : State) (h_s : Keeps pmk z s)  (hu : Cov pmk 83905779 := by exact cov_sub (by assumption) rfl) :
    Safe pmk z (execSignalLost p lane s) := by
  unfold execSignalLost
  show Keeps pmk z _
  repeat' first
    | (with_reducible first | assumption | exact cov_sub hu rfl | apply State.bump_inv | apply State.laneBit_inv | apply State.leaveTo_inv | apply State.modPort_inv | apply State.raise_inv | apply ite_inv)
    | ((try lift_lets); intro x; have hx : Keeps pmk z x := ?_; revert hx; generalize x = y; clear x; intro hx; rotate_left; (dsimp -zeta only [x]))
    | split

theorem execEqualisationDone_inv (p : Nat) (errors : List Nat) (received : Nat) (s : State) (h_s : Keeps pmk z s)  (hu : Cov pmk 83905779 := by exact cov_sub (by assumption) rfl) :
    Safe pmk z (execEqualisationDone p errors received s) := by
  unfold execEqualisationDone
  show Keeps pmk z _
  repeat' first
    | (refine fun _ => ?_)
    | (with_reducible first | assumption | exact cov_sub hu rfl | apply State.enterParam_inv | apply State.laneBit_inv | apply State.lanesBit_inv | apply State.modPort_inv | apply State.putFlit_inv | apply foldl_inv | apply ite_inv)

theorem execPortTimerExpire_inv (p : Nat) (s : State) (h_s : Keeps pmk z s)  (hu : Cov pmk 83905779 := by exact cov_sub (by assumption) rfl) :
    Safe pmk z (execPortTimerExpire p s) := by
  unfold execPortTimerExpire
  show Keeps pmk z _
  repeat' first
    | (with_reducible first | assumption | exact cov_sub hu rfl | apply State.bumpLo_inv | apply State.leaveTo_inv)
    | split

theorem execParamSend_inv (p : Nat) (s : State) (h_s : Keeps pmk z s)  (hu : Cov pmk 16777218 := by exact cov_sub (by assumption) rfl) :
    Safe pmk z (execParamSend p s) := by
  unfold execParamSend
  show Keeps pmk z _
  repeat' first
    | (with_reducible first | assumption | apply State.sendCtrl_inv | apply ite_inv)

theorem execCreditAdvSend_inv (p : Nat) (s : State) (h_s : Keeps pmk z s)  (hu : Cov pmk 16777218 := by exact cov_sub (by assumption) rfl) :
    Safe pmk z (execCreditAdvSend p s) := by
  unfold execCreditAdvSend
  show Keeps pmk z _
  repeat' first
    | (with_reducible first | assumption | apply State.sendCtrl_inv | apply ite_inv)

theorem execParamRx_inv (p : Nat) (rec : List Byte) (s : State) (h_s : Keeps pmk z s)  (hu : Cov pmk 83905779 := by exact cov_sub (by assumption) rfl) :
    Safe pmk z (execParamRx p rec s) := by
  unfold execParamRx
  show Keeps pmk z _
  repeat' first
    | (with_reducible first | assumption | apply State.ctrlRx_inv)

theorem execCreditAdvRx_inv (p : Nat) (rec : List Byte) (s : State) (h_s : Keeps pmk z s)  (hu : Cov pmk 83905779 := by exact cov_sub (by assumption) rfl) :
    Safe pmk z (execCreditAdvRx p rec s) := by
  unfold execCreditAdvRx
  show Keeps pmk z _
  repeat' first
    | (with_reducible first | assumption | apply State.ctrlRx_inv)

theorem execRetrainReqRx_inv (p : Nat) (rec : List Byte) (s : State) (h_s : Keeps pmk z s)  (hu : Cov pmk 83905779 := by exact cov_sub (by assumption) rfl) :
    Safe pmk z (execRetrainReqRx p rec s) := by
  unfold execRetrainReqRx
  show Keeps pmk z _
  repeat' first
    | (with_reducible first | assumption | apply State.ctrlRx_inv)

theorem execDataFlitRx_inv (p : Nat) (flit : List Byte) (s : State) (h_s : Keeps pmk z s)  (hu : Cov pmk 83905779 := by exact cov_sub (by assumption) rfl) :
    Safe pmk z (execDataFlitRx p flit s) := by
  unfold execDataFlitRx
  show Keeps pmk z _
  repeat' first
    | (with_reducible first | assumption | apply State.flitRx_inv)

theorem execIdleFlitRx_inv (p : Nat) (flit : List Byte) (s : State) (h_s : Keeps pmk z s)  (hu : Cov pmk 83905779 := by exact cov_sub (by assumption) rfl) :
    Safe pmk z (execIdleFlitRx p flit s) := by
  unfold execIdleFlitRx
  show Keeps pmk z _
  repeat' first
    | (with_reducible first | assumption | apply State.flitRx_inv)

theorem execFlitTx_inv (p : Nat) (s : State) (h_s : Keeps pmk z s)  (hu : Cov pmk 16777250 := by exact cov_sub (by assumption) rfl) :
    Safe pmk z (execFlitTx p s) := by
  unfold execFlitTx
  show Keeps pmk z _
  repeat' first
    | (with_reducible first | assumption | apply State.nextFlit_inv | apply ite_inv)

/-! ### Ttu -/

theorem execMreqIssue_inv (id : Nat) (s : State) (h_s : Keeps pmk z s)  (hu : Cov pmk 118640611 := by exact cov_sub (by assumption) rfl) :
    Safe pmk z (execMreqIssue id s) := by
  unfold execMreqIssue
  show Keeps pmk z _
  repeat' first
    | (with_reducible first | assumption | exact cov_sub hu rfl | apply State.issue_inv | apply State.issueUnit_inv | apply ite_inv)
    | split

theorem State.trayRsp_inv (g : Tag) (r : Req) (part : Part) (p : Packet) (s : State) (h_s : Keeps pmk z s)  (hu : Cov pmk 118639843 := by exact cov_sub (by assumption) rfl) :
    Keeps pmk z (State.trayRsp g r part p s) := by
  unfold State.trayRsp
  repeat' first
    | (with_reducible first | assumption | exact cov_sub hu rfl | apply State.partAnswer_inv | apply State.settle_inv)

theorem execTargetRspRx_inv (p : Nat) (pkt : Packet) (s : State) (h_s : Keeps pmk z s)  (hu : Cov pmk 118639843 := by exact cov_sub (by assumption) rfl) :
    Safe pmk z (execTargetRspRx p pkt s) := by
  unfold execTargetRspRx
  show Keeps pmk z _
  repeat' first
    | (with_reducible first | assumption | exact cov_sub hu rfl | apply State.freeLocal_inv | apply State.staleRsp_inv | apply State.takeLocal_inv | apply State.trayRsp_inv | apply ite_inv)
    | split

theorem State.cxlLine_inv (p tag : Nat) (data : List Byte) (poisoned : Bool) (s : State) (h_s : Keeps pmk z s)  (hu : Cov pmk 118639843 := by exact cov_sub (by assumption) rfl) :
    Keeps pmk z (State.cxlLine p tag data poisoned s) := by
  unfold State.cxlLine
  repeat' first
    | (with_reducible first | assumption | exact cov_sub hu rfl | apply State.modPort_inv | apply State.partAnswer_inv | apply State.setPart_inv | apply State.settle_inv | apply ite_inv)
    | ((try lift_lets); intro x; have hx : Keeps pmk z x := ?_; revert hx; generalize x = y; clear x; intro hx; rotate_left; (dsimp -zeta only [x]))
    | split

theorem execCxlMemdataRx_inv (p tag : Nat) (data : List Byte) (poisoned : Bool) (devLoad : Nat) (s : State) (h_s : Keeps pmk z s)  (hu : Cov pmk 118639843 := by exact cov_sub (by assumption) rfl) :
    Safe pmk z (execCxlMemdataRx p tag data poisoned devLoad s) := by
  unfold execCxlMemdataRx
  show Keeps pmk z _
  repeat' first
    | (with_reducible first | assumption | exact cov_sub hu rfl | apply State.bumpHi_inv | apply State.cxlLine_inv | apply State.raise_inv | apply State.setRf_inv | apply ite_inv)

theorem execBarnAccessDone_inv (tag : Nat) (s : State) (h_s : Keeps pmk z s)  (hu : Cov pmk 118640355 := by exact cov_sub (by assumption) rfl) :
    Safe pmk z (execBarnAccessDone tag s) := by
  unfold execBarnAccessDone
  show Keeps pmk z _
  repeat' first
    | (with_reducible first | assumption | exact cov_sub hu rfl | apply State.settle_inv | apply State.tierTry_inv | apply ite_inv)
    | split

theorem execResponseCellWaitEnd_inv (s : State) (h_s : Keeps pmk z s)  (hu : Cov pmk 67108962 := by exact cov_sub (by assumption) rfl) :
    Safe pmk z (execResponseCellWaitEnd s) := by
  unfold execResponseCellWaitEnd
  show Keeps pmk z _
  repeat' first
    | (with_reducible first | assumption | apply State.unstallN_inv)

theorem State.deadPort_inv (p : Nat) (s : State) (h_s : Keeps pmk z s)  (hu : Cov pmk 118639843 := by exact cov_sub (by assumption) rfl) :
    Keeps pmk z (State.deadPort p s) := by
  unfold State.deadPort
  repeat' first
    | (refine fun _ => ?_)
    | (with_reducible first | assumption | exact cov_sub hu rfl | apply State.endPart_inv | apply State.setRf_inv | apply State.setTag_inv | apply State.settle_inv | apply foldl_inv)

theorem execTargetTimeout_inv (p : Nat) (s : State) (h_s : Keeps pmk z s)  (hu : Cov pmk 118639843 := by exact cov_sub (by assumption) rfl) :
    Safe pmk z (execTargetTimeout p s) := by
  unfold execTargetTimeout
  show Keeps pmk z _
  repeat' first
    | (with_reducible first | assumption | exact cov_sub hu rfl | apply State.deadPort_inv | apply State.raise_inv | apply ite_inv)
    | split

theorem State.writeTargetState_inv (p : Nat) (v : Word) (s : State) (h_s : Keeps pmk z s)  (hu : Cov pmk 1 := by exact cov_sub (by assumption) rfl) :
    Keeps pmk z (State.writeTargetState p v s) := by
  unfold State.writeTargetState
  repeat' first
    | (with_reducible first | assumption | apply State.setRf_inv | apply ite_inv)

theorem execTargetDeadClear_inv (src : Source) (p : Nat) (val : Word) (s : State) (h_s : Keeps pmk z s)  (hu : Cov pmk 11 := by exact cov_sub (by assumption) rfl) :
    Safe pmk z (execTargetDeadClear src p val s) := by
  unfold execTargetDeadClear
  show Keeps pmk z _
  repeat' first
    | (refine fun _ => ?_)
    | (with_reducible first | assumption | exact cov_sub hu rfl | apply State.guarded_inv | apply State.writeTargetState_inv)

theorem execCxlLinkFatal_inv (p : Nat) (cause : CxlFatal) (s : State) (h_s : Keeps pmk z s)  (hu : Cov pmk 118639859 := by exact cov_sub (by assumption) rfl) :
    Safe pmk z (execCxlLinkFatal p cause s) := by
  unfold execCxlLinkFatal
  show Keeps pmk z _
  repeat' first
    | (with_reducible first | assumption | exact cov_sub hu rfl | apply State.deadPort_inv | apply State.leaveTo_inv | apply State.raise_inv | apply ite_inv)

theorem execGranReqTimeout_inv (tag : Nat) (s : State) (h_s : Keeps pmk z s)  (hu : Cov pmk 118639843 := by exact cov_sub (by assumption) rfl) :
    Safe pmk z (execGranReqTimeout tag s) := by
  unfold execGranReqTimeout
  show Keeps pmk z _
  repeat' first
    | (with_reducible first | assumption | exact cov_sub hu rfl | apply State.bump_inv | apply State.endPart_inv | apply State.settle_inv | apply ite_inv)
    | split

theorem State.jobInval_inv (j : Nat) (s : State) (h_s : Keeps pmk z s)  (hu : Cov pmk 1024 := by exact cov_sub (by assumption) rfl) :
    Keeps pmk z (State.jobInval j s) := by
  unfold State.jobInval
  repeat' first
    | (with_reducible first | assumption | apply State.modTtu_inv)

theorem State.writeInval_inv (j : Nat) (v : Word) (s : State) (h_s : Keeps pmk z s)  (hu : Cov pmk 1024 := by exact cov_sub (by assumption) rfl) :
    Keeps pmk z (State.writeInval j v s) := by
  unfold State.writeInval
  repeat' first
    | (with_reducible first | assumption | apply State.jobInval_inv | apply ite_inv)

theorem execJobInval_inv (src : Source) (j : Nat) (val : Word) (s : State) (h_s : Keeps pmk z s)  (hu : Cov pmk 1035 := by exact cov_sub (by assumption) rfl) :
    Safe pmk z (execJobInval src j val s) := by
  unfold execJobInval
  show Keeps pmk z _
  repeat' first
    | (refine fun _ => ?_)
    | (with_reducible first | assumption | exact cov_sub hu rfl | apply State.guarded_inv | apply State.writeInval_inv)

theorem execInvalDone_inv (j : Nat) (s : State) (h_s : Keeps pmk z s)  (hu : Cov pmk 1024 := by exact cov_sub (by assumption) rfl) :
    Safe pmk z (execInvalDone j s) := by
  unfold execInvalDone
  show Keeps pmk z _
  repeat' first
    | (with_reducible first | assumption | apply State.modTtu_inv | apply ite_inv)
    | split

theorem execCreqRx_inv (p : Nat) (pkt : Packet) (s : State) (h_s : Keeps pmk z s)  (hu : Cov pmk 117595363 := by exact cov_sub (by assumption) rfl) :
    Safe pmk z (execCreqRx p pkt s) := by
  unfold execCreqRx
  show Keeps pmk z _
  repeat' first
    | (with_reducible first | assumption | exact cov_sub hu rfl | apply State.creqRx_inv | apply State.takeLocal_inv | apply ite_inv)

theorem State.groupStart_inv (g : Option Nat) (s : State) (h_s : Keeps pmk z s)  (hu : Cov pmk 67240034 := by exact cov_sub (by assumption) rfl) :
    Keeps pmk z (State.groupStart g s) := by
  unfold State.groupStart
  repeat' first
    | (with_reducible first | assumption | exact cov_sub hu rfl | apply State.copyGone_inv | apply State.setGroup_inv | apply State.unstall_inv | apply ite_inv)
    | split

theorem State.trkStart_inv (id t : Nat) (w : HReq) (needs : Bool) (s : State) (h_s : Keeps pmk z s)  (hu : Cov pmk 117591267 := by exact cov_sub (by assumption) rfl) :
    Keeps pmk z (State.trkStart id t w needs s) := by
  unfold State.trkStart
  repeat' first
    | (with_reducible first | assumption | exact cov_sub hu rfl | apply State.groupStart_inv | apply State.modHome_inv | apply State.planTrk_inv | apply State.setTrk_inv | apply State.takeFree_inv | apply State.wakeTrks_inv | apply ite_inv)

theorem execTrackerStart_inv (id : Nat) (s : State) (h_s : Keeps pmk z s) (hu : Cov pmk 117591267 := by exact cov_sub (by assumption) rfl) :
    Safe pmk z (execTrackerStart id s) := by
  unfold execTrackerStart
  show Keeps pmk z _
  split
  · exact h_s
  · rename_i w _
    dsimp only
    refine ite_inv h_s ?_
    generalize s.pickTrk (s.domDie w.dom) = t
    cases t with
    | none => exact h_s
    | some t => exact State.trkStart_inv _ _ _ _ _ h_s

theorem execSnpRespRx_inv (p : Nat) (pkt : Packet) (s : State) (h_s : Keeps pmk z s)  (hu : Cov pmk 117591267 := by exact cov_sub (by assumption) rfl) :
    Safe pmk z (execSnpRespRx p pkt s) := by
  unfold execSnpRespRx
  show Keeps pmk z _
  repeat' first
    | (with_reducible first | assumption | exact cov_sub hu rfl | apply State.bump_inv | apply State.cohMatch_inv | apply State.freeLocal_inv | apply State.setTrk_inv | apply State.snoopCheck_inv | apply State.takeLocal_inv)
    | ((try lift_lets); intro x; generalize x = y; clear x)
    | split

theorem execCdatHomeRx_inv (p : Nat) (pkt : Packet) (s : State) (h_s : Keeps pmk z s)  (hu : Cov pmk 117591267 := by exact cov_sub (by assumption) rfl) :
    Safe pmk z (execCdatHomeRx p pkt s) := by
  unfold execCdatHomeRx
  show Keeps pmk z _
  repeat' first
    | (with_reducible first | assumption | exact cov_sub hu rfl | apply State.bump_inv | apply State.cohMatch_inv | apply State.freeLocal_inv | apply State.setTrk_inv | apply State.snoopCheck_inv | apply State.takeLocal_inv)
    | split

theorem execCompAckRx_inv (p : Nat) (pkt : Packet) (s : State) (h_s : Keeps pmk z s)  (hu : Cov pmk 117591267 := by exact cov_sub (by assumption) rfl) :
    Safe pmk z (execCompAckRx p pkt s) := by
  unfold execCompAckRx
  show Keeps pmk z _
  repeat' first
    | (with_reducible first | assumption | exact cov_sub hu rfl | apply State.bump_inv | apply State.cohMatch_inv | apply State.freeLocal_inv | apply State.runTrk_inv | apply State.setTrk_inv | apply State.takeLocal_inv | apply State.wakeTrks_inv | apply ite_inv)
    | split

theorem execSnoopTimeout_inv (t : Nat) (s : State) (h_s : Keeps pmk z s)  (hu : Cov pmk 117591267 := by exact cov_sub (by assumption) rfl) :
    Safe pmk z (execSnoopTimeout t s) := by
  unfold execSnoopTimeout
  show Keeps pmk z _
  repeat' first
    | (with_reducible first | assumption | apply State.domDown_inv | apply ite_inv)
    | split

theorem State.writeAgent_inv (k a v : Nat) (s : State) (h_s : Keeps pmk z s)  (hu : Cov pmk 117591271 := by exact cov_sub (by assumption) rfl) :
    Keeps pmk z (State.writeAgent k a v s) := by
  unfold State.writeAgent
  repeat' first
    | (with_reducible first | assumption | exact cov_sub hu rfl | apply State.domDown_inv | apply State.setEntry_inv | apply ite_inv)

theorem execAgentDeadWrite_inv (src : Source) (k a : Nat) (s : State) (h_s : Keeps pmk z s)  (hu : Cov pmk 117591271 := by exact cov_sub (by assumption) rfl) :
    Safe pmk z (execAgentDeadWrite src k a s) := by
  unfold execAgentDeadWrite
  show Keeps pmk z _
  repeat' first
    | (with_reducible first | assumption | apply State.writeAgent_inv | apply ite_inv)

theorem State.domReject_inv (k r : Nat) (s : State) (h_s : Keeps pmk z s)  (hu : Cov pmk 1 := by exact cov_sub (by assumption) rfl) :
    Keeps pmk z (State.domReject k r s) := by
  unfold State.domReject
  repeat' first
    | (with_reducible first | assumption | apply State.setRf_inv)

theorem State.zeroBarn_inv (a n : Nat) (s : State) (h : Keeps pmk z s) (hu : Cov pmk 128 := by exact cov_sub (by assumption) rfl) : Keeps pmk z (State.zeroBarn a n s) := by
  unfold State.zeroBarn
  refine modMem_inv h ?_
  have h1 := (mem_wf_iff _).1 h.inv.1
  have h2 := (mem_wf_iff _).1 (mem_wf_store (List.replicate n 0) s.mem a h.inv.1)
  have h3 : ∀ (b : Tbl (Option Byte)) (p : Tbl Bool) (x : Nat),
      MemUnit.back { barn := b, bg := s.mem.bg, poison := p } x = s.mem.back x := fun _ _ _ => rfl
  refine (mem_wf_iff _).2 ⟨?_, wf_clear _ _ _ h1.2.1, fun e he => ?_⟩
  · dsimp only
    split
    · exact wf_clear _ _ _ h1.1
    · exact h2.1
  · rw [h3]
    dsimp only at he
    split at he
    · exact h1.2.2 e (List.mem_filter.1 he).1
    · rw [← mem_back_congr s.mem _ (mem_store_bg _ _ _) e.1]
      exact h2.2.2 e he

theorem State.domEnable_inv (k : Nat) (s : State) (h_s : Keeps pmk z s)  (hu : Cov pmk 131201 := by exact cov_sub (by assumption) rfl) :
    Keeps pmk z (State.domEnable k s) := by
  unfold State.domEnable
  repeat' first
    | (with_reducible first | assumption | exact cov_sub hu rfl | apply State.domReject_inv | apply State.setDom_inv | apply State.zeroBarn_inv | apply ite_inv)
    | ((try lift_lets); intro x; generalize x = y; clear x)
    | split

theorem State.recallAll_inv (k : Nat) (s : State) (h_s : Keeps pmk z s)  (hu : Cov pmk 67239936 := by exact cov_sub (by assumption) rfl) :
    Keeps pmk z (State.recallAll k s) := by
  unfold State.recallAll
  repeat' first
    | (refine fun _ => ?_)
    | (with_reducible first | assumption | exact cov_sub hu rfl | apply State.modHome_inv | apply State.takeNames_inv | apply foldl_inv)

theorem State.domFlush_inv (k : Nat) (s : State) (h_s : Keeps pmk z s)  (hu : Cov pmk 67239937 := by exact cov_sub (by assumption) rfl) :
    Keeps pmk z (State.domFlush k s) := by
  unfold State.domFlush
  repeat' first
    | (with_reducible first | assumption | exact cov_sub hu rfl | apply State.domReject_inv | apply State.recallAll_inv | apply State.setDom_inv)
    | split

theorem State.domReset_inv (k : Nat) (s : State) (h_s : Keeps pmk z s)  (hu : Cov pmk 131073 := by exact cov_sub (by assumption) rfl) :
    Keeps pmk z (State.domReset k s) := by
  unfold State.domReset
  repeat' first
    | (with_reducible first | assumption | exact cov_sub hu rfl | apply State.domReject_inv | apply State.setDom_inv)
    | split

theorem execDomEnable_inv (src : Source) (k : Nat) (s : State) (h_s : Keeps pmk z s)  (hu : Cov pmk 131211 := by exact cov_sub (by assumption) rfl) :
    Safe pmk z (execDomEnable src k s) := by
  unfold execDomEnable
  show Keeps pmk z _
  repeat' first
    | (refine fun _ => ?_)
    | (with_reducible first | assumption | exact cov_sub hu rfl | apply State.domEnable_inv | apply State.guarded_inv)

theorem execDomFlush_inv (src : Source) (k : Nat) (s : State) (h_s : Keeps pmk z s)  (hu : Cov pmk 67239947 := by exact cov_sub (by assumption) rfl) :
    Safe pmk z (execDomFlush src k s) := by
  unfold execDomFlush
  show Keeps pmk z _
  repeat' first
    | (refine fun _ => ?_)
    | (with_reducible first | assumption | exact cov_sub hu rfl | apply State.domFlush_inv | apply State.guarded_inv)

theorem execDomReset_inv (src : Source) (k : Nat) (s : State) (h_s : Keeps pmk z s)  (hu : Cov pmk 131083 := by exact cov_sub (by assumption) rfl) :
    Safe pmk z (execDomReset src k s) := by
  unfold execDomReset
  show Keeps pmk z _
  repeat' first
    | (refine fun _ => ?_)
    | (with_reducible first | assumption | exact cov_sub hu rfl | apply State.domReset_inv | apply State.guarded_inv)

theorem execDomSweepDone_inv (k : Nat) (s : State) (h_s : Keeps pmk z s)  (hu : Cov pmk 84033539 := by exact cov_sub (by assumption) rfl) :
    Safe pmk z (execDomSweepDone k s) := by
  unfold execDomSweepDone
  show Keeps pmk z _
  repeat' first
    | (with_reducible first | assumption | exact cov_sub hu rfl | apply State.raiseInt_inv | apply State.recallAll_inv | apply State.setDom_inv | apply ite_inv)
    | ((try lift_lets); intro x; generalize x = y; clear x)
    | split

/-! ### Tier -/

theorem State.tierReject_inv (r : Nat) (s : State) (h_s : Keeps pmk z s)  (hu : Cov pmk 1 := by exact cov_sub (by assumption) rfl) :
    Keeps pmk z (State.tierReject r s) := by
  unfold State.tierReject
  repeat' first
    | (with_reducible first | assumption | apply State.setRf_inv)

theorem State.tierEnable_inv (s : State) (h_s : Keeps pmk z s)  (hu : Cov pmk 129 := by exact cov_sub (by assumption) rfl) :
    Keeps pmk z (State.tierEnable s) := by
  unfold State.tierEnable
  repeat' first
    | (with_reducible first | assumption | exact cov_sub hu rfl | apply State.setRf_inv | apply State.setRg_inv | apply State.tierReject_inv | apply State.zeroBarn_inv | apply ite_inv)

theorem State.tierDisable_inv (s : State) (h_s : Keeps pmk z s)  (hu : Cov pmk 1 := by exact cov_sub (by assumption) rfl) :
    Keeps pmk z (State.tierDisable s) := by
  unfold State.tierDisable
  repeat' first
    | (with_reducible first | assumption | apply State.setRf_inv | apply State.setRg_inv | apply State.tierReject_inv | apply ite_inv)

theorem State.writeTierCtrl_inv (v : Word) (s : State) (h_s : Keeps pmk z s)  (hu : Cov pmk 129 := by exact cov_sub (by assumption) rfl) :
    Keeps pmk z (State.writeTierCtrl v s) := by
  unfold State.writeTierCtrl
  repeat' first
    | (with_reducible first | assumption | exact cov_sub hu rfl | apply State.tierDisable_inv | apply State.tierEnable_inv | apply ite_inv)

theorem execTierEnable_inv (src : Source) (s : State) (h_s : Keeps pmk z s)  (hu : Cov pmk 139 := by exact cov_sub (by assumption) rfl) :
    Safe pmk z (execTierEnable src s) := by
  unfold execTierEnable
  show Keeps pmk z _
  repeat' first
    | (refine fun _ => ?_)
    | (with_reducible first | assumption | exact cov_sub hu rfl | apply State.guarded_inv | apply State.writeTierCtrl_inv)

theorem execTierDisable_inv (src : Source) (s : State) (h_s : Keeps pmk z s)  (hu : Cov pmk 139 := by exact cov_sub (by assumption) rfl) :
    Safe pmk z (execTierDisable src s) := by
  unfold execTierDisable
  show Keeps pmk z _
  repeat' first
    | (refine fun _ => ?_)
    | (with_reducible first | assumption | exact cov_sub hu rfl | apply State.guarded_inv | apply State.writeTierCtrl_inv)

theorem State.tierResult_inv (r : Nat) (s : State) (h_s : Keeps pmk z s)  (hu : Cov pmk 512 := by exact cov_sub (by assumption) rfl) :
    Keeps pmk z (State.tierResult r s) := by
  unfold State.tierResult
  repeat' first
    | (with_reducible first | assumption | apply State.modTier_inv)

theorem State.tierSkip_inv (s : State) (h_s : Keeps pmk z s)  (hu : Cov pmk 513 := by exact cov_sub (by assumption) rfl) :
    Keeps pmk z (State.tierSkip s) := by
  unfold State.tierSkip
  repeat' first
    | (with_reducible first | assumption | exact cov_sub hu rfl | apply State.setRf_inv | apply State.tierResult_inv)

theorem State.stageFrame_inv (f : Nat) (s : State) (h_s : Keeps pmk z s)  (hu : Cov pmk 117460707 := by exact cov_sub (by assumption) rfl) :
    Keeps pmk z (State.stageFrame f s) := by
  unfold State.stageFrame
  repeat' first
    | (refine fun _ => ?_)
    | (with_reducible first | assumption | exact cov_sub hu rfl | apply State.fillSector_inv | apply State.granFill_inv | apply foldl_inv | apply ite_inv)

theorem State.setPin_inv (f : Nat) (v : Bool) (s : State) (h_s : Keeps pmk z s)  (hu : Cov pmk 640 := by exact cov_sub (by assumption) rfl) :
    Keeps pmk z (State.setPin f v s) := by
  unfold State.setPin
  repeat' first
    | (with_reducible first | assumption | apply State.setFrame_inv)

theorem State.stageUnit_inv (pin : Bool) (entry u : Nat) (s : State) (h_s : Keeps pmk z s)  (hu : Cov pmk 117460707 := by exact cov_sub (by assumption) rfl) :
    Keeps pmk z (State.stageUnit pin entry u s).2 := by
  unfold State.stageUnit
  repeat' first
    | (with_reducible first | assumption | exact cov_sub hu rfl | apply State.setPin_inv | apply State.stageFrame_inv | apply State.takeWay_inv | apply State.tierSkip_inv | apply ite_inv | apply ite_snd_inv)
    | ((try lift_lets); intro x; generalize x = y; clear x)
    | (split <;> first | (rename_i heq; have hi := (congrArg (fun p => Keeps pmk z (Prod.snd (Prod.snd p))) heq).mp ?_; try dsimp only at hi) | (rename_i heq; have hi := (congrArg (fun p => Keeps pmk z (Prod.snd p)) heq).mp ?_; try dsimp only at hi) | (rename_i heq _; have hi := (congrArg (fun p => Keeps pmk z (Prod.snd (Prod.snd p))) heq).mp ?_; try dsimp only at hi) | (rename_i heq _; have hi := (congrArg (fun p => Keeps pmk z (Prod.snd p)) heq).mp ?_; try dsimp only at hi))
    | split

theorem State.tierUnit_inv (c : TierCmd) (u : Nat) (s : State) (h_s : Keeps pmk z s)  (hu : Cov pmk 117460707 := by exact cov_sub (by assumption) rfl) :
    Keeps pmk z (State.tierUnit c u s).2 := by
  unfold State.tierUnit
  repeat' first
    | (with_reducible first | assumption | exact cov_sub hu rfl | apply State.evictFrame_inv | apply State.flushFrame_inv | apply State.mapChange_inv | apply State.setFrame_inv | apply State.setPin_inv | apply State.stageUnit_inv | apply ite_inv | apply ite_snd_inv)
    | ((try lift_lets); intro x; generalize x = y; clear x)
    | split

theorem State.tierRunN_inv    : ∀ (y0 : Nat) (y1 : State), Keeps pmk z y1 → (hu : Cov pmk 117460707 := by exact cov_sub (by assumption) rfl) →
    Keeps pmk z (State.tierRunN  y0 y1) := by
  intro y0
  induction y0 <;> intros <;> unfold State.tierRunN
  repeat' first
    | (with_reducible first | assumption | exact cov_sub (by assumption) rfl | apply State.modTier_inv | apply State.setRg_inv | apply State.tierUnit_inv | apply ite_inv)
    | (with_reducible apply_assumption -exfalso -symm)
    | (split <;> first | (rename_i heq; have hi := (congrArg (fun p => Keeps pmk z (Prod.snd (Prod.snd p))) heq).mp ?_; try dsimp only at hi) | (rename_i heq; have hi := (congrArg (fun p => Keeps pmk z (Prod.snd p)) heq).mp ?_; try dsimp only at hi) | (rename_i heq _; have hi := (congrArg (fun p => Keeps pmk z (Prod.snd (Prod.snd p))) heq).mp ?_; try dsimp only at hi) | (rename_i heq _; have hi := (congrArg (fun p => Keeps pmk z (Prod.snd p)) heq).mp ?_; try dsimp only at hi))
    | split

theorem State.tierRun_inv (s : State) (h_s : Keeps pmk z s)  (hu : Cov pmk 117460707 := by exact cov_sub (by assumption) rfl) :
    Keeps pmk z (State.tierRun s) := by
  unfold State.tierRun
  repeat' first
    | (with_reducible first | assumption | apply State.tierRunN_inv)
    | split

theorem State.tierGo_inv (op : Nat) (s : State) (h_s : Keeps pmk z s)  (hu : Cov pmk 117460707 := by exact cov_sub (by assumption) rfl) :
    Keeps pmk z (State.tierGo op s) := by
  unfold State.tierGo
  repeat' first
    | (with_reducible first | assumption | exact cov_sub hu rfl | apply State.bump_inv | apply State.modTier_inv | apply State.setRf_inv | apply State.setRg_inv | apply State.tierRun_inv | apply ite_inv)
    | split

theorem execTierStage_inv (src : Source) (s : State) (h_s : Keeps pmk z s)  (hu : Cov pmk 117460715 := by exact cov_sub (by assumption) rfl) :
    Safe pmk z (execTierStage src s) := by
  unfold execTierStage
  show Keeps pmk z _
  repeat' first
    | (refine fun _ => ?_)
    | (with_reducible first | assumption | exact cov_sub hu rfl | apply State.guarded_inv | apply State.tierGo_inv)

theorem execTierStagePin_inv (src : Source) (s : State) (h_s : Keeps pmk z s)  (hu : Cov pmk 117460715 := by exact cov_sub (by assumption) rfl) :
    Safe pmk z (execTierStagePin src s) := by
  unfold execTierStagePin
  show Keeps pmk z _
  repeat' first
    | (refine fun _ => ?_)
    | (with_reducible first | assumption | exact cov_sub hu rfl | apply State.guarded_inv | apply State.tierGo_inv)

theorem execTierUnpin_inv (src : Source) (s : State) (h_s : Keeps pmk z s)  (hu : Cov pmk 117460715 := by exact cov_sub (by assumption) rfl) :
    Safe pmk z (execTierUnpin src s) := by
  unfold execTierUnpin
  show Keeps pmk z _
  repeat' first
    | (refine fun _ => ?_)
    | (with_reducible first | assumption | exact cov_sub hu rfl | apply State.guarded_inv | apply State.tierGo_inv)

theorem execTierFlush_inv (src : Source) (s : State) (h_s : Keeps pmk z s)  (hu : Cov pmk 117460715 := by exact cov_sub (by assumption) rfl) :
    Safe pmk z (execTierFlush src s) := by
  unfold execTierFlush
  show Keeps pmk z _
  repeat' first
    | (refine fun _ => ?_)
    | (with_reducible first | assumption | exact cov_sub hu rfl | apply State.guarded_inv | apply State.tierGo_inv)

theorem execTierEvict_inv (src : Source) (s : State) (h_s : Keeps pmk z s)  (hu : Cov pmk 117460715 := by exact cov_sub (by assumption) rfl) :
    Safe pmk z (execTierEvict src s) := by
  unfold execTierEvict
  show Keeps pmk z _
  repeat' first
    | (refine fun _ => ?_)
    | (with_reducible first | assumption | exact cov_sub hu rfl | apply State.guarded_inv | apply State.tierGo_inv)

theorem execTierDiscard_inv (src : Source) (s : State) (h_s : Keeps pmk z s)  (hu : Cov pmk 117460715 := by exact cov_sub (by assumption) rfl) :
    Safe pmk z (execTierDiscard src s) := by
  unfold execTierDiscard
  show Keeps pmk z _
  repeat' first
    | (refine fun _ => ?_)
    | (with_reducible first | assumption | exact cov_sub hu rfl | apply State.guarded_inv | apply State.tierGo_inv)

theorem execTierTrim_inv (src : Source) (s : State) (h_s : Keeps pmk z s)  (hu : Cov pmk 117460715 := by exact cov_sub (by assumption) rfl) :
    Safe pmk z (execTierTrim src s) := by
  unfold execTierTrim
  show Keeps pmk z _
  repeat' first
    | (refine fun _ => ?_)
    | (with_reducible first | assumption | exact cov_sub hu rfl | apply State.guarded_inv | apply State.tierGo_inv)

theorem execTierCmdDone_inv (s : State) (h_s : Keeps pmk z s)  (hu : Cov pmk 117460707 := by exact cov_sub (by assumption) rfl) :
    Safe pmk z (execTierCmdDone s) := by
  unfold execTierCmdDone
  show Keeps pmk z _
  repeat' first
    | (with_reducible first | assumption | exact cov_sub hu rfl | apply State.modTier_inv | apply State.raiseInt_inv | apply State.setRg_inv | apply State.tierRun_inv | apply ite_inv)
    | ((try lift_lets); intro x; have hx : Keeps pmk z x := ?_; revert hx; generalize x = y; clear x; intro hx; rotate_left; (dsimp -zeta only [x]))
    | split

theorem State.wakeSet_inv (set : Nat) (s : State) (h_s : Keeps pmk z s)  (hu : Cov pmk 118640355 := by exact cov_sub (by assumption) rfl) :
    Keeps pmk z (State.wakeSet set s) := by
  unfold State.wakeSet
  repeat' first
    | (refine fun _ => ?_)
    | (with_reducible first | assumption | exact cov_sub hu rfl | apply State.settle_inv | apply State.tierRun_inv | apply State.tierTry_inv | apply foldl_inv)

theorem State.failWaiters_inv (u sec st : Nat) (s : State) (h_s : Keeps pmk z s)  (hu : Cov pmk 118639843 := by exact cov_sub (by assumption) rfl) :
    Keeps pmk z (State.failWaiters u sec st s) := by
  unfold State.failWaiters
  repeat' first
    | (refine fun _ => ?_)
    | (with_reducible first | assumption | exact cov_sub hu rfl | apply State.endPart_inv | apply State.settle_inv | apply foldl_inv)

theorem State.fillData_inv (f sec : Nat) (data : List Byte) (pm : Nat) (s : State) (h_s : Keeps pmk z s)  (hu : Cov pmk 130 := by exact cov_sub (by assumption) rfl) :
    Keeps pmk z (State.fillData f sec data pm s) := by
  unfold State.fillData
  repeat' first
    | (refine fun _ => ?_)
    | (with_reducible first | assumption | exact cov_sub hu rfl | apply State.bump_inv | apply State.setBarn_inv | apply State.setPoison_inv | apply foldl_inv)

theorem execFillDone_inv (f sec : Nat) (s : State) (h_s : Keeps pmk z s)  (hu : Cov pmk 118640355 := by exact cov_sub (by assumption) rfl) :
    Safe pmk z (execFillDone f sec s) := by
  unfold execFillDone
  show Keeps pmk z _
  repeat' first
    | (with_reducible first | assumption | exact cov_sub hu rfl | apply State.failWaiters_inv | apply State.fillData_inv | apply State.setReq_inv | apply State.setSector_inv | apply State.wakeSet_inv | apply ite_inv)
    | split

theorem State.wbOk_inv (f : Nat) (secs : List Nat) (s : State) (h_s : Keeps pmk z s)  (hu : Cov pmk 118640355 := by exact cov_sub (by assumption) rfl) :
    Keeps pmk z (State.wbOk f secs s) := by
  unfold State.wbOk
  repeat' first
    | (with_reducible first | assumption | exact cov_sub hu rfl | apply State.bump_inv | apply State.setFrame_inv | apply State.wakeSet_inv | apply ite_inv)

theorem execWritebackDone_inv (f sec : Nat) (s : State) (h_s : Keeps pmk z s)  (hu : Cov pmk 118640355 := by exact cov_sub (by assumption) rfl) :
    Safe pmk z (execWritebackDone f sec s) := by
  unfold execWritebackDone
  show Keeps pmk z _
  repeat' first
    | (with_reducible first | assumption | exact cov_sub hu rfl | apply State.setReq_inv | apply State.wakeSet_inv | apply State.wbFailed_inv | apply State.wbOk_inv | apply ite_inv)
    | split

/-! ### Cellar -/

theorem State.setCell_inv (a : Nat) (bs : List Byte) (s : State) (h_s : Keeps pmk z s)  (hu : Cov pmk 65536 := by exact cov_sub (by assumption) rfl) :
    Keeps pmk z (State.setCell a bs s) := by
  unfold State.setCell
  repeat' first
    | (with_reducible first | assumption | apply State.modPwr_inv)

theorem State.showArm_inv (s : State) (h_s : Keeps pmk z s)  (hu : Cov pmk 1 := by exact cov_sub (by assumption) rfl) :
    Keeps pmk z (State.showArm s) := by
  unfold State.showArm
  repeat' first
    | (with_reducible first | assumption | apply State.setRg_inv | apply State.setRg64_inv)

theorem State.writeArm_inv (seq : Nat) (armed : Bool) (s : State) (h_s : Keeps pmk z s)  (hu : Cov pmk 65537 := by exact cov_sub (by assumption) rfl) :
    Keeps pmk z (State.writeArm seq armed s) := by
  unfold State.writeArm
  repeat' first
    | (with_reducible first | assumption | exact cov_sub hu rfl | apply State.setCell_inv | apply State.showArm_inv)

theorem State.arm_inv (s : State) (h_s : Keeps pmk z s)  (hu : Cov pmk 65537 := by exact cov_sub (by assumption) rfl) :
    Keeps pmk z (State.arm s) := by
  unfold State.arm
  repeat' first
    | (with_reducible first | assumption | apply State.writeArm_inv)

theorem State.disarm_inv (s : State) (h_s : Keeps pmk z s)  (hu : Cov pmk 65537 := by exact cov_sub (by assumption) rfl) :
    Keeps pmk z (State.disarm s) := by
  unfold State.disarm
  repeat' first
    | (with_reducible first | assumption | apply State.writeArm_inv)

theorem State.showSave_inv (s : State) (h_s : Keeps pmk z s)  (hu : Cov pmk 1 := by exact cov_sub (by assumption) rfl) :
    Keeps pmk z (State.showSave s) := by
  unfold State.showSave
  repeat' first
    | (with_reducible first | assumption | apply State.setRg_inv | apply State.setRg64_inv)
    | split

theorem State.bootEval_inv (bad : List Nat) (s : State) (h_s : Keeps pmk z s)  (hu : Cov pmk 83970787 := by exact cov_sub (by assumption) rfl) :
    Keeps pmk z (State.bootEval bad s) := by
  unfold State.bootEval
  repeat' first
    | (refine fun _ => ?_)
    | (with_reducible first | assumption | exact cov_sub hu rfl | apply State.modGran_inv | apply State.modPwr_inv | apply State.raise_inv | apply State.setRg_inv | apply State.showArm_inv | apply State.showSave_inv | apply foldl_inv | apply ite_inv)

theorem State.rdData_inv (s : State) (h_s : Keeps pmk z s)  (hu : Cov pmk 1 := by exact cov_sub (by assumption) rfl) :
    Keeps pmk z (State.rdData s).2 := by
  unfold State.rdData
  repeat' first
    | (with_reducible first | assumption | apply State.setRg_inv)

/-! ### Gran -/

theorem State.granReject_inv (r : Nat) (s : State) (h_s : Keeps pmk z s)  (hu : Cov pmk 1 := by exact cov_sub (by assumption) rfl) :
    Keeps pmk z (State.granReject r s) := by
  unfold State.granReject
  repeat' first
    | (with_reducible first | assumption | apply State.setRf_inv)

theorem State.setGran_inv (x : GranSt) (s : State) (h_s : Keeps pmk z s)  (hu : Cov pmk 66049 := by exact cov_sub (by assumption) rfl) :
    Keeps pmk z (State.setGran x s) := by
  unfold State.setGran
  repeat' first
    | (with_reducible first | assumption | exact cov_sub hu rfl | apply State.arm_inv | apply State.modGran_inv | apply ite_inv)

theorem State.granEnable_inv (s : State) (h_s : Keeps pmk z s)  (hu : Cov pmk 66049 := by exact cov_sub (by assumption) rfl) :
    Keeps pmk z (State.granEnable s) := by
  unfold State.granEnable
  repeat' first
    | (with_reducible first | assumption | exact cov_sub hu rfl | apply State.granReject_inv | apply State.setGran_inv | apply State.setRf_inv | apply ite_inv)
    | split

theorem State.flushJournal_inv    : ∀ (y0 : Nat) (y1 : State), Keeps pmk z y1 → (hu : Cov pmk 16777728 := by exact cov_sub (by assumption) rfl) →
    Keeps pmk z (State.flushJournal  y0 y1) := by
  intro y0
  induction y0 <;> intros <;> unfold State.flushJournal
  repeat' first
    | (with_reducible first | assumption | exact cov_sub (by assumption) rfl | apply State.emit_inv | apply State.modGran_inv | apply ite_inv)
    | (with_reducible apply_assumption -exfalso -symm)

theorem State.granDisable_inv (s : State) (h_s : Keeps pmk z s)  (hu : Cov pmk 16843265 := by exact cov_sub (by assumption) rfl) :
    Keeps pmk z (State.granDisable s) := by
  unfold State.granDisable
  repeat' first
    | (with_reducible first | assumption | exact cov_sub hu rfl | apply State.disarm_inv | apply State.emit_inv | apply State.flushJournal_inv | apply State.granReject_inv | apply State.modGran_inv | apply State.setRf_inv | apply ite_inv)
    | ((try lift_lets); intro x; have hx : Keeps pmk z x := ?_; revert hx; generalize x = y; clear x; intro hx; rotate_left; (dsimp -zeta only [x]))
    | split

theorem execGranEnable_inv (src : Source) (s : State) (h_s : Keeps pmk z s)  (hu : Cov pmk 66059 := by exact cov_sub (by assumption) rfl) :
    Safe pmk z (execGranEnable src s) := by
  unfold execGranEnable
  show Keeps pmk z _
  repeat' first
    | (refine fun _ => ?_)
    | (with_reducible first | assumption | exact cov_sub hu rfl | apply State.granEnable_inv | apply State.guarded_inv)

theorem execGranDisable_inv (src : Source) (s : State) (h_s : Keeps pmk z s)  (hu : Cov pmk 16843275 := by exact cov_sub (by assumption) rfl) :
    Safe pmk z (execGranDisable src s) := by
  unfold execGranDisable
  show Keeps pmk z _
  repeat' first
    | (refine fun _ => ?_)
    | (with_reducible first | assumption | exact cov_sub hu rfl | apply State.granDisable_inv | apply State.guarded_inv)

theorem State.writeBlocks_inv (f : Nat → Nat) (s : State) (h_s : Keeps pmk z s)  (hu : Cov pmk 128 := by exact cov_sub (by assumption) rfl) :
    Keeps pmk z (State.writeBlocks f s) := by
  unfold State.writeBlocks
  repeat' first
    | (refine fun _ => ?_)
    | (with_reducible first | assumption | apply State.setBlk_inv | apply foldl_inv)

theorem State.granFormat_inv (bad : List Nat) (spare : Nat) (s : State) (h_s : Keeps pmk z s)  (hu : Cov pmk 33555073 := by exact cov_sub (by assumption) rfl) :
    Keeps pmk z (State.granFormat bad spare s) := by
  unfold State.granFormat
  repeat' first
    | (with_reducible first | assumption | exact cov_sub hu rfl | apply State.granReject_inv | apply State.modTier_inv | apply State.setRg_inv | apply State.takeFrees_inv | apply State.writeBlocks_inv | apply State.zeroBarn_inv | apply ite_inv)

theorem execGranFormat_inv (src : Source) (bad : List Nat) (spare : Nat) (s : State) (h_s : Keeps pmk z s)  (hu : Cov pmk 33555083 := by exact cov_sub (by assumption) rfl) :
    Safe pmk z (execGranFormat src bad spare s) := by
  unfold execGranFormat
  show Keeps pmk z _
  repeat' first
    | (refine fun _ => ?_)
    | (with_reducible first | assumption | exact cov_sub hu rfl | apply State.granFormat_inv | apply State.guarded_inv)

theorem State.spareCheck_inv (s : State) (h_s : Keeps pmk z s)  (hu : Cov pmk 83970787 := by exact cov_sub (by assumption) rfl) :
    Keeps pmk z (State.spareCheck s) := by
  unfold State.spareCheck
  repeat' first
    | (with_reducible first | assumption | exact cov_sub hu rfl | apply State.raise_inv | apply State.setGran_inv | apply ite_inv)

theorem State.granLoad_inv (map blks : List (Nat × Nat)) (s : State) (h_s : Keeps pmk z s)  (hu : Cov pmk 641 := by exact cov_sub (by assumption) rfl) :
    Keeps pmk z (State.granLoad map blks s) := by
  unfold State.granLoad
  repeat' first
    | (refine fun _ => ?_)
    | (with_reducible first | assumption | exact cov_sub hu rfl | apply State.mapChange_inv | apply State.modGran_inv | apply State.setRg_inv | apply State.writeBlocks_inv | apply State.zeroBarn_inv | apply foldl_inv)

theorem State.granRestored_inv (map late blks : List (Nat × Nat)) (s : State) (h_s : Keeps pmk z s)  (hu : Cov pmk 83970787 := by exact cov_sub (by assumption) rfl) :
    Keeps pmk z (State.granRestored map late blks s) := by
  unfold State.granRestored
  repeat' first
    | (with_reducible first | assumption | exact cov_sub hu rfl | apply State.emit_inv | apply State.granLoad_inv | apply State.modGran_inv | apply State.modPwr_inv | apply State.setGran_inv | apply State.spareCheck_inv | apply ite_inv)

theorem execGranWorkDone_inv (map late blks : List (Nat × Nat)) (metaFail : Bool) (s : State) (h_s : Keeps pmk z s)  (hu : Cov pmk 83970787 := by exact cov_sub (by assumption) rfl) :
    Safe pmk z (execGranWorkDone map late blks metaFail s) := by
  unfold execGranWorkDone
  show Keeps pmk z _
  repeat' first
    | (with_reducible first | assumption | exact cov_sub hu rfl | apply State.granRestored_inv | apply State.raise_inv | apply State.setGran_inv | apply ite_inv)
    | split

theorem State.relocSector_inv (r : NandRead) (data : List Byte) (pm : Nat) (s : State) (h_s : Keeps pmk z s)  (hu : Cov pmk 16777858 := by exact cov_sub (by assumption) rfl) :
    Keeps pmk z (State.relocSector r data pm s) := by
  unfold State.relocSector
  repeat' first
    | (with_reducible first | assumption | exact cov_sub hu rfl | apply State.addProg_inv | apply State.modGran_inv | apply ite_inv)
    | split

theorem State.sectorDecoded_inv (r : NandRead) (data : List Byte) (pm : Nat) (s : State) (h_s : Keeps pmk z s)  (hu : Cov pmk 118640355 := by exact cov_sub (by assumption) rfl) :
    Keeps pmk z (State.sectorDecoded r data pm s) := by
  unfold State.sectorDecoded
  repeat' first
    | (with_reducible first | assumption | exact cov_sub hu rfl | apply State.fillData_inv | apply State.issueErases_inv | apply State.modGran_inv | apply State.relocSector_inv | apply State.setSector_inv | apply State.wakeSet_inv | apply ite_inv)
    | split

theorem execNandReadDone_inv (pun sec : Nat) (ok : Bool) (corr : Nat) (data : List Byte) (poison : Nat) (s : State) (h_s : Keeps pmk z s)  (hu : Cov pmk 118640355 := by exact cov_sub (by assumption) rfl) :
    Safe pmk z (execNandReadDone pun sec ok corr data poison s) := by
  unfold execNandReadDone
  show Keeps pmk z _
  repeat' first
    | (with_reducible first | assumption | exact cov_sub hu rfl | apply State.bump_inv | apply State.countReads_inv | apply State.emit_inv | apply State.modGran_inv | apply State.raise_inv | apply State.readDisturb_inv | apply State.relocUnit_inv | apply State.sectorDecoded_inv | apply ite_inv)
    | ((try lift_lets); intro x; have hx : Keeps pmk z x := ?_; revert hx; generalize x = y; clear x; intro hx; rotate_left; (dsimp -zeta only [x]))
    | split

theorem State.blockBad_inv (bn : Nat) (s : State) (h_s : Keeps pmk z s)  (hu : Cov pmk 640 := by exact cov_sub (by assumption) rfl) :
    Keeps pmk z (State.blockBad bn s) := by
  unfold State.blockBad
  repeat' first
    | (with_reducible first | assumption | exact cov_sub hu rfl | apply State.blkState_inv | apply State.closeBlock_inv | apply State.modGran_inv)

theorem State.progOk_inv (p : Prog) (pun : Nat) (s : State) (h_s : Keeps pmk z s)  (hu : Cov pmk 118640355 := by exact cov_sub (by assumption) rfl) :
    Keeps pmk z (State.progOk p pun s) := by
  unfold State.progOk
  repeat' first
    | (with_reducible first | assumption | exact cov_sub hu rfl | apply State.eraseEmptied_inv | apply State.mapChange_inv | apply State.modGran_inv | apply State.relocUnit_inv | apply State.wbOk_inv | apply ite_inv)
    | split

theorem execNandProgramDone_inv (pun : Nat) (ok : Bool) (s : State) (h_s : Keeps pmk z s)  (hu : Cov pmk 118705891 := by exact cov_sub (by assumption) rfl) :
    Safe pmk z (execNandProgramDone pun ok s) := by
  unfold execNandProgramDone
  show Keeps pmk z _
  repeat' first
    | (with_reducible first | assumption | exact cov_sub hu rfl | apply State.addProg_inv | apply State.blockBad_inv | apply State.bump_inv | apply State.modGran_inv | apply State.moveBlock_inv | apply State.progOk_inv | apply State.raise_inv | apply State.spareCheck_inv | apply ite_inv)
    | ((try lift_lets); intro x; have hx : Keeps pmk z x := ?_; revert hx; generalize x = y; clear x; intro hx; rotate_left; (dsimp -zeta only [x]))
    | split

theorem execNandEraseDone_inv (bn : Nat) (ok : Bool) (s : State) (h_s : Keeps pmk z s)  (hu : Cov pmk 83970787 := by exact cov_sub (by assumption) rfl) :
    Safe pmk z (execNandEraseDone bn ok s) := by
  unfold execNandEraseDone
  show Keeps pmk z _
  repeat' first
    | (with_reducible first | assumption | exact cov_sub hu rfl | apply State.blockBad_inv | apply State.bump_inv | apply State.modGran_inv | apply State.placeProgs_inv | apply State.raise_inv | apply State.setBlk_inv | apply State.spareCheck_inv | apply ite_inv)

theorem execGcRound_inv (c : Nat) (s : State) (h_s : Keeps pmk z s)  (hu : Cov pmk 16777858 := by exact cov_sub (by assumption) rfl) :
    Safe pmk z (execGcRound c s) := by
  unfold execGcRound
  show Keeps pmk z _
  repeat' first
    | (with_reducible first | assumption | exact cov_sub hu rfl | apply State.bump_inv | apply State.modGran_inv | apply State.relocBlock_inv | apply ite_inv)
    | split

theorem execWlRelocate_inv (c : Nat) (s : State) (h_s : Keeps pmk z s)  (hu : Cov pmk 16777858 := by exact cov_sub (by assumption) rfl) :
    Safe pmk z (execWlRelocate c s) := by
  unfold execWlRelocate
  show Keeps pmk z _
  repeat' first
    | (with_reducible first | assumption | exact cov_sub hu rfl | apply State.bump_inv | apply State.relocBlock_inv | apply ite_inv)
    | ((try lift_lets); intro x; generalize x = y; clear x)
    | split

theorem execJournalProgram_inv (s : State) (h_s : Keeps pmk z s)  (hu : Cov pmk 117460707 := by exact cov_sub (by assumption) rfl) :
    Safe pmk z (execJournalProgram s) := by
  unfold execJournalProgram
  show Keeps pmk z _
  repeat' first
    | (with_reducible first | assumption | exact cov_sub hu rfl | apply State.flushJournal_inv | apply State.tierRun_inv | apply ite_inv)

theorem execCheckpointWrite_inv (s : State) (h_s : Keeps pmk z s)  (hu : Cov pmk 16777728 := by exact cov_sub (by assumption) rfl) :
    Safe pmk z (execCheckpointWrite s) := by
  unfold execCheckpointWrite
  show Keeps pmk z _
  repeat' first
    | (with_reducible first | assumption | exact cov_sub hu rfl | apply State.emit_inv | apply State.modGran_inv | apply ite_inv)

theorem execGranWalkEnd_inv (s : State) (h_s : Keeps pmk z s)  (hu : Cov pmk 83970787 := by exact cov_sub (by assumption) rfl) :
    Safe pmk z (execGranWalkEnd s) := by
  unfold execGranWalkEnd
  show Keeps pmk z _
  repeat' first
    | (with_reducible first | assumption | exact cov_sub hu rfl | apply State.setGran_inv | apply State.tallyMismatch_inv | apply ite_inv)

/-! ### CtrCore -/

theorem State.setCtrOf_inv (c : Nat) (x : Ctr) (s : State) (h_s : Keeps pmk z s)  (hu : Cov pmk 262144 := by exact cov_sub (by assumption) rfl) :
    Keeps pmk z (State.setCtrOf c x s) := by
  unfold State.setCtrOf
  repeat' first
    | (with_reducible first | assumption | apply State.modCtr_inv)

theorem State.setOrder_inv (k : Nat) (o : Option Order) (s : State) (h_s : Keeps pmk z s)  (hu : Cov pmk 262272 := by exact cov_sub (by assumption) rfl) :
    Keeps pmk z (State.setOrder k o s) := by
  unfold State.setOrder
  repeat' first
    | (with_reducible first | assumption | exact cov_sub hu rfl | apply State.modCtr_inv | apply State.setBarnNum_inv)

theorem State.soTrigger_inv (k : Nat) (o : Order) (s : State) (h_s : Keeps pmk z s)  (hu : Cov pmk 262272 := by exact cov_sub (by assumption) rfl) :
    Keeps pmk z (State.soTrigger k o s) := by
  unfold State.soTrigger
  repeat' first
    | (with_reducible first | assumption | exact cov_sub hu rfl | apply State.modCtr_inv | apply State.setOrder_inv)

theorem State.soCheck_inv (c : Nat) (s : State) (h_s : Keeps pmk z s)  (hu : Cov pmk 262272 := by exact cov_sub (by assumption) rfl) :
    Keeps pmk z (State.soCheck c s) := by
  unfold State.soCheck
  repeat' first
    | (refine fun _ => ?_)
    | (with_reducible first | assumption | apply State.soTrigger_inv | apply foldl_inv | apply ite_inv)
    | split

theorem State.ctrTrigger_inv (c : Nat) (s : State) (h_s : Keeps pmk z s)  (hu : Cov pmk 84166883 := by exact cov_sub (by assumption) rfl) :
    Keeps pmk z (State.ctrTrigger c s) := by
  unfold State.ctrTrigger
  repeat' first
    | (with_reducible first | assumption | exact cov_sub hu rfl | apply State.bump_inv | apply State.modCtr_inv | apply State.raise_inv | apply State.raiseInt_inv | apply State.setCtrOf_inv | apply ite_inv)

theorem State.ctrVectors_inv (c : Nat) (s : State) (h_s : Keeps pmk z s)  (hu : Cov pmk 16793602 := by exact cov_sub (by assumption) rfl) :
    Keeps pmk z (State.ctrVectors c s) := by
  unfold State.ctrVectors
  repeat' first
    | (refine fun _ => ?_)
    | (with_reducible first | assumption | apply State.msix_inv | apply foldl_inv | apply ite_inv)

theorem State.ctrEval_inv (c : Nat) (set : Bool) (s : State) (h_s : Keeps pmk z s)  (hu : Cov pmk 84166883 := by exact cov_sub (by assumption) rfl) :
    Keeps pmk z (State.ctrEval c set s) := by
  unfold State.ctrEval
  repeat' first
    | (with_reducible first | assumption | exact cov_sub hu rfl | apply State.ctrTrigger_inv | apply State.ctrVectors_inv | apply State.setCtrOf_inv | apply ite_inv)

theorem State.ctrUpdate_inv (c : Nat) (slot : Option Nat) (f : BitVec 64 → BitVec 64) (s : State) (h_s : Keeps pmk z s)  (hu : Cov pmk 84166883 := by exact cov_sub (by assumption) rfl) :
    Keeps pmk z (State.ctrUpdate c slot f s) := by
  unfold State.ctrUpdate
  repeat' first
    | (with_reducible first | assumption | exact cov_sub hu rfl | apply State.bump_inv | apply State.ctrEval_inv | apply State.raise_inv | apply State.setCtrOf_inv | apply State.soCheck_inv | apply ite_inv)

theorem State.ctrIncr_inv (c slot : Nat) (s : State) (h_s : Keeps pmk z s)  (hu : Cov pmk 84166883 := by exact cov_sub (by assumption) rfl) :
    Keeps pmk z (State.ctrIncr c slot s) := by
  unfold State.ctrIncr
  repeat' first
    | (with_reducible first | assumption | apply State.ctrUpdate_inv)

end Sys2Proof.Machine
end

