-- ==== Sys2Proof/Laws/InvSheaf.lean ====
section
/-! SUPPORT. What every function keeps of `State.Inv`, each by the lemmas of the functions it calls:
tile runs, sheaves, the switch, fences. -/

set_option Elab.async false

namespace Sys2Proof.Machine
open Sys2Proof
set_option linter.unusedSimpArgs false
set_option linter.unusedVariables false
variable {pmk : Nat} {z : State}

/-! ### TileCore -/

theorem State.drive_inv (id : Nat) (s : State) (h_s : Keeps pmk z s)  (hu : Cov pmk 87051491 := by exact cov_sub (by assumption) rfl) :
    Keeps pmk z (State.drive id s) := by
  unfold State.drive
  repeat' first
    | (with_reducible first | assumption | apply Op.go_inv | apply ite_inv)
    | split

theorem State.descDone_inv (tile slot d st m : Nat) (acc : Acc) (t0 : Nat) (s : State) (h_s : Keeps pmk z s)  (hu : Cov pmk 84167907 := by exact cov_sub (by assumption) rfl) :
    Keeps pmk z (State.descDone tile slot d st m acc t0 s) := by
  unfold State.descDone
  repeat' first
    | (with_reducible first | assumption | exact cov_sub hu rfl | apply State.bump_inv | apply State.ctrIncr_inv | apply State.gcount_inv | apply State.raise_inv | apply State.setRg_inv | apply State.unitAsk_inv | apply ite_inv)
    | split

theorem State.enqueue_inv (t j d : Nat) (s : State) (h_s : Keeps pmk z s)  (hu : Cov pmk 68157440 := by exact cov_sub (by assumption) rfl) :
    Keeps pmk z (State.enqueue t j d s).2 := by
  unfold State.enqueue
  repeat' first
    | (with_reducible first | assumption | exact cov_sub hu rfl | apply State.modTile_inv | apply State.takeNames_inv | apply ite_snd_inv)

theorem State.submit_inv (j d : Nat) (s : State) (h_s : Keeps pmk z s)  (hu : Cov pmk 85216483 := by exact cov_sub (by assumption) rfl) :
    Keeps pmk z (State.submit j d s).2 := by
  unfold State.submit
  repeat' first
    | (with_reducible first | assumption | exact cov_sub hu rfl | apply State.descDone_inv | apply State.enqueue_inv | apply ite_snd_inv)
    | split

theorem State.slotGrant_inv (t : Nat) (slots : List Nat) (add : Bool) (s : State) (h_s : Keeps pmk z s)  (hu : Cov pmk 1048576 := by exact cov_sub (by assumption) rfl) :
    Keeps pmk z (State.slotGrant t slots add s) := by
  unfold State.slotGrant
  repeat' first
    | (with_reducible first | assumption | apply State.modTile_inv)

theorem State.epochCount_inv (t : Nat) (e : Bool) (up : Bool) (s : State) (h_s : Keeps pmk z s)  (hu : Cov pmk 2097152 := by exact cov_sub (by assumption) rfl) :
    Keeps pmk z (State.epochCount t e up s) := by
  unfold State.epochCount
  repeat' first
    | (with_reducible first | assumption | apply State.modKv_inv)

theorem State.startDesc_inv (e : Desc) (s : State) (h_s : Keeps pmk z s)  (hu : Cov pmk 87313635 := by exact cov_sub (by assumption) rfl) :
    Keeps pmk z (State.startDesc e s) := by
  unfold State.startDesc
  repeat' first
    | (with_reducible first | assumption | exact cov_sub hu rfl | apply State.descDone_inv | apply State.drive_inv | apply State.epochCount_inv | apply State.modTile_inv | apply State.setRun_inv | apply State.slotGrant_inv | apply ite_inv)

theorem State.kvWork_inv (kind : RunKind) (q : Nat) (s : State) (h_s : Keeps pmk z s)  (hu : Cov pmk 68157440 := by exact cov_sub (by assumption) rfl) :
    Keeps pmk z (State.kvWork kind q s) := by
  unfold State.kvWork
  repeat' first
    | (with_reducible first | assumption | exact cov_sub hu rfl | apply State.setRun_inv | apply State.takeNames_inv)

theorem State.readersGone_inv (q : Nat) (s : State) (h_s : Keeps pmk z s)  (hu : Cov pmk 68157440 := by exact cov_sub (by assumption) rfl) :
    Keeps pmk z (State.readersGone q s) := by
  unfold State.readersGone
  repeat' first
    | (with_reducible first | assumption | apply State.kvWork_inv | apply ite_inv)

theorem State.decodeEnd_inv (q : Nat) (s : State) (h_s : Keeps pmk z s)  (hu : Cov pmk 70254720 := by exact cov_sub (by assumption) rfl) :
    Keeps pmk z (State.decodeEnd q s) := by
  unfold State.decodeEnd
  repeat' first
    | (with_reducible first | assumption | exact cov_sub hu rfl | apply State.readersGone_inv | apply State.setSeq_inv | apply ite_inv)

theorem State.noteCount_inv (r : Run) (k n : Nat) (s : State) (h_s : Keeps pmk z s)  (hu : Cov pmk 83904739 := by exact cov_sub (by assumption) rfl) :
    Keeps pmk z (State.noteCount r k n s) := by
  unfold State.noteCount
  repeat' first
    | (with_reducible first | assumption | exact cov_sub hu rfl | apply State.bump_inv | apply State.gcount_inv | apply State.raise_inv | apply ite_inv)

theorem State.idleCounts_inv (t : Nat) (units slots : List Nat) (s : State) (h_s : Keeps pmk z s)  (hu : Cov pmk 33554434 := by exact cov_sub (by assumption) rfl) :
    Keeps pmk z (State.idleCounts t units slots s) := by
  unfold State.idleCounts
  repeat' first
    | (with_reducible first | assumption | exact cov_sub hu rfl | apply State.bump_inv | apply State.takeFree_inv | apply ite_inv)

theorem State.endDesc_inv (id : Nat) (r : Run) (st m : Nat) (s : State) (h_s : Keeps pmk z s)  (hu : Cov pmk 120868067 := by exact cov_sub (by assumption) rfl) :
    Keeps pmk z (State.endDesc id r st m s) := by
  unfold State.endDesc
  repeat' first
    | (refine fun _ => ?_)
    | (with_reducible first | assumption | exact cov_sub hu rfl | apply State.bump_inv | apply State.decodeEnd_inv | apply State.descDone_inv | apply State.epochCount_inv | apply State.idleCounts_inv | apply State.noteCount_inv | apply State.setRun_inv | apply State.slotGrant_inv | apply foldl_inv | apply ite_inv)
    | split

theorem State.tryEnd_inv (id : Nat) (s : State) (h_s : Keeps pmk z s)  (hu : Cov pmk 120868067 := by exact cov_sub (by assumption) rfl) :
    Keeps pmk z (State.tryEnd id s) := by
  unfold State.tryEnd
  repeat' first
    | (with_reducible first | assumption | exact cov_sub hu rfl | apply State.drive_inv | apply State.endDesc_inv)
    | ((try lift_lets); intro x; have hx : Keeps pmk z x := ?_; revert hx; generalize x = y; clear x; intro hx; rotate_left; (dsimp -zeta only [x]))
    | split

theorem State.kvPass_inv (id : Nat) (s : State) (h_s : Keeps pmk z s)  (hu : Cov pmk 87051491 := by exact cov_sub (by assumption) rfl) :
    Keeps pmk z (State.kvPass id s) := by
  unfold State.kvPass
  repeat' first
    | (with_reducible first | assumption | exact cov_sub hu rfl | apply State.drive_inv | apply State.setRun_inv | apply ite_inv)
    | split

theorem State.tileStop_inv (j : Nat) (s : State) (h_s : Keeps pmk z s)  (hu : Cov pmk 87313635 := by exact cov_sub (by assumption) rfl) :
    Keeps pmk z (State.tileStop j s) := by
  unfold State.tileStop
  repeat' first
    | (refine fun _ => ?_)
    | (with_reducible first | assumption | exact cov_sub hu rfl | apply State.descDone_inv | apply State.drive_inv | apply State.modTile_inv | apply State.setRun_inv | apply foldl_inv | apply ite_inv)
    | split

/-! ### SheafCore -/

theorem State.setSheaf_inv (k : Nat) (x : Sheaf) (s : State) (h_s : Keeps pmk z s)  (hu : Cov pmk 4194304 := by exact cov_sub (by assumption) rfl) :
    Keeps pmk z (State.setSheaf k x s) := by
  unfold State.setSheaf
  repeat' first
    | (with_reducible first | assumption | apply State.modShf_inv)

theorem State.shReserve_inv (c : ShCfg) (take : Bool) (s : State) (h_s : Keeps pmk z s)  (hu : Cov pmk 1048576 := by exact cov_sub (by assumption) rfl) :
    Keeps pmk z (State.shReserve c take s) := by
  unfold State.shReserve
  repeat' first
    | (refine fun _ => ?_)
    | (with_reducible first | assumption | apply State.modTile_inv | apply State.slotGrant_inv | apply foldl_inv)

theorem State.shBytes_inv (k raw wire : Nat) (s : State) (h_s : Keeps pmk z s)  (hu : Cov pmk 2 := by exact cov_sub (by assumption) rfl) :
    Keeps pmk z (State.shBytes k raw wire s) := by
  unfold State.shBytes
  repeat' first
    | (with_reducible first | assumption | apply State.bump_inv)
    | ((try lift_lets); intro x; have hx : Keeps pmk z x := ?_; revert hx; generalize x = y; clear x; intro hx; rotate_left; (dsimp -zeta only [x]))
    | split

theorem State.shSend_inv (k eid sid kind child ext raw : Nat) (poison : Bool) (data : List Byte) (s : State) (h_s : Keeps pmk z s)  (hu : Cov pmk 71303266 := by exact cov_sub (by assumption) rfl) :
    Keeps pmk z (State.shSend k eid sid kind child ext raw poison data s) := by
  unfold State.shSend
  repeat' first
    | (with_reducible first | assumption | exact cov_sub hu rfl | apply State.bump_inv | apply State.sendFor_inv | apply State.setSheaf_inv | apply State.shBytes_inv)

theorem State.shUp_inv (k ext raw : Nat) (poison : Bool) (data : List Byte) (s : State) (h_s : Keeps pmk z s)  (hu : Cov pmk 71303266 := by exact cov_sub (by assumption) rfl) :
    Keeps pmk z (State.shUp k ext raw poison data s) := by
  unfold State.shUp
  repeat' first
    | (with_reducible first | assumption | apply State.shSend_inv)

theorem State.shDown_inv (k : Nat) (kid : Kid) (ext raw : Nat) (poison : Bool) (data : List Byte) (s : State) (h_s : Keeps pmk z s)  (hu : Cov pmk 71303266 := by exact cov_sub (by assumption) rfl) :
    Keeps pmk z (State.shDown k kid ext raw poison data s) := by
  unfold State.shDown
  repeat' first
    | (with_reducible first | assumption | apply State.shSend_inv)

theorem State.shSpread_inv (k : Nat) (rank : Option Nat) (ext raw : Nat) (poison : Bool) (data : List Byte) (s : State) (h_s : Keeps pmk z s)  (hu : Cov pmk 71303266 := by exact cov_sub (by assumption) rfl) :
    Keeps pmk z (State.shSpread k rank ext raw poison data s) := by
  unfold State.shSpread
  repeat' first
    | (refine fun _ => ?_)
    | (with_reducible first | assumption | apply State.shDown_inv | apply foldl_inv)
    | ((try lift_lets); intro x; generalize x = y; clear x)
    | split

theorem State.shCount_inv (k : Nat) (s : State) (h_s : Keeps pmk z s)  (hu : Cov pmk 4194306 := by exact cov_sub (by assumption) rfl) :
    Keeps pmk z (State.shCount k s) := by
  unfold State.shCount
  repeat' first
    | (with_reducible first | assumption | exact cov_sub hu rfl | apply State.gcount_inv | apply State.setSheaf_inv)

theorem State.shAbortPkt_inv (k eid sid child cause origin : Nat) (s : State) (h_s : Keeps pmk z s)  (hu : Cov pmk 67108962 := by exact cov_sub (by assumption) rfl) :
    Keeps pmk z (State.shAbortPkt k eid sid child cause origin s) := by
  unfold State.shAbortPkt
  repeat' first
    | (with_reducible first | assumption | apply State.sendOwn_inv)

theorem State.shAbort_inv (k cause origin : Nat) (frm : ShFrom) (s : State) (h_s : Keeps pmk z s)  (hu : Cov pmk 88099043 := by exact cov_sub (by assumption) rfl) :
    Keeps pmk z (State.shAbort k cause origin frm s) := by
  unfold State.shAbort
  repeat' first
    | (refine fun _ => ?_)
    | (with_reducible first | assumption | exact cov_sub hu rfl | apply State.bump_inv | apply State.raise_inv | apply State.raiseInt_inv | apply State.setRg_inv | apply State.setSheaf_inv | apply State.shAbortPkt_inv | apply foldl_inv | apply ite_inv)

theorem State.shFail_inv (k cause : Nat) (s : State) (h_s : Keeps pmk z s)  (hu : Cov pmk 88099043 := by exact cov_sub (by assumption) rfl) :
    Keeps pmk z (State.shFail k cause s) := by
  unfold State.shFail
  repeat' first
    | (with_reducible first | assumption | apply State.shAbort_inv)

theorem State.shStop_inv (fjid : Nat) (s : State) (h_s : Keeps pmk z s)  (hu : Cov pmk 88099043 := by exact cov_sub (by assumption) rfl) :
    Keeps pmk z (State.shStop fjid s) := by
  unfold State.shStop
  repeat' first
    | (refine fun _ => ?_)
    | (with_reducible first | assumption | apply State.shFail_inv | apply foldl_inv | apply ite_inv)

theorem State.shComplete_inv (k : Nat) (s : State) (h_s : Keeps pmk z s)  (hu : Cov pmk 88361187 := by exact cov_sub (by assumption) rfl) :
    Keeps pmk z (State.shComplete k s) := by
  unfold State.shComplete
  repeat' first
    | (with_reducible first | assumption | exact cov_sub hu rfl | apply State.bump_inv | apply State.ctrIncr_inv | apply State.setSheaf_inv | apply State.shFail_inv | apply ite_inv)
    | split

theorem State.setElems_inv (a size : Nat) (xs : List Nat) (mark : Bool) (s : State) (h_s : Keeps pmk z s)  (hu : Cov pmk 128 := by exact cov_sub (by assumption) rfl) :
    Keeps pmk z (State.setElems a size xs mark s) := by
  unfold State.setElems
  repeat' first
    | (with_reducible first | assumption | apply State.storeMarked_inv)

theorem State.shNote_inv (t : Nat) (is : List EncInfo) (s : State) (h_s : Keeps pmk z s)  (hu : Cov pmk 33554434 := by exact cov_sub (by assumption) rfl) :
    Keeps pmk z (State.shNote t is s) := by
  unfold State.shNote
  repeat' first
    | (with_reducible first | assumption | exact cov_sub hu rfl | apply State.bump_inv | apply State.takeFree_inv)

theorem State.shExactOut_inv (send : Nat → Nat → Bool → List Byte → State → State) (chunk : Nat) (xs : List Slot48) (size : Nat) (s : State) (h_s : Keeps pmk z s) (hsend : ∀ (x0 : Nat) (x1 : Nat) (x2 : Bool) (x3 : List Byte) (x4 : State), Keeps pmk z x4 → Keeps pmk z (send x0 x1 x2 x3 x4)) :
    Keeps pmk z (State.shExactOut send chunk xs size s) := by
  unfold State.shExactOut
  repeat' first
    | (refine fun _ => ?_)
    | (with_reducible first | assumption | apply hsend | apply foldl_inv)

theorem State.shResult_inv (k chunk : Nat) (bs : List Bin) (s : State) (h_s : Keeps pmk z s)  (hu : Cov pmk 104857826 := by exact cov_sub (by assumption) rfl) :
    Keeps pmk z (State.shResult k chunk bs s) := by
  unfold State.shResult
  repeat' first
    | (refine fun _ => ?_)
    | (with_reducible first | assumption | exact cov_sub hu rfl | apply State.bump_inv | apply State.setElems_inv | apply State.shCount_inv | apply State.shExactOut_inv | apply State.shNote_inv | apply State.shSpread_inv | apply ite_inv)

theorem State.shClose_inv (k chunk : Nat) (bs : List Bin) (s : State) (h_s : Keeps pmk z s)  (hu : Cov pmk 104857826 := by exact cov_sub (by assumption) rfl) :
    Keeps pmk z (State.shClose k chunk bs s) := by
  unfold State.shClose
  repeat' first
    | (refine fun _ => ?_)
    | (with_reducible first | assumption | exact cov_sub hu rfl | apply State.setSheaf_inv | apply State.shExactOut_inv | apply State.shResult_inv | apply State.shUp_inv | apply ite_inv)

theorem State.shInputs_inv (k i : Nat) (p : Packet) (s : State) (h : Keeps pmk z s) (hu : Cov pmk 83904739 := by exact cov_sub (by assumption) rfl) : OptInv3 pmk z (State.shInputs k i p s) := by
  unfold State.shInputs
  refine ite_opt3 (ite_opt3 opt3_none (opt3_map fun _ => h)) (ite_opt3 opt3_none (ite_opt3 (ite_opt3 opt3_none (opt3_some h))
    (ite_opt3 ?_ opt3_none)))
  split
  · exact opt3_none
  · split
    split
    · exact opt3_none
    · refine opt3_some (ite_inv (State.raise_inv _ _ _ _ _ (State.bump_inv _ _ _ ?_)) ?_) <;>
      exact State.setElems_inv _ _ _ _ _ h

theorem State.shReduce_inv (k i : Nat) (p : Packet) (s : State) (h_s : Keeps pmk z s) (hu : Cov pmk 121653475 := by exact cov_sub (by assumption) rfl) :
    OptInv pmk z (State.shReduce k i p s) := by
  unfold State.shReduce
  refine ite_opt opt_none ?_
  split
  · exact opt_none
  · rename_i h
    have h1 := opt3_of_eq h (State.shInputs_inv k i p s h_s)
    dsimp only at h1
    have h2 (m : Nat) := State.gcount_inv 0x0E (shfData p).length (tileDie ((s.shCfgOf k).binder (shfChunk p) / 4)) none none
      (some (s.shCfgOf k).fjid) _ (State.shBytes_inv k m (shfData p).length _ h1)
    exact ite_opt (opt_some (State.shClose_inv _ _ _ _ (h2 _))) (opt_some (State.setSheaf_inv _ _ _ (h2 _)))

theorem State.shForward_inv (k i : Nat) (p : Packet) (s : State) (h_s : Keeps pmk z s)  (hu : Cov pmk 71303266 := by exact cov_sub (by assumption) rfl) :
    OptInv pmk z (State.shForward k i p s) := by
  unfold State.shForward
  repeat' first
    | (with_reducible first | assumption | exact cov_sub hu rfl | apply State.shBytes_inv | apply State.shCount_inv | apply State.shDown_inv | apply State.shSpread_inv | apply State.shUp_inv | apply ite_inv | apply ite_opt | apply opt_some | exact opt_none)
    | split

theorem State.shDownRx_inv (k : Nat) (p : Packet) (s : State) (h_s : Keeps pmk z s)  (hu : Cov pmk 71303266 := by exact cov_sub (by assumption) rfl) :
    OptInv pmk z (State.shDownRx k p s) := by
  unfold State.shDownRx
  repeat' first
    | (with_reducible first | assumption | exact cov_sub hu rfl | apply State.setSheaf_inv | apply State.shBytes_inv | apply State.shCount_inv | apply State.shSpread_inv | apply ite_inv | apply ite_opt | apply opt_some | exact opt_none)

theorem State.shRx_inv (p : Packet) (s : State) (h_s : Keeps pmk z s) (hu : Cov pmk 121915619 := by exact cov_sub (by assumption) rfl) : Keeps pmk z (State.shRx p s) := by
  unfold State.shRx
  refine ite_inv (State.bump_inv _ _ _ h_s) (ite_inv (State.raise_inv _ _ _ _ _ (State.bump_inv _ _ _ h_s))
    (ite_inv (State.shFail_inv _ _ _ h_s) (ite_inv (State.shFail_inv _ _ _ ?_) ?_)))
  · exact ite_inv (State.setSheaf_inv _ _ _ h_s) h_s
  split
  · exact State.shFail_inv _ _ _ (ite_inv (State.setSheaf_inv _ _ _ h_s) h_s)
  · rename_i q
    have ht := ite_inv (c := (s.sheaf p.sheafId).st = .idle) (State.setSheaf_inv p.sheafId
      { s.sheaf p.sheafId with st := .running, tStart := s.ns, moved := s.ns } s h_s) h_s
    have hq := opt_of_eq q (ite_opt (State.shDownRx_inv _ _ _ ht)
      (ite_opt (State.shReduce_inv _ _ _ _ ht) (State.shForward_inv _ _ _ _ ht)))
    exact State.shComplete_inv _ _ (State.setSheaf_inv _ _ _ (State.bump_inv _ _ _ hq))

theorem State.windowEnd_inv (p sid : Nat) (lost : Bool) (s : State) (h_s : Keeps pmk z s)  (hu : Cov pmk 88099043 := by exact cov_sub (by assumption) rfl) :
    Keeps pmk z (State.windowEnd p sid lost s) := by
  unfold State.windowEnd
  repeat' first
    | (refine fun _ => ?_)
    | (with_reducible first | assumption | exact cov_sub hu rfl | apply State.bump_inv | apply State.setSheaf_inv | apply State.shFail_inv | apply foldl_inv | apply ite_inv)

/-! ### Switch -/

theorem State.fenceDiscard_inv (p : Nat) (s : State) (h_s : Keeps pmk z s)  (hu : Cov pmk 67108962 := by exact cov_sub (by assumption) rfl) :
    Keeps pmk z (State.fenceDiscard p s) := by
  unfold State.fenceDiscard
  repeat' first
    | (refine fun _ => ?_)
    | (with_reducible first | assumption | exact cov_sub hu rfl | apply State.copyGone_inv | apply State.modSw_inv | apply State.unstall_inv | apply foldl_inv)

theorem State.placeCopies_inv (id : Nat) (items : List Queued) (s : State) (h_s : Keeps pmk z s)  (hu : Cov pmk 64 := by exact cov_sub (by assumption) rfl) :
    Keeps pmk z (State.placeCopies id items s) := by
  unfold State.placeCopies
  repeat' first
    | (with_reducible first | assumption | apply State.modSw_inv)

theorem State.placeLocal_inv (id : Nat) (from_ : Ingress) (k : Packet) (s : State) (h_s : Keeps pmk z s)  (hu : Cov pmk 64 := by exact cov_sub (by assumption) rfl) :
    Keeps pmk z (State.placeLocal id from_ k s) := by
  unfold State.placeLocal
  repeat' first
    | (with_reducible first | assumption | apply State.modSw_inv)

theorem State.admit_inv (p id : Nat) (k : Packet) (s : State) (h_s : Keeps pmk z s)  (hu : Cov pmk 83908835 := by exact cov_sub (by assumption) rfl) :
    Keeps pmk z (State.admitPkt p id k s) := by
  unfold State.admitPkt
  repeat' first
    | (with_reducible first | assumption | exact cov_sub hu rfl | apply State.bump_inv | apply State.copyGone_inv | apply State.countDrop_inv | apply State.dropReport_inv | apply State.lookup_inv | apply State.placeCopies_inv | apply State.placeLocal_inv | apply State.raise_inv | apply State.tracePacket_inv | apply ite_inv)
    | (split <;> first | (rename_i heq; have hi := (congrArg (fun p => Keeps pmk z (Prod.snd (Prod.snd p))) heq).mp ?_; try dsimp only at hi) | (rename_i heq; have hi := (congrArg (fun p => Keeps pmk z (Prod.snd p)) heq).mp ?_; try dsimp only at hi) | (rename_i heq _; have hi := (congrArg (fun p => Keeps pmk z (Prod.snd (Prod.snd p))) heq).mp ?_; try dsimp only at hi) | (rename_i heq _; have hi := (congrArg (fun p => Keeps pmk z (Prod.snd p)) heq).mp ?_; try dsimp only at hi))

theorem State.setShaper_inv (p i : Nat) (v : Shaper) (s : State) (h_s : Keeps pmk z s)  (hu : Cov pmk 64 := by exact cov_sub (by assumption) rfl) :
    Keeps pmk z (State.setShaper p i v s) := by
  unfold State.setShaper
  repeat' first
    | (with_reducible first | assumption | apply State.modSw_inv)

theorem State.charge_inv (p i bytes : Nat) (s : State) (h_s : Keeps pmk z s)  (hu : Cov pmk 66 := by exact cov_sub (by assumption) rfl) :
    Keeps pmk z (State.charge p i bytes s) := by
  unfold State.charge
  repeat' first
    | (with_reducible first | assumption | exact cov_sub hu rfl | apply State.bump_inv | apply State.setShaper_inv | apply ite_inv)

theorem State.arbitrate_inv (p : Nat) (s : State) (h_s : Keeps pmk z s)  (hu : Cov pmk 64 := by exact cov_sub (by assumption) rfl) :
    Keeps pmk z (State.arbitrate p s).2 := by
  unfold State.arbitrate
  repeat' first
    | (with_reducible first | assumption | apply State.modSw_inv | apply ite_snd_inv)
    | ((try lift_lets); intro x; generalize x = y; clear x)
    | split

theorem State.grant_inv (q : Queued) (s : State) (h_s : Keeps pmk z s)  (hu : Cov pmk 16777314 := by exact cov_sub (by assumption) rfl) :
    Keeps pmk z (State.grant q s) := by
  unfold State.grant
  repeat' first
    | (with_reducible first | assumption | exact cov_sub hu rfl | apply State.charge_inv | apply State.emit_inv | apply State.gcount_inv | apply State.modPort_inv | apply State.modSw_inv | apply ite_inv)
    | ((try lift_lets); intro x; have hx : Keeps pmk z x := ?_; revert hx; generalize x = y; clear x; intro hx; rotate_left; (dsimp -zeta only [x]))
    | ((try lift_lets); intro x; generalize x = y; clear x)
    | split

theorem State.tokenReset_inv (p i : Nat) (full : Bool) (s : State) (h_s : Keeps pmk z s)  (hu : Cov pmk 2115 := by exact cov_sub (by assumption) rfl) :
    Keeps pmk z (State.tokenReset p i full s) := by
  unfold State.tokenReset
  repeat' first
    | (with_reducible first | assumption | exact cov_sub hu rfl | apply State.bump_inv | apply State.logAudit_inv | apply State.setShaper_inv)

theorem State.writeShaperCfg_inv (p i : Nat) (v : Word) (s : State) (h_s : Keeps pmk z s)  (hu : Cov pmk 2115 := by exact cov_sub (by assumption) rfl) :
    Keeps pmk z (State.writeShaperCfg p i v s) := by
  unfold State.writeShaperCfg
  repeat' first
    | (with_reducible first | assumption | exact cov_sub hu rfl | apply State.setRg_inv | apply State.tokenReset_inv | apply ite_inv)

theorem State.writeShaperCtrl_inv (p i : Nat) (v : Word) (s : State) (h_s : Keeps pmk z s)  (hu : Cov pmk 2115 := by exact cov_sub (by assumption) rfl) :
    Keeps pmk z (State.writeShaperCtrl p i v s) := by
  unfold State.writeShaperCtrl
  repeat' first
    | (with_reducible first | assumption | exact cov_sub hu rfl | apply State.setRg_inv | apply State.tokenReset_inv | apply ite_inv)

theorem execPacketRx_inv (p : Nat) (pkt : Packet) (s : State) (h_s : Keeps pmk z s)  (hu : Cov pmk 83909875 := by exact cov_sub (by assumption) rfl) :
    Safe pmk z (execPacketRx p pkt s) := by
  unfold execPacketRx
  show Keeps pmk z _
  repeat' first
    | (with_reducible first | assumption | exact cov_sub hu rfl | apply State.admit_inv | apply State.arrived_inv | apply State.malformedRx_inv | apply State.modPort_inv | apply ite_inv)
    | ((try lift_lets); intro x; have hx : Keeps pmk z x := ?_; revert hx; generalize x = y; clear x; intro hx; rotate_left; (dsimp -zeta only [x]))
    | ((try lift_lets); intro x; generalize x = y; clear x)
    | split

theorem execEgressGrant_inv (p : Nat) (s : State) (h_s : Keeps pmk z s)  (hu : Cov pmk 83886178 := by exact cov_sub (by assumption) rfl) :
    Safe pmk z (execEgressGrant p s) := by
  unfold execEgressGrant
  show Keeps pmk z _
  repeat' first
    | (with_reducible first | assumption | exact cov_sub hu rfl | apply State.arbitrate_inv | apply State.fenceDiscard_inv | apply State.grant_inv | apply ite_inv)
    | (split <;> first | (rename_i heq; have hi := (congrArg (fun p => Keeps pmk z (Prod.snd (Prod.snd p))) heq).mp ?_; try dsimp only at hi) | (rename_i heq; have hi := (congrArg (fun p => Keeps pmk z (Prod.snd p)) heq).mp ?_; try dsimp only at hi) | (rename_i heq _; have hi := (congrArg (fun p => Keeps pmk z (Prod.snd (Prod.snd p))) heq).mp ?_; try dsimp only at hi) | (rename_i heq _; have hi := (congrArg (fun p => Keeps pmk z (Prod.snd p)) heq).mp ?_; try dsimp only at hi))

theorem execPacketTxDone_inv (p : Nat) (s : State) (h_s : Keeps pmk z s)  (hu : Cov pmk 67108962 := by exact cov_sub (by assumption) rfl) :
    Safe pmk z (execPacketTxDone p s) := by
  unfold execPacketTxDone
  show Keeps pmk z _
  repeat' first
    | (with_reducible first | assumption | exact cov_sub hu rfl | apply State.bump_inv | apply State.copyGone_inv | apply State.modPort_inv | apply State.unstall_inv | apply ite_inv)
    | split

theorem execStarvePromote_inv (p id : Nat) (s : State) (h_s : Keeps pmk z s)  (hu : Cov pmk 66 := by exact cov_sub (by assumption) rfl) :
    Safe pmk z (execStarvePromote p id s) := by
  unfold execStarvePromote
  show Keeps pmk z _
  repeat' first
    | (with_reducible first | assumption | exact cov_sub hu rfl | apply State.bump_inv | apply State.modSw_inv | apply ite_inv)
    | ((try lift_lets); intro x; generalize x = y; clear x)
    | split

theorem execShaperCfgWrite_inv (src : Source) (p i : Nat) (val : Word) (s : State) (h_s : Keeps pmk z s)  (hu : Cov pmk 2123 := by exact cov_sub (by assumption) rfl) :
    Safe pmk z (execShaperCfgWrite src p i val s) := by
  unfold execShaperCfgWrite
  show Keeps pmk z _
  repeat' first
    | (refine fun _ => ?_)
    | (with_reducible first | assumption | exact cov_sub hu rfl | apply State.guarded_inv | apply State.writeShaperCfg_inv | apply ite_inv)

theorem execShaperReset_inv (src : Source) (p i : Nat) (val : Word) (s : State) (h_s : Keeps pmk z s)  (hu : Cov pmk 2123 := by exact cov_sub (by assumption) rfl) :
    Safe pmk z (execShaperReset src p i val s) := by
  unfold execShaperReset
  show Keeps pmk z _
  repeat' first
    | (refine fun _ => ?_)
    | (with_reducible first | assumption | exact cov_sub hu rfl | apply State.guarded_inv | apply State.writeShaperCtrl_inv | apply ite_inv)

theorem execQueueSample_inv (die : Nat) (s : State) (h_s : Keeps pmk z s)  (hu : Cov pmk 195 := by exact cov_sub (by assumption) rfl) :
    Safe pmk z (execQueueSample die s) := by
  unfold execQueueSample
  show Keeps pmk z _
  repeat' first
    | (refine fun _ => ?_)
    | (with_reducible first | assumption | exact cov_sub hu rfl | apply State.modSw_inv | apply State.sample_inv | apply foldl_inv | apply ite_inv)

/-! ### Sheaf -/

theorem State.shDone_inv (d r : Nat) (s : State) (h_s : Keeps pmk z s)  (hu : Cov pmk 16793603 := by exact cov_sub (by assumption) rfl) :
    Keeps pmk z (State.shDone d r s) := by
  unfold State.shDone
  repeat' first
    | (with_reducible first | assumption | exact cov_sub hu rfl | apply State.raiseInt_inv | apply State.setRg_inv)

theorem State.shCmd_inv (src : Source) (d k : Nat) (act : State → State) (s : State) (h_s : Keeps pmk z s) (hact : ∀ (x0 : State), Keeps pmk z x0 → Keeps pmk z (act x0)) (hu : Cov pmk 16793611 := by exact cov_sub (by assumption) rfl) :
    Keeps pmk z (State.shCmd src d k act s) := by
  unfold State.shCmd
  repeat' first
    | (refine fun _ => ?_)
    | (with_reducible first | assumption | exact cov_sub hu rfl | apply hact | apply State.guarded_inv | apply State.shDone_inv | apply ite_inv)

theorem State.shEnable_inv (d k : Nat) (s : State) (h_s : Keeps pmk z s)  (hu : Cov pmk 22036483 := by exact cov_sub (by assumption) rfl) :
    Keeps pmk z (State.shEnable d k s) := by
  unfold State.shEnable
  repeat' first
    | (with_reducible first | assumption | exact cov_sub hu rfl | apply State.setSheaf_inv | apply State.shDone_inv | apply State.shReserve_inv | apply ite_inv)

theorem execSheafEnable_inv (src : Source) (d k : Nat) (s : State) (h_s : Keeps pmk z s)  (hu : Cov pmk 22036491 := by exact cov_sub (by assumption) rfl) :
    Safe pmk z (execSheafEnable src d k s) := by
  unfold execSheafEnable
  show Keeps pmk z _
  repeat' first
    | (refine fun _ => ?_)
    | (with_reducible first | assumption | exact cov_sub hu rfl | apply State.shCmd_inv | apply State.shEnable_inv)

theorem State.shDisable_inv (d k : Nat) (s : State) (h_s : Keeps pmk z s)  (hu : Cov pmk 22036483 := by exact cov_sub (by assumption) rfl) :
    Keeps pmk z (State.shDisable d k s) := by
  unfold State.shDisable
  repeat' first
    | (with_reducible first | assumption | exact cov_sub hu rfl | apply State.setSheaf_inv | apply State.shDone_inv | apply State.shReserve_inv)
    | ((try lift_lets); intro x; generalize x = y; clear x)
    | split

theorem execSheafDisable_inv (src : Source) (d k : Nat) (s : State) (h_s : Keeps pmk z s)  (hu : Cov pmk 22036491 := by exact cov_sub (by assumption) rfl) :
    Safe pmk z (execSheafDisable src d k s) := by
  unfold execSheafDisable
  show Keeps pmk z _
  repeat' first
    | (refine fun _ => ?_)
    | (with_reducible first | assumption | exact cov_sub hu rfl | apply State.shCmd_inv | apply State.shDisable_inv)

theorem State.shAbortCmd_inv (d k : Nat) (s : State) (h_s : Keeps pmk z s)  (hu : Cov pmk 88099043 := by exact cov_sub (by assumption) rfl) :
    Keeps pmk z (State.shAbortCmd d k s) := by
  unfold State.shAbortCmd
  repeat' first
    | (with_reducible first | assumption | exact cov_sub hu rfl | apply State.shDone_inv | apply State.shFail_inv | apply ite_inv)

theorem execSheafAbortCmd_inv (src : Source) (d k : Nat) (s : State) (h_s : Keeps pmk z s)  (hu : Cov pmk 88099051 := by exact cov_sub (by assumption) rfl) :
    Safe pmk z (execSheafAbortCmd src d k s) := by
  unfold execSheafAbortCmd
  show Keeps pmk z _
  repeat' first
    | (refine fun _ => ?_)
    | (with_reducible first | assumption | exact cov_sub hu rfl | apply State.shAbortCmd_inv | apply State.shCmd_inv)

theorem State.shReset_inv (d k : Nat) (s : State) (h_s : Keeps pmk z s)  (hu : Cov pmk 20987907 := by exact cov_sub (by assumption) rfl) :
    Keeps pmk z (State.shReset d k s) := by
  unfold State.shReset
  repeat' first
    | (with_reducible first | assumption | exact cov_sub hu rfl | apply State.setSheaf_inv | apply State.shDone_inv)
    | ((try lift_lets); intro x; generalize x = y; clear x)
    | split

theorem execSheafReset_inv (src : Source) (d k : Nat) (s : State) (h_s : Keeps pmk z s)  (hu : Cov pmk 20987915 := by exact cov_sub (by assumption) rfl) :
    Safe pmk z (execSheafReset src d k s) := by
  unfold execSheafReset
  show Keeps pmk z _
  repeat' first
    | (refine fun _ => ?_)
    | (with_reducible first | assumption | exact cov_sub hu rfl | apply State.shCmd_inv | apply State.shReset_inv)

theorem State.shTake_inv (p : Nat) (k : Packet) (act : State → State) (s : State) (h_s : Keeps pmk z s) (hact : ∀ (x0 : State), Keeps pmk z x0 → Keeps pmk z (act x0)) (hu : Cov pmk 67108962 := by exact cov_sub (by assumption) rfl) :
    Keeps pmk z (State.shTake p k act s) := by
  unfold State.shTake
  repeat' first
    | (with_reducible first | assumption | exact cov_sub hu rfl | apply hact | apply State.freeLocal_inv | apply State.takeLocal_inv)

theorem execSheafUpRx_inv (p : Nat) (pkt : Packet) (s : State) (h_s : Keeps pmk z s)  (hu : Cov pmk 121915619 := by exact cov_sub (by assumption) rfl) :
    Safe pmk z (execSheafUpRx p pkt s) := by
  unfold execSheafUpRx
  show Keeps pmk z _
  repeat' first
    | (refine fun _ => ?_)
    | (with_reducible first | assumption | exact cov_sub hu rfl | apply State.shRx_inv | apply State.shTake_inv | apply ite_inv)

theorem execSheafDownRx_inv (p : Nat) (pkt : Packet) (s : State) (h_s : Keeps pmk z s)  (hu : Cov pmk 121915619 := by exact cov_sub (by assumption) rfl) :
    Safe pmk z (execSheafDownRx p pkt s) := by
  unfold execSheafDownRx
  show Keeps pmk z _
  repeat' first
    | (refine fun _ => ?_)
    | (with_reducible first | assumption | exact cov_sub hu rfl | apply State.shRx_inv | apply State.shTake_inv | apply ite_inv)

theorem State.shAbortRx_inv (p : Packet) (s : State) (h_s : Keeps pmk z s)  (hu : Cov pmk 88099043 := by exact cov_sub (by assumption) rfl) :
    Keeps pmk z (State.shAbortRx p s) := by
  unfold State.shAbortRx
  repeat' first
    | (with_reducible first | assumption | exact cov_sub hu rfl | apply State.bump_inv | apply State.raise_inv | apply State.shAbort_inv | apply ite_inv)
    | split

theorem execSheafAbortRx_inv (p : Nat) (pkt : Packet) (s : State) (h_s : Keeps pmk z s)  (hu : Cov pmk 88099043 := by exact cov_sub (by assumption) rfl) :
    Safe pmk z (execSheafAbortRx p pkt s) := by
  unfold execSheafAbortRx
  show Keeps pmk z _
  repeat' first
    | (refine fun _ => ?_)
    | (with_reducible first | assumption | exact cov_sub hu rfl | apply State.shAbortRx_inv | apply State.shTake_inv | apply ite_inv)

theorem execSheafPhaseTimeout_inv (k : Nat) (s : State) (h_s : Keeps pmk z s)  (hu : Cov pmk 88099043 := by exact cov_sub (by assumption) rfl) :
    Safe pmk z (execSheafPhaseTimeout k s) := by
  unfold execSheafPhaseTimeout
  show Keeps pmk z _
  repeat' first
    | (with_reducible first | assumption | apply State.shFail_inv | apply ite_inv)

theorem execSheafLinkLoss_inv (p : Nat) (s : State) (h_s : Keeps pmk z s)  (hu : Cov pmk 88099043 := by exact cov_sub (by assumption) rfl) :
    Safe pmk z (execSheafLinkLoss p s) := by
  unfold execSheafLinkLoss
  show Keeps pmk z _
  repeat' first
    | (refine fun _ => ?_)
    | (with_reducible first | assumption | exact cov_sub hu rfl | apply State.modShf_inv | apply State.shFail_inv | apply foldl_inv | apply ite_inv)

theorem State.ctrValue_inv (src : Source) (c : Nat) (v : Word) (s : State) (h_s : Keeps pmk z s)  (hu : Cov pmk 84166891 := by exact cov_sub (by assumption) rfl) :
    Keeps pmk z (State.ctrValue src c v s) := by
  unfold State.ctrValue
  repeat' first
    | (with_reducible first | assumption | exact cov_sub hu rfl | apply State.ctrUpdate_inv | apply State.unstage_inv)

theorem execCtrValueWrite_inv (src : Source) (c : Nat) (val : Word) (s : State) (h_s : Keeps pmk z s)  (hu : Cov pmk 84166891 := by exact cov_sub (by assumption) rfl) :
    Safe pmk z (execCtrValueWrite src c val s) := by
  unfold execCtrValueWrite
  show Keeps pmk z _
  repeat' first
    | (with_reducible first | assumption | apply State.ctrValue_inv | apply ite_inv)

theorem State.ctrThresh_inv (src : Source) (c : Nat) (v : Word) (s : State) (h_s : Keeps pmk z s)  (hu : Cov pmk 84166891 := by exact cov_sub (by assumption) rfl) :
    Keeps pmk z (State.ctrThresh src c v s) := by
  unfold State.ctrThresh
  repeat' first
    | (with_reducible first | assumption | exact cov_sub hu rfl | apply State.ctrEval_inv | apply State.setCtrOf_inv | apply State.unstage_inv)

theorem execCtrThreshWrite_inv (src : Source) (c : Nat) (val : Word) (s : State) (h_s : Keeps pmk z s)  (hu : Cov pmk 84166891 := by exact cov_sub (by assumption) rfl) :
    Safe pmk z (execCtrThreshWrite src c val s) := by
  unfold execCtrThreshWrite
  show Keeps pmk z _
  repeat' first
    | (with_reducible first | assumption | apply State.ctrThresh_inv | apply ite_inv)

theorem State.ctrAdd_inv (src : Source) (c : Nat) (v : Word) (s : State) (h_s : Keeps pmk z s)  (hu : Cov pmk 84166891 := by exact cov_sub (by assumption) rfl) :
    Keeps pmk z (State.ctrAdd src c v s) := by
  unfold State.ctrAdd
  repeat' first
    | (with_reducible first | assumption | exact cov_sub hu rfl | apply State.ctrUpdate_inv | apply State.setCtrOf_inv | apply State.unstage_inv)

theorem execCtrAdd_inv (src : Source) (c : Nat) (val : Word) (s : State) (h_s : Keeps pmk z s)  (hu : Cov pmk 84166891 := by exact cov_sub (by assumption) rfl) :
    Safe pmk z (execCtrAdd src c val s) := by
  unfold execCtrAdd
  show Keeps pmk z _
  repeat' first
    | (with_reducible first | assumption | apply State.ctrAdd_inv | apply ite_inv)

theorem State.ctrCfg_inv (c : Nat) (v : Word) (s : State) (h_s : Keeps pmk z s)  (hu : Cov pmk 84166883 := by exact cov_sub (by assumption) rfl) :
    Keeps pmk z (State.ctrCfg c v s) := by
  unfold State.ctrCfg
  repeat' first
    | (with_reducible first | assumption | exact cov_sub hu rfl | apply State.ctrEval_inv | apply State.setCtrOf_inv)

theorem execCtrCfgWrite_inv (_src : Source) (c : Nat) (val : Word) (s : State) (h_s : Keeps pmk z s)  (hu : Cov pmk 84166883 := by exact cov_sub (by assumption) rfl) :
    Safe pmk z (execCtrCfgWrite _src c val s) := by
  unfold execCtrCfgWrite
  show Keeps pmk z _
  repeat' first
    | (with_reducible first | assumption | apply State.ctrCfg_inv | apply ite_inv)

/-! ### Ether -/

theorem State.ethForward_inv (p : Nat) (f out : List Byte) (stomped : Bool) (s : State) (h_s : Keeps pmk z s)  (hu : Cov pmk 67108962 := by exact cov_sub (by assumption) rfl) :
    Keeps pmk z (State.ethForward p f out stomped s) := by
  unfold State.ethForward
  repeat' first
    | (refine fun _ => ?_)
    | (with_reducible first | assumption | exact cov_sub hu rfl | apply State.bump_inv | apply State.countDrop_inv | apply State.store_inv | apply foldl_inv | apply ite_inv)

theorem State.sendFrame_inv (die : Nat) (f : List Byte) (s : State) (h_s : Keeps pmk z s)  (hu : Cov pmk 67108962 := by exact cov_sub (by assumption) rfl) :
    Keeps pmk z (State.sendFrame die f s) := by
  unfold State.sendFrame
  repeat' first
    | (with_reducible first | assumption | exact cov_sub hu rfl | apply State.bump_inv | apply State.store_inv | apply ite_inv)

theorem State.pfcRx_inv (p : Nat) (f : List Byte) (s : State) (h_s : Keeps pmk z s)  (hu : Cov pmk 34 := by exact cov_sub (by assumption) rfl) :
    Keeps pmk z (State.pfcRx p f s) := by
  unfold State.pfcRx
  repeat' first
    | (refine fun _ => ?_)
    | (with_reducible first | assumption | exact cov_sub hu rfl | apply State.bump_inv | apply State.modPort_inv | apply foldl_inv | apply ite_inv)

theorem State.frameIn_inv (p : Nat) (f : List Byte) (s : State) (h_s : Keeps pmk z s)  (hu : Cov pmk 83904739 := by exact cov_sub (by assumption) rfl) :
    Keeps pmk z (State.frameIn p f s) := by
  unfold State.frameIn
  repeat' first
    | (refine fun _ => ?_)
    | (with_reducible first | assumption | exact cov_sub hu rfl | apply State.bump_inv | apply State.countDrop_inv | apply State.ethForward_inv | apply State.gcount_inv | apply State.placeLocal_inv | apply State.raise_inv | apply State.store_inv | apply ite_inv)
    | (with_reducible apply_assumption -exfalso -symm)
    | ((try lift_lets); intro x; have hx : ∀ a (s : State), Keeps pmk z s → Keeps pmk z (x a s) := ?_; revert hx; generalize x = y; clear x; intro hx; rotate_left; (dsimp -zeta only [x]))
    | split

theorem State.frameRx_inv (p : Nat) (f : List Byte) (cut : Bool) (s : State) (h_s : Keeps pmk z s)  (hu : Cov pmk 83904739 := by exact cov_sub (by assumption) rfl) :
    Keeps pmk z (State.frameRx p f cut s) := by
  unfold State.frameRx
  repeat' first
    | (with_reducible first | assumption | exact cov_sub hu rfl | apply State.bump_inv | apply State.ethForward_inv | apply State.frameIn_inv | apply State.pfcRx_inv | apply ite_inv)

theorem State.sendPfc_inv (p : Nat) (times : List (Nat × Nat)) (s : State) (h_s : Keeps pmk z s)  (hu : Cov pmk 50331682 := by exact cov_sub (by assumption) rfl) :
    Keeps pmk z (State.sendPfc p times s) := by
  unfold State.sendPfc
  repeat' first
    | (with_reducible first | assumption | exact cov_sub hu rfl | apply State.bump_inv | apply State.emit_inv | apply State.modPort_inv | apply State.takeFree_inv | apply ite_inv)

theorem execEthFrameRx_inv (p : Nat) (frame : List Byte) (cut : Bool) (s : State) (h_s : Keeps pmk z s)  (hu : Cov pmk 83904739 := by exact cov_sub (by assumption) rfl) :
    Safe pmk z (execEthFrameRx p frame cut s) := by
  unfold execEthFrameRx
  show Keeps pmk z _
  repeat' first
    | (with_reducible first | assumption | apply State.frameRx_inv | apply ite_inv)

theorem execPfcFrameRx_inv (p : Nat) (frame : List Byte) (s : State) (h_s : Keeps pmk z s)  (hu : Cov pmk 83904739 := by exact cov_sub (by assumption) rfl) :
    Safe pmk z (execPfcFrameRx p frame s) := by
  unfold execPfcFrameRx
  show Keeps pmk z _
  repeat' first
    | (with_reducible first | assumption | apply State.frameRx_inv | apply ite_inv)

theorem execPfcPauseExpire_inv (p prio : Nat) (s : State) (h_s : Keeps pmk z s)  (hu : Cov pmk 32 := by exact cov_sub (by assumption) rfl) :
    Safe pmk z (execPfcPauseExpire p prio s) := by
  unfold execPfcPauseExpire
  show Keeps pmk z _
  repeat' first
    | (with_reducible first | assumption | apply State.modPort_inv)

theorem execPfcSend_inv (p : Nat) (s : State) (h_s : Keeps pmk z s)  (hu : Cov pmk 50331682 := by exact cov_sub (by assumption) rfl) :
    Safe pmk z (execPfcSend p s) := by
  unfold execPfcSend
  show Keeps pmk z _
  repeat' first
    | (with_reducible first | assumption | apply State.sendPfc_inv | apply ite_inv)

theorem execPfcRefresh_inv (p tc : Nat) (s : State) (h_s : Keeps pmk z s)  (hu : Cov pmk 50331682 := by exact cov_sub (by assumption) rfl) :
    Safe pmk z (execPfcRefresh p tc s) := by
  unfold execPfcRefresh
  show Keeps pmk z _
  repeat' first
    | (with_reducible first | assumption | apply State.sendPfc_inv | apply ite_inv)

theorem execPfcWatchdog_inv (p tc : Nat) (s : State) (h_s : Keeps pmk z s)  (hu : Cov pmk 83904739 := by exact cov_sub (by assumption) rfl) :
    Safe pmk z (execPfcWatchdog p tc s) := by
  unfold execPfcWatchdog
  show Keeps pmk z _
  repeat' first
    | (refine fun _ => ?_)
    | (with_reducible first | assumption | exact cov_sub hu rfl | apply State.bump_inv | apply State.copyGone_inv | apply State.countDrop_inv | apply State.modPort_inv | apply State.modSw_inv | apply State.raise_inv | apply foldl_inv | apply ite_inv)

/-! ### Fence -/

theorem State.drainTx_inv (p : Nat)   : ∀ (y0 : Nat) (y1 : State), Keeps pmk z y1 → (hu : Cov pmk 16777250 := by exact cov_sub (by assumption) rfl) →
    Keeps pmk z (State.drainTx p y0 y1) := by
  intro y0
  induction y0 <;> intros <;> unfold State.drainTx
  repeat' first
    | (with_reducible first | assumption | exact cov_sub (by assumption) rfl | apply State.modPort_inv | apply State.putFlit_inv | apply ite_inv)
    | (with_reducible apply_assumption -exfalso -symm)

theorem State.sendNotice_inv (p : Nat) (elec : Bool) (s : State) (h_s : Keeps pmk z s)  (hu : Cov pmk 83886178 := by exact cov_sub (by assumption) rfl) :
    Keeps pmk z (State.sendNotice p elec s) := by
  unfold State.sendNotice
  repeat' first
    | (with_reducible first | assumption | exact cov_sub hu rfl | apply State.drainTx_inv | apply State.modPort_inv | apply State.sendToPort_inv | apply ite_inv)

theorem State.fenceSheaves_inv (p : Nat) (s : State) (h_s : Keeps pmk z s)  (hu : Cov pmk 88099043 := by exact cov_sub (by assumption) rfl) :
    Keeps pmk z (State.fenceSheaves p s) := by
  unfold State.fenceSheaves
  repeat' first
    | (refine fun _ => ?_)
    | (with_reducible first | assumption | apply State.shFail_inv | apply foldl_inv | apply ite_inv)

theorem State.takeFence_inv (p : Nat) (s : State) (h_s : Keeps pmk z s)  (hu : Cov pmk 122834163 := by exact cov_sub (by assumption) rfl) :
    Keeps pmk z (State.takeFence p s) := by
  unfold State.takeFence
  repeat' first
    | (with_reducible first | assumption | exact cov_sub hu rfl | apply State.deadPort_inv | apply State.fenceDiscard_inv | apply State.fenceSheaves_inv | apply State.leaveTo_inv | apply ite_inv)
    | ((try lift_lets); intro x; have hx : Keeps pmk z x := ?_; revert hx; generalize x = y; clear x; intro hx; rotate_left; (dsimp -zeta only [x]))
    | split

theorem State.fenceRecord_inv (g : Nat) (old new : FenceState) (s : State) (h_s : Keeps pmk z s)  (hu : Cov pmk 83904739 := by exact cov_sub (by assumption) rfl) :
    Keeps pmk z (State.fenceRecord g old new s) := by
  unfold State.fenceRecord
  repeat' first
    | (with_reducible first | assumption | exact cov_sub hu rfl | apply State.event_inv | apply State.logAudit_inv)

theorem State.fenceGroup_inv (g : Nat) (elec : Bool) (s : State) (h_s : Keeps pmk z s)  (hu : Cov pmk 122834163 := by exact cov_sub (by assumption) rfl) :
    Keeps pmk z (State.fenceGroup g elec s) := by
  unfold State.fenceGroup
  repeat' first
    | (refine fun _ => ?_)
    | (with_reducible first | assumption | exact cov_sub hu rfl | apply State.fenceRecord_inv | apply State.modFlt_inv | apply State.sendNotice_inv | apply State.takeFence_inv | apply foldl_inv)

theorem State.openGroup_inv (g : Nat) (s : State) (h_s : Keeps pmk z s)  (hu : Cov pmk 83905779 := by exact cov_sub (by assumption) rfl) :
    Keeps pmk z (State.openGroup g s) := by
  unfold State.openGroup
  repeat' first
    | (refine fun _ => ?_)
    | (with_reducible first | assumption | exact cov_sub hu rfl | apply State.fenceRecord_inv | apply State.leaveTo_inv | apply State.modFlt_inv | apply foldl_inv | apply ite_inv)

theorem State.fenceCmd_inv (op g : Nat) (s : State) (h_s : Keeps pmk z s)  (hu : Cov pmk 122834163 := by exact cov_sub (by assumption) rfl) :
    Keeps pmk z (State.fenceCmd op g s) := by
  unfold State.fenceCmd
  repeat' first
    | (with_reducible first | assumption | exact cov_sub hu rfl | apply State.fenceGroup_inv | apply State.openGroup_inv | apply State.setRf_inv | apply ite_inv)

theorem execFenceLogical_inv (src : Source) (g : Nat) (s : State) (h_s : Keeps pmk z s)  (hu : Cov pmk 122834171 := by exact cov_sub (by assumption) rfl) :
    Safe pmk z (execFenceLogical src g s) := by
  unfold execFenceLogical
  show Keeps pmk z _
  repeat' first
    | (refine fun _ => ?_)
    | (with_reducible first | assumption | exact cov_sub hu rfl | apply State.fenceCmd_inv | apply State.guarded_inv)

theorem execFenceElectrical_inv (src : Source) (g : Nat) (s : State) (h_s : Keeps pmk z s)  (hu : Cov pmk 122834171 := by exact cov_sub (by assumption) rfl) :
    Safe pmk z (execFenceElectrical src g s) := by
  unfold execFenceElectrical
  show Keeps pmk z _
  repeat' first
    | (refine fun _ => ?_)
    | (with_reducible first | assumption | exact cov_sub hu rfl | apply State.fenceCmd_inv | apply State.guarded_inv)

theorem execFenceRelease_inv (src : Source) (g : Nat) (s : State) (h_s : Keeps pmk z s)  (hu : Cov pmk 122834171 := by exact cov_sub (by assumption) rfl) :
    Safe pmk z (execFenceRelease src g s) := by
  unfold execFenceRelease
  show Keeps pmk z _
  repeat' first
    | (refine fun _ => ?_)
    | (with_reducible first | assumption | exact cov_sub hu rfl | apply State.fenceCmd_inv | apply State.guarded_inv)

theorem State.noticeRx_inv (p : Nat) (s : State) (h_s : Keeps pmk z s)  (hu : Cov pmk 122834163 := by exact cov_sub (by assumption) rfl) :
    Keeps pmk z (State.noticeRx p s) := by
  unfold State.noticeRx
  repeat' first
    | (with_reducible first | assumption | exact cov_sub hu rfl | apply State.fenceGroup_inv | apply State.raise_inv | apply ite_inv)

theorem execFenceNoticeRx_inv (p : Nat) (pkt : Packet) (s : State) (h_s : Keeps pmk z s)  (hu : Cov pmk 122834163 := by exact cov_sub (by assumption) rfl) :
    Safe pmk z (execFenceNoticeRx p pkt s) := by
  unfold execFenceNoticeRx
  show Keeps pmk z _
  repeat' first
    | (with_reducible first | assumption | exact cov_sub hu rfl | apply State.freeLocal_inv | apply State.noticeRx_inv | apply State.takeLocal_inv | apply ite_inv)
    | (split <;> first | (rename_i heq; have hi := (congrArg (fun p => Keeps pmk z (Prod.snd (Prod.snd p))) heq).mp ?_; try dsimp only at hi) | (rename_i heq; have hi := (congrArg (fun p => Keeps pmk z (Prod.snd p)) heq).mp ?_; try dsimp only at hi) | (rename_i heq _; have hi := (congrArg (fun p => Keeps pmk z (Prod.snd (Prod.snd p))) heq).mp ?_; try dsimp only at hi) | (rename_i heq _; have hi := (congrArg (fun p => Keeps pmk z (Prod.snd p)) heq).mp ?_; try dsimp only at hi))

theorem State.enablePort_inv (p : Nat) (v : Word) (s : State) (h_s : Keeps pmk z s)  (hu : Cov pmk 122834163 := by exact cov_sub (by assumption) rfl) :
    Keeps pmk z (State.enablePort p v s) := by
  unfold State.enablePort
  repeat' first
    | (with_reducible first | assumption | exact cov_sub hu rfl | apply State.takeFence_inv | apply State.writePortCtrl_inv | apply ite_inv)

theorem execPortEnable_inv (src : Source) (p : Nat) (val : Word) (s : State) (h_s : Keeps pmk z s)  (hu : Cov pmk 122834171 := by exact cov_sub (by assumption) rfl) :
    Safe pmk z (execPortEnable src p val s) := by
  unfold execPortEnable
  show Keeps pmk z _
  repeat' first
    | (refine fun _ => ?_)
    | (with_reducible first | assumption | exact cov_sub hu rfl | apply State.enablePort_inv | apply State.guarded_inv)

theorem State.deviceFatal_inv (e : Err) (i c0 c1 : Nat) (s : State) (h_s : Keeps pmk z s)  (hu : Cov pmk 122834163 := by exact cov_sub (by assumption) rfl) :
    Keeps pmk z (State.deviceFatal e i c0 c1 s) := by
  unfold State.deviceFatal
  repeat' first
    | (refine fun _ => ?_)
    | (with_reducible first | assumption | exact cov_sub hu rfl | apply State.fenceGroup_inv | apply State.jobFatal_inv | apply State.logAudit_inv | apply State.modFlt_inv | apply State.setRg_inv | apply foldl_inv | apply ite_inv)
    | split

theorem State.raiseFatal_inv (e : Err) (i : Nat) (caps : List Nat) (s : State) (h_s : Keeps pmk z s)  (hu : Cov pmk 122834163 := by exact cov_sub (by assumption) rfl) :
    Keeps pmk z (State.raiseFatal e i caps s) := by
  unfold State.raiseFatal
  repeat' first
    | (with_reducible first | assumption | exact cov_sub hu rfl | apply State.deviceFatal_inv | apply State.raise_inv)

end Sys2Proof.Machine
end

