-- ==== Sys2Proof/Laws/InvCarv.lean ====
section
/-! SUPPORT. What every function keeps of `State.Inv`, each by the lemmas of the functions it calls:
carvels, extents and leases. -/

set_option Elab.async false

namespace Sys2Proof.Machine
open Sys2Proof
set_option linter.unusedSimpArgs false
set_option linter.unusedVariables false
variable {pmk : Nat} {z : State}

/-! ### CarvCore -/

theorem State.setLeg_inv (l : Nat) (x : Leg) (s : State) (h_s : Keeps pmk z s)  (hu : Cov pmk 524288 := by exact cov_sub (by assumption) rfl) :
    Keeps pmk z (State.setLeg l x s) := by
  unfold State.setLeg
  repeat' first
    | (with_reducible first | assumption | apply State.modCarv_inv)

theorem State.modLeg_inv (l : Nat) (f : Leg → Leg) (s : State) (h_s : Keeps pmk z s)  (hu : Cov pmk 524288 := by exact cov_sub (by assumption) rfl) :
    Keeps pmk z (State.modLeg l f s) := by
  unfold State.modLeg
  repeat' first
    | (with_reducible first | assumption | apply State.setLeg_inv)

theorem State.setWq_inv (q : Nat) (x : Wq) (s : State) (h_s : Keeps pmk z s)  (hu : Cov pmk 524288 := by exact cov_sub (by assumption) rfl) :
    Keeps pmk z (State.setWq q x s) := by
  unfold State.setWq
  repeat' first
    | (with_reducible first | assumption | apply State.modCarv_inv)

theorem State.legSend_inv (l inc dst ext : Nat) (data : List Byte) (poison : Bool) (s : State) (h_s : Keeps pmk z s)  (hu : Cov pmk 67108962 := by exact cov_sub (by assumption) rfl) :
    Keeps pmk z (State.legSend l inc dst ext data poison s) := by
  unfold State.legSend
  repeat' first
    | (with_reducible first | assumption | exact cov_sub hu rfl | apply State.gcount_inv | apply State.sendFrame_inv | apply State.sendOwn_inv | apply ite_inv)

theorem State.legCtl_inv (l kind dst ext : Nat) (s : State) (h_s : Keeps pmk z s)  (hu : Cov pmk 67108962 := by exact cov_sub (by assumption) rfl) :
    Keeps pmk z (State.legCtl l kind dst ext s) := by
  unfold State.legCtl
  repeat' first
    | (with_reducible first | assumption | apply State.legSend_inv)

theorem State.sendAck_inv (l kind : Nat) (s : State) (h_s : Keeps pmk z s)  (hu : Cov pmk 67633250 := by exact cov_sub (by assumption) rfl) :
    Keeps pmk z (State.sendAck l kind s) := by
  unfold State.sendAck
  repeat' first
    | (with_reducible first | assumption | exact cov_sub hu rfl | apply State.legCtl_inv | apply State.modLeg_inv)

theorem State.sendSeq_inv (l seq : Nat) (k : CarvPkt) (s : State) (h_s : Keeps pmk z s)  (hu : Cov pmk 67633250 := by exact cov_sub (by assumption) rfl) :
    Keeps pmk z (State.sendSeq l seq k s) := by
  unfold State.sendSeq
  repeat' first
    | (with_reducible first | assumption | exact cov_sub hu rfl | apply State.bump_inv | apply State.legSend_inv | apply State.modLeg_inv)
    | split

theorem State.ringRecord_inv (l seq : Nat) (s : State) (h_s : Keeps pmk z s)  (hu : Cov pmk 33554560 := by exact cov_sub (by assumption) rfl) :
    Keeps pmk z (State.ringRecord l seq s) := by
  unfold State.ringRecord
  repeat' first
    | (with_reducible first | assumption | exact cov_sub hu rfl | apply State.setBarnNum_inv | apply State.takeFree_inv)

theorem State.legPumpN_inv (l : Nat)   : ∀ (y0 : Nat) (y1 : State), Keeps pmk z y1 → (hu : Cov pmk 101187810 := by exact cov_sub (by assumption) rfl) →
    Keeps pmk z (State.legPumpN l y0 y1) := by
  intro y0
  induction y0 <;> intros <;> unfold State.legPumpN
  repeat' first
    | (with_reducible first | assumption | exact cov_sub (by assumption) rfl | apply State.ringRecord_inv | apply State.sendSeq_inv | apply State.setLeg_inv | apply ite_inv)
    | (with_reducible apply_assumption -exfalso -symm)
    | ((try lift_lets); intro x; generalize x = y; clear x)
    | split

theorem State.legPump_inv (l : Nat) (s : State) (h_s : Keeps pmk z s)  (hu : Cov pmk 101187810 := by exact cov_sub (by assumption) rfl) :
    Keeps pmk z (State.legPump l s) := by
  unfold State.legPump
  repeat' first
    | (with_reducible first | assumption | apply State.legPumpN_inv)

theorem State.legPost_inv (l : Nat) (k : CarvPkt) (s : State) (h_s : Keeps pmk z s)  (hu : Cov pmk 101187810 := by exact cov_sub (by assumption) rfl) :
    Keeps pmk z (State.legPost l k s) := by
  unfold State.legPost
  repeat' first
    | (with_reducible first | assumption | exact cov_sub hu rfl | apply State.legPump_inv | apply State.modLeg_inv)

theorem State.carvAsk_inv (die : Nat) (o : Owner) (op size fva fjid eid : Nat) (data : List Byte) (poison : Bool) (s : State) (h_s : Keeps pmk z s)  (hu : Cov pmk 67109888 := by exact cov_sub (by assumption) rfl) :
    Keeps pmk z (State.carvAsk die o op size fva fjid eid data poison s) := by
  unfold State.carvAsk
  repeat' first
    | (with_reducible first | assumption | apply State.unitAsk_inv)

theorem State.resendN_inv (l : Nat)   : ∀ (y0 : Nat) (y1 : State), Keeps pmk z y1 → (hu : Cov pmk 101188834 := by exact cov_sub (by assumption) rfl) →
    Keeps pmk z (State.resendN l y0 y1) := by
  intro y0
  induction y0 <;> intros <;> unfold State.resendN
  repeat' first
    | (with_reducible first | assumption | exact cov_sub (by assumption) rfl | apply State.bump_inv | apply State.carvAsk_inv | apply State.legPump_inv | apply State.modLeg_inv | apply State.sendSeq_inv | apply ite_inv)
    | (with_reducible apply_assumption -exfalso -symm)
    | ((try lift_lets); intro x; generalize x = y; clear x)
    | split

theorem State.resend_inv (l : Nat) (s : State) (h_s : Keeps pmk z s)  (hu : Cov pmk 101188834 := by exact cov_sub (by assumption) rfl) :
    Keeps pmk z (State.resend l s) := by
  unfold State.resend
  repeat' first
    | (with_reducible first | assumption | exact cov_sub hu rfl | apply State.resendN_inv | apply State.setLeg_inv)

theorem State.wqError_inv (q : Nat) (s : State) (h_s : Keeps pmk z s)  (hu : Cov pmk 17317891 := by exact cov_sub (by assumption) rfl) :
    Keeps pmk z (State.wqError q s) := by
  unfold State.wqError
  repeat' first
    | (with_reducible first | assumption | exact cov_sub hu rfl | apply State.raiseInt_inv | apply State.setWq_inv)

theorem State.wqComplete_inv (q w status mstatus bytes : Nat) (s : State) (h_s : Keeps pmk z s)  (hu : Cov pmk 84692195 := by exact cov_sub (by assumption) rfl) :
    Keeps pmk z (State.wqComplete q w status mstatus bytes s) := by
  unfold State.wqComplete
  repeat' first
    | (with_reducible first | assumption | exact cov_sub hu rfl | apply State.carvAsk_inv | apply State.ctrIncr_inv | apply State.setWq_inv | apply ite_inv)

theorem State.wqEnded_inv (q : Nat) (s : State) (h_s : Keeps pmk z s)  (hu : Cov pmk 524288 := by exact cov_sub (by assumption) rfl) :
    Keeps pmk z (State.wqEnded q s) := by
  unfold State.wqEnded
  repeat' first
    | (with_reducible first | assumption | apply State.setWq_inv)

theorem State.wqPost_inv (q w : Nat) (s : State) (h_s : Keeps pmk z s)  (hu : Cov pmk 84429027 := by exact cov_sub (by assumption) rfl) :
    Keeps pmk z (State.wqPost q w s).2 := by
  unfold State.wqPost
  repeat' first
    | (with_reducible first | assumption | exact cov_sub hu rfl | apply State.raise_inv | apply State.setBarnNum_inv | apply State.setWq_inv | apply State.wqError_inv | apply ite_snd_inv)

theorem State.setInit_inv (l m : Nat) (x : Option InitMsg) (s : State) (h_s : Keeps pmk z s)  (hu : Cov pmk 524288 := by exact cov_sub (by assumption) rfl) :
    Keeps pmk z (State.setInit l m x s) := by
  unfold State.setInit
  repeat' first
    | (with_reducible first | assumption | apply State.modLeg_inv)

theorem State.setResp_inv (l m : Nat) (x : Option RespMsg) (s : State) (h_s : Keeps pmk z s)  (hu : Cov pmk 524288 := by exact cov_sub (by assumption) rfl) :
    Keeps pmk z (State.setResp l m x s) := by
  unfold State.setResp
  repeat' first
    | (with_reducible first | assumption | apply State.modLeg_inv)

theorem State.initComplete_inv (l : Nat) (x : InitMsg) (status mstatus : Nat) (s : State) (h_s : Keeps pmk z s)  (hu : Cov pmk 118246627 := by exact cov_sub (by assumption) rfl) :
    Keeps pmk z (State.initComplete l x status mstatus s) := by
  unfold State.initComplete
  repeat' first
    | (with_reducible first | assumption | exact cov_sub hu rfl | apply State.noteViol_inv | apply State.takeFree_inv | apply State.wqComplete_inv | apply State.wqEnded_inv | apply ite_inv)

theorem State.initEnd_inv (l m : Nat) (x : InitMsg) (status mstatus : Nat) (s : State) (h_s : Keeps pmk z s)  (hu : Cov pmk 118246627 := by exact cov_sub (by assumption) rfl) :
    Keeps pmk z (State.initEnd l m x status mstatus s) := by
  unfold State.initEnd
  repeat' first
    | (with_reducible first | assumption | exact cov_sub hu rfl | apply State.initComplete_inv | apply State.setInit_inv | apply ite_inv)

theorem State.writeNext_inv (l m : Nat) (s : State) (h_s : Keeps pmk z s)  (hu : Cov pmk 67109888 := by exact cov_sub (by assumption) rfl) :
    Keeps pmk z (State.writeNext l m s) := by
  unfold State.writeNext
  repeat' first
    | (with_reducible first | assumption | apply State.carvAsk_inv)
    | split

theorem State.readNext_inv (l m off : Nat) (s : State) (h_s : Keeps pmk z s)  (hu : Cov pmk 67109888 := by exact cov_sub (by assumption) rfl) :
    Keeps pmk z (State.readNext l m off s) := by
  unfold State.readNext
  repeat' first
    | (with_reducible first | assumption | apply State.carvAsk_inv)
    | split

theorem State.respViolation_inv (l m mstatus op fva fjid : Nat) (s : State) (h_s : Keeps pmk z s)  (hu : Cov pmk 83904739 := by exact cov_sub (by assumption) rfl) :
    Keeps pmk z (State.respViolation l m mstatus op fva fjid s) := by
  unfold State.respViolation
  repeat' first
    | (with_reducible first | assumption | exact cov_sub hu rfl | apply State.bump_inv | apply State.noteViol_inv | apply State.raise_inv | apply State.setRg_inv | apply ite_inv)
    | split

theorem State.respCheck_inv (l m : Nat) (s : State) (h_s : Keeps pmk z s)  (hu : Cov pmk 118245603 := by exact cov_sub (by assumption) rfl) :
    Keeps pmk z (State.respCheck l m s) := by
  unfold State.respCheck
  repeat' first
    | (with_reducible first | assumption | exact cov_sub hu rfl | apply State.ctrIncr_inv | apply State.legPost_inv | apply State.setResp_inv | apply ite_inv)
    | ((try lift_lets); intro x; have hx : Keeps pmk z x := ?_; revert hx; generalize x = y; clear x; intro hx; rotate_left; (dsimp -zeta only [x]))
    | split

theorem State.initCheck_inv (l m : Nat) (s : State) (h_s : Keeps pmk z s)  (hu : Cov pmk 118246627 := by exact cov_sub (by assumption) rfl) :
    Keeps pmk z (State.initCheck l m s) := by
  unfold State.initCheck
  repeat' first
    | (with_reducible first | assumption | apply State.initEnd_inv | apply ite_inv)
    | split

theorem State.failAll_inv (l status : Nat) (s : State) (h_s : Keeps pmk z s)  (hu : Cov pmk 118246627 := by exact cov_sub (by assumption) rfl) :
    Keeps pmk z (State.failAll l status s) := by
  unfold State.failAll
  repeat' first
    | (refine fun _ => ?_)
    | (with_reducible first | assumption | exact cov_sub hu rfl | apply State.initEnd_inv | apply State.modLeg_inv | apply foldl_inv)
    | split

theorem State.legFailed_inv (l : Nat) (s : State) (h_s : Keeps pmk z s)  (hu : Cov pmk 118246627 := by exact cov_sub (by assumption) rfl) :
    Keeps pmk z (State.legFailed l s) := by
  unfold State.legFailed
  repeat' first
    | (refine fun _ => ?_)
    | (with_reducible first | assumption | exact cov_sub hu rfl | apply State.failAll_inv | apply State.jobFatal_inv | apply State.modLeg_inv | apply State.raise_inv | apply State.raiseInt_inv | apply foldl_inv)

theorem State.legAdopt_inv (l inc remote : Nat) (s : State) (h_s : Keeps pmk z s)  (hu : Cov pmk 118246627 := by exact cov_sub (by assumption) rfl) :
    Keeps pmk z (State.legAdopt l inc remote s) := by
  unfold State.legAdopt
  repeat' first
    | (with_reducible first | assumption | exact cov_sub hu rfl | apply State.failAll_inv | apply State.modLeg_inv)

/-! ### Ext -/

theorem State.extDone_inv (r : Nat) (s : State) (h_s : Keeps pmk z s)  (hu : Cov pmk 16793603 := by exact cov_sub (by assumption) rfl) :
    Keeps pmk z (State.extDone r s) := by
  unfold State.extDone
  repeat' first
    | (with_reducible first | assumption | exact cov_sub hu rfl | apply State.raiseInt_inv | apply State.setRf_inv)

theorem State.extOut_inv (v : Nat) (s : State) (h_s : Keeps pmk z s)  (hu : Cov pmk 1 := by exact cov_sub (by assumption) rfl) :
    Keeps pmk z (State.extOut v s) := by
  unfold State.extOut
  repeat' first
    | (with_reducible first | assumption | apply State.setRg_inv)

theorem State.extEvt_inv (kind i x : Nat) (s : State) (h_s : Keeps pmk z s)  (hu : Cov pmk 1 := by exact cov_sub (by assumption) rfl) :
    Keeps pmk z (State.extEvt kind i x s) := by
  unfold State.extEvt
  repeat' first
    | (with_reducible first | assumption | apply State.setRg_inv)

theorem State.extCmd_inv (widths : List Nat) (res : State → Nat) (act : State → State) (s : State) (h_s : Keeps pmk z s) (hact : ∀ (x0 : State), Keeps pmk z x0 → Keeps pmk z (act x0)) (hu : Cov pmk 16793603 := by exact cov_sub (by assumption) rfl) :
    Keeps pmk z (State.extCmd widths res act s) := by
  unfold State.extCmd
  repeat' first
    | (with_reducible first | assumption | apply hact | apply State.extDone_inv | apply ite_inv)

theorem State.drainAsk_inv (i : DrainItem) (s : State) (h_s : Keeps pmk z s)  (hu : Cov pmk 256 := by exact cov_sub (by assumption) rfl) :
    Keeps pmk z (State.drainAsk i s) := by
  unfold State.drainAsk
  repeat' first
    | (with_reducible first | assumption | apply State.modExt_inv)

theorem State.extCreate_inv (s : State) (h_s : Keeps pmk z s)  (hu : Cov pmk 16793859 := by exact cov_sub (by assumption) rfl) :
    Keeps pmk z (State.extCreate s) := by
  unfold State.extCreate
  repeat' first
    | (refine fun _ => ?_)
    | (with_reducible first | assumption | exact cov_sub hu rfl | apply State.extCmd_inv | apply State.setExtent_inv)

theorem execExtCreate_inv (src : Source) (s : State) (h_s : Keeps pmk z s)  (hu : Cov pmk 16793867 := by exact cov_sub (by assumption) rfl) :
    Safe pmk z (execExtCreate src s) := by
  unfold execExtCreate
  show Keeps pmk z _
  repeat' first
    | (refine fun _ => ?_)
    | (with_reducible first | assumption | exact cov_sub hu rfl | apply State.extCreate_inv | apply State.guarded_inv)

theorem State.extFence_inv (s : State) (h_s : Keeps pmk z s)  (hu : Cov pmk 16793859 := by exact cov_sub (by assumption) rfl) :
    Keeps pmk z (State.extFence s) := by
  unfold State.extFence
  repeat' first
    | (refine fun _ => ?_)
    | (with_reducible first | assumption | exact cov_sub hu rfl | apply State.bump_inv | apply State.drainAsk_inv | apply State.extCmd_inv | apply State.setExtent_inv)

theorem execExtFence_inv (src : Source) (s : State) (h_s : Keeps pmk z s)  (hu : Cov pmk 16793867 := by exact cov_sub (by assumption) rfl) :
    Safe pmk z (execExtFence src s) := by
  unfold execExtFence
  show Keeps pmk z _
  repeat' first
    | (refine fun _ => ?_)
    | (with_reducible first | assumption | exact cov_sub hu rfl | apply State.extFence_inv | apply State.guarded_inv)

theorem State.extReclaim_inv (s : State) (h_s : Keeps pmk z s)  (hu : Cov pmk 16793859 := by exact cov_sub (by assumption) rfl) :
    Keeps pmk z (State.extReclaim s) := by
  unfold State.extReclaim
  repeat' first
    | (refine fun _ => ?_)
    | (with_reducible first | assumption | exact cov_sub hu rfl | apply State.extCmd_inv | apply State.modExt_inv | apply State.setExtent_inv)

theorem execExtReclaim_inv (src : Source) (s : State) (h_s : Keeps pmk z s)  (hu : Cov pmk 16793867 := by exact cov_sub (by assumption) rfl) :
    Safe pmk z (execExtReclaim src s) := by
  unfold execExtReclaim
  show Keeps pmk z _
  repeat' first
    | (refine fun _ => ?_)
    | (with_reducible first | assumption | exact cov_sub hu rfl | apply State.extReclaim_inv | apply State.guarded_inv)

theorem State.putLease_inv (k e f : Nat) (rw : Bool) (dur : Nat) (s : State) (h_s : Keeps pmk z s)  (hu : Cov pmk 257 := by exact cov_sub (by assumption) rfl) :
    Keeps pmk z (State.putLease k e f rw dur s) := by
  unfold State.putLease
  repeat' first
    | (with_reducible first | assumption | exact cov_sub hu rfl | apply State.extOut_inv | apply State.modExt_inv | apply State.setExtent_inv)

theorem State.leaseGrant_inv (s : State) (h_s : Keeps pmk z s)  (hu : Cov pmk 16793859 := by exact cov_sub (by assumption) rfl) :
    Keeps pmk z (State.leaseGrant s) := by
  unfold State.leaseGrant
  repeat' first
    | (refine fun _ => ?_)
    | (with_reducible first | assumption | exact cov_sub hu rfl | apply State.extCmd_inv | apply State.putLease_inv)
    | split

theorem execLeaseGrant_inv (src : Source) (s : State) (h_s : Keeps pmk z s)  (hu : Cov pmk 16793867 := by exact cov_sub (by assumption) rfl) :
    Safe pmk z (execLeaseGrant src s) := by
  unfold execLeaseGrant
  show Keeps pmk z _
  repeat' first
    | (refine fun _ => ?_)
    | (with_reducible first | assumption | exact cov_sub hu rfl | apply State.guarded_inv | apply State.leaseGrant_inv)

theorem State.leaseRenew_inv (s : State) (h_s : Keeps pmk z s)  (hu : Cov pmk 16793859 := by exact cov_sub (by assumption) rfl) :
    Keeps pmk z (State.leaseRenew s) := by
  unfold State.leaseRenew
  repeat' first
    | (refine fun _ => ?_)
    | (with_reducible first | assumption | exact cov_sub hu rfl | apply State.extCmd_inv | apply State.putLease_inv)
    | split

theorem execLeaseRenew_inv (src : Source) (s : State) (h_s : Keeps pmk z s)  (hu : Cov pmk 16793867 := by exact cov_sub (by assumption) rfl) :
    Safe pmk z (execLeaseRenew src s) := by
  unfold execLeaseRenew
  show Keeps pmk z _
  repeat' first
    | (refine fun _ => ?_)
    | (with_reducible first | assumption | exact cov_sub hu rfl | apply State.guarded_inv | apply State.leaseRenew_inv)

theorem State.leaseRelease_inv (s : State) (h_s : Keeps pmk z s)  (hu : Cov pmk 16793859 := by exact cov_sub (by assumption) rfl) :
    Keeps pmk z (State.leaseRelease s) := by
  unfold State.leaseRelease
  repeat' first
    | (refine fun _ => ?_)
    | (with_reducible first | assumption | exact cov_sub hu rfl | apply State.extCmd_inv | apply State.modExt_inv | apply State.setExtent_inv)
    | ((try lift_lets); intro x; generalize x = y; clear x)
    | split

theorem execLeaseRelease_inv (src : Source) (s : State) (h_s : Keeps pmk z s)  (hu : Cov pmk 16793867 := by exact cov_sub (by assumption) rfl) :
    Safe pmk z (execLeaseRelease src s) := by
  unfold execLeaseRelease
  show Keeps pmk z _
  repeat' first
    | (refine fun _ => ?_)
    | (with_reducible first | assumption | exact cov_sub hu rfl | apply State.guarded_inv | apply State.leaseRelease_inv)

theorem State.leaseExpire_inv (k : Nat) (s : State) (h_s : Keeps pmk z s)  (hu : Cov pmk 16793859 := by exact cov_sub (by assumption) rfl) :
    Keeps pmk z (State.leaseExpire k s) := by
  unfold State.leaseExpire
  repeat' first
    | (with_reducible first | assumption | exact cov_sub hu rfl | apply State.bump_inv | apply State.extEvt_inv | apply State.modExt_inv | apply State.raiseInt_inv | apply ite_inv)

theorem execLeaseExpiry_inv (k : Nat) (s : State) (h_s : Keeps pmk z s)  (hu : Cov pmk 16793859 := by exact cov_sub (by assumption) rfl) :
    Safe pmk z (execLeaseExpiry k s) := by
  unfold execLeaseExpiry
  show Keeps pmk z _
  repeat' first
    | (with_reducible first | assumption | apply State.leaseExpire_inv)

theorem State.setSlot_inv (x : Region) (i v : Nat) (s : State) (h_s : Keeps pmk z s)  (hu : Cov pmk 128 := by exact cov_sub (by assumption) rfl) :
    Keeps pmk z (State.setSlot x i v s) := by
  unfold State.setSlot
  repeat' first
    | (with_reducible first | assumption | apply State.setBarnNum_inv)

theorem State.writeRecs_inv (x : Region) (s : State) (h_s : Keeps pmk z s)  (hu : Cov pmk 128 := by exact cov_sub (by assumption) rfl) :
    Keeps pmk z (State.writeRecs x s) := by
  unfold State.writeRecs
  repeat' first
    | (refine fun _ => ?_)
    | (with_reducible first | assumption | apply State.setBarnNum_inv | apply State.setPoison_inv | apply foldl_inv)

theorem State.writeHeads_inv (x : Region) (s : State) (h_s : Keeps pmk z s)  (hu : Cov pmk 128 := by exact cov_sub (by assumption) rfl) :
    Keeps pmk z (State.writeHeads x s) := by
  unfold State.writeHeads
  repeat' first
    | (refine fun _ => ?_)
    | (with_reducible first | assumption | apply State.setBarnNum_inv | apply State.setPoison_inv | apply foldl_inv)

theorem State.extRegions_inv (e : Nat) (d : Int) (s : State) (h_s : Keeps pmk z s)  (hu : Cov pmk 256 := by exact cov_sub (by assumption) rfl) :
    Keeps pmk z (State.extRegions e d s) := by
  unfold State.extRegions
  repeat' first
    | (with_reducible first | assumption | apply State.setExtent_inv)

theorem State.snapCreate_inv (recCount : Nat) (s : State) (h_s : Keeps pmk z s)  (hu : Cov pmk 16793987 := by exact cov_sub (by assumption) rfl) :
    Keeps pmk z (State.snapCreate recCount s) := by
  unfold State.snapCreate
  repeat' first
    | (refine fun _ => ?_)
    | (with_reducible first | assumption | exact cov_sub hu rfl | apply State.extCmd_inv | apply State.extRegions_inv | apply State.setBarn_inv | apply State.setRegion_inv | apply State.writeHeads_inv | apply State.writeRecs_inv)

theorem execSnapCreate_inv (src : Source) (recCount : Nat) (s : State) (h_s : Keeps pmk z s)  (hu : Cov pmk 16793995 := by exact cov_sub (by assumption) rfl) :
    Safe pmk z (execSnapCreate src recCount s) := by
  unfold execSnapCreate
  show Keeps pmk z _
  repeat' first
    | (refine fun _ => ?_)
    | (with_reducible first | assumption | exact cov_sub hu rfl | apply State.guarded_inv | apply State.snapCreate_inv)

theorem execSnapInitDone_inv (r : Nat) (s : State) (h_s : Keeps pmk z s)  (hu : Cov pmk 256 := by exact cov_sub (by assumption) rfl) :
    Safe pmk z (execSnapInitDone r s) := by
  unfold execSnapInitDone
  show Keeps pmk z _
  repeat' first
    | (with_reducible first | assumption | apply State.setRegion_inv | apply ite_inv)

theorem State.snapOpen_inv (s : State) (h_s : Keeps pmk z s)  (hu : Cov pmk 16793987 := by exact cov_sub (by assumption) rfl) :
    Keeps pmk z (State.snapOpen s) := by
  unfold State.snapOpen
  repeat' first
    | (refine fun _ => ?_)
    | (with_reducible first | assumption | exact cov_sub hu rfl | apply State.drainAsk_inv | apply State.extCmd_inv | apply State.extOut_inv | apply State.setRegion_inv | apply State.setSlot_inv)
    | ((try lift_lets); intro x; generalize x = y; clear x)
    | split

theorem execSnapOpen_inv (src : Source) (s : State) (h_s : Keeps pmk z s)  (hu : Cov pmk 16793995 := by exact cov_sub (by assumption) rfl) :
    Safe pmk z (execSnapOpen src s) := by
  unfold execSnapOpen
  show Keeps pmk z _
  repeat' first
    | (refine fun _ => ?_)
    | (with_reducible first | assumption | exact cov_sub hu rfl | apply State.guarded_inv | apply State.snapOpen_inv)

theorem State.viewAttach_inv (s : State) (h_s : Keeps pmk z s)  (hu : Cov pmk 16793987 := by exact cov_sub (by assumption) rfl) :
    Keeps pmk z (State.viewAttach s) := by
  unfold State.viewAttach
  repeat' first
    | (refine fun _ => ?_)
    | (with_reducible first | assumption | exact cov_sub hu rfl | apply State.extCmd_inv | apply State.setRegion_inv | apply State.setSlot_inv)
    | ((try lift_lets); intro x; generalize x = y; clear x)
    | split

theorem execViewAttach_inv (src : Source) (s : State) (h_s : Keeps pmk z s)  (hu : Cov pmk 16793995 := by exact cov_sub (by assumption) rfl) :
    Safe pmk z (execViewAttach src s) := by
  unfold execViewAttach
  show Keeps pmk z _
  repeat' first
    | (refine fun _ => ?_)
    | (with_reducible first | assumption | exact cov_sub hu rfl | apply State.guarded_inv | apply State.viewAttach_inv)

theorem State.viewDetach_inv (s : State) (h_s : Keeps pmk z s)  (hu : Cov pmk 16793987 := by exact cov_sub (by assumption) rfl) :
    Keeps pmk z (State.viewDetach s) := by
  unfold State.viewDetach
  repeat' first
    | (refine fun _ => ?_)
    | (with_reducible first | assumption | exact cov_sub hu rfl | apply State.extCmd_inv | apply State.setRegion_inv | apply State.setSlot_inv)
    | split

theorem execViewDetach_inv (src : Source) (s : State) (h_s : Keeps pmk z s)  (hu : Cov pmk 16793995 := by exact cov_sub (by assumption) rfl) :
    Safe pmk z (execViewDetach src s) := by
  unfold execViewDetach
  show Keeps pmk z _
  repeat' first
    | (refine fun _ => ?_)
    | (with_reducible first | assumption | exact cov_sub hu rfl | apply State.guarded_inv | apply State.viewDetach_inv)

theorem State.snapClose_inv (s : State) (h_s : Keeps pmk z s)  (hu : Cov pmk 16793987 := by exact cov_sub (by assumption) rfl) :
    Keeps pmk z (State.snapClose s) := by
  unfold State.snapClose
  repeat' first
    | (refine fun _ => ?_)
    | (with_reducible first | assumption | exact cov_sub hu rfl | apply State.drainAsk_inv | apply State.extCmd_inv | apply State.setSlot_inv)
    | ((try lift_lets); intro x; generalize x = y; clear x)
    | split

theorem execSnapClose_inv (src : Source) (s : State) (h_s : Keeps pmk z s)  (hu : Cov pmk 16793995 := by exact cov_sub (by assumption) rfl) :
    Safe pmk z (execSnapClose src s) := by
  unfold execSnapClose
  show Keeps pmk z _
  repeat' first
    | (refine fun _ => ?_)
    | (with_reducible first | assumption | exact cov_sub hu rfl | apply State.guarded_inv | apply State.snapClose_inv)

theorem State.snapDestroy_inv (s : State) (h_s : Keeps pmk z s)  (hu : Cov pmk 16793859 := by exact cov_sub (by assumption) rfl) :
    Keeps pmk z (State.snapDestroy s) := by
  unfold State.snapDestroy
  repeat' first
    | (refine fun _ => ?_)
    | (with_reducible first | assumption | exact cov_sub hu rfl | apply State.drainAsk_inv | apply State.extCmd_inv | apply State.setRegion_inv)

theorem execSnapDestroy_inv (src : Source) (s : State) (h_s : Keeps pmk z s)  (hu : Cov pmk 16793867 := by exact cov_sub (by assumption) rfl) :
    Safe pmk z (execSnapDestroy src s) := by
  unfold execSnapDestroy
  show Keeps pmk z _
  repeat' first
    | (refine fun _ => ?_)
    | (with_reducible first | assumption | exact cov_sub hu rfl | apply State.guarded_inv | apply State.snapDestroy_inv)

theorem execDrainStart_inv (s : State) (h_s : Keeps pmk z s)  (hu : Cov pmk 256 := by exact cov_sub (by assumption) rfl) :
    Safe pmk z (execDrainStart s) := by
  unfold execDrainStart
  show Keeps pmk z _
  repeat' first
    | (with_reducible first | assumption | apply State.modExt_inv | apply ite_inv)

theorem State.drained_inv (i : DrainItem) (s : State) (h_s : Keeps pmk z s)  (hu : Cov pmk 16793987 := by exact cov_sub (by assumption) rfl) :
    Keeps pmk z (State.drained i s) := by
  unfold State.drained
  repeat' first
    | (with_reducible first | assumption | exact cov_sub hu rfl | apply State.extEvt_inv | apply State.extRegions_inv | apply State.raiseInt_inv | apply State.setExtent_inv | apply State.setRegion_inv | apply State.setSlot_inv)
    | split

theorem execDrainEnd_inv (s : State) (h_s : Keeps pmk z s)  (hu : Cov pmk 16793987 := by exact cov_sub (by assumption) rfl) :
    Safe pmk z (execDrainEnd s) := by
  unfold execDrainEnd
  show Keeps pmk z _
  repeat' first
    | (refine fun _ => ?_)
    | (with_reducible first | assumption | exact cov_sub hu rfl | apply State.drained_inv | apply State.modExt_inv | apply foldl_inv | apply ite_inv)
    | split

theorem execSnapSweepStart_inv (r : Nat) (s : State) (h_s : Keeps pmk z s)  (hu : Cov pmk 256 := by exact cov_sub (by assumption) rfl) :
    Safe pmk z (execSnapSweepStart r s) := by
  unfold execSnapSweepStart
  show Keeps pmk z _
  repeat' first
    | (with_reducible first | assumption | apply State.setRegion_inv | apply ite_inv)

theorem State.sweepChain_inv (r : Nat) (live : List Nat) (f : Nat)   : ∀ (y0 : Nat) (y1 : Nat) (y2 : Nat) (y3 : State), Keeps pmk z y3 → (hu : Cov pmk 384 := by exact cov_sub (by assumption) rfl) →
    Keeps pmk z (State.sweepChain r live f y0 y1 y2 y3) := by
  intro y0
  induction y0 <;> intros <;> unfold State.sweepChain
  repeat' first
    | (with_reducible first | assumption | exact cov_sub (by assumption) rfl | apply State.setBarnNum_inv | apply State.setRegion_inv | apply ite_inv)
    | (with_reducible apply_assumption -exfalso -symm)

theorem State.sweep_inv (r : Nat) (slots : List Nat) (s : State) (h_s : Keeps pmk z s)  (hu : Cov pmk 16793987 := by exact cov_sub (by assumption) rfl) :
    Keeps pmk z (State.sweep r slots s) := by
  unfold State.sweep
  repeat' first
    | (refine fun _ => ?_)
    | (with_reducible first | assumption | exact cov_sub hu rfl | apply State.bump_inv | apply State.extEvt_inv | apply State.raiseInt_inv | apply State.setBarnNum_inv | apply State.setRegion_inv | apply State.setSlot_inv | apply State.sweepChain_inv | apply foldl_inv | apply ite_inv)

theorem execSnapSweepEnd_inv (r : Nat) (s : State) (h_s : Keeps pmk z s)  (hu : Cov pmk 83904995 := by exact cov_sub (by assumption) rfl) :
    Safe pmk z (execSnapSweepEnd r s) := by
  unfold execSnapSweepEnd
  show Keeps pmk z _
  repeat' first
    | (with_reducible first | assumption | exact cov_sub hu rfl | apply State.setRegion_inv | apply State.sweep_inv | apply State.tallyMismatch_inv | apply ite_inv)
    | split

/-! ### Carv -/

theorem State.carvDone_inv (d r : Nat) (s : State) (h_s : Keeps pmk z s)  (hu : Cov pmk 16793603 := by exact cov_sub (by assumption) rfl) :
    Keeps pmk z (State.carvDone d r s) := by
  unfold State.carvDone
  repeat' first
    | (with_reducible first | assumption | exact cov_sub hu rfl | apply State.raiseInt_inv | apply State.setRf_inv)

theorem State.sendOpen_inv (l : Nat) (s : State) (h_s : Keeps pmk z s)  (hu : Cov pmk 67108962 := by exact cov_sub (by assumption) rfl) :
    Keeps pmk z (State.sendOpen l s) := by
  unfold State.sendOpen
  repeat' first
    | (with_reducible first | assumption | apply State.legCtl_inv)

theorem State.legOpen_inv (d l : Nat) (s : State) (h_s : Keeps pmk z s)  (hu : Cov pmk 84426851 := by exact cov_sub (by assumption) rfl) :
    Keeps pmk z (State.legOpen d l s) := by
  unfold State.legOpen
  repeat' first
    | (with_reducible first | assumption | exact cov_sub hu rfl | apply State.carvDone_inv | apply State.modLeg_inv | apply State.sendOpen_inv | apply ite_inv)

theorem execLegOpen_inv (src : Source) (d l : Nat) (s : State) (h_s : Keeps pmk z s)  (hu : Cov pmk 84426859 := by exact cov_sub (by assumption) rfl) :
    Safe pmk z (execLegOpen src d l s) := by
  unfold execLegOpen
  show Keeps pmk z _
  repeat' first
    | (refine fun _ => ?_)
    | (with_reducible first | assumption | exact cov_sub hu rfl | apply State.guarded_inv | apply State.legOpen_inv)

theorem State.legClose_inv (d l : Nat) (s : State) (h_s : Keeps pmk z s)  (hu : Cov pmk 118246627 := by exact cov_sub (by assumption) rfl) :
    Keeps pmk z (State.legClose d l s) := by
  unfold State.legClose
  repeat' first
    | (with_reducible first | assumption | exact cov_sub hu rfl | apply State.carvDone_inv | apply State.failAll_inv | apply State.legCtl_inv | apply State.modLeg_inv | apply ite_inv)
    | split

theorem execLegClose_inv (src : Source) (d l : Nat) (s : State) (h_s : Keeps pmk z s)  (hu : Cov pmk 118246635 := by exact cov_sub (by assumption) rfl) :
    Safe pmk z (execLegClose src d l s) := by
  unfold execLegClose
  show Keeps pmk z _
  repeat' first
    | (refine fun _ => ?_)
    | (with_reducible first | assumption | exact cov_sub hu rfl | apply State.guarded_inv | apply State.legClose_inv)

theorem execLegOpenResend_inv (l : Nat) (s : State) (h_s : Keeps pmk z s)  (hu : Cov pmk 84426851 := by exact cov_sub (by assumption) rfl) :
    Safe pmk z (execLegOpenResend l s) := by
  unfold execLegOpenResend
  show Keeps pmk z _
  repeat' first
    | (with_reducible first | assumption | exact cov_sub hu rfl | apply State.modLeg_inv | apply State.raiseInt_inv | apply State.sendOpen_inv | apply ite_inv)

theorem execLegRto_inv (l : Nat) (s : State) (h_s : Keeps pmk z s)  (hu : Cov pmk 118246627 := by exact cov_sub (by assumption) rfl) :
    Safe pmk z (execLegRto l s) := by
  unfold execLegRto
  show Keeps pmk z _
  repeat' first
    | (with_reducible first | assumption | exact cov_sub hu rfl | apply State.bump_inv | apply State.legFailed_inv | apply State.modLeg_inv | apply State.resend_inv | apply ite_inv)

theorem execAckDelayExpire_inv (l : Nat) (s : State) (h_s : Keeps pmk z s)  (hu : Cov pmk 67633250 := by exact cov_sub (by assumption) rfl) :
    Safe pmk z (execAckDelayExpire l s) := by
  unfold execAckDelayExpire
  show Keeps pmk z _
  repeat' first
    | (with_reducible first | assumption | apply State.sendAck_inv | apply ite_inv)

theorem State.carvAckRx_inv (l a : Nat) (s : State) (h_s : Keeps pmk z s)  (hu : Cov pmk 101188834 := by exact cov_sub (by assumption) rfl) :
    Keeps pmk z (State.carvAckRx l a s) := by
  unfold State.carvAckRx
  repeat' first
    | (with_reducible first | assumption | exact cov_sub hu rfl | apply State.resendN_inv | apply State.setLeg_inv | apply ite_inv)

theorem State.ackOf_inv (l : Nat) (k : Packet) (s : State) (h_s : Keeps pmk z s)  (hu : Cov pmk 101188834 := by exact cov_sub (by assumption) rfl) :
    Keeps pmk z (State.ackOf l k s) := by
  unfold State.ackOf
  repeat' first
    | (with_reducible first | assumption | apply State.carvAckRx_inv | apply ite_inv)

theorem State.seqRx_inv (l : Nat) (k : Packet) (act : State → State) (s : State) (h_s : Keeps pmk z s) (hact : ∀ (x0 : State), Keeps pmk z x0 → Keeps pmk z (act x0)) (hu : Cov pmk 101188834 := by exact cov_sub (by assumption) rfl) :
    Keeps pmk z (State.seqRx l k act s) := by
  unfold State.seqRx
  repeat' first
    | (with_reducible first | assumption | exact cov_sub hu rfl | apply hact | apply State.ackOf_inv | apply State.bump_inv | apply State.modLeg_inv | apply State.sendAck_inv | apply State.setLeg_inv | apply ite_inv)
    | ((try lift_lets); intro x; have hx : Keeps pmk z x := ?_; revert hx; generalize x = y; clear x; intro hx; rotate_left; (dsimp -zeta only [x]))
    | split

theorem State.carvRx_inv (p : Nat) (k : Packet) (kind : Nat) (act : Nat → State → State) (s : State) (h_s : Keeps pmk z s) (hact : ∀ (x0 : Nat) (x1 : State), Keeps pmk z x1 → Keeps pmk z (act x0 x1)) (hu : Cov pmk 67108962 := by exact cov_sub (by assumption) rfl) :
    Keeps pmk z (State.carvRx p k kind act s) := by
  unfold State.carvRx
  repeat' first
    | (with_reducible first | assumption | exact cov_sub hu rfl | apply hact | apply State.bump_inv | apply State.freeLocal_inv | apply State.gcount_inv | apply State.takeLocal_inv | apply ite_inv)

theorem State.rxBytes_inv (fjid n : Nat) (s : State) (h_s : Keeps pmk z s)  (hu : Cov pmk 2 := by exact cov_sub (by assumption) rfl) :
    Keeps pmk z (State.rxBytes fjid n s) := by
  unfold State.rxBytes
  repeat' first
    | (with_reducible first | assumption | apply State.bump_inv)
    | split

theorem State.carvDataRx_inv (l : Nat) (k : Packet) (s : State) (h_s : Keeps pmk z s)  (hu : Cov pmk 118246627 := by exact cov_sub (by assumption) rfl) :
    Keeps pmk z (State.carvDataRx l k s) := by
  unfold State.carvDataRx
  repeat' first
    | (with_reducible first | assumption | exact cov_sub hu rfl | apply State.carvAsk_inv | apply State.respCheck_inv | apply State.rxBytes_inv | apply State.setResp_inv | apply State.takeNames_inv | apply ite_inv)

theorem execCarvDataRx_inv (p : Nat) (pkt : Packet) (s : State) (h_s : Keeps pmk z s)  (hu : Cov pmk 118246627 := by exact cov_sub (by assumption) rfl) :
    Safe pmk z (execCarvDataRx p pkt s) := by
  unfold execCarvDataRx
  show Keeps pmk z _
  repeat' first
    | (refine fun _ => ?_)
    | (with_reducible first | assumption | exact cov_sub hu rfl | apply State.carvDataRx_inv | apply State.carvRx_inv | apply State.seqRx_inv)

theorem State.readReqRx_inv (l : Nat) (k : Packet) (s : State) (h_s : Keeps pmk z s)  (hu : Cov pmk 101188834 := by exact cov_sub (by assumption) rfl) :
    Keeps pmk z (State.readReqRx l k s) := by
  unfold State.readReqRx
  repeat' first
    | (with_reducible first | assumption | exact cov_sub hu rfl | apply State.legPost_inv | apply State.readNext_inv | apply State.setResp_inv | apply State.takeNames_inv | apply ite_inv)

theorem execCarvReadReqRx_inv (p : Nat) (pkt : Packet) (s : State) (h_s : Keeps pmk z s)  (hu : Cov pmk 101188834 := by exact cov_sub (by assumption) rfl) :
    Safe pmk z (execCarvReadReqRx p pkt s) := by
  unfold execCarvReadReqRx
  show Keeps pmk z _
  repeat' first
    | (refine fun _ => ?_)
    | (with_reducible first | assumption | exact cov_sub hu rfl | apply State.carvRx_inv | apply State.readReqRx_inv | apply State.seqRx_inv)

theorem State.readDataRx_inv (l : Nat) (k : Packet) (s : State) (h_s : Keeps pmk z s)  (hu : Cov pmk 118246627 := by exact cov_sub (by assumption) rfl) :
    Keeps pmk z (State.readDataRx l k s) := by
  unfold State.readDataRx
  repeat' first
    | (with_reducible first | assumption | exact cov_sub hu rfl | apply State.bump_inv | apply State.carvAsk_inv | apply State.initCheck_inv | apply State.rxBytes_inv | apply State.setInit_inv | apply ite_inv)
    | ((try lift_lets); intro x; have hx : Keeps pmk z x := ?_; revert hx; generalize x = y; clear x; intro hx; rotate_left; (dsimp -zeta only [x]))
    | ((try lift_lets); intro x; generalize x = y; clear x)
    | split

theorem execCarvReadDataRx_inv (p : Nat) (pkt : Packet) (s : State) (h_s : Keeps pmk z s)  (hu : Cov pmk 118246627 := by exact cov_sub (by assumption) rfl) :
    Safe pmk z (execCarvReadDataRx p pkt s) := by
  unfold execCarvReadDataRx
  show Keeps pmk z _
  repeat' first
    | (refine fun _ => ?_)
    | (with_reducible first | assumption | exact cov_sub hu rfl | apply State.carvRx_inv | apply State.readDataRx_inv | apply State.seqRx_inv)

theorem State.resultRx_inv (l : Nat) (k : Packet) (s : State) (h_s : Keeps pmk z s)  (hu : Cov pmk 118246627 := by exact cov_sub (by assumption) rfl) :
    Keeps pmk z (State.resultRx l k s) := by
  unfold State.resultRx
  repeat' first
    | (with_reducible first | assumption | exact cov_sub hu rfl | apply State.bump_inv | apply State.initEnd_inv | apply ite_inv)
    | ((try lift_lets); intro x; generalize x = y; clear x)
    | split

theorem execCarvResultRx_inv (p : Nat) (pkt : Packet) (s : State) (h_s : Keeps pmk z s)  (hu : Cov pmk 118246627 := by exact cov_sub (by assumption) rfl) :
    Safe pmk z (execCarvResultRx p pkt s) := by
  unfold execCarvResultRx
  show Keeps pmk z _
  repeat' first
    | (refine fun _ => ?_)
    | (with_reducible first | assumption | exact cov_sub hu rfl | apply State.carvRx_inv | apply State.resultRx_inv | apply State.seqRx_inv)

theorem State.ctlRx_inv (l : Nat) (k : Packet) (act : State → State) (s : State) (h_s : Keeps pmk z s) (hact : ∀ (x0 : State), Keeps pmk z x0 → Keeps pmk z (act x0)) (hu : Cov pmk 2 := by exact cov_sub (by assumption) rfl) :
    Keeps pmk z (State.ctlRx l k act s) := by
  unfold State.ctlRx
  repeat' first
    | (with_reducible first | assumption | apply hact | apply State.bump_inv | apply ite_inv)

theorem execCarvAckRx_inv (p : Nat) (pkt : Packet) (s : State) (h_s : Keeps pmk z s)  (hu : Cov pmk 101188834 := by exact cov_sub (by assumption) rfl) :
    Safe pmk z (execCarvAckRx p pkt s) := by
  unfold execCarvAckRx
  show Keeps pmk z _
  repeat' first
    | (refine fun _ => ?_)
    | (with_reducible first | assumption | exact cov_sub hu rfl | apply State.ackOf_inv | apply State.carvRx_inv | apply State.ctlRx_inv)

theorem execCarvNakRx_inv (p : Nat) (pkt : Packet) (s : State) (h_s : Keeps pmk z s)  (hu : Cov pmk 101188834 := by exact cov_sub (by assumption) rfl) :
    Safe pmk z (execCarvNakRx p pkt s) := by
  unfold execCarvNakRx
  show Keeps pmk z _
  repeat' first
    | (refine fun _ => ?_)
    | (with_reducible first | assumption | exact cov_sub hu rfl | apply State.ackOf_inv | apply State.carvRx_inv | apply State.ctlRx_inv | apply State.resend_inv)

theorem State.openRx_inv (l : Nat) (k : Packet) (s : State) (h_s : Keeps pmk z s)  (hu : Cov pmk 118246627 := by exact cov_sub (by assumption) rfl) :
    Keeps pmk z (State.openRx l k s) := by
  unfold State.openRx
  repeat' first
    | (refine fun _ => ?_)
    | (with_reducible first | assumption | exact cov_sub hu rfl | apply State.legAdopt_inv | apply State.legCtl_inv | apply ite_inv)
    | (with_reducible apply_assumption -exfalso -symm)
    | ((try lift_lets); intro x; have hx : ∀ (s : State), Keeps pmk z s → Keeps pmk z (x s) := ?_; revert hx; generalize x = y; clear x; intro hx; rotate_left; (dsimp -zeta only [x]))
    | ((try lift_lets); intro x; generalize x = y; clear x)
    | split

theorem execCarvOpenRx_inv (p : Nat) (pkt : Packet) (s : State) (h_s : Keeps pmk z s) (hu : Cov pmk 118246627 := by exact cov_sub (by assumption) rfl) :
    Safe pmk z (execCarvOpenRx p pkt s) := by
  unfold execCarvOpenRx
  show Keeps pmk z _
  refine State.carvRx_inv _ _ _ _ _ h_s fun _ s h => ?_
  generalize s.openLeg pkt = l
  cases l with
  | none => exact h
  | some l => exact State.openRx_inv _ _ _ h

theorem execCarvOpenAckRx_inv (p : Nat) (pkt : Packet) (s : State) (h_s : Keeps pmk z s)  (hu : Cov pmk 118246627 := by exact cov_sub (by assumption) rfl) :
    Safe pmk z (execCarvOpenAckRx p pkt s) := by
  unfold execCarvOpenAckRx
  show Keeps pmk z _
  repeat' first
    | (refine fun _ => ?_)
    | (with_reducible first | assumption | exact cov_sub hu rfl | apply State.carvRx_inv | apply State.legAdopt_inv | apply ite_inv)

theorem execCarvCloseRx_inv (p : Nat) (pkt : Packet) (s : State) (h_s : Keeps pmk z s)  (hu : Cov pmk 118246627 := by exact cov_sub (by assumption) rfl) :
    Safe pmk z (execCarvCloseRx p pkt s) := by
  unfold execCarvCloseRx
  show Keeps pmk z _
  repeat' first
    | (refine fun _ => ?_)
    | (with_reducible first | assumption | exact cov_sub hu rfl | apply State.carvRx_inv | apply State.ctlRx_inv | apply State.failAll_inv | apply State.modLeg_inv)

theorem State.unitRsp_inv (p : Nat) (k : Packet) (mine : Owner → Bool) (act : Owner → State → State) (s : State) (h_s : Keeps pmk z s) (hact : ∀ (x0 : Owner) (x1 : State), Keeps pmk z x1 → Keeps pmk z (act x0 x1)) (hu : Cov pmk 83905763 := by exact cov_sub (by assumption) rfl) :
    Keeps pmk z (State.unitRsp p k mine act s) := by
  unfold State.unitRsp
  repeat' first
    | (with_reducible first | assumption | exact cov_sub hu rfl | apply hact | apply State.freeLocal_inv | apply State.setTag_inv | apply State.staleRsp_inv | apply State.takeLocal_inv | apply ite_inv)
    | split

theorem State.againRead_inv (l seq run st : Nat) (data : List Byte) (poison : Bool) (s : State) (h_s : Keeps pmk z s)  (hu : Cov pmk 101188834 := by exact cov_sub (by assumption) rfl) :
    Keeps pmk z (State.againRead l seq run st data poison s) := by
  unfold State.againRead
  repeat' first
    | (with_reducible first | assumption | exact cov_sub hu rfl | apply State.bump_inv | apply State.modLeg_inv | apply State.resendN_inv | apply State.sendSeq_inv | apply ite_inv)
    | ((try lift_lets); intro x; generalize x = y; clear x)
    | split
    | dsimp only

theorem State.carvRsp_inv (o : Owner) (st : Nat) (data : List Byte) (poison : Bool) (s : State) (h_s : Keeps pmk z s)  (hu : Cov pmk 118246627 := by exact cov_sub (by assumption) rfl) :
    Keeps pmk z (State.carvRsp o st data poison s) := by
  unfold State.carvRsp
  repeat' first
    | (with_reducible first | assumption | exact cov_sub hu rfl | apply State.againRead_inv | apply State.initCheck_inv | apply State.legPost_inv | apply State.readNext_inv | apply State.respCheck_inv | apply State.respViolation_inv | apply State.setInit_inv | apply State.setResp_inv | apply State.writeNext_inv | apply ite_inv)
    | split

theorem execCarvMemRsp_inv (p : Nat) (pkt : Packet) (s : State) (h_s : Keeps pmk z s)  (hu : Cov pmk 118246627 := by exact cov_sub (by assumption) rfl) :
    Safe pmk z (execCarvMemRsp p pkt s) := by
  unfold execCarvMemRsp
  show Keeps pmk z _
  repeat' first
    | (refine fun _ => ?_)
    | (with_reducible first | assumption | exact cov_sub hu rfl | apply State.carvRsp_inv | apply State.unitRsp_inv)

theorem State.wqEnable_inv (d q : Nat) (s : State) (h_s : Keeps pmk z s)  (hu : Cov pmk 17317891 := by exact cov_sub (by assumption) rfl) :
    Keeps pmk z (State.wqEnable d q s) := by
  unfold State.wqEnable
  repeat' first
    | (with_reducible first | assumption | exact cov_sub hu rfl | apply State.carvDone_inv | apply State.setWq_inv | apply ite_inv)

theorem execWqEnable_inv (src : Source) (d q : Nat) (s : State) (h_s : Keeps pmk z s)  (hu : Cov pmk 17317899 := by exact cov_sub (by assumption) rfl) :
    Safe pmk z (execWqEnable src d q s) := by
  unfold execWqEnable
  show Keeps pmk z _
  repeat' first
    | (refine fun _ => ?_)
    | (with_reducible first | assumption | exact cov_sub hu rfl | apply State.guarded_inv | apply State.wqEnable_inv)

theorem State.wqFlushN_inv (q : Nat)   : ∀ (y0 : Nat) (y1 : State), Keeps pmk z y1 → (hu : Cov pmk 84692195 := by exact cov_sub (by assumption) rfl) →
    Keeps pmk z (State.wqFlushN q y0 y1) := by
  intro y0
  induction y0 <;> intros <;> unfold State.wqFlushN
  repeat' first
    | (with_reducible first | assumption | exact cov_sub (by assumption) rfl | apply State.setWq_inv | apply State.wqComplete_inv | apply ite_inv)
    | (with_reducible apply_assumption -exfalso -symm)

theorem State.wqFlush_inv (q : Nat) (s : State) (h_s : Keeps pmk z s)  (hu : Cov pmk 84692195 := by exact cov_sub (by assumption) rfl) :
    Keeps pmk z (State.wqFlush q s) := by
  unfold State.wqFlush
  repeat' first
    | (with_reducible first | assumption | apply State.wqFlushN_inv)

theorem State.wqDisable_inv (d q : Nat) (s : State) (h_s : Keeps pmk z s)  (hu : Cov pmk 84692195 := by exact cov_sub (by assumption) rfl) :
    Keeps pmk z (State.wqDisable d q s) := by
  unfold State.wqDisable
  repeat' first
    | (with_reducible first | assumption | exact cov_sub hu rfl | apply State.carvDone_inv | apply State.setWq_inv | apply State.wqFlush_inv | apply ite_inv)
    | ((try lift_lets); intro x; have hx : Keeps pmk z x := ?_; revert hx; generalize x = y; clear x; intro hx; rotate_left; (dsimp -zeta only [x]))
    | ((try lift_lets); intro x; generalize x = y; clear x)
    | split

theorem execWqDisable_inv (src : Source) (d q : Nat) (s : State) (h_s : Keeps pmk z s)  (hu : Cov pmk 84692203 := by exact cov_sub (by assumption) rfl) :
    Safe pmk z (execWqDisable src d q s) := by
  unfold execWqDisable
  show Keeps pmk z _
  repeat' first
    | (refine fun _ => ?_)
    | (with_reducible first | assumption | exact cov_sub hu rfl | apply State.guarded_inv | apply State.wqDisable_inv)

theorem State.wqPostCmd_inv (d q : Nat) (s : State) (h_s : Keeps pmk z s)  (hu : Cov pmk 84429027 := by exact cov_sub (by assumption) rfl) :
    Keeps pmk z (State.wqPostCmd d q s) := by
  unfold State.wqPostCmd
  repeat' first
    | (with_reducible first | assumption | exact cov_sub hu rfl | apply State.carvDone_inv | apply State.raise_inv | apply State.setWq_inv | apply State.wqError_inv | apply ite_inv)

theorem execWqPost_inv (src : Source) (d q : Nat) (s : State) (h_s : Keeps pmk z s)  (hu : Cov pmk 84429035 := by exact cov_sub (by assumption) rfl) :
    Safe pmk z (execWqPost src d q s) := by
  unfold execWqPost
  show Keeps pmk z _
  repeat' first
    | (refine fun _ => ?_)
    | (with_reducible first | assumption | exact cov_sub hu rfl | apply State.guarded_inv | apply State.wqPostCmd_inv)

theorem State.wqSend_inv (q m w : Nat) (s : State) (h_s : Keeps pmk z s)  (hu : Cov pmk 101188834 := by exact cov_sub (by assumption) rfl) :
    Keeps pmk z (State.wqSend q m w s) := by
  unfold State.wqSend
  repeat' first
    | (with_reducible first | assumption | exact cov_sub hu rfl | apply State.legPost_inv | apply State.setInit_inv | apply State.setWq_inv | apply State.takeFree_inv | apply State.takeNames_inv | apply State.writeNext_inv | apply ite_inv)

theorem State.wqIssue_inv (q : Nat) (s : State) (h_s : Keeps pmk z s) (hu : Cov pmk 118246627 := by exact cov_sub (by assumption) rfl) : Keeps pmk z (State.wqIssue q s) := by
  unfold State.wqIssue
  dsimp only
  have hn := State.setWq_inv q { s.wq q with cons := ((s.wq q).cons + 1) % 65536 } s h_s
  refine ite_inv h_s (ite_inv (State.wqFlushN_inv _ _ _ h_s) (ite_inv ?_ (ite_inv h_s ?_)))
  · exact State.wqError_inv _ _ (State.raise_inv _ _ _ _ _ (State.wqComplete_inv _ _ _ _ _ _ hn))
  · generalize s.pickInit (wLeg (s.barnNum (s.qf q 127 64 + 32 * ((s.wq q).cons % 2 ^ s.wqDepth q)) 32)) = m
    split
    · exact State.wqComplete_inv _ _ _ _ _ _ hn
    · exact State.wqComplete_inv _ _ _ _ _ _ hn
    · exact h_s
    · cases m with
      | none => exact h_s
      | some m => exact State.wqSend_inv _ _ _ _ h_s

theorem execWqeIssue_inv (q : Nat) (s : State) (h_s : Keeps pmk z s)  (hu : Cov pmk 118246627 := by exact cov_sub (by assumption) rfl) :
    Safe pmk z (execWqeIssue q s) := by
  unfold execWqeIssue
  show Keeps pmk z _
  repeat' first
    | (with_reducible first | assumption | apply State.wqIssue_inv | apply ite_inv)

theorem State.postReject_inv (d : Nat) (s : State) (h_s : Keeps pmk z s)  (hu : Cov pmk 83904739 := by exact cov_sub (by assumption) rfl) :
    Keeps pmk z (State.postReject d s) := by
  unfold State.postReject
  repeat' first
    | (with_reducible first | assumption | exact cov_sub hu rfl | apply State.bump_inv | apply State.raise_inv)

theorem State.postWqe_inv (p : Nat) (k : Packet) (s : State) (h_s : Keeps pmk z s)  (hu : Cov pmk 117984483 := by exact cov_sub (by assumption) rfl) :
    Keeps pmk z (State.postWqe p k s) := by
  unfold State.postWqe
  repeat' first
    | (with_reducible first | assumption | exact cov_sub hu rfl | apply State.member_inv | apply State.noteViol_inv | apply State.postReject_inv | apply State.wqPost_inv | apply ite_inv | apply ite_snd_inv)

theorem execPostWqeRx_inv (p : Nat) (pkt : Packet) (s : State) (h_s : Keeps pmk z s)  (hu : Cov pmk 117984483 := by exact cov_sub (by assumption) rfl) :
    Safe pmk z (execPostWqeRx p pkt s) := by
  unfold execPostWqeRx
  show Keeps pmk z _
  repeat' first
    | (refine fun _ => ?_)
    | (with_reducible first | assumption | exact cov_sub hu rfl | apply State.carvRx_inv | apply State.postWqe_inv)

theorem State.soArm_inv (k : Nat) (o : Order) (s : State) (h_s : Keeps pmk z s)  (hu : Cov pmk 262272 := by exact cov_sub (by assumption) rfl) :
    Keeps pmk z (State.soArm k o s) := by
  unfold State.soArm
  repeat' first
    | (with_reducible first | assumption | apply State.setOrder_inv | apply State.soTrigger_inv | apply ite_inv)

theorem State.soArmCmd_inv (d k : Nat) (s : State) (h_s : Keeps pmk z s)  (hu : Cov pmk 17055875 := by exact cov_sub (by assumption) rfl) :
    Keeps pmk z (State.soArmCmd d k s) := by
  unfold State.soArmCmd
  repeat' first
    | (with_reducible first | assumption | exact cov_sub hu rfl | apply State.carvDone_inv | apply State.soArm_inv | apply ite_inv)
    | ((try lift_lets); intro x; generalize x = y; clear x)
    | split

theorem execSoArm_inv (src : Source) (d k : Nat) (s : State) (h_s : Keeps pmk z s)  (hu : Cov pmk 17055883 := by exact cov_sub (by assumption) rfl) :
    Safe pmk z (execSoArm src d k s) := by
  unfold execSoArm
  show Keeps pmk z _
  repeat' first
    | (refine fun _ => ?_)
    | (with_reducible first | assumption | exact cov_sub hu rfl | apply State.guarded_inv | apply State.soArmCmd_inv)

theorem State.soCancelCmd_inv (d k : Nat) (s : State) (h_s : Keeps pmk z s)  (hu : Cov pmk 17055875 := by exact cov_sub (by assumption) rfl) :
    Keeps pmk z (State.soCancelCmd d k s) := by
  unfold State.soCancelCmd
  repeat' first
    | (with_reducible first | assumption | exact cov_sub hu rfl | apply State.carvDone_inv | apply State.setOrder_inv | apply ite_inv)
    | split

theorem execSoCancel_inv (src : Source) (d k : Nat) (s : State) (h_s : Keeps pmk z s)  (hu : Cov pmk 17055883 := by exact cov_sub (by assumption) rfl) :
    Safe pmk z (execSoCancel src d k s) := by
  unfold execSoCancel
  show Keeps pmk z _
  repeat' first
    | (refine fun _ => ?_)
    | (with_reducible first | assumption | exact cov_sub hu rfl | apply State.guarded_inv | apply State.soCancelCmd_inv)

theorem State.postSo_inv (p : Nat) (k : Packet) (s : State) (h_s : Keeps pmk z s)  (hu : Cov pmk 117722339 := by exact cov_sub (by assumption) rfl) :
    Keeps pmk z (State.postSo p k s) := by
  unfold State.postSo
  repeat' first
    | (with_reducible first | assumption | exact cov_sub hu rfl | apply State.member_inv | apply State.postReject_inv | apply State.setBarn_inv | apply State.soArm_inv | apply ite_inv)
    | ((try lift_lets); intro x; generalize x = y; clear x)
    | split

theorem execPostSoRx_inv (p : Nat) (pkt : Packet) (s : State) (h_s : Keeps pmk z s)  (hu : Cov pmk 117722339 := by exact cov_sub (by assumption) rfl) :
    Safe pmk z (execPostSoRx p pkt s) := by
  unfold execPostSoRx
  show Keeps pmk z _
  repeat' first
    | (refine fun _ => ?_)
    | (with_reducible first | assumption | exact cov_sub hu rfl | apply State.carvRx_inv | apply State.postSo_inv)

theorem State.carvStop_inv (j : Nat) (s : State) (h_s : Keeps pmk z s)  (hu : Cov pmk 118246627 := by exact cov_sub (by assumption) rfl) :
    Keeps pmk z (State.carvStop j s) := by
  unfold State.carvStop
  repeat' first
    | (refine fun _ => ?_)
    | (with_reducible first | assumption | exact cov_sub hu rfl | apply State.bump_inv | apply State.initComplete_inv | apply State.modCtr_inv | apply State.setInit_inv | apply State.setOrder_inv | apply State.wqFlush_inv | apply foldl_inv | apply ite_inv)
    | split

end Sys2Proof.Machine
end

