-- ==== Sys2Proof/Laws/InvExpert.lean ====
section
/-! SUPPORT. What every function keeps of `State.Inv`, each by the lemmas of the functions it calls:
expert dispatch, tiles, pools, audits, windows. -/

set_option Elab.async false

namespace Sys2Proof.Machine
open Sys2Proof
set_option linter.unusedSimpArgs false
set_option linter.unusedVariables false
variable {pmk : Nat} {z : State}

/-! ### ExdCore -/

theorem State.layerReserve_inv (l : Nat) (take : Bool) (s : State) (h_s : Keeps pmk z s)  (hu : Cov pmk 1048576 := by exact cov_sub (by assumption) rfl) :
    Keeps pmk z (State.layerReserve l take s) := by
  unfold State.layerReserve
  repeat' first
    | (with_reducible first | assumption | apply State.shReserve_inv)

theorem State.setSlotWord_inv (l k v : Nat) (s : State) (h_s : Keeps pmk z s)  (hu : Cov pmk 128 := by exact cov_sub (by assumption) rfl) :
    Keeps pmk z (State.setSlotWord l k v s) := by
  unfold State.setSlotWord
  repeat' first
    | (with_reducible first | assumption | apply State.setBarnNum_inv)

theorem State.setCmb_inv (l e : Nat) (c : Option Cmb) (s : State) (h_s : Keeps pmk z s)  (hu : Cov pmk 8388608 := by exact cov_sub (by assumption) rfl) :
    Keeps pmk z (State.setCmb l e c s) := by
  unfold State.setCmb
  repeat' first
    | (with_reducible first | assumption | apply State.modExd_inv)

theorem State.cmbCapture_inv (kind l e eid : Nat) (s : State) (h_s : Keeps pmk z s)  (hu : Cov pmk 1 := by exact cov_sub (by assumption) rfl) :
    Keeps pmk z (State.cmbCapture kind l e eid s) := by
  unfold State.cmbCapture
  repeat' first
    | (with_reducible first | assumption | apply State.setRg_inv)

theorem State.unask_inv (o : Owner) (s : State) (h_s : Keeps pmk z s)  (hu : Cov pmk 1024 := by exact cov_sub (by assumption) rfl) :
    Keeps pmk z (State.unask o s).2 := by
  unfold State.unask
  repeat' first
    | (with_reducible first | assumption | apply State.modTtu_inv)

theorem State.expert_inv (d l x : Nat) (s : State) (h_s : Keeps pmk z s)  (hu : Cov pmk 41943042 := by exact cov_sub (by assumption) rfl) :
    Keeps pmk z (State.expert d l x s).2 := by
  unfold State.expert
  repeat' first
    | (refine fun _ => ?_)
    | (with_reducible first | assumption | exact cov_sub hu rfl | apply State.bump_inv | apply State.modExd_inv | apply State.takeFree_inv | apply ite_snd_inv)
    | (with_reducible apply_assumption -exfalso -symm)
    | ((try lift_lets); intro x; have hx : ∀ (s : State), Keeps pmk z s → Keeps pmk z (Prod.snd (x s)) := ?_; revert hx; generalize x = y; clear x; intro hx; rotate_left; (dsimp -zeta only [x]))
    | ((try lift_lets); intro x; generalize x = y; clear x)
    | split

theorem State.choose_inv (d l x i h src step : Nat) (taken : List (Nat × Nat)) (s : State) (h_s : Keeps pmk z s)  (hu : Cov pmk 41943170 := by exact cov_sub (by assumption) rfl) :
    Keeps pmk z (State.choose d l x i h src step taken s).2 := by
  unfold State.choose
  repeat' first
    | (refine fun _ => ?_)
    | (with_reducible first | assumption | exact cov_sub hu rfl | apply State.expert_inv | apply State.setBarnNum_inv | apply foldl_inv | apply ite_inv | apply ite_snd_inv)
    | ((try lift_lets); intro x; generalize x = y; clear x)
    | (split <;> first | (rename_i heq; have hi := (congrArg (fun p => Keeps pmk z (Prod.snd (Prod.snd p))) heq).mp ?_; try dsimp only at hi) | (rename_i heq; have hi := (congrArg (fun p => Keeps pmk z (Prod.snd p)) heq).mp ?_; try dsimp only at hi) | (rename_i heq _; have hi := (congrArg (fun p => Keeps pmk z (Prod.snd (Prod.snd p))) heq).mp ?_; try dsimp only at hi) | (rename_i heq _; have hi := (congrArg (fun p => Keeps pmk z (Prod.snd p)) heq).mp ?_; try dsimp only at hi))
    | split

theorem State.picks_inv (d l h src step : Nat)   : ∀ (y0 : Nat) (y1 : Nat) (y2 : List (Nat × Nat)) (y3 : State), Keeps pmk z y3 → (hu : Cov pmk 41943170 := by exact cov_sub (by assumption) rfl) →
    Keeps pmk z (State.picks d l h src step y0 y1 y2 y3).2 := by
  intro y0
  induction y0 <;> intros <;> unfold State.picks
  repeat' first
    | (with_reducible first | assumption | apply State.choose_inv | apply ite_snd_inv)
    | (with_reducible apply_assumption -exfalso -symm)
    | ((try lift_lets); intro x; have hx : Keeps pmk z (Prod.snd x) := ?_; revert hx; generalize x = y; clear x; intro hx; rotate_left; (dsimp -zeta only [x]))
    | ((try lift_lets); intro x; generalize x = y; clear x)
    | (split <;> first | (rename_i heq; have hi := (congrArg (fun p => Keeps pmk z (Prod.snd (Prod.snd p))) heq).mp ?_; try dsimp only at hi) | (rename_i heq; have hi := (congrArg (fun p => Keeps pmk z (Prod.snd p)) heq).mp ?_; try dsimp only at hi) | (rename_i heq _; have hi := (congrArg (fun p => Keeps pmk z (Prod.snd (Prod.snd p))) heq).mp ?_; try dsimp only at hi) | (rename_i heq _; have hi := (congrArg (fun p => Keeps pmk z (Prod.snd p)) heq).mp ?_; try dsimp only at hi))

theorem State.setCopy_inv (id : Nat) (c : Option Copy) (s : State) (h_s : Keeps pmk z s)  (hu : Cov pmk 8388608 := by exact cov_sub (by assumption) rfl) :
    Keeps pmk z (State.setCopy id c s) := by
  unfold State.setCopy
  repeat' first
    | (with_reducible first | assumption | apply State.modExd_inv)

theorem State.exdWrite_inv (o : Owner) (d l eid fva : Nat) (poison : Bool) (data : List Byte) (s : State) (h_s : Keeps pmk z s)  (hu : Cov pmk 67109888 := by exact cov_sub (by assumption) rfl) :
    Keeps pmk z (State.exdWrite o d l eid fva poison data s) := by
  unfold State.exdWrite
  repeat' first
    | (with_reducible first | assumption | apply State.unitAsk_inv)

theorem State.startCopy'_inv (d : Nat) (c : Copy) (s : State) (h_s : Keeps pmk z s)  (hu : Cov pmk 75498498 := by exact cov_sub (by assumption) rfl) :
    Keeps pmk z (State.startCopy' d c s) := by
  unfold State.startCopy'
  repeat' first
    | (refine fun _ => ?_)
    | (with_reducible first | assumption | exact cov_sub hu rfl | apply State.bump_inv | apply State.exdWrite_inv | apply State.setCopy_inv | apply State.takeNames_inv | apply foldl_inv)

theorem State.slotDone_inv (l k : Nat) (s : State) (h_s : Keeps pmk z s)  (hu : Cov pmk 128 := by exact cov_sub (by assumption) rfl) :
    Keeps pmk z (State.slotDone l k s) := by
  unfold State.slotDone
  repeat' first
    | (with_reducible first | assumption | apply State.setSlotWord_inv | apply ite_inv)

theorem State.cmbCheck_inv (l e : Nat) (s : State) (h_s : Keeps pmk z s)  (hu : Cov pmk 8388608 := by exact cov_sub (by assumption) rfl) :
    Keeps pmk z (State.cmbCheck l e s) := by
  unfold State.cmbCheck
  repeat' first
    | (with_reducible first | assumption | apply State.setCmb_inv | apply ite_inv)
    | split

theorem State.copyEnd_inv (id : Nat) (c : Copy) (s : State) (h_s : Keeps pmk z s)  (hu : Cov pmk 8388736 := by exact cov_sub (by assumption) rfl) :
    Keeps pmk z (State.copyEnd id c s) := by
  unfold State.copyEnd
  repeat' first
    | (with_reducible first | assumption | exact cov_sub hu rfl | apply State.cmbCheck_inv | apply State.setCmb_inv | apply State.setCopy_inv | apply State.slotDone_inv | apply ite_inv)
    | split

theorem State.copyRsp_inv (id st : Nat) (s : State) (h_s : Keeps pmk z s)  (hu : Cov pmk 92294371 := by exact cov_sub (by assumption) rfl) :
    Keeps pmk z (State.copyRsp id st s) := by
  unfold State.copyRsp
  repeat' first
    | (with_reducible first | assumption | exact cov_sub hu rfl | apply State.bump_inv | apply State.copyEnd_inv | apply State.exdWrite_inv | apply State.raise_inv | apply State.setCopy_inv | apply State.unask_inv | apply ite_inv | apply ite_snd_inv)
    | split

theorem State.tokAnswer_inv (die j : Nat) (p : Packet) (st : Nat) (s : State) (h_s : Keeps pmk z s)  (hu : Cov pmk 83904739 := by exact cov_sub (by assumption) rfl) :
    Keeps pmk z (State.tokAnswer die j p st s) := by
  unfold State.tokAnswer
  repeat' first
    | (with_reducible first | assumption | apply State.answer_inv)

theorem State.tokRefuse_inv (l k die j : Nat) (p : Packet) (st : Nat) (s : State) (h_s : Keeps pmk z s)  (hu : Cov pmk 83904739 := by exact cov_sub (by assumption) rfl) :
    Keeps pmk z (State.tokRefuse l k die j p st s) := by
  unfold State.tokRefuse
  repeat' first
    | (with_reducible first | assumption | exact cov_sub hu rfl | apply State.bump_inv | apply State.setSlotWord_inv | apply State.tokAnswer_inv)

theorem State.dispatch_inv (d l k e h step : Nat) (p : Packet) (ps : List (Option (Nat × Nat × Nat))) (s : State) (h_s : Keeps pmk z s)  (hu : Cov pmk 75498626 := by exact cov_sub (by assumption) rfl) :
    Keeps pmk z (State.dispatch d l k e h step p ps s) := by
  unfold State.dispatch
  repeat' first
    | (refine fun _ => ?_)
    | (with_reducible first | assumption | exact cov_sub hu rfl | apply State.setBarnNum_inv | apply State.setCmb_inv | apply State.setSlotWord_inv | apply State.slotDone_inv | apply State.startCopy'_inv | apply State.takeNames_inv | apply foldl_inv)

theorem State.decide'_inv (d : Nat) (s : State) (h_s : Keeps pmk z s)  (hu : Cov pmk 125848803 := by exact cov_sub (by assumption) rfl) :
    Keeps pmk z (State.decide' d s) := by
  unfold State.decide'
  repeat' first
    | (with_reducible first | assumption | exact cov_sub hu rfl | apply State.bump_inv | apply State.dispatch_inv | apply State.gcount_inv | apply State.modExd_inv | apply State.picks_inv | apply State.raise_inv | apply State.tokAnswer_inv | apply State.tokRefuse_inv | apply ite_inv)
    | (split <;> first | (rename_i heq; have hi := (congrArg (fun p => Keeps pmk z (Prod.snd (Prod.snd p))) heq).mp ?_; try dsimp only at hi) | (rename_i heq; have hi := (congrArg (fun p => Keeps pmk z (Prod.snd p)) heq).mp ?_; try dsimp only at hi) | (rename_i heq _; have hi := (congrArg (fun p => Keeps pmk z (Prod.snd (Prod.snd p))) heq).mp ?_; try dsimp only at hi) | (rename_i heq _; have hi := (congrArg (fun p => Keeps pmk z (Prod.snd p)) heq).mp ?_; try dsimp only at hi))
    | split

theorem State.tokenRx_inv (die j l off : Nat) (p : Packet) (s : State) (h_s : Keeps pmk z s)  (hu : Cov pmk 92293347 := by exact cov_sub (by assumption) rfl) :
    Keeps pmk z (State.tokenRx die j l off p s) := by
  unfold State.tokenRx
  repeat' first
    | (with_reducible first | assumption | exact cov_sub hu rfl | apply State.modExd_inv | apply State.respond_inv | apply State.setSlotWord_inv | apply State.storeMarked_inv | apply State.tokAnswer_inv | apply ite_inv)

theorem State.outputRx_inv (die j l off : Nat) (p : Packet) (s : State) (h_s : Keeps pmk z s)  (hu : Cov pmk 92293347 := by exact cov_sub (by assumption) rfl) :
    Keeps pmk z (State.outputRx die j l off p s) := by
  unfold State.outputRx
  repeat' first
    | (with_reducible first | assumption | exact cov_sub hu rfl | apply State.bump_inv | apply State.cmbCapture_inv | apply State.cmbCheck_inv | apply State.raise_inv | apply State.respond_inv | apply State.setCmb_inv | apply State.storeMarked_inv | apply State.tokAnswer_inv | apply ite_inv)
    | ((try lift_lets); intro x; generalize x = y; clear x)
    | split

theorem State.layerBinder_inv (d l : Nat) (s : State) (h_s : Keeps pmk z s)  (hu : Cov pmk 8388608 := by exact cov_sub (by assumption) rfl) :
    Keeps pmk z (State.layerBinder d l s).2 := by
  unfold State.layerBinder
  repeat' first
    | (with_reducible first | assumption | apply State.modExd_inv)

theorem State.combine_inv (l e : Nat) (c : Cmb) (s : State) (h_s : Keeps pmk z s)  (hu : Cov pmk 109052930 := by exact cov_sub (by assumption) rfl) :
    Keeps pmk z (State.combine l e c s) := by
  unfold State.combine
  repeat' first
    | (refine fun _ => ?_)
    | (with_reducible first | assumption | exact cov_sub hu rfl | apply State.bump_inv | apply State.exdWrite_inv | apply State.gcount_inv | apply State.layerBinder_inv | apply State.setCmb_inv | apply State.shNote_inv | apply foldl_inv)

theorem State.cmbEnd_inv (l e : Nat) (c : Cmb) (s : State) (h_s : Keeps pmk z s)  (hu : Cov pmk 8388608 := by exact cov_sub (by assumption) rfl) :
    Keeps pmk z (State.cmbEnd l e c s) := by
  unfold State.cmbEnd
  repeat' first
    | (with_reducible first | assumption | apply State.setCmb_inv | apply ite_inv)

theorem State.resultRsp_inv (l e uid st : Nat) (s : State) (h_s : Keeps pmk z s)  (hu : Cov pmk 92294371 := by exact cov_sub (by assumption) rfl) :
    Keeps pmk z (State.resultRsp l e uid st s) := by
  unfold State.resultRsp
  repeat' first
    | (with_reducible first | assumption | exact cov_sub hu rfl | apply State.bump_inv | apply State.cmbCapture_inv | apply State.cmbEnd_inv | apply State.exdWrite_inv | apply State.raise_inv | apply State.setCmb_inv | apply State.unask_inv | apply ite_inv | apply ite_snd_inv)
    | ((try lift_lets); intro x; generalize x = y; clear x)
    | split

theorem State.exdStop_inv (fjid : Nat) (s : State) (h_s : Keeps pmk z s)  (hu : Cov pmk 92294371 := by exact cov_sub (by assumption) rfl) :
    Keeps pmk z (State.exdStop fjid s) := by
  unfold State.exdStop
  repeat' first
    | (refine fun _ => ?_)
    | (with_reducible first | assumption | exact cov_sub hu rfl | apply State.cmbCheck_inv | apply State.copyEnd_inv | apply State.modExd_inv | apply State.setCmb_inv | apply State.setCopy_inv | apply State.setSlotWord_inv | apply State.tokAnswer_inv | apply State.unask_inv | apply foldl_inv | apply ite_inv)
    | ((try lift_lets); intro x; generalize x = y; clear x)
    | split

/-! ### Tile -/

theorem State.hlDone_inv (t r : Nat) (s : State) (h_s : Keeps pmk z s)  (hu : Cov pmk 16793603 := by exact cov_sub (by assumption) rfl) :
    Keeps pmk z (State.hlDone t r s) := by
  unfold State.hlDone
  repeat' first
    | (with_reducible first | assumption | exact cov_sub hu rfl | apply State.raiseInt_inv | apply State.setRg_inv)

theorem State.hlZero_inv (t base size : Nat) (s : State) (h_s : Keeps pmk z s)  (hu : Cov pmk 1048576 := by exact cov_sub (by assumption) rfl) :
    Keeps pmk z (State.hlZero t base size s) := by
  unfold State.hlZero
  repeat' first
    | (with_reducible first | assumption | apply State.modTile_inv)

theorem State.hlAssign_inv (t : Nat) (s : State) (h_s : Keeps pmk z s)  (hu : Cov pmk 17842179 := by exact cov_sub (by assumption) rfl) :
    Keeps pmk z (State.hlAssign t s) := by
  unfold State.hlAssign
  repeat' first
    | (with_reducible first | assumption | exact cov_sub hu rfl | apply State.hlDone_inv | apply State.hlZero_inv | apply State.modTile_inv | apply State.setRf_inv | apply ite_inv)

theorem execHlAssign_inv (src : Source) (t : Nat) (s : State) (h_s : Keeps pmk z s)  (hu : Cov pmk 17842187 := by exact cov_sub (by assumption) rfl) :
    Safe pmk z (execHlAssign src t s) := by
  unfold execHlAssign
  show Keeps pmk z _
  repeat' first
    | (refine fun _ => ?_)
    | (with_reducible first | assumption | exact cov_sub hu rfl | apply State.guarded_inv | apply State.hlAssign_inv)

theorem execHlAssignDone_inv (t : Nat) (s : State) (h_s : Keeps pmk z s)  (hu : Cov pmk 17842179 := by exact cov_sub (by assumption) rfl) :
    Safe pmk z (execHlAssignDone t s) := by
  unfold execHlAssignDone
  show Keeps pmk z _
  repeat' first
    | (with_reducible first | assumption | exact cov_sub hu rfl | apply State.hlDone_inv | apply State.modTile_inv)
    | split

theorem State.hlRelease_inv (t : Nat) (s : State) (h_s : Keeps pmk z s)  (hu : Cov pmk 17842179 := by exact cov_sub (by assumption) rfl) :
    Keeps pmk z (State.hlRelease t s) := by
  unfold State.hlRelease
  repeat' first
    | (with_reducible first | assumption | exact cov_sub hu rfl | apply State.hlDone_inv | apply State.modTile_inv | apply ite_inv)

theorem execHlRelease_inv (src : Source) (t : Nat) (s : State) (h_s : Keeps pmk z s)  (hu : Cov pmk 17842187 := by exact cov_sub (by assumption) rfl) :
    Safe pmk z (execHlRelease src t s) := by
  unfold execHlRelease
  show Keeps pmk z _
  repeat' first
    | (refine fun _ => ?_)
    | (with_reducible first | assumption | exact cov_sub hu rfl | apply State.guarded_inv | apply State.hlRelease_inv)

theorem State.writeTileCtrl_inv (t : Nat) (en : Bool) (s : State) (h_s : Keeps pmk z s)  (hu : Cov pmk 1048577 := by exact cov_sub (by assumption) rfl) :
    Keeps pmk z (State.writeTileCtrl t en s) := by
  unfold State.writeTileCtrl
  repeat' first
    | (refine fun _ => ?_)
    | (with_reducible first | assumption | exact cov_sub hu rfl | apply State.hlZero_inv | apply State.setRf_inv | apply foldl_inv | apply ite_inv)

theorem execTileEnable_inv (src : Source) (t : Nat) (s : State) (h_s : Keeps pmk z s)  (hu : Cov pmk 1048587 := by exact cov_sub (by assumption) rfl) :
    Safe pmk z (execTileEnable src t s) := by
  unfold execTileEnable
  show Keeps pmk z _
  repeat' first
    | (refine fun _ => ?_)
    | (with_reducible first | assumption | exact cov_sub hu rfl | apply State.guarded_inv | apply State.writeTileCtrl_inv)

theorem execTileDisable_inv (src : Source) (t : Nat) (s : State) (h_s : Keeps pmk z s)  (hu : Cov pmk 1048587 := by exact cov_sub (by assumption) rfl) :
    Safe pmk z (execTileDisable src t s) := by
  unfold execTileDisable
  show Keeps pmk z _
  repeat' first
    | (refine fun _ => ?_)
    | (with_reducible first | assumption | exact cov_sub hu rfl | apply State.guarded_inv | apply State.writeTileCtrl_inv)

theorem State.hostSubmit_inv (src : Source) (t : Nat) (val : Word) (s : State) (h_s : Keeps pmk z s)  (hu : Cov pmk 85216491 := by exact cov_sub (by assumption) rfl) :
    Keeps pmk z (State.hostSubmit src t val s) := by
  unfold State.hostSubmit
  repeat' first
    | (refine fun _ => ?_)
    | (with_reducible first | assumption | exact cov_sub hu rfl | apply State.commitPair_inv | apply State.raiseInt_inv | apply State.setRg_inv | apply State.submit_inv | apply ite_inv)
    | (with_reducible apply_assumption -exfalso -symm)
    | ((try lift_lets); intro x; have hx : Keeps pmk z x := ?_; revert hx; generalize x = y; clear x; intro hx; rotate_left; (dsimp -zeta only [x]))
    | ((try lift_lets); intro x; have hx : ∀ a (s : State), Keeps pmk z s → Keeps pmk z (x a s) := ?_; revert hx; generalize x = y; clear x; intro hx; rotate_left; (dsimp -zeta only [x]))
    | ((try lift_lets); intro x; generalize x = y; clear x)
    | (split <;> first | (rename_i heq; have hi := (congrArg (fun p => Keeps pmk z (Prod.snd (Prod.snd p))) heq).mp ?_; try dsimp only at hi) | (rename_i heq; have hi := (congrArg (fun p => Keeps pmk z (Prod.snd p)) heq).mp ?_; try dsimp only at hi) | (rename_i heq _; have hi := (congrArg (fun p => Keeps pmk z (Prod.snd (Prod.snd p))) heq).mp ?_; try dsimp only at hi) | (rename_i heq _; have hi := (congrArg (fun p => Keeps pmk z (Prod.snd p)) heq).mp ?_; try dsimp only at hi))
    | split

theorem execHostSubmit_inv (src : Source) (t : Nat) (val : Word) (s : State) (h_s : Keeps pmk z s)  (hu : Cov pmk 85216491 := by exact cov_sub (by assumption) rfl) :
    Safe pmk z (execHostSubmit src t val s) := by
  unfold execHostSubmit
  show Keeps pmk z _
  repeat' first
    | (refine fun _ => ?_)
    | (with_reducible first | assumption | exact cov_sub hu rfl | apply State.guarded_inv | apply State.hostSubmit_inv)

theorem execDescStart_inv (t : Nat) (s : State) (h_s : Keeps pmk z s)  (hu : Cov pmk 87313635 := by exact cov_sub (by assumption) rfl) :
    Safe pmk z (execDescStart t s) := by
  unfold execDescStart
  show Keeps pmk z _
  repeat' first
    | (with_reducible first | assumption | apply State.startDesc_inv | apply ite_inv)
    | split

theorem execTileFabricRsp_inv (p : Nat) (pkt : Packet) (s : State) (h_s : Keeps pmk z s)  (hu : Cov pmk 87051491 := by exact cov_sub (by assumption) rfl) :
    Safe pmk z (execTileFabricRsp p pkt s) := by
  unfold execTileFabricRsp
  show Keeps pmk z _
  repeat' first
    | (refine fun _ => ?_)
    | (with_reducible first | assumption | exact cov_sub hu rfl | apply State.drive_inv | apply State.runResult_inv | apply State.unitRsp_inv)

theorem execDescEnd_inv (id : Nat) (s : State) (h_s : Keeps pmk z s)  (hu : Cov pmk 120868067 := by exact cov_sub (by assumption) rfl) :
    Safe pmk z (execDescEnd id s) := by
  unfold execDescEnd
  show Keeps pmk z _
  repeat' first
    | (with_reducible first | assumption | apply State.tryEnd_inv)

theorem execDescCplRsp_inv (p : Nat) (pkt : Packet) (s : State) (h_s : Keeps pmk z s)  (hu : Cov pmk 84167907 := by exact cov_sub (by assumption) rfl) :
    Safe pmk z (execDescCplRsp p pkt s) := by
  unfold execDescCplRsp
  show Keeps pmk z _
  repeat' first
    | (refine fun _ => ?_)
    | (with_reducible first | assumption | exact cov_sub hu rfl | apply State.bump_inv | apply State.ctrIncr_inv | apply State.raise_inv | apply State.unitRsp_inv | apply ite_inv)
    | split

theorem State.soAct_inv (k : Nat) (o : Order) (s : State) (h_s : Keeps pmk z s)  (hu : Cov pmk 85740771 := by exact cov_sub (by assumption) rfl) :
    Keeps pmk z (State.soAct k o s).2 := by
  unfold State.soAct
  repeat' first
    | (with_reducible first | assumption | exact cov_sub hu rfl | apply State.ctrUpdate_inv | apply State.submit_inv | apply State.wqPost_inv | apply ite_snd_inv)
    | ((try lift_lets); intro x; generalize x = y; clear x)
    | (split <;> first | (rename_i heq; have hi := (congrArg (fun p => Keeps pmk z (Prod.snd (Prod.snd p))) heq).mp ?_; try dsimp only at hi) | (rename_i heq; have hi := (congrArg (fun p => Keeps pmk z (Prod.snd p)) heq).mp ?_; try dsimp only at hi) | (rename_i heq _; have hi := (congrArg (fun p => Keeps pmk z (Prod.snd (Prod.snd p))) heq).mp ?_; try dsimp only at hi) | (rename_i heq _; have hi := (congrArg (fun p => Keeps pmk z (Prod.snd p)) heq).mp ?_; try dsimp only at hi))
    | split

theorem State.soAction_inv (d : Nat) (s : State) (h_s : Keeps pmk z s)  (hu : Cov pmk 85740771 := by exact cov_sub (by assumption) rfl) :
    Keeps pmk z (State.soAction d s) := by
  unfold State.soAction
  repeat' first
    | (with_reducible first | assumption | exact cov_sub hu rfl | apply State.bump_inv | apply State.modCtr_inv | apply State.raise_inv | apply State.setOrder_inv | apply State.soAct_inv | apply State.soArm_inv | apply ite_inv)
    | ((try lift_lets); intro x; have hx : Keeps pmk z x := ?_; revert hx; generalize x = y; clear x; intro hx; rotate_left; (dsimp -zeta only [x]))
    | (split <;> first | (rename_i heq; have hi := (congrArg (fun p => Keeps pmk z (Prod.snd (Prod.snd p))) heq).mp ?_; try dsimp only at hi) | (rename_i heq; have hi := (congrArg (fun p => Keeps pmk z (Prod.snd p)) heq).mp ?_; try dsimp only at hi) | (rename_i heq _; have hi := (congrArg (fun p => Keeps pmk z (Prod.snd (Prod.snd p))) heq).mp ?_; try dsimp only at hi) | (rename_i heq _; have hi := (congrArg (fun p => Keeps pmk z (Prod.snd p)) heq).mp ?_; try dsimp only at hi))
    | split

theorem execSoAction_inv (d : Nat) (s : State) (h_s : Keeps pmk z s)  (hu : Cov pmk 85740771 := by exact cov_sub (by assumption) rfl) :
    Safe pmk z (execSoAction d s) := by
  unfold execSoAction
  show Keeps pmk z _
  repeat' first
    | (with_reducible first | assumption | apply State.soAction_inv | apply ite_inv)

/-! ### Exd -/

theorem State.exdDone_inv (r : Nat) (s : State) (h_s : Keeps pmk z s)  (hu : Cov pmk 16793603 := by exact cov_sub (by assumption) rfl) :
    Keeps pmk z (State.exdDone r s) := by
  unfold State.exdDone
  repeat' first
    | (with_reducible first | assumption | exact cov_sub hu rfl | apply State.raiseInt_inv | apply State.setRg_inv)

theorem State.exdEnable_inv (l : Nat) (s : State) (h_s : Keeps pmk z s)  (hu : Cov pmk 26230915 := by exact cov_sub (by assumption) rfl) :
    Keeps pmk z (State.exdEnable l s) := by
  unfold State.exdEnable
  repeat' first
    | (with_reducible first | assumption | exact cov_sub hu rfl | apply State.exdDone_inv | apply State.layerReserve_inv | apply State.modExd_inv | apply State.setBarn_inv | apply ite_inv)

theorem execExdEnable_inv (src : Source) (l : Nat) (s : State) (h_s : Keeps pmk z s)  (hu : Cov pmk 26230923 := by exact cov_sub (by assumption) rfl) :
    Safe pmk z (execExdEnable src l s) := by
  unfold execExdEnable
  show Keeps pmk z _
  repeat' first
    | (refine fun _ => ?_)
    | (with_reducible first | assumption | exact cov_sub hu rfl | apply State.exdEnable_inv | apply State.guarded_inv | apply ite_inv)

theorem State.exdDisable_inv (l : Nat) (s : State) (h_s : Keeps pmk z s)  (hu : Cov pmk 26230787 := by exact cov_sub (by assumption) rfl) :
    Keeps pmk z (State.exdDisable l s) := by
  unfold State.exdDisable
  repeat' first
    | (with_reducible first | assumption | exact cov_sub hu rfl | apply State.exdDone_inv | apply State.layerReserve_inv | apply State.modExd_inv | apply ite_inv)

theorem execExdDisable_inv (src : Source) (l : Nat) (s : State) (h_s : Keeps pmk z s)  (hu : Cov pmk 26230795 := by exact cov_sub (by assumption) rfl) :
    Safe pmk z (execExdDisable src l s) := by
  unfold execExdDisable
  show Keeps pmk z _
  repeat' first
    | (refine fun _ => ?_)
    | (with_reducible first | assumption | exact cov_sub hu rfl | apply State.exdDisable_inv | apply State.guarded_inv | apply ite_inv)

theorem State.expertSync_inv (l : Nat) (s : State) (h_s : Keeps pmk z s)  (hu : Cov pmk 25182339 := by exact cov_sub (by assumption) rfl) :
    Keeps pmk z (State.expertSync l s) := by
  unfold State.expertSync
  repeat' first
    | (refine fun _ => ?_)
    | (with_reducible first | assumption | exact cov_sub hu rfl | apply State.exdDone_inv | apply State.modExd_inv | apply State.setBarn_inv | apply foldl_inv | apply ite_inv)

theorem execExpertSync_inv (src : Source) (l : Nat) (s : State) (h_s : Keeps pmk z s)  (hu : Cov pmk 25182347 := by exact cov_sub (by assumption) rfl) :
    Safe pmk z (execExpertSync src l s) := by
  unfold execExpertSync
  show Keeps pmk z _
  repeat' first
    | (refine fun _ => ?_)
    | (with_reducible first | assumption | exact cov_sub hu rfl | apply State.expertSync_inv | apply State.guarded_inv | apply ite_inv)

theorem execTokenDecide_inv (d : Nat) (s : State) (h_s : Keeps pmk z s)  (hu : Cov pmk 125848803 := by exact cov_sub (by assumption) rfl) :
    Safe pmk z (execTokenDecide d s) := by
  unfold execTokenDecide
  show Keeps pmk z _
  repeat' first
    | (with_reducible first | assumption | apply State.decide'_inv | apply ite_inv)

theorem execExdWriteRsp_inv (p : Nat) (pkt : Packet) (s : State) (h_s : Keeps pmk z s)  (hu : Cov pmk 92294371 := by exact cov_sub (by assumption) rfl) :
    Safe pmk z (execExdWriteRsp p pkt s) := by
  unfold execExdWriteRsp
  show Keeps pmk z _
  repeat' first
    | (refine fun _ => ?_)
    | (with_reducible first | assumption | exact cov_sub hu rfl | apply State.copyRsp_inv | apply State.resultRsp_inv | apply State.unitRsp_inv)
    | split

theorem execCmbTimeout_inv (l e : Nat) (s : State) (h_s : Keeps pmk z s)  (hu : Cov pmk 92293347 := by exact cov_sub (by assumption) rfl) :
    Safe pmk z (execCmbTimeout l e s) := by
  unfold execCmbTimeout
  show Keeps pmk z _
  repeat' first
    | (with_reducible first | assumption | exact cov_sub hu rfl | apply State.bump_inv | apply State.cmbCapture_inv | apply State.raise_inv | apply State.raiseInt_inv | apply State.setCmb_inv | apply ite_inv)
    | split

theorem execCmbCombine_inv (l e : Nat) (s : State) (h_s : Keeps pmk z s)  (hu : Cov pmk 109052930 := by exact cov_sub (by assumption) rfl) :
    Safe pmk z (execCmbCombine l e s) := by
  unfold execCmbCombine
  show Keeps pmk z _
  repeat' first
    | (with_reducible first | assumption | apply State.combine_inv | apply ite_inv)
    | split

theorem execCmbQuarEnd_inv (l e : Nat) (s : State) (h_s : Keeps pmk z s)  (hu : Cov pmk 8388608 := by exact cov_sub (by assumption) rfl) :
    Safe pmk z (execCmbQuarEnd l e s) := by
  unfold execCmbQuarEnd
  show Keeps pmk z _
  repeat' first
    | (with_reducible first | assumption | apply State.setCmb_inv | apply ite_inv)
    | split

/-! ### Kv -/

theorem State.poolReject_inv (p r : Nat) (s : State) (h_s : Keeps pmk z s)  (hu : Cov pmk 1 := by exact cov_sub (by assumption) rfl) :
    Keeps pmk z (State.poolReject p r s) := by
  unfold State.poolReject
  repeat' first
    | (with_reducible first | assumption | apply State.setRf_inv)

theorem State.poolInit_inv (p : Nat) (s : State) (h_s : Keeps pmk z s)  (hu : Cov pmk 2097281 := by exact cov_sub (by assumption) rfl) :
    Keeps pmk z (State.poolInit p s) := by
  unfold State.poolInit
  repeat' first
    | (refine fun _ => ?_)
    | (with_reducible first | assumption | exact cov_sub hu rfl | apply State.setBarnNum_inv | apply State.setHdr_inv | apply State.setPool_inv | apply State.setRg_inv | apply foldl_inv)

theorem State.poolEnable_inv (p : Nat) (s : State) (h_s : Keeps pmk z s)  (hu : Cov pmk 2097281 := by exact cov_sub (by assumption) rfl) :
    Keeps pmk z (State.poolEnable p s) := by
  unfold State.poolEnable
  repeat' first
    | (with_reducible first | assumption | exact cov_sub hu rfl | apply State.poolInit_inv | apply State.poolReject_inv | apply ite_inv)
    | ((try lift_lets); intro x; generalize x = y; clear x)
    | split

theorem execKvPoolEnable_inv (src : Source) (p : Nat) (s : State) (h_s : Keeps pmk z s)  (hu : Cov pmk 2097291 := by exact cov_sub (by assumption) rfl) :
    Safe pmk z (execKvPoolEnable src p s) := by
  unfold execKvPoolEnable
  show Keeps pmk z _
  repeat' first
    | (refine fun _ => ?_)
    | (with_reducible first | assumption | exact cov_sub hu rfl | apply State.guarded_inv | apply State.poolEnable_inv)

theorem State.poolDisable_inv (p : Nat) (s : State) (h_s : Keeps pmk z s)  (hu : Cov pmk 2097153 := by exact cov_sub (by assumption) rfl) :
    Keeps pmk z (State.poolDisable p s) := by
  unfold State.poolDisable
  repeat' first
    | (with_reducible first | assumption | exact cov_sub hu rfl | apply State.poolReject_inv | apply State.setPool_inv | apply ite_inv)
    | split

theorem execKvPoolDisable_inv (src : Source) (p : Nat) (s : State) (h_s : Keeps pmk z s)  (hu : Cov pmk 2097163 := by exact cov_sub (by assumption) rfl) :
    Safe pmk z (execKvPoolDisable src p s) := by
  unfold execKvPoolDisable
  show Keeps pmk z _
  repeat' first
    | (refine fun _ => ?_)
    | (with_reducible first | assumption | exact cov_sub hu rfl | apply State.guarded_inv | apply State.poolDisable_inv)

theorem State.poolReset_inv (p : Nat) (s : State) (h_s : Keeps pmk z s)  (hu : Cov pmk 2097281 := by exact cov_sub (by assumption) rfl) :
    Keeps pmk z (State.poolReset p s) := by
  unfold State.poolReset
  repeat' first
    | (refine fun _ => ?_)
    | (with_reducible first | assumption | exact cov_sub hu rfl | apply State.poolReject_inv | apply State.setPool_inv | apply State.setSeq_inv | apply foldl_inv)
    | split

theorem execKvPoolReset_inv (src : Source) (p : Nat) (s : State) (h_s : Keeps pmk z s)  (hu : Cov pmk 2097291 := by exact cov_sub (by assumption) rfl) :
    Safe pmk z (execKvPoolReset src p s) := by
  unfold execKvPoolReset
  show Keeps pmk z _
  repeat' first
    | (refine fun _ => ?_)
    | (with_reducible first | assumption | exact cov_sub hu rfl | apply State.guarded_inv | apply State.poolReset_inv)

theorem execKvPoolInitDone_inv (p : Nat) (s : State) (h_s : Keeps pmk z s)  (hu : Cov pmk 18890755 := by exact cov_sub (by assumption) rfl) :
    Safe pmk z (execKvPoolInitDone p s) := by
  unfold execKvPoolInitDone
  show Keeps pmk z _
  repeat' first
    | (with_reducible first | assumption | exact cov_sub hu rfl | apply State.modPool_inv | apply State.raiseInt_inv | apply ite_inv)

theorem State.seqDone_inv (r : Nat) (s : State) (h_s : Keeps pmk z s)  (hu : Cov pmk 16793603 := by exact cov_sub (by assumption) rfl) :
    Keeps pmk z (State.seqDone r s) := by
  unfold State.seqDone
  repeat' first
    | (with_reducible first | assumption | exact cov_sub hu rfl | apply State.raiseInt_inv | apply State.setRf_inv)

theorem State.seqCreate_inv (q : Nat) (s : State) (h_s : Keeps pmk z s)  (hu : Cov pmk 18890883 := by exact cov_sub (by assumption) rfl) :
    Keeps pmk z (State.seqCreate q s) := by
  unfold State.seqCreate
  repeat' first
    | (with_reducible first | assumption | exact cov_sub hu rfl | apply State.seqDone_inv | apply State.setSeq_inv | apply State.takeBlk_inv | apply ite_inv)
    | (split <;> first | (rename_i heq; have hi := (congrArg (fun p => Keeps pmk z (Prod.snd (Prod.snd p))) heq).mp ?_; try dsimp only at hi) | (rename_i heq; have hi := (congrArg (fun p => Keeps pmk z (Prod.snd p)) heq).mp ?_; try dsimp only at hi) | (rename_i heq _; have hi := (congrArg (fun p => Keeps pmk z (Prod.snd (Prod.snd p))) heq).mp ?_; try dsimp only at hi) | (rename_i heq _; have hi := (congrArg (fun p => Keeps pmk z (Prod.snd p)) heq).mp ?_; try dsimp only at hi))

theorem execKvSeqCreate_inv (src : Source) (q : Nat) (s : State) (h_s : Keeps pmk z s)  (hu : Cov pmk 18890891 := by exact cov_sub (by assumption) rfl) :
    Safe pmk z (execKvSeqCreate src q s) := by
  unfold execKvSeqCreate
  show Keeps pmk z _
  repeat' first
    | (refine fun _ => ?_)
    | (with_reducible first | assumption | exact cov_sub hu rfl | apply State.guarded_inv | apply State.seqCreate_inv)

theorem State.seqDestroy_inv (q : Nat) (s : State) (h_s : Keeps pmk z s)  (hu : Cov pmk 87048323 := by exact cov_sub (by assumption) rfl) :
    Keeps pmk z (State.seqDestroy q s) := by
  unfold State.seqDestroy
  repeat' first
    | (with_reducible first | assumption | exact cov_sub hu rfl | apply State.readersGone_inv | apply State.seqDone_inv | apply State.setSeq_inv | apply ite_inv)

theorem execKvSeqDestroy_inv (src : Source) (q : Nat) (s : State) (h_s : Keeps pmk z s)  (hu : Cov pmk 87048331 := by exact cov_sub (by assumption) rfl) :
    Safe pmk z (execKvSeqDestroy src q s) := by
  unfold execKvSeqDestroy
  show Keeps pmk z _
  repeat' first
    | (refine fun _ => ?_)
    | (with_reducible first | assumption | exact cov_sub hu rfl | apply State.guarded_inv | apply State.seqDestroy_inv)

theorem State.preempt_inv (q : Nat) (s : State) (h_s : Keeps pmk z s)  (hu : Cov pmk 70254720 := by exact cov_sub (by assumption) rfl) :
    Keeps pmk z (State.preempt q s) := by
  unfold State.preempt
  repeat' first
    | (with_reducible first | assumption | exact cov_sub hu rfl | apply State.readersGone_inv | apply State.setSeq_inv)

theorem State.seqPreempt_inv (q : Nat) (s : State) (h_s : Keeps pmk z s)  (hu : Cov pmk 87048323 := by exact cov_sub (by assumption) rfl) :
    Keeps pmk z (State.seqPreempt q s) := by
  unfold State.seqPreempt
  repeat' first
    | (with_reducible first | assumption | exact cov_sub hu rfl | apply State.preempt_inv | apply State.seqDone_inv | apply ite_inv)

theorem execKvSeqPreempt_inv (src : Source) (q : Nat) (s : State) (h_s : Keeps pmk z s)  (hu : Cov pmk 87048331 := by exact cov_sub (by assumption) rfl) :
    Safe pmk z (execKvSeqPreempt src q s) := by
  unfold execKvSeqPreempt
  show Keeps pmk z _
  repeat' first
    | (refine fun _ => ?_)
    | (with_reducible first | assumption | exact cov_sub hu rfl | apply State.guarded_inv | apply State.seqPreempt_inv)

theorem State.seqResume_inv (q : Nat) (s : State) (h_s : Keeps pmk z s)  (hu : Cov pmk 87048323 := by exact cov_sub (by assumption) rfl) :
    Keeps pmk z (State.seqResume q s) := by
  unfold State.seqResume
  repeat' first
    | (with_reducible first | assumption | exact cov_sub hu rfl | apply State.kvWork_inv | apply State.seqDone_inv | apply State.setSeq_inv | apply ite_inv)

theorem execKvSeqResume_inv (src : Source) (q : Nat) (s : State) (h_s : Keeps pmk z s)  (hu : Cov pmk 87048331 := by exact cov_sub (by assumption) rfl) :
    Safe pmk z (execKvSeqResume src q s) := by
  unfold execKvSeqResume
  show Keeps pmk z _
  repeat' first
    | (refine fun _ => ?_)
    | (with_reducible first | assumption | exact cov_sub hu rfl | apply State.guarded_inv | apply State.seqResume_inv)

theorem State.workEnd_inv (id q : Nat) (r : Run) (st m : Nat) (s : State) (h_s : Keeps pmk z s)  (hu : Cov pmk 87050467 := by exact cov_sub (by assumption) rfl) :
    Keeps pmk z (State.workEnd id q r st m s) := by
  unfold State.workEnd
  repeat' first
    | (with_reducible first | assumption | exact cov_sub hu rfl | apply State.bump_inv | apply State.freeBlk_inv | apply State.modPool_inv | apply State.raise_inv | apply State.raiseInt_inv | apply State.setRf_inv | apply State.setRun_inv | apply State.setSeq_inv | apply ite_inv)
    | ((try lift_lets); intro x; have hx : Keeps pmk z x := ?_; revert hx; generalize x = y; clear x; intro hx; rotate_left; (dsimp -zeta only [x]))
    | split

theorem execKvSeqWorkDone_inv (q : Nat) (s : State) (h_s : Keeps pmk z s)  (hu : Cov pmk 87051491 := by exact cov_sub (by assumption) rfl) :
    Safe pmk z (execKvSeqWorkDone q s) := by
  unfold execKvSeqWorkDone
  show Keeps pmk z _
  repeat' first
    | (with_reducible first | assumption | exact cov_sub hu rfl | apply State.drive_inv | apply State.kvPass_inv | apply State.workEnd_inv)
    | ((try lift_lets); intro x; have hx : Keeps pmk z x := ?_; revert hx; generalize x = y; clear x; intro hx; rotate_left; (dsimp -zeta only [x]))
    | split

theorem State.kvTake_inv (id action : Nat) (s : State) (h_s : Keeps pmk z s)  (hu : Cov pmk 87051491 := by exact cov_sub (by assumption) rfl) :
    Keeps pmk z (State.kvTake id action s) := by
  unfold State.kvTake
  repeat' first
    | (with_reducible first | assumption | apply State.kvPass_inv | apply ite_inv)
    | split

theorem execKvAppend_inv (id : Nat) (s : State) (h_s : Keeps pmk z s)  (hu : Cov pmk 87051491 := by exact cov_sub (by assumption) rfl) :
    Safe pmk z (execKvAppend id s) := by
  unfold execKvAppend
  show Keeps pmk z _
  repeat' first
    | (with_reducible first | assumption | apply State.kvTake_inv)

theorem execKvFork_inv (id : Nat) (s : State) (h_s : Keeps pmk z s)  (hu : Cov pmk 87051491 := by exact cov_sub (by assumption) rfl) :
    Safe pmk z (execKvFork id s) := by
  unfold execKvFork
  show Keeps pmk z _
  repeat' first
    | (with_reducible first | assumption | apply State.kvTake_inv)

theorem execKvClear_inv (id : Nat) (s : State) (h_s : Keeps pmk z s)  (hu : Cov pmk 87051491 := by exact cov_sub (by assumption) rfl) :
    Safe pmk z (execKvClear id s) := by
  unfold execKvClear
  show Keeps pmk z _
  repeat' first
    | (with_reducible first | assumption | apply State.kvTake_inv)

theorem execKvEpochFlip_inv (s : State) (h_s : Keeps pmk z s)  (hu : Cov pmk 2097152 := by exact cov_sub (by assumption) rfl) :
    Safe pmk z (execKvEpochFlip s) := by
  unfold execKvEpochFlip
  show Keeps pmk z _
  repeat' first
    | (with_reducible first | assumption | apply State.modKv_inv | apply ite_inv)

theorem State.freePage_inv (p h : Nat) (s : State) (h_s : Keeps pmk z s)  (hu : Cov pmk 2097280 := by exact cov_sub (by assumption) rfl) :
    Keeps pmk z (State.freePage p h s) := by
  unfold State.freePage
  repeat' first
    | (with_reducible first | assumption | exact cov_sub hu rfl | apply State.setHdr_inv | apply State.setPool_inv)
    | split

theorem State.reclaim_inv (e : Bool) (p : Nat) (s : State) (h_s : Keeps pmk z s)  (hu : Cov pmk 2097280 := by exact cov_sub (by assumption) rfl) :
    Keeps pmk z (State.reclaim e p s) := by
  unfold State.reclaim
  repeat' first
    | (refine fun _ => ?_)
    | (with_reducible first | assumption | exact cov_sub hu rfl | apply State.freePage_inv | apply State.setPool_inv | apply foldl_inv)

theorem execKvEpochEnd_inv (s : State) (h_s : Keeps pmk z s)  (hu : Cov pmk 2097280 := by exact cov_sub (by assumption) rfl) :
    Safe pmk z (execKvEpochEnd s) := by
  unfold execKvEpochEnd
  show Keeps pmk z _
  repeat' first
    | (refine fun _ => ?_)
    | (with_reducible first | assumption | exact cov_sub hu rfl | apply State.modKv_inv | apply State.reclaim_inv | apply foldl_inv | apply ite_inv)

theorem State.autoPreempt_inv (p : Nat) (s : State) (h_s : Keeps pmk z s)  (hu : Cov pmk 87050467 := by exact cov_sub (by assumption) rfl) :
    Keeps pmk z (State.autoPreempt p s) := by
  unfold State.autoPreempt
  repeat' first
    | (with_reducible first | assumption | exact cov_sub hu rfl | apply State.bump_inv | apply State.preempt_inv | apply State.raise_inv | apply State.setPool_inv | apply State.setRf_inv | apply ite_inv)

theorem execKvAutoPreempt_inv (p : Nat) (s : State) (h_s : Keeps pmk z s)  (hu : Cov pmk 87050467 := by exact cov_sub (by assumption) rfl) :
    Safe pmk z (execKvAutoPreempt p s) := by
  unfold execKvAutoPreempt
  show Keeps pmk z _
  repeat' first
    | (with_reducible first | assumption | apply State.autoPreempt_inv | apply ite_inv)

theorem State.walkPool_inv (p : Nat) (s : State) (h_s : Keeps pmk z s)  (hu : Cov pmk 86001891 := by exact cov_sub (by assumption) rfl) :
    Keeps pmk z (State.walkPool p s) := by
  unfold State.walkPool
  repeat' first
    | (with_reducible first | assumption | exact cov_sub hu rfl | apply State.poolFail_inv | apply State.tallyMismatch_inv | apply ite_inv)
    | split

theorem execKvWalkEnd_inv (s : State) (h_s : Keeps pmk z s)  (hu : Cov pmk 86001891 := by exact cov_sub (by assumption) rfl) :
    Safe pmk z (execKvWalkEnd s) := by
  unfold execKvWalkEnd
  show Keeps pmk z _
  repeat' first
    | (refine fun _ => ?_)
    | (with_reducible first | assumption | apply State.walkPool_inv | apply foldl_inv)

/-! ### Audit -/

theorem State.restartShapers_inv (s : State) (h_s : Keeps pmk z s)  (hu : Cov pmk 64 := by exact cov_sub (by assumption) rfl) :
    Keeps pmk z (State.restartShapers s) := by
  unfold State.restartShapers
  repeat' first
    | (with_reducible first | assumption | apply State.modSw_inv)

theorem State.auditDue_inv (s : State) (h_s : Keeps pmk z s)  (hu : Cov pmk 83904739 := by exact cov_sub (by assumption) rfl) :
    Keeps pmk z (State.auditDue s) := by
  unfold State.auditDue
  repeat' first
    | (with_reducible first | assumption | exact cov_sub hu rfl | apply State.bump_inv | apply State.modFlt_inv | apply State.raise_inv | apply State.restartShapers_inv | apply State.setRf_inv | apply ite_inv)

theorem execAuditEpoch_inv (s : State) (h_s : Keeps pmk z s)  (hu : Cov pmk 83904739 := by exact cov_sub (by assumption) rfl) :
    Safe pmk z (execAuditEpoch s) := by
  unfold execAuditEpoch
  show Keeps pmk z _
  repeat' first
    | (with_reducible first | assumption | apply State.auditDue_inv)

theorem State.auditStop_inv (id inst : Nat) (s : State) (h_s : Keeps pmk z s)  (hu : Cov pmk 11536451 := by exact cov_sub (by assumption) rfl) :
    Keeps pmk z (State.auditStop id inst s) := by
  unfold State.auditStop
  repeat' first
    | (with_reducible first | assumption | exact cov_sub hu rfl | apply State.modExd_inv | apply State.modFlt_inv | apply State.modTile_inv | apply State.poolFail_inv | apply State.tokenReset_inv)
    | split

theorem State.auditReport_inv (f : Nat × Nat × Nat × Nat) (s : State) (h_s : Keeps pmk z s)  (hu : Cov pmk 133319923 := by exact cov_sub (by assumption) rfl) :
    Keeps pmk z (State.auditReport f s) := by
  unfold State.auditReport
  repeat' first
    | (with_reducible first | assumption | exact cov_sub hu rfl | apply State.auditStop_inv | apply State.deviceFatal_inv | apply State.tallyMismatch_inv | apply ite_inv)

theorem execAuditComplete_inv (broken : List (Nat × Nat × Nat × Nat)) (s : State) (h_s : Keeps pmk z s)  (hu : Cov pmk 133319923 := by exact cov_sub (by assumption) rfl) :
    Safe pmk z (execAuditComplete broken s) := by
  unfold execAuditComplete
  show Keeps pmk z _
  repeat' first
    | (refine fun _ => ?_)
    | (with_reducible first | assumption | exact cov_sub hu rfl | apply State.auditReport_inv | apply State.bump_inv | apply State.modFlt_inv | apply State.setRg64_inv | apply foldl_inv | apply ite_inv)

theorem State.writeGctrSel_inv (i : Nat) (v : Word) (s : State) (h_s : Keeps pmk z s)  (hu : Cov pmk 3 := by exact cov_sub (by assumption) rfl) :
    Keeps pmk z (State.writeGctrSel i v s) := by
  unfold State.writeGctrSel
  repeat' first
    | (with_reducible first | assumption | exact cov_sub hu rfl | apply State.setCnt_inv | apply State.setRg_inv | apply ite_inv)

theorem execGctrSelWrite_inv (src : Source) (i : Nat) (val : Word) (s : State) (h_s : Keeps pmk z s)  (hu : Cov pmk 11 := by exact cov_sub (by assumption) rfl) :
    Safe pmk z (execGctrSelWrite src i val s) := by
  unfold execGctrSelWrite
  show Keeps pmk z _
  repeat' first
    | (refine fun _ => ?_)
    | (with_reducible first | assumption | exact cov_sub hu rfl | apply State.guarded_inv | apply State.writeGctrSel_inv | apply ite_inv)

theorem State.writeWpCtrl_inv (w : Nat) (v : Word) (s : State) (h_s : Keeps pmk z s)  (hu : Cov pmk 3 := by exact cov_sub (by assumption) rfl) :
    Keeps pmk z (State.writeWpCtrl w v s) := by
  unfold State.writeWpCtrl
  repeat' first
    | (with_reducible first | assumption | exact cov_sub hu rfl | apply State.setCnt_inv | apply State.setRg_inv)

theorem execWpCtrlWrite_inv (src : Source) (w : Nat) (val : Word) (s : State) (h_s : Keeps pmk z s)  (hu : Cov pmk 11 := by exact cov_sub (by assumption) rfl) :
    Safe pmk z (execWpCtrlWrite src w val s) := by
  unfold execWpCtrlWrite
  show Keeps pmk z _
  repeat' first
    | (refine fun _ => ?_)
    | (with_reducible first | assumption | exact cov_sub hu rfl | apply State.guarded_inv | apply State.writeWpCtrl_inv | apply ite_inv)

theorem State.writeTraceCtrl_inv (v : Word) (s : State) (h_s : Keeps pmk z s)  (hu : Cov pmk 4096 := by exact cov_sub (by assumption) rfl) :
    Keeps pmk z (State.writeTraceCtrl v s) := by
  unfold State.writeTraceCtrl
  repeat' first
    | (with_reducible first | assumption | apply State.modObs_inv | apply ite_inv)

theorem execTraceUnfreeze_inv (src : Source) (val : Word) (s : State) (h_s : Keeps pmk z s)  (hu : Cov pmk 4107 := by exact cov_sub (by assumption) rfl) :
    Safe pmk z (execTraceUnfreeze src val s) := by
  unfold execTraceUnfreeze
  show Keeps pmk z _
  repeat' first
    | (refine fun _ => ?_)
    | (with_reducible first | assumption | exact cov_sub hu rfl | apply State.guarded_inv | apply State.writeTraceCtrl_inv)

/-! ### Window -/

theorem State.countRefused_inv (s : State) (h_s : Keeps pmk z s)  (hu : Cov pmk 83904739 := by exact cov_sub (by assumption) rfl) :
    Keeps pmk z (State.countRefused s) := by
  unfold State.countRefused
  repeat' first
    | (with_reducible first | assumption | exact cov_sub hu rfl | apply State.bump_inv | apply State.raise_inv)

theorem execBarnWindowRead_inv (addr n : Nat) (s : State) (h_s : Keeps pmk z s) (hu : Cov pmk 83904739 := by exact cov_sub (by assumption) rfl) : Safe pmk z (execBarnWindowRead addr n s) := by
  unfold execBarnWindowRead
  refine safe_next (ite_inv (State.emit_inv _ _ h_s) (ite_inv (State.emit_inv _ _ ?_) (State.emit_inv _ _ h_s)))
  exact State.countRefused_inv _ h_s

theorem execBarnWindowWrite_inv (addr : Nat) (data : List Byte) (s : State) (h_s : Keeps pmk z s)  (hu : Cov pmk 83904739 := by exact cov_sub (by assumption) rfl) :
    Safe pmk z (execBarnWindowWrite addr data s) := by
  unfold execBarnWindowWrite
  show Keeps pmk z _
  repeat' first
    | (with_reducible first | assumption | exact cov_sub hu rfl | apply State.countRefused_inv | apply State.storeMarked_inv | apply ite_inv)

theorem State.setBwinData_inv (bs : List Byte) (s : State) (h_s : Keeps pmk z s)  (hu : Cov pmk 1 := by exact cov_sub (by assumption) rfl) :
    Keeps pmk z (State.setBwinData bs s) := by
  unfold State.setBwinData
  repeat' first
    | (refine fun _ => ?_)
    | (with_reducible first | assumption | apply State.setRg_inv | apply foldl_inv)

theorem State.bwinDone_inv (poison : Bool) (r : Nat) (s : State) (h_s : Keeps pmk z s)  (hu : Cov pmk 1 := by exact cov_sub (by assumption) rfl) :
    Keeps pmk z (State.bwinDone poison r s) := by
  unfold State.bwinDone
  repeat' first
    | (with_reducible first | assumption | apply State.setRg_inv)

theorem State.bwinCmd_inv (v : Word) (s : State) (h_s : Keeps pmk z s)  (hu : Cov pmk 83904739 := by exact cov_sub (by assumption) rfl) :
    Keeps pmk z (State.bwinCmd v s) := by
  unfold State.bwinCmd
  repeat' first
    | (with_reducible first | assumption | exact cov_sub hu rfl | apply State.bwinDone_inv | apply State.countRefused_inv | apply State.setBwinData_inv | apply State.setRg64_inv | apply State.storeMarked_inv | apply ite_inv)

theorem execBwinRead_inv (src : Source) (val : Word) (s : State) (h_s : Keeps pmk z s)  (hu : Cov pmk 83904747 := by exact cov_sub (by assumption) rfl) :
    Safe pmk z (execBwinRead src val s) := by
  unfold execBwinRead
  show Keeps pmk z _
  repeat' first
    | (refine fun _ => ?_)
    | (with_reducible first | assumption | exact cov_sub hu rfl | apply State.bwinCmd_inv | apply State.guarded_inv | apply ite_inv)

theorem execBwinWrite_inv (src : Source) (val : Word) (s : State) (h_s : Keeps pmk z s)  (hu : Cov pmk 83904747 := by exact cov_sub (by assumption) rfl) :
    Safe pmk z (execBwinWrite src val s) := by
  unfold execBwinWrite
  show Keeps pmk z _
  repeat' first
    | (refine fun _ => ?_)
    | (with_reducible first | assumption | exact cov_sub hu rfl | apply State.bwinCmd_inv | apply State.guarded_inv | apply ite_inv)

end Sys2Proof.Machine
end

