-- ==== Sys2Proof/Laws/InvTime.lean ====
section
/-! SUPPORT. What every function keeps of `State.Inv`, each by the lemmas of the functions it calls:
fabric time, timetables, security. -/

set_option Elab.async false

namespace Sys2Proof.Machine
open Sys2Proof
set_option linter.unusedSimpArgs false
set_option linter.unusedVariables false
variable {pmk : Nat} {z : State}

/-! ### Time -/

theorem State.removedWindows_inv (p : Nat) (tt : Timetable) (until_ : Nat)   : ∀ (y0 : Nat) (y1 : Nat) (y2 : State), Keeps pmk z y2 → (hu : Cov pmk 88099043 := by exact cov_sub (by assumption) rfl) →
    Keeps pmk z (State.removedWindows p tt until_ y0 y1 y2) := by
  intro y0
  induction y0 <;> intros <;> unfold State.removedWindows
  repeat' first
    | (with_reducible first | assumption | apply State.windowEnd_inv | apply ite_inv)
    | (with_reducible apply_assumption -exfalso -symm)

theorem State.stepTable_inv (p old new : Nat) (s : State) (h_s : Keeps pmk z s)  (hu : Cov pmk 88099059 := by exact cov_sub (by assumption) rfl) :
    Keeps pmk z (State.stepTable p old new s) := by
  unfold State.stepTable
  repeat' first
    | (with_reducible first | assumption | exact cov_sub hu rfl | apply State.modTime_inv | apply State.removedWindows_inv | apply State.windowEnd_inv | apply ite_inv)

theorem State.stepTime_inv (v : BitVec 96) (s : State) (h_s : Keeps pmk z s)  (hu : Cov pmk 88099059 := by exact cov_sub (by assumption) rfl) :
    Keeps pmk z (State.stepTime v s) := by
  unfold State.stepTime
  repeat' first
    | (refine fun _ => ?_)
    | (with_reducible first | assumption | exact cov_sub hu rfl | apply State.auditDue_inv | apply State.modTime_inv | apply State.raise_inv | apply State.setRg64_inv | apply State.stepTable_inv | apply foldl_inv | apply ite_inv)

theorem State.latchNow_inv (src : Source) (s : State) (h : Keeps pmk z s) (hu : Cov pmk 8 := by exact cov_sub (by assumption) rfl) : Keeps pmk z (State.latchNow src s) := by
  unfold State.latchNow
  obtain ⟨h1, h2, h3, h4, h5, h6, h7⟩ := (hub_wf_iff _).1 h.inv.2
  have g := wf_set _ (stageKey src Adr.TIME_NOW_FRAC) (some (w32 (s.t16 % 2 ^ 16)))
    (wf_set _ (stageKey src Adr.TIME_NOW_HI) (some (hi32 s.ns)) h6)
  exact modHub_inv h 8 ((hub_wf_iff _).2 ⟨h1, h2, h3, h4, h5, g, h7⟩) (hub_frame (.inr rfl) (.inr rfl) (.inr ⟨rfl, rfl⟩) (.inl rfl))

theorem State.writeTimeSet_inv (src : Source) (v : Word) (s : State) (h_s : Keeps pmk z s)  (hu : Cov pmk 25 := by exact cov_sub (by assumption) rfl) :
    Keeps pmk z (State.writeTimeSet src v s) := by
  unfold State.writeTimeSet
  repeat' first
    | (with_reducible first | assumption | exact cov_sub hu rfl | apply State.commitPair_inv | apply State.modTime_inv)

theorem execTimeSetWrite_inv (src : Source) (val : Word) (s : State) (h_s : Keeps pmk z s)  (hu : Cov pmk 27 := by exact cov_sub (by assumption) rfl) :
    Safe pmk z (execTimeSetWrite src val s) := by
  unfold execTimeSetWrite
  show Keeps pmk z _
  repeat' first
    | (refine fun _ => ?_)
    | (with_reducible first | assumption | exact cov_sub hu rfl | apply State.guarded_inv | apply State.writeTimeSet_inv)

theorem State.judgeSet_inv (v : Nat) (s : State) (h_s : Keeps pmk z s)  (hu : Cov pmk 88099059 := by exact cov_sub (by assumption) rfl) :
    Keeps pmk z (State.judgeSet v s) := by
  unfold State.judgeSet
  repeat' first
    | (with_reducible first | assumption | exact cov_sub hu rfl | apply State.modTime_inv | apply State.raise_inv | apply State.stepTime_inv | apply ite_inv)

theorem execTimeSetEffect_inv (s : State) (h_s : Keeps pmk z s)  (hu : Cov pmk 88099059 := by exact cov_sub (by assumption) rfl) :
    Safe pmk z (execTimeSetEffect s) := by
  unfold execTimeSetEffect
  show Keeps pmk z _
  repeat' first
    | (with_reducible first | assumption | apply State.judgeSet_inv | apply ite_inv)
    | split

theorem State.modPortTime_inv (p : Nat) (f : PortTime → PortTime) (s : State) (h_s : Keeps pmk z s)  (hu : Cov pmk 16 := by exact cov_sub (by assumption) rfl) :
    Keeps pmk z (State.modPortTime p f s) := by
  unfold State.modPortTime
  repeat' first
    | (with_reducible first | assumption | apply State.modTime_inv)

theorem State.sendBeacon_inv (p ty seq origin : Nat) (s : State) (h_s : Keeps pmk z s)  (hu : Cov pmk 67108960 := by exact cov_sub (by assumption) rfl) :
    Keeps pmk z (State.sendBeacon p ty seq origin s) := by
  unfold State.sendBeacon
  repeat' first
    | (with_reducible first | assumption | apply State.sendToPort_inv)

theorem State.sendSync_inv (p : Nat) (s : State) (h_s : Keeps pmk z s)  (hu : Cov pmk 67108976 := by exact cov_sub (by assumption) rfl) :
    Keeps pmk z (State.sendSync p s) := by
  unfold State.sendSync
  repeat' first
    | (with_reducible first | assumption | exact cov_sub hu rfl | apply State.modPortTime_inv | apply State.sendBeacon_inv | apply ite_inv)

theorem State.sendGptp_inv (p : Nat) (s : State) (h_s : Keeps pmk z s)  (hu : Cov pmk 16777216 := by exact cov_sub (by assumption) rfl) :
    Keeps pmk z (State.sendGptp p s) := by
  unfold State.sendGptp
  repeat' first
    | (with_reducible first | assumption | apply State.emit_inv)
    | split

theorem State.extraSync_inv (p : Nat) (s : State) (h_s : Keeps pmk z s)  (hu : Cov pmk 83886192 := by exact cov_sub (by assumption) rfl) :
    Keeps pmk z (State.extraSync p s) := by
  unfold State.extraSync
  repeat' first
    | (with_reducible first | assumption | exact cov_sub hu rfl | apply State.sendGptp_inv | apply State.sendSync_inv | apply ite_inv)

theorem State.gmListen_inv (s : State) (h_s : Keeps pmk z s)  (hu : Cov pmk 16 := by exact cov_sub (by assumption) rfl) :
    Keeps pmk z (State.gmListen s) := by
  unfold State.gmListen
  repeat' first
    | (with_reducible first | assumption | apply State.modTime_inv)

theorem State.gmCollision_inv (s : State) (h_s : Keeps pmk z s)  (hu : Cov pmk 83904755 := by exact cov_sub (by assumption) rfl) :
    Keeps pmk z (State.gmCollision s) := by
  unfold State.gmCollision
  repeat' first
    | (with_reducible first | assumption | exact cov_sub hu rfl | apply State.modTime_inv | apply State.raise_inv)

theorem State.elect_inv (p : Nat) (g : Nat × Nat) (s : State) (h_s : Keeps pmk z s)  (hu : Cov pmk 83904755 := by exact cov_sub (by assumption) rfl) :
    Keeps pmk z (State.elect p g s) := by
  unfold State.elect
  repeat' first
    | (with_reducible first | assumption | exact cov_sub hu rfl | apply State.extraSync_inv | apply State.gmCollision_inv | apply State.modPortTime_inv | apply State.modTime_inv | apply State.raise_inv | apply ite_inv)
    | ((try lift_lets); intro x; generalize x = y; clear x)
    | split

theorem State.writeGmCfg_inv (v : Word) (s : State) (h_s : Keeps pmk z s)  (hu : Cov pmk 17 := by exact cov_sub (by assumption) rfl) :
    Keeps pmk z (State.writeGmCfg v s) := by
  unfold State.writeGmCfg
  repeat' first
    | (with_reducible first | assumption | exact cov_sub hu rfl | apply State.gmListen_inv | apply State.modTime_inv | apply State.setRg_inv | apply ite_inv)
    | ((try lift_lets); intro x; have hx : Keeps pmk z x := ?_; revert hx; generalize x = y; clear x; intro hx; rotate_left; (dsimp -zeta only [x]))
    | ((try lift_lets); intro x; generalize x = y; clear x)
    | split

theorem execGmCfgWrite_inv (src : Source) (val : Word) (s : State) (h_s : Keeps pmk z s)  (hu : Cov pmk 27 := by exact cov_sub (by assumption) rfl) :
    Safe pmk z (execGmCfgWrite src val s) := by
  unfold execGmCfgWrite
  show Keeps pmk z _
  repeat' first
    | (refine fun _ => ?_)
    | (with_reducible first | assumption | exact cov_sub hu rfl | apply State.guarded_inv | apply State.writeGmCfg_inv)

theorem execUpstreamSilent_inv (s : State) (h_s : Keeps pmk z s)  (hu : Cov pmk 16 := by exact cov_sub (by assumption) rfl) :
    Safe pmk z (execUpstreamSilent s) := by
  unfold execUpstreamSilent
  show Keeps pmk z _
  repeat' first
    | (with_reducible first | assumption | apply State.gmListen_inv | apply State.modTime_inv | apply ite_inv)

theorem execListenClaimTimerEnd_inv (s : State) (h_s : Keeps pmk z s)  (hu : Cov pmk 16 := by exact cov_sub (by assumption) rfl) :
    Safe pmk z (execListenClaimTimerEnd s) := by
  unfold execListenClaimTimerEnd
  show Keeps pmk z _
  repeat' first
    | (with_reducible first | assumption | apply State.modTime_inv | apply ite_inv)
    | split

theorem execBackoffTimerEnd_inv (s : State) (h_s : Keeps pmk z s)  (hu : Cov pmk 16 := by exact cov_sub (by assumption) rfl) :
    Safe pmk z (execBackoffTimerEnd s) := by
  unfold execBackoffTimerEnd
  show Keeps pmk z _
  repeat' first
    | (with_reducible first | assumption | apply State.gmListen_inv | apply ite_inv)

theorem State.slew_inv (s : State) (h_s : Keeps pmk z s)  (hu : Cov pmk 33554433 := by exact cov_sub (by assumption) rfl) :
    Keeps pmk z (State.slew s) := by
  unfold State.slew
  repeat' first
    | (with_reducible first | assumption | exact cov_sub hu rfl | apply State.setRg_inv | apply State.takeFree_inv)

theorem State.discipline_inv (o : Int) (full : Bool) (s : State) (h_s : Keeps pmk z s)  (hu : Cov pmk 121653491 := by exact cov_sub (by assumption) rfl) :
    Keeps pmk z (State.discipline o full s) := by
  unfold State.discipline
  repeat' first
    | (with_reducible first | assumption | exact cov_sub hu rfl | apply State.modTime_inv | apply State.raise_inv | apply State.setRg_inv | apply State.slew_inv | apply State.stepTime_inv | apply ite_inv)

theorem State.syncOffset_inv (p : Nat) (full : Bool) (s : State) (h_s : Keeps pmk z s)  (hu : Cov pmk 121653491 := by exact cov_sub (by assumption) rfl) :
    Keeps pmk z (State.syncOffset p full s) := by
  unfold State.syncOffset
  repeat' first
    | (with_reducible first | assumption | apply State.discipline_inv | apply ite_inv)
    | split

theorem execSyncBeaconSend_inv (p : Nat) (s : State) (h_s : Keeps pmk z s)  (hu : Cov pmk 67108976 := by exact cov_sub (by assumption) rfl) :
    Safe pmk z (execSyncBeaconSend p s) := by
  unfold execSyncBeaconSend
  show Keeps pmk z _
  repeat' first
    | (with_reducible first | assumption | exact cov_sub hu rfl | apply State.modPortTime_inv | apply State.sendBeacon_inv | apply State.sendSync_inv | apply ite_inv)

theorem State.beaconRx_inv (p ty : Nat) (pkt : Packet) (act : Beacon → State → State) (s0 : State) (h_s0 : Keeps pmk z s0) (hact : ∀ (x0 : Beacon) (x1 : State), Keeps pmk z x1 → Keeps pmk z (act x0 x1)) (hu : Cov pmk 83904755 := by exact cov_sub (by assumption) rfl) :
    Keeps pmk z (State.beaconRx p ty pkt act s0) := by
  unfold State.beaconRx
  repeat' first
    | (with_reducible first | assumption | exact cov_sub hu rfl | apply hact | apply State.freeLocal_inv | apply State.modPortTime_inv | apply State.raise_inv | apply State.takeLocal_inv | apply ite_inv)
    | ((try lift_lets); intro x; have hx : Keeps pmk z x := ?_; revert hx; generalize x = y; clear x; intro hx; rotate_left; (dsimp -zeta only [x]))
    | ((try lift_lets); intro x; generalize x = y; clear x)
    | split

theorem execSyncRx_inv (p : Nat) (pkt : Packet) (s : State) (h_s : Keeps pmk z s)  (hu : Cov pmk 121653491 := by exact cov_sub (by assumption) rfl) :
    Safe pmk z (execSyncRx p pkt s) := by
  unfold execSyncRx
  show Keeps pmk z _
  repeat' first
    | (refine fun _ => ?_)
    | (with_reducible first | assumption | exact cov_sub hu rfl | apply State.beaconRx_inv | apply State.elect_inv | apply State.modPortTime_inv | apply State.modTime_inv | apply State.syncOffset_inv | apply ite_inv)

theorem execDelayReqRx_inv (p : Nat) (pkt : Packet) (s : State) (h_s : Keeps pmk z s)  (hu : Cov pmk 83904755 := by exact cov_sub (by assumption) rfl) :
    Safe pmk z (execDelayReqRx p pkt s) := by
  unfold execDelayReqRx
  show Keeps pmk z _
  repeat' first
    | (refine fun _ => ?_)
    | (with_reducible first | assumption | exact cov_sub hu rfl | apply State.beaconRx_inv | apply State.sendBeacon_inv)

theorem execDelayRspRx_inv (p : Nat) (pkt : Packet) (s : State) (h_s : Keeps pmk z s)  (hu : Cov pmk 121653491 := by exact cov_sub (by assumption) rfl) :
    Safe pmk z (execDelayRspRx p pkt s) := by
  unfold execDelayRspRx
  show Keeps pmk z _
  repeat' first
    | (refine fun _ => ?_)
    | (with_reducible first | assumption | exact cov_sub hu rfl | apply State.beaconRx_inv | apply State.modPortTime_inv | apply State.syncOffset_inv | apply ite_inv)
    | ((try lift_lets); intro x; generalize x = y; clear x)
    | split

theorem State.gptpSync_inv (p origin t2 : Nat) (s : State) (h_s : Keeps pmk z s)  (hu : Cov pmk 121653491 := by exact cov_sub (by assumption) rfl) :
    Keeps pmk z (State.gptpSync p origin t2 s) := by
  unfold State.gptpSync
  repeat' first
    | (with_reducible first | assumption | exact cov_sub hu rfl | apply State.modPortTime_inv | apply State.syncOffset_inv)

theorem execGptpMessageRx_inv (p : Nat) (msg : Gptp) (s : State) (h_s : Keeps pmk z s)  (hu : Cov pmk 121653491 := by exact cov_sub (by assumption) rfl) :
    Safe pmk z (execGptpMessageRx p msg s) := by
  unfold execGptpMessageRx
  show Keeps pmk z _
  repeat' first
    | (with_reducible first | assumption | exact cov_sub hu rfl | apply State.elect_inv | apply State.emit_inv | apply State.gptpSync_inv | apply State.modPortTime_inv | apply State.modTime_inv | apply ite_inv)
    | ((try lift_lets); intro x; generalize x = y; clear x)
    | split

theorem execGptpMessageSend_inv (p : Nat) (s : State) (h_s : Keeps pmk z s)  (hu : Cov pmk 16777232 := by exact cov_sub (by assumption) rfl) :
    Safe pmk z (execGptpMessageSend p s) := by
  unfold execGptpMessageSend
  show Keeps pmk z _
  repeat' first
    | (with_reducible first | assumption | exact cov_sub hu rfl | apply State.emit_inv | apply State.modPortTime_inv | apply State.sendGptp_inv | apply ite_inv)

theorem execPpsInEdge_inv (s : State) (h_s : Keeps pmk z s)  (hu : Cov pmk 121653491 := by exact cov_sub (by assumption) rfl) :
    Safe pmk z (execPpsInEdge s) := by
  unfold execPpsInEdge
  show Keeps pmk z _
  repeat' first
    | (with_reducible first | assumption | exact cov_sub hu rfl | apply State.judgeSet_inv | apply State.modTime_inv | apply State.setRg64_inv | apply State.stepTime_inv | apply State.takeFree_inv | apply ite_inv)
    | ((try lift_lets); intro x; have hx : Keeps pmk z x := ?_; revert hx; generalize x = y; clear x; intro hx; rotate_left; (dsimp -zeta only [x]))
    | split

theorem execPpsLost_inv (s : State) (h_s : Keeps pmk z s)  (hu : Cov pmk 83904755 := by exact cov_sub (by assumption) rfl) :
    Safe pmk z (execPpsLost s) := by
  unfold execPpsLost
  show Keeps pmk z _
  repeat' first
    | (with_reducible first | assumption | exact cov_sub hu rfl | apply State.modTime_inv | apply State.raise_inv | apply ite_inv)

theorem execRefLost_inv (s : State) (h_s : Keeps pmk z s)  (hu : Cov pmk 83904755 := by exact cov_sub (by assumption) rfl) :
    Safe pmk z (execRefLost s) := by
  unfold execRefLost
  show Keeps pmk z _
  repeat' first
    | (with_reducible first | assumption | exact cov_sub hu rfl | apply State.modTime_inv | apply State.raise_inv | apply ite_inv)

theorem execPpsOutRise_inv (s : State) (h_s : Keeps pmk z s)  (hu : Cov pmk 16777232 := by exact cov_sub (by assumption) rfl) :
    Safe pmk z (execPpsOutRise s) := by
  unfold execPpsOutRise
  show Keeps pmk z _
  repeat' first
    | (with_reducible first | assumption | exact cov_sub hu rfl | apply State.emit_inv | apply State.modTime_inv | apply ite_inv)

/-! ### Tables -/

theorem State.modTable_inv (p : Nat) (f : Timetable → Timetable) (s : State) (h_s : Keeps pmk z s)  (hu : Cov pmk 16 := by exact cov_sub (by assumption) rfl) :
    Keeps pmk z (State.modTable p f s) := by
  unfold State.modTable
  repeat' first
    | (with_reducible first | assumption | apply State.modTime_inv)

theorem State.ttReject_inv (p c : Nat) (s : State) (h_s : Keeps pmk z s)  (hu : Cov pmk 1 := by exact cov_sub (by assumption) rfl) :
    Keeps pmk z (State.ttReject p c s) := by
  unfold State.ttReject
  repeat' first
    | (with_reducible first | assumption | apply State.setRf_inv)

theorem State.ttBusy_inv (p : Nat) (act : State → State) (s : State) (h_s : Keeps pmk z s) (hact : ∀ (x0 : State), Keeps pmk z x0 → Keeps pmk z (act x0)) (hu : Cov pmk 9 := by exact cov_sub (by assumption) rfl) :
    Keeps pmk z (State.ttBusy p act s) := by
  unfold State.ttBusy
  repeat' first
    | (with_reducible first | assumption | exact cov_sub hu rfl | apply hact | apply State.refuse_inv | apply State.ttReject_inv | apply ite_inv)

theorem State.writeTtData_inv (src : Source) (p : Nat) (v : Word) (s : State) (h_s : Keeps pmk z s)  (hu : Cov pmk 25 := by exact cov_sub (by assumption) rfl) :
    Keeps pmk z (State.writeTtData src p v s) := by
  unfold State.writeTtData
  repeat' first
    | (refine fun _ => ?_)
    | (with_reducible first | assumption | exact cov_sub hu rfl | apply State.commitPair_inv | apply State.modTable_inv | apply State.setRg_inv | apply State.ttBusy_inv)

theorem execTtDataHiWrite_inv (src : Source) (p : Nat) (val : Word) (s : State) (h_s : Keeps pmk z s)  (hu : Cov pmk 27 := by exact cov_sub (by assumption) rfl) :
    Safe pmk z (execTtDataHiWrite src p val s) := by
  unfold execTtDataHiWrite
  show Keeps pmk z _
  repeat' first
    | (refine fun _ => ?_)
    | (with_reducible first | assumption | exact cov_sub hu rfl | apply State.guarded_inv | apply State.writeTtData_inv | apply ite_inv)

theorem State.ttCommit_inv (p : Nat) (s : State) (h_s : Keeps pmk z s)  (hu : Cov pmk 25 := by exact cov_sub (by assumption) rfl) :
    Keeps pmk z (State.ttCommit p s) := by
  unfold State.ttCommit
  repeat' first
    | (refine fun _ => ?_)
    | (with_reducible first | assumption | exact cov_sub hu rfl | apply State.modTable_inv | apply State.setRg64_inv | apply State.ttBusy_inv | apply State.ttReject_inv | apply ite_inv)

theorem State.ttCancel_inv (p : Nat) (s : State) (h_s : Keeps pmk z s)  (hu : Cov pmk 16 := by exact cov_sub (by assumption) rfl) :
    Keeps pmk z (State.ttCancel p s) := by
  unfold State.ttCancel
  repeat' first
    | (with_reducible first | assumption | apply State.modTable_inv | apply ite_inv)
    | split

theorem State.ttEnter_inv (p : Nat) (s : State) (h_s : Keeps pmk z s)  (hu : Cov pmk 16 := by exact cov_sub (by assumption) rfl) :
    Keeps pmk z (State.ttEnter p s) := by
  unfold State.ttEnter
  repeat' first
    | (with_reducible first | assumption | apply State.modTable_inv)

theorem State.putTtCtrl_inv (p : Nat) (v : Word) (s : State) (h_s : Keeps pmk z s)  (hu : Cov pmk 25 := by exact cov_sub (by assumption) rfl) :
    Keeps pmk z (State.putTtCtrl p v s) := by
  unfold State.putTtCtrl
  repeat' first
    | (with_reducible first | assumption | exact cov_sub hu rfl | apply State.setRg_inv | apply State.ttCancel_inv | apply State.ttCommit_inv | apply State.ttEnter_inv | apply ite_inv)

theorem State.writeTtCtrl_inv (p : Nat) (v : Word) (s : State) (h_s : Keeps pmk z s)  (hu : Cov pmk 25 := by exact cov_sub (by assumption) rfl) :
    Keeps pmk z (State.writeTtCtrl p v s) := by
  unfold State.writeTtCtrl
  repeat' first
    | (with_reducible first | assumption | exact cov_sub hu rfl | apply State.putTtCtrl_inv | apply State.ttCommit_inv | apply ite_inv)

theorem execTtCommit_inv (src : Source) (p : Nat) (val : Word) (s : State) (h_s : Keeps pmk z s)  (hu : Cov pmk 27 := by exact cov_sub (by assumption) rfl) :
    Safe pmk z (execTtCommit src p val s) := by
  unfold execTtCommit
  show Keeps pmk z _
  repeat' first
    | (refine fun _ => ?_)
    | (with_reducible first | assumption | exact cov_sub hu rfl | apply State.guarded_inv | apply State.writeTtCtrl_inv | apply ite_inv)

theorem execTtCancel_inv (src : Source) (p : Nat) (val : Word) (s : State) (h_s : Keeps pmk z s)  (hu : Cov pmk 27 := by exact cov_sub (by assumption) rfl) :
    Safe pmk z (execTtCancel src p val s) := by
  unfold execTtCancel
  show Keeps pmk z _
  repeat' first
    | (refine fun _ => ?_)
    | (with_reducible first | assumption | exact cov_sub hu rfl | apply State.guarded_inv | apply State.writeTtCtrl_inv | apply ite_inv)

theorem State.ttClose_inv (p : Nat) (s : State) (h_s : Keeps pmk z s)  (hu : Cov pmk 88099043 := by exact cov_sub (by assumption) rfl) :
    Keeps pmk z (State.ttClose p s) := by
  unfold State.ttClose
  repeat' first
    | (with_reducible first | assumption | apply State.windowEnd_inv | apply ite_inv)

theorem execTtSwitch_inv (p : Nat) (s : State) (h_s : Keeps pmk z s)  (hu : Cov pmk 88099059 := by exact cov_sub (by assumption) rfl) :
    Safe pmk z (execTtSwitch p s) := by
  unfold execTtSwitch
  show Keeps pmk z _
  repeat' first
    | (with_reducible first | assumption | exact cov_sub hu rfl | apply State.bump_inv | apply State.modTable_inv | apply State.ttClose_inv | apply State.ttEnter_inv | apply ite_inv)
    | ((try lift_lets); intro x; generalize x = y; clear x)
    | split

theorem execTtEntryBoundary_inv (p : Nat) (s : State) (h_s : Keeps pmk z s)  (hu : Cov pmk 88099059 := by exact cov_sub (by assumption) rfl) :
    Safe pmk z (execTtEntryBoundary p s) := by
  unfold execTtEntryBoundary
  show Keeps pmk z _
  repeat' first
    | (with_reducible first | assumption | exact cov_sub hu rfl | apply State.bump_inv | apply State.modTable_inv | apply State.ttClose_inv | apply ite_inv)

/-! ### Sec -/

theorem State.barnOpen_inv (s : State) (h : Keeps pmk z s) (hu : Cov pmk 33554560 := by exact cov_sub (by assumption) rfl) : Keeps pmk z s.barnOpen :=
  State.takeFree_inv _ (modMem_inv h rfl)

theorem State.barnZero_inv (s : State) (h : Keeps pmk z s) (hu : Cov pmk 128 := by exact cov_sub (by assumption) rfl) : Keeps pmk z s.barnZero :=
  modMem_inv h rfl

theorem State.haylOf_inv (t : Nat) (s : State) (h_s : Keeps pmk z s)  (hu : Cov pmk 1048576 := by exact cov_sub (by assumption) rfl) :
    Keeps pmk z (State.haylOf t s) := by
  unfold State.haylOf
  repeat' first
    | (with_reducible first | assumption | apply State.modTile_inv)

theorem State.zeroise_inv (s : State) (h_s : Keeps pmk z s)  (hu : Cov pmk 8224 := by exact cov_sub (by assumption) rfl) :
    Keeps pmk z (State.zeroise s) := by
  unfold State.zeroise
  repeat' first
    | (with_reducible first | assumption | exact cov_sub hu rfl | apply State.modLink_inv | apply State.modSec_inv)

theorem State.newNonce_inv (s : State) (h_s : Keeps pmk z s)  (hu : Cov pmk 33554433 := by exact cov_sub (by assumption) rfl) :
    Keeps pmk z (State.newNonce s) := by
  unfold State.newNonce
  repeat' first
    | (refine fun _ => ?_)
    | (with_reducible first | assumption | exact cov_sub hu rfl | apply State.setRg_inv | apply State.takeFree_inv | apply foldl_inv)

theorem State.secDone_inv (r : Nat) (s : State) (h_s : Keeps pmk z s)  (hu : Cov pmk 16801795 := by exact cov_sub (by assumption) rfl) :
    Keeps pmk z (State.secDone r s) := by
  unfold State.secDone
  repeat' first
    | (with_reducible first | assumption | exact cov_sub hu rfl | apply State.modSec_inv | apply State.raiseInt_inv | apply State.setRf_inv)

theorem State.startFuse_inv (f : FuseOp) (s : State) (h_s : Keeps pmk z s)  (hu : Cov pmk 8192 := by exact cov_sub (by assumption) rfl) :
    Keeps pmk z (State.startFuse f s) := by
  unfold State.startFuse
  repeat' first
    | (with_reducible first | assumption | apply State.modSec_inv)

theorem State.fuseSpent_inv (s : State) (h_s : Keeps pmk z s)  (hu : Cov pmk 83912931 := by exact cov_sub (by assumption) rfl) :
    Keeps pmk z (State.fuseSpent s) := by
  unfold State.fuseSpent
  repeat' first
    | (with_reducible first | assumption | exact cov_sub hu rfl | apply State.raise_inv | apply State.secDone_inv)

theorem State.modeSealed_inv (s : State) (h_s : Keeps pmk z s)  (hu : Cov pmk 83912931 := by exact cov_sub (by assumption) rfl) :
    Keeps pmk z (State.modeSealed s) := by
  unfold State.modeSealed
  repeat' first
    | (with_reducible first | assumption | exact cov_sub hu rfl | apply State.fuseSpent_inv | apply State.secDone_inv | apply State.startFuse_inv | apply ite_inv)

theorem State.modeShared_inv (s : State) (h_s : Keeps pmk z s)  (hu : Cov pmk 83912931 := by exact cov_sub (by assumption) rfl) :
    Keeps pmk z (State.modeShared s) := by
  unfold State.modeShared
  repeat' first
    | (with_reducible first | assumption | exact cov_sub hu rfl | apply State.fuseSpent_inv | apply State.secDone_inv | apply State.startFuse_inv | apply ite_inv)

theorem State.secCmd_inv (src : Source) (act : State → State) (s : State) (h_s : Keeps pmk z s) (hact : ∀ (x0 : State), Keeps pmk z x0 → Keeps pmk z (act x0)) (hu : Cov pmk 11 := by exact cov_sub (by assumption) rfl) :
    Keeps pmk z (State.secCmd src act s) := by
  unfold State.secCmd
  repeat' first
    | (refine fun _ => ?_)
    | (with_reducible first | assumption | apply hact | apply State.guarded_inv | apply ite_inv)

theorem execModeSealed_inv (src : Source) (s : State) (h_s : Keeps pmk z s)  (hu : Cov pmk 83912939 := by exact cov_sub (by assumption) rfl) :
    Safe pmk z (execModeSealed src s) := by
  unfold execModeSealed
  show Keeps pmk z _
  repeat' first
    | (refine fun _ => ?_)
    | (with_reducible first | assumption | exact cov_sub hu rfl | apply State.modeSealed_inv | apply State.secCmd_inv)

theorem execModeShared_inv (src : Source) (s : State) (h_s : Keeps pmk z s)  (hu : Cov pmk 83912939 := by exact cov_sub (by assumption) rfl) :
    Safe pmk z (execModeShared src s) := by
  unfold execModeShared
  show Keeps pmk z _
  repeat' first
    | (refine fun _ => ?_)
    | (with_reducible first | assumption | exact cov_sub hu rfl | apply State.modeShared_inv | apply State.secCmd_inv)

theorem State.scrubStart_inv (m : SecMode) (s : State) (h_s : Keeps pmk z s)  (hu : Cov pmk 33562785 := by exact cov_sub (by assumption) rfl) :
    Keeps pmk z (State.scrubStart m s) := by
  unfold State.scrubStart
  repeat' first
    | (with_reducible first | assumption | exact cov_sub hu rfl | apply State.barnOpen_inv | apply State.modSec_inv | apply State.setRg_inv | apply State.zeroise_inv)

theorem execScrubDone_inv (s : State) (h_s : Keeps pmk z s)  (hu : Cov pmk 17850499 := by exact cov_sub (by assumption) rfl) :
    Safe pmk z (execScrubDone s) := by
  unfold execScrubDone
  show Keeps pmk z _
  repeat' first
    | (refine fun _ => ?_)
    | (with_reducible first | assumption | exact cov_sub hu rfl | apply State.barnZero_inv | apply State.haylOf_inv | apply State.modSec_inv | apply State.raiseInt_inv | apply State.setRg_inv | apply foldl_inv | apply ite_inv)
    | ((try lift_lets); intro x; have hx : Keeps pmk z x := ?_; revert hx; generalize x = y; clear x; intro hx; rotate_left; (dsimp -zeta only [x]))
    | split

theorem State.burn_inv (s : State) (h_s : Keeps pmk z s)  (hu : Cov pmk 8192 := by exact cov_sub (by assumption) rfl) :
    Keeps pmk z (State.burn s) := by
  unfold State.burn
  repeat' first
    | (with_reducible first | assumption | apply State.modSec_inv | apply ite_inv)

theorem execProvisionBurn_inv (src : Source) (val : Word) (s : State) (h_s : Keeps pmk z s)  (hu : Cov pmk 8203 := by exact cov_sub (by assumption) rfl) :
    Safe pmk z (execProvisionBurn src val s) := by
  unfold execProvisionBurn
  show Keeps pmk z _
  repeat' first
    | (refine fun _ => ?_)
    | (with_reducible first | assumption | exact cov_sub hu rfl | apply State.burn_inv | apply State.guarded_inv | apply ite_inv)

theorem State.fuseDone_inv (f : FuseOp) (s : State) (h_s : Keeps pmk z s)  (hu : Cov pmk 50356387 := by exact cov_sub (by assumption) rfl) :
    Keeps pmk z (State.fuseDone f s) := by
  unfold State.fuseDone
  repeat' first
    | (with_reducible first | assumption | exact cov_sub hu rfl | apply State.modSec_inv | apply State.scrubStart_inv | apply State.secDone_inv | apply State.setRg_inv)
    | ((try lift_lets); intro x; have hx : Keeps pmk z x := ?_; revert hx; generalize x = y; clear x; intro hx; rotate_left; (dsimp -zeta only [x]))
    | split

theorem execFuseProgramDone_inv (ok : Bool) (s : State) (h_s : Keeps pmk z s)  (hu : Cov pmk 122842355 := by exact cov_sub (by assumption) rfl) :
    Safe pmk z (execFuseProgramDone ok s) := by
  unfold execFuseProgramDone
  show Keeps pmk z _
  repeat' first
    | (with_reducible first | assumption | exact cov_sub hu rfl | apply State.fuseDone_inv | apply State.modSec_inv | apply State.raiseFatal_inv | apply ite_inv)
    | split

theorem State.setLevel_inv (l : Nat) (s : State) (h_s : Keeps pmk z s)  (hu : Cov pmk 8192 := by exact cov_sub (by assumption) rfl) :
    Keeps pmk z (State.setLevel l s) := by
  unfold State.setLevel
  repeat' first
    | (with_reducible first | assumption | apply State.modSec_inv)

theorem State.tokenRefused_inv (r : Nat) (s : State) (h_s : Keeps pmk z s)  (hu : Cov pmk 117467363 := by exact cov_sub (by assumption) rfl) :
    Keeps pmk z (State.tokenRefused r s) := by
  unfold State.tokenRefused
  repeat' first
    | (with_reducible first | assumption | exact cov_sub hu rfl | apply State.bump_inv | apply State.newNonce_inv | apply State.raise_inv | apply State.secDone_inv)

theorem State.dbgApply_inv (s : State) (h_s : Keeps pmk z s)  (hu : Cov pmk 117467363 := by exact cov_sub (by assumption) rfl) :
    Keeps pmk z (State.dbgApply s) := by
  unfold State.dbgApply
  repeat' first
    | (with_reducible first | assumption | exact cov_sub hu rfl | apply State.modSec_inv | apply State.newNonce_inv | apply State.secDone_inv | apply State.setLevel_inv | apply State.tokenRefused_inv | apply ite_inv)

theorem State.epochAdvance_inv (s : State) (h_s : Keeps pmk z s)  (hu : Cov pmk 117467363 := by exact cov_sub (by assumption) rfl) :
    Keeps pmk z (State.epochAdvance s) := by
  unfold State.epochAdvance
  repeat' first
    | (with_reducible first | assumption | exact cov_sub hu rfl | apply State.fuseSpent_inv | apply State.modSec_inv | apply State.secDone_inv | apply State.startFuse_inv | apply State.tokenRefused_inv | apply ite_inv)

theorem State.cryptoOn_inv (s : State) (h_s : Keeps pmk z s)  (hu : Cov pmk 117467363 := by exact cov_sub (by assumption) rfl) :
    Keeps pmk z (State.cryptoOn s) := by
  unfold State.cryptoOn
  repeat' first
    | (with_reducible first | assumption | exact cov_sub hu rfl | apply State.dbgApply_inv | apply State.epochAdvance_inv | apply State.modSec_inv)
    | ((try lift_lets); intro x; have hx : Keeps pmk z x := ?_; revert hx; generalize x = y; clear x; intro hx; rotate_left; (dsimp -zeta only [x]))
    | ((try lift_lets); intro x; generalize x = y; clear x)
    | split

theorem execDbgApply_inv (src : Source) (s : State) (h_s : Keeps pmk z s)  (hu : Cov pmk 117467371 := by exact cov_sub (by assumption) rfl) :
    Safe pmk z (execDbgApply src s) := by
  unfold execDbgApply
  show Keeps pmk z _
  repeat' first
    | (refine fun _ => ?_)
    | (with_reducible first | assumption | exact cov_sub hu rfl | apply State.dbgApply_inv | apply State.secCmd_inv)

theorem execDbgEpochAdvance_inv (src : Source) (s : State) (h_s : Keeps pmk z s)  (hu : Cov pmk 117467371 := by exact cov_sub (by assumption) rfl) :
    Safe pmk z (execDbgEpochAdvance src s) := by
  unfold execDbgEpochAdvance
  show Keeps pmk z _
  repeat' first
    | (refine fun _ => ?_)
    | (with_reducible first | assumption | exact cov_sub hu rfl | apply State.epochAdvance_inv | apply State.secCmd_inv)

theorem State.dbgEnd_inv (s : State) (h_s : Keeps pmk z s)  (hu : Cov pmk 16801795 := by exact cov_sub (by assumption) rfl) :
    Keeps pmk z (State.dbgEnd s) := by
  unfold State.dbgEnd
  repeat' first
    | (with_reducible first | assumption | exact cov_sub hu rfl | apply State.secDone_inv | apply State.setLevel_inv | apply ite_inv)

theorem execDbgEnd_inv (src : Source) (s : State) (h_s : Keeps pmk z s)  (hu : Cov pmk 16801803 := by exact cov_sub (by assumption) rfl) :
    Safe pmk z (execDbgEnd src s) := by
  unfold execDbgEnd
  show Keeps pmk z _
  repeat' first
    | (refine fun _ => ?_)
    | (with_reducible first | assumption | exact cov_sub hu rfl | apply State.dbgEnd_inv | apply State.secCmd_inv)

theorem State.jtagSelect_inv (i : Jtag) (s : State) (h_s : Keeps pmk z s)  (hu : Cov pmk 8192 := by exact cov_sub (by assumption) rfl) :
    Keeps pmk z (State.jtagSelect i s).2 := by
  unfold State.jtagSelect
  repeat' first
    | (with_reducible first | assumption | apply State.modSec_inv)

theorem State.jtagRead_inv (i : Jtag) (s : State) (h_s : Keeps pmk z s)  (hu : Cov pmk 50339840 := by exact cov_sub (by assumption) rfl) :
    Keeps pmk z (State.jtagRead i s) := by
  unfold State.jtagRead
  repeat' first
    | (with_reducible first | assumption | exact cov_sub hu rfl | apply State.emit_inv | apply State.jtagSelect_inv | apply State.takeFree_inv | apply ite_inv)

theorem execJtagIdcode_inv (s : State) (h_s : Keeps pmk z s)  (hu : Cov pmk 50339840 := by exact cov_sub (by assumption) rfl) :
    Safe pmk z (execJtagIdcode s) := by
  unfold execJtagIdcode
  show Keeps pmk z _
  repeat' first
    | (with_reducible first | assumption | apply State.jtagRead_inv)

theorem execJtagBypass_inv (s : State) (h_s : Keeps pmk z s)  (hu : Cov pmk 8192 := by exact cov_sub (by assumption) rfl) :
    Safe pmk z (execJtagBypass s) := by
  unfold execJtagBypass
  show Keeps pmk z _
  repeat' first
    | (with_reducible first | assumption | apply State.jtagSelect_inv)

theorem execJtagSamplePreload_inv (s : State) (h_s : Keeps pmk z s)  (hu : Cov pmk 50339840 := by exact cov_sub (by assumption) rfl) :
    Safe pmk z (execJtagSamplePreload s) := by
  unfold execJtagSamplePreload
  show Keeps pmk z _
  repeat' first
    | (with_reducible first | assumption | apply State.jtagRead_inv)

theorem execJtagExtest_inv (s : State) (h_s : Keeps pmk z s)  (hu : Cov pmk 8192 := by exact cov_sub (by assumption) rfl) :
    Safe pmk z (execJtagExtest s) := by
  unfold execJtagExtest
  show Keeps pmk z _
  repeat' first
    | (with_reducible first | assumption | apply State.jtagSelect_inv)

theorem execJtagExtestPulse_inv (s : State) (h_s : Keeps pmk z s)  (hu : Cov pmk 8192 := by exact cov_sub (by assumption) rfl) :
    Safe pmk z (execJtagExtestPulse s) := by
  unfold execJtagExtestPulse
  show Keeps pmk z _
  repeat' first
    | (with_reducible first | assumption | apply State.jtagSelect_inv)

theorem execJtagExtestTrain_inv (s : State) (h_s : Keeps pmk z s)  (hu : Cov pmk 8192 := by exact cov_sub (by assumption) rfl) :
    Safe pmk z (execJtagExtestTrain s) := by
  unfold execJtagExtestTrain
  show Keeps pmk z _
  repeat' first
    | (with_reducible first | assumption | apply State.jtagSelect_inv)

theorem execJtagInternalScan_inv (s : State) (h_s : Keeps pmk z s)  (hu : Cov pmk 50339840 := by exact cov_sub (by assumption) rfl) :
    Safe pmk z (execJtagInternalScan s) := by
  unfold execJtagInternalScan
  show Keeps pmk z _
  repeat' first
    | (with_reducible first | assumption | apply State.jtagRead_inv)

theorem execJtagDbgToken_inv (token : List Byte) (s : State) (h_s : Keeps pmk z s)  (hu : Cov pmk 8193 := by exact cov_sub (by assumption) rfl) :
    Safe pmk z (execJtagDbgToken token s) := by
  unfold execJtagDbgToken
  show Keeps pmk z _
  repeat' first
    | (refine fun _ => ?_)
    | (with_reducible first | assumption | exact cov_sub hu rfl | apply State.jtagSelect_inv | apply State.setRg_inv | apply foldl_inv | apply ite_inv)

theorem State.spdm_inv (act : State → State) (s : State) (h_s : Keeps pmk z s) (hact : ∀ (x0 : State), Keeps pmk z x0 → Keeps pmk z (act x0)) (hu : Cov pmk 16777216 := by exact cov_sub (by assumption) rfl) :
    Keeps pmk z (State.spdm act s) := by
  unfold State.spdm
  repeat' first
    | (with_reducible first | assumption | apply hact | apply State.emit_inv | apply ite_inv)

theorem State.spdmAfter_inv (n : Nat) (act : State → State) (s : State) (h_s : Keeps pmk z s) (hact : ∀ (x0 : State), Keeps pmk z x0 → Keeps pmk z (act x0)) (hu : Cov pmk 16777216 := by exact cov_sub (by assumption) rfl) :
    Keeps pmk z (State.spdmAfter n act s) := by
  unfold State.spdmAfter
  repeat' first
    | (refine fun _ => ?_)
    | (with_reducible first | assumption | apply hact | apply State.emit_inv | apply State.spdm_inv | apply ite_inv)

theorem State.inSession_inv (sid : Nat) (act : Session → State → State) (s : State) (h_s : Keeps pmk z s) (hact : ∀ (x0 : Session) (x1 : State), Keeps pmk z x1 → Keeps pmk z (act x0 x1)) (hu : Cov pmk 16777216 := by exact cov_sub (by assumption) rfl) :
    Keeps pmk z (State.inSession sid act s) := by
  unfold State.inSession
  repeat' first
    | (refine fun _ => ?_)
    | (with_reducible first | assumption | apply hact | apply State.emit_inv | apply State.spdm_inv | apply ite_inv)
    | split

theorem State.setSession_inv (sid : Nat) (x : Option Session) (s : State) (h_s : Keeps pmk z s)  (hu : Cov pmk 8192 := by exact cov_sub (by assumption) rfl) :
    Keeps pmk z (State.setSession sid x s) := by
  unfold State.setSession
  repeat' first
    | (with_reducible first | assumption | apply State.modSec_inv)

theorem execGetVersion_inv (s : State) (h_s : Keeps pmk z s)  (hu : Cov pmk 16785408 := by exact cov_sub (by assumption) rfl) :
    Safe pmk z (execGetVersion s) := by
  unfold execGetVersion
  show Keeps pmk z _
  repeat' first
    | (refine fun _ => ?_)
    | (with_reducible first | assumption | exact cov_sub hu rfl | apply State.emit_inv | apply State.modSec_inv | apply State.spdm_inv)

theorem execGetCapabilities_inv (s : State) (h_s : Keeps pmk z s)  (hu : Cov pmk 16785408 := by exact cov_sub (by assumption) rfl) :
    Safe pmk z (execGetCapabilities s) := by
  unfold execGetCapabilities
  show Keeps pmk z _
  repeat' first
    | (refine fun _ => ?_)
    | (with_reducible first | assumption | exact cov_sub hu rfl | apply State.emit_inv | apply State.modSec_inv | apply State.spdmAfter_inv)

theorem execNegotiateAlgorithms_inv (s : State) (h_s : Keeps pmk z s)  (hu : Cov pmk 16785408 := by exact cov_sub (by assumption) rfl) :
    Safe pmk z (execNegotiateAlgorithms s) := by
  unfold execNegotiateAlgorithms
  show Keeps pmk z _
  repeat' first
    | (refine fun _ => ?_)
    | (with_reducible first | assumption | exact cov_sub hu rfl | apply State.emit_inv | apply State.modSec_inv | apply State.spdmAfter_inv)

theorem execGetDigests_inv (s : State) (h_s : Keeps pmk z s)  (hu : Cov pmk 16777216 := by exact cov_sub (by assumption) rfl) :
    Safe pmk z (execGetDigests s) := by
  unfold execGetDigests
  show Keeps pmk z _
  repeat' first
    | (refine fun _ => ?_)
    | (with_reducible first | assumption | apply State.emit_inv | apply State.spdmAfter_inv)

theorem execGetCertificate_inv (s : State) (h_s : Keeps pmk z s)  (hu : Cov pmk 16777216 := by exact cov_sub (by assumption) rfl) :
    Safe pmk z (execGetCertificate s) := by
  unfold execGetCertificate
  show Keeps pmk z _
  repeat' first
    | (refine fun _ => ?_)
    | (with_reducible first | assumption | apply State.emit_inv | apply State.spdmAfter_inv)

theorem execChallenge_inv (s : State) (h_s : Keeps pmk z s)  (hu : Cov pmk 16777216 := by exact cov_sub (by assumption) rfl) :
    Safe pmk z (execChallenge s) := by
  unfold execChallenge
  show Keeps pmk z _
  repeat' first
    | (refine fun _ => ?_)
    | (with_reducible first | assumption | apply State.emit_inv | apply State.spdmAfter_inv)

theorem execKeyExchange_inv (s : State) (h_s : Keeps pmk z s)  (hu : Cov pmk 16785408 := by exact cov_sub (by assumption) rfl) :
    Safe pmk z (execKeyExchange s) := by
  unfold execKeyExchange
  show Keeps pmk z _
  repeat' first
    | (refine fun _ => ?_)
    | (with_reducible first | assumption | exact cov_sub hu rfl | apply State.emit_inv | apply State.setSession_inv | apply State.spdmAfter_inv)
    | split

theorem execFinish_inv (sid : Nat) (root : Option Nat) (s : State) (h_s : Keeps pmk z s)  (hu : Cov pmk 16785408 := by exact cov_sub (by assumption) rfl) :
    Safe pmk z (execFinish sid root s) := by
  unfold execFinish
  show Keeps pmk z _
  repeat' first
    | (refine fun _ => ?_)
    | (with_reducible first | assumption | exact cov_sub hu rfl | apply State.emit_inv | apply State.setSession_inv | apply State.spdm_inv | apply ite_inv)
    | split

theorem execKeyUpdate_inv (sid : Nat) (s : State) (h_s : Keeps pmk z s)  (hu : Cov pmk 16785408 := by exact cov_sub (by assumption) rfl) :
    Safe pmk z (execKeyUpdate sid s) := by
  unfold execKeyUpdate
  show Keeps pmk z _
  repeat' first
    | (refine fun _ => ?_)
    | (with_reducible first | assumption | exact cov_sub hu rfl | apply State.emit_inv | apply State.inSession_inv | apply State.setSession_inv)

theorem execHeartbeat_inv (sid : Nat) (s : State) (h_s : Keeps pmk z s)  (hu : Cov pmk 16777216 := by exact cov_sub (by assumption) rfl) :
    Safe pmk z (execHeartbeat sid s) := by
  unfold execHeartbeat
  show Keeps pmk z _
  repeat' first
    | (refine fun _ => ?_)
    | (with_reducible first | assumption | apply State.emit_inv | apply State.inSession_inv)

theorem execEndSession_inv (sid : Nat) (s : State) (h_s : Keeps pmk z s)  (hu : Cov pmk 16785408 := by exact cov_sub (by assumption) rfl) :
    Safe pmk z (execEndSession sid s) := by
  unfold execEndSession
  show Keeps pmk z _
  repeat' first
    | (refine fun _ => ?_)
    | (with_reducible first | assumption | exact cov_sub hu rfl | apply State.emit_inv | apply State.inSession_inv | apply State.setSession_inv)

theorem State.keyRsp_inv (sid code result check : Nat) (s : State) (h_s : Keeps pmk z s)  (hu : Cov pmk 16777216 := by exact cov_sub (by assumption) rfl) :
    Keeps pmk z (State.keyRsp sid code result check s) := by
  unfold State.keyRsp
  repeat' first
    | (with_reducible first | assumption | apply State.emit_inv)

theorem State.keyMsg_inv (sid code : Nat) (act : State → State) (s : State) (h_s : Keeps pmk z s) (hact : ∀ (x0 : State), Keeps pmk z x0 → Keeps pmk z (act x0)) (hu : Cov pmk 16777216 := by exact cov_sub (by assumption) rfl) :
    Keeps pmk z (State.keyMsg sid code act s) := by
  unfold State.keyMsg
  repeat' first
    | (refine fun _ => ?_)
    | (with_reducible first | assumption | apply hact | apply State.inSession_inv | apply State.keyRsp_inv | apply ite_inv)

theorem State.keyLoad_inv (sid group key : Nat) (s : State) (h_s : Keeps pmk z s)  (hu : Cov pmk 16785408 := by exact cov_sub (by assumption) rfl) :
    Keeps pmk z (State.keyLoad sid group key s) := by
  unfold State.keyLoad
  repeat' first
    | (with_reducible first | assumption | exact cov_sub hu rfl | apply State.keyRsp_inv | apply State.modSec_inv | apply ite_inv)

theorem execKeyLoad_inv (sid group key : Nat) (s : State) (h_s : Keeps pmk z s)  (hu : Cov pmk 16785408 := by exact cov_sub (by assumption) rfl) :
    Safe pmk z (execKeyLoad sid group key s) := by
  unfold execKeyLoad
  show Keeps pmk z _
  repeat' first
    | (refine fun _ => ?_)
    | (with_reducible first | assumption | exact cov_sub hu rfl | apply State.keyLoad_inv | apply State.keyMsg_inv)

theorem State.keyBind_inv (sid group fjid digest proof : Nat) (s : State) (h_s : Keeps pmk z s)  (hu : Cov pmk 16785408 := by exact cov_sub (by assumption) rfl) :
    Keeps pmk z (State.keyBind sid group fjid digest proof s) := by
  unfold State.keyBind
  repeat' first
    | (with_reducible first | assumption | exact cov_sub hu rfl | apply State.keyRsp_inv | apply State.modSec_inv | apply ite_inv)

theorem execKeyBind_inv (sid group fjid digest proof : Nat) (s : State) (h_s : Keeps pmk z s)  (hu : Cov pmk 16785408 := by exact cov_sub (by assumption) rfl) :
    Safe pmk z (execKeyBind sid group fjid digest proof s) := by
  unfold execKeyBind
  show Keeps pmk z _
  repeat' first
    | (refine fun _ => ?_)
    | (with_reducible first | assumption | exact cov_sub hu rfl | apply State.keyBind_inv | apply State.keyMsg_inv)

theorem State.keyUnbind_inv (sid group fjid proof : Nat) (s : State) (h_s : Keeps pmk z s)  (hu : Cov pmk 16785408 := by exact cov_sub (by assumption) rfl) :
    Keeps pmk z (State.keyUnbind sid group fjid proof s) := by
  unfold State.keyUnbind
  repeat' first
    | (with_reducible first | assumption | exact cov_sub hu rfl | apply State.keyRsp_inv | apply State.modSec_inv | apply ite_inv)

theorem execKeyUnbind_inv (sid group fjid proof : Nat) (s : State) (h_s : Keeps pmk z s)  (hu : Cov pmk 16785408 := by exact cov_sub (by assumption) rfl) :
    Safe pmk z (execKeyUnbind sid group fjid proof s) := by
  unfold execKeyUnbind
  show Keeps pmk z _
  repeat' first
    | (refine fun _ => ?_)
    | (with_reducible first | assumption | exact cov_sub hu rfl | apply State.keyMsg_inv | apply State.keyUnbind_inv)

theorem State.keyCleared_inv (fjids : List Nat) (s : State) (h_s : Keeps pmk z s)  (hu : Cov pmk 83904739 := by exact cov_sub (by assumption) rfl) :
    Keeps pmk z (State.keyCleared fjids s) := by
  unfold State.keyCleared
  repeat' first
    | (refine fun _ => ?_)
    | (with_reducible first | assumption | apply State.raise_inv | apply foldl_inv)
    | split

theorem State.keyClear_inv (sid group proof : Nat) (s : State) (h_s : Keeps pmk z s)  (hu : Cov pmk 83912931 := by exact cov_sub (by assumption) rfl) :
    Keeps pmk z (State.keyClear sid group proof s) := by
  unfold State.keyClear
  repeat' first
    | (with_reducible first | assumption | exact cov_sub hu rfl | apply State.keyCleared_inv | apply State.keyRsp_inv | apply State.modSec_inv | apply ite_inv)

theorem execKeyClear_inv (sid group proof : Nat) (s : State) (h_s : Keeps pmk z s)  (hu : Cov pmk 83912931 := by exact cov_sub (by assumption) rfl) :
    Safe pmk z (execKeyClear sid group proof s) := by
  unfold execKeyClear
  show Keeps pmk z _
  repeat' first
    | (refine fun _ => ?_)
    | (with_reducible first | assumption | exact cov_sub hu rfl | apply State.keyClear_inv | apply State.keyMsg_inv)

theorem execLinkKey_inv (sid port tx rx : Nat) (s : State) (h_s : Keeps pmk z s)  (hu : Cov pmk 16777248 := by exact cov_sub (by assumption) rfl) :
    Safe pmk z (execLinkKey sid port tx rx s) := by
  unfold execLinkKey
  show Keeps pmk z _
  repeat' first
    | (refine fun _ => ?_)
    | (with_reducible first | assumption | exact cov_sub hu rfl | apply State.inSession_inv | apply State.keyRsp_inv | apply State.modPort_inv | apply ite_inv)

theorem execIdeKmQuery_inv (sid : Nat) (s : State) (h_s : Keeps pmk z s)  (hu : Cov pmk 16777216 := by exact cov_sub (by assumption) rfl) :
    Safe pmk z (execIdeKmQuery sid s) := by
  unfold execIdeKmQuery
  show Keeps pmk z _
  repeat' first
    | (refine fun _ => ?_)
    | (with_reducible first | assumption | apply State.emit_inv | apply State.inSession_inv)

theorem execIdeKmKeyProg_inv (sid stream set dir sub key : Nat) (s : State) (h_s : Keeps pmk z s)  (hu : Cov pmk 16785408 := by exact cov_sub (by assumption) rfl) :
    Safe pmk z (execIdeKmKeyProg sid stream set dir sub key s) := by
  unfold execIdeKmKeyProg
  show Keeps pmk z _
  repeat' first
    | (refine fun _ => ?_)
    | (with_reducible first | assumption | exact cov_sub hu rfl | apply State.emit_inv | apply State.inSession_inv | apply State.modSec_inv | apply ite_inv)

theorem execIdeKmKSetGo_inv (sid stream set dir sub : Nat) (s : State) (h_s : Keeps pmk z s)  (hu : Cov pmk 16785408 := by exact cov_sub (by assumption) rfl) :
    Safe pmk z (execIdeKmKSetGo sid stream set dir sub s) := by
  unfold execIdeKmKSetGo
  show Keeps pmk z _
  repeat' first
    | (refine fun _ => ?_)
    | (with_reducible first | assumption | exact cov_sub hu rfl | apply State.emit_inv | apply State.inSession_inv | apply State.modSec_inv | apply ite_inv)

theorem execIdeKmKSetStop_inv (sid stream set dir sub : Nat) (s : State) (h_s : Keeps pmk z s)  (hu : Cov pmk 16785408 := by exact cov_sub (by assumption) rfl) :
    Safe pmk z (execIdeKmKSetStop sid stream set dir sub s) := by
  unfold execIdeKmKSetStop
  show Keeps pmk z _
  repeat' first
    | (refine fun _ => ?_)
    | (with_reducible first | assumption | exact cov_sub hu rfl | apply State.emit_inv | apply State.inSession_inv | apply State.modSec_inv | apply ite_inv)

theorem State.modFn_inv (f : Nat) (g : Fn → Fn) (s : State) (h_s : Keeps pmk z s)  (hu : Cov pmk 16384 := by exact cov_sub (by assumption) rfl) :
    Keeps pmk z (State.modFn f g s) := by
  unfold State.modFn
  repeat' first
    | (with_reducible first | assumption | apply State.modHost_inv)

theorem State.tdisp_inv (sid vf : Nat) (act : State → State) (s : State) (h_s : Keeps pmk z s) (hact : ∀ (x0 : State), Keeps pmk z x0 → Keeps pmk z (act x0)) (hu : Cov pmk 16777216 := by exact cov_sub (by assumption) rfl) :
    Keeps pmk z (State.tdisp sid vf act s) := by
  unfold State.tdisp
  repeat' first
    | (refine fun _ => ?_)
    | (with_reducible first | assumption | apply hact | apply State.emit_inv | apply State.inSession_inv | apply ite_inv)

theorem execLockInterface_inv (sid vf : Nat) (s : State) (h_s : Keeps pmk z s)  (hu : Cov pmk 50348032 := by exact cov_sub (by assumption) rfl) :
    Safe pmk z (execLockInterface sid vf s) := by
  unfold execLockInterface
  show Keeps pmk z _
  repeat' first
    | (refine fun _ => ?_)
    | (with_reducible first | assumption | exact cov_sub hu rfl | apply State.emit_inv | apply State.modFn_inv | apply State.takeFree_inv | apply State.tdisp_inv | apply ite_inv)

theorem execGetDeviceInterfaceReport_inv (sid vf : Nat) (s : State) (h_s : Keeps pmk z s)  (hu : Cov pmk 16777216 := by exact cov_sub (by assumption) rfl) :
    Safe pmk z (execGetDeviceInterfaceReport sid vf s) := by
  unfold execGetDeviceInterfaceReport
  show Keeps pmk z _
  repeat' first
    | (refine fun _ => ?_)
    | (with_reducible first | assumption | apply State.emit_inv | apply State.tdisp_inv)
    | split

theorem execGetDeviceInterfaceState_inv (sid vf : Nat) (s : State) (h_s : Keeps pmk z s)  (hu : Cov pmk 16777216 := by exact cov_sub (by assumption) rfl) :
    Safe pmk z (execGetDeviceInterfaceState sid vf s) := by
  unfold execGetDeviceInterfaceState
  show Keeps pmk z _
  repeat' first
    | (refine fun _ => ?_)
    | (with_reducible first | assumption | apply State.emit_inv | apply State.tdisp_inv)

theorem execStartInterface_inv (sid vf nonce : Nat) (s : State) (h_s : Keeps pmk z s)  (hu : Cov pmk 16793600 := by exact cov_sub (by assumption) rfl) :
    Safe pmk z (execStartInterface sid vf nonce s) := by
  unfold execStartInterface
  show Keeps pmk z _
  repeat' first
    | (refine fun _ => ?_)
    | (with_reducible first | assumption | exact cov_sub hu rfl | apply State.emit_inv | apply State.modFn_inv | apply State.tdisp_inv | apply ite_inv)

theorem execStopInterface_inv (sid vf : Nat) (s : State) (h_s : Keeps pmk z s)  (hu : Cov pmk 16793600 := by exact cov_sub (by assumption) rfl) :
    Safe pmk z (execStopInterface sid vf s) := by
  unfold execStopInterface
  show Keeps pmk z _
  repeat' first
    | (refine fun _ => ?_)
    | (with_reducible first | assumption | exact cov_sub hu rfl | apply State.emit_inv | apply State.modFn_inv | apply State.tdisp_inv)

end Sys2Proof.Machine
end

