-- ==== Sys2Proof/Laws/InvHost.lean ====
section
/-! SUPPORT. What every function keeps of `State.Inv`, each by the lemmas of the functions it calls:
the host endpoint, power, requests, CXL. -/

set_option Elab.async false

namespace Sys2Proof.Machine
open Sys2Proof
set_option linter.unusedSimpArgs false
set_option linter.unusedVariables false
variable {pmk : Nat} {z : State}

/-! ### Host -/

theorem State.msixKick_inv (f : Nat) (s : State) (h_s : Keeps pmk z s)  (hu : Cov pmk 16793602 := by exact cov_sub (by assumption) rfl) :
    Keeps pmk z (State.msixKick f s) := by
  unfold State.msixKick
  repeat' first
    | (refine fun _ => ?_)
    | (with_reducible first | assumption | exact cov_sub hu rfl | apply State.bump_inv | apply State.emit_inv | apply State.modFn_inv | apply foldl_inv | apply ite_inv)

theorem State.writeMsix_inv (f i : Nat) (v : Word) (s : State) (h_s : Keeps pmk z s)  (hu : Cov pmk 16793602 := by exact cov_sub (by assumption) rfl) :
    Keeps pmk z (State.writeMsix f i v s) := by
  unfold State.writeMsix
  repeat' first
    | (with_reducible first | assumption | exact cov_sub hu rfl | apply State.modFn_inv | apply State.msixKick_inv)

theorem State.setHreq_inv (id : Nat) (r : Option HostReq) (s : State) (h_s : Keeps pmk z s)  (hu : Cov pmk 16384 := by exact cov_sub (by assumption) rfl) :
    Keeps pmk z (State.setHreq id r s) := by
  unfold State.setHreq
  repeat' first
    | (with_reducible first | assumption | apply State.modHost_inv)

theorem State.setHtag_inv (n : Nat) (g : Option HTag) (s : State) (h_s : Keeps pmk z s)  (hu : Cov pmk 16384 := by exact cov_sub (by assumption) rfl) :
    Keeps pmk z (State.setHtag n g s) := by
  unfold State.setHtag
  repeat' first
    | (with_reducible first | assumption | apply State.modHost_inv)

theorem State.hostEnd_inv (id status : Nat) (s : State) (h_s : Keeps pmk z s)  (hu : Cov pmk 83905763 := by exact cov_sub (by assumption) rfl) :
    Keeps pmk z (State.hostEnd id status s) := by
  unfold State.hostEnd
  repeat' first
    | (with_reducible first | assumption | exact cov_sub hu rfl | apply State.bump_inv | apply State.freeLocal_inv | apply State.modHost_inv | apply State.raise_inv | apply State.sendOwn_inv | apply State.setHreq_inv | apply State.setTag_inv | apply ite_inv)
    | ((try lift_lets); intro x; have hx : Keeps pmk z x := ?_; revert hx; generalize x = y; clear x; intro hx; rotate_left; (dsimp -zeta only [x]))
    | split

theorem State.hostWrites_inv (id : Nat) (r : HostReq) (s : State) (h_s : Keeps pmk z s)  (hu : Cov pmk 83905763 := by exact cov_sub (by assumption) rfl) :
    Keeps pmk z (State.hostWrites id r s) := by
  unfold State.hostWrites
  repeat' first
    | (refine fun _ => ?_)
    | (with_reducible first | assumption | exact cov_sub hu rfl | apply State.bump_inv | apply State.emit_inv | apply State.hostEnd_inv | apply foldl_inv)

theorem State.hostReads_inv (id : Nat)   : ∀ (y0 : Nat) (y1 : State), Keeps pmk z y1 → (hu : Cov pmk 117456994 := by exact cov_sub (by assumption) rfl) →
    Keeps pmk z (State.hostReads id y0 y1) := by
  intro y0
  induction y0 <;> intros <;> unfold State.hostReads
  repeat' first
    | (with_reducible first | assumption | exact cov_sub (by assumption) rfl | apply State.bump_inv | apply State.emit_inv | apply State.freeLocal_inv | apply State.setHreq_inv | apply State.setHtag_inv | apply State.takeFree_inv | apply ite_inv)
    | (with_reducible apply_assumption -exfalso -symm)
    | split

theorem State.giveTag_inv (id : Nat) (r : HostReq) (s : State) (h_s : Keeps pmk z s) (hu : Cov pmk 33571840 := by exact cov_sub (by assumption) rfl) : Keeps pmk z (State.giveTag id r s) := by
  unfold State.giveTag
  generalize s.pickTag r.die = tg
  split
  · exact h_s
  · refine ite_inv ?_ h_s
    cases tg with
    | none => exact h_s
    | some n => exact State.setHreq_inv _ _ _ (State.setTag_inv _ _ _ (State.takeFree_inv _ h_s))

theorem State.hostStep_inv (id : Nat) (s : State) (h_s : Keeps pmk z s)  (hu : Cov pmk 117460195 := by exact cov_sub (by assumption) rfl) :
    Keeps pmk z (State.hostStep id s).2 := by
  unfold State.hostStep
  repeat' first
    | (with_reducible first | assumption | exact cov_sub hu rfl | apply State.giveTag_inv | apply State.hostEnd_inv | apply State.hostReads_inv | apply State.hostWrites_inv | apply ite_snd_inv)
    | ((try lift_lets); intro x; have hx : Keeps pmk z x := ?_; revert hx; generalize x = y; clear x; intro hx; rotate_left; (dsimp -zeta only [x]))
    | split

theorem State.hostLoop_inv    : ∀ (y0 : List Nat) (y1 : State), Keeps pmk z y1 → (hu : Cov pmk 117460195 := by exact cov_sub (by assumption) rfl) →
    Keeps pmk z (State.hostLoop  y0 y1) := by
  intro y0
  induction y0 <;> intros <;> unfold State.hostLoop
  repeat' first
    | (with_reducible first | assumption | apply State.hostStep_inv)
    | (with_reducible apply_assumption -exfalso -symm)
    | (split <;> first | (rename_i heq; have hi := (congrArg (fun p => Keeps pmk z (Prod.snd (Prod.snd p))) heq).mp ?_; try dsimp only at hi) | (rename_i heq; have hi := (congrArg (fun p => Keeps pmk z (Prod.snd p)) heq).mp ?_; try dsimp only at hi) | (rename_i heq _; have hi := (congrArg (fun p => Keeps pmk z (Prod.snd (Prod.snd p))) heq).mp ?_; try dsimp only at hi) | (rename_i heq _; have hi := (congrArg (fun p => Keeps pmk z (Prod.snd p)) heq).mp ?_; try dsimp only at hi))

theorem State.hostRun_inv (s : State) (h_s : Keeps pmk z s)  (hu : Cov pmk 117460195 := by exact cov_sub (by assumption) rfl) :
    Keeps pmk z (State.hostRun s) := by
  unfold State.hostRun
  repeat' first
    | (with_reducible first | assumption | apply State.hostLoop_inv | apply ite_inv)

theorem State.hostRx_inv (die f : Nat) (p : Packet) (c : Option Nat) (s : State) (h_s : Keeps pmk z s)  (hu : Cov pmk 117460195 := by exact cov_sub (by assumption) rfl) :
    Keeps pmk z (State.hostRx die f p c s) := by
  unfold State.hostRx
  repeat' first
    | (refine fun _ => ?_)
    | (with_reducible first | assumption | exact cov_sub hu rfl | apply State.bump_inv | apply State.checkHead_inv | apply State.freeLocal_inv | apply State.hostRun_inv | apply State.raise_inv | apply State.respond_inv | apply State.setHreq_inv | apply State.takeNames_inv | apply State.violation_inv | apply ite_inv)
    | (with_reducible apply_assumption -exfalso -symm)
    | ((try lift_lets); intro x; have hx : ∀ a (s : State), Keeps pmk z s → Keeps pmk z (x a s) := ?_; revert hx; generalize x = y; clear x; intro hx; rotate_left; (dsimp -zeta only [x]))
    | ((try lift_lets); intro x; generalize x = y; clear x)
    | (split <;> first | (rename_i heq; have hi := (congrArg (fun p => Keeps pmk z (Prod.snd (Prod.snd p))) heq).mp ?_; try dsimp only at hi) | (rename_i heq; have hi := (congrArg (fun p => Keeps pmk z (Prod.snd p)) heq).mp ?_; try dsimp only at hi) | (rename_i heq _; have hi := (congrArg (fun p => Keeps pmk z (Prod.snd (Prod.snd p))) heq).mp ?_; try dsimp only at hi) | (rename_i heq _; have hi := (congrArg (fun p => Keeps pmk z (Prod.snd p)) heq).mp ?_; try dsimp only at hi))

theorem execHostRequest_inv (p : Nat) (pkt : Packet) (s : State) (h_s : Keeps pmk z s)  (hu : Cov pmk 117460195 := by exact cov_sub (by assumption) rfl) :
    Safe pmk z (execHostRequest p pkt s) := by
  unfold execHostRequest
  show Keeps pmk z _
  repeat' first
    | (with_reducible first | assumption | exact cov_sub hu rfl | apply State.hostRun_inv | apply State.hostRx_inv | apply State.takeLocal_inv | apply ite_inv)
    | (split <;> first | (rename_i heq; have hi := (congrArg (fun p => Keeps pmk z (Prod.snd (Prod.snd p))) heq).mp ?_; try dsimp only at hi) | (rename_i heq; have hi := (congrArg (fun p => Keeps pmk z (Prod.snd p)) heq).mp ?_; try dsimp only at hi) | (rename_i heq _; have hi := (congrArg (fun p => Keeps pmk z (Prod.snd (Prod.snd p))) heq).mp ?_; try dsimp only at hi) | (rename_i heq _; have hi := (congrArg (fun p => Keeps pmk z (Prod.snd p)) heq).mp ?_; try dsimp only at hi))
    | split

theorem State.hostSettle_inv (id : Nat) (s : State) (h_s : Keeps pmk z s)  (hu : Cov pmk 83905763 := by exact cov_sub (by assumption) rfl) :
    Keeps pmk z (State.hostSettle id s) := by
  unfold State.hostSettle
  repeat' first
    | (with_reducible first | assumption | apply State.hostEnd_inv | apply ite_inv)
    | split

theorem State.hostCpl_inv (n : Nat) (g : HTag) (r : HostReq) (st : CplStatus) (data : List Byte) (poison : Bool) (s : State) (h_s : Keeps pmk z s)  (hu : Cov pmk 83905763 := by exact cov_sub (by assumption) rfl) :
    Keeps pmk z (State.hostCpl n g r st data poison s) := by
  unfold State.hostCpl
  repeat' first
    | (with_reducible first | assumption | exact cov_sub hu rfl | apply State.bump_inv | apply State.freeLocal_inv | apply State.hostSettle_inv | apply State.raise_inv | apply State.setHreq_inv | apply State.setHtag_inv | apply State.violation_inv | apply ite_inv)

theorem execHostCompletion_inv (tag : Nat) (status : CplStatus) (data : List Byte) (poison : Bool) (s : State) (h_s : Keeps pmk z s)  (hu : Cov pmk 117460195 := by exact cov_sub (by assumption) rfl) :
    Safe pmk z (execHostCompletion tag status data poison s) := by
  unfold execHostCompletion
  show Keeps pmk z _
  repeat' first
    | (with_reducible first | assumption | exact cov_sub hu rfl | apply State.bump_inv | apply State.emit_inv | apply State.hostCpl_inv | apply State.hostRun_inv | apply State.setHtag_inv | apply ite_inv)
    | ((try lift_lets); intro x; have hx : Keeps pmk z x := ?_; revert hx; generalize x = y; clear x; intro hx; rotate_left; (dsimp -zeta only [x]))
    | split

theorem execHostCplTimeout_inv (tag : Nat) (s : State) (h_s : Keeps pmk z s)  (hu : Cov pmk 117460195 := by exact cov_sub (by assumption) rfl) :
    Safe pmk z (execHostCplTimeout tag s) := by
  unfold execHostCplTimeout
  show Keeps pmk z _
  repeat' first
    | (with_reducible first | assumption | exact cov_sub hu rfl | apply State.bump_inv | apply State.freeLocal_inv | apply State.hostRun_inv | apply State.hostSettle_inv | apply State.raise_inv | apply State.setHreq_inv | apply State.setHtag_inv | apply ite_inv)
    | ((try lift_lets); intro x; have hx : Keeps pmk z x := ?_; revert hx; generalize x = y; clear x; intro hx; rotate_left; (dsimp -zeta only [x]))
    | split

theorem State.hostOff_inv (f : Nat) (s : State) (h_s : Keeps pmk z s)  (hu : Cov pmk 83905763 := by exact cov_sub (by assumption) rfl) :
    Keeps pmk z (State.hostOff f s) := by
  unfold State.hostOff
  repeat' first
    | (refine fun _ => ?_)
    | (with_reducible first | assumption | exact cov_sub hu rfl | apply State.bump_inv | apply State.hostEnd_inv | apply State.modFn_inv | apply State.raise_inv | apply foldl_inv)
    | ((try lift_lets); intro x; have hx : Keeps pmk z x := ?_; revert hx; generalize x = y; clear x; intro hx; rotate_left; (dsimp -zeta only [x]))
    | ((try lift_lets); intro x; generalize x = y; clear x)
    | split

theorem State.hostStop_inv (j : Nat) (s : State) (h_s : Keeps pmk z s)  (hu : Cov pmk 83905763 := by exact cov_sub (by assumption) rfl) :
    Keeps pmk z (State.hostStop j s) := by
  unfold State.hostStop
  repeat' first
    | (refine fun _ => ?_)
    | (with_reducible first | assumption | apply State.hostEnd_inv | apply foldl_inv)

theorem execBmeClear_inv (f : Nat) (s : State) (h_s : Keeps pmk z s)  (hu : Cov pmk 117460195 := by exact cov_sub (by assumption) rfl) :
    Safe pmk z (execBmeClear f s) := by
  unfold execBmeClear
  show Keeps pmk z _
  repeat' first
    | (with_reducible first | assumption | exact cov_sub hu rfl | apply State.hostOff_inv | apply State.hostRun_inv | apply State.modFn_inv | apply ite_inv)

theorem State.fnReset_inv (f : Nat) (s : State) (h_s : Keeps pmk z s) (hu : Cov pmk 83905763 := by exact cov_sub (by assumption) rfl) : Keeps pmk z (State.fnReset f s) := by
  unfold State.fnReset
  have h1 := State.modFn_inv f (fun _ => { tdisp := match ((State.modHost (fun h => { h with
      tags := h.tags.map fun _ g => match g with
        | some t => if t.fn = f then some { t with reset := true } else some t
        | none => none }) (s.hostOff f)).fn f).tdisp with
    | .locked | .run => .error
    | x => x }) _ (State.modHost_inv (fun h => { h with tags := h.tags.map fun _ g => match g with
    | some t => if t.fn = f then some { t with reset := true } else some t
    | none => none }) _ (State.hostOff_inv f s h_s))
  refine ite_inv h1 (modHub_inv h1 1 ?_ (hub_frame (.inl rfl) (.inr rfl) (.inr ⟨rfl, rfl⟩) (.inr ⟨rfl, rfl, rfl, rfl⟩)))
  obtain ⟨h1, h2, h3, h4, h5, h6, h7, h8⟩ := (hub_wf_iff _).1 h1.inv.2
  exact (hub_wf_iff _).2 ⟨wf_clear _ _ _ h1, h2, h3, h4, h5, h6, h7, regs_filter _ h8⟩

theorem State.vfsOff_inv (s : State) (h_s : Keeps pmk z s)  (hu : Cov pmk 83905763 := by exact cov_sub (by assumption) rfl) :
    Keeps pmk z (State.vfsOff s) := by
  unfold State.vfsOff
  repeat' first
    | (refine fun _ => ?_)
    | (with_reducible first | assumption | exact cov_sub hu rfl | apply State.fnReset_inv | apply State.modHost_inv | apply foldl_inv)

theorem execVfFlr_inv (f : Nat) (s : State) (h_s : Keeps pmk z s)  (hu : Cov pmk 117460195 := by exact cov_sub (by assumption) rfl) :
    Safe pmk z (execVfFlr f s) := by
  unfold execVfFlr
  show Keeps pmk z _
  repeat' first
    | (with_reducible first | assumption | exact cov_sub hu rfl | apply State.fnReset_inv | apply State.hostRun_inv | apply ite_inv)

theorem State.pfReset_inv (s : State) (h_s : Keeps pmk z s)  (hu : Cov pmk 83938531 := by exact cov_sub (by assumption) rfl) :
    Keeps pmk z (State.pfReset s) := by
  unfold State.pfReset
  repeat' first
    | (with_reducible first | assumption | exact cov_sub hu rfl | apply State.fnReset_inv | apply State.modChain_inv | apply State.modHost_inv | apply State.vfsOff_inv)

theorem execPfFlr_inv (s : State) (h_s : Keeps pmk z s)  (hu : Cov pmk 117492963 := by exact cov_sub (by assumption) rfl) :
    Safe pmk z (execPfFlr s) := by
  unfold execPfFlr
  show Keeps pmk z _
  repeat' first
    | (with_reducible first | assumption | exact cov_sub hu rfl | apply State.hostRun_inv | apply State.pfReset_inv | apply ite_inv)

theorem State.hostPortReset_inv (s : State) (h_s : Keeps pmk z s)  (hu : Cov pmk 83938531 := by exact cov_sub (by assumption) rfl) :
    Keeps pmk z (State.hostPortReset s) := by
  unfold State.hostPortReset
  repeat' first
    | (with_reducible first | assumption | exact cov_sub hu rfl | apply State.modChain_inv | apply State.modHost_inv | apply State.pfReset_inv)

theorem execHostPortReset_inv (s : State) (h_s : Keeps pmk z s)  (hu : Cov pmk 83938531 := by exact cov_sub (by assumption) rfl) :
    Safe pmk z (execHostPortReset s) := by
  unfold execHostPortReset
  show Keeps pmk z _
  repeat' first
    | (with_reducible first | assumption | apply State.hostPortReset_inv | apply ite_inv)

theorem execHostLinkUp_inv (s : State) (h_s : Keeps pmk z s)  (hu : Cov pmk 49152 := by exact cov_sub (by assumption) rfl) :
    Safe pmk z (execHostLinkUp s) := by
  unfold execHostLinkUp
  show Keeps pmk z _
  repeat' first
    | (with_reducible first | assumption | exact cov_sub hu rfl | apply State.modChain_inv | apply State.modHost_inv | apply ite_inv)

theorem State.writeCfg_inv (f : Nat) (w : CfgWrite) (s : State) (h_s : Keeps pmk z s)  (hu : Cov pmk 83905763 := by exact cov_sub (by assumption) rfl) :
    Keeps pmk z (State.writeCfg f w s) := by
  unfold State.writeCfg
  repeat' first
    | (with_reducible first | assumption | exact cov_sub hu rfl | apply State.hostOff_inv | apply State.modFn_inv | apply State.modHost_inv | apply State.msixKick_inv | apply State.vfsOff_inv | apply ite_inv)
    | split

theorem execConfigWrite_inv (f : Nat) (w : CfgWrite) (s : State) (h_s : Keeps pmk z s)  (hu : Cov pmk 117460195 := by exact cov_sub (by assumption) rfl) :
    Safe pmk z (execConfigWrite f w s) := by
  unfold execConfigWrite
  show Keeps pmk z _
  repeat' first
    | (with_reducible first | assumption | exact cov_sub hu rfl | apply State.hostRun_inv | apply State.modFn_inv | apply State.writeCfg_inv | apply ite_inv)

theorem State.vfAccess_inv (f : Nat) (t : Bool) (act : State → State) (s : State) (h_s : Keeps pmk z s) (hact : ∀ (x0 : State), Keeps pmk z x0 → Keeps pmk z (act x0)) (hu : Cov pmk 16777216 := by exact cov_sub (by assumption) rfl) :
    Keeps pmk z (State.vfAccess f t act s) := by
  unfold State.vfAccess
  repeat' first
    | (with_reducible first | assumption | apply hact | apply State.emit_inv | apply ite_inv)

theorem State.vfSubmit_inv (f : Nat) (s : State) (h_s : Keeps pmk z s)  (hu : Cov pmk 85216483 := by exact cov_sub (by assumption) rfl) :
    Keeps pmk z (State.vfSubmit f s) := by
  unfold State.vfSubmit
  repeat' first
    | (refine fun _ => ?_)
    | (with_reducible first | assumption | exact cov_sub hu rfl | apply State.msix_inv | apply State.setRf_inv | apply State.submit_inv | apply ite_inv)
    | (with_reducible apply_assumption -exfalso -symm)
    | ((try lift_lets); intro x; have hx : ∀ a (s : State), Keeps pmk z s → Keeps pmk z (x a s) := ?_; revert hx; generalize x = y; clear x; intro hx; rotate_left; (dsimp -zeta only [x]))
    | ((try lift_lets); intro x; generalize x = y; clear x)
    | (split <;> first | (rename_i heq; have hi := (congrArg (fun p => Keeps pmk z (Prod.snd (Prod.snd p))) heq).mp ?_; try dsimp only at hi) | (rename_i heq; have hi := (congrArg (fun p => Keeps pmk z (Prod.snd p)) heq).mp ?_; try dsimp only at hi) | (rename_i heq _; have hi := (congrArg (fun p => Keeps pmk z (Prod.snd (Prod.snd p))) heq).mp ?_; try dsimp only at hi) | (rename_i heq _; have hi := (congrArg (fun p => Keeps pmk z (Prod.snd p)) heq).mp ?_; try dsimp only at hi))
    | split

theorem execVfSubmit_inv (f : Nat) (t : Bool) (val : Word) (s : State) (h_s : Keeps pmk z s)  (hu : Cov pmk 85216483 := by exact cov_sub (by assumption) rfl) :
    Safe pmk z (execVfSubmit f t val s) := by
  unfold execVfSubmit
  show Keeps pmk z _
  repeat' first
    | (refine fun _ => ?_)
    | (with_reducible first | assumption | exact cov_sub hu rfl | apply State.vfAccess_inv | apply State.vfSubmit_inv | apply ite_inv)

theorem State.vfCtrAdd_inv (f : Nat) (v : Word) (s : State) (h_s : Keeps pmk z s)  (hu : Cov pmk 84166883 := by exact cov_sub (by assumption) rfl) :
    Keeps pmk z (State.vfCtrAdd f v s) := by
  unfold State.vfCtrAdd
  repeat' first
    | (with_reducible first | assumption | exact cov_sub hu rfl | apply State.ctrUpdate_inv | apply State.setRg_inv | apply ite_inv)
    | ((try lift_lets); intro x; generalize x = y; clear x)
    | split

theorem execVfCtrAdd_inv (f : Nat) (t : Bool) (val : Word) (s : State) (h_s : Keeps pmk z s)  (hu : Cov pmk 84166883 := by exact cov_sub (by assumption) rfl) :
    Safe pmk z (execVfCtrAdd f t val s) := by
  unfold execVfCtrAdd
  show Keeps pmk z _
  repeat' first
    | (refine fun _ => ?_)
    | (with_reducible first | assumption | exact cov_sub hu rfl | apply State.vfAccess_inv | apply State.vfCtrAdd_inv)

/-! ### ChainCore -/

theorem State.chainFwd_inv (portB : Bool) (h : Nat) (payload : List Byte) (s : State) (h_s : Keeps pmk z s)  (hu : Cov pmk 16777218 := by exact cov_sub (by assumption) rfl) :
    Keeps pmk z (State.chainFwd portB h payload s) := by
  unfold State.chainFwd
  repeat' first
    | (with_reducible first | assumption | exact cov_sub hu rfl | apply State.bump_inv | apply State.chainSend_inv | apply ite_inv)

theorem State.chainRx_inv (ty : Nat) (portB : Bool) (f : List Byte) (act : Nat → List Byte → State → State) (s : State) (h_s : Keeps pmk z s) (hact : ∀ (x0 : Nat) (x1 : List Byte) (x2 : State), Keeps pmk z x2 → Keeps pmk z (act x0 x1 x2)) (hu : Cov pmk 16777218 := by exact cov_sub (by assumption) rfl) :
    Keeps pmk z (State.chainRx ty portB f act s) := by
  unfold State.chainRx
  repeat' first
    | (with_reducible first | assumption | exact cov_sub hu rfl | apply hact | apply State.bump_inv | apply State.chainFwd_inv | apply ite_inv)

theorem State.chainFlush_inv (s : State) (h_s : Keeps pmk z s)  (hu : Cov pmk 16809984 := by exact cov_sub (by assumption) rfl) :
    Keeps pmk z (State.chainFlush s) := by
  unfold State.chainFlush
  repeat' first
    | (refine fun _ => ?_)
    | (with_reducible first | assumption | exact cov_sub hu rfl | apply State.emit_inv | apply State.modChain_inv | apply foldl_inv | apply ite_inv)

theorem State.chainLeave_inv (st : ChainState) (s : State) (h_s : Keeps pmk z s)  (hu : Cov pmk 16809984 := by exact cov_sub (by assumption) rfl) :
    Keeps pmk z (State.chainLeave st s) := by
  unfold State.chainLeave
  repeat' first
    | (with_reducible first | assumption | exact cov_sub hu rfl | apply State.chainFlush_inv | apply State.modChain_inv)

theorem State.chainClaim_inv (s : State) (h_s : Keeps pmk z s)  (hu : Cov pmk 16809984 := by exact cov_sub (by assumption) rfl) :
    Keeps pmk z (State.chainClaim s) := by
  unfold State.chainClaim
  repeat' first
    | (with_reducible first | assumption | exact cov_sub hu rfl | apply State.chainSend_inv | apply State.modChain_inv)

theorem State.chainCollide_inv (s : State) (h_s : Keeps pmk z s)  (hu : Cov pmk 83937507 := by exact cov_sub (by assumption) rfl) :
    Keeps pmk z (State.chainCollide s) := by
  unfold State.chainCollide
  repeat' first
    | (with_reducible first | assumption | exact cov_sub hu rfl | apply State.bump_inv | apply State.chainLeave_inv | apply State.raise_inv)

theorem State.chainBeacon_inv (s : State) (h_s : Keeps pmk z s)  (hu : Cov pmk 16777216 := by exact cov_sub (by assumption) rfl) :
    Keeps pmk z (State.chainBeacon s) := by
  unfold State.chainBeacon
  repeat' first
    | (with_reducible first | assumption | apply State.chainSend_inv | apply ite_inv)

theorem State.chainIssue_inv (tag : Nat) (a : ChainAcc) (s : State) (h_s : Keeps pmk z s)  (hu : Cov pmk 16809986 := by exact cov_sub (by assumption) rfl) :
    Keeps pmk z (State.chainIssue tag a s) := by
  unfold State.chainIssue
  repeat' first
    | (with_reducible first | assumption | exact cov_sub hu rfl | apply State.bump_inv | apply State.chainSend_inv | apply State.emit_inv | apply State.modChain_inv | apply ite_inv)
    | ((try lift_lets); intro x; have hx : Keeps pmk z x := ?_; revert hx; generalize x = y; clear x; intro hx; rotate_left; (dsimp -zeta only [x]))
    | split

theorem State.chainPumpN_inv    : ∀ (y0 : Nat) (y1 : State), Keeps pmk z y1 → (hu : Cov pmk 16809986 := by exact cov_sub (by assumption) rfl) →
    Keeps pmk z (State.chainPumpN  y0 y1) := by
  intro y0
  induction y0 <;> intros <;> unfold State.chainPumpN
  repeat' first
    | (with_reducible first | assumption | exact cov_sub (by assumption) rfl | apply State.chainIssue_inv | apply State.modChain_inv)
    | (with_reducible apply_assumption -exfalso -symm)
    | split

theorem State.chainPump_inv (s : State) (h_s : Keeps pmk z s)  (hu : Cov pmk 16809986 := by exact cov_sub (by assumption) rfl) :
    Keeps pmk z (State.chainPump s) := by
  unfold State.chainPump
  repeat' first
    | (with_reducible first | assumption | apply State.chainPumpN_inv | apply ite_inv)

theorem State.chainAccess_inv (a : ChainAcc) (s : State) (h_s : Keeps pmk z s)  (hu : Cov pmk 16809986 := by exact cov_sub (by assumption) rfl) :
    Keeps pmk z (State.chainAccess a s) := by
  unfold State.chainAccess
  repeat' first
    | (with_reducible first | assumption | exact cov_sub hu rfl | apply State.chainPump_inv | apply State.modChain_inv)

theorem State.chainSerial_inv (p v : Nat) (s : State) (h_s : Keeps pmk z s)  (hu : Cov pmk 83904739 := by exact cov_sub (by assumption) rfl) :
    Keeps pmk z (State.chainSerial p v s) := by
  unfold State.chainSerial
  repeat' first
    | (with_reducible first | assumption | exact cov_sub hu rfl | apply State.raise_inv | apply State.setRg64_inv | apply ite_inv)

theorem State.chainLead_inv (count split : Nat) (ring : Bool) (s : State) (h_s : Keeps pmk z s)  (hu : Cov pmk 83937507 := by exact cov_sub (by assumption) rfl) :
    Keeps pmk z (State.chainLead count split ring s) := by
  unfold State.chainLead
  repeat' first
    | (refine fun _ => ?_)
    | (with_reducible first | assumption | exact cov_sub hu rfl | apply State.bump_inv | apply State.chainPump_inv | apply State.chainSerial_inv | apply State.modChain_inv | apply foldl_inv)

theorem State.chainSideA_inv (b : Nat) (s : State) (h_s : Keeps pmk z s)  (hu : Cov pmk 83937507 := by exact cov_sub (by assumption) rfl) :
    Keeps pmk z (State.chainSideA b s) := by
  unfold State.chainSideA
  repeat' first
    | (with_reducible first | assumption | exact cov_sub hu rfl | apply State.chainLead_inv | apply State.chainSend_inv | apply State.modChain_inv | apply ite_inv)

theorem State.chainEnum_inv (ring : Bool) (s : State) (h_s : Keeps pmk z s)  (hu : Cov pmk 83937507 := by exact cov_sub (by assumption) rfl) :
    Keeps pmk z (State.chainEnum ring s) := by
  unfold State.chainEnum
  repeat' first
    | (with_reducible first | assumption | exact cov_sub hu rfl | apply State.chainSend_inv | apply State.chainSideA_inv | apply State.modChain_inv | apply State.setRg64_inv | apply ite_inv)

theorem State.chainEnumEnd_inv (portB : Bool) (n : Nat) (overflow : Bool) (s : State) (h_s : Keeps pmk z s)  (hu : Cov pmk 16777216 := by exact cov_sub (by assumption) rfl) :
    Keeps pmk z (State.chainEnumEnd portB n overflow s) := by
  unfold State.chainEnumEnd
  repeat' first
    | (with_reducible first | assumption | apply State.chainSend_inv)

theorem State.chainBreak_inv (pos port : Nat) (s : State) (h_s : Keeps pmk z s)  (hu : Cov pmk 83937507 := by exact cov_sub (by assumption) rfl) :
    Keeps pmk z (State.chainBreak pos port s) := by
  unfold State.chainBreak
  repeat' first
    | (with_reducible first | assumption | exact cov_sub hu rfl | apply State.chainEnum_inv | apply State.raise_inv | apply State.setRg_inv)

theorem State.chainCtrl_inv (v : Word) (s : State) (h_s : Keeps pmk z s)  (hu : Cov pmk 16809985 := by exact cov_sub (by assumption) rfl) :
    Keeps pmk z (State.chainCtrl v s) := by
  unfold State.chainCtrl
  repeat' first
    | (with_reducible first | assumption | exact cov_sub hu rfl | apply State.chainLeave_inv | apply State.setRg_inv | apply ite_inv)

theorem State.chainRestart_inv (s : State) (h_s : Keeps pmk z s)  (hu : Cov pmk 16809984 := by exact cov_sub (by assumption) rfl) :
    Keeps pmk z (State.chainRestart s) := by
  unfold State.chainRestart
  repeat' first
    | (with_reducible first | assumption | apply State.chainLeave_inv | apply ite_inv)

/-! ### Pwr -/

theorem State.resetPages_inv (p : PageKind → Nat → Bool) (s : State) (h : Keeps pmk z s) (hu : Cov pmk 3 := by exact cov_sub (by assumption) rfl) : Keeps pmk z (s.resetPages p) := by
  obtain ⟨h1, h2, h3, h4, h5, h6, h7, h8⟩ := (hub_wf_iff _).1 h.inv.2
  unfold State.resetPages
  have g1 := wf_keep _ (fun a _ => match pageAt a with
      | some (k, i, _) => !p k i
      | none => true) h1
  have g2 := wf_keep _ (fun a _ => match pageAt a with
      | some (k, i, o) => !p k i || (decide (0x60 ≤ o) && decide (o < 0x80))
      | none => true) h2
  exact modHub_inv h 3 ((hub_wf_iff _).2 ⟨g1, g2, h3, h4, h5, h6, h7, by exact regs_filter _ h8⟩) (hub_frame (.inl rfl) (.inl rfl) (.inr ⟨rfl, rfl⟩) (.inr ⟨rfl, rfl, rfl, rfl⟩))

theorem State.resetLanes_inv (k : Nat) (s : State) (h_s : Keeps pmk z s)  (hu : Cov pmk 115 := by exact cov_sub (by assumption) rfl) :
    Keeps pmk z (State.resetLanes k s) := by
  unfold State.resetLanes
  repeat' first
    | (refine fun _ => ?_)
    | (with_reducible first | assumption | exact cov_sub hu rfl | apply State.modLink_inv | apply State.resetPortPage_inv | apply foldl_inv)

theorem dieCopies_wf {h : Hub} (lost : Nat → Bool) (d : Nat) (dies : Tbl Word) (hw : h.wf = true) :
    Hub.wf { h with
      tabs := h.tabs.keep fun a _ => !(lost a && dies.any fun e => e.1 == a)
      blank := dies.foldl (fun b e => if lost e.1 then b.del (2 * e.1 + (1 - d)) else b.set (2 * e.1 + d) true) h.blank }
      = true := by
  obtain ⟨h1, h2, h3, h4, h5⟩ := (hub_wf_iff _).1 hw
  have g := wf_keep h.tabs (fun a _ => !(lost a && dies.any fun e => e.1 == a)) h3
  have g4 : Tbl.wf (dies.foldl (fun b e =>
      if lost e.1 then b.del (2 * e.1 + (1 - d)) else b.set (2 * e.1 + d) true) h.blank) = true := by
    refine List.foldlRecOn (motive := fun b => Tbl.wf b = true) _ _ h4 fun b hb e _ => ?_
    split
    · exact wf_del _ _ hb
    · exact wf_set _ _ _ hb
  exact (hub_wf_iff _).2 ⟨h1, h2, g, g4, h5⟩

theorem State.resetDie_inv (d : Nat) (s : State) (h : Keeps pmk z s) (hu : Cov pmk 1092 := by exact cov_sub (by assumption) rfl) : Keeps pmk z (s.resetDie d) := by
  unfold State.resetDie
  exact modHub_inv (State.modTtu_inv _ _ (State.modSw_inv _ _ h)) 4 (dieCopies_wf _ d _ h.inv.2)
    (hub_frame (.inr rfl) (.inr rfl) (.inl rfl) (.inr ⟨rfl, rfl, rfl, rfl⟩))

theorem State.domainLost_inv (d : Nat) (s : State) (h_s : Keeps pmk z s)  (hu : Cov pmk 1058423 := by exact cov_sub (by assumption) rfl) :
    Keeps pmk z (State.domainLost d s) := by
  unfold State.domainLost
  repeat' first
    | (with_reducible first | assumption | exact cov_sub hu rfl | apply State.haylOf_inv | apply State.modGran_inv | apply State.modSec_inv | apply State.modTier_inv | apply State.modTile_inv | apply State.resetDie_inv | apply State.resetLanes_inv | apply State.resetPages_inv | apply ite_inv)

theorem State.pwrDone_inv (r : Nat) (s : State) (h_s : Keeps pmk z s)  (hu : Cov pmk 16793603 := by exact cov_sub (by assumption) rfl) :
    Keeps pmk z (State.pwrDone r s) := by
  unfold State.pwrDone
  repeat' first
    | (with_reducible first | assumption | exact cov_sub hu rfl | apply State.raiseInt_inv | apply State.setRf_inv)

theorem State.domRefused_inv (r : Nat) (s : State) (h_s : Keeps pmk z s)  (hu : Cov pmk 83904739 := by exact cov_sub (by assumption) rfl) :
    Keeps pmk z (State.domRefused r s) := by
  unfold State.domRefused
  repeat' first
    | (with_reducible first | assumption | exact cov_sub hu rfl | apply State.pwrDone_inv | apply State.raise_inv)

theorem State.pstateOf_inv (s : State) (h_s : Keeps pmk z s)  (hu : Cov pmk 65536 := by exact cov_sub (by assumption) rfl) :
    Keeps pmk z (State.pstateOf s) := by
  unfold State.pstateOf
  repeat' first
    | (with_reducible first | assumption | apply State.modPwr_inv)

theorem State.pwrCmd_inv (src : Source) (act : State → State) (s : State) (h_s : Keeps pmk z s) (hact : ∀ (x0 : State), Keeps pmk z x0 → Keeps pmk z (act x0)) (hu : Cov pmk 11 := by exact cov_sub (by assumption) rfl) :
    Keeps pmk z (State.pwrCmd src act s) := by
  unfold State.pwrCmd
  repeat' first
    | (refine fun _ => ?_)
    | (with_reducible first | assumption | apply hact | apply State.guarded_inv | apply ite_inv)

theorem State.domainOff_inv (d : Nat) (s : State) (h_s : Keeps pmk z s)  (hu : Cov pmk 85028599 := by exact cov_sub (by assumption) rfl) :
    Keeps pmk z (State.domainOff d s) := by
  unfold State.domainOff
  repeat' first
    | (with_reducible first | assumption | exact cov_sub hu rfl | apply State.domRefused_inv | apply State.domainLost_inv | apply State.modPwr_inv | apply State.pstateOf_inv | apply State.pwrDone_inv | apply ite_inv)

theorem State.domainOn_inv (d : Nat) (s : State) (h_s : Keeps pmk z s)  (hu : Cov pmk 83970275 := by exact cov_sub (by assumption) rfl) :
    Keeps pmk z (State.domainOn d s) := by
  unfold State.domainOn
  repeat' first
    | (with_reducible first | assumption | exact cov_sub hu rfl | apply State.domRefused_inv | apply State.modPwr_inv | apply ite_inv)

theorem execDomainOff_inv (src : Source) (d : Nat) (s : State) (h_s : Keeps pmk z s)  (hu : Cov pmk 85028607 := by exact cov_sub (by assumption) rfl) :
    Safe pmk z (execDomainOff src d s) := by
  unfold execDomainOff
  show Keeps pmk z _
  repeat' first
    | (refine fun _ => ?_)
    | (with_reducible first | assumption | exact cov_sub hu rfl | apply State.domainOff_inv | apply State.pwrCmd_inv)

theorem execDomainOn_inv (src : Source) (d : Nat) (s : State) (h_s : Keeps pmk z s)  (hu : Cov pmk 83970283 := by exact cov_sub (by assumption) rfl) :
    Safe pmk z (execDomainOn src d s) := by
  unfold execDomainOn
  show Keeps pmk z _
  repeat' first
    | (refine fun _ => ?_)
    | (with_reducible first | assumption | exact cov_sub hu rfl | apply State.domainOn_inv | apply State.pwrCmd_inv)

theorem State.barnBack_inv (d : Nat) (s : State) (h_s : Keeps pmk z s)  (hu : Cov pmk 33562752 := by exact cov_sub (by assumption) rfl) :
    Keeps pmk z (State.barnBack d s) := by
  unfold State.barnBack
  repeat' first
    | (with_reducible first | assumption | exact cov_sub hu rfl | apply State.barnOpen_inv | apply State.barnZero_inv | apply State.modSec_inv | apply ite_inv)

theorem execDomainOnDone_inv (s : State) (h_s : Keeps pmk z s)  (hu : Cov pmk 118583031 := by exact cov_sub (by assumption) rfl) :
    Safe pmk z (execDomainOnDone s) := by
  unfold execDomainOnDone
  show Keeps pmk z _
  repeat' first
    | (with_reducible first | assumption | exact cov_sub hu rfl | apply State.barnBack_inv | apply State.cryptoOn_inv | apply State.domainLost_inv | apply State.modPwr_inv | apply State.pstateOf_inv | apply State.pwrDone_inv | apply ite_inv)
    | split

theorem State.bareHub_wf (s : State) (keep : PageKind → Bool) (h : s.Inv) : (s.bareHub keep).wf = true := by
  obtain ⟨h1, h2, _, _, _, _, _, h8⟩ := (hub_wf_iff _).1
    (State.resetPages_inv (pmk := 3) (z := s) (fun k _ => !keep k) s (keeps_refl h) rfl).inv.2
  exact (hub_wf_iff _).2 ⟨h1, h2, rfl, rfl, rfl, rfl, rfl, h8⟩

theorem State.bare_inv (s : State) (keep : PageKind → Bool) (h : Keeps pmk z s) (hu : Cov pmk 134217727 := by exact cov_sub (by assumption) rfl) : Keeps pmk z (s.bare keep) :=
  State.setRg64_inv _ _ _ (keeps_all h hu ⟨h.inv.1, State.bareHub_wf s keep h.inv⟩ rfl rfl rfl rfl)

theorem State.fuses_wf (s : State) (h : Keeps pmk z s) : Hub.wf { regs := s.fuses } = true := by
  obtain ⟨h1, _, _, _, _, _, _, h8⟩ := (hub_wf_iff _).1 h.inv.2
  have g := wf_keep _ (fun a _ => decide (Adr.FUSE_MODE_CHANGES ≤ a) && decide (a < 0x9000)
    && (bit (s.rg Adr.FUSE_FUSE_STATUS) 0 || !(decide (Adr.FUSE_OWNER_PK_HASH 0 ≤ a) && decide (a ≤ Adr.FUSE_OWNER_PK_HASH 11)))) h1
  exact (hub_wf_iff _).2 ⟨g, rfl, rfl, rfl, rfl, rfl, rfl, by exact regs_filter _ h8⟩

theorem State.coldReset_inv (last : Nat) (s : State) (h : Keeps pmk z s) (hu : Cov pmk 134217727 := by exact cov_sub (by assumption) rfl) : Keeps pmk z (s.coldReset last) :=
  State.bump_inv _ _ _ (State.newNonce_inv _ (State.barnOpen_inv _
    (keeps_all h hu ⟨(State.bare_inv s (fun _ => false) h).inv.1, State.fuses_wf s h⟩ rfl rfl rfl rfl)))

theorem State.warmReset_inv (s : State) (h : Keeps pmk z s) (hu : Cov pmk 134217727 := by exact cov_sub (by assumption) rfl) : Keeps pmk z s.warmReset := by
  unfold State.warmReset
  have h1 := State.bare_inv s (fun k => k == .fuse || k == .pwr || k == .save) h
  have h2 := keeps_all (t := { (s.bare fun k => k == .fuse || k == .pwr || k == .save) with
    host := s.host.kept
    sec := { mode := s.sec.mode.afterWarm, sealedOk := s.sec.sealedOk, ksRoot := s.sec.ksRoot }
    pwr := { s.pwr with pstate := .starting, off := [], warm := true, lastReset := 4, turning := none, lowSince := none } })
    h1 hu ⟨h1.inv.1, h1.inv.2⟩ rfl rfl rfl rfl
  exact State.newNonce_inv _ (ite_inv (State.barnZero_inv _ h2) (ite_inv (State.barnOpen_inv _ h2) h2))

theorem State.warmCmd_inv (s : State) (h_s : Keeps pmk z s)  (hu : Cov pmk 134217727 := by exact cov_sub (by assumption) rfl) :
    Keeps pmk z (State.warmCmd s) := by
  unfold State.warmCmd
  repeat' first
    | (with_reducible first | assumption | exact cov_sub hu rfl | apply State.pwrDone_inv | apply State.warmReset_inv | apply ite_inv)

theorem execWarmReset_inv (src : Source) (s : State) (h_s : Keeps pmk z s)  (hu : Cov pmk 134217727 := by exact cov_sub (by assumption) rfl) :
    Safe pmk z (execWarmReset src s) := by
  unfold execWarmReset
  show Keeps pmk z _
  repeat' first
    | (refine fun _ => ?_)
    | (with_reducible first | assumption | exact cov_sub hu rfl | apply State.pwrCmd_inv | apply State.warmCmd_inv)

theorem State.coldCmd_inv (bad : List Nat) (s : State) (h_s : Keeps pmk z s)  (hu : Cov pmk 134217727 := by exact cov_sub (by assumption) rfl) :
    Keeps pmk z (State.coldCmd bad s) := by
  unfold State.coldCmd
  repeat' first
    | (with_reducible first | assumption | exact cov_sub hu rfl | apply State.bootEval_inv | apply State.coldReset_inv | apply State.pwrDone_inv | apply ite_inv)

theorem execColdReset_inv (src : Source) (bad : List Nat) (s : State) (h_s : Keeps pmk z s)  (hu : Cov pmk 134217727 := by exact cov_sub (by assumption) rfl) :
    Safe pmk z (execColdReset src bad s) := by
  unfold execColdReset
  show Keeps pmk z _
  repeat' first
    | (refine fun _ => ?_)
    | (with_reducible first | assumption | exact cov_sub hu rfl | apply State.coldCmd_inv | apply State.pwrCmd_inv)

theorem execSupplyRise_inv (bad : List Nat) (s : State) (h_s : Keeps pmk z s)  (hu : Cov pmk 134217727 := by exact cov_sub (by assumption) rfl) :
    Safe pmk z (execSupplyRise bad s) := by
  unfold execSupplyRise
  show Keeps pmk z _
  repeat' first
    | (with_reducible first | assumption | exact cov_sub hu rfl | apply State.bootEval_inv | apply State.coldReset_inv | apply State.modPwr_inv)

theorem execStartupDone_inv (s : State) (h_s : Keeps pmk z s)  (hu : Cov pmk 16859139 := by exact cov_sub (by assumption) rfl) :
    Safe pmk z (execStartupDone s) := by
  unfold execStartupDone
  show Keeps pmk z _
  repeat' first
    | (with_reducible first | assumption | exact cov_sub hu rfl | apply State.modPwr_inv | apply State.pwrDone_inv | apply ite_inv)

theorem State.stopAll_inv (s : State) (h : Keeps pmk z s) (hu : Cov pmk 134217727 := by exact cov_sub (by assumption) rfl) : Keeps pmk z s.stopAll := by
  unfold State.stopAll
  have h1 := State.bare_inv s (fun k => k == .fuse || k == .pwr || k == .save || k == .ident) h
  exact State.barnOpen_inv _ (State.modTime_inv _ _ (keeps_all h1 hu ⟨h1.inv.1, h1.inv.2⟩ rfl rfl rfl rfl))

theorem State.saved_inv (s : State) (h_s : Keeps pmk z s)  (hu : Cov pmk 65536 := by exact cov_sub (by assumption) rfl) :
    Keeps pmk z (State.saved s) := by
  unfold State.saved
  repeat' first
    | (with_reducible first | assumption | apply State.modPwr_inv)

theorem State.saveTorn_inv (s : State) (h_s : Keeps pmk z s)  (hu : Cov pmk 33619968 := by exact cov_sub (by assumption) rfl) :
    Keeps pmk z (State.saveTorn s) := by
  unfold State.saveTorn
  repeat' first
    | (with_reducible first | assumption | exact cov_sub hu rfl | apply State.modPwr_inv | apply State.setCell_inv | apply State.takeFree_inv)
    | split

theorem State.startSave_inv (s : State) (h_s : Keeps pmk z s)  (hu : Cov pmk 134217727 := by exact cov_sub (by assumption) rfl) :
    Keeps pmk z (State.startSave s) := by
  unfold State.startSave
  repeat' first
    | (with_reducible first | assumption | exact cov_sub hu rfl | apply State.fuseDone_inv | apply State.modPwr_inv | apply State.saved_inv | apply State.setCell_inv | apply State.stopAll_inv | apply State.takeFree_inv | apply ite_inv)
    | split

theorem execPwrFailAssert_inv (s : State) (h_s : Keeps pmk z s)  (hu : Cov pmk 134217727 := by exact cov_sub (by assumption) rfl) :
    Safe pmk z (execPwrFailAssert s) := by
  unfold execPwrFailAssert
  show Keeps pmk z _
  repeat' first
    | (with_reducible first | assumption | exact cov_sub hu rfl | apply State.bump_inv | apply State.modPwr_inv | apply State.saved_inv | apply State.startSave_inv | apply State.stopAll_inv | apply ite_inv)
    | ((try lift_lets); intro x; have hx : Keeps pmk z x := ?_; revert hx; generalize x = y; clear x; intro hx; rotate_left; (dsimp -zeta only [x]))
    | split

theorem execSaveWriteDone_inv (ok : Bool) (s : State) (h_s : Keeps pmk z s)  (hu : Cov pmk 33619968 := by exact cov_sub (by assumption) rfl) :
    Safe pmk z (execSaveWriteDone ok s) := by
  unfold execSaveWriteDone
  show Keeps pmk z _
  repeat' first
    | (with_reducible first | assumption | exact cov_sub hu rfl | apply State.saveTorn_inv | apply State.saved_inv | apply State.setCell_inv | apply ite_inv)
    | split

theorem execPwrFailRelease_inv (bad : List Nat) (s : State) (h_s : Keeps pmk z s)  (hu : Cov pmk 134217727 := by exact cov_sub (by assumption) rfl) :
    Safe pmk z (execPwrFailRelease bad s) := by
  unfold execPwrFailRelease
  show Keeps pmk z _
  repeat' first
    | (with_reducible first | assumption | exact cov_sub hu rfl | apply State.bootEval_inv | apply State.coldReset_inv | apply State.modPwr_inv | apply ite_inv)

theorem execRstNAssert_inv (bad : List Nat) (s : State) (h_s : Keeps pmk z s)  (hu : Cov pmk 134217727 := by exact cov_sub (by assumption) rfl) :
    Safe pmk z (execRstNAssert bad s) := by
  unfold execRstNAssert
  show Keeps pmk z _
  repeat' first
    | (with_reducible first | assumption | exact cov_sub hu rfl | apply State.bootEval_inv | apply State.coldReset_inv | apply State.modPwr_inv | apply State.saveTorn_inv)

theorem execRstNRelease_inv (s : State) (h_s : Keeps pmk z s)  (hu : Cov pmk 65536 := by exact cov_sub (by assumption) rfl) :
    Safe pmk z (execRstNRelease s) := by
  unfold execRstNRelease
  show Keeps pmk z _
  repeat' first
    | (with_reducible first | assumption | apply State.modPwr_inv)

theorem execCrefclkLost_inv (s : State) (h_s : Keeps pmk z s)  (hu : Cov pmk 134217727 := by exact cov_sub (by assumption) rfl) :
    Safe pmk z (execCrefclkLost s) := by
  unfold execCrefclkLost
  show Keeps pmk z _
  repeat' first
    | (with_reducible first | assumption | exact cov_sub hu rfl | apply State.modPwr_inv | apply State.raise_inv | apply State.saveTorn_inv | apply State.saved_inv | apply State.stopAll_inv)
    | ((try lift_lets); intro x; have hx : Keeps pmk z x := ?_; revert hx; generalize x = y; clear x; intro hx; rotate_left; (dsimp -zeta only [x]))
    | split

theorem execVholdSample_inv (mv : Nat) (s : State) (h_s : Keeps pmk z s)  (hu : Cov pmk 33619968 := by exact cov_sub (by assumption) rfl) :
    Safe pmk z (execVholdSample mv s) := by
  unfold execVholdSample
  show Keeps pmk z _
  repeat' first
    | (with_reducible first | assumption | exact cov_sub hu rfl | apply State.modPwr_inv | apply State.saveTorn_inv | apply State.saved_inv | apply ite_inv)

theorem execVholdLow_inv (s : State) (h_s : Keeps pmk z s)  (hu : Cov pmk 83970275 := by exact cov_sub (by assumption) rfl) :
    Safe pmk z (execVholdLow s) := by
  unfold execVholdLow
  show Keeps pmk z _
  repeat' first
    | (with_reducible first | assumption | exact cov_sub hu rfl | apply State.modPwr_inv | apply State.raise_inv | apply State.raiseInt_inv | apply ite_inv)
    | split

theorem execBrownOut_inv (fed low : Bool) (s : State) (h_s : Keeps pmk z s)  (hu : Cov pmk 134217727 := by exact cov_sub (by assumption) rfl) :
    Safe pmk z (execBrownOut fed low s) := by
  unfold execBrownOut
  show Keeps pmk z _
  repeat' first
    | (with_reducible first | assumption | exact cov_sub hu rfl | apply State.coldReset_inv | apply State.modPwr_inv | apply State.saveTorn_inv | apply ite_inv)

theorem execThermTrip_inv (s : State) (h_s : Keeps pmk z s)  (hu : Cov pmk 16842752 := by exact cov_sub (by assumption) rfl) :
    Safe pmk z (execThermTrip s) := by
  unfold execThermTrip
  show Keeps pmk z _
  repeat' first
    | (with_reducible first | assumption | exact cov_sub hu rfl | apply State.emit_inv | apply State.modPwr_inv | apply ite_inv)

/-! ### Request -/

theorem State.dqRx_inv (die j : Nat) (p : Packet) (s : State) (h_s : Keeps pmk z s)  (hu : Cov pmk 85216483 := by exact cov_sub (by assumption) rfl) :
    Keeps pmk z (State.dqRx die j p s) := by
  unfold State.dqRx
  repeat' first
    | (with_reducible first | assumption | exact cov_sub hu rfl | apply State.respond_inv | apply State.submit_inv | apply ite_inv)
    | (split <;> first | (rename_i heq; have hi := (congrArg (fun p => Keeps pmk z (Prod.snd (Prod.snd p))) heq).mp ?_; try dsimp only at hi) | (rename_i heq; have hi := (congrArg (fun p => Keeps pmk z (Prod.snd p)) heq).mp ?_; try dsimp only at hi) | (rename_i heq _; have hi := (congrArg (fun p => Keeps pmk z (Prod.snd (Prod.snd p))) heq).mp ?_; try dsimp only at hi) | (rename_i heq _; have hi := (congrArg (fun p => Keeps pmk z (Prod.snd p)) heq).mp ?_; try dsimp only at hi))

theorem State.mreqServe_inv (die j size : Nat) (from_ : Ingress) (p : Packet) (c : Option Nat) (x : Chk) (s : State) (h_s : Keeps pmk z s)  (hu : Cov pmk 84040931 := by exact cov_sub (by assumption) rfl) :
    Keeps pmk z (State.mreqServe die j size from_ p c x s) := by
  unfold State.mreqServe
  repeat' first
    | (with_reducible first | assumption | exact cov_sub hu rfl | apply State.enter_inv | apply State.freeLocal_inv | apply State.homeEnter_inv | apply State.respond_inv | apply State.violation_inv | apply State.watch_inv)
    | (split <;> first | (rename_i heq; have hi := (congrArg (fun p => Keeps pmk z (Prod.snd (Prod.snd p))) heq).mp ?_; try dsimp only at hi) | (rename_i heq; have hi := (congrArg (fun p => Keeps pmk z (Prod.snd p)) heq).mp ?_; try dsimp only at hi) | (rename_i heq _; have hi := (congrArg (fun p => Keeps pmk z (Prod.snd (Prod.snd p))) heq).mp ?_; try dsimp only at hi) | (rename_i heq _; have hi := (congrArg (fun p => Keeps pmk z (Prod.snd p)) heq).mp ?_; try dsimp only at hi))
    | split

theorem State.mreqBody_inv (die j : Nat) (from_ : Ingress) (p : Packet) (c : Option Nat) (s : State) (h_s : Keeps pmk z s)  (hu : Cov pmk 117595363 := by exact cov_sub (by assumption) rfl) :
    Keeps pmk z (State.mreqBody die j from_ p c s) := by
  unfold State.mreqBody
  repeat' first
    | (with_reducible first | assumption | exact cov_sub hu rfl | apply State.bump_inv | apply State.checkBody_inv | apply State.freeLocal_inv | apply State.mreqServe_inv | apply State.respond_inv | apply ite_inv)

theorem State.mreqRx_inv (n : Nat) (p : Packet) (c : Option Nat) (s : State) (h_s : Keeps pmk z s)  (hu : Cov pmk 127294691 := by exact cov_sub (by assumption) rfl) :
    Keeps pmk z (State.mreqRx n p c s) := by
  unfold State.mreqRx
  repeat' first
    | (with_reducible first | assumption | exact cov_sub hu rfl | apply State.checkHead_inv | apply State.dqRx_inv | apply State.freeLocal_inv | apply State.hostRx_inv | apply State.mreqBody_inv | apply State.outputRx_inv | apply State.respond_inv | apply State.tokenRx_inv | apply ite_inv)
    | ((try lift_lets); intro x; generalize x = y; clear x)
    | (split <;> first | (rename_i heq; have hi := (congrArg (fun p => Keeps pmk z (Prod.snd (Prod.snd p))) heq).mp ?_; try dsimp only at hi) | (rename_i heq; have hi := (congrArg (fun p => Keeps pmk z (Prod.snd p)) heq).mp ?_; try dsimp only at hi) | (rename_i heq _; have hi := (congrArg (fun p => Keeps pmk z (Prod.snd (Prod.snd p))) heq).mp ?_; try dsimp only at hi) | (rename_i heq _; have hi := (congrArg (fun p => Keeps pmk z (Prod.snd p)) heq).mp ?_; try dsimp only at hi))
    | split

theorem State.mreqAt_inv (n : Nat) (p : Packet) (s : State) (h_s : Keeps pmk z s)  (hu : Cov pmk 127294691 := by exact cov_sub (by assumption) rfl) :
    Keeps pmk z (State.mreqAt n p s) := by
  unfold State.mreqAt
  repeat' first
    | (with_reducible first | assumption | exact cov_sub hu rfl | apply State.mreqRx_inv | apply State.takeLocal_inv | apply ite_inv)
    | (split <;> first | (rename_i heq; have hi := (congrArg (fun p => Keeps pmk z (Prod.snd (Prod.snd p))) heq).mp ?_; try dsimp only at hi) | (rename_i heq; have hi := (congrArg (fun p => Keeps pmk z (Prod.snd p)) heq).mp ?_; try dsimp only at hi) | (rename_i heq _; have hi := (congrArg (fun p => Keeps pmk z (Prod.snd (Prod.snd p))) heq).mp ?_; try dsimp only at hi) | (rename_i heq _; have hi := (congrArg (fun p => Keeps pmk z (Prod.snd p)) heq).mp ?_; try dsimp only at hi))

theorem execMreqRx_inv (p : Nat) (pkt : Packet) (s : State) (h_s : Keeps pmk z s)  (hu : Cov pmk 127294691 := by exact cov_sub (by assumption) rfl) :
    Safe pmk z (execMreqRx p pkt s) := by
  unfold execMreqRx
  show Keeps pmk z _
  repeat' first
    | (with_reducible first | assumption | apply State.mreqAt_inv)

theorem execDescWrite_inv (p : Nat) (pkt : Packet) (s : State) (h_s : Keeps pmk z s)  (hu : Cov pmk 127294691 := by exact cov_sub (by assumption) rfl) :
    Safe pmk z (execDescWrite p pkt s) := by
  unfold execDescWrite
  show Keeps pmk z _
  repeat' first
    | (with_reducible first | assumption | apply State.mreqAt_inv | apply ite_inv)
    | split

theorem execTokenWrite_inv (p : Nat) (pkt : Packet) (s : State) (h_s : Keeps pmk z s)  (hu : Cov pmk 127294691 := by exact cov_sub (by assumption) rfl) :
    Safe pmk z (execTokenWrite p pkt s) := by
  unfold execTokenWrite
  show Keeps pmk z _
  repeat' first
    | (with_reducible first | assumption | apply State.mreqAt_inv | apply ite_inv)

theorem execExpertOutputWrite_inv (p : Nat) (pkt : Packet) (s : State) (h_s : Keeps pmk z s)  (hu : Cov pmk 127294691 := by exact cov_sub (by assumption) rfl) :
    Safe pmk z (execExpertOutputWrite p pkt s) := by
  unfold execExpertOutputWrite
  show Keeps pmk z _
  repeat' first
    | (with_reducible first | assumption | apply State.mreqAt_inv | apply ite_inv)

theorem State.jobReject_inv (j r : Nat) (s : State) (h_s : Keeps pmk z s)  (hu : Cov pmk 1 := by exact cov_sub (by assumption) rfl) :
    Keeps pmk z (State.jobReject j r s) := by
  unfold State.jobReject
  repeat' first
    | (with_reducible first | assumption | apply State.setRf_inv)

theorem State.jobCntsZero_inv (j : Nat) (s : State) (h_s : Keeps pmk z s)  (hu : Cov pmk 2 := by exact cov_sub (by assumption) rfl) :
    Keeps pmk z (State.jobCntsZero j s) := by
  unfold State.jobCntsZero
  repeat' first
    | (refine fun _ => ?_)
    | (with_reducible first | assumption | apply State.setCnt_inv | apply foldl_inv)

theorem State.jobActivate_inv (j : Nat) (s : State) (h_s : Keeps pmk z s)  (hu : Cov pmk 1027 := by exact cov_sub (by assumption) rfl) :
    Keeps pmk z (State.jobActivate j s) := by
  unfold State.jobActivate
  repeat' first
    | (with_reducible first | assumption | exact cov_sub hu rfl | apply State.jobCntsZero_inv | apply State.jobReject_inv | apply State.setJob_inv | apply ite_inv)
    | split

theorem State.stopReq_inv (id : Nat) (s : State) (h_s : Keeps pmk z s)  (hu : Cov pmk 118639843 := by exact cov_sub (by assumption) rfl) :
    Keeps pmk z (State.stopReq id s) := by
  unfold State.stopReq
  repeat' first
    | (refine fun _ => ?_)
    | (with_reducible first | assumption | exact cov_sub hu rfl | apply State.endPart_inv | apply State.failReq_inv | apply State.settle_inv | apply foldl_inv | apply ite_inv)
    | split

theorem State.stopLines_inv (j : Nat) (s : State) (h_s : Keeps pmk z s)  (hu : Cov pmk 84035811 := by exact cov_sub (by assumption) rfl) :
    Keeps pmk z (State.stopLines j s) := by
  unfold State.stopLines
  repeat' first
    | (refine fun _ => ?_)
    | (with_reducible first | assumption | exact cov_sub hu rfl | apply State.lineDone_inv | apply State.modHome_inv | apply State.setGroup_inv | apply foldl_inv | apply ite_inv)
    | ((try lift_lets); intro x; have hx : Keeps pmk z x := ?_; revert hx; generalize x = y; clear x; intro hx; rotate_left; (dsimp -zeta only [x]))
    | split

theorem State.stopUnits_inv (j : Nat) (s : State) (h_s : Keeps pmk z s)  (hu : Cov pmk 121392355 := by exact cov_sub (by assumption) rfl) :
    Keeps pmk z (State.stopUnits j s) := by
  unfold State.stopUnits
  repeat' first
    | (refine fun _ => ?_)
    | (with_reducible first | assumption | exact cov_sub hu rfl | apply State.carvRsp_inv | apply State.drive_inv | apply State.modTtu_inv | apply State.runResult_inv | apply foldl_inv | apply ite_inv)

theorem State.jobStop_inv (j : Nat) (s : State) (h_s : Keeps pmk z s)  (hu : Cov pmk 134106339 := by exact cov_sub (by assumption) rfl) :
    Keeps pmk z (State.jobStop j s) := by
  unfold State.jobStop
  repeat' first
    | (refine fun _ => ?_)
    | (with_reducible first | assumption | exact cov_sub hu rfl | apply State.carvStop_inv | apply State.exdStop_inv | apply State.hostStop_inv | apply State.jobReject_inv | apply State.setJob_inv | apply State.shStop_inv | apply State.stopLines_inv | apply State.stopReq_inv | apply State.stopUnits_inv | apply State.tileStop_inv | apply foldl_inv)
    | ((try lift_lets); intro x; have hx : Keeps pmk z x := ?_; revert hx; generalize x = y; clear x; intro hx; rotate_left; (dsimp -zeta only [x]))
    | ((try lift_lets); intro x; generalize x = y; clear x)
    | split

theorem State.jobRelease_inv (j : Nat) (s : State) (h_s : Keeps pmk z s)  (hu : Cov pmk 1025 := by exact cov_sub (by assumption) rfl) :
    Keeps pmk z (State.jobRelease j s) := by
  unfold State.jobRelease
  repeat' first
    | (with_reducible first | assumption | exact cov_sub hu rfl | apply State.jobReject_inv | apply State.modTtu_inv | apply State.setJob_inv | apply State.setRf_inv | apply State.setRg_inv | apply ite_inv)
    | ((try lift_lets); intro x; have hx : Keeps pmk z x := ?_; revert hx; generalize x = y; clear x; intro hx; rotate_left; (dsimp -zeta only [x]))
    | split

theorem execJobActivate_inv (src : Source) (j : Nat) (s : State) (h_s : Keeps pmk z s)  (hu : Cov pmk 1035 := by exact cov_sub (by assumption) rfl) :
    Safe pmk z (execJobActivate src j s) := by
  unfold execJobActivate
  show Keeps pmk z _
  repeat' first
    | (refine fun _ => ?_)
    | (with_reducible first | assumption | exact cov_sub hu rfl | apply State.guarded_inv | apply State.jobActivate_inv)

theorem execJobStop_inv (src : Source) (j : Nat) (s : State) (h_s : Keeps pmk z s)  (hu : Cov pmk 134106347 := by exact cov_sub (by assumption) rfl) :
    Safe pmk z (execJobStop src j s) := by
  unfold execJobStop
  show Keeps pmk z _
  repeat' first
    | (refine fun _ => ?_)
    | (with_reducible first | assumption | exact cov_sub hu rfl | apply State.guarded_inv | apply State.jobStop_inv)

theorem execJobRelease_inv (src : Source) (j : Nat) (s : State) (h_s : Keeps pmk z s)  (hu : Cov pmk 1035 := by exact cov_sub (by assumption) rfl) :
    Safe pmk z (execJobRelease src j s) := by
  unfold execJobRelease
  show Keeps pmk z _
  repeat' first
    | (refine fun _ => ?_)
    | (with_reducible first | assumption | exact cov_sub hu rfl | apply State.guarded_inv | apply State.jobRelease_inv)

theorem execJobDrained_inv (j : Nat) (s : State) (h_s : Keeps pmk z s)  (hu : Cov pmk 16794627 := by exact cov_sub (by assumption) rfl) :
    Safe pmk z (execJobDrained j s) := by
  unfold execJobDrained
  show Keeps pmk z _
  repeat' first
    | (with_reducible first | assumption | exact cov_sub hu rfl | apply State.raiseInt_inv | apply State.setJob_inv | apply ite_inv)

/-! ### Cxl -/

theorem execCxlTrain_inv (p : Nat) (result : TrainResult) (s : State) (h_s : Keeps pmk z s)  (hu : Cov pmk 83905779 := by exact cov_sub (by assumption) rfl) :
    Safe pmk z (execCxlTrain p result s) := by
  unfold execCxlTrain
  show Keeps pmk z _
  repeat' first
    | (with_reducible first | assumption | exact cov_sub hu rfl | apply State.enterActive_inv | apply State.leaveTo_inv | apply State.raise_inv | apply ite_inv)
    | split

theorem State.cxlUnsupported_inv (p : Nat) (s : State) (h_s : Keeps pmk z s)  (hu : Cov pmk 16777218 := by exact cov_sub (by assumption) rfl) :
    Keeps pmk z (State.cxlUnsupported p s) := by
  unfold State.cxlUnsupported
  repeat' first
    | (with_reducible first | assumption | exact cov_sub hu rfl | apply State.bumpLo_inv | apply State.emit_inv)

theorem execCxlDeviceRequest_inv (p : Nat) (s : State) (h_s : Keeps pmk z s)  (hu : Cov pmk 16777218 := by exact cov_sub (by assumption) rfl) :
    Safe pmk z (execCxlDeviceRequest p s) := by
  unfold execCxlDeviceRequest
  show Keeps pmk z _
  repeat' first
    | (with_reducible first | assumption | apply State.cxlUnsupported_inv | apply ite_inv)

theorem execCxlMsiWrite_inv (p addr : Nat) (data : Word) (s : State) (h_s : Keeps pmk z s)  (hu : Cov pmk 16793603 := by exact cov_sub (by assumption) rfl) :
    Safe pmk z (execCxlMsiWrite p addr data s) := by
  unfold execCxlMsiWrite
  show Keeps pmk z _
  repeat' first
    | (with_reducible first | assumption | exact cov_sub hu rfl | apply State.cxlUnsupported_inv | apply State.raiseInt_inv | apply State.setRg_inv | apply ite_inv)

theorem State.cxlCfgWrite_inv (p : Nat) (v : Word) (s : State) (h_s : Keeps pmk z s)  (hu : Cov pmk 16777249 := by exact cov_sub (by assumption) rfl) :
    Keeps pmk z (State.cxlCfgWrite p v s) := by
  unfold State.cxlCfgWrite
  repeat' first
    | (with_reducible first | assumption | exact cov_sub hu rfl | apply State.emit_inv | apply State.modPort_inv | apply State.setRg_inv | apply ite_inv)

theorem execCxlCfgGo_inv (src : Source) (p : Nat) (val : Word) (s : State) (h_s : Keeps pmk z s)  (hu : Cov pmk 16777259 := by exact cov_sub (by assumption) rfl) :
    Safe pmk z (execCxlCfgGo src p val s) := by
  unfold execCxlCfgGo
  show Keeps pmk z _
  repeat' first
    | (refine fun _ => ?_)
    | (with_reducible first | assumption | exact cov_sub hu rfl | apply State.cxlCfgWrite_inv | apply State.guarded_inv)

theorem State.cxlCfgEnd_inv (p r : Nat) (s : State) (h_s : Keeps pmk z s)  (hu : Cov pmk 33 := by exact cov_sub (by assumption) rfl) :
    Keeps pmk z (State.cxlCfgEnd p r s) := by
  unfold State.cxlCfgEnd
  repeat' first
    | (with_reducible first | assumption | exact cov_sub hu rfl | apply State.modPort_inv | apply State.setRf_inv)

theorem execCxlCfgCompletion_inv (p : Nat) (status : CplStatus) (data : Word) (s : State) (h_s : Keeps pmk z s)  (hu : Cov pmk 33554465 := by exact cov_sub (by assumption) rfl) :
    Safe pmk z (execCxlCfgCompletion p status data s) := by
  unfold execCxlCfgCompletion
  show Keeps pmk z _
  repeat' first
    | (with_reducible first | assumption | exact cov_sub hu rfl | apply State.cxlCfgEnd_inv | apply State.setRg_inv | apply State.takeFree_inv | apply ite_inv)
    | ((try lift_lets); intro x; have hx : Keeps pmk z x := ?_; revert hx; generalize x = y; clear x; intro hx; rotate_left; (dsimp -zeta only [x]))
    | split

theorem execCxlCfgTimeout_inv (p : Nat) (s : State) (h_s : Keeps pmk z s)  (hu : Cov pmk 33 := by exact cov_sub (by assumption) rfl) :
    Safe pmk z (execCxlCfgTimeout p s) := by
  unfold execCxlCfgTimeout
  show Keeps pmk z _
  repeat' first
    | (with_reducible first | assumption | apply State.cxlCfgEnd_inv | apply ite_inv)

theorem State.hdmWrite_inv (p i : Nat) (v : Word) (s : State) (h_s : Keeps pmk z s)  (hu : Cov pmk 1 := by exact cov_sub (by assumption) rfl) :
    Keeps pmk z (State.hdmWrite p i v s) := by
  unfold State.hdmWrite
  repeat' first
    | (with_reducible first | assumption | apply State.setRf_inv | apply State.setRg_inv | apply ite_inv)

theorem execHdmEnable_inv (src : Source) (p i : Nat) (val : Word) (s : State) (h_s : Keeps pmk z s)  (hu : Cov pmk 11 := by exact cov_sub (by assumption) rfl) :
    Safe pmk z (execHdmEnable src p i val s) := by
  unfold execHdmEnable
  show Keeps pmk z _
  repeat' first
    | (refine fun _ => ?_)
    | (with_reducible first | assumption | exact cov_sub hu rfl | apply State.guarded_inv | apply State.hdmWrite_inv)

end Sys2Proof.Machine
end

