-- ==== Sys2Proof/Laws/InvRegs.lean ====
section
/-! SUPPORT. What every function keeps of `State.Inv`, each by the lemmas of the functions it calls:
register reads and writes, the chain, the image, the clock. -/

set_option Elab.async false

namespace Sys2Proof.Machine
open Sys2Proof
set_option linter.unusedSimpArgs false
set_option linter.unusedVariables false
variable {pmk : Nat} {z : State}

/-! ### RegRead -/

theorem State.latch_inv (src : Source) (a : Nat) (v : Word) (s : State) (h : Keeps pmk z s) (hu : Cov pmk 8 := by exact cov_sub (by assumption) rfl) :
    Keeps pmk z (State.latch src a v s) := by
  unfold State.latch
  obtain ⟨h1, h2, h3, h4, h5, h6, h7⟩ := (hub_wf_iff _).1 h.inv.2
  have g := wf_set _ (stageKey src a) (some v) h6
  exact modHub_inv h 8 ((hub_wf_iff _).2 ⟨h1, h2, h3, h4, h5, g, h7⟩) (hub_frame (.inr rfl) (.inr rfl) (.inr ⟨rfl, rfl⟩) (.inl rfl))

theorem State.popEvent_inv (d : Nat) (s : State) (h_s : Keeps pmk z s)  (hu : Cov pmk 262144 := by exact cov_sub (by assumption) rfl) :
    Keeps pmk z (State.popEvent d s).2 := by
  unfold State.popEvent
  repeat' first
    | (with_reducible first | assumption | apply State.modCtr_inv)
    | split

theorem State.readPage_inv (src : Source) (k : PageKind) (i o a : Nat) (s : State) (h_s : Keeps pmk z s)  (hu : Cov pmk 33882121 := by exact cov_sub (by assumption) rfl) :
    Keeps pmk z (State.readPage src k i o a s).2 := by
  unfold State.readPage
  repeat' first
    | (with_reducible first | assumption | exact cov_sub hu rfl | apply State.latch_inv | apply State.latchNow_inv | apply State.modPwr_inv | apply State.popEvent_inv | apply State.rdData_inv | apply State.takeFree_inv | apply ite_inv | apply ite_snd_inv)

theorem State.readCtr_inv (src : Source) (a : Nat) (s : State) (h_s : Keeps pmk z s)  (hu : Cov pmk 8 := by exact cov_sub (by assumption) rfl) :
    Keeps pmk z (State.readCtr src a s).2 := by
  unfold State.readCtr
  repeat' first
    | (with_reducible first | assumption | apply State.latch_inv | apply ite_snd_inv)
    | split

theorem State.readSpace_inv (src : Source) (a : Nat) (s : State) (h_s : Keeps pmk z s)  (hu : Cov pmk 33882121 := by exact cov_sub (by assumption) rfl) :
    Keeps pmk z (State.readSpace src a s).2 := by
  unfold State.readSpace
  repeat' first
    | (with_reducible first | assumption | exact cov_sub hu rfl | apply State.readCtr_inv | apply State.readPage_inv | apply ite_snd_inv)
    | split

theorem State.readVfJob_inv (src : Source) (o a : Nat) (slot : Option Nat) (s : State) (h_s : Keeps pmk z s)  (hu : Cov pmk 33882121 := by exact cov_sub (by assumption) rfl) :
    Keeps pmk z (State.readVfJob src o a slot s).2 := by
  unfold State.readVfJob
  repeat' first
    | (with_reducible first | assumption | apply State.readPage_inv | apply ite_snd_inv)
    | split

theorem State.readVf_inv (src : Source) (f o : Nat) (t : Bool) (s : State) (h_s : Keeps pmk z s)  (hu : Cov pmk 33882121 := by exact cov_sub (by assumption) rfl) :
    Keeps pmk z (State.readVf src f o t s).2 := by
  unfold State.readVf
  repeat' first
    | (with_reducible first | assumption | apply State.readPage_inv | apply State.readVfJob_inv | apply ite_snd_inv)

theorem State.readDword_inv (src : Source) (t : Bool) (a : Nat) (s : State) (h_s : Keeps pmk z s)  (hu : Cov pmk 33882121 := by exact cov_sub (by assumption) rfl) :
    Keeps pmk z (State.readDword src t a s).2 := by
  unfold State.readDword
  repeat' first
    | (with_reducible first | assumption | apply State.readSpace_inv | apply State.readVf_inv | apply ite_snd_inv)

theorem State.readAnswer_inv (src : Source) (t : Bool) (a : Nat) (s : State) (h_s : Keeps pmk z s)  (hu : Cov pmk 50659337 := by exact cov_sub (by assumption) rfl) :
    Keeps pmk z (State.readAnswer src t a s) := by
  unfold State.readAnswer
  repeat' first
    | (with_reducible first | assumption | exact cov_sub hu rfl | apply State.emit_inv | apply State.readDword_inv)
    | (split <;> first | (rename_i heq; have hi := (congrArg (fun p => Keeps pmk z (Prod.snd (Prod.snd p))) heq).mp ?_; try dsimp only at hi) | (rename_i heq; have hi := (congrArg (fun p => Keeps pmk z (Prod.snd p)) heq).mp ?_; try dsimp only at hi) | (rename_i heq _; have hi := (congrArg (fun p => Keeps pmk z (Prod.snd (Prod.snd p))) heq).mp ?_; try dsimp only at hi) | (rename_i heq _; have hi := (congrArg (fun p => Keeps pmk z (Prod.snd p)) heq).mp ?_; try dsimp only at hi))

theorem State.readDwords_inv (src : Source) (t : Bool) (a n : Nat) : ∀ (s : State), Keeps pmk z s →
    (hu : Cov pmk 50659337 := by exact cov_sub (by assumption) rfl) → Keeps pmk z (State.readDwords src t a n s) := by
  induction n generalizing a with
  | zero => exact fun _ h _ => h
  | succ n ih => exact fun s h hu => ih (a + 4) _ (State.readAnswer_inv _ _ _ _ h) hu

theorem execCounterLoRead_inv (src : Source) (t : Bool) (addr count : Nat) (s : State) (h_s : Keeps pmk z s)  (hu : Cov pmk 50659337 := by exact cov_sub (by assumption) rfl) :
    Safe pmk z (execCounterLoRead src t addr count s) := by
  unfold execCounterLoRead
  show Keeps pmk z _
  repeat' first
    | (with_reducible first | assumption | apply State.readDwords_inv)

theorem execTimeNowRead_inv (src : Source) (s : State) (h_s : Keeps pmk z s)  (hu : Cov pmk 50659337 := by exact cov_sub (by assumption) rfl) :
    Safe pmk z (execTimeNowRead src s) := by
  unfold execTimeNowRead
  show Keeps pmk z _
  repeat' first
    | (with_reducible first | assumption | apply State.readAnswer_inv)

theorem execCtrEventRead_inv (src : Source) (d : Nat) (s : State) (h_s : Keeps pmk z s)  (hu : Cov pmk 50659337 := by exact cov_sub (by assumption) rfl) :
    Safe pmk z (execCtrEventRead src d s) := by
  unfold execCtrEventRead
  show Keeps pmk z _
  repeat' first
    | (with_reducible first | assumption | apply State.readAnswer_inv | apply ite_inv)

theorem execSaveRdDataRead_inv (src : Source) (s : State) (h_s : Keeps pmk z s)  (hu : Cov pmk 50659337 := by exact cov_sub (by assumption) rfl) :
    Safe pmk z (execSaveRdDataRead src s) := by
  unfold execSaveRdDataRead
  show Keeps pmk z _
  repeat' first
    | (with_reducible first | assumption | apply State.readAnswer_inv)

/-! ### RegStore -/

theorem State.storeReg_inv (src : Source) (k : PageKind) (a o : Nat) (v : Word) (s : State) (h_s : Keeps pmk z s)  (hu : Cov pmk 9 := by exact cov_sub (by assumption) rfl) :
    Keeps pmk z (State.storeReg src k a o v s) := by
  unfold State.storeReg
  repeat' first
    | (with_reducible first | assumption | exact cov_sub hu rfl | apply State.commitPair_inv | apply State.setRg_inv | apply State.stageLo_inv | apply ite_inv)
    | ((try lift_lets); intro x; generalize x = y; clear x)
    | split

theorem State.onlyIf_inv (p : Bool) (act : State → State) (s : State) (h_s : Keeps pmk z s) (hact : ∀ (x0 : State), Keeps pmk z x0 → Keeps pmk z (act x0)) (hu : Cov pmk 8 := by exact cov_sub (by assumption) rfl) :
    Keeps pmk z (State.onlyIf p act s) := by
  unfold State.onlyIf
  repeat' first
    | (with_reducible first | assumption | apply hact | apply State.refuse_inv | apply ite_inv)

theorem State.pairIf_inv (src : Source) (lo : Nat) (hi : Word) (p : Nat → Bool) (act : State → State) (s : State) (h_s : Keeps pmk z s) (hact : ∀ (x0 : State), Keeps pmk z x0 → Keeps pmk z (act x0)) (hu : Cov pmk 8 := by exact cov_sub (by assumption) rfl) :
    Keeps pmk z (State.pairIf src lo hi p act s) := by
  unfold State.pairIf
  repeat' first
    | (with_reducible first | assumption | apply hact | apply State.refuse_inv | apply State.unstage_inv | apply ite_inv)

theorem State.tryWrite_inv (act : State → State) (p : State → Bool) (no : State → State) (s : State) (h_s : Keeps pmk z s) (hact : ∀ (x0 : State), Keeps pmk z x0 → Keeps pmk z (act x0)) (hno : ∀ (x0 : State), Keeps pmk z x0 → Keeps pmk z (no x0)) :
    Keeps pmk z (State.tryWrite act p no s) := by
  unfold State.tryWrite
  repeat' first
    | (with_reducible first | assumption | apply hact | apply hno | apply ite_inv)

theorem State.allocRefused_inv (d : Nat) (s : State) (h_s : Keeps pmk z s)  (hu : Cov pmk 83904747 := by exact cov_sub (by assumption) rfl) :
    Keeps pmk z (State.allocRefused d s) := by
  unfold State.allocRefused
  repeat' first
    | (with_reducible first | assumption | exact cov_sub hu rfl | apply State.raise_inv | apply State.refuse_inv)

theorem State.kept_inv (a : Nat) (m v : Word) (act : State → State) (s : State) (h_s : Keeps pmk z s) (hact : ∀ (x0 : State), Keeps pmk z x0 → Keeps pmk z (act x0)) (hu : Cov pmk 8 := by exact cov_sub (by assumption) rfl) :
    Keeps pmk z (State.kept a m v act s) := by
  unfold State.kept
  repeat' first
    | (with_reducible first | assumption | apply hact | apply State.refuse_inv | apply ite_inv)

theorem State.clearErr_inv (k : PageKind) (i : Nat) (v : Word) (s : State) (h_s : Keeps pmk z s)  (hu : Cov pmk 1 := by exact cov_sub (by assumption) rfl) :
    Keeps pmk z (State.clearErr k i v s) := by
  unfold State.clearErr
  repeat' first
    | (with_reducible first | assumption | apply State.setRf_inv | apply State.setRg_inv | apply ite_inv)

theorem State.clearInt_inv (k : PageKind) (i : Nat) (v : Word) (s : State) (h_s : Keeps pmk z s)  (hu : Cov pmk 1 := by exact cov_sub (by assumption) rfl) :
    Keeps pmk z (State.clearInt k i v s) := by
  unfold State.clearInt
  repeat' first
    | (with_reducible first | assumption | apply State.setRf_inv | apply State.setRg_inv | apply ite_inv)

theorem State.writeHead_inv (k : PageKind) (i o : Nat) (v : Word) (s : State) (h_s : Keeps pmk z s)  (hu : Cov pmk 16793603 := by exact cov_sub (by assumption) rfl) :
    OptInv pmk z (State.writeHead k i o v s) := by
  unfold State.writeHead
  repeat' first
    | (with_reducible first | assumption | exact cov_sub hu rfl | apply State.clearErr_inv | apply State.clearInt_inv | apply State.intAfter_inv | apply State.setRg_inv | apply State.writeCtrl_inv | apply State.writeLock_inv | apply ite_opt | apply opt_some | exact opt_none)

/-! ### RegHub -/

theorem State.writePwr_inv (src : Source) (o : Nat) (v : Word) (dflt : State → State) (s : State) (h_s : Keeps pmk z s) (hdflt : ∀ (x0 : State), Keeps pmk z x0 → Keeps pmk z (dflt x0)) (hu : Cov pmk 134217727 := by exact cov_sub (by assumption) rfl) :
    Keeps pmk z (State.writePwr src o v dflt s) := by
  unfold State.writePwr
  repeat' first
    | (refine fun _ => ?_)
    | (with_reducible first | assumption | exact cov_sub hu rfl | apply hdflt | apply State.coldCmd_inv | apply State.domainOff_inv | apply State.domainOn_inv | apply State.pwrCmd_inv | apply State.pwrDone_inv | apply State.takeFree_inv | apply State.warmCmd_inv | apply ite_inv)
    | ((try lift_lets); intro x; generalize x = y; clear x)
    | split

theorem State.writeSec_inv (src : Source) (o : Nat) (v : Word) (dflt : State → State) (s : State) (h_s : Keeps pmk z s) (hdflt : ∀ (x0 : State), Keeps pmk z x0 → Keeps pmk z (dflt x0)) (hu : Cov pmk 117467371 := by exact cov_sub (by assumption) rfl) :
    Keeps pmk z (State.writeSec src o v dflt s) := by
  unfold State.writeSec
  repeat' first
    | (refine fun _ => ?_)
    | (with_reducible first | assumption | exact cov_sub hu rfl | apply hdflt | apply State.dbgApply_inv | apply State.dbgEnd_inv | apply State.epochAdvance_inv | apply State.modeSealed_inv | apply State.modeShared_inv | apply State.secCmd_inv | apply State.secDone_inv | apply State.takeFree_inv | apply ite_inv)
    | split

theorem State.writeFuse_inv (o : Nat) (v : Word) (dflt : State → State) (s : State) (h_s : Keeps pmk z s) (hdflt : ∀ (x0 : State), Keeps pmk z x0 → Keeps pmk z (dflt x0)) (hu : Cov pmk 8200 := by exact cov_sub (by assumption) rfl) :
    Keeps pmk z (State.writeFuse o v dflt s) := by
  unfold State.writeFuse
  repeat' first
    | (refine fun _ => ?_)
    | (with_reducible first | assumption | exact cov_sub hu rfl | apply hdflt | apply State.burn_inv | apply State.onlyIf_inv | apply ite_inv)

theorem State.writeTime_inv (src : Source) (o : Nat) (v : Word) (dflt : State → State) (s : State) (h_s : Keeps pmk z s) (hdflt : ∀ (x0 : State), Keeps pmk z x0 → Keeps pmk z (dflt x0)) (hu : Cov pmk 25 := by exact cov_sub (by assumption) rfl) :
    Keeps pmk z (State.writeTime src o v dflt s) := by
  unfold State.writeTime
  repeat' first
    | (refine fun _ => ?_)
    | (with_reducible first | assumption | exact cov_sub hu rfl | apply hdflt | apply State.onlyIf_inv | apply State.writeGmCfg_inv | apply State.writeTimeSet_inv)
    | split

theorem State.writeChain_inv (o : Nat) (v : Word) (dflt : State → State) (s : State) (h_s : Keeps pmk z s) (hdflt : ∀ (x0 : State), Keeps pmk z x0 → Keeps pmk z (dflt x0)) (hu : Cov pmk 16809993 := by exact cov_sub (by assumption) rfl) :
    Keeps pmk z (State.writeChain o v dflt s) := by
  unfold State.writeChain
  repeat' first
    | (refine fun _ => ?_)
    | (with_reducible first | assumption | exact cov_sub hu rfl | apply hdflt | apply State.chainCtrl_inv | apply State.chainRestart_inv | apply State.onlyIf_inv | apply ite_inv)
    | split

theorem State.writeRingBase_inv (src : Source) (lo cfg n : Nat) (v : Word) (dflt : State → State) (s : State) (h_s : Keeps pmk z s) (hdflt : ∀ (x0 : State), Keeps pmk z x0 → Keeps pmk z (dflt x0)) (hu : Cov pmk 8 := by exact cov_sub (by assumption) rfl) :
    Keeps pmk z (State.writeRingBase src lo cfg n v dflt s) := by
  unfold State.writeRingBase
  repeat' first
    | (refine fun _ => ?_)
    | (with_reducible first | assumption | apply hdflt | apply State.pairIf_inv)

theorem State.writeRingCfg_inv (lo lgMin lgMax n : Nat) (v : Word) (dflt : State → State) (s : State) (h_s : Keeps pmk z s) (hdflt : ∀ (x0 : State), Keeps pmk z x0 → Keeps pmk z (dflt x0)) (hu : Cov pmk 8 := by exact cov_sub (by assumption) rfl) :
    Keeps pmk z (State.writeRingCfg lo lgMin lgMax n v dflt s) := by
  unfold State.writeRingCfg
  repeat' first
    | (refine fun _ => ?_)
    | (with_reducible first | assumption | apply hdflt | apply State.onlyIf_inv)

theorem State.writeFault_inv (src : Source) (o : Nat) (v : Word) (dflt : State → State) (s : State) (h_s : Keeps pmk z s) (hdflt : ∀ (x0 : State), Keeps pmk z x0 → Keeps pmk z (dflt x0)) (hu : Cov pmk 122834171 := by exact cov_sub (by assumption) rfl) :
    Keeps pmk z (State.writeFault src o v dflt s) := by
  unfold State.writeFault
  repeat' first
    | (refine fun _ => ?_)
    | (with_reducible first | assumption | exact cov_sub hu rfl | apply hdflt | apply State.auditDue_inv | apply State.fenceCmd_inv | apply State.onlyIf_inv | apply State.writeRingBase_inv | apply State.writeRingCfg_inv)
    | split

theorem State.writeObs_inv (src : Source) (o : Nat) (v : Word) (dflt : State → State) (s : State) (h_s : Keeps pmk z s) (hdflt : ∀ (x0 : State), Keeps pmk z x0 → Keeps pmk z (dflt x0)) (hu : Cov pmk 4107 := by exact cov_sub (by assumption) rfl) :
    Keeps pmk z (State.writeObs src o v dflt s) := by
  unfold State.writeObs
  repeat' first
    | (refine fun _ => ?_)
    | (with_reducible first | assumption | exact cov_sub hu rfl | apply hdflt | apply State.kept_inv | apply State.writeGctrSel_inv | apply State.writeRingBase_inv | apply State.writeRingCfg_inv | apply State.writeTraceCtrl_inv | apply State.writeWpCtrl_inv | apply ite_inv)
    | ((try lift_lets); intro x; generalize x = y; clear x)
    | split

/-! ### RegPort -/

theorem State.writeCredit_inv (p : Nat) (dflt : State → State) (s : State) (h_s : Keeps pmk z s) (hdflt : ∀ (x0 : State), Keeps pmk z x0 → Keeps pmk z (dflt x0)) (hu : Cov pmk 83904747 := by exact cov_sub (by assumption) rfl) :
    Keeps pmk z (State.writeCredit p dflt s) := by
  unfold State.writeCredit
  repeat' first
    | (refine fun _ => ?_)
    | (with_reducible first | assumption | exact cov_sub hu rfl | apply hdflt | apply State.allocRefused_inv | apply State.refuse_inv | apply State.tryWrite_inv)

theorem State.writePromise_inv (p : Nat) (dflt : State → State) (s : State) (h_s : Keeps pmk z s) (hdflt : ∀ (x0 : State), Keeps pmk z x0 → Keeps pmk z (dflt x0)) (hu : Cov pmk 83904747 := by exact cov_sub (by assumption) rfl) :
    Keeps pmk z (State.writePromise p dflt s) := by
  unfold State.writePromise
  repeat' first
    | (refine fun _ => ?_)
    | (with_reducible first | assumption | apply hdflt | apply State.allocRefused_inv | apply State.tryWrite_inv)

theorem State.writePort_inv (src : Source) (p o : Nat) (v : Word) (dflt : State → State) (s : State) (h_s : Keeps pmk z s) (hdflt : ∀ (x0 : State), Keeps pmk z x0 → Keeps pmk z (dflt x0)) (hu : Cov pmk 122834171 := by exact cov_sub (by assumption) rfl) :
    Keeps pmk z (State.writePort src p o v dflt s) := by
  unfold State.writePort
  repeat' first
    | (refine fun _ => ?_)
    | (with_reducible first | assumption | exact cov_sub hu rfl | apply hdflt | apply State.commitPair_inv | apply State.cxlCfgWrite_inv | apply State.enablePort_inv | apply State.hdmWrite_inv | apply State.kept_inv | apply State.onlyIf_inv | apply State.refuse_inv | apply State.rwsRefused_inv | apply State.setRg_inv | apply State.stageLo_inv | apply State.takeFence_inv | apply State.ttBusy_inv | apply State.writeCredit_inv | apply State.writePortCtrl_inv | apply State.writePromise_inv | apply State.writeShaperCfg_inv | apply State.writeShaperCtrl_inv | apply State.writeTargetState_inv | apply State.writeTtCtrl_inv | apply State.writeTtData_inv | apply ite_inv)
    | split

theorem State.writeOctet_inv (n o : Nat) (v : Word) (dflt : State → State) (s : State) (h_s : Keeps pmk z s) (hdflt : ∀ (x0 : State), Keeps pmk z x0 → Keeps pmk z (dflt x0)) (hu : Cov pmk 115 := by exact cov_sub (by assumption) rfl) :
    Keeps pmk z (State.writeOctet n o v dflt s) := by
  unfold State.writeOctet
  repeat' first
    | (with_reducible first | assumption | exact cov_sub hu rfl | apply hdflt | apply State.octetApply_inv | apply State.setRf_inv | apply ite_inv)
    | split

theorem State.writeSwcore_inv (d o : Nat) (v : Word) (dflt : State → State) (s : State) (h_s : Keeps pmk z s) (hdflt : ∀ (x0 : State), Keeps pmk z x0 → Keeps pmk z (dflt x0)) (hu : Cov pmk 83904747 := by exact cov_sub (by assumption) rfl) :
    Keeps pmk z (State.writeSwcore d o v dflt s) := by
  unfold State.writeSwcore
  repeat' first
    | (refine fun _ => ?_)
    | (with_reducible first | assumption | exact cov_sub hu rfl | apply hdflt | apply State.allocRefused_inv | apply State.onlyIf_inv | apply State.tryWrite_inv | apply ite_inv)
    | split

/-! ### RegUnit -/

theorem State.writeTtu_inv (o : Nat) (v : Word) (dflt : State → State) (s : State) (h_s : Keeps pmk z s) (hdflt : ∀ (x0 : State), Keeps pmk z x0 → Keeps pmk z (dflt x0)) (hu : Cov pmk 8 := by exact cov_sub (by assumption) rfl) :
    Keeps pmk z (State.writeTtu o v dflt s) := by
  unfold State.writeTtu
  repeat' first
    | (refine fun _ => ?_)
    | (with_reducible first | assumption | apply hdflt | apply State.onlyIf_inv | apply ite_inv)

theorem State.extGo_inv (op : Nat) (s : State) (h_s : Keeps pmk z s)  (hu : Cov pmk 50348419 := by exact cov_sub (by assumption) rfl) :
    Keeps pmk z (State.extGo op s) := by
  unfold State.extGo
  repeat' first
    | (with_reducible first | assumption | exact cov_sub hu rfl | apply State.extCreate_inv | apply State.extDone_inv | apply State.extFence_inv | apply State.extReclaim_inv | apply State.leaseGrant_inv | apply State.leaseRelease_inv | apply State.leaseRenew_inv | apply State.snapClose_inv | apply State.snapCreate_inv | apply State.snapDestroy_inv | apply State.snapOpen_inv | apply State.takeFree_inv | apply State.viewAttach_inv | apply State.viewDetach_inv)
    | split

theorem State.writeExt_inv (o : Nat) (v : Word) (dflt : State → State) (s : State) (h_s : Keeps pmk z s) (hdflt : ∀ (x0 : State), Keeps pmk z x0 → Keeps pmk z (dflt x0)) (hu : Cov pmk 50348427 := by exact cov_sub (by assumption) rfl) :
    Keeps pmk z (State.writeExt o v dflt s) := by
  unfold State.writeExt
  repeat' first
    | (refine fun _ => ?_)
    | (with_reducible first | assumption | exact cov_sub hu rfl | apply hdflt | apply State.extGo_inv | apply State.onlyIf_inv | apply ite_inv)
    | split

theorem State.writeCarv_inv (src : Source) (d o : Nat) (v : Word) (dflt : State → State) (s : State) (h_s : Keeps pmk z s) (hdflt : ∀ (x0 : State), Keeps pmk z x0 → Keeps pmk z (dflt x0)) (hu : Cov pmk 118246635 := by exact cov_sub (by assumption) rfl) :
    Keeps pmk z (State.writeCarv src d o v dflt s) := by
  unfold State.writeCarv
  repeat' first
    | (refine fun _ => ?_)
    | (with_reducible first | assumption | exact cov_sub hu rfl | apply hdflt | apply State.carvDone_inv | apply State.legClose_inv | apply State.legOpen_inv | apply State.onlyIf_inv | apply State.pairIf_inv | apply State.soArmCmd_inv | apply State.soCancelCmd_inv | apply State.wqDisable_inv | apply State.wqEnable_inv | apply State.wqPostCmd_inv | apply ite_inv)
    | ((try lift_lets); intro x; generalize x = y; clear x)
    | split

theorem State.writeSheaf_inv (src : Source) (d o : Nat) (v : Word) (dflt : State → State) (s : State) (h_s : Keeps pmk z s) (hdflt : ∀ (x0 : State), Keeps pmk z x0 → Keeps pmk z (dflt x0)) (hu : Cov pmk 89147627 := by exact cov_sub (by assumption) rfl) :
    Keeps pmk z (State.writeSheaf src d o v dflt s) := by
  unfold State.writeSheaf
  repeat' first
    | (refine fun _ => ?_)
    | (with_reducible first | assumption | exact cov_sub hu rfl | apply hdflt | apply State.shAbortCmd_inv | apply State.shCmd_inv | apply State.shDisable_inv | apply State.shDone_inv | apply State.shEnable_inv | apply State.shReset_inv | apply ite_inv)
    | split

theorem State.writeExd_inv (o : Nat) (v : Word) (dflt : State → State) (s : State) (h_s : Keeps pmk z s) (hdflt : ∀ (x0 : State), Keeps pmk z x0 → Keeps pmk z (dflt x0)) (hu : Cov pmk 26230915 := by exact cov_sub (by assumption) rfl) :
    Keeps pmk z (State.writeExd o v dflt s) := by
  unfold State.writeExd
  repeat' first
    | (with_reducible first | assumption | exact cov_sub hu rfl | apply hdflt | apply State.exdDisable_inv | apply State.exdDone_inv | apply State.exdEnable_inv | apply State.expertSync_inv | apply ite_inv)
    | split

theorem State.writeDom_inv (k o : Nat) (v : Word) (dflt : State → State) (s : State) (h_s : Keeps pmk z s) (hdflt : ∀ (x0 : State), Keeps pmk z x0 → Keeps pmk z (dflt x0)) (hu : Cov pmk 67240073 := by exact cov_sub (by assumption) rfl) :
    Keeps pmk z (State.writeDom k o v dflt s) := by
  unfold State.writeDom
  repeat' first
    | (refine fun _ => ?_)
    | (with_reducible first | assumption | exact cov_sub hu rfl | apply hdflt | apply State.domEnable_inv | apply State.domFlush_inv | apply State.domReject_inv | apply State.domReset_inv | apply State.onlyIf_inv | apply State.refuse_inv | apply ite_inv)
    | split

theorem State.writeTile_inv (src : Source) (t o : Nat) (v : Word) (dflt : State → State) (s : State) (h_s : Keeps pmk z s) (hdflt : ∀ (x0 : State), Keeps pmk z x0 → Keeps pmk z (dflt x0)) (hu : Cov pmk 85216491 := by exact cov_sub (by assumption) rfl) :
    Keeps pmk z (State.writeTile src t o v dflt s) := by
  unfold State.writeTile
  repeat' first
    | (refine fun _ => ?_)
    | (with_reducible first | assumption | exact cov_sub hu rfl | apply hdflt | apply State.hlAssign_inv | apply State.hlDone_inv | apply State.hlRelease_inv | apply State.hostSubmit_inv | apply State.kept_inv | apply State.onlyIf_inv | apply State.writeTileCtrl_inv | apply ite_inv)
    | split

theorem State.writeKvpool_inv (p o : Nat) (v : Word) (dflt : State → State) (s : State) (h_s : Keeps pmk z s) (hdflt : ∀ (x0 : State), Keeps pmk z x0 → Keeps pmk z (dflt x0)) (hu : Cov pmk 2097289 := by exact cov_sub (by assumption) rfl) :
    Keeps pmk z (State.writeKvpool p o v dflt s) := by
  unfold State.writeKvpool
  repeat' first
    | (with_reducible first | assumption | exact cov_sub hu rfl | apply hdflt | apply State.poolDisable_inv | apply State.poolEnable_inv | apply State.poolReject_inv | apply State.poolReset_inv | apply State.refuse_inv | apply ite_inv)
    | split

theorem State.writeKvseq_inv (src : Source) (o : Nat) (v : Word) (dflt : State → State) (s : State) (h_s : Keeps pmk z s) (hdflt : ∀ (x0 : State), Keeps pmk z x0 → Keeps pmk z (dflt x0)) (hu : Cov pmk 87048331 := by exact cov_sub (by assumption) rfl) :
    Keeps pmk z (State.writeKvseq src o v dflt s) := by
  unfold State.writeKvseq
  repeat' first
    | (refine fun _ => ?_)
    | (with_reducible first | assumption | exact cov_sub hu rfl | apply hdflt | apply State.pairIf_inv | apply State.seqCreate_inv | apply State.seqDestroy_inv | apply State.seqDone_inv | apply State.seqPreempt_inv | apply State.seqResume_inv | apply ite_inv)
    | ((try lift_lets); intro x; generalize x = y; clear x)
    | split

theorem State.writeTier_inv (o : Nat) (v : Word) (dflt : State → State) (s : State) (h_s : Keeps pmk z s) (hdflt : ∀ (x0 : State), Keeps pmk z x0 → Keeps pmk z (dflt x0)) (hu : Cov pmk 117460715 := by exact cov_sub (by assumption) rfl) :
    Keeps pmk z (State.writeTier o v dflt s) := by
  unfold State.writeTier
  repeat' first
    | (refine fun _ => ?_)
    | (with_reducible first | assumption | exact cov_sub hu rfl | apply hdflt | apply State.kept_inv | apply State.onlyIf_inv | apply State.tierGo_inv | apply State.writeTierCtrl_inv | apply ite_inv)
    | split

theorem State.granFormatOpen_inv (s : State) (h_s : Keeps pmk z s)  (hu : Cov pmk 33555073 := by exact cov_sub (by assumption) rfl) :
    Keeps pmk z (State.granFormatOpen s) := by
  unfold State.granFormatOpen
  repeat' first
    | (with_reducible first | assumption | exact cov_sub hu rfl | apply State.granFormat_inv | apply State.takeFrees_inv)

theorem State.writeGran_inv (o : Nat) (v : Word) (dflt : State → State) (s : State) (h_s : Keeps pmk z s) (hdflt : ∀ (x0 : State), Keeps pmk z x0 → Keeps pmk z (dflt x0)) (hu : Cov pmk 50397833 := by exact cov_sub (by assumption) rfl) :
    Keeps pmk z (State.writeGran o v dflt s) := by
  unfold State.writeGran
  repeat' first
    | (refine fun _ => ?_)
    | (with_reducible first | assumption | exact cov_sub hu rfl | apply hdflt | apply State.granDisable_inv | apply State.granEnable_inv | apply State.granFormatOpen_inv | apply State.kept_inv | apply State.refuse_inv | apply ite_inv)

theorem State.writeJob_inv (j o : Nat) (v : Word) (dflt : State → State) (s : State) (h_s : Keeps pmk z s) (hdflt : ∀ (x0 : State), Keeps pmk z x0 → Keeps pmk z (dflt x0)) (hu : Cov pmk 134106347 := by exact cov_sub (by assumption) rfl) :
    Keeps pmk z (State.writeJob j o v dflt s) := by
  unfold State.writeJob
  repeat' first
    | (refine fun _ => ?_)
    | (with_reducible first | assumption | exact cov_sub hu rfl | apply hdflt | apply State.jobActivate_inv | apply State.jobRelease_inv | apply State.jobStop_inv | apply State.onlyIf_inv | apply State.raise_inv | apply State.refuse_inv | apply State.writeInval_inv | apply ite_inv)
    | ((try lift_lets); intro x; have hx : Keeps pmk z x := ?_; revert hx; generalize x = y; clear x; intro hx; rotate_left; (dsimp -zeta only [x]))
    | split

/-! ### RegWrite -/

theorem State.pageWrite_inv (src : Source) (k : PageKind) (i o a : Nat) (v : Word) (s : State) (h_s : Keeps pmk z s)  (hu : Cov pmk 134217727 := by exact cov_sub (by assumption) rfl) :
    Keeps pmk z (State.pageWrite src k i o a v s) := by
  unfold State.pageWrite
  repeat' first
    | (refine fun _ => ?_)
    | (with_reducible first | assumption | exact cov_sub hu rfl | apply State.bwinCmd_inv | apply State.onlyIf_inv | apply State.storeReg_inv | apply State.writeCarv_inv | apply State.writeChain_inv | apply State.writeDom_inv | apply State.writeExd_inv | apply State.writeExt_inv | apply State.writeFault_inv | apply State.writeFuse_inv | apply State.writeGran_inv | apply State.writeJob_inv | apply State.writeKvpool_inv | apply State.writeKvseq_inv | apply State.writeObs_inv | apply State.writeOctet_inv | apply State.writePort_inv | apply State.writePwr_inv | apply State.writeSec_inv | apply State.writeSheaf_inv | apply State.writeSwcore_inv | apply State.writeTier_inv | apply State.writeTile_inv | apply State.writeTime_inv | apply State.writeTtu_inv | apply ite_inv)
    | (with_reducible apply_assumption -exfalso -symm)
    | ((try lift_lets); intro x; have hx : ∀ (s : State), Keeps pmk z s → Keeps pmk z (x s) := ?_; revert hx; generalize x = y; clear x; intro hx; rotate_left; (dsimp -zeta only [x]))
    | split

theorem State.writePage_inv (src : Source) (a : Nat) (v : Word) (s : State) (h_s : Keeps pmk z s)  (hu : Cov pmk 134217727 := by exact cov_sub (by assumption) rfl) :
    Keeps pmk z (State.writePage src a v s) := by
  unfold State.writePage
  repeat' first
    | (refine fun _ => ?_)
    | (with_reducible first | assumption | exact cov_sub hu rfl | apply State.guarded_inv | apply State.pageWrite_inv | apply State.unmapped_inv | (rename_i heq; exact opt_of_eq heq (State.writeHead_inv _ _ _ _ _ (by assumption))))
    | split

theorem State.writeCtr_inv (src : Source) (a : Nat) (v : Word) (s : State) (h_s : Keeps pmk z s)  (hu : Cov pmk 84166891 := by exact cov_sub (by assumption) rfl) :
    Keeps pmk z (State.writeCtr src a v s) := by
  unfold State.writeCtr
  repeat' first
    | (with_reducible first | assumption | exact cov_sub hu rfl | apply State.ctrAdd_inv | apply State.ctrCfg_inv | apply State.ctrThresh_inv | apply State.ctrValue_inv | apply State.stageLo_inv | apply ite_inv)
    | split

theorem State.commitEntry_inv (w : Win) (n b size v : Nat) (s : State) (h_s : Keeps pmk z s)  (hu : Cov pmk 117591279 := by exact cov_sub (by assumption) rfl) :
    Keeps pmk z (State.commitEntry w n b size v s) := by
  unfold State.commitEntry
  repeat' first
    | (refine fun _ => ?_)
    | (with_reducible first | assumption | exact cov_sub hu rfl | apply State.onlyIf_inv | apply State.setEntry_inv | apply State.writeAgent_inv)
    | (with_reducible apply_assumption -exfalso -symm)
    | ((try lift_lets); intro x; have hx : ∀ a (s : State), Keeps pmk z s → Keeps pmk z (x a s) := ?_; revert hx; generalize x = y; clear x; intro hx; rotate_left; (dsimp -zeta only [x]))
    | ((try lift_lets); intro x; generalize x = y; clear x)
    | split

theorem State.setStage_inv (src : Source) (x : Option (Nat × List (Nat × Word))) (s : State) (h : Keeps pmk z s) (hu : Cov pmk 8 := by exact cov_sub (by assumption) rfl) :
    Keeps pmk z (State.setStage src x s) := by
  unfold State.setStage
  obtain ⟨h1, h2, h3, h4, h5, h6, h7, h8⟩ := (hub_wf_iff _).1 h.inv.2
  have g := wf_set _ (srcNo src) x h7
  exact modHub_inv h 8 ((hub_wf_iff _).2 ⟨h1, h2, h3, h4, h5, h6, g, h8⟩) (hub_frame (.inr rfl) (.inr rfl) (.inr ⟨rfl, rfl⟩) (.inl rfl))

theorem State.writeEntry_inv (src : Source) (w : Win) (n b size a : Nat) (v : Word) (s : State) (h_s : Keeps pmk z s)  (hu : Cov pmk 117591279 := by exact cov_sub (by assumption) rfl) :
    Keeps pmk z (State.writeEntry src w n b size a v s) := by
  unfold State.writeEntry
  repeat' first
    | (with_reducible first | assumption | exact cov_sub hu rfl | apply State.commitEntry_inv | apply State.setStage_inv | apply ite_inv)

theorem State.writeWin_inv (src : Source) (a : Nat) (v : Word) (s : State) (h_s : Keeps pmk z s)  (hu : Cov pmk 117591279 := by exact cov_sub (by assumption) rfl) :
    Keeps pmk z (State.writeWin src a v s) := by
  unfold State.writeWin
  repeat' first
    | (with_reducible first | assumption | exact cov_sub hu rfl | apply State.unmapped_inv | apply State.writeEntry_inv | apply ite_inv)
    | split

theorem State.writeSpace_inv (src : Source) (a : Nat) (v : Word) (s : State) (h_s : Keeps pmk z s)  (hu : Cov pmk 134217727 := by exact cov_sub (by assumption) rfl) :
    Keeps pmk z (State.writeSpace src a v s) := by
  unfold State.writeSpace
  repeat' first
    | (with_reducible first | assumption | exact cov_sub hu rfl | apply State.writeCtr_inv | apply State.writeMsix_inv | apply State.writePage_inv | apply State.writeWin_inv | apply ite_inv)

theorem State.writeVfPage_inv (f o : Nat) (v : Word) (s : State) (h_s : Keeps pmk z s)  (hu : Cov pmk 85216491 := by exact cov_sub (by assumption) rfl) :
    Keeps pmk z (State.writeVfPage f o v s) := by
  unfold State.writeVfPage
  repeat' first
    | (with_reducible first | assumption | exact cov_sub hu rfl | apply State.setRg_inv | apply State.storeReg_inv | apply State.unstage_inv | apply State.vfCtrAdd_inv | apply State.vfSubmit_inv | apply ite_inv | (rename_i heq; exact opt_of_eq heq (State.writeHead_inv _ _ _ _ _ (by assumption))))
    | ((try lift_lets); intro x; generalize x = y; clear x)
    | split

theorem State.writeVf_inv (f o : Nat) (t : Bool) (v : Word) (s : State) (h_s : Keeps pmk z s)  (hu : Cov pmk 85216491 := by exact cov_sub (by assumption) rfl) :
    Keeps pmk z (State.writeVf f o t v s) := by
  unfold State.writeVf
  repeat' first
    | (refine fun _ => ?_)
    | (with_reducible first | assumption | exact cov_sub hu rfl | apply State.vfAccess_inv | apply State.writeMsix_inv | apply State.writeVfPage_inv | apply ite_inv)

theorem State.writeDword_inv (src : Source) (t : Bool) (a : Nat) (v : Word) (s : State) (h_s : Keeps pmk z s)  (hu : Cov pmk 134217727 := by exact cov_sub (by assumption) rfl) :
    Keeps pmk z (State.writeDword src t a v s) := by
  unfold State.writeDword
  repeat' first
    | (with_reducible first | assumption | exact cov_sub hu rfl | apply State.unmapped_inv | apply State.writeSpace_inv | apply State.writeVf_inv | apply ite_inv)

theorem State.writeDwords_inv (src : Source) (t : Bool) (a : Nat) (l : List Word) : ∀ (s : State), Keeps pmk z s →
    (hu : Cov pmk 134217727 := by exact cov_sub (by assumption) rfl) → Keeps pmk z (State.writeDwords src t a l s) := by
  induction l generalizing a with
  | nil => exact fun _ h _ => h
  | cons w l ih => exact fun s h hu => ih (a + 4) _ (State.writeDword_inv _ _ _ _ _ h) hu

theorem State.mmioBad_inv (s : State) (h_s : Keeps pmk z s)  (hu : Cov pmk 83904739 := by exact cov_sub (by assumption) rfl) :
    Keeps pmk z (State.mmioBad s) := by
  unfold State.mmioBad
  repeat' first
    | (with_reducible first | assumption | exact cov_sub hu rfl | apply State.bump_inv | apply State.raise_inv | apply ite_inv)

theorem execRegWrite_inv (src : Source) (t : Bool) (addr : Nat) (data : List Byte) (s : State) (h_s : Keeps pmk z s)  (hu : Cov pmk 134217727 := by exact cov_sub (by assumption) rfl) :
    Safe pmk z (execRegWrite src t addr data s) := by
  unfold execRegWrite
  show Keeps pmk z _
  repeat' first
    | (with_reducible first | assumption | exact cov_sub hu rfl | apply State.mmioBad_inv | apply State.writeDwords_inv | apply ite_inv)

theorem execTableWindowWrite_inv (src : Source) (addr : Nat) (val : Word) (s : State) (h_s : Keeps pmk z s)  (hu : Cov pmk 134217727 := by exact cov_sub (by assumption) rfl) :
    Safe pmk z (execTableWindowWrite src addr val s) := by
  unfold execTableWindowWrite
  show Keeps pmk z _
  repeat' first
    | (with_reducible first | assumption | apply State.writeDword_inv | apply ite_inv)

theorem execLockWrite_inv (src : Source) (addr : Nat) (val : Word) (s : State) (h_s : Keeps pmk z s)  (hu : Cov pmk 134217727 := by exact cov_sub (by assumption) rfl) :
    Safe pmk z (execLockWrite src addr val s) := by
  unfold execLockWrite
  show Keeps pmk z _
  repeat' first
    | (with_reducible first | assumption | apply State.writeDword_inv | apply ite_inv)

theorem execErrClear_inv (src : Source) (addr : Nat) (val : Word) (s : State) (h_s : Keeps pmk z s)  (hu : Cov pmk 134217727 := by exact cov_sub (by assumption) rfl) :
    Safe pmk z (execErrClear src addr val s) := by
  unfold execErrClear
  show Keeps pmk z _
  repeat' first
    | (with_reducible first | assumption | apply State.writeDword_inv | apply ite_inv)

/-! ### Chain -/

theorem execChainEnable_inv (src : Source) (s : State) (h_s : Keeps pmk z s)  (hu : Cov pmk 16809995 := by exact cov_sub (by assumption) rfl) :
    Safe pmk z (execChainEnable src s) := by
  unfold execChainEnable
  show Keeps pmk z _
  repeat' first
    | (refine fun _ => ?_)
    | (with_reducible first | assumption | exact cov_sub hu rfl | apply State.chainCtrl_inv | apply State.guarded_inv)

theorem execChainDisable_inv (src : Source) (s : State) (h_s : Keeps pmk z s)  (hu : Cov pmk 16809995 := by exact cov_sub (by assumption) rfl) :
    Safe pmk z (execChainDisable src s) := by
  unfold execChainDisable
  show Keeps pmk z _
  repeat' first
    | (refine fun _ => ?_)
    | (with_reducible first | assumption | exact cov_sub hu rfl | apply State.chainCtrl_inv | apply State.guarded_inv)

theorem execChainRestart_inv (src : Source) (s : State) (h_s : Keeps pmk z s)  (hu : Cov pmk 16809995 := by exact cov_sub (by assumption) rfl) :
    Safe pmk z (execChainRestart src s) := by
  unfold execChainRestart
  show Keeps pmk z _
  repeat' first
    | (refine fun _ => ?_)
    | (with_reducible first | assumption | exact cov_sub hu rfl | apply State.chainRestart_inv | apply State.guarded_inv)

theorem State.claimRx_inv (portB : Bool) (h : Nat) (pl : List Byte) (s : State) (h_s : Keeps pmk z s)  (hu : Cov pmk 83937507 := by exact cov_sub (by assumption) rfl) :
    Keeps pmk z (State.claimRx portB h pl s) := by
  unfold State.claimRx
  repeat' first
    | (with_reducible first | assumption | exact cov_sub hu rfl | apply State.chainBeacon_inv | apply State.chainClaim_inv | apply State.chainCollide_inv | apply State.chainEnum_inv | apply State.chainFwd_inv | apply State.modChain_inv | apply ite_inv)
    | split

theorem execChainClaimRx_inv (portB : Bool) (frame : List Byte) (s : State) (h_s : Keeps pmk z s)  (hu : Cov pmk 83937507 := by exact cov_sub (by assumption) rfl) :
    Safe pmk z (execChainClaimRx portB frame s) := by
  unfold execChainClaimRx
  show Keeps pmk z _
  repeat' first
    | (refine fun _ => ?_)
    | (with_reducible first | assumption | exact cov_sub hu rfl | apply State.chainRx_inv | apply State.claimRx_inv)

theorem State.chBeaconRx_inv (portB : Bool) (h : Nat) (pl : List Byte) (s : State) (h_s : Keeps pmk z s)  (hu : Cov pmk 83937507 := by exact cov_sub (by assumption) rfl) :
    Keeps pmk z (State.chBeaconRx portB h pl s) := by
  unfold State.chBeaconRx
  repeat' first
    | (refine fun _ => ?_)
    | (with_reducible first | assumption | exact cov_sub hu rfl | apply State.chainCollide_inv | apply State.chainEventOn_inv | apply State.chainFwd_inv | apply State.chainLeave_inv | apply State.modChain_inv | apply ite_inv)
    | (with_reducible apply_assumption -exfalso -symm)
    | ((try lift_lets); intro x; have hx : Keeps pmk z x := ?_; revert hx; generalize x = y; clear x; intro hx; rotate_left; (dsimp -zeta only [x]))
    | ((try lift_lets); intro x; have hx : ∀ (s : State), Keeps pmk z s → Keeps pmk z (x s) := ?_; revert hx; generalize x = y; clear x; intro hx; rotate_left; (dsimp -zeta only [x]))
    | split

theorem execChainBeaconRx_inv (portB : Bool) (frame : List Byte) (s : State) (h_s : Keeps pmk z s)  (hu : Cov pmk 83937507 := by exact cov_sub (by assumption) rfl) :
    Safe pmk z (execChainBeaconRx portB frame s) := by
  unfold execChainBeaconRx
  show Keeps pmk z _
  repeat' first
    | (refine fun _ => ?_)
    | (with_reducible first | assumption | exact cov_sub hu rfl | apply State.chBeaconRx_inv | apply State.chainRx_inv)

theorem State.takePos_inv (portB : Bool) (h : Nat) (s : State) (h_s : Keeps pmk z s)  (hu : Cov pmk 16809987 := by exact cov_sub (by assumption) rfl) :
    Keeps pmk z (State.takePos portB h s) := by
  unfold State.takePos
  repeat' first
    | (refine fun _ => ?_)
    | (with_reducible first | assumption | exact cov_sub hu rfl | apply State.chainEnumEnd_inv | apply State.chainEvent_inv | apply State.chainFwd_inv | apply State.modChain_inv | apply State.setRg64_inv | apply foldl_inv | apply ite_inv)

theorem State.enumRx_inv (portB : Bool) (h : Nat) (s : State) (h_s : Keeps pmk z s)  (hu : Cov pmk 83937507 := by exact cov_sub (by assumption) rfl) :
    Keeps pmk z (State.enumRx portB h s) := by
  unfold State.enumRx
  repeat' first
    | (with_reducible first | assumption | exact cov_sub hu rfl | apply State.chainCollide_inv | apply State.chainLead_inv | apply State.takePos_inv | apply ite_inv)

theorem execChainEnumRx_inv (portB : Bool) (frame : List Byte) (s : State) (h_s : Keeps pmk z s)  (hu : Cov pmk 83937507 := by exact cov_sub (by assumption) rfl) :
    Safe pmk z (execChainEnumRx portB frame s) := by
  unfold execChainEnumRx
  show Keeps pmk z _
  repeat' first
    | (refine fun _ => ?_)
    | (with_reducible first | assumption | exact cov_sub hu rfl | apply State.chainRx_inv | apply State.enumRx_inv)

theorem State.enumEndRx_inv (portB : Bool) (h : Nat) (pl : List Byte) (s : State) (h_s : Keeps pmk z s)  (hu : Cov pmk 83937507 := by exact cov_sub (by assumption) rfl) :
    Keeps pmk z (State.enumEndRx portB h pl s) := by
  unfold State.enumEndRx
  repeat' first
    | (with_reducible first | assumption | exact cov_sub hu rfl | apply State.chainFwd_inv | apply State.chainLead_inv | apply State.chainSideA_inv | apply State.raise_inv | apply ite_inv)
    | split

theorem execChainEnumEndRx_inv (portB : Bool) (frame : List Byte) (s : State) (h_s : Keeps pmk z s)  (hu : Cov pmk 83937507 := by exact cov_sub (by assumption) rfl) :
    Safe pmk z (execChainEnumEndRx portB frame s) := by
  unfold execChainEnumEndRx
  show Keeps pmk z _
  repeat' first
    | (refine fun _ => ?_)
    | (with_reducible first | assumption | exact cov_sub hu rfl | apply State.chainRx_inv | apply State.enumEndRx_inv)

theorem State.chainReply_inv (portB ring : Bool) (h ty st : Nat) (data : List Word) (s : State) (h_s : Keeps pmk z s)  (hu : Cov pmk 16777216 := by exact cov_sub (by assumption) rfl) :
    Keeps pmk z (State.chainReply portB ring h ty st data s) := by
  unfold State.chainReply
  repeat' first
    | (with_reducible first | assumption | apply State.chainSend_inv)

theorem State.chainRead_inv (a n : Nat) : ∀ (s : State), Keeps pmk z s →
    (hu : Cov pmk 33882121 := by exact cov_sub (by assumption) rfl) → Keeps pmk z (State.chainRead a n s).2 := by
  induction n generalizing a with
  | zero => exact fun _ h _ => h
  | succ n ih =>
    intro s h hu
    unfold State.chainRead
    exact ih _ _ (State.readDword_inv _ _ _ _ h) hu

theorem State.chReadRx_inv (portB ring : Bool) (h : Nat) (pl : List Byte) (s : State) (h_s : Keeps pmk z s)  (hu : Cov pmk 50659339 := by exact cov_sub (by assumption) rfl) :
    Keeps pmk z (State.chReadRx portB ring h pl s) := by
  unfold State.chReadRx
  repeat' first
    | (with_reducible first | assumption | exact cov_sub hu rfl | apply State.chainFwd_inv | apply State.chainRead_inv | apply State.chainReply_inv | apply ite_inv)

theorem execChainReadRx_inv (portB ring : Bool) (frame : List Byte) (s : State) (h_s : Keeps pmk z s)  (hu : Cov pmk 50659339 := by exact cov_sub (by assumption) rfl) :
    Safe pmk z (execChainReadRx portB ring frame s) := by
  unfold execChainReadRx
  show Keeps pmk z _
  repeat' first
    | (refine fun _ => ?_)
    | (with_reducible first | assumption | exact cov_sub hu rfl | apply State.chReadRx_inv | apply State.chainRx_inv)

theorem State.chWriteRx_inv (portB ring : Bool) (h : Nat) (pl : List Byte) (s : State) (h_s : Keeps pmk z s)  (hu : Cov pmk 134217727 := by exact cov_sub (by assumption) rfl) :
    Keeps pmk z (State.chWriteRx portB ring h pl s) := by
  unfold State.chWriteRx
  repeat' first
    | (with_reducible first | assumption | exact cov_sub hu rfl | apply State.chainFwd_inv | apply State.chainReply_inv | apply State.mmioBad_inv | apply State.writeDwords_inv | apply ite_inv)

theorem execChainWriteRx_inv (portB ring : Bool) (frame : List Byte) (s : State) (h_s : Keeps pmk z s)  (hu : Cov pmk 134217727 := by exact cov_sub (by assumption) rfl) :
    Safe pmk z (execChainWriteRx portB ring frame s) := by
  unfold execChainWriteRx
  show Keeps pmk z _
  repeat' first
    | (refine fun _ => ?_)
    | (with_reducible first | assumption | exact cov_sub hu rfl | apply State.chWriteRx_inv | apply State.chainRx_inv)

theorem State.chainFree_inv (tag : Nat) (s : State) (h_s : Keeps pmk z s)  (hu : Cov pmk 16809986 := by exact cov_sub (by assumption) rfl) :
    Keeps pmk z (State.chainFree tag s) := by
  unfold State.chainFree
  repeat' first
    | (with_reducible first | assumption | exact cov_sub hu rfl | apply State.chainPump_inv | apply State.modChain_inv)

theorem State.chainOnes_inv (a : ChainAcc) (s : State) (h_s : Keeps pmk z s)  (hu : Cov pmk 16777216 := by exact cov_sub (by assumption) rfl) :
    Keeps pmk z (State.chainOnes a s) := by
  unfold State.chainOnes
  repeat' first
    | (with_reducible first | assumption | apply State.emit_inv | apply ite_inv)

theorem State.chReadRsp_inv (portB : Bool) (h : Nat) (pl : List Byte) (s : State) (h_s : Keeps pmk z s)  (hu : Cov pmk 83937507 := by exact cov_sub (by assumption) rfl) :
    Keeps pmk z (State.chReadRsp portB h pl s) := by
  unfold State.chReadRsp
  repeat' first
    | (with_reducible first | assumption | exact cov_sub hu rfl | apply State.chainFree_inv | apply State.chainFwd_inv | apply State.chainOnes_inv | apply State.chainSerial_inv | apply State.emit_inv | apply ite_inv)
    | ((try lift_lets); intro x; generalize x = y; clear x)
    | split

theorem execChainReadRspRx_inv (portB : Bool) (frame : List Byte) (s : State) (h_s : Keeps pmk z s)  (hu : Cov pmk 83937507 := by exact cov_sub (by assumption) rfl) :
    Safe pmk z (execChainReadRspRx portB frame s) := by
  unfold execChainReadRspRx
  show Keeps pmk z _
  repeat' first
    | (refine fun _ => ?_)
    | (with_reducible first | assumption | exact cov_sub hu rfl | apply State.chReadRsp_inv | apply State.chainRx_inv)

theorem State.chWriteRsp_inv (portB : Bool) (h : Nat) (pl : List Byte) (s : State) (h_s : Keeps pmk z s)  (hu : Cov pmk 83937507 := by exact cov_sub (by assumption) rfl) :
    Keeps pmk z (State.chWriteRsp portB h pl s) := by
  unfold State.chWriteRsp
  repeat' first
    | (with_reducible first | assumption | exact cov_sub hu rfl | apply State.chainFree_inv | apply State.chainFwd_inv | apply State.raise_inv | apply ite_inv)
    | ((try lift_lets); intro x; have hx : Keeps pmk z x := ?_; revert hx; generalize x = y; clear x; intro hx; rotate_left; (dsimp -zeta only [x]))
    | split

theorem execChainWriteRspRx_inv (portB : Bool) (frame : List Byte) (s : State) (h_s : Keeps pmk z s)  (hu : Cov pmk 83937507 := by exact cov_sub (by assumption) rfl) :
    Safe pmk z (execChainWriteRspRx portB frame s) := by
  unfold execChainWriteRspRx
  show Keeps pmk z _
  repeat' first
    | (refine fun _ => ?_)
    | (with_reducible first | assumption | exact cov_sub hu rfl | apply State.chWriteRsp_inv | apply State.chainRx_inv)

theorem State.eventRx_inv (portB : Bool) (h : Nat) (pl : List Byte) (s : State) (h_s : Keeps pmk z s)  (hu : Cov pmk 83937507 := by exact cov_sub (by assumption) rfl) :
    Keeps pmk z (State.eventRx portB h pl s) := by
  unfold State.eventRx
  repeat' first
    | (with_reducible first | assumption | exact cov_sub hu rfl | apply State.chainBreak_inv | apply State.chainFwd_inv | apply State.msix_inv | apply ite_inv)
    | split

theorem execChainEventRx_inv (portB : Bool) (frame : List Byte) (s : State) (h_s : Keeps pmk z s)  (hu : Cov pmk 83937507 := by exact cov_sub (by assumption) rfl) :
    Safe pmk z (execChainEventRx portB frame s) := by
  unfold execChainEventRx
  show Keeps pmk z _
  repeat' first
    | (refine fun _ => ?_)
    | (with_reducible first | assumption | exact cov_sub hu rfl | apply State.chainRx_inv | apply State.eventRx_inv)

theorem execChainWindowRead_inv (off count : Nat) (s : State) (h_s : Keeps pmk z s)  (hu : Cov pmk 50692107 := by exact cov_sub (by assumption) rfl) :
    Safe pmk z (execChainWindowRead off count s) := by
  unfold execChainWindowRead
  show Keeps pmk z _
  repeat' first
    | (refine fun _ => ?_)
    | (with_reducible first | assumption | exact cov_sub hu rfl | apply State.chainAccess_inv | apply State.emit_inv | apply State.readDwords_inv | apply foldl_inv | apply ite_inv)

theorem execChainWindowWrite_inv (off : Nat) (data : List Byte) (s : State) (h_s : Keeps pmk z s)  (hu : Cov pmk 134217727 := by exact cov_sub (by assumption) rfl) :
    Safe pmk z (execChainWindowWrite off data s) := by
  unfold execChainWindowWrite
  show Keeps pmk z _
  repeat' first
    | (refine fun _ => ?_)
    | (with_reducible first | assumption | exact cov_sub hu rfl | apply State.chainAccess_inv | apply State.mmioBad_inv | apply State.writeDwords_inv | apply foldl_inv | apply ite_inv)

theorem execChainRspTimeout_inv (tag : Nat) (s : State) (h_s : Keeps pmk z s)  (hu : Cov pmk 83937507 := by exact cov_sub (by assumption) rfl) :
    Safe pmk z (execChainRspTimeout tag s) := by
  unfold execChainRspTimeout
  show Keeps pmk z _
  repeat' first
    | (with_reducible first | assumption | exact cov_sub hu rfl | apply State.bump_inv | apply State.chainFree_inv | apply State.chainOnes_inv | apply State.raise_inv | apply ite_inv)
    | ((try lift_lets); intro x; have hx : Keeps pmk z x := ?_; revert hx; generalize x = y; clear x; intro hx; rotate_left; (dsimp -zeta only [x]))
    | split

theorem execChainListenTimer_inv (s : State) (h_s : Keeps pmk z s)  (hu : Cov pmk 16809984 := by exact cov_sub (by assumption) rfl) :
    Safe pmk z (execChainListenTimer s) := by
  unfold execChainListenTimer
  show Keeps pmk z _
  repeat' first
    | (with_reducible first | assumption | exact cov_sub hu rfl | apply State.chainClaim_inv | apply State.modChain_inv | apply ite_inv)

theorem execChainClaimTimer_inv (s : State) (h_s : Keeps pmk z s)  (hu : Cov pmk 83937507 := by exact cov_sub (by assumption) rfl) :
    Safe pmk z (execChainClaimTimer s) := by
  unfold execChainClaimTimer
  show Keeps pmk z _
  repeat' first
    | (with_reducible first | assumption | apply State.chainEnum_inv | apply ite_inv)

theorem execChainBackoffTimer_inv (s : State) (h_s : Keeps pmk z s)  (hu : Cov pmk 16809984 := by exact cov_sub (by assumption) rfl) :
    Safe pmk z (execChainBackoffTimer s) := by
  unfold execChainBackoffTimer
  show Keeps pmk z _
  repeat' first
    | (with_reducible first | assumption | apply State.chainLeave_inv | apply ite_inv)

theorem execChainEnumTimeout_inv (s : State) (h_s : Keeps pmk z s)  (hu : Cov pmk 83937507 := by exact cov_sub (by assumption) rfl) :
    Safe pmk z (execChainEnumTimeout s) := by
  unfold execChainEnumTimeout
  show Keeps pmk z _
  repeat' first
    | (with_reducible first | assumption | exact cov_sub hu rfl | apply State.chainLead_inv | apply State.raise_inv | apply ite_inv)

theorem execChainBeaconSend_inv (s : State) (h_s : Keeps pmk z s)  (hu : Cov pmk 16777216 := by exact cov_sub (by assumption) rfl) :
    Safe pmk z (execChainBeaconSend s) := by
  unfold execChainBeaconSend
  show Keeps pmk z _
  repeat' first
    | (with_reducible first | assumption | apply State.chainBeacon_inv | apply ite_inv)

theorem execChainBeaconLoss_inv (s : State) (h_s : Keeps pmk z s)  (hu : Cov pmk 16809984 := by exact cov_sub (by assumption) rfl) :
    Safe pmk z (execChainBeaconLoss s) := by
  unfold execChainBeaconLoss
  show Keeps pmk z _
  repeat' first
    | (with_reducible first | assumption | apply State.chainLeave_inv | apply ite_inv)

theorem execChainRingBroken_inv (s : State) (h_s : Keeps pmk z s)  (hu : Cov pmk 83937507 := by exact cov_sub (by assumption) rfl) :
    Safe pmk z (execChainRingBroken s) := by
  unfold execChainRingBroken
  show Keeps pmk z _
  repeat' first
    | (with_reducible first | assumption | apply State.chainBreak_inv | apply ite_inv)

theorem execChainHostLoss_inv (s : State) (h_s : Keeps pmk z s)  (hu : Cov pmk 16809984 := by exact cov_sub (by assumption) rfl) :
    Safe pmk z (execChainHostLoss s) := by
  unfold execChainHostLoss
  show Keeps pmk z _
  repeat' first
    | (with_reducible first | assumption | exact cov_sub hu rfl | apply State.chainRestart_inv | apply State.modChain_inv | apply ite_inv)
    | ((try lift_lets); intro x; generalize x = y; clear x)
    | split

theorem State.chainPort_inv (portB up : Bool) (s : State) (h_s : Keeps pmk z s)  (hu : Cov pmk 83937507 := by exact cov_sub (by assumption) rfl) :
    Keeps pmk z (State.chainPort portB up s) := by
  unfold State.chainPort
  repeat' first
    | (with_reducible first | assumption | exact cov_sub hu rfl | apply State.chainBreak_inv | apply State.chainEventOn_inv | apply State.modChain_inv | apply ite_inv)

theorem execChainPortDown_inv (portB : Bool) (s : State) (h_s : Keeps pmk z s)  (hu : Cov pmk 83937507 := by exact cov_sub (by assumption) rfl) :
    Safe pmk z (execChainPortDown portB s) := by
  unfold execChainPortDown
  show Keeps pmk z _
  repeat' first
    | (with_reducible first | assumption | apply State.chainPort_inv)

theorem execChainPortRestore_inv (portB : Bool) (s : State) (h_s : Keeps pmk z s)  (hu : Cov pmk 83937507 := by exact cov_sub (by assumption) rfl) :
    Safe pmk z (execChainPortRestore portB s) := by
  unfold execChainPortRestore
  show Keeps pmk z _
  repeat' first
    | (with_reducible first | assumption | apply State.chainPort_inv)

/-! ### Image -/

theorem State.imageCode_inv (n : Nat) (s : State) (h_s : Keeps pmk z s)  (hu : Cov pmk 1 := by exact cov_sub (by assumption) rfl) :
    Keeps pmk z (State.imageCode n s) := by
  unfold State.imageCode
  repeat' first
    | (with_reducible first | assumption | apply State.setRf_inv)

theorem State.imageBad_inv (n : Nat) (s : State) (h_s : Keeps pmk z s)  (hu : Cov pmk 83904739 := by exact cov_sub (by assumption) rfl) :
    Keeps pmk z (State.imageBad n s) := by
  unfold State.imageBad
  repeat' first
    | (with_reducible first | assumption | exact cov_sub hu rfl | apply State.imageCode_inv | apply State.raise_inv)

theorem State.applyWrites_inv (l : List (Nat × Word)) : ∀ (s : State), Keeps pmk z s →
    (hu : Cov pmk 134217727 := by exact cov_sub (by assumption) rfl) → Keeps pmk z (State.applyWrites l s).2 := by
  induction l with
  | nil => exact fun _ h _ => h
  | cons w l ih =>
    intro s h hu
    unfold State.applyWrites
    have h0 : Keeps pmk z (s.modHub fun h => { h with refused := false }) := modHub_inv h 8 h.inv.2
      (hub_frame (.inr rfl) (.inr rfl) (.inr ⟨rfl, rfl⟩) (.inl rfl))
    have h1 := State.writeDword_inv .loader false w.1 w.2 _ h0
    exact ite_snd_inv h1 (ih _ h1 hu)

theorem State.loadImage_inv (b : List Byte) (fuseOk : Bool) (s : State) (h_s : Keeps pmk z s)  (hu : Cov pmk 134217727 := by exact cov_sub (by assumption) rfl) :
    Keeps pmk z (State.loadImage b fuseOk s) := by
  unfold State.loadImage
  repeat' first
    | (refine fun _ => ?_)
    | (with_reducible first | assumption | exact cov_sub hu rfl | apply State.applyWrites_inv | apply State.imageBad_inv | apply State.imageCode_inv | apply State.modSec_inv | apply State.raiseFatal_inv | apply State.setRg_inv | apply foldl_inv | apply ite_inv)
    | ((try lift_lets); intro x; have hx : Keeps pmk z x := ?_; revert hx; generalize x = y; clear x; intro hx; rotate_left; (dsimp -zeta only [x]))
    | ((try lift_lets); intro x; generalize x = y; clear x)
    | (split <;> first | (rename_i heq; have hi := (congrArg (fun p => Keeps pmk z (Prod.snd (Prod.snd p))) heq).mp ?_; try dsimp only at hi) | (rename_i heq; have hi := (congrArg (fun p => Keeps pmk z (Prod.snd p)) heq).mp ?_; try dsimp only at hi) | (rename_i heq _; have hi := (congrArg (fun p => Keeps pmk z (Prod.snd (Prod.snd p))) heq).mp ?_; try dsimp only at hi) | (rename_i heq _; have hi := (congrArg (fun p => Keeps pmk z (Prod.snd p)) heq).mp ?_; try dsimp only at hi))

theorem State.runLoader_inv (a b : List Byte) (fuseOk : Bool) (s : State) (h_s : Keeps pmk z s)  (hu : Cov pmk 134217727 := by exact cov_sub (by assumption) rfl) :
    Keeps pmk z (State.runLoader a b fuseOk s) := by
  unfold State.runLoader
  repeat' first
    | (with_reducible first | assumption | exact cov_sub hu rfl | apply State.imageBad_inv | apply State.loadImage_inv | apply State.takeFree_inv | apply ite_inv)

theorem execImageLoad_inv (a b : List Byte) (fuseOk : Bool) (s : State) (h_s : Keeps pmk z s)  (hu : Cov pmk 134217727 := by exact cov_sub (by assumption) rfl) :
    Safe pmk z (execImageLoad a b fuseOk s) := by
  unfold execImageLoad
  show Keeps pmk z _
  repeat' first
    | (with_reducible first | assumption | exact cov_sub hu rfl | apply State.modPwr_inv | apply State.runLoader_inv | apply ite_inv)

theorem execGetMeasurements_inv (index : Nat) (s : State) (h_s : Keeps pmk z s)  (hu : Cov pmk 16777216 := by exact cov_sub (by assumption) rfl) :
    Safe pmk z (execGetMeasurements index s) := by
  unfold execGetMeasurements
  show Keeps pmk z _
  repeat' first
    | (refine fun _ => ?_)
    | (with_reducible first | assumption | apply State.emit_inv | apply State.spdmAfter_inv | apply ite_inv)

/-! ### Tick -/

theorem State.tickTime_inv (s : State) (h_s : Keeps pmk z s)  (hu : Cov pmk 16 := by exact cov_sub (by assumption) rfl) :
    Keeps pmk z (State.tickTime s) := by
  unfold State.tickTime
  repeat' first
    | (with_reducible first | assumption | apply State.modTime_inv)

theorem State.earn_inv (p i : Nat) (s : State) (h_s : Keeps pmk z s)  (hu : Cov pmk 66 := by exact cov_sub (by assumption) rfl) :
    Keeps pmk z (State.earn p i s) := by
  unfold State.earn
  repeat' first
    | (with_reducible first | assumption | exact cov_sub hu rfl | apply State.bump_inv | apply State.setShaper_inv | apply ite_inv)

theorem State.earnAll_inv (s : State) (h_s : Keeps pmk z s)  (hu : Cov pmk 66 := by exact cov_sub (by assumption) rfl) :
    Keeps pmk z (State.earnAll s) := by
  unfold State.earnAll
  repeat' first
    | (refine fun _ => ?_)
    | (with_reducible first | assumption | apply State.earn_inv | apply foldl_inv)

theorem State.ppsFall_inv (s : State) (h_s : Keeps pmk z s)  (hu : Cov pmk 16 := by exact cov_sub (by assumption) rfl) :
    Keeps pmk z (State.ppsFall s) := by
  unfold State.ppsFall
  repeat' first
    | (with_reducible first | assumption | apply State.modTime_inv | apply ite_inv)
    | split

theorem State.stallPort_inv (p : Nat) (s : State) (h_s : Keeps pmk z s)  (hu : Cov pmk 2 := by exact cov_sub (by assumption) rfl) :
    Keeps pmk z (State.stallPort p s) := by
  unfold State.stallPort
  repeat' first
    | (refine fun _ => ?_)
    | (with_reducible first | assumption | apply State.bump_inv | apply State.gcount_inv | apply foldl_inv | apply ite_inv)

theorem State.stallAll_inv (s : State) (h_s : Keeps pmk z s)  (hu : Cov pmk 2 := by exact cov_sub (by assumption) rfl) :
    Keeps pmk z (State.stallAll s) := by
  unfold State.stallAll
  repeat' first
    | (refine fun _ => ?_)
    | (with_reducible first | assumption | apply State.stallPort_inv | apply foldl_inv)

theorem State.cellsEvent_inv (id : Nat) (e : Stored) (s : State) (h_s : Keeps pmk z s)  (hu : Cov pmk 2 := by exact cov_sub (by assumption) rfl) :
    Keeps pmk z (State.cellsEvent id e s) := by
  unfold State.cellsEvent
  repeat' first
    | (with_reducible first | assumption | apply State.gcount_inv)

theorem State.tagEvent_inv (n : Nat) (g : Tag) (s : State) (h_s : Keeps pmk z s)  (hu : Cov pmk 2 := by exact cov_sub (by assumption) rfl) :
    Keeps pmk z (State.tagEvent n g s) := by
  unfold State.tagEvent
  repeat' first
    | (with_reducible first | assumption | apply State.gcount_inv | apply ite_inv)

theorem State.cycleEvents_inv (s : State) (h_s : Keeps pmk z s)  (hu : Cov pmk 2 := by exact cov_sub (by assumption) rfl) :
    Keeps pmk z (State.cycleEvents s) := by
  unfold State.cycleEvents
  repeat' first
    | (refine fun _ => ?_)
    | (with_reducible first | assumption | apply State.cellsEvent_inv | apply State.gcount_inv | apply State.tagEvent_inv | apply foldl_inv | apply ite_inv)

theorem State.tick_inv (s : State) (h_s : Keeps pmk z s)  (hu : Cov pmk 82 := by exact cov_sub (by assumption) rfl) :
    Keeps pmk z (State.tick s) := by
  unfold State.tick
  repeat' first
    | (with_reducible first | assumption | exact cov_sub hu rfl | apply State.cycleEvents_inv | apply State.earnAll_inv | apply State.ppsFall_inv | apply State.stallAll_inv | apply State.tickTime_inv | apply ite_inv)

end Sys2Proof.Machine
end

