-- ==== Sys2Proof/Laws/State.lean ====
section
/-! SUPPORT. What each update of the state does to each of its fields: one lemma per field per update, so that no
proof unfolds a record update. -/

set_option Elab.async false

namespace Sys2Proof.Machine
open Sys2Proof

variable (s : State)

/-! ### modHub -/

@[simp] theorem State.modHub_pending (f : Hub → Hub) : (s.modHub f).pending = s.pending := rfl
@[simp] theorem State.modHub_out (f : Hub → Hub) : (s.modHub f).out = s.out := rfl
@[simp] theorem State.modHub_free (f : Hub → Hub) : (s.modHub f).free = s.free := rfl
@[simp] theorem State.modHub_nextId (f : Hub → Hub) : (s.modHub f).nextId = s.nextId := rfl
@[simp] theorem State.modHub_hub (f : Hub → Hub) : (s.modHub f).hub = f s.hub := rfl
@[simp] theorem State.modHub_time (f : Hub → Hub) : (s.modHub f).time = s.time := rfl
@[simp] theorem State.modHub_link (f : Hub → Hub) : (s.modHub f).link = s.link := rfl
@[simp] theorem State.modHub_sw (f : Hub → Hub) : (s.modHub f).sw = s.sw := rfl
@[simp] theorem State.modHub_mem (f : Hub → Hub) : (s.modHub f).mem = s.mem := rfl
@[simp] theorem State.modHub_ext (f : Hub → Hub) : (s.modHub f).ext = s.ext := rfl
@[simp] theorem State.modHub_tier (f : Hub → Hub) : (s.modHub f).tier = s.tier := rfl
@[simp] theorem State.modHub_ttu (f : Hub → Hub) : (s.modHub f).ttu = s.ttu := rfl
@[simp] theorem State.modHub_flt (f : Hub → Hub) : (s.modHub f).flt = s.flt := rfl
@[simp] theorem State.modHub_obs (f : Hub → Hub) : (s.modHub f).obs = s.obs := rfl
@[simp] theorem State.modHub_sec (f : Hub → Hub) : (s.modHub f).sec = s.sec := rfl
@[simp] theorem State.modHub_host (f : Hub → Hub) : (s.modHub f).host = s.host := rfl
@[simp] theorem State.modHub_chain (f : Hub → Hub) : (s.modHub f).chain = s.chain := rfl
@[simp] theorem State.modHub_pwr (f : Hub → Hub) : (s.modHub f).pwr = s.pwr := rfl
@[simp] theorem State.modHub_home (f : Hub → Hub) : (s.modHub f).home = s.home := rfl
@[simp] theorem State.modHub_ctr (f : Hub → Hub) : (s.modHub f).ctr = s.ctr := rfl
@[simp] theorem State.modHub_carv (f : Hub → Hub) : (s.modHub f).carv = s.carv := rfl
@[simp] theorem State.modHub_tile (f : Hub → Hub) : (s.modHub f).tile = s.tile := rfl
@[simp] theorem State.modHub_kv (f : Hub → Hub) : (s.modHub f).kv = s.kv := rfl
@[simp] theorem State.modHub_shv (f : Hub → Hub) : (s.modHub f).shv = s.shv := rfl
@[simp] theorem State.modHub_exd (f : Hub → Hub) : (s.modHub f).exd = s.exd := rfl

/-! ### modTime -/

@[simp] theorem State.modTime_pending (f : TimeUnit → TimeUnit) : (s.modTime f).pending = s.pending := rfl
@[simp] theorem State.modTime_out (f : TimeUnit → TimeUnit) : (s.modTime f).out = s.out := rfl
@[simp] theorem State.modTime_free (f : TimeUnit → TimeUnit) : (s.modTime f).free = s.free := rfl
@[simp] theorem State.modTime_nextId (f : TimeUnit → TimeUnit) : (s.modTime f).nextId = s.nextId := rfl
@[simp] theorem State.modTime_hub (f : TimeUnit → TimeUnit) : (s.modTime f).hub = s.hub := rfl
@[simp] theorem State.modTime_time (f : TimeUnit → TimeUnit) : (s.modTime f).time = f s.time := rfl
@[simp] theorem State.modTime_link (f : TimeUnit → TimeUnit) : (s.modTime f).link = s.link := rfl
@[simp] theorem State.modTime_sw (f : TimeUnit → TimeUnit) : (s.modTime f).sw = s.sw := rfl
@[simp] theorem State.modTime_mem (f : TimeUnit → TimeUnit) : (s.modTime f).mem = s.mem := rfl
@[simp] theorem State.modTime_ext (f : TimeUnit → TimeUnit) : (s.modTime f).ext = s.ext := rfl
@[simp] theorem State.modTime_tier (f : TimeUnit → TimeUnit) : (s.modTime f).tier = s.tier := rfl
@[simp] theorem State.modTime_ttu (f : TimeUnit → TimeUnit) : (s.modTime f).ttu = s.ttu := rfl
@[simp] theorem State.modTime_flt (f : TimeUnit → TimeUnit) : (s.modTime f).flt = s.flt := rfl
@[simp] theorem State.modTime_obs (f : TimeUnit → TimeUnit) : (s.modTime f).obs = s.obs := rfl
@[simp] theorem State.modTime_sec (f : TimeUnit → TimeUnit) : (s.modTime f).sec = s.sec := rfl
@[simp] theorem State.modTime_host (f : TimeUnit → TimeUnit) : (s.modTime f).host = s.host := rfl
@[simp] theorem State.modTime_chain (f : TimeUnit → TimeUnit) : (s.modTime f).chain = s.chain := rfl
@[simp] theorem State.modTime_pwr (f : TimeUnit → TimeUnit) : (s.modTime f).pwr = s.pwr := rfl
@[simp] theorem State.modTime_home (f : TimeUnit → TimeUnit) : (s.modTime f).home = s.home := rfl
@[simp] theorem State.modTime_ctr (f : TimeUnit → TimeUnit) : (s.modTime f).ctr = s.ctr := rfl
@[simp] theorem State.modTime_carv (f : TimeUnit → TimeUnit) : (s.modTime f).carv = s.carv := rfl
@[simp] theorem State.modTime_tile (f : TimeUnit → TimeUnit) : (s.modTime f).tile = s.tile := rfl
@[simp] theorem State.modTime_kv (f : TimeUnit → TimeUnit) : (s.modTime f).kv = s.kv := rfl
@[simp] theorem State.modTime_shv (f : TimeUnit → TimeUnit) : (s.modTime f).shv = s.shv := rfl
@[simp] theorem State.modTime_exd (f : TimeUnit → TimeUnit) : (s.modTime f).exd = s.exd := rfl

/-! ### modLink -/

@[simp] theorem State.modLink_pending (f : LinkUnit → LinkUnit) : (s.modLink f).pending = s.pending := rfl
@[simp] theorem State.modLink_out (f : LinkUnit → LinkUnit) : (s.modLink f).out = s.out := rfl
@[simp] theorem State.modLink_free (f : LinkUnit → LinkUnit) : (s.modLink f).free = s.free := rfl
@[simp] theorem State.modLink_nextId (f : LinkUnit → LinkUnit) : (s.modLink f).nextId = s.nextId := rfl
@[simp] theorem State.modLink_hub (f : LinkUnit → LinkUnit) : (s.modLink f).hub = s.hub := rfl
@[simp] theorem State.modLink_time (f : LinkUnit → LinkUnit) : (s.modLink f).time = s.time := rfl
@[simp] theorem State.modLink_link (f : LinkUnit → LinkUnit) : (s.modLink f).link = f s.link := rfl
@[simp] theorem State.modLink_sw (f : LinkUnit → LinkUnit) : (s.modLink f).sw = s.sw := rfl
@[simp] theorem State.modLink_mem (f : LinkUnit → LinkUnit) : (s.modLink f).mem = s.mem := rfl
@[simp] theorem State.modLink_ext (f : LinkUnit → LinkUnit) : (s.modLink f).ext = s.ext := rfl
@[simp] theorem State.modLink_tier (f : LinkUnit → LinkUnit) : (s.modLink f).tier = s.tier := rfl
@[simp] theorem State.modLink_ttu (f : LinkUnit → LinkUnit) : (s.modLink f).ttu = s.ttu := rfl
@[simp] theorem State.modLink_flt (f : LinkUnit → LinkUnit) : (s.modLink f).flt = s.flt := rfl
@[simp] theorem State.modLink_obs (f : LinkUnit → LinkUnit) : (s.modLink f).obs = s.obs := rfl
@[simp] theorem State.modLink_sec (f : LinkUnit → LinkUnit) : (s.modLink f).sec = s.sec := rfl
@[simp] theorem State.modLink_host (f : LinkUnit → LinkUnit) : (s.modLink f).host = s.host := rfl
@[simp] theorem State.modLink_chain (f : LinkUnit → LinkUnit) : (s.modLink f).chain = s.chain := rfl
@[simp] theorem State.modLink_pwr (f : LinkUnit → LinkUnit) : (s.modLink f).pwr = s.pwr := rfl
@[simp] theorem State.modLink_home (f : LinkUnit → LinkUnit) : (s.modLink f).home = s.home := rfl
@[simp] theorem State.modLink_ctr (f : LinkUnit → LinkUnit) : (s.modLink f).ctr = s.ctr := rfl
@[simp] theorem State.modLink_carv (f : LinkUnit → LinkUnit) : (s.modLink f).carv = s.carv := rfl
@[simp] theorem State.modLink_tile (f : LinkUnit → LinkUnit) : (s.modLink f).tile = s.tile := rfl
@[simp] theorem State.modLink_kv (f : LinkUnit → LinkUnit) : (s.modLink f).kv = s.kv := rfl
@[simp] theorem State.modLink_shv (f : LinkUnit → LinkUnit) : (s.modLink f).shv = s.shv := rfl
@[simp] theorem State.modLink_exd (f : LinkUnit → LinkUnit) : (s.modLink f).exd = s.exd := rfl

/-! ### modSw -/

@[simp] theorem State.modSw_pending (f : SwitchUnit → SwitchUnit) : (s.modSw f).pending = s.pending := rfl
@[simp] theorem State.modSw_out (f : SwitchUnit → SwitchUnit) : (s.modSw f).out = s.out := rfl
@[simp] theorem State.modSw_free (f : SwitchUnit → SwitchUnit) : (s.modSw f).free = s.free := rfl
@[simp] theorem State.modSw_nextId (f : SwitchUnit → SwitchUnit) : (s.modSw f).nextId = s.nextId := rfl
@[simp] theorem State.modSw_hub (f : SwitchUnit → SwitchUnit) : (s.modSw f).hub = s.hub := rfl
@[simp] theorem State.modSw_time (f : SwitchUnit → SwitchUnit) : (s.modSw f).time = s.time := rfl
@[simp] theorem State.modSw_link (f : SwitchUnit → SwitchUnit) : (s.modSw f).link = s.link := rfl
@[simp] theorem State.modSw_sw (f : SwitchUnit → SwitchUnit) : (s.modSw f).sw = f s.sw := rfl
@[simp] theorem State.modSw_mem (f : SwitchUnit → SwitchUnit) : (s.modSw f).mem = s.mem := rfl
@[simp] theorem State.modSw_ext (f : SwitchUnit → SwitchUnit) : (s.modSw f).ext = s.ext := rfl
@[simp] theorem State.modSw_tier (f : SwitchUnit → SwitchUnit) : (s.modSw f).tier = s.tier := rfl
@[simp] theorem State.modSw_ttu (f : SwitchUnit → SwitchUnit) : (s.modSw f).ttu = s.ttu := rfl
@[simp] theorem State.modSw_flt (f : SwitchUnit → SwitchUnit) : (s.modSw f).flt = s.flt := rfl
@[simp] theorem State.modSw_obs (f : SwitchUnit → SwitchUnit) : (s.modSw f).obs = s.obs := rfl
@[simp] theorem State.modSw_sec (f : SwitchUnit → SwitchUnit) : (s.modSw f).sec = s.sec := rfl
@[simp] theorem State.modSw_host (f : SwitchUnit → SwitchUnit) : (s.modSw f).host = s.host := rfl
@[simp] theorem State.modSw_chain (f : SwitchUnit → SwitchUnit) : (s.modSw f).chain = s.chain := rfl
@[simp] theorem State.modSw_pwr (f : SwitchUnit → SwitchUnit) : (s.modSw f).pwr = s.pwr := rfl
@[simp] theorem State.modSw_home (f : SwitchUnit → SwitchUnit) : (s.modSw f).home = s.home := rfl
@[simp] theorem State.modSw_ctr (f : SwitchUnit → SwitchUnit) : (s.modSw f).ctr = s.ctr := rfl
@[simp] theorem State.modSw_carv (f : SwitchUnit → SwitchUnit) : (s.modSw f).carv = s.carv := rfl
@[simp] theorem State.modSw_tile (f : SwitchUnit → SwitchUnit) : (s.modSw f).tile = s.tile := rfl
@[simp] theorem State.modSw_kv (f : SwitchUnit → SwitchUnit) : (s.modSw f).kv = s.kv := rfl
@[simp] theorem State.modSw_shv (f : SwitchUnit → SwitchUnit) : (s.modSw f).shv = s.shv := rfl
@[simp] theorem State.modSw_exd (f : SwitchUnit → SwitchUnit) : (s.modSw f).exd = s.exd := rfl

/-! ### modMem -/

@[simp] theorem State.modMem_pending (f : MemUnit → MemUnit) : (s.modMem f).pending = s.pending := rfl
@[simp] theorem State.modMem_out (f : MemUnit → MemUnit) : (s.modMem f).out = s.out := rfl
@[simp] theorem State.modMem_free (f : MemUnit → MemUnit) : (s.modMem f).free = s.free := rfl
@[simp] theorem State.modMem_nextId (f : MemUnit → MemUnit) : (s.modMem f).nextId = s.nextId := rfl
@[simp] theorem State.modMem_hub (f : MemUnit → MemUnit) : (s.modMem f).hub = s.hub := rfl
@[simp] theorem State.modMem_time (f : MemUnit → MemUnit) : (s.modMem f).time = s.time := rfl
@[simp] theorem State.modMem_link (f : MemUnit → MemUnit) : (s.modMem f).link = s.link := rfl
@[simp] theorem State.modMem_sw (f : MemUnit → MemUnit) : (s.modMem f).sw = s.sw := rfl
@[simp] theorem State.modMem_mem (f : MemUnit → MemUnit) : (s.modMem f).mem = f s.mem := rfl
@[simp] theorem State.modMem_ext (f : MemUnit → MemUnit) : (s.modMem f).ext = s.ext := rfl
@[simp] theorem State.modMem_tier (f : MemUnit → MemUnit) : (s.modMem f).tier = s.tier := rfl
@[simp] theorem State.modMem_ttu (f : MemUnit → MemUnit) : (s.modMem f).ttu = s.ttu := rfl
@[simp] theorem State.modMem_flt (f : MemUnit → MemUnit) : (s.modMem f).flt = s.flt := rfl
@[simp] theorem State.modMem_obs (f : MemUnit → MemUnit) : (s.modMem f).obs = s.obs := rfl
@[simp] theorem State.modMem_sec (f : MemUnit → MemUnit) : (s.modMem f).sec = s.sec := rfl
@[simp] theorem State.modMem_host (f : MemUnit → MemUnit) : (s.modMem f).host = s.host := rfl
@[simp] theorem State.modMem_chain (f : MemUnit → MemUnit) : (s.modMem f).chain = s.chain := rfl
@[simp] theorem State.modMem_pwr (f : MemUnit → MemUnit) : (s.modMem f).pwr = s.pwr := rfl
@[simp] theorem State.modMem_home (f : MemUnit → MemUnit) : (s.modMem f).home = s.home := rfl
@[simp] theorem State.modMem_ctr (f : MemUnit → MemUnit) : (s.modMem f).ctr = s.ctr := rfl
@[simp] theorem State.modMem_carv (f : MemUnit → MemUnit) : (s.modMem f).carv = s.carv := rfl
@[simp] theorem State.modMem_tile (f : MemUnit → MemUnit) : (s.modMem f).tile = s.tile := rfl
@[simp] theorem State.modMem_kv (f : MemUnit → MemUnit) : (s.modMem f).kv = s.kv := rfl
@[simp] theorem State.modMem_shv (f : MemUnit → MemUnit) : (s.modMem f).shv = s.shv := rfl
@[simp] theorem State.modMem_exd (f : MemUnit → MemUnit) : (s.modMem f).exd = s.exd := rfl

/-! ### modExt -/

@[simp] theorem State.modExt_pending (f : ExtUnit → ExtUnit) : (s.modExt f).pending = s.pending := rfl
@[simp] theorem State.modExt_out (f : ExtUnit → ExtUnit) : (s.modExt f).out = s.out := rfl
@[simp] theorem State.modExt_free (f : ExtUnit → ExtUnit) : (s.modExt f).free = s.free := rfl
@[simp] theorem State.modExt_nextId (f : ExtUnit → ExtUnit) : (s.modExt f).nextId = s.nextId := rfl
@[simp] theorem State.modExt_hub (f : ExtUnit → ExtUnit) : (s.modExt f).hub = s.hub := rfl
@[simp] theorem State.modExt_time (f : ExtUnit → ExtUnit) : (s.modExt f).time = s.time := rfl
@[simp] theorem State.modExt_link (f : ExtUnit → ExtUnit) : (s.modExt f).link = s.link := rfl
@[simp] theorem State.modExt_sw (f : ExtUnit → ExtUnit) : (s.modExt f).sw = s.sw := rfl
@[simp] theorem State.modExt_mem (f : ExtUnit → ExtUnit) : (s.modExt f).mem = s.mem := rfl
@[simp] theorem State.modExt_ext (f : ExtUnit → ExtUnit) : (s.modExt f).ext = f s.ext := rfl
@[simp] theorem State.modExt_tier (f : ExtUnit → ExtUnit) : (s.modExt f).tier = s.tier := rfl
@[simp] theorem State.modExt_ttu (f : ExtUnit → ExtUnit) : (s.modExt f).ttu = s.ttu := rfl
@[simp] theorem State.modExt_flt (f : ExtUnit → ExtUnit) : (s.modExt f).flt = s.flt := rfl
@[simp] theorem State.modExt_obs (f : ExtUnit → ExtUnit) : (s.modExt f).obs = s.obs := rfl
@[simp] theorem State.modExt_sec (f : ExtUnit → ExtUnit) : (s.modExt f).sec = s.sec := rfl
@[simp] theorem State.modExt_host (f : ExtUnit → ExtUnit) : (s.modExt f).host = s.host := rfl
@[simp] theorem State.modExt_chain (f : ExtUnit → ExtUnit) : (s.modExt f).chain = s.chain := rfl
@[simp] theorem State.modExt_pwr (f : ExtUnit → ExtUnit) : (s.modExt f).pwr = s.pwr := rfl
@[simp] theorem State.modExt_home (f : ExtUnit → ExtUnit) : (s.modExt f).home = s.home := rfl
@[simp] theorem State.modExt_ctr (f : ExtUnit → ExtUnit) : (s.modExt f).ctr = s.ctr := rfl
@[simp] theorem State.modExt_carv (f : ExtUnit → ExtUnit) : (s.modExt f).carv = s.carv := rfl
@[simp] theorem State.modExt_tile (f : ExtUnit → ExtUnit) : (s.modExt f).tile = s.tile := rfl
@[simp] theorem State.modExt_kv (f : ExtUnit → ExtUnit) : (s.modExt f).kv = s.kv := rfl
@[simp] theorem State.modExt_shv (f : ExtUnit → ExtUnit) : (s.modExt f).shv = s.shv := rfl
@[simp] theorem State.modExt_exd (f : ExtUnit → ExtUnit) : (s.modExt f).exd = s.exd := rfl

/-! ### modTier -/

@[simp] theorem State.modTier_pending (f : TierUnit → TierUnit) : (s.modTier f).pending = s.pending := rfl
@[simp] theorem State.modTier_out (f : TierUnit → TierUnit) : (s.modTier f).out = s.out := rfl
@[simp] theorem State.modTier_free (f : TierUnit → TierUnit) : (s.modTier f).free = s.free := rfl
@[simp] theorem State.modTier_nextId (f : TierUnit → TierUnit) : (s.modTier f).nextId = s.nextId := rfl
@[simp] theorem State.modTier_hub (f : TierUnit → TierUnit) : (s.modTier f).hub = s.hub := rfl
@[simp] theorem State.modTier_time (f : TierUnit → TierUnit) : (s.modTier f).time = s.time := rfl
@[simp] theorem State.modTier_link (f : TierUnit → TierUnit) : (s.modTier f).link = s.link := rfl
@[simp] theorem State.modTier_sw (f : TierUnit → TierUnit) : (s.modTier f).sw = s.sw := rfl
@[simp] theorem State.modTier_mem (f : TierUnit → TierUnit) : (s.modTier f).mem = s.mem := rfl
@[simp] theorem State.modTier_ext (f : TierUnit → TierUnit) : (s.modTier f).ext = s.ext := rfl
@[simp] theorem State.modTier_tier (f : TierUnit → TierUnit) : (s.modTier f).tier = f s.tier := rfl
@[simp] theorem State.modTier_ttu (f : TierUnit → TierUnit) : (s.modTier f).ttu = s.ttu := rfl
@[simp] theorem State.modTier_flt (f : TierUnit → TierUnit) : (s.modTier f).flt = s.flt := rfl
@[simp] theorem State.modTier_obs (f : TierUnit → TierUnit) : (s.modTier f).obs = s.obs := rfl
@[simp] theorem State.modTier_sec (f : TierUnit → TierUnit) : (s.modTier f).sec = s.sec := rfl
@[simp] theorem State.modTier_host (f : TierUnit → TierUnit) : (s.modTier f).host = s.host := rfl
@[simp] theorem State.modTier_chain (f : TierUnit → TierUnit) : (s.modTier f).chain = s.chain := rfl
@[simp] theorem State.modTier_pwr (f : TierUnit → TierUnit) : (s.modTier f).pwr = s.pwr := rfl
@[simp] theorem State.modTier_home (f : TierUnit → TierUnit) : (s.modTier f).home = s.home := rfl
@[simp] theorem State.modTier_ctr (f : TierUnit → TierUnit) : (s.modTier f).ctr = s.ctr := rfl
@[simp] theorem State.modTier_carv (f : TierUnit → TierUnit) : (s.modTier f).carv = s.carv := rfl
@[simp] theorem State.modTier_tile (f : TierUnit → TierUnit) : (s.modTier f).tile = s.tile := rfl
@[simp] theorem State.modTier_kv (f : TierUnit → TierUnit) : (s.modTier f).kv = s.kv := rfl
@[simp] theorem State.modTier_shv (f : TierUnit → TierUnit) : (s.modTier f).shv = s.shv := rfl
@[simp] theorem State.modTier_exd (f : TierUnit → TierUnit) : (s.modTier f).exd = s.exd := rfl

/-! ### modTtu -/

@[simp] theorem State.modTtu_pending (f : TtuUnit → TtuUnit) : (s.modTtu f).pending = s.pending := rfl
@[simp] theorem State.modTtu_out (f : TtuUnit → TtuUnit) : (s.modTtu f).out = s.out := rfl
@[simp] theorem State.modTtu_free (f : TtuUnit → TtuUnit) : (s.modTtu f).free = s.free := rfl
@[simp] theorem State.modTtu_nextId (f : TtuUnit → TtuUnit) : (s.modTtu f).nextId = s.nextId := rfl
@[simp] theorem State.modTtu_hub (f : TtuUnit → TtuUnit) : (s.modTtu f).hub = s.hub := rfl
@[simp] theorem State.modTtu_time (f : TtuUnit → TtuUnit) : (s.modTtu f).time = s.time := rfl
@[simp] theorem State.modTtu_link (f : TtuUnit → TtuUnit) : (s.modTtu f).link = s.link := rfl
@[simp] theorem State.modTtu_sw (f : TtuUnit → TtuUnit) : (s.modTtu f).sw = s.sw := rfl
@[simp] theorem State.modTtu_mem (f : TtuUnit → TtuUnit) : (s.modTtu f).mem = s.mem := rfl
@[simp] theorem State.modTtu_ext (f : TtuUnit → TtuUnit) : (s.modTtu f).ext = s.ext := rfl
@[simp] theorem State.modTtu_tier (f : TtuUnit → TtuUnit) : (s.modTtu f).tier = s.tier := rfl
@[simp] theorem State.modTtu_ttu (f : TtuUnit → TtuUnit) : (s.modTtu f).ttu = f s.ttu := rfl
@[simp] theorem State.modTtu_flt (f : TtuUnit → TtuUnit) : (s.modTtu f).flt = s.flt := rfl
@[simp] theorem State.modTtu_obs (f : TtuUnit → TtuUnit) : (s.modTtu f).obs = s.obs := rfl
@[simp] theorem State.modTtu_sec (f : TtuUnit → TtuUnit) : (s.modTtu f).sec = s.sec := rfl
@[simp] theorem State.modTtu_host (f : TtuUnit → TtuUnit) : (s.modTtu f).host = s.host := rfl
@[simp] theorem State.modTtu_chain (f : TtuUnit → TtuUnit) : (s.modTtu f).chain = s.chain := rfl
@[simp] theorem State.modTtu_pwr (f : TtuUnit → TtuUnit) : (s.modTtu f).pwr = s.pwr := rfl
@[simp] theorem State.modTtu_home (f : TtuUnit → TtuUnit) : (s.modTtu f).home = s.home := rfl
@[simp] theorem State.modTtu_ctr (f : TtuUnit → TtuUnit) : (s.modTtu f).ctr = s.ctr := rfl
@[simp] theorem State.modTtu_carv (f : TtuUnit → TtuUnit) : (s.modTtu f).carv = s.carv := rfl
@[simp] theorem State.modTtu_tile (f : TtuUnit → TtuUnit) : (s.modTtu f).tile = s.tile := rfl
@[simp] theorem State.modTtu_kv (f : TtuUnit → TtuUnit) : (s.modTtu f).kv = s.kv := rfl
@[simp] theorem State.modTtu_shv (f : TtuUnit → TtuUnit) : (s.modTtu f).shv = s.shv := rfl
@[simp] theorem State.modTtu_exd (f : TtuUnit → TtuUnit) : (s.modTtu f).exd = s.exd := rfl

/-! ### modFlt -/

@[simp] theorem State.modFlt_pending (f : FaultUnit → FaultUnit) : (s.modFlt f).pending = s.pending := rfl
@[simp] theorem State.modFlt_out (f : FaultUnit → FaultUnit) : (s.modFlt f).out = s.out := rfl
@[simp] theorem State.modFlt_free (f : FaultUnit → FaultUnit) : (s.modFlt f).free = s.free := rfl
@[simp] theorem State.modFlt_nextId (f : FaultUnit → FaultUnit) : (s.modFlt f).nextId = s.nextId := rfl
@[simp] theorem State.modFlt_hub (f : FaultUnit → FaultUnit) : (s.modFlt f).hub = s.hub := rfl
@[simp] theorem State.modFlt_time (f : FaultUnit → FaultUnit) : (s.modFlt f).time = s.time := rfl
@[simp] theorem State.modFlt_link (f : FaultUnit → FaultUnit) : (s.modFlt f).link = s.link := rfl
@[simp] theorem State.modFlt_sw (f : FaultUnit → FaultUnit) : (s.modFlt f).sw = s.sw := rfl
@[simp] theorem State.modFlt_mem (f : FaultUnit → FaultUnit) : (s.modFlt f).mem = s.mem := rfl
@[simp] theorem State.modFlt_ext (f : FaultUnit → FaultUnit) : (s.modFlt f).ext = s.ext := rfl
@[simp] theorem State.modFlt_tier (f : FaultUnit → FaultUnit) : (s.modFlt f).tier = s.tier := rfl
@[simp] theorem State.modFlt_ttu (f : FaultUnit → FaultUnit) : (s.modFlt f).ttu = s.ttu := rfl
@[simp] theorem State.modFlt_flt (f : FaultUnit → FaultUnit) : (s.modFlt f).flt = f s.flt := rfl
@[simp] theorem State.modFlt_obs (f : FaultUnit → FaultUnit) : (s.modFlt f).obs = s.obs := rfl
@[simp] theorem State.modFlt_sec (f : FaultUnit → FaultUnit) : (s.modFlt f).sec = s.sec := rfl
@[simp] theorem State.modFlt_host (f : FaultUnit → FaultUnit) : (s.modFlt f).host = s.host := rfl
@[simp] theorem State.modFlt_chain (f : FaultUnit → FaultUnit) : (s.modFlt f).chain = s.chain := rfl
@[simp] theorem State.modFlt_pwr (f : FaultUnit → FaultUnit) : (s.modFlt f).pwr = s.pwr := rfl
@[simp] theorem State.modFlt_home (f : FaultUnit → FaultUnit) : (s.modFlt f).home = s.home := rfl
@[simp] theorem State.modFlt_ctr (f : FaultUnit → FaultUnit) : (s.modFlt f).ctr = s.ctr := rfl
@[simp] theorem State.modFlt_carv (f : FaultUnit → FaultUnit) : (s.modFlt f).carv = s.carv := rfl
@[simp] theorem State.modFlt_tile (f : FaultUnit → FaultUnit) : (s.modFlt f).tile = s.tile := rfl
@[simp] theorem State.modFlt_kv (f : FaultUnit → FaultUnit) : (s.modFlt f).kv = s.kv := rfl
@[simp] theorem State.modFlt_shv (f : FaultUnit → FaultUnit) : (s.modFlt f).shv = s.shv := rfl
@[simp] theorem State.modFlt_exd (f : FaultUnit → FaultUnit) : (s.modFlt f).exd = s.exd := rfl

/-! ### modObs -/

@[simp] theorem State.modObs_pending (f : ObsUnit → ObsUnit) : (s.modObs f).pending = s.pending := rfl
@[simp] theorem State.modObs_out (f : ObsUnit → ObsUnit) : (s.modObs f).out = s.out := rfl
@[simp] theorem State.modObs_free (f : ObsUnit → ObsUnit) : (s.modObs f).free = s.free := rfl
@[simp] theorem State.modObs_nextId (f : ObsUnit → ObsUnit) : (s.modObs f).nextId = s.nextId := rfl
@[simp] theorem State.modObs_hub (f : ObsUnit → ObsUnit) : (s.modObs f).hub = s.hub := rfl
@[simp] theorem State.modObs_time (f : ObsUnit → ObsUnit) : (s.modObs f).time = s.time := rfl
@[simp] theorem State.modObs_link (f : ObsUnit → ObsUnit) : (s.modObs f).link = s.link := rfl
@[simp] theorem State.modObs_sw (f : ObsUnit → ObsUnit) : (s.modObs f).sw = s.sw := rfl
@[simp] theorem State.modObs_mem (f : ObsUnit → ObsUnit) : (s.modObs f).mem = s.mem := rfl
@[simp] theorem State.modObs_ext (f : ObsUnit → ObsUnit) : (s.modObs f).ext = s.ext := rfl
@[simp] theorem State.modObs_tier (f : ObsUnit → ObsUnit) : (s.modObs f).tier = s.tier := rfl
@[simp] theorem State.modObs_ttu (f : ObsUnit → ObsUnit) : (s.modObs f).ttu = s.ttu := rfl
@[simp] theorem State.modObs_flt (f : ObsUnit → ObsUnit) : (s.modObs f).flt = s.flt := rfl
@[simp] theorem State.modObs_obs (f : ObsUnit → ObsUnit) : (s.modObs f).obs = f s.obs := rfl
@[simp] theorem State.modObs_sec (f : ObsUnit → ObsUnit) : (s.modObs f).sec = s.sec := rfl
@[simp] theorem State.modObs_host (f : ObsUnit → ObsUnit) : (s.modObs f).host = s.host := rfl
@[simp] theorem State.modObs_chain (f : ObsUnit → ObsUnit) : (s.modObs f).chain = s.chain := rfl
@[simp] theorem State.modObs_pwr (f : ObsUnit → ObsUnit) : (s.modObs f).pwr = s.pwr := rfl
@[simp] theorem State.modObs_home (f : ObsUnit → ObsUnit) : (s.modObs f).home = s.home := rfl
@[simp] theorem State.modObs_ctr (f : ObsUnit → ObsUnit) : (s.modObs f).ctr = s.ctr := rfl
@[simp] theorem State.modObs_carv (f : ObsUnit → ObsUnit) : (s.modObs f).carv = s.carv := rfl
@[simp] theorem State.modObs_tile (f : ObsUnit → ObsUnit) : (s.modObs f).tile = s.tile := rfl
@[simp] theorem State.modObs_kv (f : ObsUnit → ObsUnit) : (s.modObs f).kv = s.kv := rfl
@[simp] theorem State.modObs_shv (f : ObsUnit → ObsUnit) : (s.modObs f).shv = s.shv := rfl
@[simp] theorem State.modObs_exd (f : ObsUnit → ObsUnit) : (s.modObs f).exd = s.exd := rfl

/-! ### modSec -/

@[simp] theorem State.modSec_pending (f : SecUnit → SecUnit) : (s.modSec f).pending = s.pending := rfl
@[simp] theorem State.modSec_out (f : SecUnit → SecUnit) : (s.modSec f).out = s.out := rfl
@[simp] theorem State.modSec_free (f : SecUnit → SecUnit) : (s.modSec f).free = s.free := rfl
@[simp] theorem State.modSec_nextId (f : SecUnit → SecUnit) : (s.modSec f).nextId = s.nextId := rfl
@[simp] theorem State.modSec_hub (f : SecUnit → SecUnit) : (s.modSec f).hub = s.hub := rfl
@[simp] theorem State.modSec_time (f : SecUnit → SecUnit) : (s.modSec f).time = s.time := rfl
@[simp] theorem State.modSec_link (f : SecUnit → SecUnit) : (s.modSec f).link = s.link := rfl
@[simp] theorem State.modSec_sw (f : SecUnit → SecUnit) : (s.modSec f).sw = s.sw := rfl
@[simp] theorem State.modSec_mem (f : SecUnit → SecUnit) : (s.modSec f).mem = s.mem := rfl
@[simp] theorem State.modSec_ext (f : SecUnit → SecUnit) : (s.modSec f).ext = s.ext := rfl
@[simp] theorem State.modSec_tier (f : SecUnit → SecUnit) : (s.modSec f).tier = s.tier := rfl
@[simp] theorem State.modSec_ttu (f : SecUnit → SecUnit) : (s.modSec f).ttu = s.ttu := rfl
@[simp] theorem State.modSec_flt (f : SecUnit → SecUnit) : (s.modSec f).flt = s.flt := rfl
@[simp] theorem State.modSec_obs (f : SecUnit → SecUnit) : (s.modSec f).obs = s.obs := rfl
@[simp] theorem State.modSec_sec (f : SecUnit → SecUnit) : (s.modSec f).sec = f s.sec := rfl
@[simp] theorem State.modSec_host (f : SecUnit → SecUnit) : (s.modSec f).host = s.host := rfl
@[simp] theorem State.modSec_chain (f : SecUnit → SecUnit) : (s.modSec f).chain = s.chain := rfl
@[simp] theorem State.modSec_pwr (f : SecUnit → SecUnit) : (s.modSec f).pwr = s.pwr := rfl
@[simp] theorem State.modSec_home (f : SecUnit → SecUnit) : (s.modSec f).home = s.home := rfl
@[simp] theorem State.modSec_ctr (f : SecUnit → SecUnit) : (s.modSec f).ctr = s.ctr := rfl
@[simp] theorem State.modSec_carv (f : SecUnit → SecUnit) : (s.modSec f).carv = s.carv := rfl
@[simp] theorem State.modSec_tile (f : SecUnit → SecUnit) : (s.modSec f).tile = s.tile := rfl
@[simp] theorem State.modSec_kv (f : SecUnit → SecUnit) : (s.modSec f).kv = s.kv := rfl
@[simp] theorem State.modSec_shv (f : SecUnit → SecUnit) : (s.modSec f).shv = s.shv := rfl
@[simp] theorem State.modSec_exd (f : SecUnit → SecUnit) : (s.modSec f).exd = s.exd := rfl

/-! ### modHost -/

@[simp] theorem State.modHost_pending (f : HostUnit → HostUnit) : (s.modHost f).pending = s.pending := rfl
@[simp] theorem State.modHost_out (f : HostUnit → HostUnit) : (s.modHost f).out = s.out := rfl
@[simp] theorem State.modHost_free (f : HostUnit → HostUnit) : (s.modHost f).free = s.free := rfl
@[simp] theorem State.modHost_nextId (f : HostUnit → HostUnit) : (s.modHost f).nextId = s.nextId := rfl
@[simp] theorem State.modHost_hub (f : HostUnit → HostUnit) : (s.modHost f).hub = s.hub := rfl
@[simp] theorem State.modHost_time (f : HostUnit → HostUnit) : (s.modHost f).time = s.time := rfl
@[simp] theorem State.modHost_link (f : HostUnit → HostUnit) : (s.modHost f).link = s.link := rfl
@[simp] theorem State.modHost_sw (f : HostUnit → HostUnit) : (s.modHost f).sw = s.sw := rfl
@[simp] theorem State.modHost_mem (f : HostUnit → HostUnit) : (s.modHost f).mem = s.mem := rfl
@[simp] theorem State.modHost_ext (f : HostUnit → HostUnit) : (s.modHost f).ext = s.ext := rfl
@[simp] theorem State.modHost_tier (f : HostUnit → HostUnit) : (s.modHost f).tier = s.tier := rfl
@[simp] theorem State.modHost_ttu (f : HostUnit → HostUnit) : (s.modHost f).ttu = s.ttu := rfl
@[simp] theorem State.modHost_flt (f : HostUnit → HostUnit) : (s.modHost f).flt = s.flt := rfl
@[simp] theorem State.modHost_obs (f : HostUnit → HostUnit) : (s.modHost f).obs = s.obs := rfl
@[simp] theorem State.modHost_sec (f : HostUnit → HostUnit) : (s.modHost f).sec = s.sec := rfl
@[simp] theorem State.modHost_host (f : HostUnit → HostUnit) : (s.modHost f).host = f s.host := rfl
@[simp] theorem State.modHost_chain (f : HostUnit → HostUnit) : (s.modHost f).chain = s.chain := rfl
@[simp] theorem State.modHost_pwr (f : HostUnit → HostUnit) : (s.modHost f).pwr = s.pwr := rfl
@[simp] theorem State.modHost_home (f : HostUnit → HostUnit) : (s.modHost f).home = s.home := rfl
@[simp] theorem State.modHost_ctr (f : HostUnit → HostUnit) : (s.modHost f).ctr = s.ctr := rfl
@[simp] theorem State.modHost_carv (f : HostUnit → HostUnit) : (s.modHost f).carv = s.carv := rfl
@[simp] theorem State.modHost_tile (f : HostUnit → HostUnit) : (s.modHost f).tile = s.tile := rfl
@[simp] theorem State.modHost_kv (f : HostUnit → HostUnit) : (s.modHost f).kv = s.kv := rfl
@[simp] theorem State.modHost_shv (f : HostUnit → HostUnit) : (s.modHost f).shv = s.shv := rfl
@[simp] theorem State.modHost_exd (f : HostUnit → HostUnit) : (s.modHost f).exd = s.exd := rfl

/-! ### modChain -/

@[simp] theorem State.modChain_pending (f : ChainUnit → ChainUnit) : (s.modChain f).pending = s.pending := rfl
@[simp] theorem State.modChain_out (f : ChainUnit → ChainUnit) : (s.modChain f).out = s.out := rfl
@[simp] theorem State.modChain_free (f : ChainUnit → ChainUnit) : (s.modChain f).free = s.free := rfl
@[simp] theorem State.modChain_nextId (f : ChainUnit → ChainUnit) : (s.modChain f).nextId = s.nextId := rfl
@[simp] theorem State.modChain_hub (f : ChainUnit → ChainUnit) : (s.modChain f).hub = s.hub := rfl
@[simp] theorem State.modChain_time (f : ChainUnit → ChainUnit) : (s.modChain f).time = s.time := rfl
@[simp] theorem State.modChain_link (f : ChainUnit → ChainUnit) : (s.modChain f).link = s.link := rfl
@[simp] theorem State.modChain_sw (f : ChainUnit → ChainUnit) : (s.modChain f).sw = s.sw := rfl
@[simp] theorem State.modChain_mem (f : ChainUnit → ChainUnit) : (s.modChain f).mem = s.mem := rfl
@[simp] theorem State.modChain_ext (f : ChainUnit → ChainUnit) : (s.modChain f).ext = s.ext := rfl
@[simp] theorem State.modChain_tier (f : ChainUnit → ChainUnit) : (s.modChain f).tier = s.tier := rfl
@[simp] theorem State.modChain_ttu (f : ChainUnit → ChainUnit) : (s.modChain f).ttu = s.ttu := rfl
@[simp] theorem State.modChain_flt (f : ChainUnit → ChainUnit) : (s.modChain f).flt = s.flt := rfl
@[simp] theorem State.modChain_obs (f : ChainUnit → ChainUnit) : (s.modChain f).obs = s.obs := rfl
@[simp] theorem State.modChain_sec (f : ChainUnit → ChainUnit) : (s.modChain f).sec = s.sec := rfl
@[simp] theorem State.modChain_host (f : ChainUnit → ChainUnit) : (s.modChain f).host = s.host := rfl
@[simp] theorem State.modChain_chain (f : ChainUnit → ChainUnit) : (s.modChain f).chain = f s.chain := rfl
@[simp] theorem State.modChain_pwr (f : ChainUnit → ChainUnit) : (s.modChain f).pwr = s.pwr := rfl
@[simp] theorem State.modChain_home (f : ChainUnit → ChainUnit) : (s.modChain f).home = s.home := rfl
@[simp] theorem State.modChain_ctr (f : ChainUnit → ChainUnit) : (s.modChain f).ctr = s.ctr := rfl
@[simp] theorem State.modChain_carv (f : ChainUnit → ChainUnit) : (s.modChain f).carv = s.carv := rfl
@[simp] theorem State.modChain_tile (f : ChainUnit → ChainUnit) : (s.modChain f).tile = s.tile := rfl
@[simp] theorem State.modChain_kv (f : ChainUnit → ChainUnit) : (s.modChain f).kv = s.kv := rfl
@[simp] theorem State.modChain_shv (f : ChainUnit → ChainUnit) : (s.modChain f).shv = s.shv := rfl
@[simp] theorem State.modChain_exd (f : ChainUnit → ChainUnit) : (s.modChain f).exd = s.exd := rfl

/-! ### modPwr -/

@[simp] theorem State.modPwr_pending (f : PwrUnit → PwrUnit) : (s.modPwr f).pending = s.pending := rfl
@[simp] theorem State.modPwr_out (f : PwrUnit → PwrUnit) : (s.modPwr f).out = s.out := rfl
@[simp] theorem State.modPwr_free (f : PwrUnit → PwrUnit) : (s.modPwr f).free = s.free := rfl
@[simp] theorem State.modPwr_nextId (f : PwrUnit → PwrUnit) : (s.modPwr f).nextId = s.nextId := rfl
@[simp] theorem State.modPwr_hub (f : PwrUnit → PwrUnit) : (s.modPwr f).hub = s.hub := rfl
@[simp] theorem State.modPwr_time (f : PwrUnit → PwrUnit) : (s.modPwr f).time = s.time := rfl
@[simp] theorem State.modPwr_link (f : PwrUnit → PwrUnit) : (s.modPwr f).link = s.link := rfl
@[simp] theorem State.modPwr_sw (f : PwrUnit → PwrUnit) : (s.modPwr f).sw = s.sw := rfl
@[simp] theorem State.modPwr_mem (f : PwrUnit → PwrUnit) : (s.modPwr f).mem = s.mem := rfl
@[simp] theorem State.modPwr_ext (f : PwrUnit → PwrUnit) : (s.modPwr f).ext = s.ext := rfl
@[simp] theorem State.modPwr_tier (f : PwrUnit → PwrUnit) : (s.modPwr f).tier = s.tier := rfl
@[simp] theorem State.modPwr_ttu (f : PwrUnit → PwrUnit) : (s.modPwr f).ttu = s.ttu := rfl
@[simp] theorem State.modPwr_flt (f : PwrUnit → PwrUnit) : (s.modPwr f).flt = s.flt := rfl
@[simp] theorem State.modPwr_obs (f : PwrUnit → PwrUnit) : (s.modPwr f).obs = s.obs := rfl
@[simp] theorem State.modPwr_sec (f : PwrUnit → PwrUnit) : (s.modPwr f).sec = s.sec := rfl
@[simp] theorem State.modPwr_host (f : PwrUnit → PwrUnit) : (s.modPwr f).host = s.host := rfl
@[simp] theorem State.modPwr_chain (f : PwrUnit → PwrUnit) : (s.modPwr f).chain = s.chain := rfl
@[simp] theorem State.modPwr_pwr (f : PwrUnit → PwrUnit) : (s.modPwr f).pwr = f s.pwr := rfl
@[simp] theorem State.modPwr_home (f : PwrUnit → PwrUnit) : (s.modPwr f).home = s.home := rfl
@[simp] theorem State.modPwr_ctr (f : PwrUnit → PwrUnit) : (s.modPwr f).ctr = s.ctr := rfl
@[simp] theorem State.modPwr_carv (f : PwrUnit → PwrUnit) : (s.modPwr f).carv = s.carv := rfl
@[simp] theorem State.modPwr_tile (f : PwrUnit → PwrUnit) : (s.modPwr f).tile = s.tile := rfl
@[simp] theorem State.modPwr_kv (f : PwrUnit → PwrUnit) : (s.modPwr f).kv = s.kv := rfl
@[simp] theorem State.modPwr_shv (f : PwrUnit → PwrUnit) : (s.modPwr f).shv = s.shv := rfl
@[simp] theorem State.modPwr_exd (f : PwrUnit → PwrUnit) : (s.modPwr f).exd = s.exd := rfl

/-! ### modHome -/

@[simp] theorem State.modHome_pending (f : HomeUnit → HomeUnit) : (s.modHome f).pending = s.pending := rfl
@[simp] theorem State.modHome_out (f : HomeUnit → HomeUnit) : (s.modHome f).out = s.out := rfl
@[simp] theorem State.modHome_free (f : HomeUnit → HomeUnit) : (s.modHome f).free = s.free := rfl
@[simp] theorem State.modHome_nextId (f : HomeUnit → HomeUnit) : (s.modHome f).nextId = s.nextId := rfl
@[simp] theorem State.modHome_hub (f : HomeUnit → HomeUnit) : (s.modHome f).hub = s.hub := rfl
@[simp] theorem State.modHome_time (f : HomeUnit → HomeUnit) : (s.modHome f).time = s.time := rfl
@[simp] theorem State.modHome_link (f : HomeUnit → HomeUnit) : (s.modHome f).link = s.link := rfl
@[simp] theorem State.modHome_sw (f : HomeUnit → HomeUnit) : (s.modHome f).sw = s.sw := rfl
@[simp] theorem State.modHome_mem (f : HomeUnit → HomeUnit) : (s.modHome f).mem = s.mem := rfl
@[simp] theorem State.modHome_ext (f : HomeUnit → HomeUnit) : (s.modHome f).ext = s.ext := rfl
@[simp] theorem State.modHome_tier (f : HomeUnit → HomeUnit) : (s.modHome f).tier = s.tier := rfl
@[simp] theorem State.modHome_ttu (f : HomeUnit → HomeUnit) : (s.modHome f).ttu = s.ttu := rfl
@[simp] theorem State.modHome_flt (f : HomeUnit → HomeUnit) : (s.modHome f).flt = s.flt := rfl
@[simp] theorem State.modHome_obs (f : HomeUnit → HomeUnit) : (s.modHome f).obs = s.obs := rfl
@[simp] theorem State.modHome_sec (f : HomeUnit → HomeUnit) : (s.modHome f).sec = s.sec := rfl
@[simp] theorem State.modHome_host (f : HomeUnit → HomeUnit) : (s.modHome f).host = s.host := rfl
@[simp] theorem State.modHome_chain (f : HomeUnit → HomeUnit) : (s.modHome f).chain = s.chain := rfl
@[simp] theorem State.modHome_pwr (f : HomeUnit → HomeUnit) : (s.modHome f).pwr = s.pwr := rfl
@[simp] theorem State.modHome_home (f : HomeUnit → HomeUnit) : (s.modHome f).home = f s.home := rfl
@[simp] theorem State.modHome_ctr (f : HomeUnit → HomeUnit) : (s.modHome f).ctr = s.ctr := rfl
@[simp] theorem State.modHome_carv (f : HomeUnit → HomeUnit) : (s.modHome f).carv = s.carv := rfl
@[simp] theorem State.modHome_tile (f : HomeUnit → HomeUnit) : (s.modHome f).tile = s.tile := rfl
@[simp] theorem State.modHome_kv (f : HomeUnit → HomeUnit) : (s.modHome f).kv = s.kv := rfl
@[simp] theorem State.modHome_shv (f : HomeUnit → HomeUnit) : (s.modHome f).shv = s.shv := rfl
@[simp] theorem State.modHome_exd (f : HomeUnit → HomeUnit) : (s.modHome f).exd = s.exd := rfl

/-! ### modCtr -/

@[simp] theorem State.modCtr_pending (f : CtrUnit → CtrUnit) : (s.modCtr f).pending = s.pending := rfl
@[simp] theorem State.modCtr_out (f : CtrUnit → CtrUnit) : (s.modCtr f).out = s.out := rfl
@[simp] theorem State.modCtr_free (f : CtrUnit → CtrUnit) : (s.modCtr f).free = s.free := rfl
@[simp] theorem State.modCtr_nextId (f : CtrUnit → CtrUnit) : (s.modCtr f).nextId = s.nextId := rfl
@[simp] theorem State.modCtr_hub (f : CtrUnit → CtrUnit) : (s.modCtr f).hub = s.hub := rfl
@[simp] theorem State.modCtr_time (f : CtrUnit → CtrUnit) : (s.modCtr f).time = s.time := rfl
@[simp] theorem State.modCtr_link (f : CtrUnit → CtrUnit) : (s.modCtr f).link = s.link := rfl
@[simp] theorem State.modCtr_sw (f : CtrUnit → CtrUnit) : (s.modCtr f).sw = s.sw := rfl
@[simp] theorem State.modCtr_mem (f : CtrUnit → CtrUnit) : (s.modCtr f).mem = s.mem := rfl
@[simp] theorem State.modCtr_ext (f : CtrUnit → CtrUnit) : (s.modCtr f).ext = s.ext := rfl
@[simp] theorem State.modCtr_tier (f : CtrUnit → CtrUnit) : (s.modCtr f).tier = s.tier := rfl
@[simp] theorem State.modCtr_ttu (f : CtrUnit → CtrUnit) : (s.modCtr f).ttu = s.ttu := rfl
@[simp] theorem State.modCtr_flt (f : CtrUnit → CtrUnit) : (s.modCtr f).flt = s.flt := rfl
@[simp] theorem State.modCtr_obs (f : CtrUnit → CtrUnit) : (s.modCtr f).obs = s.obs := rfl
@[simp] theorem State.modCtr_sec (f : CtrUnit → CtrUnit) : (s.modCtr f).sec = s.sec := rfl
@[simp] theorem State.modCtr_host (f : CtrUnit → CtrUnit) : (s.modCtr f).host = s.host := rfl
@[simp] theorem State.modCtr_chain (f : CtrUnit → CtrUnit) : (s.modCtr f).chain = s.chain := rfl
@[simp] theorem State.modCtr_pwr (f : CtrUnit → CtrUnit) : (s.modCtr f).pwr = s.pwr := rfl
@[simp] theorem State.modCtr_home (f : CtrUnit → CtrUnit) : (s.modCtr f).home = s.home := rfl
@[simp] theorem State.modCtr_ctr (f : CtrUnit → CtrUnit) : (s.modCtr f).ctr = f s.ctr := rfl
@[simp] theorem State.modCtr_carv (f : CtrUnit → CtrUnit) : (s.modCtr f).carv = s.carv := rfl
@[simp] theorem State.modCtr_tile (f : CtrUnit → CtrUnit) : (s.modCtr f).tile = s.tile := rfl
@[simp] theorem State.modCtr_kv (f : CtrUnit → CtrUnit) : (s.modCtr f).kv = s.kv := rfl
@[simp] theorem State.modCtr_shv (f : CtrUnit → CtrUnit) : (s.modCtr f).shv = s.shv := rfl
@[simp] theorem State.modCtr_exd (f : CtrUnit → CtrUnit) : (s.modCtr f).exd = s.exd := rfl

/-! ### modCarv -/

@[simp] theorem State.modCarv_pending (f : CarvUnit → CarvUnit) : (s.modCarv f).pending = s.pending := rfl
@[simp] theorem State.modCarv_out (f : CarvUnit → CarvUnit) : (s.modCarv f).out = s.out := rfl
@[simp] theorem State.modCarv_free (f : CarvUnit → CarvUnit) : (s.modCarv f).free = s.free := rfl
@[simp] theorem State.modCarv_nextId (f : CarvUnit → CarvUnit) : (s.modCarv f).nextId = s.nextId := rfl
@[simp] theorem State.modCarv_hub (f : CarvUnit → CarvUnit) : (s.modCarv f).hub = s.hub := rfl
@[simp] theorem State.modCarv_time (f : CarvUnit → CarvUnit) : (s.modCarv f).time = s.time := rfl
@[simp] theorem State.modCarv_link (f : CarvUnit → CarvUnit) : (s.modCarv f).link = s.link := rfl
@[simp] theorem State.modCarv_sw (f : CarvUnit → CarvUnit) : (s.modCarv f).sw = s.sw := rfl
@[simp] theorem State.modCarv_mem (f : CarvUnit → CarvUnit) : (s.modCarv f).mem = s.mem := rfl
@[simp] theorem State.modCarv_ext (f : CarvUnit → CarvUnit) : (s.modCarv f).ext = s.ext := rfl
@[simp] theorem State.modCarv_tier (f : CarvUnit → CarvUnit) : (s.modCarv f).tier = s.tier := rfl
@[simp] theorem State.modCarv_ttu (f : CarvUnit → CarvUnit) : (s.modCarv f).ttu = s.ttu := rfl
@[simp] theorem State.modCarv_flt (f : CarvUnit → CarvUnit) : (s.modCarv f).flt = s.flt := rfl
@[simp] theorem State.modCarv_obs (f : CarvUnit → CarvUnit) : (s.modCarv f).obs = s.obs := rfl
@[simp] theorem State.modCarv_sec (f : CarvUnit → CarvUnit) : (s.modCarv f).sec = s.sec := rfl
@[simp] theorem State.modCarv_host (f : CarvUnit → CarvUnit) : (s.modCarv f).host = s.host := rfl
@[simp] theorem State.modCarv_chain (f : CarvUnit → CarvUnit) : (s.modCarv f).chain = s.chain := rfl
@[simp] theorem State.modCarv_pwr (f : CarvUnit → CarvUnit) : (s.modCarv f).pwr = s.pwr := rfl
@[simp] theorem State.modCarv_home (f : CarvUnit → CarvUnit) : (s.modCarv f).home = s.home := rfl
@[simp] theorem State.modCarv_ctr (f : CarvUnit → CarvUnit) : (s.modCarv f).ctr = s.ctr := rfl
@[simp] theorem State.modCarv_carv (f : CarvUnit → CarvUnit) : (s.modCarv f).carv = f s.carv := rfl
@[simp] theorem State.modCarv_tile (f : CarvUnit → CarvUnit) : (s.modCarv f).tile = s.tile := rfl
@[simp] theorem State.modCarv_kv (f : CarvUnit → CarvUnit) : (s.modCarv f).kv = s.kv := rfl
@[simp] theorem State.modCarv_shv (f : CarvUnit → CarvUnit) : (s.modCarv f).shv = s.shv := rfl
@[simp] theorem State.modCarv_exd (f : CarvUnit → CarvUnit) : (s.modCarv f).exd = s.exd := rfl

/-! ### modTile -/

@[simp] theorem State.modTile_pending (f : TileUnit → TileUnit) : (s.modTile f).pending = s.pending := rfl
@[simp] theorem State.modTile_out (f : TileUnit → TileUnit) : (s.modTile f).out = s.out := rfl
@[simp] theorem State.modTile_free (f : TileUnit → TileUnit) : (s.modTile f).free = s.free := rfl
@[simp] theorem State.modTile_nextId (f : TileUnit → TileUnit) : (s.modTile f).nextId = s.nextId := rfl
@[simp] theorem State.modTile_hub (f : TileUnit → TileUnit) : (s.modTile f).hub = s.hub := rfl
@[simp] theorem State.modTile_time (f : TileUnit → TileUnit) : (s.modTile f).time = s.time := rfl
@[simp] theorem State.modTile_link (f : TileUnit → TileUnit) : (s.modTile f).link = s.link := rfl
@[simp] theorem State.modTile_sw (f : TileUnit → TileUnit) : (s.modTile f).sw = s.sw := rfl
@[simp] theorem State.modTile_mem (f : TileUnit → TileUnit) : (s.modTile f).mem = s.mem := rfl
@[simp] theorem State.modTile_ext (f : TileUnit → TileUnit) : (s.modTile f).ext = s.ext := rfl
@[simp] theorem State.modTile_tier (f : TileUnit → TileUnit) : (s.modTile f).tier = s.tier := rfl
@[simp] theorem State.modTile_ttu (f : TileUnit → TileUnit) : (s.modTile f).ttu = s.ttu := rfl
@[simp] theorem State.modTile_flt (f : TileUnit → TileUnit) : (s.modTile f).flt = s.flt := rfl
@[simp] theorem State.modTile_obs (f : TileUnit → TileUnit) : (s.modTile f).obs = s.obs := rfl
@[simp] theorem State.modTile_sec (f : TileUnit → TileUnit) : (s.modTile f).sec = s.sec := rfl
@[simp] theorem State.modTile_host (f : TileUnit → TileUnit) : (s.modTile f).host = s.host := rfl
@[simp] theorem State.modTile_chain (f : TileUnit → TileUnit) : (s.modTile f).chain = s.chain := rfl
@[simp] theorem State.modTile_pwr (f : TileUnit → TileUnit) : (s.modTile f).pwr = s.pwr := rfl
@[simp] theorem State.modTile_home (f : TileUnit → TileUnit) : (s.modTile f).home = s.home := rfl
@[simp] theorem State.modTile_ctr (f : TileUnit → TileUnit) : (s.modTile f).ctr = s.ctr := rfl
@[simp] theorem State.modTile_carv (f : TileUnit → TileUnit) : (s.modTile f).carv = s.carv := rfl
@[simp] theorem State.modTile_tile (f : TileUnit → TileUnit) : (s.modTile f).tile = f s.tile := rfl
@[simp] theorem State.modTile_kv (f : TileUnit → TileUnit) : (s.modTile f).kv = s.kv := rfl
@[simp] theorem State.modTile_shv (f : TileUnit → TileUnit) : (s.modTile f).shv = s.shv := rfl
@[simp] theorem State.modTile_exd (f : TileUnit → TileUnit) : (s.modTile f).exd = s.exd := rfl

/-! ### modKv -/

@[simp] theorem State.modKv_pending (f : KvUnit → KvUnit) : (s.modKv f).pending = s.pending := rfl
@[simp] theorem State.modKv_out (f : KvUnit → KvUnit) : (s.modKv f).out = s.out := rfl
@[simp] theorem State.modKv_free (f : KvUnit → KvUnit) : (s.modKv f).free = s.free := rfl
@[simp] theorem State.modKv_nextId (f : KvUnit → KvUnit) : (s.modKv f).nextId = s.nextId := rfl
@[simp] theorem State.modKv_hub (f : KvUnit → KvUnit) : (s.modKv f).hub = s.hub := rfl
@[simp] theorem State.modKv_time (f : KvUnit → KvUnit) : (s.modKv f).time = s.time := rfl
@[simp] theorem State.modKv_link (f : KvUnit → KvUnit) : (s.modKv f).link = s.link := rfl
@[simp] theorem State.modKv_sw (f : KvUnit → KvUnit) : (s.modKv f).sw = s.sw := rfl
@[simp] theorem State.modKv_mem (f : KvUnit → KvUnit) : (s.modKv f).mem = s.mem := rfl
@[simp] theorem State.modKv_ext (f : KvUnit → KvUnit) : (s.modKv f).ext = s.ext := rfl
@[simp] theorem State.modKv_tier (f : KvUnit → KvUnit) : (s.modKv f).tier = s.tier := rfl
@[simp] theorem State.modKv_ttu (f : KvUnit → KvUnit) : (s.modKv f).ttu = s.ttu := rfl
@[simp] theorem State.modKv_flt (f : KvUnit → KvUnit) : (s.modKv f).flt = s.flt := rfl
@[simp] theorem State.modKv_obs (f : KvUnit → KvUnit) : (s.modKv f).obs = s.obs := rfl
@[simp] theorem State.modKv_sec (f : KvUnit → KvUnit) : (s.modKv f).sec = s.sec := rfl
@[simp] theorem State.modKv_host (f : KvUnit → KvUnit) : (s.modKv f).host = s.host := rfl
@[simp] theorem State.modKv_chain (f : KvUnit → KvUnit) : (s.modKv f).chain = s.chain := rfl
@[simp] theorem State.modKv_pwr (f : KvUnit → KvUnit) : (s.modKv f).pwr = s.pwr := rfl
@[simp] theorem State.modKv_home (f : KvUnit → KvUnit) : (s.modKv f).home = s.home := rfl
@[simp] theorem State.modKv_ctr (f : KvUnit → KvUnit) : (s.modKv f).ctr = s.ctr := rfl
@[simp] theorem State.modKv_carv (f : KvUnit → KvUnit) : (s.modKv f).carv = s.carv := rfl
@[simp] theorem State.modKv_tile (f : KvUnit → KvUnit) : (s.modKv f).tile = s.tile := rfl
@[simp] theorem State.modKv_kv (f : KvUnit → KvUnit) : (s.modKv f).kv = f s.kv := rfl
@[simp] theorem State.modKv_shv (f : KvUnit → KvUnit) : (s.modKv f).shv = s.shv := rfl
@[simp] theorem State.modKv_exd (f : KvUnit → KvUnit) : (s.modKv f).exd = s.exd := rfl

/-! ### modShf -/

@[simp] theorem State.modShf_pending (f : ShfUnit → ShfUnit) : (s.modShf f).pending = s.pending := rfl
@[simp] theorem State.modShf_out (f : ShfUnit → ShfUnit) : (s.modShf f).out = s.out := rfl
@[simp] theorem State.modShf_free (f : ShfUnit → ShfUnit) : (s.modShf f).free = s.free := rfl
@[simp] theorem State.modShf_nextId (f : ShfUnit → ShfUnit) : (s.modShf f).nextId = s.nextId := rfl
@[simp] theorem State.modShf_hub (f : ShfUnit → ShfUnit) : (s.modShf f).hub = s.hub := rfl
@[simp] theorem State.modShf_time (f : ShfUnit → ShfUnit) : (s.modShf f).time = s.time := rfl
@[simp] theorem State.modShf_link (f : ShfUnit → ShfUnit) : (s.modShf f).link = s.link := rfl
@[simp] theorem State.modShf_sw (f : ShfUnit → ShfUnit) : (s.modShf f).sw = s.sw := rfl
@[simp] theorem State.modShf_mem (f : ShfUnit → ShfUnit) : (s.modShf f).mem = s.mem := rfl
@[simp] theorem State.modShf_ext (f : ShfUnit → ShfUnit) : (s.modShf f).ext = s.ext := rfl
@[simp] theorem State.modShf_tier (f : ShfUnit → ShfUnit) : (s.modShf f).tier = s.tier := rfl
@[simp] theorem State.modShf_ttu (f : ShfUnit → ShfUnit) : (s.modShf f).ttu = s.ttu := rfl
@[simp] theorem State.modShf_flt (f : ShfUnit → ShfUnit) : (s.modShf f).flt = s.flt := rfl
@[simp] theorem State.modShf_obs (f : ShfUnit → ShfUnit) : (s.modShf f).obs = s.obs := rfl
@[simp] theorem State.modShf_sec (f : ShfUnit → ShfUnit) : (s.modShf f).sec = s.sec := rfl
@[simp] theorem State.modShf_host (f : ShfUnit → ShfUnit) : (s.modShf f).host = s.host := rfl
@[simp] theorem State.modShf_chain (f : ShfUnit → ShfUnit) : (s.modShf f).chain = s.chain := rfl
@[simp] theorem State.modShf_pwr (f : ShfUnit → ShfUnit) : (s.modShf f).pwr = s.pwr := rfl
@[simp] theorem State.modShf_home (f : ShfUnit → ShfUnit) : (s.modShf f).home = s.home := rfl
@[simp] theorem State.modShf_ctr (f : ShfUnit → ShfUnit) : (s.modShf f).ctr = s.ctr := rfl
@[simp] theorem State.modShf_carv (f : ShfUnit → ShfUnit) : (s.modShf f).carv = s.carv := rfl
@[simp] theorem State.modShf_tile (f : ShfUnit → ShfUnit) : (s.modShf f).tile = s.tile := rfl
@[simp] theorem State.modShf_kv (f : ShfUnit → ShfUnit) : (s.modShf f).kv = s.kv := rfl
@[simp] theorem State.modShf_shv (f : ShfUnit → ShfUnit) : (s.modShf f).shv = f s.shv := rfl
@[simp] theorem State.modShf_exd (f : ShfUnit → ShfUnit) : (s.modShf f).exd = s.exd := rfl

/-! ### modExd -/

@[simp] theorem State.modExd_pending (f : ExdUnit → ExdUnit) : (s.modExd f).pending = s.pending := rfl
@[simp] theorem State.modExd_out (f : ExdUnit → ExdUnit) : (s.modExd f).out = s.out := rfl
@[simp] theorem State.modExd_free (f : ExdUnit → ExdUnit) : (s.modExd f).free = s.free := rfl
@[simp] theorem State.modExd_nextId (f : ExdUnit → ExdUnit) : (s.modExd f).nextId = s.nextId := rfl
@[simp] theorem State.modExd_hub (f : ExdUnit → ExdUnit) : (s.modExd f).hub = s.hub := rfl
@[simp] theorem State.modExd_time (f : ExdUnit → ExdUnit) : (s.modExd f).time = s.time := rfl
@[simp] theorem State.modExd_link (f : ExdUnit → ExdUnit) : (s.modExd f).link = s.link := rfl
@[simp] theorem State.modExd_sw (f : ExdUnit → ExdUnit) : (s.modExd f).sw = s.sw := rfl
@[simp] theorem State.modExd_mem (f : ExdUnit → ExdUnit) : (s.modExd f).mem = s.mem := rfl
@[simp] theorem State.modExd_ext (f : ExdUnit → ExdUnit) : (s.modExd f).ext = s.ext := rfl
@[simp] theorem State.modExd_tier (f : ExdUnit → ExdUnit) : (s.modExd f).tier = s.tier := rfl
@[simp] theorem State.modExd_ttu (f : ExdUnit → ExdUnit) : (s.modExd f).ttu = s.ttu := rfl
@[simp] theorem State.modExd_flt (f : ExdUnit → ExdUnit) : (s.modExd f).flt = s.flt := rfl
@[simp] theorem State.modExd_obs (f : ExdUnit → ExdUnit) : (s.modExd f).obs = s.obs := rfl
@[simp] theorem State.modExd_sec (f : ExdUnit → ExdUnit) : (s.modExd f).sec = s.sec := rfl
@[simp] theorem State.modExd_host (f : ExdUnit → ExdUnit) : (s.modExd f).host = s.host := rfl
@[simp] theorem State.modExd_chain (f : ExdUnit → ExdUnit) : (s.modExd f).chain = s.chain := rfl
@[simp] theorem State.modExd_pwr (f : ExdUnit → ExdUnit) : (s.modExd f).pwr = s.pwr := rfl
@[simp] theorem State.modExd_home (f : ExdUnit → ExdUnit) : (s.modExd f).home = s.home := rfl
@[simp] theorem State.modExd_ctr (f : ExdUnit → ExdUnit) : (s.modExd f).ctr = s.ctr := rfl
@[simp] theorem State.modExd_carv (f : ExdUnit → ExdUnit) : (s.modExd f).carv = s.carv := rfl
@[simp] theorem State.modExd_tile (f : ExdUnit → ExdUnit) : (s.modExd f).tile = s.tile := rfl
@[simp] theorem State.modExd_kv (f : ExdUnit → ExdUnit) : (s.modExd f).kv = s.kv := rfl
@[simp] theorem State.modExd_shv (f : ExdUnit → ExdUnit) : (s.modExd f).shv = s.shv := rfl
@[simp] theorem State.modExd_exd (f : ExdUnit → ExdUnit) : (s.modExd f).exd = f s.exd := rfl

/-! ### emit -/

@[simp] theorem State.emit_pending (e : Emit) : (s.emit e).pending = s.pending := rfl
@[simp] theorem State.emit_out (e : Emit) : (s.emit e).out = s.out ++ [e] := rfl
@[simp] theorem State.emit_free (e : Emit) : (s.emit e).free = s.free := rfl
@[simp] theorem State.emit_nextId (e : Emit) : (s.emit e).nextId = s.nextId := rfl
@[simp] theorem State.emit_hub (e : Emit) : (s.emit e).hub = s.hub := rfl
@[simp] theorem State.emit_time (e : Emit) : (s.emit e).time = s.time := rfl
@[simp] theorem State.emit_link (e : Emit) : (s.emit e).link = s.link := rfl
@[simp] theorem State.emit_sw (e : Emit) : (s.emit e).sw = s.sw := rfl
@[simp] theorem State.emit_mem (e : Emit) : (s.emit e).mem = s.mem := rfl
@[simp] theorem State.emit_ext (e : Emit) : (s.emit e).ext = s.ext := rfl
@[simp] theorem State.emit_tier (e : Emit) : (s.emit e).tier = s.tier := rfl
@[simp] theorem State.emit_ttu (e : Emit) : (s.emit e).ttu = s.ttu := rfl
@[simp] theorem State.emit_flt (e : Emit) : (s.emit e).flt = s.flt := rfl
@[simp] theorem State.emit_obs (e : Emit) : (s.emit e).obs = s.obs := rfl
@[simp] theorem State.emit_sec (e : Emit) : (s.emit e).sec = s.sec := rfl
@[simp] theorem State.emit_host (e : Emit) : (s.emit e).host = s.host := rfl
@[simp] theorem State.emit_chain (e : Emit) : (s.emit e).chain = s.chain := rfl
@[simp] theorem State.emit_pwr (e : Emit) : (s.emit e).pwr = s.pwr := rfl
@[simp] theorem State.emit_home (e : Emit) : (s.emit e).home = s.home := rfl
@[simp] theorem State.emit_ctr (e : Emit) : (s.emit e).ctr = s.ctr := rfl
@[simp] theorem State.emit_carv (e : Emit) : (s.emit e).carv = s.carv := rfl
@[simp] theorem State.emit_tile (e : Emit) : (s.emit e).tile = s.tile := rfl
@[simp] theorem State.emit_kv (e : Emit) : (s.emit e).kv = s.kv := rfl
@[simp] theorem State.emit_shv (e : Emit) : (s.emit e).shv = s.shv := rfl
@[simp] theorem State.emit_exd (e : Emit) : (s.emit e).exd = s.exd := rfl

/-! ### takeFree -/

@[simp] theorem State.takeFree_pending : (s.takeFree).pending = s.pending := rfl
@[simp] theorem State.takeFree_out : (s.takeFree).out = s.out := rfl
@[simp] theorem State.takeFree_free : (s.takeFree).free = s.free + 1 := rfl
@[simp] theorem State.takeFree_nextId : (s.takeFree).nextId = s.nextId := rfl
@[simp] theorem State.takeFree_hub : (s.takeFree).hub = s.hub := rfl
@[simp] theorem State.takeFree_time : (s.takeFree).time = s.time := rfl
@[simp] theorem State.takeFree_link : (s.takeFree).link = s.link := rfl
@[simp] theorem State.takeFree_sw : (s.takeFree).sw = s.sw := rfl
@[simp] theorem State.takeFree_mem : (s.takeFree).mem = s.mem := rfl
@[simp] theorem State.takeFree_ext : (s.takeFree).ext = s.ext := rfl
@[simp] theorem State.takeFree_tier : (s.takeFree).tier = s.tier := rfl
@[simp] theorem State.takeFree_ttu : (s.takeFree).ttu = s.ttu := rfl
@[simp] theorem State.takeFree_flt : (s.takeFree).flt = s.flt := rfl
@[simp] theorem State.takeFree_obs : (s.takeFree).obs = s.obs := rfl
@[simp] theorem State.takeFree_sec : (s.takeFree).sec = s.sec := rfl
@[simp] theorem State.takeFree_host : (s.takeFree).host = s.host := rfl
@[simp] theorem State.takeFree_chain : (s.takeFree).chain = s.chain := rfl
@[simp] theorem State.takeFree_pwr : (s.takeFree).pwr = s.pwr := rfl
@[simp] theorem State.takeFree_home : (s.takeFree).home = s.home := rfl
@[simp] theorem State.takeFree_ctr : (s.takeFree).ctr = s.ctr := rfl
@[simp] theorem State.takeFree_carv : (s.takeFree).carv = s.carv := rfl
@[simp] theorem State.takeFree_tile : (s.takeFree).tile = s.tile := rfl
@[simp] theorem State.takeFree_kv : (s.takeFree).kv = s.kv := rfl
@[simp] theorem State.takeFree_shv : (s.takeFree).shv = s.shv := rfl
@[simp] theorem State.takeFree_exd : (s.takeFree).exd = s.exd := rfl

/-! ### takeFrees -/

@[simp] theorem State.takeFrees_pending (n : Nat) : (s.takeFrees n).pending = s.pending := rfl
@[simp] theorem State.takeFrees_out (n : Nat) : (s.takeFrees n).out = s.out := rfl
@[simp] theorem State.takeFrees_free (n : Nat) : (s.takeFrees n).free = s.free + n := rfl
@[simp] theorem State.takeFrees_nextId (n : Nat) : (s.takeFrees n).nextId = s.nextId := rfl
@[simp] theorem State.takeFrees_hub (n : Nat) : (s.takeFrees n).hub = s.hub := rfl
@[simp] theorem State.takeFrees_time (n : Nat) : (s.takeFrees n).time = s.time := rfl
@[simp] theorem State.takeFrees_link (n : Nat) : (s.takeFrees n).link = s.link := rfl
@[simp] theorem State.takeFrees_sw (n : Nat) : (s.takeFrees n).sw = s.sw := rfl
@[simp] theorem State.takeFrees_mem (n : Nat) : (s.takeFrees n).mem = s.mem := rfl
@[simp] theorem State.takeFrees_ext (n : Nat) : (s.takeFrees n).ext = s.ext := rfl
@[simp] theorem State.takeFrees_tier (n : Nat) : (s.takeFrees n).tier = s.tier := rfl
@[simp] theorem State.takeFrees_ttu (n : Nat) : (s.takeFrees n).ttu = s.ttu := rfl
@[simp] theorem State.takeFrees_flt (n : Nat) : (s.takeFrees n).flt = s.flt := rfl
@[simp] theorem State.takeFrees_obs (n : Nat) : (s.takeFrees n).obs = s.obs := rfl
@[simp] theorem State.takeFrees_sec (n : Nat) : (s.takeFrees n).sec = s.sec := rfl
@[simp] theorem State.takeFrees_host (n : Nat) : (s.takeFrees n).host = s.host := rfl
@[simp] theorem State.takeFrees_chain (n : Nat) : (s.takeFrees n).chain = s.chain := rfl
@[simp] theorem State.takeFrees_pwr (n : Nat) : (s.takeFrees n).pwr = s.pwr := rfl
@[simp] theorem State.takeFrees_home (n : Nat) : (s.takeFrees n).home = s.home := rfl
@[simp] theorem State.takeFrees_ctr (n : Nat) : (s.takeFrees n).ctr = s.ctr := rfl
@[simp] theorem State.takeFrees_carv (n : Nat) : (s.takeFrees n).carv = s.carv := rfl
@[simp] theorem State.takeFrees_tile (n : Nat) : (s.takeFrees n).tile = s.tile := rfl
@[simp] theorem State.takeFrees_kv (n : Nat) : (s.takeFrees n).kv = s.kv := rfl
@[simp] theorem State.takeFrees_shv (n : Nat) : (s.takeFrees n).shv = s.shv := rfl
@[simp] theorem State.takeFrees_exd (n : Nat) : (s.takeFrees n).exd = s.exd := rfl

/-! ### takeNames -/

@[simp] theorem State.takeNames_pending (n : Nat) : (s.takeNames n).pending = s.pending := rfl
@[simp] theorem State.takeNames_out (n : Nat) : (s.takeNames n).out = s.out := rfl
@[simp] theorem State.takeNames_free (n : Nat) : (s.takeNames n).free = s.free := rfl
@[simp] theorem State.takeNames_nextId (n : Nat) : (s.takeNames n).nextId = s.nextId + n := rfl
@[simp] theorem State.takeNames_hub (n : Nat) : (s.takeNames n).hub = s.hub := rfl
@[simp] theorem State.takeNames_time (n : Nat) : (s.takeNames n).time = s.time := rfl
@[simp] theorem State.takeNames_link (n : Nat) : (s.takeNames n).link = s.link := rfl
@[simp] theorem State.takeNames_sw (n : Nat) : (s.takeNames n).sw = s.sw := rfl
@[simp] theorem State.takeNames_mem (n : Nat) : (s.takeNames n).mem = s.mem := rfl
@[simp] theorem State.takeNames_ext (n : Nat) : (s.takeNames n).ext = s.ext := rfl
@[simp] theorem State.takeNames_tier (n : Nat) : (s.takeNames n).tier = s.tier := rfl
@[simp] theorem State.takeNames_ttu (n : Nat) : (s.takeNames n).ttu = s.ttu := rfl
@[simp] theorem State.takeNames_flt (n : Nat) : (s.takeNames n).flt = s.flt := rfl
@[simp] theorem State.takeNames_obs (n : Nat) : (s.takeNames n).obs = s.obs := rfl
@[simp] theorem State.takeNames_sec (n : Nat) : (s.takeNames n).sec = s.sec := rfl
@[simp] theorem State.takeNames_host (n : Nat) : (s.takeNames n).host = s.host := rfl
@[simp] theorem State.takeNames_chain (n : Nat) : (s.takeNames n).chain = s.chain := rfl
@[simp] theorem State.takeNames_pwr (n : Nat) : (s.takeNames n).pwr = s.pwr := rfl
@[simp] theorem State.takeNames_home (n : Nat) : (s.takeNames n).home = s.home := rfl
@[simp] theorem State.takeNames_ctr (n : Nat) : (s.takeNames n).ctr = s.ctr := rfl
@[simp] theorem State.takeNames_carv (n : Nat) : (s.takeNames n).carv = s.carv := rfl
@[simp] theorem State.takeNames_tile (n : Nat) : (s.takeNames n).tile = s.tile := rfl
@[simp] theorem State.takeNames_kv (n : Nat) : (s.takeNames n).kv = s.kv := rfl
@[simp] theorem State.takeNames_shv (n : Nat) : (s.takeNames n).shv = s.shv := rfl
@[simp] theorem State.takeNames_exd (n : Nat) : (s.takeNames n).exd = s.exd := rfl

/-! ### setRg -/

@[simp] theorem State.setRg_pending (a : Nat) (v : Word) : (s.setRg a v).pending = s.pending := rfl
@[simp] theorem State.setRg_out (a : Nat) (v : Word) : (s.setRg a v).out = s.out := rfl
@[simp] theorem State.setRg_free (a : Nat) (v : Word) : (s.setRg a v).free = s.free := rfl
@[simp] theorem State.setRg_nextId (a : Nat) (v : Word) : (s.setRg a v).nextId = s.nextId := rfl
@[simp] theorem State.setRg_hub (a : Nat) (v : Word) : (s.setRg a v).hub = { s.hub with regs := s.hub.regs.set a (if v = regReset a then none else some v) } := rfl
@[simp] theorem State.setRg_time (a : Nat) (v : Word) : (s.setRg a v).time = s.time := rfl
@[simp] theorem State.setRg_link (a : Nat) (v : Word) : (s.setRg a v).link = s.link := rfl
@[simp] theorem State.setRg_sw (a : Nat) (v : Word) : (s.setRg a v).sw = s.sw := rfl
@[simp] theorem State.setRg_mem (a : Nat) (v : Word) : (s.setRg a v).mem = s.mem := rfl
@[simp] theorem State.setRg_ext (a : Nat) (v : Word) : (s.setRg a v).ext = s.ext := rfl
@[simp] theorem State.setRg_tier (a : Nat) (v : Word) : (s.setRg a v).tier = s.tier := rfl
@[simp] theorem State.setRg_ttu (a : Nat) (v : Word) : (s.setRg a v).ttu = s.ttu := rfl
@[simp] theorem State.setRg_flt (a : Nat) (v : Word) : (s.setRg a v).flt = s.flt := rfl
@[simp] theorem State.setRg_obs (a : Nat) (v : Word) : (s.setRg a v).obs = s.obs := rfl
@[simp] theorem State.setRg_sec (a : Nat) (v : Word) : (s.setRg a v).sec = s.sec := rfl
@[simp] theorem State.setRg_host (a : Nat) (v : Word) : (s.setRg a v).host = s.host := rfl
@[simp] theorem State.setRg_chain (a : Nat) (v : Word) : (s.setRg a v).chain = s.chain := rfl
@[simp] theorem State.setRg_pwr (a : Nat) (v : Word) : (s.setRg a v).pwr = s.pwr := rfl
@[simp] theorem State.setRg_home (a : Nat) (v : Word) : (s.setRg a v).home = s.home := rfl
@[simp] theorem State.setRg_ctr (a : Nat) (v : Word) : (s.setRg a v).ctr = s.ctr := rfl
@[simp] theorem State.setRg_carv (a : Nat) (v : Word) : (s.setRg a v).carv = s.carv := rfl
@[simp] theorem State.setRg_tile (a : Nat) (v : Word) : (s.setRg a v).tile = s.tile := rfl
@[simp] theorem State.setRg_kv (a : Nat) (v : Word) : (s.setRg a v).kv = s.kv := rfl
@[simp] theorem State.setRg_shv (a : Nat) (v : Word) : (s.setRg a v).shv = s.shv := rfl
@[simp] theorem State.setRg_exd (a : Nat) (v : Word) : (s.setRg a v).exd = s.exd := rfl

/-! ### setCnt -/

@[simp] theorem State.setCnt_pending (a : Nat) (v : BitVec 64) : (s.setCnt a v).pending = s.pending := rfl
@[simp] theorem State.setCnt_out (a : Nat) (v : BitVec 64) : (s.setCnt a v).out = s.out := rfl
@[simp] theorem State.setCnt_free (a : Nat) (v : BitVec 64) : (s.setCnt a v).free = s.free := rfl
@[simp] theorem State.setCnt_nextId (a : Nat) (v : BitVec 64) : (s.setCnt a v).nextId = s.nextId := rfl
@[simp] theorem State.setCnt_hub (a : Nat) (v : BitVec 64) : (s.setCnt a v).hub = { s.hub with cnts := s.hub.cnts.set a v } := rfl
@[simp] theorem State.setCnt_time (a : Nat) (v : BitVec 64) : (s.setCnt a v).time = s.time := rfl
@[simp] theorem State.setCnt_link (a : Nat) (v : BitVec 64) : (s.setCnt a v).link = s.link := rfl
@[simp] theorem State.setCnt_sw (a : Nat) (v : BitVec 64) : (s.setCnt a v).sw = s.sw := rfl
@[simp] theorem State.setCnt_mem (a : Nat) (v : BitVec 64) : (s.setCnt a v).mem = s.mem := rfl
@[simp] theorem State.setCnt_ext (a : Nat) (v : BitVec 64) : (s.setCnt a v).ext = s.ext := rfl
@[simp] theorem State.setCnt_tier (a : Nat) (v : BitVec 64) : (s.setCnt a v).tier = s.tier := rfl
@[simp] theorem State.setCnt_ttu (a : Nat) (v : BitVec 64) : (s.setCnt a v).ttu = s.ttu := rfl
@[simp] theorem State.setCnt_flt (a : Nat) (v : BitVec 64) : (s.setCnt a v).flt = s.flt := rfl
@[simp] theorem State.setCnt_obs (a : Nat) (v : BitVec 64) : (s.setCnt a v).obs = s.obs := rfl
@[simp] theorem State.setCnt_sec (a : Nat) (v : BitVec 64) : (s.setCnt a v).sec = s.sec := rfl
@[simp] theorem State.setCnt_host (a : Nat) (v : BitVec 64) : (s.setCnt a v).host = s.host := rfl
@[simp] theorem State.setCnt_chain (a : Nat) (v : BitVec 64) : (s.setCnt a v).chain = s.chain := rfl
@[simp] theorem State.setCnt_pwr (a : Nat) (v : BitVec 64) : (s.setCnt a v).pwr = s.pwr := rfl
@[simp] theorem State.setCnt_home (a : Nat) (v : BitVec 64) : (s.setCnt a v).home = s.home := rfl
@[simp] theorem State.setCnt_ctr (a : Nat) (v : BitVec 64) : (s.setCnt a v).ctr = s.ctr := rfl
@[simp] theorem State.setCnt_carv (a : Nat) (v : BitVec 64) : (s.setCnt a v).carv = s.carv := rfl
@[simp] theorem State.setCnt_tile (a : Nat) (v : BitVec 64) : (s.setCnt a v).tile = s.tile := rfl
@[simp] theorem State.setCnt_kv (a : Nat) (v : BitVec 64) : (s.setCnt a v).kv = s.kv := rfl
@[simp] theorem State.setCnt_shv (a : Nat) (v : BitVec 64) : (s.setCnt a v).shv = s.shv := rfl
@[simp] theorem State.setCnt_exd (a : Nat) (v : BitVec 64) : (s.setCnt a v).exd = s.exd := rfl

/-! ### setBarn -/

@[simp] theorem State.setBarn_pending (a : Nat) (bs : List Byte) : (s.setBarn a bs).pending = s.pending := rfl
@[simp] theorem State.setBarn_out (a : Nat) (bs : List Byte) : (s.setBarn a bs).out = s.out := rfl
@[simp] theorem State.setBarn_free (a : Nat) (bs : List Byte) : (s.setBarn a bs).free = s.free := rfl
@[simp] theorem State.setBarn_nextId (a : Nat) (bs : List Byte) : (s.setBarn a bs).nextId = s.nextId := rfl
@[simp] theorem State.setBarn_hub (a : Nat) (bs : List Byte) : (s.setBarn a bs).hub = s.hub := rfl
@[simp] theorem State.setBarn_time (a : Nat) (bs : List Byte) : (s.setBarn a bs).time = s.time := rfl
@[simp] theorem State.setBarn_link (a : Nat) (bs : List Byte) : (s.setBarn a bs).link = s.link := rfl
@[simp] theorem State.setBarn_sw (a : Nat) (bs : List Byte) : (s.setBarn a bs).sw = s.sw := rfl
@[simp] theorem State.setBarn_mem (a : Nat) (bs : List Byte) : (s.setBarn a bs).mem = s.mem.store a bs := rfl
@[simp] theorem State.setBarn_ext (a : Nat) (bs : List Byte) : (s.setBarn a bs).ext = s.ext := rfl
@[simp] theorem State.setBarn_tier (a : Nat) (bs : List Byte) : (s.setBarn a bs).tier = s.tier := rfl
@[simp] theorem State.setBarn_ttu (a : Nat) (bs : List Byte) : (s.setBarn a bs).ttu = s.ttu := rfl
@[simp] theorem State.setBarn_flt (a : Nat) (bs : List Byte) : (s.setBarn a bs).flt = s.flt := rfl
@[simp] theorem State.setBarn_obs (a : Nat) (bs : List Byte) : (s.setBarn a bs).obs = s.obs := rfl
@[simp] theorem State.setBarn_sec (a : Nat) (bs : List Byte) : (s.setBarn a bs).sec = s.sec := rfl
@[simp] theorem State.setBarn_host (a : Nat) (bs : List Byte) : (s.setBarn a bs).host = s.host := rfl
@[simp] theorem State.setBarn_chain (a : Nat) (bs : List Byte) : (s.setBarn a bs).chain = s.chain := rfl
@[simp] theorem State.setBarn_pwr (a : Nat) (bs : List Byte) : (s.setBarn a bs).pwr = s.pwr := rfl
@[simp] theorem State.setBarn_home (a : Nat) (bs : List Byte) : (s.setBarn a bs).home = s.home := rfl
@[simp] theorem State.setBarn_ctr (a : Nat) (bs : List Byte) : (s.setBarn a bs).ctr = s.ctr := rfl
@[simp] theorem State.setBarn_carv (a : Nat) (bs : List Byte) : (s.setBarn a bs).carv = s.carv := rfl
@[simp] theorem State.setBarn_tile (a : Nat) (bs : List Byte) : (s.setBarn a bs).tile = s.tile := rfl
@[simp] theorem State.setBarn_kv (a : Nat) (bs : List Byte) : (s.setBarn a bs).kv = s.kv := rfl
@[simp] theorem State.setBarn_shv (a : Nat) (bs : List Byte) : (s.setBarn a bs).shv = s.shv := rfl
@[simp] theorem State.setBarn_exd (a : Nat) (bs : List Byte) : (s.setBarn a bs).exd = s.exd := rfl

/-! ### setPoison -/

@[simp] theorem State.setPoison_pending (l : Nat) (v : Bool) : (s.setPoison l v).pending = s.pending := rfl
@[simp] theorem State.setPoison_out (l : Nat) (v : Bool) : (s.setPoison l v).out = s.out := rfl
@[simp] theorem State.setPoison_free (l : Nat) (v : Bool) : (s.setPoison l v).free = s.free := rfl
@[simp] theorem State.setPoison_nextId (l : Nat) (v : Bool) : (s.setPoison l v).nextId = s.nextId := rfl
@[simp] theorem State.setPoison_hub (l : Nat) (v : Bool) : (s.setPoison l v).hub = s.hub := rfl
@[simp] theorem State.setPoison_time (l : Nat) (v : Bool) : (s.setPoison l v).time = s.time := rfl
@[simp] theorem State.setPoison_link (l : Nat) (v : Bool) : (s.setPoison l v).link = s.link := rfl
@[simp] theorem State.setPoison_sw (l : Nat) (v : Bool) : (s.setPoison l v).sw = s.sw := rfl
@[simp] theorem State.setPoison_mem (l : Nat) (v : Bool) : (s.setPoison l v).mem = { s.mem with poison := s.mem.poison.set l v } := rfl
@[simp] theorem State.setPoison_ext (l : Nat) (v : Bool) : (s.setPoison l v).ext = s.ext := rfl
@[simp] theorem State.setPoison_tier (l : Nat) (v : Bool) : (s.setPoison l v).tier = s.tier := rfl
@[simp] theorem State.setPoison_ttu (l : Nat) (v : Bool) : (s.setPoison l v).ttu = s.ttu := rfl
@[simp] theorem State.setPoison_flt (l : Nat) (v : Bool) : (s.setPoison l v).flt = s.flt := rfl
@[simp] theorem State.setPoison_obs (l : Nat) (v : Bool) : (s.setPoison l v).obs = s.obs := rfl
@[simp] theorem State.setPoison_sec (l : Nat) (v : Bool) : (s.setPoison l v).sec = s.sec := rfl
@[simp] theorem State.setPoison_host (l : Nat) (v : Bool) : (s.setPoison l v).host = s.host := rfl
@[simp] theorem State.setPoison_chain (l : Nat) (v : Bool) : (s.setPoison l v).chain = s.chain := rfl
@[simp] theorem State.setPoison_pwr (l : Nat) (v : Bool) : (s.setPoison l v).pwr = s.pwr := rfl
@[simp] theorem State.setPoison_home (l : Nat) (v : Bool) : (s.setPoison l v).home = s.home := rfl
@[simp] theorem State.setPoison_ctr (l : Nat) (v : Bool) : (s.setPoison l v).ctr = s.ctr := rfl
@[simp] theorem State.setPoison_carv (l : Nat) (v : Bool) : (s.setPoison l v).carv = s.carv := rfl
@[simp] theorem State.setPoison_tile (l : Nat) (v : Bool) : (s.setPoison l v).tile = s.tile := rfl
@[simp] theorem State.setPoison_kv (l : Nat) (v : Bool) : (s.setPoison l v).kv = s.kv := rfl
@[simp] theorem State.setPoison_shv (l : Nat) (v : Bool) : (s.setPoison l v).shv = s.shv := rfl
@[simp] theorem State.setPoison_exd (l : Nat) (v : Bool) : (s.setPoison l v).exd = s.exd := rfl

end Sys2Proof.Machine
end

