-- ==== Sys2Proof/Laws/Reads.lean ====
section
/-! SUPPORT. What a state reads after a change of one register, port or table entry, and what a register write that
is taken does. -/

set_option Elab.async false

namespace Sys2Proof.Machine
open Sys2Proof

/-- A register write that is taken acts. -/
theorem guarded_of_takes {s : State} {src : Source} {a : Nat} {acc : Access} (act : State → State)
    (h : s.takes src a acc = true) : s.guarded src a acc act = act s := by
  unfold State.takes at h
  unfold State.guarded
  rw [Bool.and_eq_true] at h
  obtain ⟨h0, h⟩ := h
  rw [h0]
  cases hp : pageAt a with
  | none => rw [hp] at h; cases h
  | some x =>
    obtain ⟨k, i, o⟩ := x
    rw [hp] at h
    simp only [Bool.and_eq_true] at h
    obtain ⟨⟨h1, h2⟩, h3⟩ := h
    cases acc <;> simp_all

/-- A changed port, where the change is no return to reset. -/
theorem port_modPort_self (s : State) (p : Nat) (f : Port → Port) (h : f (s.port p) ≠ default) :
    (s.modPort p f).port p = f (s.port p) :=
  get_set_ne _ _ _ h

theorem port_modPort_other (s : State) (p q : Nat) (f : Port → Port) (h : q ≠ p) :
    (s.modPort p f).port q = s.port q :=
  get_set_other _ _ _ _ h

@[simp] theorem State.emit_port (s : State) (e : Emit) (p : Nat) : (s.emit e).port p = s.port p := rfl
@[simp] theorem State.bump_port (s : State) (a n p : Nat) : (s.bump a n).port p = s.port p := rfl
@[simp] theorem State.setRg_port (s : State) (a : Nat) (v : Word) (p : Nat) : (s.setRg a v).port p = s.port p := rfl
@[simp] theorem State.setRf_port (s : State) (a hi lo v p : Nat) : (s.setRf a hi lo v).port p = s.port p := rfl

end Sys2Proof.Machine
end

