-- ==== Sys2Proof/WellFormed.lean ====
section
/-! DEFINITION. Which commands the outside world can send: every operand names a thing of the hardware or
fits the field that carries it. The meanings are total, so a command that is not well-formed has one too; it stands
for nothing on the hardware. -/

set_option Elab.async false

namespace Sys2Proof

/-- Bytes of the barn that the host's window covers (288 GiB). -/
def barnWindow : Nat := 288 * 2 ^ 30

/-- The operands of a command are in range (log entry 12). -/
def wellFormed : Instr → Bool
  | .regWrite _ _ addr data => decide (addr % 4 = 0) && !data.isEmpty
  | .tableWindowWrite _ addr _ => decide (addr % 4 = 0) && decide (addr < 2 ^ 26)
  | .counterLoRead _ _ addr count => decide (addr % 4 = 0) && decide (0 < count)
  | .lockWrite _ addr _ => decide (addr % 4 = 0) && decide (addr < 2 ^ 26)
  | .errClear _ addr _ => decide (addr % 4 = 0) && decide (addr < 2 ^ 26)
  | .timeNowRead _ => true
  | .timeSetWrite _ _ => true
  | .timeSetEffect => true
  | .gmCfgWrite _ _ => true
  | .syncBeaconSend p => decide (p < 512)
  | .syncRx p pkt => decide (p < 512) && decide (pkt.body.length ≤ 8176)
  | .delayReqRx p pkt => decide (p < 512) && decide (pkt.body.length ≤ 8176)
  | .delayRspRx p pkt => decide (p < 512) && decide (pkt.body.length ≤ 8176)
  | .gptpMessageRx p _ => decide (p < 512)
  | .upstreamSilent => true
  | .listenClaimTimerEnd => true
  | .backoffTimerEnd => true
  | .ppsInEdge => true
  | .ppsLost => true
  | .ppsOutRise => true
  | .refLost => true
  | .ttDataHiWrite _ p _ => decide (p < 512)
  | .ttCommit _ p _ => decide (p < 512)
  | .ttCancel _ p _ => decide (p < 512)
  | .ttSwitch p => decide (p < 512)
  | .ttEntryBoundary p => decide (p < 512)
  | .octetApply _ n _ => decide (n < 64)
  | .portEnable _ p _ => decide (p < 512)
  | .portDisable _ p _ => decide (p < 512)
  | .portRetrain _ p _ => decide (p < 512)
  | .signalDetect p => decide (p < 512)
  | .signalLost p lane => decide (p < 512) && decide (lane < 16)
  | .equalisationDone p errors received => decide (p < 512) && decide (errors.length ≤ 16) && decide (received < 2 ^ 16)
  | .portTimerExpire p => decide (p < 512)
  | .paramSend p => decide (p < 512)
  | .creditAdvSend p => decide (p < 512)
  | .paramRx p rec => decide (p < 512) && decide (rec.length = 64)
  | .creditAdvRx p rec => decide (p < 512) && decide (rec.length = 64)
  | .retrainReqRx p rec => decide (p < 512) && decide (rec.length = 64)
  | .dataFlitRx p flit => decide (p < 512) && decide (flit.length = 256)
  | .idleFlitRx p flit => decide (p < 512) && decide (flit.length = 256)
  | .flitTx p => decide (p < 512)
  | .ethFrameRx p _ _ => decide (p < 512)
  | .pfcFrameRx p _ => decide (p < 512)
  | .pfcPauseExpire p prio => decide (p < 512) && decide (prio < 8)
  | .pfcSend p => decide (p < 512)
  | .pfcRefresh p tc => decide (p < 512) && decide (tc < 8)
  | .pfcWatchdog p tc => decide (p < 512) && decide (tc < 8)
  | .cxlTrain p _ => decide (p < 512)
  | .cxlMemdataRx p tag data _ devLoad => decide (p < 512) && decide (tag < 2 ^ 23) && decide (data.length = 64) && decide (devLoad < 4)
  | .cxlDeviceRequest p => decide (p < 512)
  | .cxlMsiWrite p addr _ => decide (p < 512) && decide (addr < 2 ^ 64)
  | .cxlCfgGo _ p _ => decide (p < 512)
  | .cxlCfgCompletion p _ _ => decide (p < 512)
  | .cxlCfgTimeout p => decide (p < 512)
  | .cxlLinkFatal p _ => decide (p < 512)
  | .hdmEnable _ p i _ => decide (p < 512) && decide (i < 4)
  | .packetRx p pkt => decide (p < 512) && decide (pkt.body.length ≤ 8176)
  | .egressGrant p => decide (p < 512)
  | .packetTxDone p => decide (p < 512)
  | .starvePromote p _ => decide (p < 512)
  | .shaperCfgWrite _ p i _ => decide (p < 512) && decide (i < 9)
  | .shaperReset _ p i _ => decide (p < 512) && decide (i < 9)
  | .queueSample die => decide (die < 2)
  | .mreqRx p pkt => decide (p < 512) && decide (pkt.body.length ≤ 8176)
  | .mreqIssue _ => true
  | .targetRspRx p pkt => decide (p < 512) && decide (pkt.body.length ≤ 8176)
  | .barnAccessDone tag => decide (tag < 65536)
  | .responseCellWaitEnd => true
  | .targetTimeout p => decide (p < 512)
  | .targetDeadClear _ p _ => decide (p < 512)
  | .jobActivate _ j => decide (j < 1024)
  | .jobStop _ j => decide (j < 1024)
  | .jobRelease _ j => decide (j < 1024)
  | .jobDrained j => decide (j < 1024)
  | .jobInval _ j _ => decide (j < 1024)
  | .invalDone j => decide (j < 1024)
  | .creqRx p pkt => decide (p < 512) && decide (pkt.body.length ≤ 8176)
  | .trackerStart _ => true
  | .snpRespRx p pkt => decide (p < 512) && decide (pkt.body.length ≤ 8176)
  | .cdatHomeRx p pkt => decide (p < 512) && decide (pkt.body.length ≤ 8176)
  | .compAckRx p pkt => decide (p < 512) && decide (pkt.body.length ≤ 8176)
  | .snoopTimeout t => decide (t < 16384)
  | .agentDeadWrite _ k a => decide (k < 16) && decide (a < 2048)
  | .domEnable _ k => decide (k < 16)
  | .domFlush _ k => decide (k < 16)
  | .domReset _ k => decide (k < 16)
  | .domSweepDone k => decide (k < 16)
  | .extCreate _ => true
  | .extFence _ => true
  | .extReclaim _ => true
  | .leaseGrant _ => true
  | .leaseRenew _ => true
  | .leaseRelease _ => true
  | .snapCreate _ recCount => decide (recCount < 2 ^ 32)
  | .snapInitDone r => decide (r < 2 ^ 32)
  | .snapOpen _ => true
  | .viewAttach _ => true
  | .viewDetach _ => true
  | .snapClose _ => true
  | .snapDestroy _ => true
  | .drainStart => true
  | .drainEnd => true
  | .leaseExpiry k => decide (k < 2 ^ 32)
  | .snapSweepStart r => decide (r < 2 ^ 32)
  | .snapSweepEnd r => decide (r < 2 ^ 32)
  | .tierEnable _ => true
  | .tierDisable _ => true
  | .tierStage _ => true
  | .tierStagePin _ => true
  | .tierUnpin _ => true
  | .tierFlush _ => true
  | .tierEvict _ => true
  | .tierDiscard _ => true
  | .tierTrim _ => true
  | .tierCmdDone => true
  | .fillDone f sec => decide (f < 2 ^ 32) && decide (sec < 2 ^ 8)
  | .writebackDone f sec => decide (f < 2 ^ 32) && decide (sec < 2 ^ 8)
  | .granReqTimeout tag => decide (tag < 65536)
  | .granEnable _ => true
  | .granDisable _ => true
  | .granFormat _ _ spare => decide (spare ≤ 100)
  | .granWorkDone _ _ _ _ => true
  | .nandReadDone pun sec _ corr data _ => decide (pun < 2 ^ 32) && decide (sec < 2 ^ 8) && decide (corr < 2 ^ 32) && (decide (data.length = 4096) || data.isEmpty)
  | .nandProgramDone pun _ => decide (pun < 2 ^ 32)
  | .nandEraseDone bn _ => decide (bn < 2 ^ 32)
  | .gcRound c => decide (c < 16)
  | .wlRelocate c => decide (c < 16)
  | .journalProgram => true
  | .checkpointWrite => true
  | .granWalkEnd => true
  | .legOpen _ d l => decide (d < 2) && decide (l < 2 ^ 16)
  | .legClose _ d l => decide (d < 2) && decide (l < 2 ^ 16)
  | .wqEnable _ d q => decide (d < 2) && decide (q < 2 ^ 16)
  | .wqDisable _ d q => decide (d < 2) && decide (q < 2 ^ 16)
  | .wqPost _ d q => decide (d < 2) && decide (q < 2 ^ 16)
  | .soArm _ d k => decide (d < 2) && decide (k < 2 ^ 16)
  | .soCancel _ d k => decide (d < 2) && decide (k < 2 ^ 16)
  | .legOpenResend l => decide (l < 8192)
  | .legRto l => decide (l < 8192)
  | .ackDelayExpire l => decide (l < 8192)
  | .carvDataRx p pkt => decide (p < 512) && decide (pkt.body.length ≤ 8176)
  | .carvReadReqRx p pkt => decide (p < 512) && decide (pkt.body.length ≤ 8176)
  | .carvReadDataRx p pkt => decide (p < 512) && decide (pkt.body.length ≤ 8176)
  | .carvResultRx p pkt => decide (p < 512) && decide (pkt.body.length ≤ 8176)
  | .carvAckRx p pkt => decide (p < 512) && decide (pkt.body.length ≤ 8176)
  | .carvNakRx p pkt => decide (p < 512) && decide (pkt.body.length ≤ 8176)
  | .carvOpenRx p pkt => decide (p < 512) && decide (pkt.body.length ≤ 8176)
  | .carvOpenAckRx p pkt => decide (p < 512) && decide (pkt.body.length ≤ 8176)
  | .carvCloseRx p pkt => decide (p < 512) && decide (pkt.body.length ≤ 8176)
  | .postWqeRx p pkt => decide (p < 512) && decide (pkt.body.length ≤ 8176)
  | .postSoRx p pkt => decide (p < 512) && decide (pkt.body.length ≤ 8176)
  | .wqeIssue q => decide (q < 4096)
  | .carvMemRsp p pkt => decide (p < 512) && decide (pkt.body.length ≤ 8176)
  | .soAction d => decide (d < 2)
  | .descWrite p pkt => decide (p < 512) && decide (pkt.body.length ≤ 8176)
  | .hostSubmit _ t _ => decide (t < 8)
  | .descStart t => decide (t < 8)
  | .tileFabricRsp p pkt => decide (p < 512) && decide (pkt.body.length ≤ 8176)
  | .descEnd _ => true
  | .descCplRsp p pkt => decide (p < 512) && decide (pkt.body.length ≤ 8176)
  | .hlAssign _ t => decide (t < 8)
  | .hlAssignDone t => decide (t < 8)
  | .hlRelease _ t => decide (t < 8)
  | .tileEnable _ t => decide (t < 8)
  | .tileDisable _ t => decide (t < 8)
  | .sheafEnable _ d k => decide (d < 2) && decide (k < 2 ^ 16)
  | .sheafDisable _ d k => decide (d < 2) && decide (k < 2 ^ 16)
  | .sheafAbortCmd _ d k => decide (d < 2) && decide (k < 2 ^ 16)
  | .sheafReset _ d k => decide (d < 2) && decide (k < 2 ^ 16)
  | .sheafUpRx p pkt => decide (p < 512) && decide (pkt.body.length ≤ 8176)
  | .sheafDownRx p pkt => decide (p < 512) && decide (pkt.body.length ≤ 8176)
  | .sheafAbortRx p pkt => decide (p < 512) && decide (pkt.body.length ≤ 8176)
  | .sheafPhaseTimeout k => decide (k < 4096)
  | .sheafLinkLoss p => decide (p < 512)
  | .ctrValueWrite _ c _ => decide (c < 16384)
  | .ctrThreshWrite _ c _ => decide (c < 16384)
  | .ctrAdd _ c _ => decide (c < 16384)
  | .ctrCfgWrite _ c _ => decide (c < 16384)
  | .ctrEventRead _ d => decide (d < 2)
  | .kvPoolEnable _ p => decide (p < 16)
  | .kvPoolDisable _ p => decide (p < 16)
  | .kvPoolReset _ p => decide (p < 16)
  | .kvPoolInitDone p => decide (p < 16)
  | .kvSeqCreate _ q => decide (q < 2 ^ 32)
  | .kvSeqDestroy _ q => decide (q < 2 ^ 32)
  | .kvSeqPreempt _ q => decide (q < 2 ^ 32)
  | .kvSeqResume _ q => decide (q < 2 ^ 32)
  | .kvSeqWorkDone q => decide (q < 262144)
  | .kvAppend _ => true
  | .kvFork _ => true
  | .kvClear _ => true
  | .kvEpochFlip => true
  | .kvEpochEnd => true
  | .kvAutoPreempt p => decide (p < 16)
  | .exdEnable _ l => decide (l < 256)
  | .exdDisable _ l => decide (l < 256)
  | .expertSync _ l => decide (l < 256)
  | .tokenWrite p pkt => decide (p < 512) && decide (pkt.body.length ≤ 8176)
  | .tokenDecide d => decide (d < 2)
  | .exdWriteRsp p pkt => decide (p < 512) && decide (pkt.body.length ≤ 8176)
  | .expertOutputWrite p pkt => decide (p < 512) && decide (pkt.body.length ≤ 8176)
  | .cmbTimeout l e => decide (l < 256) && decide (e < 32768)
  | .cmbCombine l e => decide (l < 256) && decide (e < 32768)
  | .cmbQuarEnd l e => decide (l < 256) && decide (e < 32768)
  | .modeSealed _ => true
  | .modeShared _ => true
  | .scrubDone => true
  | .dbgApply _ => true
  | .dbgEnd _ => true
  | .dbgEpochAdvance _ => true
  | .provisionBurn _ _ => true
  | .fuseProgramDone _ => true
  | .imageLoad _ _ _ => true
  | .getVersion => true
  | .getCapabilities => true
  | .negotiateAlgorithms => true
  | .getDigests => true
  | .getCertificate => true
  | .challenge => true
  | .getMeasurements index => decide (index < 256)
  | .keyExchange => true
  | .finish sid _ => decide (sid < 2 ^ 32)
  | .keyUpdate sid => decide (sid < 2 ^ 32)
  | .heartbeat sid => decide (sid < 2 ^ 32)
  | .endSession sid => decide (sid < 2 ^ 32)
  | .keyLoad sid group key => decide (sid < 2 ^ 32) && decide (group < 2 ^ 32) && decide (key < 2 ^ 512)
  | .keyBind sid group fjid digest proof => decide (sid < 2 ^ 32) && decide (group < 2 ^ 32) && decide (fjid < 2 ^ 32) && decide (digest < 2 ^ 384) && decide (proof < 2 ^ 384)
  | .keyUnbind sid group fjid proof => decide (sid < 2 ^ 32) && decide (group < 2 ^ 32) && decide (fjid < 2 ^ 32) && decide (proof < 2 ^ 384)
  | .keyClear sid group proof => decide (sid < 2 ^ 32) && decide (group < 2 ^ 32) && decide (proof < 2 ^ 384)
  | .linkKey sid port tx rx => decide (sid < 2 ^ 32) && decide (port < 2 ^ 16) && decide (tx < 2 ^ 256) && decide (rx < 2 ^ 256)
  | .ideKmQuery sid => decide (sid < 2 ^ 32)
  | .ideKmKeyProg sid stream set dir sub key => decide (sid < 2 ^ 32) && decide (stream < 256) && decide (set < 2) && decide (dir < 2) && decide (sub < 8) && decide (key < 2 ^ 256)
  | .ideKmKSetGo sid stream set dir sub => decide (sid < 2 ^ 32) && decide (stream < 256) && decide (set < 2) && decide (dir < 2) && decide (sub < 8)
  | .ideKmKSetStop sid stream set dir sub => decide (sid < 2 ^ 32) && decide (stream < 256) && decide (set < 2) && decide (dir < 2) && decide (sub < 8)
  | .lockInterface sid vf => decide (sid < 2 ^ 32) && decide (vf < 1025)
  | .getDeviceInterfaceReport sid vf => decide (sid < 2 ^ 32) && decide (vf < 1025)
  | .getDeviceInterfaceState sid vf => decide (sid < 2 ^ 32) && decide (vf < 1025)
  | .startInterface sid vf nonce => decide (sid < 2 ^ 32) && decide (vf < 1025) && decide (nonce < 2 ^ 256)
  | .stopInterface sid vf => decide (sid < 2 ^ 32) && decide (vf < 1025)
  | .jtagIdcode => true
  | .jtagBypass => true
  | .jtagDbgToken _ => true
  | .jtagSamplePreload => true
  | .jtagExtest => true
  | .jtagExtestPulse => true
  | .jtagExtestTrain => true
  | .jtagInternalScan => true
  | .barnWindowRead addr n => decide (addr < barnWindow) && decide (n ≤ 4096)
  | .barnWindowWrite addr data => decide (addr < barnWindow) && decide (data.length ≤ 4096)
  | .bwinRead _ _ => true
  | .bwinWrite _ _ => true
  | .saveRdDataRead _ => true
  | .vfSubmit f _ _ => decide (f < 1025)
  | .vfCtrAdd f _ _ => decide (f < 1025)
  | .configWrite f _ => decide (f < 1025)
  | .bmeClear f => decide (f < 1025)
  | .vfFlr f => decide (f < 1025)
  | .pfFlr => true
  | .hostPortReset => true
  | .hostRequest p pkt => decide (p < 512) && decide (pkt.body.length ≤ 8176)
  | .hostCompletion tag _ data _ => decide (tag < 16384) && decide (data.length ≤ 4096)
  | .hostCplTimeout tag => decide (tag < 16384)
  | .chainEnable _ => true
  | .chainDisable _ => true
  | .chainRestart _ => true
  | .chainClaimRx _ _ => true
  | .chainBeaconRx _ _ => true
  | .chainEnumRx _ _ => true
  | .chainEnumEndRx _ _ => true
  | .chainReadRx _ _ _ => true
  | .chainWriteRx _ _ _ => true
  | .chainReadRspRx _ _ => true
  | .chainWriteRspRx _ _ => true
  | .chainEventRx _ _ => true
  | .chainWindowRead off count => decide (off % 4 = 0) && decide (0 < count) && decide (count ≤ 64)
  | .chainWindowWrite off data => decide (off % 4 = 0) && decide (data.length % 4 = 0) && decide (0 < data.length) && decide (data.length ≤ 256)
  | .chainRspTimeout tag => decide (tag < 65536)
  | .chainListenTimer => true
  | .chainClaimTimer => true
  | .chainBackoffTimer => true
  | .chainEnumTimeout => true
  | .chainBeaconSend => true
  | .chainBeaconLoss => true
  | .chainRingBroken => true
  | .chainHostLoss => true
  | .chainPortDown _ => true
  | .chainPortRestore _ => true
  | .domainOff _ d => decide (d < 64)
  | .domainOn _ d => decide (d < 64)
  | .domainOnDone => true
  | .warmReset _ => true
  | .coldReset _ _ => true
  | .rstNAssert _ => true
  | .supplyRise _ => true
  | .startupDone => true
  | .crefclkLost => true
  | .pwrFailAssert => true
  | .saveWriteDone _ => true
  | .pwrFailRelease _ => true
  | .vholdSample mv => decide (mv < 2 ^ 16)
  | .vholdLow => true
  | .brownOut fed low => !(fed && low)
  | .thermTrip => true
  | .fenceLogical _ g => decide (g < 256)
  | .fenceElectrical _ g => decide (g < 256)
  | .fenceRelease _ g => decide (g < 256)
  | .fenceNoticeRx p pkt => decide (p < 512) && decide (pkt.body.length ≤ 8176)
  | .auditEpoch => true
  | .auditComplete _ => true
  | .gctrSelWrite _ i _ => decide (i < 64)
  | .wpCtrlWrite _ w _ => decide (w < 64)
  | .traceUnfreeze _ _ => true
  | .kvWalkEnd => true
  | .rstNRelease => true
  | .hostLinkUp => true
  | .gptpMessageSend p => decide (p < 512)

end Sys2Proof
end

