-- ==== Sys2Proof/Tests/Slice0.lean ====
section
/-! SUPPORT. Tests: the spec's worked examples, the well-formedness checks, and for each statement with hypotheses states
and operands that meet them together, one for each clause (`witness_<statement>`). -/

namespace Sys2Proof.Tests
set_option maxRecDepth 100000
set_option linter.unusedVariables false
set_option Elab.async false
open Sys2Proof Sys2Proof.Machine

/-! ### Small states -/

/-- The machine in RUN. -/
def run : State := { State.reset with pwr := { pstate := .run, image := false, cref := true } }
/-- Serial number 7. -/
def ser : State := run.modHub fun h => { h with regs := [(Adr.FUSE_SERIAL_LO, some 7), (Adr.FUSE_SERIAL_HI, some 0)] }
/-- Port `p` in state `x`. -/
def ap (p : Nat) (x : LinkState) (s : State) : State := s.modPort p fun q => { q with st := x }
/-- The octet of port `p` holds one x8 port of mode `m`. -/
def lay (p m : Nat) (s : State) : State := s.modLink fun l => { l with layout := l.layout.set (p / 8) (some (m, 4)) }
/-- Fabric time is `n` ns. -/
def at_ (n : Nat) (s : State) : State := s.modTime fun t => { t with now := BitVec.ofNat 96 (n * 2 ^ 32) }
/-- Packet `k` has been delivered to an own unit from port `p`, under buffer id 1. -/
def got (p : Nat) (k : Packet) (s : State) : State := s.modSw fun w => { w with local_ := [(1, .port p, k)] }
/-- Ethernet port 8 is up. -/
def eth : State := ap 8 .active (lay 8 1 run)
/-- A frame of `n` bytes and its FCS. -/
def frame (b : List Byte) (n : Nat) : List Byte :=
  let x := b ++ List.replicate (n - b.length) 0
  x ++ fcsOf x
def macs : List Byte := [1, 2, 3, 4, 5, 6, 7, 8, 9, 10, 11, 12]
/-- Port 0 is up. -/
def up0 : State := ap 0 .active run
/-- A CTRL record from its first bytes. -/
def rec_ (b : List Byte) : List Byte := b ++ List.replicate (64 - b.length) 0
/-- A flit from its header, its control bytes and nothing in its slots. -/
def flit (h c : Nat) : List Byte :=
  let x := leBytes 2 h ++ List.replicate 240 0 ++ leBytes 6 c
  x ++ leBytes 8 (crc64 x).toNat
/-- A beacon. -/
def beacon (ty seq : Nat) : Packet := mkPkt 0 0 5 6 0 false (leBytes 32 (ty * 2 ^ 4 + seq * 2 ^ 16 + 3 * 2 ^ 128))
/-- A FENCE_NOTICE. -/
def notice : Packet := mkPkt 1 (2 * 2 ^ 28) 5 0xFFFF 0 false (List.replicate 8 0 ++ [1] ++ List.replicate 7 0)
/-- A request of job 5 from member 9 to 8, and one of the coherence classes. -/
def mreqC (cls spec op size fva : Nat) (data : List Byte) : Packet :=
  mkPkt cls spec 9 8 0 false (leBytes 16 (size * 2 ^ 30 + op * 2 ^ 47 + 5 * 2 ^ 51 + fva * 2 ^ 71) ++ data)
def mreq (op size fva : Nat) (data : List Byte) : Packet := mreqC 8 0 op size fva data
/-- Job 5 is ACTIVE in slot 0, with member 9 and two pages of 4 KiB: page 0 with every permission, page 1
coherent. Its extent 0 is OWNED; addresses decode into the granary. -/
def job : State :=
  (([(Adr.JOB_FJID 0, 5), (Adr.JOB_MAN_CFG 0, 12), (Adr.JOB_MAN_LEN 0, 2), (Adr.JOB_MAN_BASE_LO 0, 0x10000)
    , (Adr.JOB_MEMBER_BASE_LO 0, 0x20000), (Adr.JOB_QUEUE_LIMIT 0, 64), (Adr.JOB_TAG_LIMIT 0, 64)
    , (Adr.CARV_LOCAL_EID 0, 8), (Adr.GRAN_LOGICAL_UNITS, 1), (Adr.JOB_TILE_CFG 0, 0x40001), (Adr.TILE_CTRL 0, 1)]
    : List (Nat × Word)).foldl (fun s e => s.setRg e.1 e.2)
    (((((run.setBarnNum 0x10000 16 (15 * 2 ^ 124)).setBarnNum 0x10010 16 (15 * 2 ^ 124 + 2 ^ 123)).setBarn 0x20001 [2]).setEntry
      (poolAt 0) 4 (2 ^ 127 + 2 * 2 ^ 125 + 1)).setExtent 0 { st := .owned, owner := 5, size := 1 })).setJob 0 .active
/-- Dispatch layer 0 of job 5: windows at 0x100000 and 0x200000. -/
def layer : State :=
  (job.setEntry (layerAt 0) 32 (5 * 2 ^ 1002 + 63 * 2 ^ 946 + 2 ^ 936 + 4 * 2 ^ 905 + 2 ^ 890 + 100 * 2 ^ 870 + 64 * 2 ^ 857
    + 0x10001 * 2 ^ 800 + 0x100000 * 2 ^ 743 + 0x200000 * 2 ^ 686 + 0x40000 * 2 ^ 576 + 0x30000 * 2 ^ 512 + 0x50000 * 2 ^ 448)).modExd
    fun u => { u with active := [(0, true)] }
/-- A granary of one channel, one die and eight blocks. -/
def gran : State :=
  ([(Adr.GRAN_GEOM, 0x40000), (Adr.GRAN_BLOCKS, 8), (Adr.GRAN_LOGICAL_UNITS, 1), (Adr.GRAN_RD_LIMIT, 1), (Adr.GRAN_CKPT_INTERVAL, 1)
    , (Adr.GRAN_MAP_BASE_LO, 0x100000), (Adr.GRAN_BLK_BASE_LO, 0x200000), (Adr.GRAN_SPARE_MIN, 0), (Adr.GRAN_GC_CFG, 0x100008)
    , (Adr.GRAN_WL_DELTA, 1)] : List (Nat × Word)).foldl (fun s e => s.setRg e.1 e.2) job
/-- The granary in state `x`. -/
def gst (x : GranSt) (s : State) : State := s.modGran fun g => { g with st := x }
/-- A caravan packet for leg 0 under incarnation 0, from EID 9. -/
def carvPkt (kind ext : Nat) (body : List Byte) : Packet :=
  mkPkt 10 0 9 0xFFFF 0 false (leBytes 48 (kind * 2 ^ 268 + 5 * 2 ^ 202 + ext) ++ body)
/-- Leg 0 toward EID 9 has a sound entry; it is in state `x`. -/
def leg0 (x : LegSt) (s : State) : State :=
  (s.setEntry (legAt 0) 16 (9 * 2 ^ 482 + 4 * 2 ^ 456 + 2 ^ 439 + 2 ^ 400 + 2 ^ 396)).modLeg 0 fun l => { l with st := x }
/-- Sheaf 0 of job 5, the root or below EID 9, gathers 64 elements of one member of its own, EID 9 too. -/
def sheaf0 (root : Nat) (x : ShfSt) : State :=
  ((job.setEntry (sheafAt 0) 32 (2 * 2 ^ 1018 + root * 2 ^ 1017 + 5 * 2 ^ 984 + (1 - root) * (9 * 2 ^ 944) + 2 ^ 901 + 2 ^ 885
    + 64 * 2 ^ 825 + 2 ^ 805 + 0x80000 * 2 ^ 704)).setBarnNum 0x80000 8 (2 ^ 63 + 2 ^ 31 + 9)).setSheaf 0
    { st := x, kids := if x = .free then [] else [2 ^ 63 + 2 ^ 31 + 9] }
/-- A packet of sheaf 0 from EID 9: KIND and its extension. -/
def shfPkt (kind ext : Nat) : Packet := mkPkt 9 (kind * 2 ^ 16) 9 8 0 false (leBytes 16 ext ++ List.replicate 256 0)
theorem pairOf {α β : Type} {x : α × β} {a : α} (h : x.1 = a) : x = (a, x.2) := by cases x; cases h; rfl
theorem okOf {β : Type} {x : Except Nat Nat × β} {j : Nat}
    (h : (match x.1 with | .ok i => i == j | _ => false) = true) : x = (.ok j, x.2) := by
  obtain ⟨a, b⟩ := x
  cases a <;> simp_all
theorem okIs {x : Except Nat Nat} {j : Nat} (h : (match x with | .ok i => i == j | _ => false) = true) : x = .ok j := by
  cases x <;> simp_all
/-- Leg 0 toward EID 9 is the only leg with an entry. -/
def legTab : Tbl Word := [(0x02000030, 0x11000), (0x02000034, 0x800000), (0x02000038, 0x400), (0x0200003C, 36)]
theorem legTab_get (n : Nat) (h : 0x02000040 ≤ n) : legTab.get n = 0 := by
  have h1 : 0x02000030 ≠ n := by omega
  have h2 : 0x02000034 ≠ n := by omega
  have h3 : 0x02000038 ≠ n := by omega
  have h4 : 0x0200003C ≠ n := by omega
  simp only [legTab, Tbl.get, if_neg h1, if_neg h2, if_neg h3, if_neg h4]; rfl
theorem entry_zero (s : State) (ht : s.hub.tabs = legTab) (n a : Nat) (h : 0x02000040 ≤ a) : s.entry a n = 0 := by
  induction n generalizing a with
  | zero => rfl
  | succ n ih =>
    simp only [State.entry, ih (a + 4) (by omega), State.tab, ht, legTab_get a h]
    split <;> rfl
theorem openLeg_zero (s : State) (k : Packet) (ht : s.hub.tabs = legTab) (hk : k.src = 9)
    (h0 : (s.lf 0 497 482 == 9 && !legEntryBad (s.entry (legAt 0) 16)) = true) : s.openLeg k = some 0 := by
  have hc : ((List.range 8192).filter fun l => s.lf l 497 482 == k.src && !legEntryBad (s.entry (legAt l) 16)) = [0] := by
    rw [show (8192 : Nat) = 8191 + 1 from rfl, List.range_succ_eq_map, List.filter_cons, hk, if_pos h0]
    congr 1
    rw [List.filter_eq_nil_iff]
    intro l hl
    obtain ⟨m, -, rfl⟩ := List.mem_map.1 hl
    simp only [State.lf, entry_zero s ht 16 (legAt (m + 1)) (by unfold legAt; omega)]
    decide
  simp only [State.openLeg, hc]
  cases h : (((s.leg 0).st == .open_ && (s.leg 0).remote == k.cf 252 240)) <;> simp [h]


/-! ### Well-formedness: for each check a term that breaks it alone -/

def pk : Packet := ⟨0, []⟩
def big : Packet := ⟨0, List.replicate 8177 0⟩
def zs (n : Nat) : List Byte := List.replicate n 0
theorem test_wellFormed_accepts_0 : ([.regWrite .host false 0 [0], .tableWindowWrite .host 0 0, .counterLoRead .host false 0 1, .lockWrite .host 0 0,
    .errClear .host 0 0, .syncBeaconSend 0, .syncRx 0 pk, .delayReqRx 0 pk,
    .delayRspRx 0 pk, .gptpMessageRx 0 .sync, .ttDataHiWrite .host 0 0, .ttCommit .host 0 0,
    .ttCancel .host 0 0, .ttSwitch 0, .ttEntryBoundary 0, .octetApply .host 0 0,
    .portEnable .host 0 0, .portDisable .host 0 0, .portRetrain .host 0 0, .signalDetect 0,
    .signalLost 0 0, .equalisationDone 0 [] 0, .portTimerExpire 0, .paramSend 0,
    .creditAdvSend 0, .paramRx 0 (zs 64), .creditAdvRx 0 (zs 64), .retrainReqRx 0 (zs 64),
    .dataFlitRx 0 (zs 256), .idleFlitRx 0 (zs 256), .flitTx 0, .ethFrameRx 0 [] false,
    .pfcFrameRx 0 [], .pfcPauseExpire 0 0, .pfcSend 0, .pfcRefresh 0 0,
    .pfcWatchdog 0 0, .cxlTrain 0 .up64, .cxlMemdataRx 0 0 (zs 64) false 0, .cxlDeviceRequest 0,
    .cxlMsiWrite 0 0 0, .cxlCfgGo .host 0 0, .cxlCfgCompletion 0 .success 0, .cxlCfgTimeout 0,
    .cxlLinkFatal 0 .viral, .hdmEnable .host 0 0 0, .packetRx 0 pk, .egressGrant 0,
    .packetTxDone 0, .starvePromote 0 0, .shaperCfgWrite .host 0 0 0, .shaperReset .host 0 0 0,
    .queueSample 0, .mreqRx 0 pk, .targetRspRx 0 pk, .barnAccessDone 0,
    .targetTimeout 0, .targetDeadClear .host 0 0, .jobActivate .host 0, .jobStop .host 0]
    : List Instr).all wellFormed = true := by decide +kernel
theorem test_wellFormed_accepts_1 : ([.jobRelease .host 0, .jobDrained 0, .jobInval .host 0 0, .invalDone 0,
    .creqRx 0 pk, .snpRespRx 0 pk, .cdatHomeRx 0 pk, .compAckRx 0 pk,
    .snoopTimeout 0, .agentDeadWrite .host 0 0, .domEnable .host 0, .domFlush .host 0,
    .domReset .host 0, .domSweepDone 0, .snapCreate .host 0, .snapInitDone 0,
    .leaseExpiry 0, .snapSweepStart 0, .snapSweepEnd 0, .fillDone 0 0,
    .writebackDone 0 0, .granReqTimeout 0, .granFormat .host [] 0, .nandReadDone 0 0 false 0 [] 0,
    .nandProgramDone 0 false, .nandEraseDone 0 false, .gcRound 0, .wlRelocate 0,
    .legOpen .host 0 0, .legClose .host 0 0, .wqEnable .host 0 0, .wqDisable .host 0 0,
    .wqPost .host 0 0, .soArm .host 0 0, .soCancel .host 0 0, .legOpenResend 0,
    .legRto 0, .ackDelayExpire 0, .carvDataRx 0 pk, .carvReadReqRx 0 pk,
    .carvReadDataRx 0 pk, .carvResultRx 0 pk, .carvAckRx 0 pk, .carvNakRx 0 pk,
    .carvOpenRx 0 pk, .carvOpenAckRx 0 pk, .carvCloseRx 0 pk, .postWqeRx 0 pk,
    .postSoRx 0 pk, .wqeIssue 0, .carvMemRsp 0 pk, .soAction 0,
    .descWrite 0 pk, .hostSubmit .host 0 0, .descStart 0, .tileFabricRsp 0 pk,
    .descCplRsp 0 pk, .hlAssign .host 0, .hlAssignDone 0, .hlRelease .host 0]
    : List Instr).all wellFormed = true := by decide +kernel
theorem test_wellFormed_accepts_2 : ([.tileEnable .host 0, .tileDisable .host 0, .sheafEnable .host 0 0, .sheafDisable .host 0 0,
    .sheafAbortCmd .host 0 0, .sheafReset .host 0 0, .sheafUpRx 0 pk, .sheafDownRx 0 pk,
    .sheafAbortRx 0 pk, .sheafPhaseTimeout 0, .sheafLinkLoss 0, .ctrValueWrite .host 0 0,
    .ctrThreshWrite .host 0 0, .ctrAdd .host 0 0, .ctrCfgWrite .host 0 0, .ctrEventRead .host 0,
    .kvPoolEnable .host 0, .kvPoolDisable .host 0, .kvPoolReset .host 0, .kvPoolInitDone 0,
    .kvSeqCreate .host 0, .kvSeqDestroy .host 0, .kvSeqPreempt .host 0, .kvSeqResume .host 0,
    .kvSeqWorkDone 0, .kvAutoPreempt 0, .exdEnable .host 0, .exdDisable .host 0,
    .expertSync .host 0, .tokenWrite 0 pk, .tokenDecide 0, .exdWriteRsp 0 pk,
    .expertOutputWrite 0 pk, .cmbTimeout 0 0, .cmbCombine 0 0, .cmbQuarEnd 0 0,
    .getMeasurements 0, .finish 0 none, .keyUpdate 0, .heartbeat 0,
    .endSession 0, .keyLoad 0 0 0, .keyBind 0 0 0 0 0, .keyUnbind 0 0 0 0,
    .keyClear 0 0 0, .linkKey 0 0 0 0, .ideKmQuery 0, .ideKmKeyProg 0 0 0 0 0 0,
    .ideKmKSetGo 0 0 0 0 0, .ideKmKSetStop 0 0 0 0 0, .lockInterface 0 0, .getDeviceInterfaceReport 0 0,
    .getDeviceInterfaceState 0 0, .startInterface 0 0 0, .stopInterface 0 0, .barnWindowRead 0 0,
    .barnWindowWrite 0 [], .vfSubmit 0 false 0, .vfCtrAdd 0 false 0, .configWrite 0 .other]
    : List Instr).all wellFormed = true := by decide +kernel
theorem test_wellFormed_accepts_3 : ([.bmeClear 0, .vfFlr 0, .hostRequest 0 pk, .hostCompletion 0 .success [] false,
    .hostCplTimeout 0, .chainWindowRead 0 4, .chainWindowWrite 0 ([0, 0, 0, 0]), .chainRspTimeout 0,
    .domainOff .host 0, .domainOn .host 0, .vholdSample 0, .brownOut false false,
    .fenceLogical .host 0, .fenceElectrical .host 0, .fenceRelease .host 0, .fenceNoticeRx 0 pk,
    .gctrSelWrite .host 0 0, .wpCtrlWrite .host 0 0, .gptpMessageSend 0]
    : List Instr).all wellFormed = true := by decide +kernel
theorem test_wellFormed_refuses_0 : ([.regWrite .host false 2 [0], .regWrite .host false 0 [], .tableWindowWrite .host 2 0, .tableWindowWrite .host (2 ^ 26) 0,
    .counterLoRead .host false 2 1, .counterLoRead .host false 0 0, .lockWrite .host 2 0, .lockWrite .host (2 ^ 26) 0,
    .errClear .host 2 0, .errClear .host (2 ^ 26) 0, .syncBeaconSend 512, .syncRx 512 pk,
    .syncRx 0 big, .delayReqRx 512 pk, .delayReqRx 0 big, .delayRspRx 512 pk,
    .delayRspRx 0 big, .gptpMessageRx 512 .sync, .ttDataHiWrite .host 512 0, .ttCommit .host 512 0,
    .ttCancel .host 512 0, .ttSwitch 512, .ttEntryBoundary 512, .octetApply .host 64 0,
    .portEnable .host 512 0, .portDisable .host 512 0, .portRetrain .host 512 0, .signalDetect 512,
    .signalLost 512 0, .signalLost 0 16, .equalisationDone 512 [] 0, .equalisationDone 0 (List.replicate 17 0) 0,
    .equalisationDone 0 [] (2 ^ 16), .portTimerExpire 512, .paramSend 512, .creditAdvSend 512,
    .paramRx 512 (zs 64), .paramRx 0 (zs 63), .creditAdvRx 512 (zs 64), .creditAdvRx 0 (zs 63),
    .retrainReqRx 512 (zs 64), .retrainReqRx 0 (zs 63), .dataFlitRx 512 (zs 256), .dataFlitRx 0 (zs 255),
    .idleFlitRx 512 (zs 256), .idleFlitRx 0 (zs 255), .flitTx 512, .ethFrameRx 512 [] false,
    .pfcFrameRx 512 [], .pfcPauseExpire 512 0, .pfcPauseExpire 0 8, .pfcSend 512,
    .pfcRefresh 512 0, .pfcRefresh 0 8, .pfcWatchdog 512 0, .pfcWatchdog 0 8,
    .cxlTrain 512 .up64, .cxlMemdataRx 512 0 (zs 64) false 0, .cxlMemdataRx 0 (2 ^ 23) (zs 64) false 0, .cxlMemdataRx 0 0 (zs 63) false 0]
    : List Instr).all (fun i => !wellFormed i) = true := by decide +kernel
theorem test_wellFormed_refuses_1 : ([.cxlMemdataRx 0 0 (zs 64) false 4, .cxlDeviceRequest 512, .cxlMsiWrite 512 0 0, .cxlMsiWrite 0 (2 ^ 64) 0,
    .cxlCfgGo .host 512 0, .cxlCfgCompletion 512 .success 0, .cxlCfgTimeout 512, .cxlLinkFatal 512 .viral,
    .hdmEnable .host 512 0 0, .hdmEnable .host 0 4 0, .packetRx 512 pk, .packetRx 0 big,
    .egressGrant 512, .packetTxDone 512, .starvePromote 512 0, .shaperCfgWrite .host 512 0 0,
    .shaperCfgWrite .host 0 9 0, .shaperReset .host 512 0 0, .shaperReset .host 0 9 0, .queueSample 2,
    .mreqRx 512 pk, .mreqRx 0 big, .targetRspRx 512 pk, .targetRspRx 0 big,
    .barnAccessDone 65536, .targetTimeout 512, .targetDeadClear .host 512 0, .jobActivate .host 1024,
    .jobStop .host 1024, .jobRelease .host 1024, .jobDrained 1024, .jobInval .host 1024 0,
    .invalDone 1024, .creqRx 512 pk, .creqRx 0 big, .snpRespRx 512 pk,
    .snpRespRx 0 big, .cdatHomeRx 512 pk, .cdatHomeRx 0 big, .compAckRx 512 pk,
    .compAckRx 0 big, .snoopTimeout 16384, .agentDeadWrite .host 16 0, .agentDeadWrite .host 0 2048,
    .domEnable .host 16, .domFlush .host 16, .domReset .host 16, .domSweepDone 16,
    .snapCreate .host (2 ^ 32), .snapInitDone (2 ^ 32), .leaseExpiry (2 ^ 32), .snapSweepStart (2 ^ 32),
    .snapSweepEnd (2 ^ 32), .fillDone (2 ^ 32) 0, .fillDone 0 (2 ^ 8), .writebackDone (2 ^ 32) 0,
    .writebackDone 0 (2 ^ 8), .granReqTimeout 65536, .granFormat .host [] 101, .nandReadDone (2 ^ 32) 0 false 0 [] 0]
    : List Instr).all (fun i => !wellFormed i) = true := by decide +kernel
theorem test_wellFormed_refuses_2 : ([.nandReadDone 0 (2 ^ 8) false 0 [] 0, .nandReadDone 0 0 false (2 ^ 32) [] 0, .nandReadDone 0 0 false 0 (zs 4095) 0, .nandProgramDone (2 ^ 32) false,
    .nandEraseDone (2 ^ 32) false, .gcRound 16, .wlRelocate 16, .legOpen .host 2 0,
    .legOpen .host 0 (2 ^ 16), .legClose .host 2 0, .legClose .host 0 (2 ^ 16), .wqEnable .host 2 0,
    .wqEnable .host 0 (2 ^ 16), .wqDisable .host 2 0, .wqDisable .host 0 (2 ^ 16), .wqPost .host 2 0,
    .wqPost .host 0 (2 ^ 16), .soArm .host 2 0, .soArm .host 0 (2 ^ 16), .soCancel .host 2 0,
    .soCancel .host 0 (2 ^ 16), .legOpenResend 8192, .legRto 8192, .ackDelayExpire 8192,
    .carvDataRx 512 pk, .carvDataRx 0 big, .carvReadReqRx 512 pk, .carvReadReqRx 0 big,
    .carvReadDataRx 512 pk, .carvReadDataRx 0 big, .carvResultRx 512 pk, .carvResultRx 0 big,
    .carvAckRx 512 pk, .carvAckRx 0 big, .carvNakRx 512 pk, .carvNakRx 0 big,
    .carvOpenRx 512 pk, .carvOpenRx 0 big, .carvOpenAckRx 512 pk, .carvOpenAckRx 0 big,
    .carvCloseRx 512 pk, .carvCloseRx 0 big, .postWqeRx 512 pk, .postWqeRx 0 big,
    .postSoRx 512 pk, .postSoRx 0 big, .wqeIssue 4096, .carvMemRsp 512 pk,
    .carvMemRsp 0 big, .soAction 2, .descWrite 512 pk, .descWrite 0 big,
    .hostSubmit .host 8 0, .descStart 8, .tileFabricRsp 512 pk, .tileFabricRsp 0 big,
    .descCplRsp 512 pk, .descCplRsp 0 big, .hlAssign .host 8, .hlAssignDone 8]
    : List Instr).all (fun i => !wellFormed i) = true := by decide +kernel
theorem test_wellFormed_refuses_3 : ([.hlRelease .host 8, .tileEnable .host 8, .tileDisable .host 8, .sheafEnable .host 2 0,
    .sheafEnable .host 0 (2 ^ 16), .sheafDisable .host 2 0, .sheafDisable .host 0 (2 ^ 16), .sheafAbortCmd .host 2 0,
    .sheafAbortCmd .host 0 (2 ^ 16), .sheafReset .host 2 0, .sheafReset .host 0 (2 ^ 16), .sheafUpRx 512 pk,
    .sheafUpRx 0 big, .sheafDownRx 512 pk, .sheafDownRx 0 big, .sheafAbortRx 512 pk,
    .sheafAbortRx 0 big, .sheafPhaseTimeout 4096, .sheafLinkLoss 512, .ctrValueWrite .host 16384 0,
    .ctrThreshWrite .host 16384 0, .ctrAdd .host 16384 0, .ctrCfgWrite .host 16384 0, .ctrEventRead .host 2,
    .kvPoolEnable .host 16, .kvPoolDisable .host 16, .kvPoolReset .host 16, .kvPoolInitDone 16,
    .kvSeqCreate .host (2 ^ 32), .kvSeqDestroy .host (2 ^ 32), .kvSeqPreempt .host (2 ^ 32), .kvSeqResume .host (2 ^ 32),
    .kvSeqWorkDone 262144, .kvAutoPreempt 16, .exdEnable .host 256, .exdDisable .host 256,
    .expertSync .host 256, .tokenWrite 512 pk, .tokenWrite 0 big, .tokenDecide 2,
    .exdWriteRsp 512 pk, .exdWriteRsp 0 big, .expertOutputWrite 512 pk, .expertOutputWrite 0 big,
    .cmbTimeout 256 0, .cmbTimeout 0 32768, .cmbCombine 256 0, .cmbCombine 0 32768,
    .cmbQuarEnd 256 0, .cmbQuarEnd 0 32768, .getMeasurements 256, .finish (2 ^ 32) none,
    .keyUpdate (2 ^ 32), .heartbeat (2 ^ 32), .endSession (2 ^ 32), .keyLoad (2 ^ 32) 0 0,
    .keyLoad 0 (2 ^ 32) 0, .keyLoad 0 0 (2 ^ 512), .keyBind (2 ^ 32) 0 0 0 0, .keyBind 0 (2 ^ 32) 0 0 0]
    : List Instr).all (fun i => !wellFormed i) = true := by decide +kernel
theorem test_wellFormed_refuses_4 : ([.keyBind 0 0 (2 ^ 32) 0 0, .keyBind 0 0 0 (2 ^ 384) 0, .keyBind 0 0 0 0 (2 ^ 384), .keyUnbind (2 ^ 32) 0 0 0,
    .keyUnbind 0 (2 ^ 32) 0 0, .keyUnbind 0 0 (2 ^ 32) 0, .keyUnbind 0 0 0 (2 ^ 384), .keyClear (2 ^ 32) 0 0,
    .keyClear 0 (2 ^ 32) 0, .keyClear 0 0 (2 ^ 384), .linkKey (2 ^ 32) 0 0 0, .linkKey 0 (2 ^ 16) 0 0,
    .linkKey 0 0 (2 ^ 256) 0, .linkKey 0 0 0 (2 ^ 256), .ideKmQuery (2 ^ 32), .ideKmKeyProg (2 ^ 32) 0 0 0 0 0,
    .ideKmKeyProg 0 256 0 0 0 0, .ideKmKeyProg 0 0 2 0 0 0, .ideKmKeyProg 0 0 0 2 0 0, .ideKmKeyProg 0 0 0 0 8 0,
    .ideKmKeyProg 0 0 0 0 0 (2 ^ 256), .ideKmKSetGo (2 ^ 32) 0 0 0 0, .ideKmKSetGo 0 256 0 0 0, .ideKmKSetGo 0 0 2 0 0,
    .ideKmKSetGo 0 0 0 2 0, .ideKmKSetGo 0 0 0 0 8, .ideKmKSetStop (2 ^ 32) 0 0 0 0, .ideKmKSetStop 0 256 0 0 0,
    .ideKmKSetStop 0 0 2 0 0, .ideKmKSetStop 0 0 0 2 0, .ideKmKSetStop 0 0 0 0 8, .lockInterface (2 ^ 32) 0,
    .lockInterface 0 1025, .getDeviceInterfaceReport (2 ^ 32) 0, .getDeviceInterfaceReport 0 1025, .getDeviceInterfaceState (2 ^ 32) 0,
    .getDeviceInterfaceState 0 1025, .startInterface (2 ^ 32) 0 0, .startInterface 0 1025 0, .startInterface 0 0 (2 ^ 256),
    .stopInterface (2 ^ 32) 0, .stopInterface 0 1025, .barnWindowRead barnWindow 0, .barnWindowRead 0 4097,
    .barnWindowWrite barnWindow [], .barnWindowWrite 0 (zs 4097), .vfSubmit 1025 false 0, .vfCtrAdd 1025 false 0,
    .configWrite 1025 .other, .bmeClear 1025, .vfFlr 1025, .hostRequest 512 pk,
    .hostRequest 0 big, .hostCompletion 16384 .success [] false, .hostCompletion 0 .success (zs 4097) false, .hostCplTimeout 16384,
    .chainWindowRead 2 4, .chainWindowRead 0 0, .chainWindowRead 0 65, .chainWindowWrite 2 ([0, 0, 0, 0])]
    : List Instr).all (fun i => !wellFormed i) = true := by decide +kernel
theorem test_wellFormed_refuses_5 : ([.chainWindowWrite 0 (zs 5), .chainWindowWrite 0 [], .chainWindowWrite 0 (zs 257), .chainRspTimeout 65536,
    .domainOff .host 64, .domainOn .host 64, .vholdSample (2 ^ 16), .brownOut true true,
    .fenceLogical .host 256, .fenceElectrical .host 256, .fenceRelease .host 256, .fenceNoticeRx 512 pk,
    .fenceNoticeRx 0 big, .gctrSelWrite .host 64 0, .wpCtrlWrite .host 64 0, .gptpMessageSend 512]
    : List Instr).all (fun i => !wellFormed i) = true := by decide +kernel

/-! ### Examples of the spec -/

/-- "Example: a SYNC beacon in a flit" (chapter 3): header bytes, flit header, replay field. -/
theorem test_beacon_header : (mkPkt 0 0 0x0123 0xFFFF 0x34567800 false (List.replicate 32 0)).wire.take 16
    = [0x00, 0x03, 0, 0, 0, 0, 0, 0, 0x23, 0x01, 0xFF, 0xFF, 0x00, 0x78, 0x56, 0x34] := by decide +kernel
theorem test_beacon_flit : let b := flitBody { type := 0, first := 0, used := 3, abort := false, slots := [], seq := 0x7FE, ack := 0x3A1, ackType := 1, crClass := 8, crCount := 17 }
    b.take 2 = [0xC0, 0x00] ∧ b.drop 242 = [0x00, 0x11, 0x60, 0xA1, 0xE3, 0x7F] := by decide +kernel
/-- The check value of CRC-32C: that of the nine digits. -/
theorem test_crc32c : crc32c [0x31, 0x32, 0x33, 0x34, 0x35, 0x36, 0x37, 0x38, 0x39] = 0xE3069283#32 := by decide +kernel
/-- "Example: an interleaved load" (chapter 4). -/
theorem test_hash_member : hash16 (0x12345678_9000 >>> 21) 0x5A5A = 0xF878 ∧ pick 0xF878 6 = 5 := by decide +kernel
/-- "Example: a 256-byte read" (chapter 5). -/
theorem test_read_bytes : (mkPkt 8 0x01330007 0x0211 0x0C00 0x1A2B3C40 false
    (leBytes 16 (0x12345678_9000 * 2 ^ 71 + 0x4A2C1 * 2 ^ 51 + 256 * 2 ^ 30 + 2 ^ 28))).wire
    = [0x08, 0x02, 0, 0, 0x07, 0, 0x33, 0x01, 0x11, 0x02, 0x00, 0x0C, 0x40, 0x3C, 0x2B, 0x1A,
       0, 0, 0, 0x10, 0x40, 0, 0x08, 0x16, 0x25, 0, 0x48, 0x3C, 0x2B, 0x1A, 0x09, 0] := by decide +kernel
/-- "Example: a timestamp across the wrap" (chapter 2). -/
theorem test_wrap : newer 0x00000100 0xFFFFFF00 32 = true ∧ newer 0xFFFFFF00 0x80 32 = false := by decide +kernel
/-- "Example: an entry in O" (chapter 6): set and words. -/
theorem test_directory : (run.setRg (Adr.DOM_DIR_CFG 3) 20).dirSet 3 0x48D159E241 = 0xD6F54 ∧
    DirEntry.word { st := .o, owner := 0x15, pred := 2, last := 0x15, line := 0x48D159E241, ptrs := [(0, some 2), (1, some 0x1C7)] } 3
      = 0x98D0_1500_091A_2B3C * 2 ^ 448 + 0x4820_5400_0000_0000 * 2 ^ 384 + 0x81C7_8002 := by decide +kernel
/-- "Example: granting and renewing a lease" (chapter 7): set and record. -/
theorem test_lease : run.leaseSet 0x3A 0x60011 = 102 ∧
    Lease.word { valid := true, holder := 0x60011, ext := 0x3A, epoch := 8, granted := 0x12_3400_0000, expiry := 0x12_3407_A120 }
      = 0x8600_1100_0E80_0000 * 2 ^ 192 + 0x0000_0008_0000_0000 * 2 ^ 128 + 0x12_3407_A120 * 2 ^ 64 + 0x12_3400_0000 := by
  decide +kernel
/-- "Example: handing over extent 0x3A" (chapter 7): the entry. -/
theorem test_extent : Extent.word { st := .owned, owner := 0x4A2C1, base := 0x3A, size := 1, epoch := 7, leases := 1 }
    = 0x24A2_C100_0000_0003 * 2 ^ 192 + 0xA000_0010_0000_0070 * 2 ^ 128 + 0x0008_0000_0000_0000 * 2 ^ 64 := by decide +kernel
/-- "Example: finding a granary line" (chapter 8): a PUN and a block entry. -/
theorem test_granary : punChan 0xA3F5C26 = 6 ∧ punDie 0xA3F5C26 = 2 ∧ punUnit 8 0xA3F5C26 = 0x5C ∧
    punBlock 8 0xA3F5C26 = 0xA3F ∧ blkWord 2 1203 18400 251 = 0x4009_6604_7E01_F600 := by decide +kernel
/-- "Example: a work request in bytes" (chapter 9). -/
theorem test_work_request : let w := 0x1E00_4200_5011_8600 * 2 ^ 192 + 0x0013_8800_0000_2100 * 2 ^ 128 + 0x048D_1000_0000_0001 * 2 ^ 64
    wOp w = 1 ∧ wLeg w = 0x23 ∧ wLen w = 10000 ∧ wLocal w = 0x12344000_0000 ∧ wRemote w = 0x800_0000_0000 := by decide +kernel
/-- "Example: three BF16 terms in two orders" (chapter 10): the exact slot. -/
theorem test_exact_sum : let t (x : Nat) (a : Slot48) : Slot48 := a.input (decVal 1 x) false
    (t 0xCB80 (t 0x3F80 (t 0x4B80 {}))).bits = 0x20 * 2 ^ 144 + 3 * 2 ^ 352 ∧
    (t 0xCB80 {}).bits = (2 ^ 144 - 1) * 2 ^ 176 + 0xE0 * 2 ^ 168 + (2 ^ 24 - 1) * 2 ^ 320 * 0 + 2 ^ 352 ∧
    ((t 0xCB80 (t 0x3F80 (t 0x4B80 {}))).round 1 .even false).1 = 0x3F80 := by decide +kernel
/-- "Example: quantising to MXFP8 E4M3" (chapter 10). -/
theorem test_quantise : let q := quantBlock 5 (fun _ => .even) [{ v := decVal 1 0x40AA }, { v := decVal 1 0xBF40, neg := true }
    , { v := decVal 1 0x3B00 }, { v := decVal 1 0x3580 }]
    q.1 = 0x79 ∧ q.2.1 = [0x7B, 0xE4, 0x20, 0x00] := by decide +kernel
/-- "Example: a two-element partial" (chapter 11). -/
theorem test_partial : exactBlock ([{ v := 3 * 2 ^ 149, n := 2 }, { v := -2 ^ 148, n := 2 }] ++ List.replicate 14 { n := 2 })
    = leBytes 8 0x2500_8000_0000_0002 ++ List.replicate 8 0 ++ 0xF6 :: List.replicate 15 0 := by decide +kernel
/-- "Example: eight BF16 values" (chapter 11): XOR_BITPLANE. -/
theorem test_bitplane : xorEncode 16 [0x3F80, 0x3F80, 0x3F83, 0x3F83, 0x3F84, 0x3F84, 0x3F87, 0x3F87]
    [0x3F80, 0x3F81, 0x3F82, 0x3F83, 0x3F84, 0x3F85, 0x3F86, 0x3F87] = [0x0E, 0x80, 0x66] := by decide +kernel
/-- "Example: two steps of one group" (chapter 11): QDELTA with error feedback, of FP32 elements. -/
theorem test_qdelta : let xs := 0x3DA00000 :: 0xBC280000 :: List.replicate 30 0
    let g := qdeltaGroup 0 xs (List.replicate 32 0) (List.replicate 32 0)
    let h := qdeltaGroup 0 xs (List.replicate 32 0) g.2.2
    g.1.take 2 = [0x50, 0xF6] ∧ g.1.drop 32 = [0x7B] ∧ g.2.2.getD 1 0 = 0xBA000000 ∧ h.1.take 2 = [0x50, 0xF5] ∧ h.2.2.getD 1 1 % 2 ^ 31 = 0 := by
  decide +kernel
/-- "Example: appending one token" (chapter 13): MXFP4 E2M1 of a value. -/
theorem test_append_value : let q := quantBlock 9 (fun _ => .even) ([{ v := decVal 1 0x4040 }, { v := .fin ⟨-13421773, -24⟩, neg := true }
    , { v := .fin ⟨10066330, -25⟩ }, { v := .fin ⟨9227469, -23⟩ }])
    q.1 = 0x7E ∧ q.2.1 = [0x7, 0xB, 0x1, 0x4] := by decide +kernel
/-- "Example: reading a follower's extent command status" (chapter 16). -/
theorem test_chain_read : (chainFrame (chainHdr 3 17 0 0 0 0x21 1 0x00406104) []).take 16
    = [0x04, 0x61, 0x40, 0, 0, 0, 0, 0, 0x01, 0, 0x21, 0, 0, 0x3F, 0x40, 0x34] ∧ Adr.EXT_CMD_STATUS = 0x00406104 := by
  decide +kernel
/-- "Example: one save, step by step" (chapter 17): the first bytes of the header. -/
theorem test_save_header : ((run.saveHeader [] 0).take 7) = [0x49, 0x4B, 0x53, 0x56, 0x01, 0x00, 0x00] ∧
    padUp 4096 (List.replicate 4097 0) = List.replicate 8192 0 := by decide +kernel
/-- R48: the two halves of a wrap, and the point that neither side wins. -/
theorem test_serial_half : newer 0 (2 ^ 31) 32 = false ∧ newer (2 ^ 31) 0 32 = false ∧ newer 1 0 32 = true := by decide +kernel

/-- The worked example of R188: the stack of a directory set. -/
theorem test_stack : barnStack 0x001035BD5000 = 1 := by decide +kernel

/-! ### Witnesses: the hypotheses of each clause of a statement hold together; a command's clause answers a next state -/

theorem witness_ClockCycle :
    (∃ (s : State), s.pending = [] ∧ s.live = true) ∧
    (∃ (s : State), s.pending = [] ∧ s.live = false) :=
  ⟨⟨run, by first | decide +kernel | exact okIs (by decide +kernel) | exact rfl,
     by first | decide +kernel | exact okIs (by decide +kernel) | exact rfl⟩,
   ⟨State.reset, by first | decide +kernel | exact okIs (by decide +kernel) | exact rfl,
     by first | decide +kernel | exact okIs (by decide +kernel) | exact rfl⟩⟩

theorem witness_StepKeepsForms : ∃ (s t : State), s.Inv ∧ step s = .next t :=
  ⟨State.reset, State.reset, ⟨by decide +kernel, by decide +kernel⟩, rfl⟩

theorem witness_CommandFrame : ∃ (c : Instr), ∃ (s t : State), ∃ p, s.Inv ∧ exec c s = .next t ∧ p ∉ parts c :=
  ⟨.thermTrip, run, run.modPwr (fun p => { p with trip := true }) |>.emit .thermTrip, .mem, ⟨by decide +kernel,
    by decide +kernel⟩, rfl, by first | decide +kernel | exact okIs (by decide +kernel) | exact rfl⟩

theorem witness_StepOrder : ∃ (s t : State), s.Inv ∧ step s = .next t :=
  ⟨State.reset, State.reset, ⟨by decide +kernel, by decide +kernel⟩, rfl⟩

theorem witness_SerialCompare :
    (∃ (n a b : Nat), 1 ≤ n) ∧
    (∃ (n a b : Nat), 1 ≤ n ∧ ((a : Int) - b) % 2 ^ n = 2 ^ (n - 1)) :=
  ⟨⟨1, 0, 1, by first | decide +kernel | exact okIs (by decide +kernel) | exact rfl⟩,
   ⟨8, 0x90, 0x10, by first | decide +kernel | exact okIs (by decide +kernel) | exact rfl,
     by first | decide +kernel | exact okIs (by decide +kernel) | exact rfl⟩⟩

theorem witness_PendingSwitch :
    (∃ (s : State), ∃ src p, ∃ (v : Word), ∃ T, s.Inv ∧ p < 512 ∧ (s.timetable p).pend = some T ∧
      s.takes src (Adr.PORT_TT_DATA_HI p) .rw = true ∧ Runs (.ttDataHiWrite src p v) s fun _ => True) ∧
    (∃ (s : State), ∃ src p, ∃ (v : Word), ∃ T, ∃ a, a ∈ [Adr.PORT_TT_LEN p, Adr.PORT_TT_CYCLE p, Adr.PORT_TT_BASE_HI p] ∧
      s.Inv ∧ p < 512 ∧ (s.timetable p).pend = some T ∧ s.takes src a .rw = true ∧
      Runs (.regWrite src false a (leBytes 4 v.toNat)) s fun _ => True) ∧
    (∃ (s : State), ∃ src p, ∃ (v : Word), ∃ T, s.Inv ∧ p < 512 ∧ (s.timetable p).pend = some T ∧
      s.takes src (Adr.PORT_TT_CTRL p) .rw = true ∧ bit v 31 = true ∧ bit v 30 = false ∧
      Runs (.ttCommit src p v) s fun _ => True) ∧
    (∃ (s : State), ∃ src p, ∃ (v : Word), ∃ T, s.Inv ∧ p < 512 ∧ (s.timetable p).pend = some T ∧
      s.takes src (Adr.PORT_TT_CTRL p) .rw = true ∧ bit v 30 = true ∧ bit v 31 = false ∧ s.ns < T ∧
      Runs (.ttCancel src p v) s fun _ => True) ∧
    (∃ (s : State), ∃ src p, ∃ (v : Word), ∃ T, s.Inv ∧ p < 512 ∧ (s.timetable p).pend = some T ∧
      s.takes src (Adr.PORT_TT_CTRL p) .rw = true ∧ bit v 30 = true ∧ bit v 31 = false ∧ T ≤ s.ns ∧
      Runs (.ttCancel src p v) s fun _ => True) :=
  ⟨⟨(at_ 100 ((lay 504 0 run).modTable 504 fun x => { x with pend := some 5000 })), .host, 504, 7, 5000, ⟨by decide +kernel,
     by decide +kernel⟩, by first | decide +kernel | exact okIs (by decide +kernel) | exact rfl,
     by first | decide +kernel | exact okIs (by decide +kernel) | exact rfl,
     by first | decide +kernel | exact okIs (by decide +kernel) | exact rfl, ⟨_, rfl, trivial⟩⟩,
   ⟨(at_ 100 ((lay 504 0 run).modTable 504 fun x => { x with pend := some 5000 })), .host, 504, 7, 5000,
     Adr.PORT_TT_LEN 504, by first | decide +kernel | exact okIs (by decide +kernel) | exact rfl, ⟨by decide +kernel,
     by decide +kernel⟩, by first | decide +kernel | exact okIs (by decide +kernel) | exact rfl,
     by first | decide +kernel | exact okIs (by decide +kernel) | exact rfl,
     by first | decide +kernel | exact okIs (by decide +kernel) | exact rfl, ⟨_, rfl, trivial⟩⟩,
   ⟨(at_ 100 ((lay 504 0 run).modTable 504 fun x => { x with pend := some 5000 })), .host, 504, 0x80000001, 5000,
     ⟨by decide +kernel, by decide +kernel⟩, by first | decide +kernel | exact okIs (by decide +kernel) | exact rfl,
     by first | decide +kernel | exact okIs (by decide +kernel) | exact rfl,
     by first | decide +kernel | exact okIs (by decide +kernel) | exact rfl,
     by first | decide +kernel | exact okIs (by decide +kernel) | exact rfl,
     by first | decide +kernel | exact okIs (by decide +kernel) | exact rfl, ⟨_, rfl, trivial⟩⟩,
   ⟨(at_ 100 ((lay 504 0 run).modTable 504 fun x => { x with pend := some 5000 })), .host, 504, 0x40000000, 5000,
     ⟨by decide +kernel, by decide +kernel⟩, by first | decide +kernel | exact okIs (by decide +kernel) | exact rfl,
     by first | decide +kernel | exact okIs (by decide +kernel) | exact rfl,
     by first | decide +kernel | exact okIs (by decide +kernel) | exact rfl,
     by first | decide +kernel | exact okIs (by decide +kernel) | exact rfl,
     by first | decide +kernel | exact okIs (by decide +kernel) | exact rfl,
     by first | decide +kernel | exact okIs (by decide +kernel) | exact rfl, ⟨_, rfl, trivial⟩⟩,
   ⟨(at_ 5000 (at_ 100 ((lay 504 0 run).modTable 504 fun x => { x with pend := some 5000 }))), .host, 504, 0x40000000, 5000,
     ⟨by decide +kernel, by decide +kernel⟩, by first | decide +kernel | exact okIs (by decide +kernel) | exact rfl,
     by first | decide +kernel | exact okIs (by decide +kernel) | exact rfl,
     by first | decide +kernel | exact okIs (by decide +kernel) | exact rfl,
     by first | decide +kernel | exact okIs (by decide +kernel) | exact rfl,
     by first | decide +kernel | exact okIs (by decide +kernel) | exact rfl,
     by first | decide +kernel | exact okIs (by decide +kernel) | exact rfl, ⟨_, rfl, trivial⟩⟩⟩

theorem witness_LinkStates :
    (∃ s p, s.portExists p = true ∧ (s.port p).st = .detect ∧ Runs (.signalDetect p) s fun _ => True) ∧
    (∃ s p errors n, s.portExists p = true ∧ (s.port p).st = .equalise ∧ s.portMode p = 1 ∧
      Runs (.equalisationDone p errors n) s fun _ => True) ∧
    (∃ s p errors n, s.portExists p = true ∧ (s.port p).st = .equalise ∧ s.portMode p = 0 ∧
      Runs (.equalisationDone p errors n) s fun _ => True) ∧
    (∃ s p rec fec, s.portMode p = 0 ∧ ctrlClean rec = true ∧ nbits (leNat (rec.take 1)) 7 4 = 1 ∧ (s.port p).st = .param ∧
      nbits (leNat ((rec.drop 1).take 1)) 2 0 = s.widthCode p ∧ leNat ((rec.drop 8).take 8) ≠ s.serial ∧
      fecChoice (s.rf (Adr.PORT_PORT_CTRL p) 3 2) (nbits (leNat ((rec.drop 2).take 1)) 1 0) (s.llOk p) (nbits (leNat ((rec.drop 2).take 1)) 2 2 == 1) = some fec ∧
      Runs (.paramRx p rec) s fun _ => True) ∧
    (∃ s p rec, s.portMode p = 0 ∧ ctrlClean rec = true ∧ nbits (leNat (rec.take 1)) 7 4 = 2 ∧ (s.port p).st = .credit ∧
      nbits (leNat ((rec.drop 1).take 1)) 0 0 = 1 ∧ Runs (.creditAdvRx p rec) s fun _ => True) ∧
    (∃ s p, ((s.port p).st = .equalise ∨ (s.port p).st = .param ∨ (s.port p).st = .credit) ∧
      Runs (.portTimerExpire p) s fun _ => True) ∧
    (∃ s p lane, s.portExists p = true ∧ p + lane ∈ s.portLanes p ∧
      ((s.port p).st = .equalise ∨ (s.port p).st = .param ∨ (s.port p).st = .credit) ∧
      Runs (.signalLost p lane) s fun _ => True) ∧
    (∃ s p rec, s.portMode p = 0 ∧ ctrlClean rec = true ∧ nbits (leNat (rec.take 1)) 7 4 = 3 ∧ (s.port p).st = .active ∧
      Runs (.retrainReqRx p rec) s fun _ => True) ∧
    (∃ s src p val, s.takes src (Adr.PORT_PORT_CTRL p) .rw = true ∧
      ((s.sec.mode ≠ .sealed ∨ (s.port p).keyUsed.isSome = true)) ∧ s.rf (Adr.PORT_PORT_CTRL p) 0 0 = 1 ∧ bits val 3 2 ≠ 3 ∧
      (s.port p).st = .active ∧ Runs (.portRetrain src p val) s fun _ => True) ∧
    (∃ s src p val, s.takes src (Adr.PORT_PORT_CTRL p) .rw = true ∧ bits val 3 2 ≠ 3 ∧ (s.port p).st ≠ .fenced ∧
      Runs (.portDisable src p val) s fun _ => True) :=
  ⟨⟨(ap 0 .detect run), 0, by first | decide +kernel | exact okIs (by decide +kernel) | exact rfl,
     by first | decide +kernel | exact okIs (by decide +kernel) | exact rfl, ⟨_, rfl, trivial⟩⟩,
   ⟨(ap 8 .equalise (lay 8 1 run)), 8, [0], 0, by first | decide +kernel | exact okIs (by decide +kernel) | exact rfl,
     by first | decide +kernel | exact okIs (by decide +kernel) | exact rfl,
     by first | decide +kernel | exact okIs (by decide +kernel) | exact rfl, ⟨_, rfl, trivial⟩⟩,
   ⟨(ap 0 .equalise run), 0, [0], 0, by first | decide +kernel | exact okIs (by decide +kernel) | exact rfl,
     by first | decide +kernel | exact okIs (by decide +kernel) | exact rfl,
     by first | decide +kernel | exact okIs (by decide +kernel) | exact rfl, ⟨_, rfl, trivial⟩⟩,
   ⟨(ap 0 .param ser), 0, (rec_ [0x10, 4, 1, 0, 0, 0, 0, 0, 9]), 2,
     by first | decide +kernel | exact okIs (by decide +kernel) | exact rfl,
     by first | decide +kernel | exact okIs (by decide +kernel) | exact rfl,
     by first | decide +kernel | exact okIs (by decide +kernel) | exact rfl,
     by first | decide +kernel | exact okIs (by decide +kernel) | exact rfl,
     by first | decide +kernel | exact okIs (by decide +kernel) | exact rfl,
     by first | decide +kernel | exact okIs (by decide +kernel) | exact rfl,
     by first | decide +kernel | exact okIs (by decide +kernel) | exact rfl, ⟨_, rfl, trivial⟩⟩,
   ⟨(ap 0 .credit run), 0, (rec_ [0x20, 1]), by first | decide +kernel | exact okIs (by decide +kernel) | exact rfl,
     by first | decide +kernel | exact okIs (by decide +kernel) | exact rfl,
     by first | decide +kernel | exact okIs (by decide +kernel) | exact rfl,
     by first | decide +kernel | exact okIs (by decide +kernel) | exact rfl,
     by first | decide +kernel | exact okIs (by decide +kernel) | exact rfl, ⟨_, rfl, trivial⟩⟩,
   ⟨(ap 0 .credit run), 0, by first | decide +kernel | exact okIs (by decide +kernel) | exact rfl, ⟨_, rfl, trivial⟩⟩,
   ⟨(ap 0 .param run), 0, 7, by first | decide +kernel | exact okIs (by decide +kernel) | exact rfl,
     by first | decide +kernel | exact okIs (by decide +kernel) | exact rfl,
     by first | decide +kernel | exact okIs (by decide +kernel) | exact rfl, ⟨_, rfl, trivial⟩⟩,
   ⟨up0, 0, (rec_ [0x30]), by first | decide +kernel | exact okIs (by decide +kernel) | exact rfl,
     by first | decide +kernel | exact okIs (by decide +kernel) | exact rfl,
     by first | decide +kernel | exact okIs (by decide +kernel) | exact rfl,
     by first | decide +kernel | exact okIs (by decide +kernel) | exact rfl, ⟨_, rfl, trivial⟩⟩,
   ⟨(up0.setRf (Adr.PORT_PORT_CTRL 0) 0 0 1), .host, 0, 5,
     by first | decide +kernel | exact okIs (by decide +kernel) | exact rfl,
     by first | decide +kernel | exact okIs (by decide +kernel) | exact rfl,
     by first | decide +kernel | exact okIs (by decide +kernel) | exact rfl,
     by first | decide +kernel | exact okIs (by decide +kernel) | exact rfl,
     by first | decide +kernel | exact okIs (by decide +kernel) | exact rfl, ⟨_, rfl, trivial⟩⟩,
   ⟨up0, .host, 0, 0, by first | decide +kernel | exact okIs (by decide +kernel) | exact rfl,
     by first | decide +kernel | exact okIs (by decide +kernel) | exact rfl,
     by first | decide +kernel | exact okIs (by decide +kernel) | exact rfl, ⟨_, rfl, trivial⟩⟩⟩

theorem witness_OctetApply : ∃ s src n val, s.takes src (Adr.OCTET_CTRL n) .wo = true ∧ bit val 0 = true ∧
      s.layoutReject n (s.rf (Adr.OCTET_MODE n) 1 0) (s.rf (Adr.OCTET_LAYOUT n) 23 0) = 0 ∧
      Runs (.octetApply src n val) s fun _ => True :=
  ⟨((run.setRg (Adr.OCTET_LAYOUT 63) 4).setRg (Adr.OCTET_MODE 63) 1), .host, 63, 1,
    by first | decide +kernel | exact okIs (by decide +kernel) | exact rfl,
    by first | decide +kernel | exact okIs (by decide +kernel) | exact rfl,
    by first | decide +kernel | exact okIs (by decide +kernel) | exact rfl, ⟨_, rfl, trivial⟩⟩

theorem witness_FlitTraffic :
    (∃ s p, (s.port p).st = .param ∧ Runs (.paramSend p) s fun _ => True) ∧
    (∃ s p, (s.port p).st = .credit ∧ Runs (.creditAdvSend p) s fun _ => True) ∧
    (∃ s p k rest, s.portMode p = 0 ∧ (s.port p).st = .active ∧ (s.port p).resend = k :: rest ∧
      Runs (.flitTx p) s fun _ => True) ∧
    (∃ s p, s.portMode p = 0 ∧ (s.port p).st = .active ∧ (s.port p).resend = [] ∧ (s.port p).tx = [] ∧
      (s.port p).waiting = [] ∧ Runs (.flitTx p) s fun _ => True) ∧
    (∃ s p bytes f, s.portMode p = 0 ∧ (s.port p).st = .active ∧ flitParse bytes = some f ∧ f.type = 1 ∧ f.ackType = 0 ∧
      Runs (.idleFlitRx p bytes) s fun _ => True) ∧
    (∃ s p bytes f, s.portMode p = 0 ∧ (s.port p).st = .active ∧ flitParse bytes = some f ∧ f.type = 0 ∧ f.ackType = 0 ∧
      f.crCount = 0 ∧ f.seq = (s.port p).rxS % 4096 ∧ Runs (.dataFlitRx p bytes) s fun _ => True) :=
  ⟨⟨(ap 0 .param ser), 0, by first | decide +kernel | exact okIs (by decide +kernel) | exact rfl, ⟨_, rfl, trivial⟩⟩,
   ⟨(ap 0 .credit ser), 0, by first | decide +kernel | exact okIs (by decide +kernel) | exact rfl, ⟨_, rfl, trivial⟩⟩,
   ⟨(up0.modPort 0 fun q => { q with resend := [{ seq := 3, bytes := [1] }] }), 0, ({ seq := 3, bytes := [1] } : Kept), [],
     by first | decide +kernel | exact okIs (by decide +kernel) | exact rfl,
     by first | decide +kernel | exact okIs (by decide +kernel) | exact rfl,
     by first | decide +kernel | exact okIs (by decide +kernel) | exact rfl, ⟨_, rfl, trivial⟩⟩,
   ⟨up0, 0, by first | decide +kernel | exact okIs (by decide +kernel) | exact rfl,
     by first | decide +kernel | exact okIs (by decide +kernel) | exact rfl,
     by first | decide +kernel | exact okIs (by decide +kernel) | exact rfl,
     by first | decide +kernel | exact okIs (by decide +kernel) | exact rfl,
     by first | decide +kernel | exact okIs (by decide +kernel) | exact rfl, ⟨_, rfl, trivial⟩⟩,
   ⟨up0, 0, (flit (1 * 2 ^ 14 + 15 * 2 ^ 10) 0), (flitParse (flit (1 * 2 ^ 14 + 15 * 2 ^ 10) 0)).get (by decide +kernel),
     by first | decide +kernel | exact okIs (by decide +kernel) | exact rfl,
     by first | decide +kernel | exact okIs (by decide +kernel) | exact rfl, (Option.some_get _).symm,
     by first | decide +kernel | exact okIs (by decide +kernel) | exact rfl,
     by first | decide +kernel | exact okIs (by decide +kernel) | exact rfl, ⟨_, rfl, trivial⟩⟩,
   ⟨up0, 0, (flit (15 * 2 ^ 10) 0), (flitParse (flit (15 * 2 ^ 10) 0)).get (by decide +kernel),
     by first | decide +kernel | exact okIs (by decide +kernel) | exact rfl,
     by first | decide +kernel | exact okIs (by decide +kernel) | exact rfl, (Option.some_get _).symm,
     by first | decide +kernel | exact okIs (by decide +kernel) | exact rfl,
     by first | decide +kernel | exact okIs (by decide +kernel) | exact rfl,
     by first | decide +kernel | exact okIs (by decide +kernel) | exact rfl,
     by first | decide +kernel | exact okIs (by decide +kernel) | exact rfl, ⟨_, rfl, trivial⟩⟩⟩

theorem witness_EthernetPorts :
    (∃ s p f cut, s.ethUp p = true ∧ f.length < 64 ∧ Runs (.ethFrameRx p f cut) s fun _ => True) ∧
    (∃ s p f, s.ethUp p = true ∧ 64 ≤ f.length ∧ s.rf (Adr.PORT_ETH_MTU p) 13 0 < f.length ∧
      Runs (.ethFrameRx p f false) s fun _ => True) ∧
    (∃ s p f, s.ethUp p = true ∧ 64 ≤ f.length ∧ f.length ≤ s.rf (Adr.PORT_ETH_MTU p) 13 0 ∧
      f.drop (f.length - 4) ≠ fcsOf (f.take (f.length - 4)) ∧ Runs (.ethFrameRx p f false) s fun _ => True) ∧
    (∃ s p f cut, s.ethUp p = true ∧ 64 ≤ f.length ∧ f.length ≤ s.rf (Adr.PORT_ETH_MTU p) 13 0 ∧
      f.drop (f.length - 4) = fcsOf (f.take (f.length - 4)) ∧ macControl f 1 = true ∧
      Runs (.ethFrameRx p f cut) s fun _ => True) ∧
    (∃ s p f cut, s.Inv ∧ p < 512 ∧ s.ethUp p = true ∧ 64 ≤ f.length ∧ f.length ≤ s.rf (Adr.PORT_ETH_MTU p) 13 0 ∧
      f.drop (f.length - 4) = fcsOf (f.take (f.length - 4)) ∧ fld f 12 2 ≠ 0x8808 ∧ s.fenced p = false ∧
      s.fits p (s.pcpTc p (s.prioOf p f)) (cellsOf f.length) = true ∧ s.claim 0 (f.take (f.length - 4)) = .no ∧
      s.claim 1 (f.take (f.length - 4)) = .no ∧ Runs (.ethFrameRx p f cut) s fun _ => True) ∧
    (∃ s p f, s.ethUp p = true ∧ 64 ≤ f.length ∧ f.length ≤ s.rf (Adr.PORT_ETH_MTU p) 13 0 ∧
      f.drop (f.length - 4) = fcsOf (f.take (f.length - 4)) ∧ macControl f 0x0101 = true ∧
      Runs (.pfcFrameRx p f) s fun _ => True) ∧
    (∃ s p q, ((s.port p).pfc.get q).paused = true ∧ ((s.port p).pfc.get q).sent = true ∧ (s.port p).st ≠ .off ∧
      Runs (.pfcPauseExpire p q) s fun _ => True) ∧
    (∃ s p, s.ethUp p = true ∧ Runs (.pfcSend p) s fun _ => True) ∧
    (∃ s p tc, s.ethUp p = true ∧ s.xon p tc < s.occOf p tc ∧ Runs (.pfcRefresh p tc) s fun _ => True) ∧
    (∃ s p tc, s.rf (Adr.PORT_PFC_WD p) 15 0 ≠ 0 ∧ s.pfcClosed p tc = true ∧ (s.port p).st ≠ .off ∧
      Runs (.pfcWatchdog p tc) s fun _ => True) :=
  ⟨⟨eth, 8, List.replicate 63 0, false, by first | decide +kernel | exact okIs (by decide +kernel) | exact rfl,
     by first | decide +kernel | exact okIs (by decide +kernel) | exact rfl, ⟨_, rfl, trivial⟩⟩,
   ⟨eth, 8, List.replicate 9300 0, by first | decide +kernel | exact okIs (by decide +kernel) | exact rfl,
     by first | decide +kernel | exact okIs (by decide +kernel) | exact rfl,
     by first | decide +kernel | exact okIs (by decide +kernel) | exact rfl, ⟨_, rfl, trivial⟩⟩,
   ⟨eth, 8, List.replicate 64 0, by first | decide +kernel | exact okIs (by decide +kernel) | exact rfl,
     by first | decide +kernel | exact okIs (by decide +kernel) | exact rfl,
     by first | decide +kernel | exact okIs (by decide +kernel) | exact rfl,
     by first | decide +kernel | exact okIs (by decide +kernel) | exact rfl, ⟨_, rfl, trivial⟩⟩,
   ⟨eth, 8, (frame (macs ++ [0x88, 8, 0, 1]) 60), false,
     by first | decide +kernel | exact okIs (by decide +kernel) | exact rfl,
     by first | decide +kernel | exact okIs (by decide +kernel) | exact rfl,
     by first | decide +kernel | exact okIs (by decide +kernel) | exact rfl,
     by first | decide +kernel | exact okIs (by decide +kernel) | exact rfl,
     by first | decide +kernel | exact okIs (by decide +kernel) | exact rfl, ⟨_, rfl, trivial⟩⟩,
   ⟨(eth.setRg (Adr.PORT_CREDIT_LIMIT 8) 100), 8, (frame (macs ++ [8, 6]) 96), false, ⟨by decide +kernel,
     by decide +kernel⟩, by first | decide +kernel | exact okIs (by decide +kernel) | exact rfl,
     by first | decide +kernel | exact okIs (by decide +kernel) | exact rfl,
     by first | decide +kernel | exact okIs (by decide +kernel) | exact rfl,
     by first | decide +kernel | exact okIs (by decide +kernel) | exact rfl,
     by first | decide +kernel | exact okIs (by decide +kernel) | exact rfl,
     by first | decide +kernel | exact okIs (by decide +kernel) | exact rfl,
     by first | decide +kernel | exact okIs (by decide +kernel) | exact rfl,
     by first | decide +kernel | exact okIs (by decide +kernel) | exact rfl,
     by first | decide +kernel | exact okIs (by decide +kernel) | exact rfl,
     by first | decide +kernel | exact okIs (by decide +kernel) | exact rfl, ⟨_, rfl, trivial⟩⟩,
   ⟨eth, 8, (frame (macs ++ [0x88, 8, 1, 1, 0, 1, 0, 9]) 60),
     by first | decide +kernel | exact okIs (by decide +kernel) | exact rfl,
     by first | decide +kernel | exact okIs (by decide +kernel) | exact rfl,
     by first | decide +kernel | exact okIs (by decide +kernel) | exact rfl,
     by first | decide +kernel | exact okIs (by decide +kernel) | exact rfl,
     by first | decide +kernel | exact okIs (by decide +kernel) | exact rfl, ⟨_, rfl, trivial⟩⟩,
   ⟨(eth.modPort 8 fun q => { q with pfc := [(3, { paused := true, sent := true })] }), 8, 3,
     by first | decide +kernel | exact okIs (by decide +kernel) | exact rfl,
     by first | decide +kernel | exact okIs (by decide +kernel) | exact rfl,
     by first | decide +kernel | exact okIs (by decide +kernel) | exact rfl, ⟨_, rfl, trivial⟩⟩,
   ⟨eth, 8, by first | decide +kernel | exact okIs (by decide +kernel) | exact rfl, ⟨_, rfl, trivial⟩⟩,
   ⟨(eth.modPort 8 fun q => { q with occ := [(0, 5000)] }), 8, 0,
     by first | decide +kernel | exact okIs (by decide +kernel) | exact rfl,
     by first | decide +kernel | exact okIs (by decide +kernel) | exact rfl, ⟨_, rfl, trivial⟩⟩,
   ⟨(((eth.setRg (Adr.PORT_PFC_WD 8) 5).setRg (Adr.PORT_ETH_CFG 8) 0xFF00).modPort 8 fun q => { q with pfc := [(0, { paused := true, sent := true })] }),
     8, 0, by first | decide +kernel | exact okIs (by decide +kernel) | exact rfl,
     by first | decide +kernel | exact okIs (by decide +kernel) | exact rfl,
     by first | decide +kernel | exact okIs (by decide +kernel) | exact rfl, ⟨_, rfl, trivial⟩⟩⟩

theorem witness_SwitchCrossing :
    (∃ s p k e, ((s.port p).inbox.find? fun e => e.2 == k) = some e ∧ Runs (.packetRx p k) s fun _ => True) ∧
    (∃ s p q u, s.fenced p = false ∧ s.arbitrate p = (some q, u) ∧ Runs (.egressGrant p) s fun _ => True) ∧
    (∃ s p e rest, (s.port p).sending = e :: rest ∧ (s.port p).unsent < (s.port p).sending.length ∧
      Runs (.packetTxDone p) s fun _ => True) ∧
    (∃ s p id q, ((s.heads p).find? fun q => q.id == id && !q.ctl && !q.urgent) = some q ∧
      s.rf (Adr.PORT_STARVE_CFG p) 15 0 ≠ 0 ∧ s.eligible q = true ∧
      q.at_ + 1000 * s.rf (Adr.PORT_STARVE_CFG p) 15 0 < s.ns ∧ Runs (.starvePromote p id) s fun _ => True) :=
  ⟨⟨(up0.modPort 0 fun q => { q with inbox := [(1, (mkPkt 3 0 5 6 0 false [1]))] }), 0, (mkPkt 3 0 5 6 0 false [1]), (1,
     (mkPkt 3 0 5 6 0 false [1])), by first | decide +kernel | exact okIs (by decide +kernel) | exact rfl, ⟨_, rfl,
     trivial⟩⟩,
   ⟨(up0.modPort 0 (fun q => { q with pshared := 64, prsv := List.replicate 11 32 }) |>.modSw fun w => { w with queues := [{ id := 1, egress := 0, ctl := true, cls := 1, load := .pkt (mkPkt 1 0 5 6 0 false [1]) }], stored := [(1, { cls := 1, cells := 1, copies := 1 })] }),
     0, { id := 1, egress := 0, ctl := true, cls := 1, load := .pkt (mkPkt 1 0 5 6 0 false [1]) }, _,
     by first | decide +kernel | exact okIs (by decide +kernel) | exact rfl, pairOf (by decide +kernel), ⟨_, rfl, trivial⟩⟩,
   ⟨(up0.modPort 0 fun q => { q with sending := [{ id := 1, len := 32 }] }) |>.modSw fun w => { w with stored := [(1, { cls := 3, cells := 1, copies := 1 })] },
     0, ({ id := 1, len := 32 } : Sending), [], by first | decide +kernel | exact okIs (by decide +kernel) | exact rfl,
     by first | decide +kernel | exact okIs (by decide +kernel) | exact rfl, ⟨_, rfl, trivial⟩⟩,
   ⟨(at_ 1000000 (up0.modPort 0 (fun q => { q with pshared := 64, prsv := List.replicate 11 32 }) |>.modSw fun w => { w with queues := [{ id := 1, egress := 0, ctl := false, cls := 1, load := .pkt (mkPkt 1 0 5 6 0 false [1]) }], stored := [(1, { cls := 1, cells := 1, copies := 1 })] })),
     0, 1, { id := 1, egress := 0, ctl := false, cls := 1, load := .pkt (mkPkt 1 0 5 6 0 false [1]) },
     by first | decide +kernel | exact okIs (by decide +kernel) | exact rfl,
     by first | decide +kernel | exact okIs (by decide +kernel) | exact rfl,
     by first | decide +kernel | exact okIs (by decide +kernel) | exact rfl,
     by first | decide +kernel | exact okIs (by decide +kernel) | exact rfl, ⟨_, rfl, trivial⟩⟩⟩

theorem witness_ShapersAndSamples :
    (∃ s src p i v, s.Inv ∧ s.takes src (Adr.PORT_SHAPER_CFG p i) .rw = true ∧ p < 512 ∧ i < 9 ∧ bits v 31 16 ≠ 0 ∧
      Runs (.shaperCfgWrite src p i v) s fun _ => True) ∧
    (∃ s src p i v, s.Inv ∧ s.takes src (Adr.PORT_SHAPER_CTRL p i) .rw = true ∧ p < 512 ∧ i < 9 ∧
      Runs (.shaperReset src p i v) s fun _ => True) ∧
    (∃ s die, bit (s.rg (Adr.SWCORE_SAMPLE_CFG die)) 31 = true ∧ s.ns % (1000 * s.rf (Adr.SWCORE_SAMPLE_CFG die) 19 0) = 0 ∧
      s.sampledPorts die = [] ∧ Runs (.queueSample die) s fun _ => True) ∧
    (∃ s die, bit (s.rg (Adr.SWCORE_SAMPLE_CFG die)) 31 = true ∧ s.ns % (1000 * s.rf (Adr.SWCORE_SAMPLE_CFG die) 19 0) = 0 ∧
      Runs (.queueSample die) s fun _ => True) :=
  ⟨⟨run, .host, 0, 8, 0x00010000, ⟨by decide +kernel, by decide +kernel⟩,
     by first | decide +kernel | exact okIs (by decide +kernel) | exact rfl,
     by first | decide +kernel | exact okIs (by decide +kernel) | exact rfl,
     by first | decide +kernel | exact okIs (by decide +kernel) | exact rfl,
     by first | decide +kernel | exact okIs (by decide +kernel) | exact rfl, ⟨_, rfl, trivial⟩⟩,
   ⟨run, .host, 504, 0, 1, ⟨by decide +kernel, by decide +kernel⟩,
     by first | decide +kernel | exact okIs (by decide +kernel) | exact rfl,
     by first | decide +kernel | exact okIs (by decide +kernel) | exact rfl,
     by first | decide +kernel | exact okIs (by decide +kernel) | exact rfl, ⟨_, rfl, trivial⟩⟩,
   ⟨(run.setRg (Adr.SWCORE_SAMPLE_CFG 0) 0x80000001), 0,
     by first | decide +kernel | exact okIs (by decide +kernel) | exact rfl,
     by first | decide +kernel | exact okIs (by decide +kernel) | exact rfl,
     by first | decide +kernel | exact okIs (by decide +kernel) | exact rfl, ⟨_, rfl, trivial⟩⟩,
   ⟨((run.setRg (Adr.SWCORE_SAMPLE_CFG 1) 0x80000001).setRg (Adr.PORT_QOS_CFG 64) 0x200), 1,
     by first | decide +kernel | exact okIs (by decide +kernel) | exact rfl,
     by first | decide +kernel | exact okIs (by decide +kernel) | exact rfl, ⟨_, rfl, trivial⟩⟩⟩

theorem witness_RegisterWrites :
    (∃ s src a k i o d, ∃ v, s.Inv ∧ pageAt a = some (k, i, o) ∧ (k = .ident ∨ k = .hostp ∨ k = .home) ∧
      regDesc k o = some d ∧ (d.acc = .rw ∨ d.acc = .rwl) ∧ o ≠ Adr.H_CTRL ∧ o ≠ Adr.H_ERR_SEVERITY ∧ o ≠ Adr.H_INT_ENABLE ∧
      s.takes src a d.acc = true ∧ a % 4 = 0 ∧ a < 0x01000000 ∧ ¬ (0x10000 ≤ a ∧ a < 0x20200) ∧ ¬ (0x00C00000 ≤ a ∧
      a < 0x00C80000) ∧ Runs (.regWrite src false a (leBytes 4 v)) s fun _ => True) ∧
    (∃ s src a k i o v, s.Inv ∧ pageAt a = some (k, i, o) ∧ s.takes src (adr k i Adr.H_LOCK) .w1s = true ∧ a < 0x01000000 ∧
      ¬ (0x10000 ≤ a ∧ a < 0x20200) ∧ ¬ (0x00C00000 ≤ a ∧ a < 0x00C80000) ∧ bit v 0 = true ∧
      Runs (.lockWrite src a v) s fun _ => True) ∧
    (∃ s src a k i o v, s.Inv ∧ pageAt a = some (k, i, o) ∧ s.takes src (adr k i Adr.H_LOCK) .w1s = true ∧ a < 0x01000000 ∧
      ¬ (0x10000 ≤ a ∧ a < 0x20200) ∧ ¬ (0x00C00000 ≤ a ∧ a < 0x00C80000) ∧ bit v 0 = false ∧
      Runs (.lockWrite src a v) s fun _ => True) ∧
    (∃ s src a k i o v, s.Inv ∧ pageAt a = some (k, i, o) ∧ s.takes src (adr k i Adr.H_CTRL) .rw = true ∧ a < 0x01000000 ∧
      ¬ (0x10000 ≤ a ∧ a < 0x20200) ∧ ¬ (0x00C00000 ≤ a ∧ a < 0x00C80000) ∧ Runs (.errClear src a v) s fun _ => True) :=
  ⟨⟨run, .host, Adr.HOSTP_HOST_EID, PageKind.hostp, 0, Adr.HOSTP_HOST_EID % 4096,
     (regDesc PageKind.hostp (Adr.HOSTP_HOST_EID % 4096)).get (by decide +kernel), 0x12345, ⟨by decide +kernel,
     by decide +kernel⟩, by first | decide +kernel | exact okIs (by decide +kernel) | exact rfl,
     by first | decide +kernel | exact okIs (by decide +kernel) | exact rfl,
     by first | decide +kernel | exact okIs (by decide +kernel) | exact rfl,
     by first | decide +kernel | exact okIs (by decide +kernel) | exact rfl,
     by first | decide +kernel | exact okIs (by decide +kernel) | exact rfl,
     by first | decide +kernel | exact okIs (by decide +kernel) | exact rfl,
     by first | decide +kernel | exact okIs (by decide +kernel) | exact rfl,
     by first | decide +kernel | exact okIs (by decide +kernel) | exact rfl,
     by first | decide +kernel | exact okIs (by decide +kernel) | exact rfl,
     by first | decide +kernel | exact okIs (by decide +kernel) | exact rfl,
     by first | decide +kernel | exact okIs (by decide +kernel) | exact rfl,
     by first | decide +kernel | exact okIs (by decide +kernel) | exact rfl, ⟨_, rfl, trivial⟩⟩,
   ⟨run, .host, 0x8000, PageKind.fuse, 0, 0, 1, ⟨by decide +kernel, by decide +kernel⟩,
     by first | decide +kernel | exact okIs (by decide +kernel) | exact rfl,
     by first | decide +kernel | exact okIs (by decide +kernel) | exact rfl,
     by first | decide +kernel | exact okIs (by decide +kernel) | exact rfl,
     by first | decide +kernel | exact okIs (by decide +kernel) | exact rfl,
     by first | decide +kernel | exact okIs (by decide +kernel) | exact rfl,
     by first | decide +kernel | exact okIs (by decide +kernel) | exact rfl, ⟨_, rfl, trivial⟩⟩,
   ⟨run, .host, 0x400000, PageKind.swcore, 0, 0, 0, ⟨by decide +kernel, by decide +kernel⟩,
     by first | decide +kernel | exact okIs (by decide +kernel) | exact rfl,
     by first | decide +kernel | exact okIs (by decide +kernel) | exact rfl,
     by first | decide +kernel | exact okIs (by decide +kernel) | exact rfl,
     by first | decide +kernel | exact okIs (by decide +kernel) | exact rfl,
     by first | decide +kernel | exact okIs (by decide +kernel) | exact rfl,
     by first | decide +kernel | exact okIs (by decide +kernel) | exact rfl, ⟨_, rfl, trivial⟩⟩,
   ⟨(run.setRg (adr .ttu 1 Adr.H_ERR_STATUS) 5), .host, adr .ttu 1 0, PageKind.ttu, 1, 0, 1, ⟨by decide +kernel,
     by decide +kernel⟩, by first | decide +kernel | exact okIs (by decide +kernel) | exact rfl,
     by first | decide +kernel | exact okIs (by decide +kernel) | exact rfl,
     by first | decide +kernel | exact okIs (by decide +kernel) | exact rfl,
     by first | decide +kernel | exact okIs (by decide +kernel) | exact rfl,
     by first | decide +kernel | exact okIs (by decide +kernel) | exact rfl, ⟨_, rfl, trivial⟩⟩⟩

theorem witness_RefusedWrites :
    (∃ s src a k i o d v, s.Inv ∧ pageAt a = some (k, i, o) ∧ regDesc k o = some d ∧ d.acc = .rwl ∧
      s.takes src a .rw = true ∧ s.locked k i = true ∧ a % 4 = 0 ∧ a < 0x01000000 ∧ ¬ (0x10000 ≤ a ∧ a < 0x20200) ∧
      ¬ (0x00C00000 ≤ a ∧ a < 0x00C80000) ∧ Runs (.regWrite src false a (leBytes 4 v)) s fun _ => True) ∧
    (∃ s src a v, s.Inv ∧ pageAt a = none ∧ s.mayWrite src a = true ∧ a % 4 = 0 ∧ a < 0x01000000 ∧ ¬ (0x10000 ≤ a ∧
      a < 0x20200) ∧ ¬ (0x00C00000 ≤ a ∧ a < 0x00C80000) ∧ Runs (.regWrite src false a (leBytes 4 v)) s fun _ => True) :=
  ⟨⟨((run.setRg (adr .time 0 Adr.H_LOCK) 1)), .host, Adr.TIME_GM_CFG, PageKind.time, 0, Adr.TIME_GM_CFG % 4096,
     (regDesc PageKind.time (Adr.TIME_GM_CFG % 4096)).get (by decide +kernel), 9, ⟨by decide +kernel, by decide +kernel⟩,
     by first | decide +kernel | exact okIs (by decide +kernel) | exact rfl,
     by first | decide +kernel | exact okIs (by decide +kernel) | exact rfl,
     by first | decide +kernel | exact okIs (by decide +kernel) | exact rfl,
     by first | decide +kernel | exact okIs (by decide +kernel) | exact rfl,
     by first | decide +kernel | exact okIs (by decide +kernel) | exact rfl,
     by first | decide +kernel | exact okIs (by decide +kernel) | exact rfl,
     by first | decide +kernel | exact okIs (by decide +kernel) | exact rfl,
     by first | decide +kernel | exact okIs (by decide +kernel) | exact rfl,
     by first | decide +kernel | exact okIs (by decide +kernel) | exact rfl, ⟨_, rfl, trivial⟩⟩,
   ⟨run, .chain, 0x00FFF000, 0, ⟨by decide +kernel, by decide +kernel⟩,
     by first | decide +kernel | exact okIs (by decide +kernel) | exact rfl,
     by first | decide +kernel | exact okIs (by decide +kernel) | exact rfl,
     by first | decide +kernel | exact okIs (by decide +kernel) | exact rfl,
     by first | decide +kernel | exact okIs (by decide +kernel) | exact rfl,
     by first | decide +kernel | exact okIs (by decide +kernel) | exact rfl,
     by first | decide +kernel | exact okIs (by decide +kernel) | exact rfl, ⟨_, rfl, trivial⟩⟩⟩

theorem witness_TableEntryWrite :
    (∃ s src a v w n b size, winAt a = some (w, n, b, size) ∧ a % 4 = 0 ∧ 0x01000000 ≤ a ∧ a < 0x04000000 ∧
      s.mayWrite src a = true ∧ s.winOn w n = true ∧ w.ro = false ∧ w ≠ .groups ∧ a ≠ b + size - 4 ∧
      Runs (.tableWindowWrite src a v) s fun _ => True) ∧
    (∃ s src a v w n b size, winAt a = some (w, n, b, size) ∧ a % 4 = 0 ∧ 0x01000000 ≤ a ∧ a < 0x04000000 ∧
      s.mayWrite src a = true ∧ s.winOn w n = true ∧ (w = .fwd ∨ w = .sets ∨ w = .eth ∨ w = .masks ∨ w = .pools) ∧
      a = b + size - 4 ∧ s.stagedFor src b ≠ [] ∧ Runs (.tableWindowWrite src a v) s fun _ => True) :=
  ⟨⟨run, .host, 0x01190000, 1, Win.eth, 0, 0x01190000, 16,
     by first | decide +kernel | exact okIs (by decide +kernel) | exact rfl,
     by first | decide +kernel | exact okIs (by decide +kernel) | exact rfl,
     by first | decide +kernel | exact okIs (by decide +kernel) | exact rfl,
     by first | decide +kernel | exact okIs (by decide +kernel) | exact rfl,
     by first | decide +kernel | exact okIs (by decide +kernel) | exact rfl,
     by first | decide +kernel | exact okIs (by decide +kernel) | exact rfl,
     by first | decide +kernel | exact okIs (by decide +kernel) | exact rfl,
     by first | decide +kernel | exact okIs (by decide +kernel) | exact rfl,
     by first | decide +kernel | exact okIs (by decide +kernel) | exact rfl, ⟨_, rfl, trivial⟩⟩,
   ⟨(run.setStage .host (some (0x01190000, [(0x01190000, 5)]))), .host, 0x0119000C, 1, Win.eth, 0, 0x01190000, 16,
     by first | decide +kernel | exact okIs (by decide +kernel) | exact rfl,
     by first | decide +kernel | exact okIs (by decide +kernel) | exact rfl,
     by first | decide +kernel | exact okIs (by decide +kernel) | exact rfl,
     by first | decide +kernel | exact okIs (by decide +kernel) | exact rfl,
     by first | decide +kernel | exact okIs (by decide +kernel) | exact rfl,
     by first | decide +kernel | exact okIs (by decide +kernel) | exact rfl,
     by first | decide +kernel | exact okIs (by decide +kernel) | exact rfl,
     by first | decide +kernel | exact okIs (by decide +kernel) | exact rfl,
     by first | decide +kernel | exact okIs (by decide +kernel) | exact rfl, ⟨_, rfl, trivial⟩⟩⟩

theorem witness_TimeNowLatched : ∃ s src, s.live = true ∧ s.pwr.warm = false ∧ (src ≠ .jtag ∨ s.sec.dbg ≠ 0) ∧ Runs (.timeNowRead src) s fun _ => True :=
  ⟨(at_ 77 run), .host, by first | decide +kernel | exact okIs (by decide +kernel) | exact rfl,
    by first | decide +kernel | exact okIs (by decide +kernel) | exact rfl,
    by first | decide +kernel | exact okIs (by decide +kernel) | exact rfl, ⟨_, rfl, trivial⟩⟩

theorem witness_ReadsThatAct :
    (∃ s src a p o, pageAt a = some (.port, p, o) ∧ a % 4 = 0 ∧ 0x100000 ≤ a ∧ a < 0x300000 ∧ latches .port o = true ∧
      s.pageOn .port p = true ∧ s.portExists p = true ∧ s.pwr.warm = false ∧ (src ≠ .jtag ∨ s.sec.dbg ≠ 0) ∧
      Runs (.counterLoRead src false a 1) s fun _ => True) ∧
    (∃ s src d c cs, d < 2 ∧ s.ctrEvents d = c :: cs ∧ s.pageOn .sheaf d = true ∧ s.pwr.warm = false ∧
      (src ≠ .jtag ∨ s.sec.dbg ≠ 0) ∧ Runs (.ctrEventRead src d) s fun _ => True) ∧
    (∃ s src, s.Inv ∧ s.pwr.warm = false ∧ (src ≠ .jtag ∨ s.sec.dbg ≠ 0) ∧ Runs (.saveRdDataRead src) s fun _ => True) :=
  ⟨⟨run, .host, Adr.PORT_RX_FLITS 0, 0, Adr.PORT_RX_FLITS 0 % 4096,
     by first | decide +kernel | exact okIs (by decide +kernel) | exact rfl,
     by first | decide +kernel | exact okIs (by decide +kernel) | exact rfl,
     by first | decide +kernel | exact okIs (by decide +kernel) | exact rfl,
     by first | decide +kernel | exact okIs (by decide +kernel) | exact rfl,
     by first | decide +kernel | exact okIs (by decide +kernel) | exact rfl,
     by first | decide +kernel | exact okIs (by decide +kernel) | exact rfl,
     by first | decide +kernel | exact okIs (by decide +kernel) | exact rfl,
     by first | decide +kernel | exact okIs (by decide +kernel) | exact rfl,
     by first | decide +kernel | exact okIs (by decide +kernel) | exact rfl, ⟨_, rfl, trivial⟩⟩,
   ⟨(run.modCtr fun u => { u with events0 := [5] }), .host, 0, 5, [],
     by first | decide +kernel | exact okIs (by decide +kernel) | exact rfl,
     by first | decide +kernel | exact okIs (by decide +kernel) | exact rfl,
     by first | decide +kernel | exact okIs (by decide +kernel) | exact rfl,
     by first | decide +kernel | exact okIs (by decide +kernel) | exact rfl,
     by first | decide +kernel | exact okIs (by decide +kernel) | exact rfl, ⟨_, rfl, trivial⟩⟩,
   ⟨run, .chain, ⟨by decide +kernel, by decide +kernel⟩,
     by first | decide +kernel | exact okIs (by decide +kernel) | exact rfl,
     by first | decide +kernel | exact okIs (by decide +kernel) | exact rfl, ⟨_, rfl, trivial⟩⟩⟩

theorem witness_Grandmaster :
    (∃ s p, s.beaconPort p = true ∧ Runs (.syncBeaconSend p) s fun _ => True) ∧
    (∃ s p k c u b, s.takeLocal p k = (some c, u) ∧ p < 512 ∧ k.cls = 0 ∧ beaconOf k = some b ∧ b.ty = 1 ∧
      (s.portTime p).ignored = false ∧ bit (s.rg Adr.TIME_SRC_CFG) 1 = true ∧ (s.portTime p).lastSync = none ∧
      (s.portTime p).delay = none ∧ b.steps < 16 ∧ s.time.gm = .listen ∧ b.gm.2 ≠ s.serial ∧ ((∀ g,
      s.knownGm = some g → pairLt b.gm g = true)) ∧ Runs (.syncRx p k) s fun _ => True) ∧
    (∃ s p k c u b, s.takeLocal p k = (some c, u) ∧ p < 512 ∧ k.cls = 0 ∧ beaconOf k = some b ∧ b.ty = 2 ∧
      (s.portTime p).ignored = false ∧ bit (s.rg Adr.TIME_SRC_CFG) 1 = true ∧ (s.portTime p).lastReq = none ∧
      Runs (.delayReqRx p k) s fun _ => True) ∧
    (∃ s p k c u b, ∃ (t1 t2 t3 : Nat), s.takeLocal p k = (some c, u) ∧ p < 512 ∧ k.cls = 0 ∧ beaconOf k = some b ∧
      b.ty = 3 ∧ (s.portTime p).ignored = false ∧ bit (s.rg Adr.TIME_SRC_CFG) 1 = true ∧ (s.portTime p).lastRsp = none ∧
      (s.portTime p).t1 = some t1 ∧ (s.portTime p).t2 = some t2 ∧ (s.portTime p).t3 = some t3 ∧
      (b.seq + 1) % 2 ^ 16 = (s.portTime p).seqReq ∧ s.time.gm ≠ .follow ∧ Runs (.delayRspRx p k) s fun _ => True) ∧
    (∃ s p, s.gptpPort p = true ∧ (s.portTime p).ignored = false ∧ Runs (.gptpMessageRx p .pdelayReq) s fun _ => True) ∧
    (∃ s p, ∃ (t1 t2 t3 t4 : Nat), s.gptpPort p = true ∧ (s.portTime p).ignored = false ∧ (s.portTime p).gReq = some t1 ∧
      (s.portTime p).gResp = some (t2, t4) ∧ Runs (.gptpMessageRx p (.pdelayRespFollowUp t3)) s fun _ => True) ∧
    (∃ s p g, s.gptpPort p = true ∧ s.curGm = some g ∧ Runs (.gptpMessageSend p) s fun _ => True) ∧
    (∃ s, s.time.gm = .follow ∧ Runs .upstreamSilent s fun _ => True) ∧
    (∃ s, s.time.gm = .listen ∧ s.live = true ∧ s.gmEligible = true ∧ s.knownGm = some s.ownGm ∧
      Runs .listenClaimTimerEnd s fun _ => True) ∧
    (∃ s, s.time.gm = .claim ∧ Runs .listenClaimTimerEnd s fun _ => True) ∧
    (∃ s, s.time.gm = .backoff ∧ Runs .backoffTimerEnd s fun _ => True) ∧
    (∃ s src v, s.Inv ∧ s.takes src Adr.TIME_GM_CFG .rwl = true ∧ s.time.gm = .listen ∧
      Runs (.gmCfgWrite src v) s fun _ => True) ∧
    (∃ s src v, s.Inv ∧ s.takes src Adr.TIME_GM_CFG .rwl = true ∧ s.time.gm = .claim ∧
      Runs (.gmCfgWrite src v) s fun _ => True) :=
  ⟨⟨((ap 0 .active (ser.setRg Adr.TIME_SRC_CFG 2))), 0,
     by first | decide +kernel | exact okIs (by decide +kernel) | exact rfl, ⟨_, rfl, trivial⟩⟩,
   ⟨(got 0 (beacon 1 0) (ap 0 .active (ser.setRg Adr.TIME_SRC_CFG 2))), 0, (beacon 1 0), 1,
     ((got 0 (beacon 1 0) (ap 0 .active (ser.setRg Adr.TIME_SRC_CFG 2))).takeLocal 0 (beacon 1 0)).2,
     (beaconOf (beacon 1 0)).get (by decide +kernel), rfl,
     by first | decide +kernel | exact okIs (by decide +kernel) | exact rfl,
     by first | decide +kernel | exact okIs (by decide +kernel) | exact rfl, (Option.some_get _).symm,
     by first | decide +kernel | exact okIs (by decide +kernel) | exact rfl,
     by first | decide +kernel | exact okIs (by decide +kernel) | exact rfl,
     by first | decide +kernel | exact okIs (by decide +kernel) | exact rfl,
     by first | decide +kernel | exact okIs (by decide +kernel) | exact rfl,
     by first | decide +kernel | exact okIs (by decide +kernel) | exact rfl,
     by first | decide +kernel | exact okIs (by decide +kernel) | exact rfl,
     by first | decide +kernel | exact okIs (by decide +kernel) | exact rfl,
     by first | decide +kernel | exact okIs (by decide +kernel) | exact rfl,
     by first | decide +kernel | exact okIs (by decide +kernel) | exact rfl, ⟨_, rfl, trivial⟩⟩,
   ⟨(got 0 (beacon 2 9) (ap 0 .active (ser.setRg Adr.TIME_SRC_CFG 2))), 0, (beacon 2 9), 1,
     ((got 0 (beacon 2 9) (ap 0 .active (ser.setRg Adr.TIME_SRC_CFG 2))).takeLocal 0 (beacon 2 9)).2,
     (beaconOf (beacon 2 9)).get (by decide +kernel), rfl,
     by first | decide +kernel | exact okIs (by decide +kernel) | exact rfl,
     by first | decide +kernel | exact okIs (by decide +kernel) | exact rfl, (Option.some_get _).symm,
     by first | decide +kernel | exact okIs (by decide +kernel) | exact rfl,
     by first | decide +kernel | exact okIs (by decide +kernel) | exact rfl,
     by first | decide +kernel | exact okIs (by decide +kernel) | exact rfl,
     by first | decide +kernel | exact okIs (by decide +kernel) | exact rfl, ⟨_, rfl, trivial⟩⟩,
   ⟨(got 0 (beacon 3 0) ((ap 0 .active (ser.setRg Adr.TIME_SRC_CFG 2)).modPortTime 0 fun q => { q with t1 := some 10, t2 := some 30, t3 := some 50, seqReq := 1 })),
     0, (beacon 3 0), 1,
     ((got 0 (beacon 3 0) ((ap 0 .active (ser.setRg Adr.TIME_SRC_CFG 2)).modPortTime 0 fun q => { q with t1 := some 10, t2 := some 30, t3 := some 50, seqReq := 1 })).takeLocal 0 (beacon 3 0)).2,
     (beaconOf (beacon 3 0)).get (by decide +kernel), 10, 30, 50, rfl,
     by first | decide +kernel | exact okIs (by decide +kernel) | exact rfl,
     by first | decide +kernel | exact okIs (by decide +kernel) | exact rfl, (Option.some_get _).symm,
     by first | decide +kernel | exact okIs (by decide +kernel) | exact rfl,
     by first | decide +kernel | exact okIs (by decide +kernel) | exact rfl,
     by first | decide +kernel | exact okIs (by decide +kernel) | exact rfl,
     by first | decide +kernel | exact okIs (by decide +kernel) | exact rfl,
     by first | decide +kernel | exact okIs (by decide +kernel) | exact rfl,
     by first | decide +kernel | exact okIs (by decide +kernel) | exact rfl,
     by first | decide +kernel | exact okIs (by decide +kernel) | exact rfl,
     by first | decide +kernel | exact okIs (by decide +kernel) | exact rfl,
     by first | decide +kernel | exact okIs (by decide +kernel) | exact rfl, ⟨_, rfl, trivial⟩⟩,
   ⟨(eth.setRg Adr.TIME_SRC_CFG 8), 8, by first | decide +kernel | exact okIs (by decide +kernel) | exact rfl,
     by first | decide +kernel | exact okIs (by decide +kernel) | exact rfl, ⟨_, rfl, trivial⟩⟩,
   ⟨((eth.setRg Adr.TIME_SRC_CFG 8).modPortTime 8 fun q => { q with gReq := some 5, gResp := some (9, 40) }), 8, 5, 9, 20,
     40, by first | decide +kernel | exact okIs (by decide +kernel) | exact rfl,
     by first | decide +kernel | exact okIs (by decide +kernel) | exact rfl,
     by first | decide +kernel | exact okIs (by decide +kernel) | exact rfl,
     by first | decide +kernel | exact okIs (by decide +kernel) | exact rfl, ⟨_, rfl, trivial⟩⟩,
   ⟨((eth.setRg Adr.TIME_SRC_CFG 8).modTime fun t => { t with gm := .follow, best := some (1, 3) }), 8, (1, 3),
     by first | decide +kernel | exact okIs (by decide +kernel) | exact rfl,
     by first | decide +kernel | exact okIs (by decide +kernel) | exact rfl, ⟨_, rfl, trivial⟩⟩,
   ⟨(run.modTime fun t => { t with gm := .follow }), by first | decide +kernel | exact okIs (by decide +kernel) | exact rfl,
     ⟨_, rfl, trivial⟩⟩,
   ⟨((ser.setRg Adr.TIME_GM_CFG 0x105).modTime fun t => { t with gm := .listen }),
     by first | decide +kernel | exact okIs (by decide +kernel) | exact rfl,
     by first | decide +kernel | exact okIs (by decide +kernel) | exact rfl,
     by first | decide +kernel | exact okIs (by decide +kernel) | exact rfl,
     by first | decide +kernel | exact okIs (by decide +kernel) | exact rfl, ⟨_, rfl, trivial⟩⟩,
   ⟨(run.modTime fun t => { t with gm := .claim }), by first | decide +kernel | exact okIs (by decide +kernel) | exact rfl,
     ⟨_, rfl, trivial⟩⟩,
   ⟨(run.modTime fun t => { t with gm := .backoff }),
     by first | decide +kernel | exact okIs (by decide +kernel) | exact rfl, ⟨_, rfl, trivial⟩⟩,
   ⟨run, .host, 0x1FF, ⟨by decide +kernel, by decide +kernel⟩,
     by first | decide +kernel | exact okIs (by decide +kernel) | exact rfl,
     by first | decide +kernel | exact okIs (by decide +kernel) | exact rfl, ⟨_, rfl, trivial⟩⟩,
   ⟨(run.modTime fun t => { t with gm := .claim }), .host, 0xFFFFFFFF, ⟨by decide +kernel, by decide +kernel⟩,
     by first | decide +kernel | exact okIs (by decide +kernel) | exact rfl,
     by first | decide +kernel | exact okIs (by decide +kernel) | exact rfl, ⟨_, rfl, trivial⟩⟩⟩

theorem witness_TimeSetAndPulse :
    (∃ s src v, s.Inv ∧ s.takes src Adr.TIME_SET_HI .rw = true ∧ Runs (.timeSetWrite src v) s fun _ => True) ∧
    (∃ s v due, s.time.set = some (v, due) ∧ due ≤ s.ns ∧ s.ppsPhase = false ∧ s.live = true ∧
      bit (s.rg Adr.TIME_CTRL) 0 = false ∧ Runs .timeSetEffect s fun _ => True) ∧
    (∃ s, s.Inv ∧ s.live = true ∧ s.ppsPhase = false ∧ Runs .ppsInEdge s fun _ => True) ∧
    (∃ s, s.live = true ∧ s.ppsPhase = true ∧ s.time.set = none ∧ Runs .ppsInEdge s fun _ => True) ∧
    (∃ s, s.live = true ∧ s.ppsPhase = true ∧ Runs .ppsLost s fun _ => True) ∧
    (∃ s, s.live = true ∧ s.time.gm = .gm ∧ bit (s.rg Adr.TIME_SRC_CFG) 0 = true ∧ Runs .refLost s fun _ => True) ∧
    (∃ s, s.live = true ∧ s.rf Adr.TIME_CTRL 15 8 ≠ 0 ∧ s.ns / 10 ^ 9 ≠ s.time.ppsSec ∧ Runs .ppsOutRise s fun _ => True) :=
  ⟨⟨run, .host, 7, ⟨by decide +kernel, by decide +kernel⟩,
     by first | decide +kernel | exact okIs (by decide +kernel) | exact rfl, ⟨_, rfl, trivial⟩⟩,
   ⟨(at_ 5000 (run.modTime fun t => { t with set := some (9000, 5000) })), 9000, 5000,
     by first | decide +kernel | exact okIs (by decide +kernel) | exact rfl,
     by first | decide +kernel | exact okIs (by decide +kernel) | exact rfl,
     by first | decide +kernel | exact okIs (by decide +kernel) | exact rfl,
     by first | decide +kernel | exact okIs (by decide +kernel) | exact rfl,
     by first | decide +kernel | exact okIs (by decide +kernel) | exact rfl, ⟨_, rfl, trivial⟩⟩,
   ⟨(at_ 5 run), ⟨by decide +kernel, by decide +kernel⟩,
     by first | decide +kernel | exact okIs (by decide +kernel) | exact rfl,
     by first | decide +kernel | exact okIs (by decide +kernel) | exact rfl, ⟨_, rfl, trivial⟩⟩,
   ⟨(at_ 1600000000 ((run.setRg Adr.TIME_SRC_CFG 5).modTime fun t => { t with gm := .gm })),
     by first | decide +kernel | exact okIs (by decide +kernel) | exact rfl,
     by first | decide +kernel | exact okIs (by decide +kernel) | exact rfl,
     by first | decide +kernel | exact okIs (by decide +kernel) | exact rfl, ⟨_, rfl, trivial⟩⟩,
   ⟨(at_ 1500000000 ((run.setRg Adr.TIME_SRC_CFG 5).modTime fun t => { t with gm := .gm })),
     by first | decide +kernel | exact okIs (by decide +kernel) | exact rfl,
     by first | decide +kernel | exact okIs (by decide +kernel) | exact rfl, ⟨_, rfl, trivial⟩⟩,
   ⟨(at_ 1500000000 ((run.setRg Adr.TIME_SRC_CFG 5).modTime fun t => { t with gm := .gm })),
     by first | decide +kernel | exact okIs (by decide +kernel) | exact rfl,
     by first | decide +kernel | exact okIs (by decide +kernel) | exact rfl,
     by first | decide +kernel | exact okIs (by decide +kernel) | exact rfl, ⟨_, rfl, trivial⟩⟩,
   ⟨(at_ 1500000000 (run.setRg Adr.TIME_CTRL 0x100)),
     by first | decide +kernel | exact okIs (by decide +kernel) | exact rfl,
     by first | decide +kernel | exact okIs (by decide +kernel) | exact rfl,
     by first | decide +kernel | exact okIs (by decide +kernel) | exact rfl, ⟨_, rfl, trivial⟩⟩⟩

theorem witness_Timetables :
    (∃ s src p v, s.Inv ∧ p < 512 ∧ s.takes src (Adr.PORT_TT_DATA_HI p) .rw = true ∧ (s.timetable p).pend = none ∧
      Runs (.ttDataHiWrite src p v) s fun _ => True) ∧
    (∃ s src p v, s.Inv ∧ p < 512 ∧ s.takes src (Adr.PORT_TT_CTRL p) .rw = true ∧ bit v 31 = true ∧ bit v 30 = false ∧
      bit v 0 = false ∧ (s.timetable p).pend = none ∧
      ttCheck (s.rf (Adr.PORT_TT_LEN p) 10 0) (s.rg (Adr.PORT_TT_CYCLE p)).toNat (s.rg64 (Adr.PORT_TT_BASE_LO p)) ((s.timetable p).shadowList (s.rf (Adr.PORT_TT_LEN p) 10 0)) = 0 ∧
      Runs (.ttCommit src p v) s fun _ => True) ∧
    (∃ s src p v t0, s.Inv ∧ p < 512 ∧ s.takes src (Adr.PORT_TT_CTRL p) .rw = true ∧ bit v 30 = true ∧ bit v 31 = false ∧
      bit v 0 = false ∧ (s.timetable p).pend = some t0 ∧ s.ns < t0 ∧ Runs (.ttCancel src p v) s fun _ => True) ∧
    (∃ s p t0, (s.timetable p).pend = some t0 ∧ t0 ≤ s.ns ∧ s.ttActive p = false ∧ Runs (.ttSwitch p) s fun _ => True) ∧
    (∃ s p, s.ttActive p = true ∧ (s.timetable p).ends ≤ s.ns ∧ (s.timetable p).judged = true ∧
      Runs (.ttEntryBoundary p) s fun _ => True) :=
  ⟨⟨(at_ 100 (lay 504 0 run)), .host, 504, 7, ⟨by decide +kernel, by decide +kernel⟩,
     by first | decide +kernel | exact okIs (by decide +kernel) | exact rfl,
     by first | decide +kernel | exact okIs (by decide +kernel) | exact rfl,
     by first | decide +kernel | exact okIs (by decide +kernel) | exact rfl, ⟨_, rfl, trivial⟩⟩,
   ⟨((((at_ 100 (lay 504 0 run)).setRg (Adr.PORT_TT_LEN 504) 1).setRg (Adr.PORT_TT_CYCLE 504) 1000).modTable 504 fun x => { x with shadow := [(0, (BitVec.ofNat 64 125))] }),
     .host, 504, 0x80000000, ⟨by decide +kernel, by decide +kernel⟩,
     by first | decide +kernel | exact okIs (by decide +kernel) | exact rfl,
     by first | decide +kernel | exact okIs (by decide +kernel) | exact rfl,
     by first | decide +kernel | exact okIs (by decide +kernel) | exact rfl,
     by first | decide +kernel | exact okIs (by decide +kernel) | exact rfl,
     by first | decide +kernel | exact okIs (by decide +kernel) | exact rfl,
     by first | decide +kernel | exact okIs (by decide +kernel) | exact rfl,
     by first | decide +kernel | exact okIs (by decide +kernel) | exact rfl, ⟨_, rfl, trivial⟩⟩,
   ⟨((at_ 100 (lay 504 0 run)).modTable 504 fun x => { x with pend := some 101 }), .host, 504, 0x40000000, 101,
     ⟨by decide +kernel, by decide +kernel⟩, by first | decide +kernel | exact okIs (by decide +kernel) | exact rfl,
     by first | decide +kernel | exact okIs (by decide +kernel) | exact rfl,
     by first | decide +kernel | exact okIs (by decide +kernel) | exact rfl,
     by first | decide +kernel | exact okIs (by decide +kernel) | exact rfl,
     by first | decide +kernel | exact okIs (by decide +kernel) | exact rfl,
     by first | decide +kernel | exact okIs (by decide +kernel) | exact rfl,
     by first | decide +kernel | exact okIs (by decide +kernel) | exact rfl, ⟨_, rfl, trivial⟩⟩,
   ⟨(((at_ 100 (lay 504 0 run)).modTable 504 fun x => { x with pend := some 100, shadow := [(0, (BitVec.ofNat 64 125))] }).setRg (Adr.PORT_TT_LEN 504) 1),
     504, 100, by first | decide +kernel | exact okIs (by decide +kernel) | exact rfl,
     by first | decide +kernel | exact okIs (by decide +kernel) | exact rfl,
     by first | decide +kernel | exact okIs (by decide +kernel) | exact rfl, ⟨_, rfl, trivial⟩⟩,
   ⟨(((at_ 100 (lay 504 0 run)).setRg (Adr.PORT_TT_CTRL 504) 1).modTable 504 fun x => { x with oper := [(BitVec.ofNat 64 125)], cycle := 1000, ends := 100, judged := true }),
     504, by first | decide +kernel | exact okIs (by decide +kernel) | exact rfl,
     by first | decide +kernel | exact okIs (by decide +kernel) | exact rfl,
     by first | decide +kernel | exact okIs (by decide +kernel) | exact rfl, ⟨_, rfl, trivial⟩⟩⟩

theorem witness_BarnWindow :
    (∃ s a n, s.live = true ∧ s.barnOn = true ∧ s.windowRefused a n false = false ∧
      Runs (.barnWindowRead a n) s fun _ => True) ∧
    (∃ s a d, s.Inv ∧ s.live = true ∧ s.barnOn = true ∧ s.windowRefused a d.length true = false ∧
      Runs (.barnWindowWrite a d) s fun _ => True) ∧
    (∃ s src v, s.takes src Adr.BWIN_CMD .wo = true ∧ bit v 31 = true ∧ bit v 24 = false ∧ 0 < bits v 8 0 ∧
      bits v 8 0 ≤ 256 ∧ s.barnOn = true ∧ s.rg64 Adr.BWIN_ADDR_LO + bits v 8 0 ≤ barnSize ∧
      s.windowRefused (s.rg64 Adr.BWIN_ADDR_LO) (bits v 8 0) false = false ∧ Runs (.bwinRead src v) s fun _ => True) ∧
    (∃ s src v, s.Inv ∧ s.takes src Adr.BWIN_CMD .wo = true ∧ bit v 31 = true ∧ bit v 24 = true ∧ 0 < bits v 8 0 ∧
      bits v 8 0 ≤ 256 ∧ s.barnOn = true ∧ s.rg64 Adr.BWIN_ADDR_LO + bits v 8 0 ≤ barnSize ∧
      s.windowRefused (s.rg64 Adr.BWIN_ADDR_LO) (bits v 8 0) true = false ∧ Runs (.bwinWrite src v) s fun _ => True) :=
  ⟨⟨run, 0, 4, by first | decide +kernel | exact okIs (by decide +kernel) | exact rfl,
     by first | decide +kernel | exact okIs (by decide +kernel) | exact rfl,
     by first | decide +kernel | exact okIs (by decide +kernel) | exact rfl, ⟨_, rfl, trivial⟩⟩,
   ⟨run, (barnSize - 1), [7, 8], ⟨by decide +kernel, by decide +kernel⟩,
     by first | decide +kernel | exact okIs (by decide +kernel) | exact rfl,
     by first | decide +kernel | exact okIs (by decide +kernel) | exact rfl,
     by first | decide +kernel | exact okIs (by decide +kernel) | exact rfl, ⟨_, rfl, trivial⟩⟩,
   ⟨((run.setRg Adr.BWIN_ADDR_LO 0xFFFFFFFF).setRg (Adr.BWIN_ADDR_LO + 4) 0x47), .host, 0x80000001,
     by first | decide +kernel | exact okIs (by decide +kernel) | exact rfl,
     by first | decide +kernel | exact okIs (by decide +kernel) | exact rfl,
     by first | decide +kernel | exact okIs (by decide +kernel) | exact rfl,
     by first | decide +kernel | exact okIs (by decide +kernel) | exact rfl,
     by first | decide +kernel | exact okIs (by decide +kernel) | exact rfl,
     by first | decide +kernel | exact okIs (by decide +kernel) | exact rfl,
     by first | decide +kernel | exact okIs (by decide +kernel) | exact rfl,
     by first | decide +kernel | exact okIs (by decide +kernel) | exact rfl, ⟨_, rfl, trivial⟩⟩,
   ⟨((run.setRg Adr.BWIN_ADDR_LO 0xFFFFFFFF).setRg (Adr.BWIN_ADDR_LO + 4) 0x47), .host, 0x81000001, ⟨by decide +kernel,
     by decide +kernel⟩, by first | decide +kernel | exact okIs (by decide +kernel) | exact rfl,
     by first | decide +kernel | exact okIs (by decide +kernel) | exact rfl,
     by first | decide +kernel | exact okIs (by decide +kernel) | exact rfl,
     by first | decide +kernel | exact okIs (by decide +kernel) | exact rfl,
     by first | decide +kernel | exact okIs (by decide +kernel) | exact rfl,
     by first | decide +kernel | exact okIs (by decide +kernel) | exact rfl,
     by first | decide +kernel | exact okIs (by decide +kernel) | exact rfl,
     by first | decide +kernel | exact okIs (by decide +kernel) | exact rfl, ⟨_, rfl, trivial⟩⟩⟩

theorem witness_Fencing :
    (∃ s src g, g < 64 ∧ s.takes src Adr.FAULT_FENCE_CMD .wo = true ∧ s.flt.groups.get g = .open_ ∧
      Runs (.fenceLogical src g) s fun _ => True) ∧
    (∃ s src g, g < 64 ∧ s.takes src Adr.FAULT_FENCE_CMD .wo = true ∧ s.flt.groups.get g ≠ .electrical ∧
      Runs (.fenceElectrical src g) s fun _ => True) ∧
    (∃ s src g, g < 64 ∧ s.takes src Adr.FAULT_FENCE_CMD .wo = true ∧ s.flt.groups.get g ≠ .open_ ∧ s.flt.devFatal = false ∧
      Runs (.fenceRelease src g) s fun _ => True) ∧
    (∃ s p k c u, p < 512 ∧ k.cls = 1 ∧ nbits k.spec 31 28 = 2 ∧ mgmtBad k = false ∧ s.takeLocal p k = (some c, u) ∧
      Runs (.fenceNoticeRx p k) s fun _ => True) ∧
    (∃ s src p v, s.takes src (Adr.PORT_PORT_CTRL p) .rw = true ∧ bits v 3 2 ≠ 3 ∧ s.sec.mode ≠ .sealed ∧
      (s.port p).st = .off ∧ s.flt.groups = [] ∧ Runs (.portEnable src p v) s fun _ => True) :=
  ⟨⟨run, .host, 63, by first | decide +kernel | exact okIs (by decide +kernel) | exact rfl,
     by first | decide +kernel | exact okIs (by decide +kernel) | exact rfl,
     by first | decide +kernel | exact okIs (by decide +kernel) | exact rfl, ⟨_, rfl, trivial⟩⟩,
   ⟨run, .host, 0, by first | decide +kernel | exact okIs (by decide +kernel) | exact rfl,
     by first | decide +kernel | exact okIs (by decide +kernel) | exact rfl,
     by first | decide +kernel | exact okIs (by decide +kernel) | exact rfl, ⟨_, rfl, trivial⟩⟩,
   ⟨(run.modFlt fun f => { f with groups := [(63, .logical)] }), .host, 63,
     by first | decide +kernel | exact okIs (by decide +kernel) | exact rfl,
     by first | decide +kernel | exact okIs (by decide +kernel) | exact rfl,
     by first | decide +kernel | exact okIs (by decide +kernel) | exact rfl,
     by first | decide +kernel | exact okIs (by decide +kernel) | exact rfl, ⟨_, rfl, trivial⟩⟩,
   ⟨(got 0 notice up0), 0, notice, 1, ((got 0 notice up0).takeLocal 0 notice).2,
     by first | decide +kernel | exact okIs (by decide +kernel) | exact rfl,
     by first | decide +kernel | exact okIs (by decide +kernel) | exact rfl,
     by first | decide +kernel | exact okIs (by decide +kernel) | exact rfl,
     by first | decide +kernel | exact okIs (by decide +kernel) | exact rfl, rfl, ⟨_, rfl, trivial⟩⟩,
   ⟨run, .host, 504, 1, by first | decide +kernel | exact okIs (by decide +kernel) | exact rfl,
     by first | decide +kernel | exact okIs (by decide +kernel) | exact rfl,
     by first | decide +kernel | exact okIs (by decide +kernel) | exact rfl,
     by first | decide +kernel | exact okIs (by decide +kernel) | exact rfl,
     by first | decide +kernel | exact okIs (by decide +kernel) | exact rfl, ⟨_, rfl, trivial⟩⟩⟩

theorem witness_AuditsAndObservation :
    (∃ s, s.boundaries s.flt.auditAt s.ns = 1 ∧ bit (s.rg Adr.FAULT_AUDIT_CFG) 31 = true ∧ s.pwr.pstate = .run ∧
      s.flt.running = false ∧ Runs .auditEpoch s fun _ => True) ∧
    (∃ s broken, s.flt.running = true ∧ Runs (.auditComplete broken) s fun _ => True) ∧
    (∃ s src i v, s.Inv ∧ i < 64 ∧ s.takes src (Adr.OBS_GCTR_SEL i) .rw = true ∧ bits v 23 16 ≠ 0 ∧ bits v 23 16 ≤ 0x13 ∧
      bits v 30 29 ≠ 3 ∧ Runs (.gctrSelWrite src i v) s fun _ => True) ∧
    (∃ s src w v, s.Inv ∧ w < 64 ∧ s.takes src (Adr.OBS_WP_CTRL w) .rw = true ∧ Runs (.wpCtrlWrite src w v) s fun _ => True) ∧
    (∃ s src v, s.takes src Adr.OBS_TRACE_CTRL .wo = true ∧ bit v 0 = true ∧ Runs (.traceUnfreeze src v) s fun _ => True) :=
  ⟨⟨(at_ 1000 (run.setRg Adr.FAULT_AUDIT_CFG 0x80000001)),
     by first | decide +kernel | exact okIs (by decide +kernel) | exact rfl,
     by first | decide +kernel | exact okIs (by decide +kernel) | exact rfl,
     by first | decide +kernel | exact okIs (by decide +kernel) | exact rfl,
     by first | decide +kernel | exact okIs (by decide +kernel) | exact rfl, ⟨_, rfl, trivial⟩⟩,
   ⟨(run.modFlt fun f => { f with running := true }), [(0, 0, 1, 2)],
     by first | decide +kernel | exact okIs (by decide +kernel) | exact rfl, ⟨_, rfl, trivial⟩⟩,
   ⟨run, .host, 63, 0x80130000, ⟨by decide +kernel, by decide +kernel⟩,
     by first | decide +kernel | exact okIs (by decide +kernel) | exact rfl,
     by first | decide +kernel | exact okIs (by decide +kernel) | exact rfl,
     by first | decide +kernel | exact okIs (by decide +kernel) | exact rfl,
     by first | decide +kernel | exact okIs (by decide +kernel) | exact rfl,
     by first | decide +kernel | exact okIs (by decide +kernel) | exact rfl, ⟨_, rfl, trivial⟩⟩,
   ⟨run, .host, 63, 0xFFFFFFFF, ⟨by decide +kernel, by decide +kernel⟩,
     by first | decide +kernel | exact okIs (by decide +kernel) | exact rfl,
     by first | decide +kernel | exact okIs (by decide +kernel) | exact rfl, ⟨_, rfl, trivial⟩⟩,
   ⟨(run.modObs fun o => { o with frozen := true }), .host, 1,
     by first | decide +kernel | exact okIs (by decide +kernel) | exact rfl,
     by first | decide +kernel | exact okIs (by decide +kernel) | exact rfl, ⟨_, rfl, trivial⟩⟩⟩

theorem witness_Requests :
    (∃ s p k c u j w x z y, k.cls = 8 ∧ s.takeLocal p k = (some c, u) ∧ u.hostFn (ingressDie p) k = none ∧
      u.checkHead (ingressDie p) (mreqBad k) k = (.ok j, w) ∧ w.inDq j k.fva = false ∧ w.inWindow 0 k.fjid k.fva = none ∧
      w.inWindow 1 k.fjid k.fva = none ∧ w.queueFits j k = true ∧
      w.checkBody (ingressDie p) j k.op (if k.op = 2 then 64 else k.size) (fun e => permitted e k.op) k = (.pass x, z) ∧
      x.coh = false ∧ z.watch (tracePort (ingressOf p)) k k.op (if k.op = 2 then 64 else k.size) x.segs = (false, y) ∧
      Runs (.mreqRx p k) s fun _ => True) ∧
    (∃ s p k c u, k.cls = 8 ∧ s.takeLocal p k = (some c, u) ∧ u.hostFn (ingressDie p) k = none ∧ mreqBad k = true ∧
      Runs (.mreqRx p k) s fun _ => True) ∧
    (∃ s p k c u, k.cls = 8 ∧ s.takeLocal p k = (some c, u) ∧ u.hostFn (ingressDie p) k = none ∧ mreqBad k = false ∧
      u.slotOf k.fjid = none ∧ Runs (.mreqRx p k) s fun _ => True) ∧
    (∃ s p k c u j i w y, k.cls = 8 ∧ s.slotOf k.fjid = some i ∧ s.inDq i k.fva = true ∧ s.takeLocal p k = (some c, u) ∧
      u.hostFn (ingressDie p) k = none ∧ u.checkHead (ingressDie p) (mreqBad k) k = (.ok j, w) ∧ w.inDq j k.fva = true ∧
      k.op = 1 ∧ k.size = 128 ∧ k.fva % 128 = 0 ∧ dFjid (leNat (k.bytes 32 128)) = k.fjid ∧
      w.submit j (leNat (k.bytes 32 128)) = (.queued, y) ∧ Runs (.descWrite p k) s fun _ => True) ∧
    (∃ s p k c u j w l off, k.cls = 8 ∧ (s.inWindow 0 k.fjid k.fva).isSome = true ∧ s.takeLocal p k = (some c, u) ∧
      u.hostFn (ingressDie p) k = none ∧ u.checkHead (ingressDie p) (mreqBad k) k = (.ok j, w) ∧ w.inDq j k.fva = false ∧
      w.inWindow 0 k.fjid k.fva = some (l, off) ∧ Runs (.tokenWrite p k) s fun _ => True) ∧
    (∃ s p k c u j w l off, k.cls = 8 ∧ (s.inWindow 1 k.fjid k.fva).isSome = true ∧ s.takeLocal p k = (some c, u) ∧
      u.hostFn (ingressDie p) k = none ∧ u.checkHead (ingressDie p) (mreqBad k) k = (.ok j, w) ∧ w.inDq j k.fva = false ∧
      w.inWindow 0 k.fjid k.fva = none ∧ w.inWindow 1 k.fjid k.fva = some (l, off) ∧
      Runs (.expertOutputWrite p k) s fun _ => True) ∧
    (∃ s id u n, (s.ttu.waiting.find? fun v => v.id == id) = some u ∧ s.stopped 3 u.die = false ∧
      (s.ttu.waiting.find? fun v => v.slot == u.slot && v.die == u.die) = some u ∧ s.tagRoom u.die u.slot false = true ∧
      s.pickTag u.die = some n ∧ Runs (.mreqIssue id) s fun _ => True) ∧
    (∃ s p k c u g r part, s.takeLocal p k = (some c, u) ∧ u.tag k.reqTag = some g ∧ g.quar = false ∧ g.target = p ∧
      u.req g.req = some r ∧ r.parts[g.part]? = some part ∧ Runs (.targetRspRx p k) s fun _ => True) ∧
    (∃ s p k c u, s.takeLocal p k = (some c, u) ∧ u.tag k.reqTag = none ∧ Runs (.targetRspRx p k) s fun _ => True) ∧
    (∃ s p tag data load, s.portMode p = 2 ∧ (s.port p).cxlOut.contains tag = true ∧
      Runs (.cxlMemdataRx p tag data false load) s fun _ => True) ∧
    (∃ s tag g, s.tag tag = some g ∧ g.target = 512 ∧ g.quar = false ∧ Runs (.barnAccessDone tag) s fun _ => True) ∧
    (∃ s p e, p < 512 ∧
      (s.tagList.find? fun e => !e.2.quar && e.2.target == p && decide (e.2.at_ + 1000 * s.rf (Adr.TTU_TIMEOUT (tagDie e.1)) 19 0 ≤ s.ns)) = some e ∧
      Runs (.targetTimeout p) s fun _ => True) ∧
    (∃ s src p v, s.Inv ∧ s.takes src (Adr.PORT_TARGET_STATE p) .rw = true ∧ s.rf (Adr.PORT_TARGET_STATE p) 0 0 = 1 ∧
      (s.tagList.any fun e => e.2.quar && e.2.target == p) = false ∧ Runs (.targetDeadClear src p v) s fun _ => True) ∧
    (∃ s p, s.portMode p = 2 ∧ s.portActive p = true ∧ Runs (.cxlLinkFatal p .linkLoss) s fun _ => True) ∧
    (∃ s p c, s.portMode p = 2 ∧ s.portActive p = true ∧ c ≠ .linkLoss ∧ Runs (.cxlLinkFatal p c) s fun _ => True) ∧
    (∃ s tag g r part i, s.tag tag = some g ∧ g.target = 512 ∧ g.quar = false ∧
      g.at_ + 1000 * s.rf (Adr.TTU_TIMEOUT (tagDie tag)) 19 0 ≤ s.ns ∧ s.req g.req = some r ∧ r.parts[g.part]? = some part ∧
      ((∃ q ∈ part.segs, s.poolFind q.ppa = some i)) ∧ poolKind (s.poolEntry i) = 2 ∧
      part.sectors.all (s.sectorReady r) = false ∧ Runs (.granReqTimeout tag) s fun _ => True) :=
  ⟨⟨(got 0 (mreq 0 64 0 []) job), 0, (mreq 0 64 0 []), 1, _, 0, _, ({ slot := 0, segs := [{ off := 0, len := 64, ppa := 0, ext := 0 }], exts := [0] } : Passed),
     _, _, by first | decide +kernel | exact okIs (by decide +kernel) | exact rfl, pairOf (by decide +kernel),
     by first | decide +kernel | exact okIs (by decide +kernel) | exact rfl, okOf (by decide +kernel),
     by first | decide +kernel | exact okIs (by decide +kernel) | exact rfl,
     by first | decide +kernel | exact okIs (by decide +kernel) | exact rfl,
     by first | decide +kernel | exact okIs (by decide +kernel) | exact rfl,
     by first | decide +kernel | exact okIs (by decide +kernel) | exact rfl, pairOf (by decide +kernel),
     by first | decide +kernel | exact okIs (by decide +kernel) | exact rfl, pairOf (by decide +kernel), ⟨_, rfl, trivial⟩⟩,
   ⟨(got 0 (mreq 4 64 0 []) job), 0, (mreq 4 64 0 []), 1, _,
     by first | decide +kernel | exact okIs (by decide +kernel) | exact rfl, pairOf (by decide +kernel),
     by first | decide +kernel | exact okIs (by decide +kernel) | exact rfl,
     by first | decide +kernel | exact okIs (by decide +kernel) | exact rfl, ⟨_, rfl, trivial⟩⟩,
   ⟨(got 0 (mreq 0 64 0 []) (job.setJob 0 .free)), 0, (mreq 0 64 0 []), 1, _,
     by first | decide +kernel | exact okIs (by decide +kernel) | exact rfl, pairOf (by decide +kernel),
     by first | decide +kernel | exact okIs (by decide +kernel) | exact rfl,
     by first | decide +kernel | exact okIs (by decide +kernel) | exact rfl,
     by first | decide +kernel | exact okIs (by decide +kernel) | exact rfl, ⟨_, rfl, trivial⟩⟩,
   ⟨(got 0 (mreq 1 128 0x1F80 (leBytes 128 (5 * 2 ^ 228))) (job.setRg (Adr.JOB_DQ_FVA_LO 0) 0x1001)), 0,
     (mreq 1 128 0x1F80 (leBytes 128 (5 * 2 ^ 228))), 1, _, 0, 0, _, _,
     by first | decide +kernel | exact okIs (by decide +kernel) | exact rfl,
     by first | decide +kernel | exact okIs (by decide +kernel) | exact rfl,
     by first | decide +kernel | exact okIs (by decide +kernel) | exact rfl, pairOf (by decide +kernel),
     by first | decide +kernel | exact okIs (by decide +kernel) | exact rfl, okOf (by decide +kernel),
     by first | decide +kernel | exact okIs (by decide +kernel) | exact rfl,
     by first | decide +kernel | exact okIs (by decide +kernel) | exact rfl,
     by first | decide +kernel | exact okIs (by decide +kernel) | exact rfl,
     by first | decide +kernel | exact okIs (by decide +kernel) | exact rfl,
     by first | decide +kernel | exact okIs (by decide +kernel) | exact rfl, pairOf (by decide +kernel), ⟨_, rfl, trivial⟩⟩,
   ⟨(got 0 (mreq 1 64 0x1000C0 (List.replicate 64 0)) layer), 0, (mreq 1 64 0x1000C0 (List.replicate 64 0)), 1, _, 0, _, 0,
     0xC0, by first | decide +kernel | exact okIs (by decide +kernel) | exact rfl,
     by first | decide +kernel | exact okIs (by decide +kernel) | exact rfl, pairOf (by decide +kernel),
     by first | decide +kernel | exact okIs (by decide +kernel) | exact rfl, okOf (by decide +kernel),
     by first | decide +kernel | exact okIs (by decide +kernel) | exact rfl,
     by first | decide +kernel | exact okIs (by decide +kernel) | exact rfl, ⟨_, rfl, trivial⟩⟩,
   ⟨(got 0 (mreq 1 64 0x200000 (List.replicate 64 0)) layer), 0, (mreq 1 64 0x200000 (List.replicate 64 0)), 1, _, 0, _, 0,
     0, by first | decide +kernel | exact okIs (by decide +kernel) | exact rfl,
     by first | decide +kernel | exact okIs (by decide +kernel) | exact rfl, pairOf (by decide +kernel),
     by first | decide +kernel | exact okIs (by decide +kernel) | exact rfl, okOf (by decide +kernel),
     by first | decide +kernel | exact okIs (by decide +kernel) | exact rfl,
     by first | decide +kernel | exact okIs (by decide +kernel) | exact rfl,
     by first | decide +kernel | exact okIs (by decide +kernel) | exact rfl, ⟨_, rfl, trivial⟩⟩,
   ⟨(job.modTtu fun t => { t with waiting := [{ id := 4, slot := some 0, owner := .none_, pkt := mreq 0 64 0 [] }] }), 4,
     ({ id := 4, slot := some 0, owner := .none_, pkt := mreq 0 64 0 [] } : UnitReq),
     (32768 * 0 + ((job.modTtu fun t => { t with waiting := [{ id := 4, slot := some 0, owner := .none_, pkt := mreq 0 64 0 [] }] }).freeVal + 0) % 32768),
     by first | decide +kernel | exact okIs (by decide +kernel) | exact rfl,
     by first | decide +kernel | exact okIs (by decide +kernel) | exact rfl,
     by first | decide +kernel | exact okIs (by decide +kernel) | exact rfl,
     by first | decide +kernel | exact okIs (by decide +kernel) | exact rfl, rfl, ⟨_, rfl, trivial⟩⟩,
   ⟨(got 0 (mkPkt 9 (7 * 2 ^ 16) 9 8 0 false (leBytes 16 0)) ((job.setTag 7 (some { target := 0, req := 4, slot := some 0 })).setReq 4 (some { parts := [{ tgt := .avber 0, st := .issued, tag := 7 }], formed := true, slot := some 0 }))),
     0, (mkPkt 9 (7 * 2 ^ 16) 9 8 0 false (leBytes 16 0)), 1, _, ({ target := 0, req := 4, slot := some 0 } : Tag),
     ({ parts := [{ tgt := .avber 0, st := .issued, tag := 7 }], formed := true, slot := some 0 } : Req),
     ({ tgt := .avber 0, st := .issued, tag := 7 } : Part), pairOf (by decide +kernel),
     by first | decide +kernel | exact okIs (by decide +kernel) | exact rfl,
     by first | decide +kernel | exact okIs (by decide +kernel) | exact rfl,
     by first | decide +kernel | exact okIs (by decide +kernel) | exact rfl,
     by first | decide +kernel | exact okIs (by decide +kernel) | exact rfl,
     by first | decide +kernel | exact okIs (by decide +kernel) | exact rfl, ⟨_, rfl, trivial⟩⟩,
   ⟨(got 0 (mkPkt 9 (7 * 2 ^ 16) 9 8 0 false (leBytes 16 0)) job), 0, (mkPkt 9 (7 * 2 ^ 16) 9 8 0 false (leBytes 16 0)), 1,
     _, pairOf (by decide +kernel), by first | decide +kernel | exact okIs (by decide +kernel) | exact rfl, ⟨_, rfl,
     trivial⟩⟩,
   ⟨((ap 16 .active (lay 16 2 run)).modPort 16 fun q => { q with cxlOut := [3] }), 16, 3, List.replicate 64 0, 0,
     by first | decide +kernel | exact okIs (by decide +kernel) | exact rfl,
     by first | decide +kernel | exact okIs (by decide +kernel) | exact rfl, ⟨_, rfl, trivial⟩⟩,
   ⟨(job.setTag 7 (some { req := 4, slot := some 0 })), 7, ({ req := 4, slot := some 0 } : Tag),
     by first | decide +kernel | exact okIs (by decide +kernel) | exact rfl,
     by first | decide +kernel | exact okIs (by decide +kernel) | exact rfl,
     by first | decide +kernel | exact okIs (by decide +kernel) | exact rfl, ⟨_, rfl, trivial⟩⟩,
   ⟨(at_ 2000000000 (job.setTag 7 (some { target := 511, req := 4, slot := some 0 }))), 511, (7, ({ target := 511, req := 4, slot := some 0 } : Tag)),
     by first | decide +kernel | exact okIs (by decide +kernel) | exact rfl,
     by first | decide +kernel | exact okIs (by decide +kernel) | exact rfl, ⟨_, rfl, trivial⟩⟩,
   ⟨((lay 504 0 run).setRg (Adr.PORT_TARGET_STATE 504) 1), .host, 504, 1, ⟨by decide +kernel, by decide +kernel⟩,
     by first | decide +kernel | exact okIs (by decide +kernel) | exact rfl,
     by first | decide +kernel | exact okIs (by decide +kernel) | exact rfl,
     by first | decide +kernel | exact okIs (by decide +kernel) | exact rfl, ⟨_, rfl, trivial⟩⟩,
   ⟨(ap 16 .active (lay 16 2 run)), 16, by first | decide +kernel | exact okIs (by decide +kernel) | exact rfl,
     by first | decide +kernel | exact okIs (by decide +kernel) | exact rfl, ⟨_, rfl, trivial⟩⟩,
   ⟨(ap 16 .active (lay 16 2 run)), 16, .viral, by first | decide +kernel | exact okIs (by decide +kernel) | exact rfl,
     by first | decide +kernel | exact okIs (by decide +kernel) | exact rfl,
     by first | decide +kernel | exact okIs (by decide +kernel) | exact rfl, ⟨_, rfl, trivial⟩⟩,
   ⟨(at_ 2000000000 ((job.setTag 7 (some { req := 4, slot := some 0 })).setReq 4 (some { slot := some 0, segs := [{ len := 64 }], parts := [{ segs := [{ len := 64 }], st := .issued, tag := 7 }], formed := true, pkt := mreq 0 64 0 [] }))),
     7, ({ req := 4, slot := some 0 } : Tag), ({ slot := some 0, segs := [{ len := 64 }], parts := [{ segs := [{ len := 64 }], st := .issued, tag := 7 }], formed := true, pkt := mreq 0 64 0 [] } : Req),
     ({ segs := [{ len := 64 }], st := .issued, tag := 7 } : Part), 0,
     by first | decide +kernel | exact okIs (by decide +kernel) | exact rfl,
     by first | decide +kernel | exact okIs (by decide +kernel) | exact rfl,
     by first | decide +kernel | exact okIs (by decide +kernel) | exact rfl,
     by first | decide +kernel | exact okIs (by decide +kernel) | exact rfl,
     by first | decide +kernel | exact okIs (by decide +kernel) | exact rfl,
     by first | decide +kernel | exact okIs (by decide +kernel) | exact rfl,
     by first | decide +kernel | exact okIs (by decide +kernel) | exact rfl,
     by first | decide +kernel | exact okIs (by decide +kernel) | exact rfl,
     by first | decide +kernel | exact okIs (by decide +kernel) | exact rfl, ⟨_, rfl, trivial⟩⟩⟩

theorem witness_JobSlots :
    (∃ s src j, s.Inv ∧ s.takes src (Adr.JOB_CTRL j) .wo = true ∧ j < 1024 ∧ s.job j = .free ∧ s.activateOk j = true ∧
      Runs (.jobActivate src j) s fun _ => True) ∧
    (∃ s src j, s.takes src (Adr.JOB_CTRL j) .wo = true ∧ s.job j = .active ∧ Runs (.jobStop src j) s fun _ => True) ∧
    (∃ s j, s.job j = .draining ∧ s.tagUsed j = 0 ∧ s.queueUsed j = 0 ∧
      (s.ttu.waiting.all fun u => u.slot != some j) = true ∧ Runs (.jobDrained j) s fun _ => True) ∧
    (∃ s src j, s.Inv ∧ s.takes src (Adr.JOB_CTRL j) .wo = true ∧ j < 1024 ∧ s.job j = .drained ∧ s.slotHeld j = false ∧
      Runs (.jobRelease src j) s fun _ => True) ∧
    (∃ s src j v, s.takes src (Adr.JOB_CTRL j) .wo = true ∧ s.job j ≠ .free ∧ Runs (.jobInval src j v) s fun _ => True) ∧
    (∃ s j ids, s.ttu.inval.get j = some ids ∧ ((∀ id ∈ ids, s.req id = none ∧ s.hgroup id = none)) ∧
      Runs (.invalDone j) s fun _ => True) :=
  ⟨⟨(job.setJob 0 .free), .host, 0, ⟨by decide +kernel, by decide +kernel⟩,
     by first | decide +kernel | exact okIs (by decide +kernel) | exact rfl,
     by first | decide +kernel | exact okIs (by decide +kernel) | exact rfl,
     by first | decide +kernel | exact okIs (by decide +kernel) | exact rfl,
     by first | decide +kernel | exact okIs (by decide +kernel) | exact rfl, ⟨_, rfl, trivial⟩⟩,
   ⟨job, .host, 0, by first | decide +kernel | exact okIs (by decide +kernel) | exact rfl,
     by first | decide +kernel | exact okIs (by decide +kernel) | exact rfl, ⟨_, rfl, trivial⟩⟩,
   ⟨(job.setJob 0 .draining), 0, by first | decide +kernel | exact okIs (by decide +kernel) | exact rfl,
     by first | decide +kernel | exact okIs (by decide +kernel) | exact rfl,
     by first | decide +kernel | exact okIs (by decide +kernel) | exact rfl,
     by first | decide +kernel | exact okIs (by decide +kernel) | exact rfl, ⟨_, rfl, trivial⟩⟩,
   ⟨(job.setJob 0 .drained), .host, 0, ⟨by decide +kernel, by decide +kernel⟩,
     by first | decide +kernel | exact okIs (by decide +kernel) | exact rfl,
     by first | decide +kernel | exact okIs (by decide +kernel) | exact rfl,
     by first | decide +kernel | exact okIs (by decide +kernel) | exact rfl,
     by first | decide +kernel | exact okIs (by decide +kernel) | exact rfl, ⟨_, rfl, trivial⟩⟩,
   ⟨job, .host, 0, 1, by first | decide +kernel | exact okIs (by decide +kernel) | exact rfl,
     by first | decide +kernel | exact okIs (by decide +kernel) | exact rfl, ⟨_, rfl, trivial⟩⟩,
   ⟨(job.modTtu fun t => { t with inval := [(0, some [9])] }), 0, [9],
     by first | decide +kernel | exact okIs (by decide +kernel) | exact rfl,
     by first | decide +kernel | exact okIs (by decide +kernel) | exact rfl, ⟨_, rfl, trivial⟩⟩⟩

theorem witness_Coherence :
    (∃ s p k c u j w x z y d, s.stopped 4 (ingressDie p) = false ∧ s.takeLocal p k = (c, u) ∧ creqBad k = false ∧
      u.checkHead (ingressDie p) false k = (.ok j, w) ∧ w.domOf k.fjid = some d ∧ w.agentOk d k = true ∧
      w.queueFits j k = true ∧
      w.checkBody (ingressDie p) j (creqOp k.op) (if k.op = 5 then asize k else 64) (creqPerm k.op) k = (.pass x, z) ∧
      x.coh = true ∧ z.domServes k = .ok d ∧
      (z.watch (tracePort (ingressOf p)) k (if k.op = 1 ∨ k.op = 2 ∨ k.op = 3 then 1 else 0) (if k.op = 5 then asize k else 64) x.segs = (false,
      y)) ∧ Runs (.creqRx p k) s fun _ => True) ∧
    (∃ s id w t q needs, s.home.waiting.get id = some w ∧ q = ((w.group.bind s.hgroup).map (·.pkt)).getD default ∧
      needs = (w.group.isNone || (q.cls == 7 && q.op != 3 && q.op != 4)) ∧
      (s.home.waiting.any fun e => match e.2 with | some v => decide (e.1 < id) && v.dom == w.dom && v.line == w.line | none => false) = false ∧
      s.trkUsed w.dom < s.rf (Adr.DOM_TRK_LIMIT w.dom) 13 0 ∧ ((needs = true → s.recallFree (s.domDie w.dom) ≠ 0)) ∧
      s.pickTrk (s.domDie w.dom) = some t ∧ Runs (.trackerStart id) s fun _ => True) ∧
    (∃ s p k c u t x w, s.takeLocal p k = (c, u) ∧ k.len = 32 ∧ k.xf 47 45 ≤ 4 ∧ k.xf 42 0 = 0 ∧ nbits k.spec 15 11 = 0 ∧
      u.cohMatch (ingressDie p) k false true = (some (t, x), w) ∧ ((∃ q : Snoop,
      x.snoops.find? (fun q : Snoop => q.agent == cohAgent k && q.resp.isNone) = some q)) ∧
      Runs (.snpRespRx p k) s fun _ => True) ∧
    (∃ s p k c u t x w, s.takeLocal p k = (c, u) ∧ k.len = 96 ∧ k.xf 50 48 = 0 ∧ k.xf 46 46 = 0 ∧ k.xf 29 0 = 0 ∧
      nbits k.spec 15 11 = 0 ∧ u.cohMatch (ingressDie p) k false true = (some (t, x), w) ∧ ((∃ q : Snoop,
      x.snoops.find? (fun q : Snoop => q.agent == cohAgent k && q.data.isNone) = some q)) ∧
      Runs (.cdatHomeRx p k) s fun _ => True) ∧
    (∃ s p k c u t x w, s.takeLocal p k = (c, u) ∧ k.len = 32 ∧ k.xf 47 0 = 0 ∧ nbits k.spec 15 11 = 0 ∧
      u.cohMatch (ingressDie p) k false false = (some (t, x), w) ∧ x.todo.head? = some .ack ∧
      Runs (.compAckRx p k) s fun _ => True) ∧
    (∃ s t x q, s.trk t = some x ∧ (x.snoops.find? fun q => !q.whole) = some q ∧
      x.since + 1000 * s.rf (Adr.DOM_SNOOP_TIMEOUT x.dom) 19 0 ≤ s.ns ∧ Runs (.snoopTimeout t) s fun _ => True) ∧
    (∃ s src k a, k < 16 ∧ a < 2048 ∧ s.pageOn .swcore 0 = true ∧ nbits (s.agent k a) 62 62 = 0 ∧
      Runs (.agentDeadWrite src k a) s fun _ => True) ∧
    (∃ s src k, s.takes src (Adr.DOM_CTRL k) .wo = true ∧ s.dom k = .off ∧ s.domOf (s.rf (Adr.DOM_FJID k) 19 0) = none ∧
      10 ≤ s.domK k ∧ s.domK k ≤ 23 ∧ 0 < s.rf (Adr.DOM_TRK_LIMIT k) 13 0 ∧ s.rf (Adr.DOM_TRK_LIMIT k) 13 0 ≤ 8192 ∧
      0 < s.rf (Adr.DOM_SNOOP_TIMEOUT k) 19 0 ∧ s.rf (Adr.DOM_SNOOP_TIMEOUT k) 19 0 ≤ 1000000 ∧
      s.rg64 (Adr.DOM_DIR_BASE_LO k) % 2 ^ 20 = 0 ∧ s.rg64 (Adr.DOM_DIR_BASE_LO k) + 1024 * 2 ^ s.domK k ≤ barnSize ∧
      ((List.range 16).filter fun i => s.dom i != .off).foldl (fun n i => n + dirSize (s.domK i)) (dirSize (s.domK k)) ≤ 2 ^ 27 ∧
      Runs (.domEnable src k) s fun _ => True) ∧
    (∃ s src k, s.takes src (Adr.DOM_CTRL k) .wo = true ∧ s.dom k = .active ∧ Runs (.domFlush src k) s fun _ => True) ∧
    (∃ s src k, s.takes src (Adr.DOM_CTRL k) .wo = true ∧ s.dom k = .down ∧ Runs (.domReset src k) s fun _ => True) ∧
    (∃ s k, s.dom k = .init ∧ Runs (.domSweepDone k) s fun _ => True) ∧
    (∃ s k, s.dom k = .flushing ∧ s.home.waiting = [] ∧ s.trkUsed k = 0 ∧ s.dirEntries k = [] ∧
      Runs (.domSweepDone k) s fun _ => True) ∧
    (∃ s k, s.dom k = .downWalk ∧ s.walkOut k = false ∧ Runs (.domSweepDone k) s fun _ => True) :=
  ⟨⟨(got 0 (mreqC 7 3 0 0 0x1000 []) (((job.modHome fun h => { h with doms := [(0, .active)] }).setRg (Adr.DOM_FJID 0) 5).setEntry (agentAt 0 3) 2 (2 ^ 63 + 9))),
     0, (mreqC 7 3 0 0 0x1000 []), some 1, _, 0, _, ({ slot := 0, coh := true, segs := [{ off := 0, len := 64, ppa := 0, ext := 0 }], exts := [0] } : Passed),
     _, _, 0, by first | decide +kernel | exact okIs (by decide +kernel) | exact rfl, pairOf (by decide +kernel),
     by first | decide +kernel | exact okIs (by decide +kernel) | exact rfl, okOf (by decide +kernel),
     by first | decide +kernel | exact okIs (by decide +kernel) | exact rfl,
     by first | decide +kernel | exact okIs (by decide +kernel) | exact rfl,
     by first | decide +kernel | exact okIs (by decide +kernel) | exact rfl, pairOf (by decide +kernel),
     by first | decide +kernel | exact okIs (by decide +kernel) | exact rfl,
     by first | decide +kernel | exact okIs (by decide +kernel) | exact rfl, pairOf (by decide +kernel), ⟨_, rfl, trivial⟩⟩,
   ⟨((run.setRg (Adr.DOM_TRK_LIMIT 0) 1).modHome fun h => { h with doms := [(0, .active)], waiting := [(4, some { dom := 0, line := 7 })] }),
     4, ({ dom := 0, line := 7 } : HReq),
     (8192 * 0 + (((run.setRg (Adr.DOM_TRK_LIMIT 0) 1).modHome fun h => { h with doms := [(0, .active)], waiting := [(4, some { dom := 0, line := 7 })] }).freeVal + 0) % 8192),
     (default : Packet), true, by first | decide +kernel | exact okIs (by decide +kernel) | exact rfl,
     by first | decide +kernel | exact okIs (by decide +kernel) | exact rfl,
     by first | decide +kernel | exact okIs (by decide +kernel) | exact rfl,
     by first | decide +kernel | exact okIs (by decide +kernel) | exact rfl,
     by first | decide +kernel | exact okIs (by decide +kernel) | exact rfl,
     by first | decide +kernel | exact okIs (by decide +kernel) | exact rfl, rfl, ⟨_, rfl, trivial⟩⟩,
   ⟨(got 0 (mkPkt 6 (7 * 2 ^ 16 + 3) 9 8 0 false (leBytes 16 (5 * 2 ^ 51 + 64 * 2 ^ 77 + 0) ++ [])) (((((job.modHome fun h => { h with doms := [(0, .active)] }).setRg (Adr.DOM_FJID 0) 5).setEntry (agentAt 0 3) 2 (2 ^ 63 + 9)).setTrk 7 (some { dom := 0, line := 64, ent := { line := 64 }, todo := [.snoop [3] .inv], snoops := [{ agent := 3 }] })).setGroup 2 (some { pkt := mreqC 7 (7 * 2 ^ 16 + 3) 0 0 0x1000 [] }))),
     0, (mkPkt 6 (7 * 2 ^ 16 + 3) 9 8 0 false (leBytes 16 (5 * 2 ^ 51 + 64 * 2 ^ 77 + 0) ++ [])), some 1, _, 7, ({ dom := 0, line := 64, ent := { line := 64 }, todo := [.snoop [3] .inv], snoops := [{ agent := 3 }] } : Tracker),
     _, pairOf (by decide +kernel), by first | decide +kernel | exact okIs (by decide +kernel) | exact rfl,
     by first | decide +kernel | exact okIs (by decide +kernel) | exact rfl,
     by first | decide +kernel | exact okIs (by decide +kernel) | exact rfl,
     by first | decide +kernel | exact okIs (by decide +kernel) | exact rfl, pairOf (by decide +kernel), ⟨{ agent := 3 },
     by decide +kernel⟩, ⟨_, rfl, trivial⟩⟩,
   ⟨(got 0 (mkPkt 6 (7 * 2 ^ 16 + 3) 9 8 0 false (leBytes 16 (5 * 2 ^ 51 + 64 * 2 ^ 77 + 0) ++ List.replicate 64 0)) (((((job.modHome fun h => { h with doms := [(0, .active)] }).setRg (Adr.DOM_FJID 0) 5).setEntry (agentAt 0 3) 2 (2 ^ 63 + 9)).setTrk 7 (some { dom := 0, line := 64, ent := { line := 64 }, todo := [.snoop [3] .inv], snoops := [{ agent := 3 }] })).setGroup 2 (some { pkt := mreqC 7 (7 * 2 ^ 16 + 3) 0 0 0x1000 [] }))),
     0, (mkPkt 6 (7 * 2 ^ 16 + 3) 9 8 0 false (leBytes 16 (5 * 2 ^ 51 + 64 * 2 ^ 77 + 0) ++ List.replicate 64 0)), some 1,
     _, 7, ({ dom := 0, line := 64, ent := { line := 64 }, todo := [.snoop [3] .inv], snoops := [{ agent := 3 }] } : Tracker),
     _, pairOf (by decide +kernel), by first | decide +kernel | exact okIs (by decide +kernel) | exact rfl,
     by first | decide +kernel | exact okIs (by decide +kernel) | exact rfl,
     by first | decide +kernel | exact okIs (by decide +kernel) | exact rfl,
     by first | decide +kernel | exact okIs (by decide +kernel) | exact rfl,
     by first | decide +kernel | exact okIs (by decide +kernel) | exact rfl, pairOf (by decide +kernel), ⟨{ agent := 3 },
     by decide +kernel⟩, ⟨_, rfl, trivial⟩⟩,
   ⟨(got 0 (mkPkt 6 (7 * 2 ^ 16 + 3) 9 8 0 false (leBytes 16 (5 * 2 ^ 51 + 64 * 2 ^ 77 + 0) ++ [])) (((((job.modHome fun h => { h with doms := [(0, .active)] }).setRg (Adr.DOM_FJID 0) 5).setEntry (agentAt 0 3) 2 (2 ^ 63 + 9)).setTrk 7 (some { dom := 0, group := some 2, line := 64, ent := { line := 64 }, todo := [.ack], snoops := [] })).setGroup 2 (some { pkt := mreqC 7 (7 * 2 ^ 16 + 3) 0 0 0x1000 [] }))),
     0, (mkPkt 6 (7 * 2 ^ 16 + 3) 9 8 0 false (leBytes 16 (5 * 2 ^ 51 + 64 * 2 ^ 77 + 0) ++ [])), some 1, _, 7, ({ dom := 0, group := some 2, line := 64, ent := { line := 64 }, todo := [.ack], snoops := [] } : Tracker),
     _, pairOf (by decide +kernel), by first | decide +kernel | exact okIs (by decide +kernel) | exact rfl,
     by first | decide +kernel | exact okIs (by decide +kernel) | exact rfl,
     by first | decide +kernel | exact okIs (by decide +kernel) | exact rfl, pairOf (by decide +kernel),
     by first | decide +kernel | exact okIs (by decide +kernel) | exact rfl, ⟨_, rfl, trivial⟩⟩,
   ⟨(at_ 2000000000 ((((job.modHome fun h => { h with doms := [(0, .active)] }).setRg (Adr.DOM_FJID 0) 5).setEntry (agentAt 0 3) 2 (2 ^ 63 + 9)).setTrk 7 (some { dom := 0, line := 64, ent := { line := 64 }, todo := [.snoop [3] .inv], snoops := [{ agent := 3 }] }))),
     7, ({ dom := 0, line := 64, ent := { line := 64 }, todo := [.snoop [3] .inv], snoops := [{ agent := 3 }] } : Tracker),
     ({ agent := 3 } : Snoop), by first | decide +kernel | exact okIs (by decide +kernel) | exact rfl,
     by first | decide +kernel | exact okIs (by decide +kernel) | exact rfl,
     by first | decide +kernel | exact okIs (by decide +kernel) | exact rfl, ⟨_, rfl, trivial⟩⟩,
   ⟨run, .host, 15, 2047, by first | decide +kernel | exact okIs (by decide +kernel) | exact rfl,
     by first | decide +kernel | exact okIs (by decide +kernel) | exact rfl,
     by first | decide +kernel | exact okIs (by decide +kernel) | exact rfl,
     by first | decide +kernel | exact okIs (by decide +kernel) | exact rfl, ⟨_, rfl, trivial⟩⟩,
   ⟨((((run.setRg (Adr.DOM_DIR_CFG 15) 10).setRg (Adr.DOM_TRK_LIMIT 15) 1).setRg (Adr.DOM_SNOOP_TIMEOUT 15) 5).setRg (Adr.DOM_FJID 15) 5),
     .host, 15, by first | decide +kernel | exact okIs (by decide +kernel) | exact rfl,
     by first | decide +kernel | exact okIs (by decide +kernel) | exact rfl,
     by first | decide +kernel | exact okIs (by decide +kernel) | exact rfl,
     by first | decide +kernel | exact okIs (by decide +kernel) | exact rfl,
     by first | decide +kernel | exact okIs (by decide +kernel) | exact rfl,
     by first | decide +kernel | exact okIs (by decide +kernel) | exact rfl,
     by first | decide +kernel | exact okIs (by decide +kernel) | exact rfl,
     by first | decide +kernel | exact okIs (by decide +kernel) | exact rfl,
     by first | decide +kernel | exact okIs (by decide +kernel) | exact rfl,
     by first | decide +kernel | exact okIs (by decide +kernel) | exact rfl,
     by first | decide +kernel | exact okIs (by decide +kernel) | exact rfl,
     by first | decide +kernel | exact okIs (by decide +kernel) | exact rfl, ⟨_, rfl, trivial⟩⟩,
   ⟨(run.modHome fun h => { h with doms := [(15, .active)] }), .host, 15,
     by first | decide +kernel | exact okIs (by decide +kernel) | exact rfl,
     by first | decide +kernel | exact okIs (by decide +kernel) | exact rfl, ⟨_, rfl, trivial⟩⟩,
   ⟨(run.modHome fun h => { h with doms := [(15, .down)] }), .host, 15,
     by first | decide +kernel | exact okIs (by decide +kernel) | exact rfl,
     by first | decide +kernel | exact okIs (by decide +kernel) | exact rfl, ⟨_, rfl, trivial⟩⟩,
   ⟨(run.modHome fun h => { h with doms := [(15, .init)] }), 15,
     by first | decide +kernel | exact okIs (by decide +kernel) | exact rfl, ⟨_, rfl, trivial⟩⟩,
   ⟨(run.modHome fun h => { h with doms := [(15, .flushing)] }), 15,
     by first | decide +kernel | exact okIs (by decide +kernel) | exact rfl,
     by first | decide +kernel | exact okIs (by decide +kernel) | exact rfl,
     by first | decide +kernel | exact okIs (by decide +kernel) | exact rfl,
     by first | decide +kernel | exact okIs (by decide +kernel) | exact rfl, ⟨_, rfl, trivial⟩⟩,
   ⟨(run.modHome fun h => { h with doms := [(15, .downWalk)] }), 15,
     by first | decide +kernel | exact okIs (by decide +kernel) | exact rfl,
     by first | decide +kernel | exact okIs (by decide +kernel) | exact rfl, ⟨_, rfl, trivial⟩⟩⟩

theorem witness_CxlPorts :
    (∃ s p r, s.isCxl p = true ∧ (s.port p).st = .equalise ∧ r ≠ .failed ∧ Runs (.cxlTrain p r) s fun _ => True) ∧
    (∃ s p, s.isCxl p = true ∧ s.portActive p = true ∧ Runs (.cxlDeviceRequest p) s fun _ => True) ∧
    (∃ s p d, s.isCxl p = true ∧ s.portActive p = true ∧
      Runs (.cxlMsiWrite p (s.rg64 (Adr.PORT_CXL_MSI_ADDR_LO p)) d) s fun _ => True) ∧
    (∃ s src p v, s.takes src (Adr.PORT_CXL_CFG_ADDR p) .rw = true ∧ (s.port p).cxlCfg = false ∧
      Runs (.cxlCfgGo src p v) s fun _ => True) ∧
    (∃ s p d, s.Inv ∧ p < 512 ∧ (s.port p).cxlCfg = true ∧ bit (s.rg (Adr.PORT_CXL_CFG_ADDR p)) 15 = false ∧
      Runs (.cxlCfgCompletion p .success d) s fun _ => True) ∧
    (∃ s p, s.Inv ∧ (s.port p).cxlCfg = true ∧ Runs (.cxlCfgTimeout p) s fun _ => True) ∧
    (∃ s src p i v, s.Inv ∧ p < 512 ∧ i < 4 ∧ s.takes src (Adr.PORT_HDM_CTRL p i) .rw = true ∧ bits (v ||| 1) 3 1 ≤ 4 ∧
      bits (v ||| 1) 7 4 ≤ 6 ∧ s.hdmConflict p i ((v ||| 1) &&& 0xFFF) = false ∧
      Runs (.hdmEnable src p i v) s fun _ => True) :=
  ⟨⟨(ap 16 .equalise (lay 16 2 run)), 16, .up64, by first | decide +kernel | exact okIs (by decide +kernel) | exact rfl,
     by first | decide +kernel | exact okIs (by decide +kernel) | exact rfl,
     by first | decide +kernel | exact okIs (by decide +kernel) | exact rfl, ⟨_, rfl, trivial⟩⟩,
   ⟨(ap 16 .active (lay 16 2 run)), 16, by first | decide +kernel | exact okIs (by decide +kernel) | exact rfl,
     by first | decide +kernel | exact okIs (by decide +kernel) | exact rfl, ⟨_, rfl, trivial⟩⟩,
   ⟨(ap 16 .active (lay 16 2 run)), 16, 9, by first | decide +kernel | exact okIs (by decide +kernel) | exact rfl,
     by first | decide +kernel | exact okIs (by decide +kernel) | exact rfl, ⟨_, rfl, trivial⟩⟩,
   ⟨(ap 16 .active (lay 16 2 run)), .host, 16, 0x1000,
     by first | decide +kernel | exact okIs (by decide +kernel) | exact rfl,
     by first | decide +kernel | exact okIs (by decide +kernel) | exact rfl, ⟨_, rfl, trivial⟩⟩,
   ⟨((ap 16 .active (lay 16 2 run)).modPort 16 fun q => { q with cxlCfg := true }), 16, 9, ⟨by decide +kernel,
     by decide +kernel⟩, by first | decide +kernel | exact okIs (by decide +kernel) | exact rfl,
     by first | decide +kernel | exact okIs (by decide +kernel) | exact rfl,
     by first | decide +kernel | exact okIs (by decide +kernel) | exact rfl, ⟨_, rfl, trivial⟩⟩,
   ⟨((ap 16 .active (lay 16 2 run)).modPort 16 fun q => { q with cxlCfg := true }), 16, ⟨by decide +kernel,
     by decide +kernel⟩, by first | decide +kernel | exact okIs (by decide +kernel) | exact rfl, ⟨_, rfl, trivial⟩⟩,
   ⟨(ap 16 .active (lay 16 2 run)), .host, 16, 3, 0, ⟨by decide +kernel, by decide +kernel⟩,
     by first | decide +kernel | exact okIs (by decide +kernel) | exact rfl,
     by first | decide +kernel | exact okIs (by decide +kernel) | exact rfl,
     by first | decide +kernel | exact okIs (by decide +kernel) | exact rfl,
     by first | decide +kernel | exact okIs (by decide +kernel) | exact rfl,
     by first | decide +kernel | exact okIs (by decide +kernel) | exact rfl,
     by first | decide +kernel | exact okIs (by decide +kernel) | exact rfl, ⟨_, rfl, trivial⟩⟩⟩

theorem witness_Extents :
    (∃ s src, s.Inv ∧ s.takes src Adr.EXT_CMD .wo = true ∧ s.stopped 5 0 = false ∧ s.extArg 0 < 2 ^ 18 ∧
      s.extArg 1 < 2 ^ 24 ∧ s.extArg 2 < 2 ^ 24 ∧ s.extArg 3 < 2 ^ 20 ∧ (s.extent (s.extArg 0)).st = .free ∧
      0 < s.extArg 2 ∧ s.extArg 1 + s.extArg 2 ≤ 2 ^ 24 ∧ s.extOverlap (s.extArg 1) (s.extArg 2) = false ∧
      Runs (.extCreate src) s fun _ => True) ∧
    (∃ s src, s.Inv ∧ s.takes src Adr.EXT_CMD .wo = true ∧ s.stopped 5 0 = false ∧ s.extArg 0 < 2 ^ 18 ∧ s.extArg 1 < 2 ∧
      s.extArg 2 < 2 ^ 20 ∧ (s.extent (s.extArg 0)).st = .owned ∧ (s.extent (s.extArg 0)).regions = 0 ∧ ¬ (s.extArg 1 = 1 ∧
      s.extArg 2 = (s.extent (s.extArg 0)).owner) ∧ Runs (.extFence src) s fun _ => True) ∧
    (∃ s src, s.Inv ∧ s.takes src Adr.EXT_CMD .wo = true ∧ s.stopped 5 0 = false ∧ s.extArg 0 < 2 ^ 18 ∧
      (s.extent (s.extArg 0)).st = .fenced ∧ Runs (.extReclaim src) s fun _ => True) :=
  ⟨⟨((((run.setRg (Adr.EXT_ARG 0) 0x3FFFF).setRg (Adr.EXT_ARG 1) 0xFFFFFF).setRg (Adr.EXT_ARG 2) 1).setRg (Adr.EXT_ARG 3) 0xFFFFF),
     .host, ⟨by decide +kernel, by decide +kernel⟩, by first | decide +kernel | exact okIs (by decide +kernel) | exact rfl,
     by first | decide +kernel | exact okIs (by decide +kernel) | exact rfl,
     by first | decide +kernel | exact okIs (by decide +kernel) | exact rfl,
     by first | decide +kernel | exact okIs (by decide +kernel) | exact rfl,
     by first | decide +kernel | exact okIs (by decide +kernel) | exact rfl,
     by first | decide +kernel | exact okIs (by decide +kernel) | exact rfl,
     by first | decide +kernel | exact okIs (by decide +kernel) | exact rfl,
     by first | decide +kernel | exact okIs (by decide +kernel) | exact rfl,
     by first | decide +kernel | exact okIs (by decide +kernel) | exact rfl,
     by first | decide +kernel | exact okIs (by decide +kernel) | exact rfl, ⟨_, rfl, trivial⟩⟩,
   ⟨((((run.setExtent 0x3FFFF { st := .owned, owner := 5 }).setRg (Adr.EXT_ARG 0) 0x3FFFF).setRg (Adr.EXT_ARG 1) 1).setRg (Adr.EXT_ARG 2) 6),
     .host, ⟨by decide +kernel, by decide +kernel⟩, by first | decide +kernel | exact okIs (by decide +kernel) | exact rfl,
     by first | decide +kernel | exact okIs (by decide +kernel) | exact rfl,
     by first | decide +kernel | exact okIs (by decide +kernel) | exact rfl,
     by first | decide +kernel | exact okIs (by decide +kernel) | exact rfl,
     by first | decide +kernel | exact okIs (by decide +kernel) | exact rfl,
     by first | decide +kernel | exact okIs (by decide +kernel) | exact rfl,
     by first | decide +kernel | exact okIs (by decide +kernel) | exact rfl,
     by first | decide +kernel | exact okIs (by decide +kernel) | exact rfl, ⟨_, rfl, trivial⟩⟩,
   ⟨((run.setExtent 0x3FFFF { st := .fenced, handover := true, next := 6 }).setRg (Adr.EXT_ARG 0) 0x3FFFF), .host,
     ⟨by decide +kernel, by decide +kernel⟩, by first | decide +kernel | exact okIs (by decide +kernel) | exact rfl,
     by first | decide +kernel | exact okIs (by decide +kernel) | exact rfl,
     by first | decide +kernel | exact okIs (by decide +kernel) | exact rfl,
     by first | decide +kernel | exact okIs (by decide +kernel) | exact rfl, ⟨_, rfl, trivial⟩⟩⟩

theorem witness_LeasesAndDrains :
    (∃ s src k x, s.Inv ∧ s.takes src Adr.EXT_CMD .wo = true ∧ s.stopped 5 0 = false ∧ s.extArg 0 < 2 ^ 18 ∧
      s.extArg 1 < 2 ^ 20 ∧ x = s.extent (s.extArg 0) ∧ x.st = .owned ∧ s.extArg 1 ≠ x.owner ∧ s.extArg 2 ≤ 1 ∧
      0 < s.extArg 3 ∧ s.extArg 3 ≤ (s.rg Adr.EXT_MAX_LEASE).toNat ∧
      (s.isSealed = false ∨ s.leaseSealed x.owner (s.extArg 1) = true) ∧ ((∀ i,
      s.leaseAt (s.extArg 0) (s.extArg 1) = some i → s.leaseOver (s.ext.leases.get i) = true)) ∧
      s.leaseWay (s.extArg 0) (s.extArg 1) = some k ∧ Runs (.leaseGrant src) s fun _ => True) ∧
    (∃ s src k x, s.Inv ∧ s.takes src Adr.EXT_CMD .wo = true ∧ s.stopped 5 0 = false ∧ s.extArg 0 < 2 ^ 18 ∧
      s.extArg 1 < 2 ^ 20 ∧ x = s.extent (s.extArg 0) ∧ x.st = .owned ∧ 0 < s.extArg 3 ∧
      s.extArg 3 ≤ (s.rg Adr.EXT_MAX_LEASE).toNat ∧ s.leaseAt (s.extArg 0) (s.extArg 1) = some k ∧
      (s.ext.leases.get k).epoch = s.extArg 2 ∧ s.leaseOver (s.ext.leases.get k) = false ∧
      Runs (.leaseRenew src) s fun _ => True) ∧
    (∃ s src k, s.Inv ∧ s.takes src Adr.EXT_CMD .wo = true ∧ s.stopped 5 0 = false ∧ s.extArg 0 < 2 ^ 18 ∧
      s.extArg 1 < 2 ^ 20 ∧ s.leaseAt (s.extArg 0) (s.extArg 1) = some k ∧ (s.ext.leases.get k).epoch = s.extArg 2 ∧
      (s.extent (s.extArg 0)).st = .owned ∧ Runs (.leaseRelease src) s fun _ => True) ∧
    (∃ s k l, l = s.ext.leases.get k ∧ l.valid = true ∧ l.expired = false ∧ l.expiry ≤ s.ns ∧
      Runs (.leaseExpiry k) s fun _ => True) ∧
    (∃ s, s.ext.pend ≠ [] ∧ s.ext.drain = none ∧ Runs .drainStart s fun _ => True) ∧
    (∃ s e, s.ext.drain = some [.fence e] ∧ s.infl 0 (!s.ext.g) = 0 ∧ s.infl 1 (!s.ext.g) = 0 ∧
      Runs .drainEnd s fun _ => True) :=
  ⟨⟨(((((run.setExtent 7 { st := .owned, owner := 5, size := 1 }).setRg (Adr.EXT_ARG 0) 7).setRg (Adr.EXT_ARG 1) 6).setRg (Adr.EXT_ARG 2) 1).setRg (Adr.EXT_ARG 3) 1),
     .host, (4 * run.leaseSet 7 6 + 0), ({ st := .owned, owner := 5, size := 1 } : Extent), ⟨by decide +kernel,
     by decide +kernel⟩, by first | decide +kernel | exact okIs (by decide +kernel) | exact rfl,
     by first | decide +kernel | exact okIs (by decide +kernel) | exact rfl,
     by first | decide +kernel | exact okIs (by decide +kernel) | exact rfl,
     by first | decide +kernel | exact okIs (by decide +kernel) | exact rfl,
     by first | decide +kernel | exact okIs (by decide +kernel) | exact rfl,
     by first | decide +kernel | exact okIs (by decide +kernel) | exact rfl,
     by first | decide +kernel | exact okIs (by decide +kernel) | exact rfl,
     by first | decide +kernel | exact okIs (by decide +kernel) | exact rfl,
     by first | decide +kernel | exact okIs (by decide +kernel) | exact rfl,
     by first | decide +kernel | exact okIs (by decide +kernel) | exact rfl, Or.inl (by decide +kernel),
     (fun i h => nomatch h.symm.trans (show _ = none by decide +kernel)),
     by first | decide +kernel | exact okIs (by decide +kernel) | exact rfl, ⟨_, rfl, trivial⟩⟩,
   ⟨((((((run.setExtent 7 { st := .owned, owner := 5, size := 1 }).modExt fun u => { u with leases := [(4 * run.leaseSet 7 6, { valid := true, ext := 7, holder := 6, epoch := 3, expiry := 100 })] }).setRg (Adr.EXT_ARG 0) 7).setRg (Adr.EXT_ARG 1) 6).setRg (Adr.EXT_ARG 2) 3).setRg (Adr.EXT_ARG 3) 1),
     .host, (4 * run.leaseSet 7 6), ({ st := .owned, owner := 5, size := 1 } : Extent), ⟨by decide +kernel,
     by decide +kernel⟩, by first | decide +kernel | exact okIs (by decide +kernel) | exact rfl,
     by first | decide +kernel | exact okIs (by decide +kernel) | exact rfl,
     by first | decide +kernel | exact okIs (by decide +kernel) | exact rfl,
     by first | decide +kernel | exact okIs (by decide +kernel) | exact rfl,
     by first | decide +kernel | exact okIs (by decide +kernel) | exact rfl,
     by first | decide +kernel | exact okIs (by decide +kernel) | exact rfl,
     by first | decide +kernel | exact okIs (by decide +kernel) | exact rfl,
     by first | decide +kernel | exact okIs (by decide +kernel) | exact rfl,
     by first | decide +kernel | exact okIs (by decide +kernel) | exact rfl,
     by first | decide +kernel | exact okIs (by decide +kernel) | exact rfl,
     by first | decide +kernel | exact okIs (by decide +kernel) | exact rfl, ⟨_, rfl, trivial⟩⟩,
   ⟨(((((run.setExtent 7 { st := .owned, owner := 5, size := 1 }).modExt fun u => { u with leases := [(4 * run.leaseSet 7 6, { valid := true, ext := 7, holder := 6, epoch := 3, expiry := 100 })] }).setRg (Adr.EXT_ARG 0) 7).setRg (Adr.EXT_ARG 1) 6).setRg (Adr.EXT_ARG 2) 3),
     .host, (4 * run.leaseSet 7 6), ⟨by decide +kernel, by decide +kernel⟩,
     by first | decide +kernel | exact okIs (by decide +kernel) | exact rfl,
     by first | decide +kernel | exact okIs (by decide +kernel) | exact rfl,
     by first | decide +kernel | exact okIs (by decide +kernel) | exact rfl,
     by first | decide +kernel | exact okIs (by decide +kernel) | exact rfl,
     by first | decide +kernel | exact okIs (by decide +kernel) | exact rfl,
     by first | decide +kernel | exact okIs (by decide +kernel) | exact rfl,
     by first | decide +kernel | exact okIs (by decide +kernel) | exact rfl, ⟨_, rfl, trivial⟩⟩,
   ⟨(at_ 100 (run.modExt fun u => { u with leases := [(65535, { valid := true, ext := 7, holder := 6, epoch := 3, expiry := 100 })] })),
     65535, ({ valid := true, ext := 7, holder := 6, epoch := 3, expiry := 100 } : Lease),
     by first | decide +kernel | exact okIs (by decide +kernel) | exact rfl,
     by first | decide +kernel | exact okIs (by decide +kernel) | exact rfl,
     by first | decide +kernel | exact okIs (by decide +kernel) | exact rfl,
     by first | decide +kernel | exact okIs (by decide +kernel) | exact rfl, ⟨_, rfl, trivial⟩⟩,
   ⟨(run.modExt fun u => { u with pend := [.fence 7] }),
     by first | decide +kernel | exact okIs (by decide +kernel) | exact rfl,
     by first | decide +kernel | exact okIs (by decide +kernel) | exact rfl, ⟨_, rfl, trivial⟩⟩,
   ⟨((run.setExtent 7 { st := .fencing }).modExt fun u => { u with drain := some [.fence 7] }), 7,
     by first | decide +kernel | exact okIs (by decide +kernel) | exact rfl,
     by first | decide +kernel | exact okIs (by decide +kernel) | exact rfl,
     by first | decide +kernel | exact okIs (by decide +kernel) | exact rfl, ⟨_, rfl, trivial⟩⟩⟩

theorem witness_Snapshots :
    (∃ s src n x, s.Inv ∧ s.takes src Adr.EXT_CMD .wo = true ∧ s.stopped 5 0 = false ∧ s.extArg 0 < 2 ^ 14 ∧
      s.extArg 1 < 2 ^ 18 ∧ s.extArg 2 < 2 ^ 18 ∧ (s.region (s.extArg 0)).st = .free ∧ s.extArg 1 ≠ s.extArg 2 ∧
      (s.extent (s.extArg 1)).st = .owned ∧ (s.extent (s.extArg 2)).st = .owned ∧
      (s.extent (s.extArg 1)).owner = (s.extent (s.extArg 2)).owner ∧ 12 ≤ s.extArg 3 ∧ s.extArg 3 ≤ 16 ∧ 0 < n ∧
      n ≤ (s.extent (s.extArg 2)).blocks (s.extArg 3) ∧ n < 2 ^ 24 ∧ s.extArg64 4 % 4096 = 0 ∧ s.extArg64 6 % 4096 = 0 ∧
      s.extArg64 4 + 1024 + 16 * (s.extent (s.extArg 1)).blocks (s.extArg 3) ≤ barnSize ∧ s.extArg64 6 + 16 * n ≤ barnSize ∧
      x = { st := .init, ext := s.extArg 1, spare := s.extArg 2, shift := s.extArg 3, head := 1, floor := 1, mapBase := s.extArg64 4, recBase := s.extArg64 6, recCount := n, recFree := n : Region } ∧
      Runs (.snapCreate src n) s fun _ => True) ∧
    (∃ s r, (s.region r).st = .init ∧ Runs (.snapInitDone r) s fun _ => True) ∧
    (∃ s src i x, s.Inv ∧ s.takes src Adr.EXT_CMD .wo = true ∧ s.stopped 5 0 = false ∧ s.extArg 0 < 2 ^ 14 ∧
      x = s.region (s.extArg 0) ∧ x.base = true ∧ (leastBelow 64 fun i => slotSt (s.slotNum x i) == 0) = some i ∧
      (x.head + 1 + 2 ^ 32 - x.floor) % 2 ^ 32 < 2 ^ 31 ∧ Runs (.snapOpen src) s fun _ => True) ∧
    (∃ s src i x, s.Inv ∧ s.takes src Adr.EXT_CMD .wo = true ∧ s.stopped 5 0 = false ∧ s.extArg 0 < 2 ^ 14 ∧
      s.extArg 1 < 2 ^ 14 ∧ s.extArg 0 ≠ s.extArg 1 ∧ x = s.region (s.extArg 1) ∧ (s.region (s.extArg 0)).st = .free ∧
      x.base = true ∧ s.slotFind x 2 (s.extArg 2) = some i ∧ Runs (.viewAttach src) s fun _ => True) ∧
    (∃ s src v x i, s.Inv ∧ s.takes src Adr.EXT_CMD .wo = true ∧ s.stopped 5 0 = false ∧ s.extArg 0 < 2 ^ 14 ∧
      v = s.region (s.extArg 0) ∧ v.st = .ready ∧ v.view = true ∧ x = s.region v.baseRegion ∧ x.st = .ready ∧
      s.extArg 0 ≠ v.baseRegion ∧ s.slotFind x 2 v.viewVer = some i ∧ Runs (.viewDetach src) s fun _ => True) ∧
    (∃ s src x i, s.Inv ∧ s.takes src Adr.EXT_CMD .wo = true ∧ s.stopped 5 0 = false ∧ s.extArg 0 < 2 ^ 14 ∧
      x = s.region (s.extArg 0) ∧ x.base = true ∧ s.slotFind x 2 (s.extArg 1) = some i ∧ slotViews (s.slotNum x i) = 0 ∧
      Runs (.snapClose src) s fun _ => True) ∧
    (∃ s src, s.Inv ∧ s.takes src Adr.EXT_CMD .wo = true ∧ s.stopped 5 0 = false ∧ s.extArg 0 < 2 ^ 14 ∧
      (s.region (s.extArg 0)).base = true ∧ (s.region (s.extArg 0)).live = 0 ∧ (s.region (s.extArg 0)).views = 0 ∧
      Runs (.snapDestroy src) s fun _ => True) ∧
    (∃ s r, (s.region r).waiting ≠ [] ∧ (s.region r).sweeping = none ∧
      s.ns / (1000 * s.rf Adr.EXT_SWEEP_INTERVAL 19 0) ≠ (s.region r).since / (1000 * s.rf Adr.EXT_SWEEP_INTERVAL 19 0) ∧
      Runs (.snapSweepStart r) s fun _ => True) ∧
    (∃ s r slots, (s.region r).sweeping = some slots ∧
      ((s.sweep r slots).recsUsed r = ((s.sweep r slots).region r).recCount - ((s.sweep r slots).region r).recFree) ∧
      Runs (.snapSweepEnd r) s fun _ => True) :=
  ⟨⟨((((((((((run.setExtent 7 { st := .owned, owner := 5, size := 1 }).setExtent 8 { st := .owned, owner := 5, size := 1 }).setRg (Adr.EXT_ARG 0) 0x3FFF).setRg (Adr.EXT_ARG 1) 7).setRg (Adr.EXT_ARG 2) 8).setRg (Adr.EXT_ARG 3) 16).setRg (Adr.EXT_ARG 4) 0x10000).setRg (Adr.EXT_ARG 5) 0).setRg (Adr.EXT_ARG 6) 0x100000).setRg (Adr.EXT_ARG 7) 0),
     .host, 1, ({ st := .init, ext := 7, spare := 8, shift := 16, head := 1, floor := 1, mapBase := 0x10000, recBase := 0x100000, recCount := 1, recFree := 1 } : Region),
     ⟨by decide +kernel, by decide +kernel⟩, by first | decide +kernel | exact okIs (by decide +kernel) | exact rfl,
     by first | decide +kernel | exact okIs (by decide +kernel) | exact rfl,
     by first | decide +kernel | exact okIs (by decide +kernel) | exact rfl,
     by first | decide +kernel | exact okIs (by decide +kernel) | exact rfl,
     by first | decide +kernel | exact okIs (by decide +kernel) | exact rfl,
     by first | decide +kernel | exact okIs (by decide +kernel) | exact rfl,
     by first | decide +kernel | exact okIs (by decide +kernel) | exact rfl,
     by first | decide +kernel | exact okIs (by decide +kernel) | exact rfl,
     by first | decide +kernel | exact okIs (by decide +kernel) | exact rfl,
     by first | decide +kernel | exact okIs (by decide +kernel) | exact rfl,
     by first | decide +kernel | exact okIs (by decide +kernel) | exact rfl,
     by first | decide +kernel | exact okIs (by decide +kernel) | exact rfl,
     by first | decide +kernel | exact okIs (by decide +kernel) | exact rfl,
     by first | decide +kernel | exact okIs (by decide +kernel) | exact rfl,
     by first | decide +kernel | exact okIs (by decide +kernel) | exact rfl,
     by first | decide +kernel | exact okIs (by decide +kernel) | exact rfl,
     by first | decide +kernel | exact okIs (by decide +kernel) | exact rfl,
     by first | decide +kernel | exact okIs (by decide +kernel) | exact rfl,
     by first | decide +kernel | exact okIs (by decide +kernel) | exact rfl,
     by first | decide +kernel | exact okIs (by decide +kernel) | exact rfl, ⟨_, rfl, trivial⟩⟩,
   ⟨(run.setRegion 0x3FFF { st := .init }), 0x3FFF, by first | decide +kernel | exact okIs (by decide +kernel) | exact rfl,
     ⟨_, rfl, trivial⟩⟩,
   ⟨((run.setRegion 0x3FFF { st := .ready, head := 5, floor := 1, mapBase := 0x10000 }).setRg (Adr.EXT_ARG 0) 0x3FFF),
     .host, 0, ({ st := .ready, head := 5, floor := 1, mapBase := 0x10000 } : Region), ⟨by decide +kernel,
     by decide +kernel⟩, by first | decide +kernel | exact okIs (by decide +kernel) | exact rfl,
     by first | decide +kernel | exact okIs (by decide +kernel) | exact rfl,
     by first | decide +kernel | exact okIs (by decide +kernel) | exact rfl,
     by first | decide +kernel | exact okIs (by decide +kernel) | exact rfl,
     by first | decide +kernel | exact okIs (by decide +kernel) | exact rfl,
     by first | decide +kernel | exact okIs (by decide +kernel) | exact rfl,
     by first | decide +kernel | exact okIs (by decide +kernel) | exact rfl, ⟨_, rfl, trivial⟩⟩,
   ⟨(((((run.setRegion 0x3FFF { st := .ready, head := 5, floor := 1, mapBase := 0x10000 }).setBarnNum 0x10000 16 (2 * 2 ^ 125 + 3 * 2 ^ 64)).setRg (Adr.EXT_ARG 0) 9).setRg (Adr.EXT_ARG 1) 0x3FFF).setRg (Adr.EXT_ARG 2) 3),
     .host, 0, ({ st := .ready, head := 5, floor := 1, mapBase := 0x10000 } : Region), ⟨by decide +kernel,
     by decide +kernel⟩, by first | decide +kernel | exact okIs (by decide +kernel) | exact rfl,
     by first | decide +kernel | exact okIs (by decide +kernel) | exact rfl,
     by first | decide +kernel | exact okIs (by decide +kernel) | exact rfl,
     by first | decide +kernel | exact okIs (by decide +kernel) | exact rfl,
     by first | decide +kernel | exact okIs (by decide +kernel) | exact rfl,
     by first | decide +kernel | exact okIs (by decide +kernel) | exact rfl,
     by first | decide +kernel | exact okIs (by decide +kernel) | exact rfl,
     by first | decide +kernel | exact okIs (by decide +kernel) | exact rfl,
     by first | decide +kernel | exact okIs (by decide +kernel) | exact rfl, ⟨_, rfl, trivial⟩⟩,
   ⟨((((run.setRegion 0x3FFF { st := .ready, head := 5, floor := 1, mapBase := 0x10000, views := 1 }).setRegion 9 { st := .ready, view := true, baseRegion := 0x3FFF, viewVer := 3 }).setBarnNum 0x10000 16 (2 * 2 ^ 125 + 2 ^ 111 + 3 * 2 ^ 64)).setRg (Adr.EXT_ARG 0) 9),
     .host, ({ st := .ready, view := true, baseRegion := 0x3FFF, viewVer := 3 } : Region), ({ st := .ready, head := 5, floor := 1, mapBase := 0x10000, views := 1 } : Region),
     0, ⟨by decide +kernel, by decide +kernel⟩, by first | decide +kernel | exact okIs (by decide +kernel) | exact rfl,
     by first | decide +kernel | exact okIs (by decide +kernel) | exact rfl,
     by first | decide +kernel | exact okIs (by decide +kernel) | exact rfl,
     by first | decide +kernel | exact okIs (by decide +kernel) | exact rfl,
     by first | decide +kernel | exact okIs (by decide +kernel) | exact rfl,
     by first | decide +kernel | exact okIs (by decide +kernel) | exact rfl,
     by first | decide +kernel | exact okIs (by decide +kernel) | exact rfl,
     by first | decide +kernel | exact okIs (by decide +kernel) | exact rfl,
     by first | decide +kernel | exact okIs (by decide +kernel) | exact rfl,
     by first | decide +kernel | exact okIs (by decide +kernel) | exact rfl, ⟨_, rfl, trivial⟩⟩,
   ⟨((((run.setRegion 0x3FFF { st := .ready, head := 5, floor := 1, mapBase := 0x10000 }).setBarnNum 0x10000 16 (2 * 2 ^ 125 + 3 * 2 ^ 64)).setRg (Adr.EXT_ARG 0) 0x3FFF).setRg (Adr.EXT_ARG 1) 3),
     .host, ({ st := .ready, head := 5, floor := 1, mapBase := 0x10000 } : Region), 0, ⟨by decide +kernel,
     by decide +kernel⟩, by first | decide +kernel | exact okIs (by decide +kernel) | exact rfl,
     by first | decide +kernel | exact okIs (by decide +kernel) | exact rfl,
     by first | decide +kernel | exact okIs (by decide +kernel) | exact rfl,
     by first | decide +kernel | exact okIs (by decide +kernel) | exact rfl,
     by first | decide +kernel | exact okIs (by decide +kernel) | exact rfl,
     by first | decide +kernel | exact okIs (by decide +kernel) | exact rfl,
     by first | decide +kernel | exact okIs (by decide +kernel) | exact rfl, ⟨_, rfl, trivial⟩⟩,
   ⟨((run.setRegion 0x3FFF { st := .ready, head := 5, floor := 1, mapBase := 0x10000 }).setRg (Adr.EXT_ARG 0) 0x3FFF),
     .host, ⟨by decide +kernel, by decide +kernel⟩, by first | decide +kernel | exact okIs (by decide +kernel) | exact rfl,
     by first | decide +kernel | exact okIs (by decide +kernel) | exact rfl,
     by first | decide +kernel | exact okIs (by decide +kernel) | exact rfl,
     by first | decide +kernel | exact okIs (by decide +kernel) | exact rfl,
     by first | decide +kernel | exact okIs (by decide +kernel) | exact rfl,
     by first | decide +kernel | exact okIs (by decide +kernel) | exact rfl, ⟨_, rfl, trivial⟩⟩,
   ⟨((at_ 50000 (run.setRegion 0x3FFF { st := .ready, head := 5, floor := 1, mapBase := 0x10000, waiting := [3] })).setRg Adr.EXT_SWEEP_INTERVAL 10),
     0x3FFF, by first | decide +kernel | exact okIs (by decide +kernel) | exact rfl,
     by first | decide +kernel | exact okIs (by decide +kernel) | exact rfl,
     by first | decide +kernel | exact okIs (by decide +kernel) | exact rfl, ⟨_, rfl, trivial⟩⟩,
   ⟨(run.setRegion 0x3FFF { st := .ready, head := 5, floor := 1, mapBase := 0x10000, sweeping := some [3] }), 0x3FFF, [3],
     by first | decide +kernel | exact okIs (by decide +kernel) | exact rfl,
     by first | decide +kernel | exact okIs (by decide +kernel) | exact rfl, ⟨_, rfl, trivial⟩⟩⟩

theorem witness_Tiers :
    (∃ s src, s.Inv ∧ s.takes src Adr.TIER_CTRL .rw = true ∧ s.tierOn = false ∧ 6 ≤ s.tierK ∧ s.tierK ≤ 18 ∧
      s.rg64 Adr.TIER_CACHE_BASE_LO % 65536 = 0 ∧ s.rg64 Adr.TIER_FTAB_BASE_LO % 4096 = 0 ∧
      regionsBad (s.tierRegions ++ (if s.gran.st == .off then [] else s.granRegions)) = false ∧
      Runs (.tierEnable src) s fun _ => True) ∧
    (∃ s src, s.Inv ∧ s.takes src Adr.TIER_CTRL .rw = true ∧ s.tierOn = true ∧
      (s.tier.frames.any fun e => e.2.valid) = false ∧ s.tier.cmd = none ∧ Runs (.tierDisable src) s fun _ => True) ∧
    (∃ s src i, ∃ x, x ∈ [(Instr.tierStage src, 1), (.tierStagePin src, 2), (.tierUnpin src, 3), (.tierFlush src, 4),
      (.tierEvict src, 5), (.tierDiscard src, 6), (.tierTrim src, 7)] ∧ s.takes src Adr.TIER_CMD .wo = true ∧
      s.tier.cmd = none ∧ 0 < s.rf Adr.TIER_ARG_UNITS 23 0 ∧ s.rg64 Adr.TIER_ARG_PPA_LO % 65536 = 0 ∧
      s.tierEntry (s.rg64 Adr.TIER_ARG_PPA_LO) (s.rf Adr.TIER_ARG_UNITS 23 0) = some i ∧ poolKind (s.poolEntry i) = 2 ∧
      Runs x.1 s fun _ => True) ∧
    (∃ s src c, ∃ x, x ∈ [Instr.tierStage src, .tierStagePin src, .tierUnpin src, .tierFlush src, .tierEvict src,
      .tierDiscard src, .tierTrim src] ∧ s.takes src Adr.TIER_CMD .wo = true ∧ s.tier.cmd = some c ∧ Runs x s fun _ => True) ∧
    (∃ s c, s.Inv ∧ s.tier.cmd = some c ∧ c.units ≤ c.next ∧ ((∀ e ∈ s.tier.frames, e.2.has .filling = false ∧
      e.2.has .writing = false)) ∧ Runs .tierCmdDone s fun _ => True) ∧
    (∃ s f sec id r data pm, (s.frame f).sect.get sec = .filling ∧ (s.frame f).gran = false ∧
      s.tierJob (.fill f sec 1) = some (id, r) ∧ r.merged = (0, data, pm) ∧ Runs (.fillDone f sec) s fun _ => True) ∧
    (∃ s f sec id r x, (s.frame f).sect.get sec = .writing ∧ (s.frame f).gran = false ∧ s.tierJob (.wb f sec 1) = some (id,
      r) ∧ r.merged = (0, x) ∧ Runs (.writebackDone f sec) s fun _ => True) :=
  ⟨⟨((run.setRg Adr.TIER_CFG 6).setRg Adr.TIER_CACHE_BASE_LO 0x10000000), .host, ⟨by decide +kernel, by decide +kernel⟩,
     by first | decide +kernel | exact okIs (by decide +kernel) | exact rfl,
     by first | decide +kernel | exact okIs (by decide +kernel) | exact rfl,
     by first | decide +kernel | exact okIs (by decide +kernel) | exact rfl,
     by first | decide +kernel | exact okIs (by decide +kernel) | exact rfl,
     by first | decide +kernel | exact okIs (by decide +kernel) | exact rfl,
     by first | decide +kernel | exact okIs (by decide +kernel) | exact rfl,
     by first | decide +kernel | exact okIs (by decide +kernel) | exact rfl, ⟨_, rfl, trivial⟩⟩,
   ⟨(((run.setRg Adr.TIER_CFG 6).setRg Adr.TIER_CACHE_BASE_LO 0x10000000).setRg Adr.TIER_CTRL 1), .host, ⟨by decide +kernel,
     by decide +kernel⟩, by first | decide +kernel | exact okIs (by decide +kernel) | exact rfl,
     by first | decide +kernel | exact okIs (by decide +kernel) | exact rfl,
     by first | decide +kernel | exact okIs (by decide +kernel) | exact rfl,
     by first | decide +kernel | exact okIs (by decide +kernel) | exact rfl, ⟨_, rfl, trivial⟩⟩,
   ⟨(((((job.setRg Adr.TIER_CFG 6).setRg Adr.TIER_CACHE_BASE_LO 0x10000000).setRg Adr.TIER_CTRL 1).setRg Adr.TIER_ARG_UNITS 1).setRg Adr.TIER_ARG_PPA_LO 0x20000),
     .host, 0, (Instr.tierEvict .host, 5), by first | decide +kernel | exact okIs (by decide +kernel) | exact rfl,
     by first | decide +kernel | exact okIs (by decide +kernel) | exact rfl,
     by first | decide +kernel | exact okIs (by decide +kernel) | exact rfl,
     by first | decide +kernel | exact okIs (by decide +kernel) | exact rfl,
     by first | decide +kernel | exact okIs (by decide +kernel) | exact rfl,
     by first | decide +kernel | exact okIs (by decide +kernel) | exact rfl,
     by first | decide +kernel | exact okIs (by decide +kernel) | exact rfl, ⟨_, rfl, trivial⟩⟩,
   ⟨((((run.setRg Adr.TIER_CFG 6).setRg Adr.TIER_CACHE_BASE_LO 0x10000000).setRg Adr.TIER_CTRL 1).modTier fun u => { u with cmd := some { op := 1, units := 5, next := 3 } }),
     .host, ({ op := 1, units := 5, next := 3 } : TierCmd), (Instr.tierTrim .host),
     by first | decide +kernel | exact okIs (by decide +kernel) | exact rfl,
     by first | decide +kernel | exact okIs (by decide +kernel) | exact rfl,
     by first | decide +kernel | exact okIs (by decide +kernel) | exact rfl, ⟨_, rfl, trivial⟩⟩,
   ⟨((((run.setRg Adr.TIER_CFG 6).setRg Adr.TIER_CACHE_BASE_LO 0x10000000).setRg Adr.TIER_CTRL 1).modTier fun u => { u with cmd := some { op := 1, units := 5, next := 5, result := 3 } }),
     ({ op := 1, units := 5, next := 5, result := 3 } : TierCmd), ⟨by decide +kernel, by decide +kernel⟩,
     by first | decide +kernel | exact okIs (by decide +kernel) | exact rfl,
     by first | decide +kernel | exact okIs (by decide +kernel) | exact rfl,
     by first | decide +kernel | exact okIs (by decide +kernel) | exact rfl, ⟨_, rfl, trivial⟩⟩,
   ⟨(((((run.setRg Adr.TIER_CFG 6).setRg Adr.TIER_CACHE_BASE_LO 0x10000000).setRg Adr.TIER_CTRL 1).modTier fun u => { u with frames := [(3, { valid := true, sect := [(2, .filling)] })] }).setReq 9 (some { kind := .fill 3 2 1, formed := true, parts := [{ st := .done, data := List.replicate 4096 7 }] })),
     3, 2, 9, ({ kind := .fill 3 2 1, formed := true, parts := [{ st := .done, data := List.replicate 4096 7 }] } : Req),
     (List.replicate 4096 7), 0, by first | decide +kernel | exact okIs (by decide +kernel) | exact rfl,
     by first | decide +kernel | exact okIs (by decide +kernel) | exact rfl,
     by first | decide +kernel | exact okIs (by decide +kernel) | exact rfl, by decide +kernel, ⟨_, rfl, trivial⟩⟩,
   ⟨(((((run.setRg Adr.TIER_CFG 6).setRg Adr.TIER_CACHE_BASE_LO 0x10000000).setRg Adr.TIER_CTRL 1).modTier fun u => { u with frames := [(3, { valid := true, sect := [(2, .writing)] })] }).setReq 9 (some { kind := .wb 3 2 1, formed := true, parts := [{ st := .done, data := List.replicate 4096 7 }] })),
     3, 2, 9, ({ kind := .wb 3 2 1, formed := true, parts := [{ st := .done, data := List.replicate 4096 7 }] } : Req), _,
     by first | decide +kernel | exact okIs (by decide +kernel) | exact rfl,
     by first | decide +kernel | exact okIs (by decide +kernel) | exact rfl,
     by first | decide +kernel | exact okIs (by decide +kernel) | exact rfl, pairOf (by decide +kernel), ⟨_, rfl, trivial⟩⟩⟩

theorem witness_Granary :
    (∃ s src, s.Inv ∧ s.takes src Adr.GRAN_CTRL .rw = true ∧ s.gran.st = .off ∧ s.granFieldsBad = false ∧
      s.granRegionsBad = false ∧ Runs (.granEnable src) s fun _ => True) ∧
    (∃ s src, s.Inv ∧ s.takes src Adr.GRAN_CTRL .rw = true ∧ s.gran.st = .failed ∧ Runs (.granDisable src) s fun _ => True) ∧
    (∃ s src, s.Inv ∧ s.takes src Adr.GRAN_CTRL .rw = true ∧ s.gran.st = .ready ∧
      (s.tier.frames.any fun e => e.2.valid && e.2.gran) = false ∧ s.gran.journal = [] ∧
      Runs (.granDisable src) s fun _ => True) ∧
    (∃ s src bad spare, s.Inv ∧ s.takes src Adr.GRAN_CTRL .rw = true ∧ s.gran.st = .off ∧ s.granFieldsBad = false ∧
      s.granRegionsBad = false ∧ 1664 ≤ spare ∧ ((∀ c,
      c < s.granChans → s.spareNeed ≤ ((s.chanBlocks c).filter fun b => !bad.contains b).length)) ∧
      Runs (.granFormat src bad spare) s fun _ => True) ∧
    (∃ s map late blks, s.gran.st = .formatting ∧ Runs (.granWorkDone map late blks false) s fun _ => True) ∧
    (∃ s map late blks, s.gran.st = .restoring ∧ Runs (.granWorkDone map late blks false) s fun _ => True) ∧
    (∃ s pun sec data pm r, (s.gran.reads.find? fun r => r.pun == pun && r.sec == sec) = some r ∧
      Runs (.nandReadDone pun sec true 0 data pm) s fun _ => True) ∧
    (∃ s pun sec n data pm r, (s.gran.reads.find? fun r => r.pun == pun && r.sec == sec) = some r ∧ r.level < 16 ∧
      r.level < s.rf Adr.GRAN_LDPC_CFG 3 0 ∧ r.level ≠ 15 ∧ Runs (.nandReadDone pun sec false n data pm) s fun _ => True) ∧
    (∃ s pun p, (s.gran.progs.find? fun p => p.pun == some pun) = some p ∧ s.gran.journal.length < 131072 ∧
      Runs (.nandProgramDone pun true) s fun _ => True) ∧
    (∃ s bn, s.gran.erases.contains (bn, true) = true ∧ Runs (.nandEraseDone bn true) s fun _ => True) ∧
    (∃ s c b w, w = s.modGran (fun g => { g with gc := g.gc.set c true }) ∧ s.gran.st = .ready ∧ c < s.granChans ∧
      (s.gran.emptying.any fun b => b % 16 == c) = false ∧ (s.chanFree c).length ≤ s.rf Adr.GRAN_GC_CFG 15 0 ∧
      argmin (fun b => blkValid (w.blk b) * 2 ^ 31 + b) (w.fullBlocks c) = some b ∧ Runs (.gcRound c) s fun _ => True) ∧
    (∃ s c b, s.gran.st = .ready ∧ c < s.granChans ∧ argmin (fun b => blkErases (s.blk b)) (s.fullBlocks c) = some b ∧
      blkErases (s.blk b) + s.rf Adr.GRAN_WL_DELTA 15 0 < ((s.fullBlocks c).map fun b => blkErases (s.blk b)).foldl max 0 ∧
      Runs (.wlRelocate c) s fun _ => True) ∧
    (∃ s, 2048 ≤ s.gran.journal.length ∧ Runs .journalProgram s fun _ => True) ∧
    (∃ s, s.rf Adr.GRAN_CKPT_INTERVAL 19 0 ≤ s.gran.jpages ∧ s.gran.st = .ready ∧ Runs .checkpointWrite s fun _ => True) ∧
    (∃ s, s.gran.st = .ready ∧ (s.allBlocks.map fun b => blkValid (s.blk b)).sum = s.rf Adr.GRAN_MAPPED_UNITS 30 0 ∧
      ((∀ b ∈ s.allBlocks, blkSt (s.blk b) ≤ 4)) ∧ Runs .granWalkEnd s fun _ => True) ∧
    (∃ s, s.gran.st = .ready ∧ (s.allBlocks.map fun b => blkValid (s.blk b)).sum ≠ s.rf Adr.GRAN_MAPPED_UNITS 30 0 ∧
      Runs .granWalkEnd s fun _ => True) :=
  ⟨⟨gran, .host, ⟨by decide +kernel, by decide +kernel⟩,
     by first | decide +kernel | exact okIs (by decide +kernel) | exact rfl,
     by first | decide +kernel | exact okIs (by decide +kernel) | exact rfl,
     by first | decide +kernel | exact okIs (by decide +kernel) | exact rfl,
     by first | decide +kernel | exact okIs (by decide +kernel) | exact rfl, ⟨_, rfl, trivial⟩⟩,
   ⟨(gst .failed gran), .host, ⟨by decide +kernel, by decide +kernel⟩,
     by first | decide +kernel | exact okIs (by decide +kernel) | exact rfl,
     by first | decide +kernel | exact okIs (by decide +kernel) | exact rfl, ⟨_, rfl, trivial⟩⟩,
   ⟨(gst .ready gran), .host, ⟨by decide +kernel, by decide +kernel⟩,
     by first | decide +kernel | exact okIs (by decide +kernel) | exact rfl,
     by first | decide +kernel | exact okIs (by decide +kernel) | exact rfl,
     by first | decide +kernel | exact okIs (by decide +kernel) | exact rfl,
     by first | decide +kernel | exact okIs (by decide +kernel) | exact rfl, ⟨_, rfl, trivial⟩⟩,
   ⟨gran, .host, [7 * 256], 1664, ⟨by decide +kernel, by decide +kernel⟩,
     by first | decide +kernel | exact okIs (by decide +kernel) | exact rfl,
     by first | decide +kernel | exact okIs (by decide +kernel) | exact rfl,
     by first | decide +kernel | exact okIs (by decide +kernel) | exact rfl,
     by first | decide +kernel | exact okIs (by decide +kernel) | exact rfl,
     by first | decide +kernel | exact okIs (by decide +kernel) | exact rfl,
     by first | decide +kernel | exact okIs (by decide +kernel) | exact rfl, ⟨_, rfl, trivial⟩⟩,
   ⟨(gst .formatting gran), [], [], [], by first | decide +kernel | exact okIs (by decide +kernel) | exact rfl, ⟨_, rfl,
     trivial⟩⟩,
   ⟨(gst .restoring gran), [(0, 5)], [], [(0, 1)], by first | decide +kernel | exact okIs (by decide +kernel) | exact rfl,
     ⟨_, rfl, trivial⟩⟩,
   ⟨((gst .ready gran).modGran fun g => { g with reads := [{ lu := 0, pun := 5, sec := 3 }] }), 5, 3, [1], 0, ({ lu := 0, pun := 5, sec := 3 } : NandRead),
     by first | decide +kernel | exact okIs (by decide +kernel) | exact rfl, ⟨_, rfl, trivial⟩⟩,
   ⟨(((gst .ready gran).modGran fun g => { g with reads := [{ lu := 0, pun := 5, sec := 3 }] }).setRg Adr.GRAN_LDPC_CFG 1),
     5, 3, 1, [1], 0, ({ lu := 0, pun := 5, sec := 3 } : NandRead),
     by first | decide +kernel | exact okIs (by decide +kernel) | exact rfl,
     by first | decide +kernel | exact okIs (by decide +kernel) | exact rfl,
     by first | decide +kernel | exact okIs (by decide +kernel) | exact rfl,
     by first | decide +kernel | exact okIs (by decide +kernel) | exact rfl, ⟨_, rfl, trivial⟩⟩,
   ⟨((gst .ready gran).modGran fun g => { g with progs := [{ lu := 0, pun := some 0 }] }), 0, ({ lu := 0, pun := some 0 } : Prog),
     by first | decide +kernel | exact okIs (by decide +kernel) | exact rfl,
     by first | decide +kernel | exact okIs (by decide +kernel) | exact rfl, ⟨_, rfl, trivial⟩⟩,
   ⟨((gst .ready gran).modGran fun g => { g with erases := [(256, true)] }), 256,
     by first | decide +kernel | exact okIs (by decide +kernel) | exact rfl, ⟨_, rfl, trivial⟩⟩,
   ⟨(gst .ready ((gran.setBlk 256 (blkWord 2 0 0 3)).setBlk 512 (blkWord 2 5 0 4))), 0, 256,
     ((gst .ready ((gran.setBlk 256 (blkWord 2 0 0 3)).setBlk 512 (blkWord 2 5 0 4))).modGran fun g => { g with gc := g.gc.set 0 true }),
     by first | decide +kernel | exact okIs (by decide +kernel) | exact rfl,
     by first | decide +kernel | exact okIs (by decide +kernel) | exact rfl,
     by first | decide +kernel | exact okIs (by decide +kernel) | exact rfl,
     by first | decide +kernel | exact okIs (by decide +kernel) | exact rfl,
     by first | decide +kernel | exact okIs (by decide +kernel) | exact rfl,
     by first | decide +kernel | exact okIs (by decide +kernel) | exact rfl, ⟨_, rfl, trivial⟩⟩,
   ⟨(gst .ready ((gran.setBlk 256 (blkWord 2 0 0 3)).setBlk 512 (blkWord 2 5 0 4))), 0, 256,
     by first | decide +kernel | exact okIs (by decide +kernel) | exact rfl,
     by first | decide +kernel | exact okIs (by decide +kernel) | exact rfl,
     by first | decide +kernel | exact okIs (by decide +kernel) | exact rfl,
     by first | decide +kernel | exact okIs (by decide +kernel) | exact rfl, ⟨_, rfl, trivial⟩⟩,
   ⟨((gst .ready gran).modGran fun g => { g with journal := List.replicate 2048 (1, 2) }),
     by first | decide +kernel | exact okIs (by decide +kernel) | exact rfl, ⟨_, rfl, trivial⟩⟩,
   ⟨((gst .ready gran).modGran fun g => { g with jpages := 1 }),
     by first | decide +kernel | exact okIs (by decide +kernel) | exact rfl,
     by first | decide +kernel | exact okIs (by decide +kernel) | exact rfl, ⟨_, rfl, trivial⟩⟩,
   ⟨((gst .ready gran).setRg Adr.GRAN_MAPPED_UNITS 0),
     by first | decide +kernel | exact okIs (by decide +kernel) | exact rfl,
     by first | decide +kernel | exact okIs (by decide +kernel) | exact rfl,
     by first | decide +kernel | exact okIs (by decide +kernel) | exact rfl, ⟨_, rfl, trivial⟩⟩,
   ⟨(gst .ready ((gran.setBlk 256 (blkWord 2 0 0 3)).setBlk 512 (blkWord 2 5 0 4))),
     by first | decide +kernel | exact okIs (by decide +kernel) | exact rfl,
     by first | decide +kernel | exact okIs (by decide +kernel) | exact rfl, ⟨_, rfl, trivial⟩⟩⟩

theorem witness_Caravans :
    (∃ s src d l, s.takes src (Adr.CARV_CMD d) .wo = true ∧ l < 8192 ∧ legDie l = d ∧ (s.leg l).st = .closed ∧
      legEntryBad (s.entry (legAt l) 16) = false ∧ s.carvAgree = true ∧
      ((s.lf l 508 508 = 1 → s.legFrame l ≤ s.rf (Adr.CARV_MAX_FRAME d) 13 0)) ∧ Runs (.legOpen src d l) s fun _ => True) ∧
    (∃ s src d l, s.takes src (Adr.CARV_CMD d) .wo = true ∧ l < 8192 ∧ legDie l = d ∧ (s.leg l).st = .open_ ∧
      Runs (.legClose src d l) s fun _ => True) ∧
    (∃ s l, (s.leg l).st = .opening ∧ (s.leg l).since + s.legRto l ≤ s.ns ∧ (s.leg l).timeouts < s.lf l 399 396 ∧
      Runs (.legOpenResend l) s fun _ => True) ∧
    (∃ s l, (s.leg l).st = .open_ ∧ (s.leg l).ring ≠ [] ∧ (s.leg l).since + s.legRto l ≤ s.ns ∧
      (s.leg l).timeouts < s.lf l 399 396 ∧ Runs (.legRto l) s fun _ => True) ∧
    (∃ s l, (s.leg l).st = .open_ ∧ (s.leg l).unacked ≠ 0 ∧
      (s.leg l).ackAt + s.rf (Adr.CARV_ACK_CFG (legDie l)) 31 16 ≤ s.ns ∧ Runs (.ackDelayExpire l) s fun _ => True) ∧
    (∃ s p k c u l, carvBad k = false ∧ k.carvKind = 6 ∧ s.takeLocal p k = (c, u) ∧
      (u.gcount 0x10 1 (legDie (k.cf 265 253)) none none (some (k.cf 221 202))).openLeg k = some l ∧
      ((u.gcount 0x10 1 (legDie (k.cf 265 253)) none none (some (k.cf 221 202))).leg l).st = .closed ∧
      Runs (.carvOpenRx p k) s fun _ => True) ∧
    (∃ s p k c u g, carvBad k = false ∧ k.carvKind = 7 ∧ s.takeLocal p k = (c, u) ∧
      g = u.gcount 0x10 1 (legDie (k.cf 265 253)) none none (some (k.cf 221 202)) ∧ (g.leg (k.cf 265 253)).st = .opening ∧
      k.cf 383 320 = (g.leg (k.cf 265 253)).inc % 2 ^ 64 ∧ Runs (.carvOpenAckRx p k) s fun _ => True) ∧
    (∃ s p k c u g, carvBad k = false ∧ k.carvKind = 8 ∧ s.takeLocal p k = (c, u) ∧
      g = u.gcount 0x10 1 (legDie (k.cf 265 253)) none none (some (k.cf 221 202)) ∧ (g.leg (k.cf 265 253)).st = .open_ ∧
      k.cf 383 320 = (g.leg (k.cf 265 253)).inc % 2 ^ 64 ∧ Runs (.carvCloseRx p k) s fun _ => True) ∧
    (∃ s p k c u l v g x, ∃ r, r ∈ [(Instr.carvDataRx p k, 0, State.carvDataRx l k), (.carvReadReqRx p k, 1,
      State.readReqRx l k), (.carvReadDataRx p k, 2, State.readDataRx l k), (.carvResultRx p k, 3, State.resultRx l k)] ∧
      l = k.cf 265 253 ∧ carvBad k = false ∧ s.takeLocal p k = (c, u) ∧
      v = u.gcount 0x10 1 (legDie l) none none (some (k.cf 221 202)) ∧ (v.leg l).st = .open_ ∧
      k.cf 383 320 = (v.leg l).inc % 2 ^ 64 ∧ g = v.ackOf l k ∧ x = g.leg l ∧ k.cf 319 296 = x.rxNext ∧ k.carvKind = r.2.1 ∧
      Runs r.1 s fun _ => True) ∧
    (∃ s p k c u l g, l = k.cf 265 253 ∧ carvBad k = false ∧ s.takeLocal p k = (c, u) ∧ k.carvKind = 4 ∧
      g = u.gcount 0x10 1 (legDie l) none none (some (k.cf 221 202)) ∧ (g.leg l).st = .open_ ∧
      k.cf 383 320 = (g.leg l).inc % 2 ^ 64 ∧ k.cf 267 267 = 1 ∧ Runs (.carvAckRx p k) s fun _ => True) ∧
    (∃ s p k c u l g, l = k.cf 265 253 ∧ carvBad k = false ∧ s.takeLocal p k = (c, u) ∧ k.carvKind = 5 ∧
      g = u.gcount 0x10 1 (legDie l) none none (some (k.cf 221 202)) ∧ (g.leg l).st = .open_ ∧
      k.cf 383 320 = (g.leg l).inc % 2 ^ 64 ∧ Runs (.carvNakRx p k) s fun _ => True) ∧
    (∃ s p k c u, ∃ r, r ∈ [Instr.carvDataRx p k, .carvReadReqRx p k, .carvReadDataRx p k, .carvResultRx p k,
      .carvAckRx p k, .carvNakRx p k, .carvOpenRx p k, .carvOpenAckRx p k, .carvCloseRx p k, .postWqeRx p k,
      .postSoRx p k] ∧ carvBad k = true ∧ s.takeLocal p k = (c, u) ∧ Runs r s fun _ => True) ∧
    (∃ s p k c u o, s.unitTag k = some o ∧ o.isCarv = true ∧ s.takeLocal p k = (c, u) ∧
      Runs (.carvMemRsp p k) s fun _ => True) :=
  ⟨⟨(leg0 .closed ((run.setRg (Adr.CARV_LOCAL_EID 0) 8).setRg (Adr.CARV_LOCAL_EID 1) 8)), .host, 0, 0,
     by first | decide +kernel | exact okIs (by decide +kernel) | exact rfl,
     by first | decide +kernel | exact okIs (by decide +kernel) | exact rfl,
     by first | decide +kernel | exact okIs (by decide +kernel) | exact rfl,
     by first | decide +kernel | exact okIs (by decide +kernel) | exact rfl,
     by first | decide +kernel | exact okIs (by decide +kernel) | exact rfl,
     by first | decide +kernel | exact okIs (by decide +kernel) | exact rfl,
     by first | decide +kernel | exact okIs (by decide +kernel) | exact rfl, ⟨_, rfl, trivial⟩⟩,
   ⟨(leg0 .open_ run), .host, 0, 0, by first | decide +kernel | exact okIs (by decide +kernel) | exact rfl,
     by first | decide +kernel | exact okIs (by decide +kernel) | exact rfl,
     by first | decide +kernel | exact okIs (by decide +kernel) | exact rfl,
     by first | decide +kernel | exact okIs (by decide +kernel) | exact rfl, ⟨_, rfl, trivial⟩⟩,
   ⟨(at_ 1000 (leg0 .opening run)), 0, by first | decide +kernel | exact okIs (by decide +kernel) | exact rfl,
     by first | decide +kernel | exact okIs (by decide +kernel) | exact rfl,
     by first | decide +kernel | exact okIs (by decide +kernel) | exact rfl, ⟨_, rfl, trivial⟩⟩,
   ⟨(at_ 1000 ((leg0 .open_ run).modLeg 0 fun l => { l with ring := [{ ext := 0 }] })), 0,
     by first | decide +kernel | exact okIs (by decide +kernel) | exact rfl,
     by first | decide +kernel | exact okIs (by decide +kernel) | exact rfl,
     by first | decide +kernel | exact okIs (by decide +kernel) | exact rfl,
     by first | decide +kernel | exact okIs (by decide +kernel) | exact rfl, ⟨_, rfl, trivial⟩⟩,
   ⟨(at_ 100000 ((leg0 .open_ run).modLeg 0 fun l => { l with unacked := 1 })), 0,
     by first | decide +kernel | exact okIs (by decide +kernel) | exact rfl,
     by first | decide +kernel | exact okIs (by decide +kernel) | exact rfl,
     by first | decide +kernel | exact okIs (by decide +kernel) | exact rfl, ⟨_, rfl, trivial⟩⟩,
   ⟨(got 0 (carvPkt 6 (7 * 2 ^ 240 + 77 * 2 ^ 320) []) (run.modHub fun h => { h with tabs := legTab })), 0,
     (carvPkt 6 (7 * 2 ^ 240 + 77 * 2 ^ 320) []), some 1, _, 0,
     by first | decide +kernel | exact okIs (by decide +kernel) | exact rfl,
     by first | decide +kernel | exact okIs (by decide +kernel) | exact rfl, pairOf (by decide +kernel),
     openLeg_zero _ _ (by decide +kernel) (by decide +kernel) (by decide +kernel),
     by first | decide +kernel | exact okIs (by decide +kernel) | exact rfl, ⟨_, rfl, trivial⟩⟩,
   ⟨(got 0 (carvPkt 7 (7 * 2 ^ 240 + 77 * 2 ^ 320) []) ((leg0 .opening run).modLeg 0 fun l => { l with inc := 77 })), 0,
     (carvPkt 7 (7 * 2 ^ 240 + 77 * 2 ^ 320) []), some 1, _, _,
     by first | decide +kernel | exact okIs (by decide +kernel) | exact rfl,
     by first | decide +kernel | exact okIs (by decide +kernel) | exact rfl, pairOf (by decide +kernel), rfl,
     by first | decide +kernel | exact okIs (by decide +kernel) | exact rfl,
     by first | decide +kernel | exact okIs (by decide +kernel) | exact rfl, ⟨_, rfl, trivial⟩⟩,
   ⟨(got 0 (carvPkt 8 (77 * 2 ^ 320) []) ((leg0 .open_ run).modLeg 0 fun l => { l with inc := 77 })), 0,
     (carvPkt 8 (77 * 2 ^ 320) []), some 1, _, _, by first | decide +kernel | exact okIs (by decide +kernel) | exact rfl,
     by first | decide +kernel | exact okIs (by decide +kernel) | exact rfl, pairOf (by decide +kernel), rfl,
     by first | decide +kernel | exact okIs (by decide +kernel) | exact rfl,
     by first | decide +kernel | exact okIs (by decide +kernel) | exact rfl, ⟨_, rfl, trivial⟩⟩,
   ⟨(got 0 (carvPkt 1 (2 ^ 66) []) (leg0 .open_ job)), 0, (carvPkt 1 (2 ^ 66) []), some 1, _, 0, _, _, _,
     (.carvReadReqRx 0 (carvPkt 1 (2 ^ 66) []), 1, State.readReqRx 0 (carvPkt 1 (2 ^ 66) [])),
     List.mem_cons_of_mem _ (List.mem_cons_self ..), by first | decide +kernel | exact okIs (by decide +kernel) | exact rfl,
     by first | decide +kernel | exact okIs (by decide +kernel) | exact rfl, pairOf (by decide +kernel), rfl,
     by first | decide +kernel | exact okIs (by decide +kernel) | exact rfl,
     by first | decide +kernel | exact okIs (by decide +kernel) | exact rfl, rfl, rfl,
     by first | decide +kernel | exact okIs (by decide +kernel) | exact rfl,
     by first | decide +kernel | exact okIs (by decide +kernel) | exact rfl, ⟨_, rfl, trivial⟩⟩,
   ⟨(got 0 (carvPkt 4 (2 ^ 267) []) (leg0 .open_ run)), 0, (carvPkt 4 (2 ^ 267) []), some 1, _, 0, _,
     by first | decide +kernel | exact okIs (by decide +kernel) | exact rfl,
     by first | decide +kernel | exact okIs (by decide +kernel) | exact rfl, pairOf (by decide +kernel),
     by first | decide +kernel | exact okIs (by decide +kernel) | exact rfl, rfl,
     by first | decide +kernel | exact okIs (by decide +kernel) | exact rfl,
     by first | decide +kernel | exact okIs (by decide +kernel) | exact rfl,
     by first | decide +kernel | exact okIs (by decide +kernel) | exact rfl, ⟨_, rfl, trivial⟩⟩,
   ⟨(got 0 (carvPkt 5 0 []) (leg0 .open_ run)), 0, (carvPkt 5 0 []), some 1, _, 0, _,
     by first | decide +kernel | exact okIs (by decide +kernel) | exact rfl,
     by first | decide +kernel | exact okIs (by decide +kernel) | exact rfl, pairOf (by decide +kernel),
     by first | decide +kernel | exact okIs (by decide +kernel) | exact rfl, rfl,
     by first | decide +kernel | exact okIs (by decide +kernel) | exact rfl,
     by first | decide +kernel | exact okIs (by decide +kernel) | exact rfl, ⟨_, rfl, trivial⟩⟩,
   ⟨(got 0 (carvPkt 5 1 []) (leg0 .open_ run)), 0, (carvPkt 5 1 []), some 1, _, (Instr.postSoRx 0 (carvPkt 5 1 [])),
     by first | decide +kernel | exact okIs (by decide +kernel) | exact rfl,
     by first | decide +kernel | exact okIs (by decide +kernel) | exact rfl, pairOf (by decide +kernel), ⟨_, rfl, trivial⟩⟩,
   ⟨(got 0 (mkPkt 9 (7 * 2 ^ 16) 9 8 0 false (leBytes 16 0)) (leg0 .open_ (run.setTag 7 (some { target := 513, owner := .carvAgain 0 0 0 })))),
     0, (mkPkt 9 (7 * 2 ^ 16) 9 8 0 false (leBytes 16 0)), some 1, _, (Owner.carvAgain 0 0 0),
     by first | decide +kernel | exact okIs (by decide +kernel) | exact rfl,
     by first | decide +kernel | exact okIs (by decide +kernel) | exact rfl, pairOf (by decide +kernel), ⟨_, rfl, trivial⟩⟩⟩

theorem witness_WorkQueues :
    (∃ s src d q, s.Inv ∧ s.takes src (Adr.CARV_CMD d) .wo = true ∧ q < 4096 ∧ wqDie q = d ∧ (s.wq q).st = .disabled ∧
      4 ≤ s.wqDepth q ∧ s.wqDepth q ≤ 16 ∧ s.qf q 189 133 % 4096 = 0 ∧ s.qf q 127 64 % 4096 = 0 ∧
      s.qf q 127 64 + 32 * 2 ^ s.wqDepth q ≤ barnSize ∧ s.qf q 132 128 = 0 ∧ s.qf q 31 0 = 0 ∧
      Runs (.wqEnable src d q) s fun _ => True) ∧
    (∃ s src d q, s.Inv ∧ s.takes src (Adr.CARV_CMD d) .wo = true ∧ q < 4096 ∧ wqDie q = d ∧ (s.wq q).st = .active ∧
      (s.wq q).issued = 0 ∧ Runs (.wqDisable src d q) s fun _ => True) ∧
    (∃ s src d q n, s.Inv ∧ s.takes src (Adr.CARV_CMD d) .wo = true ∧ q < 4096 ∧ wqDie q = d ∧ (s.wq q).st = .active ∧
      n = (s.rf (Adr.CARV_CMD_ARG d) 15 0 + 65536 - (s.wq q).prod) % 65536 ∧ (s.wq q).posted + n ≤ 2 ^ s.wqDepth q ∧
      Runs (.wqPost src d q) s fun _ => True) ∧
    (∃ s q w m, q < 4096 ∧ s.stopped 7 (q / 2048) = false ∧ (s.wq q).st = .active ∧ (s.wq q).issued < (s.wq q).posted ∧
      w = s.barnNum (s.qf q 127 64 + 32 * ((s.wq q).cons % 2 ^ s.wqDepth q)) 32 ∧ wqeBad q w = false ∧ nbits w 248 248 = 0 ∧
      (s.leg (wLeg w)).st = .open_ ∧ s.pickInit (wLeg w) = some m ∧ Runs (.wqeIssue q) s fun _ => True) ∧
    (∃ s p k c u q g w, carvBad k = false ∧ k.carvKind = 9 ∧ s.takeLocal p k = (c, u) ∧
      g = u.gcount 0x10 1 (legDie (k.cf 265 253)) none none (some (k.cf 221 202)) ∧ g.postWay p k = true ∧ q = k.num 64 4 ∧
      g.job (g.wqSlot q) = .active ∧ g.member (g.wqSlot q) k.src = (true, w) ∧ (w.wq q).st = .active ∧
      k.cf 221 202 = w.wqFjid q ∧ Runs (.postWqeRx p k) s fun _ => True) :=
  ⟨⟨((job.setEntry (wqAt 0) 8 (4 * 2 ^ 239 + 0x60000 * 2 ^ 64)).setWq 0 { st := .disabled }), .host, 0, 0,
     ⟨by decide +kernel, by decide +kernel⟩, by first | decide +kernel | exact okIs (by decide +kernel) | exact rfl,
     by first | decide +kernel | exact okIs (by decide +kernel) | exact rfl,
     by first | decide +kernel | exact okIs (by decide +kernel) | exact rfl,
     by first | decide +kernel | exact okIs (by decide +kernel) | exact rfl,
     by first | decide +kernel | exact okIs (by decide +kernel) | exact rfl,
     by first | decide +kernel | exact okIs (by decide +kernel) | exact rfl,
     by first | decide +kernel | exact okIs (by decide +kernel) | exact rfl,
     by first | decide +kernel | exact okIs (by decide +kernel) | exact rfl,
     by first | decide +kernel | exact okIs (by decide +kernel) | exact rfl,
     by first | decide +kernel | exact okIs (by decide +kernel) | exact rfl,
     by first | decide +kernel | exact okIs (by decide +kernel) | exact rfl, ⟨_, rfl, trivial⟩⟩,
   ⟨((job.setEntry (wqAt 0) 8 (4 * 2 ^ 239 + 0x60000 * 2 ^ 64)).setWq 0 { st := .active }), .host, 0, 0, ⟨by decide +kernel,
     by decide +kernel⟩, by first | decide +kernel | exact okIs (by decide +kernel) | exact rfl,
     by first | decide +kernel | exact okIs (by decide +kernel) | exact rfl,
     by first | decide +kernel | exact okIs (by decide +kernel) | exact rfl,
     by first | decide +kernel | exact okIs (by decide +kernel) | exact rfl,
     by first | decide +kernel | exact okIs (by decide +kernel) | exact rfl, ⟨_, rfl, trivial⟩⟩,
   ⟨(((job.setEntry (wqAt 0) 8 (4 * 2 ^ 239 + 0x60000 * 2 ^ 64)).setWq 0 { st := .active }).setRg (Adr.CARV_CMD_ARG 0) 16),
     .host, 0, 0, 16, ⟨by decide +kernel, by decide +kernel⟩,
     by first | decide +kernel | exact okIs (by decide +kernel) | exact rfl,
     by first | decide +kernel | exact okIs (by decide +kernel) | exact rfl,
     by first | decide +kernel | exact okIs (by decide +kernel) | exact rfl,
     by first | decide +kernel | exact okIs (by decide +kernel) | exact rfl,
     by first | decide +kernel | exact okIs (by decide +kernel) | exact rfl,
     by first | decide +kernel | exact okIs (by decide +kernel) | exact rfl, ⟨_, rfl, trivial⟩⟩,
   ⟨((leg0 .open_ ((job.setEntry (wqAt 0) 8 (4 * 2 ^ 239 + 0x60000 * 2 ^ 64)).setWq 0 { st := .active, posted := 1 })).setBarnNum 0x60000 32 (2 * 2 ^ 252 + 64 * 2 ^ 167)),
     0, (2 * 2 ^ 252 + 64 * 2 ^ 167),
     ((((leg0 .open_ ((job.setEntry (wqAt 0) 8 (4 * 2 ^ 239 + 0x60000 * 2 ^ 64)).setWq 0 { st := .active, posted := 1 })).setBarnNum 0x60000 32 (2 * 2 ^ 252 + 64 * 2 ^ 167)).freeVal + 0) % 1024),
     by first | decide +kernel | exact okIs (by decide +kernel) | exact rfl,
     by first | decide +kernel | exact okIs (by decide +kernel) | exact rfl,
     by first | decide +kernel | exact okIs (by decide +kernel) | exact rfl,
     by first | decide +kernel | exact okIs (by decide +kernel) | exact rfl,
     by first | decide +kernel | exact okIs (by decide +kernel) | exact rfl,
     by first | decide +kernel | exact okIs (by decide +kernel) | exact rfl,
     by first | decide +kernel | exact okIs (by decide +kernel) | exact rfl,
     by first | decide +kernel | exact okIs (by decide +kernel) | exact rfl, rfl, ⟨_, rfl, trivial⟩⟩,
   ⟨(got 0 (carvPkt 9 0 (List.replicate 48 0)) ((((job.setRg (Adr.JOB_SO_RANGE 0) 0x100000).setEntry (wqAt 0) 8 (4 * 2 ^ 239 + 0x60000 * 2 ^ 64)).setWq 0 { st := .active }).setRg (Adr.PORT_QOS_CFG 0) 0x100)),
     0, (carvPkt 9 0 (List.replicate 48 0)), some 1, _, 0, _, _,
     by first | decide +kernel | exact okIs (by decide +kernel) | exact rfl,
     by first | decide +kernel | exact okIs (by decide +kernel) | exact rfl, pairOf (by decide +kernel), rfl,
     by first | decide +kernel | exact okIs (by decide +kernel) | exact rfl,
     by first | decide +kernel | exact okIs (by decide +kernel) | exact rfl,
     by first | decide +kernel | exact okIs (by decide +kernel) | exact rfl, pairOf (by decide +kernel),
     by first | decide +kernel | exact okIs (by decide +kernel) | exact rfl,
     by first | decide +kernel | exact okIs (by decide +kernel) | exact rfl, ⟨_, rfl, trivial⟩⟩⟩

theorem witness_StandingOrderTable :
    (∃ s src d k o, s.Inv ∧ s.takes src (Adr.CARV_CMD d) .wo = true ∧ k < 32768 ∧ soDie k = d ∧ s.order k = none ∧
      orderOf (s.barnNum (s.soAt k) 32) (s.barnNum (s.soAt k + 32) 96 == 0) = some o ∧ s.soOk k o = true ∧
      meets (s.ctrOf o.ctr).value o.thresh = false ∧ Runs (.soArm src d k) s fun _ => True) ∧
    (∃ s src d k o, s.Inv ∧ s.takes src (Adr.CARV_CMD d) .wo = true ∧ k < 32768 ∧ soDie k = d ∧ s.order k = none ∧
      orderOf (s.barnNum (s.soAt k) 32) (s.barnNum (s.soAt k + 32) 96 == 0) = some o ∧ s.soOk k o = true ∧
      meets (s.ctrOf o.ctr).value o.thresh = true ∧ Runs (.soArm src d k) s fun _ => True) ∧
    (∃ s src d k o, s.Inv ∧ s.takes src (Adr.CARV_CMD d) .wo = true ∧ k < 32768 ∧ soDie k = d ∧ s.order k = some o ∧
      o.triggered = false ∧ Runs (.soCancel src d k) s fun _ => True) ∧
    (∃ s p k c u g j w i o, carvBad k = false ∧ k.carvKind = 10 ∧ s.takeLocal p k = (c, u) ∧
      g = u.gcount 0x10 1 (legDie (k.cf 265 253)) none none (some (k.cf 221 202)) ∧ g.postWay p k = true ∧ i = k.num 64 4 ∧
      orderOf (k.num 80 32) (k.num 112 96 == 0) = some o ∧ g.activeSlot o.fjid = some j ∧ g.member j k.src = (true, w) ∧
      w.soOk i o = true ∧ w.order i = none ∧ Runs (.postSoRx p k) s fun _ => True) ∧
    (∃ s d k o u w, s.stopped 7 d = false ∧ (s.ctr.trig.find? fun k => soDie k == d) = some k ∧
      u = s.modCtr (fun x => { x with trig := x.trig.erase k }) ∧ s.order k = some o ∧ u.soAct k o = (true, w) ∧
      Runs (.soAction d) s fun _ => True) ∧
    (∃ s d k o u w, s.stopped 7 d = false ∧ (s.ctr.trig.find? fun k => soDie k == d) = some k ∧
      u = s.modCtr (fun x => { x with trig := x.trig.erase k }) ∧ s.order k = some o ∧ u.soAct k o = (false, w) ∧
      Runs (.soAction d) s fun _ => True) :=
  ⟨⟨((((((job.setRg (Adr.JOB_SO_RANGE 0) 0x100000).setEntry (wqAt 0) 8 (4 * 2 ^ 239 + 0x60000 * 2 ^ 64)).setWq 0 { st := .active }).setRg (Adr.PORT_QOS_CFG 0) 0x100).setBarnNum (run.soAt 0) 32 (1 * 2 ^ 250 + 5 * 2 ^ 201 + 9 * 2 ^ 128)).setCtrOf 0 { value := 8 }),
     .host, 0, 0, ({ action := 1, fjid := 5, thresh := 9 } : Order), ⟨by decide +kernel, by decide +kernel⟩,
     by first | decide +kernel | exact okIs (by decide +kernel) | exact rfl,
     by first | decide +kernel | exact okIs (by decide +kernel) | exact rfl,
     by first | decide +kernel | exact okIs (by decide +kernel) | exact rfl,
     by first | decide +kernel | exact okIs (by decide +kernel) | exact rfl,
     by first | decide +kernel | exact okIs (by decide +kernel) | exact rfl,
     by first | decide +kernel | exact okIs (by decide +kernel) | exact rfl,
     by first | decide +kernel | exact okIs (by decide +kernel) | exact rfl, ⟨_, rfl, trivial⟩⟩,
   ⟨((((((job.setRg (Adr.JOB_SO_RANGE 0) 0x100000).setEntry (wqAt 0) 8 (4 * 2 ^ 239 + 0x60000 * 2 ^ 64)).setWq 0 { st := .active }).setRg (Adr.PORT_QOS_CFG 0) 0x100).setBarnNum (run.soAt 0) 32 (1 * 2 ^ 250 + 5 * 2 ^ 201 + 9 * 2 ^ 128)).setCtrOf 0 { value := 9 }),
     .host, 0, 0, ({ action := 1, fjid := 5, thresh := 9 } : Order), ⟨by decide +kernel, by decide +kernel⟩,
     by first | decide +kernel | exact okIs (by decide +kernel) | exact rfl,
     by first | decide +kernel | exact okIs (by decide +kernel) | exact rfl,
     by first | decide +kernel | exact okIs (by decide +kernel) | exact rfl,
     by first | decide +kernel | exact okIs (by decide +kernel) | exact rfl,
     by first | decide +kernel | exact okIs (by decide +kernel) | exact rfl,
     by first | decide +kernel | exact okIs (by decide +kernel) | exact rfl,
     by first | decide +kernel | exact okIs (by decide +kernel) | exact rfl, ⟨_, rfl, trivial⟩⟩,
   ⟨(((((job.setRg (Adr.JOB_SO_RANGE 0) 0x100000).setEntry (wqAt 0) 8 (4 * 2 ^ 239 + 0x60000 * 2 ^ 64)).setWq 0 { st := .active }).setRg (Adr.PORT_QOS_CFG 0) 0x100).setOrder 32767 (some { action := 1, fjid := 5, thresh := 9 })),
     .host, 1, 32767, ({ action := 1, fjid := 5, thresh := 9 } : Order), ⟨by decide +kernel, by decide +kernel⟩,
     by first | decide +kernel | exact okIs (by decide +kernel) | exact rfl,
     by first | decide +kernel | exact okIs (by decide +kernel) | exact rfl,
     by first | decide +kernel | exact okIs (by decide +kernel) | exact rfl,
     by first | decide +kernel | exact okIs (by decide +kernel) | exact rfl,
     by first | decide +kernel | exact okIs (by decide +kernel) | exact rfl, ⟨_, rfl, trivial⟩⟩,
   ⟨(got 0 (carvPkt 10 0 (List.replicate 16 0 ++ leBytes 32 (1 * 2 ^ 250 + 5 * 2 ^ 201 + 9 * 2 ^ 128) ++ List.replicate 224 0)) ((((job.setRg (Adr.JOB_SO_RANGE 0) 0x100000).setEntry (wqAt 0) 8 (4 * 2 ^ 239 + 0x60000 * 2 ^ 64)).setWq 0 { st := .active }).setRg (Adr.PORT_QOS_CFG 0) 0x100)),
     0,
     (carvPkt 10 0 (List.replicate 16 0 ++ leBytes 32 (1 * 2 ^ 250 + 5 * 2 ^ 201 + 9 * 2 ^ 128) ++ List.replicate 224 0)),
     some 1, _, _, 0, _, 0, ({ action := 1, fjid := 5, thresh := 9 } : Order),
     by first | decide +kernel | exact okIs (by decide +kernel) | exact rfl,
     by first | decide +kernel | exact okIs (by decide +kernel) | exact rfl, pairOf (by decide +kernel), rfl,
     by first | decide +kernel | exact okIs (by decide +kernel) | exact rfl,
     by first | decide +kernel | exact okIs (by decide +kernel) | exact rfl,
     by first | decide +kernel | exact okIs (by decide +kernel) | exact rfl,
     by first | decide +kernel | exact okIs (by decide +kernel) | exact rfl, pairOf (by decide +kernel),
     by first | decide +kernel | exact okIs (by decide +kernel) | exact rfl,
     by first | decide +kernel | exact okIs (by decide +kernel) | exact rfl, ⟨_, rfl, trivial⟩⟩,
   ⟨(((job.setRg (Adr.JOB_SO_RANGE 0) 0x100000).setOrder 0 (some { action := 3, fjid := 5, target := 9, triggered := true, rearm := true, step := 4 })).modCtr fun x => { x with trig := [0] }),
     0, 0, ({ action := 3, fjid := 5, target := 9, triggered := true, rearm := true, step := 4 } : Order), _, _,
     by first | decide +kernel | exact okIs (by decide +kernel) | exact rfl,
     by first | decide +kernel | exact okIs (by decide +kernel) | exact rfl, rfl,
     by first | decide +kernel | exact okIs (by decide +kernel) | exact rfl, pairOf (by decide +kernel), ⟨_, rfl, trivial⟩⟩,
   ⟨((job.setOrder 0 (some { action := 3, fjid := 5, target := 9, triggered := true, rearm := true, step := 4 })).modCtr fun x => { x with trig := [0] }),
     0, 0, ({ action := 3, fjid := 5, target := 9, triggered := true, rearm := true, step := 4 } : Order), _, _,
     by first | decide +kernel | exact okIs (by decide +kernel) | exact rfl,
     by first | decide +kernel | exact okIs (by decide +kernel) | exact rfl, rfl,
     by first | decide +kernel | exact okIs (by decide +kernel) | exact rfl, pairOf (by decide +kernel), ⟨_, rfl, trivial⟩⟩⟩

theorem witness_SheafControl :
    (∃ s src d k c, s.Inv ∧ s.takes src (Adr.SHEAF_CMD d) .wo = true ∧ k < 4096 ∧ shDie k = d ∧ (s.sheaf k).st = .free ∧
      c = s.shCfgOf k ∧ shBad c = false ∧ (s.activeSlot c.fjid).isSome = true ∧
      kidsOk c.root c.members 0 (s.kidWords c) = true ∧ ((∀ t ∈ c.tiles, s.tileOn t = true)) ∧ ((∀ b ∈ c.binders,
      s.tile.binders.get b + c.slots ≤ 4096)) ∧ Runs (.sheafEnable src d k) s fun _ => True) ∧
    (∃ s src d k, s.Inv ∧ s.takes src (Adr.SHEAF_CMD d) .wo = true ∧ k < 4096 ∧ shDie k = d ∧ (s.sheaf k).st ≠ .free ∧
      (s.sheaf k).st ≠ .running ∧ Runs (.sheafDisable src d k) s fun _ => True) ∧
    (∃ s src d k, s.Inv ∧ s.takes src (Adr.SHEAF_CMD d) .wo = true ∧ k < 4096 ∧ shDie k = d ∧ (s.sheaf k).st ≠ .free ∧
      (s.sheaf k).st ≠ .running ∧ Runs (.sheafReset src d k) s fun _ => True) ∧
    (∃ s src d k, s.takes src (Adr.SHEAF_CMD d) .wo = true ∧ k < 4096 ∧ shDie k = d ∧ (s.sheaf k).st ≠ .free ∧
      Runs (.sheafAbortCmd src d k) s fun _ => True) ∧
    (∃ s src c v, s.ctrOn c = true ∧ Runs (.ctrValueWrite src c v) s fun _ => True) ∧
    (∃ s src c v, s.ctrOn c = true ∧ Runs (.ctrThreshWrite src c v) s fun _ => True) ∧
    (∃ s src c v w, s.ctrOn c = true ∧
      w = State.setCtrOf c { s.ctrOf c with add := s.ctrLo src (ctrAddAt c) (s.ctrOf c).add } (s.unstage src (ctrAddAt c)) ∧
      Runs (.ctrAdd src c v) s fun _ => True) ∧
    (∃ s src c v, s.ctrOn c = true ∧ Runs (.ctrCfgWrite src c v) s fun _ => True) :=
  ⟨⟨(sheaf0 1 .free), .host, 0, 0, _, ⟨by decide +kernel, by decide +kernel⟩,
     by first | decide +kernel | exact okIs (by decide +kernel) | exact rfl,
     by first | decide +kernel | exact okIs (by decide +kernel) | exact rfl,
     by first | decide +kernel | exact okIs (by decide +kernel) | exact rfl,
     by first | decide +kernel | exact okIs (by decide +kernel) | exact rfl, rfl,
     by first | decide +kernel | exact okIs (by decide +kernel) | exact rfl,
     by first | decide +kernel | exact okIs (by decide +kernel) | exact rfl,
     by first | decide +kernel | exact okIs (by decide +kernel) | exact rfl,
     by first | decide +kernel | exact okIs (by decide +kernel) | exact rfl,
     by first | decide +kernel | exact okIs (by decide +kernel) | exact rfl, ⟨_, rfl, trivial⟩⟩,
   ⟨(sheaf0 1 .idle), .host, 0, 0, ⟨by decide +kernel, by decide +kernel⟩,
     by first | decide +kernel | exact okIs (by decide +kernel) | exact rfl,
     by first | decide +kernel | exact okIs (by decide +kernel) | exact rfl,
     by first | decide +kernel | exact okIs (by decide +kernel) | exact rfl,
     by first | decide +kernel | exact okIs (by decide +kernel) | exact rfl,
     by first | decide +kernel | exact okIs (by decide +kernel) | exact rfl, ⟨_, rfl, trivial⟩⟩,
   ⟨(sheaf0 1 .aborted), .host, 0, 0, ⟨by decide +kernel, by decide +kernel⟩,
     by first | decide +kernel | exact okIs (by decide +kernel) | exact rfl,
     by first | decide +kernel | exact okIs (by decide +kernel) | exact rfl,
     by first | decide +kernel | exact okIs (by decide +kernel) | exact rfl,
     by first | decide +kernel | exact okIs (by decide +kernel) | exact rfl,
     by first | decide +kernel | exact okIs (by decide +kernel) | exact rfl, ⟨_, rfl, trivial⟩⟩,
   ⟨(sheaf0 1 .running), .host, 0, 0, by first | decide +kernel | exact okIs (by decide +kernel) | exact rfl,
     by first | decide +kernel | exact okIs (by decide +kernel) | exact rfl,
     by first | decide +kernel | exact okIs (by decide +kernel) | exact rfl,
     by first | decide +kernel | exact okIs (by decide +kernel) | exact rfl, ⟨_, rfl, trivial⟩⟩,
   ⟨job, .host, 16383, 7, by first | decide +kernel | exact okIs (by decide +kernel) | exact rfl, ⟨_, rfl, trivial⟩⟩,
   ⟨job, .host, 16383, 7, by first | decide +kernel | exact okIs (by decide +kernel) | exact rfl, ⟨_, rfl, trivial⟩⟩,
   ⟨job, .host, 0, 7, _, by first | decide +kernel | exact okIs (by decide +kernel) | exact rfl, rfl, ⟨_, rfl, trivial⟩⟩,
   ⟨job, .host, 16383, 0x80000000, by first | decide +kernel | exact okIs (by decide +kernel) | exact rfl, ⟨_, rfl,
     trivial⟩⟩⟩

theorem witness_SheafOperations :
    (∃ s p k c u i n x w v g, k.cls = 9 ∧ shfKind k = 0 ∧ s.takeLocal p k = (c, u) ∧ i = k.sheafId ∧ g = u.freeLocal c ∧
      x = g.sheaf i ∧ ((x.st = .idle ∧ g.stopped 9 (shDie i) = false) ∨ x.st = .running) ∧ n = shfChild k ∧
      n < x.kids.length ∧ (x.kid n).eid = k.src ∧ shfOp k = x.opNext.toNat ∧ nbits k.spec 15 15 = 0 ∧ k.xf 5 0 = 0 ∧
      v = (if x.st = .idle then g.setSheaf i { x with st := .running, tStart := g.ns, moved := g.ns } else g) ∧
      shfChunk k < (g.shCfgOf i).NC ∧ (if (g.shCfgOf i).reducing then v.shReduce i n k else v.shForward i n k) = some w ∧
      Runs (.sheafUpRx p k) s fun _ => True) ∧
    (∃ s p k c u i x w v g, k.cls = 9 ∧ shfKind k = 1 ∧ s.takeLocal p k = (c, u) ∧ i = k.sheafId ∧ g = u.freeLocal c ∧
      x = g.sheaf i ∧ ((x.st = .idle ∧ g.stopped 9 (shDie i) = false) ∨ x.st = .running) ∧
      v = (if x.st = .idle then g.setSheaf i { x with st := .running, tStart := g.ns, moved := g.ns } else g) ∧
      (g.shCfgOf i).root = false ∧ k.src = (g.shCfgOf i).f 959 944 ∧ shfOp k = x.opNext.toNat ∧ nbits k.spec 15 15 = 0 ∧
      k.xf 5 0 = 0 ∧ shfChild k = 0 ∧ shfChunk k < (g.shCfgOf i).NC ∧ v.shDownRx i k = some w ∧
      Runs (.sheafDownRx p k) s fun _ => True) ∧
    (∃ s p k c u i n g, k.cls = 9 ∧ shfKind k = 0 ∧ s.takeLocal p k = (c, u) ∧ i = k.sheafId ∧ g = u.freeLocal c ∧
      (g.sheaf i).st = .running ∧ n = shfChild k ∧ n < (g.sheaf i).kids.length ∧ ((g.sheaf i).kid n).eid = k.src ∧
      shfOp k ≠ (g.sheaf i).opNext.toNat ∧ Runs (.sheafUpRx p k) s fun _ => True) ∧
    (∃ s p k c u i g, k.cls = 1 ∧ nbits k.spec 31 28 = 3 ∧ mgmtBad k = false ∧ s.takeLocal p k = (c, u) ∧
      g = u.freeLocal c ∧ i = nbits k.spec 27 16 ∧ (g.sheaf i).st = .running ∧ (g.shCfgOf i).root = false ∧
      k.src = (g.shCfgOf i).f 959 944 ∧ (g.sheaf i).resetOp.toNat ≤ k.num 24 8 ∧ Runs (.sheafAbortRx p k) s fun _ => True) ∧
    (∃ s k, (s.sheaf k).st = .running ∧ (s.sheaf k).moved + 1000 * (s.shCfgOf k).f 824 805 ≤ s.ns ∧
      Runs (.sheafPhaseTimeout k) s fun _ => True) ∧
    (∃ s p, s.shv.links.get p ≠ (s.port p).epoch ∧ Runs (.sheafLinkLoss p) s fun _ => True) :=
  ⟨⟨(got 0 (shfPkt 0 0) (sheaf0 1 .running)), 0, (shfPkt 0 0), some 1, _, 0, 0, _,
     ((((((got 0 (shfPkt 0 0) (sheaf0 1 .running)).takeLocal 0 (shfPkt 0 0)).2).freeLocal (some 1))).shForward 0 0 (shfPkt 0 0)).get (by decide +kernel),
     ((((got 0 (shfPkt 0 0) (sheaf0 1 .running)).takeLocal 0 (shfPkt 0 0)).2).freeLocal (some 1)), _,
     by first | decide +kernel | exact okIs (by decide +kernel) | exact rfl,
     by first | decide +kernel | exact okIs (by decide +kernel) | exact rfl, pairOf (by decide +kernel),
     by first | decide +kernel | exact okIs (by decide +kernel) | exact rfl, rfl, rfl, Or.inr (by decide +kernel),
     by first | decide +kernel | exact okIs (by decide +kernel) | exact rfl,
     by first | decide +kernel | exact okIs (by decide +kernel) | exact rfl,
     by first | decide +kernel | exact okIs (by decide +kernel) | exact rfl,
     by first | decide +kernel | exact okIs (by decide +kernel) | exact rfl,
     by first | decide +kernel | exact okIs (by decide +kernel) | exact rfl,
     by first | decide +kernel | exact okIs (by decide +kernel) | exact rfl, (if_neg (by decide +kernel)).symm,
     by first | decide +kernel | exact okIs (by decide +kernel) | exact rfl,
     (if_neg (by decide +kernel)).trans (Option.some_get _).symm, ⟨_, rfl, trivial⟩⟩,
   ⟨(got 0 (shfPkt 1 0) (sheaf0 0 .running)), 0, (shfPkt 1 0), some 1, _, 0, _,
     ((((((got 0 (shfPkt 1 0) (sheaf0 0 .running)).takeLocal 0 (shfPkt 1 0)).2).freeLocal (some 1))).shDownRx 0 (shfPkt 1 0)).get (by decide +kernel),
     ((((got 0 (shfPkt 1 0) (sheaf0 0 .running)).takeLocal 0 (shfPkt 1 0)).2).freeLocal (some 1)), _,
     by first | decide +kernel | exact okIs (by decide +kernel) | exact rfl,
     by first | decide +kernel | exact okIs (by decide +kernel) | exact rfl, pairOf (by decide +kernel),
     by first | decide +kernel | exact okIs (by decide +kernel) | exact rfl, rfl, rfl, Or.inr (by decide +kernel),
     (if_neg (by decide +kernel)).symm, by first | decide +kernel | exact okIs (by decide +kernel) | exact rfl,
     by first | decide +kernel | exact okIs (by decide +kernel) | exact rfl,
     by first | decide +kernel | exact okIs (by decide +kernel) | exact rfl,
     by first | decide +kernel | exact okIs (by decide +kernel) | exact rfl,
     by first | decide +kernel | exact okIs (by decide +kernel) | exact rfl,
     by first | decide +kernel | exact okIs (by decide +kernel) | exact rfl,
     by first | decide +kernel | exact okIs (by decide +kernel) | exact rfl, (Option.some_get _).symm, ⟨_, rfl, trivial⟩⟩,
   ⟨(got 0 (shfPkt 0 (2 ^ 64)) (sheaf0 1 .running)), 0, (shfPkt 0 (2 ^ 64)), some 1, _, 0, 0, _,
     by first | decide +kernel | exact okIs (by decide +kernel) | exact rfl,
     by first | decide +kernel | exact okIs (by decide +kernel) | exact rfl, pairOf (by decide +kernel),
     by first | decide +kernel | exact okIs (by decide +kernel) | exact rfl, rfl,
     by first | decide +kernel | exact okIs (by decide +kernel) | exact rfl,
     by first | decide +kernel | exact okIs (by decide +kernel) | exact rfl,
     by first | decide +kernel | exact okIs (by decide +kernel) | exact rfl,
     by first | decide +kernel | exact okIs (by decide +kernel) | exact rfl,
     by first | decide +kernel | exact okIs (by decide +kernel) | exact rfl, ⟨_, rfl, trivial⟩⟩,
   ⟨(got 0 (mkPkt 1 (3 * 2 ^ 28) 9 8 0 false (leBytes 16 (2 * 2 ^ 60))) (sheaf0 0 .running)), 0,
     (mkPkt 1 (3 * 2 ^ 28) 9 8 0 false (leBytes 16 (2 * 2 ^ 60))), some 1, _, 0, _,
     by first | decide +kernel | exact okIs (by decide +kernel) | exact rfl,
     by first | decide +kernel | exact okIs (by decide +kernel) | exact rfl,
     by first | decide +kernel | exact okIs (by decide +kernel) | exact rfl, pairOf (by decide +kernel), rfl,
     by first | decide +kernel | exact okIs (by decide +kernel) | exact rfl,
     by first | decide +kernel | exact okIs (by decide +kernel) | exact rfl,
     by first | decide +kernel | exact okIs (by decide +kernel) | exact rfl,
     by first | decide +kernel | exact okIs (by decide +kernel) | exact rfl,
     by first | decide +kernel | exact okIs (by decide +kernel) | exact rfl, ⟨_, rfl, trivial⟩⟩,
   ⟨(at_ 1000 (sheaf0 1 .running)), 0, by first | decide +kernel | exact okIs (by decide +kernel) | exact rfl,
     by first | decide +kernel | exact okIs (by decide +kernel) | exact rfl, ⟨_, rfl, trivial⟩⟩,
   ⟨(up0.modPort 0 fun q => { q with epoch := 1 }), 0,
     by first | decide +kernel | exact okIs (by decide +kernel) | exact rfl, ⟨_, rfl, trivial⟩⟩⟩

theorem witness_ExpertDispatch :
    (∃ s src l, s.Inv ∧ s.takes src Adr.EXD_CMD .wo = true ∧ l < 256 ∧ s.layerOn l = false ∧ s.layerBad l = false ∧
      (s.activeSlot (s.layFjid l)).isSome = true ∧ ((∀ t,
      t < 8 → nbits (s.lay l 831 800) (4 * t + 3) (4 * t) ≠ 0 → s.tileOn t = true)) ∧ ((∀ r ∈ s.layerRegions l,
      r.1 + r.2 ≤ barnSize)) ∧ ((∀ k ∈ List.map Prod.fst s.exd.active, s.layerOn k = true → k ≠ l → (∀ a ∈ s.layerRegions l,
      ∀ b ∈ s.layerRegions k, meet a b = false) ∧ ∀ a ∈ s.layerWindows l, ∀ b ∈ s.layerWindows k, meet a b = false)) ∧
      ((∀ b, b < 32 → (s.lay l 831 800).testBit b = true → s.tile.binders.get b + s.lay l 869 857 ≤ 4096)) ∧
      Runs (.exdEnable src l) s fun _ => True) ∧
    (∃ s src l, s.Inv ∧ s.takes src Adr.EXD_CMD .wo = true ∧ l < 256 ∧ s.layerOn l = true ∧ ((∀ k,
      k < (s.geo l).dslots → s.dispatching l k = false)) ∧ s.exd.ents = [] ∧ Runs (.exdDisable src l) s fun _ => True) ∧
    (∃ s src l, s.takes src Adr.EXD_CMD .wo = true ∧ l < 256 ∧ s.layerOn l = true ∧
      s.rf Adr.EXD_CMD_ARG 11 0 + s.rf Adr.EXD_CMD_ARG 27 16 ≤ s.lay l 1001 990 ∧ Runs (.expertSync src l) s fun _ => True) ∧
    (∃ s d l k die j p g h e ps spills z, s.exd.held = false ∧ (s.exd.ready.find? fun t => t.2.1 % 2 == d) = some (l, k,
      die, j, p) ∧ s.layerOn l = true ∧
      g = State.gcount 0x12 1 d none none (some (s.layFjid l)) (s.modExd fun u => { u with ready := u.ready.erase (l, k, die, j, p) }) ∧
      s.exd.bad.get l = false ∧ h = g.barnNum (g.dspAt l k) 128 ∧ g.tokBad l h = false ∧
      (g.entsOf l d).find? (fun e => (g.cmb l e).isNone) = some e ∧
      g.picks d l h p.src (g.ctrOf (g.lay l 935 922)).value.toNat (tokK h) 0 [] = (some (ps, spills), z) ∧
      z.lay l 984 983 ≠ 2 ∧ Runs (.tokenDecide d) s fun _ => True) ∧
    (∃ s p k c u id, s.unitTag k = some (.exdCopy id) ∧ s.takeLocal p k = (c, u) ∧ Runs (.exdWriteRsp p k) s fun _ => True) ∧
    (∃ s p k c u l e uid, s.unitTag k = some (.exdRes l e uid) ∧ s.takeLocal p k = (c, u) ∧
      Runs (.exdWriteRsp p k) s fun _ => True) ∧
    (∃ s l e c, s.cmb l e = some c ∧ c.st = .wait ∧ c.stopped = false ∧ c.at_ + 1000 * s.lay l 889 870 ≤ s.ns ∧
      Runs (.cmbTimeout l e) s fun _ => True) ∧
    (∃ s l e c, s.cmb l e = some c ∧ c.st = .combine ∧ c.begun = false ∧ c.stopped = false ∧
      Runs (.cmbCombine l e) s fun _ => True) ∧
    (∃ s l e c, s.cmb l e = some c ∧ c.st = .quar ∧ c.at_ + 1000 * s.lay l 889 870 ≤ s.ns ∧
      Runs (.cmbQuarEnd l e) s fun _ => True) :=
  ⟨⟨((layer.setRg (Adr.TILE_CTRL 4) 1).modExd fun u => { u with active := [] }), .host, 0, ⟨by decide +kernel,
     by decide +kernel⟩, by first | decide +kernel | exact okIs (by decide +kernel) | exact rfl,
     by first | decide +kernel | exact okIs (by decide +kernel) | exact rfl,
     by first | decide +kernel | exact okIs (by decide +kernel) | exact rfl,
     by first | decide +kernel | exact okIs (by decide +kernel) | exact rfl,
     by first | decide +kernel | exact okIs (by decide +kernel) | exact rfl,
     by first | decide +kernel | exact okIs (by decide +kernel) | exact rfl,
     by first | decide +kernel | exact okIs (by decide +kernel) | exact rfl,
     by first | decide +kernel | exact okIs (by decide +kernel) | exact rfl,
     by first | decide +kernel | exact okIs (by decide +kernel) | exact rfl, ⟨_, rfl, trivial⟩⟩,
   ⟨layer, .host, 0, ⟨by decide +kernel, by decide +kernel⟩,
     by first | decide +kernel | exact okIs (by decide +kernel) | exact rfl,
     by first | decide +kernel | exact okIs (by decide +kernel) | exact rfl,
     by first | decide +kernel | exact okIs (by decide +kernel) | exact rfl,
     by first | decide +kernel | exact okIs (by decide +kernel) | exact rfl,
     by first | decide +kernel | exact okIs (by decide +kernel) | exact rfl, ⟨_, rfl, trivial⟩⟩,
   ⟨layer, .host, 0, by first | decide +kernel | exact okIs (by decide +kernel) | exact rfl,
     by first | decide +kernel | exact okIs (by decide +kernel) | exact rfl,
     by first | decide +kernel | exact okIs (by decide +kernel) | exact rfl,
     by first | decide +kernel | exact okIs (by decide +kernel) | exact rfl, ⟨_, rfl, trivial⟩⟩,
   ⟨(layer.modExd fun u => { u with ready := [(0, 0, 0, 0, (mreq 1 64 0x1000C0 (List.replicate 64 0)))] }), 0, 0, 0, 0, 0,
     (mreq 1 64 0x1000C0 (List.replicate 64 0)), _, _, 0, [none], 0, _,
     by first | decide +kernel | exact okIs (by decide +kernel) | exact rfl,
     by first | decide +kernel | exact okIs (by decide +kernel) | exact rfl,
     by first | decide +kernel | exact okIs (by decide +kernel) | exact rfl, rfl,
     by first | decide +kernel | exact okIs (by decide +kernel) | exact rfl, rfl,
     by first | decide +kernel | exact okIs (by decide +kernel) | exact rfl,
     by first | decide +kernel | exact okIs (by decide +kernel) | exact rfl, pairOf (by decide +kernel),
     by first | decide +kernel | exact okIs (by decide +kernel) | exact rfl, ⟨_, rfl, trivial⟩⟩,
   ⟨(got 0 (mkPkt 9 (7 * 2 ^ 16) 9 8 0 false (leBytes 16 0)) (layer.setTag 7 (some { target := 513, owner := .exdCopy 3 }))),
     0, (mkPkt 9 (7 * 2 ^ 16) 9 8 0 false (leBytes 16 0)), some 1, _, 3,
     by first | decide +kernel | exact okIs (by decide +kernel) | exact rfl, pairOf (by decide +kernel), ⟨_, rfl, trivial⟩⟩,
   ⟨(got 0 (mkPkt 9 (7 * 2 ^ 16) 9 8 0 false (leBytes 16 0)) (layer.setTag 7 (some { target := 513, owner := .exdRes 0 1 3 }))),
     0, (mkPkt 9 (7 * 2 ^ 16) 9 8 0 false (leBytes 16 0)), some 1, _, 0, 1, 3,
     by first | decide +kernel | exact okIs (by decide +kernel) | exact rfl, pairOf (by decide +kernel), ⟨_, rfl, trivial⟩⟩,
   ⟨(at_ 100000 (layer.setCmb 0 1 (some { st := .wait, served := 1 }))), 0, 1, ({ st := .wait, served := 1 } : Cmb),
     by first | decide +kernel | exact okIs (by decide +kernel) | exact rfl,
     by first | decide +kernel | exact okIs (by decide +kernel) | exact rfl,
     by first | decide +kernel | exact okIs (by decide +kernel) | exact rfl,
     by first | decide +kernel | exact okIs (by decide +kernel) | exact rfl, ⟨_, rfl, trivial⟩⟩,
   ⟨(at_ 100000 (layer.setCmb 0 1 (some { st := .combine, served := 1 }))), 0, 1, ({ st := .combine, served := 1 } : Cmb),
     by first | decide +kernel | exact okIs (by decide +kernel) | exact rfl,
     by first | decide +kernel | exact okIs (by decide +kernel) | exact rfl,
     by first | decide +kernel | exact okIs (by decide +kernel) | exact rfl,
     by first | decide +kernel | exact okIs (by decide +kernel) | exact rfl, ⟨_, rfl, trivial⟩⟩,
   ⟨(at_ 100000 (layer.setCmb 0 1 (some { st := .quar, served := 1 }))), 0, 1, ({ st := .quar, served := 1 } : Cmb),
     by first | decide +kernel | exact okIs (by decide +kernel) | exact rfl,
     by first | decide +kernel | exact okIs (by decide +kernel) | exact rfl,
     by first | decide +kernel | exact okIs (by decide +kernel) | exact rfl, ⟨_, rfl, trivial⟩⟩⟩

theorem witness_HayloftsAndTiles :
    (∃ s src t j base size, s.takes src (Adr.TILE_HL_CMD t) .wo = true ∧ j = s.rf (Adr.TILE_HL_ARG t) 29 20 ∧
      base = s.rf (Adr.TILE_HL_ARG t) 19 10 ∧ size = s.rf (Adr.TILE_HL_ARG t) 9 0 ∧ s.tile.hlCmd.get t = none ∧
      ((∀ w ∈ s.hlWins t, w.1 ≠ j ∧ (base + size ≤ w.2.1 ∨ w.2.1 + w.2.2 ≤ base))) ∧ size ≠ 0 ∧ base + size ≤ 768 ∧
      s.job j ≠ .free ∧ Runs (.hlAssign src t) s fun _ => True) ∧
    (∃ s src t j base size, s.takes src (Adr.TILE_HL_CMD t) .wo = true ∧ j = s.rf (Adr.TILE_HL_ARG t) 29 20 ∧
      base = s.rf (Adr.TILE_HL_ARG t) 19 10 ∧ size = s.rf (Adr.TILE_HL_ARG t) 9 0 ∧ s.tile.hlCmd.get t = none ∧
      ((∀ w ∈ s.hlWins t, w.1 ≠ j)) ∧ ((∃ w ∈ s.hlWins t, w.2.1 < base + size ∧ base < w.2.1 + w.2.2)) ∧
      Runs (.hlAssign src t) s fun _ => True) ∧
    (∃ s t j base size, s.tile.hlCmd.get t = some (j, base, size) ∧ Runs (.hlAssignDone t) s fun _ => True) ∧
    (∃ s src t j w, s.takes src (Adr.TILE_HL_CMD t) .wo = true ∧ j = s.rf (Adr.TILE_HL_ARG t) 29 20 ∧
      s.tile.hlCmd.get t = none ∧ s.tile.wins.get (1024 * t + j) = some w ∧ s.slotHolds t j = false ∧
      Runs (.hlRelease src t) s fun _ => True) ∧
    (∃ s src t j, s.takes src (Adr.TILE_HL_CMD t) .wo = true ∧ j = s.rf (Adr.TILE_HL_ARG t) 29 20 ∧
      s.tile.hlCmd.get t = none ∧ s.tile.wins.get (1024 * t + j) = none ∧ Runs (.hlRelease src t) s fun _ => True) ∧
    (∃ s src t, s.takes src (Adr.TILE_CTRL t) .rw = true ∧ bit (s.rg (Adr.TILE_CTRL t)) 0 = false ∧
      Runs (.tileEnable src t) s fun _ => True) ∧
    (∃ s src t, s.takes src (Adr.TILE_CTRL t) .rw = true ∧ bit (s.rg (Adr.TILE_CTRL t)) 0 = true ∧ s.tileHolds t = true ∧
      Runs (.tileDisable src t) s fun _ => True) ∧
    (∃ s src t, s.takes src (Adr.TILE_CTRL t) .rw = true ∧ s.tileHolds t = false ∧
      Runs (.tileDisable src t) s fun _ => True) ∧
    (∃ s src t v u d j w, s.takes src (Adr.TILE_HOST_SUBMIT_HI t) .rw = true ∧
      u = s.commitPair src (Adr.TILE_HOST_SUBMIT_LO t) v ∧ d = u.descAt (u.rg64 (Adr.TILE_HOST_SUBMIT_LO t)) ∧
      u.activeSlot (dFjid d) = some j ∧ (dTile d = t ∨ dTile d = 15) ∧ u.submit j d = (.queued, w) ∧
      Runs (.hostSubmit src t v) s fun _ => True) ∧
    (∃ s src t v u d j w, s.takes src (Adr.TILE_HOST_SUBMIT_HI t) .rw = true ∧
      u = s.commitPair src (Adr.TILE_HOST_SUBMIT_LO t) v ∧ d = u.descAt (u.rg64 (Adr.TILE_HOST_SUBMIT_LO t)) ∧
      u.activeSlot (dFjid d) = some j ∧ (dTile d = t ∨ dTile d = 15) ∧ u.submit j d = (.busy, w) ∧
      Runs (.hostSubmit src t v) s fun _ => True) ∧
    (∃ s src t v u d, s.takes src (Adr.TILE_HOST_SUBMIT_HI t) .rw = true ∧
      u = s.commitPair src (Adr.TILE_HOST_SUBMIT_LO t) v ∧ d = u.descAt (u.rg64 (Adr.TILE_HOST_SUBMIT_LO t)) ∧
      u.activeSlot (dFjid d) = none ∧ Runs (.hostSubmit src t v) s fun _ => True) ∧
    (∃ s src t v u d, ∃ j, s.takes src (Adr.TILE_HOST_SUBMIT_HI t) .rw = true ∧
      u = s.commitPair src (Adr.TILE_HOST_SUBMIT_LO t) v ∧ d = u.descAt (u.rg64 (Adr.TILE_HOST_SUBMIT_LO t)) ∧
      u.activeSlot (dFjid d) = some j ∧ dTile d ≠ t ∧ dTile d ≠ 15 ∧ Runs (.hostSubmit src t v) s fun _ => True) :=
  ⟨⟨((job.modTile fun u => { u with wins := [(7 * 1024 + 1, some (0, 4))] }).setRg (Adr.TILE_HL_ARG 7) 4860), .host, 7, 0,
     4, 764, by first | decide +kernel | exact okIs (by decide +kernel) | exact rfl,
     by first | decide +kernel | exact okIs (by decide +kernel) | exact rfl,
     by first | decide +kernel | exact okIs (by decide +kernel) | exact rfl,
     by first | decide +kernel | exact okIs (by decide +kernel) | exact rfl,
     by first | decide +kernel | exact okIs (by decide +kernel) | exact rfl,
     by first | decide +kernel | exact okIs (by decide +kernel) | exact rfl,
     by first | decide +kernel | exact okIs (by decide +kernel) | exact rfl,
     by first | decide +kernel | exact okIs (by decide +kernel) | exact rfl,
     by first | decide +kernel | exact okIs (by decide +kernel) | exact rfl, ⟨_, rfl, trivial⟩⟩,
   ⟨((job.modTile fun u => { u with wins := [(7 * 1024 + 1, some (0, 4))] }).setRg (Adr.TILE_HL_ARG 7) 3836), .host, 7, 0,
     3, 764, by first | decide +kernel | exact okIs (by decide +kernel) | exact rfl,
     by first | decide +kernel | exact okIs (by decide +kernel) | exact rfl,
     by first | decide +kernel | exact okIs (by decide +kernel) | exact rfl,
     by first | decide +kernel | exact okIs (by decide +kernel) | exact rfl,
     by first | decide +kernel | exact okIs (by decide +kernel) | exact rfl,
     by first | decide +kernel | exact okIs (by decide +kernel) | exact rfl,
     by first | decide +kernel | exact okIs (by decide +kernel) | exact rfl, ⟨_, rfl, trivial⟩⟩,
   ⟨(run.modTile fun u => { u with hlCmd := [(7, some (3, 0, 768))] }), 7, 3, 0, 768,
     by first | decide +kernel | exact okIs (by decide +kernel) | exact rfl, ⟨_, rfl, trivial⟩⟩,
   ⟨(run.modTile fun u => { u with wins := [(7 * 1024, some (0, 4))] }), .host, 7, 0, (0, 4),
     by first | decide +kernel | exact okIs (by decide +kernel) | exact rfl,
     by first | decide +kernel | exact okIs (by decide +kernel) | exact rfl,
     by first | decide +kernel | exact okIs (by decide +kernel) | exact rfl,
     by first | decide +kernel | exact okIs (by decide +kernel) | exact rfl,
     by first | decide +kernel | exact okIs (by decide +kernel) | exact rfl, ⟨_, rfl, trivial⟩⟩,
   ⟨run, .host, 7, 0, by first | decide +kernel | exact okIs (by decide +kernel) | exact rfl,
     by first | decide +kernel | exact okIs (by decide +kernel) | exact rfl,
     by first | decide +kernel | exact okIs (by decide +kernel) | exact rfl,
     by first | decide +kernel | exact okIs (by decide +kernel) | exact rfl, ⟨_, rfl, trivial⟩⟩,
   ⟨(run.modTile fun u => { u with wins := [(7 * 1024, some (0, 4))] }), .host, 7,
     by first | decide +kernel | exact okIs (by decide +kernel) | exact rfl,
     by first | decide +kernel | exact okIs (by decide +kernel) | exact rfl, ⟨_, rfl, trivial⟩⟩,
   ⟨((run.setRg (Adr.TILE_CTRL 7) 1).modTile fun u => { u with queue := [({ id := 1, tile := 7 } : Desc)] }), .host, 7,
     by first | decide +kernel | exact okIs (by decide +kernel) | exact rfl,
     by first | decide +kernel | exact okIs (by decide +kernel) | exact rfl,
     by first | decide +kernel | exact okIs (by decide +kernel) | exact rfl, ⟨_, rfl, trivial⟩⟩,
   ⟨run, .host, 7, by first | decide +kernel | exact okIs (by decide +kernel) | exact rfl,
     by first | decide +kernel | exact okIs (by decide +kernel) | exact rfl, ⟨_, rfl, trivial⟩⟩,
   ⟨((job.setBarnNum 0x70000 128 (5 * 2 ^ 228)).setRg (Adr.TILE_HOST_SUBMIT_LO 0) 0x70000), .host, 0, 0, _, _, 0, _,
     by first | decide +kernel | exact okIs (by decide +kernel) | exact rfl, rfl, rfl,
     by first | decide +kernel | exact okIs (by decide +kernel) | exact rfl, by decide +kernel, pairOf (by decide +kernel),
     ⟨_, rfl, trivial⟩⟩,
   ⟨(((job.setRg (Adr.JOB_TILE_CFG 0) 1).setBarnNum 0x70000 128 (5 * 2 ^ 228)).setRg (Adr.TILE_HOST_SUBMIT_LO 0) 0x70000),
     .host, 0, 0, _, _, 0, _, by first | decide +kernel | exact okIs (by decide +kernel) | exact rfl, rfl, rfl,
     by first | decide +kernel | exact okIs (by decide +kernel) | exact rfl, by decide +kernel, pairOf (by decide +kernel),
     ⟨_, rfl, trivial⟩⟩,
   ⟨((job.setBarnNum 0x70000 128 (6 * 2 ^ 228)).setRg (Adr.TILE_HOST_SUBMIT_LO 0) 0x70000), .host, 0, 0, _, _,
     by first | decide +kernel | exact okIs (by decide +kernel) | exact rfl, rfl, rfl,
     by first | decide +kernel | exact okIs (by decide +kernel) | exact rfl, ⟨_, rfl, trivial⟩⟩,
   ⟨((job.setBarnNum 0x70000 128 (5 * 2 ^ 228 + 2 ^ 224)).setRg (Adr.TILE_HOST_SUBMIT_LO 0) 0x70000), .host, 0, 0, _, _, 0,
     by first | decide +kernel | exact okIs (by decide +kernel) | exact rfl, rfl, rfl,
     by first | decide +kernel | exact okIs (by decide +kernel) | exact rfl,
     by first | decide +kernel | exact okIs (by decide +kernel) | exact rfl,
     by first | decide +kernel | exact okIs (by decide +kernel) | exact rfl, ⟨_, rfl, trivial⟩⟩⟩

theorem witness_DescriptorRuns :
    (∃ s t e, t < 8 ∧ s.tile.held.get t = false ∧ s.tileOn t = true ∧ s.nextHead t = some e ∧
      Runs (.descStart t) s fun _ => True) ∧
    (∃ s p k c u id n i, s.unitTag k = some (.tile id n i) ∧ s.takeLocal p k = (c, u) ∧ k.rspStatus = 0 ∧
      Runs (.tileFabricRsp p k) s fun _ => True) ∧
    (∃ s p k c u id n i, s.unitTag k = some (.tile id n i) ∧ s.takeLocal p k = (c, u) ∧ k.rspStatus ≠ 0 ∧
      Runs (.tileFabricRsp p k) s fun _ => True) ∧
    (∃ s p k c u t j f n, s.unitTag k = some (.tileCpl t j f (some n)) ∧ s.takeLocal p k = (c, u) ∧ k.rspStatus = 0 ∧
      Runs (.descCplRsp p k) s fun _ => True) ∧
    (∃ s p k c u t j f n, s.unitTag k = some (.tileCpl t j f n) ∧ s.takeLocal p k = (c, u) ∧ k.rspStatus ≠ 0 ∧
      Runs (.descCplRsp p k) s fun _ => True) :=
  ⟨⟨(job.modTile fun u => { u with queue := [{ id := 1, tile := 0, slot := 0, desc := (5 * 2 ^ 228) }] }), 0, ({ id := 1, tile := 0, slot := 0, desc := (5 * 2 ^ 228) } : Desc),
     by first | decide +kernel | exact okIs (by decide +kernel) | exact rfl,
     by first | decide +kernel | exact okIs (by decide +kernel) | exact rfl,
     by first | decide +kernel | exact okIs (by decide +kernel) | exact rfl,
     by first | decide +kernel | exact okIs (by decide +kernel) | exact rfl, ⟨_, rfl, trivial⟩⟩,
   ⟨(got 0 (mkPkt 9 (7 * 2 ^ 16) 9 8 0 false (leBytes 16 (0 * 2 ^ 60 + 64 * 2 ^ 47) ++ List.replicate 64 1)) ((job.setTag 7 (some { target := 513, owner := .tile 5 0 0 })).setRun 5 (some { desc := 5 * 2 ^ 228, slot := some 0, fjid := 5, open_ := [(0, some 0)] }))),
     0, (mkPkt 9 (7 * 2 ^ 16) 9 8 0 false (leBytes 16 (0 * 2 ^ 60 + 64 * 2 ^ 47) ++ List.replicate 64 1)), some 1, _, 5, 0,
     0, by first | decide +kernel | exact okIs (by decide +kernel) | exact rfl, pairOf (by decide +kernel),
     by first | decide +kernel | exact okIs (by decide +kernel) | exact rfl, ⟨_, rfl, trivial⟩⟩,
   ⟨(got 0 (mkPkt 9 (7 * 2 ^ 16) 9 8 0 false (leBytes 16 (1 * 2 ^ 60 + 0 * 2 ^ 47) ++ List.replicate 0 1)) ((job.setTag 7 (some { target := 513, owner := .tile 5 0 0 })).setRun 5 (some { desc := 5 * 2 ^ 228, slot := some 0, fjid := 5, open_ := [(0, some 0)] }))),
     0, (mkPkt 9 (7 * 2 ^ 16) 9 8 0 false (leBytes 16 (1 * 2 ^ 60 + 0 * 2 ^ 47) ++ List.replicate 0 1)), some 1, _, 5, 0, 0,
     by first | decide +kernel | exact okIs (by decide +kernel) | exact rfl, pairOf (by decide +kernel),
     by first | decide +kernel | exact okIs (by decide +kernel) | exact rfl, ⟨_, rfl, trivial⟩⟩,
   ⟨(got 0 (mkPkt 9 (7 * 2 ^ 16) 9 8 0 false (leBytes 16 (0 * 2 ^ 60 + 0 * 2 ^ 47) ++ List.replicate 0 1)) (job.setTag 7 (some { target := 513, owner := .tileCpl 7 0 5 (some 3) }))),
     0, (mkPkt 9 (7 * 2 ^ 16) 9 8 0 false (leBytes 16 (0 * 2 ^ 60 + 0 * 2 ^ 47) ++ List.replicate 0 1)), some 1, _, 7, 0, 5,
     3, by first | decide +kernel | exact okIs (by decide +kernel) | exact rfl, pairOf (by decide +kernel),
     by first | decide +kernel | exact okIs (by decide +kernel) | exact rfl, ⟨_, rfl, trivial⟩⟩,
   ⟨(got 0 (mkPkt 9 (7 * 2 ^ 16) 9 8 0 false (leBytes 16 (3 * 2 ^ 60 + 0 * 2 ^ 47) ++ List.replicate 0 1)) (job.setTag 7 (some { target := 513, owner := .tileCpl 7 0 5 (some 3) }))),
     0, (mkPkt 9 (7 * 2 ^ 16) 9 8 0 false (leBytes 16 (3 * 2 ^ 60 + 0 * 2 ^ 47) ++ List.replicate 0 1)), some 1, _, 7, 0, 5,
     (some 3), by first | decide +kernel | exact okIs (by decide +kernel) | exact rfl, pairOf (by decide +kernel),
     by first | decide +kernel | exact okIs (by decide +kernel) | exact rfl, ⟨_, rfl, trivial⟩⟩⟩

theorem witness_KvPoolsAndSequences :
    (∃ s src p, s.takes src (Adr.KVPOOL_CTRL p) .wo = true ∧ (s.pool p).st = .off ∧ s.poolOk p = true ∧
      ((∀ w ∈ s.poolStructs p, w.1 + w.2 ≤ barnSize)) ∧ someMeet (s.poolStructs p) = false ∧ ((∀ w ∈ s.poolStructs p, ∀ k,
      k < 16 → k ≠ p → (s.pool k).st ≠ .off → ∀ x ∈ s.poolStructs k, runsMeet w x = false)) ∧
      Runs (.kvPoolEnable src p) s fun _ => True) ∧
    (∃ s src p, s.takes src (Adr.KVPOOL_CTRL p) .wo = true ∧ (s.pool p).st = .off ∧ s.poolOk p = false ∧
      Runs (.kvPoolEnable src p) s fun _ => True) ∧
    (∃ s src p, s.takes src (Adr.KVPOOL_CTRL p) .wo = true ∧ (s.pool p).st = .failed ∧
      Runs (.kvPoolEnable src p) s fun _ => True) ∧
    (∃ s p, (s.pool p).st = .init ∧ Runs (.kvPoolInitDone p) s fun _ => True) ∧
    (∃ s src p, s.takes src (Adr.KVPOOL_CTRL p) .wo = true ∧ (s.pool p).st = .ready ∧ s.poolSeqs p = [] ∧
      Runs (.kvPoolDisable src p) s fun _ => True) ∧
    (∃ s src p, s.takes src (Adr.KVPOOL_CTRL p) .wo = true ∧ (s.pool p).st = .ready ∧ s.poolSeqs p ≠ [] ∧
      Runs (.kvPoolDisable src p) s fun _ => True) ∧
    (∃ s src p, s.takes src (Adr.KVPOOL_CTRL p) .wo = true ∧ (s.pool p).st = .failed ∧
      Runs (.kvPoolReset src p) s fun _ => True) ∧
    (∃ s src q p b u, s.takes src Adr.KVSEQ_CMD .wo = true ∧ q < 262144 ∧ p = s.rf Adr.KVSEQ_CMD_ARG 27 24 ∧
      (s.seq q).st = 0 ∧ (s.pool p).st = .ready ∧ s.rf Adr.KVSEQ_CMD_ARG 22 0 ≤ 4194304 ∧ s.takeBlk p = (some b, u) ∧
      Runs (.kvSeqCreate src q) s fun _ => True) ∧
    (∃ s src q, s.takes src Adr.KVSEQ_CMD .wo = true ∧ q < 262144 ∧ ((s.seq q).st = 1 ∨ (s.seq q).st = 3) ∧
      Runs (.kvSeqDestroy src q) s fun _ => True) ∧
    (∃ s src q, s.takes src Adr.KVSEQ_CMD .wo = true ∧ q < 262144 ∧ (s.seq q).st = 1 ∧
      s.rf (Adr.KVPOOL_SWAP_SLOTS (s.seq q).pool) 28 0 ≠ 0 ∧ Runs (.kvSeqPreempt src q) s fun _ => True) ∧
    (∃ s src q, s.takes src Adr.KVSEQ_CMD .wo = true ∧ q < 262144 ∧ (s.seq q).st = 3 ∧
      Runs (.kvSeqResume src q) s fun _ => True) ∧
    (∃ s src q, s.takes src Adr.KVSEQ_CMD .wo = true ∧ q < 262144 ∧ (s.seq q).st ≠ 0 ∧
      Runs (.kvSeqCreate src q) s fun _ => True) ∧
    (∃ s src q, s.takes src Adr.KVSEQ_CMD .wo = true ∧ q < 262144 ∧ (s.seq q).st ≠ 1 ∧ (s.seq q).st ≠ 3 ∧
      Runs (.kvSeqDestroy src q) s fun _ => True) ∧
    (∃ s src q, s.takes src Adr.KVSEQ_CMD .wo = true ∧ q < 262144 ∧ (s.seq q).st ≠ 1 ∧
      Runs (.kvSeqPreempt src q) s fun _ => True) ∧
    (∃ s src q, s.takes src Adr.KVSEQ_CMD .wo = true ∧ q < 262144 ∧ (s.seq q).st ≠ 3 ∧
      Runs (.kvSeqResume src q) s fun _ => True) ∧
    (∃ s q id r x u st m,
      (s.tile.runs.find? fun e => match e.2 with | some r => r.kind != .desc && r.desc == q | none => false) = some (id,
      some r) ∧ u = (s.kvPass id).drive id ∧ u.run id = some x ∧ x.fin = some (st, m) ∧
      Runs (.kvSeqWorkDone q) s fun _ => True) ∧
    (∃ s p x cons q, p < 16 ∧ x = s.pool p ∧ x.st = .ready ∧ x.autoOn = true ∧ x.auto = none ∧
      cons = s.rf (Adr.KVPOOL_VICTIM_CONS p) 11 0 ∧ x.free < s.rf (Adr.KVPOOL_HIGH p) 28 0 ∧
      cons ≠ s.rf (Adr.KVPOOL_VICTIM_PROD p) 11 0 ∧
      q = s.barnNum (s.rg64 (Adr.KVPOOL_VICTIM_BASE_LO p) + 4 * cons) 4 % 262144 ∧ (s.seq q).st = 1 ∧ (s.seq q).pool = p ∧
      s.rf (Adr.KVPOOL_SWAP_SLOTS p) 28 0 ≠ 0 ∧ Runs (.kvAutoPreempt p) s fun _ => True) :=
  ⟨⟨(((((((job.setRg (Adr.KVPOOL_FJID 0) 5).setRg (Adr.KVPOOL_GEOM 0) 0x11040000).setRg (Adr.KVPOOL_PAGES 0) 1).setRg (Adr.KVPOOL_TBL_COUNT 0) 1).setRg (Adr.KVPOOL_HDR_BASE_LO 0) 0x100000).setRg (Adr.KVPOOL_TBL_BASE_LO 0) 0x101000).setRg (Adr.KVPOOL_VICTIM_BASE_LO 0) 0x110000),
     .host, 0, by first | decide +kernel | exact okIs (by decide +kernel) | exact rfl,
     by first | decide +kernel | exact okIs (by decide +kernel) | exact rfl,
     by first | decide +kernel | exact okIs (by decide +kernel) | exact rfl,
     by first | decide +kernel | exact okIs (by decide +kernel) | exact rfl,
     by first | decide +kernel | exact okIs (by decide +kernel) | exact rfl,
     by first | decide +kernel | exact okIs (by decide +kernel) | exact rfl, ⟨_, rfl, trivial⟩⟩,
   ⟨run, .host, 15, by first | decide +kernel | exact okIs (by decide +kernel) | exact rfl,
     by first | decide +kernel | exact okIs (by decide +kernel) | exact rfl,
     by first | decide +kernel | exact okIs (by decide +kernel) | exact rfl, ⟨_, rfl, trivial⟩⟩,
   ⟨(run.setPool 15 { st := .failed }), .host, 15, by first | decide +kernel | exact okIs (by decide +kernel) | exact rfl,
     by first | decide +kernel | exact okIs (by decide +kernel) | exact rfl, ⟨_, rfl, trivial⟩⟩,
   ⟨(run.setPool 15 { st := .init }), 15, by first | decide +kernel | exact okIs (by decide +kernel) | exact rfl, ⟨_, rfl,
     trivial⟩⟩,
   ⟨(run.setPool 15 { st := .ready }), .host, 15, by first | decide +kernel | exact okIs (by decide +kernel) | exact rfl,
     by first | decide +kernel | exact okIs (by decide +kernel) | exact rfl,
     by first | decide +kernel | exact okIs (by decide +kernel) | exact rfl, ⟨_, rfl, trivial⟩⟩,
   ⟨((run.setPool 15 { st := .ready }).setSeq 262143 { st := 1, pool := 15 }), .host, 15,
     by first | decide +kernel | exact okIs (by decide +kernel) | exact rfl,
     by first | decide +kernel | exact okIs (by decide +kernel) | exact rfl,
     by first | decide +kernel | exact okIs (by decide +kernel) | exact rfl, ⟨_, rfl, trivial⟩⟩,
   ⟨((run.setPool 15 { st := .failed }).setSeq 262143 { st := 1, pool := 15 }), .host, 15,
     by first | decide +kernel | exact okIs (by decide +kernel) | exact rfl,
     by first | decide +kernel | exact okIs (by decide +kernel) | exact rfl, ⟨_, rfl, trivial⟩⟩,
   ⟨((run.setPool 0 { st := .ready, tblHead := some 0, freeTbl := 1 }).setRg Adr.KVSEQ_CMD_ARG 0x400000), .host, 262143, 0,
     0, _, by first | decide +kernel | exact okIs (by decide +kernel) | exact rfl,
     by first | decide +kernel | exact okIs (by decide +kernel) | exact rfl,
     by first | decide +kernel | exact okIs (by decide +kernel) | exact rfl,
     by first | decide +kernel | exact okIs (by decide +kernel) | exact rfl,
     by first | decide +kernel | exact okIs (by decide +kernel) | exact rfl,
     by first | decide +kernel | exact okIs (by decide +kernel) | exact rfl, pairOf (by decide +kernel), ⟨_, rfl, trivial⟩⟩,
   ⟨(((run.setPool 0 { st := .ready, tblHead := some 0, freeTbl := 1 }).setRg Adr.KVSEQ_CMD_ARG 0x400000).setSeq 262143 { st := 1, pool := 0 }),
     .host, 262143, by first | decide +kernel | exact okIs (by decide +kernel) | exact rfl,
     by first | decide +kernel | exact okIs (by decide +kernel) | exact rfl, by decide +kernel, ⟨_, rfl, trivial⟩⟩,
   ⟨((((run.setPool 0 { st := .ready, tblHead := some 0, freeTbl := 1 }).setRg Adr.KVSEQ_CMD_ARG 0x400000).setSeq 262143 { st := 1, pool := 0 }).setRg (Adr.KVPOOL_SWAP_SLOTS 0) 1),
     .host, 262143, by first | decide +kernel | exact okIs (by decide +kernel) | exact rfl,
     by first | decide +kernel | exact okIs (by decide +kernel) | exact rfl,
     by first | decide +kernel | exact okIs (by decide +kernel) | exact rfl,
     by first | decide +kernel | exact okIs (by decide +kernel) | exact rfl, ⟨_, rfl, trivial⟩⟩,
   ⟨(((run.setPool 0 { st := .ready, tblHead := some 0, freeTbl := 1 }).setRg Adr.KVSEQ_CMD_ARG 0x400000).setSeq 262143 { st := 3, pool := 0 }),
     .host, 262143, by first | decide +kernel | exact okIs (by decide +kernel) | exact rfl,
     by first | decide +kernel | exact okIs (by decide +kernel) | exact rfl,
     by first | decide +kernel | exact okIs (by decide +kernel) | exact rfl, ⟨_, rfl, trivial⟩⟩,
   ⟨(((run.setPool 0 { st := .ready, tblHead := some 0, freeTbl := 1 }).setRg Adr.KVSEQ_CMD_ARG 0x400000).setSeq 262143 { st := 1, pool := 0 }),
     .host, 262143, by first | decide +kernel | exact okIs (by decide +kernel) | exact rfl,
     by first | decide +kernel | exact okIs (by decide +kernel) | exact rfl,
     by first | decide +kernel | exact okIs (by decide +kernel) | exact rfl, ⟨_, rfl, trivial⟩⟩,
   ⟨(((run.setPool 0 { st := .ready, tblHead := some 0, freeTbl := 1 }).setRg Adr.KVSEQ_CMD_ARG 0x400000).setSeq 262143 { st := 2, pool := 0 }),
     .host, 262143, by first | decide +kernel | exact okIs (by decide +kernel) | exact rfl,
     by first | decide +kernel | exact okIs (by decide +kernel) | exact rfl,
     by first | decide +kernel | exact okIs (by decide +kernel) | exact rfl,
     by first | decide +kernel | exact okIs (by decide +kernel) | exact rfl, ⟨_, rfl, trivial⟩⟩,
   ⟨(((run.setPool 0 { st := .ready, tblHead := some 0, freeTbl := 1 }).setRg Adr.KVSEQ_CMD_ARG 0x400000).setSeq 262143 { st := 2, pool := 0 }),
     .host, 262143, by first | decide +kernel | exact okIs (by decide +kernel) | exact rfl,
     by first | decide +kernel | exact okIs (by decide +kernel) | exact rfl,
     by first | decide +kernel | exact okIs (by decide +kernel) | exact rfl, ⟨_, rfl, trivial⟩⟩,
   ⟨(((run.setPool 0 { st := .ready, tblHead := some 0, freeTbl := 1 }).setRg Adr.KVSEQ_CMD_ARG 0x400000).setSeq 262143 { st := 1, pool := 0 }),
     .host, 262143, by first | decide +kernel | exact okIs (by decide +kernel) | exact rfl,
     by first | decide +kernel | exact okIs (by decide +kernel) | exact rfl,
     by first | decide +kernel | exact okIs (by decide +kernel) | exact rfl, ⟨_, rfl, trivial⟩⟩,
   ⟨((((run.setPool 0 { st := .ready, tblHead := some 0, freeTbl := 1 }).setRg Adr.KVSEQ_CMD_ARG 0x400000).setSeq 3 { st := 4, pool := 0 }).setRun 7 (some { kind := .resume, desc := 3, fin := some (0, 0) })),
     3, 7, ({ kind := .resume, desc := 3, fin := some (0, 0) } : Run), ({ kind := .resume, desc := 3, fin := some (0, 0) } : Run),
     _, 0, 0, by first | decide +kernel | exact okIs (by decide +kernel) | exact rfl, rfl,
     by first | decide +kernel | exact okIs (by decide +kernel) | exact rfl,
     by first | decide +kernel | exact okIs (by decide +kernel) | exact rfl, ⟨_, rfl, trivial⟩⟩,
   ⟨((((((run.setPool 0 { st := .ready, autoOn := true, free := 1 }).setSeq 0 { st := 1, pool := 0 }).setRg (Adr.KVPOOL_HIGH 0) 2).setRg (Adr.KVPOOL_VICTIM_PROD 0) 1).setRg (Adr.KVPOOL_SWAP_SLOTS 0) 1).setRg (Adr.KVPOOL_VICTIM_BASE_LO 0) 0x110000),
     0, ({ st := .ready, autoOn := true, free := 1 } : KvPool), 0, 0,
     by first | decide +kernel | exact okIs (by decide +kernel) | exact rfl,
     by first | decide +kernel | exact okIs (by decide +kernel) | exact rfl,
     by first | decide +kernel | exact okIs (by decide +kernel) | exact rfl,
     by first | decide +kernel | exact okIs (by decide +kernel) | exact rfl,
     by first | decide +kernel | exact okIs (by decide +kernel) | exact rfl,
     by first | decide +kernel | exact okIs (by decide +kernel) | exact rfl,
     by first | decide +kernel | exact okIs (by decide +kernel) | exact rfl,
     by first | decide +kernel | exact okIs (by decide +kernel) | exact rfl,
     by first | decide +kernel | exact okIs (by decide +kernel) | exact rfl,
     by first | decide +kernel | exact okIs (by decide +kernel) | exact rfl,
     by first | decide +kernel | exact okIs (by decide +kernel) | exact rfl,
     by first | decide +kernel | exact okIs (by decide +kernel) | exact rfl, ⟨_, rfl, trivial⟩⟩⟩

theorem witness_KvPageManager :
    (∃ s id r, ∃ x, x ∈ [(Instr.kvAppend id, 0), (.kvFork id, 1), (.kvClear id, 2)] ∧ s.run id = some r ∧ r.kind = .desc ∧
      dOpcode r.desc = 0x51 ∧ dpar r.desc 255 254 = x.2 ∧ Runs x.1 s fun _ => True) ∧
    (∃ s p, s.kv.flip = false ∧ p < 16 ∧ ((s.pool p).defHead s.kv.epoch).isSome = true ∧ Runs .kvEpochFlip s fun _ => True) ∧
    (∃ s, s.kv.flip = true ∧ ((∀ t, t < 8 → s.kv.counts.get (2 * t + b2n (!s.kv.epoch)) = 0)) ∧
      Runs .kvEpochEnd s fun _ => True) ∧
    (∃ s, s.decodePair.1 = s.decodePair.2 ∧ ((∀ p, p < 16 → (s.pool p).st = .ready → ∀ w ∈ s.poolWalk p, w.1 = w.2)) ∧
      Runs .kvWalkEnd s fun _ => True) ∧
    (∃ s p w, p < 16 ∧ ((∀ k, k < p → (s.pool k).st ≠ .ready)) ∧ ((∀ k, p < k → (s.pool k).st ≠ .ready)) ∧
      (s.pool p).st = .ready ∧ (s.poolWalk p).find? (fun w => w.1 != w.2) = some w ∧ Runs .kvWalkEnd s fun _ => True) :=
  ⟨⟨(job.setRun 7 (some { kind := .desc, desc := 0x51 * 2 ^ 248 + 2 * 2 ^ 1022, slot := some 0, fjid := 5 })), 7,
     ({ kind := .desc, desc := 0x51 * 2 ^ 248 + 2 * 2 ^ 1022, slot := some 0, fjid := 5 } : Run), (Instr.kvClear 7, 2),
     by first | decide +kernel | exact okIs (by decide +kernel) | exact rfl,
     by first | decide +kernel | exact okIs (by decide +kernel) | exact rfl,
     by first | decide +kernel | exact okIs (by decide +kernel) | exact rfl,
     by first | decide +kernel | exact okIs (by decide +kernel) | exact rfl,
     by first | decide +kernel | exact okIs (by decide +kernel) | exact rfl, ⟨_, rfl, trivial⟩⟩,
   ⟨(run.setPool 15 { defHead0 := some 0 }), 15, by first | decide +kernel | exact okIs (by decide +kernel) | exact rfl,
     by first | decide +kernel | exact okIs (by decide +kernel) | exact rfl,
     by first | decide +kernel | exact okIs (by decide +kernel) | exact rfl, ⟨_, rfl, trivial⟩⟩,
   ⟨(run.modKv fun k => { k with flip := true }), by first | decide +kernel | exact okIs (by decide +kernel) | exact rfl,
     by first | decide +kernel | exact okIs (by decide +kernel) | exact rfl, ⟨_, rfl, trivial⟩⟩,
   ⟨(run.setPool 15 { st := .ready }), by first | decide +kernel | exact okIs (by decide +kernel) | exact rfl,
     by first | decide +kernel | exact okIs (by decide +kernel) | exact rfl, ⟨_, rfl, trivial⟩⟩,
   ⟨(run.setPool 15 { st := .ready, free := 1 }), 15, (0, 1),
     by first | decide +kernel | exact okIs (by decide +kernel) | exact rfl,
     by first | decide +kernel | exact okIs (by decide +kernel) | exact rfl, fun k hk => by
    show (Tbl.get [(15,
     ({ st := .ready, free := 1 } : KvPool))] k).st ≠ _
    rw [Tbl.get,
     if_neg (by omega)]
    show PoolSt.off ≠ PoolSt.ready; decide,
     by first | decide +kernel | exact okIs (by decide +kernel) | exact rfl,
     by first | decide +kernel | exact okIs (by decide +kernel) | exact rfl, ⟨_, rfl, trivial⟩⟩⟩

theorem witness_ModeChange :
    (∃ s src, s.takes src Adr.SEC_CMD .wo = true ∧ s.sec.busy = false ∧ s.sec.mode = .shared ∧ s.quiet = true ∧
      s.pwr.pstate ≠ .saving ∧ s.imageNo = 1 ∧ s.sec.sealedOk = true ∧ s.rf Adr.FUSE_MODE_CHANGES 7 0 ≠ 255 ∧
      s.domOn 31 = true ∧ s.sec.dbg ≠ 2 ∧ Runs (.modeSealed src) s fun _ => True) ∧
    (∃ s src, s.takes src Adr.SEC_CMD .wo = true ∧ s.sec.busy = false ∧ s.sec.mode ≠ .shared ∧
      Runs (.modeSealed src) s fun _ => True) ∧
    (∃ s src, s.takes src Adr.SEC_CMD .wo = true ∧ s.sec.busy = false ∧ s.sec.mode = .shared ∧
      (s.quiet = false ∨ s.pwr.pstate = .saving) ∧ Runs (.modeSealed src) s fun _ => True) ∧
    (∃ s src, s.takes src Adr.SEC_CMD .wo = true ∧ s.sec.busy = false ∧ s.sec.mode = .shared ∧ s.quiet = true ∧
      s.pwr.pstate ≠ .saving ∧ (s.imageNo ≠ 1 ∨ s.sec.sealedOk = false) ∧ Runs (.modeSealed src) s fun _ => True) ∧
    (∃ s src, s.takes src Adr.SEC_CMD .wo = true ∧ s.sec.busy = false ∧ s.sec.mode ≠ .sealed ∧
      Runs (.modeShared src) s fun _ => True) ∧
    (∃ s src, s.takes src Adr.SEC_CMD .wo = true ∧ s.sec.busy = false ∧ s.sec.mode = .sealed ∧
      (s.quiet = false ∨ s.pwr.pstate = .saving) ∧ Runs (.modeShared src) s fun _ => True) ∧
    (∃ s src, s.takes src Adr.SEC_CMD .wo = true ∧ s.sec.busy = false ∧ s.sec.mode = .sealed ∧ s.quiet = true ∧
      s.pwr.pstate ≠ .saving ∧ s.rf Adr.FUSE_MODE_CHANGES 7 0 ≠ 255 ∧ Runs (.modeShared src) s fun _ => True) ∧
    (∃ s b, s.Inv ∧ s.sec.fuse = some (.mode b) ∧ Runs (.fuseProgramDone true) s fun _ => True) ∧
    (∃ s f, s.sec.fuse = some f ∧ Runs (.fuseProgramDone false) s fun _ => True) ∧
    (∃ s, (s.sec.mode = .sealing ∨ s.sec.mode = .unsealing) ∧ s.barnOn = true ∧ Runs .scrubDone s fun _ => True) :=
  ⟨⟨((run.modHub fun h => { h with regs := ([(Adr.FUSE_MODE_CHANGES, 254), (Adr.SEC_STATUS, 0x100)] : List (Nat × Word)).foldl (fun t e => Tbl.ins t e.1 (some e.2)) [] }).modSec fun u => { u with sealedOk := true }),
     .host, by first | decide +kernel | exact okIs (by decide +kernel) | exact rfl,
     by first | decide +kernel | exact okIs (by decide +kernel) | exact rfl,
     by first | decide +kernel | exact okIs (by decide +kernel) | exact rfl,
     by first | decide +kernel | exact okIs (by decide +kernel) | exact rfl,
     by first | decide +kernel | exact okIs (by decide +kernel) | exact rfl,
     by first | decide +kernel | exact okIs (by decide +kernel) | exact rfl,
     by first | decide +kernel | exact okIs (by decide +kernel) | exact rfl,
     by first | decide +kernel | exact okIs (by decide +kernel) | exact rfl,
     by first | decide +kernel | exact okIs (by decide +kernel) | exact rfl,
     by first | decide +kernel | exact okIs (by decide +kernel) | exact rfl, ⟨_, rfl, trivial⟩⟩,
   ⟨(run.modSec fun u => { u with mode := .sealed }), .host,
     by first | decide +kernel | exact okIs (by decide +kernel) | exact rfl,
     by first | decide +kernel | exact okIs (by decide +kernel) | exact rfl,
     by first | decide +kernel | exact okIs (by decide +kernel) | exact rfl, ⟨_, rfl, trivial⟩⟩,
   ⟨job, .host, by first | decide +kernel | exact okIs (by decide +kernel) | exact rfl,
     by first | decide +kernel | exact okIs (by decide +kernel) | exact rfl,
     by first | decide +kernel | exact okIs (by decide +kernel) | exact rfl, Or.inl (by decide +kernel), ⟨_, rfl, trivial⟩⟩,
   ⟨(run.modSec fun u => { u with sealedOk := true }), .host,
     by first | decide +kernel | exact okIs (by decide +kernel) | exact rfl,
     by first | decide +kernel | exact okIs (by decide +kernel) | exact rfl,
     by first | decide +kernel | exact okIs (by decide +kernel) | exact rfl,
     by first | decide +kernel | exact okIs (by decide +kernel) | exact rfl,
     by first | decide +kernel | exact okIs (by decide +kernel) | exact rfl, Or.inl (by decide +kernel), ⟨_, rfl, trivial⟩⟩,
   ⟨run, .host, by first | decide +kernel | exact okIs (by decide +kernel) | exact rfl,
     by first | decide +kernel | exact okIs (by decide +kernel) | exact rfl,
     by first | decide +kernel | exact okIs (by decide +kernel) | exact rfl, ⟨_, rfl, trivial⟩⟩,
   ⟨(job.modSec fun u => { u with mode := .sealed }), .host,
     by first | decide +kernel | exact okIs (by decide +kernel) | exact rfl,
     by first | decide +kernel | exact okIs (by decide +kernel) | exact rfl,
     by first | decide +kernel | exact okIs (by decide +kernel) | exact rfl, Or.inl (by decide +kernel), ⟨_, rfl, trivial⟩⟩,
   ⟨((run.modHub fun h => { h with regs := ([(Adr.FUSE_MODE_CHANGES, 254), (Adr.SEC_STATUS, 0x100)] : List (Nat × Word)).foldl (fun t e => Tbl.ins t e.1 (some e.2)) [] }).modSec fun u => { u with mode := .sealed }),
     .host, by first | decide +kernel | exact okIs (by decide +kernel) | exact rfl,
     by first | decide +kernel | exact okIs (by decide +kernel) | exact rfl,
     by first | decide +kernel | exact okIs (by decide +kernel) | exact rfl,
     by first | decide +kernel | exact okIs (by decide +kernel) | exact rfl,
     by first | decide +kernel | exact okIs (by decide +kernel) | exact rfl,
     by first | decide +kernel | exact okIs (by decide +kernel) | exact rfl, ⟨_, rfl, trivial⟩⟩,
   ⟨(run.modSec fun u => { u with fuse := some (.mode true), mode := .shared, busy := true }), true, ⟨by decide +kernel,
     by decide +kernel⟩, by first | decide +kernel | exact okIs (by decide +kernel) | exact rfl, ⟨_, rfl, trivial⟩⟩,
   ⟨(run.modSec fun u => { u with fuse := some .epoch }), FuseOp.epoch,
     by first | decide +kernel | exact okIs (by decide +kernel) | exact rfl, ⟨_, rfl, trivial⟩⟩,
   ⟨(run.modSec fun u => { u with mode := .unsealing }),
     by first | decide +kernel | exact okIs (by decide +kernel) | exact rfl,
     by first | decide +kernel | exact okIs (by decide +kernel) | exact rfl, ⟨_, rfl, trivial⟩⟩⟩

theorem witness_DebugAccess :
    (∃ s src, s.takes src Adr.SEC_CMD .wo = true ∧ s.sec.busy = false ∧ (s.sec.mode = .shared ∨ s.sec.mode = .sealed) ∧
      s.pwr.pstate ≠ .saving ∧ s.domOn 31 = true ∧ Runs (.dbgApply src) s fun _ => True) ∧
    (∃ s src, s.takes src Adr.SEC_CMD .wo = true ∧ s.sec.busy = false ∧ (s.sec.mode = .shared ∨ s.sec.mode = .sealed) ∧
      s.pwr.pstate ≠ .saving ∧ s.domOn 31 = false ∧ Runs (.dbgApply src) s fun _ => True) ∧
    (∃ s src, s.takes src Adr.SEC_CMD .wo = true ∧ s.sec.busy = false ∧ s.pwr.pstate ≠ .saving ∧
      Runs (.dbgEnd src) s fun _ => True) ∧
    (∃ s src, s.takes src Adr.SEC_CMD .wo = true ∧ s.sec.busy = false ∧ s.pwr.pstate ≠ .saving ∧ s.domOn 31 = true ∧
      Runs (.dbgEpochAdvance src) s fun _ => True) ∧
    (∃ s src v, s.takes src Adr.FUSE_PROVISION .wo = true ∧ bit v 0 = true ∧ bit (s.rg Adr.FUSE_FUSE_STATUS) 0 = false ∧
      s.sec.mode = .shared ∧ s.sec.dbg = 0 ∧ s.sec.fuse = none ∧ Runs (.provisionBurn src v) s fun _ => True) ∧
    (∃ s, s.Inv ∧ s.sec.fuse = some .provision ∧ Runs (.fuseProgramDone true) s fun _ => True) ∧
    (∃ s, ∃ r, r ∈ [(Instr.jtagBypass, Jtag.bypass), (.jtagExtest, .extest), (.jtagExtestPulse, .extestPulse),
      (.jtagExtestTrain, .extestTrain)] ∧ Runs r.1 s fun _ => True) ∧
    (∃ s, ∃ r, r ∈ [(Instr.jtagIdcode, Jtag.idcode), (.jtagSamplePreload, .samplePreload), (.jtagInternalScan,
      .internalScan)] ∧ Runs r.1 s fun _ => True) ∧
    (∃ s k, s.pwr.pstate ≠ .saving ∧ s.live = true ∧ Runs (.jtagDbgToken k) s fun _ => True) :=
  ⟨⟨run, .host, by first | decide +kernel | exact okIs (by decide +kernel) | exact rfl,
     by first | decide +kernel | exact okIs (by decide +kernel) | exact rfl,
     by first | decide +kernel | exact okIs (by decide +kernel) | exact rfl,
     by first | decide +kernel | exact okIs (by decide +kernel) | exact rfl,
     by first | decide +kernel | exact okIs (by decide +kernel) | exact rfl, ⟨_, rfl, trivial⟩⟩,
   ⟨(run.modPwr fun p => { p with off := [(31, true)] }), .host,
     by first | decide +kernel | exact okIs (by decide +kernel) | exact rfl,
     by first | decide +kernel | exact okIs (by decide +kernel) | exact rfl,
     by first | decide +kernel | exact okIs (by decide +kernel) | exact rfl,
     by first | decide +kernel | exact okIs (by decide +kernel) | exact rfl,
     by first | decide +kernel | exact okIs (by decide +kernel) | exact rfl, ⟨_, rfl, trivial⟩⟩,
   ⟨run, .host, by first | decide +kernel | exact okIs (by decide +kernel) | exact rfl,
     by first | decide +kernel | exact okIs (by decide +kernel) | exact rfl,
     by first | decide +kernel | exact okIs (by decide +kernel) | exact rfl, ⟨_, rfl, trivial⟩⟩,
   ⟨run, .host, by first | decide +kernel | exact okIs (by decide +kernel) | exact rfl,
     by first | decide +kernel | exact okIs (by decide +kernel) | exact rfl,
     by first | decide +kernel | exact okIs (by decide +kernel) | exact rfl,
     by first | decide +kernel | exact okIs (by decide +kernel) | exact rfl, ⟨_, rfl, trivial⟩⟩,
   ⟨(run.modHub fun h => { h with regs := [(Adr.FUSE_FUSE_STATUS, some 0)] }), .host, 1,
     by first | decide +kernel | exact okIs (by decide +kernel) | exact rfl,
     by first | decide +kernel | exact okIs (by decide +kernel) | exact rfl,
     by first | decide +kernel | exact okIs (by decide +kernel) | exact rfl,
     by first | decide +kernel | exact okIs (by decide +kernel) | exact rfl,
     by first | decide +kernel | exact okIs (by decide +kernel) | exact rfl,
     by first | decide +kernel | exact okIs (by decide +kernel) | exact rfl, ⟨_, rfl, trivial⟩⟩,
   ⟨(run.modSec fun u => { u with fuse := some .provision }), ⟨by decide +kernel, by decide +kernel⟩,
     by first | decide +kernel | exact okIs (by decide +kernel) | exact rfl, ⟨_, rfl, trivial⟩⟩,
   ⟨run, (Instr.jtagExtest, Jtag.extest), by first | decide +kernel | exact okIs (by decide +kernel) | exact rfl, ⟨_, rfl,
     trivial⟩⟩,
   ⟨run, (Instr.jtagIdcode, Jtag.idcode), by first | decide +kernel | exact okIs (by decide +kernel) | exact rfl, ⟨_, rfl,
     trivial⟩⟩,
   ⟨run, [1, 2, 3, 4], by first | decide +kernel | exact okIs (by decide +kernel) | exact rfl,
     by first | decide +kernel | exact okIs (by decide +kernel) | exact rfl, ⟨_, rfl, trivial⟩⟩⟩

theorem witness_SpdmResponder :
    (∃ s, s.live = true ∧ s.pwr.pstate ≠ .saving ∧ s.domOn 31 = true ∧ Runs .getVersion s fun _ => True) ∧
    (∃ s, s.live = true ∧ s.pwr.pstate ≠ .saving ∧ s.domOn 31 = true ∧ 1 ≤ s.sec.negotiated ∧
      Runs .getCapabilities s fun _ => True) ∧
    (∃ s, s.live = true ∧ s.pwr.pstate ≠ .saving ∧ s.domOn 31 = true ∧ 2 ≤ s.sec.negotiated ∧
      Runs .negotiateAlgorithms s fun _ => True) ∧
    (∃ s, ∃ r, r ∈ [(Instr.getDigests, SpdmRsp.digests), (.getCertificate, .certificate), (.challenge, .challengeAuth)] ∧
      s.live = true ∧ s.pwr.pstate ≠ .saving ∧ s.domOn 31 = true ∧ 3 ≤ s.sec.negotiated ∧ Runs r.1 s fun _ => True) ∧
    (∃ s, ∃ i, s.live = true ∧ s.pwr.pstate ≠ .saving ∧ s.domOn 31 = true ∧ 3 ≤ s.sec.negotiated ∧ i < 4 ∧
      s.sec.sessions.get i = none ∧ ((∀ j, j < i → s.sec.sessions.get j ≠ none)) ∧ Runs .keyExchange s fun _ => True) ∧
    (∃ s, s.live = true ∧ s.pwr.pstate ≠ .saving ∧ s.domOn 31 = true ∧ 3 ≤ s.sec.negotiated ∧ ((∀ j,
      j < 4 → s.sec.sessions.get j ≠ none)) ∧ Runs .keyExchange s fun _ => True) ∧
    (∃ s, ∃ i r x, s.live = true ∧ s.pwr.pstate ≠ .saving ∧ s.domOn 31 = true ∧ s.sec.sessions.get i = some x ∧
      x.up = false ∧ Runs (.finish i r) s fun _ => True) ∧
    (∃ s, ∃ i x, s.live = true ∧ s.pwr.pstate ≠ .saving ∧ s.domOn 31 = true ∧ s.sec.sessions.get i = some x ∧ x.up = true ∧
      Runs (.keyUpdate i) s fun _ => True) ∧
    (∃ s, ∃ c, c ∈ [Instr.getVersion, .getDigests, .challenge, .keyExchange] ∧ s.live = true ∧ s.pwr.pstate ≠ .saving ∧
      s.domOn 31 = false ∧ Runs c s fun _ => True) :=
  ⟨⟨run, by first | decide +kernel | exact okIs (by decide +kernel) | exact rfl,
     by first | decide +kernel | exact okIs (by decide +kernel) | exact rfl,
     by first | decide +kernel | exact okIs (by decide +kernel) | exact rfl, ⟨_, rfl, trivial⟩⟩,
   ⟨(run.modSec fun u => { u with negotiated := 1 }),
     by first | decide +kernel | exact okIs (by decide +kernel) | exact rfl,
     by first | decide +kernel | exact okIs (by decide +kernel) | exact rfl,
     by first | decide +kernel | exact okIs (by decide +kernel) | exact rfl,
     by first | decide +kernel | exact okIs (by decide +kernel) | exact rfl, ⟨_, rfl, trivial⟩⟩,
   ⟨(run.modSec fun u => { u with negotiated := 2 }),
     by first | decide +kernel | exact okIs (by decide +kernel) | exact rfl,
     by first | decide +kernel | exact okIs (by decide +kernel) | exact rfl,
     by first | decide +kernel | exact okIs (by decide +kernel) | exact rfl,
     by first | decide +kernel | exact okIs (by decide +kernel) | exact rfl, ⟨_, rfl, trivial⟩⟩,
   ⟨(run.modSec fun u => { u with negotiated := 3 }), (Instr.challenge, SpdmRsp.challengeAuth),
     by first | decide +kernel | exact okIs (by decide +kernel) | exact rfl,
     by first | decide +kernel | exact okIs (by decide +kernel) | exact rfl,
     by first | decide +kernel | exact okIs (by decide +kernel) | exact rfl,
     by first | decide +kernel | exact okIs (by decide +kernel) | exact rfl,
     by first | decide +kernel | exact okIs (by decide +kernel) | exact rfl, ⟨_, rfl, trivial⟩⟩,
   ⟨(run.modSec fun u => { u with negotiated := 3, sessions := [(0, some {}), (1, some {}), (2, some {})] }), 3,
     by first | decide +kernel | exact okIs (by decide +kernel) | exact rfl,
     by first | decide +kernel | exact okIs (by decide +kernel) | exact rfl,
     by first | decide +kernel | exact okIs (by decide +kernel) | exact rfl,
     by first | decide +kernel | exact okIs (by decide +kernel) | exact rfl,
     by first | decide +kernel | exact okIs (by decide +kernel) | exact rfl,
     by first | decide +kernel | exact okIs (by decide +kernel) | exact rfl,
     by first | decide +kernel | exact okIs (by decide +kernel) | exact rfl, ⟨_, rfl, trivial⟩⟩,
   ⟨(run.modSec fun u => { u with negotiated := 3, sessions := [(0, some {}), (1, some {}), (2, some {}), (3, some {})] }),
     by first | decide +kernel | exact okIs (by decide +kernel) | exact rfl,
     by first | decide +kernel | exact okIs (by decide +kernel) | exact rfl,
     by first | decide +kernel | exact okIs (by decide +kernel) | exact rfl,
     by first | decide +kernel | exact okIs (by decide +kernel) | exact rfl,
     by first | decide +kernel | exact okIs (by decide +kernel) | exact rfl, ⟨_, rfl, trivial⟩⟩,
   ⟨(run.modSec fun u => { u with negotiated := 3, sessions := [(3, some {})] }), 3, (some 4), ({} : Session),
     by first | decide +kernel | exact okIs (by decide +kernel) | exact rfl,
     by first | decide +kernel | exact okIs (by decide +kernel) | exact rfl,
     by first | decide +kernel | exact okIs (by decide +kernel) | exact rfl,
     by first | decide +kernel | exact okIs (by decide +kernel) | exact rfl,
     by first | decide +kernel | exact okIs (by decide +kernel) | exact rfl, ⟨_, rfl, trivial⟩⟩,
   ⟨(run.modSec fun u => { u with sessions := [(3, some { up := true })] }), 3, ({ up := true } : Session),
     by first | decide +kernel | exact okIs (by decide +kernel) | exact rfl,
     by first | decide +kernel | exact okIs (by decide +kernel) | exact rfl,
     by first | decide +kernel | exact okIs (by decide +kernel) | exact rfl,
     by first | decide +kernel | exact okIs (by decide +kernel) | exact rfl,
     by first | decide +kernel | exact okIs (by decide +kernel) | exact rfl, ⟨_, rfl, trivial⟩⟩,
   ⟨(run.modPwr fun p => { p with off := [(31, true)] }), Instr.challenge,
     by first | decide +kernel | exact okIs (by decide +kernel) | exact rfl,
     by first | decide +kernel | exact okIs (by decide +kernel) | exact rfl,
     by first | decide +kernel | exact okIs (by decide +kernel) | exact rfl,
     by first | decide +kernel | exact okIs (by decide +kernel) | exact rfl, ⟨_, rfl, trivial⟩⟩⟩

theorem witness_KeyMessages :
    (∃ s i x g k, s.live = true ∧ s.pwr.pstate ≠ .saving ∧ s.domOn 31 = true ∧ s.sec.sessions.get i = some x ∧ x.up = true ∧
      s.sec.mode = .sealed ∧ g < 256 ∧ k < 2 ^ 512 ∧ s.sec.keys.get g = none ∧ k % 2 ^ 256 ≠ k / 2 ^ 256 ∧
      Runs (.keyLoad i g k) s fun _ => True) ∧
    (∃ s i x g f d w k, s.live = true ∧ s.pwr.pstate ≠ .saving ∧ s.domOn 31 = true ∧ s.sec.sessions.get i = some x ∧
      x.up = true ∧ s.sec.mode = .sealed ∧ g < 256 ∧ f < 2 ^ 20 ∧ d < 2 ^ 384 ∧ s.sec.keys.get g = some k ∧
      (Config.hmac384 k (leBytes 1 2 ++ leBytes 1 g ++ leBytes 3 f ++ leBytes 48 d)).toNat = w ∧ s.sec.binds.get f = none ∧
      s.sec.binds.length < 1024 ∧ Runs (.keyBind i g f d w) s fun _ => True) ∧
    (∃ s i x g f d w k, s.live = true ∧ s.pwr.pstate ≠ .saving ∧ s.domOn 31 = true ∧ s.sec.sessions.get i = some x ∧
      x.up = true ∧ s.sec.mode = .sealed ∧ g < 256 ∧ f < 2 ^ 24 ∧ s.sec.keys.get g = some k ∧
      (Config.hmac384 k (leBytes 1 3 ++ leBytes 1 g ++ leBytes 3 f)).toNat = w ∧ s.sec.binds.get f = some (g, d) ∧
      Runs (.keyUnbind i g f w) s fun _ => True) ∧
    (∃ s i x g w k, s.live = true ∧ s.pwr.pstate ≠ .saving ∧ s.domOn 31 = true ∧ s.sec.sessions.get i = some x ∧
      x.up = true ∧ s.sec.mode = .sealed ∧ g < 256 ∧ s.sec.keys.get g = some k ∧
      (Config.hmac384 k (leBytes 1 4 ++ leBytes 1 g)).toNat = w ∧ Runs (.keyClear i g w) s fun _ => True) ∧
    (∃ s i x g f d w k, ∃ r, r ∈ [(Instr.keyLoad i g k, 1), (.keyBind i g f d w, 2), (.keyUnbind i g f w, 3),
      (.keyClear i g w, 4)] ∧ s.live = true ∧ s.pwr.pstate ≠ .saving ∧ s.domOn 31 = true ∧ s.sec.sessions.get i = some x ∧
      x.up = true ∧ s.sec.mode ≠ .sealed ∧ Runs r.1 s fun _ => True) ∧
    (∃ s i x p tx rx, s.live = true ∧ s.pwr.pstate ≠ .saving ∧ s.domOn 31 = true ∧ s.sec.sessions.get i = some x ∧
      x.up = true ∧ x.owner = true ∧ s.portExists p = true ∧ Runs (.linkKey i p tx rx) s fun _ => True) ∧
    (∃ s i x p tx rx, s.live = true ∧ s.pwr.pstate ≠ .saving ∧ s.domOn 31 = true ∧ s.sec.sessions.get i = some x ∧
      x.up = true ∧ x.owner = false ∧ Runs (.linkKey i p tx rx) s fun _ => True) :=
  ⟨⟨(run.modSec fun u => { u with sessions := [(3, some { up := true })], mode := .sealed }), 3, ({ up := true } : Session),
     255, (2 ^ 512 - 2), by first | decide +kernel | exact okIs (by decide +kernel) | exact rfl,
     by first | decide +kernel | exact okIs (by decide +kernel) | exact rfl,
     by first | decide +kernel | exact okIs (by decide +kernel) | exact rfl,
     by first | decide +kernel | exact okIs (by decide +kernel) | exact rfl,
     by first | decide +kernel | exact okIs (by decide +kernel) | exact rfl,
     by first | decide +kernel | exact okIs (by decide +kernel) | exact rfl,
     by first | decide +kernel | exact okIs (by decide +kernel) | exact rfl,
     by first | decide +kernel | exact okIs (by decide +kernel) | exact rfl,
     by first | decide +kernel | exact okIs (by decide +kernel) | exact rfl,
     by first | decide +kernel | exact okIs (by decide +kernel) | exact rfl, ⟨_, rfl, trivial⟩⟩,
   ⟨(run.modSec fun u => { u with sessions := [(3, some { up := true })], mode := .sealed, keys := [(255, some 7)] }), 3,
     ({ up := true } : Session), 255, (2 ^ 20 - 1), (2 ^ 384 - 1),
     (Config.hmac384 7 (leBytes 1 2 ++ leBytes 1 255 ++ leBytes 3 (2 ^ 20 - 1) ++ leBytes 48 (2 ^ 384 - 1))).toNat, 7,
     by first | decide +kernel | exact okIs (by decide +kernel) | exact rfl,
     by first | decide +kernel | exact okIs (by decide +kernel) | exact rfl,
     by first | decide +kernel | exact okIs (by decide +kernel) | exact rfl,
     by first | decide +kernel | exact okIs (by decide +kernel) | exact rfl,
     by first | decide +kernel | exact okIs (by decide +kernel) | exact rfl,
     by first | decide +kernel | exact okIs (by decide +kernel) | exact rfl,
     by first | decide +kernel | exact okIs (by decide +kernel) | exact rfl,
     by first | decide +kernel | exact okIs (by decide +kernel) | exact rfl,
     by first | decide +kernel | exact okIs (by decide +kernel) | exact rfl,
     by first | decide +kernel | exact okIs (by decide +kernel) | exact rfl, rfl,
     by first | decide +kernel | exact okIs (by decide +kernel) | exact rfl,
     by first | decide +kernel | exact okIs (by decide +kernel) | exact rfl, ⟨_, rfl, trivial⟩⟩,
   ⟨(run.modSec fun u => { u with sessions := [(3, some { up := true })], mode := .sealed, keys := [(255, some 7)], binds := [(2 ^ 20 - 1, some (255, 9))] }),
     3, ({ up := true } : Session), 255, (2 ^ 20 - 1), 9,
     (Config.hmac384 7 (leBytes 1 3 ++ leBytes 1 255 ++ leBytes 3 (2 ^ 20 - 1))).toNat, 7,
     by first | decide +kernel | exact okIs (by decide +kernel) | exact rfl,
     by first | decide +kernel | exact okIs (by decide +kernel) | exact rfl,
     by first | decide +kernel | exact okIs (by decide +kernel) | exact rfl,
     by first | decide +kernel | exact okIs (by decide +kernel) | exact rfl,
     by first | decide +kernel | exact okIs (by decide +kernel) | exact rfl,
     by first | decide +kernel | exact okIs (by decide +kernel) | exact rfl,
     by first | decide +kernel | exact okIs (by decide +kernel) | exact rfl,
     by first | decide +kernel | exact okIs (by decide +kernel) | exact rfl,
     by first | decide +kernel | exact okIs (by decide +kernel) | exact rfl, rfl,
     by first | decide +kernel | exact okIs (by decide +kernel) | exact rfl, ⟨_, rfl, trivial⟩⟩,
   ⟨(run.modSec fun u => { u with sessions := [(3, some { up := true })], mode := .sealed, keys := [(255, some 7)], binds := [(5, some (255, 9))] }),
     3, ({ up := true } : Session), 255, (Config.hmac384 7 (leBytes 1 4 ++ leBytes 1 255)).toNat, 7,
     by first | decide +kernel | exact okIs (by decide +kernel) | exact rfl,
     by first | decide +kernel | exact okIs (by decide +kernel) | exact rfl,
     by first | decide +kernel | exact okIs (by decide +kernel) | exact rfl,
     by first | decide +kernel | exact okIs (by decide +kernel) | exact rfl,
     by first | decide +kernel | exact okIs (by decide +kernel) | exact rfl,
     by first | decide +kernel | exact okIs (by decide +kernel) | exact rfl,
     by first | decide +kernel | exact okIs (by decide +kernel) | exact rfl,
     by first | decide +kernel | exact okIs (by decide +kernel) | exact rfl, rfl, ⟨_, rfl, trivial⟩⟩,
   ⟨(run.modSec fun u => { u with sessions := [(3, some { up := true })] }), 3, ({ up := true } : Session), 0, 5, 9, 0, 7,
     (Instr.keyClear 3 0 0, 4), by first | decide +kernel | exact okIs (by decide +kernel) | exact rfl,
     by first | decide +kernel | exact okIs (by decide +kernel) | exact rfl,
     by first | decide +kernel | exact okIs (by decide +kernel) | exact rfl,
     by first | decide +kernel | exact okIs (by decide +kernel) | exact rfl,
     by first | decide +kernel | exact okIs (by decide +kernel) | exact rfl,
     by first | decide +kernel | exact okIs (by decide +kernel) | exact rfl,
     by first | decide +kernel | exact okIs (by decide +kernel) | exact rfl, ⟨_, rfl, trivial⟩⟩,
   ⟨(run.modSec fun u => { u with sessions := [(3, some { up := true, owner := true })] }), 3, ({ up := true, owner := true } : Session),
     504, 1, 2, by first | decide +kernel | exact okIs (by decide +kernel) | exact rfl,
     by first | decide +kernel | exact okIs (by decide +kernel) | exact rfl,
     by first | decide +kernel | exact okIs (by decide +kernel) | exact rfl,
     by first | decide +kernel | exact okIs (by decide +kernel) | exact rfl,
     by first | decide +kernel | exact okIs (by decide +kernel) | exact rfl,
     by first | decide +kernel | exact okIs (by decide +kernel) | exact rfl,
     by first | decide +kernel | exact okIs (by decide +kernel) | exact rfl, ⟨_, rfl, trivial⟩⟩,
   ⟨(run.modSec fun u => { u with sessions := [(3, some { up := true })] }), 3, ({ up := true } : Session), 504, 1, 2,
     by first | decide +kernel | exact okIs (by decide +kernel) | exact rfl,
     by first | decide +kernel | exact okIs (by decide +kernel) | exact rfl,
     by first | decide +kernel | exact okIs (by decide +kernel) | exact rfl,
     by first | decide +kernel | exact okIs (by decide +kernel) | exact rfl,
     by first | decide +kernel | exact okIs (by decide +kernel) | exact rfl,
     by first | decide +kernel | exact okIs (by decide +kernel) | exact rfl, ⟨_, rfl, trivial⟩⟩⟩

theorem witness_DeviceSecurity :
    (∃ s i x, s.live = true ∧ s.pwr.pstate ≠ .saving ∧ s.domOn 31 = true ∧ s.sec.sessions.get i = some x ∧ x.up = true ∧
      Runs (.ideKmQuery i) s fun _ => True) ∧
    (∃ s i x, ∃ n e d b k, s.live = true ∧ s.pwr.pstate ≠ .saving ∧ s.domOn 31 = true ∧ s.sec.sessions.get i = some x ∧
      x.up = true ∧ n < 9 ∧ e < 2 ∧ d < 2 ∧ b < 3 ∧ Runs (.ideKmKeyProg i n e d b k) s fun _ => True) ∧
    (∃ s i x, ∃ n e d b, s.live = true ∧ s.pwr.pstate ≠ .saving ∧ s.domOn 31 = true ∧ s.sec.sessions.get i = some x ∧
      x.up = true ∧ n < 9 ∧ e < 2 ∧ d < 2 ∧ b < 3 ∧ ((s.sec.ide.get n).keys.get (12 * e + 6 * d + b)).isSome = true ∧
      Runs (.ideKmKSetGo i n e d b) s fun _ => True) ∧
    (∃ s i x, ∃ n e d b, s.live = true ∧ s.pwr.pstate ≠ .saving ∧ s.domOn 31 = true ∧ s.sec.sessions.get i = some x ∧
      x.up = true ∧ n < 9 ∧ e < 2 ∧ d < 2 ∧ b < 3 ∧ Runs (.ideKmKSetStop i n e d b) s fun _ => True) ∧
    (∃ s i x v, s.live = true ∧ s.pwr.pstate ≠ .saving ∧ s.domOn 31 = true ∧ s.sec.sessions.get i = some x ∧ x.up = true ∧
      s.vfOn v = true ∧ Runs (.stopInterface i v) s fun _ => True) ∧
    (∃ s i x v, s.live = true ∧ s.pwr.pstate ≠ .saving ∧ s.domOn 31 = true ∧ s.sec.sessions.get i = some x ∧ x.up = true ∧
      s.vfOn v = true ∧ (s.fn v).tdisp = .unlocked ∧ Runs (.lockInterface i v) s fun _ => True) ∧
    (∃ s i x v, s.live = true ∧ s.pwr.pstate ≠ .saving ∧ s.domOn 31 = true ∧ s.sec.sessions.get i = some x ∧ x.up = true ∧
      s.vfOn v = true ∧ (s.fn v).tdisp = .locked ∧ Runs (.startInterface i v (s.fn v).nonce) s fun _ => True) ∧
    (∃ s i x v, ∃ j, s.live = true ∧ s.pwr.pstate ≠ .saving ∧ s.domOn 31 = true ∧ s.sec.sessions.get i = some x ∧
      x.up = true ∧ s.vfOn v = true ∧ ((s.fn v).tdisp = .locked ∨ (s.fn v).tdisp = .run) ∧ s.vfSlot v = some j ∧
      Runs (.getDeviceInterfaceReport i v) s fun _ => True) ∧
    (∃ s i x v, ∃ n, s.live = true ∧ s.pwr.pstate ≠ .saving ∧ s.domOn 31 = true ∧ s.sec.sessions.get i = some x ∧
      x.up = true ∧ s.vfOn v = true ∧ ((s.fn v).tdisp ≠ .locked ∨ (s.fn v).nonce ≠ n) ∧
      Runs (.startInterface i v n) s fun _ => True) :=
  ⟨⟨(run.modSec fun u => { u with sessions := [(3, some { up := true })] }), 3, ({ up := true } : Session),
     by first | decide +kernel | exact okIs (by decide +kernel) | exact rfl,
     by first | decide +kernel | exact okIs (by decide +kernel) | exact rfl,
     by first | decide +kernel | exact okIs (by decide +kernel) | exact rfl,
     by first | decide +kernel | exact okIs (by decide +kernel) | exact rfl,
     by first | decide +kernel | exact okIs (by decide +kernel) | exact rfl, ⟨_, rfl, trivial⟩⟩,
   ⟨(run.modSec fun u => { u with sessions := [(3, some { up := true })] }), 3, ({ up := true } : Session), 8, 1, 1, 2, 99,
     by first | decide +kernel | exact okIs (by decide +kernel) | exact rfl,
     by first | decide +kernel | exact okIs (by decide +kernel) | exact rfl,
     by first | decide +kernel | exact okIs (by decide +kernel) | exact rfl,
     by first | decide +kernel | exact okIs (by decide +kernel) | exact rfl,
     by first | decide +kernel | exact okIs (by decide +kernel) | exact rfl,
     by first | decide +kernel | exact okIs (by decide +kernel) | exact rfl,
     by first | decide +kernel | exact okIs (by decide +kernel) | exact rfl,
     by first | decide +kernel | exact okIs (by decide +kernel) | exact rfl,
     by first | decide +kernel | exact okIs (by decide +kernel) | exact rfl, ⟨_, rfl, trivial⟩⟩,
   ⟨(run.modSec fun u => { u with sessions := [(3, some { up := true })], ide := [(8, { keys := [(20, some 99)] })] }), 3,
     ({ up := true } : Session), 8, 1, 1, 2, by first | decide +kernel | exact okIs (by decide +kernel) | exact rfl,
     by first | decide +kernel | exact okIs (by decide +kernel) | exact rfl,
     by first | decide +kernel | exact okIs (by decide +kernel) | exact rfl,
     by first | decide +kernel | exact okIs (by decide +kernel) | exact rfl,
     by first | decide +kernel | exact okIs (by decide +kernel) | exact rfl,
     by first | decide +kernel | exact okIs (by decide +kernel) | exact rfl,
     by first | decide +kernel | exact okIs (by decide +kernel) | exact rfl,
     by first | decide +kernel | exact okIs (by decide +kernel) | exact rfl,
     by first | decide +kernel | exact okIs (by decide +kernel) | exact rfl,
     by first | decide +kernel | exact okIs (by decide +kernel) | exact rfl, ⟨_, rfl, trivial⟩⟩,
   ⟨(run.modSec fun u => { u with sessions := [(3, some { up := true })] }), 3, ({ up := true } : Session), 8, 1, 1, 2,
     by first | decide +kernel | exact okIs (by decide +kernel) | exact rfl,
     by first | decide +kernel | exact okIs (by decide +kernel) | exact rfl,
     by first | decide +kernel | exact okIs (by decide +kernel) | exact rfl,
     by first | decide +kernel | exact okIs (by decide +kernel) | exact rfl,
     by first | decide +kernel | exact okIs (by decide +kernel) | exact rfl,
     by first | decide +kernel | exact okIs (by decide +kernel) | exact rfl,
     by first | decide +kernel | exact okIs (by decide +kernel) | exact rfl,
     by first | decide +kernel | exact okIs (by decide +kernel) | exact rfl,
     by first | decide +kernel | exact okIs (by decide +kernel) | exact rfl, ⟨_, rfl, trivial⟩⟩,
   ⟨((run.modHost fun h => { h with vfEnable := true, numVfs := 4, fns := [(4, { bme := true })] }).modSec fun u => { u with sessions := [(3, some { up := true })] }),
     3, ({ up := true } : Session), 4, by first | decide +kernel | exact okIs (by decide +kernel) | exact rfl,
     by first | decide +kernel | exact okIs (by decide +kernel) | exact rfl,
     by first | decide +kernel | exact okIs (by decide +kernel) | exact rfl,
     by first | decide +kernel | exact okIs (by decide +kernel) | exact rfl,
     by first | decide +kernel | exact okIs (by decide +kernel) | exact rfl,
     by first | decide +kernel | exact okIs (by decide +kernel) | exact rfl, ⟨_, rfl, trivial⟩⟩,
   ⟨((run.modHost fun h => { h with vfEnable := true, numVfs := 4, fns := [(4, { bme := true })] }).modSec fun u => { u with sessions := [(3, some { up := true })] }),
     3, ({ up := true } : Session), 4, by first | decide +kernel | exact okIs (by decide +kernel) | exact rfl,
     by first | decide +kernel | exact okIs (by decide +kernel) | exact rfl,
     by first | decide +kernel | exact okIs (by decide +kernel) | exact rfl,
     by first | decide +kernel | exact okIs (by decide +kernel) | exact rfl,
     by first | decide +kernel | exact okIs (by decide +kernel) | exact rfl,
     by first | decide +kernel | exact okIs (by decide +kernel) | exact rfl,
     by first | decide +kernel | exact okIs (by decide +kernel) | exact rfl, ⟨_, rfl, trivial⟩⟩,
   ⟨((run.modHost fun h => { h with vfEnable := true, numVfs := 4, fns := [(4, { tdisp := .locked, nonce := 6 })] }).modSec fun u => { u with sessions := [(3, some { up := true })] }),
     3, ({ up := true } : Session), 4, by first | decide +kernel | exact okIs (by decide +kernel) | exact rfl,
     by first | decide +kernel | exact okIs (by decide +kernel) | exact rfl,
     by first | decide +kernel | exact okIs (by decide +kernel) | exact rfl,
     by first | decide +kernel | exact okIs (by decide +kernel) | exact rfl,
     by first | decide +kernel | exact okIs (by decide +kernel) | exact rfl,
     by first | decide +kernel | exact okIs (by decide +kernel) | exact rfl,
     by first | decide +kernel | exact okIs (by decide +kernel) | exact rfl, ⟨_, rfl, trivial⟩⟩,
   ⟨(((run.setEntry 0x0348000C 1 0x80000007).modHost fun h => { h with vfEnable := true, numVfs := 4, fns := [(4, { tdisp := .run })] }).modSec fun u => { u with sessions := [(3, some { up := true })] }),
     3, ({ up := true } : Session), 4, 7, by first | decide +kernel | exact okIs (by decide +kernel) | exact rfl,
     by first | decide +kernel | exact okIs (by decide +kernel) | exact rfl,
     by first | decide +kernel | exact okIs (by decide +kernel) | exact rfl,
     by first | decide +kernel | exact okIs (by decide +kernel) | exact rfl,
     by first | decide +kernel | exact okIs (by decide +kernel) | exact rfl,
     by first | decide +kernel | exact okIs (by decide +kernel) | exact rfl, Or.inr (by decide +kernel),
     by first | decide +kernel | exact okIs (by decide +kernel) | exact rfl, ⟨_, rfl, trivial⟩⟩,
   ⟨((run.modHost fun h => { h with vfEnable := true, numVfs := 4, fns := [(4, { tdisp := .locked, nonce := 6 })] }).modSec fun u => { u with sessions := [(3, some { up := true })] }),
     3, ({ up := true } : Session), 4, 7, by first | decide +kernel | exact okIs (by decide +kernel) | exact rfl,
     by first | decide +kernel | exact okIs (by decide +kernel) | exact rfl,
     by first | decide +kernel | exact okIs (by decide +kernel) | exact rfl,
     by first | decide +kernel | exact okIs (by decide +kernel) | exact rfl,
     by first | decide +kernel | exact okIs (by decide +kernel) | exact rfl,
     by first | decide +kernel | exact okIs (by decide +kernel) | exact rfl, Or.inr (by decide +kernel), ⟨_, rfl, trivial⟩⟩⟩

theorem witness_HostTraffic :
    (∃ s p k f c u j v, s.hostFn (ingressDie p) k = some f ∧ k.cls = 8 ∧ s.takeLocal p k = (some c, u) ∧
      u.checkHead (ingressDie p) (mreqBad k) k = (.ok j, v) ∧ (f = 0 ∨ v.vfOn f = true ∧ v.vfSlot f = some j) ∧
      v.mayIssue f = true ∧ v.sec.mode ≠ .sealed ∧ (k.op ≠ 3 ∨ pcieAtomicOk k = true ∧ v.host.atomicEn = true) ∧
      Runs (.hostRequest p k) s fun _ => True) ∧
    (∃ s p k f c u j v, s.hostFn (ingressDie p) k = some f ∧ k.cls = 8 ∧ s.takeLocal p k = (some c, u) ∧
      u.checkHead (ingressDie p) (mreqBad k) k = (.ok j, v) ∧ f ≠ 0 ∧ (v.vfOn f = false ∨ v.vfSlot f ≠ some j) ∧
      Runs (.hostRequest p k) s fun _ => True) ∧
    (∃ s p k f c u j v, s.hostFn (ingressDie p) k = some f ∧ k.cls = 8 ∧ s.takeLocal p k = (some c, u) ∧
      u.checkHead (ingressDie p) (mreqBad k) k = (.ok j, v) ∧ (f = 0 ∨ v.vfOn f = true ∧ v.vfSlot f = some j) ∧
      v.mayIssue f = false ∧ Runs (.hostRequest p k) s fun _ => True) ∧
    (∃ s p k, s.hostFn (ingressDie p) k = none ∧ Runs (.hostRequest p k) s fun _ => True) ∧
    (∃ s n st d b, s.host.tags.get n = none ∧ Runs (.hostCompletion n st d b) s fun _ => True) ∧
    (∃ s n st d b g, s.host.tags.get n = some g ∧ g.quar = true ∧ Runs (.hostCompletion n st d b) s fun _ => True) ∧
    (∃ s n d b g r, s.host.tags.get n = some g ∧ g.quar = false ∧ s.hreq g.req = some r ∧ g.len ≤ d.length ∧
      Runs (.hostCompletion n .success d b) s fun _ => True) ∧
    (∃ s n d b g r, s.host.tags.get n = some g ∧ g.quar = false ∧ s.hreq g.req = some r ∧ d.length < g.len ∧
      Runs (.hostCompletion n .success d b) s fun _ => True) ∧
    (∃ s n st d b g r, st ≠ .success ∧ s.host.tags.get n = some g ∧ g.quar = false ∧ s.hreq g.req = some r ∧
      Runs (.hostCompletion n st d b) s fun _ => True) ∧
    (∃ s n g, s.host.tags.get n = some g ∧ g.at_ + 1000000 * s.host.cplMs ≤ s.ns ∧ g.quar = true ∧
      Runs (.hostCplTimeout n) s fun _ => True) ∧
    (∃ s n g, ∃ r, s.host.tags.get n = some g ∧ g.at_ + 1000000 * s.host.cplMs ≤ s.ns ∧ g.quar = false ∧
      s.hreq g.req = some r ∧ Runs (.hostCplTimeout n) s fun _ => True) ∧
    (∃ s n g, s.host.tags.get n = some g ∧ s.ns < g.at_ + 1000000 * s.host.cplMs ∧ Runs (.hostCplTimeout n) s fun _ => True) :=
  ⟨⟨(got 0 (mkPkt 8 0 9 260 0 false (leBytes 16 (64 * 2 ^ 30 + 0 * 2 ^ 47 + 5 * 2 ^ 51 + 4096 * 2 ^ 71))) (((job.modHost fun h => { h with vfEnable := true, numVfs := 4, fns := [(0, { bme := true }), (4, { bme := true })] }).setRg Adr.HOSTP_HOST_EID 0x100).setEntry 0x0348000C 1 0x80000000)),
     0, (mkPkt 8 0 9 260 0 false (leBytes 16 (64 * 2 ^ 30 + 0 * 2 ^ 47 + 5 * 2 ^ 51 + 4096 * 2 ^ 71))), 4, 1, _, 0, _,
     by first | decide +kernel | exact okIs (by decide +kernel) | exact rfl,
     by first | decide +kernel | exact okIs (by decide +kernel) | exact rfl, pairOf (by decide +kernel),
     okOf (by decide +kernel), Or.inr (by decide +kernel),
     by first | decide +kernel | exact okIs (by decide +kernel) | exact rfl,
     by first | decide +kernel | exact okIs (by decide +kernel) | exact rfl, Or.inl (by decide +kernel), ⟨_, rfl, trivial⟩⟩,
   ⟨(got 0 (mkPkt 8 0 9 260 0 false (leBytes 16 (64 * 2 ^ 30 + 0 * 2 ^ 47 + 5 * 2 ^ 51 + 4096 * 2 ^ 71))) ((job.modHost fun h => { h with vfEnable := true, numVfs := 4, fns := [(0, { bme := true }), (4, { bme := true })] }).setRg Adr.HOSTP_HOST_EID 0x100)),
     0, (mkPkt 8 0 9 260 0 false (leBytes 16 (64 * 2 ^ 30 + 0 * 2 ^ 47 + 5 * 2 ^ 51 + 4096 * 2 ^ 71))), 4, 1, _, 0, _,
     by first | decide +kernel | exact okIs (by decide +kernel) | exact rfl,
     by first | decide +kernel | exact okIs (by decide +kernel) | exact rfl, pairOf (by decide +kernel),
     okOf (by decide +kernel), by first | decide +kernel | exact okIs (by decide +kernel) | exact rfl,
     by first | decide +kernel | exact okIs (by decide +kernel) | exact rfl, ⟨_, rfl, trivial⟩⟩,
   ⟨(got 0 (mkPkt 8 0 9 256 0 false (leBytes 16 (64 * 2 ^ 30 + 0 * 2 ^ 47 + 5 * 2 ^ 51 + 4096 * 2 ^ 71))) ((job.modHost fun h => { h with vfEnable := true }).setRg Adr.HOSTP_HOST_EID 0x100)),
     0, (mkPkt 8 0 9 256 0 false (leBytes 16 (64 * 2 ^ 30 + 0 * 2 ^ 47 + 5 * 2 ^ 51 + 4096 * 2 ^ 71))), 0, 1, _, 0, _,
     by first | decide +kernel | exact okIs (by decide +kernel) | exact rfl,
     by first | decide +kernel | exact okIs (by decide +kernel) | exact rfl, pairOf (by decide +kernel),
     okOf (by decide +kernel), Or.inl (by decide +kernel),
     by first | decide +kernel | exact okIs (by decide +kernel) | exact rfl, ⟨_, rfl, trivial⟩⟩,
   ⟨((job.modHost fun h => { h with vfEnable := true, numVfs := 4, fns := [(0, { bme := true }), (4, { bme := true })] }).setRg Adr.HOSTP_HOST_EID 0x100),
     0, (mkPkt 8 0 9 261 0 false (leBytes 16 (64 * 2 ^ 30 + 0 * 2 ^ 47 + 5 * 2 ^ 51 + 4096 * 2 ^ 71))),
     by first | decide +kernel | exact okIs (by decide +kernel) | exact rfl, ⟨_, rfl, trivial⟩⟩,
   ⟨run, 7, .success, [], true, by first | decide +kernel | exact okIs (by decide +kernel) | exact rfl, ⟨_, rfl, trivial⟩⟩,
   ⟨((at_ 60000000 job).modHost fun h => { h with tags := [(7, some { fn := 4, quar := true, reset := true })], reqs := [(3, some { open_ := 1 })] }),
     7, .success, [], true, ({ fn := 4, quar := true, reset := true } : HTag),
     by first | decide +kernel | exact okIs (by decide +kernel) | exact rfl,
     by first | decide +kernel | exact okIs (by decide +kernel) | exact rfl, ⟨_, rfl, trivial⟩⟩,
   ⟨((at_ 60000000 job).modHost fun h => { h with tags := [(7, some { req := 3, len := 64 })], reqs := [(3, some { open_ := 1, pkt := (mkPkt 8 0 9 256 0 false (leBytes 16 (64 * 2 ^ 30 + 0 * 2 ^ 47 + 5 * 2 ^ 51 + 4096 * 2 ^ 71))) })] }),
     7, (List.replicate 64 5), true, ({ req := 3, len := 64 } : HTag), ({ open_ := 1, pkt := (mkPkt 8 0 9 256 0 false (leBytes 16 (64 * 2 ^ 30 + 0 * 2 ^ 47 + 5 * 2 ^ 51 + 4096 * 2 ^ 71))) } : HostReq),
     by first | decide +kernel | exact okIs (by decide +kernel) | exact rfl,
     by first | decide +kernel | exact okIs (by decide +kernel) | exact rfl,
     by first | decide +kernel | exact okIs (by decide +kernel) | exact rfl,
     by first | decide +kernel | exact okIs (by decide +kernel) | exact rfl, ⟨_, rfl, trivial⟩⟩,
   ⟨((at_ 60000000 job).modHost fun h => { h with tags := [(7, some { req := 3, len := 64 })], reqs := [(3, some { open_ := 1, pkt := (mkPkt 8 0 9 256 0 false (leBytes 16 (64 * 2 ^ 30 + 0 * 2 ^ 47 + 5 * 2 ^ 51 + 4096 * 2 ^ 71))) })] }),
     7, (List.replicate 32 5), true, ({ req := 3, len := 64 } : HTag), ({ open_ := 1, pkt := (mkPkt 8 0 9 256 0 false (leBytes 16 (64 * 2 ^ 30 + 0 * 2 ^ 47 + 5 * 2 ^ 51 + 4096 * 2 ^ 71))) } : HostReq),
     by first | decide +kernel | exact okIs (by decide +kernel) | exact rfl,
     by first | decide +kernel | exact okIs (by decide +kernel) | exact rfl,
     by first | decide +kernel | exact okIs (by decide +kernel) | exact rfl,
     by first | decide +kernel | exact okIs (by decide +kernel) | exact rfl, ⟨_, rfl, trivial⟩⟩,
   ⟨((at_ 60000000 job).modHost fun h => { h with tags := [(7, some { req := 3, len := 64 })], reqs := [(3, some { open_ := 1, pkt := (mkPkt 8 0 9 256 0 false (leBytes 16 (64 * 2 ^ 30 + 0 * 2 ^ 47 + 5 * 2 ^ 51 + 4096 * 2 ^ 71))) })] }),
     7, .unsupported, [], true, ({ req := 3, len := 64 } : HTag), ({ open_ := 1, pkt := (mkPkt 8 0 9 256 0 false (leBytes 16 (64 * 2 ^ 30 + 0 * 2 ^ 47 + 5 * 2 ^ 51 + 4096 * 2 ^ 71))) } : HostReq),
     by first | decide +kernel | exact okIs (by decide +kernel) | exact rfl,
     by first | decide +kernel | exact okIs (by decide +kernel) | exact rfl,
     by first | decide +kernel | exact okIs (by decide +kernel) | exact rfl,
     by first | decide +kernel | exact okIs (by decide +kernel) | exact rfl, ⟨_, rfl, trivial⟩⟩,
   ⟨((at_ 60000000 job).modHost fun h => { h with tags := [(7, some { req := 3, quar := true })], reqs := [(3, some { open_ := 1, pkt := (mkPkt 8 0 9 256 0 false (leBytes 16 (64 * 2 ^ 30 + 0 * 2 ^ 47 + 5 * 2 ^ 51 + 4096 * 2 ^ 71))) })] }),
     7, ({ req := 3, quar := true } : HTag), by first | decide +kernel | exact okIs (by decide +kernel) | exact rfl,
     by first | decide +kernel | exact okIs (by decide +kernel) | exact rfl,
     by first | decide +kernel | exact okIs (by decide +kernel) | exact rfl, ⟨_, rfl, trivial⟩⟩,
   ⟨((at_ 60000000 job).modHost fun h => { h with tags := [(7, some { req := 3, len := 64 })], reqs := [(3, some { open_ := 1, pkt := (mkPkt 8 0 9 256 0 false (leBytes 16 (64 * 2 ^ 30 + 0 * 2 ^ 47 + 5 * 2 ^ 51 + 4096 * 2 ^ 71))) })] }),
     7, ({ req := 3, len := 64 } : HTag), ({ open_ := 1, pkt := (mkPkt 8 0 9 256 0 false (leBytes 16 (64 * 2 ^ 30 + 0 * 2 ^ 47 + 5 * 2 ^ 51 + 4096 * 2 ^ 71))) } : HostReq),
     by first | decide +kernel | exact okIs (by decide +kernel) | exact rfl,
     by first | decide +kernel | exact okIs (by decide +kernel) | exact rfl,
     by first | decide +kernel | exact okIs (by decide +kernel) | exact rfl,
     by first | decide +kernel | exact okIs (by decide +kernel) | exact rfl, ⟨_, rfl, trivial⟩⟩,
   ⟨((at_ 60000000 job).modHost fun h => { h with tags := [(7, some { req := 3, len := 64, at_ := 60000000 })], reqs := [(3, some { open_ := 1, pkt := (mkPkt 8 0 9 256 0 false (leBytes 16 (64 * 2 ^ 30 + 0 * 2 ^ 47 + 5 * 2 ^ 51 + 4096 * 2 ^ 71))) })] }),
     7, ({ req := 3, len := 64, at_ := 60000000 } : HTag),
     by first | decide +kernel | exact okIs (by decide +kernel) | exact rfl,
     by first | decide +kernel | exact okIs (by decide +kernel) | exact rfl, ⟨_, rfl, trivial⟩⟩⟩

theorem witness_HostPort :
    (∃ s, ∃ (n : Nat), s.pageOn .hostp 0 = true ∧ (s.fn 0).tdisp = .unlocked ∧
      Runs (.configWrite 0 (.vfEnable true)) s fun _ => True) ∧
    (∃ s n, s.pageOn .hostp 0 = true ∧ (s.fn 0).tdisp = .unlocked ∧ (n = 128 ∨ n = 256 ∨ n = 512) ∧
      Runs (.configWrite 0 (.maxPayload n)) s fun _ => True) ∧
    (∃ s n, s.pageOn .hostp 0 = true ∧ (s.fn 0).tdisp = .unlocked ∧
      (n = 128 ∨ n = 256 ∨ n = 512 ∨ n = 1024 ∨ n = 2048 ∨ n = 4096) ∧ Runs (.configWrite 0 (.maxRead n)) s fun _ => True) ∧
    (∃ s n, s.pageOn .hostp 0 = true ∧ (s.fn 0).tdisp = .unlocked ∧ n < 3 ∧
      Runs (.configWrite 0 (.tagSize n)) s fun _ => True) ∧
    (∃ s n, s.pageOn .hostp 0 = true ∧ (s.fn 0).tdisp = .unlocked ∧ n ≤ 1024 ∧ s.host.vfEnable = false ∧
      Runs (.configWrite 0 (.numVfs n)) s fun _ => True) ∧
    (∃ s, ∃ (n : Nat), ∃ b, s.pageOn .hostp 0 = true ∧ (s.fn 0).tdisp = .unlocked ∧
      Runs (.configWrite 0 (.atomicEnable b)) s fun _ => True) ∧
    (∃ s f w, s.pageOn .hostp 0 = true ∧ (f = 0 ∨ s.vfOn f = true) ∧ ((s.writeCfg f w).fn f).tdisp = .run ∧
      Runs (.configWrite f w) s fun _ => True) ∧
    (∃ s f, s.pageOn .hostp 0 = true ∧ f ≤ 1024 ∧ ((s.hostOff f).fn f).tdisp = .unlocked ∧
      Runs (.bmeClear f) s fun _ => True) ∧
    (∃ (s : State), ∃ f, s.hreqs (fun r => r.fn == f) = []) ∧
    (∃ s f, ∃ a, s.pageOn .hostp 0 = true ∧ s.vfOn f = true ∧ adr .vf f 0 ≤ a ∧ a < adr .vf f 0x1000 ∧
      Runs (.vfFlr f) s fun _ => True) ∧
    (∃ s, s.pageOn .hostp 0 = true ∧ Runs .pfFlr s fun _ => True) ∧
    (∃ s, s.pageOn .hostp 0 = true ∧ Runs .hostPortReset s fun _ => True) ∧
    (∃ s, s.pageOn .hostp 0 = true ∧ Runs .hostLinkUp s fun _ => True) ∧
    (∃ s f t v d, s.pageOn .vf f = true ∧ s.vfOn f = true ∧ ((s.fn f).tdisp ≠ .run ∨ t = true) ∧ bit v 31 = true ∧
      d = leNat ((List.range 32).flatMap fun i => leBytes 4 (s.rg (Adr.VF_DESC f i)).toNat) ∧ s.vfSlot f = none ∧
      Runs (.vfSubmit f t v) s fun _ => True) ∧
    (∃ s f t v d, ∃ j, ∃ w, s.pageOn .vf f = true ∧ s.vfOn f = true ∧ ((s.fn f).tdisp ≠ .run ∨ t = true) ∧ bit v 31 = true ∧
      d = leNat ((List.range 32).flatMap fun i => leBytes 4 (s.rg (Adr.VF_DESC f i)).toNat) ∧ s.vfSlot f = some j ∧
      s.job j = .active ∧ dFjid d = s.rf (Adr.JOB_FJID j) 19 0 ∧ s.submit j d = (.queued, w) ∧
      Runs (.vfSubmit f t v) s fun _ => True) ∧
    (∃ s f t v d, ∃ j, ∃ w, s.pageOn .vf f = true ∧ s.vfOn f = true ∧ ((s.fn f).tdisp ≠ .run ∨ t = true) ∧ bit v 31 = true ∧
      d = leNat ((List.range 32).flatMap fun i => leBytes 4 (s.rg (Adr.VF_DESC f i)).toNat) ∧ s.vfSlot f = some j ∧
      s.job j = .active ∧ dFjid d = s.rf (Adr.JOB_FJID j) 19 0 ∧ s.submit j d = (.busy, w) ∧
      Runs (.vfSubmit f t v) s fun _ => True) ∧
    (∃ s f t v d, ∃ j, s.pageOn .vf f = true ∧ s.vfOn f = true ∧ ((s.fn f).tdisp ≠ .run ∨ t = true) ∧ bit v 31 = true ∧
      d = leNat ((List.range 32).flatMap fun i => leBytes 4 (s.rg (Adr.VF_DESC f i)).toNat) ∧ s.vfSlot f = some j ∧
      s.job j = .active ∧ dFjid d ≠ s.rf (Adr.JOB_FJID j) 19 0 ∧ Runs (.vfSubmit f t v) s fun _ => True) ∧
    (∃ s f t v j c, s.pageOn .vf f = true ∧ s.vfOn f = true ∧ ((s.fn f).tdisp ≠ .run ∨ t = true) ∧
      c = s.rf (Adr.VF_CTR_SEL f) 13 0 ∧ s.vfSlot f = some j ∧ (s.ctrOf c).owned = true ∧ (s.ctrOf c).owner = j ∧
      s.ctrOn c = true ∧ Runs (.vfCtrAdd f t v) s fun _ => True) ∧
    (∃ s f t v j c, s.pageOn .vf f = true ∧ s.vfOn f = true ∧ ((s.fn f).tdisp ≠ .run ∨ t = true) ∧
      c = s.rf (Adr.VF_CTR_SEL f) 13 0 ∧ s.vfSlot f = some j ∧
      ((s.ctrOf c).owned = false ∨ (s.ctrOf c).owner ≠ j ∨ s.ctrOn c = false) ∧ Runs (.vfCtrAdd f t v) s fun _ => True) ∧
    (∃ s f v, s.pageOn .vf f = true ∧ s.vfOn f = true ∧ (s.fn f).tdisp = .run ∧ Runs (.vfSubmit f false v) s fun _ => True) :=
  ⟨⟨run, 0, by first | decide +kernel | exact okIs (by decide +kernel) | exact rfl,
     by first | decide +kernel | exact okIs (by decide +kernel) | exact rfl, ⟨_, rfl, trivial⟩⟩,
   ⟨run, 512, by first | decide +kernel | exact okIs (by decide +kernel) | exact rfl,
     by first | decide +kernel | exact okIs (by decide +kernel) | exact rfl,
     by first | decide +kernel | exact okIs (by decide +kernel) | exact rfl, ⟨_, rfl, trivial⟩⟩,
   ⟨run, 4096, by first | decide +kernel | exact okIs (by decide +kernel) | exact rfl,
     by first | decide +kernel | exact okIs (by decide +kernel) | exact rfl,
     by first | decide +kernel | exact okIs (by decide +kernel) | exact rfl, ⟨_, rfl, trivial⟩⟩,
   ⟨run, 2, by first | decide +kernel | exact okIs (by decide +kernel) | exact rfl,
     by first | decide +kernel | exact okIs (by decide +kernel) | exact rfl,
     by first | decide +kernel | exact okIs (by decide +kernel) | exact rfl, ⟨_, rfl, trivial⟩⟩,
   ⟨run, 1024, by first | decide +kernel | exact okIs (by decide +kernel) | exact rfl,
     by first | decide +kernel | exact okIs (by decide +kernel) | exact rfl,
     by first | decide +kernel | exact okIs (by decide +kernel) | exact rfl,
     by first | decide +kernel | exact okIs (by decide +kernel) | exact rfl, ⟨_, rfl, trivial⟩⟩,
   ⟨run, 0, true, by first | decide +kernel | exact okIs (by decide +kernel) | exact rfl,
     by first | decide +kernel | exact okIs (by decide +kernel) | exact rfl, ⟨_, rfl, trivial⟩⟩,
   ⟨(run.modHost fun h => { h with vfEnable := true, numVfs := 4, fns := [(4, { tdisp := .run })] }), 4, (.msixEnable true),
     by first | decide +kernel | exact okIs (by decide +kernel) | exact rfl, Or.inr (by decide +kernel),
     by first | decide +kernel | exact okIs (by decide +kernel) | exact rfl, ⟨_, rfl, trivial⟩⟩,
   ⟨(run.modHost fun h => { h with vfEnable := true, numVfs := 4, fns := [(4, { bme := true })] }), 4,
     by first | decide +kernel | exact okIs (by decide +kernel) | exact rfl,
     by first | decide +kernel | exact okIs (by decide +kernel) | exact rfl,
     by first | decide +kernel | exact okIs (by decide +kernel) | exact rfl, ⟨_, rfl, trivial⟩⟩,
   ⟨(run.modHost fun h => { h with vfEnable := true, numVfs := 4, fns := [(4, { bme := true })] }), 4,
     by first | decide +kernel | exact okIs (by decide +kernel) | exact rfl⟩,
   ⟨((run.modHost fun h => { h with vfEnable := true, numVfs := 4, fns := [(4, { bme := true })] }).setRg (Adr.VF_DESC 4 31) 5),
     4, (adr .vf 4 0xFFC), by first | decide +kernel | exact okIs (by decide +kernel) | exact rfl,
     by first | decide +kernel | exact okIs (by decide +kernel) | exact rfl,
     by first | decide +kernel | exact okIs (by decide +kernel) | exact rfl,
     by first | decide +kernel | exact okIs (by decide +kernel) | exact rfl, ⟨_, rfl, trivial⟩⟩,
   ⟨(run.modHost fun h => { h with vfEnable := true, numVfs := 4, fns := [(4, { bme := true })] }),
     by first | decide +kernel | exact okIs (by decide +kernel) | exact rfl, ⟨_, rfl, trivial⟩⟩,
   ⟨(run.modHost fun h => { h with vfEnable := true, numVfs := 4, fns := [(4, { bme := true })] }),
     by first | decide +kernel | exact okIs (by decide +kernel) | exact rfl, ⟨_, rfl, trivial⟩⟩,
   ⟨run, by first | decide +kernel | exact okIs (by decide +kernel) | exact rfl, ⟨_, rfl, trivial⟩⟩,
   ⟨(run.modHost fun h => { h with vfEnable := true, numVfs := 4, fns := [(4, { bme := true })] }), 4, false, 0x80000000, _,
     by first | decide +kernel | exact okIs (by decide +kernel) | exact rfl,
     by first | decide +kernel | exact okIs (by decide +kernel) | exact rfl, Or.inl (by decide +kernel),
     by first | decide +kernel | exact okIs (by decide +kernel) | exact rfl, rfl,
     by first | decide +kernel | exact okIs (by decide +kernel) | exact rfl, ⟨_, rfl, trivial⟩⟩,
   ⟨(((job.modHost fun h => { h with vfEnable := true, numVfs := 4, fns := [(4, { bme := true })] }).setEntry 0x0348000C 1 0x80000000).setRg (Adr.VF_DESC 4 7) 0x50),
     4, false, 0x80000000, _, 0, _, by first | decide +kernel | exact okIs (by decide +kernel) | exact rfl,
     by first | decide +kernel | exact okIs (by decide +kernel) | exact rfl, Or.inl (by decide +kernel),
     by first | decide +kernel | exact okIs (by decide +kernel) | exact rfl, rfl,
     by first | decide +kernel | exact okIs (by decide +kernel) | exact rfl,
     by first | decide +kernel | exact okIs (by decide +kernel) | exact rfl,
     by first | decide +kernel | exact okIs (by decide +kernel) | exact rfl, pairOf (by decide +kernel), ⟨_, rfl, trivial⟩⟩,
   ⟨((((job.modHost fun h => { h with vfEnable := true, numVfs := 4, fns := [(4, { bme := true })] }).setEntry 0x0348000C 1 0x80000000).setRg (Adr.VF_DESC 4 7) 0x50).setRg (Adr.JOB_TILE_CFG 0) 1),
     4, false, 0x80000000, _, 0, _, by first | decide +kernel | exact okIs (by decide +kernel) | exact rfl,
     by first | decide +kernel | exact okIs (by decide +kernel) | exact rfl, Or.inl (by decide +kernel),
     by first | decide +kernel | exact okIs (by decide +kernel) | exact rfl, rfl,
     by first | decide +kernel | exact okIs (by decide +kernel) | exact rfl,
     by first | decide +kernel | exact okIs (by decide +kernel) | exact rfl,
     by first | decide +kernel | exact okIs (by decide +kernel) | exact rfl, pairOf (by decide +kernel), ⟨_, rfl, trivial⟩⟩,
   ⟨(((job.modHost fun h => { h with vfEnable := true, numVfs := 4, fns := [(4, { bme := true })] }).setEntry 0x0348000C 1 0x80000000).setRg (Adr.VF_DESC 4 7) 0x60),
     4, false, 0x80000000, _, 0, by first | decide +kernel | exact okIs (by decide +kernel) | exact rfl,
     by first | decide +kernel | exact okIs (by decide +kernel) | exact rfl, Or.inl (by decide +kernel),
     by first | decide +kernel | exact okIs (by decide +kernel) | exact rfl, rfl,
     by first | decide +kernel | exact okIs (by decide +kernel) | exact rfl,
     by first | decide +kernel | exact okIs (by decide +kernel) | exact rfl,
     by first | decide +kernel | exact okIs (by decide +kernel) | exact rfl, ⟨_, rfl, trivial⟩⟩,
   ⟨(((((job.modHost fun h => { h with vfEnable := true, numVfs := 4, fns := [(4, { bme := true })] }).setEntry 0x0348000C 1 0x80000000).setRg (Adr.VF_CTR_SEL 4) 9).setRg (Adr.VF_CTR_ADD_LO 4) 0xFFFFFFFF).setCtrOf 9 { owned := true, owner := 0 }),
     4, true, 1, 0, 9, by first | decide +kernel | exact okIs (by decide +kernel) | exact rfl,
     by first | decide +kernel | exact okIs (by decide +kernel) | exact rfl, Or.inr rfl,
     by first | decide +kernel | exact okIs (by decide +kernel) | exact rfl,
     by first | decide +kernel | exact okIs (by decide +kernel) | exact rfl,
     by first | decide +kernel | exact okIs (by decide +kernel) | exact rfl,
     by first | decide +kernel | exact okIs (by decide +kernel) | exact rfl,
     by first | decide +kernel | exact okIs (by decide +kernel) | exact rfl, ⟨_, rfl, trivial⟩⟩,
   ⟨(((((job.modHost fun h => { h with vfEnable := true, numVfs := 4, fns := [(4, { bme := true })] }).setEntry 0x0348000C 1 0x80000000).setRg (Adr.VF_CTR_SEL 4) 9).setRg (Adr.VF_CTR_ADD_LO 4) 0xFFFFFFFF).setCtrOf 9 { owned := true, owner := 1 }),
     4, true, 1, 0, 9, by first | decide +kernel | exact okIs (by decide +kernel) | exact rfl,
     by first | decide +kernel | exact okIs (by decide +kernel) | exact rfl, Or.inr rfl,
     by first | decide +kernel | exact okIs (by decide +kernel) | exact rfl,
     by first | decide +kernel | exact okIs (by decide +kernel) | exact rfl, Or.inr (Or.inl (by decide +kernel)), ⟨_, rfl,
     trivial⟩⟩,
   ⟨((job.modHost fun h => { h with vfEnable := true, numVfs := 4, fns := [(4, { tdisp := .run })] }).setEntry 0x0348000C 1 0x80000000),
     4, 5, by first | decide +kernel | exact okIs (by decide +kernel) | exact rfl,
     by first | decide +kernel | exact okIs (by decide +kernel) | exact rfl,
     by first | decide +kernel | exact okIs (by decide +kernel) | exact rfl, ⟨_, rfl, trivial⟩⟩⟩

theorem witness_PowerDomains :
    (∃ s src d, s.takes src Adr.PWR_CMD .wo = true ∧ s.pwr.turning = none ∧ s.pwr.warm = false ∧ s.running = true ∧ d < 32 ∧
      d ≠ 0 ∧ d ≠ 30 ∧ s.domOn d = true ∧ s.offOk d = true ∧ Runs (.domainOff src d) s fun _ => True) ∧
    (∃ s src d, s.takes src Adr.PWR_CMD .wo = true ∧ s.pwr.turning = none ∧ s.pwr.warm = false ∧ s.running = true ∧ d < 32 ∧
      (d = 0 ∨ d = 30) ∧ Runs (.domainOff src d) s fun _ => True) ∧
    (∃ s src d, s.takes src Adr.PWR_CMD .wo = true ∧ s.pwr.turning = none ∧ s.pwr.warm = false ∧ s.running = true ∧ d < 32 ∧
      d ≠ 0 ∧ d ≠ 30 ∧ s.domOn d = true ∧ s.offOk d = false ∧ Runs (.domainOff src d) s fun _ => True) ∧
    (∃ s src d, s.takes src Adr.PWR_CMD .wo = true ∧ s.pwr.turning = none ∧ s.pwr.warm = false ∧ s.running = true ∧ d < 32 ∧
      s.domOn d = false ∧ Runs (.domainOn src d) s fun _ => True) ∧
    (∃ s src d, s.takes src Adr.PWR_CMD .wo = true ∧ s.pwr.turning = none ∧ s.pwr.warm = false ∧ s.running = true ∧ d < 32 ∧
      s.domOn d = true ∧ Runs (.domainOn src d) s fun _ => True) ∧
    (∃ s d, s.pwr.turning = some d ∧ d ≠ 27 ∧ d ≠ 28 ∧ d ≠ 31 ∧ Runs .domainOnDone s fun _ => True) ∧
    (∃ s, s.pwr.turning = some 31 ∧ Runs .domainOnDone s fun _ => True) ∧
    (∃ s d, s.pwr.turning = some d ∧ (d = 27 ∨ d = 28) ∧ Runs .domainOnDone s fun _ => True) :=
  ⟨⟨run, .host, 24, by first | decide +kernel | exact okIs (by decide +kernel) | exact rfl,
     by first | decide +kernel | exact okIs (by decide +kernel) | exact rfl,
     by first | decide +kernel | exact okIs (by decide +kernel) | exact rfl,
     by first | decide +kernel | exact okIs (by decide +kernel) | exact rfl,
     by first | decide +kernel | exact okIs (by decide +kernel) | exact rfl,
     by first | decide +kernel | exact okIs (by decide +kernel) | exact rfl,
     by first | decide +kernel | exact okIs (by decide +kernel) | exact rfl,
     by first | decide +kernel | exact okIs (by decide +kernel) | exact rfl,
     by first | decide +kernel | exact okIs (by decide +kernel) | exact rfl, ⟨_, rfl, trivial⟩⟩,
   ⟨run, .host, 30, by first | decide +kernel | exact okIs (by decide +kernel) | exact rfl,
     by first | decide +kernel | exact okIs (by decide +kernel) | exact rfl,
     by first | decide +kernel | exact okIs (by decide +kernel) | exact rfl,
     by first | decide +kernel | exact okIs (by decide +kernel) | exact rfl,
     by first | decide +kernel | exact okIs (by decide +kernel) | exact rfl, Or.inr rfl, ⟨_, rfl, trivial⟩⟩,
   ⟨(run.setRg (Adr.TILE_CTRL 7) 1), .host, 24, by first | decide +kernel | exact okIs (by decide +kernel) | exact rfl,
     by first | decide +kernel | exact okIs (by decide +kernel) | exact rfl,
     by first | decide +kernel | exact okIs (by decide +kernel) | exact rfl,
     by first | decide +kernel | exact okIs (by decide +kernel) | exact rfl,
     by first | decide +kernel | exact okIs (by decide +kernel) | exact rfl,
     by first | decide +kernel | exact okIs (by decide +kernel) | exact rfl,
     by first | decide +kernel | exact okIs (by decide +kernel) | exact rfl,
     by first | decide +kernel | exact okIs (by decide +kernel) | exact rfl,
     by first | decide +kernel | exact okIs (by decide +kernel) | exact rfl, ⟨_, rfl, trivial⟩⟩,
   ⟨(run.modPwr fun p => { p with off := [(24, true)] }), .host, 24,
     by first | decide +kernel | exact okIs (by decide +kernel) | exact rfl,
     by first | decide +kernel | exact okIs (by decide +kernel) | exact rfl,
     by first | decide +kernel | exact okIs (by decide +kernel) | exact rfl,
     by first | decide +kernel | exact okIs (by decide +kernel) | exact rfl,
     by first | decide +kernel | exact okIs (by decide +kernel) | exact rfl,
     by first | decide +kernel | exact okIs (by decide +kernel) | exact rfl, ⟨_, rfl, trivial⟩⟩,
   ⟨run, .host, 24, by first | decide +kernel | exact okIs (by decide +kernel) | exact rfl,
     by first | decide +kernel | exact okIs (by decide +kernel) | exact rfl,
     by first | decide +kernel | exact okIs (by decide +kernel) | exact rfl,
     by first | decide +kernel | exact okIs (by decide +kernel) | exact rfl,
     by first | decide +kernel | exact okIs (by decide +kernel) | exact rfl,
     by first | decide +kernel | exact okIs (by decide +kernel) | exact rfl, ⟨_, rfl, trivial⟩⟩,
   ⟨(run.modPwr fun p => { p with off := [(24, true)], turning := some 24 }), 24,
     by first | decide +kernel | exact okIs (by decide +kernel) | exact rfl,
     by first | decide +kernel | exact okIs (by decide +kernel) | exact rfl,
     by first | decide +kernel | exact okIs (by decide +kernel) | exact rfl,
     by first | decide +kernel | exact okIs (by decide +kernel) | exact rfl, ⟨_, rfl, trivial⟩⟩,
   ⟨(run.modPwr fun p => { p with off := [(31, true)], turning := some 31 }),
     by first | decide +kernel | exact okIs (by decide +kernel) | exact rfl, ⟨_, rfl, trivial⟩⟩,
   ⟨(run.modPwr fun p => { p with off := [(27, true)], turning := some 27 }), 27,
     by first | decide +kernel | exact okIs (by decide +kernel) | exact rfl,
     by first | decide +kernel | exact okIs (by decide +kernel) | exact rfl, ⟨_, rfl, trivial⟩⟩⟩

theorem witness_ResetsAndImage :
    (∃ s src, s.takes src Adr.PWR_CMD .wo = true ∧ s.pwr.turning = none ∧ s.pwr.warm = false ∧ s.running = true ∧
      s.tierIdle = true ∧ Runs (.warmReset src) s fun _ => True) ∧
    (∃ s src, s.takes src Adr.PWR_CMD .wo = true ∧ s.pwr.turning = none ∧ s.pwr.warm = false ∧ s.running = false ∧
      Runs (.warmReset src) s fun _ => True) ∧
    (∃ s src, s.takes src Adr.PWR_CMD .wo = true ∧ s.pwr.turning = none ∧ s.pwr.warm = false ∧ s.running = true ∧
      s.tierIdle = false ∧ Runs (.warmReset src) s fun _ => True) ∧
    (∃ s src, ∃ b, s.takes src Adr.PWR_CMD .wo = true ∧ s.pwr.turning = none ∧ s.pwr.warm = false ∧ s.gran.st ≠ .off ∧
      Runs (.coldReset src b) s fun _ => True) ∧
    (∃ s src, ∃ b, s.takes src Adr.PWR_CMD .wo = true ∧ s.pwr.turning = none ∧ s.pwr.warm = false ∧ s.gran.st = .off ∧
      Runs (.coldReset src b) s fun _ => True) ∧
    (∃ s n, Runs (.supplyRise n) s fun _ => True) ∧
    (∃ (s : State), ∃ (n a : Nat), s.Inv ∧ ((∀ i, i < 4 → a ≠ Adr.SEC_DBG_NONCE i)) ∧ Adr.FUSE_MODE_CHANGES ≤ a ∧
      a < 0x9000 ∧ ((∀ i, i < 12 → a ≠ Adr.FUSE_OWNER_PK_HASH i))) ∧
    (∃ (s : State), ∃ (n a : Nat), s.Inv ∧ ((∀ i, i < 4 → a ≠ Adr.SEC_DBG_NONCE i)) ∧
      (a < Adr.FUSE_MODE_CHANGES ∨ 0x9000 ≤ a)) ∧
    (∃ s n, Runs (.rstNAssert n) s fun _ => True) ∧
    (∃ s, Runs .rstNRelease s fun _ => True) ∧
    (∃ s, s.pwr.pstate = .starting ∧ s.pwr.image = false ∧ s.pwr.rstLow = false ∧ s.pwr.railsLow = false ∧
      s.pwr.pwrFail = false ∧ s.pwr.warm = false ∧ Runs .startupDone s fun _ => True) ∧
    (∃ s, s.pwr.pstate = .starting ∧ s.pwr.image = false ∧ s.pwr.rstLow = false ∧ s.pwr.railsLow = false ∧
      s.pwr.pwrFail = false ∧ s.pwr.warm = true ∧ Runs .startupDone s fun _ => True) ∧
    (∃ s a b k, s.pwr.pstate = .starting ∧ s.pwr.image = true ∧ s.pwr.rstLow = false ∧ s.pwr.railsLow = false ∧
      s.pwr.pwrFail = false ∧ Runs (.imageLoad a b k) s fun _ => True) ∧
    (∃ (s : State), ∃ (a b : List Byte), ∃ (k : Bool), bit (s.rg Adr.FUSE_FUSE_STATUS) 0 = false) ∧
    (∃ (s : State), ∃ (a b : List Byte), ∃ (k : Bool), bit (s.rg Adr.FUSE_FUSE_STATUS) 0 = true) ∧
    (∃ (s : State), ∃ (a b : List Byte), ∃ (k : Bool), bit (s.rg Adr.FUSE_FUSE_STATUS) 0 = true ∧ imgFormed a = false ∧
      imgFormed b = false) ∧
    (∃ (s : State), ∃ b, imgFormed b = true ∧ tokAt b 8 8 ≠ 0 ∧ tokAt b 8 8 ≠ s.serial) ∧
    (∃ (s : State), ∃ b, imgFormed b = true ∧ (tokAt b 8 8 = 0 ∨ tokAt b 8 8 = s.serial)) ∧
    (∃ (s : State), ∃ b, s.Inv ∧ imgCount b = 0 ∧ (imgFlags b).testBit 0 = false ∧ (imgFlags b).testBit 2 = false) ∧
    (∃ s, ∃ n, s.live = true ∧ s.pwr.pstate ≠ .saving ∧ s.domOn 31 = true ∧ 3 ≤ s.sec.negotiated ∧ 1 ≤ n ∧ n ≤ 6 ∧
      Runs (.getMeasurements n) s fun _ => True) :=
  ⟨⟨job, .host, by first | decide +kernel | exact okIs (by decide +kernel) | exact rfl,
     by first | decide +kernel | exact okIs (by decide +kernel) | exact rfl,
     by first | decide +kernel | exact okIs (by decide +kernel) | exact rfl,
     by first | decide +kernel | exact okIs (by decide +kernel) | exact rfl,
     by first | decide +kernel | exact okIs (by decide +kernel) | exact rfl, ⟨_, rfl, trivial⟩⟩,
   ⟨(run.modPwr fun p => { p with pstate := .halted }), .host,
     by first | decide +kernel | exact okIs (by decide +kernel) | exact rfl,
     by first | decide +kernel | exact okIs (by decide +kernel) | exact rfl,
     by first | decide +kernel | exact okIs (by decide +kernel) | exact rfl,
     by first | decide +kernel | exact okIs (by decide +kernel) | exact rfl, ⟨_, rfl, trivial⟩⟩,
   ⟨(run.modGran fun g => { g with st := .ready }), .host,
     by first | decide +kernel | exact okIs (by decide +kernel) | exact rfl,
     by first | decide +kernel | exact okIs (by decide +kernel) | exact rfl,
     by first | decide +kernel | exact okIs (by decide +kernel) | exact rfl,
     by first | decide +kernel | exact okIs (by decide +kernel) | exact rfl,
     by first | decide +kernel | exact okIs (by decide +kernel) | exact rfl, ⟨_, rfl, trivial⟩⟩,
   ⟨(run.modGran fun g => { g with st := .ready }), .host, [],
     by first | decide +kernel | exact okIs (by decide +kernel) | exact rfl,
     by first | decide +kernel | exact okIs (by decide +kernel) | exact rfl,
     by first | decide +kernel | exact okIs (by decide +kernel) | exact rfl,
     by first | decide +kernel | exact okIs (by decide +kernel) | exact rfl, ⟨_, rfl, trivial⟩⟩,
   ⟨job, .host, [], by first | decide +kernel | exact okIs (by decide +kernel) | exact rfl,
     by first | decide +kernel | exact okIs (by decide +kernel) | exact rfl,
     by first | decide +kernel | exact okIs (by decide +kernel) | exact rfl,
     by first | decide +kernel | exact okIs (by decide +kernel) | exact rfl, ⟨_, rfl, trivial⟩⟩,
   ⟨State.reset, [], ⟨_, rfl, trivial⟩⟩,
   ⟨(run.modSec fun u => { u with mode := .shared }), 3, Adr.FUSE_ARB, ⟨by decide +kernel, by decide +kernel⟩,
     by intro i hi; have : Adr.FUSE_ARB = 0 + Adr.FUSE_ARB := rfl; revert i; decide,
     by first | decide +kernel | exact okIs (by decide +kernel) | exact rfl,
     by first | decide +kernel | exact okIs (by decide +kernel) | exact rfl, by decide⟩,
   ⟨run, 3, (Adr.TILE_CTRL 7), ⟨by decide +kernel, by decide +kernel⟩, by decide,
     by first | decide +kernel | exact okIs (by decide +kernel) | exact rfl⟩,
   ⟨run, [], ⟨_, rfl, trivial⟩⟩,
   ⟨(run.modPwr fun p => { p with rstLow := true }), ⟨_, rfl, trivial⟩⟩,
   ⟨({ State.reset with pwr := { pstate := .starting, image := false } } : State),
     by first | decide +kernel | exact okIs (by decide +kernel) | exact rfl,
     by first | decide +kernel | exact okIs (by decide +kernel) | exact rfl,
     by first | decide +kernel | exact okIs (by decide +kernel) | exact rfl,
     by first | decide +kernel | exact okIs (by decide +kernel) | exact rfl,
     by first | decide +kernel | exact okIs (by decide +kernel) | exact rfl,
     by first | decide +kernel | exact okIs (by decide +kernel) | exact rfl, ⟨_, rfl, trivial⟩⟩,
   ⟨({ State.reset with pwr := { pstate := .starting, image := false, warm := true } } : State),
     by first | decide +kernel | exact okIs (by decide +kernel) | exact rfl,
     by first | decide +kernel | exact okIs (by decide +kernel) | exact rfl,
     by first | decide +kernel | exact okIs (by decide +kernel) | exact rfl,
     by first | decide +kernel | exact okIs (by decide +kernel) | exact rfl,
     by first | decide +kernel | exact okIs (by decide +kernel) | exact rfl,
     by first | decide +kernel | exact okIs (by decide +kernel) | exact rfl, ⟨_, rfl, trivial⟩⟩,
   ⟨State.reset, [1], [2], true, by first | decide +kernel | exact okIs (by decide +kernel) | exact rfl,
     by first | decide +kernel | exact okIs (by decide +kernel) | exact rfl,
     by first | decide +kernel | exact okIs (by decide +kernel) | exact rfl,
     by first | decide +kernel | exact okIs (by decide +kernel) | exact rfl,
     by first | decide +kernel | exact okIs (by decide +kernel) | exact rfl, ⟨_, rfl, trivial⟩⟩,
   ⟨({ State.reset with hub := { State.reset.hub with regs := [(Adr.FUSE_FUSE_STATUS, some 0)] } } : State),
     ((leBytes 16 (0x46434B49 + 2 ^ 32 + 5 * 2 ^ 48 + 2 ^ 57 + 0 * 2 ^ 64) ++ List.replicate 256 0)), [], true,
     by first | decide +kernel | exact okIs (by decide +kernel) | exact rfl⟩,
   ⟨({ State.reset with hub := { State.reset.hub with regs := [(Adr.FUSE_FUSE_STATUS, some 1), (Adr.FUSE_SERIAL_LO, some 7), (Adr.FUSE_SERIAL_HI, some 0)] } } : State),
     (leBytes 16 (0x46434B49 + 2 ^ 32 + 5 * 2 ^ 48 + 2 ^ 57 + 0 * 2 ^ 64) ++ List.replicate 256 0), [], true,
     by first | decide +kernel | exact okIs (by decide +kernel) | exact rfl⟩,
   ⟨({ State.reset with hub := { State.reset.hub with regs := [(Adr.FUSE_FUSE_STATUS, some 1), (Adr.FUSE_SERIAL_LO, some 7), (Adr.FUSE_SERIAL_HI, some 0)] } } : State),
     [1], [2], true, by first | decide +kernel | exact okIs (by decide +kernel) | exact rfl,
     by first | decide +kernel | exact okIs (by decide +kernel) | exact rfl,
     by first | decide +kernel | exact okIs (by decide +kernel) | exact rfl⟩,
   ⟨({ State.reset with hub := { State.reset.hub with regs := [(Adr.FUSE_FUSE_STATUS, some 1), (Adr.FUSE_SERIAL_LO, some 7), (Adr.FUSE_SERIAL_HI, some 0)] } } : State),
     (leBytes 16 (0x46434B49 + 2 ^ 32 + 5 * 2 ^ 48 + 2 ^ 57 + 8 * 2 ^ 64) ++ List.replicate 256 0),
     by first | decide +kernel | exact okIs (by decide +kernel) | exact rfl,
     by first | decide +kernel | exact okIs (by decide +kernel) | exact rfl,
     by first | decide +kernel | exact okIs (by decide +kernel) | exact rfl⟩,
   ⟨({ State.reset with hub := { State.reset.hub with regs := [(Adr.FUSE_FUSE_STATUS, some 1), (Adr.FUSE_SERIAL_LO, some 7), (Adr.FUSE_SERIAL_HI, some 0)] } } : State),
     (leBytes 16 (0x46434B49 + 2 ^ 32 + 5 * 2 ^ 48 + 2 ^ 57 + 7 * 2 ^ 64) ++ List.replicate 256 0),
     by first | decide +kernel | exact okIs (by decide +kernel) | exact rfl,
     by first | decide +kernel | exact okIs (by decide +kernel) | exact rfl⟩,
   ⟨State.reset, (leBytes 16 (0x46434B49 + 2 ^ 32 + 5 * 2 ^ 48 + 2 ^ 57 + 7 * 2 ^ 64) ++ List.replicate 256 0),
     ⟨by decide +kernel, by decide +kernel⟩, by first | decide +kernel | exact okIs (by decide +kernel) | exact rfl,
     by first | decide +kernel | exact okIs (by decide +kernel) | exact rfl,
     by first | decide +kernel | exact okIs (by decide +kernel) | exact rfl⟩,
   ⟨(run.modSec fun u => { u with negotiated := 3 }), 6,
     by first | decide +kernel | exact okIs (by decide +kernel) | exact rfl,
     by first | decide +kernel | exact okIs (by decide +kernel) | exact rfl,
     by first | decide +kernel | exact okIs (by decide +kernel) | exact rfl,
     by first | decide +kernel | exact okIs (by decide +kernel) | exact rfl,
     by first | decide +kernel | exact okIs (by decide +kernel) | exact rfl,
     by first | decide +kernel | exact okIs (by decide +kernel) | exact rfl, ⟨_, rfl, trivial⟩⟩⟩

theorem witness_SupplyFailure :
    (∃ s u, s.pwr.pwrFail = false ∧ u = State.bump Adr.PWR_PF_EVENTS 1 (s.modPwr fun p => { p with pwrFail := true }) ∧
      (s.pwr.pstate = .run ∨ s.pwr.pstate = .reduced) ∧ Runs .pwrFailAssert s fun _ => True) ∧
    (∃ s u, s.pwr.pwrFail = false ∧ u = State.bump Adr.PWR_PF_EVENTS 1 (s.modPwr fun p => { p with pwrFail := true }) ∧
      (s.pwr.pstate = .starting ∨ s.pwr.pstate = .halted) ∧ Runs .pwrFailAssert s fun _ => True) ∧
    (∃ s u, s.pwr.pwrFail = false ∧ u = State.bump Adr.PWR_PF_EVENTS 1 (s.modPwr fun p => { p with pwrFail := true }) ∧
      (s.pwr.pstate = .saving ∨ s.pwr.pstate = .saved) ∧ Runs .pwrFailAssert s fun _ => True) ∧
    (∃ s, s.pwr.pwrFail = true ∧ Runs .pwrFailAssert s fun _ => True) ∧
    (∃ (s : State), s.saveSkipped = false ∧ s.sec.fuse = none) ∧
    (∃ s j, s.pwr.pstate = .saving ∧ s.pwr.save = some j ∧ Runs (.saveWriteDone true) s fun _ => True) ∧
    (∃ s j, s.pwr.pstate = .saving ∧ s.pwr.save = some j ∧ Runs (.saveWriteDone false) s fun _ => True) ∧
    (∃ s b, s.pwr.pstate = .saved ∧ Runs (.pwrFailRelease b) s fun _ => True) ∧
    (∃ s b, s.pwr.pstate ≠ .saved ∧ Runs (.pwrFailRelease b) s fun _ => True) ∧
    (∃ s, s.running = true ∧ Runs .crefclkLost s fun _ => True) ∧
    (∃ s, s.pwr.pstate = .saving ∧ Runs .crefclkLost s fun _ => True) ∧
    (∃ s n v, v = min (n / 10 * 10) 65530 ∧ (s.pwr.pstate ≠ .saving ∨ 7000 ≤ v) ∧ Runs (.vholdSample n) s fun _ => True) ∧
    (∃ s n, s.pwr.pstate = .saving ∧ n < 7000 ∧ Runs (.vholdSample n) s fun _ => True) ∧
    (∃ s n, s.pwr.lowSince = some n ∧ s.running = true ∧ n + 1000000 ≤ s.ns ∧ Runs .vholdLow s fun _ => True) ∧
    (∃ s, s.running = true ∧ s.pwr.pwrFail = false ∧ Runs (.brownOut false false) s fun _ => True) ∧
    (∃ s b, s.pwr.pstate ≠ .saved ∧ Runs (.brownOut true b) s fun _ => True) ∧
    (∃ s a b, s.pwr.pstate = .saved ∧ Runs (.brownOut a b) s fun _ => True) ∧
    (∃ s, Runs .thermTrip s fun _ => True) :=
  ⟨⟨run, _, by first | decide +kernel | exact okIs (by decide +kernel) | exact rfl, rfl,
     by first | decide +kernel | exact okIs (by decide +kernel) | exact rfl, ⟨_, rfl, trivial⟩⟩,
   ⟨State.reset, _, by first | decide +kernel | exact okIs (by decide +kernel) | exact rfl, rfl,
     by first | decide +kernel | exact okIs (by decide +kernel) | exact rfl, ⟨_, rfl, trivial⟩⟩,
   ⟨(run.modPwr fun p => { p with pstate := .saved }), _,
     by first | decide +kernel | exact okIs (by decide +kernel) | exact rfl, rfl,
     by first | decide +kernel | exact okIs (by decide +kernel) | exact rfl, ⟨_, rfl, trivial⟩⟩,
   ⟨(run.modPwr fun p => { p with pwrFail := true }),
     by first | decide +kernel | exact okIs (by decide +kernel) | exact rfl, ⟨_, rfl, trivial⟩⟩,
   ⟨(run.setRg Adr.PWR_SAVE_CFG 1), by first | decide +kernel | exact okIs (by decide +kernel) | exact rfl,
     by first | decide +kernel | exact okIs (by decide +kernel) | exact rfl⟩,
   ⟨(run.modPwr fun p => { p with pstate := .saving, save := some { slot := 1, header := [1], body := [2] } }),
     ({ slot := 1, header := [1], body := [2] } : SaveJob),
     by first | decide +kernel | exact okIs (by decide +kernel) | exact rfl,
     by first | decide +kernel | exact okIs (by decide +kernel) | exact rfl, ⟨_, rfl, trivial⟩⟩,
   ⟨(run.modPwr fun p => { p with pstate := .saving, save := some { slot := 1, header := [1], body := [2] } }),
     ({ slot := 1, header := [1], body := [2] } : SaveJob),
     by first | decide +kernel | exact okIs (by decide +kernel) | exact rfl,
     by first | decide +kernel | exact okIs (by decide +kernel) | exact rfl, ⟨_, rfl, trivial⟩⟩,
   ⟨(run.modPwr fun p => { p with pstate := .saved, pwrFail := true }), [],
     by first | decide +kernel | exact okIs (by decide +kernel) | exact rfl, ⟨_, rfl, trivial⟩⟩,
   ⟨(run.modPwr fun p => { p with pwrFail := true }), [],
     by first | decide +kernel | exact okIs (by decide +kernel) | exact rfl, ⟨_, rfl, trivial⟩⟩,
   ⟨run, by first | decide +kernel | exact okIs (by decide +kernel) | exact rfl, ⟨_, rfl, trivial⟩⟩,
   ⟨(run.modPwr fun p => { p with pstate := .saving, save := some { slot := 1, header := [1], body := [2] } }),
     by first | decide +kernel | exact okIs (by decide +kernel) | exact rfl, ⟨_, rfl, trivial⟩⟩,
   ⟨(run.setRg Adr.PWR_VHOLD_WARN 8000), 7999, 7990, by first | decide +kernel | exact okIs (by decide +kernel) | exact rfl,
     by first | decide +kernel | exact okIs (by decide +kernel) | exact rfl, ⟨_, rfl, trivial⟩⟩,
   ⟨(run.modPwr fun p => { p with pstate := .saving, save := some { slot := 1, header := [1], body := [2] } }), 6999,
     by first | decide +kernel | exact okIs (by decide +kernel) | exact rfl,
     by first | decide +kernel | exact okIs (by decide +kernel) | exact rfl, ⟨_, rfl, trivial⟩⟩,
   ⟨((at_ 1000005 run).modPwr fun p => { p with lowSince := some 5 }), 5,
     by first | decide +kernel | exact okIs (by decide +kernel) | exact rfl,
     by first | decide +kernel | exact okIs (by decide +kernel) | exact rfl,
     by first | decide +kernel | exact okIs (by decide +kernel) | exact rfl, ⟨_, rfl, trivial⟩⟩,
   ⟨run, by first | decide +kernel | exact okIs (by decide +kernel) | exact rfl,
     by first | decide +kernel | exact okIs (by decide +kernel) | exact rfl, ⟨_, rfl, trivial⟩⟩,
   ⟨(run.modPwr fun p => { p with pstate := .saving, save := some { slot := 1, header := [1], body := [2] } }), false,
     by first | decide +kernel | exact okIs (by decide +kernel) | exact rfl, ⟨_, rfl, trivial⟩⟩,
   ⟨(run.modPwr fun p => { p with pstate := .saved }), true, true,
     by first | decide +kernel | exact okIs (by decide +kernel) | exact rfl, ⟨_, rfl, trivial⟩⟩,
   ⟨run, ⟨_, rfl, trivial⟩⟩⟩

theorem witness_OffDomains :
    (∃ (s : State), ∃ (src : Source), ∃ (a v : Nat), ∃ k i o, pageAt a = some (k, i, o) ∧ a % 4 = 0 ∧ a < 0x04000000 ∧
      src ≠ .loader ∧ s.pwr.warm = false ∧ (k = .port ∧ s.domOn (1 + i / 32) = false ∨ k = .octet ∧
      s.domOn (1 + i / 4) = false ∨ (k = .swcore ∨ k = .ttu ∨ k = .home ∨ k = .carv ∨ k = .sheaf) ∧
      s.domOn (25 + i) = false ∨ (k = .ext ∨ k = .exd ∨ k = .dom ∨ k = .kvpool ∨ k = .kvseq ∨ k = .job) ∧
      s.domOn 25 = false ∧ s.domOn 26 = false ∨ k = .tile ∧ s.domOn (17 + i) = false ∨ k = .tier ∧
      s.barnOn = false ∨ k = .gran ∧ s.domOn 29 = false ∨ (k = .hostp ∨ k = .chain) ∧ s.domOn 30 = false) ∧
      Runs (.counterLoRead src false a 1) s fun _ => True) ∧
    (∃ (s : State), ∃ (src : Source), ∃ (a v c : Nat), c < 16384 ∧ a % 4 = 0 ∧ (0x00C00000 + 16 * c ≤ a ∧
      a < 0x00C00010 + 16 * c ∨ 0x00C40000 + 16 * c ≤ a ∧ a < 0x00C40010 + 16 * c) ∧ src ≠ .loader ∧ s.pwr.warm = false ∧
      s.domOn (25 + ctrDie c) = false ∧ Runs (.counterLoRead src false a 1) s fun _ => True) ∧
    (∃ (s : State), ∃ (src : Source), ∃ (a v : Nat), 0x10000 ≤ a ∧ a < 0x20200 ∧ a % 4 = 0 ∧ s.pwr.warm = false ∧
      s.domOn 30 = false ∧ Runs (.counterLoRead src false a 1) s fun _ => True) ∧
    (∃ (s : State), ∃ (f o : Nat), ∃ (t : Bool), ∃ (v : Nat), f ≤ 1024 ∧ o < 0x10000 ∧ o % 4 = 0 ∧ s.pwr.warm = false ∧
      s.domOn 30 = false ∧ Runs (.counterLoRead .host t (0x04000000 + 0x10000 * f + o) 1) s fun _ => True) ∧
    (∃ (s : State), ∃ (addr n : Nat), s.barnOn = false ∧ Runs (.barnWindowRead addr n) s fun _ => True) ∧
    (∃ (s : State), ∃ (n d : Nat), d < 32) :=
  ⟨⟨(run.modPwr fun p => { p with off := [(25, true)] }), .host, (Adr.TTU_TIMEOUT 0), 5, .ttu, 0,
     (Adr.TTU_TIMEOUT 0 - 0x402000), by first | decide +kernel | exact okIs (by decide +kernel) | exact rfl,
     by first | decide +kernel | exact okIs (by decide +kernel) | exact rfl,
     by first | decide +kernel | exact okIs (by decide +kernel) | exact rfl,
     by first | decide +kernel | exact okIs (by decide +kernel) | exact rfl,
     by first | decide +kernel | exact okIs (by decide +kernel) | exact rfl, by decide +kernel, ⟨_, rfl, trivial⟩⟩,
   ⟨(run.modPwr fun p => { p with off := [(25, true)] }), .host, 0xC40018, 5, 1,
     by first | decide +kernel | exact okIs (by decide +kernel) | exact rfl,
     by first | decide +kernel | exact okIs (by decide +kernel) | exact rfl,
     by first | decide +kernel | exact okIs (by decide +kernel) | exact rfl,
     by first | decide +kernel | exact okIs (by decide +kernel) | exact rfl,
     by first | decide +kernel | exact okIs (by decide +kernel) | exact rfl,
     by first | decide +kernel | exact okIs (by decide +kernel) | exact rfl, ⟨_, rfl, trivial⟩⟩,
   ⟨(run.modPwr fun p => { p with off := [(30, true)] }), .chain, 0x10004, 5,
     by first | decide +kernel | exact okIs (by decide +kernel) | exact rfl,
     by first | decide +kernel | exact okIs (by decide +kernel) | exact rfl,
     by first | decide +kernel | exact okIs (by decide +kernel) | exact rfl,
     by first | decide +kernel | exact okIs (by decide +kernel) | exact rfl,
     by first | decide +kernel | exact okIs (by decide +kernel) | exact rfl, ⟨_, rfl, trivial⟩⟩,
   ⟨(run.modPwr fun p => { p with off := [(30, true)] }), 4, 0x104, false, 0x80000000,
     by first | decide +kernel | exact okIs (by decide +kernel) | exact rfl,
     by first | decide +kernel | exact okIs (by decide +kernel) | exact rfl,
     by first | decide +kernel | exact okIs (by decide +kernel) | exact rfl,
     by first | decide +kernel | exact okIs (by decide +kernel) | exact rfl,
     by first | decide +kernel | exact okIs (by decide +kernel) | exact rfl, ⟨_, rfl, trivial⟩⟩,
   ⟨(run.modPwr fun p => { p with off := [(28, true)] }), 100, 7,
     by first | decide +kernel | exact okIs (by decide +kernel) | exact rfl, ⟨_, rfl, trivial⟩⟩,
   ⟨run, 2, 30, by first | decide +kernel | exact okIs (by decide +kernel) | exact rfl⟩⟩

theorem witness_ChainTraffic :
    (∃ s b f, ∃ c, c ∈ [Instr.chainClaimRx b f, .chainEnumRx b f, .chainReadRx b true f, .chainReadRx b false f,
      .chainWriteRx b true f, .chainWriteRx b false f, .chainReadRspRx b f, .chainWriteRspRx b f, .chainEventRx b f,
      .chainBeaconRx b f, .chainEnumEndRx b f] ∧ s.pageOn .chain 0 = true ∧ chainBad f = true ∧ Runs c s fun _ => True) ∧
    (∃ s b f h, ∃ c, c ∈ [(Instr.chainClaimRx b f, 1), (.chainEnumRx b f, 2), (.chainReadRx b true f, 3),
      (.chainReadRx b false f, 3), (.chainWriteRx b true f, 4), (.chainWriteRx b false f, 4), (.chainReadRspRx b f, 5),
      (.chainWriteRspRx b f, 6), (.chainEventRx b f, 7), (.chainBeaconRx b f, 8), (.chainEnumEndRx b f, 9)] ∧
      s.pageOn .chain 0 = true ∧ chainBad f = false ∧ h = leNat (f.take 16) ∧ s.chain.st = .off ∧ chType h = c.2 ∧
      Runs c.1 s fun _ => True) ∧
    (∃ (s : State), ∃ (b : Bool), ∃ (h : Nat), ∃ (l : List Byte), chTtl h ≠ 0 ∧ s.chainUp (!b) = true) ∧
    (∃ (s : State), ∃ (b : Bool), ∃ (h : Nat), ∃ (l : List Byte), (chTtl h = 0 ∨ s.chainUp (!b) = false)) ∧
    (∃ s off n, nbits off 31 26 = 0 ∧ Runs (.chainWindowRead off n) s fun _ => True) ∧
    (∃ s off n, nbits off 31 26 ≠ 0 ∧ s.leads = false ∧ Runs (.chainWindowRead off n) s fun _ => True) ∧
    (∃ s off n, nbits off 31 26 ≠ 0 ∧ s.leads = true ∧ 1 ≤ n ∧ n ≤ 64 ∧ Runs (.chainWindowRead off n) s fun _ => True) ∧
    (∃ s off d, off % 4 = 0 ∧ d.length % 4 = 0 ∧ 4 ≤ d.length ∧ d.length ≤ 256 ∧ nbits off 31 26 = 0 ∧
      Runs (.chainWindowWrite off d) s fun _ => True) ∧
    (∃ s off d, off % 4 = 0 ∧ d.length % 4 = 0 ∧ 4 ≤ d.length ∧ d.length ≤ 256 ∧ nbits off 31 26 ≠ 0 ∧ s.leads = true ∧
      Runs (.chainWindowWrite off d) s fun _ => True) ∧
    (∃ s off d, off % 4 = 0 ∧ d.length % 4 = 0 ∧ 4 ≤ d.length ∧ d.length ≤ 256 ∧ nbits off 31 26 ≠ 0 ∧ s.leads = false ∧
      Runs (.chainWindowWrite off d) s fun _ => True) ∧
    (∃ s off d, (off % 4 ≠ 0 ∨ d.length % 4 ≠ 0 ∨ d.length = 0) ∧ Runs (.chainWindowWrite off d) s fun _ => True) ∧
    (∃ s b r f h u ws, s.pageOn .chain 0 = true ∧ chainBad f = false ∧ h = leNat (f.take 16) ∧ s.chainMine h = true ∧
      chArg h % 4 = 0 ∧ chArg h < 2 ^ 26 ∧ 1 ≤ chLen h ∧ chType h = 3 ∧ s.chainRead (chArg h) (chLen h) = (ws, u) ∧
      Runs (.chainReadRx b r f) s fun _ => True) ∧
    (∃ s b r f h, ∃ (u : State), ∃ (ws : List Word), s.pageOn .chain 0 = true ∧ chainBad f = false ∧ h = leNat (f.take 16) ∧
      s.chainMine h = true ∧ chArg h % 4 = 0 ∧ chArg h < 2 ^ 26 ∧ 1 ≤ chLen h ∧ chType h = 4 ∧
      Runs (.chainWriteRx b r f) s fun _ => True) ∧
    (∃ s b f h a ws, s.pageOn .chain 0 = true ∧ chainBad f = false ∧ h = leNat (f.take 16) ∧ s.chain.st ≠ .off ∧
      s.chain.accs.get (chTag h) = some a ∧ ws = dwordsOf ((f.drop 16).take (f.length - 20)) ∧ chArg h % 16 = 0 ∧
      chType h = 5 ∧ a.write = none ∧ a.serial = false ∧ ws.length = a.count ∧ Runs (.chainReadRspRx b f) s fun _ => True) ∧
    (∃ s b f h a ws, s.pageOn .chain 0 = true ∧ chainBad f = false ∧ h = leNat (f.take 16) ∧ s.chain.st ≠ .off ∧
      s.chain.accs.get (chTag h) = some a ∧ ws = dwordsOf ((f.drop 16).take (f.length - 20)) ∧ chArg h % 16 = 0 ∧
      chType h = 6 ∧ a.write.isSome = true ∧ Runs (.chainWriteRspRx b f) s fun _ => True) ∧
    (∃ s b f h, s.pageOn .chain 0 = true ∧ chainBad f = false ∧ h = leNat (f.take 16) ∧ s.leads = true ∧ chType h = 7 ∧
      nbits (chArg h) 15 8 = 1 ∧ Runs (.chainEventRx b f) s fun _ => True) ∧
    (∃ s b f h, s.pageOn .chain 0 = true ∧ chainBad f = false ∧ h = leNat (f.take 16) ∧ s.leads = true ∧ chType h = 7 ∧
      nbits (chArg h) 15 8 = 3 ∧ Runs (.chainEventRx b f) s fun _ => True) ∧
    (∃ s n a, s.chain.accs.get n = some a ∧ a.at_ + 1000 * s.rf Adr.CHAIN_RSP_TIMEOUT 19 0 ≤ s.ns ∧
      Runs (.chainRspTimeout n) s fun _ => True) :=
  ⟨⟨run, true, [1, 2, 3], (.chainWriteRx true false [1, 2, 3]),
     by first | decide +kernel | exact okIs (by decide +kernel) | exact rfl,
     by first | decide +kernel | exact okIs (by decide +kernel) | exact rfl,
     by first | decide +kernel | exact okIs (by decide +kernel) | exact rfl, ⟨_, rfl, trivial⟩⟩,
   ⟨(ser.modChain fun c => { c with upA := true }), true, (chainFrame (chainHdr 8 0 0 0 0 0 0 0) []),
     (leNat ((chainFrame (chainHdr 8 0 0 0 0 0 0 0) []).take 16)),
     (Instr.chainBeaconRx true (chainFrame (chainHdr 8 0 0 0 0 0 0 0) []), 8),
     by first | decide +kernel | exact okIs (by decide +kernel) | exact rfl,
     by first | decide +kernel | exact okIs (by decide +kernel) | exact rfl,
     by first | decide +kernel | exact okIs (by decide +kernel) | exact rfl,
     by first | decide +kernel | exact okIs (by decide +kernel) | exact rfl,
     by first | decide +kernel | exact okIs (by decide +kernel) | exact rfl,
     by first | decide +kernel | exact okIs (by decide +kernel) | exact rfl, ⟨_, rfl, trivial⟩⟩,
   ⟨(ser.modChain fun c => { c with upA := true }), true, (chainHdr 8 0 0 0 0 0 0 9), [],
     by first | decide +kernel | exact okIs (by decide +kernel) | exact rfl,
     by first | decide +kernel | exact okIs (by decide +kernel) | exact rfl⟩,
   ⟨(ser.modChain fun c => { c with upA := false }), true, (chainHdr 8 0 0 0 0 0 0 9), [], Or.inr (by decide +kernel)⟩,
   ⟨run, 0x9C04, 2, by first | decide +kernel | exact okIs (by decide +kernel) | exact rfl, ⟨_, rfl, trivial⟩⟩,
   ⟨run, 0x4009C04, 2, by first | decide +kernel | exact okIs (by decide +kernel) | exact rfl,
     by first | decide +kernel | exact okIs (by decide +kernel) | exact rfl, ⟨_, rfl, trivial⟩⟩,
   ⟨(ser.modChain fun c => { c with st := .lead, count := 3, upB := true, split := 2 }), 0x4009C04, 64,
     by first | decide +kernel | exact okIs (by decide +kernel) | exact rfl,
     by first | decide +kernel | exact okIs (by decide +kernel) | exact rfl,
     by first | decide +kernel | exact okIs (by decide +kernel) | exact rfl,
     by first | decide +kernel | exact okIs (by decide +kernel) | exact rfl, ⟨_, rfl, trivial⟩⟩,
   ⟨run, 0x9C04, (List.replicate 8 7), by first | decide +kernel | exact okIs (by decide +kernel) | exact rfl,
     by first | decide +kernel | exact okIs (by decide +kernel) | exact rfl,
     by first | decide +kernel | exact okIs (by decide +kernel) | exact rfl,
     by first | decide +kernel | exact okIs (by decide +kernel) | exact rfl,
     by first | decide +kernel | exact okIs (by decide +kernel) | exact rfl, ⟨_, rfl, trivial⟩⟩,
   ⟨(ser.modChain fun c => { c with st := .lead, count := 3, upB := true, split := 2 }), 0x4009C04, (List.replicate 256 7),
     by first | decide +kernel | exact okIs (by decide +kernel) | exact rfl,
     by first | decide +kernel | exact okIs (by decide +kernel) | exact rfl,
     by first | decide +kernel | exact okIs (by decide +kernel) | exact rfl,
     by first | decide +kernel | exact okIs (by decide +kernel) | exact rfl,
     by first | decide +kernel | exact okIs (by decide +kernel) | exact rfl,
     by first | decide +kernel | exact okIs (by decide +kernel) | exact rfl, ⟨_, rfl, trivial⟩⟩,
   ⟨run, 0x4009C04, (List.replicate 256 7), by first | decide +kernel | exact okIs (by decide +kernel) | exact rfl,
     by first | decide +kernel | exact okIs (by decide +kernel) | exact rfl,
     by first | decide +kernel | exact okIs (by decide +kernel) | exact rfl,
     by first | decide +kernel | exact okIs (by decide +kernel) | exact rfl,
     by first | decide +kernel | exact okIs (by decide +kernel) | exact rfl,
     by first | decide +kernel | exact okIs (by decide +kernel) | exact rfl, ⟨_, rfl, trivial⟩⟩,
   ⟨run, 0x4009C04, (List.replicate 5 7), Or.inr (Or.inl (by decide +kernel)), ⟨_, rfl, trivial⟩⟩,
   ⟨(ser.modChain fun c => { c with st := .follower, placed := true, pos := 5 }), true, false,
     (chainFrame (chainHdr 3 5 0 0 0 9 2 0x9C04) []), _, ((ser.modChain fun c => { c with st := .follower, placed := true, pos := 5 }).chainRead (chArg (leNat ((chainFrame (chainHdr 3 5 0 0 0 9 2 0x9C04) []).take 16))) (chLen (leNat ((chainFrame (chainHdr 3 5 0 0 0 9 2 0x9C04) []).take 16)))).2,
     ((ser.modChain fun c => { c with st := .follower, placed := true, pos := 5 }).chainRead (chArg (leNat ((chainFrame (chainHdr 3 5 0 0 0 9 2 0x9C04) []).take 16))) (chLen (leNat ((chainFrame (chainHdr 3 5 0 0 0 9 2 0x9C04) []).take 16)))).1,
     by first | decide +kernel | exact okIs (by decide +kernel) | exact rfl,
     by first | decide +kernel | exact okIs (by decide +kernel) | exact rfl, rfl,
     by first | decide +kernel | exact okIs (by decide +kernel) | exact rfl,
     by first | decide +kernel | exact okIs (by decide +kernel) | exact rfl,
     by first | decide +kernel | exact okIs (by decide +kernel) | exact rfl,
     by first | decide +kernel | exact okIs (by decide +kernel) | exact rfl,
     by first | decide +kernel | exact okIs (by decide +kernel) | exact rfl, rfl, ⟨_, rfl, trivial⟩⟩,
   ⟨(ser.modChain fun c => { c with st := .follower, placed := true, pos := 5 }), true, false,
     (chainFrame (chainHdr 4 5 0 0 0 9 2 0x9C04) [1, 2, 3, 4, 5, 6, 7, 8]), _, run, [],
     by first | decide +kernel | exact okIs (by decide +kernel) | exact rfl,
     by first | decide +kernel | exact okIs (by decide +kernel) | exact rfl, rfl,
     by first | decide +kernel | exact okIs (by decide +kernel) | exact rfl,
     by first | decide +kernel | exact okIs (by decide +kernel) | exact rfl,
     by first | decide +kernel | exact okIs (by decide +kernel) | exact rfl,
     by first | decide +kernel | exact okIs (by decide +kernel) | exact rfl,
     by first | decide +kernel | exact okIs (by decide +kernel) | exact rfl, ⟨_, rfl, trivial⟩⟩,
   ⟨(ser.modChain fun c => { c with st := .lead, count := 9, accs := [(9, some { pos := 5, addr := 4, count := 1 })] }),
     true, (chainFrame (chainHdr 5 0 0 0 0 9 1 0) [1, 2, 3, 4]), _, ({ pos := 5, addr := 4, count := 1 } : ChainAcc), _,
     by first | decide +kernel | exact okIs (by decide +kernel) | exact rfl,
     by first | decide +kernel | exact okIs (by decide +kernel) | exact rfl, rfl,
     by first | decide +kernel | exact okIs (by decide +kernel) | exact rfl,
     by first | decide +kernel | exact okIs (by decide +kernel) | exact rfl, rfl,
     by first | decide +kernel | exact okIs (by decide +kernel) | exact rfl,
     by first | decide +kernel | exact okIs (by decide +kernel) | exact rfl,
     by first | decide +kernel | exact okIs (by decide +kernel) | exact rfl,
     by first | decide +kernel | exact okIs (by decide +kernel) | exact rfl,
     by first | decide +kernel | exact okIs (by decide +kernel) | exact rfl, ⟨_, rfl, trivial⟩⟩,
   ⟨(ser.modChain fun c => { c with st := .lead, count := 9, accs := [(9, some { pos := 5, addr := 4, count := 1, write := some [3] })] }),
     true, (chainFrame (chainHdr 6 0 0 0 0 9 0 0) []), _, ({ pos := 5, addr := 4, count := 1, write := some [3] } : ChainAcc),
     _, by first | decide +kernel | exact okIs (by decide +kernel) | exact rfl,
     by first | decide +kernel | exact okIs (by decide +kernel) | exact rfl, rfl,
     by first | decide +kernel | exact okIs (by decide +kernel) | exact rfl,
     by first | decide +kernel | exact okIs (by decide +kernel) | exact rfl, rfl,
     by first | decide +kernel | exact okIs (by decide +kernel) | exact rfl,
     by first | decide +kernel | exact okIs (by decide +kernel) | exact rfl,
     by first | decide +kernel | exact okIs (by decide +kernel) | exact rfl, ⟨_, rfl, trivial⟩⟩,
   ⟨(ser.modChain fun c => { c with st := .lead }), true, (chainFrame (chainHdr 7 0 5 0 0 0 0 0x13F) []), _,
     by first | decide +kernel | exact okIs (by decide +kernel) | exact rfl,
     by first | decide +kernel | exact okIs (by decide +kernel) | exact rfl, rfl,
     by first | decide +kernel | exact okIs (by decide +kernel) | exact rfl,
     by first | decide +kernel | exact okIs (by decide +kernel) | exact rfl,
     by first | decide +kernel | exact okIs (by decide +kernel) | exact rfl, ⟨_, rfl, trivial⟩⟩,
   ⟨(ser.modChain fun c => { c with st := .lead }), true, (chainFrame (chainHdr 7 0 5 0 0 0 0 0x301) []), _,
     by first | decide +kernel | exact okIs (by decide +kernel) | exact rfl,
     by first | decide +kernel | exact okIs (by decide +kernel) | exact rfl, rfl,
     by first | decide +kernel | exact okIs (by decide +kernel) | exact rfl,
     by first | decide +kernel | exact okIs (by decide +kernel) | exact rfl,
     by first | decide +kernel | exact okIs (by decide +kernel) | exact rfl, ⟨_, rfl, trivial⟩⟩,
   ⟨((at_ 1000000000 ser).modChain fun c => { c with st := .lead, accs := [(9, some { pos := 5, addr := 4, count := 1, write := some [3] })] }),
     9, ({ pos := 5, addr := 4, count := 1, write := some [3] } : ChainAcc),
     by first | decide +kernel | exact okIs (by decide +kernel) | exact rfl,
     by first | decide +kernel | exact okIs (by decide +kernel) | exact rfl, ⟨_, rfl, trivial⟩⟩⟩

theorem witness_ChainElection :
    (∃ s src, s.takes src Adr.CHAIN_CTRL .rw = true ∧ s.chain.st = .off ∧ Runs (.chainEnable src) s fun _ => True) ∧
    (∃ s src, s.takes src Adr.CHAIN_CTRL .rw = true ∧ Runs (.chainDisable src) s fun _ => True) ∧
    (∃ s src, s.takes src Adr.CHAIN_CMD .wo = true ∧ s.chain.st ≠ .off ∧ Runs (.chainRestart src) s fun _ => True) ∧
    (∃ (s : State), ∃ (x : ChainState), s.chain.waiting = []) ∧
    (∃ s, s.chain.st = .listen ∧ s.chainEligible = true ∧ s.chain.heard = false ∧ Runs .chainListenTimer s fun _ => True) ∧
    (∃ s, s.chain.st = .listen ∧ (s.chainEligible = false ∨ s.chain.heard = true) ∧ Runs .chainListenTimer s fun _ => True) ∧
    (∃ s, s.chain.st = .claim ∧ Runs .chainClaimTimer s fun _ => True) ∧
    (∃ s, s.chain.st = .backoff ∧ Runs .chainBackoffTimer s fun _ => True) ∧
    (∃ s b f h l, s.pageOn .chain 0 = true ∧ chainBad f = false ∧ h = leNat (f.take 16) ∧
      l = (f.drop 16).take (f.length - 20) ∧ chType h = 1 ∧ s.chain.st = .claim ∧ chArg h = s.serial ∧
      Runs (.chainClaimRx b f) s fun _ => True) ∧
    (∃ s b f h l, s.pageOn .chain 0 = true ∧ chainBad f = false ∧ h = leNat (f.take 16) ∧
      l = (f.drop 16).take (f.length - 20) ∧ chType h = 1 ∧ s.chain.st = .claim ∧ chArg h ≠ s.serial ∧
      s.chainBetter h = true ∧ Runs (.chainClaimRx b f) s fun _ => True) ∧
    (∃ s b f h l, s.pageOn .chain 0 = true ∧ chainBad f = false ∧ h = leNat (f.take 16) ∧
      l = (f.drop 16).take (f.length - 20) ∧ chType h = 1 ∧ s.chain.st = .listen ∧ chArg h ≠ s.serial ∧
      s.chainBetter h = false ∧ s.chainEligible = true ∧ Runs (.chainClaimRx b f) s fun _ => True) ∧
    (∃ s b f h l, s.pageOn .chain 0 = true ∧ chainBad f = false ∧ h = leNat (f.take 16) ∧
      l = (f.drop 16).take (f.length - 20) ∧ chType h = 1 ∧ s.chain.st = .listen ∧ chArg h ≠ s.serial ∧
      s.chainBetter h = true ∧ Runs (.chainClaimRx b f) s fun _ => True) ∧
    (∃ s b f h l, s.pageOn .chain 0 = true ∧ chainBad f = false ∧ h = leNat (f.take 16) ∧
      l = (f.drop 16).take (f.length - 20) ∧ chType h = 1 ∧ s.leads = true ∧ chArg h ≠ s.serial ∧
      Runs (.chainClaimRx b f) s fun _ => True) ∧
    (∃ s b f h l, s.pageOn .chain 0 = true ∧ chainBad f = false ∧ h = leNat (f.take 16) ∧
      l = (f.drop 16).take (f.length - 20) ∧ chType h = 8 ∧ s.chain.st = .claim ∧ Runs (.chainBeaconRx b f) s fun _ => True) ∧
    (∃ s b f h l, s.pageOn .chain 0 = true ∧ chainBad f = false ∧ h = leNat (f.take 16) ∧
      l = (f.drop 16).take (f.length - 20) ∧ chType h = 8 ∧ s.chain.st = .follower ∧
      chArg h = s.rg64 Adr.CHAIN_LEAD_SERIAL_LO ∧ Runs (.chainBeaconRx b f) s fun _ => True) ∧
    (∃ s b f h l, s.pageOn .chain 0 = true ∧ chainBad f = false ∧ h = leNat (f.take 16) ∧
      l = (f.drop 16).take (f.length - 20) ∧ chType h = 8 ∧ s.leads = true ∧ chArg h ≠ s.serial ∧ s.chainBetter h = true ∧
      Runs (.chainBeaconRx b f) s fun _ => True) ∧
    (∃ s, s.chain.st = .lead ∧ Runs .chainBeaconSend s fun _ => True) ∧
    (∃ s, s.chain.st = .follower ∧ s.chain.beaconAt + 30000 * s.rf Adr.CHAIN_BEACON_INTERVAL 15 0 ≤ s.ns ∧
      Runs .chainBeaconLoss s fun _ => True) ∧
    (∃ s t n, s.chain.hostDown = some t ∧ n = s.rf Adr.CHAIN_HOST_LOSS 15 0 ∧ n ≠ 0 ∧ t + 1000000 * n ≤ s.ns ∧
      Runs .chainHostLoss s fun _ => True) :=
  ⟨⟨run, .host, by first | decide +kernel | exact okIs (by decide +kernel) | exact rfl,
     by first | decide +kernel | exact okIs (by decide +kernel) | exact rfl, ⟨_, rfl, trivial⟩⟩,
   ⟨run, .host, by first | decide +kernel | exact okIs (by decide +kernel) | exact rfl, ⟨_, rfl, trivial⟩⟩,
   ⟨(ser.modChain fun c => { c with st := .lead }), .host,
     by first | decide +kernel | exact okIs (by decide +kernel) | exact rfl,
     by first | decide +kernel | exact okIs (by decide +kernel) | exact rfl, ⟨_, rfl, trivial⟩⟩,
   ⟨(ser.modChain fun c => { c with st := .lead }), .listen,
     by first | decide +kernel | exact okIs (by decide +kernel) | exact rfl⟩,
   ⟨(((ser.modChain fun c => { c with st := .listen }).setRg Adr.CHAIN_CFG 0x10005).modHost fun h => { h with linkUp := true }),
     by first | decide +kernel | exact okIs (by decide +kernel) | exact rfl,
     by first | decide +kernel | exact okIs (by decide +kernel) | exact rfl,
     by first | decide +kernel | exact okIs (by decide +kernel) | exact rfl, ⟨_, rfl, trivial⟩⟩,
   ⟨(ser.modChain fun c => { c with st := .listen }),
     by first | decide +kernel | exact okIs (by decide +kernel) | exact rfl, Or.inl (by decide +kernel), ⟨_, rfl, trivial⟩⟩,
   ⟨(ser.modChain fun c => { c with st := .claim }), by first | decide +kernel | exact okIs (by decide +kernel) | exact rfl,
     ⟨_, rfl, trivial⟩⟩,
   ⟨(ser.modChain fun c => { c with st := .backoff }),
     by first | decide +kernel | exact okIs (by decide +kernel) | exact rfl, ⟨_, rfl, trivial⟩⟩,
   ⟨(((ser.modChain fun c => { c with st := .claim }).setRg Adr.CHAIN_CFG 0x10005).modHost fun h => { h with linkUp := true }),
     true, (chainFrame (chainHdr 1 0 0 0 5 0 0 7) []), _, _,
     by first | decide +kernel | exact okIs (by decide +kernel) | exact rfl,
     by first | decide +kernel | exact okIs (by decide +kernel) | exact rfl, rfl, rfl,
     by first | decide +kernel | exact okIs (by decide +kernel) | exact rfl,
     by first | decide +kernel | exact okIs (by decide +kernel) | exact rfl,
     by first | decide +kernel | exact okIs (by decide +kernel) | exact rfl, ⟨_, rfl, trivial⟩⟩,
   ⟨(((ser.modChain fun c => { c with st := .claim }).setRg Adr.CHAIN_CFG 0x10005).modHost fun h => { h with linkUp := true }),
     true, (chainFrame (chainHdr 1 0 0 0 5 0 0 6) []), _, _,
     by first | decide +kernel | exact okIs (by decide +kernel) | exact rfl,
     by first | decide +kernel | exact okIs (by decide +kernel) | exact rfl, rfl, rfl,
     by first | decide +kernel | exact okIs (by decide +kernel) | exact rfl,
     by first | decide +kernel | exact okIs (by decide +kernel) | exact rfl,
     by first | decide +kernel | exact okIs (by decide +kernel) | exact rfl,
     by first | decide +kernel | exact okIs (by decide +kernel) | exact rfl, ⟨_, rfl, trivial⟩⟩,
   ⟨(((ser.modChain fun c => { c with st := .listen }).setRg Adr.CHAIN_CFG 0x10005).modHost fun h => { h with linkUp := true }),
     true, (chainFrame (chainHdr 1 0 0 0 6 0 0 1) []), _, _,
     by first | decide +kernel | exact okIs (by decide +kernel) | exact rfl,
     by first | decide +kernel | exact okIs (by decide +kernel) | exact rfl, rfl, rfl,
     by first | decide +kernel | exact okIs (by decide +kernel) | exact rfl,
     by first | decide +kernel | exact okIs (by decide +kernel) | exact rfl,
     by first | decide +kernel | exact okIs (by decide +kernel) | exact rfl,
     by first | decide +kernel | exact okIs (by decide +kernel) | exact rfl,
     by first | decide +kernel | exact okIs (by decide +kernel) | exact rfl, ⟨_, rfl, trivial⟩⟩,
   ⟨(((ser.modChain fun c => { c with st := .listen }).setRg Adr.CHAIN_CFG 0x10005).modHost fun h => { h with linkUp := true }),
     true, (chainFrame (chainHdr 1 0 0 0 4 0 0 9) []), _, _,
     by first | decide +kernel | exact okIs (by decide +kernel) | exact rfl,
     by first | decide +kernel | exact okIs (by decide +kernel) | exact rfl, rfl, rfl,
     by first | decide +kernel | exact okIs (by decide +kernel) | exact rfl,
     by first | decide +kernel | exact okIs (by decide +kernel) | exact rfl,
     by first | decide +kernel | exact okIs (by decide +kernel) | exact rfl,
     by first | decide +kernel | exact okIs (by decide +kernel) | exact rfl, ⟨_, rfl, trivial⟩⟩,
   ⟨(((ser.modChain fun c => { c with st := .enumerating }).setRg Adr.CHAIN_CFG 0x10005).modHost fun h => { h with linkUp := true }),
     true, (chainFrame (chainHdr 1 0 0 0 4 0 0 9) []), _, _,
     by first | decide +kernel | exact okIs (by decide +kernel) | exact rfl,
     by first | decide +kernel | exact okIs (by decide +kernel) | exact rfl, rfl, rfl,
     by first | decide +kernel | exact okIs (by decide +kernel) | exact rfl,
     by first | decide +kernel | exact okIs (by decide +kernel) | exact rfl,
     by first | decide +kernel | exact okIs (by decide +kernel) | exact rfl, ⟨_, rfl, trivial⟩⟩,
   ⟨(((ser.modChain fun c => { c with st := .claim }).setRg Adr.CHAIN_CFG 0x10005).modHost fun h => { h with linkUp := true }),
     true, (chainFrame (chainHdr 8 0 0 0 6 0 0 9) []), _, _,
     by first | decide +kernel | exact okIs (by decide +kernel) | exact rfl,
     by first | decide +kernel | exact okIs (by decide +kernel) | exact rfl, rfl, rfl,
     by first | decide +kernel | exact okIs (by decide +kernel) | exact rfl,
     by first | decide +kernel | exact okIs (by decide +kernel) | exact rfl, ⟨_, rfl, trivial⟩⟩,
   ⟨((ser.modChain fun c => { c with st := .follower }).setRg Adr.CHAIN_LEAD_SERIAL_LO 9), true,
     (chainFrame (chainHdr 8 0 0 0 0 0 0 9) []), _, _,
     by first | decide +kernel | exact okIs (by decide +kernel) | exact rfl,
     by first | decide +kernel | exact okIs (by decide +kernel) | exact rfl, rfl, rfl,
     by first | decide +kernel | exact okIs (by decide +kernel) | exact rfl,
     by first | decide +kernel | exact okIs (by decide +kernel) | exact rfl,
     by first | decide +kernel | exact okIs (by decide +kernel) | exact rfl, ⟨_, rfl, trivial⟩⟩,
   ⟨(((ser.modChain fun c => { c with st := .lead }).setRg Adr.CHAIN_CFG 0x10005).modHost fun h => { h with linkUp := true }),
     true, (chainFrame (chainHdr 8 0 0 0 5 0 0 6) []), _, _,
     by first | decide +kernel | exact okIs (by decide +kernel) | exact rfl,
     by first | decide +kernel | exact okIs (by decide +kernel) | exact rfl, rfl, rfl,
     by first | decide +kernel | exact okIs (by decide +kernel) | exact rfl,
     by first | decide +kernel | exact okIs (by decide +kernel) | exact rfl,
     by first | decide +kernel | exact okIs (by decide +kernel) | exact rfl,
     by first | decide +kernel | exact okIs (by decide +kernel) | exact rfl, ⟨_, rfl, trivial⟩⟩,
   ⟨(ser.modChain fun c => { c with st := .lead, ring := true }),
     by first | decide +kernel | exact okIs (by decide +kernel) | exact rfl, ⟨_, rfl, trivial⟩⟩,
   ⟨((at_ 30000000000 ser).modChain fun c => { c with st := .follower }),
     by first | decide +kernel | exact okIs (by decide +kernel) | exact rfl,
     by first | decide +kernel | exact okIs (by decide +kernel) | exact rfl, ⟨_, rfl, trivial⟩⟩,
   ⟨(((at_ 7000005 ser).setRg Adr.CHAIN_HOST_LOSS 7).modChain fun c => { c with hostDown := some 5, st := .lead }), 5, 7,
     by first | decide +kernel | exact okIs (by decide +kernel) | exact rfl,
     by first | decide +kernel | exact okIs (by decide +kernel) | exact rfl,
     by first | decide +kernel | exact okIs (by decide +kernel) | exact rfl,
     by first | decide +kernel | exact okIs (by decide +kernel) | exact rfl, ⟨_, rfl, trivial⟩⟩⟩

theorem witness_ChainEnumeration :
    (∃ s b f h n, s.pageOn .chain 0 = true ∧ chainBad f = false ∧ h = leNat (f.take 16) ∧ chType h = 2 ∧ s.chain.st ≠ .off ∧
      s.leads = false ∧ n = chN h ∧ 1 ≤ n ∧ n < 64 ∧ s.chain.fresh = false ∧ Runs (.chainEnumRx b f) s fun _ => True) ∧
    (∃ s b f h, s.pageOn .chain 0 = true ∧ chainBad f = false ∧ h = leNat (f.take 16) ∧ chType h = 2 ∧ s.chain.st ≠ .off ∧
      s.leads = false ∧ chN h = 64 ∧ s.chain.fresh = false ∧ Runs (.chainEnumRx b f) s fun _ => True) ∧
    (∃ s b f h, s.pageOn .chain 0 = true ∧ chainBad f = false ∧ h = leNat (f.take 16) ∧ chType h = 2 ∧ s.leads = true ∧
      1 ≤ chN h ∧ chN h ≤ 64 ∧ chArg h < s.serial ∧ Runs (.chainEnumRx b f) s fun _ => True) ∧
    (∃ s f h, s.pageOn .chain 0 = true ∧ chainBad f = false ∧ h = leNat (f.take 16) ∧ chType h = 9 ∧
      s.chain.st = .enumerating ∧ 1 ≤ chN h ∧ chN h ≤ 64 ∧ chArg h % 2 = 0 ∧ s.chain.sideA = none ∧
      Runs (.chainEnumEndRx true f) s fun _ => True) ∧
    (∃ s f h, ∃ k, s.pageOn .chain 0 = true ∧ chainBad f = false ∧ h = leNat (f.take 16) ∧ chType h = 9 ∧
      s.chain.st = .enumerating ∧ 1 ≤ chN h ∧ chN h ≤ 64 ∧ chArg h % 2 = 0 ∧ s.chain.sideA = some k ∧
      Runs (.chainEnumEndRx false f) s fun _ => True) ∧
    (∃ s, s.chain.st = .enumerating ∧ s.chain.sideA = none ∧ Runs .chainEnumTimeout s fun _ => True) ∧
    (∃ s, s.chain.st = .lead ∧ s.chain.ring = true ∧ s.chain.beaconAt + 3000 * s.rf Adr.CHAIN_BEACON_INTERVAL 15 0 ≤ s.ns ∧
      Runs .chainRingBroken s fun _ => True) ∧
    (∃ s b, ∃ c, c ∈ [(Instr.chainPortDown b, false, 3), (.chainPortRestore b, true, 4)] ∧ s.pageOn .chain 0 = true ∧
      s.chainUp b ≠ c.2.1 ∧ s.chain.st = .off ∧ Runs c.1 s fun _ => True) ∧
    (∃ s b, ∃ c, c ∈ [(Instr.chainPortDown b, false, 3), (.chainPortRestore b, true, 4)] ∧ s.pageOn .chain 0 = true ∧
      s.chainUp b ≠ c.2.1 ∧ s.leads = true ∧ Runs c.1 s fun _ => True) ∧
    (∃ s b, ∃ c, c ∈ [(Instr.chainPortDown b, false, 3), (.chainPortRestore b, true, 4)] ∧ s.pageOn .chain 0 = true ∧
      s.chainUp b ≠ c.2.1 ∧ s.chain.st = .follower ∧ Runs c.1 s fun _ => True) :=
  ⟨⟨(ser.modChain fun c => { c with st := .listen }), true, (chainFrame (chainHdr 2 63 0 0 0 0 0 9) []), _, 63,
     by first | decide +kernel | exact okIs (by decide +kernel) | exact rfl,
     by first | decide +kernel | exact okIs (by decide +kernel) | exact rfl, rfl,
     by first | decide +kernel | exact okIs (by decide +kernel) | exact rfl,
     by first | decide +kernel | exact okIs (by decide +kernel) | exact rfl,
     by first | decide +kernel | exact okIs (by decide +kernel) | exact rfl,
     by first | decide +kernel | exact okIs (by decide +kernel) | exact rfl,
     by first | decide +kernel | exact okIs (by decide +kernel) | exact rfl,
     by first | decide +kernel | exact okIs (by decide +kernel) | exact rfl,
     by first | decide +kernel | exact okIs (by decide +kernel) | exact rfl, ⟨_, rfl, trivial⟩⟩,
   ⟨(ser.modChain fun c => { c with st := .follower }), true, (chainFrame (chainHdr 2 0 0 1 0 0 0 9) []), _,
     by first | decide +kernel | exact okIs (by decide +kernel) | exact rfl,
     by first | decide +kernel | exact okIs (by decide +kernel) | exact rfl, rfl,
     by first | decide +kernel | exact okIs (by decide +kernel) | exact rfl,
     by first | decide +kernel | exact okIs (by decide +kernel) | exact rfl,
     by first | decide +kernel | exact okIs (by decide +kernel) | exact rfl,
     by first | decide +kernel | exact okIs (by decide +kernel) | exact rfl,
     by first | decide +kernel | exact okIs (by decide +kernel) | exact rfl, ⟨_, rfl, trivial⟩⟩,
   ⟨(ser.modChain fun c => { c with st := .lead }), true, (chainFrame (chainHdr 2 1 0 0 0 0 0 6) []), _,
     by first | decide +kernel | exact okIs (by decide +kernel) | exact rfl,
     by first | decide +kernel | exact okIs (by decide +kernel) | exact rfl, rfl,
     by first | decide +kernel | exact okIs (by decide +kernel) | exact rfl,
     by first | decide +kernel | exact okIs (by decide +kernel) | exact rfl,
     by first | decide +kernel | exact okIs (by decide +kernel) | exact rfl,
     by first | decide +kernel | exact okIs (by decide +kernel) | exact rfl,
     by first | decide +kernel | exact okIs (by decide +kernel) | exact rfl, ⟨_, rfl, trivial⟩⟩,
   ⟨(ser.modChain fun c => { c with st := .enumerating }), (chainFrame (chainHdr 9 3 0 0 0 0 0 2) []), _,
     by first | decide +kernel | exact okIs (by decide +kernel) | exact rfl,
     by first | decide +kernel | exact okIs (by decide +kernel) | exact rfl, rfl,
     by first | decide +kernel | exact okIs (by decide +kernel) | exact rfl,
     by first | decide +kernel | exact okIs (by decide +kernel) | exact rfl,
     by first | decide +kernel | exact okIs (by decide +kernel) | exact rfl,
     by first | decide +kernel | exact okIs (by decide +kernel) | exact rfl,
     by first | decide +kernel | exact okIs (by decide +kernel) | exact rfl,
     by first | decide +kernel | exact okIs (by decide +kernel) | exact rfl, ⟨_, rfl, trivial⟩⟩,
   ⟨(ser.modChain fun c => { c with st := .enumerating, sideA := some 2 }), (chainFrame (chainHdr 9 3 0 0 0 0 0 2) []), _,
     2, by first | decide +kernel | exact okIs (by decide +kernel) | exact rfl,
     by first | decide +kernel | exact okIs (by decide +kernel) | exact rfl, rfl,
     by first | decide +kernel | exact okIs (by decide +kernel) | exact rfl,
     by first | decide +kernel | exact okIs (by decide +kernel) | exact rfl,
     by first | decide +kernel | exact okIs (by decide +kernel) | exact rfl,
     by first | decide +kernel | exact okIs (by decide +kernel) | exact rfl,
     by first | decide +kernel | exact okIs (by decide +kernel) | exact rfl,
     by first | decide +kernel | exact okIs (by decide +kernel) | exact rfl, ⟨_, rfl, trivial⟩⟩,
   ⟨(ser.modChain fun c => { c with st := .enumerating }),
     by first | decide +kernel | exact okIs (by decide +kernel) | exact rfl,
     by first | decide +kernel | exact okIs (by decide +kernel) | exact rfl, ⟨_, rfl, trivial⟩⟩,
   ⟨((at_ 3000000000 ser).modChain fun c => { c with st := .lead, ring := true }),
     by first | decide +kernel | exact okIs (by decide +kernel) | exact rfl,
     by first | decide +kernel | exact okIs (by decide +kernel) | exact rfl,
     by first | decide +kernel | exact okIs (by decide +kernel) | exact rfl, ⟨_, rfl, trivial⟩⟩,
   ⟨(ser.modChain fun c => { c with upA := true }), false, (Instr.chainPortDown false, false, 3),
     by first | decide +kernel | exact okIs (by decide +kernel) | exact rfl,
     by first | decide +kernel | exact okIs (by decide +kernel) | exact rfl,
     by first | decide +kernel | exact okIs (by decide +kernel) | exact rfl,
     by first | decide +kernel | exact okIs (by decide +kernel) | exact rfl, ⟨_, rfl, trivial⟩⟩,
   ⟨(ser.modChain fun c => { c with st := .lead }), true, (Instr.chainPortRestore true, true, 4),
     by first | decide +kernel | exact okIs (by decide +kernel) | exact rfl,
     by first | decide +kernel | exact okIs (by decide +kernel) | exact rfl,
     by first | decide +kernel | exact okIs (by decide +kernel) | exact rfl,
     by first | decide +kernel | exact okIs (by decide +kernel) | exact rfl, ⟨_, rfl, trivial⟩⟩,
   ⟨(ser.modChain fun c => { c with st := .follower }), true, (Instr.chainPortRestore true, true, 4),
     by first | decide +kernel | exact okIs (by decide +kernel) | exact rfl,
     by first | decide +kernel | exact okIs (by decide +kernel) | exact rfl,
     by first | decide +kernel | exact okIs (by decide +kernel) | exact rfl,
     by first | decide +kernel | exact okIs (by decide +kernel) | exact rfl, ⟨_, rfl, trivial⟩⟩⟩

end Sys2Proof.Tests
end

section
/-! PROOFS. What a register reads after a write of a pair, and what fabric time is read from. -/

namespace Sys2Proof.Machine
open Sys2Proof

theorem lo32_toNat (n : Nat) : (lo32 n).toNat = n % 2 ^ 32 := BitVec.toNat_ofNat n 32

theorem hi32_toNat (n : Nat) : (hi32 n).toNat = n / 2 ^ 32 % 2 ^ 32 := by
  rw [hi32, BitVec.toNat_ofNat, Nat.shiftRight_eq_div_pow]

theorem w32_toNat_of_lt {n : Nat} (h : n < 2 ^ 32) : (w32 n).toNat = n := by
  rw [w32, BitVec.toNat_ofNat, Nat.mod_eq_of_lt h]

/-! ### Registers -/

theorem rg_congr {s t : State} (h : t.hub.regs = s.hub.regs) (a : Nat) : t.rg a = s.rg a := by
  rw [State.rg, State.rg, h]

theorem rg64_congr {s t : State} (h : t.hub.regs = s.hub.regs) (a : Nat) : t.rg64 a = s.rg64 a := by
  rw [State.rg64, State.rg64, rg_congr h, rg_congr h]

theorem rf_congr {s t : State} {a : Nat} (h : t.rg a = s.rg a) (hi lo : Nat) : t.rf a hi lo = s.rf a hi lo := by
  rw [State.rf, State.rf, h]

theorem rg64_setRg_other (s : State) {a b : Nat} (v : Word) (lo : b ≠ a) (hi : b + 4 ≠ a) :
    (s.setRg a v).rg64 b = s.rg64 b := by
  rw [State.rg64, State.rg64, rg_setRg_other _ _ _ _ lo, rg_setRg_other _ _ _ _ hi]

theorem setRg_wf {s : State} (h : s.hub.wf = true) (a : Nat) (v : Word) : (s.setRg a v).hub.wf = true :=
  hub_wf_setRg _ a v h

/-- A pair that is written word by word reads as both words. -/
theorem rg64_setRg_pair {s : State} (h : s.hub.wf = true) (a : Nat) (lo hi : Word) :
    ((s.setRg a lo).setRg (a + 4) hi).rg64 a = lo.toNat + hi.toNat * 2 ^ 32 := by
  rw [State.rg64, rg_setRg_other _ _ _ _ (by omega), rg_setRg_self _ _ _ h, rg_setRg_self _ _ _ (setRg_wf h a lo)]

theorem rg64_setRg64 {s : State} (h : s.hub.wf = true) (a : Nat) {v : Nat} (hv : v < 2 ^ 64) :
    (s.setRg64 a v).rg64 a = v := by
  rw [State.setRg64, rg64_setRg_pair h, lo32_toNat, hi32_toNat]
  omega

theorem rg_setRg64_other (s : State) {a b : Nat} (v : Nat) (lo : b ≠ a) (hi : b ≠ a + 4) :
    (s.setRg64 a v).rg b = s.rg b := by
  rw [State.setRg64, rg_setRg_other _ _ _ _ hi, rg_setRg_other _ _ _ _ lo]

theorem setRg64_time (s : State) (a v : Nat) : (s.setRg64 a v).time = s.time := by
  simp only [State.setRg64, State.setRg_time]

theorem commitPair_regs (s : State) (src : Source) (a : Nat) (v : Word) :
    (s.commitPair src a v).hub.regs = ((s.setRg a (s.loFor src a)).setRg (a + 4) v).hub.regs := rfl

@[simp] theorem commitPair_time (s : State) (src : Source) (a : Nat) (v : Word) :
    (s.commitPair src a v).time = s.time := by
  simp only [State.commitPair, State.unstage, State.modHub_time, State.setRg_time]

theorem rg64_commitPair {s : State} (h : s.hub.wf = true) (src : Source) (a : Nat) (v : Word) :
    (s.commitPair src a v).rg64 a = (s.loFor src a).toNat + v.toNat * 2 ^ 32 :=
  (rg64_congr (commitPair_regs s src a v) a).trans (rg64_setRg_pair h a _ v)

/-! ### Fabric time -/

theorem ns_lt (s : State) : s.ns < 2 ^ 64 := Nat.mod_lt _ (by decide)

theorem ns_congr {s t : State} (h : t.time.now = s.time.now) : t.ns = s.ns := by rw [State.ns, State.ns, h]

theorem t16_congr {s t : State} (h : t.time.now = s.time.now) : t.t16 = s.t16 := by rw [State.t16, State.t16, h]

@[simp] theorem bump_time (s : State) (a n : Nat) : (s.bump a n).time = s.time := State.setCnt_time s a _

end Sys2Proof.Machine
end

section
/-! PROOFS. Serial-number comparison (R48). -/

namespace Sys2Proof.Machine
open Sys2Proof

/-- The difference that `newer` takes in the naturals is that of the integers. -/
theorem newer_diff (a b n : Nat) : (((a + 2 ^ n - b % 2 ^ n) % 2 ^ n : Nat) : Int) = ((a : Int) - b) % 2 ^ n := by
  have hb : b % 2 ^ n ≤ a + 2 ^ n := (Nat.mod_lt b (Nat.two_pow_pos n)).le.trans (Nat.le_add_left _ _)
  rw [Int.natCast_emod, Int.ofNat_sub hb]
  push_cast
  rw [Int.sub_emod, Int.add_emod_right, Int.emod_emod, ← Int.sub_emod]

theorem newer_iff (a b n : Nat) :
    newer a b n = true ↔ ((a : Int) - b) % 2 ^ n ≠ 0 ∧ ((a : Int) - b) % 2 ^ n < 2 ^ (n - 1) := by
  rw [← newer_diff]
  simp only [newer, Bool.and_eq_true, bne_iff_ne, decide_eq_true_eq]
  norm_cast

/-- Half a range back is half a range forward. -/
theorem neg_emod_of_half {d h : Int} (pos : 0 < h) (half : d % (2 * h) = h) : -d % (2 * h) = h := by
  have split : -d = h + 2 * h * (-(d / (2 * h)) - 1) := by
    linear_combination (Int.mul_ediv_add_emod d (2 * h)) - half
  rw [split, Int.add_mul_emod_self_left, Int.emod_eq_of_lt pos.le (by omega)]

/-- Settles O9: at half the range the difference is the same in both directions, and neither is below half. -/
theorem serialCompare : Obligations.SerialCompare := by
  intro n a b hn
  refine ⟨newer_iff a b n, fun half => ?_⟩
  have range : (2 : Int) ^ n = 2 * 2 ^ (n - 1) := by rw [← pow_succ', Nat.sub_add_cancel hn]
  have back : ((b : Int) - a) % 2 ^ n = 2 ^ (n - 1) := by
    rw [range] at half ⊢
    rw [← neg_sub, neg_emod_of_half (by positivity) half]
  simp only [← Bool.not_eq_true, newer_iff, half, back]
  exact ⟨fun h => lt_irrefl _ h.2, fun h => lt_irrefl _ h.2⟩

end Sys2Proof.Machine
end

section
/-! PROOFS. One cycle of the core clock (log entry 7, R26). -/

namespace Sys2Proof.Machine
open Sys2Proof

/-- What a cycle of the core clock leaves as it is once fabric time has advanced: it counts, and shapers earn. -/
structure CycleKeeps (s t : State) : Prop where
  pending : t.pending = s.pending
  now : t.time.now = s.time.now
  mem : t.mem = s.mem
  link : t.link = s.link
  out : t.out = s.out
  ttu : t.ttu = s.ttu
  sec : t.sec = s.sec
  pwr : t.pwr = s.pwr
  regs : t.hub.regs = s.hub.regs

theorem CycleKeeps.refl (s : State) : CycleKeeps s s := ⟨rfl, rfl, rfl, rfl, rfl, rfl, rfl, rfl, rfl⟩

theorem CycleKeeps.trans {s t u : State} (h : CycleKeeps s t) (g : CycleKeeps t u) : CycleKeeps s u where
  pending := g.pending.trans h.pending
  now := g.now.trans h.now
  mem := g.mem.trans h.mem
  link := g.link.trans h.link
  out := g.out.trans h.out
  ttu := g.ttu.trans h.ttu
  sec := g.sec.trans h.sec
  pwr := g.pwr.trans h.pwr
  regs := g.regs.trans h.regs

theorem CycleKeeps.ite {s t u : State} {c : Prop} [Decidable c] (ht : CycleKeeps s t) (hu : CycleKeeps s u) :
    CycleKeeps s (if c then t else u) := by
  split
  · exact ht
  · exact hu

theorem CycleKeeps.foldl {β : Type} {f : State → β → State} (hf : ∀ t b, CycleKeeps t (f t b)) :
    ∀ (l : List β) (s : State), CycleKeeps s (l.foldl f s)
  | [], s => .refl s
  | b :: l, s => (hf s b).trans (CycleKeeps.foldl hf l (f s b))

theorem cycleKeeps_bump (s : State) (a n : Nat) : CycleKeeps s (s.bump a n) :=
  ⟨rfl, rfl, rfl, rfl, rfl, rfl, rfl, rfl, rfl⟩

theorem cycleKeeps_setShaper (s : State) (p i : Nat) (v : Shaper) : CycleKeeps s (s.setShaper p i v) :=
  ⟨rfl, rfl, rfl, rfl, rfl, rfl, rfl, rfl, rfl⟩

theorem cycleKeeps_gcount (s : State) (ev inc die : Nat) (port tc fjid : Option Nat) :
    CycleKeeps s (s.gcount ev inc die port tc fjid) :=
  .foldl (fun t (e : Nat × Option Word) => .ite (cycleKeeps_bump t (e.1 + 8) inc) (.refl t)) _ s

theorem cycleKeeps_earn (s : State) (p i : Nat) : CycleKeeps s (s.earn p i) := by
  unfold State.earn
  exact .ite (.refl s) (((cycleKeeps_setShaper s p i _).trans (cycleKeeps_bump _ _ _)).trans (cycleKeeps_bump _ _ _))

theorem cycleKeeps_earnAll (s : State) : CycleKeeps s s.earnAll :=
  .foldl (fun t (x : Nat × Nat) => cycleKeeps_earn t x.1 x.2) _ s

theorem cycleKeeps_ppsFall (s : State) : CycleKeeps s s.ppsFall := by
  unfold State.ppsFall
  split
  · exact .ite ⟨rfl, rfl, rfl, rfl, rfl, rfl, rfl, rfl, rfl⟩ (.refl s)
  · exact .refl s

theorem cycleKeeps_stallPort (s : State) (p : Nat) : CycleKeeps s (s.stallPort p) := by
  have counted (tcs : List Nat) := CycleKeeps.foldl (fun t tc => CycleKeeps.ite (c := tcs.contains tc = true)
    (cycleKeeps_gcount t 0x05 1 (portDie p) (some p) (some tc) none) (.refl t)) (List.range 8) s
  exact .ite (counted _) ((counted _).trans (cycleKeeps_bump _ _ _))

theorem cycleKeeps_stallAll (s : State) : CycleKeeps s s.stallAll :=
  .foldl (fun t p => cycleKeeps_stallPort t p) _ s

theorem cycleKeeps_tagEvent (s : State) (n : Nat) (g : Tag) : CycleKeeps s (s.tagEvent n g) :=
  .ite (.refl s) (cycleKeeps_gcount s _ _ _ _ _ _)

theorem cycleKeeps_cycleEvents (s : State) : CycleKeeps s s.cycleEvents :=
  ((CycleKeeps.foldl (fun t (e : Nat × Stored) => cycleKeeps_gcount t 0x04 e.2.cells e.2.die _ _ none) _ s).trans
    (.foldl (fun t (e : Nat × Tag) => cycleKeeps_tagEvent t e.1 e.2) _ _)).trans
    (.foldl (fun t d => .ite (cycleKeeps_gcount t 0x13 1 d none none none) (.refl t)) _ _)

theorem cycleKeeps_tick {s : State} (h : s.live = true) : CycleKeeps s.tickTime s.tick := by
  rw [State.tick, if_pos h]
  exact (((cycleKeeps_earnAll _).trans (cycleKeeps_ppsFall _)).trans (cycleKeeps_stallAll _)).trans
    (cycleKeeps_cycleEvents _)

theorem step_of_pending_nil {s : State} (h : s.pending = []) : step s = .next s.tick := by
  unfold step; rw [h]

/-- Settles O2: after `tickTime` a cycle only counts and lets shapers earn. -/
theorem clockCycle : Obligations.ClockCycle := by
  refine ⟨fun s idle live => ?_, fun s idle dead => ?_⟩
  · have k := cycleKeeps_tick live
    exact ⟨s.tick, step_of_pending_nil idle, k.pending.trans idle, k.now, k.mem, k.link, k.out, k.ttu, k.sec, k.pwr,
      k.regs⟩
  · rw [step_of_pending_nil idle, State.tick, if_neg (by simp [dead])]

end Sys2Proof.Machine
end

section
/-! PROOFS. Reads of fabric time (R28). -/

namespace Sys2Proof.Machine
open Sys2Proof

/-- A read of the TIME page while the core runs reaches the page (R439, Table 15-8). -/
theorem readDword_time {s : State} {src : Source} {o a : Nat} (live : s.live = true) (cold : s.pwr.warm = false)
    (open_ : src ≠ .jtag ∨ s.sec.dbg ≠ 0) (page : pageAt a = some (.time, 0, o)) (low : a < 0x10000) :
    s.readDword src false a = (some (s.readPage src .time 0 o a).1, (s.readPage src .time 0 o a).2) := by
  have space : s.readSpace src a = s.readPage src .time 0 o a := by
    unfold State.readSpace
    rw [if_neg (by omega), if_neg (by omega), if_neg (by omega), if_neg (by omega), page]
    simp [State.pageOn, State.present, live]
  unfold State.readDword
  rw [if_neg (fun h => open_.elim (· h.1) (· h.2)), cold, if_neg (by decide), if_pos (by omega), space]

/-- What such a read answers, from what the page reads. -/
theorem readAnswer_time {s u : State} {src : Source} {o a : Nat} {v : Word} (live : s.live = true)
    (cold : s.pwr.warm = false) (open_ : src ≠ .jtag ∨ s.sec.dbg ≠ 0) (page : pageAt a = some (.time, 0, o))
    (low : a < 0x10000) (read : s.readPage src .time 0 o a = (v, u)) :
    s.readAnswer src false a = u.emit (.readData src v.toNat) := by
  rw [State.readAnswer, readDword_time live cold open_ page low, read]

theorem readPage_timeNow (s : State) (src : Source) (a : Nat) :
    s.readPage src .time 0 0x100 a = (lo32 s.ns, s.latchNow src) := rfl

theorem readPage_nowHi (s : State) (src : Source) (a : Nat) :
    s.readPage src .time 0 0x104 a = (s.latched src a (hi32 s.ns), s) := rfl

theorem readPage_nowFrac (s : State) (src : Source) (a : Nat) :
    s.readPage src .time 0 0x108 a = (s.latched src a (w32 (s.t16 % 2 ^ 16)), s) := rfl

theorem latchNow_nowHi (s : State) (src : Source) :
    (s.latchNow src).hub.latchHi.get (stageKey src Adr.TIME_NOW_HI) = some (hi32 s.ns) := by
  have keys : stageKey src Adr.TIME_NOW_HI ≠ stageKey src Adr.TIME_NOW_FRAC := by simp [stageKey]
  simp only [State.latchNow, State.modHub_hub]
  rw [get_set_other _ _ _ _ keys, get_set_ne _ _ _ (Option.some_ne_none _)]

theorem latchNow_nowFrac (s : State) (src : Source) :
    (s.latchNow src).hub.latchHi.get (stageKey src Adr.TIME_NOW_FRAC) = some (w32 (s.t16 % 2 ^ 16)) := by
  simp only [State.latchNow, State.modHub_hub]
  rw [get_set_ne _ _ _ (Option.some_ne_none _)]

theorem latched_of_some {s : State} {src : Source} {a : Nat} {v : Word} (live : Word)
    (h : s.hub.latchHi.get (stageKey src a) = some v) : s.latched src a live = v := by
  rw [State.latched, h, Option.getD_some]

/-- One dword at an aligned address is one answer. -/
theorem exec_counterLoRead_one (s : State) (src : Source) (t : Bool) (a : Nat) (h : a / 4 * 4 = a) :
    exec (.counterLoRead src t a 1) s = .next (s.readAnswer src t a) := by
  show Host.Outcome.next (State.readAnswer src t (a / 4 * 4) s) = _
  rw [h]

/-- Settles O20: NOW_LO latches both words, and a latched word is what a read of its address answers. -/
theorem timeNowLatched : Obligations.TimeNowLatched := by
  intro s src live cold open_
  refine ⟨(s.latchNow src).emit (.readData src (lo32 s.ns).toNat), ?_, by rw [lo32_toNat]; rfl,
    fun u ulive ucold uopen hi frac => ⟨?_, ?_⟩⟩
  · exact congrArg Host.Outcome.next
      (readAnswer_time live cold open_ (o := 0x100) rfl (by decide) (readPage_timeNow s src _))
  · rw [State.emit_hub, latchNow_nowHi] at hi
    rw [exec_counterLoRead_one _ _ _ _ rfl,
      readAnswer_time ulive ucold uopen (o := 0x104) rfl (by decide) (readPage_nowHi u src _),
      latched_of_some _ hi, hi32_toNat]
  · rw [State.emit_hub, latchNow_nowFrac] at frac
    rw [exec_counterLoRead_one _ _ _ _ rfl,
      readAnswer_time ulive ucold uopen (o := 0x108) rfl (by decide) (readPage_nowFrac u src _),
      latched_of_some _ frac, w32_toNat_of_lt ((Nat.mod_lt _ (by decide)).trans (by decide : 2 ^ 16 < 2 ^ 32))]

end Sys2Proof.Machine
end

section
/-! PROOFS. Sending and freeing packets leave fabric time and the registers as they are. -/

namespace Sys2Proof.Machine
open Sys2Proof

/-- Fabric time and the registers stay as they are. -/
structure SameTime (s t : State) : Prop where
  time : t.time = s.time
  regs : t.hub.regs = s.hub.regs

theorem SameTime.refl (s : State) : SameTime s s := ⟨rfl, rfl⟩

theorem SameTime.trans {s t u : State} (h : SameTime s t) (g : SameTime t u) : SameTime s u :=
  ⟨g.time.trans h.time, g.regs.trans h.regs⟩

theorem SameTime.ite {s t u : State} {c : Prop} [Decidable c] (ht : SameTime s t) (hu : SameTime s u) :
    SameTime s (if c then t else u) := by
  split
  · exact ht
  · exact hu

theorem sameTime_modSw (s : State) (f : SwitchUnit → SwitchUnit) : SameTime s (s.modSw f) := ⟨rfl, rfl⟩
theorem sameTime_modPort (s : State) (p : Nat) (f : Port → Port) : SameTime s (s.modPort p f) := ⟨rfl, rfl⟩
theorem sameTime_bump (s : State) (a n : Nat) : SameTime s (s.bump a n) := ⟨rfl, rfl⟩
theorem sameTime_takeNames (s : State) (n : Nat) : SameTime s (s.takeNames n) := ⟨rfl, rfl⟩

theorem sameTime_holdCells (s : State) (from_ : Ingress) (die c n : Nat) : SameTime s (s.holdCells from_ die c n) := by
  unfold State.holdCells
  cases from_ with
  | port p => exact (sameTime_modSw _ _).trans (sameTime_modPort _ _ _)
  | own d => exact (sameTime_modSw _ _).trans (sameTime_modSw _ _)

theorem sameTime_freeCells (s : State) (from_ : Ingress) (die c n epoch : Nat) :
    SameTime s (s.freeCells from_ die c n epoch) := by
  unfold State.freeCells
  cases from_ with
  | port p => exact (sameTime_modSw _ _).trans (sameTime_modPort _ _ _)
  | own d => exact (sameTime_modSw _ _).trans (sameTime_modSw _ _)

theorem sameTime_store (s : State) (from_ : Ingress) (die c cells : Nat) (items : List Queued) :
    SameTime s (s.store from_ die c cells items) := by
  unfold State.store
  exact ((sameTime_takeNames _ _).trans (sameTime_holdCells _ _ _ _ _)).trans (sameTime_modSw _ _)

theorem sameTime_deliver (s : State) (from_ : Ingress) (die : Nat) (k : Packet) : SameTime s (s.deliver from_ die k) := by
  unfold State.deliver
  exact ((sameTime_takeNames _ _).trans (sameTime_holdCells _ _ _ _ _)).trans (sameTime_modSw _ _)

theorem sameTime_copyGone (s : State) (id : Nat) : SameTime s (s.copyGone id) :=
  .ite ((sameTime_modSw _ _).trans (sameTime_freeCells _ _ _ _ _ _)) (sameTime_modSw _ _)

theorem sameTime_sendToPort (s : State) (die egress : Nat) (sh : Option Nat) (k : Packet) :
    SameTime s (s.sendToPort die egress sh k) :=
  .ite (sameTime_store _ _ _ _ _ _) (sameTime_modSw _ _)

theorem sameTime_putFlowlet (s : State) (k g i : Nat) : SameTime s (s.putFlowlet k g i) := sameTime_modSw _ _

theorem sameTime_sendBeacon (s : State) (p ty seq origin : Nat) : SameTime s (s.sendBeacon p ty seq origin) :=
  sameTime_sendToPort _ _ _ _ _

theorem sameTime_freshFlowlet (s : State) (k die g : Nat) (mem : List Nat) (a : Option Nat) :
    SameTime s (s.freshFlowlet k die g mem a).2 := by
  unfold State.freshFlowlet
  cases a with
  | none => exact .refl s
  | some i => exact .ite ((sameTime_modSw _ _).trans (sameTime_bump _ _ _)) (sameTime_modSw _ _)

theorem sameTime_groupMember (s : State) (die g mode : Nat) (mem : List Nat) (k : Packet) :
    SameTime s (s.groupMember die g mode mem k).2 := by
  unfold State.groupMember
  dsimp only
  split
  · exact .refl s
  split
  · exact .refl s
  split
  · exact sameTime_putFlowlet _ _ _ _
  · exact sameTime_freshFlowlet _ _ _ _ _ _

theorem sameTime_resolve (s : State) (die : Nat) (k : Packet) (eid cap1 : Nat) :
    SameTime s (s.resolve die k eid cap1).2 := by
  unfold State.resolve
  dsimp only
  split
  · exact .refl s
  split
  · exact .refl s
  split
  · split <;> exact .refl s
  · split
    · exact .refl s
    · next mode mem _ =>
      have member := sameTime_groupMember s die (nbits ((s.view die).fwd eid) 11 0) mode mem k
      split <;> next found => rw [found] at member; exact member
  · exact .refl s
  · exact .refl s

theorem sameTime_lookup (s : State) (die : Nat) (k : Packet) : SameTime s (s.lookup die k).2.2 := by
  unfold State.lookup
  dsimp only
  split
  · split
    · exact .refl s
    split
    · exact .refl s
    split
    · exact .refl s
    split
    · exact .refl s
    split
    · exact .refl s
    · exact sameTime_resolve _ _ _ _ _
  · exact sameTime_resolve _ _ _ _ _

theorem sameTime_sendFor (s : State) (die : Nat) (sh : Option Nat) (k : Packet) : SameTime s (s.sendFor die sh k) := by
  have found := sameTime_lookup s die k
  unfold State.sendFor
  generalize s.lookup die k = r at found ⊢
  obtain ⟨route, q, t⟩ := r
  refine .trans (t := t) found ?_
  cases route with
  | egress q => exact sameTime_sendToPort _ _ _ _ _
  | own => exact .ite (sameTime_deliver _ _ _ _) (sameTime_modSw _ _)
  | drop => exact .refl _
  | miss | noPath | setBad | setClass | bad => exact sameTime_bump _ _ _

theorem sameTime_unstallN (mrsp : Bool) : ∀ (n : Nat) (s : State), SameTime s (s.unstallN mrsp n)
  | 0, s => .refl s
  | n + 1, s => by
    unfold State.unstallN
    split
    · exact .refl s
    · next die eg sh k _ =>
      dsimp only
      refine .ite (.trans ?_ (sameTime_unstallN mrsp n _)) (.refl s)
      cases eg with
      | none => exact (sameTime_modSw s _).trans (sameTime_sendFor _ _ _ _)
      | some q => exact (sameTime_modSw s _).trans (sameTime_sendToPort _ _ _ _ _)

theorem sameTime_takeLocal (s : State) (p : Nat) (k : Packet) : SameTime s (s.takeLocal p k).2 := by
  unfold State.takeLocal
  split
  · exact .refl s
  · dsimp only
    exact sameTime_modSw s _

theorem sameTime_freeLocal (s : State) (c : Option Nat) : SameTime s (s.freeLocal c) := by
  unfold State.freeLocal
  cases c with
  | none => exact .refl s
  | some id => exact (sameTime_copyGone s id).trans (sameTime_unstallN _ _ _)

/-- Taking a delivered packet and freeing its cells. -/
theorem sameTime_taken {s u : State} {p c : Nat} {k : Packet} (taken : s.takeLocal p k = (some c, u)) :
    SameTime s (u.freeLocal (some c)) := by
  have left := sameTime_takeLocal s p k
  rw [taken] at left
  exact left.trans (sameTime_freeLocal u _)

end Sys2Proof.Machine
end

section
/-! PROOFS. Beacons, the delay exchange and the grandmaster election (R29 to R33, Table 2-4). -/

namespace Sys2Proof.Machine
open Sys2Proof

/-! ### The time unit's view of a port -/

theorem serial_congr {s t : State} (h : t.hub.regs = s.hub.regs) : t.serial = s.serial := by
  rw [State.serial, State.serial, State.rg64, State.rg64, rg_congr h, rg_congr h]

theorem knownGm_congr {s t : State} (h : t.hub.regs = s.hub.regs) (best : t.time.best = s.time.best) :
    t.knownGm = s.knownGm := by
  have own : t.ownGm = s.ownGm := by rw [State.ownGm, State.ownGm, State.rf, State.rf, rg_congr h, serial_congr h]
  have eligible : t.gmEligible = s.gmEligible := by rw [State.gmEligible, State.gmEligible, rg_congr h]
  rw [State.knownGm, State.knownGm, best, own, eligible]

@[simp] theorem modPortTime_time (s : State) (p : Nat) (f : PortTime → PortTime) :
    (s.modPortTime p f).time = { s.time with ports := s.time.ports.modify p f } := rfl

@[simp] theorem modPortTime_regs (s : State) (p : Nat) (f : PortTime → PortTime) :
    (s.modPortTime p f).hub.regs = s.hub.regs := rfl

/-- A changed view of a port, where the change is no return to reset. -/
theorem portTime_modPortTime_self {s : State} {p : Nat} {f : PortTime → PortTime} (h : f (s.portTime p) ≠ default) :
    (s.modPortTime p f).portTime p = f (s.portTime p) :=
  get_set_ne _ _ _ h

theorem portTime_congr {s t : State} (h : t.time = s.time) (p : Nat) : t.portTime p = s.portTime p := by
  rw [State.portTime, State.portTime, h]

/-! ### A beacon that is taken -/

/-- The state in which a beacon that the port accepts acts: its cells are freed and its SEQ is recorded (R30). -/
def State.beaconTaken (u : State) (c p ty seq : Nat) : State :=
  (u.freeLocal (some c)).modPortTime p fun q => q.setLast ty seq

/-- Packet `k` waits at port `p` under buffer id `c` and carries beacon `b`, which the port takes: Avber beacons are a
source, the port is not ignored, and it has recorded no SEQ of this type (R30, Table 2-11). `u` is left in the buffer. -/
structure TakesBeacon (s : State) (p : Nat) (k : Packet) (b : Beacon) (c : Nat) (u : State) : Prop where
  waits : s.takeLocal p k = (some c, u)
  port : p < 512
  cls : k.cls = 0
  form : beaconOf k = some b
  heard : (s.portTime p).ignored = false
  source : bit (s.rg Adr.TIME_SRC_CFG) 1 = true
  fresh : (s.portTime p).last b.ty = none

theorem beaconRx_taken {s u : State} {p ty c : Nat} {k : Packet} {b : Beacon} (act : Beacon → State → State)
    (takes : TakesBeacon s p k b c u) (type : b.ty = ty) :
    s.beaconRx p ty k act = act b (u.beaconTaken c p ty b.seq) := by
  obtain ⟨waits, port, cls, form, heard, source, fresh⟩ := takes
  subst type
  have same := sameTime_taken waits
  unfold State.beaconRx
  simp only [waits, form, portTime_congr same.time, rg_congr same.regs, heard, source, fresh, cls,
    Nat.not_le.2 port, Option.isNone_some, decide_false, bne_self_eq_false, Bool.or_self, Bool.not_true,
    Bool.false_eq_true, if_false, ne_eq, not_true_eq_false, State.beaconTaken]

/-- A beacon that is taken moves the port's record of sequence numbers only. -/
theorem beaconTaken_time {s u : State} {p c : Nat} {k : Packet} (taken : s.takeLocal p k = (some c, u)) (ty seq : Nat) :
    (u.beaconTaken c p ty seq).time = { s.time with ports := s.time.ports.modify p fun q => q.setLast ty seq } := by
  rw [State.beaconTaken, modPortTime_time, (sameTime_taken taken).time]

theorem beaconTaken_regs {s u : State} {p c : Nat} {k : Packet} (taken : s.takeLocal p k = (some c, u)) (ty seq : Nat) :
    (u.beaconTaken c p ty seq).hub.regs = s.hub.regs := by
  rw [State.beaconTaken, modPortTime_regs, (sameTime_taken taken).regs]

theorem setLast_ne_default (q : PortTime) (ty seq : Nat) : q.setLast ty seq ≠ default := by
  unfold PortTime.setLast
  split
  · exact fun h => Option.some_ne_none seq (congrArg PortTime.lastSync h)
  · exact fun h => Option.some_ne_none seq (congrArg PortTime.lastReq h)
  · exact fun h => Option.some_ne_none seq (congrArg PortTime.lastRsp h)

theorem beaconTaken_portTime {s u : State} {p c : Nat} {k : Packet} (taken : s.takeLocal p k = (some c, u))
    (ty seq : Nat) : (u.beaconTaken c p ty seq).portTime p = (s.portTime p).setLast ty seq := by
  rw [State.portTime, beaconTaken_time taken]
  exact get_set_ne _ _ _ (setLast_ne_default _ ty seq)

theorem setLast_ignored (q : PortTime) (ty seq : Nat) : (q.setLast ty seq).ignored = q.ignored := by
  unfold PortTime.setLast; split <;> rfl

/-! ### The election -/

/-- The Ikion follows grandmaster `g`, named on port `p` (Table 2-4). -/
def State.gmFollow (p : Nat) (g : Nat × Nat) (s : State) : State :=
  s.modTime fun t => { t with gm := .follow, best := some g, upstream := p }

/-- The origin and the arrival of a SYNC are kept with its port (R30). -/
def State.syncStamp (p origin : Nat) (s : State) : State :=
  s.modPortTime p fun q => { q with t1 := some origin, t2 := some s.t16 }

theorem syncStamp_delay (s : State) (p origin : Nat) :
    ((s.syncStamp p origin).portTime p).delay = (s.portTime p).delay := by
  rw [State.syncStamp, portTime_modPortTime_self]
  exact fun h => Option.some_ne_none _ (congrArg PortTime.t1 h)

/-- A better candidate named in LISTEN is followed (Table 2-4). -/
theorem elect_in_listen {s : State} {p : Nat} {g : Nat × Nat} (listen : s.time.gm = .listen) (other : g.2 ≠ s.serial)
    (better : ∀ b, s.knownGm = some b → pairLt g b = true) :
    s.elect p g = s.gmFollow p g := by
  unfold State.elect
  rw [if_neg other, listen]
  cases known : s.knownGm with
  | none => rfl
  | some b => simp only [better b known, State.gmFollow]

theorem syncOffset_of_no_delay {s : State} {p : Nat} (full : Bool) (h : (s.portTime p).delay = none) :
    s.syncOffset p full = s := by
  unfold State.syncOffset
  simp only [h]
  split
  · rfl
  · split
    · contradiction
    · rfl

theorem syncOffset_of_not_follow {s : State} (p : Nat) (full : Bool) (h : s.time.gm ≠ .follow) :
    s.syncOffset p full = s := by
  unfold State.syncOffset
  simp [h]

/-- A SYNC of a better grandmaster takes LISTEN to FOLLOW, with this port upstream (Table 2-4). -/
theorem syncRx_follows {s u : State} {p c : Nat} {k : Packet} {b : Beacon} (takes : TakesBeacon s p k b c u)
    (type : b.ty = 1) (noDelay : (s.portTime p).delay = none) (steps : b.steps < 16)
    (listen : s.time.gm = .listen) (other : b.gm.2 ≠ s.serial)
    (better : ∀ g, s.knownGm = some g → pairLt b.gm g = true) :
    Runs (.syncRx p k) s fun t => t.time.gm = .follow ∧ t.time.best = some b.gm ∧ t.time.upstream = p ∧
      t.time.steps = b.steps + 1 ∧ t.time.now = s.time.now := by
  refine ⟨_, congrArg Host.Outcome.next (beaconRx_taken _ takes type), ?_⟩
  have time := beaconTaken_time takes.waits 1 b.seq
  have regs := beaconTaken_regs takes.waits 1 b.seq
  have port := beaconTaken_portTime takes.waits 1 b.seq
  generalize u.beaconTaken c p 1 b.seq = w at *
  have followed : w.elect p b.gm = w.gmFollow p b.gm :=
    elect_in_listen (by rw [time]; exact listen) (by rw [serial_congr regs]; exact other)
      (by rw [knownGm_congr regs (by rw [time])]; exact better)
  have heardw : ((w.gmFollow p b.gm).portTime p).ignored = false := by
    change (w.portTime p).ignored = false
    rw [port, setLast_ignored, takes.heard]
  have stamped : (((w.gmFollow p b.gm).syncStamp p b.origin).portTime p).delay = none := by
    rw [syncStamp_delay]
    change (w.portTime p).delay = none
    rw [port]
    exact noDelay
  dsimp only
  rw [if_neg (Nat.not_le.2 steps), followed, heardw, if_neg Bool.false_ne_true, if_pos ⟨rfl, rfl⟩,
    syncOffset_of_no_delay]
  · change _ ∧ _ ∧ _ ∧ _ ∧ w.time.now = s.time.now
    exact ⟨rfl, rfl, rfl, rfl, by rw [time]⟩
  · exact stamped

/-- A delay request is answered with the time of its arrival (R29). -/
theorem delayReqRx_answers {s u : State} {p c : Nat} {k : Packet} {b : Beacon} (takes : TakesBeacon s p k b c u)
    (type : b.ty = 2) :
    ∃ w : State, exec (.delayReqRx p k) s = .next (w.sendBeacon p 3 b.seq s.t16) ∧ w.time.now = s.time.now ∧
      w.time.gm = s.time.gm := by
  have time := beaconTaken_time takes.waits 2 b.seq
  refine ⟨u.beaconTaken c p 2 b.seq, ?_, by rw [time], by rw [time]⟩
  rw [← t16_congr (s := s) (by rw [time])]
  exact congrArg Host.Outcome.next (beaconRx_taken _ takes type)

/-- The answer to the last request gives the delay of the link (R30). -/
theorem delayRspRx_delay {s u : State} {p c : Nat} {k : Packet} {b : Beacon} {t1 t2 t3 : Nat}
    (takes : TakesBeacon s p k b c u) (type : b.ty = 3) (ht1 : (s.portTime p).t1 = some t1)
    (ht2 : (s.portTime p).t2 = some t2) (ht3 : (s.portTime p).t3 = some t3) (last : (b.seq + 1) % 2 ^ 16 = (s.portTime p).seqReq)
    (noFollow : s.time.gm ≠ .follow) :
    Runs (.delayRspRx p k) s fun t =>
      (t.portTime p).delay = some (linkDelay t1 t2 t3 b.origin) ∧ t.time.now = s.time.now := by
  refine ⟨_, congrArg Host.Outcome.next (beaconRx_taken _ takes type), ?_⟩
  have time := beaconTaken_time takes.waits 3 b.seq
  have port := beaconTaken_portTime takes.waits 3 b.seq
  generalize u.beaconTaken c p 3 b.seq = w at *
  have h1 : (w.portTime p).t1 = some t1 := by rw [port]; exact ht1
  have h2 : (w.portTime p).t2 = some t2 := by rw [port]; exact ht2
  have h3 : (w.portTime p).t3 = some t3 := by rw [port]; exact ht3
  have answers : ¬ (b.seq + 1) % 2 ^ 16 ≠ (w.portTime p).seqReq := by rw [port]; exact not_not.2 last
  have measured := portTime_modPortTime_self (s := w) (p := p)
    (f := fun q => { q with delay := some (linkDelay t1 t2 t3 b.origin), t3 := none })
    (fun h => Option.some_ne_none _ (congrArg PortTime.delay h))
  dsimp only
  rw [h1, h2, h3]
  dsimp only
  rw [if_neg answers, syncOffset_of_not_follow, measured, modPortTime_time, time]
  · exact ⟨rfl, rfl⟩
  · rw [modPortTime_time, time]
    exact noFollow

/-! ### Sending, and IEEE 802.1AS -/

theorem sendSync_now (s : State) (p : Nat) : (s.sendSync p).time.now = s.time.now := by
  unfold State.sendSync
  split
  · rfl
  · simp only [modPortTime_time]
    exact congrArg TimeUnit.now (sameTime_sendBeacon s p 1 _ _).time

theorem exec_syncBeaconSend {s : State} {p : Nat} (port : s.beaconPort p = true) :
    exec (.syncBeaconSend p) s = .next (State.modPortTime p
      (fun q => { q with seqReq := (q.seqReq + 1) % 2 ^ 16, t3 := some s.t16 })
      ((s.sendSync p).sendBeacon p 2 ((s.sendSync p).portTime p).seqReq 0)) := by
  change execSyncBeaconSend p s = _
  rw [execSyncBeaconSend, port, Bool.not_true, if_neg Bool.false_ne_true]
  dsimp only
  rw [t16_congr (sendSync_now s p)]

theorem exec_pdelayReq {s : State} {p : Nat} (port : s.gptpPort p = true) (heard : (s.portTime p).ignored = false) :
    exec (.gptpMessageRx p .pdelayReq) s
      = .next ((s.emit (.gptp p (.pdelayResp s.t16))).emit (.gptp p (.pdelayRespFollowUp s.t16))) := by
  change execGptpMessageRx p .pdelayReq s = _
  rw [execGptpMessageRx, port, heard, Bool.not_true, Bool.or_self, if_neg Bool.false_ne_true]

theorem gptpMessageRx_delay {s : State} {p t1 t2 t3 t4 : Nat} (port : s.gptpPort p = true)
    (heard : (s.portTime p).ignored = false) (req : (s.portTime p).gReq = some t1)
    (resp : (s.portTime p).gResp = some (t2, t4)) :
    Runs (.gptpMessageRx p (.pdelayRespFollowUp t3)) s fun t =>
      (t.portTime p).delay = some (linkDelay t1 t2 t3 t4) := by
  refine ⟨_, rfl, ?_⟩
  rw [port, heard, Bool.not_true, Bool.or_self, if_neg Bool.false_ne_true]
  dsimp only
  rw [req, resp]
  exact congrArg PortTime.delay (portTime_modPortTime_self fun h => Option.some_ne_none _ (congrArg PortTime.delay h))

theorem gptpMessageSend_out {s : State} {p : Nat} {g : Nat × Nat} (port : s.gptpPort p = true)
    (known : s.curGm = some g) :
    Runs (.gptpMessageSend p) s fun t => t.out = s.out ++ [.gptp p (.announce g.1 g.2 s.gmSteps), .gptp p .sync,
      .gptp p (.followUp s.t16), .gptp p .pdelayReq] ∧ (t.portTime p).gReq = some s.t16 := by
  refine ⟨_, rfl, ?_⟩
  have sent : s.sendGptp p = ((s.emit (.gptp p (.announce g.1 g.2 s.gmSteps))).emit (.gptp p .sync)).emit
      (.gptp p (.followUp s.t16)) := by
    rw [State.sendGptp, known]
  rw [port, Bool.not_true, if_neg Bool.false_ne_true, sent]
  refine ⟨?_, congrArg PortTime.gReq
    (portTime_modPortTime_self fun h => Option.some_ne_none _ (congrArg PortTime.gReq h))⟩
  change (((s.out ++ [_]) ++ [_]) ++ [_]) ++ [_] = _
  simp only [List.append_assoc, List.cons_append, List.nil_append]

/-! ### The timers of the election -/

theorem upstreamSilent_time {s : State} (follow : s.time.gm = .follow) : Runs .upstreamSilent s fun t =>
    t.time = { s.time with gm := .listen, best := none, holdover := true, locked := false, good := 0 } := by
  refine ⟨_, rfl, ?_⟩
  rw [if_pos follow]
  rfl

theorem listenTimerEnd_claims {s : State} (listen : s.time.gm = .listen) (live : s.live = true)
    (eligible : s.gmEligible = true) (best : s.knownGm = some s.ownGm) :
    Runs .listenClaimTimerEnd s fun t => t.time = { s.time with gm := .claim } := by
  refine ⟨_, rfl, ?_⟩
  simp only [listen, live, eligible, best, beq_self_eq_true, Bool.and_self, if_true, State.modTime_time]

theorem claimTimerEnd_gm {s : State} (claim : s.time.gm = .claim) :
    Runs .listenClaimTimerEnd s fun t => t.time = { s.time with gm := .gm, holdover := false } := by
  refine ⟨_, rfl, ?_⟩
  simp only [claim, State.modTime_time]

theorem backoffTimerEnd_listen {s : State} (backoff : s.time.gm = .backoff) :
    Runs .backoffTimerEnd s fun t => t.time = { s.time with gm := .listen, best := none } := by
  refine ⟨_, rfl, ?_⟩
  rw [if_pos backoff]
  rfl

theorem exec_gmCfgWrite {s : State} {src : Source} (v : Word) (h : s.takes src Adr.TIME_GM_CFG .rwl = true) :
    exec (.gmCfgWrite src v) s = .next (s.writeGmCfg v) :=
  congrArg Host.Outcome.next (guarded_of_takes _ h)

theorem writeGmCfg_in_listen {s : State} (v : Word) (listen : s.time.gm = .listen) :
    s.writeGmCfg v = s.setRg Adr.TIME_GM_CFG (w32 (bits v 8 0)) := by
  unfold State.writeGmCfg
  simp only [State.setRg_time, listen]

theorem writeGmCfg_in_claim {s : State} (v : Word) (claim : s.time.gm = .claim) :
    s.writeGmCfg v = (s.setRg Adr.TIME_GM_CFG (w32 (bits v 8 0))).gmListen := by
  unfold State.writeGmCfg
  simp only [State.setRg_time, claim]

/-- Settles O22, one lemma for each message and each timer. -/
theorem grandmaster : Obligations.Grandmaster := by
  refine ⟨fun s p port => exec_syncBeaconSend port,
    fun s p k c u b waits hp cls form type heard source fresh noDelay steps listen other better =>
      syncRx_follows ⟨waits, hp, cls, form, heard, source, by rw [type]; exact fresh⟩ type noDelay steps listen other
        better,
    fun s p k c u b waits hp cls form type heard source fresh =>
      delayReqRx_answers ⟨waits, hp, cls, form, heard, source, by rw [type]; exact fresh⟩ type,
    fun s p k c u b t1 t2 t3 waits hp cls form type heard source fresh ht1 ht2 ht3 last noFollow =>
      delayRspRx_delay ⟨waits, hp, cls, form, heard, source, by rw [type]; exact fresh⟩ type ht1 ht2 ht3 last
        noFollow,
    fun s p port heard => exec_pdelayReq port heard,
    fun s p t1 t2 t3 t4 port heard req resp => gptpMessageRx_delay port heard req resp,
    fun s p g port known => gptpMessageSend_out port known,
    fun s follow => upstreamSilent_time follow,
    fun s listen live eligible best => listenTimerEnd_claims listen live eligible best,
    fun s claim => claimTimerEnd_gm claim,
    fun s backoff => backoffTimerEnd_listen backoff,
    fun s src v inv takes listen => ?_, fun s src v inv takes claim => ?_⟩
  · rw [Runs, exec_gmCfgWrite v takes, writeGmCfg_in_listen v listen]
    exact ⟨_, rfl, rg_setRg_self _ _ _ inv.hub, rfl⟩
  · rw [Runs, exec_gmCfgWrite v takes, writeGmCfg_in_claim v claim]
    exact ⟨_, rfl, rg_setRg_self _ _ _ inv.hub, rfl⟩

end Sys2Proof.Machine
end

section
/-! PROOFS. Setting fabric time, and the pulses (R34, R36). -/

namespace Sys2Proof.Machine
open Sys2Proof

theorem exec_timeSetWrite {s : State} {src : Source} (v : Word) (h : s.takes src Adr.TIME_SET_HI .rw = true) :
    exec (.timeSetWrite src v) s = .next (s.writeTimeSet src v) :=
  congrArg Host.Outcome.next (guarded_of_takes _ h)

theorem writeTimeSet_time {s : State} (h : s.hub.wf = true) (src : Source) (v : Word) :
    (s.writeTimeSet src v).time =
      { s.time with set := some ((s.loFor src Adr.TIME_SET_LO).toNat + v.toNat * 2 ^ 32, s.ns + 1000) } := by
  simp only [State.writeTimeSet, State.modTime_time, commitPair_time, rg64_commitPair h,
    ns_congr (congrArg TimeUnit.now (commitPair_time s src Adr.TIME_SET_LO v))]

theorem judgeSet_of_step_free {s : State} (v : Nat) (h : bit (s.rg Adr.TIME_CTRL) 0 = false) :
    s.judgeSet v = (s.modTime fun t => { t with set := none }).stepTime (nsTime v) := by
  have free : bit ((s.modTime fun t => { t with set := none }).rg Adr.TIME_CTRL) 0 = false := h
  unfold State.judgeSet
  rw [if_neg (by simp [free])]

theorem ppsPhase_setCapt (s : State) (v : Nat) : (s.setRg64 Adr.TIME_PPS_CAPT_LO v).ppsPhase = s.ppsPhase := by
  unfold State.ppsPhase
  rw [rg_setRg64_other _ _ (by decide) (by decide), setRg64_time]

theorem exec_timeSetEffect_due {s : State} {v due : Nat} (pend : s.time.set = some (v, due)) (now : due ≤ s.ns)
    (noPps : s.ppsPhase = false) (live : s.live = true) : exec .timeSetEffect s = .next (s.judgeSet v) := by
  change execTimeSetEffect s = _
  unfold execTimeSetEffect
  rw [pend]
  simp only [noPps, now, live, Bool.not_false, decide_true, Bool.and_self, if_true]

theorem exec_ppsLost_pps {s : State} (live : s.live = true) (pps : s.ppsPhase = true) :
    exec .ppsLost s = .next (State.raise Err.time_PPS_LOST 0 [] none (s.modTime fun t => { t with ppsLost := true })) := by
  change execPpsLost s = _
  rw [execPpsLost, live, pps, Bool.and_self, if_pos rfl]

theorem exec_refLost_gm {s : State} (live : s.live = true) (gm : s.time.gm = .gm)
    (en : bit (s.rg Adr.TIME_SRC_CFG) 0 = true) :
    exec .refLost s = .next (State.raise Err.time_REF_LOST 0 [] none (s.modTime fun t => { t with refLost := true })) := by
  change execRefLost s = _
  rw [execRefLost, live, gm, en]
  rfl

theorem exec_ppsInEdge_no_pps {s : State} (live : s.live = true) (noPps : s.ppsPhase = false) :
    exec .ppsInEdge s = .next (s.setRg64 Adr.TIME_PPS_CAPT_LO s.ns) := by
  change execPpsInEdge s = _
  unfold execPpsInEdge
  rw [live]
  simp only [Bool.not_true, Bool.false_eq_true, if_false, ppsPhase_setCapt, noPps, Bool.not_false, if_true]

/-- The state in which an edge of PPS_IN acts at a grandmaster with PPS_EN: it is captured, and PPS_IN is there (R34). -/
def State.ppsCaptured (s : State) : State :=
  (s.setRg64 Adr.TIME_PPS_CAPT_LO s.ns).modTime fun t => { t with ppsLost := false }

theorem ppsCaptured_time (s : State) : s.ppsCaptured.time = { s.time with ppsLost := false } := by
  simp only [State.ppsCaptured, State.modTime_time, setRg64_time]

theorem exec_ppsInEdge_aligns {s : State} (live : s.live = true) (pps : s.ppsPhase = true) (noSet : s.time.set = none) :
    exec .ppsInEdge s = .next (State.takeFree (State.stepTime (nsTime s.nearestSecond) s.ppsCaptured)) := by
  change execPpsInEdge s = _
  have captured : s.ppsCaptured.time.set = none := noSet
  unfold State.ppsCaptured at captured
  unfold execPpsInEdge
  rw [live]
  simp only [Bool.not_true, Bool.false_eq_true, if_false, ppsPhase_setCapt, pps, captured]
  rfl

theorem exec_ppsOutRise_second {s : State} (live : s.live = true) (width : s.rf Adr.TIME_CTRL 15 8 ≠ 0)
    (second : s.ns / 10 ^ 9 ≠ s.time.ppsSec) :
    exec .ppsOutRise s = .next ((s.modTime fun t => { t with
      ppsSec := s.ns / 10 ^ 9, ppsOut := some (s.ns + 1000 * s.rf Adr.TIME_CTRL 15 8) }).emit .ppsRise) := by
  change execPpsOutRise s = _
  unfold execPpsOutRise
  simp only [live, width, second, Bool.not_true, decide_false, Bool.or_self, Bool.false_eq_true, if_false]

/-- Settles O23: a pair written reads as its two words, and the captured edge leaves PPS_EN as it was. -/
theorem timeSetAndPulse : Obligations.TimeSetAndPulse := by
  refine ⟨fun s src v inv takes => ?_, fun s v due pend now noPps live free => ?_, fun s inv live noPps => ?_,
    fun s live pps noSet => ?_, fun s live pps => ?_, fun s live gm en => ?_, fun s live width second => ?_⟩
  · exact ⟨_, exec_timeSetWrite v takes, writeTimeSet_time inv.hub src v⟩
  · rw [exec_timeSetEffect_due pend now noPps live, judgeSet_of_step_free v free]
  · exact ⟨_, exec_ppsInEdge_no_pps live noPps, rg64_setRg64 inv.hub _ (ns_lt s), setRg64_time s _ _⟩
  · exact ⟨s.ppsCaptured, exec_ppsInEdge_aligns live pps noSet, ppsCaptured_time s⟩
  · exact exec_ppsLost_pps live pps
  · exact exec_refLost_gm live gm en
  · exact ⟨_, exec_ppsOutRise_second live width second, rfl, rfl⟩

end Sys2Proof.Machine
end

section
/-! PROOFS. Timetables (R41 to R43). -/

namespace Sys2Proof.Machine
open Sys2Proof

@[simp] theorem modTable_time (s : State) (p : Nat) (f : Timetable → Timetable) :
    (s.modTable p f).time = { s.time with tt := s.time.tt.modify p f } := rfl

@[simp] theorem ttReject_time (s : State) (p c : Nat) : (s.ttReject p c).time = s.time := rfl

theorem ttBusy_of_pend_none {s : State} {p : Nat} (act : State → State) (h : (s.timetable p).pend = none) :
    s.ttBusy p act = act s := by
  rw [State.ttBusy, h, Option.isSome_none, if_neg (by decide)]

theorem ttActive_of_disabled {s : State} {p : Nat} (h : bit (s.rg (Adr.PORT_TT_CTRL p)) 0 = false) :
    s.ttActive p = false := by
  rw [State.ttActive, h, Bool.false_and]

theorem exec_ttDataHiWrite {s : State} {src : Source} {p : Nat} (v : Word) (hp : p < 512)
    (h : s.takes src (Adr.PORT_TT_DATA_HI p) .rw = true) :
    exec (.ttDataHiWrite src p v) s = .next (s.writeTtData src p v) := by
  change execTtDataHiWrite src p v s = _
  rw [execTtDataHiWrite, if_pos hp, guarded_of_takes _ h]

theorem exec_ttCommit {s : State} {src : Source} {p : Nat} {v : Word} (hp : p < 512)
    (h : s.takes src (Adr.PORT_TT_CTRL p) .rw = true) (commit : bit v 31 = true) :
    exec (.ttCommit src p v) s = .next (s.writeTtCtrl p v) := by
  change execTtCommit src p v s = _
  rw [execTtCommit, if_pos (by simp [hp, commit]), guarded_of_takes _ h]

theorem exec_ttCancel {s : State} {src : Source} {p : Nat} {v : Word} (hp : p < 512)
    (h : s.takes src (Adr.PORT_TT_CTRL p) .rw = true) (cancel : bit v 30 = true) :
    exec (.ttCancel src p v) s = .next (s.writeTtCtrl p v) := by
  change execTtCancel src p v s = _
  rw [execTtCancel, if_pos (by simp [hp, cancel]), guarded_of_takes _ h]

/-! ### TT_DATA -/

theorem writeTtData_time {s : State} (inv : s.Inv) {src : Source} {p : Nat} (v : Word)
    (free : (s.timetable p).pend = none) :
    (s.writeTtData src p v).time = (s.modTable p fun x => { x with
      shadow := x.shadow.set (s.rf (Adr.PORT_TT_ADDR p) 9 0)
        (BitVec.ofNat 64 ((s.loFor src (Adr.PORT_TT_DATA_LO p)).toNat + v.toNat * 2 ^ 32)) }).time := by
  rw [State.writeTtData, ttBusy_of_pend_none _ free]
  simp only [State.setRg_time, modTable_time, commitPair_time, rg64_commitPair inv.hub]

theorem writeTtData_addr {s : State} (inv : s.Inv) {src : Source} {p : Nat} (v : Word)
    (free : (s.timetable p).pend = none) :
    (s.writeTtData src p v).rg (Adr.PORT_TT_ADDR p) = w32 ((s.rf (Adr.PORT_TT_ADDR p) 9 0 + 1) % 1024) := by
  have wf := (State.commitPair_inv (pmk := 25) (z := s) src (Adr.PORT_TT_DATA_LO p) v s (keeps_refl inv) rfl).inv.hub
  rw [State.writeTtData, ttBusy_of_pend_none _ free]
  exact rg_setRg_self _ _ _ wf

/-! ### COMMIT and CANCEL -/

theorem ttCheck_eq_zero_sized {n cycle base : Nat} {l : List (BitVec 64)} (h : ttCheck n cycle base l = 0) :
    n ≤ 1024 := by
  by_contra hn
  have big : decide (n ≤ 1024) = false := decide_eq_false hn
  simp [ttCheck, big] at h
  split at h <;> exact absurd h (by decide)

/-- A COMMIT that is taken sets the switch time and moves nothing else of the time unit (R42). -/
theorem ttCommit_time {s : State} {p : Nat} (free : (s.timetable p).pend = none)
    (ok : ttCheck (s.rf (Adr.PORT_TT_LEN p) 10 0) (s.rg (Adr.PORT_TT_CYCLE p)).toNat (s.rg64 (Adr.PORT_TT_BASE_LO p))
      ((s.timetable p).shadowList (s.rf (Adr.PORT_TT_LEN p) 10 0)) = 0) :
    (s.ttCommit p).time = (s.modTable p fun x => { x with pend := some (switchTime (s.rg64 (Adr.PORT_TT_BASE_LO p))
      (s.rg (Adr.PORT_TT_CYCLE p)).toNat (ceilDiv s.time.now.toNat (2 ^ 32))) }).time := by
  rw [State.ttCommit, ttBusy_of_pend_none _ free]
  simp only [if_pos (ttCheck_eq_zero_sized ok), ok, ne_eq, not_true_eq_false, if_false, setRg64_time, modTable_time,
    ttReject_time]

/-- The fields of TT_CTRL as a write stores them. -/
abbrev State.storeTtCtrl (p : Nat) (v : Word) (s : State) : State := s.setRg (Adr.PORT_TT_CTRL p) (v &&& 0x00FF0701)

theorem storeTtCtrl_inactive {s : State} (h : s.hub.wf = true) (p : Nat) {v : Word} (en : bit v 0 = false) :
    (s.storeTtCtrl p v).ttActive p = false := by
  refine ttActive_of_disabled ?_
  rw [rg_setRg_self _ _ _ h]
  unfold bit at en ⊢
  rw [BitVec.getLsbD_and, en, Bool.false_and]

/-- Without EN a write of TT_CTRL puts no entry into force: CANCEL acts, then COMMIT. -/
theorem putTtCtrl_of_disabled {s : State} (h : s.hub.wf = true) (p : Nat) {v : Word} (en : bit v 0 = false) :
    s.putTtCtrl p v =
      if bit v 31 then (if bit v 30 then (s.storeTtCtrl p v).ttCancel p else s.storeTtCtrl p v).ttCommit p
      else if bit v 30 then (s.storeTtCtrl p v).ttCancel p else s.storeTtCtrl p v := by
  have off := storeTtCtrl_inactive h p en
  unfold State.storeTtCtrl at *
  rw [State.putTtCtrl]
  simp only [off, Bool.and_false, Bool.false_eq_true, if_false]

theorem writeTtCtrl_commit {s : State} (h : s.hub.wf = true) {p : Nat} {v : Word} (commit : bit v 31 = true)
    (noCancel : bit v 30 = false) (en : bit v 0 = false) (free : (s.timetable p).pend = none) :
    s.writeTtCtrl p v = (s.storeTtCtrl p v).ttCommit p := by
  rw [State.writeTtCtrl, if_neg (by simp [noCancel, free]), putTtCtrl_of_disabled h p en]
  simp only [commit, noCancel, Bool.false_eq_true, if_true, if_false]

theorem writeTtCtrl_cancel {s : State} (h : s.hub.wf = true) {p : Nat} {v : Word} (noCommit : bit v 31 = false)
    (cancel : bit v 30 = true) (en : bit v 0 = false) : s.writeTtCtrl p v = (s.storeTtCtrl p v).ttCancel p := by
  rw [State.writeTtCtrl, if_neg (by simp [noCommit]), putTtCtrl_of_disabled h p en]
  simp only [noCommit, cancel, Bool.false_eq_true, if_true, if_false]

theorem ttCancel_before {s : State} {p t0 : Nat} (pend : (s.timetable p).pend = some t0) (early : s.ns < t0) :
    s.ttCancel p = s.modTable p fun x => { x with pend := none } := by
  rw [State.ttCancel, pend]
  exact if_pos early

theorem writeTtCtrl_commit_time {s : State} (h : s.hub.wf = true) {p : Nat} {v : Word} (commit : bit v 31 = true)
    (noCancel : bit v 30 = false) (en : bit v 0 = false) (free : (s.timetable p).pend = none)
    (ok : ttCheck (s.rf (Adr.PORT_TT_LEN p) 10 0) (s.rg (Adr.PORT_TT_CYCLE p)).toNat (s.rg64 (Adr.PORT_TT_BASE_LO p))
      ((s.timetable p).shadowList (s.rf (Adr.PORT_TT_LEN p) 10 0)) = 0) :
    (s.writeTtCtrl p v).time = (s.modTable p fun x => { x with pend := some (switchTime
      (s.rg64 (Adr.PORT_TT_BASE_LO p)) (s.rg (Adr.PORT_TT_CYCLE p)).toNat (ceilDiv s.time.now.toNat (2 ^ 32))) }).time := by
  have other (b : Nat) (h : b ≠ Adr.PORT_TT_CTRL p) : (s.storeTtCtrl p v).rg b = s.rg b := rg_setRg_other _ _ _ _ h
  have len := rf_congr (other (Adr.PORT_TT_LEN p) (by simp)) 10 0
  have cycle := other (Adr.PORT_TT_CYCLE p) (by simp)
  have base : (s.storeTtCtrl p v).rg64 (Adr.PORT_TT_BASE_LO p) = s.rg64 (Adr.PORT_TT_BASE_LO p) :=
    rg64_setRg_other _ _ (by simp) (by simp [Nat.add_assoc])
  have taken := ttCommit_time (s := s.storeTtCtrl p v) free (by rw [len, cycle, base]; exact ok)
  rw [writeTtCtrl_commit h commit noCancel en free, taken, base, cycle]
  rfl

theorem writeTtCtrl_cancel_time {s : State} (h : s.hub.wf = true) {p t0 : Nat} {v : Word} (noCommit : bit v 31 = false)
    (cancel : bit v 30 = true) (en : bit v 0 = false) (pend : (s.timetable p).pend = some t0) (early : s.ns < t0) :
    (s.writeTtCtrl p v).time = (s.modTable p fun x => { x with pend := none }).time := by
  rw [writeTtCtrl_cancel h noCommit cancel en, ttCancel_before (s := s.storeTtCtrl p v) pend early]
  rfl

/-! ### The switch and the entries -/

/-- The time unit after a switch with no operating list in force: the shadow list is entered (R42). -/
theorem ttSwitch_time {s : State} {p t0 : Nat} (pend : (s.timetable p).pend = some t0) (due : t0 ≤ s.ns)
    (off : s.ttActive p = false) :
    Runs (.ttSwitch p) s fun t => t.time = (State.ttEnter p (s.modTable p fun x => { x with
      oper := x.shadowList (s.rf (Adr.PORT_TT_LEN p) 10 0), cycle := (s.rg (Adr.PORT_TT_CYCLE p)).toNat
      base := s.rg64 (Adr.PORT_TT_BASE_LO p), pend := none })).time := by
  refine ⟨_, rfl, ?_⟩
  rw [pend]
  simp only [if_neg (Nat.not_lt.2 due), off, Bool.false_and, Bool.false_eq_true, if_false]
  split
  · exact bump_time _ _ _
  · rfl

theorem ttClose_of_judged {s : State} {p : Nat} (h : (s.timetable p).judged = true) : s.ttClose p = s := by
  simp only [State.ttClose, h, Bool.true_eq_false, and_false, if_false]

theorem ttEntryBoundary_time {s : State} {p : Nat} (on : s.ttActive p = true) (ended : (s.timetable p).ends ≤ s.ns)
    (judged : (s.timetable p).judged = true) :
    Runs (.ttEntryBoundary p) s fun t => t.time = (s.modTable p fun x => { x with
      idx := (x.plainAt x.ends).1, ends := (x.plainAt x.ends).2, held := false, judged := false }).time := by
  refine ⟨_, rfl, ?_⟩
  simp only [on, decide_eq_false (Nat.not_lt.2 ended), Bool.not_true, Bool.or_self, Bool.false_eq_true, if_false,
    ttClose_of_judged judged]
  split
  · exact bump_time _ _ _
  · rfl

/-- Settles O24: a list that Table 2-10 does not refuse has at most 1,024 entries, and the registers that COMMIT reads
are not those that the write stores. -/
theorem timetables : Obligations.Timetables := by
  refine ⟨fun s src p v inv hp takes free => ?_, fun s src p v inv hp takes commit noCancel en free ok => ?_,
    fun s src p v t0 inv hp takes cancel noCommit en pend early => ?_, fun s p t0 pend due off => ?_,
    fun s p on ended judged => ?_⟩
  · exact ⟨_, exec_ttDataHiWrite v hp takes, writeTtData_time inv v free, writeTtData_addr inv v free⟩
  · exact ⟨_, exec_ttCommit hp takes commit, writeTtCtrl_commit_time inv.hub commit noCancel en free ok⟩
  · exact ⟨_, exec_ttCancel hp takes cancel, writeTtCtrl_cancel_time inv.hub noCommit cancel en pend early⟩
  · exact ttSwitch_time pend due off
  · exact ttEntryBoundary_time on ended judged

end Sys2Proof.Machine
end

section
/-! PROOFS. A pending switch of a timetable (R43), in a state whose table of timetables is not in its one form. -/

namespace Sys2Proof.Machine
open Sys2Proof

/-- The machine in RUN, with the timetable of port 0 listed twice, each time with a switch pending for 1 ns. `State.Inv`
speaks of the barn and of the register space only, so this state meets it. -/
def doubledTimetable : State :=
  { State.reset with
    pwr := { pstate := .run }
    time := { tt := [(0, { pend := some 1 }), (0, { pend := some 1 })] } }

theorem doubledTimetable_inv : doubledTimetable.Inv := ⟨rfl, rfl⟩

theorem doubledTimetable_pend : (doubledTimetable.timetable 0).pend = some 1 := rfl

theorem doubledTimetable_takes : doubledTimetable.takes .host (Adr.PORT_TT_CTRL 0) .rw = true := by decide +kernel

/-- CANCEL at 0 ns removes the first entry of the port, and the second one is read: a switch stays pending. -/
theorem pend_writeTtCtrl_doubledTimetable :
    ((doubledTimetable.writeTtCtrl 0 0x40000000).timetable 0).pend = some 1 := by decide +kernel

/-- Refutes O10: CANCEL before T does not drop the switch where the table of timetables lists the port twice, which
`State.Inv` does not exclude: it asks the canonical form of the barn and of the register space only. -/
theorem not_pendingSwitch : ¬ Obligations.PendingSwitch := by
  intro h
  obtain ⟨-, -, -, cancel⟩ :=
    h doubledTimetable .host 0 0x40000000 1 doubledTimetable_inv (by decide) doubledTimetable_pend
  have early : doubledTimetable.ns < 1 := by decide
  obtain ⟨t, ran, dropped⟩ := (cancel doubledTimetable_takes rfl rfl).1 early
  rw [exec_ttCancel (by decide) doubledTimetable_takes rfl] at ran
  cases ran
  rw [pend_writeTtCtrl_doubledTimetable] at dropped
  exact Option.some_ne_none _ dropped

end Sys2Proof.Machine
end

section
/-! PROOFS. APPLY of an octet layout (R51). -/

namespace Sys2Proof.Machine
open Sys2Proof

/-- A fold of steps that leave a reading of the state as it is leaves it as it is. -/
theorem foldl_reads {β γ : Type} (g : State → γ) {f : State → β → State} (hf : ∀ t b, g (f t b) = g t) (l : List β)
    (s : State) : g (l.foldl f s) = g s :=
  (List.foldl_hom g (g₂ := fun x _ => x) fun t b => (hf t b).symm).symm.trans (List.foldl_fixed l)

/-! ### Layouts in force -/

theorem octLayout_congr {s t : State} {n : Nat} (h : t.link.layout.get n = s.link.layout.get n) :
    t.octLayout n = s.octLayout n := by
  rw [State.octLayout, State.octLayout, h]

theorem octLayout_of_set {s : State} {n : Nat} {t : Tbl (Option (Nat × Nat))} {x : Nat × Nat}
    (h : s.link.layout = t.set n (some x)) : s.octLayout n = x := by
  rw [State.octLayout, h, get_set_ne _ _ _ (Option.some_ne_none x), Option.getD_some]

@[simp] theorem modPort_layout (s : State) (p : Nat) (f : Port → Port) : (s.modPort p f).link.layout = s.link.layout :=
  rfl

@[simp] theorem resetPortPage_layout (s : State) (p : Nat) : (s.resetPortPage p).link.layout = s.link.layout := rfl

/-- Re-creating its ports leaves the layout of an octet, so the one applied is the one its registers hold. -/
theorem applyLayout_one_layout (s : State) (n : Nat) : (s.applyLayout [n]).link.layout =
    s.link.layout.set n (some (s.rf (Adr.OCTET_MODE n) 1 0, s.rf (Adr.OCTET_LAYOUT n) 23 0)) := by
  rw [State.applyLayout, List.foldl_cons, List.foldl_nil, foldl_reads (fun t => t.link.layout)]
  · rfl
  · intro t p
    dsimp only
    split
    · exact resetPortPage_layout t p
    · rw [modPort_layout, resetPortPage_layout]

theorem applyLayout_one_octLayout (s : State) (n : Nat) :
    (s.applyLayout [n]).octLayout n = (s.rf (Adr.OCTET_MODE n) 1 0, s.rf (Adr.OCTET_LAYOUT n) 23 0) :=
  octLayout_of_set (applyLayout_one_layout s n)

theorem applyLayout_one_octLayout_other (s : State) {m n : Nat} (h : n ≠ m) :
    (s.applyLayout [m]).octLayout n = s.octLayout n :=
  octLayout_congr (by rw [applyLayout_one_layout, get_set_other _ _ _ _ h])

/-- Layouts are applied octet by octet. -/
theorem applyLayout_pair (s : State) (m n : Nat) : s.applyLayout [m, n] = (s.applyLayout [m]).applyLayout [n] := by
  simp only [State.applyLayout, List.foldl_cons, List.foldl_nil]

/-- Whether the layout spans one octet or two, the octet written takes its own MODE and LAYOUT. -/
theorem octetApply_octLayout {s : State} {n : Nat}
    (ok : s.layoutReject n (s.rf (Adr.OCTET_MODE n) 1 0) (s.rf (Adr.OCTET_LAYOUT n) 23 0) = 0) :
    (s.octetApply n).octLayout n = (s.rf (Adr.OCTET_MODE n) 1 0, s.rf (Adr.OCTET_LAYOUT n) 23 0) := by
  unfold State.octetApply
  rw [if_neg (not_not_intro ok)]
  split
  · rw [applyLayout_pair, applyLayout_one_octLayout_other _ (Nat.succ_ne_self n).symm, applyLayout_one_octLayout]
  · exact applyLayout_one_octLayout s n

theorem exec_octetApply {s : State} {src : Source} {n : Nat} {v : Word}
    (h : s.takes src (Adr.OCTET_CTRL n) .wo = true) (apply : bit v 0 = true) :
    exec (.octetApply src n v) s = .next (s.octetApply n) :=
  congrArg Host.Outcome.next ((guarded_of_takes _ h).trans (if_pos apply))

/-- Settles O12: re-creating ports leaves the layouts, and a ×16 layout also applies the octet after, not this one. -/
theorem octetApply : Obligations.OctetApply := fun _ _ _ _ takes apply ok =>
  ⟨_, exec_octetApply takes apply, octetApply_octLayout ok⟩

end Sys2Proof.Machine
end

section
/-! PROOFS. Frames that an Ethernet port receives (R69 to R71). -/

namespace Sys2Proof.Machine
open Sys2Proof

/-! ### What is read of a state whose registers stayed -/

theorem pcpTc_congr {s t : State} (h : t.hub.regs = s.hub.regs) (p q : Nat) : t.pcpTc p q = s.pcpTc p q :=
  rf_congr (rg_congr h _) _ _

theorem prioOf_congr {s t : State} (h : t.hub.regs = s.hub.regs) (p : Nat) (f : List Byte) :
    t.prioOf p f = s.prioOf p f := by
  rw [State.prioOf, State.prioOf, rf_congr (rg_congr h _)]

theorem lossless_congr {s t : State} (h : t.hub.regs = s.hub.regs) (p tc : Nat) :
    t.lossless p tc = s.lossless p tc := by
  simp only [State.lossless, rg_congr h, pcpTc_congr h]

theorem fits_congr {s t : State} (h : t.hub.regs = s.hub.regs) (link : t.link = s.link) (p tc n : Nat) :
    t.fits p tc n = s.fits p tc n := by
  have lossless : t.lossless p = s.lossless p := funext (lossless_congr h p)
  have occ : t.occOf p = s.occOf p := funext fun c => by rw [State.occOf, State.occOf, State.port, State.port, link]
  have xoff : t.xoff p = s.xoff p := funext fun _ => rf_congr (rg_congr h _) _ _
  have headroom : t.headroom p = s.headroom p := funext fun _ => rf_congr (rg_congr h _) _ _
  have promised : t.promised p = s.promised p := by rw [State.promised, State.promised, lossless, xoff, headroom]
  rw [State.fits, State.fits, lossless, occ, xoff, headroom, promised, rf_congr (rg_congr h _)]

theorem fenced_congr {s t : State} (h : t.hub.regs = s.hub.regs) (flt : t.flt = s.flt) (p : Nat) :
    t.fenced p = s.fenced p := by
  rw [State.fenced, State.fenced, State.groupOf, State.groupOf, rf_congr (rg_congr h _), flt]

theorem ip6_congr {s t : State} (h : t.hub.regs = s.hub.regs) (die : Nat) : t.ip6 die = s.ip6 die := by
  simp only [State.ip6, rg_congr h]

theorem claim_congr {s t : State} (h : t.hub.regs = s.hub.regs) (die : Nat) (f : List Byte) :
    t.claim die f = s.claim die f := by
  rw [State.claim, State.claim, rg_congr h, ip6_congr h, rf_congr (rg_congr h _)]

/-! ### Counting -/

theorem cnt_bump_self {s : State} (h : s.hub.wf = true) (a n : Nat) :
    (s.bump a n).cnt a = s.cnt a + BitVec.ofNat 64 n :=
  cnt_setCnt_self s a _ h

theorem cnt_bump_other (s : State) {a b : Nat} (n : Nat) (h : b ≠ a) : (s.bump a n).cnt b = s.cnt b :=
  cnt_setCnt_other s a b _ h

/-- An event counts only in the group counters of the OBS page. -/
theorem cnt_gcount_other (s : State) (ev inc die : Nat) (port tc fjid : Option Nat) {a : Nat}
    (h : Adr.OBS_GCTR_SEL 64 + 8 ≤ a) : (s.gcount ev inc die port tc fjid).cnt a = s.cnt a := by
  unfold State.gcount
  refine List.foldlRecOn (motive := fun (t : State) => t.cnt a = s.cnt a) _ _ rfl fun t kept e he => ?_
  have sel : e.1 < Adr.OBS_GCTR_SEL 64 := by
    have := (List.mem_filter.1 he).2
    simp only [Bool.and_eq_true, decide_eq_true_eq] at this
    exact this.1.2
  split
  · rw [cnt_bump_other _ _ (by omega), kept]
  · exact kept

/-- A good frame that is not MAC control, counted: frames, packets, bytes, and the event 0x01. -/
def State.frameCounted (p : Nat) (f : List Byte) (s : State) : State :=
  (((s.bump (Adr.PORT_RX_FRAMES p) 1).bump (Adr.PORT_RX_PKTS p) 1).bump (Adr.PORT_RX_BYTES p) f.length).gcount 0x01
    f.length (portDie p) (some p) (some (s.pcpTc p (s.prioOf p f))) none

/-- Only counters change, and the register space keeps its form. -/
theorem keeps_frameCounted {s : State} (inv : s.Inv) (p : Nat) (f : List Byte) : Keeps 2 s (s.frameCounted p f) := by
  have cnts : Cov 2 2 := rfl
  exact State.gcount_inv _ _ _ _ _ _ _
    (State.bump_inv _ _ _ (State.bump_inv _ _ _ (State.bump_inv _ _ _ (keeps_refl inv) cnts) cnts) cnts) cnts

theorem cnt_frameCounted {s : State} (h : s.hub.wf = true) (p : Nat) (f : List Byte) :
    (s.frameCounted p f).cnt (Adr.PORT_RX_FRAMES p) = s.cnt (Adr.PORT_RX_FRAMES p) + 1 := by
  unfold State.frameCounted
  have page : Adr.OBS_GCTR_SEL 64 + 8 ≤ Adr.PORT_RX_FRAMES p := by
    dsimp only [Adr.OBS_GCTR_SEL, Adr.PORT_RX_FRAMES]
    omega
  rw [cnt_gcount_other _ _ _ _ _ _ _ page, cnt_bump_other _ _ (by simp), cnt_bump_other _ _ (by simp), cnt_bump_self h]
  rfl

/-! ### Frames -/

theorem st_of_ethUp {s : State} {p : Nat} (up : s.ethUp p = true) : (s.port p).st ≠ .off := by
  simp only [State.ethUp, State.portActive, Bool.and_eq_true, beq_iff_eq] at up
  rw [up.1.2]
  decide

theorem exec_ethFrameRx {s : State} {p : Nat} (up : s.ethUp p = true) (f : List Byte) (cut : Bool) :
    exec (.ethFrameRx p f cut) s = .next (s.frameRx p f cut) :=
  congrArg Host.Outcome.next (if_pos up)

theorem frameRx_runt {s : State} {p : Nat} {f : List Byte} (cut : Bool) (short : f.length < 64) :
    s.frameRx p f cut = s.bump (Adr.PORT_RX_RUNT p) 1 :=
  if_pos short

theorem frameRx_giant {s : State} {p : Nat} {f : List Byte} (long : 64 ≤ f.length)
    (giant : s.rf (Adr.PORT_ETH_MTU p) 13 0 < f.length) : s.frameRx p f false = s.bump (Adr.PORT_RX_GIANT p) 1 := by
  unfold State.frameRx
  simp only [if_neg (Nat.not_lt.2 long), if_pos giant, Bool.false_and, Bool.false_eq_true, if_false]

/-- The frame has a length that the port takes (R70). -/
structure LegalLength (s : State) (p : Nat) (f : List Byte) : Prop where
  long : 64 ≤ f.length
  fits : f.length ≤ s.rf (Adr.PORT_ETH_MTU p) 13 0

theorem frameRx_badFcs {s : State} {p : Nat} {f : List Byte} (sized : LegalLength s p f)
    (bad : f.drop (f.length - 4) ≠ fcsOf (f.take (f.length - 4))) :
    s.frameRx p f false = s.bump (Adr.PORT_RX_FCS_ERR p) 1 := by
  unfold State.frameRx
  simp only [if_neg (Nat.not_lt.2 sized.long), if_neg (Nat.not_lt.2 sized.fits), if_pos bad, Bool.false_and,
    Bool.false_eq_true, if_false]

/-- What becomes of a frame of legal length with a good FCS: MAC control apart, it comes in. -/
theorem frameRx_good {s : State} {p : Nat} {f : List Byte} (cut : Bool) (sized : LegalLength s p f)
    (fcs : f.drop (f.length - 4) = fcsOf (f.take (f.length - 4))) :
    s.frameRx p f cut = if macControl f 1 then s.bump (Adr.PORT_PAUSE_DROP p) 1
      else if macControl f 0x0101 then s.pfcRx p f else s.frameIn p f := by
  unfold State.frameRx
  simp only [if_neg (Nat.not_lt.2 sized.long), if_neg (Nat.not_lt.2 sized.fits), fcs, ne_eq, not_true_eq_false,
    if_false]

theorem macControl_of_type_ne {f : List Byte} (h : fld f 12 2 ≠ 0x8808) (op : Nat) : macControl f op = false := by
  rw [macControl, beq_false_of_ne h, Bool.false_and]

/-- A frame has one opcode. -/
theorem macControl_pause_of_pfc {f : List Byte} (h : macControl f 0x0101 = true) : macControl f 1 = false := by
  simp only [macControl, Bool.and_eq_true, beq_iff_eq] at h
  rw [macControl, h.1, h.2]
  rfl

/-- Counting leaves everything that claims a frame, so a frame that nothing claims is forwarded. -/
theorem frameIn_forwards {s : State} {p : Nat} {f : List Byte} (inv : s.Inv) (open_ : s.fenced p = false)
    (room : s.fits p (s.pcpTc p (s.prioOf p f)) (cellsOf f.length) = true)
    (no0 : s.claim 0 (f.take (f.length - 4)) = .no) (no1 : s.claim 1 (f.take (f.length - 4)) = .no) :
    s.frameIn p f = (s.frameCounted p f).ethForward p f f false := by
  have counted := (keeps_frameCounted inv p f).frame
  have regs : (s.frameCounted p f).hub.regs = s.hub.regs := counted .regs rfl
  rw [← fenced_congr regs (counted .flt rfl)] at open_
  rw [← fits_congr regs (counted .link rfl)] at room
  rw [← claim_congr regs] at no0 no1
  unfold State.frameCounted at open_ room no0 no1 ⊢
  unfold State.frameIn
  simp only [open_, room, no0, no1, Bool.not_true, Bool.false_eq_true, if_false]

theorem ethFrameRx_forwards {s : State} {p : Nat} {f : List Byte} (cut : Bool) (inv : s.Inv) (up : s.ethUp p = true)
    (sized : LegalLength s p f) (fcs : f.drop (f.length - 4) = fcsOf (f.take (f.length - 4)))
    (type : fld f 12 2 ≠ 0x8808) (open_ : s.fenced p = false)
    (room : s.fits p (s.pcpTc p (s.prioOf p f)) (cellsOf f.length) = true)
    (no0 : s.claim 0 (f.take (f.length - 4)) = .no) (no1 : s.claim 1 (f.take (f.length - 4)) = .no) :
    exec (.ethFrameRx p f cut) s = .next ((s.frameCounted p f).ethForward p f f false) := by
  rw [exec_ethFrameRx up, frameRx_good cut sized fcs, macControl_of_type_ne type, macControl_of_type_ne type,
    if_neg (by decide), if_neg (by decide), frameIn_forwards inv open_ room no0 no1]

end Sys2Proof.Machine
end

section
/-! PROOFS. Pauses received, and their watchdog (R72, R75). -/

namespace Sys2Proof.Machine
open Sys2Proof

/-- A port that is not OFF is not at reset, so a change that leaves its state can be read back. -/
theorem port_modPort_of_up {s : State} {p : Nat} {f : Port → Port} (up : (s.port p).st ≠ .off)
    (st : (f (s.port p)).st = (s.port p).st) : (s.modPort p f).port p = f (s.port p) :=
  port_modPort_self s p f fun reset => up (st.symm.trans (congrArg Port.st reset))

theorem ne_default_of_paused {c : PfcState} (h : c.paused = true) : c ≠ default :=
  ne_of_apply_ne PfcState.paused (ne_of_eq_of_ne h (by decide))

theorem ne_default_of_sent {c : PfcState} (h : c.sent = true) : c ≠ default :=
  ne_of_apply_ne PfcState.sent (ne_of_eq_of_ne h (by decide))

theorem pauseIgnored_congr {s t : State} {p : Nat} (time : t.time = s.time)
    (wd : (t.port p).wdIgnore = (s.port p).wdIgnore) (tc : Nat) : t.pauseIgnored p tc = s.pauseIgnored p tc := by
  rw [State.pauseIgnored, State.pauseIgnored, wd, ns_congr (congrArg TimeUnit.now time)]

/-! ### A PFC frame -/

/-- The port heeds what PFC frame `f` says of priority `k`: the frame names it, PFC is enabled for it, and the watchdog
does not ignore its class. -/
def State.heeds (s : State) (p : Nat) (f : List Byte) (k : Nat) : Bool :=
  (fld f 16 2).testBit k && bit (s.rg (Adr.PORT_ETH_CFG p)) (8 + k) && !s.pauseIgnored p (s.pcpTc p k)

/-- The pauses of a port after it heeds what frame `f` says of priority `k`. -/
def pauseAs (f : List Byte) (k : Nat) (t : Tbl PfcState) : Tbl PfcState :=
  t.modify k fun c => { c with paused := fld f (18 + 2 * k) 2 != 0 }

/-- What a PFC frame does to one priority. -/
def State.pausePrio (p : Nat) (f : List Byte) (s : State) (k : Nat) : State :=
  if s.heeds p f k then s.modPort p fun r => { r with pfc := pauseAs f k r.pfc } else s

theorem pfcRx_eq (s : State) (p : Nat) (f : List Byte) :
    s.pfcRx p f = (List.range 8).foldl (State.pausePrio p f) (s.bump (Adr.PORT_PFC_RX p) 1) := rfl

theorem get_pauseAs_self {f : List Byte} {q : Nat} (time : fld f (18 + 2 * q) 2 ≠ 0) (t : Tbl PfcState) :
    ((pauseAs f q t).get q).paused = true := by
  have paused : (fld f (18 + 2 * q) 2 != 0) = true := bne_iff_ne.2 time
  rw [pauseAs, Tbl.modify, get_set_ne _ _ _ (ne_default_of_paused paused)]
  exact paused

theorem get_pauseAs_other (f : List Byte) {k q : Nat} (h : q ≠ k) (t : Tbl PfcState) :
    (pauseAs f k t).get q = t.get q :=
  get_set_other _ _ _ _ h

/-- A pause that the frame asks for stays whichever priority it speaks of next. -/
theorem get_pauseAs_keeps {f : List Byte} {q : Nat} (time : fld f (18 + 2 * q) 2 ≠ 0) {t : Tbl PfcState}
    (paused : (t.get q).paused = true) (k : Nat) : ((pauseAs f k t).get q).paused = true := by
  by_cases same : q = k
  · subst same
    exact get_pauseAs_self time t
  · rw [get_pauseAs_other f same]
    exact paused

@[simp] theorem pausePrio_hub (s : State) (p : Nat) (f : List Byte) (k : Nat) : (s.pausePrio p f k).hub = s.hub := by
  unfold State.pausePrio
  split <;> rfl

@[simp] theorem pausePrio_time (s : State) (p : Nat) (f : List Byte) (k : Nat) : (s.pausePrio p f k).time = s.time := by
  unfold State.pausePrio
  split <;> rfl

theorem pausePrio_port {s : State} {p : Nat} (up : (s.port p).st ≠ .off) (f : List Byte) (k : Nat) :
    (s.pausePrio p f k).port p =
      if s.heeds p f k then { s.port p with pfc := pauseAs f k (s.port p).pfc } else s.port p := by
  unfold State.pausePrio
  split
  · exact port_modPort_of_up up rfl
  · rfl

/-- The port is not OFF and heeds the pause that frame `f` asks for priority `q`. -/
structure Pauses (p : Nat) (f : List Byte) (q : Nat) (s : State) : Prop where
  up : (s.port p).st ≠ .off
  heeds : s.heeds p f q = true

theorem Pauses.pausePrio {s : State} {p q : Nat} {f : List Byte} (h : Pauses p f q s) (k : Nat) :
    Pauses p f q (s.pausePrio p f k) := by
  have port := pausePrio_port h.up f k
  have st : ((s.pausePrio p f k).port p).st = (s.port p).st := by rw [port]; split <;> rfl
  have wd : ((s.pausePrio p f k).port p).wdIgnore = (s.port p).wdIgnore := by rw [port]; split <;> rfl
  have regs : (s.pausePrio p f k).hub.regs = s.hub.regs := by rw [pausePrio_hub]
  refine ⟨by rw [st]; exact h.up, ?_⟩
  rw [State.heeds, rg_congr regs, pcpTc_congr regs, pauseIgnored_congr (pausePrio_time s p f k) wd]
  exact h.heeds

theorem paused_pausePrio_self {s : State} {p q : Nat} {f : List Byte} (h : Pauses p f q s)
    (time : fld f (18 + 2 * q) 2 ≠ 0) : (((s.pausePrio p f q).port p).pfc.get q).paused = true := by
  rw [pausePrio_port h.up, if_pos h.heeds]
  exact get_pauseAs_self time _

theorem paused_pausePrio_keeps {s : State} {p q : Nat} {f : List Byte} (h : Pauses p f q s)
    (time : fld f (18 + 2 * q) 2 ≠ 0) (paused : ((s.port p).pfc.get q).paused = true) (k : Nat) :
    (((s.pausePrio p f k).port p).pfc.get q).paused = true := by
  rw [pausePrio_port h.up]
  split
  · exact get_pauseAs_keeps time paused k
  · exact paused

theorem paused_foldl_keeps {s : State} {p q : Nat} {f : List Byte} (h : Pauses p f q s)
    (time : fld f (18 + 2 * q) 2 ≠ 0) (paused : ((s.port p).pfc.get q).paused = true) (l : List Nat) :
    (((l.foldl (State.pausePrio p f) s).port p).pfc.get q).paused = true := by
  induction l generalizing s with
  | nil => exact paused
  | cons k l ih => exact ih (h.pausePrio k) (paused_pausePrio_keeps h time paused k)

theorem paused_foldl_of_mem {s : State} {p q : Nat} {f : List Byte} (h : Pauses p f q s)
    (time : fld f (18 + 2 * q) 2 ≠ 0) {l : List Nat} (mem : q ∈ l) :
    (((l.foldl (State.pausePrio p f) s).port p).pfc.get q).paused = true := by
  induction l generalizing s with
  | nil => exact absurd mem List.not_mem_nil
  | cons k l ih =>
    rcases List.mem_cons.1 mem with rfl | later
    · exact paused_foldl_keeps (h.pausePrio q) time (paused_pausePrio_self h time) l
    · exact ih (h.pausePrio k) later

theorem pfcRx_hub (s : State) (p : Nat) (f : List Byte) :
    (s.pfcRx p f).hub = (s.bump (Adr.PORT_PFC_RX p) 1).hub := by
  rw [pfcRx_eq]
  exact foldl_reads (fun t => t.hub) (fun t k => pausePrio_hub t p f k) _ _

theorem paused_pfcRx {s : State} {p q : Nat} {f : List Byte} (up : (s.port p).st ≠ .off) (hq : q < 8)
    (heeds : s.heeds p f q = true) (time : fld f (18 + 2 * q) 2 ≠ 0) :
    (((s.pfcRx p f).port p).pfc.get q).paused = true := by
  rw [pfcRx_eq]
  exact paused_foldl_of_mem (s := s.bump (Adr.PORT_PFC_RX p) 1) ⟨up, heeds⟩ time (List.mem_range.2 hq)

theorem exec_pfcFrameRx {s : State} {p : Nat} {f : List Byte} (up : s.ethUp p = true) (sized : LegalLength s p f)
    (fcs : f.drop (f.length - 4) = fcsOf (f.take (f.length - 4))) (pfc : macControl f 0x0101 = true) :
    exec (.pfcFrameRx p f) s = .next (s.pfcRx p f) := by
  change execPfcFrameRx p f s = _
  rw [execPfcFrameRx, up, pfc, Bool.and_self, if_pos rfl, frameRx_good false sized fcs,
    macControl_pause_of_pfc pfc, pfc, if_neg (by decide), if_pos rfl]

/-- The entry of a priority of which the partner is paused is not at reset, so the end of its pause can be read back. -/
theorem get_unpaused {t : Tbl PfcState} {q : Nat} (sent : (t.get q).sent = true) :
    ((t.modify q fun c => { c with paused := false }).get q).paused = false := by
  have listed : { t.get q with paused := false } ≠ default := ne_default_of_sent sent
  rw [Tbl.modify, get_set_ne _ _ _ listed]

theorem paused_pfcPauseExpire {s : State} {p q : Nat} (sent : ((s.port p).pfc.get q).sent = true)
    (up : (s.port p).st ≠ .off) :
    Runs (.pfcPauseExpire p q) s fun t => ((t.port p).pfc.get q).paused = false := by
  refine ⟨_, rfl, ?_⟩
  change (((s.modPort p _).port p).pfc.get q).paused = false
  rw [port_modPort_of_up up rfl]
  exact get_unpaused sent

/-! ### The watchdog -/

@[simp] theorem bump_sw (s : State) (a n : Nat) : (s.bump a n).sw = s.sw := State.setCnt_sw s a _

theorem gcount_sw (s : State) (ev inc die : Nat) (port tc fjid : Option Nat) :
    (s.gcount ev inc die port tc fjid).sw = s.sw := by
  refine foldl_reads (fun t => t.sw) (fun t e => ?_) _ _
  split
  · exact bump_sw _ _ _
  · rfl

theorem freeCells_queues (s : State) (from_ : Ingress) (die c n epoch : Nat) :
    (s.freeCells from_ die c n epoch).sw.queues = s.sw.queues := by
  cases from_ <;> rfl

/-- A copy that has left frees its cells; what waits in the queues stays. -/
theorem copyGone_queues (s : State) (id : Nat) : (s.copyGone id).sw.queues = s.sw.queues := by
  unfold State.copyGone
  dsimp only
  split
  · exact freeCells_queues _ _ _ _ _ _
  · rfl

/-- A queue entry of class `tc` at port `p`, the control queue apart. -/
def Queued.ofClass (p tc : Nat) (q : Queued) : Bool := q.egress == p && q.tc == tc && !q.ctl

/-- The frames of a class dropped from their queue: it is emptied, each frame is gone and counted as a drop. -/
def State.dropClass (p tc : Nat) (s : State) : State :=
  (s.sw.queues.filter (Queued.ofClass p tc)).foldl (fun s q => (s.copyGone q.id).countDrop p tc)
    (s.modSw fun w => { w with
      queues := w.queues.filter fun q => !q.ofClass p tc
      deficit := w.deficit.set (8 * p + tc) 0 })

theorem dropClass_queues (s : State) (p tc : Nat) :
    (s.dropClass p tc).sw.queues = s.sw.queues.filter fun q => !q.ofClass p tc := by
  refine foldl_reads (fun t => t.sw.queues) (fun t q => ?_) _ _
  exact (congrArg SwitchUnit.queues (gcount_sw _ _ _ _ _ _ _)).trans (copyGone_queues t q.id)

theorem dropClass_ns (s : State) (p tc : Nat) : (s.dropClass p tc).ns = s.ns := by
  refine ns_congr (foldl_reads (fun t => t.time.now) (fun t q => ?_) _ _)
  exact (cycleKeeps_gcount _ _ _ _ _ _ _).now.trans (congrArg TimeUnit.now (sameTime_copyGone t q.id).time)

/-- The drop and its two counters (R75). -/
def State.watchdogDrop (p tc : Nat) (s : State) : State :=
  ((s.dropClass p tc).bump (Adr.PORT_PFC_WD_DROP p) (s.sw.queues.filter (Queued.ofClass p tc)).length).bump
    (Adr.PORT_PFC_WD_FIRE p) 1

/-- The watchdog's hold on a port: the pauses of the class end, and are ignored until `til`. `pcp` is its PCP_MAP. -/
def Port.unpause (tc til : Nat) (pcp : Word) (q : Port) : Port :=
  { q with
    wdIgnore := (tc, til) :: q.wdIgnore.filter fun e => e.1 != tc
    pfc := q.pfc.map fun k c => if bits pcp (4 * k + 2) (4 * k) = tc then { c with paused := false } else c }

/-- The state in which the watchdog raises its error. -/
def State.watchdogFired (p tc : Nat) (s : State) : State :=
  (s.watchdogDrop p tc).modPort p
    (Port.unpause tc (s.ns + 1000000 * s.rf (Adr.PORT_PFC_WD p) 15 0) ((s.watchdogDrop p tc).rg (Adr.PORT_PCP_MAP p)))

theorem watchdogDrop_ns (s : State) (p tc : Nat) : (s.watchdogDrop p tc).ns = s.ns := dropClass_ns s p tc

theorem exec_pfcWatchdog {s : State} {p tc : Nat} (wd : s.rf (Adr.PORT_PFC_WD p) 15 0 ≠ 0)
    (closed : s.pfcClosed p tc = true) :
    exec (.pfcWatchdog p tc) s = .next ((s.watchdogFired p tc).raise Err.port_PFC_WATCHDOG p [] none) := by
  have fires : ¬ (s.rf (Adr.PORT_PFC_WD p) 15 0 = 0 ∨ (!s.pfcClosed p tc) = true) := by simp [wd, closed]
  rw [State.watchdogFired, ← watchdogDrop_ns s p tc]
  exact congrArg Host.Outcome.next (if_neg fires)

/-- An ignored class is listed, so the port is not at reset. -/
theorem watchdogFired_ignores (s : State) (p tc : Nat) :
    (tc, s.ns + 1000000 * s.rf (Adr.PORT_PFC_WD p) 15 0) ∈ ((s.watchdogFired p tc).port p).wdIgnore := by
  rw [State.watchdogFired, port_modPort_self _ _ _ fun reset => List.cons_ne_nil _ _ (congrArg Port.wdIgnore reset)]
  exact List.mem_cons_self

theorem watchdogFired_queues (s : State) (p tc : Nat) :
    (s.watchdogFired p tc).sw.queues = s.sw.queues.filter fun q => !q.ofClass p tc :=
  dropClass_queues s p tc

/-! ### PFC sent -/

theorem exec_pfcSend {s : State} {p : Nat} (up : s.ethUp p = true) :
    exec (.pfcSend p) s = .next (s.sendPfc p (s.pfcDue p)) :=
  congrArg Host.Outcome.next (if_pos up)

theorem exec_pfcRefresh {s : State} {p tc : Nat} (up : s.ethUp p = true) (above : s.xon p tc < s.occOf p tc) :
    exec (.pfcRefresh p tc) s = .next (s.sendPfc p
      (((s.pfcEnabled p).filter fun q => s.pcpTc p q == tc && ((s.port p).pfc.get q).sent).map
        fun q => (q, s.rf (Adr.PORT_PFC_QUANTA p) 15 0))) :=
  congrArg Host.Outcome.next (if_pos (by rw [up, decide_eq_true above, Bool.and_self]))

/-- Settles O14: counting leaves what claims a frame, and a port that is not OFF keeps what is written of its pauses. -/
theorem ethernetPorts : Obligations.EthernetPorts := by
  refine ⟨fun s p f cut up short => ?_, fun s p f up long giant => ?_, fun s p f up long fits bad => ?_,
    fun s p f cut up long fits fcs pause => ?_,
    fun s p f cut inv _ up long fits fcs type open_ room no0 no1 => ?_, fun s p f up long fits fcs pfc => ?_,
    fun s p q _ sent up => paused_pfcPauseExpire sent up, fun s p up => exec_pfcSend up,
    fun s p tc up above => exec_pfcRefresh up above, fun s p tc wd closed _ => ?_⟩
  · rw [exec_ethFrameRx up, frameRx_runt cut short]
  · rw [exec_ethFrameRx up, frameRx_giant long giant]
  · rw [exec_ethFrameRx up, frameRx_badFcs ⟨long, fits⟩ bad]
  · rw [exec_ethFrameRx up, frameRx_good cut ⟨long, fits⟩ fcs, if_pos pause]
  · have counted := (keeps_frameCounted inv p f).frame
    exact ⟨s.frameCounted p f, ethFrameRx_forwards cut inv up ⟨long, fits⟩ fcs type open_ room no0 no1,
      cnt_frameCounted inv.hub p f, counted .sw rfl, counted .link rfl⟩
  · refine ⟨_, exec_pfcFrameRx up ⟨long, fits⟩ fcs pfc, pfcRx_hub s p f, fun q hq named enabled heeded time => ?_⟩
    exact paused_pfcRx (st_of_ethUp up) hq (by rw [State.heeds, named, enabled, heeded]; rfl) time
  · exact ⟨s.watchdogFired p tc, exec_pfcWatchdog wd closed, watchdogFired_ignores s p tc,
      watchdogFired_queues s p tc⟩

end Sys2Proof.Machine
end

section
/-! PROOFS. Entries that are present, fields of a word and of a register, counters. -/

namespace Sys2Proof.Machine
open Sys2Proof

/-- An entry that is put in is there, whatever the form of the table. -/
theorem get_set_some {α : Type} [DecidableEq α] (t : Tbl (Option α)) (k : Nat) (v : α) :
    (t.set k (some v)).get k = some v :=
  get_set_ne t k (some v) (Option.some_ne_none v)

theorem bits_single {n : Nat} (x : BitVec n) (k : Nat) : bits x k k = (bit x k).toNat := by
  rw [bit, ← BitVec.testBit_toNat, Nat.toNat_testBit, bits, nbits, Nat.shiftRight_eq_div_pow, Nat.add_sub_cancel_left,
    pow_one]

/-- A field replaced in the naturals: what lies below it and above it stays. -/
theorem replace_field_eq (x lo w v : Nat) :
    x - x / 2 ^ lo % 2 ^ w * 2 ^ lo + v * 2 ^ lo = x % 2 ^ lo + 2 ^ lo * (v + 2 ^ w * (x / 2 ^ lo / 2 ^ w)) := by
  have low := Nat.mod_add_div x (2 ^ lo)
  have field := Nat.mod_add_div (x / 2 ^ lo) (2 ^ w)
  generalize x / 2 ^ lo % 2 ^ w = f at *
  generalize x / 2 ^ lo / 2 ^ w = q at *
  have whole : x = x % 2 ^ lo + 2 ^ lo * (2 ^ w * q) + f * 2 ^ lo := by
    rw [← field] at low
    linarith
  rw [Nat.sub_eq_of_eq_add whole]
  ring

/-- A field that is replaced reads as what it was replaced by. -/
theorem bits_setBits_self {n : Nat} (x : BitVec n) {hi lo : Nat} (v : Nat) (order : lo ≤ hi) (inside : hi < n) :
    bits (setBits x hi lo v) hi lo = v % 2 ^ (hi + 1 - lo) := by
  obtain ⟨w, rfl⟩ := Nat.exists_eq_add_of_le order
  obtain ⟨r, rfl⟩ := Nat.exists_eq_add_of_le (Nat.succ_le_of_lt inside)
  have width : lo + w + 1 - lo = w + 1 := by omega
  have size : 2 ^ ((lo + w).succ + r) = 2 ^ lo * 2 ^ (w + 1 + r) := by
    rw [← Nat.pow_add]
    congr 1
    omega
  simp only [bits, setBits, nbits, BitVec.toNat_ofNat, Nat.shiftRight_eq_div_pow, width]
  rw [replace_field_eq, size, Nat.mod_mul_right_div_self, Nat.add_mul_div_left _ _ (Nat.two_pow_pos lo),
    Nat.div_eq_of_lt (Nat.mod_lt _ (Nat.two_pow_pos lo)), Nat.zero_add,
    Nat.mod_mod_of_dvd _ (Nat.pow_dvd_pow 2 (Nat.le_add_right _ _)), Nat.add_mul_mod_self_left, Nat.mod_mod]

theorem rf_setRf_self {s : State} (h : s.hub.wf = true) (a : Nat) {hi lo : Nat} (v : Nat) (order : lo ≤ hi)
    (inside : hi < 32) : (s.setRf a hi lo v).rf a hi lo = v % 2 ^ (hi + 1 - lo) := by
  rw [State.rf, State.setRf, rg_setRg_self _ _ _ h, bits_setBits_self _ _ order inside]

theorem rg_setRf_other (s : State) {a b : Nat} (hi lo v : Nat) (h : b ≠ a) : (s.setRf a hi lo v).rg b = s.rg b :=
  rg_setRg_other _ _ _ _ h

theorem setRf_wf {s : State} (h : s.hub.wf = true) (a hi lo v : Nat) : (s.setRf a hi lo v).hub.wf = true :=
  setRg_wf h _ _

theorem setCnt_wf {s : State} (h : s.hub.wf = true) (a : Nat) (v : BitVec 64) : (s.setCnt a v).hub.wf = true := by
  rw [hub_wf_iff] at h ⊢
  obtain ⟨regs, cnts, rest⟩ := h
  exact ⟨regs, wf_set _ _ _ cnts, rest⟩

end Sys2Proof.Machine
end

section
/-! PROOFS. A request that arrives at the receiving side (R121, R243, R368, R373). -/

namespace Sys2Proof.Machine
open Sys2Proof

/-- MREQ `k` waits at ingress `p` under buffer id `c`, for no host endpoint; `u` is the state once it is taken. -/
structure Arrives (s : State) (p : Nat) (k : Packet) (c : Nat) (u : State) : Prop where
  cls : k.cls = 8
  waits : s.takeLocal p k = (some c, u)
  own : u.hostFn (ingressDie p) k = none

/-- It passes checks 1 to 4 in slot `j`, which leaves `w`. -/
structure Passes (s : State) (p : Nat) (k : Packet) (c : Nat) (u : State) (j : Nat) (w : State) : Prop
    extends Arrives s p k c u where
  head : u.checkHead (ingressDie p) (mreqBad k) k = (.ok j, w)

section
variable {s u w y z : State} {p c i j l off : Nat} {k : Packet} {x : Passed}

theorem mreqAt_of_taken (cls : k.cls = 8) (waits : s.takeLocal p k = (some c, u)) :
    s.mreqAt p k = u.mreqRx p k (some c) := by
  unfold State.mreqAt
  simp only [cls, waits, ne_eq, not_true_eq_false, if_false]

/-! ### The outcomes of checks 1 to 4 and of the windows -/

theorem Arrives.refused {st : Nat} (h : Arrives s p k c u)
    (head : u.checkHead (ingressDie p) (mreqBad k) k = (.error st, w)) :
    s.mreqAt p k = (w.respond (ingressDie p) k st).freeLocal (some c) := by
  rw [mreqAt_of_taken h.cls h.waits]
  unfold State.mreqRx
  simp only [h.own, head]

theorem checkHead_bad (die : Nat) (k : Packet) (s : State) : s.checkHead die true k = (.error 10, s) := rfl

theorem checkHead_no_slot (die : Nat) (no : s.slotOf k.fjid = none) : s.checkHead die false k = (.error 3, s) := by
  unfold State.checkHead
  simp only [no, Bool.false_eq_true, if_false]

theorem Passes.descriptor (h : Passes s p k c u j w) (dq : w.inDq j k.fva = true) :
    s.mreqAt p k = (w.dqRx (ingressDie p) j k).freeLocal (some c) := by
  rw [mreqAt_of_taken h.cls h.waits]
  unfold State.mreqRx
  simp only [h.own, h.head, dq, if_true]

theorem Passes.token (h : Passes s p k c u j w) (noDq : w.inDq j k.fva = false)
    (win : w.inWindow 0 k.fjid k.fva = some (l, off)) :
    s.mreqAt p k = (w.tokenRx (ingressDie p) j l off k).freeLocal (some c) := by
  rw [mreqAt_of_taken h.cls h.waits]
  unfold State.mreqRx
  simp only [h.own, h.head, noDq, win, Bool.false_eq_true, if_false]

theorem Passes.output (h : Passes s p k c u j w) (noDq : w.inDq j k.fva = false)
    (no0 : w.inWindow 0 k.fjid k.fva = none) (win : w.inWindow 1 k.fjid k.fva = some (l, off)) :
    s.mreqAt p k = (w.outputRx (ingressDie p) j l off k).freeLocal (some c) := by
  rw [mreqAt_of_taken h.cls h.waits]
  unfold State.mreqRx
  simp only [h.own, h.head, noDq, no0, win, Bool.false_eq_true, if_false]

theorem Passes.body (h : Passes s p k c u j w) (noDq : w.inDq j k.fva = false)
    (no0 : w.inWindow 0 k.fjid k.fva = none) (no1 : w.inWindow 1 k.fjid k.fva = none) :
    s.mreqAt p k = w.mreqBody (ingressDie p) j (ingressOf p) k (some c) := by
  rw [mreqAt_of_taken h.cls h.waits]
  unfold State.mreqRx
  simp only [h.own, h.head, noDq, no0, no1, Bool.false_eq_true, if_false]

/-! ### What then happens -/

/-- A write of one descriptor of its own job that the slot's queue takes is answered OK (R243). -/
theorem dqRx_queued {die : Nat} (op : k.op = 1) (size : k.size = 128) (aligned : k.fva % 128 = 0)
    (job : dFjid (leNat (k.bytes 32 128)) = k.fjid) (queued : w.submit j (leNat (k.bytes 32 128)) = (.queued, y)) :
    w.dqRx die j k = y.respond die k 0 := by
  unfold State.dqRx
  simp only [op, size, aligned, job, queued, ne_eq, not_true_eq_false, or_self, if_false]

/-- A request that is not coherent and that no watchpoint refuses enters the receiving side. -/
theorem mreqServe_enters {die size : Nat} {from_ : Ingress} {c : Option Nat} (plain : x.coh = false)
    (watched : z.watch (tracePort from_) k k.op size x.segs = (false, y)) :
    z.mreqServe die j size from_ k c (.pass x) = y.enter die .mreq k from_ c x := by
  unfold State.mreqServe
  simp only [plain, Bool.false_eq_true, if_false, watched]

theorem mreqBody_enters {die : Nat} {from_ : Ingress} {c : Option Nat} (fits : w.queueFits j k = true)
    (checked : w.checkBody die j k.op (if k.op = 2 then 64 else k.size) (fun e => permitted e k.op) k = (.pass x, z))
    (plain : x.coh = false)
    (watched : z.watch (tracePort from_) k k.op (if k.op = 2 then 64 else k.size) x.segs = (false, y)) :
    w.mreqBody die j from_ k c = y.enter die .mreq k from_ c x := by
  unfold State.mreqBody
  simp only [fits, Bool.not_true, Bool.false_eq_true, if_false, checked, mreqServe_enters plain watched]

/-! ### The queue of the job (R131) -/

theorem req_setReq_some (s : State) (id : Nat) (r : Req) : (s.setReq id (some r)).req id = some r :=
  get_set_some _ _ _

theorem req_setReq_other (s : State) {i id : Nat} (r : Option Req) (h : i ≠ id) : (s.setReq id r).req i = s.req i :=
  get_set_other _ _ _ _ h

theorem req_enter_self (die : Nat) (kind : ReqKind) (k : Packet) (from_ : Ingress) (c : Option Nat) (x : Passed)
    (s : State) : (s.enter die kind k from_ c x).req s.nextId = some
      { die := die, kind := kind, pkt := k, from_ := from_, slot := some x.slot, cells := c, segs := x.segs
        exts := x.exts, blocks := x.blocks } :=
  req_setReq_some (s.takeNames 1) _ _

theorem req_enter_other (die : Nat) (kind : ReqKind) (k : Packet) (from_ : Ingress) (c : Option Nat) (x : Passed)
    {id : Nat} (h : id ≠ s.nextId) : (s.enter die kind k from_ c x).req id = s.req id :=
  req_setReq_other (s.takeNames 1) _ h

/-! ### The commands -/

theorem exec_mreqRx (p : Nat) (k : Packet) (s : State) : exec (.mreqRx p k) s = .next (s.mreqAt p k) := rfl

theorem exec_descWrite (slot : s.slotOf k.fjid = some i) (dq : s.inDq i k.fva = true) :
    exec (.descWrite p k) s = .next (s.mreqAt p k) := by
  change execDescWrite p k s = _
  unfold execDescWrite
  simp only [slot, dq, if_true]

theorem exec_tokenWrite (win : (s.inWindow 0 k.fjid k.fva).isSome = true) :
    exec (.tokenWrite p k) s = .next (s.mreqAt p k) :=
  congrArg Host.Outcome.next (if_pos win)

theorem exec_expertOutputWrite (win : (s.inWindow 1 k.fjid k.fva).isSome = true) :
    exec (.expertOutputWrite p k) s = .next (s.mreqAt p k) :=
  congrArg Host.Outcome.next (if_pos win)

end

end Sys2Proof.Machine
end

section
/-! PROOFS. Issue of requests of own units, answers of targets, dead targets (R124, R127, R131, R134, R516). -/

namespace Sys2Proof.Machine
open Sys2Proof

section
variable {s u : State} {p tag : Nat} {k : Packet} {g : Tag} {r : Req} {part : Part}

/-! ### Issue (R131) -/

/-- The state in which the request of own unit `u` leaves: it waits no more, and it holds tag `n`. -/
def State.unitTagged (u : UnitReq) (n : Nat) (s : State) : State :=
  ((s.modTtu fun t => { t with waiting := t.waiting.filter fun v => v.id != u.id }).takeFree).setTag n
    (some { target := 513, owner := u.owner, slot := u.slot, at_ := s.ns })

theorem tag_setTag_some (s : State) (n : Nat) (g : Tag) : (s.setTag n (some g)).tag n = some g :=
  get_set_some _ _ _

theorem tag_setTag_other (s : State) {m n : Nat} (g : Option Tag) (h : m ≠ n) : (s.setTag n g).tag m = s.tag m :=
  get_set_other _ _ _ _ h

theorem issueUnit_oldest {u : UnitReq} {n : Nat}
    (oldest : (s.ttu.waiting.find? fun v => v.slot == u.slot && v.die == u.die) = some u)
    (room : s.tagRoom u.die u.slot false = true) (free : s.pickTag u.die = some n) :
    s.issueUnit u = (s.unitTagged u n).sendOwn u.die ((u.pkt.setReqTag (n % 65536)).setStamp s.stamp) := by
  unfold State.issueUnit
  simp only [oldest, room, free, Option.map_some, bne_self_eq_false, Bool.not_true, Bool.or_self, Bool.false_eq_true,
    if_false]
  rfl

theorem exec_mreqIssue_unit {id : Nat} {u : UnitReq} (waits : (s.ttu.waiting.find? fun v => v.id == id) = some u)
    (runs : s.stopped 3 u.die = false) : exec (.mreqIssue id) s = .next (s.issueUnit u) := by
  change execMreqIssue id s = _
  unfold execMreqIssue
  simp only [waits, runs, Bool.false_eq_true, if_false]

/-! ### Answers -/

theorem exec_targetRspRx_held {c : Nat} (waits : s.takeLocal p k = (some c, u)) (held : u.tag k.reqTag = some g)
    (live : g.quar = false) (target : g.target = p) (req : u.req g.req = some r) (here : r.parts[g.part]? = some part) :
    exec (.targetRspRx p k) s = .next ((u.trayRsp g r part k).freeLocal (some c)) := by
  change execTargetRspRx p k s = _
  unfold execTargetRspRx
  simp only [waits, held, live, target, req, here, bne_self_eq_false, Bool.or_self, Bool.false_eq_true, if_false]

theorem exec_targetRspRx_stale {c : Nat} (waits : s.takeLocal p k = (some c, u)) (free : u.tag k.reqTag = none) :
    exec (.targetRspRx p k) s = .next ((u.staleRsp (tagDie k.reqTag)).freeLocal (some c)) := by
  change execTargetRspRx p k s = _
  unfold execTargetRspRx
  simp only [waits, free]

theorem exec_cxlMemdataRx_outstanding (data : List Byte) (load : Nat) (mode : s.portMode p = 2)
    (out : (s.port p).cxlOut.contains tag = true) :
    exec (.cxlMemdataRx p tag data false load) s
      = .next ((s.setRf (Adr.PORT_CXL_STATUS p) 31 28 load).cxlLine p tag data false) := by
  change execCxlMemdataRx p tag data false load s = _
  unfold execCxlMemdataRx
  rw [if_neg (by simp [mode])]
  dsimp only
  rw [if_neg Bool.false_ne_true, State.setRf_port, if_pos out]

theorem exec_barnAccessDone_held (held : s.tag tag = some g) (target : g.target = 512) (live : g.quar = false) :
    exec (.barnAccessDone tag) s = .next ((s.tierTry g.req g.part).settle g.req) := by
  change execBarnAccessDone tag s = _
  unfold execBarnAccessDone
  simp only [held, target, live, Bool.not_false, and_self, if_true]

/-! ### Targets that do not answer (R134, R80, R194) -/

theorem exec_targetTimeout_late {e : Nat × Tag} (port : p < 512)
    (late : (s.tagList.find? fun e => !e.2.quar && e.2.target == p
      && decide (e.2.at_ + 1000 * s.rf (Adr.TTU_TIMEOUT (tagDie e.1)) 19 0 ≤ s.ns)) = some e) :
    exec (.targetTimeout p) s = .next ((s.raise Err.ttu_TARGET_TIMEOUT (tagDie e.1) [p] none).deadPort p) := by
  change execTargetTimeout p s = _
  unfold execTargetTimeout
  simp only [late, if_neg (Nat.not_le.2 port)]

theorem exec_cxlLinkFatal_active (cause : CxlFatal) (mode : s.portMode p = 2) (active : s.portActive p = true) :
    exec (.cxlLinkFatal p cause) s = .next
      (if cause == .linkLoss then ((s.raise Err.port_CXL_LINK_FATAL p [] none).deadPort p).leaveTo p .detect
        else (s.raise Err.port_CXL_LINK_FATAL p [] none).deadPort p) := by
  change execCxlLinkFatal p cause s = _
  unfold execCxlLinkFatal
  simp only [mode, active, bne_self_eq_false, Bool.not_true, Bool.or_self, Bool.false_eq_true, if_false]

/-- DEAD is cleared by a write that leaves bit 0 at 0 once no tag of the port is quarantined (R134). -/
theorem writeTargetState_clears {v : Word} (zero : bit v 0 = false) (dead : s.rf (Adr.PORT_TARGET_STATE p) 0 0 = 1)
    (none_ : (s.tagList.any fun e => e.2.quar && e.2.target == p) = false) :
    s.writeTargetState p v = s.setRf (Adr.PORT_TARGET_STATE p) 0 0 0 := by
  have set : bit (s.rg (Adr.PORT_TARGET_STATE p)) 0 = true := by
    rw [State.rf, bits_single] at dead
    exact Bool.toNat_eq_one.1 dead
  unfold State.writeTargetState
  simp only [zero, set, none_, Bool.not_true, Bool.or_self, Bool.false_eq_true, if_false]

theorem bit_zero_masked (v : Word) : bit (v &&& ~~~1#32) 0 = false := by
  rw [bit, BitVec.getLsbD_and, BitVec.getLsbD_not]
  simp

theorem exec_targetDeadClear_dead {src : Source} (v : Word)
    (takes : s.takes src (Adr.PORT_TARGET_STATE p) .rw = true) (dead : s.rf (Adr.PORT_TARGET_STATE p) 0 0 = 1)
    (none_ : (s.tagList.any fun e => e.2.quar && e.2.target == p) = false) :
    exec (.targetDeadClear src p v) s = .next (s.setRf (Adr.PORT_TARGET_STATE p) 0 0 0) :=
  congrArg Host.Outcome.next
    ((guarded_of_takes _ takes).trans (writeTargetState_clears (bit_zero_masked v) dead none_))

/-- A run of the part lies in a granary range. -/
theorem any_granary {l : List Seg} {i : Nat} (range : ∃ q ∈ l, s.poolFind q.ppa = some i)
    (kind : poolKind (s.poolEntry i) = 2) :
    (l.any fun q => ((s.poolFind q.ppa).map fun i => poolKind (s.poolEntry i) == 2).getD false) = true := by
  obtain ⟨q, mem, found⟩ := range
  refine List.any_eq_true.2 ⟨q, mem, ?_⟩
  simp only [found, kind, Option.map_some, beq_self_eq_true, Option.getD_some]

theorem exec_granReqTimeout_late {i : Nat} (held : s.tag tag = some g) (target : g.target = 512)
    (live : g.quar = false) (late : g.at_ + 1000 * s.rf (Adr.TTU_TIMEOUT (tagDie tag)) 19 0 ≤ s.ns)
    (req : s.req g.req = some r) (here : r.parts[g.part]? = some part)
    (range : ∃ q ∈ part.segs, s.poolFind q.ppa = some i) (kind : poolKind (s.poolEntry i) = 2)
    (waits : part.sectors.all (s.sectorReady r) = false) :
    exec (.granReqTimeout tag) s = .next (State.settle g.req (State.bump Adr.TIER_GRAN_TIMEOUTS 1
      (s.endPart g.req g.part fun q => { q with status := 9, data := [] }))) := by
  change execGranReqTimeout tag s = _
  unfold execGranReqTimeout
  simp only [held, target, live, Nat.not_lt.2 late, req, here, any_granary range kind, waits, ne_eq, not_true_eq_false,
    Bool.false_eq_true, Bool.not_true, Bool.or_self, or_self, if_false]

end

/-- Settles O28, one lemma for each way a request passes and for each answer. -/
theorem requests : Obligations.Requests := by
  refine ⟨fun s p k c u j w x z y cls waits own head noDq no0 no1 fits checked plain watched => ?_,
    fun s p k c u cls waits own bad => ?_, fun s p k c u cls waits own good no => ?_,
    fun s p k c u j i w y cls slot dq waits own head dqw op size aligned job queued => ?_,
    fun s p k c u j w l off cls win waits own head noDq win0 => ?_,
    fun s p k c u j w l off cls win waits own head noDq no0 win1 => ?_,
    fun s id u n waits runs oldest room free => ?_,
    fun s p k c u g r part waits held live target req here => exec_targetRspRx_held waits held live target req here,
    fun s p k c u waits free => exec_targetRspRx_stale waits free,
    fun s p tag data load mode out => exec_cxlMemdataRx_outstanding data load mode out,
    fun s tag g held target live => exec_barnAccessDone_held held target live, fun s => rfl,
    fun s p e port late => exec_targetTimeout_late port late,
    fun s src p v inv takes dead none_ => ?_, fun s p mode active => exec_cxlLinkFatal_active .linkLoss mode active,
    fun s p c mode active other => ?_,
    fun s tag g r part i held target live late req here range kind ready =>
      exec_granReqTimeout_late held target live late req here range kind ready⟩
  · have passes : Passes s p k c u j w := ⟨⟨cls, waits, own⟩, head⟩
    refine ⟨_, (exec_mreqRx p k s).trans (congrArg Host.Outcome.next
      ((passes.body noDq no0 no1).trans (mreqBody_enters fits checked plain watched))), req_enter_self .., ?_, rfl, rfl⟩
    exact fun id other => req_enter_other _ _ _ _ _ _ other
  · rw [exec_mreqRx, Arrives.refused ⟨cls, waits, own⟩ (by rw [bad]; exact checkHead_bad _ _ _)]
  · rw [exec_mreqRx, Arrives.refused ⟨cls, waits, own⟩ (by rw [good]; exact checkHead_no_slot _ no)]
  · rw [exec_descWrite slot dq, Passes.descriptor ⟨⟨cls, waits, own⟩, head⟩ dqw,
      dqRx_queued op size aligned job queued]
  · rw [exec_tokenWrite win, Passes.token ⟨⟨cls, waits, own⟩, head⟩ noDq win0]
  · rw [exec_expertOutputWrite win, Passes.output ⟨⟨cls, waits, own⟩, head⟩ noDq no0 win1]
  · exact ⟨s.unitTagged u n,
      (exec_mreqIssue_unit waits runs).trans (congrArg Host.Outcome.next (issueUnit_oldest oldest room free)),
      tag_setTag_some _ n _, rfl, fun m other => tag_setTag_other _ _ other⟩
  · exact ⟨_, exec_targetDeadClear_dead v takes dead none_, rf_setRf_self inv.hub _ 0 (by decide) (by decide),
      fun b other => rg_setRf_other s 0 0 0 other⟩
  · rw [exec_cxlLinkFatal_active c mode active, if_neg (by simpa using other)]

end Sys2Proof.Machine
end

section
/-! PROOFS. Job slots (R125, R135, Table 5-11). -/

namespace Sys2Proof.Machine
open Sys2Proof

section
variable {s : State} {src : Source} {j : Nat}

/-! ### ACTIVATE -/

theorem exec_jobActivate (takes : s.takes src (Adr.JOB_CTRL j) .wo = true) :
    exec (.jobActivate src j) s = .next (s.jobActivate j) :=
  congrArg Host.Outcome.next (guarded_of_takes _ takes)

theorem jobActivate_of_free (free : s.job j = .free) (ok : s.activateOk j = true) :
    s.jobActivate j = ((s.jobCntsZero j).setJob j .active).jobReject j 0 := by
  unfold State.jobActivate
  simp only [free, ok, if_true]

theorem jobCntsZero_ttu (s : State) (j : Nat) : (s.jobCntsZero j).ttu = s.ttu :=
  foldl_reads (fun t => t.ttu) (fun t i => t.setCnt_ttu (Adr.JOB_READ_BYTES j + 8 * i) 0) _ _

theorem jobCntsZero_regs (s : State) (j : Nat) : (s.jobCntsZero j).hub.regs = s.hub.regs :=
  foldl_reads (fun t => t.hub.regs) (f := fun t i => t.setCnt (Adr.JOB_READ_BYTES j + 8 * i) 0) (fun _ _ => rfl) _ _

theorem foldl_setCnt_wf (h : s.hub.wf = true) (a : Nat) (l : List Nat) :
    (l.foldl (fun s i => s.setCnt (a + 8 * i) 0) s).hub.wf = true :=
  List.foldlRecOn l _ (motive := fun t : State => t.hub.wf = true) h fun _ wf _ _ => setCnt_wf wf _ _

theorem jobCntsZero_wf (h : s.hub.wf = true) (j : Nat) : (s.jobCntsZero j).hub.wf = true :=
  foldl_setCnt_wf h _ _

/-- Of `n` counters in a row that are set to 0, each reads as 0. -/
theorem cnt_foldl_setCnt_zero (h : s.hub.wf = true) (a : Nat) {n i : Nat} (hi : i < n) :
    ((List.range n).foldl (fun s i => s.setCnt (a + 8 * i) 0) s).cnt (a + 8 * i) = 0 := by
  induction n with
  | zero => exact absurd hi (Nat.not_lt_zero i)
  | succ n ih =>
    rw [List.range_succ, List.foldl_append, List.foldl_cons, List.foldl_nil]
    rcases Nat.lt_succ_iff_lt_or_eq.1 hi with earlier | rfl
    · rw [cnt_setCnt_other _ _ _ _ (by omega), ih earlier]
    · exact cnt_setCnt_self _ _ _ (foldl_setCnt_wf h a _)

theorem cnt_jobCntsZero (h : s.hub.wf = true) (j : Nat) {i : Nat} (hi : i < 8) :
    (s.jobCntsZero j).cnt (Adr.JOB_READ_BYTES j + 8 * i) = 0 :=
  cnt_foldl_setCnt_zero h _ hi

theorem job_setJob_ne_free (s : State) (j : Nat) {x : JobSt} (h : x ≠ .free) : (s.setJob j x).job j = x :=
  get_set_ne _ _ _ h

theorem rf_jobReject {t : State} (h : t.hub.wf = true) (j r : Nat) :
    (t.jobReject j r).rf (Adr.JOB_STATUS j) 11 8 = r % 16 :=
  rf_setRf_self h _ r (by decide) (by decide)

/-! ### STOP, and the end of the drain -/

/-- The MREQs of slot `j`, which STOP ends (R135). -/
def State.queuedOf (s : State) (j : Nat) : List Nat :=
  s.ttu.reqs.filterMap fun e => match e.2 with
    | some r => if r.slot = some j ∧ r.kind = .mreq then some e.1 else none
    | none => none

theorem mem_queuedOf {id : Nat} (h : id ∈ s.queuedOf j) :
    ∃ r, (id, some r) ∈ s.ttu.reqs ∧ r.slot = some j ∧ r.kind = .mreq := by
  obtain ⟨⟨key, entry⟩, mem, named⟩ := List.mem_filterMap.1 h
  cases entry with
  | none => cases named
  | some r =>
    obtain ⟨mine, eq⟩ := Option.ite_none_right_eq_some.1 named
    cases eq
    exact ⟨r, mem, mine⟩

theorem jobStop_of_active (active : s.job j = .active) :
    s.jobStop j = State.hostStop j (State.stopUnits j (State.exdStop (s.rf (Adr.JOB_FJID j) 19 0)
      (State.shStop (s.rf (Adr.JOB_FJID j) 19 0) (State.tileStop j (State.carvStop j
        (((s.queuedOf j).foldl (fun s id => s.stopReq id) ((s.setJob j .draining).jobReject j 0)).stopLines j)))))) := by
  unfold State.jobStop
  rw [active]
  rfl

theorem exec_jobStop (takes : s.takes src (Adr.JOB_CTRL j) .wo = true) :
    exec (.jobStop src j) s = .next (s.jobStop j) :=
  congrArg Host.Outcome.next (guarded_of_takes _ takes)

/-! ### RELEASE -/

theorem exec_jobRelease (takes : s.takes src (Adr.JOB_CTRL j) .wo = true) :
    exec (.jobRelease src j) s = .next (s.jobRelease j) :=
  congrArg Host.Outcome.next (guarded_of_takes _ takes)

/-- The state in which RELEASE frees slot `j`: what is cached for it is dropped, and its fault bit (R135). -/
def State.slotCleared (j : Nat) (s : State) : State :=
  (s.modTtu fun t => { t with
    mans := t.mans.clear (j * 2 ^ 25) ((j + 1) * 2 ^ 25)
    members := t.members.clear (j * 65536) (j * 65536 + 65536)
    inval := t.inval.set j none }).setRf (Adr.FAULT_JOB_FATAL (j / 32)) (j % 32) (j % 32) 0

theorem jobRelease_of_drained (drained : s.job j = .drained) (gone : s.slotHeld j = false) :
    s.jobRelease j = (((s.slotCleared j).setRg (Adr.JOB_FJID j) 0).setJob j .free).jobReject j 0 := by
  unfold State.jobRelease
  simp only [drained, gone, Bool.false_eq_true, if_false]
  rfl

theorem rg_fjid_released (h : s.hub.wf = true) (j : Nat) :
    ((((s.slotCleared j).setRg (Adr.JOB_FJID j) 0).setJob j .free).jobReject j 0).rg (Adr.JOB_FJID j) = 0 :=
  (rg_setRf_other _ _ _ _ (by simp)).trans
    (rg_setRg_self (s.slotCleared j) _ 0 (setRf_wf (s := s.modTtu _) h _ _ _ _))

/-! ### INVAL (R125) -/

theorem exec_jobInval (v : Word) (takes : s.takes src (Adr.JOB_CTRL j) .wo = true) (held : s.job j ≠ .free) :
    exec (.jobInval src j v) s = .next (s.jobInval j) := by
  have named : bit (v ||| 0x100) 8 = true := by
    rw [bit, BitVec.getLsbD_or]
    simp
  refine congrArg Host.Outcome.next ((guarded_of_takes _ takes).trans ?_)
  rw [State.writeInval, if_neg (by simpa using held), if_pos named]

theorem exec_invalDone {ids : List Nat} (awaited : s.ttu.inval.get j = some ids)
    (completed : ∀ id ∈ ids, s.req id = none ∧ s.hgroup id = none) :
    exec (.invalDone j) s = .next (s.modTtu fun t => { t with inval := t.inval.set j none }) := by
  have done : ¬ (ids.any fun id => (s.req id).isSome || (s.hgroup id).isSome) = true := by
    rw [List.any_eq_true]
    rintro ⟨id, mem, open_⟩
    obtain ⟨noReq, noGroup⟩ := completed id mem
    simp [noReq, noGroup] at open_
  change execInvalDone j s = _
  unfold execInvalDone
  simp only [awaited, if_neg done]

end

/-- Settles O29, one lemma for each transition of Table 5-11 and for INVAL. -/
theorem jobSlots : Obligations.JobSlots := by
  refine ⟨fun s src j inv takes _ free ok => ?_, fun s src j takes active => ?_,
    fun s j draining tags queue units => congrArg Host.Outcome.next (if_pos ⟨draining, tags, queue, units⟩),
    fun s src j inv takes _ drained gone => ?_, fun s src j v takes held => ?_, fun s j ids awaited completed => ?_⟩
  · refine ⟨_, (exec_jobActivate takes).trans (congrArg Host.Outcome.next (jobActivate_of_free free ok)), ?_, ?_, ?_,
      fun i hi => cnt_jobCntsZero inv.hub j hi, fun b other => ?_⟩
    · exact congrArg (fun t : TtuUnit => { t with jobs := t.jobs.set j .active }) (jobCntsZero_ttu s j)
    · exact job_setJob_ne_free (s.jobCntsZero j) j (by decide)
    · exact rf_jobReject (t := (s.jobCntsZero j).setJob j .active) (jobCntsZero_wf inv.hub j) j 0
    · exact (rg_setRf_other _ _ _ _ other).trans (rg_congr (jobCntsZero_regs s j) b)
  · exact ⟨s.queuedOf j, (exec_jobStop takes).trans (congrArg Host.Outcome.next (jobStop_of_active active)),
      fun id mem => mem_queuedOf mem⟩
  · exact ⟨_, (exec_jobRelease takes).trans (congrArg Host.Outcome.next (jobRelease_of_drained drained gone)), rfl,
      rg_fjid_released inv.hub j, rfl⟩
  · exact ⟨_, exec_jobInval v takes held, _, _, rfl, rfl, get_set_some _ _ _⟩
  · exact ⟨_, exec_invalDone awaited completed, rfl⟩

end Sys2Proof.Machine
end

section
/-! PROOFS. The coherent home and its domains (R144 to R160, Table 6-9). -/

namespace Sys2Proof.Machine
open Sys2Proof

section
variable {s u w y z : State} {src : Source} {p j d t a : Nat} {k : Packet} {c : Option Nat} {x : Tracker} {q : Snoop}

/-! ### A request enters its domain (R144, R152) -/

/-- A request to a COH page that its domain serves and that no watchpoint refuses enters the home. -/
theorem creqServe_enters {die size : Nat} {from_ : Ingress} {r : Passed} (coh : r.coh = true)
    (serves : z.domServes k = .ok d)
    (watched : z.watch (tracePort from_) k (if k.op = 1 ∨ k.op = 2 ∨ k.op = 3 then 1 else 0) size r.segs
      = (false, y)) :
    z.creqServe die from_ k c j size (.pass r) = (y.bump (Adr.DOM_CREQS d) 1).homeEnter die d k c r := by
  unfold State.creqServe
  simp only [coh, Bool.not_true, Bool.false_eq_true, if_false, serves, watched]

/-- A well-formed request of an agent of the domain, for which the job's queue has room, goes on to its body checks. -/
theorem creqRx_serves {die : Nat} {from_ : Ingress} (good : creqBad k = false)
    (head : u.checkHead die false k = (.ok j, w)) (dom : w.domOf k.fjid = some d) (agent : w.agentOk d k = true)
    (fits : w.queueFits j k = true) {r : Chk}
    (checked : w.checkBody die j (creqOp k.op) (if k.op = 5 then asize k else 64) (creqPerm k.op) k = (r, z)) :
    u.creqRx die from_ k c = z.creqServe die from_ k c j (if k.op = 5 then asize k else 64) r := by
  unfold State.creqRx
  simp only [good, head, dom, agent, fits, checked, Bool.not_true, Bool.false_eq_true, if_false]

theorem exec_creqRx (runs : s.stopped 4 (ingressDie p) = false) (waits : s.takeLocal p k = (c, u)) :
    exec (.creqRx p k) s = .next (u.creqRx (ingressDie p) (ingressOf p) k c) := by
  change execCreqRx p k s = _
  unfold execCreqRx
  simp only [runs, waits, Bool.false_eq_true, if_false]

/-! ### A waiting line takes a tracker (R152, R153) -/

/-- A request of the line of `w` was named before `id`: requests of one line start in order. -/
def State.lineEarlier (s : State) (id : Nat) (w : HReq) : Bool :=
  s.home.waiting.any fun e => match e.2 with
    | some v => decide (e.1 < id) && v.dom == w.dom && v.line == w.line
    | none => false

/-- The request that `w` is a line of. -/
def State.requestOf (s : State) (w : HReq) : Packet := ((w.group.bind s.hgroup).map (·.pkt)).getD default

/-- The line of `w` may need a recall: it is one itself, or its request may put an entry in the directory. -/
def State.mayRecall (s : State) (w : HReq) : Bool :=
  w.group.isNone || ((s.requestOf w).cls == 7 && (s.requestOf w).op != 3 && (s.requestOf w).op != 4)

theorem exec_trackerStart_free {id : Nat} {w : HReq} (waits : s.home.waiting.get id = some w)
    (first : s.lineEarlier id w = false) (room : s.trkUsed w.dom < s.rf (Adr.DOM_TRK_LIMIT w.dom) 13 0)
    (ways : s.mayRecall w = true → s.recallFree (s.domDie w.dom) ≠ 0) (free : s.pickTrk (s.domDie w.dom) = some t) :
    exec (.trackerStart id) s = .next (s.trkStart id t w (s.mayRecall w)) := by
  have starts : ¬ (s.lineEarlier id w || decide (s.rf (Adr.DOM_TRK_LIMIT w.dom) 13 0 ≤ s.trkUsed w.dom)
      || (s.mayRecall w && s.recallFree (s.domDie w.dom) == 0)) = true := by
    simpa [first, room] using ways
  change execTrackerStart id s = _
  unfold execTrackerStart
  simp only [waits, free]
  exact congrArg Host.Outcome.next (if_neg starts)

/-! ### Answers of agents (R153, R154) -/

theorem exec_snpRespRx_awaited (waits : s.takeLocal p k = (c, u)) (len : k.len = 32) (result : k.xf 47 45 ≤ 4)
    (rsvd : k.xf 42 0 = 0) (spec : nbits k.spec 15 11 = 0)
    (found : u.cohMatch (ingressDie p) k false true = (some (t, x), w))
    (awaits : x.snoops.find? (fun q : Snoop => q.agent == cohAgent k && q.resp.isNone) = some q) :
    exec (.snpRespRx p k) s = .next (State.freeLocal c (State.snoopCheck t (w.setTrk t (some (Tracker.mapSnoops x
      (fun q : Snoop => q.agent == cohAgent k && q.resp.isNone)
      fun q : Snoop => { q with resp := some (k.xf 47 45, k.xf 44 44 == 1, k.xf 43 43 == 1) }))))) := by
  have good : (k.len != 32 || decide (4 < k.xf 47 45) || k.xf 42 0 != 0 || nbits k.spec 15 11 != 0) = false := by
    simp [len, result, rsvd, spec]
  change execSnpRespRx p k s = _
  unfold execSnpRespRx
  simp only [waits, good, found, awaits]

theorem exec_cdatHomeRx_awaited (waits : s.takeLocal p k = (c, u)) (len : k.len = 96) (grant : k.xf 50 48 = 0)
    (data : k.xf 46 46 = 0) (rsvd : k.xf 29 0 = 0) (spec : nbits k.spec 15 11 = 0)
    (found : u.cohMatch (ingressDie p) k false true = (some (t, x), w))
    (awaits : x.snoops.find? (fun q : Snoop => q.agent == cohAgent k && q.data.isNone) = some q) :
    exec (.cdatHomeRx p k) s = .next (State.freeLocal c (State.snoopCheck t (w.setTrk t (some (Tracker.mapSnoops x
      (fun q : Snoop => q.agent == cohAgent k && q.data.isNone)
      fun q : Snoop => { q with data := some (k.bytes 32 64, k.xf 47 47 == 1, k.poison) }))))) := by
  have good : (k.len != 96 || k.xf 50 48 != 0 || k.xf 46 46 != 0 || k.xf 29 0 != 0 || nbits k.spec 15 11 != 0)
      = false := by
    simp [len, grant, data, rsvd, spec]
  change execCdatHomeRx p k s = _
  unfold execCdatHomeRx
  simp only [waits, good, found, awaits]

/-- The CompAck that a granting transaction waits for ends it. -/
theorem exec_compAckRx_awaited (waits : s.takeLocal p k = (c, u)) (len : k.len = 32) (rsvd : k.xf 47 0 = 0)
    (spec : nbits k.spec 15 11 = 0) (found : u.cohMatch (ingressDie p) k false false = (some (t, x), w))
    (awaits : x.todo.head? = some .ack) :
    exec (.compAckRx p k) s = .next (State.freeLocal c (State.wakeTrks (State.runTrk t trkFuel
      (w.setTrk t (some { x with todo := [] }))))) := by
  have good : (k.len != 32 || k.xf 47 0 != 0 || nbits k.spec 15 11 != 0) = false := by
    simp [len, rsvd, spec]
  change execCompAckRx p k s = _
  unfold execCompAckRx
  simp only [waits, good, found, awaits]
  rfl

/-! ### What takes a domain down (R143, R159) -/

theorem exec_snoopTimeout_late (held : s.trk t = some x) (open_ : (x.snoops.find? fun q => !q.whole) = some q)
    (late : x.since + 1000 * s.rf (Adr.DOM_SNOOP_TIMEOUT x.dom) 19 0 ≤ s.ns) :
    exec (.snoopTimeout t) s = .next (s.domDown x.dom 1 q.agent) := by
  change execSnoopTimeout t s = _
  unfold execSnoopTimeout
  simp only [held, open_, late, if_true]

/-- Agent table entry `e` with DEAD set (Table 6-1). -/
def agentMarked (e : Nat) : Nat := e % 2 ^ 62 + nbits e 63 63 * 2 ^ 63 + 2 ^ 62

theorem agentMarked_dead (e : Nat) : nbits (agentMarked e) 62 62 = 1 := by
  simp only [agentMarked, nbits, Nat.shiftRight_eq_div_pow]
  omega

theorem agentMarked_low (e : Nat) : nbits (agentMarked e) 61 0 = nbits e 61 0 := by
  simp only [agentMarked, nbits, Nat.shiftRight_eq_div_pow]
  omega

theorem agentMarked_valid (e : Nat) : nbits (agentMarked e) 63 63 = nbits e 63 63 := by
  simp only [agentMarked, nbits, Nat.shiftRight_eq_div_pow]
  omega

/-- DEAD written 1 in the entry of an agent that was not dead takes the domain down. -/
theorem writeAgent_kills {v : Nat} (dead : nbits v 62 62 = 1) (was : nbits (s.agent d a) 62 62 = 0) :
    s.writeAgent d a v = (s.setEntry (agentAt d a) 2 v).domDown d 2 a := by
  unfold State.writeAgent
  simp [dead, was]

theorem exec_agentDeadWrite (dom : d < 16) (agent : a < 2048) (on : s.pageOn .swcore 0 = true) :
    exec (.agentDeadWrite src d a) s = .next (s.writeAgent d a (agentMarked (s.agent d a))) :=
  congrArg Host.Outcome.next (if_pos ⟨dom, agent, .inl on⟩)

/-! ### ENABLE, FLUSH and RESET (Table 6-9) -/

/-- What ENABLE asks of the registers of a domain: one that RESULT 1 does not refuse. -/
structure Enables (s : State) (d : Nat) : Prop where
  alone : s.domOf (s.rf (Adr.DOM_FJID d) 19 0) = none
  setsMin : 10 ≤ s.domK d
  setsMax : s.domK d ≤ 23
  trkMin : 0 < s.rf (Adr.DOM_TRK_LIMIT d) 13 0
  trkMax : s.rf (Adr.DOM_TRK_LIMIT d) 13 0 ≤ 8192
  timeMin : 0 < s.rf (Adr.DOM_SNOOP_TIMEOUT d) 19 0
  timeMax : s.rf (Adr.DOM_SNOOP_TIMEOUT d) 19 0 ≤ 1000000
  aligned : s.rg64 (Adr.DOM_DIR_BASE_LO d) % 2 ^ 20 = 0
  inside : s.rg64 (Adr.DOM_DIR_BASE_LO d) + 1024 * 2 ^ s.domK d ≤ barnSize

/-- The directory entries of the domains that are not OFF, with those of `d`. -/
def State.dirTotal (s : State) (d : Nat) : Nat :=
  ((List.range 16).filter fun i => s.dom i != .off).foldl (fun n i => n + dirSize (s.domK i)) (dirSize (s.domK d))

theorem domEnable_of_off (off : s.dom d = .off) (ok : Enables s d) (total : s.dirTotal d ≤ 2 ^ 27) :
    s.domEnable d
      = ((s.zeroBarn (s.rg64 (Adr.DOM_DIR_BASE_LO d)) (1024 * 2 ^ s.domK d)).setDom d .init).domReject d 0 := by
  obtain ⟨alone, setsMin, setsMax, trkMin, trkMax, timeMin, timeMax, aligned, inside⟩ := ok
  unfold State.domEnable
  simp only [off]
  rw [if_neg (by
    simpa [alone, setsMin, setsMax, trkMin.ne', trkMax, timeMin.ne', timeMax, inside] using aligned)]
  exact if_neg (Nat.not_lt.2 total)

theorem domFlush_of_active (active : s.dom d = .active) :
    s.domFlush d = ((s.recallAll d).setDom d .flushing).domReject d 0 := by
  rw [State.domFlush, active]

theorem domReset_of_down (down : s.dom d = .down) : s.domReset d = (s.setDom d .off).domReject d 0 := by
  rw [State.domReset, down]

theorem exec_domEnable (takes : s.takes src (Adr.DOM_CTRL d) .wo = true) :
    exec (.domEnable src d) s = .next (s.domEnable d) :=
  congrArg Host.Outcome.next (guarded_of_takes _ takes)

theorem exec_domFlush (takes : s.takes src (Adr.DOM_CTRL d) .wo = true) :
    exec (.domFlush src d) s = .next (s.domFlush d) :=
  congrArg Host.Outcome.next (guarded_of_takes _ takes)

theorem exec_domReset (takes : s.takes src (Adr.DOM_CTRL d) .wo = true) :
    exec (.domReset src d) s = .next (s.domReset d) :=
  congrArg Host.Outcome.next (guarded_of_takes _ takes)

/-! ### The sweeps end (R160, Table 6-9) -/

theorem exec_domSweepDone_init (init : s.dom d = .init) :
    exec (.domSweepDone d) s = .next ((s.setDom d .active).raiseInt .dom d 0) := by
  change execDomSweepDone d s = _
  rw [execDomSweepDone, init]

/-- A flush ends once no line waits, no tracker is in use and the directory is empty. -/
theorem exec_domSweepDone_flushed (flushing : s.dom d = .flushing) (waiting : s.home.waiting = [])
    (trackers : s.trkUsed d = 0) (entries : s.dirEntries d = []) :
    exec (.domSweepDone d) s = .next ((s.setDom d .off).raiseInt .dom d 2) := by
  change execDomSweepDone d s = _
  unfold execDomSweepDone
  simp only [flushing, waiting, trackers, entries]
  rfl

theorem exec_domSweepDone_walked (walk : s.dom d = .downWalk) (ended : s.walkOut d = false) :
    exec (.domSweepDone d) s = .next (s.setDom d .down) := by
  change execDomSweepDone d s = _
  unfold execDomSweepDone
  simp only [walk, ended, Bool.false_eq_true, if_false]

end

/-- Settles O30, one lemma for each message, each cause of a domain going down and each transition of Table 6-9. -/
theorem coherence : Obligations.Coherence := by
  refine ⟨fun s p k c u j w x z y d runs waits good head dom agent fits checked coh serves watched => ?_,
    fun s id w t q needs waits request recalls first room ways free => ?_,
    fun s p k c u t x w waits len result rsvd spec found ⟨q, awaits⟩ =>
      exec_snpRespRx_awaited waits len result rsvd spec found awaits,
    fun s p k c u t x w waits len grant data rsvd spec found ⟨q, awaits⟩ =>
      exec_cdatHomeRx_awaited waits len grant data rsvd spec found awaits,
    fun s p k c u t x w waits len rsvd spec found awaits => exec_compAckRx_awaited waits len rsvd spec found awaits,
    fun s t x q held open_ late => exec_snoopTimeout_late held open_ late,
    fun s src k a dom agent on was => ?_,
    fun s src k takes off alone setsMin setsMax trkMin trkMax timeMin timeMax aligned inside total => ?_,
    fun s src k takes active => (exec_domFlush takes).trans (congrArg Host.Outcome.next (domFlush_of_active active)),
    fun s src k takes down => (exec_domReset takes).trans (congrArg Host.Outcome.next (domReset_of_down down)),
    fun s k init => exec_domSweepDone_init init,
    fun s k flushing waiting trackers entries => exec_domSweepDone_flushed flushing waiting trackers entries,
    fun s k walk ended => exec_domSweepDone_walked walk ended⟩
  · rw [exec_creqRx runs waits, creqRx_serves good head dom agent fits checked, creqServe_enters coh serves watched]
  · subst request recalls
    exact exec_trackerStart_free waits first room ways free
  · have dead := agentMarked_dead (s.agent k a)
    exact ⟨agentMarked (s.agent k a), dead, agentMarked_low _, agentMarked_valid _,
      (exec_agentDeadWrite dom agent on).trans (congrArg Host.Outcome.next (writeAgent_kills dead was))⟩
  · have ok : Enables s k := ⟨alone, setsMin, setsMax, trkMin, trkMax, timeMin, timeMax, aligned, inside⟩
    exact (exec_domEnable takes).trans (congrArg Host.Outcome.next (domEnable_of_off off ok total))

end Sys2Proof.Machine
end

section
/-! PROOFS. The tier engine (R187 to R198, R213, Table 8-4). -/

namespace Sys2Proof.Machine
open Sys2Proof

section
variable {s : State} {src : Source} {c : TierCmd} {f sec id i op : Nat} {r : Req}

/-! ### An interrupt (R416) -/

/-- An interrupt changes no unit of its page, and of the registers only the page's INT_STATUS. -/
theorem raiseInt_tier (inv : s.Inv) (k : PageKind) (n b : Nat) : (s.raiseInt k n b).tier = s.tier :=
  (State.raiseInt_inv (pmk := 16793603) k n b s (keeps_refl inv) rfl).frame .tier rfl

theorem rg_raiseInt_other (inv : s.Inv) {k : PageKind} {n a : Nat} (b : Nat) (other : a ≠ adr k n Adr.H_INT_STATUS) :
    (s.raiseInt k n b).rg a = s.rg a := by
  have set := State.setRf_inv (adr k n Adr.H_INT_STATUS) b b 1 s (keeps_refl (pmk := 1) inv) rfl
  have sent := State.intMessage_inv (pmk := 16793602) k n _ (keeps_refl set.inv) rfl
  have kept := rg_setRf_other s b b 1 other
  unfold State.raiseInt
  dsimp only
  split
  · rfl
  split
  · exact (rg_congr (sent.frame .regs rfl) a).trans kept
  · exact kept

/-! ### EN (R213) -/

theorem tierOn_eq_beq (s : State) : s.tierOn = (s.rf Adr.TIER_CTRL 0 0 == 1) := by
  rw [State.rf, bits_single]
  change bit (s.rg Adr.TIER_CTRL) 0 = _
  cases bit (s.rg Adr.TIER_CTRL) 0 <;> rfl

/-- EN written `b`, and STATUS after it. -/
theorem tierOn_written (wf : s.hub.wf = true) (b : Bool) (v : Word) :
    ((s.setRf Adr.TIER_CTRL 0 0 b.toNat).setRg Adr.TIER_STATUS v).tierOn = b := by
  rw [tierOn_eq_beq, rf_congr (rg_setRg_other _ _ _ _ (by decide)), rf_setRf_self wf _ _ (by decide) (by decide)]
  cases b <;> rfl

theorem rg_tierStatus_written (wf : s.hub.wf = true) (n : Nat) (v : Word) :
    ((s.setRf Adr.TIER_CTRL 0 0 n).setRg Adr.TIER_STATUS v).rg Adr.TIER_STATUS = v :=
  rg_setRg_self _ _ _ (setRf_wf wf _ _ _ _)

theorem writeTierCtrl_one (s : State) : s.writeTierCtrl 1 = s.tierEnable := if_pos (by decide)
theorem writeTierCtrl_zero (s : State) : s.writeTierCtrl 0 = s.tierDisable := if_neg (by decide)

theorem exec_tierEnable (takes : s.takes src Adr.TIER_CTRL .rw = true) :
    exec (.tierEnable src) s = .next s.tierEnable :=
  congrArg Host.Outcome.next ((guarded_of_takes _ takes).trans (writeTierCtrl_one s))

theorem exec_tierDisable (takes : s.takes src Adr.TIER_CTRL .rw = true) :
    exec (.tierDisable src) s = .next s.tierDisable :=
  congrArg Host.Outcome.next ((guarded_of_takes _ takes).trans (writeTierCtrl_zero s))

theorem tierEnable_of_sound (off : s.tierOn = false) (setsMin : 6 ≤ s.tierK) (setsMax : s.tierK ≤ 18)
    (cache : s.rg64 Adr.TIER_CACHE_BASE_LO % 65536 = 0) (records : s.rg64 Adr.TIER_FTAB_BASE_LO % 4096 = 0)
    (apart : regionsBad (s.tierRegions ++ (if s.gran.st == .off then [] else s.granRegions)) = false) :
    s.tierEnable = ((s.setRf Adr.TIER_CTRL 0 0 1).setRg Adr.TIER_STATUS (w32 (2 ^ 31))).zeroBarn
      (s.rg64 Adr.TIER_FTAB_BASE_LO) (64 * 2 ^ (s.tierK + 4)) := by
  have fields : ¬ (s.tierK < 6 ∨ 18 < s.tierK ∨ s.rg64 Adr.TIER_CACHE_BASE_LO % 65536 ≠ 0
      ∨ s.rg64 Adr.TIER_FTAB_BASE_LO % 4096 ≠ 0) := by omega
  unfold State.tierEnable
  simp only [off, fields, apart, Bool.false_eq_true, if_false]

theorem tierDisable_of_unused (on : s.tierOn = true) (unused : (s.tier.frames.any fun e => e.2.valid) = false)
    (idle : s.tier.cmd = none) :
    s.tierDisable = (s.setRf Adr.TIER_CTRL 0 0 0).setRg Adr.TIER_STATUS 0 := by
  unfold State.tierDisable
  simp only [on, unused, idle, Bool.not_true, Bool.false_eq_true, Option.isSome_none, if_false]

/-! ### Commands (R198, Table 8-4) -/

/-- The writes of CMD with GO and their codes. -/
def tierOps (src : Source) : List (Instr × Nat) :=
  [(.tierStage src, 1), (.tierStagePin src, 2), (.tierUnpin src, 3), (.tierFlush src, 4), (.tierEvict src, 5),
    (.tierDiscard src, 6), (.tierTrim src, 7)]

theorem exec_tierOp (takes : s.takes src Adr.TIER_CMD .wo = true) :
    ∀ x ∈ tierOps src, exec x.1 s = .next (s.tierGo x.2) := by
  have go (n : Nat) : Host.Outcome.next (s.guarded src Adr.TIER_CMD .wo (·.tierGo n)) = .next (s.tierGo n) :=
    congrArg (Host.Outcome.next (φ := Fault) (ρ := Refusal)) (guarded_of_takes _ takes)
  simpa only [tierOps, List.forall_mem_cons, List.not_mem_nil, false_implies, implies_true, and_true] using
    ⟨go 1, go 2, go 3, go 4, go 5, go 6, go 7⟩

theorem tierOp_range : ∀ x ∈ tierOps src, 1 ≤ x.2 ∧ x.2 ≤ 7 := by
  simp [tierOps]

/-- The state in which a command of units of pool map entry `i` is taken. -/
def State.tierTaken (op i : Nat) (s : State) : State :=
  (((s.modTier fun t => { t with
      cmd := some { op := op, entry := i, first := s.rg64 Adr.TIER_ARG_PPA_LO / 65536
                    units := s.rf Adr.TIER_ARG_UNITS 23 0 } }).setRg
    Adr.TIER_CMD_STATUS (w32 (2 ^ 31))).setRg Adr.TIER_CMD_PROGRESS 0).setRg Adr.TIER_CMD_SKIPPED 0

/-- A command over units that one entry, of a granary range, holds is taken, and runs. -/
theorem tierGo_of_idle (idle : s.tier.cmd = none) (opMin : 1 ≤ op) (opMax : op ≤ 7)
    (units : 0 < s.rf Adr.TIER_ARG_UNITS 23 0) (aligned : s.rg64 Adr.TIER_ARG_PPA_LO % 65536 = 0)
    (held : s.tierEntry (s.rg64 Adr.TIER_ARG_PPA_LO) (s.rf Adr.TIER_ARG_UNITS 23 0) = some i)
    (gran : poolKind (s.poolEntry i) = 2) :
    s.tierGo op = (s.tierTaken op i).tierRun := by
  have fields : ¬ (op = 0 ∨ 7 < op ∨ s.rf Adr.TIER_ARG_UNITS 23 0 = 0
      ∨ s.rg64 Adr.TIER_ARG_PPA_LO % 65536 ≠ 0) := by omega
  have trims : ¬ (op = 7 ∧ poolKind (s.poolEntry i) ≠ 2) := fun h => h.2 gran
  unfold State.tierGo
  simp only [idle, fields, held, trims, Option.isSome_none, Bool.false_eq_true, if_false]
  rfl

theorem tierGo_of_running (running : s.tier.cmd = some c) : s.tierGo op = s.bump Adr.TIER_CMD_IGNORED 1 := by
  unfold State.tierGo
  rw [running]
  rfl

/-- A command whose units are all processed runs no further. -/
theorem tierRun_of_processed (running : s.tier.cmd = some c) (processed : c.units ≤ c.next) : s.tierRun = s := by
  unfold State.tierRun
  rw [running]
  simp only [Nat.sub_eq_zero_of_le processed]
  rfl

/-- The state in which the command's result is shown, before its interrupt. -/
def State.tierShown (c : TierCmd) (s : State) : State :=
  (s.modTier fun t => { t with cmd := none }).setRg Adr.TIER_CMD_STATUS (w32 c.result)

theorem tierShown_inv (inv : s.Inv) (c : TierCmd) : (s.tierShown c).Inv :=
  (State.setRg_inv (pmk := 513) _ _ _ (State.modTier_inv _ _ (keeps_refl inv) rfl) rfl).inv

theorem exec_tierCmdDone_processed (running : s.tier.cmd = some c) (processed : c.units ≤ c.next)
    (still : ∀ e ∈ s.tier.frames, e.2.has .filling = false ∧ e.2.has .writing = false) :
    exec .tierCmdDone s = .next ((s.tierShown c).raiseInt .tier 0 0) := by
  change execTierCmdDone s = _
  unfold execTierCmdDone
  simp only [tierRun_of_processed running processed, running]
  refine congrArg Host.Outcome.next (if_neg ?_)
  rw [Bool.or_eq_true, List.any_eq_true]
  rintro (more | ⟨e, mem, busy⟩)
  · exact absurd (of_decide_eq_true more) (by omega)
  · obtain ⟨filling, writing⟩ := still e mem
    simp [filling, writing] at busy

/-! ### Fills and writebacks end (R194, R195) -/

theorem exec_fillDone_ok {data : List Byte} {pm : Nat} (filling : (s.frame f).sect.get sec = .filling)
    (dram : (s.frame f).gran = false) (job : s.tierJob (.fill f sec 1) = some (id, r))
    (ok : r.merged = (0, data, pm)) :
    exec (.fillDone f sec) s
      = .next (State.wakeSet (f / 16) (State.setSector f sec .clean ((s.setReq id none).fillData f sec data pm))) := by
  change execFillDone f sec s = _
  unfold execFillDone
  simp only [filling, dram, job, ok, bne_self_eq_false, Bool.false_eq_true, if_false, if_true]

theorem exec_writebackDone_ok {x : List Byte × Nat} (writing : (s.frame f).sect.get sec = .writing)
    (dram : (s.frame f).gran = false) (job : s.tierJob (.wb f sec 1) = some (id, r)) (ok : r.merged = (0, x)) :
    exec (.writebackDone f sec) s = .next ((s.setReq id none).wbOk f [sec]) := by
  change execWritebackDone f sec s = _
  unfold execWritebackDone
  simp only [writing, dram, job, ok, bne_self_eq_false, Bool.or_self, Bool.false_eq_true, if_false, if_true]

end

/-- Settles O35, one lemma for EN, for GO, for the end of a command, of a fill and of a writeback. -/
theorem tiers : Obligations.Tiers := by
  refine ⟨fun s src inv takes off setsMin setsMax cache records apart => ?_,
    fun s src inv takes on unused idle => ?_, fun s src i takes idle units aligned held gran x mem => ?_,
    fun s src c takes running => ?_, fun s c inv running processed still => ?_,
    fun s f sec id r data pm filling dram job ok => exec_fillDone_ok filling dram job ok,
    fun s f sec id r x writing dram job ok => exec_writebackDone_ok writing dram job ok⟩
  · have enabled := tierEnable_of_sound off setsMin setsMax cache records apart
    exact ⟨_, (exec_tierEnable takes).trans (congrArg Host.Outcome.next enabled), tierOn_written inv.hub true _,
      rg_tierStatus_written inv.hub 1 _, rfl⟩
  · have disabled := tierDisable_of_unused on unused idle
    exact ⟨_, (exec_tierDisable takes).trans (congrArg Host.Outcome.next disabled), tierOn_written inv.hub false _,
      rg_tierStatus_written inv.hub 0 _⟩
  · obtain ⟨opMin, opMax⟩ := tierOp_range x mem
    have taken := tierGo_of_idle idle opMin opMax units aligned held gran
    exact ⟨s.tierTaken x.2 i, (exec_tierOp takes x mem).trans (congrArg Host.Outcome.next taken), rfl, rfl⟩
  · have ignored : ∀ x ∈ tierOps src, exec x.1 s = .next (s.bump Adr.TIER_CMD_IGNORED 1) := fun x mem =>
      (exec_tierOp takes x mem).trans (congrArg Host.Outcome.next (tierGo_of_running running))
    exact List.forall_mem_map (f := Prod.fst) (l := tierOps src).2 ignored
  · refine ⟨_, exec_tierCmdDone_processed running processed still, raiseInt_tier (tierShown_inv inv c) .tier 0 0, ?_⟩
    exact (rg_raiseInt_other (tierShown_inv inv c) 0 (by decide)).trans (rg_setRg_self _ _ _ inv.hub)

end Sys2Proof.Machine
end

section
/-! PROOFS. The granary (R203 to R212, Table 8-10). -/

namespace Sys2Proof.Machine
open Sys2Proof

section
variable {s : State} {src : Source} {pun sec bn b c : Nat} {bad : List Nat} {spare : Nat} {r : NandRead} {p : Prog}

/-! ### Its state (Table 8-10) -/

theorem exec_granEnable (takes : s.takes src Adr.GRAN_CTRL .rw = true) :
    exec (.granEnable src) s = .next s.granEnable :=
  congrArg Host.Outcome.next (guarded_of_takes _ takes)

theorem exec_granDisable (takes : s.takes src Adr.GRAN_CTRL .rw = true) :
    exec (.granDisable src) s = .next s.granDisable :=
  congrArg Host.Outcome.next (guarded_of_takes _ takes)

theorem exec_granFormat (takes : s.takes src Adr.GRAN_CTRL .rw = true) :
    exec (.granFormat src bad spare) s = .next (s.granFormat bad spare) :=
  congrArg Host.Outcome.next (guarded_of_takes _ takes)

theorem rg_granReject_other (s : State) (n : Nat) {a : Nat} (other : a ≠ Adr.GRAN_STATUS) :
    (s.granReject n).rg a = s.rg a :=
  rg_setRf_other _ _ _ _ other

/-- EN written `n`, with whatever REJECT shows after it. -/
theorem rf_granEn_written (wf : s.hub.wf = true) (n m : Nat) :
    ((s.setRf Adr.GRAN_CTRL 0 0 n).granReject m).rf Adr.GRAN_CTRL 0 0 = n % 2 :=
  (rf_congr (rg_granReject_other _ m (by decide)) 0 0).trans (rf_setRf_self wf _ _ (by decide) (by decide))

theorem granEnable_of_sound (off : s.gran.st = .off) (fields : s.granFieldsBad = false)
    (regions : s.granRegionsBad = false) :
    s.granEnable = ((s.setRf Adr.GRAN_CTRL 0 0 1).granReject 0).setGran .restoring := by
  unfold State.granEnable
  simp only [off, fields, regions, Bool.false_eq_true, if_false]

theorem granDisable_of_failed (failed : s.gran.st = .failed) :
    s.granDisable = ((s.setRf Adr.GRAN_CTRL 0 0 0).granReject 0).modGran fun g => { g with
      st := .off, scan := true } := by
  unfold State.granDisable
  simp only [failed]

theorem flushJournal_of_empty (empty : s.gran.journal = []) (n : Nat) : State.flushJournal n s = s := by
  cases n with
  | zero => rfl
  | succ n =>
    unfold State.flushJournal
    rw [empty]
    rfl

/-- The state in which the granary has left READY with a checkpoint. -/
def State.granClosed (s : State) : State :=
  (s.emit (.nandMeta true s.mapList)).modGran fun g => { g with jpages := 0, st := .off }

theorem granDisable_of_ready (ready : s.gran.st = .ready)
    (unused : (s.tier.frames.any fun e => e.2.valid && e.2.gran) = false) (empty : s.gran.journal = []) :
    s.granDisable = ((s.granClosed.setRf Adr.GRAN_CTRL 0 0 0).granReject 0).disarm := by
  unfold State.granDisable
  simp only [ready, unused, flushJournal_of_empty empty, Bool.false_eq_true, if_false]
  rfl

theorem writeArm_tier (s : State) (n : Nat) (armed : Bool) : (s.writeArm n armed).tier = s.tier := by
  simp only [State.writeArm, State.showArm, State.setCell, State.setRg64, State.setRg_tier, State.modPwr_tier]

theorem writeArm_out (s : State) (n : Nat) (armed : Bool) : (s.writeArm n armed).out = s.out := by
  simp only [State.writeArm, State.showArm, State.setCell, State.setRg64, State.setRg_out, State.modPwr_out]

theorem disarm_gran (s : State) : s.disarm.gran = s.gran := congrArg TierUnit.gran (writeArm_tier s _ false)
theorem disarm_out (s : State) : s.disarm.out = s.out := writeArm_out s _ false

/-- The arm record is shown in three registers of the SAVE page (Table 17-11). -/
theorem rg_disarm_other (s : State) {a : Nat} (lo : a ≠ Adr.SAVE_ARM_SEQ_LO) (hi : a ≠ Adr.SAVE_ARM_SEQ_LO + 4)
    (state : a ≠ Adr.SAVE_ARM_STATE) : s.disarm.rg a = s.rg a := by
  unfold State.disarm State.writeArm State.showArm
  rw [rg_setRg_other _ _ _ _ state, rg_setRg64_other _ _ lo hi]
  rfl

/-! ### FORMAT (R207) -/

@[simp] theorem State.setBlk_hub (s : State) (m v : Nat) : (s.setBlk m v).hub = s.hub := s.setBarn_hub _ _
@[simp] theorem State.setBlk_tier (s : State) (m v : Nat) : (s.setBlk m v).tier = s.tier := s.setBarn_tier _ _
@[simp] theorem State.setBlk_out (s : State) (m v : Nat) : (s.setBlk m v).out = s.out := s.setBarn_out _ _

theorem writeBlocks_hub (s : State) (word : Nat → Nat) : (s.writeBlocks word).hub = s.hub :=
  foldl_reads (fun t => t.hub) (f := fun t b => t.setBlk b (word b)) (fun t b => t.setBlk_hub b (word b)) _ _

theorem writeBlocks_rg (s : State) (word : Nat → Nat) (a : Nat) : (s.writeBlocks word).rg a = s.rg a :=
  rg_congr (congrArg Hub.regs (writeBlocks_hub s word)) a

/-- The barn with the block table of a format, its erase counts open, and an empty map. -/
def State.tablesFormatted (bad : List Nat) (s : State) : State :=
  State.zeroBarn (s.rg64 Adr.GRAN_MAP_BASE_LO) (4 * (s.rg Adr.GRAN_LOGICAL_UNITS).toNat)
    ((s.takeFrees (256 * s.granBlocks)).writeBlocks fun b =>
      blkWord (if bad.contains b then 4 else 0) (Config.free (s.free + b) % 2 ^ 20) 0 0)

theorem tablesFormatted_hub (s : State) (bad : List Nat) : (s.tablesFormatted bad).hub = s.hub :=
  writeBlocks_hub _ _

theorem tablesFormatted_wf (wf : s.hub.wf = true) (bad : List Nat) : (s.tablesFormatted bad).hub.wf = true :=
  (congrArg Hub.wf (tablesFormatted_hub s bad)).trans wf

theorem rg_mappedUnits_formatted (wf : s.hub.wf = true) (bad : List Nat) :
    (((s.tablesFormatted bad).setRg Adr.GRAN_MAPPED_UNITS 0).granReject 0).rg Adr.GRAN_MAPPED_UNITS = 0 :=
  (rg_granReject_other _ 0 (by decide)).trans (rg_setRg_self (s.tablesFormatted bad) _ 0 (tablesFormatted_wf wf bad))

theorem granFormat_of_sound (off : s.gran.st = .off) (fields : s.granFieldsBad = false)
    (regions : s.granRegionsBad = false) (bytes : 1664 ≤ spare)
    (good : ∀ c, c < s.granChans → s.spareNeed ≤ ((s.chanBlocks c).filter fun b => !bad.contains b).length) :
    s.granFormat bad spare = (((s.tablesFormatted bad).setRg Adr.GRAN_MAPPED_UNITS 0).granReject 0).modGran
      fun _ => { ({} : GranUnit) with st := .formatting } := by
  have enough : ((List.range s.granChans).any fun c =>
      decide (((s.chanBlocks c).filter fun b => !bad.contains b).length < s.spareNeed)) = false := by
    rw [List.any_eq_false]
    intro c mem
    simpa using good c (List.mem_range.1 mem)
  have bytes : ¬ spare < 1664 := Nat.not_lt.2 bytes
  unfold State.granFormat
  simp only [off, fields, bytes, enough, regions, State.rg64, writeBlocks_rg, bne_self_eq_false, Bool.or_self,
    Bool.false_eq_true, decide_false, if_false]
  rfl

/-! ### The end of formatting and of restoring -/

theorem exec_granWorkDone_formatting (formatting : s.gran.st = .formatting) (map late blks : List (Nat × Nat)) :
    exec (.granWorkDone map late blks false) s = .next (s.setGran .ready) := by
  change execGranWorkDone map late blks false s = _
  unfold execGranWorkDone
  simp only [formatting, Bool.false_eq_true, if_false]

theorem exec_granWorkDone_restoring (restoring : s.gran.st = .restoring) (map late blks : List (Nat × Nat)) :
    exec (.granWorkDone map late blks false) s = .next (s.granRestored map late blks) := by
  change execGranWorkDone map late blks false s = _
  unfold execGranWorkDone
  simp only [restoring, Bool.false_eq_true, if_false]

/-! ### Flash operations end (R204, R208) -/

theorem exec_nandReadDone_clean (reading : (s.gran.reads.find? fun r => r.pun == pun && r.sec == sec) = some r)
    (data : List Byte) (pm : Nat) :
    exec (.nandReadDone pun sec true 0 data pm) s = .next (s.sectorDecoded r data (pm % 2 ^ 64)) := by
  change execNandReadDone pun sec true 0 data pm s = _
  unfold execNandReadDone
  simp only [reading, ne_eq, not_true_eq_false, false_and, if_true, if_false]

@[simp] theorem State.countReads_hub (s : State) (m n : Nat) : (s.countReads m n).hub = s.hub := s.setBlk_hub m _
@[simp] theorem State.countReads_tier (s : State) (m n : Nat) : (s.countReads m n).tier = s.tier := s.setBlk_tier m _
@[simp] theorem State.countReads_out (s : State) (m n : Nat) : (s.countReads m n).out = s.out := setBlk_out _ _ _

/-- The state in which read `r` of a sector has been sent again at the next retry level. -/
def State.readAgain (r : NandRead) (s : State) : State :=
  ((((s.modGran fun g => { g with reads := g.reads.map fun x => if x = r then { x with level := r.level + 1 } else x
      }).countReads (s.bnOf r.pun) 1).emit (.nandRead r.pun r.sec (r.level + 1))).bump Adr.GRAN_READ_RETRIES 1)

theorem readAgain_out (s : State) (r : NandRead) :
    (s.readAgain r).out = s.out ++ [.nandRead r.pun r.sec (r.level + 1)] := by
  unfold State.readAgain
  rw [State.bump, State.setCnt_out, State.emit_out, State.countReads_out]
  rfl

theorem readAgain_reads (s : State) (r : NandRead) :
    (s.readAgain r).gran.reads = s.gran.reads.map fun x => if x = r then { x with level := r.level + 1 } else x := by
  unfold State.readAgain State.gran
  rw [State.bump, State.setCnt_tier, State.emit_tier, State.countReads_tier]
  rfl

theorem bnOf_congr {t : State} (regs : t.hub.regs = s.hub.regs) (n : Nat) : t.bnOf n = s.bnOf n := by
  rw [State.bnOf, State.bnOf, State.granU, State.granU, rf_congr (rg_congr regs _)]

@[simp] theorem State.modGran_bnOf (s : State) (g : GranUnit → GranUnit) (n : Nat) : (s.modGran g).bnOf n = s.bnOf n :=
  bnOf_congr rfl n

@[simp] theorem State.countReads_bnOf (s : State) (m k n : Nat) : (s.countReads m k).bnOf n = s.bnOf n :=
  bnOf_congr (congrArg Hub.regs (s.countReads_hub m k)) n

@[simp] theorem State.emit_bnOf (s : State) (e : Emit) (n : Nat) : (s.emit e).bnOf n = s.bnOf n := bnOf_congr rfl n
@[simp] theorem State.bump_bnOf (s : State) (a m n : Nat) : (s.bump a m).bnOf n = s.bnOf n := bnOf_congr rfl n

theorem find_read_eq (reading : (s.gran.reads.find? fun r => r.pun == pun && r.sec == sec) = some r) :
    r.pun = pun ∧ r.sec = sec := by
  simpa using List.find?_some reading

theorem exec_nandReadDone_retry (reading : (s.gran.reads.find? fun r => r.pun == pun && r.sec == sec) = some r)
    (hard : r.level < 15) (retries : r.level < s.rf Adr.GRAN_LDPC_CFG 3 0) (n : Nat) (data : List Byte) (pm : Nat) :
    exec (.nandReadDone pun sec false n data pm) s
      = .next ((s.readAgain r).readDisturb ((s.readAgain r).bnOf pun)) := by
  obtain ⟨rfl, rfl⟩ := find_read_eq reading
  have soft : r.level + 1 ≠ 16 := by omega
  change execNandReadDone r.pun r.sec false n data pm s = _
  unfold execNandReadDone
  simp only [reading, retries, soft, Nat.lt_succ_of_lt hard, Bool.false_eq_true, if_true, if_false,
    State.readAgain, State.modGran_bnOf, State.countReads_bnOf, State.emit_bnOf, State.bump_bnOf]

theorem exec_nandProgramDone_ok (programming : (s.gran.progs.find? fun p => p.pun == some pun) = some p)
    (room : s.gran.journal.length < 131072) :
    exec (.nandProgramDone pun true) s = .next (s.progOk p pun) := by
  change execNandProgramDone pun true s = _
  unfold execNandProgramDone
  rw [programming]
  exact congrArg Host.Outcome.next (if_neg (Nat.not_le.2 room))

theorem exec_nandEraseDone_ok (erasing : s.gran.erases.contains (bn, true) = true) :
    exec (.nandEraseDone bn true) s = .next (State.placeProgs (State.setBlk bn
      (blkWord 0 (blkErases (s.blk bn) + 1) 0 0)
      (s.modGran fun g => { g with erases := g.erases.erase (bn, true) }))) := by
  change execNandEraseDone bn true s = _
  unfold execNandEraseDone
  rw [erasing]
  rfl

/-! ### Relocation rounds (R205, R206) -/

/-- `w` is the state in which collection runs on channel `c`. -/
theorem exec_gcRound_low {w : State} (collects : w = s.modGran fun g => { g with gc := g.gc.set c true })
    (ready : s.gran.st = .ready) (chan : c < s.granChans) (idle : (s.gran.emptying.any fun b => b % 16 == c) = false)
    (low : (s.chanFree c).length ≤ s.rf Adr.GRAN_GC_CFG 15 0)
    (least : argmin (fun b => blkValid (w.blk b) * 2 ^ 31 + b) (w.fullBlocks c) = some b) :
    exec (.gcRound c) s = .next ((w.relocBlock b).bump Adr.GRAN_GC_RELOCS 1) := by
  have runs : ¬ (s.gran.st != .ready || decide (s.granChans ≤ c) || s.gran.emptying.any fun b => b % 16 == c)
      = true := by
    simp [ready, idle, chan]
  change execGcRound c s = _
  unfold execGcRound
  simp only [if_neg runs, low, if_true, Bool.not_true, Bool.false_eq_true, if_false, ← collects, least]

theorem exec_wlRelocate_worn (ready : s.gran.st = .ready) (chan : c < s.granChans)
    (least : argmin (fun b => blkErases (s.blk b)) (s.fullBlocks c) = some b)
    (apart : blkErases (s.blk b) + s.rf Adr.GRAN_WL_DELTA 15 0
      < ((s.fullBlocks c).map fun b => blkErases (s.blk b)).foldl max 0) :
    exec (.wlRelocate c) s = .next ((s.relocBlock b).bump Adr.GRAN_WL_RELOCS 1) := by
  have runs : ¬ (s.gran.st != .ready || decide (s.granChans ≤ c)) = true := by
    simp [ready, chan]
  change execWlRelocate c s = _
  unfold execWlRelocate
  simp only [if_neg runs, least, apart, if_true]

/-! ### Journal, checkpoint and walk (R209, R212) -/

/-- The state in which a page of the journal has been programmed. -/
def State.pageProgrammed (s : State) : State :=
  (s.emit (.nandMeta false (s.gran.journal.take 2048))).modGran fun g => { g with
    journal := g.journal.drop 2048, jpages := g.jpages + 1, jtime := s.ns }

theorem exec_journalProgram_full (full : 2048 ≤ s.gran.journal.length) :
    exec .journalProgram s = .next s.pageProgrammed.tierRun := by
  have records : s.gran.journal.isEmpty = false := by
    cases waiting : s.gran.journal with
    | nil => simp [waiting] at full
    | cons x xs => rfl
  have page : State.flushJournal 1 s = s.pageProgrammed := by
    unfold State.flushJournal
    rw [records]
    rfl
  change execJournalProgram s = _
  unfold execJournalProgram
  simp only [records, full, page, decide_true, Bool.true_or, Bool.not_true, Bool.or_self, Bool.false_eq_true, if_false]

theorem exec_checkpointWrite_due (due : s.rf Adr.GRAN_CKPT_INTERVAL 19 0 ≤ s.gran.jpages) (ready : s.gran.st = .ready) :
    exec .checkpointWrite s
      = .next ((s.emit (.nandMeta true s.mapList)).modGran fun g => { g with jpages := 0 }) := by
  refine congrArg Host.Outcome.next (if_neg ?_)
  rintro (early | ⟨notReady, -⟩)
  · omega
  · exact notReady ready

theorem exec_granWalkEnd_sound (ready : s.gran.st = .ready)
    (valid : (s.allBlocks.map fun b => blkValid (s.blk b)).sum = s.rf Adr.GRAN_MAPPED_UNITS 30 0)
    (states : ∀ b ∈ s.allBlocks, blkSt (s.blk b) ≤ 4) : exec .granWalkEnd s = .next s := by
  have all : (s.allBlocks.filter fun b => decide (blkSt (s.blk b) ≤ 4)) = s.allBlocks :=
    List.filter_eq_self.2 fun b mem => decide_eq_true (states b mem)
  change execGranWalkEnd s = _
  unfold execGranWalkEnd
  simp only [ready, valid, all, ne_eq, not_true_eq_false, false_and, if_false]

theorem exec_granWalkEnd_mismatch (ready : s.gran.st = .ready)
    (differ : (s.allBlocks.map fun b => blkValid (s.blk b)).sum ≠ s.rf Adr.GRAN_MAPPED_UNITS 30 0) :
    exec .granWalkEnd s = .next (State.tallyMismatch 0 (s.rf Adr.GRAN_MAPPED_UNITS 30 0)
      (s.allBlocks.map fun b => blkValid (s.blk b)).sum Err.gran_GRAN_TALLY 0 [] (s.setGran .failed)) := by
  change execGranWalkEnd s = _
  unfold execGranWalkEnd
  simp only [ready, differ, ne_eq, not_true_eq_false, not_false_eq_true, false_and, if_false, if_true]

end

/-- Settles O36, one lemma for each transition of Table 8-10, each end of a flash operation, each relocation round,
and for journal, checkpoint and walk. -/
theorem granary : Obligations.Granary := by
  refine ⟨fun s src inv takes off fields regions => ?_, fun s src inv takes failed => ?_,
    fun s src inv takes ready unused empty => ?_,
    fun s src bad spare inv takes off fields regions bytes good => ?_,
    fun s map late blks formatting => exec_granWorkDone_formatting formatting map late blks,
    fun s map late blks restoring => exec_granWorkDone_restoring restoring map late blks,
    fun s pun sec data pm r reading => exec_nandReadDone_clean reading data pm,
    fun s pun sec n data pm r reading hard retries last => ?_,
    fun s pun p programming room => exec_nandProgramDone_ok programming room,
    fun s bn erasing => exec_nandEraseDone_ok erasing,
    fun s c b w collects ready chan idle low least =>
      exec_gcRound_low collects ready chan idle low least,
    fun s c b ready chan least apart => exec_wlRelocate_worn ready chan least apart,
    fun s full => ⟨s.pageProgrammed, exec_journalProgram_full full, rfl, rfl⟩,
    fun s due ready => ⟨_, exec_checkpointWrite_due due ready, rfl, rfl⟩,
    fun s ready valid states => exec_granWalkEnd_sound ready valid states,
    fun s ready differ => exec_granWalkEnd_mismatch ready differ⟩
  · have enabled := granEnable_of_sound off fields regions
    exact ⟨_, (exec_granEnable takes).trans (congrArg Host.Outcome.next enabled), rfl, rf_granEn_written inv.hub 1 0⟩
  · have disabled := granDisable_of_failed failed
    exact ⟨_, (exec_granDisable takes).trans (congrArg Host.Outcome.next disabled), rfl, rf_granEn_written inv.hub 0 0⟩
  · have disabled := granDisable_of_ready ready unused empty
    refine ⟨_, (exec_granDisable takes).trans (congrArg Host.Outcome.next disabled), disarm_gran _, disarm_out _, ?_⟩
    exact (rf_congr (rg_disarm_other _ (by decide) (by decide) (by decide)) 0 0).trans
      (rf_granEn_written (s := s.granClosed) inv.hub 0 0)
  · have formatted := granFormat_of_sound off fields regions bytes good
    refine ⟨_, (exec_granFormat takes).trans (congrArg Host.Outcome.next formatted), rfl, ?_⟩
    exact rg_mappedUnits_formatted inv.hub bad
  · have sent := find_read_eq reading
    refine ⟨s.readAgain r, exec_nandReadDone_retry reading (by omega) retries n data pm, ?_, readAgain_reads s r⟩
    rw [readAgain_out, sent.1, sent.2]

end Sys2Proof.Machine
end

section
/-! PROOFS. What a command of the caravan engine and a caravan packet share (R218, R224, R237). -/

namespace Sys2Proof.Machine
open Sys2Proof

section
variable {s t u : State} {p l : Nat} {k : Packet} {c : Option Nat}

/-! ### The end of a command (R237) -/

theorem carvDone_carv (inv : s.Inv) (d r : Nat) : (s.carvDone d r).carv = s.carv :=
  (State.carvDone_inv (pmk := 16793603) d r s (keeps_refl inv) rfl).frame .carv rfl

theorem carvDone_ctr (inv : s.Inv) (d r : Nat) : (s.carvDone d r).ctr = s.ctr :=
  (State.carvDone_inv (pmk := 16793603) d r s (keeps_refl inv) rfl).frame .ctr rfl

theorem carvStatus_ne_intStatus (d : Nat) : Adr.CARV_CMD_STATUS d ≠ adr .carv d Adr.H_INT_STATUS := by
  simp [adr, pageBase, pageStride]

theorem rf_carvDone (inv : s.Inv) (d r : Nat) : (s.carvDone d r).rf (Adr.CARV_CMD_STATUS d) 3 0 = r % 16 := by
  have set := State.setRf_inv (Adr.CARV_CMD_STATUS d) 3 0 r s (keeps_refl (pmk := 1) inv) rfl
  exact (rf_congr (rg_raiseInt_other set.inv 0 (carvStatus_ne_intStatus d)) 3 0).trans
    (rf_setRf_self inv.hub _ r (by decide) (by decide))

/-- A command that ends with RESULT 0 leaves the engine's and the counters' own state as it was before its end. -/
theorem runs_of_carvDone {i : Instr} {d : Nat} (inv : t.Inv) (done : exec i s = .next (t.carvDone d 0)) :
    Runs i s fun u => u.carv = t.carv ∧ u.ctr = t.ctr ∧ u.rf (Adr.CARV_CMD_STATUS d) 3 0 = 0 :=
  ⟨_, done, carvDone_carv inv d 0, carvDone_ctr inv d 0, rf_carvDone inv d 0⟩

/-! ### Packets received (R218) -/

/-- A well-formed caravan packet counts as an event of its job. -/
def State.carvCounted (k : Packet) (s : State) : State :=
  s.gcount 0x10 1 (legDie (k.cf 265 253)) none none (some (k.cf 221 202))

theorem carvRx_of_good {kind : Nat} (good : carvBad k = false) (kind_eq : k.carvKind = kind)
    (waits : s.takeLocal p k = (c, u)) (act : Nat → State → State) :
    s.carvRx p k kind act = (act (k.cf 265 253) (u.carvCounted k)).freeLocal c := by
  unfold State.carvRx
  simp only [good, kind_eq, waits, ne_eq, not_true_eq_false, Bool.false_eq_true, if_false]
  rfl

theorem carvRx_of_bad (kind : Nat) (bad : carvBad k = true) (waits : s.takeLocal p k = (c, u))
    (act : Nat → State → State) :
    s.carvRx p k kind act = (u.bump (Adr.CARV_PKT_BAD (legDie (k.cf 265 253))) 1).freeLocal c := by
  unfold State.carvRx
  simp only [bad, waits, if_true]

/-! ### Packets of an OPEN leg and its incarnation (R224) -/

theorem ctlRx_of_open (opened : (s.leg l).st = .open_) (inc : k.cf 383 320 = (s.leg l).inc % 2 ^ 64)
    (act : State → State) : s.ctlRx l k act = act s := by
  unfold State.ctlRx
  simp only [opened, inc, ne_eq, not_true_eq_false, if_false]

/-- The state in which a leg has accepted the packet that is next in order. -/
def State.seqAccepted (l : Nat) (s : State) : State :=
  s.setLeg l { s.leg l with
    rxNext := ((s.leg l).rxNext + 1) % 2 ^ 24, unacked := (s.leg l).unacked + 1
    ackAt := if (s.leg l).unacked = 0 then s.ns else (s.leg l).ackAt, nakAt := none }

/-- An acknowledgement goes out when enough are owed. -/
def State.ackOwed (l : Nat) (s : State) : State :=
  if s.rf (Adr.CARV_ACK_CFG (legDie l)) 7 0 ≤ (s.leg l).unacked then s.sendAck l 4 else s

theorem seqRx_of_next (opened : (s.leg l).st = .open_) (inc : k.cf 383 320 = (s.leg l).inc % 2 ^ 64)
    (next : k.cf 319 296 = ((s.ackOf l k).leg l).rxNext) (act : State → State) :
    s.seqRx l k act = (act ((s.ackOf l k).seqAccepted l)).ackOwed l := by
  have held : ¬ ((s.leg l).st = .closed ∨ k.cf 383 320 ≠ (s.leg l).inc % 2 ^ 64) := by
    simp [opened, inc]
  have inOrder : (k.cf 319 296 + 2 ^ 24 - ((s.ackOf l k).leg l).rxNext) % 2 ^ 24 = 0 := by
    rw [next, Nat.add_sub_cancel_left, Nat.mod_self]
  exact (if_neg held).trans ((if_neg (not_not.2 opened)).trans (if_pos inOrder))

end

end Sys2Proof.Machine
end

section
/-! PROOFS. Legs and caravan packets (R218, R224 to R226, Tables 9-5 and 9-10). -/

namespace Sys2Proof.Machine
open Sys2Proof

section
variable {s u g : State} {src : Source} {d l p : Nat} {k : Packet} {c : Option Nat}

/-! ### Commands (Table 9-5) -/

theorem exec_legOpen (takes : s.takes src (Adr.CARV_CMD d) .wo = true) :
    exec (.legOpen src d l) s = .next (s.legOpen d l) :=
  congrArg Host.Outcome.next (guarded_of_takes _ takes)

theorem exec_legClose (takes : s.takes src (Adr.CARV_CMD d) .wo = true) :
    exec (.legClose src d l) s = .next (s.legClose d l) :=
  congrArg Host.Outcome.next (guarded_of_takes _ takes)

theorem legOpen_of_closed (exists_ : l < 8192) (die : legDie l = d) (closed : (s.leg l).st = .closed)
    (entry : legEntryBad (s.entry (legAt l) 16) = false) (agree : s.carvAgree = true)
    (frame : s.lf l 508 508 = 1 → s.legFrame l ≤ s.rf (Adr.CARV_MAX_FRAME d) 13 0) :
    s.legOpen d l = State.carvDone d 0 (State.sendOpen l (s.modLeg l fun x =>
      { x with st := .opening, inc := s.ns, since := s.ns, timeouts := 0 })) := by
  have held : ¬ (8192 ≤ l ∨ legDie l ≠ d) := by omega
  have sound : ¬ (legEntryBad (s.entry (legAt l) 16) || !s.carvAgree
      || (s.lf l 508 508 == 1 && decide (s.rf (Adr.CARV_MAX_FRAME d) 13 0 < s.legFrame l))) = true := by
    simpa [entry, agree] using frame
  exact (if_neg held).trans ((if_neg (not_not.2 closed)).trans (if_neg sound))

theorem legClose_of_open (exists_ : l < 8192) (die : legDie l = d) (opened : (s.leg l).st = .open_) :
    s.legClose d l = State.carvDone d 0 (State.modLeg l (fun x => { x with st := .closed })
      ((s.legCtl l 8 (s.leg l).remote 0).failAll l 4)) := by
  have held : ¬ (8192 ≤ l ∨ legDie l ≠ d) := by omega
  unfold State.legClose
  simp only [if_neg held, opened]

/-! ### Timers (R224, R225) -/

theorem exec_legOpenResend_due (opening : (s.leg l).st = .opening) (due : (s.leg l).since + s.legRto l ≤ s.ns)
    (tries : (s.leg l).timeouts < s.lf l 399 396) :
    exec (.legOpenResend l) s = .next (State.sendOpen l (s.modLeg l fun x =>
      { x with timeouts := x.timeouts + 1, since := s.ns })) := by
  have runs : ¬ ((s.leg l).st ≠ .opening ∨ s.ns < (s.leg l).since + s.legRto l) := by
    simp [opening, due]
  exact congrArg Host.Outcome.next ((if_neg runs).trans (if_neg (Nat.not_lt.2 tries)))

theorem exec_legRto_due (opened : (s.leg l).st = .open_) (outstanding : (s.leg l).ring ≠ [])
    (due : (s.leg l).since + s.legRto l ≤ s.ns) (tries : (s.leg l).timeouts < s.lf l 399 396) :
    exec (.legRto l) s = .next (State.resend l (State.bump (Adr.CARV_TIMEOUTS (legDie l)) 1 (s.modLeg l fun x =>
      { x with timeouts := x.timeouts + 1, since := s.ns }))) := by
  have runs : ¬ ((s.leg l).st ≠ .open_ ∨ (s.leg l).ring.isEmpty ∨ s.ns < (s.leg l).since + s.legRto l) := by
    simp [opened, outstanding, due]
  exact congrArg Host.Outcome.next ((if_neg runs).trans (if_neg (Nat.not_lt.2 tries)))

theorem exec_ackDelayExpire_due (opened : (s.leg l).st = .open_) (owed : (s.leg l).unacked ≠ 0)
    (due : (s.leg l).ackAt + s.rf (Adr.CARV_ACK_CFG (legDie l)) 31 16 ≤ s.ns) :
    exec (.ackDelayExpire l) s = .next (s.sendAck l 4) :=
  congrArg Host.Outcome.next (if_pos ⟨opened, owed, due⟩)

/-! ### OPEN, OPEN_ACK and CLOSE received (Table 9-5) -/

section
variable (good : carvBad k = false) (waits : s.takeLocal p k = (c, u))
include good waits

theorem exec_carvOpenRx_closed (kind : k.carvKind = 6) (found : (u.carvCounted k).openLeg k = some l)
    (closed : ((u.carvCounted k).leg l).st = .closed) :
    exec (.carvOpenRx p k) s = .next (State.freeLocal c (State.legCtl l 7 (k.cf 252 240) 0
      (State.legAdopt l (k.cf 383 320) (k.cf 252 240) (u.carvCounted k)))) := by
  have adopts : State.openRx l k (u.carvCounted k) = State.legCtl l 7 (k.cf 252 240) 0
      (State.legAdopt l (k.cf 383 320) (k.cf 252 240) (u.carvCounted k)) := by
    unfold State.openRx
    simp only [closed]
  refine congrArg Host.Outcome.next ((carvRx_of_good good kind waits _).trans (congrArg (State.freeLocal c) ?_))
  simp only [found, adopts]

theorem exec_carvOpenAckRx_opening (kind : k.carvKind = 7)
    (opening : ((u.carvCounted k).leg (k.cf 265 253)).st = .opening)
    (inc : k.cf 383 320 = ((u.carvCounted k).leg (k.cf 265 253)).inc % 2 ^ 64) :
    exec (.carvOpenAckRx p k) s = .next (State.freeLocal c ((u.carvCounted k).legAdopt (k.cf 265 253)
      ((u.carvCounted k).leg (k.cf 265 253)).inc (k.cf 252 240))) :=
  congrArg Host.Outcome.next ((carvRx_of_good good kind waits _).trans
    (congrArg (State.freeLocal c) (if_pos ⟨opening, inc⟩)))

/-! ### Unsequenced packets of an OPEN leg -/

section
variable (opened : ((u.carvCounted k).leg (k.cf 265 253)).st = .open_)
  (inc : k.cf 383 320 = ((u.carvCounted k).leg (k.cf 265 253)).inc % 2 ^ 64)
include opened inc

theorem carvRx_ctl {kind : Nat} (kind_eq : k.carvKind = kind) (act : Nat → State → State) :
    (s.carvRx p k kind fun l t => t.ctlRx l k (act l))
      = (act (k.cf 265 253) (u.carvCounted k)).freeLocal c :=
  (carvRx_of_good good kind_eq waits _).trans (congrArg (State.freeLocal c) (ctlRx_of_open opened inc _))

theorem exec_carvCloseRx_open (kind : k.carvKind = 8) :
    exec (.carvCloseRx p k) s = .next (State.freeLocal c (State.modLeg (k.cf 265 253)
      (fun x => { x with st := .closed }) ((u.carvCounted k).failAll (k.cf 265 253) 3))) :=
  congrArg Host.Outcome.next (carvRx_ctl good waits opened inc kind _)

theorem exec_carvAckRx_open (kind : k.carvKind = 4) (carries : k.cf 267 267 = 1) :
    exec (.carvAckRx p k) s
      = .next (State.freeLocal c ((u.carvCounted k).carvAckRx (k.cf 265 253) (k.cf 295 272))) :=
  congrArg Host.Outcome.next ((carvRx_ctl good waits opened inc kind _).trans
    (congrArg (State.freeLocal c) (if_pos carries)))

theorem exec_carvNakRx_open (kind : k.carvKind = 5) :
    exec (.carvNakRx p k) s = .next (State.freeLocal c
      (((u.carvCounted k).ackOf (k.cf 265 253) k).resend (k.cf 265 253))) :=
  congrArg Host.Outcome.next (carvRx_ctl good waits opened inc kind _)

/-! ### Sequenced packets of an OPEN leg (R224) -/

theorem carvRx_seq {kind : Nat} (kind_eq : k.carvKind = kind)
    (next : k.cf 319 296 = (((u.carvCounted k).ackOf (k.cf 265 253) k).leg (k.cf 265 253)).rxNext)
    (act : Nat → State → State) :
    (s.carvRx p k kind fun l t => t.seqRx l k (act l))
      = ((act (k.cf 265 253) (((u.carvCounted k).ackOf (k.cf 265 253) k).seqAccepted (k.cf 265 253))).ackOwed
          (k.cf 265 253)).freeLocal c :=
  (carvRx_of_good good kind_eq waits _).trans (congrArg (State.freeLocal c) (seqRx_of_next opened inc next _))

end

end

/-- The packets that come under a sequence, their kinds and what an accepted one does on leg `l` (Table 9-10). -/
def sequencedRx (p : Nat) (k : Packet) (l : Nat) : List (Instr × Nat × (State → State)) :=
  [(.carvDataRx p k, 0, State.carvDataRx l k), (.carvReadReqRx p k, 1, State.readReqRx l k),
    (.carvReadDataRx p k, 2, State.readDataRx l k), (.carvResultRx p k, 3, State.resultRx l k)]

theorem exec_sequencedRx_next (good : carvBad k = false) (waits : s.takeLocal p k = (c, u))
    (opened : ((u.carvCounted k).leg (k.cf 265 253)).st = .open_)
    (inc : k.cf 383 320 = ((u.carvCounted k).leg (k.cf 265 253)).inc % 2 ^ 64)
    (next : k.cf 319 296 = (((u.carvCounted k).ackOf (k.cf 265 253) k).leg (k.cf 265 253)).rxNext) :
    ∀ r ∈ sequencedRx p k (k.cf 265 253), k.carvKind = r.2.1 →
      exec r.1 s = .next (State.freeLocal c (State.ackOwed (k.cf 265 253)
        (r.2.2 (((u.carvCounted k).ackOf (k.cf 265 253) k).seqAccepted (k.cf 265 253))))) := by
  have acts {kind : Nat} (kind_eq : k.carvKind = kind) (act : Nat → State → State) :=
    congrArg (Host.Outcome.next (φ := Fault) (ρ := Refusal)) (carvRx_seq good waits opened inc kind_eq next act)
  simpa only [sequencedRx, List.forall_mem_cons, List.not_mem_nil, false_implies, implies_true, and_true] using
    ⟨fun kind => acts kind fun l => State.carvDataRx l k, fun kind => acts kind fun l => State.readReqRx l k,
      fun kind => acts kind fun l => State.readDataRx l k, fun kind => acts kind fun l => State.resultRx l k⟩

/-! ### Malformed packets (R218), and answers of the memory (R229) -/

/-- The caravan packets that the engine receives. -/
def caravanRx (p : Nat) (k : Packet) : List Instr :=
  [.carvDataRx p k, .carvReadReqRx p k, .carvReadDataRx p k, .carvResultRx p k, .carvAckRx p k, .carvNakRx p k,
    .carvOpenRx p k, .carvOpenAckRx p k, .carvCloseRx p k, .postWqeRx p k, .postSoRx p k]

theorem exec_caravanRx (s : State) : ∀ r ∈ caravanRx p k, ∃ kind act, exec r s = .next (s.carvRx p k kind act) := by
  simp only [caravanRx, List.forall_mem_cons, List.not_mem_nil, false_implies, implies_true, and_true]
  exact ⟨⟨_, _, rfl⟩, ⟨_, _, rfl⟩, ⟨_, _, rfl⟩, ⟨_, _, rfl⟩, ⟨_, _, rfl⟩, ⟨_, _, rfl⟩, ⟨_, _, rfl⟩, ⟨_, _, rfl⟩,
    ⟨_, _, rfl⟩, ⟨_, _, rfl⟩, ⟨_, _, rfl⟩⟩

theorem exec_caravanRx_bad (bad : carvBad k = true) (waits : s.takeLocal p k = (c, u)) :
    ∀ r ∈ caravanRx p k,
      exec r s = .next ((u.bump (Adr.CARV_PKT_BAD (legDie (k.cf 265 253))) 1).freeLocal c) := by
  intro r mem
  obtain ⟨kind, act, runs⟩ := exec_caravanRx s r mem
  exact runs.trans (congrArg Host.Outcome.next (carvRx_of_bad kind bad waits act))

theorem exec_carvMemRsp_held {o : Owner} (held : s.unitTag k = some o) (mine : o.isCarv = true)
    (waits : s.takeLocal p k = (c, u)) :
    exec (.carvMemRsp p k) s = .next (State.freeLocal c (State.carvRsp o k.rspStatus (k.bytes 32 k.rspSize)
      (k.poisonMap != 0) (u.setTag k.reqTag none))) := by
  refine congrArg Host.Outcome.next ?_
  unfold State.unitRsp
  simp only [held, mine, waits, if_true]

end

/-- Settles O37, one lemma for each command, each timer and each kind of packet received. -/
theorem caravans : Obligations.Caravans := by
  refine ⟨fun s src d l takes exists_ die closed entry agree frame => ?_, fun s src d l takes exists_ die opened => ?_,
    fun s l opening due tries => exec_legOpenResend_due opening due tries,
    fun s l opened outstanding due tries => exec_legRto_due opened outstanding due tries,
    fun s l opened owed due => exec_ackDelayExpire_due opened owed due,
    fun s p k c u l good kind waits found closed => exec_carvOpenRx_closed good waits kind found closed,
    ?_, ?_, ?_, ?_, ?_,
    fun s p k c u bad waits r mem => exec_caravanRx_bad bad waits r mem,
    fun s p k c u o held mine waits => exec_carvMemRsp_held held mine waits⟩
  · exact (exec_legOpen takes).trans
      (congrArg Host.Outcome.next (legOpen_of_closed exists_ die closed entry agree frame))
  · exact (exec_legClose takes).trans (congrArg Host.Outcome.next (legClose_of_open exists_ die opened))
  · rintro s p k c u g good kind waits rfl opening inc
    exact exec_carvOpenAckRx_opening good waits kind opening inc
  · rintro s p k c u g good kind waits rfl opened inc
    exact exec_carvCloseRx_open good waits opened inc kind
  · rintro s p k c u l v g x rfl good waits rfl opened inc rfl rfl next r mem kind
    exact ⟨_, rfl, exec_sequencedRx_next good waits opened inc next r mem kind⟩
  · rintro s p k c u l g rfl good waits kind rfl opened inc carries
    exact exec_carvAckRx_open good waits opened inc kind carries
  · rintro s p k c u l g rfl good waits kind rfl opened inc
    exact exec_carvNakRx_open good waits opened inc kind

end Sys2Proof.Machine
end

section
/-! PROOFS. Work queues (R226 to R228). -/

namespace Sys2Proof.Machine
open Sys2Proof

section
variable {s u w : State} {src : Source} {d q p : Nat} {k : Packet} {c : Option Nat}

/-! ### What a queue reads after a change -/

theorem wq_congr {t : State} (carv : t.carv = s.carv) (q : Nat) : t.wq q = s.wq q :=
  congrArg (fun x : CarvUnit => x.wqs.get q) carv

/-- A queue that is not DISABLED is not at reset. -/
theorem wq_setWq_self (s : State) (q : Nat) {x : Wq} (on : x.st ≠ .disabled) : (s.setWq q x).wq q = x :=
  get_set_ne _ _ _ fun reset => on (congrArg Wq.st reset)

theorem wq_setWq_other (s : State) {q r : Nat} (x : Wq) (other : r ≠ q) : (s.setWq q x).wq r = s.wq r :=
  get_set_other _ _ _ _ other

theorem setWq_inv_of_inv (inv : s.Inv) (q : Nat) (x : Wq) : (s.setWq q x).Inv :=
  (State.setWq_inv (pmk := 524288) q x s (keeps_refl inv) rfl).inv

/-! ### Commands (R227) -/

theorem exec_wqEnable (takes : s.takes src (Adr.CARV_CMD d) .wo = true) :
    exec (.wqEnable src d q) s = .next (s.wqEnable d q) :=
  congrArg Host.Outcome.next (guarded_of_takes _ takes)

theorem exec_wqDisable (takes : s.takes src (Adr.CARV_CMD d) .wo = true) :
    exec (.wqDisable src d q) s = .next (s.wqDisable d q) :=
  congrArg Host.Outcome.next (guarded_of_takes _ takes)

theorem exec_wqPost (takes : s.takes src (Adr.CARV_CMD d) .wo = true) :
    exec (.wqPost src d q) s = .next (s.wqPostCmd d q) :=
  congrArg Host.Outcome.next (guarded_of_takes _ takes)

theorem wqEnable_of_sound (exists_ : q < 4096) (die : wqDie q = d) (off : (s.wq q).st = .disabled)
    (depthMin : 4 ≤ s.wqDepth q) (depthMax : s.wqDepth q ≤ 16) (records : s.qf q 189 133 % 4096 = 0)
    (ring : s.qf q 127 64 % 4096 = 0) (inside : s.qf q 127 64 + 32 * 2 ^ s.wqDepth q ≤ barnSize)
    (rsvd : s.qf q 132 128 = 0) (rsvdLow : s.qf q 31 0 = 0) :
    s.wqEnable d q = (s.setWq q { ({} : Wq) with st := .active }).carvDone d 0 := by
  have held : ¬ (4096 ≤ q ∨ wqDie q ≠ d) := by omega
  have sound : ¬ (s.wqDepth q < 4 ∨ 16 < s.wqDepth q ∨ s.qf q 189 133 % 4096 ≠ 0 ∨ s.qf q 127 64 % 4096 ≠ 0
      ∨ barnSize < s.qf q 127 64 + 32 * 2 ^ s.wqDepth q ∨ s.qf q 132 128 ≠ 0 ∨ s.qf q 31 0 ≠ 0) := by
    simp [records, ring, rsvd, rsvdLow, depthMin, depthMax, inside]
  exact (if_neg held).trans ((if_neg (not_not.2 off)).trans (if_neg sound))

theorem wqDisable_of_idle (exists_ : q < 4096) (die : wqDie q = d) (active : (s.wq q).st = .active)
    (idle : (s.wq q).issued = 0) : s.wqDisable d q = (s.setWq q {}).carvDone d 0 := by
  have held : ¬ (4096 ≤ q ∨ wqDie q ≠ d) := by omega
  unfold State.wqDisable
  simp only [if_neg held, active, idle, ne_eq, not_true_eq_false, if_false]

theorem wqPostCmd_of_room {n : Nat} (exists_ : q < 4096) (die : wqDie q = d) (active : (s.wq q).st = .active)
    (new : n = (s.rf (Adr.CARV_CMD_ARG d) 15 0 + 65536 - (s.wq q).prod) % 65536)
    (room : (s.wq q).posted + n ≤ 2 ^ s.wqDepth q) :
    s.wqPostCmd d q = (s.setWq q { s.wq q with
      prod := ((s.wq q).prod + n) % 65536, posted := (s.wq q).posted + n }).carvDone d 0 := by
  subst new
  have held : ¬ (4096 ≤ q ∨ wqDie q ≠ d) := by omega
  exact (if_neg held).trans ((if_neg (not_not.2 active)).trans (if_neg (Nat.not_lt.2 room)))

/-! ### The next request (R228) -/

theorem exec_wqeIssue_open {e m : Nat} (exists_ : q < 4096) (runs : s.stopped 7 (q / 2048) = false)
    (active : (s.wq q).st = .active) (waits : (s.wq q).issued < (s.wq q).posted)
    (request : e = s.barnNum (s.qf q 127 64 + 32 * ((s.wq q).cons % 2 ^ s.wqDepth q)) 32) (good : wqeBad q e = false)
    (unfenced : nbits e 248 248 = 0) (opened : (s.leg (wLeg e)).st = .open_)
    (picked : s.pickInit (wLeg e) = some m) :
    exec (.wqeIssue q) s = .next (s.wqSend q m e) := by
  have next : ¬ ((s.wq q).st = .disabled ∨ (s.wq q).posted ≤ (s.wq q).issued) := by
    simp [active, waits]
  have sends : s.wqIssue q = s.wqSend q m e := by
    unfold State.wqIssue
    simp only [if_neg next, ← request, good, unfenced, opened, picked]
    simp [active]
  exact congrArg Host.Outcome.next ((if_pos ⟨exists_, runs⟩).trans sends)

/-! ### A post from an endpoint (R227) -/

theorem postWqe_of_member (way : s.postWay p k = true) (job : s.job (s.wqSlot (k.num 64 4)) = .active)
    (member : s.member (s.wqSlot (k.num 64 4)) k.src = (true, w)) (active : (w.wq (k.num 64 4)).st = .active)
    (fjid : k.cf 221 202 = w.wqFjid (k.num 64 4)) :
    s.postWqe p k = (w.wqPost (k.num 64 4) (k.num 80 32)).2 := by
  unfold State.postWqe
  simp [way, job, member, active, fjid]

theorem exec_postWqeRx_member (good : carvBad k = false) (kind : k.carvKind = 9) (waits : s.takeLocal p k = (c, u))
    (way : (u.carvCounted k).postWay p k = true)
    (job : (u.carvCounted k).job ((u.carvCounted k).wqSlot (k.num 64 4)) = .active)
    (member : (u.carvCounted k).member ((u.carvCounted k).wqSlot (k.num 64 4)) k.src = (true, w))
    (active : (w.wq (k.num 64 4)).st = .active) (fjid : k.cf 221 202 = w.wqFjid (k.num 64 4)) :
    exec (.postWqeRx p k) s = .next ((w.wqPost (k.num 64 4) (k.num 80 32)).2.freeLocal c) :=
  congrArg Host.Outcome.next ((carvRx_of_good good kind waits _).trans
    (congrArg (State.freeLocal c) (postWqe_of_member way job member active fjid)))

end

/-- Settles O38, one lemma for each command, for the next request and for a post. -/
theorem workQueues : Obligations.WorkQueues := by
  refine ⟨fun s src d q inv takes exists_ die off depthMin depthMax records ring inside rsvd rsvdLow => ?_,
    fun s src d q inv takes exists_ die active idle => ?_,
    fun s src d q n inv takes exists_ die active new room => ?_,
    fun s q e m exists_ runs active waits request good unfenced opened picked =>
      exec_wqeIssue_open exists_ runs active waits request good unfenced opened picked, ?_⟩
  · have enabled := wqEnable_of_sound exists_ die off depthMin depthMax records ring inside rsvd rsvdLow
    obtain ⟨t, ran, carv, -, status⟩ := runs_of_carvDone (setWq_inv_of_inv inv q _)
      ((exec_wqEnable takes).trans (congrArg Host.Outcome.next enabled))
    exact ⟨t, ran, (wq_congr carv q).trans (wq_setWq_self s q (by decide)),
      fun r other => (wq_congr carv r).trans (wq_setWq_other s _ other), status⟩
  · have disabled := wqDisable_of_idle exists_ die active idle
    obtain ⟨t, ran, carv, -, status⟩ := runs_of_carvDone (setWq_inv_of_inv inv q _)
      ((exec_wqDisable takes).trans (congrArg Host.Outcome.next disabled))
    exact ⟨t, ran, carv, status⟩
  · have posted := wqPostCmd_of_room exists_ die active new room
    obtain ⟨t, ran, carv, -, status⟩ := runs_of_carvDone (setWq_inv_of_inv inv q _)
      ((exec_wqPost takes).trans (congrArg Host.Outcome.next posted))
    exact ⟨t, ran, (wq_congr carv q).trans (wq_setWq_self s q (by simp [active])),
      fun r other => (wq_congr carv r).trans (wq_setWq_other s _ other), status⟩
  · rintro s p k c u q g w good kind waits rfl way rfl job member active fjid
    exact exec_postWqeRx_member good kind waits way job member active fjid

end Sys2Proof.Machine
end

section
/-! PROOFS. Standing orders (R232, R233). -/

namespace Sys2Proof.Machine
open Sys2Proof

section
variable {s u w : State} {src : Source} {d k p : Nat} {o : Order} {c : Option Nat}

/-! ### What a slot reads after a change -/

theorem order_congr {t : State} (ctr : t.ctr = s.ctr) (k : Nat) : t.order k = s.order k :=
  congrArg (fun x : CtrUnit => x.orders.get k) ctr

theorem setOrder_ctr (s : State) (k : Nat) (o : Option Order) :
    (s.setOrder k o).ctr = { s.ctr with orders := s.ctr.orders.set k o } := by
  unfold State.setOrder State.setBarnNum
  exact State.setBarn_ctr _ _ _

theorem order_setOrder_self (s : State) (k : Nat) (o : Order) : (s.setOrder k (some o)).order k = some o := by
  rw [State.order, setOrder_ctr]
  exact get_set_some _ _ _

theorem order_setOrder_other (s : State) {i k : Nat} (o : Option Order) (other : i ≠ k) :
    (s.setOrder k o).order i = s.order i := by
  rw [State.order, setOrder_ctr]
  exact get_set_other _ _ _ _ other

theorem soTrigger_ctr (s : State) (k : Nat) (o : Order) : (s.soTrigger k o).ctr =
    { (s.setOrder k (some { o with triggered := true, firedAt := s.ns })).ctr with trig := s.ctr.trig ++ [k] } := by
  unfold State.soTrigger
  rw [State.modCtr_ctr, setOrder_ctr]

theorem order_soTrigger_self (s : State) (k : Nat) (o : Order) :
    (s.soTrigger k o).order k = some { o with triggered := true, firedAt := s.ns } := by
  rw [State.order, soTrigger_ctr]
  exact order_setOrder_self s k _

/-! ### Commands (R233) -/

theorem exec_soArm (takes : s.takes src (Adr.CARV_CMD d) .wo = true) :
    exec (.soArm src d k) s = .next (s.soArmCmd d k) :=
  congrArg Host.Outcome.next (guarded_of_takes _ takes)

theorem exec_soCancel (takes : s.takes src (Adr.CARV_CMD d) .wo = true) :
    exec (.soCancel src d k) s = .next (s.soCancelCmd d k) :=
  congrArg Host.Outcome.next (guarded_of_takes _ takes)

theorem soArmCmd_of_sound (exists_ : k < 32768) (die : soDie k = d) (empty : s.order k = none)
    (header : orderOf (s.barnNum (s.soAt k) 32) (s.barnNum (s.soAt k + 32) 96 == 0) = some o)
    (allowed : s.soOk k o = true) : s.soArmCmd d k = (s.soArm k o).carvDone d 0 := by
  have held : ¬ (32768 ≤ k ∨ soDie k ≠ d) := by omega
  unfold State.soArmCmd
  simp only [if_neg held, empty, header, allowed, Option.isSome_none, Bool.false_eq_true, if_false, if_true]

theorem soArm_of_unmet (unmet : meets (s.ctrOf o.ctr).value o.thresh = false) :
    s.soArm k o = s.setOrder k (some o) :=
  if_neg (Bool.not_eq_true _ ▸ unmet)

theorem soArm_of_met (met : meets (s.ctrOf o.ctr).value o.thresh = true) : s.soArm k o = s.soTrigger k o :=
  if_pos met

theorem soCancelCmd_of_armed (exists_ : k < 32768) (die : soDie k = d) (armed : s.order k = some o)
    (waits : o.triggered = false) : s.soCancelCmd d k = (s.setOrder k none).carvDone d 0 := by
  have held : ¬ (32768 ≤ k ∨ soDie k ≠ d) := by omega
  unfold State.soCancelCmd
  simp only [if_neg held, armed, waits, Bool.false_eq_true, if_false]

theorem setOrder_inv_of_inv (inv : s.Inv) (k : Nat) (o : Option Order) : (s.setOrder k o).Inv :=
  (State.setOrder_inv (pmk := 262272) k o s (keeps_refl inv) rfl).inv

/-- SO_ARM of a sound and allowed order arms it, and ends with RESULT 0. -/
theorem runs_soArm (inv : s.Inv) (takes : s.takes src (Adr.CARV_CMD d) .wo = true) (exists_ : k < 32768)
    (die : soDie k = d) (empty : s.order k = none)
    (header : orderOf (s.barnNum (s.soAt k) 32) (s.barnNum (s.soAt k + 32) 96 == 0) = some o)
    (allowed : s.soOk k o = true) :
    Runs (.soArm src d k) s fun t => t.ctr = (s.soArm k o).ctr ∧ t.rf (Adr.CARV_CMD_STATUS d) 3 0 = 0 := by
  have kept := State.soArm_inv (pmk := 262272) k o s (keeps_refl inv) rfl
  obtain ⟨t, ran, -, ctr, status⟩ := runs_of_carvDone kept.inv ((exec_soArm takes).trans
    (congrArg Host.Outcome.next (soArmCmd_of_sound exists_ die empty header allowed)))
  exact ⟨t, ran, ctr, status⟩

/-! ### A post from an endpoint (R233) -/

section
variable {x : Packet} {j : Nat}

theorem postSo_of_member (way : s.postWay p x = true)
    (header : orderOf (x.num 80 32) (x.num 112 96 == 0) = some o) (slot : s.activeSlot o.fjid = some j)
    (member : s.member j x.src = (true, w)) (allowed : w.soOk (x.num 64 4) o = true)
    (empty : w.order (x.num 64 4) = none) :
    s.postSo p x = State.soArm (x.num 64 4) o (w.setBarn (w.soAt (x.num 64 4)) (x.bytes 80 256)) := by
  unfold State.postSo
  simp only [way, header, slot, member, allowed, empty, Option.isSome_none, Bool.not_true, Bool.or_self,
    Bool.false_eq_true, if_false]

theorem exec_postSoRx_member (good : carvBad x = false) (kind : x.carvKind = 10) (waits : s.takeLocal p x = (c, u))
    (way : (u.carvCounted x).postWay p x = true)
    (header : orderOf (x.num 80 32) (x.num 112 96 == 0) = some o)
    (slot : (u.carvCounted x).activeSlot o.fjid = some j)
    (member : (u.carvCounted x).member j x.src = (true, w)) (allowed : w.soOk (x.num 64 4) o = true)
    (empty : w.order (x.num 64 4) = none) :
    exec (.postSoRx p x) s = .next (State.freeLocal c
      (State.soArm (x.num 64 4) o (w.setBarn (w.soAt (x.num 64 4)) (x.bytes 80 256)))) :=
  congrArg Host.Outcome.next ((carvRx_of_good good kind waits _).trans
    (congrArg (State.freeLocal c) (postSo_of_member way header slot member allowed empty)))

end

/-! ### The action of the oldest triggered order (R233) -/

/-- The state in which the waiting action of order `k` is taken up. -/
def State.soTaken (k : Nat) (s : State) : State := s.modCtr fun x => { x with trig := x.trig.erase k }

section
variable (runs : s.stopped 7 d = false) (oldest : (s.ctr.trig.find? fun k => soDie k == d) = some k)
  (held : s.order k = some o)
include runs oldest held

theorem exec_soAction_taken (taken : (s.soTaken k).soAct k o = (true, w)) :
    exec (.soAction d) s = .next (if o.rearm
      then (w.bump (Adr.CARV_SO_FIRED d) 1).soArm k { o with triggered := false, thresh := o.thresh + o.step }
      else (w.bump (Adr.CARV_SO_FIRED d) 1).setOrder k none) := by
  have waiting : (s.soTaken k).order k = some o := held
  unfold State.soTaken at waiting taken
  change execSoAction d s = _
  unfold execSoAction State.soAction
  simp only [runs, oldest, waiting, taken, Bool.false_eq_true, if_false]

theorem exec_soAction_failed (failed : (s.soTaken k).soAct k o = (false, w)) :
    exec (.soAction d) s = .next (((w.setOrder k none).bump (Adr.CARV_SO_FAILED d) 1).raise Err.carv_SO_FAILED d [k]
      (some o.fjid)) := by
  have waiting : (s.soTaken k).order k = some o := held
  unfold State.soTaken at waiting failed
  change execSoAction d s = _
  unfold execSoAction State.soAction
  simp only [runs, oldest, waiting, failed, Bool.false_eq_true, if_false]

end

end

/-- Settles O39, one lemma for arming, for SO_CANCEL, for a post and for each end of an action. -/
theorem standingOrderTable : Obligations.StandingOrderTable := by
  refine ⟨fun s src d k o inv takes exists_ die empty header allowed unmet => ?_,
    fun s src d k o inv takes exists_ die empty header allowed met => ?_,
    fun s src d k o inv takes exists_ die armed waits => ?_, ?_, ?_, ?_⟩
  · obtain ⟨t, ran, ctr, status⟩ := runs_soArm inv takes exists_ die empty header allowed
    rw [soArm_of_unmet unmet] at ctr
    exact ⟨t, ran, (order_congr ctr k).trans (order_setOrder_self s k o),
      fun i other => (order_congr ctr i).trans (order_setOrder_other s _ other), status⟩
  · obtain ⟨t, ran, ctr, status⟩ := runs_soArm inv takes exists_ die empty header allowed
    rw [soArm_of_met met] at ctr
    exact ⟨t, ran, (order_congr ctr k).trans (order_soTrigger_self s k o),
      congrArg CtrUnit.trig (ctr.trans (soTrigger_ctr s k o)), status⟩
  · have cancelled := soCancelCmd_of_armed exists_ die armed waits
    obtain ⟨t, ran, -, ctr, status⟩ := runs_of_carvDone (setOrder_inv_of_inv inv k none)
      ((exec_soCancel takes).trans (congrArg Host.Outcome.next cancelled))
    exact ⟨t, ran, ctr, status⟩
  · rintro s p x c u g j w i o good kind waits rfl way rfl header slot member allowed empty
    exact exec_postSoRx_member good kind waits way header slot member allowed empty
  · rintro s d k o u w runs oldest rfl held taken
    exact exec_soAction_taken runs oldest held taken
  · rintro s d k o u w runs oldest rfl held failed
    exact exec_soAction_failed runs oldest held failed

end Sys2Proof.Machine
end

section
/-! PROOFS. Windows of a hayloft, and EN of a tile and submissions by the host (R242, R243, R267). -/

namespace Sys2Proof.Machine
open Sys2Proof

section
variable {s u w : State} {src : Source} {t j base size d : Nat} {v : Word} {x : Nat × Nat}

/-! ### An interrupt leaves the tiles as they are (R416) -/

theorem msix_tile (s : State) (f n : Nat) : (s.msix f n).tile = s.tile := by
  unfold State.msix
  dsimp only
  split <;> rfl

theorem pfVector_tile (s : State) (n : Nat) : (s.pfVector n).tile = s.tile := by
  unfold State.pfVector
  split
  · rfl
  · exact msix_tile s 0 n

theorem intMessage_tile (s : State) (k : PageKind) (i : Nat) : (s.intMessage k i).tile = s.tile := by
  unfold State.intMessage
  dsimp only
  split
  · exact (foldl_reads State.tile (fun t f => msix_tile t f 0) _ _).trans (pfVector_tile s _)
  · exact pfVector_tile s _

theorem raiseInt_tile (s : State) (k : PageKind) (i b : Nat) : (s.raiseInt k i b).tile = s.tile := by
  unfold State.raiseInt
  dsimp only
  split
  · rfl
  split
  · exact intMessage_tile _ k i
  · rfl

/-- The end of a command of a hayloft shows its RESULT and interrupts. -/
theorem hlDone_tile (s : State) (t r : Nat) : (s.hlDone t r).tile = s.tile :=
  raiseInt_tile _ .tile t 0

/-! ### Commands of a hayloft (R242) -/

theorem exec_hlAssign (takes : s.takes src (Adr.TILE_HL_CMD t) .wo = true) :
    exec (.hlAssign src t) s = .next (s.hlAssign t) :=
  congrArg Host.Outcome.next (guarded_of_takes _ takes)

theorem exec_hlRelease (takes : s.takes src (Adr.TILE_HL_CMD t) .wo = true) :
    exec (.hlRelease src t) s = .next (s.hlRelease t) :=
  congrArg Host.Outcome.next (guarded_of_takes _ takes)

theorem hlWins_any_slot_eq_false (new : ∀ w ∈ s.hlWins t, w.1 ≠ j) : ((s.hlWins t).any fun w => w.1 == j) = false :=
  List.any_eq_false.2 fun w mem same => new w mem (beq_iff_eq.1 same)

theorem hlWins_any_meets_eq_false (apart : ∀ w ∈ s.hlWins t, base + size ≤ w.2.1 ∨ w.2.1 + w.2.2 ≤ base) :
    ((s.hlWins t).any fun w => decide (w.2.1 < base + size) && decide (base < w.2.1 + w.2.2)) = false := by
  refine List.any_eq_false.2 fun w mem meets => ?_
  have away := apart w mem
  rw [Bool.and_eq_true, decide_eq_true_eq, decide_eq_true_eq] at meets
  omega

theorem hlWins_any_meets_eq_true (meets : ∃ w ∈ s.hlWins t, w.2.1 < base + size ∧ base < w.2.1 + w.2.2) :
    ((s.hlWins t).any fun w => decide (w.2.1 < base + size) && decide (base < w.2.1 + w.2.2)) = true := by
  obtain ⟨w, mem, below, above⟩ := meets
  exact List.any_eq_true.2 ⟨w, mem, by simp [below, above]⟩

section
variable (slot : j = s.rf (Adr.TILE_HL_ARG t) 29 20) (idle : s.tile.hlCmd.get t = none)
include slot idle

section
variable (first : base = s.rf (Adr.TILE_HL_ARG t) 19 10) (units : size = s.rf (Adr.TILE_HL_ARG t) 9 0)
include first units

theorem hlAssign_of_unused (new : ∀ w ∈ s.hlWins t, w.1 ≠ j)
    (apart : ∀ w ∈ s.hlWins t, base + size ≤ w.2.1 ∨ w.2.1 + w.2.2 ≤ base) (nonempty : size ≠ 0)
    (inside : base + size ≤ 768) (job : s.job j ≠ .free) :
    s.hlAssign t = State.setRf (Adr.TILE_HL_STATUS t) 31 31 1 (State.modTile (fun u =>
      { u with hlCmd := u.hlCmd.set t (some (j, base, size)) }) (s.hlZero t base size)) := by
  have sound : ¬ (size = 0 ∨ 768 < base + size) := by omega
  unfold State.hlAssign
  simp only [idle, ← slot, ← first, ← units, hlWins_any_slot_eq_false new, hlWins_any_meets_eq_false apart, sound, job,
    Option.isSome_none, Bool.false_eq_true, if_false]

theorem hlAssign_of_overlap (new : ∀ w ∈ s.hlWins t, w.1 ≠ j)
    (meets : ∃ w ∈ s.hlWins t, w.2.1 < base + size ∧ base < w.2.1 + w.2.2) : s.hlAssign t = s.hlDone t 3 := by
  unfold State.hlAssign
  simp only [idle, ← slot, ← first, ← units, hlWins_any_slot_eq_false new, hlWins_any_meets_eq_true meets,
    Option.isSome_none, Bool.false_eq_true, if_false, if_true]

end

theorem hlRelease_of_unheld (window : s.tile.wins.get (1024 * t + j) = some x) (unheld : s.slotHolds t j = false) :
    s.hlRelease t = State.hlDone t 0 (s.modTile fun u =>
      { u with wins := u.wins.set (1024 * t + j) none }) := by
  unfold State.hlRelease
  simp only [idle, ← slot, window, unheld, Option.isSome_none, Option.isNone_some, Bool.false_eq_true, if_false]

theorem hlRelease_of_absent (absent : s.tile.wins.get (1024 * t + j) = none) : s.hlRelease t = s.hlDone t 2 := by
  unfold State.hlRelease
  simp only [idle, ← slot, absent, Option.isSome_none, Option.isNone_none, Bool.false_eq_true, if_false, if_true]

end

theorem exec_hlAssignDone_pending (pending : s.tile.hlCmd.get t = some (j, base, size)) :
    exec (.hlAssignDone t) s = .next (State.hlDone t 0 (s.modTile fun u => { u with
      hlCmd := u.hlCmd.set t none, wins := u.wins.set (1024 * t + j) (some (base, size)) })) := by
  change execHlAssignDone t s = _
  unfold execHlAssignDone
  rw [pending]

/-! ### EN of a tile (R267) -/

theorem exec_tileEnable (takes : s.takes src (Adr.TILE_CTRL t) .rw = true) :
    exec (.tileEnable src t) s = .next (s.writeTileCtrl t true) :=
  congrArg Host.Outcome.next (guarded_of_takes _ takes)

theorem exec_tileDisable (takes : s.takes src (Adr.TILE_CTRL t) .rw = true) :
    exec (.tileDisable src t) s = .next (s.writeTileCtrl t false) :=
  congrArg Host.Outcome.next (guarded_of_takes _ takes)

theorem writeTileCtrl_true_of_off (off : bit (s.rg (Adr.TILE_CTRL t)) 0 = false) :
    s.writeTileCtrl t true = State.setRf (Adr.TILE_STATUS t) 3 0 0 (State.setRf (Adr.TILE_CTRL t) 0 0 1
      ((s.hlWins t).foldl (fun u w => u.hlZero t w.2.1 w.2.2) s)) := by
  unfold State.writeTileCtrl
  simp only [off, Bool.false_eq_true, if_false, if_true]

theorem writeTileCtrl_false_of_holds (on : bit (s.rg (Adr.TILE_CTRL t)) 0 = true) (holds : s.tileHolds t = true) :
    s.writeTileCtrl t false = s.setRf (Adr.TILE_STATUS t) 3 0 4 := by
  unfold State.writeTileCtrl
  simp only [on, holds, Bool.and_self, Bool.false_eq_true, if_false, if_true]

theorem writeTileCtrl_false_of_idle (idle : s.tileHolds t = false) :
    s.writeTileCtrl t false = State.setRf (Adr.TILE_STATUS t) 3 0 0 (s.setRf (Adr.TILE_CTRL t) 0 0 0) := by
  unfold State.writeTileCtrl
  simp only [idle, Bool.and_false, Bool.false_eq_true, if_false]

/-! ### Submission by the host (R243) -/

/-- A submission by the host ends: HOST_SUBMIT_STATUS gets the RESULT, and its interrupt is raised. -/
def State.hostSubmitted (t r : Nat) (s : State) : State :=
  (s.setRg (Adr.TILE_HOST_SUBMIT_STATUS t) (w32 r)).raiseInt .tile t 1

theorem exec_hostSubmit (takes : s.takes src (Adr.TILE_HOST_SUBMIT_HI t) .rw = true) :
    exec (.hostSubmit src t v) s = .next (s.hostSubmit src t v) :=
  congrArg Host.Outcome.next (guarded_of_takes _ takes)

section
variable (pair : u = s.commitPair src (Adr.TILE_HOST_SUBMIT_LO t) v)
  (desc : d = u.descAt (u.rg64 (Adr.TILE_HOST_SUBMIT_LO t)))
include pair desc

theorem hostSubmit_of_inactive (inactive : u.activeSlot (dFjid d) = none) :
    s.hostSubmit src t v = u.hostSubmitted t 1 := by
  unfold State.hostSubmit
  simp only [← pair, ← desc, inactive]
  rfl

theorem hostSubmit_of_other_tile (active : u.activeSlot (dFjid d) = some j) (other : dTile d ≠ t)
    (named : dTile d ≠ 15) : s.hostSubmit src t v = u.hostSubmitted t 2 := by
  unfold State.hostSubmit
  simp only [← pair, ← desc, active, if_pos (And.intro other named)]
  rfl

variable (active : u.activeSlot (dFjid d) = some j) (here : dTile d = t ∨ dTile d = 15)
include active here

theorem hostSubmit_of_queued (queued : u.submit j d = (.queued, w)) : s.hostSubmit src t v = w.hostSubmitted t 0 := by
  have taken : ¬ (dTile d ≠ t ∧ dTile d ≠ 15) := by omega
  unfold State.hostSubmit
  simp only [← pair, ← desc, active, if_neg taken, queued]
  rfl

theorem hostSubmit_of_busy (busy : u.submit j d = (.busy, w)) : s.hostSubmit src t v = w.hostSubmitted t 4 := by
  have taken : ¬ (dTile d ≠ t ∧ dTile d ≠ 15) := by omega
  unfold State.hostSubmit
  simp only [← pair, ← desc, active, if_neg taken, busy]
  rfl

end

end

/-- Settles O43, one lemma for each end of HL_ASSIGN and of HL_RELEASE, of a write of EN and of a submission. -/
theorem hayloftsAndTiles : Obligations.HayloftsAndTiles := by
  refine ⟨fun s src t j base size takes slot first units idle free nonempty inside job => ?_,
    fun s src t j base size takes slot first units idle new meets => ?_,
    fun s t j base size pending => ?_, fun s src t j x takes slot idle window unheld => ?_,
    fun s src t j takes slot idle absent => ?_, fun s src t takes off => ?_,
    fun s src t takes on holds => ?_, fun s src t takes idle => ?_,
    fun s src t v u d j w takes pair desc active here queued => ?_,
    fun s src t v u d j w takes pair desc active here busy => ?_,
    fun s src t v u d takes pair desc => ⟨fun inactive => ?_, fun j active other named => ?_⟩⟩
  · exact (exec_hlAssign takes).trans (congrArg Host.Outcome.next (hlAssign_of_unused slot idle first units
      (fun w mem => (free w mem).1) (fun w mem => (free w mem).2) nonempty inside job))
  · exact (exec_hlAssign takes).trans (congrArg Host.Outcome.next (hlAssign_of_overlap slot idle first units new meets))
  · exact ⟨_, exec_hlAssignDone_pending pending, hlDone_tile _ t 0⟩
  · have released := hlRelease_of_unheld slot idle window unheld
    exact ⟨_, (exec_hlRelease takes).trans (congrArg Host.Outcome.next released), hlDone_tile _ t 0⟩
  · exact (exec_hlRelease takes).trans (congrArg Host.Outcome.next (hlRelease_of_absent slot idle absent))
  · exact (exec_tileEnable takes).trans (congrArg Host.Outcome.next (writeTileCtrl_true_of_off off))
  · exact (exec_tileDisable takes).trans (congrArg Host.Outcome.next (writeTileCtrl_false_of_holds on holds))
  · exact (exec_tileDisable takes).trans (congrArg Host.Outcome.next (writeTileCtrl_false_of_idle idle))
  · exact (exec_hostSubmit takes).trans (congrArg Host.Outcome.next
      (hostSubmit_of_queued pair desc active here queued))
  · exact (exec_hostSubmit takes).trans (congrArg Host.Outcome.next (hostSubmit_of_busy pair desc active here busy))
  · exact (exec_hostSubmit takes).trans (congrArg Host.Outcome.next (hostSubmit_of_inactive pair desc inactive))
  · exact (exec_hostSubmit takes).trans (congrArg Host.Outcome.next
      (hostSubmit_of_other_tile pair desc active other named))

end Sys2Proof.Machine
end

section
/-! PROOFS. Commands of the sheaves, and writes of their counters (R284, Table 11-7, R287, R288). -/

namespace Sys2Proof.Machine
open Sys2Proof

section
variable {s t : State} {src : Source} {d k i c : Nat} {x : Sheaf} {v : Word}

/-! ### What a sheaf reads after a change -/

theorem sheaf_congr (shv : t.shv = s.shv) (k : Nat) : t.sheaf k = s.sheaf k :=
  congrArg (fun u : ShfUnit => u.sheaves.get k) shv

/-- A sheaf that is not FREE is not at reset. -/
theorem sheaf_setSheaf_self (s : State) (k : Nat) (live : x.st ≠ .free) : (s.setSheaf k x).sheaf k = x :=
  get_set_ne _ _ _ fun reset => live (congrArg Sheaf.st reset)

theorem sheaf_setSheaf_other (s : State) (x : Sheaf) (other : i ≠ k) : (s.setSheaf k x).sheaf i = s.sheaf i :=
  get_set_other _ _ _ _ other

theorem setSheaf_inv_of_inv (inv : s.Inv) (k : Nat) (x : Sheaf) : (s.setSheaf k x).Inv :=
  (State.setSheaf_inv (pmk := 4194304) k x s (keeps_refl inv) rfl).inv

/-- Binder slots are reserved and released in the tiles alone (R280, R284). -/
theorem shReserve_keeps (inv : s.Inv) (c : ShCfg) (take : Bool) : Keeps 1048576 s (s.shReserve c take) :=
  State.shReserve_inv c take s (keeps_refl inv) rfl

/-! ### The end of a command (R284) -/

theorem shDone_shv (inv : s.Inv) (d r : Nat) : (s.shDone d r).shv = s.shv :=
  (State.shDone_inv (pmk := 16793603) d r s (keeps_refl inv) rfl).frame .shv rfl

theorem sheafStatus_ne_intStatus (d : Nat) : Adr.SHEAF_CMD_STATUS d ≠ adr .sheaf d Adr.H_INT_STATUS := by
  simp [adr, pageBase, pageStride]

theorem rg_shDone (inv : s.Inv) (d r : Nat) : (s.shDone d r).rg (Adr.SHEAF_CMD_STATUS d) = w32 r := by
  have set := State.setRg_inv (Adr.SHEAF_CMD_STATUS d) (w32 r) s (keeps_refl (pmk := 1) inv) rfl
  exact (rg_raiseInt_other set.inv 0 (sheafStatus_ne_intStatus d)).trans (rg_setRg_self s _ _ inv.hub)

/-- A command that sets one sheaf, changes at most what is outside the sheaves before that, and ends with RESULT 0. -/
theorem runs_of_setSheaf {r : Instr} (inv : t.Inv) (shv : t.shv = s.shv)
    (done : exec r s = .next ((t.setSheaf k x).shDone d 0)) :
    Runs r s fun u => u.shv = (s.setSheaf k x).shv ∧ u.rg (Adr.SHEAF_CMD_STATUS d) = 0 := by
  have set := setSheaf_inv_of_inv inv k x
  have written : (t.setSheaf k x).shv = (s.setSheaf k x).shv :=
    congrArg (fun u : ShfUnit => { u with sheaves := u.sheaves.set k x }) shv
  exact ⟨_, done, (shDone_shv set d 0).trans written, rg_shDone set d 0⟩

/-- The sheaf set is seen by its number, and the others stay. -/
theorem runs_sheaf_of_shv {r : Instr} (live : x.st ≠ .free)
    (runs : Runs r s fun u => u.shv = (s.setSheaf k x).shv ∧ u.rg (Adr.SHEAF_CMD_STATUS d) = 0) :
    Runs r s fun u => u.sheaf k = x ∧ (∀ i, i ≠ k → u.sheaf i = s.sheaf i) ∧ u.rg (Adr.SHEAF_CMD_STATUS d) = 0 := by
  obtain ⟨u, ran, shv, status⟩ := runs
  exact ⟨u, ran, (sheaf_congr shv k).trans (sheaf_setSheaf_self s k live),
    fun i other => (sheaf_congr shv i).trans (sheaf_setSheaf_other s x other), status⟩

/-! ### Commands for a sheaf of the page's die (Table 11-7) -/

section
variable (takes : s.takes src (Adr.SHEAF_CMD d) .wo = true) (exists_ : k < 4096) (die : shDie k = d)
include takes exists_ die

theorem shCmd_of_takes (act : State → State) : s.shCmd src d k act = act s :=
  (guarded_of_takes _ takes).trans (if_pos ⟨exists_, die⟩)

theorem exec_sheafEnable : exec (.sheafEnable src d k) s = .next (s.shEnable d k) :=
  congrArg Host.Outcome.next (shCmd_of_takes takes exists_ die _)

theorem exec_sheafDisable : exec (.sheafDisable src d k) s = .next (s.shDisable d k) :=
  congrArg Host.Outcome.next (shCmd_of_takes takes exists_ die _)

theorem exec_sheafReset : exec (.sheafReset src d k) s = .next (s.shReset d k) :=
  congrArg Host.Outcome.next (shCmd_of_takes takes exists_ die _)

theorem exec_sheafAbortCmd : exec (.sheafAbortCmd src d k) s = .next (s.shAbortCmd d k) :=
  congrArg Host.Outcome.next (shCmd_of_takes takes exists_ die _)

end

theorem shEnable_of_sound (free : (s.sheaf k).st = .free) (fields : shBad (s.shCfgOf k) = false)
    (job : (s.activeSlot (s.shCfgOf k).fjid).isSome = true)
    (kids : kidsOk (s.shCfgOf k).root (s.shCfgOf k).members 0 (s.kidWords (s.shCfgOf k)) = true)
    (tiles : ∀ t ∈ (s.shCfgOf k).tiles, s.tileOn t = true)
    (room : ∀ b ∈ (s.shCfgOf k).binders, s.tile.binders.get b + (s.shCfgOf k).slots ≤ 4096) :
    s.shEnable d k = ((s.shReserve (s.shCfgOf k) true).setSheaf k { s.sheaf k with
      st := .idle, opNext := s.shArg d, resetOp := s.shArg d, done := 0, kids := s.kidWords (s.shCfgOf k), groups := []
      parts := [], missed := [] }).shDone d 0 := by
  have sound : ¬ (shBad (s.shCfgOf k) || (s.activeSlot (s.shCfgOf k).fjid).isNone
      || !kidsOk (s.shCfgOf k).root (s.shCfgOf k).members 0 (s.kidWords (s.shCfgOf k))) = true := by
    simp [fields, kids, Option.isSome_iff_ne_none.1 job]
  have on : ¬ ((s.shCfgOf k).tiles.any fun t => !s.tileOn t) = true := by
    simpa using tiles
  have fits : ¬ ((s.shCfgOf k).binders.any fun b => decide (4096 < s.tile.binders.get b + (s.shCfgOf k).slots)) = true := by
    simpa using room
  exact (if_neg (not_not.2 free)).trans ((if_neg sound).trans ((if_neg on).trans (if_neg fits)))

section
variable (live : (s.sheaf k).st ≠ .free) (stopped : (s.sheaf k).st ≠ .running)
include live

theorem shAbortCmd_of_live : s.shAbortCmd d k = (s.shFail k 7).shDone d 0 :=
  if_neg live

include stopped

theorem shDisable_of_stopped :
    s.shDisable d k = ((s.shReserve (s.shCfgOf k) false).setSheaf k { s.sheaf k with
      st := .free, kids := [], groups := [], parts := [], missed := [], done := 0 }).shDone d 0 := by
  unfold State.shDisable
  dsimp only
  split
  case h_1 free => exact absurd free live
  case h_2 running => exact absurd running stopped
  case h_3 => rfl

theorem shReset_of_stopped :
    s.shReset d k = (s.setSheaf k { s.sheaf k with
      st := .idle, opNext := s.shArg d, resetOp := s.shArg d, done := 0, groups := [], parts := [], missed := [] }).shDone
        d 0 := by
  unfold State.shReset
  dsimp only
  split
  case h_1 free => exact absurd free live
  case h_2 running => exact absurd running stopped
  case h_3 => rfl

end

/-! ### Writes of a counter that is reachable (R287, R288) -/

/-- A host write is refused for no owner: the counter takes the new value, and MET and its orders are looked at. -/
theorem ctrUpdate_of_host (s : State) (c : Nat) (f : BitVec 64 → BitVec 64) :
    s.ctrUpdate c none f
      = State.soCheck c (State.ctrEval c false (s.setCtrOf c { s.ctrOf c with value := f (s.ctrOf c).value })) :=
  rfl

theorem ctrOf_unstage (s : State) (src : Source) (a c : Nat) : (s.unstage src a).ctrOf c = s.ctrOf c := rfl

theorem ctrValue_eq (s : State) (src : Source) (c : Nat) (v : Word) :
    s.ctrValue src c v = State.soCheck c (State.ctrEval c false (State.setCtrOf c
      { s.ctrOf c with value := v ++ s.ctrLo src (ctrAt c) (lo32 (s.ctrOf c).value.toNat) }
      (s.unstage src (ctrAt c)))) := by
  unfold State.ctrValue
  rw [ctrUpdate_of_host, ctrOf_unstage]

/-- ADD_LO is kept before the pair is added. -/
def State.ctrAddKept (src : Source) (c : Nat) (s : State) : State :=
  State.setCtrOf c { s.ctrOf c with add := s.ctrLo src (ctrAddAt c) (s.ctrOf c).add } (s.unstage src (ctrAddAt c))

theorem ctrAdd_eq (s : State) (src : Source) (c : Nat) (v : Word) :
    s.ctrAdd src c v = State.soCheck c (State.ctrEval c false ((s.ctrAddKept src c).setCtrOf c
      { (s.ctrAddKept src c).ctrOf c with
        value := ((s.ctrAddKept src c).ctrOf c).value + (v ++ s.ctrLo src (ctrAddAt c) (s.ctrOf c).add) })) := by
  unfold State.ctrAdd
  exact ctrUpdate_of_host (s.ctrAddKept src c) c fun n => n + (v ++ s.ctrLo src (ctrAddAt c) (s.ctrOf c).add)

section
variable (on : s.ctrOn c = true)
include on

theorem exec_ctrValueWrite : exec (.ctrValueWrite src c v) s = .next (s.ctrValue src c v) :=
  congrArg Host.Outcome.next (if_pos on)

theorem exec_ctrThreshWrite : exec (.ctrThreshWrite src c v) s = .next (s.ctrThresh src c v) :=
  congrArg Host.Outcome.next (if_pos on)

theorem exec_ctrAdd : exec (.ctrAdd src c v) s = .next (s.ctrAdd src c v) :=
  congrArg Host.Outcome.next (if_pos on)

theorem exec_ctrCfgWrite : exec (.ctrCfgWrite src c v) s = .next (s.ctrCfg c v) :=
  congrArg Host.Outcome.next (if_pos on)

end

end

/-- Settles O40, one lemma for each command of a sheaf and for each write of a counter. -/
theorem sheafControl : Obligations.SheafControl := by
  refine ⟨?_, fun s src d k inv takes exists_ die live stopped => ?_,
    fun s src d k inv takes exists_ die live stopped => ?_, fun s src d k takes exists_ die live => ?_,
    fun s src c v on => ?_, fun s src c v on => exec_ctrThreshWrite on, ?_, fun s src c v on => exec_ctrCfgWrite on⟩
  · rintro s src d k c inv takes exists_ die free rfl fields job kids tiles room
    have reserved := shReserve_keeps inv (s.shCfgOf k) true
    exact runs_sheaf_of_shv ShfSt.noConfusion (runs_of_setSheaf reserved.inv (reserved.frame .shv rfl)
      ((exec_sheafEnable takes exists_ die).trans
        (congrArg Host.Outcome.next (shEnable_of_sound free fields job kids tiles room))))
  · have released := shReserve_keeps inv (s.shCfgOf k) false
    exact runs_of_setSheaf released.inv (released.frame .shv rfl)
      ((exec_sheafDisable takes exists_ die).trans (congrArg Host.Outcome.next (shDisable_of_stopped live stopped)))
  · exact runs_sheaf_of_shv ShfSt.noConfusion (runs_of_setSheaf inv rfl
      ((exec_sheafReset takes exists_ die).trans (congrArg Host.Outcome.next (shReset_of_stopped live stopped))))
  · exact (exec_sheafAbortCmd takes exists_ die).trans (congrArg Host.Outcome.next (shAbortCmd_of_live live))
  · exact (exec_ctrValueWrite on).trans (congrArg Host.Outcome.next (ctrValue_eq s src c v))
  · rintro s src c v w on rfl
    exact (exec_ctrAdd on).trans (congrArg Host.Outcome.next (ctrAdd_eq s src c v))

end Sys2Proof.Machine
end

section
/-! PROOFS. Reporting an error leaves what no report writes (R416, R457 to R462, R470). -/

namespace Sys2Proof.Machine
open Sys2Proof

/-- A reading of the state that no report can change: it is blind to registers, counters, the barn, outputs and names,
and to the links, the switch, the fault unit and the host port, through which interrupts and events leave. -/
structure ReportBlind {γ : Type} (g : State → γ) : Prop where
  rg : ∀ s a v, g (State.setRg a v s) = g s
  cnt : ∀ s a v, g (State.setCnt a v s) = g s
  barn : ∀ s a bs, g (State.setBarn a bs s) = g s
  out : ∀ s e, g (State.emit e s) = g s
  names : ∀ s n, g (State.takeNames n s) = g s
  link : ∀ s f, g (State.modLink f s) = g s
  sw : ∀ s f, g (State.modSw f s) = g s
  flt : ∀ s f, g (State.modFlt f s) = g s
  host : ∀ s f, g (State.modHost f s) = g s

section
variable {γ : Type} {g : State → γ} {a : γ} {t u : State} {c : Prop} [Decidable c]

theorem ite_reads (yes : g t = a) (no : g u = a) : g (if c then t else u) = a := by
  split
  · exact yes
  · exact no

end

section
variable {γ : Type} {g : State → γ} (blind : ReportBlind g) (s : State)
include blind

/-! ### Sending an own packet -/

theorem holdCells_reads (from_ : Ingress) (die c n : Nat) : g (s.holdCells from_ die c n) = g s := by
  unfold State.holdCells
  cases from_ with
  | port p => exact (blind.link _ _).trans (blind.sw _ _)
  | own d => exact (blind.sw _ _).trans (blind.sw _ _)

theorem store_reads (from_ : Ingress) (die c cells : Nat) (items : List Queued) :
    g (s.store from_ die c cells items) = g s := by
  unfold State.store
  exact (blind.sw _ _).trans ((holdCells_reads blind _ _ _ _ _).trans (blind.names _ _))

theorem deliver_reads (from_ : Ingress) (die : Nat) (k : Packet) : g (s.deliver from_ die k) = g s := by
  unfold State.deliver
  exact (blind.sw _ _).trans ((holdCells_reads blind _ _ _ _ _).trans (blind.names _ _))

theorem sendToPort_reads (die egress : Nat) (sh : Option Nat) (k : Packet) : g (s.sendToPort die egress sh k) = g s :=
  ite_reads (store_reads blind _ _ _ _ _ _) (blind.sw _ _)

theorem putFlowlet_reads (k grp i : Nat) : g (s.putFlowlet k grp i) = g s := blind.sw _ _

theorem freshFlowlet_reads (k die grp : Nat) (mem : List Nat) (m : Option Nat) :
    g (s.freshFlowlet k die grp mem m).2 = g s := by
  unfold State.freshFlowlet
  cases m with
  | none => rfl
  | some i => exact ite_reads ((blind.cnt _ _ _).trans (putFlowlet_reads blind _ _ _ _)) (putFlowlet_reads blind _ _ _ _)

theorem groupMember_reads (die grp mode : Nat) (mem : List Nat) (k : Packet) :
    g (s.groupMember die grp mode mem k).2 = g s := by
  unfold State.groupMember
  dsimp only
  split
  · rfl
  split
  · rfl
  split
  · exact putFlowlet_reads blind _ _ _ _
  · exact freshFlowlet_reads blind _ _ _ _ _ _

theorem resolve_reads (die : Nat) (k : Packet) (eid cap1 : Nat) : g (s.resolve die k eid cap1).2 = g s := by
  unfold State.resolve
  dsimp only
  split
  · rfl
  split
  · rfl
  split
  case h_1 => split <;> rfl
  case h_2 =>
    split
    · rfl
    · next mode mem _ =>
      have member := groupMember_reads blind s die (nbits ((s.view die).fwd eid) 11 0) mode mem k
      split <;> next found => rw [found] at member; exact member
  case h_3 => rfl
  case h_4 => rfl

theorem lookup_reads (die : Nat) (k : Packet) : g (s.lookup die k).2.2 = g s := by
  unfold State.lookup
  dsimp only
  split
  · split
    · rfl
    split
    · rfl
    split
    · rfl
    split
    · rfl
    split
    · rfl
    · exact resolve_reads blind _ _ _ _ _
  · exact resolve_reads blind _ _ _ _ _

theorem sendFor_reads (die : Nat) (sh : Option Nat) (k : Packet) : g (s.sendFor die sh k) = g s := by
  have found := lookup_reads blind s die k
  unfold State.sendFor
  generalize s.lookup die k = r at found ⊢
  obtain ⟨route, q, t⟩ := r
  refine Eq.trans ?_ found
  cases route with
  | egress p => exact sendToPort_reads blind _ _ _ _ _
  | own => exact ite_reads (deliver_reads blind _ _ _ _) (blind.sw _ _)
  | drop => rfl
  | miss | noPath | setBad | setClass | bad => exact blind.cnt _ _ _

/-! ### Interrupts -/

theorem msix_reads (f v : Nat) : g (s.msix f v) = g s :=
  ite_reads ((blind.cnt _ _ _).trans (blind.out _ _)) (blind.host _ _)

theorem pfVector_reads (v : Nat) : g (s.pfVector v) = g s :=
  ite_reads (blind.out _ _) (msix_reads blind _ _ _)

theorem intMessage_reads (k : PageKind) (i : Nat) : g (s.intMessage k i) = g s :=
  ite_reads ((foldl_reads g (fun t f => msix_reads blind t f 0) _ _).trans (pfVector_reads blind _ _))
    (pfVector_reads blind _ _)

theorem raiseInt_reads (k : PageKind) (i b : Nat) : g (s.raiseInt k i b) = g s :=
  ite_reads rfl (ite_reads ((intMessage_reads blind _ _ _).trans (blind.rg _ _ _)) (blind.rg _ _ _))

/-! ### Errors, events and the audit log -/

theorem setCaps_reads (cs : List Nat) (a : Nat) : g (s.setCaps a cs) = g s := by
  induction cs generalizing a s with
  | nil => rfl
  | cons c cs ih => exact (ih _ _).trans (blind.rg _ _ _)

theorem setErr_reads (e : Err) (i : Nat) (caps : List Nat) : g (s.setErr e i caps) = g s := by
  refine ite_reads rfl ?_
  have bitSet : g (s.setRf (adr e.page i Adr.H_ERR_STATUS) e.bit e.bit 1) = g s := blind.rg _ _ _
  have captured := ite_reads (c := bit ((s.setRf (adr e.page i Adr.H_ERR_STATUS) e.bit e.bit 1).rg
    (adr e.page i Adr.H_ERR_FIRST)) 31) bitSet
    ((setCaps_reads blind _ ((caps ++ [0, 0, 0, 0]).take 4) (adr e.page i Adr.H_ERR_CAPTURE)).trans
      ((blind.rg _ (adr e.page i Adr.H_ERR_FIRST) (w32 (2 ^ 31 + e.bit))).trans bitSet))
  exact ite_reads captured ((raiseInt_reads blind _ _ _ _).trans captured)

theorem faultCopy_reads (second : Bool) (record : Nat) : g (s.faultCopy second record) = g s := by
  unfold State.faultCopy
  dsimp only
  refine ite_reads rfl ?_
  have fresh : g (if s.flt.evMs = s.ns / 1000000 then s else s.modFlt fun f =>
      { f with evMs := s.ns / 1000000, evSent0 := 0, evSent1 := 0 }) = g s := ite_reads rfl (blind.flt _ _)
  exact ite_reads ((sendFor_reads blind _ _ _ _).trans ((blind.flt _ _).trans fresh)) ((blind.cnt _ _ _).trans fresh)

theorem event_reads (page bitNo cls c0 c1 : Nat) (fjid : Option Nat) : g (s.event page bitNo cls c0 c1 fjid) = g s := by
  unfold State.event
  dsimp only
  refine ite_reads ((blind.flt _ _).trans (blind.flt _ _)) (ite_reads ?_ ?_)
  · exact (setErr_reads blind _ _ _ _).trans ((blind.cnt _ _ _).trans ((blind.flt _ _).trans (blind.flt _ _)))
  · calc
      _ = _ := faultCopy_reads blind _ _ _
      _ = _ := faultCopy_reads blind _ _ _
      _ = _ := raiseInt_reads blind _ _ _ _
      _ = _ := blind.cnt _ _ _
      _ = _ := blind.flt _ _
      _ = _ := blind.rg _ _ _
      _ = _ := blind.barn _ _ _
      _ = g s := blind.flt _ _

theorem jobFatal_reads (slot : Nat) : g (s.jobFatal slot) = g s :=
  (raiseInt_reads blind _ _ _ _).trans ((raiseInt_reads blind _ _ _ _).trans (blind.rg _ _ _))

/-- What a job-fatal error of `fjid` does to its slots, as `State.raise` has it. -/
def State.jobsFatal (e : Err) (fjid : Option Nat) (s : State) : State :=
  match e.cls, fjid with
  | .jobFatal, some f => (s.jobSlotsOf f).foldl (fun s j => s.jobFatal j) s
  | _, _ => s

/-- The interrupt of the fault page for the class of an error, as `State.raise` has it. -/
def State.classInt (e : Err) (s : State) : State :=
  match e.cls with
  | .domainFatal => s.raiseInt .fault 0 2
  | .deviceFatal => s.raiseInt .fault 0 3
  | _ => s

theorem jobsFatal_reads (e : Err) (fjid : Option Nat) : g (s.jobsFatal e fjid) = g s := by
  unfold State.jobsFatal
  split
  · exact foldl_reads g (fun t j => jobFatal_reads blind t j) _ _
  · rfl

theorem classInt_reads (e : Err) : g (s.classInt e) = g s := by
  unfold State.classInt
  split
  · exact raiseInt_reads blind _ _ _ _
  · exact raiseInt_reads blind _ _ _ _
  · rfl

theorem raise_reads (e : Err) (i : Nat) (caps : List Nat) (fjid : Option Nat) : g (s.raise e i caps fjid) = g s := by
  have fatal : g ((s.setErr e i caps).jobsFatal e fjid) = g s :=
    (jobsFatal_reads blind _ _ _).trans (setErr_reads blind _ _ _ _)
  have contained := (classInt_reads blind _ e).trans fatal
  exact ite_reads fatal (ite_reads ((event_reads blind _ _ _ _ _ _ _).trans contained) contained)

theorem logAudit_reads (kind page x y z : Nat) : g (s.logAudit kind page x y z) = g s := by
  unfold State.logAudit
  dsimp only
  exact (blind.rg _ _ _).trans ((blind.rg _ _ _).trans ((blind.flt _ _).trans (ite_reads rfl (blind.cnt _ _ _))))

theorem tallyMismatch_reads (id want found : Nat) (e : Err) (i : Nat) (caps : List Nat) :
    g (s.tallyMismatch id want found e i caps) = g s := by
  have raised := raise_reads blind s e i caps none
  unfold State.tallyMismatch
  dsimp only
  calc
    _ = _ := logAudit_reads blind _ _ _ _ _ _
    _ = _ := raiseInt_reads blind _ _ _ _
    _ = _ := blind.cnt _ _ _
    _ = g s := ite_reads raised ((blind.rg _ _ _).trans raised)

end

theorem reportBlind_kv : ReportBlind State.kv :=
  ⟨fun _ _ _ => rfl, fun _ _ _ => rfl, fun _ _ _ => rfl, fun _ _ => rfl, fun _ _ => rfl, fun _ _ => rfl,
    fun _ _ => rfl, fun _ _ => rfl, fun _ _ => rfl⟩

end Sys2Proof.Machine
end

section
/-! PROOFS. KV pools and sequences (Table 13-2, Table 13-7, R335, R346 to R348). -/

namespace Sys2Proof.Machine
open Sys2Proof

section
variable {s u : State} {src : Source} {p q b id st m : Nat} {r x : Run}

/-! ### Pools (Table 13-2) -/

theorem exec_kvPoolEnable (takes : s.takes src (Adr.KVPOOL_CTRL p) .wo = true) :
    exec (.kvPoolEnable src p) s = .next (s.poolEnable p) :=
  congrArg Host.Outcome.next (guarded_of_takes _ takes)

theorem exec_kvPoolDisable (takes : s.takes src (Adr.KVPOOL_CTRL p) .wo = true) :
    exec (.kvPoolDisable src p) s = .next (s.poolDisable p) :=
  congrArg Host.Outcome.next (guarded_of_takes _ takes)

theorem exec_kvPoolReset (takes : s.takes src (Adr.KVPOOL_CTRL p) .wo = true) :
    exec (.kvPoolReset src p) s = .next (s.poolReset p) :=
  congrArg Host.Outcome.next (guarded_of_takes _ takes)

/-- Barn structures of the pools that are not OFF, other than pool `p` (R335). -/
def State.otherStructs (s : State) (p : Nat) : List (Nat × Nat) :=
  ((List.range 16).filter fun k => k != p && (s.pool k).st != .off).flatMap s.poolStructs

theorem mem_otherStructs {w : Nat × Nat} :
    w ∈ s.otherStructs p ↔ ∃ k, k < 16 ∧ k ≠ p ∧ (s.pool k).st ≠ .off ∧ w ∈ s.poolStructs k := by
  simp [State.otherStructs, and_assoc]

theorem poolEnable_of_sound (off : (s.pool p).st = .off) (settings : s.poolOk p = true)
    (inside : ∀ w ∈ s.poolStructs p, w.1 + w.2 ≤ barnSize) (apart : someMeet (s.poolStructs p) = false)
    (clear : ∀ w ∈ s.poolStructs p, ∀ x ∈ s.otherStructs p, runsMeet w x = false) :
    s.poolEnable p = (s.poolInit p).poolReject p 0 := by
  have beyond : ((s.poolStructs p).any fun w => decide (barnSize < w.1 + w.2)) = false :=
    List.any_eq_false.2 fun w mem => by simpa using inside w mem
  have others : ((s.poolStructs p).any fun w => (s.otherStructs p).any (runsMeet w)) = false := by
    simpa using clear
  unfold State.otherStructs at others
  unfold State.poolEnable
  simp only [off, settings, beyond, apart, others, Bool.not_true, Bool.or_self, Bool.false_eq_true, if_false]

theorem poolEnable_of_unsound (off : (s.pool p).st = .off) (settings : s.poolOk p = false) :
    s.poolEnable p = s.poolReject p 1 := by
  unfold State.poolEnable
  simp only [off, settings, Bool.not_false, if_true]

theorem poolEnable_of_failed (failed : (s.pool p).st = .failed) : s.poolEnable p = s.poolReject p 3 := by
  unfold State.poolEnable
  rw [failed]

theorem exec_kvPoolInitDone_init (init : (s.pool p).st = .init) : exec (.kvPoolInitDone p) s =
    .next ((s.setPool p { s.pool p with st := .ready }).raiseInt .kvpool p 0) :=
  congrArg Host.Outcome.next (if_pos init)

theorem poolDisable_of_empty (ready : (s.pool p).st = .ready) (empty : s.poolSeqs p = []) :
    s.poolDisable p = (s.setPool p {}).poolReject p 0 := by
  unfold State.poolDisable
  simp only [ready, empty, List.isEmpty_nil, if_true]

theorem poolDisable_of_nonempty (ready : (s.pool p).st = .ready) (live : s.poolSeqs p ≠ []) :
    s.poolDisable p = s.poolReject p 7 := by
  have nonempty : (s.poolSeqs p).isEmpty = false := List.isEmpty_eq_false_iff.2 live
  unfold State.poolDisable
  simp only [ready, nonempty, Bool.false_eq_true, if_false]

theorem poolReset_of_failed (failed : (s.pool p).st = .failed) : s.poolReset p =
    State.poolReject p 0 (State.setPool p {} ((s.poolSeqs p).foldl (fun u q => u.setSeq q {}) s)) := by
  unfold State.poolReset
  rw [failed]

/-! ### Sequences (Table 13-7) -/

section
variable (takes : s.takes src Adr.KVSEQ_CMD .wo = true)
include takes

theorem exec_kvSeqCreate : exec (.kvSeqCreate src q) s = .next (s.seqCreate q) :=
  congrArg Host.Outcome.next (guarded_of_takes _ takes)

theorem exec_kvSeqDestroy : exec (.kvSeqDestroy src q) s = .next (s.seqDestroy q) :=
  congrArg Host.Outcome.next (guarded_of_takes _ takes)

theorem exec_kvSeqPreempt : exec (.kvSeqPreempt src q) s = .next (s.seqPreempt q) :=
  congrArg Host.Outcome.next (guarded_of_takes _ takes)

theorem exec_kvSeqResume : exec (.kvSeqResume src q) s = .next (s.seqResume q) :=
  congrArg Host.Outcome.next (guarded_of_takes _ takes)

end

section
variable (exists_ : q < 262144)
include exists_

theorem seqCreate_of_free (pool : p = s.rf Adr.KVSEQ_CMD_ARG 27 24) (free : (s.seq q).st = 0)
    (ready : (s.pool p).st = .ready) (base : s.rf Adr.KVSEQ_CMD_ARG 22 0 ≤ 4194304)
    (block : s.takeBlk p = (some b, u)) :
    s.seqCreate q = State.seqDone 0 (u.setSeq q
      { st := 1, pool := p, fjid := u.poolFjid p, base := s.rf Adr.KVSEQ_CMD_ARG 22 0, dir := b }) := by
  unfold State.seqCreate
  simp only [← pool, if_neg exists_.not_ge, if_neg base.not_gt, free, ready, block, ne_eq, not_true_eq_false, or_self,
    if_false]

theorem seqCreate_of_used (used : (s.seq q).st ≠ 0) : s.seqCreate q = s.seqDone 2 :=
  (if_neg exists_.not_ge).trans (if_pos (.inl used))

theorem seqDestroy_of_settled (settled : (s.seq q).st = 1 ∨ (s.seq q).st = 3) :
    s.seqDestroy q = State.seqDone 0 ((s.setSeq q { s.seq q with st := 5 }).readersGone q) :=
  (if_neg exists_.not_ge).trans (if_pos settled)

theorem seqDestroy_of_other (resident : (s.seq q).st ≠ 1) (swapped : (s.seq q).st ≠ 3) :
    s.seqDestroy q = s.seqDone 2 :=
  (if_neg exists_.not_ge).trans (if_neg (not_or.2 ⟨resident, swapped⟩))

theorem seqPreempt_of_resident (resident : (s.seq q).st = 1)
    (swap : s.rf (Adr.KVPOOL_SWAP_SLOTS (s.seq q).pool) 28 0 ≠ 0) :
    s.seqPreempt q = State.seqDone 0 (s.preempt q) :=
  (if_neg exists_.not_ge).trans ((if_neg (not_not.2 resident)).trans (if_neg swap))

theorem seqPreempt_of_other (other : (s.seq q).st ≠ 1) : s.seqPreempt q = s.seqDone 2 :=
  (if_neg exists_.not_ge).trans (if_pos other)

theorem seqResume_of_swapped (swapped : (s.seq q).st = 3) :
    s.seqResume q = State.seqDone 0 ((s.setSeq q { s.seq q with st := 4 }).kvWork .resume q) :=
  (if_neg exists_.not_ge).trans (if_neg (not_not.2 swapped))

theorem seqResume_of_other (other : (s.seq q).st ≠ 3) : s.seqResume q = s.seqDone 2 :=
  (if_neg exists_.not_ge).trans (if_pos other)

end

/-! ### Work on a sequence (R346, R348) -/

/-- The run that works on sequence `q`. -/
def State.seqWork (s : State) (q : Nat) : Option (Nat × Option Run) :=
  s.tile.runs.find? fun e => match e.2 with
    | some r => r.kind != .desc && r.desc == q
    | none => false

theorem exec_kvSeqWorkDone_ended (work : s.seqWork q = some (id, some r)) (driven : u = (s.kvPass id).drive id)
    (run : u.run id = some x) (ended : x.fin = some (st, m)) :
    exec (.kvSeqWorkDone q) s = .next (u.workEnd id q x st m) := by
  subst driven
  change execKvSeqWorkDone q s = _
  unfold execKvSeqWorkDone
  split
  case h_1 idle => cases work.symm.trans idle
  case h_2 found =>
    cases work.symm.trans found
    simp only [run, ended]

/-! ### Automatic pre-emption (R347) -/

theorem seq_setRf_other {a hi lo v : Nat} (low : a ≠ Adr.KVSEQ_SEQ_BASE_LO) (high : a ≠ Adr.KVSEQ_SEQ_BASE_LO + 4) :
    (s.setRf a hi lo v).seq q = s.seq q := by
  have base : (s.setRf a hi lo v).seqAt q = s.seqAt q :=
    congrArg (· + 64 * q) (rg64_setRg_other s _ low.symm high.symm)
  unfold State.seq
  rw [base]
  rfl

/-- The entry at CONS of the victim ring of a pool. -/
def State.victim (s : State) (p : Nat) : Nat :=
  s.barnNum (s.rg64 (Adr.KVPOOL_VICTIM_BASE_LO p) + 4 * s.rf (Adr.KVPOOL_VICTIM_CONS p) 11 0) 4 % 262144

/-- The victim at CONS is taken off its ring. -/
def State.victimTaken (p : Nat) (s : State) : State :=
  s.setRf (Adr.KVPOOL_VICTIM_CONS p) 11 0 ((s.rf (Adr.KVPOOL_VICTIM_CONS p) 11 0 + 1) % 4096)

theorem seq_victimTaken : (s.victimTaken p).seq q = s.seq q :=
  seq_setRf_other (by simp only [Adr.KVPOOL_VICTIM_CONS, Adr.KVSEQ_SEQ_BASE_LO]; omega)
    (by simp only [Adr.KVPOOL_VICTIM_CONS, Adr.KVSEQ_SEQ_BASE_LO]; omega)

theorem swapSlots_victimTaken :
    (s.victimTaken p).rf (Adr.KVPOOL_SWAP_SLOTS p) 28 0 = s.rf (Adr.KVPOOL_SWAP_SLOTS p) 28 0 :=
  rf_congr (rg_setRf_other _ _ _ _ (by simp only [Adr.KVPOOL_SWAP_SLOTS, Adr.KVPOOL_VICTIM_CONS]; omega)) 28 0

theorem exec_kvAutoPreempt_victim (exists_ : p < 16) (ready : (s.pool p).st = .ready) (on : (s.pool p).autoOn = true)
    (none_ : (s.pool p).auto = none) (low : (s.pool p).free < s.rf (Adr.KVPOOL_HIGH p) 28 0)
    (queued : s.rf (Adr.KVPOOL_VICTIM_CONS p) 11 0 ≠ s.rf (Adr.KVPOOL_VICTIM_PROD p) 11 0)
    (resident : (s.seq (s.victim p)).st = 1) (mine : (s.seq (s.victim p)).pool = p)
    (swap : s.rf (Adr.KVPOOL_SWAP_SLOTS p) 28 0 ≠ 0) :
    exec (.kvAutoPreempt p) s = .next (State.preempt (s.victim p)
      (State.setPool p { s.pool p with auto := some (s.victim p) } (s.victimTaken p))) := by
  have runs : ¬ ((s.pool p).st ≠ .ready ∨ (s.pool p).autoOn = false ∨ (s.pool p).auto.isSome = true) := by
    simp [ready, on, none_]
  have due : ¬ (s.rf (Adr.KVPOOL_HIGH p) 28 0 ≤ (s.pool p).free
      ∨ s.rf (Adr.KVPOOL_VICTIM_CONS p) 11 0 = s.rf (Adr.KVPOOL_VICTIM_PROD p) 11 0) := not_or.2 ⟨low.not_ge, queued⟩
  have takes : ((s.victimTaken p).seq (s.victim p)).st = 1 ∧ ((s.victimTaken p).seq (s.victim p)).pool = p
      ∧ (s.victimTaken p).rf (Adr.KVPOOL_SWAP_SLOTS p) 28 0 ≠ 0 := by
    rw [seq_victimTaken, swapSlots_victimTaken]
    exact ⟨resident, mine, swap⟩
  exact congrArg Host.Outcome.next
    ((if_pos exists_).trans ((if_neg runs).trans ((if_neg due).trans (if_pos takes))))

end

/-- Settles O45, one lemma for each command of a pool, for each command of a sequence, for its work and for automatic
pre-emption. That work ends by the run of its sequence is the model's choice (log 26). -/
theorem kvPoolsAndSequences : Obligations.KvPoolsAndSequences := by
  refine ⟨fun s src p takes off settings inside apart clear => ?_, fun s src p takes off settings => ?_,
    fun s src p takes failed => ?_, fun s p init => ?_, fun s src p takes ready empty => ?_,
    fun s src p takes ready live => ?_, fun s src p takes failed => ?_,
    fun s src q p b u takes exists_ pool free ready base block => ?_, fun s src q takes exists_ settled => ?_,
    fun s src q takes exists_ resident swap => ?_, fun s src q takes exists_ swapped => ?_,
    fun s src q takes exists_ => ⟨fun used => ?_, fun resident swapped => ?_, fun other => ?_, fun other => ?_⟩,
    fun s q id r x u st m work driven run ended => exec_kvSeqWorkDone_ended work driven run ended, ?_⟩
  · refine (exec_kvPoolEnable takes).trans (congrArg Host.Outcome.next (poolEnable_of_sound off settings inside apart ?_))
    intro w mine x other
    obtain ⟨k, exists_, ne, on, mem⟩ := mem_otherStructs.1 other
    exact clear w mine k exists_ ne on x mem
  · exact (exec_kvPoolEnable takes).trans (congrArg Host.Outcome.next (poolEnable_of_unsound off settings))
  · exact (exec_kvPoolEnable takes).trans (congrArg Host.Outcome.next (poolEnable_of_failed failed))
  · exact ⟨_, exec_kvPoolInitDone_init init, raiseInt_reads reportBlind_kv _ .kvpool p 0⟩
  · exact (exec_kvPoolDisable takes).trans (congrArg Host.Outcome.next (poolDisable_of_empty ready empty))
  · exact (exec_kvPoolDisable takes).trans (congrArg Host.Outcome.next (poolDisable_of_nonempty ready live))
  · exact (exec_kvPoolReset takes).trans (congrArg Host.Outcome.next (poolReset_of_failed failed))
  · exact (exec_kvSeqCreate takes).trans
      (congrArg Host.Outcome.next (seqCreate_of_free exists_ pool free ready base block))
  · exact (exec_kvSeqDestroy takes).trans (congrArg Host.Outcome.next (seqDestroy_of_settled exists_ settled))
  · exact (exec_kvSeqPreempt takes).trans (congrArg Host.Outcome.next (seqPreempt_of_resident exists_ resident swap))
  · exact (exec_kvSeqResume takes).trans (congrArg Host.Outcome.next (seqResume_of_swapped exists_ swapped))
  · exact (exec_kvSeqCreate takes).trans (congrArg Host.Outcome.next (seqCreate_of_used exists_ used))
  · exact (exec_kvSeqDestroy takes).trans (congrArg Host.Outcome.next (seqDestroy_of_other exists_ resident swapped))
  · exact (exec_kvSeqPreempt takes).trans (congrArg Host.Outcome.next (seqPreempt_of_other exists_ other))
  · exact (exec_kvSeqResume takes).trans (congrArg Host.Outcome.next (seqResume_of_other exists_ other))
  · rintro s p x cons q exists_ rfl ready on none_ rfl low queued rfl resident mine swap
    exact exec_kvAutoPreempt_victim exists_ ready on none_ low queued resident mine swap

end Sys2Proof.Machine
end

section
/-! PROOFS. The page manager, reclaim epochs and the walk of the pools (R338 to R344, R358). -/

namespace Sys2Proof.Machine
open Sys2Proof

section
variable {s : State} {p k id action : Nat} {r : Run} {w : Nat × Nat}

/-! ### Operations of descriptors (R338 to R343) -/

theorem kvTake_of_append (run : s.run id = some r) (desc : r.kind = .desc) (append : dOpcode r.desc = 0x51)
    (action_eq : dpar r.desc 255 254 = action) : s.kvTake id action = s.kvPass id := by
  unfold State.kvTake
  rw [run]
  exact if_pos ⟨desc, append, action_eq⟩

/-- The commands that hand a descriptor to the page manager, each with the ACTION it is for. -/
theorem exec_kvTake (s : State) (id : Nat) : ∀ x ∈ [(Instr.kvAppend id, 0), (.kvFork id, 1), (.kvClear id, 2)],
    exec x.1 s = .next (s.kvTake id x.2) := by
  simp only [List.forall_mem_cons, List.not_mem_nil, false_imp_iff, implies_true, and_true]
  exact ⟨rfl, rfl, rfl⟩

/-! ### Reclaim epochs (R344) -/

theorem exec_kvEpochFlip_deferred (settled : s.kv.flip = false) (exists_ : p < 16)
    (deferred : ((s.pool p).defHead s.kv.epoch).isSome = true) :
    exec .kvEpochFlip s = .next (s.modKv fun k => { k with epoch := !k.epoch, flip := true }) := by
  have some_ : ((List.range 16).any fun p => ((s.pool p).defHead s.kv.epoch).isSome) = true :=
    List.any_eq_true.2 ⟨p, List.mem_range.2 exists_, deferred⟩
  refine congrArg Host.Outcome.next (if_pos ?_)
  rw [settled, some_]
  rfl

theorem exec_kvEpochEnd_idle (flipped : s.kv.flip = true)
    (idle : ∀ t, t < 8 → s.kv.counts.get (2 * t + b2n (!s.kv.epoch)) = 0) :
    exec .kvEpochEnd s = .next (((List.range 16).foldl (fun u p => u.reclaim (!s.kv.epoch) p) s).modKv
      fun k => { k with flip := false }) := by
  have none_ : ((List.range 8).all fun t => s.kv.counts.get (2 * t + b2n (!s.kv.epoch)) == 0) = true :=
    List.all_eq_true.2 fun t mem => beq_iff_eq.2 (idle t (List.mem_range.1 mem))
  refine congrArg Host.Outcome.next (if_pos ?_)
  rw [flipped, none_]
  rfl

/-! ### The walk (R358) -/

theorem walkPool_of_not_ready (other : (s.pool p).st ≠ .ready) : s.walkPool p = s := if_pos other

theorem walkPool_of_equal (sums : ∀ w ∈ s.poolWalk p, w.1 = w.2) (decodes : s.decodePair.1 = s.decodePair.2) :
    s.walkPool p = s := by
  have none_ : (s.poolWalk p ++ [s.decodePair]).find? (fun w => w.1 != w.2) = none := by
    simpa [decodes] using fun a b => sums (a, b)
  unfold State.walkPool
  simp only [none_, ite_self]

theorem walkPool_of_unequal (ready : (s.pool p).st = .ready)
    (found : (s.poolWalk p).find? (fun w => w.1 != w.2) = some w) :
    s.walkPool p = (s.poolFail p).tallyMismatch 0 w.1 w.2 Err.kvpool_KV_TALLY p [] := by
  have first : (s.poolWalk p ++ [s.decodePair]).find? (fun w => w.1 != w.2) = some w := by
    rw [List.find?_append, found, Option.some_or]
  unfold State.walkPool
  simp only [ready, first, ne_eq, not_true_eq_false, if_false]

/-- A walk in which no pool of `l` changes anything changes nothing. -/
theorem foldl_walkPool_eq_self {l : List Nat} (still : ∀ p ∈ l, s.walkPool p = s) :
    l.foldl (fun u p => u.walkPool p) s = s := by
  induction l with
  | nil => rfl
  | cons p l ih =>
    obtain ⟨first, rest⟩ := List.forall_mem_cons.1 still
    rw [List.foldl_cons, first, ih rest]

theorem pool_congr {t : State} (kv : t.kv = s.kv) (k : Nat) : t.pool k = s.pool k :=
  congrArg (fun u : KvUnit => u.pools.get k) kv

theorem pool_setPool_other (s : State) (x : KvPool) (other : k ≠ p) : (s.setPool p x).pool k = s.pool k :=
  get_set_other _ _ _ _ other

/-- A mismatch fails its own pool alone. -/
theorem pool_mismatch_other (s : State) (want found : Nat) (other : k ≠ p) :
    ((s.poolFail p).tallyMismatch 0 want found Err.kvpool_KV_TALLY p []).pool k = s.pool k :=
  (pool_congr (tallyMismatch_reads reportBlind_kv _ _ _ _ _ _ _) k).trans (pool_setPool_other s _ other)

theorem exec_kvWalkEnd_equal (decodes : s.decodePair.1 = s.decodePair.2)
    (sums : ∀ p, p < 16 → (s.pool p).st = .ready → ∀ w ∈ s.poolWalk p, w.1 = w.2) : exec .kvWalkEnd s = .next s := by
  refine congrArg Host.Outcome.next (foldl_walkPool_eq_self fun p mem => ?_)
  by_cases ready : (s.pool p).st = .ready
  · exact walkPool_of_equal (sums p (List.mem_range.1 mem) ready) decodes
  · exact walkPool_of_not_ready ready

theorem exec_kvWalkEnd_unequal (exists_ : p < 16) (alone : ∀ k, k ≠ p → (s.pool k).st ≠ .ready)
    (ready : (s.pool p).st = .ready) (found : (s.poolWalk p).find? (fun w => w.1 != w.2) = some w) :
    exec .kvWalkEnd s = .next ((s.poolFail p).tallyMismatch 0 w.1 w.2 Err.kvpool_KV_TALLY p []) := by
  obtain ⟨before, after, split⟩ := List.append_of_mem (List.mem_range.2 exists_)
  have distinct : p ∉ before ++ after :=
    (List.nodup_cons.1 (List.nodup_middle.1 (split ▸ List.nodup_range (n := 16)))).1
  have ne : ∀ k, k ∈ before ∨ k ∈ after → k ≠ p := fun k mem same => distinct (same ▸ List.mem_append.2 mem)
  refine congrArg Host.Outcome.next ?_
  rw [split, List.foldl_append, List.foldl_cons,
    foldl_walkPool_eq_self fun k mem => walkPool_of_not_ready (alone k (ne k (.inl mem))),
    walkPool_of_unequal ready found]
  refine foldl_walkPool_eq_self fun k mem => walkPool_of_not_ready ?_
  rw [pool_mismatch_other s _ _ (ne k (.inr mem))]
  exact alone k (ne k (.inr mem))

end

/-- Settles O46, one lemma for the descriptors taken up, for each end of an epoch and for each outcome of a
walk. That a walk's finding has audit ID 0 is the model's choice (log 16). -/
theorem kvPageManager : Obligations.KvPageManager := by
  refine ⟨fun s id r run desc append x mem action => ?_,
    fun s p settled exists_ deferred => exec_kvEpochFlip_deferred settled exists_ deferred,
    fun s flipped idle => exec_kvEpochEnd_idle flipped idle,
    fun s decodes sums => exec_kvWalkEnd_equal decodes sums,
    fun s p w exists_ before after ready found => ?_⟩
  · exact (exec_kvTake s id x mem).trans (congrArg Host.Outcome.next (kvTake_of_append run desc append action))
  · exact exec_kvWalkEnd_unequal exists_ (fun k ne => ne.lt_or_gt.elim (before k) (after k)) ready found

end Sys2Proof.Machine
end

section
/-! PROOFS. Expert dispatch and combine (R365 to R375, Tables 14-2 and 14-6). -/

namespace Sys2Proof.Machine
open Sys2Proof

section
variable {s t u z : State} {src : Source} {c : Option Nat} {d p l k e j die spills : Nat} {x : Cmb}

/-! ### The end of a command (R365) -/

theorem exdDone_exd (inv : s.Inv) (r : Nat) : (s.exdDone r).exd = s.exd :=
  (State.exdDone_inv (pmk := 16793603) r s (keeps_refl inv) rfl).frame .exd rfl

theorem rg_exdDone (inv : s.Inv) (r : Nat) : (s.exdDone r).rg Adr.EXD_CMD_STATUS = w32 r := by
  have set := State.setRg_inv Adr.EXD_CMD_STATUS (w32 r) s (keeps_refl (pmk := 1) inv) rfl
  exact (rg_raiseInt_other set.inv 0 (by decide)).trans (rg_setRg_self s _ _ inv.hub)

/-- A command that changes at most what is outside expert dispatch, then the unit by `f`, and ends with RESULT 0. -/
theorem runs_of_modExd {r : Instr} {f : ExdUnit → ExdUnit} (inv : t.Inv) (exd : t.exd = s.exd)
    (done : exec r s = .next ((t.modExd f).exdDone 0)) :
    Runs r s fun u => u.exd = f s.exd ∧ u.rg Adr.EXD_CMD_STATUS = 0 := by
  have set : (t.modExd f).Inv := ⟨inv.mem, inv.hub⟩
  exact ⟨_, done, (exdDone_exd set 0).trans (congrArg f exd), rg_exdDone set 0⟩

/-- Binder slots of a layer are reserved and released in the tiles alone (R280, R365). -/
theorem layerReserve_keeps (inv : s.Inv) (l : Nat) (take : Bool) : Keeps 1048576 s (s.layerReserve l take) :=
  State.layerReserve_inv l take s (keeps_refl inv) rfl

/-! ### ENABLE, DISABLE and EXPERT_SYNC (Table 14-2) -/

section
variable (takes : s.takes src Adr.EXD_CMD .wo = true) (exists_ : l < 256)
include takes exists_

theorem exec_exdEnable : exec (.exdEnable src l) s = .next (s.exdEnable l) :=
  congrArg Host.Outcome.next ((guarded_of_takes _ takes).trans (if_pos exists_))

theorem exec_exdDisable : exec (.exdDisable src l) s = .next (s.exdDisable l) :=
  congrArg Host.Outcome.next ((guarded_of_takes _ takes).trans (if_pos exists_))

theorem exec_expertSync : exec (.expertSync src l) s = .next (s.expertSync l) :=
  congrArg Host.Outcome.next ((guarded_of_takes _ takes).trans (if_pos exists_))

end

/-- The Binder slots of a layer are reserved and its status words are zeroed (R365). -/
def State.layerTaken (l : Nat) (s : State) : State :=
  (s.layerReserve l true).setBarn (s.statusAt l 0) (List.replicate (4 * (s.geo l).dslots) 0)

theorem layerTaken_keeps (inv : s.Inv) (l : Nat) : Keeps 1048704 s (s.layerTaken l) :=
  State.setBarn_inv _ _ _ (State.layerReserve_inv l true s (keeps_refl inv) rfl) rfl

/-- Layers whose barn structures or windows meet (R365). -/
def State.layersMeet (s : State) (l k : Nat) : Bool :=
  ((s.layerRegions l).any fun a => (s.layerRegions k).any fun b => meet a b)
    || (s.layerWindows l).any fun a => (s.layerWindows k).any fun b => meet a b

theorem any_meet_eq_false {v w : List (Nat × Nat)} (apart : ∀ a ∈ v, ∀ b ∈ w, meet a b = false) :
    (v.any fun a => w.any fun b => meet a b) = false :=
  List.any_eq_false.2 fun a ha => Bool.eq_false_iff.1
    (List.any_eq_false.2 fun b hb => Bool.eq_false_iff.1 (apart a ha b hb))

theorem layersMeet_eq_false (regions : ∀ a ∈ s.layerRegions l, ∀ b ∈ s.layerRegions k, meet a b = false)
    (windows : ∀ a ∈ s.layerWindows l, ∀ b ∈ s.layerWindows k, meet a b = false) : s.layersMeet l k = false :=
  Bool.or_eq_false_iff.2 ⟨any_meet_eq_false regions, any_meet_eq_false windows⟩

theorem exdEnable_of_sound (off : s.layerOn l = false) (fields : s.layerBad l = false)
    (job : (s.activeSlot (s.layFjid l)).isSome = true)
    (tiles : ∀ t, t < 8 → nbits (s.lay l 831 800) (4 * t + 3) (4 * t) ≠ 0 → s.tileOn t = true)
    (inside : ∀ r ∈ s.layerRegions l, r.1 + r.2 ≤ barnSize)
    (apart : ∀ k ∈ List.map Prod.fst s.exd.active, s.layerOn k = true → k ≠ l → s.layersMeet l k = false)
    (room : ∀ b, b < 32 → (s.lay l 831 800).testBit b = true → s.tile.binders.get b + s.lay l 869 857 ≤ 4096) :
    s.exdEnable l = State.exdDone 0 ((s.layerTaken l).modExd fun u => { u with
      active := u.active.set l true, bad := u.bad.set l false, ents := u.ents.keep fun k _ => k / 32768 != l }) := by
  have tilesOn : (((List.range 8).filter fun t => nbits (s.lay l 831 800) (4 * t + 3) (4 * t) != 0).any
      fun t => !s.tileOn t) = false := by
    simpa using tiles
  have within : ((s.layerRegions l).any fun r => decide (barnSize < r.1 + r.2)) = false :=
    List.any_eq_false.2 fun r mem => by simpa using inside r mem
  have clear : (((List.map Prod.fst s.exd.active).filter fun k => s.layerOn k && k != l).any
      (s.layersMeet l)) = false := by
    refine List.any_eq_false.2 fun k mem => ?_
    obtain ⟨listed, live⟩ := List.mem_filter.1 mem
    obtain ⟨on, other⟩ := Bool.and_eq_true_iff.1 live
    exact Bool.eq_false_iff.1 (apart k listed on (bne_iff_ne.1 other))
  have slots : (((List.range 32).filter fun b => (s.lay l 831 800).testBit b).any
      fun b => decide (4096 < s.tile.binders.get b + s.lay l 869 857)) = false := by
    simpa using room
  have active : (s.activeSlot (s.layFjid l)).isNone = false := Option.isNone_eq_false_iff.2 job
  unfold State.layersMeet at clear
  unfold State.exdEnable
  simp only [off, fields, active, tilesOn, within, clear, slots, Bool.or_self, Bool.false_eq_true, if_false]
  rfl

theorem exdDisable_of_idle (on : s.layerOn l = true)
    (settled : ∀ k, k < (s.geo l).dslots → s.dispatching l k = false)
    (none_ : s.exd.ents = []) :
    s.exdDisable l = State.exdDone 0 ((s.layerReserve l false).modExd fun u =>
      { u with active := u.active.set l false, bad := u.bad.set l false }) := by
  have quiet : ((List.range (s.geo l).dslots).any fun k => s.dispatching l k) = false := by simpa using settled
  unfold State.exdDisable
  simp only [on, quiet, none_, List.any_nil, Bool.not_true, Bool.or_self, Bool.false_eq_true, if_false]

/-- Expert `i` of layer `l` is not cached any more, its charges are zero and its stamps are `step` (R367). -/
def State.expertSynced (l step i : Nat) (s : State) : State :=
  State.setBarn (s.expertAt l i + 144) (List.replicate 64 (0 : Byte) ++ leBytes 8 step ++ leBytes 8 step)
    (s.modExd fun u => { u with cache := (u.cache.set (4096 * l + i) none).set (2 ^ 20 + 4096 * l + i) none })

theorem expertSync_of_inside (on : s.layerOn l = true)
    (inside : s.rf Adr.EXD_CMD_ARG 11 0 + s.rf Adr.EXD_CMD_ARG 27 16 ≤ s.lay l 1001 990) :
    s.expertSync l = State.exdDone 0 ((List.range (s.rf Adr.EXD_CMD_ARG 27 16 + 1)).foldl (fun u i =>
      u.expertSynced l (s.ctrOf (s.lay l 935 922)).value.toNat (s.rf Adr.EXD_CMD_ARG 11 0 + i)) s) := by
  have off : ¬ (!s.layerOn l) = true := by simp [on]
  exact (if_neg off).trans (if_neg inside.not_gt)

/-! ### The decision (R369, R370) -/

theorem gcount_exd (s : State) (ev inc die : Nat) (port tc fjid : Option Nat) :
    (s.gcount ev inc die port tc fjid).exd = s.exd :=
  foldl_reads State.exd (fun t _ => ite_reads (State.setCnt_exd t _ _) rfl) _ s

theorem layFjid_modExd (s : State) (f : ExdUnit → ExdUnit) (l : Nat) : (s.modExd f).layFjid l = s.layFjid l := rfl

theorem layerOn_modExd_ready (s : State) (f : ExdUnit → List (Nat × Nat × Nat × Nat × Packet)) (l : Nat) :
    (s.modExd fun u => { u with ready := f u }).layerOn l = s.layerOn l := rfl

/-- A complete slot of layer `l` is taken off the list and its token is counted. -/
def State.readyTaken (d l : Nat) (r : Nat × Nat × Nat × Nat × Packet) (s : State) : State :=
  State.gcount 0x12 1 d none none (some (s.layFjid l)) (s.modExd fun u => { u with ready := u.ready.erase r })

theorem readyTaken_bad (s : State) (d : Nat) (r : Nat × Nat × Nat × Nat × Packet) :
    (s.readyTaken d l r).exd.bad = s.exd.bad := by
  unfold State.readyTaken
  rw [gcount_exd]
  rfl

/-- The step that a layer's counter shows (R367). -/
def State.layerStep (s : State) (l : Nat) : Nat := (s.ctrOf (s.lay l 935 922)).value.toNat

theorem decide'_of_picked {pkt : Packet} {h : Nat} {ps : List (Option (Nat × Nat × Nat))}
    (ready : (s.exd.ready.find? fun t => t.2.1 % 2 == d) = some (l, k, die, j, pkt)) (on : s.layerOn l = true)
    (taken : t = s.readyTaken d l (l, k, die, j, pkt)) (sound : s.exd.bad.get l = false)
    (header : h = t.barnNum (t.dspAt l k) 128) (good : t.tokBad l h = false)
    (free : (t.entsOf l d).find? (fun e => (t.cmb l e).isNone) = some e)
    (picked : t.picks d l h pkt.src (t.layerStep l) (tokK h) 0 [] = (some (ps, spills), z))
    (keeps : z.lay l 984 983 ≠ 2) :
    s.decide' d = State.tokAnswer die j pkt 0 (State.dispatch d l k e h (t.layerStep l) pkt ps
      (State.bump Adr.EXD_SPILLS spills (State.bump Adr.EXD_OVERFLOW_DROP (ps.filter Option.isNone).length
        (z.bump Adr.EXD_TOKENS 1)))) := by
  have readable : t.exd.bad.get l = false := by rw [taken, readyTaken_bad, sound]
  unfold State.layerStep at picked ⊢
  unfold State.readyTaken at taken
  unfold State.decide'
  simp only [ready, layerOn_modExd_ready, on, layFjid_modExd, ← taken, ← header, readable, good, free, picked, keeps,
    false_and, Bool.not_true, Bool.false_eq_true, if_false]

theorem exec_tokenDecide (runs : s.exd.held = false) : exec (.tokenDecide d) s = .next (s.decide' d) :=
  congrArg Host.Outcome.next (if_neg (Bool.eq_false_iff.1 runs))

/-! ### Answers to copies and results (R371, R374) -/

/-- What an answer to a write of expert dispatch does, by the owner of the write. -/
def State.exdRsp (o : Owner) (k : Packet) (s : State) : State :=
  match o with
  | .exdCopy id => s.copyRsp id k.rspStatus
  | .exdRes l e uid => s.resultRsp l e uid k.rspStatus
  | _ => s

theorem exec_exdWriteRsp_held {pkt : Packet} {o : Owner} (held : s.unitTag pkt = some o) (mine : o.isExd = true)
    (waits : s.takeLocal p pkt = (c, u)) :
    exec (.exdWriteRsp p pkt) s = .next (State.freeLocal c (State.exdRsp o pkt (u.setTag pkt.reqTag none))) := by
  refine congrArg Host.Outcome.next ?_
  unfold State.unitRsp
  simp only [held, mine, waits, if_true]
  rfl

/-! ### Combine entries (Table 14-6) -/

/-- The positions that are due to an entry and have not returned. -/
def Cmb.late (x : Cmb) : Nat :=
  (List.range 16).foldl (fun m i => if x.served.testBit i ∧ !x.returned.testBit i then m + 2 ^ i else m) 0

/-- A late entry goes on without what is missing, which is counted and captured (R374). -/
def State.cmbLate (l e : Nat) (x : Cmb) (s : State) : State :=
  State.cmbCapture 1 l e (((List.range 16).find? fun i => x.late.testBit i).elim 0 x.execs.get)
    (State.bump Adr.EXD_CMB_TIMEOUTS 1 (s.setCmb l e (some { x with st := .combine, missing := x.late })))

section
variable (entry : s.cmb l e = some x)
include entry

theorem exec_cmbTimeout_due (waits : x.st = .wait) (live : x.stopped = false)
    (due : x.at_ + 1000 * s.lay l 889 870 ≤ s.ns) :
    exec (.cmbTimeout l e) s = .next (((s.cmbLate l e x).raise Err.exd_CMB_TIMEOUT 0 []
      (some (s.layFjid l))).raiseInt .exd 0 1) := by
  have late : x.st = .wait ∧ (!x.stopped) = true ∧ x.at_ + 1000 * s.lay l 889 870 ≤ s.ns :=
    ⟨waits, by simp [live], due⟩
  change execCmbTimeout l e s = _
  unfold execCmbTimeout
  rw [entry]
  exact congrArg Host.Outcome.next (if_pos late)

theorem exec_cmbCombine_new (combines : x.st = .combine) (new : x.begun = false) (live : x.stopped = false) :
    exec (.cmbCombine l e) s = .next (s.combine l e x) := by
  change execCmbCombine l e s = _
  unfold execCmbCombine
  simp only [entry, combines, new, live, Bool.not_false, and_self, if_true]

theorem exec_cmbQuarEnd_due (quarantined : x.st = .quar) (due : x.at_ + 1000 * s.lay l 889 870 ≤ s.ns) :
    exec (.cmbQuarEnd l e) s = .next (s.setCmb l e none) := by
  change execCmbQuarEnd l e s = _
  unfold execCmbQuarEnd
  simp only [entry, quarantined, due, and_self, if_true]

end

end

/-- Settles O42, one lemma for each command of a layer, for the decision, for the answers and for each transition of a
combine entry. That the write which completes a token is answered when the token is decided, and that a copy of a row goes
in several writes, are the model's choices (log 44). -/
theorem expertDispatch : Obligations.ExpertDispatch := by
  refine ⟨fun s src l inv takes exists_ off fields job tiles inside apart room => ?_,
    fun s src l inv takes exists_ on settled none_ => ?_, fun s src l takes exists_ on inside => ?_, ?_,
    fun s p k c u id held waits => exec_exdWriteRsp_held held rfl waits,
    fun s p k c u l e uid held waits => exec_exdWriteRsp_held held rfl waits,
    fun s l e x entry waits live due => ⟨s.cmbLate l e x, _, exec_cmbTimeout_due entry waits live due, x.late, rfl⟩,
    fun s l e x entry combines new live => exec_cmbCombine_new entry combines new live,
    fun s l e x entry quarantined due => exec_cmbQuarEnd_due entry quarantined due⟩
  · have taken := layerTaken_keeps inv l
    have clear k (listed : k ∈ List.map Prod.fst s.exd.active) (on : s.layerOn k = true) (other : k ≠ l) :=
      layersMeet_eq_false (apart k listed on other).1 (apart k listed on other).2
    exact runs_of_modExd taken.inv (taken.frame .exd rfl) ((exec_exdEnable takes exists_).trans
      (congrArg Host.Outcome.next (exdEnable_of_sound off fields job tiles inside clear room)))
  · have released := layerReserve_keeps inv l false
    exact runs_of_modExd released.inv (released.frame .exd rfl) ((exec_exdDisable takes exists_).trans
      (congrArg Host.Outcome.next (exdDisable_of_idle on settled none_)))
  · exact (exec_expertSync takes exists_).trans (congrArg Host.Outcome.next (expertSync_of_inside on inside))
  · rintro s d l k die j p g h e ps spills z runs ready on taken sound header good free picked keeps
    exact (exec_tokenDecide runs).trans
      (congrArg Host.Outcome.next (decide'_of_picked ready on taken sound header good free picked keeps))

end Sys2Proof.Machine
end

section
/-! PROOFS. Mode changes, fuses and the scrub (R386, R390, Table 15-4). -/

namespace Sys2Proof.Machine
open Sys2Proof

section
variable {s t u : State} {src : Source} {b : Bool} {f : FuseOp}

/-! ### What an interrupt changes (R416) -/

/-- `t` differs from `s` at most where an interrupt leaves its trace: in registers and counters, in the pending vectors
of the host port, and in the outputs. -/
def TraceOfInt (s t : State) : Prop := ∃ hub host out, t = { s with hub := hub, host := host, out := out }

theorem TraceOfInt.trans (first : TraceOfInt s t) (then_ : TraceOfInt t u) : TraceOfInt s u := by
  obtain ⟨_, _, _, rfl⟩ := first
  obtain ⟨_, _, _, rfl⟩ := then_
  exact ⟨_, _, _, rfl⟩

theorem traceOfInt_msix (s : State) (f v : Nat) : TraceOfInt s (s.msix f v) := by
  unfold State.msix
  dsimp only
  split <;> exact ⟨_, _, _, rfl⟩

theorem traceOfInt_pfVector (s : State) (v : Nat) : TraceOfInt s (s.pfVector v) := by
  unfold State.pfVector
  split
  · exact ⟨_, _, _, rfl⟩
  · exact traceOfInt_msix s 0 v

theorem traceOfInt_vfVectors (l : List Nat) (s : State) : TraceOfInt s (l.foldl (fun s f => s.msix f 0) s) := by
  induction l generalizing s with
  | nil => exact ⟨_, _, _, rfl⟩
  | cons f l ih => exact (traceOfInt_msix s f 0).trans (ih _)

theorem traceOfInt_intMessage (s : State) (k : PageKind) (i : Nat) : TraceOfInt s (s.intMessage k i) := by
  unfold State.intMessage
  dsimp only
  split
  · exact (traceOfInt_pfVector s _).trans (traceOfInt_vfVectors _ _)
  · exact traceOfInt_pfVector s _

theorem traceOfInt_raiseInt (s : State) (k : PageKind) (i b : Nat) : TraceOfInt s (s.raiseInt k i b) := by
  have shown : TraceOfInt s (s.setRf (adr k i Adr.H_INT_STATUS) b b 1) := ⟨_, _, _, rfl⟩
  unfold State.raiseInt
  dsimp only
  split
  · exact ⟨_, _, _, rfl⟩
  split
  · exact shown.trans (traceOfInt_intMessage _ k i)
  · exact shown

theorem TraceOfInt.sec (trace : TraceOfInt s t) : t.sec = s.sec := by
  obtain ⟨_, _, _, rfl⟩ := trace
  rfl

theorem TraceOfInt.mem (trace : TraceOfInt s t) : t.mem = s.mem := by
  obtain ⟨_, _, _, rfl⟩ := trace
  rfl

/-! ### Commands of SEC_CMD, and their end (R408) -/

theorem secCmd_of_idle (takes : s.takes src Adr.SEC_CMD .wo = true) (idle : s.sec.busy = false)
    (act : State → State) : s.secCmd src act = act s :=
  (guarded_of_takes _ takes).trans (if_neg (by simp [idle]))

theorem secDone_sec (s : State) (r : Nat) : (s.secDone r).sec = { s.sec with busy := false } :=
  (traceOfInt_raiseInt _ .sec 0 0).sec

theorem secDone_mem (s : State) (r : Nat) : (s.secDone r).mem = s.mem := (traceOfInt_raiseInt _ .sec 0 0).mem

section
variable (inv : s.Inv)
include inv

/-- The end of a command writes its RESULT, and the page's INT_STATUS. -/
theorem rg_secDone (r : Nat) {a : Nat} (other : a ≠ adr .sec 0 Adr.H_INT_STATUS) :
    (s.secDone r).rg a = (s.setRf Adr.SEC_STATUS 3 0 r).rg a := by
  have set : ((s.setRf Adr.SEC_STATUS 3 0 r).modSec fun u => { u with busy := false }).Inv :=
    ⟨inv.mem, setRf_wf inv.hub _ _ _ _⟩
  exact rg_raiseInt_other set 0 other

theorem rf_secDone (r : Nat) : (s.secDone r).rf Adr.SEC_STATUS 3 0 = r % 16 :=
  (rf_congr (rg_secDone inv r (by decide)) 3 0).trans (rf_setRf_self inv.hub _ r (by decide) (by decide))

end

/-! ### The mode commands (Table 15-4) -/

section
variable (takes : s.takes src Adr.SEC_CMD .wo = true) (idle : s.sec.busy = false)
include takes idle

theorem exec_modeSealed : exec (.modeSealed src) s = .next s.modeSealed :=
  congrArg Host.Outcome.next (secCmd_of_idle takes idle _)

theorem exec_modeShared : exec (.modeShared src) s = .next s.modeShared :=
  congrArg Host.Outcome.next (secCmd_of_idle takes idle _)

end

/-- The first condition of both mode commands, as they test it. -/
theorem unquiet_iff (s : State) :
    (!s.quiet || s.pwr.pstate == .saving) = true ↔ s.quiet = false ∨ s.pwr.pstate = .saving := by
  simp

theorem not_unquiet (quiet : s.quiet = true) (awake : s.pwr.pstate ≠ .saving) :
    ¬ (!s.quiet || s.pwr.pstate == .saving) = true := by
  simp [quiet, awake]

theorem modeSealed_of_not_shared (mode : s.sec.mode ≠ .shared) : s.modeSealed = s.secDone 2 := if_pos mode

theorem modeSealed_of_unquiet (mode : s.sec.mode = .shared) (unquiet : s.quiet = false ∨ s.pwr.pstate = .saving) :
    s.modeSealed = s.secDone 1 :=
  (if_neg (not_not.2 mode)).trans (if_pos ((unquiet_iff s).2 unquiet))

theorem modeSealed_of_image_bad (mode : s.sec.mode = .shared) (quiet : s.quiet = true)
    (awake : s.pwr.pstate ≠ .saving) (image : s.imageNo ≠ 1 ∨ s.sec.sealedOk = false) :
    s.modeSealed = s.secDone 3 :=
  (if_neg (not_not.2 mode)).trans ((if_neg (not_unquiet quiet awake)).trans (if_pos image))

theorem modeSealed_of_sound (mode : s.sec.mode = .shared) (quiet : s.quiet = true) (awake : s.pwr.pstate ≠ .saving)
    (image : s.imageNo = 1) (permits : s.sec.sealedOk = true) (unspent : s.rf Adr.FUSE_MODE_CHANGES 7 0 ≠ 255)
    (crypto : s.domOn 31 = true) (level : s.sec.dbg ≠ 2) : s.modeSealed = s.startFuse (.mode true) := by
  unfold State.modeSealed
  rw [if_neg (not_not.2 mode), if_neg (not_unquiet quiet awake), if_neg (by simp [image, permits]), if_neg unspent,
    if_neg (by simp [crypto]), if_neg level]

theorem modeShared_of_not_sealed (mode : s.sec.mode ≠ .sealed) : s.modeShared = s.secDone 2 := if_pos mode

theorem modeShared_of_unquiet (mode : s.sec.mode = .sealed) (unquiet : s.quiet = false ∨ s.pwr.pstate = .saving) :
    s.modeShared = s.secDone 1 :=
  (if_neg (not_not.2 mode)).trans (if_pos ((unquiet_iff s).2 unquiet))

theorem modeShared_of_sound (mode : s.sec.mode = .sealed) (quiet : s.quiet = true) (awake : s.pwr.pstate ≠ .saving)
    (unspent : s.rf Adr.FUSE_MODE_CHANGES 7 0 ≠ 255) : s.modeShared = s.startFuse (.mode false) := by
  unfold State.modeShared
  rw [if_neg (not_not.2 mode), if_neg (not_unquiet quiet awake), if_neg unspent]

/-! ### The programming of a fuse ends (R386) -/

theorem exec_fuseProgramDone_good (fuse : s.sec.fuse = some f) :
    exec (.fuseProgramDone true) s = .next (s.fuseDone f) := by
  change execFuseProgramDone true s = _
  simp only [execFuseProgramDone, fuse, if_true]

theorem exec_fuseProgramDone_failed (fuse : s.sec.fuse = some f) : exec (.fuseProgramDone false) s =
    .next ((s.modSec fun u => { u with fuse := none }).raiseFatal Err.sec_FUSE_FAULT 0 []) := by
  change execFuseProgramDone false s = _
  simp only [execFuseProgramDone, fuse, Bool.false_eq_true, if_false]

/-- The state in which a mode change has been counted and its scrub has begun, before the command's end is shown. -/
def State.modeCounted (b : Bool) (s : State) : State :=
  ((s.modSec fun u => { u with fuse := none }).setRg Adr.FUSE_MODE_CHANGES
    (w32 (s.rf Adr.FUSE_MODE_CHANGES 7 0 + 1))).scrubStart (if b then .sealing else .unsealing)

theorem exec_fuseProgramDone_mode (fuse : s.sec.fuse = some (.mode b)) :
    exec (.fuseProgramDone true) s = .next ((s.modeCounted b).secDone 0) :=
  exec_fuseProgramDone_good fuse

/-- The keys and the bindings are zeroised, and the mode is the one of the scrub. -/
theorem modeCounted_sec (s : State) (b : Bool) : (s.modeCounted b).sec =
    { s.sec with fuse := none, mode := if b then .sealing else .unsealing, keys := [], binds := [] } := by
  simp only [State.modeCounted, State.scrubStart, State.zeroise, State.barnOpen, State.setRg_sec, State.takeFree_sec,
    State.modMem_sec, State.modLink_sec, State.modSec_sec]

/-- The contents of the barn are undefined: a free value. -/
theorem modeCounted_mem (s : State) (b : Bool) : (s.modeCounted b).mem = { bg := some s.free } := by
  simp only [State.modeCounted, State.scrubStart, State.zeroise, State.barnOpen, State.setRg_mem, State.takeFree_mem,
    State.modMem_mem, State.modLink_free, State.modSec_free, State.setRg_free]

theorem scrubStart_hub (m : SecMode) (s : State) : (s.scrubStart m).hub = (s.setRg Adr.SEC_SCRUB_PROGRESS 0).hub := by
  simp only [State.scrubStart, State.barnOpen, State.zeroise, State.takeFree_hub, State.modMem_hub, State.modLink_hub,
    State.modSec_hub, State.setRg_hub]

theorem modeCounted_inv (inv : s.Inv) (b : Bool) : (s.modeCounted b).Inv := by
  refine ⟨rfl, ?_⟩
  rw [State.modeCounted, scrubStart_hub]
  exact setRg_wf (setRg_wf inv.hub _ _) _ _

theorem rg_modeCounted (inv : s.Inv) (b : Bool) :
    (s.modeCounted b).rg Adr.FUSE_MODE_CHANGES = w32 (s.rf Adr.FUSE_MODE_CHANGES 7 0 + 1) := by
  rw [State.modeCounted, rg_congr (congrArg Hub.regs (scrubStart_hub _ _)), rg_setRg_other _ _ _ _ (by decide)]
  exact rg_setRg_self (s.modSec _) _ _ inv.hub

theorem bits_w32_low (n : Nat) : bits (w32 n) 7 0 = n % 256 := by
  simp only [bits, nbits, w32, BitVec.toNat_ofNat, Nat.shiftRight_zero]
  omega

/-- The end of the command leaves the count. -/
theorem rf_modeChanges_done (inv : s.Inv) (b : Bool) : ((s.modeCounted b).secDone 0).rf Adr.FUSE_MODE_CHANGES 7 0 =
    (s.rf Adr.FUSE_MODE_CHANGES 7 0 + 1) % 256 := by
  have counted : ((s.modeCounted b).secDone 0).rg Adr.FUSE_MODE_CHANGES = w32 (s.rf Adr.FUSE_MODE_CHANGES 7 0 + 1) :=
    (rg_secDone (modeCounted_inv inv b) 0 (by decide)).trans
      ((rg_setRf_other _ _ _ _ (by decide)).trans (rg_modeCounted inv b))
  rw [State.rf, counted, bits_w32_low]

/-! ### The scrub (R390) -/

theorem clear_cons {α : Type} (e : Nat × α) (t : Tbl α) (a b : Nat) :
    Tbl.clear (e :: t) a b = if a ≤ e.1 ∧ e.1 < b then t.clear a b else e :: t.clear a b := by
  simp only [Tbl.clear, List.filter_cons, ← Bool.decide_and, ← decide_not, decide_eq_true_eq, ite_not]

/-- A cleared range reads as the default; other entries stay. -/
theorem get_clear {α : Type} [Inhabited α] (t : Tbl α) (a b k : Nat) :
    (t.clear a b).get k = if a ≤ k ∧ k < b then default else t.get k := by
  induction t with
  | nil => exact (ite_self default).symm
  | cons e t ih =>
    rw [clear_cons]
    by_cases key : e.1 = k
    · subst key
      split
      next inside => rw [ih, if_pos inside]
      next => rw [tbl_get_cons, if_pos rfl, tbl_get_cons, if_pos rfl]
    · rw [tbl_get_cons, if_neg key, ← ih]
      split
      · rfl
      · rw [tbl_get_cons, if_neg key]

/-- Byte `i` lies in the hayloft of tile `i / 2 ^ 26`. -/
theorem haylOf_get (s : State) (n i : Nat) :
    (s.haylOf n).tile.hl.get i = if i / 2 ^ 26 = n then 0 else s.tile.hl.get i := by
  have inside : i / 2 ^ 26 = n ↔ n * 2 ^ 26 ≤ i ∧ i < (n + 1) * 2 ^ 26 := by omega
  simp only [inside]
  exact get_clear _ _ _ _

/-- After the haylofts of the tiles in `l` are zeroed, a byte in one of them, or one that was zero, is zero. -/
theorem haylOf_foldl_get (l : List Nat) (s : State) (i : Nat) (zero : i / 2 ^ 26 ∈ l ∨ s.tile.hl.get i = 0) :
    (l.foldl (fun s t => s.haylOf t) s).tile.hl.get i = 0 := by
  induction l generalizing s with
  | nil => exact zero.resolve_left List.not_mem_nil
  | cons n l ih =>
    refine ih (s.haylOf n) ?_
    rw [haylOf_get, List.mem_cons] at *
    by_cases here : i / 2 ^ 26 = n
    · exact .inr (if_pos here)
    · exact zero.imp (·.resolve_left here) (if_neg here).trans

/-- The state in which the scrub has zeroed what is on and the mode is reached, before the interrupt. -/
def State.scrubbed (s : State) : State :=
  ((((List.range 8).foldl (fun s t => s.haylOf t) s).barnZero).setRg Adr.SEC_SCRUB_PROGRESS 1000).modSec fun u =>
    { u with mode := if u.mode == .sealing then .sealed else .shared }

theorem scrubbed_sec (s : State) :
    s.scrubbed.sec = { s.sec with mode := if s.sec.mode = .sealing then .sealed else .shared } := by
  have kept : ((List.range 8).foldl (fun s t => s.haylOf t) s).sec = s.sec :=
    foldl_reads State.sec (f := fun s t => s.haylOf t) (fun _ _ => rfl) _ s
  simp only [State.scrubbed, State.modSec_sec, State.setRg_sec, State.barnZero, State.modMem_sec, kept, beq_iff_eq]

theorem exec_scrubDone_on (scrubs : s.sec.mode = .sealing ∨ s.sec.mode = .unsealing) (on : s.barnOn = true) :
    exec .scrubDone s = .next (s.scrubbed.raiseInt .sec 0 1) := by
  have kept : ((List.range 8).foldl (fun s t => s.haylOf t) s).barnOn = true :=
    (foldl_reads State.barnOn (f := fun s t => s.haylOf t) (fun _ _ => rfl) _ s).trans on
  change execScrubDone s = _
  rcases scrubs with mode | mode
  · simp only [execScrubDone, mode, kept, if_true, State.scrubbed]
  · simp only [execScrubDone, mode, kept, if_true, State.scrubbed]

/-- Settles O47, one lemma for each outcome of a mode command, for each end of a programming and for the end of the scrub.
The order of the refusals, the end of BUSY, and that the barn is undefined until the scrub is done are the model's choices
(log 46); what undefined contents read as is a free value (log 1, 5). -/
theorem modeChange : Obligations.ModeChange := by
  refine ⟨fun s src takes idle mode quiet awake image permits unspent crypto level => ?_,
    fun s src takes idle => ⟨fun mode => ?_, fun mode unquiet => ?_, fun mode quiet awake image => ?_, fun mode => ?_,
      fun mode unquiet => ?_⟩,
    fun s src takes idle mode quiet awake unspent => ?_, fun s b inv fuse => ?_,
    fun s f fuse => exec_fuseProgramDone_failed fuse, fun s scrubs on => ?_⟩
  · refine ⟨_, exec_modeSealed takes idle, ?_⟩
    rw [modeSealed_of_sound mode quiet awake image permits unspent crypto level]
    exact ⟨rfl, rfl⟩
  · rw [exec_modeSealed takes idle, modeSealed_of_not_shared mode]
  · rw [exec_modeSealed takes idle, modeSealed_of_unquiet mode unquiet]
  · rw [exec_modeSealed takes idle, modeSealed_of_image_bad mode quiet awake image]
  · rw [exec_modeShared takes idle, modeShared_of_not_sealed mode]
  · rw [exec_modeShared takes idle, modeShared_of_unquiet mode unquiet]
  · rw [exec_modeShared takes idle, modeShared_of_sound mode quiet awake unspent]
  · refine ⟨_, exec_fuseProgramDone_mode fuse, ?_, ?_, rf_modeChanges_done inv b,
      rf_secDone (modeCounted_inv inv b) 0⟩
    · rw [secDone_sec, modeCounted_sec]
    · rw [secDone_mem, modeCounted_mem]
  · have trace := traceOfInt_raiseInt s.scrubbed .sec 0 1
    refine ⟨_, exec_scrubDone_on scrubs on, trace.mem, trace.sec.trans (scrubbed_sec s), fun i inside => ?_⟩
    rw [raiseInt_tile]
    exact haylOf_foldl_get (List.range 8) s i (.inl (List.mem_range.2 (by omega)))

end

end Sys2Proof.Machine
end

section
/-! PROOFS. Debug tokens, fuses of debug and of a fresh part, and JTAG (R386, R404, R405, Table 15-8). -/

namespace Sys2Proof.Machine
open Sys2Proof

section
variable {s : State} {src : Source} {v : Word} {i : Jtag}

/-! ### Tokens (R405) -/

section
variable (takes : s.takes src Adr.SEC_CMD .wo = true) (idle : s.sec.busy = false)
include takes idle

theorem exec_dbgApply : exec (.dbgApply src) s = .next s.dbgApply :=
  congrArg Host.Outcome.next (secCmd_of_idle takes idle _)

theorem exec_dbgEnd : exec (.dbgEnd src) s = .next s.dbgEnd :=
  congrArg Host.Outcome.next (secCmd_of_idle takes idle _)

theorem exec_dbgEpochAdvance : exec (.dbgEpochAdvance src) s = .next s.epochAdvance :=
  congrArg Host.Outcome.next (secCmd_of_idle takes idle _)

end

theorem nbits_lt (x hi lo : Nat) : nbits x hi lo < 2 ^ (hi + 1 - lo) := Nat.mod_lt _ (Nat.two_pow_pos _)

/-- What DBG_APPLY refuses with REJECT 7: LEVEL has two bits, so 1 and 2 are the levels left. -/
theorem token_refused_iff (s : State) (t : List Byte) : (!s.tokenGood t || tokLevel t == 0 || tokLevel t == 3) = true ↔
    ¬ (s.tokenGood t = true ∧ (tokLevel t = 1 ∨ tokLevel t = 2)) := by
  have level : tokLevel t < 4 := nbits_lt _ 1 0
  cases s.tokenGood t
  · simp
  · simp only [Bool.not_true, Bool.false_or, Bool.or_eq_true, beq_iff_eq, true_and]
    omega

/-- What DBG_EPOCH_ADVANCE refuses with REJECT 7: a bad token, or one that does not ask for it. -/
theorem epochToken_refused_iff (s : State) (t : List Byte) :
    (!s.tokenGood t || nbits (tokAt t 4 1) 7 7 == 0) = true ↔
      ¬ (s.tokenGood t = true ∧ nbits (tokAt t 4 1) 7 7 = 1) := by
  have one : nbits (tokAt t 4 1) 7 7 < 2 := nbits_lt _ 7 7
  cases s.tokenGood t
  · simp
  · simp only [Bool.not_true, Bool.false_or, beq_iff_eq, true_and]
    omega

section
variable (settled : s.sec.mode = .shared ∨ s.sec.mode = .sealed) (awake : s.pwr.pstate ≠ .saving)
include settled awake

theorem dbgApply_of_settled : s.dbgApply =
    if !s.domOn 31 then s.modSec fun u => { u with busy := true, waitOp := some 3 }
    else if !s.tokenGood s.token || tokLevel s.token == 0 || tokLevel s.token == 3 then s.tokenRefused 7
    else if tokLevel s.token = 2 ∧ s.sec.mode = .sealed then s.tokenRefused 6
    else ((s.setLevel (tokLevel s.token)).newNonce).secDone 0 := by
  have changing : ¬ (s.sec.mode = .sealing ∨ s.sec.mode = .unsealing) := by
    rcases settled with mode | mode <;> simp [mode]
  unfold State.dbgApply
  exact (if_neg changing).trans (if_neg awake)

theorem dbgApply_crypto_on (crypto : s.domOn 31 = true) : s.dbgApply =
    if s.tokenGood s.token = true ∧ (tokLevel s.token = 1 ∨ tokLevel s.token = 2) then
      (if tokLevel s.token = 2 ∧ s.sec.mode = .sealed then s.tokenRefused 6
        else ((s.setLevel (tokLevel s.token)).newNonce).secDone 0)
    else s.tokenRefused 7 := by
  rw [dbgApply_of_settled settled awake, if_neg (by simp [crypto])]
  simp only [token_refused_iff, ite_not]

theorem dbgApply_crypto_off (crypto : s.domOn 31 = false) :
    s.dbgApply = s.modSec fun u => { u with busy := true, waitOp := some 3 } := by
  rw [dbgApply_of_settled settled awake, if_pos (by simp [crypto])]

end

theorem epochAdvance_crypto_on (awake : s.pwr.pstate ≠ .saving) (crypto : s.domOn 31 = true) : s.epochAdvance =
    if s.tokenGood s.token = true ∧ nbits (tokAt s.token 4 1) 7 7 = 1 then
      (if s.rf Adr.FUSE_DBG_EPOCH 4 0 = 31 then s.fuseSpent else s.startFuse .epoch)
    else s.tokenRefused 7 := by
  unfold State.epochAdvance
  rw [if_neg awake, if_neg (by simp [crypto])]
  simp only [epochToken_refused_iff, ite_not]

/-- A new nonce is written to its four registers and takes a free value. -/
theorem newNonce_sec (s : State) : s.newNonce.sec = s.sec := by
  unfold State.newNonce
  exact (State.takeFree_sec _).trans (foldl_reads State.sec (fun t i => t.setRg_sec _ _) (List.range 4) s)

theorem accepted_dbg (s : State) (l : Nat) : (((s.setLevel l).newNonce).secDone 0).sec.dbg = l := by
  rw [secDone_sec, newNonce_sec]
  rfl

theorem dbgEnd_of_awake (awake : s.pwr.pstate ≠ .saving) : s.dbgEnd = (s.setLevel 0).secDone 0 := if_neg awake

/-! ### A fresh part (R386, Table 15-2) -/

theorem exec_provisionBurn_fresh (takes : s.takes src Adr.FUSE_PROVISION .wo = true) (burn : bit v 0 = true)
    (fresh : bit (s.rg Adr.FUSE_FUSE_STATUS) 0 = false) (mode : s.sec.mode = .shared) (level : s.sec.dbg = 0)
    (idle : s.sec.fuse = none) :
    exec (.provisionBurn src v) s = .next (s.modSec fun u => { u with fuse := some .provision }) := by
  have burns : s.burn = s.modSec fun u => { u with fuse := some .provision } :=
    if_neg (by simp [fresh, mode, level, idle])
  exact congrArg Host.Outcome.next ((guarded_of_takes _ takes).trans ((if_pos burn).trans burns))

theorem rg_fuseDone_provision (inv : s.Inv) : (s.fuseDone .provision).rg Adr.FUSE_FUSE_STATUS = 1 :=
  rg_setRg_self _ _ _ inv.hub

/-! ### JTAG (Table 15-8) -/

/-- The instructions that select and shift nothing out. -/
def jtagSelects : List (Instr × Jtag) :=
  [(.jtagBypass, .bypass), (.jtagExtest, .extest), (.jtagExtestPulse, .extestPulse), (.jtagExtestTrain, .extestTrain)]

/-- The instructions that shift a free value out. -/
def jtagReads : List (Instr × Jtag) :=
  [(.jtagIdcode, .idcode), (.jtagSamplePreload, .samplePreload), (.jtagInternalScan, .internalScan)]

theorem exec_jtagSelects (s : State) : ∀ r ∈ jtagSelects, exec r.1 s = .next (s.jtagSelect r.2).2 := by
  simp only [jtagSelects, List.forall_mem_cons]
  exact ⟨rfl, rfl, rfl, rfl, List.forall_mem_nil _⟩

theorem exec_jtagReads (s : State) : ∀ r ∈ jtagReads, exec r.1 s = .next (s.jtagRead r.2) := by
  simp only [jtagReads, List.forall_mem_cons]
  exact ⟨rfl, rfl, rfl, List.forall_mem_nil _⟩

theorem jtagReads_ne_bypass : ∀ r ∈ jtagReads, r.2 ≠ .bypass := by decide

/-- An instruction that is taken shifts a free value out; BYPASS in its place does not. -/
theorem jtagRead_eq (s : State) (other : i ≠ .bypass) :
    s.jtagRead i = if jtagOk s.sec.dbg i && s.pwr.pstate != .saving
      then State.takeFree (State.emit (.jtagOut s.freeVal) (s.modSec fun u => { u with jtag := i }))
      else s.modSec fun u => { u with jtag := .bypass } := by
  unfold State.jtagRead State.jtagSelect
  by_cases permitted : (jtagOk s.sec.dbg i && s.pwr.pstate != .saving) = true
  · simp only [if_pos permitted, if_true]
    rfl
  · simp only [if_neg permitted, if_neg other.symm]

/-- DBG_TOKEN is permitted at every level. -/
theorem exec_jtagDbgToken_awake (k : List Byte) (awake : s.pwr.pstate ≠ .saving) (live : s.live = true) :
    exec (.jtagDbgToken k) s = .next ((List.range 64).foldl
      (fun u i => u.setRg (Adr.SEC_DBG_TOKEN i) (w32 (tokAt k (4 * i) 4)))
      (s.modSec fun u => { u with jtag := .dbgToken })) := by
  have selected : s.jtagSelect .dbgToken = (.dbgToken, s.modSec fun u => { u with jtag := .dbgToken }) := by
    have permitted : (jtagOk s.sec.dbg .dbgToken && s.pwr.pstate != .saving) = true := by simp [jtagOk, awake]
    simp only [State.jtagSelect, if_pos permitted]
  change execJtagDbgToken k s = _
  unfold execJtagDbgToken
  rw [selected]
  exact congrArg Host.Outcome.next (if_pos ⟨rfl, live⟩)

/-- Settles O48, one lemma for each debug command, for the burn of a fresh part and for each kind of JTAG instruction.
The order of a token's refusals is the model's choice (log 46), as is BYPASS for an instruction that is not permitted
(log 48). -/
theorem debugAccess : Obligations.DebugAccess := by
  refine ⟨fun s src takes idle settled awake crypto => ?_, accepted_dbg,
    fun s src takes idle settled awake crypto => ?_, fun s src takes idle awake => ?_,
    fun s src takes idle awake crypto => ?_,
    fun s src v takes burn fresh mode level idle => exec_provisionBurn_fresh takes burn fresh mode level idle,
    fun s inv fuse => ⟨_, exec_fuseProgramDone_good fuse, rfl, rg_fuseDone_provision inv⟩,
    exec_jtagSelects, fun s r mem => ?_, fun s k awake live => exec_jtagDbgToken_awake k awake live⟩
  · rw [exec_dbgApply takes idle, dbgApply_crypto_on settled awake crypto]
  · rw [exec_dbgApply takes idle, dbgApply_crypto_off settled awake crypto]
  · rw [Runs, exec_dbgEnd takes idle, dbgEnd_of_awake awake]
    exact ⟨_, rfl, rfl, by rw [secDone_sec]; rfl⟩
  · rw [exec_dbgEpochAdvance takes idle, epochAdvance_crypto_on awake crypto]
  · rw [exec_jtagReads s r mem, jtagRead_eq s (jtagReads_ne_bypass r mem)]

end

end Sys2Proof.Machine
end

section
/-! PROOFS. The SPDM responder (R391 to R393). -/

namespace Sys2Proof.Machine
open Sys2Proof

section
variable {s : State} {i n : Nat} {x : Session}

/-! ### Who is answered -/

/-- The responder answers a request by its meaning: the core runs, nothing is being saved, and CRYPTO is on. -/
structure State.Responds (s : State) : Prop where
  live : s.live = true
  awake : s.pwr.pstate ≠ .saving
  crypto : s.domOn 31 = true

/-- The responder answers, and session `i` is established as `x`. -/
structure State.Established (s : State) (i : Nat) (x : Session) : Prop extends s.Responds where
  held : s.sec.sessions.get i = some x
  up : x.up = true

theorem spdm_of_awake (live : s.live = true) (awake : s.pwr.pstate ≠ .saving) (act : State → State) :
    s.spdm act = if !s.domOn 31 then s.emit (.spdm (.error 3)) else act s :=
  if_neg (by simp [live, awake])

theorem spdm_of_responds (responds : s.Responds) (act : State → State) : s.spdm act = act s :=
  (spdm_of_awake responds.live responds.awake act).trans (if_neg (by simp [responds.crypto]))

theorem spdm_of_crypto_off (live : s.live = true) (awake : s.pwr.pstate ≠ .saving) (crypto : s.domOn 31 = false)
    (act : State → State) : s.spdm act = s.emit (.spdm (.error 3)) :=
  (spdm_of_awake live awake act).trans (if_pos (by simp [crypto]))

theorem spdmAfter_of_reached (responds : s.Responds) (reached : n ≤ s.sec.negotiated) (act : State → State) :
    s.spdmAfter n act = act s :=
  (spdm_of_responds responds _).trans (if_neg (Nat.not_lt.2 reached))

theorem inSession_of_established (session : s.Established i x) (act : Session → State → State) :
    s.inSession i act = act x s := by
  unfold State.inSession
  rw [spdm_of_responds session.toResponds, session.held]
  exact if_pos session.up

/-! ### Negotiation, and what needs no session (R391, R392) -/

theorem exec_getVersion (responds : s.Responds) :
    exec .getVersion s = .next (State.emit (.spdm .version) (s.modSec fun u => { u with negotiated := 1 })) :=
  congrArg Host.Outcome.next (spdm_of_responds responds _)

theorem exec_getCapabilities (responds : s.Responds) (reached : 1 ≤ s.sec.negotiated) : exec .getCapabilities s =
    .next (State.emit (.spdm .capabilities) (s.modSec fun u => { u with negotiated := max 2 u.negotiated })) :=
  congrArg Host.Outcome.next (spdmAfter_of_reached responds reached _)

theorem exec_negotiateAlgorithms (responds : s.Responds) (reached : 2 ≤ s.sec.negotiated) :
    exec .negotiateAlgorithms s =
      .next (State.emit (.spdm .algorithms) (s.modSec fun u => { u with negotiated := 3 })) :=
  congrArg Host.Outcome.next (spdmAfter_of_reached responds reached _)

section
variable (responds : s.Responds) (negotiated : 3 ≤ s.sec.negotiated)
include responds negotiated

theorem exec_attestation :
    ∀ r ∈ [(Instr.getDigests, SpdmRsp.digests), (.getCertificate, .certificate), (.challenge, .challengeAuth)],
      exec r.1 s = .next (s.emit (.spdm r.2)) := by
  have answered (act : State → State) : Host.Outcome.next (s.spdmAfter 3 act) = .next (act s) :=
    congrArg (Host.Outcome.next (φ := Fault) (ρ := Refusal)) (spdmAfter_of_reached responds negotiated act)
  simp only [List.forall_mem_cons]
  exact ⟨answered _, answered _, answered _, List.forall_mem_nil _⟩

/-! ### Sessions (R391, R393) -/

/-- The first session that is free is taken. -/
theorem exec_keyExchange_free (inside : i < 4) (free : s.sec.sessions.get i = none)
    (held : ∀ j, j < i → s.sec.sessions.get j ≠ none) :
    exec .keyExchange s = .next (State.emit (.spdm (.keyExchange i)) (s.setSession i (some {}))) := by
  have least : (leastBelow 4 fun i => (s.sec.sessions.get i).isNone) = some i := by
    refine List.find?_range_eq_some.2 ⟨by simp [free], List.mem_range.2 inside, fun j below => ?_⟩
    simpa using Option.ne_none_iff_isSome.1 (held j below)
  change execKeyExchange s = _
  rw [execKeyExchange, spdmAfter_of_reached responds negotiated, least]

theorem exec_keyExchange_full (held : ∀ j, j < 4 → s.sec.sessions.get j ≠ none) :
    exec .keyExchange s = .next (s.emit (.spdm (.error 0x0A))) := by
  have full : (leastBelow 4 fun i => (s.sec.sessions.get i).isNone) = none := by
    refine List.find?_range_eq_none.2 fun j below => ?_
    simpa using Option.ne_none_iff_isSome.1 (held j below)
  change execKeyExchange s = _
  rw [execKeyExchange, spdmAfter_of_reached responds negotiated, full]

end

theorem exec_finish_pending (responds : s.Responds) (held : s.sec.sessions.get i = some x) (pending : x.up = false)
    (r : Option Nat) : exec (.finish i r) s = .next (State.emit (.spdm (.finish i))
      (s.setSession i (some { x with up := true, owner := s.imageNo == 1 && r == some s.sec.ksRoot }))) := by
  change execFinish i r s = _
  rw [execFinish, spdm_of_responds responds, held]
  exact congrArg Host.Outcome.next (if_neg (by simp [pending]))

theorem exec_keyUpdate (session : s.Established i x) : exec (.keyUpdate i) s =
    .next (State.emit (.spdm (.keyUpdateAck i)) (s.setSession i (some { x with keyGen := x.keyGen + 1 }))) :=
  congrArg Host.Outcome.next (inSession_of_established session _)

theorem exec_heartbeat (session : s.Established i x) : exec (.heartbeat i) s = .next (s.emit (.spdm (.heartbeatAck i))) :=
  congrArg Host.Outcome.next (inSession_of_established session _)

theorem exec_endSession (session : s.Established i x) :
    exec (.endSession i) s = .next (State.emit (.spdm (.endSessionAck i)) (s.setSession i none)) :=
  congrArg Host.Outcome.next (inSession_of_established session _)

/-! ### While CRYPTO is off (Table 15-10) -/

theorem exec_spdm_crypto_off (live : s.live = true) (awake : s.pwr.pstate ≠ .saving) (crypto : s.domOn 31 = false) :
    ∀ c ∈ [Instr.getVersion, .getDigests, .challenge, .keyExchange],
      exec c s = .next (s.emit (.spdm (.error 3))) := by
  have busy (act : State → State) : Host.Outcome.next (s.spdm act) = .next (s.emit (.spdm (.error 3))) :=
    congrArg (Host.Outcome.next (φ := Fault) (ρ := Refusal)) (spdm_of_crypto_off live awake crypto act)
  simp only [List.forall_mem_cons]
  exact ⟨busy _, busy _, busy _, busy _, List.forall_mem_nil _⟩

/-- Settles O49, one lemma for each request. Their order and their error codes are those of the standards (log 47). -/
theorem spdmResponder : Obligations.SpdmResponder := by
  refine ⟨fun s live awake crypto => ?_, fun s live awake crypto => exec_spdm_crypto_off live awake crypto⟩
  have responds : s.Responds := ⟨live, awake, crypto⟩
  refine ⟨exec_getVersion responds, exec_getCapabilities responds, exec_negotiateAlgorithms responds,
    exec_attestation responds,
    fun negotiated i inside free held => exec_keyExchange_free responds negotiated inside free held,
    exec_keyExchange_full responds, fun i r x held pending => exec_finish_pending responds held pending r,
    fun i x held up => ?_⟩
  have session : s.Established i x := ⟨responds, held, up⟩
  exact ⟨exec_keyUpdate session, exec_heartbeat session, exec_endSession session⟩

end

end Sys2Proof.Machine
end

section
/-! PROOFS. Key service messages (R394, R395, Table 15-7). -/

namespace Sys2Proof.Machine
open Sys2Proof

section
variable {s : State} {i g f d w k p : Nat} {x : Session}

/-- A key message of an established session in SEALED is acted on. -/
theorem keyMsg_of_sealed (session : s.Established i x) (mode : s.sec.mode = .sealed) (code : Nat)
    (act : State → State) : s.keyMsg i code act = act s :=
  (inSession_of_established session _).trans (if_pos (beq_iff_eq.2 mode))

theorem keyMsg_of_not_sealed (session : s.Established i x) (mode : s.sec.mode ≠ .sealed) (code : Nat)
    (act : State → State) : s.keyMsg i code act = s.keyRsp i code 2 0 :=
  (inSession_of_established session _).trans (if_neg (mt beq_iff_eq.1 mode))

/-- A proof is good when it is the HMAC of the message under the key of the group (R394). -/
theorem not_refused_of_hmac {msg : List Byte} (key : s.sec.keys.get g = some k)
    (proof : (Config.hmac384 k msg).toNat = w) : ¬ (!s.proofOk g msg w) = true := by
  simp [State.proofOk, key, proof]

/-! ### What each message does (Table 15-7) -/

theorem keyLoad_of_free (free : s.sec.keys.get g = none) (differ : k % 2 ^ 256 ≠ k / 2 ^ 256) :
    s.keyLoad i g k = State.emit (.spdm (.key i 1 0 (keyCheck k)))
      (s.modSec fun u => { u with keys := u.keys.set g (some k) }) := by
  unfold State.keyLoad
  rw [if_neg (by simp [free]), if_neg differ]
  rfl

theorem keyBind_of_proved (job : f < 2 ^ 20) (key : s.sec.keys.get g = some k)
    (proof : (Config.hmac384 k (leBytes 1 2 ++ leBytes 1 g ++ leBytes 3 f ++ leBytes 48 d)).toNat = w)
    (unbound : s.sec.binds.get f = none) (room : s.sec.binds.length < 1024) :
    s.keyBind i g f d w = State.emit (.spdm (.key i 2 0 0))
      (s.modSec fun u => { u with binds := u.binds.set f (some (g, d)) }) := by
  unfold State.keyBind
  rw [if_neg (by simp [key]), if_neg (not_refused_of_hmac key proof), if_neg (Nat.not_le.2 job),
    if_neg (by simp [unbound]), if_neg (Nat.not_le.2 room)]
  rfl

theorem keyUnbind_of_proved (key : s.sec.keys.get g = some k)
    (proof : (Config.hmac384 k (leBytes 1 3 ++ leBytes 1 g ++ leBytes 3 f)).toNat = w)
    (bound : s.sec.binds.get f = some (g, d)) :
    s.keyUnbind i g f w = if (s.slotOf f).isSome then s.emit (.spdm (.key i 3 7 0))
      else State.emit (.spdm (.key i 3 0 0)) (s.modSec fun u => { u with binds := u.binds.set f none }) := by
  unfold State.keyUnbind
  rw [if_neg (not_refused_of_hmac key proof), if_neg (by simp [bound])]
  rfl

theorem keyClear_of_proved (key : s.sec.keys.get g = some k)
    (proof : (Config.hmac384 k (leBytes 1 4 ++ leBytes 1 g)).toNat = w) :
    s.keyClear i g w = State.emit (.spdm (.key i 4 0 0)) (State.keyCleared
      ((s.sec.binds.filter fun e => (e.2.map (·.1)) == some g).map (·.1)) (s.modSec fun u => { u with
        keys := u.keys.set g none, binds := u.binds.keep fun _ b => (b.map (·.1)) != some g })) := by
  unfold State.keyClear
  rw [if_neg (not_refused_of_hmac key proof)]
  rfl

/-! ### The commands: groups have 8 bits, job identifiers 24, digests 384 and key pairs 512 -/

section
variable (session : s.Established i x) (mode : s.sec.mode = .sealed) (group : g < 256)
include session mode group

theorem exec_keyLoad (pair : k < 2 ^ 512) : exec (.keyLoad i g k) s = .next (s.keyLoad i g k) := by
  change execKeyLoad i g k s = _
  rw [execKeyLoad, keyMsg_of_sealed session mode, Nat.mod_eq_of_lt group, Nat.mod_eq_of_lt pair]

theorem exec_keyBind (job : f < 2 ^ 24) (digest : d < 2 ^ 384) :
    exec (.keyBind i g f d w) s = .next (s.keyBind i g f d w) := by
  change execKeyBind i g f d w s = _
  rw [execKeyBind, keyMsg_of_sealed session mode, Nat.mod_eq_of_lt group, Nat.mod_eq_of_lt job, Nat.mod_eq_of_lt digest]

theorem exec_keyUnbind (job : f < 2 ^ 24) : exec (.keyUnbind i g f w) s = .next (s.keyUnbind i g f w) := by
  change execKeyUnbind i g f w s = _
  rw [execKeyUnbind, keyMsg_of_sealed session mode, Nat.mod_eq_of_lt group, Nat.mod_eq_of_lt job]

theorem exec_keyClear : exec (.keyClear i g w) s = .next (s.keyClear i g w) := by
  change execKeyClear i g w s = _
  rw [execKeyClear, keyMsg_of_sealed session mode, Nat.mod_eq_of_lt group]

end

section
variable (session : s.Established i x)
include session

theorem exec_keyMsg_not_sealed (mode : s.sec.mode ≠ .sealed) :
    ∀ r ∈ [(Instr.keyLoad i g k, 1), (.keyBind i g f d w, 2), (.keyUnbind i g f w, 3), (.keyClear i g w, 4)],
      exec r.1 s = .next (s.emit (.spdm (.key i r.2 2 0))) := by
  have refused (code : Nat) (act : State → State) :
      Host.Outcome.next (s.keyMsg i code act) = .next (s.emit (.spdm (.key i code 2 0))) :=
    congrArg (Host.Outcome.next (φ := Fault) (ρ := Refusal)) (keyMsg_of_not_sealed session mode code act)
  simp only [List.forall_mem_cons]
  exact ⟨refused 1 _, refused 2 _, refused 3 _, refused 4 _, List.forall_mem_nil _⟩

theorem exec_linkKey_owner (owner : x.owner = true) (port : s.portExists p = true) (tx rx : Nat) :
    exec (.linkKey i p tx rx) s =
      .next (State.emit (.spdm (.key i 0x10 0 0)) (s.modPort p fun q => { q with linkKey := some (tx, rx) })) := by
  change execLinkKey i p tx rx s = _
  rw [execLinkKey, inSession_of_established session, if_neg (by simp [owner]), if_neg (by simp [port])]
  rfl

theorem exec_linkKey_other (other : x.owner = false) (tx rx : Nat) :
    exec (.linkKey i p tx rx) s = .next (s.emit (.spdm (.key i 0x10 6 0))) := by
  change execLinkKey i p tx rx s = _
  rw [execLinkKey, inSession_of_established session, if_pos (by simp [other])]
  rfl

end

/-- Settles O50, one lemma for each message in SEALED, for those outside SEALED and for LINK_KEY. -/
theorem keyMessages : Obligations.KeyMessages := by
  refine ⟨fun s i x g k live awake crypto held up mode group pair free differ => ?_,
    fun s i x g f d w k live awake crypto held up mode group job digest key proof unbound room => ?_,
    fun s i x g f d w k live awake crypto held up mode group job key proof bound => ?_,
    fun s i x g w k live awake crypto held up mode group key proof => ?_,
    fun s i x g f d w k live awake crypto held up mode =>
      exec_keyMsg_not_sealed ⟨⟨live, awake, crypto⟩, held, up⟩ mode,
    fun s i x p tx rx live awake crypto held up owner port =>
      exec_linkKey_owner ⟨⟨live, awake, crypto⟩, held, up⟩ owner port tx rx,
    fun s i x p tx rx live awake crypto held up other =>
      exec_linkKey_other ⟨⟨live, awake, crypto⟩, held, up⟩ other tx rx⟩
  · have session : s.Established i x := ⟨⟨live, awake, crypto⟩, held, up⟩
    rw [exec_keyLoad session mode group pair, keyLoad_of_free free differ]
  · have session : s.Established i x := ⟨⟨live, awake, crypto⟩, held, up⟩
    rw [exec_keyBind session mode group (job.trans (by decide)) digest, keyBind_of_proved job key proof unbound room]
  · have session : s.Established i x := ⟨⟨live, awake, crypto⟩, held, up⟩
    rw [exec_keyUnbind session mode group job, keyUnbind_of_proved key proof bound]
  · have session : s.Established i x := ⟨⟨live, awake, crypto⟩, held, up⟩
    rw [exec_keyClear session mode group, keyClear_of_proved key proof]

end

end Sys2Proof.Machine
end

section
/-! PROOFS. IDE key management and TDISP (R403, R414). -/

namespace Sys2Proof.Machine
open Sys2Proof

section
variable {s : State} {i n e d b v j : Nat} {x : Session}

/-! ### IDE_KM -/

theorem ideOk_of_lt (stream : n < 9) (set : e < 2) (dir : d < 2) (sub : b < 3) : ideOk n e d b = true := by
  simp [ideOk, stream, set, dir, sub]

section
variable (session : s.Established i x)
include session

theorem exec_ideKmQuery : exec (.ideKmQuery i) s = .next (s.emit (.spdm (.ideQuery 9))) :=
  congrArg Host.Outcome.next (inSession_of_established session _)

section
variable (exists_ : ideOk n e d b = true)
include exists_

theorem exec_ideKmKeyProg (k : Nat) : exec (.ideKmKeyProg i n e d b k) s =
    .next (State.emit (.spdm (.ideKpAck 0)) (s.modSec fun u => { u with ide := u.ide.modify n fun y =>
      { y with keys := y.keys.set (12 * e + 6 * d + b) (some k) } })) := by
  change execIdeKmKeyProg i n e d b k s = _
  rw [execIdeKmKeyProg, inSession_of_established session, if_neg (by simp [exists_])]

theorem exec_ideKmKSetGo_ready (key : ((s.sec.ide.get n).keys.get (12 * e + 6 * d + b)).isSome = true) :
    exec (.ideKmKSetGo i n e d b) s =
      .next (State.emit (.spdm .ideGoStopAck) (s.modSec fun u => { u with ide := u.ide.modify n fun y =>
        { y with use_ := y.use_.set (6 * d + b) (e + 1) } })) := by
  change execIdeKmKSetGo i n e d b s = _
  rw [execIdeKmKSetGo, inSession_of_established session]
  dsimp only
  rw [if_pos (by rw [exists_, key]; rfl)]

theorem exec_ideKmKSetStop : exec (.ideKmKSetStop i n e d b) s =
    .next (State.emit (.spdm .ideGoStopAck) (s.modSec fun u => { u with
      ide := u.ide.modify n fun y => y.stop e (6 * d + b) })) := by
  change execIdeKmKSetStop i n e d b s = _
  rw [execIdeKmKSetStop, inSession_of_established session, if_pos exists_]

end

/-! ### TDISP of an enabled VF -/

section
variable (on : s.vfOn v = true)
include on

theorem tdisp_of_on (act : State → State) : s.tdisp i v act = act s :=
  (inSession_of_established session _).trans (if_pos on)

theorem exec_lockInterface_unlocked (unlocked : (s.fn v).tdisp = .unlocked) :
    exec (.lockInterface i v) s = .next (State.takeFree (State.emit (.spdm (.tdisp 1 v [s.freeVal]))
      (s.modFn v fun y => { y with tdisp := .locked, nonce := s.freeVal }))) := by
  change execLockInterface i v s = _
  rw [execLockInterface, tdisp_of_on session on, if_pos unlocked]

theorem exec_startInterface_locked (locked : (s.fn v).tdisp = .locked) :
    exec (.startInterface i v (s.fn v).nonce) s = .next (State.emit (.spdm (.tdisp 5 v []))
      (s.modFn v fun y => { y with tdisp := .run, nonce := 0 })) := by
  change execStartInterface i v _ s = _
  rw [execStartInterface, tdisp_of_on session on, if_pos ⟨locked, rfl⟩]

theorem exec_startInterface_refused (refused : (s.fn v).tdisp ≠ .locked ∨ (s.fn v).nonce ≠ n) :
    exec (.startInterface i v n) s = .next (s.emit (.spdm (.tdispError v))) := by
  change execStartInterface i v n s = _
  rw [execStartInterface, tdisp_of_on session on, if_neg (not_and_or.2 refused)]

theorem exec_stopInterface : exec (.stopInterface i v) s = .next (State.emit (.spdm (.tdisp 6 v []))
    (s.modFn v fun y => { y with tdisp := .unlocked, nonce := 0 })) :=
  congrArg Host.Outcome.next (tdisp_of_on session on _)

theorem exec_getDeviceInterfaceState : exec (.getDeviceInterfaceState i v) s =
    .next (s.emit (.spdm (.tdisp 4 v [tdispNo (s.fn v).tdisp]))) :=
  congrArg Host.Outcome.next (tdisp_of_on session on _)

/-- The report ends with the slot that the VF is bound to and the job identifier there (R414). -/
theorem exec_getDeviceInterfaceReport_bound (taken : (s.fn v).tdisp = .locked ∨ (s.fn v).tdisp = .run)
    (slot : s.vfSlot v = some j) :
    exec (.getDeviceInterfaceReport i v) s = .next (s.emit (.spdm (.tdisp 3 v
      [0, 0x1000, 0x1000, 0x1000, 0x2000, 128, 0x3000, 8, j, s.rf (Adr.JOB_FJID j) 19 0]))) := by
  change execGetDeviceInterfaceReport i v s = _
  rw [execGetDeviceInterfaceReport, tdisp_of_on session on, slot]
  rcases taken with locked | run
  · rw [locked]
    rfl
  · rw [run]
    rfl

end

end

/-- Settles O51, one lemma for each request. The layout of the key sets, the codes of the answers and the nonce, a free
value, are the model's choices (log 47). -/
theorem deviceSecurity : Obligations.DeviceSecurity := by
  refine ⟨fun s i x live awake crypto held up => ?_, fun s i x v live awake crypto held up on => ?_⟩
  · have session : s.Established i x := ⟨⟨live, awake, crypto⟩, held, up⟩
    exact ⟨exec_ideKmQuery session,
      fun n e d b k stream set dir sub => exec_ideKmKeyProg session (ideOk_of_lt stream set dir sub) k,
      fun n e d b stream set dir sub key => exec_ideKmKSetGo_ready session (ideOk_of_lt stream set dir sub) key,
      fun n e d b stream set dir sub => exec_ideKmKSetStop session (ideOk_of_lt stream set dir sub)⟩
  · have session : s.Established i x := ⟨⟨live, awake, crypto⟩, held, up⟩
    exact ⟨exec_lockInterface_unlocked session on, exec_startInterface_locked session on, exec_stopInterface session on,
      exec_getDeviceInterfaceState session on,
      fun taken j slot => exec_getDeviceInterfaceReport_bound session on taken slot,
      fun n refused => exec_startInterface_refused session on refused⟩

end

end Sys2Proof.Machine
end

section
/-! PROOFS. Steps: every command completes, and every step keeps the forms, takes the front of the queue and only adds
to the outputs. -/

namespace Sys2Proof.Machine
open Sys2Proof

/-- Settles O1: it is the definition of a step. -/
theorem stepRunsFront : Obligations.StepRunsFront := fun _ _ => rfl

/-- Settles O3: each command's meaning is a next state, in every branch of it. That a command that finds nothing to do
leaves the state is the model's choice (log 8, 12). -/
theorem everyCommandCompletes : Obligations.EveryCommandCompletes := by
  intro c s
  cases c <;> exact ⟨_, rfl⟩

/-- The set of every part, as `Keeps` takes it. -/
def everyPart : Nat := 134217727

/-- Every command keeps what `Keeps` says, by the law of its meaning. -/
theorem exec_keeps {z s : State} (h : Keeps everyPart z s) (c : Instr) (hu : Cov everyPart 134217727 := rfl) :
    Safe everyPart z (exec c s) :=
  match c with
  | .regWrite src t addr data => execRegWrite_inv src t addr data s h
  | .tableWindowWrite src addr val => execTableWindowWrite_inv src addr val s h
  | .counterLoRead src t addr count => execCounterLoRead_inv src t addr count s h
  | .lockWrite src addr val => execLockWrite_inv src addr val s h
  | .errClear src addr val => execErrClear_inv src addr val s h
  | .timeNowRead src => execTimeNowRead_inv src s h
  | .timeSetWrite src val => execTimeSetWrite_inv src val s h
  | .timeSetEffect => execTimeSetEffect_inv s h
  | .gmCfgWrite src val => execGmCfgWrite_inv src val s h
  | .syncBeaconSend p => execSyncBeaconSend_inv p s h
  | .syncRx p pkt => execSyncRx_inv p pkt s h
  | .delayReqRx p pkt => execDelayReqRx_inv p pkt s h
  | .delayRspRx p pkt => execDelayRspRx_inv p pkt s h
  | .gptpMessageRx p msg => execGptpMessageRx_inv p msg s h
  | .upstreamSilent => execUpstreamSilent_inv s h
  | .listenClaimTimerEnd => execListenClaimTimerEnd_inv s h
  | .backoffTimerEnd => execBackoffTimerEnd_inv s h
  | .ppsInEdge => execPpsInEdge_inv s h
  | .ppsLost => execPpsLost_inv s h
  | .ppsOutRise => execPpsOutRise_inv s h
  | .refLost => execRefLost_inv s h
  | .ttDataHiWrite src p val => execTtDataHiWrite_inv src p val s h
  | .ttCommit src p val => execTtCommit_inv src p val s h
  | .ttCancel src p val => execTtCancel_inv src p val s h
  | .ttSwitch p => execTtSwitch_inv p s h
  | .ttEntryBoundary p => execTtEntryBoundary_inv p s h
  | .octetApply src n val => execOctetApply_inv src n val s h
  | .portEnable src p val => execPortEnable_inv src p val s h
  | .portDisable src p val => execPortDisable_inv src p val s h
  | .portRetrain src p val => execPortRetrain_inv src p val s h
  | .signalDetect p => execSignalDetect_inv p s h
  | .signalLost p lane => execSignalLost_inv p lane s h
  | .equalisationDone p errors received => execEqualisationDone_inv p errors received s h
  | .portTimerExpire p => execPortTimerExpire_inv p s h
  | .paramSend p => execParamSend_inv p s h
  | .creditAdvSend p => execCreditAdvSend_inv p s h
  | .paramRx p rec => execParamRx_inv p rec s h
  | .creditAdvRx p rec => execCreditAdvRx_inv p rec s h
  | .retrainReqRx p rec => execRetrainReqRx_inv p rec s h
  | .dataFlitRx p flit => execDataFlitRx_inv p flit s h
  | .idleFlitRx p flit => execIdleFlitRx_inv p flit s h
  | .flitTx p => execFlitTx_inv p s h
  | .ethFrameRx p frame cut => execEthFrameRx_inv p frame cut s h
  | .pfcFrameRx p frame => execPfcFrameRx_inv p frame s h
  | .pfcPauseExpire p prio => execPfcPauseExpire_inv p prio s h
  | .pfcSend p => execPfcSend_inv p s h
  | .pfcRefresh p tc => execPfcRefresh_inv p tc s h
  | .pfcWatchdog p tc => execPfcWatchdog_inv p tc s h
  | .cxlTrain p result => execCxlTrain_inv p result s h
  | .cxlMemdataRx p tag data poisoned devLoad => execCxlMemdataRx_inv p tag data poisoned devLoad s h
  | .cxlDeviceRequest p => execCxlDeviceRequest_inv p s h
  | .cxlMsiWrite p addr data => execCxlMsiWrite_inv p addr data s h
  | .cxlCfgGo src p val => execCxlCfgGo_inv src p val s h
  | .cxlCfgCompletion p status data => execCxlCfgCompletion_inv p status data s h
  | .cxlCfgTimeout p => execCxlCfgTimeout_inv p s h
  | .cxlLinkFatal p cause => execCxlLinkFatal_inv p cause s h
  | .hdmEnable src p n val => execHdmEnable_inv src p n val s h
  | .packetRx p pkt => execPacketRx_inv p pkt s h
  | .egressGrant p => execEgressGrant_inv p s h
  | .packetTxDone p => execPacketTxDone_inv p s h
  | .starvePromote p id => execStarvePromote_inv p id s h
  | .shaperCfgWrite src p n val => execShaperCfgWrite_inv src p n val s h
  | .shaperReset src p n val => execShaperReset_inv src p n val s h
  | .queueSample die => execQueueSample_inv die s h
  | .mreqRx p pkt => execMreqRx_inv p pkt s h
  | .mreqIssue id => execMreqIssue_inv id s h
  | .targetRspRx p pkt => execTargetRspRx_inv p pkt s h
  | .barnAccessDone tag => execBarnAccessDone_inv tag s h
  | .responseCellWaitEnd => execResponseCellWaitEnd_inv s h
  | .targetTimeout p => execTargetTimeout_inv p s h
  | .targetDeadClear src p val => execTargetDeadClear_inv src p val s h
  | .jobActivate src j => execJobActivate_inv src j s h
  | .jobStop src j => execJobStop_inv src j s h
  | .jobRelease src j => execJobRelease_inv src j s h
  | .jobDrained j => execJobDrained_inv j s h
  | .jobInval src j val => execJobInval_inv src j val s h
  | .invalDone j => execInvalDone_inv j s h
  | .creqRx p pkt => execCreqRx_inv p pkt s h
  | .trackerStart id => execTrackerStart_inv id s h
  | .snpRespRx p pkt => execSnpRespRx_inv p pkt s h
  | .cdatHomeRx p pkt => execCdatHomeRx_inv p pkt s h
  | .compAckRx p pkt => execCompAckRx_inv p pkt s h
  | .snoopTimeout t => execSnoopTimeout_inv t s h
  | .agentDeadWrite src k a => execAgentDeadWrite_inv src k a s h
  | .domEnable src k => execDomEnable_inv src k s h
  | .domFlush src k => execDomFlush_inv src k s h
  | .domReset src k => execDomReset_inv src k s h
  | .domSweepDone k => execDomSweepDone_inv k s h
  | .extCreate src => execExtCreate_inv src s h
  | .extFence src => execExtFence_inv src s h
  | .extReclaim src => execExtReclaim_inv src s h
  | .leaseGrant src => execLeaseGrant_inv src s h
  | .leaseRenew src => execLeaseRenew_inv src s h
  | .leaseRelease src => execLeaseRelease_inv src s h
  | .snapCreate src recCount => execSnapCreate_inv src recCount s h
  | .snapInitDone r => execSnapInitDone_inv r s h
  | .snapOpen src => execSnapOpen_inv src s h
  | .viewAttach src => execViewAttach_inv src s h
  | .viewDetach src => execViewDetach_inv src s h
  | .snapClose src => execSnapClose_inv src s h
  | .snapDestroy src => execSnapDestroy_inv src s h
  | .drainStart => execDrainStart_inv s h
  | .drainEnd => execDrainEnd_inv s h
  | .leaseExpiry k => execLeaseExpiry_inv k s h
  | .snapSweepStart r => execSnapSweepStart_inv r s h
  | .snapSweepEnd r => execSnapSweepEnd_inv r s h
  | .tierEnable src => execTierEnable_inv src s h
  | .tierDisable src => execTierDisable_inv src s h
  | .tierStage src => execTierStage_inv src s h
  | .tierStagePin src => execTierStagePin_inv src s h
  | .tierUnpin src => execTierUnpin_inv src s h
  | .tierFlush src => execTierFlush_inv src s h
  | .tierEvict src => execTierEvict_inv src s h
  | .tierDiscard src => execTierDiscard_inv src s h
  | .tierTrim src => execTierTrim_inv src s h
  | .tierCmdDone => execTierCmdDone_inv s h
  | .fillDone f sec => execFillDone_inv f sec s h
  | .writebackDone f sec => execWritebackDone_inv f sec s h
  | .granReqTimeout tag => execGranReqTimeout_inv tag s h
  | .granEnable src => execGranEnable_inv src s h
  | .granDisable src => execGranDisable_inv src s h
  | .granFormat src bad spare => execGranFormat_inv src bad spare s h
  | .granWorkDone map late blks metaFail => execGranWorkDone_inv map late blks metaFail s h
  | .nandReadDone pun sec ok corr data poison => execNandReadDone_inv pun sec ok corr data poison s h
  | .nandProgramDone pun ok => execNandProgramDone_inv pun ok s h
  | .nandEraseDone bn ok => execNandEraseDone_inv bn ok s h
  | .gcRound c => execGcRound_inv c s h
  | .wlRelocate c => execWlRelocate_inv c s h
  | .journalProgram => execJournalProgram_inv s h
  | .checkpointWrite => execCheckpointWrite_inv s h
  | .granWalkEnd => execGranWalkEnd_inv s h
  | .legOpen src d l => execLegOpen_inv src d l s h
  | .legClose src d l => execLegClose_inv src d l s h
  | .wqEnable src d q => execWqEnable_inv src d q s h
  | .wqDisable src d q => execWqDisable_inv src d q s h
  | .wqPost src d q => execWqPost_inv src d q s h
  | .soArm src d k => execSoArm_inv src d k s h
  | .soCancel src d k => execSoCancel_inv src d k s h
  | .legOpenResend l => execLegOpenResend_inv l s h
  | .legRto l => execLegRto_inv l s h
  | .ackDelayExpire l => execAckDelayExpire_inv l s h
  | .carvDataRx p pkt => execCarvDataRx_inv p pkt s h
  | .carvReadReqRx p pkt => execCarvReadReqRx_inv p pkt s h
  | .carvReadDataRx p pkt => execCarvReadDataRx_inv p pkt s h
  | .carvResultRx p pkt => execCarvResultRx_inv p pkt s h
  | .carvAckRx p pkt => execCarvAckRx_inv p pkt s h
  | .carvNakRx p pkt => execCarvNakRx_inv p pkt s h
  | .carvOpenRx p pkt => execCarvOpenRx_inv p pkt s h
  | .carvOpenAckRx p pkt => execCarvOpenAckRx_inv p pkt s h
  | .carvCloseRx p pkt => execCarvCloseRx_inv p pkt s h
  | .postWqeRx p pkt => execPostWqeRx_inv p pkt s h
  | .postSoRx p pkt => execPostSoRx_inv p pkt s h
  | .wqeIssue q => execWqeIssue_inv q s h
  | .carvMemRsp p pkt => execCarvMemRsp_inv p pkt s h
  | .soAction d => execSoAction_inv d s h
  | .descWrite p pkt => execDescWrite_inv p pkt s h
  | .hostSubmit src t val => execHostSubmit_inv src t val s h
  | .descStart t => execDescStart_inv t s h
  | .tileFabricRsp p pkt => execTileFabricRsp_inv p pkt s h
  | .descEnd id => execDescEnd_inv id s h
  | .descCplRsp p pkt => execDescCplRsp_inv p pkt s h
  | .hlAssign src t => execHlAssign_inv src t s h
  | .hlAssignDone t => execHlAssignDone_inv t s h
  | .hlRelease src t => execHlRelease_inv src t s h
  | .tileEnable src t => execTileEnable_inv src t s h
  | .tileDisable src t => execTileDisable_inv src t s h
  | .sheafEnable src d k => execSheafEnable_inv src d k s h
  | .sheafDisable src d k => execSheafDisable_inv src d k s h
  | .sheafAbortCmd src d k => execSheafAbortCmd_inv src d k s h
  | .sheafReset src d k => execSheafReset_inv src d k s h
  | .sheafUpRx p pkt => execSheafUpRx_inv p pkt s h
  | .sheafDownRx p pkt => execSheafDownRx_inv p pkt s h
  | .sheafAbortRx p pkt => execSheafAbortRx_inv p pkt s h
  | .sheafPhaseTimeout k => execSheafPhaseTimeout_inv k s h
  | .sheafLinkLoss p => execSheafLinkLoss_inv p s h
  | .ctrValueWrite src c val => execCtrValueWrite_inv src c val s h
  | .ctrThreshWrite src c val => execCtrThreshWrite_inv src c val s h
  | .ctrAdd src c val => execCtrAdd_inv src c val s h
  | .ctrCfgWrite src c val => execCtrCfgWrite_inv src c val s h
  | .ctrEventRead src d => execCtrEventRead_inv src d s h
  | .kvPoolEnable src p => execKvPoolEnable_inv src p s h
  | .kvPoolDisable src p => execKvPoolDisable_inv src p s h
  | .kvPoolReset src p => execKvPoolReset_inv src p s h
  | .kvPoolInitDone p => execKvPoolInitDone_inv p s h
  | .kvSeqCreate src q => execKvSeqCreate_inv src q s h
  | .kvSeqDestroy src q => execKvSeqDestroy_inv src q s h
  | .kvSeqPreempt src q => execKvSeqPreempt_inv src q s h
  | .kvSeqResume src q => execKvSeqResume_inv src q s h
  | .kvSeqWorkDone q => execKvSeqWorkDone_inv q s h
  | .kvAppend id => execKvAppend_inv id s h
  | .kvFork id => execKvFork_inv id s h
  | .kvClear id => execKvClear_inv id s h
  | .kvEpochFlip => execKvEpochFlip_inv s h
  | .kvEpochEnd => execKvEpochEnd_inv s h
  | .kvAutoPreempt p => execKvAutoPreempt_inv p s h
  | .exdEnable src l => execExdEnable_inv src l s h
  | .exdDisable src l => execExdDisable_inv src l s h
  | .expertSync src l => execExpertSync_inv src l s h
  | .tokenWrite p pkt => execTokenWrite_inv p pkt s h
  | .tokenDecide d => execTokenDecide_inv d s h
  | .exdWriteRsp p pkt => execExdWriteRsp_inv p pkt s h
  | .expertOutputWrite p pkt => execExpertOutputWrite_inv p pkt s h
  | .cmbTimeout l e => execCmbTimeout_inv l e s h
  | .cmbCombine l e => execCmbCombine_inv l e s h
  | .cmbQuarEnd l e => execCmbQuarEnd_inv l e s h
  | .modeSealed src => execModeSealed_inv src s h
  | .modeShared src => execModeShared_inv src s h
  | .scrubDone => execScrubDone_inv s h
  | .dbgApply src => execDbgApply_inv src s h
  | .dbgEnd src => execDbgEnd_inv src s h
  | .dbgEpochAdvance src => execDbgEpochAdvance_inv src s h
  | .provisionBurn src val => execProvisionBurn_inv src val s h
  | .fuseProgramDone ok => execFuseProgramDone_inv ok s h
  | .imageLoad a b fuseOk => execImageLoad_inv a b fuseOk s h
  | .getVersion => execGetVersion_inv s h
  | .getCapabilities => execGetCapabilities_inv s h
  | .negotiateAlgorithms => execNegotiateAlgorithms_inv s h
  | .getDigests => execGetDigests_inv s h
  | .getCertificate => execGetCertificate_inv s h
  | .challenge => execChallenge_inv s h
  | .getMeasurements index => execGetMeasurements_inv index s h
  | .keyExchange => execKeyExchange_inv s h
  | .finish sid root => execFinish_inv sid root s h
  | .keyUpdate sid => execKeyUpdate_inv sid s h
  | .heartbeat sid => execHeartbeat_inv sid s h
  | .endSession sid => execEndSession_inv sid s h
  | .keyLoad sid group key => execKeyLoad_inv sid group key s h
  | .keyBind sid group fjid digest proof => execKeyBind_inv sid group fjid digest proof s h
  | .keyUnbind sid group fjid proof => execKeyUnbind_inv sid group fjid proof s h
  | .keyClear sid group proof => execKeyClear_inv sid group proof s h
  | .linkKey sid port tx rx => execLinkKey_inv sid port tx rx s h
  | .ideKmQuery sid => execIdeKmQuery_inv sid s h
  | .ideKmKeyProg sid stream set dir sub key => execIdeKmKeyProg_inv sid stream set dir sub key s h
  | .ideKmKSetGo sid stream set dir sub => execIdeKmKSetGo_inv sid stream set dir sub s h
  | .ideKmKSetStop sid stream set dir sub => execIdeKmKSetStop_inv sid stream set dir sub s h
  | .lockInterface sid vf => execLockInterface_inv sid vf s h
  | .getDeviceInterfaceReport sid vf => execGetDeviceInterfaceReport_inv sid vf s h
  | .getDeviceInterfaceState sid vf => execGetDeviceInterfaceState_inv sid vf s h
  | .startInterface sid vf nonce => execStartInterface_inv sid vf nonce s h
  | .stopInterface sid vf => execStopInterface_inv sid vf s h
  | .jtagIdcode => execJtagIdcode_inv s h
  | .jtagBypass => execJtagBypass_inv s h
  | .jtagDbgToken token => execJtagDbgToken_inv token s h
  | .jtagSamplePreload => execJtagSamplePreload_inv s h
  | .jtagExtest => execJtagExtest_inv s h
  | .jtagExtestPulse => execJtagExtestPulse_inv s h
  | .jtagExtestTrain => execJtagExtestTrain_inv s h
  | .jtagInternalScan => execJtagInternalScan_inv s h
  | .barnWindowRead addr n => execBarnWindowRead_inv addr n s h
  | .barnWindowWrite addr data => execBarnWindowWrite_inv addr data s h
  | .bwinRead src val => execBwinRead_inv src val s h
  | .bwinWrite src val => execBwinWrite_inv src val s h
  | .saveRdDataRead src => execSaveRdDataRead_inv src s h
  | .vfSubmit f t val => execVfSubmit_inv f t val s h
  | .vfCtrAdd f t val => execVfCtrAdd_inv f t val s h
  | .configWrite f w => execConfigWrite_inv f w s h
  | .bmeClear f => execBmeClear_inv f s h
  | .vfFlr f => execVfFlr_inv f s h
  | .pfFlr => execPfFlr_inv s h
  | .hostPortReset => execHostPortReset_inv s h
  | .hostRequest p pkt => execHostRequest_inv p pkt s h
  | .hostCompletion tag status data poison => execHostCompletion_inv tag status data poison s h
  | .hostCplTimeout tag => execHostCplTimeout_inv tag s h
  | .chainEnable src => execChainEnable_inv src s h
  | .chainDisable src => execChainDisable_inv src s h
  | .chainRestart src => execChainRestart_inv src s h
  | .chainClaimRx portB frame => execChainClaimRx_inv portB frame s h
  | .chainBeaconRx portB frame => execChainBeaconRx_inv portB frame s h
  | .chainEnumRx portB frame => execChainEnumRx_inv portB frame s h
  | .chainEnumEndRx portB frame => execChainEnumEndRx_inv portB frame s h
  | .chainReadRx portB ring frame => execChainReadRx_inv portB ring frame s h
  | .chainWriteRx portB ring frame => execChainWriteRx_inv portB ring frame s h
  | .chainReadRspRx portB frame => execChainReadRspRx_inv portB frame s h
  | .chainWriteRspRx portB frame => execChainWriteRspRx_inv portB frame s h
  | .chainEventRx portB frame => execChainEventRx_inv portB frame s h
  | .chainWindowRead off count => execChainWindowRead_inv off count s h
  | .chainWindowWrite off data => execChainWindowWrite_inv off data s h
  | .chainRspTimeout tag => execChainRspTimeout_inv tag s h
  | .chainListenTimer => execChainListenTimer_inv s h
  | .chainClaimTimer => execChainClaimTimer_inv s h
  | .chainBackoffTimer => execChainBackoffTimer_inv s h
  | .chainEnumTimeout => execChainEnumTimeout_inv s h
  | .chainBeaconSend => execChainBeaconSend_inv s h
  | .chainBeaconLoss => execChainBeaconLoss_inv s h
  | .chainRingBroken => execChainRingBroken_inv s h
  | .chainHostLoss => execChainHostLoss_inv s h
  | .chainPortDown portB => execChainPortDown_inv portB s h
  | .chainPortRestore portB => execChainPortRestore_inv portB s h
  | .domainOff src d => execDomainOff_inv src d s h
  | .domainOn src d => execDomainOn_inv src d s h
  | .domainOnDone => execDomainOnDone_inv s h
  | .warmReset src => execWarmReset_inv src s h
  | .coldReset src bad => execColdReset_inv src bad s h
  | .rstNAssert bad => execRstNAssert_inv bad s h
  | .supplyRise bad => execSupplyRise_inv bad s h
  | .startupDone => execStartupDone_inv s h
  | .crefclkLost => execCrefclkLost_inv s h
  | .pwrFailAssert => execPwrFailAssert_inv s h
  | .saveWriteDone ok => execSaveWriteDone_inv ok s h
  | .pwrFailRelease bad => execPwrFailRelease_inv bad s h
  | .vholdSample mv => execVholdSample_inv mv s h
  | .vholdLow => execVholdLow_inv s h
  | .brownOut fed low => execBrownOut_inv fed low s h
  | .thermTrip => execThermTrip_inv s h
  | .fenceLogical src g => execFenceLogical_inv src g s h
  | .fenceElectrical src g => execFenceElectrical_inv src g s h
  | .fenceRelease src g => execFenceRelease_inv src g s h
  | .fenceNoticeRx p pkt => execFenceNoticeRx_inv p pkt s h
  | .auditEpoch => execAuditEpoch_inv s h
  | .auditComplete broken => execAuditComplete_inv broken s h
  | .gctrSelWrite src n val => execGctrSelWrite_inv src n val s h
  | .wpCtrlWrite src w val => execWpCtrlWrite_inv src w val s h
  | .traceUnfreeze src val => execTraceUnfreeze_inv src val s h
  | .kvWalkEnd => execKvWalkEnd_inv s h
  | .rstNRelease => execRstNRelease_inv s h
  | .hostLinkUp => execHostLinkUp_inv s h
  | .gptpMessageSend p => execGptpMessageSend_inv p s h

/-- The state that a step's command finds: the queue without its front. -/
def State.popped (s : State) : State := { s with pending := s.pending.tail }

theorem popped_of_pending_nil {s : State} (idle : s.pending = []) : s.popped = s := by
  rw [State.popped, idle, List.tail_nil, ← idle]

theorem step_of_pending_cons {s : State} {c : Instr} {rest : List Instr} (front : s.pending = c :: rest) :
    step s = exec c s.popped := by
  rw [step, front, State.popped, front, List.tail_cons]

theorem step_keeps {s t : State} (inv : s.Inv) (run : step s = .next t) : Keeps everyPart s.popped t := by
  have found : Keeps everyPart s.popped s.popped := keeps_refl ⟨inv.mem, inv.hub⟩
  have safe : Safe everyPart s.popped (step s) := by
    cases waits : s.pending with
    | nil =>
      rw [step_of_pending_nil waits]
      have cycle : Keeps everyPart s.popped s.popped.tick := State.tick_inv s.popped found rfl
      rwa [popped_of_pending_nil waits] at cycle ⊢
    | cons c rest =>
      rw [step_of_pending_cons waits]
      exact exec_keeps found c
  rwa [run] at safe

/-- Settles O6. -/
theorem stepKeepsForms : Obligations.StepKeepsForms := fun _ _ inv run => (step_keeps inv run).inv

/-- Settles O8. The queue of commands, the record of outputs, and the counters of free values and of names are the
model's own fields (log 5, 6, 57). -/
theorem stepOrder : Obligations.StepOrder := by
  intro s t inv run
  obtain ⟨-, queue, ⟨added, grown⟩, free, names, -⟩ := step_keeps inv run
  exact ⟨queue, ⟨added, grown.symm⟩, free, names⟩

end Sys2Proof.Machine
end

section
/-! PROOFS. The reset state (R438, R483). -/

namespace Sys2Proof.Machine
open Sys2Proof

/-- Settles O4: memory and register space list nothing. -/
theorem resetKeepsForms : Obligations.ResetKeepsForms := ⟨⟨rfl, rfl⟩, rfl⟩

theorem reset_rg (a : Nat) : State.reset.rg a = regReset a := rfl

/-- Settles O5: every table of the reset state is empty, so each entry is its default. -/
theorem resetValues : Obligations.ResetValues :=
  ⟨rfl, rfl, rfl, rfl, fun _ => rfl, fun _ => rfl, fun _ => rfl, rfl, fun _ => rfl, reset_rg, fun _ => rfl,
    (reset_rg _).trans (by decide), (reset_rg _).trans (by decide)⟩

end Sys2Proof.Machine
end

section
/-! PROOFS. Power domains (R436, R437, Table 17-1). -/

namespace Sys2Proof.Machine
open Sys2Proof

section
variable {s : State} {src : Source} {d : Nat}

theorem pwrCmd_of_idle (takes : s.takes src Adr.PWR_CMD .wo = true) (settled : s.pwr.turning = none)
    (cold : s.pwr.warm = false) (act : State → State) : s.pwrCmd src act = act s :=
  (guarded_of_takes _ takes).trans (if_neg (by simp [settled, cold]))

theorem pwrDone_mem (s : State) (r : Nat) : (s.pwrDone r).mem = s.mem := (traceOfInt_raiseInt _ .pwr 0 0).mem

/-! ### DOMAIN_OFF and DOMAIN_ON -/

section
variable (takes : s.takes src Adr.PWR_CMD .wo = true) (settled : s.pwr.turning = none) (cold : s.pwr.warm = false)
  (exists_ : d < 32)
include takes settled cold exists_

theorem exec_domainOff : exec (.domainOff src d) s = .next (s.domainOff d) := by
  change Host.Outcome.next (s.pwrCmd src (·.domainOff (d % 32))) = _
  rw [pwrCmd_of_idle takes settled cold, Nat.mod_eq_of_lt exists_]

theorem exec_domainOn : exec (.domainOn src d) s = .next (s.domainOn d) := by
  change Host.Outcome.next (s.pwrCmd src (·.domainOn (d % 32))) = _
  rw [pwrCmd_of_idle takes settled cold, Nat.mod_eq_of_lt exists_]

end

section
variable (runs : s.running = true)
include runs

theorem domainOff_of_permanent (permanent : d = 0 ∨ d = 30) : s.domainOff d = s.domRefused 3 := by
  rw [State.domainOff, if_neg (by simp [runs]), if_pos permanent]

theorem domainOff_of_busy (other : ¬ (d = 0 ∨ d = 30)) (on : s.domOn d = true) (busy : s.offOk d = false) :
    s.domainOff d = s.domRefused 1 := by
  rw [State.domainOff, if_neg (by simp [runs]), if_neg other, if_neg (by simp [on]), if_pos (by simp [busy])]

theorem domainOff_of_idle (other : ¬ (d = 0 ∨ d = 30)) (on : s.domOn d = true) (idle : s.offOk d = true) :
    s.domainOff d =
      State.pwrDone 0 (State.pstateOf ((s.domainLost d).modPwr fun p => { p with off := p.off.set d true })) := by
  rw [State.domainOff, if_neg (by simp [runs]), if_neg other, if_neg (by simp [on]), if_neg (by simp [idle])]

theorem domainOn_of_off (off : s.domOn d = false) :
    s.domainOn d = s.modPwr fun p => { p with turning := some d } :=
  if_neg (by simp [runs, off])

end

theorem domainOn_of_on (on : s.domOn d = true) : s.domainOn d = s.domRefused 2 := if_pos (by simp [on])

/-! ### A domain is on -/

/-- The state with the blocks of a domain at their reset values and the domain marked on. -/
def State.turnedOn (d : Nat) (s : State) : State :=
  (s.domainLost d).modPwr fun p => { p with turning := none, off := p.off.set d false }

section
variable (turning : s.pwr.turning = some d)
include turning

theorem exec_domainOnDone_turning : exec .domainOnDone s = .next
    (let t := (if d = 27 ∨ d = 28 then (s.turnedOn d).barnBack d else s.turnedOn d).pstateOf.pwrDone 0
    if d = 31 then t.cryptoOn else t) := by
  change execDomainOnDone s = _
  rw [execDomainOnDone, turning]
  rfl

theorem exec_domainOnDone_plain (lower : d ≠ 27) (upper : d ≠ 28) (crypto : d ≠ 31) :
    exec .domainOnDone s = .next ((s.turnedOn d).pstateOf.pwrDone 0) := by
  rw [exec_domainOnDone_turning turning, if_neg (not_or.2 ⟨lower, upper⟩)]
  exact congrArg Host.Outcome.next (if_neg crypto)

theorem exec_domainOnDone_barn (barn : d = 27 ∨ d = 28) :
    exec .domainOnDone s = .next (((s.turnedOn d).barnBack d).pstateOf.pwrDone 0) := by
  rw [exec_domainOnDone_turning turning, if_pos barn]
  exact congrArg Host.Outcome.next (if_neg (by omega))

end

theorem barnBack_mem (s : State) (d : Nat) : (s.barnBack d).mem =
    if s.sec.mode ≠ .shared ∨ s.sec.owed.get d = true then {} else { bg := some s.free } := by
  have zeroed : (s.sec.mode != .shared || s.sec.owed.get d) = true ↔ s.sec.mode ≠ .shared ∨ s.sec.owed.get d = true := by
    simp
  unfold State.barnBack
  dsimp only
  split
  next zero => rw [if_pos (zeroed.1 zero)]; rfl
  next open_ => rw [if_neg (open_ ∘ zeroed.2)]; rfl

theorem turnedOn_barn (barn : d = 27 ∨ d = 28) :
    (s.turnedOn d).sec = s.sec ∧ (s.turnedOn d).free = s.free := by
  rcases barn with rfl | rfl <;> exact ⟨rfl, rfl⟩

/-- Settles O54, one lemma for each outcome of a DOMAIN command and for each kind of domain that comes on.
DOMAIN_REFUSED on every RESULT is the model's choice (log 51), and undefined contents are a free value (log 5). -/
theorem powerDomains : Obligations.PowerDomains := by
  refine ⟨fun s src d takes settled cold runs exists_ always host on idle => ?_,
    fun s src d takes settled cold runs exists_ => ⟨fun permanent => ?_, fun always host on busy => ?_, fun off => ?_,
      fun on => ?_⟩,
    fun s d turning lower upper crypto => exec_domainOnDone_plain turning lower upper crypto,
    fun s turning => exec_domainOnDone_turning turning, fun s d turning barn => ?_⟩
  · rw [exec_domainOff takes settled cold exists_, domainOff_of_idle runs (not_or.2 ⟨always, host⟩) on idle]
  · rw [exec_domainOff takes settled cold exists_, domainOff_of_permanent runs permanent]
  · rw [exec_domainOff takes settled cold exists_, domainOff_of_busy runs (not_or.2 ⟨always, host⟩) on busy]
  · rw [exec_domainOn takes settled cold exists_, domainOn_of_off runs off]
  · rw [exec_domainOn takes settled cold exists_, domainOn_of_on on]
  · obtain ⟨sec, free⟩ := turnedOn_barn (s := s) barn
    refine ⟨_, exec_domainOnDone_barn turning barn, ?_⟩
    beta_reduce
    rw [pwrDone_mem, State.pstateOf, State.modPwr_mem, barnBack_mem, sec, free]

end

end Sys2Proof.Machine
end

section
/-! PROOFS. What a cold reset leaves of the fuses (R386, R439, Table 17-3): a register of the owner key hash that an
unprovisioned part lists at no multiple of 4 is not kept. -/

namespace Sys2Proof.Machine
open Sys2Proof

/-- An entry that a filter drops reads as the default. -/
theorem get_keep_of_dropped {α : Type} [Inhabited α] (t : Tbl α) {p : Nat → α → Bool} {k : Nat}
    (dropped : ∀ v, p k v = false) : (t.keep p).get k = default := by
  induction t with
  | nil => rfl
  | cons e t ih =>
    rw [Tbl.keep, List.filter_cons]
    by_cases key : e.1 = k
    · subst key
      rw [if_neg (by simp [dropped])]
      exact ih
    · split
      · rw [tbl_get_cons, if_neg key]
        exact ih
      · exact ih

theorem rg_newNonce_other (s : State) {a : Nat} (other : ∀ i < 4, a ≠ Adr.SEC_DBG_NONCE i) :
    s.newNonce.rg a = s.rg a := by
  have drawn (t : State) (i : Nat) (inside : i < 4) :
      (t.setRg (Adr.SEC_DBG_NONCE i) (w32 (t.freeVal >>> (32 * i)))).rg a = t.rg a :=
    rg_setRg_other _ _ _ _ (other i inside)
  exact (drawn _ 3 (by decide)).trans ((drawn _ 2 (by decide)).trans ((drawn _ 1 (by decide)).trans (drawn _ 0 (by decide))))

theorem rg_bump (s : State) (a n b : Nat) : (s.bump a n).rg b = s.rg b := rfl

theorem rg_coldReset (s : State) (n : Nat) {a : Nat} (other : ∀ i < 4, a ≠ Adr.SEC_DBG_NONCE i) :
    (s.coldReset n).rg a = (s.fuses.get a).getD (regReset a) := by
  rw [State.coldReset, rg_bump, rg_newNonce_other _ other]
  rfl

/-- An address inside the owner key hash that no register has: OWNER_PK_HASH lies at the multiples of 4. -/
def insideHash : Nat := Adr.FUSE_OWNER_PK_HASH 0 + 1

/-- An unprovisioned part whose register space lists `insideHash`. `State.Inv` asks the canonical form of the register
space, not that every address it lists is one of a register. -/
def unalignedFuse : State :=
  (State.reset.setRg Adr.FUSE_FUSE_STATUS 0).setRg insideHash (regReset insideHash + 1)

theorem unalignedFuse_inv : unalignedFuse.Inv := ⟨rfl, setRg_wf (setRg_wf rfl _ _) _ _⟩

theorem rg_unalignedFuse_status : unalignedFuse.rg Adr.FUSE_FUSE_STATUS = 0 :=
  (rg_setRg_other _ _ _ _ (by decide)).trans (rg_setRg_self _ _ _ rfl)

theorem rg_unalignedFuse_inside : unalignedFuse.rg insideHash = regReset insideHash + 1 :=
  rg_setRg_self _ _ _ (setRg_wf rfl _ _)

/-- The part is not provisioned, so nothing inside the owner key hash is a fuse. -/
theorem rg_coldReset_unalignedFuse : (unalignedFuse.coldReset 0).rg insideHash = regReset insideHash := by
  have dropped : unalignedFuse.fuses.get insideHash = none := by
    refine get_keep_of_dropped _ fun _ => ?_
    rw [rg_unalignedFuse_status]
    rfl
  rw [rg_coldReset _ _ (by decide), dropped]
  rfl

/-- Refutes O55: its clause on the registers after a cold reset leaves out the twelve addresses of OWNER_PK_HASH, while
the reset drops every address between them on an unprovisioned part; `State.Inv` does not exclude a state that lists one. -/
theorem not_resetsAndImage : ¬ Obligations.ResetsAndImage := by
  intro h
  obtain ⟨-, -, -, -, registers, -⟩ := h
  have nonce : ∀ i, i < 4 → insideHash ≠ Adr.SEC_DBG_NONCE i := by decide
  have hash : ∀ i, i < 12 → insideHash ≠ Adr.FUSE_OWNER_PK_HASH i := by decide
  have kept := (registers unalignedFuse 0 insideHash unalignedFuse_inv nonce).1 (by decide) (by decide) hash
  rw [rg_coldReset_unalignedFuse, rg_unalignedFuse_inside] at kept
  bv_omega

end Sys2Proof.Machine
end

section
/-! PROOFS. The supply-fail path, the hold-up save and the supplies (R441 to R450, R507, R513, Table 17-2). -/

namespace Sys2Proof.Machine
open Sys2Proof

section
variable {s : State}

theorem running_iff (s : State) : s.running = true ↔ s.pwr.pstate = .run ∨ s.pwr.pstate = .reduced := by
  simp [State.running]

/-! ### PWR_FAIL_N (R441, R444) -/

/-- The supply failure noted and counted. -/
def State.failNoted (s : State) : State := State.bump Adr.PWR_PF_EVENTS 1 (s.modPwr fun p => { p with pwrFail := true })

theorem exec_pwrFailAssert_new (new : s.pwr.pwrFail = false) : exec .pwrFailAssert s = .next
    (match s.pwr.pstate with
    | .run | .reduced => s.failNoted.startSave
    | .starting | .halted => s.failNoted.stopAll.saved
    | .saving | .saved => s.failNoted) := by
  change execPwrFailAssert s = _
  rw [execPwrFailAssert, if_neg (by simp [new])]
  cases mode : s.pwr.pstate <;> simp only [State.setCnt_pwr, State.bump, State.modPwr_pwr, mode, State.failNoted]

theorem exec_pwrFailRelease_saved (saved : s.pwr.pstate = .saved) (bad : List Nat) : exec (.pwrFailRelease bad) s =
    .next (((s.modPwr fun p => { p with pwrFail := false }).coldReset 3).bootEval bad) :=
  congrArg Host.Outcome.next (if_pos saved)

theorem exec_pwrFailRelease_other (other : s.pwr.pstate ≠ .saved) (bad : List Nat) :
    exec (.pwrFailRelease bad) s = .next (s.modPwr fun p => { p with pwrFail := false }) :=
  congrArg Host.Outcome.next (if_neg other)

/-! ### The save (R444 to R446) -/

/-- The domains that a save switches off. -/
theorem offSet_save : ∀ d, d < 25 → 1 ≤ d → (offSet ((List.range 24).map (· + 1) ++ [27, 28, 30])).get d = true := by
  decide

/-- In SAVED only domain 0 is on. -/
theorem offSet_saved : ∀ d, 1 ≤ d → d < 32 → (offSet ((List.range 31).map (· + 1))).get d = true := by
  intro d least most
  interval_cases d <;> rfl

theorem domOn_of_off {d : Nat} (off : s.pwr.off.get d = true) : s.domOn d = false := by
  rw [State.domOn, off]
  rfl

theorem startSave_pwr (kept : s.saveSkipped = false) (fuse : s.sec.fuse = none) :
    s.startSave.pwr.pstate = .saving ∧ s.startSave.pwr.save = some s.saveJob ∧
      s.startSave.pwr.off = offSet ((List.range 24).map (· + 1) ++ [27, 28, 30]) := by
  unfold State.startSave
  rw [fuse]
  dsimp only
  rw [if_neg (by simp [kept])]
  exact ⟨rfl, rfl, rfl⟩

section
variable {j : SaveJob} (saving : s.pwr.pstate = .saving) (save : s.pwr.save = some j)
include saving save

theorem exec_saveWriteDone (ok : Bool) : exec (.saveWriteDone ok) s = .next
    (if ok = true then
      State.saved (State.setCell (commitAt j.slot) (commitBytes j ((s.ns - j.startNs) / 1000) s.pwr.vhold)
        (s.setCell (saveSlot j.slot) (padFull 4096 j.header ++ j.body)))
    else s.saveTorn.saved) := by
  change execSaveWriteDone ok s = _
  rw [execSaveWriteDone, saving, save]

end

/-! ### CREFCLK, VHOLD, the other supplies and temperature -/

theorem exec_crefclkLost_running (runs : s.running = true) : exec .crefclkLost s =
    .next (State.raise Err.pwr_CLK_LOST 0 [] none (State.modPwr (fun p => { p with pstate := .halted, turning := none })
      (State.stopAll (s.modPwr fun p => { p with cref := false })))) := by
  change execCrefclkLost s = _
  rcases (running_iff s).1 runs with mode | mode
  · simp only [execCrefclkLost, State.modPwr_pwr, mode]
  · simp only [execCrefclkLost, State.modPwr_pwr, mode]

theorem exec_crefclkLost_saving (saving : s.pwr.pstate = .saving) :
    exec .crefclkLost s = .next (s.modPwr fun p => { p with cref := false }).saveTorn.saved := by
  change execCrefclkLost s = _
  simp only [execCrefclkLost, State.modPwr_pwr, saving]

/-- When VHOLD began to be low, after a sample of `v` mV. -/
def State.lowFrom (s : State) (v : Nat) : Option Nat :=
  if (s.running && decide (v < s.rf Adr.PWR_VHOLD_WARN 15 0)) = true then some (s.pwr.lowSince.getD s.ns) else none

theorem lowFrom_isSome (s : State) (v : Nat) :
    (s.lowFrom v).isSome = true ↔ s.running = true ∧ v < s.rf Adr.PWR_VHOLD_WARN 15 0 := by
  rw [← decide_eq_true_iff (p := v < _), ← Bool.and_eq_true, State.lowFrom, Option.isSome_ite]

/-- The state in which a sample of VHOLD is kept, with its minimum. -/
def State.sampled (v : Nat) (s : State) : State :=
  { s with pwr := { s.pwr with vhold := v, vholdMin := some (min v (s.pwr.vholdMin.getD v)), lowSince := s.lowFrom v } }

theorem exec_vholdSample (s : State) {n v : Nat} (step : v = min (n / 10 * 10) 65530) : exec (.vholdSample n) s =
    .next (if s.pwr.pstate = .saving ∧ v < 7000 then (s.sampled v).saveTorn.saved else s.sampled v) := by
  subst step
  rfl

theorem exec_vholdLow_due {n : Nat} (low : s.pwr.lowSince = some n) (runs : s.running = true)
    (due : n + 1000000 ≤ s.ns) : exec .vholdLow s =
      .next (State.modPwr (fun p => { p with lowSince := some s.ns })
        ((s.raise Err.pwr_VHOLD_LOW 0 [] none).raiseInt .pwr 0 1)) := by
  change execVholdLow s = _
  rw [execVholdLow, low]
  exact congrArg Host.Outcome.next (if_pos ⟨runs, due⟩)

/-- Whether a brown-out acts: not in SAVED; in SAVING on a rail that VHOLD feeds; else also where no supply failure is
sampled (R507). -/
def State.browns (s : State) (fed low : Bool) : Bool :=
  match s.pwr.pstate with
  | .saved => false
  | .saving => fed
  | _ => fed || !(low || s.pwr.pwrFail)

theorem exec_brownOut (s : State) (fed low : Bool) : exec (.brownOut fed low) s = .next
    (if s.browns fed low = true then State.coldReset 0 (s.saveTorn.modPwr fun p => { p with railsLow := true }) else s) :=
  rfl

theorem browns_of_running (runs : s.running = true) (fine : s.pwr.pwrFail = false) : s.browns false false = true := by
  rcases (running_iff s).1 runs with mode | mode <;> simp [State.browns, mode, fine]

theorem browns_of_fed (other : s.pwr.pstate ≠ .saved) (low : Bool) : s.browns true low = true := by
  cases mode : s.pwr.pstate <;> simp_all [State.browns]

theorem browns_of_saved (saved : s.pwr.pstate = .saved) (fed low : Bool) : s.browns fed low = false := by
  rw [State.browns, saved]

/-- Settles O56, one lemma for each state of Table 17-2 that an event of the supplies meets. What a torn save has written,
and how long an input stays low, are the model's choices (log 52). -/
theorem supplyFailure : Obligations.SupplyFailure := by
  refine ⟨fun s u new noted => ?_, fun s failing => congrArg Host.Outcome.next (if_pos failing),
    fun s kept fuse => ?_, fun s j saving save => exec_saveWriteDone saving save true,
    fun s j saving save => exec_saveWriteDone saving save false,
    fun s => ⟨rfl, rfl, rfl, fun d least most => domOn_of_off (offSet_saved d least most)⟩,
    fun s bad saved => exec_pwrFailRelease_saved saved bad, fun s bad other => exec_pwrFailRelease_other other bad,
    fun s runs => exec_crefclkLost_running runs, fun s saving => exec_crefclkLost_saving saving,
    fun s n v step whole => ?_, fun s n saving low => ?_, fun s n low runs due => exec_vholdLow_due low runs due,
    fun s runs fine => ?_, fun s low other => ?_, fun s fed low saved => ?_, fun s => rfl⟩
  · rw [exec_pwrFailAssert_new new, show u = s.failNoted from noted]
    refine ⟨fun mode => ?_, fun mode => ?_, fun mode => ?_⟩ <;> rcases mode with mode | mode <;> rw [mode]
  · obtain ⟨pstate, save, off⟩ := startSave_pwr kept fuse
    exact ⟨pstate, save, fun d most least => domOn_of_off (off ▸ offSet_save d most least)⟩
  · refine ⟨_, exec_vholdSample s step, s.lowFrom v, if_neg ?_, lowFrom_isSome s v⟩
    rintro ⟨saving, low⟩
    exact whole.elim (· saving) (by omega)
  · refine ⟨_, (exec_vholdSample s rfl).trans (congrArg Host.Outcome.next (if_pos ⟨saving, by omega⟩)), rfl, rfl⟩
  · rw [exec_brownOut, if_pos (browns_of_running runs fine)]
  · rw [exec_brownOut, if_pos (browns_of_fed other low)]
  · rw [exec_brownOut, if_neg (by simp [browns_of_saved saved])]

end

end Sys2Proof.Machine
end

section
/-! PROOFS. The register space: which page an address lies in (R483), and how a dword is read and written there. -/

namespace Sys2Proof.Machine
open Sys2Proof

section
variable {s : State} {src : Source} {a i o : Nat} {k : PageKind} {v : Word}

/-! ### Pages -/

/-- `a` is offset `o` of page `i` of a block. -/
structure OnPage (a : Nat) (k : PageKind) (i o : Nat) : Prop where
  addr : a = adr k i o
  inst : i < pageCount k
  off : o < 0x1000

/-- What `pageAt` tests of one block. -/
def pageOf (a : Nat) (k : PageKind) : Option (PageKind × Nat × Nat) :=
  let d := a - pageBase k
  if a < pageBase k then none
  else if d / pageStride k < pageCount k ∧ d % pageStride k < 0x1000 then some (k, d / pageStride k, d % pageStride k)
  else none

theorem pageAt_eq (a : Nat) : pageAt a = PageKind.all.findSome? (pageOf a) := rfl

theorem pageStride_pos (k : PageKind) : 0x1000 ≤ pageStride k := by cases k <;> decide

theorem mem_all (k : PageKind) : k ∈ PageKind.all := by cases k <;> decide

/-- The blocks lie one behind the other. -/
theorem blocks_apart : ∀ j ∈ PageKind.all, ∀ k ∈ PageKind.all, j ≠ k →
    pageBase j + pageStride j * pageCount j ≤ pageBase k ∨ pageBase k + pageStride k * pageCount k ≤ pageBase j := by
  decide

theorem OnPage.inside (page : OnPage a k i o) : pageBase k ≤ a ∧ a < pageBase k + pageStride k * pageCount k := by
  obtain ⟨rfl, inst, off⟩ := page
  have last : pageStride k * i + pageStride k ≤ pageStride k * pageCount k := Nat.mul_le_mul_left (pageStride k) inst
  have stride := pageStride_pos k
  unfold adr
  omega

theorem onPage_of_pageOf {j : PageKind} (found : pageOf a j = some (k, i, o)) : OnPage a k i o := by
  unfold pageOf at found
  dsimp only at found
  split at found
  · cases found
  next low =>
    split at found
    next inside =>
      cases found
      refine ⟨?_, inside.1, inside.2⟩
      have parts := Nat.div_add_mod (a - pageBase k) (pageStride k)
      unfold adr
      omega
    next => cases found

theorem pageOf_of_onPage (page : OnPage a k i o) : pageOf a k = some (k, i, o) := by
  obtain ⟨rfl, inst, off⟩ := page
  have stride := pageStride_pos k
  have rest : adr k i o - pageBase k = o + pageStride k * i := by unfold adr; omega
  have index : (adr k i o - pageBase k) / pageStride k = i := by
    rw [rest, Nat.add_mul_div_left _ _ (by omega), Nat.div_eq_of_lt (by omega), Nat.zero_add]
  have offset : (adr k i o - pageBase k) % pageStride k = o := by
    rw [rest, Nat.add_mul_mod_self_left, Nat.mod_eq_of_lt (by omega)]
  unfold pageOf
  dsimp only
  rw [index, offset, if_neg (by unfold adr; omega), if_pos ⟨inst, off⟩]

theorem pageAt_eq_some_iff : pageAt a = some (k, i, o) ↔ OnPage a k i o := by
  refine ⟨fun found => ?_, fun page => ?_⟩
  · obtain ⟨j, -, found⟩ := List.exists_of_findSome?_eq_some (pageAt_eq a ▸ found)
    exact onPage_of_pageOf found
  · have some_ : (PageKind.all.findSome? (pageOf a)).isSome :=
      List.findSome?_isSome_iff.2 ⟨k, mem_all k, by rw [pageOf_of_onPage page]; rfl⟩
    obtain ⟨⟨k', i', o'⟩, found⟩ := Option.isSome_iff_exists.1 some_
    obtain ⟨j, -, found'⟩ := List.exists_of_findSome?_eq_some found
    have page' := onPage_of_pageOf found'
    have same : k' = k := by
      by_contra other
      have apart := blocks_apart k' (mem_all k') k (mem_all k) other
      have here := page.inside
      have there := page'.inside
      omega
    subst same
    rw [pageAt_eq, found, ← pageOf_of_onPage page', pageOf_of_onPage page]

theorem pageAt_adr (inst : i < pageCount k) (off : o < 0x1000) : pageAt (adr k i o) = some (k, i, o) :=
  pageAt_eq_some_iff.2 ⟨rfl, inst, off⟩

/-- The pages of the PF space leave out the MSI-X structures, the counters and the table windows. -/
theorem OnPage.plain (page : OnPage a k i o) (pf : a < 0x04000000) :
    ¬ (0x10000 ≤ a ∧ a < 0x20000) ∧ ¬ (0x20000 ≤ a ∧ a < 0x20200) ∧ ¬ (0x00C00000 ≤ a ∧ a < 0x00C80000) ∧
      ¬ 0x01000000 ≤ a := by
  have inside := page.inside
  cases k <;> simp only [pageBase, pageStride, pageCount] at inside <;> omega

/-- Another register of the page that `a` lies in. -/
theorem OnPage.sibling (page : OnPage a k i o) (pf : a < 0x04000000) (q : Nat) :
    a / 0x1000 * 0x1000 + q = adr k i q := by
  have inside := page.inside
  obtain ⟨addr, inst, off⟩ := page
  unfold adr at *
  cases k <;> simp only [pageBase, pageStride, pageCount] at * <;> omega

theorem OnPage.pf (page : OnPage a k i o) (pf : a < 0x04000000) (q : Nat) (off : q < 0x1000) : adr k i q < 0x04000000 := by
  rw [← page.sibling pf q]
  omega

/-! ### Writes -/

theorem leNat_leBytes (n v : Nat) : leNat (leBytes n v) = v % 256 ^ n := by
  induction n generalizing v with
  | zero => rw [Nat.pow_zero, Nat.mod_one]; rfl
  | succ n ih =>
    rw [leBytes, leNat, ih, BitVec.toNat_ofNat, Nat.pow_succ' (m := 256)]
    exact Nat.mod_mul.symm

theorem dwordsOf_leBytes (v : Nat) : dwordsOf (leBytes 4 v) = [w32 v] := by
  have whole : w32 (leNat (leBytes 4 v)) = w32 v := by
    rw [leNat_leBytes]
    exact BitVec.eq_of_toNat_eq (by simp [w32])
  exact congrArg (· :: []) whole

/-- REG_WRITE of one whole dword. -/
theorem exec_regWrite_dword (aligned : a % 4 = 0) (t : Bool) (v : Nat) :
    exec (.regWrite src t a (leBytes 4 v)) s = .next (s.writeDword src t a (w32 v)) := by
  have four : (leBytes 4 v).length = 4 := rfl
  have whole : ¬ (a % 4 ≠ 0 ∨ (leBytes 4 v).length < 4 ∨ (leBytes 4 v).length % 4 ≠ 0) := by omega
  change execRegWrite src t a (leBytes 4 v) s = _
  rw [execRegWrite, if_neg whole, dwordsOf_leBytes]
  rfl

/-- The access type by which a write of a page's offset is judged. -/
def accOf (k : PageKind) (o : Nat) : Access :=
  match regDesc k o with
  | some d => d.acc
  | none => .ro

/-- The write of a register of a page once it is taken. -/
def State.putReg (src : Source) (k : PageKind) (i o a : Nat) (v : Word) (s : State) : State :=
  match s.writeHead k i o v with
  | some t => t
  | none => s.pageWrite src k i o a v

theorem writePage_onPage (page : OnPage a k i o) :
    s.writePage src a v = s.guarded src a (accOf k o) (·.putReg src k i o a v) := by
  rw [State.writePage, pageAt_eq_some_iff.2 page]
  rfl

/-- An address of the PF space that is none of the MSI-X structures, the counters and the table windows. -/
structure PlainAddr (a : Nat) : Prop where
  low : a < 0x01000000
  msix : ¬ (0x10000 ≤ a ∧ a < 0x20200)
  ctr : ¬ (0x00C00000 ≤ a ∧ a < 0x00C80000)

theorem OnPage.plainAddr (page : OnPage a k i o) (pf : a < 0x04000000) : PlainAddr a := by
  have apart := page.plain pf
  constructor <;> omega

theorem writeDword_plain (plain : PlainAddr a) (t : Bool) :
    s.writeDword src t a v = if s.mayWrite src a = true then s.writePage src a v else s := by
  obtain ⟨low, msix, ctr⟩ := plain
  rw [State.writeDword, if_pos (by omega), State.writeSpace, if_neg (by omega : ¬ (0x10000 ≤ a ∧ a < 0x20000)),
    if_neg (by omega : ¬ (0x20000 ≤ a ∧ a < 0x20200)), if_neg ctr, if_neg (by omega : ¬ 0x01000000 ≤ a)]
  cases s.mayWrite src a <;> rfl

/-- A write of a register that is taken. -/
theorem writeDword_takes (page : OnPage a k i o) (pf : a < 0x04000000) (t : Bool)
    (takes : s.takes src a (accOf k o) = true) : s.writeDword src t a v = s.putReg src k i o a v := by
  have may : s.mayWrite src a = true := by
    unfold State.takes at takes
    exact (Bool.and_eq_true _ _ ▸ takes).1
  rw [writeDword_plain (page.plainAddr pf), if_pos may, writePage_onPage page, guarded_of_takes _ takes]

/-! ### Reads -/

/-- What a dword of a page reads as, and what its read does. -/
theorem readSpace_onPage (page : OnPage a k i o) (pf : a < 0x04000000) :
    s.readSpace src a = if (s.pageOn k i && s.present k i) = true then s.readPage src k i o a else (0, s) := by
  obtain ⟨table, pba, ctr, win⟩ := page.plain pf
  rw [State.readSpace, if_neg table, if_neg pba, if_neg ctr, if_neg win, pageAt_eq_some_iff.2 page]

theorem readAnswer_pf (pf : a < 0x04000000) (cold : s.pwr.warm = false) (open_ : src ≠ .jtag ∨ s.sec.dbg ≠ 0) (t : Bool) :
    s.readAnswer src t a = (s.readSpace src a).2.emit (.readData src (s.readSpace src a).1.toNat) := by
  rw [State.readAnswer, State.readDword, if_neg (fun h => open_.elim (· h.1) (· h.2)), cold, if_neg (by decide),
    if_pos pf]

/-- A read of what reads as zero answers zero, also to a JTAG port that may not read. -/
theorem readAnswer_zero (pf : a < 0x04000000) (cold : s.pwr.warm = false) (zero : s.readSpace src a = (0, s)) (t : Bool) :
    s.readAnswer src t a = s.emit (.readData src 0) := by
  by_cases open_ : src ≠ .jtag ∨ s.sec.dbg ≠ 0
  · rw [readAnswer_pf pf cold open_, zero]
    rfl
  · rw [State.readAnswer, State.readDword, if_pos (by tauto)]
    rfl

theorem exec_read_dword (aligned : a % 4 = 0) (t : Bool) : exec (.counterLoRead src t a 1) s = .next (s.readAnswer src t a) :=
  exec_counterLoRead_one s src t a (by omega)

end

end Sys2Proof.Machine
end

section
/-! PROOFS. The registers of a domain that is off (R437). -/

namespace Sys2Proof.Machine
open Sys2Proof

section
variable {s : State} {src : Source} {a i o c : Nat} {k : PageKind}

theorem pageOn_of_domain_off (off : k = .port ∧ s.domOn (1 + i / 32) = false ∨ k = .octet ∧ s.domOn (1 + i / 4) = false ∨
    (k = .swcore ∨ k = .ttu ∨ k = .home ∨ k = .carv ∨ k = .sheaf) ∧ s.domOn (25 + i) = false ∨
    (k = .ext ∨ k = .exd ∨ k = .dom ∨ k = .kvpool ∨ k = .kvseq ∨ k = .job) ∧ s.domOn 25 = false ∧ s.domOn 26 = false ∨
    k = .tile ∧ s.domOn (17 + i) = false ∨ k = .tier ∧ s.barnOn = false ∨ k = .gran ∧ s.domOn 29 = false ∨
    (k = .hostp ∨ k = .chain) ∧ s.domOn 30 = false) : s.pageOn k i = false := by
  rcases off with ⟨rfl, off⟩ | ⟨rfl, off⟩ | ⟨die, off⟩ | ⟨core, off, off'⟩ | ⟨rfl, off⟩ | ⟨rfl, off⟩ | ⟨rfl, off⟩ |
    ⟨edge, off⟩
  · simp [State.pageOn, off]
  · simp [State.pageOn, off]
  · rcases die with rfl | rfl | rfl | rfl | rfl <;> simp [State.pageOn, off]
  · rcases core with rfl | rfl | rfl | rfl | rfl | rfl <;> simp [State.pageOn, off, off']
  · simp [State.pageOn, off]
  · rw [State.pageOn, Bool.and_assoc, show (s.domOn 27 && s.domOn 28) = false from off, Bool.and_false]
  · simp [State.pageOn, off]
  · rcases edge with rfl | rfl <;> simp [State.pageOn, off]

theorem hostp_off (off : s.domOn 30 = false) : s.pageOn .hostp 0 = false := by simp [State.pageOn, off]

theorem vf_off (off : s.domOn 30 = false) (f : Nat) : s.pageOn .vf f = false := by simp [State.pageOn, off]

/-! ### Pages -/

theorem readSpace_page_off (page : OnPage a k i o) (pf : a < 0x04000000) (off : s.pageOn k i = false) :
    s.readSpace src a = (0, s) := by
  rw [readSpace_onPage page pf, if_neg (by simp [off])]

theorem writeDword_page_off (page : OnPage a k i o) (pf : a < 0x04000000) (off : s.pageOn k i = false)
    (other : src ≠ .loader) (t : Bool) (v : Word) : s.writeDword src t a v = s := by
  have unreached : s.reaches src k i = false := by simp [State.reaches, off, other]
  rw [writeDword_plain (page.plainAddr pf)]
  split
  next may =>
    rw [writePage_onPage page, State.guarded, may, pageAt_eq_some_iff.2 page]
    simp [unreached]
  next => rfl

/-! ### Sheaf counters and MSI-X structures -/

/-- `a` is an address of counter `c`, in one of the two windows. -/
def CtrAddr (a c : Nat) : Prop :=
  0x00C00000 + 16 * c ≤ a ∧ a < 0x00C00010 + 16 * c ∨ 0x00C40000 + 16 * c ≤ a ∧ a < 0x00C40010 + 16 * c

theorem CtrAddr.window (there : CtrAddr a c) (exists_ : c < 16384) : 0x00C00000 ≤ a ∧ a < 0x00C80000 := by
  unfold CtrAddr at there
  omega

/-- The counter that an address names. -/
theorem CtrAddr.index (there : CtrAddr a c) (exists_ : c < 16384) :
    (if decide (0x00C40000 ≤ a) = true then a - 0x00C40000 else a - 0x00C00000) / 16 = c := by
  unfold CtrAddr at there
  split
  next high => have := of_decide_eq_true high; omega
  next low => have := of_decide_eq_false (Bool.eq_false_iff.2 low); omega

theorem ctrOn_of_domain_off (off : s.domOn (25 + ctrDie c) = false) : s.ctrOn c = false := by
  simp [State.ctrOn, State.pageOn, off]

theorem readSpace_ctr_off (exists_ : c < 16384) (there : CtrAddr a c) (off : s.ctrOn c = false) :
    s.readSpace src a = (0, s) := by
  have window := there.window exists_
  rw [State.readSpace, if_neg (by omega), if_neg (by omega), if_pos window, State.readCtr]
  simp only [there.index exists_, off, Bool.not_false, if_true]

theorem writeDword_ctr_off (exists_ : c < 16384) (there : CtrAddr a c) (off : s.ctrOn c = false)
    (other : src ≠ .loader) (t : Bool) (v : Word) : s.writeDword src t a v = s := by
  have window := there.window exists_
  rw [State.writeDword, if_pos (by omega), State.writeSpace]
  cases s.mayWrite src a
  · rfl
  · rw [if_neg (by decide), if_neg (by omega), if_neg (by omega), if_pos window, State.writeCtr]
    simp only [there.index exists_]
    exact if_pos (by simp [off, other])

theorem readSpace_msix_off (low : 0x10000 ≤ a) (high : a < 0x20200) (off : s.domOn 30 = false) :
    s.readSpace src a = (0, s) := by
  rw [State.readSpace]
  split
  · rw [if_pos (.inr (hostp_off off))]
  · rw [if_pos (by omega), if_pos (.inr (hostp_off off))]

theorem writeDword_msix_off (low : 0x10000 ≤ a) (high : a < 0x20200) (off : s.domOn 30 = false) (t : Bool) (v : Word) :
    s.writeDword src t a v = s := by
  rw [State.writeDword, if_pos (by omega), State.writeSpace]
  split
  · rfl
  split
  · rw [if_pos (.inr (hostp_off off))]
  · rw [if_pos (by omega)]

/-! ### VF BARs -/

theorem readAnswer_vf_off (vf : 0x04000000 ≤ a) (cold : s.pwr.warm = false) (off : s.domOn 30 = false) (t : Bool) :
    s.readAnswer .host t a = s.emit (.readData .host 0) := by
  have zero (f o : Nat) : s.readVf .host f o t = (some 0, s) := by rw [State.readVf, vf_off off]; rfl
  rw [State.readAnswer, State.readDword, if_neg (by simp), cold, if_neg (by decide), if_neg (by omega), if_pos rfl, zero]
  rfl

theorem writeDword_vf_off (vf : 0x04000000 ≤ a) (cold : s.pwr.warm = false) (off : s.domOn 30 = false) (t : Bool)
    (v : Word) : s.writeDword .host t a v = s := by
  rw [State.writeDword, if_neg (by omega), if_pos rfl, cold, if_neg (by decide), State.writeVf, State.vfAccess, vf_off off]
  rfl

theorem exec_barnWindowRead_off (off : s.barnOn = false) (addr n : Nat) :
    exec (.barnWindowRead addr n) s = .next (s.emit (.windowData (List.replicate n (0, false)))) :=
  congrArg Host.Outcome.next (if_pos (by simp [off]))

/-- Settles O57: what is off reads as zero and takes no write. The addresses of the VF pages are the model's (log 30). -/
theorem offDomains : Obligations.OffDomains := by
  refine ⟨fun s src a v k i o page aligned pf other cold off => ?_,
    fun s src a v c exists_ aligned there other cold off => ?_, fun s src a v low high aligned cold off => ?_,
    fun s f o t v exists_ inside aligned cold off => ?_, fun s addr n off => exec_barnWindowRead_off off addr n,
    fun s n d _ => rfl⟩
  · have here := pageAt_eq_some_iff.1 page
    have off := pageOn_of_domain_off off
    rw [exec_read_dword aligned, exec_regWrite_dword aligned, writeDword_page_off here pf off other,
      readAnswer_zero pf cold (readSpace_page_off here pf off)]
    exact ⟨rfl, rfl⟩
  · have pf : a < 0x04000000 := by have := CtrAddr.window there exists_; omega
    have off := ctrOn_of_domain_off off
    rw [exec_read_dword aligned, exec_regWrite_dword aligned, writeDword_ctr_off exists_ there off other,
      readAnswer_zero pf cold (readSpace_ctr_off exists_ there off)]
    exact ⟨rfl, rfl⟩
  · rw [exec_read_dword aligned, exec_regWrite_dword aligned, writeDword_msix_off low high off,
      readAnswer_zero (by omega) cold (readSpace_msix_off low high off)]
    exact ⟨rfl, rfl⟩
  · have vf : 0x04000000 ≤ 0x04000000 + 0x10000 * f + o := by omega
    have aligned : (0x04000000 + 0x10000 * f + o) % 4 = 0 := by omega
    rw [exec_read_dword aligned, exec_regWrite_dword aligned, writeDword_vf_off vf cold off, readAnswer_vf_off vf cold off]
    exact ⟨rfl, rfl⟩

end

end Sys2Proof.Machine
end

section
/-! PROOFS. Register writes that store, LOCK, ERR_CLEAR, refused writes (R484 to R489) and table entries (R491). -/

namespace Sys2Proof.Machine
open Sys2Proof

section
variable {s : State} {src : Source} {a i o : Nat} {k : PageKind} {v : Word} {d : RegDesc}

/-! ### Registers that only store -/

theorem accOf_desc (desc : regDesc k o = some d) : accOf k o = d.acc := by rw [accOf, desc]

/-- The pages whose registers a write stores without a rule of its own. -/
def PlainPage (k : PageKind) : Prop := k = .ident ∨ k = .hostp ∨ k = .home

theorem pageWrite_plainPage (plain : PlainPage k) : s.pageWrite src k i o a v = s.storeReg src k a o v := by
  rcases plain with rfl | rfl | rfl <;> rfl

theorem storeReg_plainPage (plain : PlainPage k) (desc : regDesc k o = some d) (acc : d.acc = .rw ∨ d.acc = .rwl) :
    s.storeReg src k a o v = s.setRg a (v &&& w32 d.mask) := by
  have pairs : rwPairs k = [] := by rcases plain with rfl | rfl | rfl <;> rfl
  rw [State.storeReg, desc]
  rcases acc with acc | acc <;> simp [acc, pairs]

/-- The header registers with a rule of their own are CTRL, ERR_SEVERITY and INT_ENABLE, or no RW register. -/
theorem writeHead_of_stored (desc : regDesc k o = some d) (acc : d.acc = .rw ∨ d.acc = .rwl) (ctrl : o ≠ Adr.H_CTRL)
    (severity : o ≠ Adr.H_ERR_SEVERITY) (enable : o ≠ Adr.H_INT_ENABLE) : s.writeHead k i o v = none := by
  have other {q : Nat} {e : RegDesc} (there : regDesc k q = some e) (clears : e.acc ≠ .rw) (clears' : e.acc ≠ .rwl) :
      o ≠ q := by
    rintro rfl
    cases desc.symm.trans there
    exact acc.elim clears clears'
  have status : o ≠ Adr.H_ERR_STATUS := other rfl (by decide) (by decide)
  have interrupt : o ≠ Adr.H_INT_STATUS := other rfl (by decide) (by decide)
  have lock : o ≠ Adr.H_LOCK := other rfl (by decide) (by decide)
  rw [State.writeHead, if_neg ctrl, if_neg status, if_neg severity, if_neg interrupt, if_neg enable, if_neg lock]

theorem putReg_stored (plain : PlainPage k) (desc : regDesc k o = some d) (acc : d.acc = .rw ∨ d.acc = .rwl)
    (ctrl : o ≠ Adr.H_CTRL) (severity : o ≠ Adr.H_ERR_SEVERITY) (enable : o ≠ Adr.H_INT_ENABLE) :
    s.putReg src k i o a v = s.setRg a (v &&& w32 d.mask) := by
  rw [State.putReg, writeHead_of_stored desc acc ctrl severity enable]
  exact (pageWrite_plainPage plain).trans (storeReg_plainPage plain desc acc)

/-! ### The header: LOCK (R487) and ERR_CLEAR (R484) -/

theorem adr_inj {p q : Nat} : adr k i p = adr k i q ↔ p = q := by unfold adr; omega

theorem adr_add (p q : Nat) : adr k i p + q = adr k i (p + q) := Nat.add_assoc _ _ _

section
variable (page : OnPage a k i o) (pf : a < 0x04000000)
include page pf

/-- A write of header register `q` of the page that `a` lies in. -/
theorem writeDword_sibling {q : Nat} (off : q < 0x1000) (takes : s.takes src (adr k i q) (accOf k q) = true) :
    s.writeDword src false (a / 0x1000 * 0x1000 + q) v = s.putReg src k i q (adr k i q) v := by
  rw [page.sibling pf]
  exact writeDword_takes ⟨rfl, page.inst, off⟩ (page.pf pf q off) false takes

theorem exec_lockWrite (takes : s.takes src (adr k i Adr.H_LOCK) .w1s = true) :
    exec (.lockWrite src a v) s = .next (s.writeLock k i v) := by
  change execLockWrite src a v s = _
  rw [execLockWrite, pageAt_eq_some_iff.2 page, if_pos Option.isSome_some, writeDword_sibling page pf (by decide) takes]
  rfl

theorem exec_errClear (takes : s.takes src (adr k i Adr.H_CTRL) .rw = true) :
    exec (.errClear src a v) s = .next (s.writeCtrl k i (v ||| 2)) := by
  change execErrClear src a v s = _
  rw [execErrClear, pageAt_eq_some_iff.2 page, if_pos Option.isSome_some, writeDword_sibling page pf (by decide) takes]
  rfl

end

theorem writeLock_one (inv : s.Inv) (one : bit v 0 = true) : (s.writeLock k i v).locked k i = true ∧
    ∀ b, b ≠ adr k i Adr.H_LOCK → (s.writeLock k i v).rg b = s.rg b := by
  by_cases locked : s.locked k i = true
  · rw [State.writeLock, if_pos locked]
    exact ⟨locked, fun _ _ => rfl⟩
  · rw [State.writeLock, if_neg locked, if_pos one]
    refine ⟨?_, fun b other => rg_setRg_other _ _ _ _ other⟩
    rw [State.locked, rg_setRg_self _ _ _ inv.hub]
    rfl

theorem writeLock_zero (zero : bit v 0 = false) : s.writeLock k i v = s := by
  rw [State.writeLock, zero]
  exact ite_self s

/-- Interrupt messages leave the registers. -/
theorem msix_regs (s : State) (f n : Nat) : (s.msix f n).hub.regs = s.hub.regs := by
  unfold State.msix
  dsimp only
  split <;> rfl

theorem pfVector_regs (s : State) (n : Nat) : (s.pfVector n).hub.regs = s.hub.regs := by
  unfold State.pfVector
  split
  · rfl
  · exact msix_regs s 0 n

theorem intMessage_regs (s : State) (k : PageKind) (i : Nat) : (s.intMessage k i).hub.regs = s.hub.regs := by
  unfold State.intMessage
  dsimp only
  split
  · exact (foldl_reads (fun t => t.hub.regs) (fun t f => msix_regs t f 0) _ _).trans (pfVector_regs s _)
  · exact pfVector_regs s _

theorem rg_intAfter (s before : State) (k : PageKind) (i b : Nat) : (s.intAfter k i before).rg b = s.rg b := by
  refine rg_congr (foldl_reads (fun t => t.hub.regs) (fun t n => ?_) _ s) b
  split
  · exact intMessage_regs t k i
  · rfl

theorem rg_setCaps_below (cs : List Nat) (s : State) {a b : Nat} (below : b < a) : (s.setCaps a cs).rg b = s.rg b := by
  induction cs generalizing s a with
  | nil => rfl
  | cons c cs ih => exact (ih _ (by omega)).trans (rg_setRg_other _ _ _ _ (by omega))

theorem rg_setCaps_self (cs : List Nat) {s : State} (wf : s.hub.wf = true) (a : Nat) {n : Nat} (inside : n < cs.length) :
    (s.setCaps a cs).rg (a + 4 * n) = w32 (cs.getD n 0) := by
  induction cs generalizing s a n with
  | nil => exact absurd inside (Nat.not_lt_zero n)
  | cons c cs ih =>
    cases n with
    | zero => exact (rg_setCaps_below cs _ (by omega)).trans (rg_setRg_self _ _ _ wf)
    | succ n =>
      rw [Nat.mul_succ, Nat.add_comm (4 * n), ← Nat.add_assoc]
      exact ih (setRg_wf wf a _) (a + 4) (Nat.lt_of_succ_lt_succ inside)

theorem rg_errClear (inv : s.Inv) : (s.errClear k i).rg (adr k i Adr.H_ERR_STATUS) = 0 ∧
    (s.errClear k i).rg (adr k i Adr.H_ERR_FIRST) = 0 ∧
    ∀ c, c < 4 → (s.errClear k i).rg (adr k i Adr.H_ERR_CAPTURE + 4 * c) = 0 := by
  have status := setRg_wf inv.hub (adr k i Adr.H_ERR_STATUS) 0
  have first := setRg_wf status (adr k i Adr.H_ERR_FIRST) 0
  have order {p q : Nat} (h : p < q) : adr k i p < adr k i q := Nat.add_lt_add_left h _
  refine ⟨?_, ?_, fun c inside => ?_⟩
  · rw [State.errClear, rg_setCaps_below _ _ (order (by decide)), rg_setRg_other _ _ _ _ (order (by decide)).ne,
      rg_setRg_self _ _ _ inv.hub]
  · rw [State.errClear, rg_setCaps_below _ _ (order (by decide)), rg_setRg_self _ _ _ status]
  · rw [State.errClear, rg_setCaps_self _ first _ (by exact inside)]
    interval_cases c <;> rfl

theorem bits_or_two (v : Word) : bits (v ||| 2) 0 0 = bits v 0 0 := by
  rw [bits_single, bits_single]
  simp [bit]

/-- A write of CTRL with ERR_CLEAR clears the error registers of the page, and keeps INT_EN as written. -/
theorem writeCtrl_clears (inv : s.Inv) (v : Word) {t : State} (written : t = s.writeCtrl k i (v ||| 2)) :
    t.rg (adr k i Adr.H_ERR_STATUS) = 0 ∧ t.rg (adr k i Adr.H_ERR_FIRST) = 0 ∧
      (∀ c, c < 4 → t.rg (adr k i Adr.H_ERR_CAPTURE + 4 * c) = 0) ∧ t.rg (adr k i Adr.H_CTRL) = w32 (bits v 0 0) := by
  have clears : bit (v ||| 2) 1 = true := by simp [bit]
  have read (b : Nat) : t.rg b = ((s.errClear k i).setRg (adr k i Adr.H_CTRL) (w32 (bits v 0 0))).rg b := by
    rw [written, State.writeCtrl, if_pos clears, rg_intAfter, bits_or_two]
  have above {q : Nat} (h : Adr.H_CTRL < q) : adr k i q ≠ adr k i Adr.H_CTRL := adr_inj.not.2 h.ne'
  have wf : (s.errClear k i).hub.wf = true := (State.errClear_inv (pmk := 1) k i s (keeps_refl inv) rfl).inv.hub
  obtain ⟨status, first, captures⟩ := rg_errClear (k := k) (i := i) inv
  refine ⟨?_, ?_, fun c inside => ?_, ?_⟩
  · rw [read, rg_setRg_other _ _ _ _ (above (by decide)), status]
  · rw [read, rg_setRg_other _ _ _ _ (above (by decide)), first]
  · have there := captures c inside
    rw [adr_add] at there ⊢
    rw [read, rg_setRg_other _ _ _ _ (above (by simp only [Adr.H_CTRL, Adr.H_ERR_CAPTURE]; omega)), there]
  · rw [read, rg_setRg_self _ _ _ wf]

/-- Settles O17. -/
theorem registerWrites : Obligations.RegisterWrites := by
  refine ⟨fun s src a k i o d inv page plain desc acc ctrl severity enable takes aligned low msix ctr v => ?_,
    fun s src a k i o v inv page takes low msix ctr one => ?_, fun s src a k i o v inv page takes low msix ctr zero => ?_,
    fun s src a k i o v inv page takes low msix ctr => ?_⟩
  · have pf : a < 0x04000000 := by omega
    refine ⟨s.setRg a (w32 v &&& w32 d.mask), ?_, rg_setRg_self _ _ _ inv.hub, fun b other => rg_setRg_other _ _ _ _ other⟩
    rw [exec_regWrite_dword aligned, writeDword_takes (pageAt_eq_some_iff.1 page) pf false (accOf_desc desc ▸ takes),
      putReg_stored plain desc acc ctrl severity enable]
  · exact ⟨_, exec_lockWrite (pageAt_eq_some_iff.1 page) (by omega) takes, writeLock_one inv one⟩
  · rw [exec_lockWrite (pageAt_eq_some_iff.1 page) (by omega) takes, writeLock_zero zero]
  · exact ⟨_, exec_errClear (pageAt_eq_some_iff.1 page) (by omega) takes, writeCtrl_clears inv v rfl⟩

/-! ### Refused writes (R487, R489) -/

/-- A write refused with a count at `c`, and the first one captured. -/
def State.refusedAs (src : Source) (c kind a : Nat) (s : State) : State :=
  (s.refuse.bump c 1).refuseCapture src kind a

theorem refusedAs_cnts (s : State) (src : Source) (c kind a : Nat) :
    (s.refusedAs src c kind a).hub.cnts = s.hub.cnts.modify c (· + 1) := by
  unfold State.refusedAs State.refuseCapture
  split <;> rfl

theorem rg_refusedAs_other (s : State) (src : Source) (c kind a : Nat) {b : Nat}
    (other : b ≠ Adr.IDENT_REFUSE_CAPTURE) : (s.refusedAs src c kind a).rg b = s.rg b := by
  unfold State.refusedAs State.refuseCapture
  split
  · rfl
  · exact rg_setRg_other _ _ _ _ other

theorem rg_refusedAs_new (inv : s.Inv) (c kind : Nat) (fresh : bit (s.rg Adr.IDENT_REFUSE_CAPTURE) 31 = false) :
    (s.refusedAs src c kind a).rg Adr.IDENT_REFUSE_CAPTURE =
      w32 (2 ^ 31 + srcNo src * 2 ^ 29 + kind * 2 ^ 27 + nbits a 25 2 * 4) := by
  have wf : (s.refuse.bump c 1).hub.wf = true := setCnt_wf (s := s.refuse) inv.hub _ _
  rw [State.refusedAs, State.refuseCapture, if_neg (by rw [rg_bump]; exact Bool.eq_false_iff.1 fresh),
    rg_setRg_self _ _ _ wf]

theorem rg_refusedAs_held (c kind : Nat) (held : bit (s.rg Adr.IDENT_REFUSE_CAPTURE) 31 = true) :
    (s.refusedAs src c kind a).rg Adr.IDENT_REFUSE_CAPTURE = s.rg Adr.IDENT_REFUSE_CAPTURE := by
  rw [State.refusedAs, State.refuseCapture, if_pos (by rw [rg_bump]; exact held)]
  rfl

theorem writeDword_locked (page : OnPage a k i o) (pf : a < 0x04000000) (desc : regDesc k o = some d)
    (acc : d.acc = .rwl) (takes : s.takes src a .rw = true) (locked : s.locked k i = true) :
    s.writeDword src false a v = s.refusedAs src Adr.IDENT_LOCK_REFUSED 0 a := by
  unfold State.takes at takes
  simp only [pageAt_eq_some_iff.2 page, Bool.and_eq_true, and_true] at takes
  obtain ⟨may, reaches, present⟩ := takes
  rw [writeDword_plain (page.plainAddr pf), if_pos may, writePage_onPage page, accOf_desc desc, acc, State.guarded, may,
    pageAt_eq_some_iff.2 page]
  simp only [reaches, present, locked, Bool.not_true, Bool.false_eq_true, if_false, if_true]
  rfl

theorem writeDword_unmapped (plain : PlainAddr a) (none_ : pageAt a = none) (may : s.mayWrite src a = true) :
    s.writeDword src false a v = s.refusedAs src Adr.IDENT_UNMAPPED_WRITES 2 a := by
  rw [writeDword_plain plain, if_pos may, State.writePage, none_]
  rfl

/-- Settles O18. -/
theorem refusedWrites : Obligations.RefusedWrites := by
  refine ⟨fun s src a k i o d v inv page desc acc takes locked aligned low msix ctr => ?_,
    fun s src a v inv page may aligned low msix ctr => ?_⟩
  · refine ⟨s.refusedAs src Adr.IDENT_LOCK_REFUSED 0 a, ?_, fun b other => rg_refusedAs_other _ _ _ _ _ other,
      refusedAs_cnts _ _ _ _ _, fun fresh => ?_, fun held => rg_refusedAs_held _ _ held⟩
    · rw [exec_regWrite_dword aligned, writeDword_locked (pageAt_eq_some_iff.1 page) (by omega) desc acc takes locked]
    · rw [rg_refusedAs_new inv _ _ fresh, Nat.zero_mul, Nat.add_zero]
  · refine ⟨s.refusedAs src Adr.IDENT_UNMAPPED_WRITES 2 a, ?_, fun b other => rg_refusedAs_other _ _ _ _ _ other,
      refusedAs_cnts _ _ _ _ _, fun fresh => rg_refusedAs_new inv _ _ fresh⟩
    rw [exec_regWrite_dword aligned, writeDword_unmapped ⟨low, msix, ctr⟩ page may]

/-! ### Table entries (R491) -/

section
variable {w : Win} {n b size : Nat} (entry : winAt a = some (w, n, b, size)) (aligned : a % 4 = 0)
  (window : 0x01000000 ≤ a) (pf : a < 0x04000000) (may : s.mayWrite src a = true) (on : s.winOn w n = true)
include entry aligned window pf may on

theorem exec_tableWindowWrite_entry (writable : w.ro = false) (whole : w ≠ .groups) :
    exec (.tableWindowWrite src a v) s = .next (s.writeEntry src w n b size a v) := by
  change execTableWindowWrite src a v s = _
  rw [execTableWindowWrite, if_pos ⟨window, pf⟩, (by omega : a / 4 * 4 = a), State.writeDword, if_pos pf,
    State.writeSpace, may, if_neg (by decide), if_neg (by omega), if_neg (by omega), if_neg (by omega), if_pos window,
    State.writeWin, entry]
  simp only [on, writable, whole, Bool.true_or, Bool.not_true, Bool.or_self, Bool.false_eq_true, if_false]

end

theorem writeEntry_low {w : Win} {n b size : Nat} (low : a ≠ b + size - 4) : s.writeEntry src w n b size a v =
    s.setStage src (some (b, (a, v) :: (s.stagedFor src b).filter fun e => e.1 != a)) :=
  if_neg low

theorem writeEntry_highest {w : Win} {n b size : Nat} (highest : a = b + size - 4) (staged : s.stagedFor src b ≠ []) :
    s.writeEntry src w n b size a v = (s.setStage src none).commitEntry w n b size
      (s.merged ((a, v) :: s.stagedFor src b) b (size / 4)) := by
  rw [State.writeEntry, if_pos highest, if_neg (by simp [staged])]

/-- Settles O19. -/
theorem tableEntryWrite : Obligations.TableEntryWrite := by
  refine ⟨fun s src a v w n b size entry aligned window pf may on writable whole low => ?_,
    fun s src a v w n b size entry aligned window pf may on kind highest staged => ?_⟩
  · refine ⟨_, exec_tableWindowWrite_entry entry aligned window pf may on writable whole, ?_⟩
    beta_reduce
    rw [writeEntry_low low]
  · have plain : w.ro = false ∧ w ≠ .groups := by rcases kind with rfl | rfl | rfl | rfl | rfl <;> decide
    rw [exec_tableWindowWrite_entry entry aligned window pf may on plain.1 plain.2, writeEntry_highest highest staged]
    rcases kind with rfl | rfl | rfl | rfl | rfl <;> rfl

end

end Sys2Proof.Machine
end

section
/-! PROOFS. Reads that act (R288, R453, R490, R492). -/

namespace Sys2Proof.Machine
open Sys2Proof

section
variable {s u : State} {src : Source} {a i o : Nat} {k : PageKind} {v : Word}

/-- What a read of a page that is on answers, from what the page reads. -/
theorem readAnswer_page (page : OnPage a k i o) (pf : a < 0x04000000) (on : s.pageOn k i = true)
    (present : s.present k i = true) (cold : s.pwr.warm = false) (open_ : src ≠ .jtag ∨ s.sec.dbg ≠ 0)
    (read : s.readPage src k i o a = (v, u)) : s.readAnswer src false a = u.emit (.readData src v.toNat) := by
  rw [readAnswer_pf pf cold open_, readSpace_onPage page pf, if_pos (by simp [on, present]), read]

theorem readPage_port_latches (latch : latches .port o = true) : s.readPage src .port i o a =
    (s.regView .port i o, s.latch src (a + 4) (s.regView .port i (o + 4))) := by
  rw [State.readPage, if_neg (by simp), if_neg (by simp), if_neg (by simp), if_neg (by simp), if_neg (by simp),
    if_neg (by simp), if_pos latch]

/-- The state with the oldest counter event of a die gone from its queue. -/
def State.eventGone (d : Nat) (cs : List Nat) (s : State) : State :=
  s.modCtr fun u => if d = 0 then { u with events0 := cs } else { u with events1 := cs }

theorem readPage_ctrEvent {d c : Nat} {cs : List Nat} (queue : s.ctrEvents d = c :: cs) :
    s.readPage src .sheaf d 0x114 a = (w32 (2 ^ 31 + c), s.eventGone d cs) := by
  rw [State.readPage, if_pos ⟨rfl, rfl⟩, State.popEvent, queue]
  rfl

theorem ctrEvents_eventGone {d : Nat} (die : d < 2) (cs : List Nat) :
    (s.eventGone d cs).ctrEvents d = cs ∧ (s.eventGone d cs).ctrEvents (1 - d) = s.ctrEvents (1 - d) := by
  interval_cases d <;> exact ⟨rfl, rfl⟩

theorem exec_ctrEventRead {d : Nat} (die : d < 2) :
    exec (.ctrEventRead src d) s = .next (s.readAnswer src false (Adr.SHEAF_CTR_EVENT d)) :=
  congrArg Host.Outcome.next (if_pos die)

theorem onPage_ctrEvent {d : Nat} (die : d < 2) : OnPage (Adr.SHEAF_CTR_EVENT d) .sheaf d 0x114 :=
  ⟨by simp only [adr, pageBase, pageStride, Adr.SHEAF_CTR_EVENT], die, by decide⟩

theorem onPage_rdData : OnPage Adr.SAVE_RD_DATA .save 0 0x124 := ⟨rfl, by decide, by decide⟩

/-- Settles O21. -/
theorem readsThatAct : Obligations.ReadsThatAct := by
  refine ⟨fun s src a p o page aligned low high latch on exists_ cold open_ => ?_,
    fun s src d c cs die queue on cold open_ => ?_, fun s src inv cold open_ => ?_⟩
  · refine ⟨_, exec_read_dword aligned false, ?_⟩
    rw [readAnswer_page (pageAt_eq_some_iff.1 page) (by omega) on exists_ cold open_ (readPage_port_latches latch)]
    exact ⟨rfl, rfl⟩
  · refine ⟨_, exec_ctrEventRead die, ?_⟩
    rw [readAnswer_page (onPage_ctrEvent die) (by simp only [Adr.SHEAF_CTR_EVENT]; omega) on rfl cold open_
      (readPage_ctrEvent queue)]
    exact ⟨rfl, ctrEvents_eventGone die cs⟩
  · refine ⟨s.rdData.2.emit (.readData src (w32 s.rdData.1).toNat), congrArg Host.Outcome.next ?_, rfl,
      rg_setRg_self _ _ _ inv.hub, fun b other => rg_setRg_other _ _ _ _ other⟩
    exact readAnswer_page onPage_rdData (by decide) rfl rfl cold open_ rfl

end

end Sys2Proof.Machine
end

section
/-! PROOFS. The barn window and BWIN (R497, R498). -/

namespace Sys2Proof.Machine
open Sys2Proof

section
variable {s : State} {src : Source} {v : Word}

theorem barn_setRg (s : State) (a : Nat) (v : Word) : (s.setRg a v).barn = s.barn := rfl

theorem barn_setRg64 (s : State) (a n : Nat) : (s.setRg64 a n).barn = s.barn := rfl

theorem barn_setPoison (s : State) (line : Nat) (mark : Bool) : (s.setPoison line mark).barn = s.barn := rfl

/-- The poison marks of a store leave its bytes. -/
theorem barn_storeMarked (s : State) (a : Nat) (bs : List Byte) (mark : Bool) :
    (s.storeMarked a bs mark).barn = (s.setBarn a bs).barn :=
  foldl_reads State.barn (fun t line => barn_setPoison t line _) _ _

/-! ### The window (R497) -/

section
variable {a n : Nat} (live : s.live = true) (on : s.barnOn = true)
include live on

theorem exec_barnWindowRead (shown : s.windowRefused a n false = false) :
    exec (.barnWindowRead a n) s = .next (s.emit (.windowData ((List.range n).map fun i => s.windowByte (a + i)))) := by
  change execBarnWindowRead a n s = _
  rw [execBarnWindowRead, if_neg (by simp [live, on]), if_neg (by simp [shown])]

theorem exec_barnWindowWrite {d : List Byte} (shown : s.windowRefused a d.length true = false) :
    exec (.barnWindowWrite a d) s = .next (s.storeMarked a (d.take (barnSize - a)) false) := by
  change execBarnWindowWrite a d s = _
  rw [execBarnWindowWrite, if_neg (by simp [live, on]), if_neg (by simp [shown])]

end

/-! ### BWIN (R498) -/

/-- A command of BWIN that its checks let through. -/
structure BwinGo (s : State) (src : Source) (v : Word) : Prop where
  takes : s.takes src Adr.BWIN_CMD .wo = true
  go : bit v 31 = true
  some_ : 0 < bits v 8 0
  most : bits v 8 0 ≤ 256
  on : s.barnOn = true
  inside : s.rg64 Adr.BWIN_ADDR_LO + bits v 8 0 ≤ barnSize
  shown : s.windowRefused (s.rg64 Adr.BWIN_ADDR_LO) (bits v 8 0) (bit v 24) = false

/-- What a BWIN command does before ADDR moves on. -/
def State.bwinAct (v : Word) (s : State) : State :=
  let a := s.rg64 Adr.BWIN_ADDR_LO
  let n := bits v 8 0
  if bit v 24 then (s.storeMarked a (s.bwinData.take n) false).bwinDone false 0
  else (s.setBwinData (s.barnBytes a n ++ s.bwinData.drop n)).bwinDone ((linesOf a n).any s.poisoned) 0

theorem bwinCmd_of_go (runs : BwinGo s src v) : s.bwinCmd v =
    State.setRg64 Adr.BWIN_ADDR_LO (s.rg64 Adr.BWIN_ADDR_LO + bits v 8 0) (s.bwinAct v) := by
  obtain ⟨-, go, some_, most, on, inside, shown⟩ := runs
  rw [State.bwinCmd, if_neg (by simp [go]), if_neg (by omega), if_neg (by simp [on]; omega), if_neg (by simp [shown])]
  rfl

theorem exec_bwin (runs : BwinGo s src v) :
    exec (if bit v 24 = true then .bwinWrite src v else .bwinRead src v) s = .next (s.bwinCmd v) := by
  have acts : s.guarded src Adr.BWIN_CMD .wo (·.bwinCmd v) = s.bwinCmd v := guarded_of_takes _ runs.takes
  cases write : bit v 24
  · exact congrArg Host.Outcome.next ((if_neg (by simp [write])).trans acts)
  · exact congrArg Host.Outcome.next ((if_pos write).trans acts)

theorem length_bwinData (s : State) : s.bwinData.length = 256 := by
  have four (i : Nat) : (leBytes 4 (s.rg (Adr.BWIN_DATA i)).toNat).length = 4 := rfl
  simp [State.bwinData, List.length_flatMap, four]

/-- What a BWIN write leaves in the barn and in ADDR. -/
theorem bwinCmd_write (inv : s.Inv) (runs : BwinGo s src v) (write : bit v 24 = true) :
    (∀ i, i < bits v 8 0 → (s.bwinCmd v).barn (s.rg64 Adr.BWIN_ADDR_LO + i) = s.bwinData.getD i 0) ∧
    (∀ b, b < s.rg64 Adr.BWIN_ADDR_LO ∨ s.rg64 Adr.BWIN_ADDR_LO + bits v 8 0 ≤ b → (s.bwinCmd v).barn b = s.barn b) ∧
    (s.bwinCmd v).rg64 Adr.BWIN_ADDR_LO = s.rg64 Adr.BWIN_ADDR_LO + bits v 8 0 := by
  have length : (s.bwinData.take (bits v 8 0)).length = bits v 8 0 := by
    rw [List.length_take, length_bwinData, Nat.min_eq_left runs.most]
  have acted : s.bwinAct v =
      (s.storeMarked (s.rg64 Adr.BWIN_ADDR_LO) (s.bwinData.take (bits v 8 0)) false).bwinDone false 0 := if_pos write
  have stored : (s.bwinCmd v).barn = (s.setBarn (s.rg64 Adr.BWIN_ADDR_LO) (s.bwinData.take (bits v 8 0))).barn := by
    rw [bwinCmd_of_go runs, acted, barn_setRg64, State.bwinDone, barn_setRg, barn_storeMarked]
  have wf : (s.bwinAct v).hub.wf = true := by
    rw [acted]
    exact setRg_wf (State.storeMarked_inv (pmk := 128) _ _ _ s (keeps_refl inv) rfl).inv.hub _ _
  have inside := runs.inside
  refine ⟨fun i within => ?_, fun b outside => ?_, ?_⟩
  · rw [stored, barn_setBarn_self _ _ _ _ inv.mem (by rwa [length]), List.getD_eq_getElem?_getD, List.getElem?_take,
      if_pos within, List.getD_eq_getElem?_getD]
  · rw [stored, barn_setBarn_other _ _ _ _ (by rwa [length])]
  · rw [bwinCmd_of_go runs, rg64_setRg64 wf _ (lt_of_le_of_lt inside (by decide))]

/-- Settles O25. That a BWIN command completes at once, and that a region of the tier is hidden only while the tier is on,
are the model's choices (log 10, 35). -/
theorem barnWindow : Obligations.BarnWindow := by
  refine ⟨fun s a n live on shown => exec_barnWindowRead live on shown, fun s a d inv live on shown => ?_,
    fun s src v takes go read some_ most on inside shown => ?_,
    fun s src v inv takes go write some_ most on inside shown => ?_⟩
  · refine ⟨_, exec_barnWindowWrite live on shown, fun i within inside => ?_, fun b outside => ?_⟩
    · rw [barn_storeMarked, barn_setBarn_self _ _ _ _ inv.mem (by rw [List.length_take]; omega),
        List.getD_eq_getElem?_getD, List.getElem?_take, if_pos (by omega), List.getD_eq_getElem?_getD]
    · rw [barn_storeMarked, barn_setBarn_other _ _ _ _ (by rw [List.length_take]; omega)]
  · have runs : BwinGo s src v := ⟨takes, go, some_, most, on, inside, read ▸ shown⟩
    have ran := exec_bwin runs
    rw [read, if_neg (by decide), bwinCmd_of_go runs, State.bwinAct, read] at ran
    exact ran
  · have runs : BwinGo s src v := ⟨takes, go, some_, most, on, inside, write ▸ shown⟩
    have ran := exec_bwin runs
    rw [write, if_pos rfl] at ran
    exact ⟨_, ran, bwinCmd_write inv runs write⟩

end

end Sys2Proof.Machine
end

section
/-! PROOFS. Audits and the setting of the observation registers (R468 to R470, R473, R475, R476). -/

namespace Sys2Proof.Machine
open Sys2Proof

section
variable {s : State} {src : Source} {i w : Nat} {v : Word}

/-! ### Audits -/

/-- The state in which an audit of what is found now has been started. -/
def State.auditStarted (s : State) : State :=
  let j := s.modFlt fun f => { f with auditAt := s.ns }
  ((j.modFlt fun f => { f with running := true, found := j.auditAll }).setRf
    Adr.FAULT_AUDIT_STATUS 12 1 0).restartShapers

/-- The first boundary starts an audit where none runs. -/
theorem auditDue_first (one : s.boundaries s.flt.auditAt s.ns = 1) (enabled : bit (s.rg Adr.FAULT_AUDIT_CFG) 31 = true)
    (run : s.pwr.pstate = .run) (idle : s.flt.running = false) : s.auditDue = s.auditStarted := by
  have cfg : bit ((s.modFlt fun f => { f with auditAt := s.ns }).rg Adr.FAULT_AUDIT_CFG) 31 = true := enabled
  unfold State.auditDue
  simp only [one, cfg, run, idle, State.modFlt_pwr, State.modFlt_flt]
  rfl

/-- The audit that runs ends, before everything found is reported. -/
def State.auditEnded (s : State) : State := s.modFlt fun f => { f with running := false, found := [] }

theorem exec_auditComplete (broken : List (Nat × Nat × Nat × Nat)) (runs : s.flt.running = true) :
    ∃ u : State, exec (.auditComplete broken) s = .next (State.bump Adr.FAULT_AUDITS 1
        (State.setRg64 Adr.FAULT_AUDIT_EPOCH_LO (u.rg64 Adr.FAULT_AUDIT_EPOCH_LO + 1) u)) ∧
      u = (s.flt.found ++ broken.filter fun f => s.auditRuns f.1 f.2.1).foldl (fun s f => s.auditReport f)
        s.auditEnded :=
  ⟨_, congrArg Host.Outcome.next (if_neg (by simp [runs])), rfl⟩

/-! ### The observation registers -/

theorem rg_setCnt (s : State) (a : Nat) (c : BitVec 64) (b : Nat) : (s.setCnt a c).rg b = s.rg b := rfl

/-- A register set and a count restarted. -/
theorem setRg_setCnt_reads (inv : s.Inv) (a c : Nat) (v : Word) :
    ((s.setRg a v).setCnt c 0).rg a = v ∧ ((s.setRg a v).setCnt c 0).cnt c = 0 ∧
      ∀ b, b ≠ a → ((s.setRg a v).setCnt c 0).rg b = s.rg b := by
  refine ⟨?_, cnt_setCnt_self _ _ _ (setRg_wf inv.hub _ _), fun b other => ?_⟩
  · rw [rg_setCnt, rg_setRg_self _ _ _ inv.hub]
  · rw [rg_setCnt, rg_setRg_other _ _ _ _ other]

theorem exec_gctrSelWrite (exists_ : i < 64) (takes : s.takes src (Adr.OBS_GCTR_SEL i) .rw = true)
    (event : bits v 23 16 ≠ 0) (listed : bits v 23 16 ≤ 0x13) (die : bits v 30 29 ≠ 3) :
    exec (.gctrSelWrite src i v) s =
      .next ((s.setRg (Adr.OBS_GCTR_SEL i) (v &&& 0xE0FFF9FF)).setCnt (Adr.OBS_GCTR_VALUE_LO i) 0) := by
  change execGctrSelWrite src i v s = _
  rw [execGctrSelWrite, if_pos exists_, guarded_of_takes _ takes, State.writeGctrSel, if_neg (by omega)]

theorem exec_wpCtrlWrite (exists_ : w < 64) (takes : s.takes src (Adr.OBS_WP_CTRL w) .rw = true) :
    exec (.wpCtrlWrite src w v) s =
      .next ((s.setRg (Adr.OBS_WP_CTRL w) (v &&& 0xFFEFFFFF)).setCnt (Adr.OBS_WP_COUNT_LO w) 0) :=
  congrArg Host.Outcome.next ((if_pos exists_).trans (guarded_of_takes _ takes))

theorem exec_traceUnfreeze (takes : s.takes src Adr.OBS_TRACE_CTRL .wo = true) (unfreeze : bit v 0 = true) :
    exec (.traceUnfreeze src v) s = .next (s.modObs fun o => { o with frozen := false }) :=
  congrArg Host.Outcome.next ((guarded_of_takes _ takes).trans (if_pos unfreeze))

/-- Settles O27. That mismatches which only a fault of the hardware can show are an operand, and that a selection of event
0 is refused, are the model's choices (log 45). -/
theorem auditsAndObservation : Obligations.AuditsAndObservation := by
  refine ⟨fun s one enabled run idle => ?_, fun s broken runs => exec_auditComplete broken runs,
    fun s src i v inv exists_ takes event listed die => ?_, fun s src w v inv exists_ takes => ?_,
    fun s src v takes unfreeze => ⟨_, exec_traceUnfreeze takes unfreeze, rfl⟩⟩
  · refine ⟨s.auditDue, rfl, ?_⟩
    rw [auditDue_first one enabled run idle]
    exact ⟨rfl, rfl⟩
  · exact ⟨_, exec_gctrSelWrite exists_ takes event listed die, setRg_setCnt_reads inv _ _ _⟩
  · exact ⟨_, exec_wpCtrlWrite exists_ takes, setRg_setCnt_reads inv _ _ _⟩

end

end Sys2Proof.Machine
end

section
/-! PROOFS. Host requests and completions (R419 to R423, Table 16-5). -/

namespace Sys2Proof.Machine
open Sys2Proof

section
variable {s u v : State} {p f c j n : Nat} {k : Packet} {g : HTag} {r : HostReq} {st : CplStatus} {d : List Byte} {b : Bool}

/-! ### Requests (R419, R420) -/

/-- An MREQ for a host EID whose head passes the checks of its job. -/
structure HostRx (s : State) (p : Nat) (k : Packet) (f c j : Nat) (u v : State) : Prop where
  fn : s.hostFn (ingressDie p) k = some f
  mreq : k.cls = 8
  taken : s.takeLocal p k = (some c, u)
  head : u.checkHead (ingressDie p) (mreqBad k) k = (.ok j, v)

/-- The request comes from the PF, or from an enabled VF bound to the slot of the job. -/
def State.fnBound (s : State) (f j : Nat) : Prop := f = 0 ∨ s.vfOn f = true ∧ s.vfSlot f = some j

theorem not_unbound (bound : v.fnBound f j) : ¬ (f ≠ 0 ∧ (v.vfOn f = false ∨ v.vfSlot f ≠ some j)) := by
  rintro ⟨vf, unbound⟩
  obtain ⟨on, slot⟩ := bound.resolve_left vf
  exact unbound.elim (by simp [on]) (· slot)

theorem exec_hostRequest_none (other : s.hostFn (ingressDie p) k = none) : exec (.hostRequest p k) s = .next s.hostRun := by
  change execHostRequest p k s = _
  rw [execHostRequest, other]

section
variable (rx : HostRx s p k f c j u v)
include rx

theorem exec_hostRequest : exec (.hostRequest p k) s = .next (u.hostRx (ingressDie p) f k (some c)) := by
  obtain ⟨fn, mreq, taken, -⟩ := rx
  change execHostRequest p k s = _
  rw [execHostRequest, fn]
  dsimp only
  rw [if_pos mreq, taken]

theorem exec_hostRequest_unbound (vf : f ≠ 0) (unbound : v.vfOn f = false ∨ v.vfSlot f ≠ some j) :
    exec (.hostRequest p k) s =
      .next (State.freeLocal (some c) ((v.violation (ingressDie p) j 2 k none).respond (ingressDie p) k 2)) := by
  rw [exec_hostRequest rx, State.hostRx, rx.head]
  dsimp only
  rw [if_pos ⟨vf, unbound⟩]

section
variable (bound : v.fnBound f j)
include bound

theorem exec_hostRequest_muted (muted : v.mayIssue f = false) :
    exec (.hostRequest p k) s = .next (State.freeLocal (some c) (v.respond (ingressDie p) k 7)) := by
  rw [exec_hostRequest rx, State.hostRx, rx.head]
  dsimp only
  rw [if_neg (not_unbound bound), if_pos (by simp [muted])]

/-- Outside SEALED no request is refused by the security rules. -/
theorem exec_hostRequest_queued (issues : v.mayIssue f = true) (mode : v.sec.mode ≠ .sealed)
    (atomic : k.op ≠ 3 ∨ pcieAtomicOk k = true ∧ v.host.atomicEn = true) : exec (.hostRequest p k) s =
      .next (State.hostRun (State.setHreq v.nextId (some
        { die := ingressDie p, slot := j, fn := f, t := false, pkt := k, cells := some c
          todo := if k.op = 0 then hostCuts k.fva v.host.mrrs 128 0 k.size else if k.op = 3 then [(0, k.size)] else [] })
        (v.takeNames 1))) := by
  have unsealed : v.isSealed = false := by simp [State.isSealed, mode]
  have offered : ¬ (k.op = 3 ∧ (pcieAtomicOk k = false ∨ v.host.atomicEn = false)) := by
    rintro ⟨op, missing⟩
    obtain ⟨ok, enabled⟩ := atomic.resolve_left (not_not.2 op)
    exact missing.elim (by simp [ok]) (by simp [enabled])
  rw [exec_hostRequest rx, State.hostRx, rx.head]
  dsimp only
  rw [if_neg (not_unbound bound), if_neg (by simp [issues]), unsealed, if_neg (by simp), if_neg offered]
  rfl

end

end

/-! ### Completions (R421, R423) -/

theorem exec_hostCompletion_unexpected (none_ : s.host.tags.get n = none) :
    exec (.hostCompletion n st d b) s = .next (State.emit (.aer 0) (s.bump Adr.HOSTP_UNEXP_CPL 1)) := by
  change execHostCompletion n st d b s = _
  rw [execHostCompletion, none_]

section
variable (tag : s.host.tags.get n = some g)
include tag

theorem exec_hostCompletion_quarantined (quar : g.quar = true) : exec (.hostCompletion n st d b) s = .next (State.hostRun
    (if g.reset then State.emit (.aer g.fn) ((s.setHtag n none).bump Adr.HOSTP_UNEXP_CPL 1)
      else (s.setHtag n none).bump Adr.HOSTP_LATE_CPL 1)) := by
  change execHostCompletion n st d b s = _
  rw [execHostCompletion, tag]
  dsimp only
  rw [if_pos quar]

section
variable (live : g.quar = false) (req : s.hreq g.req = some r)
include live req

theorem exec_hostCompletion_held : exec (.hostCompletion n st d b) s = .next (s.hostCpl n g r st d b).hostRun := by
  change execHostCompletion n st d b s = _
  rw [execHostCompletion, tag]
  dsimp only
  rw [if_neg (by simp [live]), req]

theorem exec_hostCompletion_whole (whole : g.len ≤ d.length) : exec (.hostCompletion n .success d b) s =
    .next (State.hostRun (State.hostSettle g.req (State.setHtag n none (s.setHreq g.req (some { r with
      data := r.data.set g.off (some (d.take g.len))
      pmap := if b then r.pmap ||| chunkBits g.off g.len else r.pmap, open_ := r.open_ - 1 }))))) := by
  have length : (d.take g.len).length = g.len := by rw [List.length_take, Nat.min_eq_left whole]
  rw [exec_hostCompletion_held tag live req, State.hostCpl, if_pos rfl]
  simp only [length, beq_self_eq_true, if_true]

theorem exec_hostCompletion_part (part : d.length < g.len) : exec (.hostCompletion n .success d b) s =
    .next (State.hostRun (State.setHtag n (some { g with off := g.off + d.length, len := g.len - d.length })
      (s.setHreq g.req (some { r with
        data := r.data.set g.off (some d), pmap := if b then r.pmap ||| chunkBits g.off d.length else r.pmap })))) := by
  rw [exec_hostCompletion_held tag live req, State.hostCpl, if_pos rfl]
  simp only [List.take_of_length_le part.le, beq_eq_false_iff_ne.2 part.ne, Bool.false_eq_true, if_false]

/-- What a request that fails still holds of cells: none once nothing of it waits to be sent. -/
def HostReq.heldCells (r : HostReq) : Option Nat := if r.todo = [] then none else r.cells

omit tag live req in
theorem heldCells_eq (r : HostReq) : (if r.todo.isEmpty = true then none else r.cells) = r.heldCells := by
  simp only [List.isEmpty_iff, HostReq.heldCells]

theorem exec_hostCompletion_failed (failed : st ≠ .success) : exec (.hostCompletion n st d b) s =
    .next (State.hostRun (State.hostSettle g.req (State.freeLocal r.heldCells
      (State.setHreq g.req (some { r.fail 2 with cells := none })
        (State.violation r.die r.slot 2 r.pkt none (State.raise Err.hostp_HOST_UR 0 [] (some r.pkt.fjid)
          ((s.setHtag n none).bump Adr.HOSTP_HOST_UR 1))))))) := by
  rw [exec_hostCompletion_held tag live req, State.hostCpl, if_neg failed, ← heldCells_eq]

end

/-! ### Timeouts -/

theorem exec_hostCplTimeout_early (early : s.ns < g.at_ + 1000000 * s.host.cplMs) :
    exec (.hostCplTimeout n) s = .next s := by
  change execHostCplTimeout n s = _
  rw [execHostCplTimeout, tag]
  dsimp only
  rw [if_pos early]

section
variable (due : g.at_ + 1000000 * s.host.cplMs ≤ s.ns)
include due

theorem exec_hostCplTimeout_quarantined (quar : g.quar = true) :
    exec (.hostCplTimeout n) s = .next (State.hostRun ((s.setHtag n none).bump Adr.HOSTP_CPL_TIMEOUTS 1)) := by
  change execHostCplTimeout n s = _
  rw [execHostCplTimeout, tag]
  dsimp only
  rw [if_neg (Nat.not_lt.2 due), if_pos quar]

theorem exec_hostCplTimeout_held (live : g.quar = false) (req : s.hreq g.req = some r) :
    exec (.hostCplTimeout n) s = .next (State.hostRun (State.hostSettle g.req (State.freeLocal r.heldCells
      (State.setHreq g.req (some { r.fail 7 with cells := none }) (State.raise Err.hostp_CPL_TIMEOUT 0 [] none
        ((s.setHtag n none).bump Adr.HOSTP_CPL_TIMEOUTS 1)))))) := by
  have req' : ((s.setHtag n none).bump Adr.HOSTP_CPL_TIMEOUTS 1).hreq g.req = some r := req
  change execHostCplTimeout n s = _
  rw [execHostCplTimeout, tag]
  dsimp only
  rw [if_neg (Nat.not_lt.2 due), if_neg (by simp [live]), req', ← heldCells_eq]

end

end

/-- Settles O52, one lemma for each outcome of a request, of a completion and of a timeout. What a request holds until it
ends is the model's choice (log 50), as are the open events before a timeout and without a request (log 8, 9). -/
theorem hostTraffic : Obligations.HostTraffic := by
  refine ⟨fun s p k f c u j v fn mreq taken head => ?_, fun s p k other => exec_hostRequest_none other,
    fun s n st d b none_ => exec_hostCompletion_unexpected none_,
    fun s n st d b g tag quar => exec_hostCompletion_quarantined tag quar,
    fun s n d b g r tag live req whole => exec_hostCompletion_whole tag live req whole,
    fun s n d b g r tag live req part => exec_hostCompletion_part tag live req part,
    fun s n st d b g r failed tag live req => exec_hostCompletion_failed tag live req failed,
    fun s n g tag due => ⟨fun quar => exec_hostCplTimeout_quarantined tag due quar,
      fun r live req => exec_hostCplTimeout_held tag due live req⟩,
    fun s n g tag early => exec_hostCplTimeout_early tag early⟩
  have rx : HostRx s p k f c j u v := ⟨fn, mreq, taken, head⟩
  exact ⟨fun bound issues mode atomic => exec_hostRequest_queued rx bound issues mode atomic,
    fun vf unbound => exec_hostRequest_unbound rx vf unbound, fun bound muted => exec_hostRequest_muted rx bound muted⟩

end

end Sys2Proof.Machine
end

section
/-! PROOFS. The management chain: frames (R426), accesses (R429, R499) and the election (R427, Table 16-8). -/

namespace Sys2Proof.Machine
open Sys2Proof

section
variable {s u : State} {b r : Bool} {f d : List Byte} {h n off : Nat} {src : Source} {ws : List Word} {a : ChainAcc}

/-! ### Frames (R426) -/

/-- The payload of a chain frame. -/
def chainPayload (f : List Byte) : List Byte := (f.drop 16).take (f.length - 20)

/-- A well-formed frame with header `h` arrives, and the chain's registers are on. -/
structure ChainFrame (s : State) (f : List Byte) (h : Nat) : Prop where
  on : s.pageOn .chain 0 = true
  good : chainBad f = false
  header : h = leNat (f.take 16)

/-- The commands of an arriving frame, each with the type of frame it takes (`noncomputable`: `Instr` has more constructors
than compiled data can tag). -/
noncomputable def chainFrames (b : Bool) (f : List Byte) : List (Instr × Nat) :=
  [(.chainClaimRx b f, 1), (.chainEnumRx b f, 2), (.chainReadRx b true f, 3), (.chainReadRx b false f, 3),
    (.chainWriteRx b true f, 4), (.chainWriteRx b false f, 4), (.chainReadRspRx b f, 5), (.chainWriteRspRx b f, 6),
    (.chainEventRx b f, 7), (.chainBeaconRx b f, 8), (.chainEnumEndRx b f, 9)]

theorem exec_chainFrames (b : Bool) (f : List Byte) : ∀ c ∈ chainFrames b f, ∃ act, ∀ s,
    exec c.1 s = .next (s.chainRx c.2 b f act) := by
  intro c mem
  simp only [chainFrames, List.mem_cons, List.not_mem_nil, or_false] at mem
  rcases mem with rfl | rfl | rfl | rfl | rfl | rfl | rfl | rfl | rfl | rfl | rfl <;> exact ⟨_, fun _ => rfl⟩

section
variable {ty : Nat} (act : Nat → List Byte → State → State)

theorem chainRx_bad (on : s.pageOn .chain 0 = true) (bad : chainBad f = true) :
    s.chainRx ty b f act = s.bump Adr.CHAIN_CHAIN_CRC 1 := by
  rw [State.chainRx, if_neg (by simp [on]), if_pos bad]

theorem chainRx_good (frame : ChainFrame s f h) (type : chType h = ty) : s.chainRx ty b f act =
    if s.chain.st == .off then s.chainFwd b h (chainPayload f) else act h (chainPayload f) s := by
  obtain ⟨on, good, rfl⟩ := frame
  rw [State.chainRx, if_neg (by simp [on]), if_neg (by simp [good])]
  dsimp only
  rw [if_neg (not_not.2 type)]
  rfl

theorem chainRx_off (frame : ChainFrame s f h) (type : chType h = ty) (off : s.chain.st = .off) :
    s.chainRx ty b f act = s.chainFwd b h (chainPayload f) := by
  rw [chainRx_good act frame type, if_pos (by simp [off])]

theorem chainRx_acts (frame : ChainFrame s f h) (type : chType h = ty) (awake : s.chain.st ≠ .off) :
    s.chainRx ty b f act = act h (chainPayload f) s := by
  rw [chainRx_good act frame type, if_neg (by simpa using awake)]

end

theorem chainFwd_sent {l : List Byte} (hops : chTtl h ≠ 0) (up : s.chainUp (!b) = true) : s.chainFwd b h l =
    State.bump Adr.CHAIN_FRAMES_FWD 1
      (s.chainSend (!b) (setBits (BitVec.ofNat 128 h) 109 104 (chTtl h - 1)).toNat l) := by
  rw [State.chainFwd, if_neg (by simp [hops, up])]

theorem awake_of_leads (leads : s.leads = true) : s.chain.st ≠ .off := by
  intro off
  simp [State.leads, off] at leads

/-! ### The windows of the lead (R429, R499) -/

theorem chainCuts_none (fuel off : Nat) : chainCuts fuel off 0 = [] := by
  cases fuel <;> rfl

/-- An access of at most 64 dwords is one frame. -/
theorem chainCuts_one (least : 1 ≤ n) (most : n ≤ 64) : chainCuts n 0 n = [(0, n)] := by
  obtain ⟨m, rfl⟩ := Nat.exists_eq_add_of_le' least
  rw [chainCuts, if_neg m.succ_ne_zero, Nat.min_eq_left most, Nat.sub_eq_zero_of_le most, chainCuts_none]

theorem length_dwordsOf : ∀ d : List Byte, (dwordsOf d).length = d.length / 4
  | _ :: _ :: _ :: _ :: rest => by
    rw [dwordsOf, List.length_cons, length_dwordsOf rest]
    simp only [List.length_cons]
    omega
  | [] | [_] | [_, _] | [_, _, _] => by simp [dwordsOf]

theorem exec_chainWindowRead_own (own : nbits off 31 26 = 0) : exec (.chainWindowRead off n) s =
    .next (s.readDwords .host false (off % 2 ^ 26 / 4 * 4) n) := congrArg Host.Outcome.next (if_pos own)

section
variable (other : nbits off 31 26 ≠ 0)
include other

theorem exec_chainWindowRead_follower (follows : s.leads = false) : exec (.chainWindowRead off n) s =
    .next (s.emit (.chainData (nbits off 31 26) (off % 2 ^ 26 / 4 * 4) (List.replicate n 0xFFFFFFFF#32))) :=
  congrArg Host.Outcome.next ((if_neg other).trans (if_pos (by simp [follows])))

theorem exec_chainWindowRead_lead (leads : s.leads = true) (least : 1 ≤ n) (most : n ≤ 64) :
    exec (.chainWindowRead off n) s =
      .next (s.chainAccess { pos := nbits off 31 26, addr := off % 2 ^ 26 / 4 * 4, count := n }) := by
  change execChainWindowRead off n s = _
  rw [execChainWindowRead]
  dsimp only
  rw [if_neg other, if_neg (by simp [leads]), chainCuts_one least most]
  rfl

end

theorem exec_chainWindowWrite_bad (bad : off % 4 ≠ 0 ∨ d.length % 4 ≠ 0 ∨ d.length = 0) :
    exec (.chainWindowWrite off d) s = .next s.mmioBad := congrArg Host.Outcome.next (if_pos (by omega))

/-- The write that is answered where offset and length are whole dwords. -/
theorem exec_chainWindowWrite (aligned : off % 4 = 0) (whole : d.length % 4 = 0) (least : 4 ≤ d.length) :
    exec (.chainWindowWrite off d) s = .next
      (if nbits off 31 26 = 0 then s.writeDwords .host false (off % 2 ^ 26) (dwordsOf d)
      else if !s.leads then s
      else (chainCuts (dwordsOf d).length 0 (dwordsOf d).length).foldl (fun s c => s.chainAccess
        { pos := nbits off 31 26, addr := off % 2 ^ 26 + 4 * c.1, count := c.2
          write := some (((dwordsOf d).drop c.1).take c.2) }) s) :=
  congrArg Host.Outcome.next (if_neg (by omega))

theorem exec_chainWindowWrite_lead (aligned : off % 4 = 0) (whole : d.length % 4 = 0) (least : 4 ≤ d.length)
    (most : d.length ≤ 256) (other : nbits off 31 26 ≠ 0) (leads : s.leads = true) :
    exec (.chainWindowWrite off d) s = .next (s.chainAccess
      { pos := nbits off 31 26, addr := off % 2 ^ 26, count := d.length / 4, write := some (dwordsOf d) }) := by
  have length := length_dwordsOf d
  have all : (dwordsOf d).take (d.length / 4) = dwordsOf d := List.take_of_length_le length.le
  rw [exec_chainWindowWrite aligned whole least, if_neg other, if_neg (by simp [leads]), length,
    chainCuts_one (by omega) (by omega)]
  simp only [List.foldl_cons, List.foldl_nil, Nat.mul_zero, Nat.add_zero, List.drop_zero, all]

/-! ### Accesses at a follower (R429) -/

section
variable (frame : ChainFrame s f h)
include frame

section
variable (mine : s.chainMine h = true)
include mine

omit frame in
theorem follower_of_chainMine : s.chain.st = .follower := by
  simp only [State.chainMine, Bool.and_eq_true, beq_iff_eq] at mine
  exact mine.1.1

omit frame in
theorem not_leads_of_chainMine : s.leads = false := by
  simp [State.leads, follower_of_chainMine mine]

omit frame in
theorem awake_of_chainMine : s.chain.st ≠ .off := by simp [follower_of_chainMine mine]

theorem exec_chainReadRx_mine (fits : chAccessOk h (chLen h) = true) (type : chType h = 3)
    (read : s.chainRead (chArg h) (chLen h) = (ws, u)) :
    exec (.chainReadRx b r f) s = .next (u.chainReply b r h 5 0 ws) := by
  change execChainReadRx b r f s = _
  rw [execChainReadRx, chainRx_acts _ frame type (awake_of_chainMine mine), State.chReadRx,
    if_neg (by simp [not_leads_of_chainMine mine]), if_neg (by simp [mine]), if_neg (by simp [fits]), read]

theorem exec_chainWriteRx_mine (fits : chAccessOk h (chLen h) = true) (type : chType h = 4) :
    exec (.chainWriteRx b r f) s = .next (State.chainReply b r h 6 0 []
      (s.writeDwords .chain false (chArg h) (dwordsOf (chainPayload f)))) := by
  change execChainWriteRx b r f s = _
  rw [execChainWriteRx, chainRx_acts _ frame type (awake_of_chainMine mine), State.chWriteRx,
    if_neg (by simp [not_leads_of_chainMine mine]), if_neg (by simp [mine]), if_neg (by simp [fits])]

end

omit frame in
theorem chAccessOk_of (aligned : chArg h % 4 = 0) (low : chArg h < 2 ^ 26) (least : 1 ≤ n) : chAccessOk h n = true := by
  simp only [chAccessOk, aligned, low, least, decide_true, beq_self_eq_true, Bool.and_self]

/-! ### Responses and events at the lead (R416, R429, R430) -/

section
variable (awake : s.chain.st ≠ .off) (access : s.chain.accs.get (chTag h) = some a) (fine : chArg h % 16 = 0)
include awake access fine

theorem exec_chainReadRspRx_data (type : chType h = 5) (read : a.write = none) (host : a.serial = false)
    (whole : (dwordsOf (chainPayload f)).length = a.count) : exec (.chainReadRspRx b f) s = .next
      (State.chainFree (chTag h) (s.emit (.chainData a.pos a.addr (dwordsOf (chainPayload f))))) := by
  change execChainReadRspRx b f s = _
  rw [execChainReadRspRx, chainRx_acts _ frame type awake, State.chReadRsp, access]
  dsimp only
  rw [if_neg (by simp [read]), if_neg (by simp [fine, whole]), if_neg (by simp [host])]

theorem exec_chainWriteRspRx_done (type : chType h = 6) (write : a.write.isSome = true) :
    exec (.chainWriteRspRx b f) s = .next (s.chainFree (chTag h)) := by
  change execChainWriteRspRx b f s = _
  rw [execChainWriteRspRx, chainRx_acts _ frame type awake, State.chWriteRsp, access]
  dsimp only
  rw [if_neg (by simp [Option.isSome_iff_ne_none.1 write]), if_neg (by simp [fine])]

end

theorem exec_chainEventRx (awake : s.chain.st ≠ .off) (type : chType h = 7) :
    exec (.chainEventRx b f) s = .next (s.eventRx b h (chainPayload f)) :=
  congrArg Host.Outcome.next (chainRx_acts _ frame type awake)

end

/-- A follower signals an MSI-X vector. -/
theorem eventRx_vector {l : List Byte} (leads : s.leads = true) (code : nbits (chArg h) 15 8 = 1) :
    s.eventRx b h l = s.msix 0 (64 * chSrc h + chArg h % 64) := by
  rw [State.eventRx, if_neg (by simp [leads]), code]
  rfl

/-- A follower reports a port that went down. -/
theorem eventRx_portDown {l : List Byte} (leads : s.leads = true) (code : nbits (chArg h) 15 8 = 3) :
    s.eventRx b h l = s.chainBreak (chSrc h) (chArg h % 2) := by
  rw [State.eventRx, if_neg (by simp [leads]), code]
  rfl

theorem exec_chainRspTimeout_due (access : s.chain.accs.get n = some a)
    (due : a.at_ + 1000 * s.rf Adr.CHAIN_RSP_TIMEOUT 19 0 ≤ s.ns) : exec (.chainRspTimeout n) s =
      .next (State.chainFree n (if a.write.isSome = true
        then State.raise Err.chain_CHAIN_WR_FAIL 0 [] none (s.bump Adr.CHAIN_CHAIN_TIMEOUTS 1)
        else State.raise Err.chain_CHAIN_TIMEOUT 0 [a.pos] none ((s.bump Adr.CHAIN_CHAIN_TIMEOUTS 1).chainOnes a))) := by
  change execChainRspTimeout n s = _
  rw [execChainRspTimeout, access]
  dsimp only
  rw [if_neg (Nat.not_lt.2 due)]

end

/-- Settles O58. Every command of an arriving frame is `State.chainRx` of its type, which gives the first two clauses for
all of them at once. That a frame of a wrong length counts in CHAIN_CRC, that a frame for a port that is down is dropped and
that the timeouts of writes count as those of reads are the model's choices (log 60). -/
theorem chainTraffic : Obligations.ChainTraffic := by
  refine ⟨fun s b f on bad c mem => ?_, fun s b f h on good header off c mem type => ?_,
    fun s b h l hops up => chainFwd_sent hops up, fun s b h l dropped => if_pos dropped,
    fun s off n own => exec_chainWindowRead_own own,
    fun s off n other follows => exec_chainWindowRead_follower other follows,
    fun s off n other leads least most => exec_chainWindowRead_lead other leads least most,
    fun s off d aligned whole least most => ⟨fun own => ?_, fun other leads =>
      exec_chainWindowWrite_lead aligned whole least most other leads, fun other follows => ?_⟩,
    fun s off d bad => exec_chainWindowWrite_bad bad,
    fun s b r f h u ws on good header mine aligned low least => ?_,
    fun s b f h a ws on good header awake access ws_eq fine => ?_,
    fun s b f h on good header leads type => ?_,
    fun s n a access due => exec_chainRspTimeout_due access due⟩
  · have frame : c ∈ (chainFrames b f).map Prod.fst := mem
    obtain ⟨⟨c, ty⟩, there, rfl⟩ := List.mem_map.1 frame
    obtain ⟨act, run⟩ := exec_chainFrames b f _ there
    rw [run, chainRx_bad act on bad]
  · obtain ⟨act, run⟩ := exec_chainFrames b f c mem
    rw [run, chainRx_off act ⟨on, good, header⟩ type off]
    rfl
  · rw [exec_chainWindowWrite aligned whole least, if_pos own]
  · rw [exec_chainWindowWrite aligned whole least, if_neg other, if_pos (by simp [follows])]
  · have frame : ChainFrame s f h := ⟨on, good, header⟩
    have fits := chAccessOk_of aligned low least
    exact ⟨fun type read => exec_chainReadRx_mine frame mine fits type read,
      fun type => exec_chainWriteRx_mine frame mine fits type⟩
  · subst ws_eq
    have frame : ChainFrame s f h := ⟨on, good, header⟩
    exact ⟨fun type read host whole => exec_chainReadRspRx_data frame awake access fine type read host whole,
      fun type write => exec_chainWriteRspRx_done frame awake access fine type write⟩
  · have event := exec_chainEventRx (b := b) ⟨on, good, header⟩ (awake_of_leads leads) type
    exact ⟨fun code => event.trans (congrArg _ (eventRx_vector leads code)),
      fun code => event.trans (congrArg _ (eventRx_portDown leads code))⟩

end Sys2Proof.Machine
end

section
/-! PROOFS. Control of the management chain and its election (R427, Table 16-8). -/

namespace Sys2Proof.Machine
open Sys2Proof

section
variable {s : State} {b : Bool} {f l : List Byte} {h n t : Nat} {src : Source}

/-! ### Control -/

theorem exec_chainEnable_off (takes : s.takes src Adr.CHAIN_CTRL .rw = true) (off : s.chain.st = .off) :
    exec (.chainEnable src) s = .next ((s.setRg Adr.CHAIN_CTRL 1).chainLeave .listen) := by
  have enable : s.chainCtrl 1 = (s.setRg Adr.CHAIN_CTRL 1).chainLeave .listen :=
    if_pos (beq_iff_eq.2 off)
  exact congrArg Host.Outcome.next ((guarded_of_takes _ takes).trans enable)

theorem exec_chainDisable (takes : s.takes src Adr.CHAIN_CTRL .rw = true) :
    exec (.chainDisable src) s = .next ((s.setRg Adr.CHAIN_CTRL 0).chainLeave .off) :=
  congrArg Host.Outcome.next (guarded_of_takes _ takes)

theorem chainRestart_awake (awake : s.chain.st ≠ .off) : s.chainRestart = s.chainLeave .listen :=
  if_neg (by simpa using awake)

theorem exec_chainRestart_awake (takes : s.takes src Adr.CHAIN_CMD .wo = true) (awake : s.chain.st ≠ .off) :
    exec (.chainRestart src) s = .next (s.chainLeave .listen) :=
  congrArg Host.Outcome.next ((guarded_of_takes _ takes).trans (chainRestart_awake awake))

/-- With no access waiting, a state without a position is entered silently. -/
theorem chainLeave_idle (idle : s.chain.waiting = []) (x : ChainState) : s.chainLeave x = s.modChain fun c => { c with
    st := x, pos := 0, placed := false, heard := false, fresh := false, sideA := none, waiting := [] } := by
  simp only [State.chainLeave, State.chainFlush, State.modChain, idle, List.foldl_nil]

/-! ### Timers -/

/-- The frame of the own CLAIM. -/
def State.claimFrame (s : State) : List Byte := chainFrame (chainHdr 1 0 0 0 s.chainPrio 0 0 s.serial) []

theorem chainClaim_eq (s : State) : s.chainClaim = { s with
    chain := { s.chain with st := .claim }
    out := s.out ++ [.chain false s.claimFrame, .chain true s.claimFrame] } := by
  have both : s.out ++ [.chain false s.claimFrame] ++ [.chain true s.claimFrame] =
    s.out ++ [.chain false s.claimFrame, .chain true s.claimFrame] := List.append_assoc _ _ _
  rw [← both]
  rfl

theorem exec_chainListenTimer_claims (listen : s.chain.st = .listen) (eligible : s.chainEligible = true)
    (heard : s.chain.heard = false) : exec .chainListenTimer s = .next s.chainClaim :=
  congrArg Host.Outcome.next ((if_neg (by simp [listen])).trans (if_pos (by simp [eligible, heard])))

theorem exec_chainListenTimer_waits (listen : s.chain.st = .listen)
    (waits : s.chainEligible = false ∨ s.chain.heard = true) :
    exec .chainListenTimer s = .next (s.modChain fun c => { c with heard := false }) := by
  have held : ¬ (s.chainEligible && !s.chain.heard) = true := by
    rcases waits with eligible | heard
    · simp [eligible]
    · simp [heard]
  exact congrArg Host.Outcome.next ((if_neg (by simp [listen])).trans (if_neg held))

theorem exec_chainBeaconLoss_silent (follows : s.chain.st = .follower)
    (silent : s.chain.beaconAt + 30000 * s.rf Adr.CHAIN_BEACON_INTERVAL 15 0 ≤ s.ns) :
    exec .chainBeaconLoss s = .next (s.chainLeave .listen) := by
  have silence : s.silent 30 = true := decide_eq_true silent
  exact congrArg Host.Outcome.next (if_pos (by simp [follows, silence]))

theorem exec_chainHostLoss_due (down : s.chain.hostDown = some t) (limited : s.rf Adr.CHAIN_HOST_LOSS 15 0 ≠ 0)
    (due : t + 1000000 * s.rf Adr.CHAIN_HOST_LOSS 15 0 ≤ s.ns) :
    exec .chainHostLoss s = .next (State.chainRestart (s.modChain fun c => { c with hostDown := none })) := by
  change execChainHostLoss s = _
  rw [execChainHostLoss, down]
  dsimp only
  rw [if_neg (not_or.2 ⟨limited, Nat.not_lt.2 due⟩)]

/-! ### CLAIM and BEACON -/

theorem leads_iff : s.leads = true ↔ s.chain.st = .lead ∨ s.chain.st = .enumerating := by
  simp [State.leads]

theorem exec_chainClaimRx (frame : ChainFrame s f h) (type : chType h = 1) (awake : s.chain.st ≠ .off) :
    exec (.chainClaimRx b f) s = .next (s.claimRx b h (chainPayload f)) :=
  congrArg Host.Outcome.next (chainRx_acts _ frame type awake)

theorem exec_chainBeaconRx (frame : ChainFrame s f h) (type : chType h = 8) (awake : s.chain.st ≠ .off) :
    exec (.chainBeaconRx b f) s = .next (s.chBeaconRx b h (chainPayload f)) :=
  congrArg Host.Outcome.next (chainRx_acts _ frame type awake)

theorem claimRx_own (claim : s.chain.st = .claim) (own : chArg h = s.serial) : s.claimRx b h l = s.chainEnum true := by
  rw [State.claimRx, if_pos own, if_pos (beq_iff_eq.2 claim)]

section
variable (other : chArg h ≠ s.serial)
include other

/-- What another Ikion's CLAIM does in each state. -/
theorem claimRx_other : s.claimRx b h l = (match s.chain.st with
    | .listen =>
      if s.chainBetter h then (s.chainFwd b h l).modChain fun c => { c with heard := true }
      else if s.chainEligible then s.chainClaim else s.chainFwd b h l
    | .claim => if s.chainBetter h then (s.chainFwd b h l).chainCollide else s
    | .enumerating | .lead => s.chainBeacon
    | .off | .backoff | .follower => s.chainFwd b h l) := if_neg other

theorem claimRx_claim_better (claim : s.chain.st = .claim) (better : s.chainBetter h = true) :
    s.claimRx b h l = (s.chainFwd b h l).chainCollide := by
  rw [claimRx_other other, claim]
  exact if_pos better

theorem claimRx_listen_better (listen : s.chain.st = .listen) (better : s.chainBetter h = true) :
    s.claimRx b h l = (s.chainFwd b h l).modChain fun c => { c with heard := true } := by
  rw [claimRx_other other, listen]
  exact if_pos better

theorem claimRx_listen_worse (listen : s.chain.st = .listen) (worse : s.chainBetter h = false)
    (eligible : s.chainEligible = true) : s.claimRx b h l = s.chainClaim := by
  rw [claimRx_other other, listen]
  exact (if_neg (by simp [worse])).trans (if_pos eligible)

theorem claimRx_leads (leads : s.leads = true) : s.claimRx b h l = s.chainBeacon := by
  rw [claimRx_other other]
  rcases leads_iff.1 leads with st | st <;> rw [st]

theorem chBeaconRx_leads_better (leads : s.leads = true) (better : s.chainBetter h = true) :
    s.chBeaconRx b h l = s.chainCollide := by
  rw [State.chBeaconRx]
  rcases leads_iff.1 leads with st | st <;> rw [st] <;> exact (if_neg other).trans (if_pos better)

end

theorem chBeaconRx_claim (claim : s.chain.st = .claim) :
    s.chBeaconRx b h l = ((s.chainFwd b h l).chainEventOn b 2 (b2n b)).chainLeave .listen := by
  rw [State.chBeaconRx, claim]

theorem chBeaconRx_lead_heard (follows : s.chain.st = .follower) (lead : chArg h = s.rg64 Adr.CHAIN_LEAD_SERIAL_LO) :
    s.chBeaconRx b h l = (s.chainFwd b h l).modChain fun c => { c with beaconAt := s.ns, fresh := false } := by
  rw [State.chBeaconRx, follows]
  exact if_pos lead

end

/-- Settles O59. That an own CLAIM is of note in CLAIM only (log 28), that JOIN goes out of the port the BEACON came from
and that a lost host restarts the election from every state (log 60) are the model's choices. -/
theorem chainElection : Obligations.ChainElection := by
  refine ⟨fun s src takes off => exec_chainEnable_off takes off, fun s src takes => exec_chainDisable takes,
    fun s src takes awake => exec_chainRestart_awake takes awake, fun s x idle => chainLeave_idle idle x,
    fun s listen eligible heard => ?_, fun s listen waits => exec_chainListenTimer_waits listen waits,
    fun s claim => congrArg _ (if_pos (beq_iff_eq.2 claim)), fun s backoff => congrArg _ (if_pos (beq_iff_eq.2 backoff)),
    fun s b f h l on good header payload type => ?_, fun s b f h l on good header payload type => ?_,
    fun s lead => congrArg _ (if_pos (beq_iff_eq.2 lead)),
    fun s follows silent => exec_chainBeaconLoss_silent follows silent, fun s t n down limit limited due => ?_⟩
  · exact ⟨s.claimFrame, s.claimFrame,
      (exec_chainListenTimer_claims listen eligible heard).trans (congrArg _ (chainClaim_eq s))⟩
  · subst payload
    have acts := exec_chainClaimRx (b := b) ⟨on, good, header⟩ type
    exact ⟨fun claim own => (acts (by simp [claim])).trans (congrArg _ (claimRx_own claim own)),
      fun claim other better => (acts (by simp [claim])).trans (congrArg _ (claimRx_claim_better other claim better)),
      fun listen other worse eligible =>
        (acts (by simp [listen])).trans (congrArg _ (claimRx_listen_worse other listen worse eligible)),
      fun listen other better => (acts (by simp [listen])).trans (congrArg _ (claimRx_listen_better other listen better)),
      fun leads other => (acts (awake_of_leads leads)).trans (congrArg _ (claimRx_leads other leads))⟩
  · subst payload
    have acts := exec_chainBeaconRx (b := b) ⟨on, good, header⟩ type
    exact ⟨fun claim => (acts (by simp [claim])).trans (congrArg _ (chBeaconRx_claim claim)),
      fun follows lead => (acts (by simp [follows])).trans (congrArg _ (chBeaconRx_lead_heard follows lead)),
      fun leads other better => (acts (awake_of_leads leads)).trans (congrArg _ (chBeaconRx_leads_better other leads better))⟩
  · subst limit
    exact exec_chainHostLoss_due down limited due

end Sys2Proof.Machine
end
